-- ==== Sys2Proof/Word.lean ====
section
/-! DEFINITION. The words of the device: 64-bit registers and protected words, bytes, and the numbered units of the
chapters as bit vectors of the width the manual gives them (R6, R10 to R12, R15). -/

namespace Sys2Proof

/-- A register or a protected memory word (R6, R340). -/
abbrev Word := BitVec 64
/-- One byte. -/
abbrev Byte := BitVec 8
/-- A site index: row × 16 + column (R10). -/
abbrev SiteId := BitVec 8
/-- A queue number within a site (R12). -/
abbrev QueueNo := BitVec 5
/-- A queue or signal counter identifier: site index × 32 + number (R12, R238). -/
abbrev QueueId := BitVec 13
/-- A partition or tenant number (R315). -/
abbrev PartNo := BitVec 4
/-- A section table entry of a partition (Table 12-6). -/
abbrev EntryNo := BitVec 5
/-- A Spur number, 0 to 191 (R11). -/
abbrev SpurNo := BitVec 8
/-- A Tarn number, 0 to 63 (R11). -/
abbrev TarnNo := BitVec 6
/-- A 48-bit device address (R479). -/
abbrev Addr := BitVec 48
/-- A physical memory channel, 0 to 191 (R261). -/
abbrev ChanNo := BitVec 8
/-- A queue pair number, 0 to 1,023 (R433). -/
abbrev QpNo := BitVec 10
/-- A stream slot: 0 to 15 serve the partitions, 16 the base stream (R415). -/
abbrev SlotNo := BitVec 5

end Sys2Proof
end

