-- ==== Sys2Proof/Machine/Types.lean ====
section
/-! DEFINITION. The operand types of the commands: the instructions of the sequencer and of the address generators
as the manual's tables encode them (Tables 03-2, 03-3, 04-1, 05-2, 06-2, 06-3), the messages and frames of the
links, the parts of a section image (Table 10-1), and what an event brings with it from outside. -/

namespace Sys2Proof.Machine

/-- The cycle within the pitch in which a command takes place, and the site it takes place at. -/
structure At where
  site : SiteId
  t : BitVec 16
  deriving DecidableEq, Repr

/-- As `At`, for a stream program or thread of the site (R181). -/
structure PAt where
  site : SiteId
  prog : BitVec 4
  t : BitVec 16
  deriving DecidableEq, Repr

/-- The guard of a sequencer instruction: predicate GP, inverted when GINV = 1 (R148). -/
structure Guard where
  inv : Bool
  gp : BitVec 3
  deriving DecidableEq, Repr

/-- BR (R152). -/
structure BrOps where
  g : Guard
  target : BitVec 11
  pop : BitVec 3
  deriving DecidableEq, Repr

/-- LOOP (R151). -/
structure LoopOps where
  g : Guard
  lc : BitVec 4
  endA : BitVec 11
  count : BitVec 16
  deriving DecidableEq, Repr

/-- LSET and LADD (R149). -/
structure LcOps where
  g : Guard
  lc : BitVec 4
  imm : BitVec 16
  deriving DecidableEq, Repr

/-- PSET (R150). -/
structure PsetOps where
  g : Guard
  pd : BitVec 3
  lc : BitVec 4
  cmp : BitVec 3
  pa : BitVec 3
  pb : BitVec 3
  imm : BitVec 16
  deriving DecidableEq, Repr

/-- QTRY (R158). -/
structure QtryOps where
  g : Guard
  pd : BitVec 3
  qn : QueueNo
  dir : Bool
  n : BitVec 7
  deriving DecidableEq, Repr

/-- SEL (R166). -/
structure SelOps where
  g : Guard
  pd : BitVec 3
  lc : BitVec 4
  mode : Bool
  y : Bool
  rp : BitVec 2
  mask : BitVec 32
  deriving DecidableEq, Repr

/-- TPUSH (R169). -/
structure TpushOps where
  g : Guard
  unit : BitVec 3
  ps : Bool
  pa : BitVec 3
  token : BitVec 16
  deriving DecidableEq, Repr

/-- SIG (R160). -/
structure SigOps where
  g : Guard
  path : Bool
  target : QueueId
  qn : QueueNo
  add : BitVec 16
  deriving DecidableEq, Repr

/-- WAIT (R160). -/
structure WaitOps where
  g : Guard
  cnt : BitVec 5
  n : BitVec 16
  deriving DecidableEq, Repr

/-- ARRIVE (R161). -/
structure ArriveOps where
  g : Guard
  bar : BitVec 6
  u : Bool
  w : Bool
  deriving DecidableEq, Repr

/-- CLAIM (R162). -/
structure ClaimOps where
  g : Guard
  tarn : TarnNo
  ctr : BitVec 6
  lc : BitVec 4
  inc : BitVec 16
  deriving DecidableEq, Repr

/-- STRT (R163). -/
structure StrtOps where
  g : Guard
  stream : BitVec 4
  y : Bool
  pd : BitVec 3
  arg : BitVec 16
  deriving DecidableEq, Repr

/-- TMARK (R165). -/
structure TmarkOps where
  g : Guard
  value : BitVec 16
  deriving DecidableEq, Repr

/-- MMA (Table 03-2). -/
structure MmaOps where
  opdA : BitVec 4
  opdB : BitVec 4
  mode : BitVec 2
  anchor : BitVec 10
  slot : BitVec 7
  kt : BitVec 8
  ta : Bool
  tb : Bool
  first : Bool
  last : Bool
  rmask : BitVec 3
  bm : Bool
  bctr : BitVec 4
  deriving DecidableEq, Repr

/-- MMERGE (Table 03-3). -/
structure MmergeOps where
  opd : BitVec 4
  mode : BitVec 2
  anchor : BitVec 10
  slot : BitVec 7
  first : Bool
  last : Bool
  deriving DecidableEq, Repr

/-- MSAVE (Table 03-3). -/
structure MsaveOps where
  opd : BitVec 4
  slot : BitVec 7
  deriving DecidableEq, Repr

/-- MFREE (Table 03-3). -/
structure MfreeOps where
  slot : BitVec 7
  deriving DecidableEq, Repr

/-- VOP (Table 04-1). -/
structure VopOps where
  func : BitVec 6
  dst : BitVec 4
  s1 : BitVec 4
  s2 : BitVec 4
  s3 : BitVec 4
  nm1 : BitVec 6
  lmask : BitVec 3
  deriving DecidableEq, Repr

/-- VRD (Table 04-1). -/
structure VrdOps where
  dst : BitVec 4
  slot : BitVec 7
  row0 : BitVec 6
  nm1 : BitVec 6
  rm : BitVec 2
  sat : Bool
  lmask : BitVec 3
  tid : BitVec 24
  deriving DecidableEq, Repr

/-- VCVT (Table 04-1). -/
structure VcvtOps where
  dst : BitVec 4
  src : BitVec 4
  nm1 : BitVec 6
  rm : BitVec 2
  sat : Bool
  lmask : BitVec 3
  tid : BitVec 24
  deriving DecidableEq, Repr

/-- VRED (Table 04-1). -/
structure VredOps where
  dst : BitVec 4
  src : BitVec 4
  nm1 : BitVec 6
  func : BitVec 2
  deriving DecidableEq, Repr

/-- VLD and VST (Table 04-1). -/
structure VmemOps where
  opd : BitVec 4
  sbase : BitVec 17
  spitch : BitVec 12
  nm1 : BitVec 6
  deriving DecidableEq, Repr

/-- VIMM (Table 04-1). -/
structure VimmOps where
  line : BitVec 9
  lane0 : BitVec 6
  cntm1 : BitVec 6
  imm : BitVec 32
  deriving DecidableEq, Repr

/-- One instruction of the sequencer's program (Table 05-1). -/
inductive SeqInstr where
  | nop (g : Guard)
  | endI (g : Guard)
  | br (o : BrOps)
  | loop (o : LoopOps)
  | lset (o : LcOps)
  | ladd (o : LcOps)
  | pset (o : PsetOps)
  | qtry (o : QtryOps)
  | sel (o : SelOps)
  | tpush (o : TpushOps)
  | sig (o : SigOps)
  | wait (o : WaitOps)
  | arrive (o : ArriveOps)
  | claim (o : ClaimOps)
  | strt (o : StrtOps)
  | tmark (o : TmarkOps)
  | mma (o : MmaOps)
  | mmerge (o : MmergeOps)
  | msave (o : MsaveOps)
  | mfree (o : MfreeOps)
  | vop (o : VopOps)
  | vrd (o : VrdOps)
  | vcvt (o : VcvtOps)
  | vred (o : VredOps)
  | vld (o : VmemOps)
  | vst (o : VmemOps)
  | vimm (o : VimmOps)
  deriving DecidableEq, Repr

/-- COPY (Table 06-3). -/
structure CopyOps where
  src : BitVec 3
  dst : BitVec 3
  c : Bool
  s : Bool
  is : Bool
  id : Bool
  lenm1 : BitVec 16
  deriving DecidableEq, Repr

/-- One instruction of an address generator (Tables 06-2 and 06-3). -/
inductive AgInstr where
  | aset (ad : BitVec 3) (imm : BitVec 48)
  | aadd (ad as : BitVec 3) (imm : BitVec 32)
  | aarg (ad as : BitVec 3) (sh : BitVec 6)
  | aloop (endA : BitVec 9) (count : BitVec 16)
  | copy (o : CopyOps)
  | signal (rem : Bool) (cnt : BitVec 5) (add : BitVec 16)
  | fence
  | endA
  deriving DecidableEq, Repr

/-- The four link directions, numbered as TRV_OUTd is (R215). -/
inductive Dir where
  | n | e | s | w
  deriving DecidableEq, Repr

/-- Number of a direction: 0 N, 1 E, 2 S, 3 W (R215). -/
def Dir.num : Dir → Nat
  | .n => 0
  | .e => 1
  | .s => 2
  | .w => 3

/-- The opposite direction. -/
def Dir.opp : Dir → Dir
  | .n => .s
  | .e => .w
  | .s => .n
  | .w => .e

/-- What an upset did to one run of a tile instruction or of its commit: the result words it changed (row, column,
value), the amounts it added to the checker's row and column syndromes, and whether the two tag computations differ.
An undisturbed run has every part empty (R102, R104). -/
structure Upset where
  cells : List (BitVec 6 × BitVec 6 × BitVec 128)
  rowAdd : List (BitVec 6 × BitVec 61)
  colAdd : List (BitVec 6 × BitVec 61)
  tag : Bool
  deriving DecidableEq, Repr

/-- What an upset did to one lane of a vector row: the error in the lane's integer result, whether the two copies of its
duplicated logic differ, and the code the lane then puts out (R136, R137). -/
structure LaneUpset where
  lane : BitVec 6
  delta : BitVec 64
  copy : Bool
  out : BitVec 32
  deriving DecidableEq, Repr

/-- An undisturbed run. -/
def Upset.none : Upset := ⟨[], [], [], false⟩

/-- One queue entry: 64 bytes, the poison bit of each of its eight words, and the syndrome of each, 8 bits a word, which is not
0 where a stored check byte does not match (R112, R340, Table 07-4). -/
structure Entry where
  bits : BitVec 512
  poison : BitVec 8
  synd : BitVec 64
  deriving DecidableEq, Repr

/-- The flit header of Table 13-3. -/
structure FlitHdr where
  src : SiteId
  part : PartNo
  kind : BitVec 3
  conn : BitVec 12
  cred : BitVec 7
  lseq : BitVec 6
  eseq : BitVec 16
  deriving DecidableEq, Repr

/-- One payload word of a flit, with its check byte and poison bit (R349). -/
structure FlitWord where
  data : Word
  check : Byte
  poison : Bool
  deriving DecidableEq, Repr

/-- A flit with the CRC it carries and the local slot it arrives in (R203, R349). -/
structure Flit where
  hdr : FlitHdr
  words : List FlitWord
  crc : BitVec 32
  slot : BitVec 4
  deriving DecidableEq, Repr

/-- Why a link dies (R375). -/
inductive LinkCause where
  | resendMissing | fourFailures | delayExceeded
  deriving DecidableEq, Repr

/-- An add message of a SIG with PATH = 0 (R242). -/
structure AddMsg where
  src : SiteId
  part : PartNo
  ctr : BitVec 5
  add : BitVec 16
  deriving DecidableEq, Repr

/-- A claim request (R253, R254). -/
structure ClaimMsg where
  src : SiteId
  part : PartNo
  ctr : BitVec 6
  inc : BitVec 16
  seq : BitVec 16
  deriving DecidableEq, Repr

/-- What one read of a stripe frame finds beyond the stored cells: the tag word's state (0 clean, 1 corrected,
2 uncorrectable), whether the tag differs from the stripe addressed, and the syndromes of data words that read in
error on this read (R263, Table 09-3). -/
structure FrameObs where
  tag : BitVec 2
  tagDiffers : Bool
  words : List (BitVec 5 × BitVec 8)
  deriving DecidableEq, Repr

/-- Power domains that a command or event names (R35, Table 01-11): a site's core, its router, a Tarn tier. -/
inductive DomKind where
  | core | router
  | tier (n : BitVec 2)
  deriving DecidableEq, Repr

/-- One reading of a configuration word by the scrubber: which word, and the syndrome read (R360). -/
structure ScrubObs where
  word : BitVec 16
  synds : List (BitVec 8)
  after : BitVec 8
  deriving DecidableEq, Repr

/-- The accumulation modes (R60). -/
inductive AccMode where
  | ex96 | ex128 | f32
  deriving DecidableEq, Repr

/-- A buffer of a scratchpad or Tarn buffer table (Table 10-1, R289, R334); `scale` marks an MX scale array. -/
structure Buffer where
  addr : Nat
  len : Nat
  reload : Bool
  srcSlot : Nat
  srcOff : Nat
  sharesWith : Option Nat
  scale : Bool
  deriving DecidableEq, Repr

/-- A site record of a section image: programs, initial register values by offset, scratchpad buffers, at the home
site index (Table 10-1). -/
structure SiteRec where
  site : Nat
  plen : Nat
  seq : List Word
  ag : List Word
  regs : List (Nat × Word)
  buffers : List Buffer
  deriving DecidableEq, Repr

/-- A connection of the connection table: queue identifiers, route, slots and declared maximum (Table 10-1, R233). -/
structure ConnRec where
  send : Nat
  recv : Nat
  route : List Dir
  fwd : List Nat
  ret : List Nat
  maxOut : Nat
  deriving DecidableEq, Repr

/-- A join: delay and buffering of its two paths, in entries (R234). -/
structure JoinRec where
  delayA : Nat
  bufA : Nat
  delayB : Nat
  bufB : Nat
  deriving DecidableEq, Repr

/-- A barrier of the barrier table (R244). -/
structure BarRec where
  bar : Nat
  members : List Nat
  rel : Nat
  target : Nat
  deriving DecidableEq, Repr

/-- A Tarn's part of the memory plan (R197). -/
structure TarnPlan where
  site : Nat
  twoHalf : Bool
  buffers : List Buffer
  deriving DecidableEq, Repr

/-- An external range of a group slot (R292); `scale` marks an MX scale array (R289). -/
structure ExtRange where
  slot : Nat
  off : Nat
  len : Nat
  rd : Bool
  wr : Bool
  output : Bool
  scale : Bool
  deriving DecidableEq, Repr

/-- A loop of a nest: its dimension (0 m, 1 n, 2 k) and trip count (R288). -/
structure NestLoop where
  dim : Nat
  trips : Nat
  deriving DecidableEq, Repr

/-- A matrix loop nest of the tile plan (R286 to R290); `l3` are M3 and N3, and `recomp` marks a recompute nest (R305). -/
structure TileNest where
  site : Nat
  mode : AccMode
  tensor : Nat × Nat × Nat
  l1 : Nat × Nat × Nat
  l2 : Nat × Nat × Nat
  l3 : Nat × Nat
  k3 : Nat
  loops : List NestLoop
  readout : Nat
  group : Option Nat
  lo : Nat
  hi : Nat
  recomp : Bool
  deriving DecidableEq, Repr

/-- A relocation record (Table 10-4). -/
structure Reloc where
  kind : Nat
  site : Nat
  store : Nat
  addr : Nat
  slot : Nat
  deriving DecidableEq, Repr

/-- A prefetch program for one reserved thread (R198). -/
structure PfProg where
  site : Nat
  thread : Nat
  at_ : Nat
  desc : Word
  words : List Word
  deriving DecidableEq, Repr

/-- A section image as the Hut holds its decoded parts (Table 10-1); `modes` are the accumulation modes its header names.
`formOk` tells whether every part that came was well formed as bytes: the manual does not give their byte layout. Which parts
came, and whether one came again, the stream itself tells (R401). -/
structure SectionImage where
  formOk : Bool
  version : Nat
  job : Nat
  w : Nat
  h : Nat
  homeC : Nat
  homeR : Nat
  finalBar : Nat
  modes : List AccMode
  sites : List SiteRec
  conns : List ConnRec
  joins : List JoinRec
  bars : List BarRec
  tarns : List TarnPlan
  ext : List ExtRange
  seed : Word
  tiles : List TileNest
  relocs : List Reloc
  prefetch : List PfProg
  deriving DecidableEq, Repr

/-- The stream header of Table 15-1. -/
structure StreamHdr where
  magic : BitVec 32
  version : BitVec 16
  part : BitVec 16
  rev : BitVec 8
  kind : BitVec 8
  flags : BitVec 8
  keySlot : BitVec 8
  id : BitVec 32
  totalLen : BitVec 64
  ivBase : BitVec 64
  reserved : BitVec 224
  hcrc : BitVec 32
  deriving DecidableEq, Repr

/-- The packet header of Table 15-2 without its TYPE: the row names the type. -/
structure PktHdr where
  mask : Byte
  reserved : BitVec 16
  len : BitVec 32
  arg : BitVec 64
  deriving DecidableEq, Repr

/-- What a start-up step meets outside the Hut (R279, R383, R392, R425): channels that fail training, Spurs that fail
their self-test, whether the PLLs report lock, and what the health-record store holds. -/
structure StepObs where
  badChannels : List ChanNo
  badSpurs : List SpurNo
  lock : Bool
  deriving DecidableEq, Repr

/-- A strap sample (Table 17-4). -/
structure Straps where
  boardId : BitVec 6
  keySrc : Bool
  ethMode : BitVec 2
  claimWin : BitVec 2
  pitchDef : BitVec 2
  mgmtBase : BitVec 2
  ropeHead : Bool
  deriving DecidableEq, Repr

/-- The two Rope links of a device. -/
inductive RopeSide where
  | up | down
  deriving DecidableEq, Repr

/-- The queue-pair block of Table 16-3. -/
structure QpBlock where
  hostQpn : BitVec 32
  psn : BitVec 32
  mtu : Byte
  ackTo : Byte
  ringLog2 : Byte
  cqLog2 : Byte
  eqLog2 : Byte
  ring : BitVec 64
  cq : BitVec 64
  eq : BitVec 64
  hostRkey : BitVec 32
  deriving DecidableEq, Repr

/-- Lowest and highest versions a host states (R437). -/
structure Versions where
  gateMin : Byte
  gateMax : Byte
  streamMin : Byte
  streamMax : Byte
  deriving DecidableEq, Repr

/-- A CLAIM body (Table 16-2). -/
structure ClaimBody where
  nonce : BitVec 64
  deadline : BitVec 32
  vers : Versions
  group : BitVec 128
  port : BitVec 16
  qp : QpBlock
  deriving DecidableEq, Repr

/-- A CONNECT body (Table 16-2). -/
structure ConnectBody where
  tenant : Byte
  token : BitVec 64
  vers : Versions
  qp : QpBlock
  deriving DecidableEq, Repr

/-- Where a host command came from: its queue pair, ring index, tag and NOTIFY flag (Table 16-5). -/
structure Ctx where
  qp : QpNo
  idx : BitVec 32
  tag : BitVec 32
  notify : Bool
  deriving DecidableEq, Repr

/-- LOAD (Table 16-6). -/
structure LoadOps where
  receipt : BitVec 64
  receiptLen : BitVec 64
  deadline : BitVec 32
  orgC : Byte
  orgR : Byte
  multicast : Byte
  update : Bool
  group : BitVec 128
  port : BitVec 16
  deriving DecidableEq, Repr

/-- RUN (Table 16-6). -/
structure RunOps where
  entry : Byte
  prio : Byte
  afterEn : Byte
  after : Byte
  byLoad : Bool
  ringIdx : BitVec 32
  deriving DecidableEq, Repr

/-- DIGEST_SET and DIGEST_NOW (Table 16-6); `job` is the job of DIGEST_SET and the entry of DIGEST_NOW. -/
structure DigestOps where
  job : BitVec 16
  list : BitVec 64
  count : BitVec 16
  deriving DecidableEq, Repr

/-- PART_CREATE (Table 16-6). -/
structure PartOps where
  p : Byte
  tenant : Byte
  cb0 : Byte
  ncb : Byte
  row0 : Byte
  nrow : Byte
  deriving DecidableEq, Repr

/-- GRANT (Table 16-6). -/
structure GrantOps where
  p : Byte
  group : Byte
  base : BitVec 16
  size : BitVec 16
  deriving DecidableEq, Repr

/-- The Wanan commands the Hut accepts, or the two ways a record is refused (R448). -/
inductive WananCmd where
  | matmul | eltwise | convert | copy | fence | unsupported | malformed
  deriving DecidableEq, Repr

/-- Who asks for a register access: the admin connection or a tenant's host (R443). -/
inductive Who where
  | admin
  | tenant (t : PartNo)
  deriving DecidableEq, Repr

end Sys2Proof.Machine
end

