-- ==== Sys2Proof/Syntax.lean ====
section
/-! DEFINITION. The commands of the device: one constructor for each row of the table of operations and events.
A row whose rule depends on the cycle carries the cycle within the pitch in which it takes place (`At`, `PAt`). -/

namespace Sys2Proof

open Sys2Proof.Machine

/-- The commands. -/
inductive Instr where
  /-- PITCH_BOUNDARY (R31): At each pitch boundary the device performs the ordered boundary actions of Table 01-6 in the boundary window. -/
  | pitchBoundary
  /-- PITCH_WRAP (R28): The 48-bit pitch number wraps to 0 and sets WRAPPED. -/
  | pitchWrap
  /-- STALL_WATCHDOG (R176): A site's count of stalled pitches reaches LIMIT, and the job halts with a halt report. -/
  | stallWatchdog (site : SiteId)
  /-- HEALTHY_SELFTEST_DUE (R383): A Healthy Spur's test period of 2^HEALTHY_LOG2 pitches expires. -/
  | healthySelftestDue (spur : SpurNo)
  /-- WATCHED_SELFTEST_DUE (R383): A Watched Spur's test period of WATCH_PERIOD pitches expires. -/
  | watchedSelftestDue (spur : SpurNo)
  /-- SELFTEST_COMPLETE (R384): A self-test signature is compared with the fuse value and the Spur's health state changes by Table 14-2. -/
  | selftestComplete (spur : SpurNo) (signature : Word)
  /-- IDLE_CLOSE (R227): A dynamic connection idle for IDLE_CLOSE pitches is closed. -/
  | idleClose (site : SiteId) (q : QueueNo)
  /-- CLAIM_RETRY (R254): A CLAIM with no reply after RETRY boundaries is resent with the same sequence. -/
  | claimRetry (site : SiteId)
  /-- SCRUB_STALL (R362): A vote error or a heartbeat unchanged for 16 boundaries resets the scrubber and reports SCRUB_STALL. -/
  | scrubStall
  /-- SCHEDULED_DIGEST (R310): When STEP reaches a multiple of INTERVAL, the digest of the job's digest ranges starts. -/
  | scheduledDigest (p : PartNo)
  /-- BIVOUAC_AUTO_ENTRY (R469): AUTO_MS elapses without a host command or stream byte and an entry request is raised. -/
  | bivouacAutoEntry
  /-- NOP (R147): The sequencer issues a no-operation. -/
  | nop (p : At) (g : Guard)
  /-- END (R147): The sequencer stops issuing and counts as ended for the final barrier. -/
  | seqEnd (p : At) (g : Guard)
  /-- BR (R152): A branch with a true guard pops POP frames and continues at TARGET. -/
  | br (p : At) (o : BrOps)
  /-- LOOP (R151): LOOP pushes a loop frame and sets its counter to 0. -/
  | loop (p : At) (o : LoopOps)
  /-- LSET (R149): LSET writes an immediate into a loop counter. -/
  | lset (p : At) (o : LcOps)
  /-- LADD (R149): LADD adds an immediate to a loop counter modulo 2^16. -/
  | ladd (p : At) (o : LcOps)
  /-- PSET (R150): PSET sets a predicate from a comparison or a logic combination. -/
  | pset (p : At) (o : PsetOps)
  /-- QTRY (R158): QTRY tests a queue for entries or reserves send credits and sets a predicate. -/
  | qtry (p : At) (o : QtryOps)
  /-- SEL (R166): SEL chooses a ready queue by priority or rotation and writes its number into a loop counter. -/
  | sel (p : At) (o : SelOps)
  /-- TPUSH (R169): TPUSH pushes a control token into a steering unit's token FIFO. -/
  | tpush (p : At) (o : TpushOps)
  /-- SIG (R160): SIG adds to a signal counter over the control plane or behind the data of a connection. -/
  | sig (p : At) (o : SigOps)
  /-- WAIT (R160): WAIT waits until a local counter holds at least N and then subtracts N. -/
  | wait (p : At) (o : WaitOps)
  /-- ARRIVE (R245): ARRIVE registers the site's arrival at a Col barrier, fenced or unfenced, optionally waiting for its release. -/
  | arrive (p : At) (o : ArriveOps)
  /-- CLAIM (R162): CLAIM sends a fetch-and-add request to a Tarn work counter and holds until the reply arrives. -/
  | claim (p : At) (o : ClaimOps)
  /-- STRT (R163): STRT starts or re-arms a stream program with an argument, or is refused with STR_BUSY. -/
  | strt (p : At) (o : StrtOps)
  /-- TMARK (R165): TMARK records a value, the pitch and the cycle in SEQ_MARK. -/
  | tmark (p : At) (o : TmarkOps)
  /-- MMA (R76): MMA computes a 64 × 64 contribution over K and adds it to a Moraine slot. -/
  | mma (p : At) (o : MmaOps)
  /-- MMERGE (R83): MMERGE adds a raw tile image from scratchpad into a slot after checking its header. -/
  | mmerge (p : At) (o : MmergeOps)
  /-- MSAVE (R85): MSAVE issues the writing of a Closed slot's raw tile image to scratchpad. -/
  | msave (p : At) (o : MsaveOps)
  /-- MFREE (R85): MFREE frees a slot's span for issue and fixes its physical free cycle. -/
  | mfree (p : At) (o : MfreeOps)
  /-- TILE_VERDICT (R105): The Cairn's verdict on a tile becomes final at last_k + 48. -/
  | tileVerdict (p : At) (u : Upset)
  /-- TILE_REEXECUTION (R106): A disputed instruction is re-executed once from the same operands once the array is free. -/
  | tileReexecution (p : At) (u : Upset)
  /-- TILE_COMMIT (R77): A tile's contribution is added into its slot in 32 c, after its predecessor's release and its physical free. -/
  | tileCommit (p : At) (u : Upset)
  /-- TILE_RELEASE (R105): A tile whose commit check passes is released in issue order and its slot contents become visible. -/
  | tileRelease (p : At) (u : Upset)
  /-- MSAVE_SLOT_READ (R86): MSAVE reads its slot once every earlier matrix instruction is released. -/
  | msaveSlotRead (p : At)
  /-- PHYSICAL_FREE (R86): A freed span becomes physically Free in cycle pf, after every earlier readout has read it. -/
  | physicalFree (p : At)
  /-- SKIPPED_MMA_RELEASE (R99): A block-masked MMA releases one cycle after its predecessor, writing zero words where FIRST is set. -/
  | skippedMmaRelease (p : At)
  /-- VOP (R125): VOP applies an elementwise function lane by lane over N rows. -/
  | vop (p : At) (o : VopOps)
  /-- VRD (R128): VRD reads rows of a released slot and converts each word once into the destination format. -/
  | vrd (p : At) (o : VrdOps)
  /-- VCVT (R130): VCVT converts rows between formats under a rounding mode and saturation. -/
  | vcvt (p : At) (o : VcvtOps)
  /-- VRED (R132): VRED reduces each FP32 row across its lanes into one lane of a line. -/
  | vred (p : At) (o : VredOps)
  /-- VLD (R133): VLD copies rows from scratchpad into operand cache lines. -/
  | vld (p : At) (o : VmemOps)
  /-- VST (R133): VST copies rows from operand cache lines to scratchpad. -/
  | vst (p : At) (o : VmemOps)
  /-- VIMM (R133): VIMM writes a 32-bit immediate into a run of lanes of a line. -/
  | vimm (p : At) (o : VimmOps)
  /-- VECTOR_ROW_ENTRY (R120): A vector row enters stage 1, reading and latching its operands and popping queue entries. -/
  | vectorRowEntry (p : At)
  /-- VECTOR_ROW_GATING (R138): A row reaches the gating stage, where its residue and duplicate checks pass before write or push. -/
  | vectorRowGating (p : At) (u : List LaneUpset)
  /-- QUEUE_TOKEN_INTAKE (R169): A token at the head of a steering unit's token queue enters its token FIFO. -/
  | queueTokenIntake (p : At) (unit : BitVec 3)
  /-- STEER_FIRE (R170): A STEER unit moves one data entry to the output that its token selects. -/
  | steerFire (p : At) (unit : BitVec 3)
  /-- MERGE_INTAKE (R171): A MERGE unit takes one entry from the input that its token names. -/
  | mergeIntake (p : At) (unit : BitVec 3)
  /-- MERGE_FIRE (R171): A MERGE unit pushes one data entry to its output or pops a token marked empty. -/
  | mergeFire (p : At) (unit : BitVec 3)
  /-- ASET (R186): ASET writes a 48-bit immediate into an address register. -/
  | aset (p : PAt) (ad : BitVec 3) (imm : BitVec 48)
  /-- AADD (R186): AADD adds a signed immediate to an address register. -/
  | aadd (p : PAt) (ad src : BitVec 3) (imm : BitVec 32)
  /-- AARG (R186): AARG adds the shifted argument to an address register. -/
  | aarg (p : PAt) (ad src : BitVec 3) (sh : BitVec 6)
  /-- ALOOP (R187): ALOOP pushes a stream loop frame. -/
  | aloop (p : PAt) (last : BitVec 9) (count : BitVec 16)
  /-- COPY (R188): COPY issues a transfer between permitted memory ends, optionally taking a credit. -/
  | copy (p : PAt) (o : CopyOps)
  /-- SIGNAL (R186): SIGNAL adds to a local or remote counter once earlier COPYs are complete. -/
  | signal (p : PAt) (rem : Bool) (cnt : BitVec 5) (add : BitVec 16)
  /-- FENCE (R186): FENCE holds the program until its earlier COPYs are complete. -/
  | fence (p : PAt)
  /-- STREAM_PROGRAM_END (R183): The stream program issues END and stops issuing. -/
  | streamProgramEnd (p : PAt)
  /-- STREAM_REQUEST (R189): A program generates one request of at most 256 B within the limits on outstanding requests. -/
  | streamRequest (p : PAt)
  /-- REMOTE_REQUEST (R189): The port agent of the remote site serves an arriving stream request. -/
  | remoteRequest (p : PAt) (r : BitVec 5)
  /-- REQUEST_COMPLETE (R191): A request completes when its bytes are written and acknowledged, signalling COPY completion in program order. -/
  | requestComplete (p : PAt) (r : BitVec 5)
  /-- STREAM_PROGRAM_COMPLETION (R183): The program completes after END and its last transfer, going IDLE or restarting from its shadow. -/
  | streamProgramCompletion (p : PAt)
  /-- FLIT_ARRIVAL (R350): A router checks an arriving flit's CRC and slot role, then forwards or delivers it. -/
  | flitArrival (site : SiteId) (d : Dir) (f : Flit)
  /-- LINK_NAK (R372): A valid NAK link word makes the sender replay the named flit and its followers. -/
  | linkNak (site : SiteId) (d : Dir) (w : Byte)
  /-- HOLD_LINE_DROP (R374): A wholly empty frame at the head of the hold line is dropped, and the added delay falls. -/
  | holdLineDrop (site : SiteId) (d : Dir)
  /-- LINK_DEAD (R375): A missing resend after 40 c, repeated failures or excess delay make a link dead. -/
  | linkDead (site : SiteId) (d : Dir) (c : LinkCause)
  /-- LINK_MARK (R376): The eighth replay within 1 ms marks the link for retirement. -/
  | linkMark (site : SiteId) (d : Dir)
  /-- ENTRY_DEPART (R212): The head entry of a send queue departs when remote credit is available. -/
  | entryDepart (p : At) (q : QueueNo)
  /-- RECEIVE_ENTRY (R211): An ordered-lane entry arriving at the receive end is written into the RECV queue. -/
  | receiveEntry (p : At) (q : QueueNo) (h : FlitHdr) (e : Entry)
  /-- SIGNAL_RECORD (R211): An arriving signal record adds to the receiver's signal counter. -/
  | signalRecord (p : At) (q : QueueNo) (h : FlitHdr) (ctr : BitVec 5) (add : BitVec 16)
  /-- REMOTE_CREDIT_RETURN (R212): Credits returned in a return flit's header raise the sender's RCRED. -/
  | remoteCreditReturn (p : At) (q : QueueNo) (conn : BitVec 12) (n : BitVec 7)
  /-- MCAST_CREDIT (R221): A multicast leaf's credit return reduces its outstanding entries. -/
  | mcastCredit (p : At) (q : QueueNo) (leaf : QueueId) (n : BitVec 7)
  /-- GAP_MARKER (R223): A GAP marker reaching the head sets GAP, records GAP_SEQ and adds to SCNT. -/
  | gapMarker (p : At) (q : QueueNo)
  /-- CONTROL_INJECT (R218): The control injection arbiter sends a pending control message from the site's holders. -/
  | controlInject (p : At)
  /-- SIGNAL_ADD (R242): An add message reaches its target counter, is applied and is acknowledged. -/
  | signalAdd (p : At) (m : AddMsg)
  /-- ADD_ACK (R242): An acknowledgement of an add message reaches its source and lowers ADD_OUT. -/
  | addAck (p : At) (discarded : Bool)
  /-- FENCED_ARRIVAL_OFFER (R246): A fenced arrival is offered for injection once every earlier write of the site is complete. -/
  | fencedArrivalOffer (p : At) (bar : BitVec 6)
  /-- BARRIER_ARRIVAL (R247): The Col accepts one arrival, counts or discards it, and emits the release when COUNT reaches TARGET. -/
  | barrierArrival
  /-- BARRIER_RELEASE (R249): A release reaching a member site adds 1 to its REL counter and clears its flag. -/
  | barrierRelease (p : At) (bar : BitVec 6)
  /-- CLAIM_REQUEST (R253): A Tarn serves a fetch-and-add, retry or commit request on a shared work counter. -/
  | claimRequest (p : At) (m : ClaimMsg)
  /-- CLAIM_REPLY (R162): A claim reply arrives, and its value is written into the CLAIM's loop counter. -/
  | claimReply (p : At) (seq : BitVec 16) (value : BitVec 32) (poison : Bool)
  /-- CONN_PROBE (R224): A PROBE narrows and holds the forward slot candidates, or is refused with NO_SLOT or NO_PEER. -/
  | connProbe (p : At) (q : QueueNo) (conn : BitVec 12)
  /-- CONN_REPLY (R225): A REPLY holds the return candidates and, at the source, leads to the COMMIT. -/
  | connReply (p : At) (q : QueueNo) (conn : BitVec 12)
  /-- CONN_REFUSE (R226): A REFUSE releases the holds, and at the source puts the queue into backoff. -/
  | connRefuse (p : At) (q : QueueNo) (conn : BitVec 12) (noPeer : Bool)
  /-- CONN_COMMIT (R225): A COMMIT keeps the chosen slots as class 2 and releases the other holds. -/
  | connCommit (p : At) (q : QueueNo) (conn : BitVec 12)
  /-- CONN_CLOSE (R227): A CLOSE frees both slots of a dynamic connection. -/
  | connClose (p : At) (q : QueueNo) (conn : BitVec 12)
  /-- BACKOFF_EXPIRY (R226): A queue's backoff ends and the connection returns to closed, reopening if positions are allocated. -/
  | backoffExpiry (site : SiteId) (q : QueueNo)
  /-- RING_RECORD_WRITE (R229): The port agent writes ring records, adding to SCNT when a message is complete. -/
  | ringRecordWrite (p : At) (q : QueueNo)
  /-- FRAME_READ (R263): A memory controller reads and decodes a stripe frame and delivers its words with poison by Table 09-3. -/
  | frameRead (a : Addr) (o : FrameObs)
  /-- FRAME_WRITE (R264): A memory controller writes a whole stripe or read-modify-writes its metadata. -/
  | frameWrite (a : Addr) (data : List (Word × Bool))
  /-- FRAME_REREAD (R273): A failing frame is re-read ahead of the queued requests, up to RETRY times. -/
  | frameReread (a : Addr) (o : FrameObs)
  /-- PATROL_SCRUB (R272): Patrol scrubbing reads the next frame of a channel every INTERVAL cycles and writes back corrections. -/
  | patrolScrub (ch : ChanNo) (o : FrameObs)
  /-- PERIODIC_TRAINING (R273): Periodic training of a channel runs and is retried on failure. -/
  | periodicTraining (ch : ChanNo) (ok : Bool)
  /-- BANK_REFRESH (R271): A per-bank refresh is issued by the package temperature. -/
  | bankRefresh (ch : ChanNo) (bank : BitVec 4)
  /-- CHANNEL_MARK (R274): RETRAIN_MAX training failures or UE_MAX uncorrectable events mark a channel for retirement. -/
  | channelMark (ch : ChanNo)
  /-- GROUP_REFORM_COMPLETE (R277): Re-forming finishes zeroing the group, which becomes REFORMED or OFFLINE. -/
  | groupReformComplete (k : BitVec 2)
  /-- DOMAIN_POWER_UP_COMPLETE (R35): A domain switched ON completes its power-up 8,192 c after the boundary. -/
  | domainPowerUpComplete (d : DomKind) (site : SiteId)
  /-- FRAME_TRANSFER_START (R328): Frame transfer for a reconfiguration begins once the region's domains are ON. -/
  | frameTransferStart (p : PartNo) (s : EntryNo)
  /-- CONFIG_FRAME_WRITE (R328): The configuration controller reads a staged frame, checks its CRC and writes it into a site over slot 15. -/
  | configFrameWrite (p : PartNo) (s : EntryNo) (crc1 crc2 : Bool)
  /-- RECONFIG_COMPLETE (R328): With every frame written, the arming values are written and the section becomes Armed. -/
  | reconfigComplete (p : PartNo) (s : EntryNo)
  /-- QUIESCENCE (R332): A paused section becomes quiesced and its state begins moving to its save Tarns. -/
  | quiescence (p : PartNo) (s : EntryNo)
  /-- SAVE_COMPLETE (R333): The last saved byte is acknowledged, and the section becomes Saved and releases its region. -/
  | saveComplete (p : PartNo) (s : EntryNo)
  /-- RESTORE_COMPLETE (R336): With restored state and frames both in place, the section becomes Armed. -/
  | restoreComplete (p : PartNo) (s : EntryNo)
  /-- GRANT_ZEROING_COMPLETE (R321): The zeroing of granules for a new tenant's grant completes. -/
  | grantZeroingComplete (p : PartNo) (k : BitVec 2)
  /-- LOADER_CHECK (R295): The Hut runs the ordered loader checks on an image, then stages it or refuses it with a code. -/
  | loaderCheck (p : PartNo) (img : SectionImage)
  /-- CORRECTED_WRITE_BACK (R342): A corrected SRAM word is written back in a cycle when its bank has no write. -/
  | correctedWriteBack (a : Addr) (written : Bool)
  /-- SCRUB_FRAME_READ (R359): The scrubber reads a configuration frame and re-reads words that show errors. -/
  | scrubFrameRead (frame : BitVec 7) (o : List ScrubObs)
  /-- LEAF_READ (R366): A Tally lane reads and digests one leaf of a digest. -/
  | leafRead (p : PartNo) (i : BitVec 24)
  /-- DIGEST_COMPLETE (R368): The digest root, and optionally the leaf list, is written. -/
  | digestComplete (p : PartNo)
  /-- HEALTH_RECORD_APPEND (R391): The Hut appends a health record within 10 ms of its event. -/
  | healthRecordAppend (ok : Bool)
  /-- LANE_WINDOW (R379): At the end of a 1 ms window each lane is judged, and a lane failing three windows fails. -/
  | laneWindow (lost : BitVec 8) (errors : List (BitVec 32))
  /-- RETRAIN_COMPLETE (R381): A port retrain completes, keeping every queue pair and job. -/
  | retrainComplete (trains : List (BitVec 3 × BitVec 2))
  /-- RETRAIN_RETRY (R380): A port that is down retries training every second. -/
  | retrainRetry (trains : List (BitVec 3 × BitVec 2))
  /-- STREAM_HEADER (R397): A stream header is checked, and a failing header makes the stream FOREIGN. -/
  | streamHeader (slot : SlotNo) (h : StreamHdr) (multicast : Bool)
  /-- NOP_PACKET (R400): A NOP packet is parsed and ignored. -/
  | nopPacket (slot : SlotNo) (h : PktHdr) (data : List Byte)
  /-- SYNC (R405): A SYNC ends a block, and its GCM tag is checked. -/
  | sync (slot : SlotNo) (h : PktHdr) (tag : BitVec 128)
  /-- FIRMWARE (R399): A FIRMWARE packet places firmware image bytes into Hut code memory. -/
  | firmware (slot : SlotNo) (h : PktHdr) (data : List Byte)
  /-- FWSIG (R409): An FWSIG packet carries the firmware signature, verified under slot 0. -/
  | fwsig (slot : SlotNo) (h : PktHdr) (pk sig : List Byte)
  /-- WREG (R411): A WREG packet buffers register-write records for start-up step WRITES. -/
  | wreg (slot : SlotNo) (h : PktHdr) (recs : List (Word × Word))
  /-- START_SEQ (R421): A START_SEQ packet supplies the list of start-up step codes. -/
  | startSeq (slot : SlotNo) (h : PktHdr) (codes : List Byte)
  /-- FRAME (R411): A FRAME packet's CRC is checked and its data goes to the receipt area. -/
  | frame (slot : SlotNo) (h : PktHdr) (data : List Byte)
  /-- IMAGE (R401): An IMAGE packet adds bytes to a part of the section image for the Hut. -/
  | image (slot : SlotNo) (h : PktHdr) (data : List Byte)
  /-- SIGNATURE (R408): A SIGNATURE packet carries the stream signature. -/
  | signature (slot : SlotNo) (h : PktHdr) (pk sig : List Byte)
  /-- STREAM_END_PACKET (R408): The END packet ends the stream, and verification begins. -/
  | streamEndPacket (slot : SlotNo) (h : PktHdr)
  /-- SIGNATURE_VERIFIED (R408): Signature verification completes and the stream outcome is decided. -/
  | signatureVerified (slot : SlotNo)
  /-- DATAGRAM (R414): A multicast datagram's bytes are consumed from offset E onward, or the datagram is discarded. -/
  | datagram (id : BitVec 32) (offset : BitVec 64) (len : BitVec 16)
  /-- LOAD_DEADLINE (R416): The load deadline passes before END, and the stream ends TRUNCATED. -/
  | loadDeadline (slot : SlotNo)
  /-- BOOT_COMPLETE (R420): The PLLs lock, the boot ROM runs and the link is up, so the device leaves BOOT for UNCLAIMED. -/
  | bootComplete
  /-- STARTUP_STEP (R422): The firmware performs the next start-up step of seq_run. -/
  | startupStep (o : StepObs)
  /-- PLL_LOCK_TIMEOUT (R425): A PLL without lock after 1 ms fails LOCK, and the device enters FAILED. -/
  | pllLockTimeout
  /-- PWRGD_RISE (R453): PWRGD rises after the input exceeds 40 V. -/
  | pwrgdRise
  /-- INPUT_UNDERVOLTAGE (R453): The input drops below 38 V, PWRGD falls and the device is held in reset. -/
  | inputUndervoltage
  /-- PORST_N_ASSERT (R455): PORST_N low resets the device, losing registers and memory contents. -/
  | porstNAssert
  /-- PORST_N_DEASSERT (R455): PORST_N rising starts BOOT. -/
  | porstNDeassert (st : Straps)
  /-- STAGE_IN_N_LOW (R456): STAGE_IN_N low lets a device waiting in step MEMORY begin it. -/
  | stageInNLow
  /-- VBAT_LOSS (R406): VBAT failure clears the battery-backed key register. -/
  | vbatLoss
  /-- TEMPERATURE_SAMPLE (R473): Sensors report TJ every 100 µs, setting the warning cause or tripping. -/
  | temperatureSample (tj : BitVec 12)
  /-- THERMAL_WINDOW (R473): At the end of each 1 ms window the throttle LEVEL is raised or lowered. -/
  | thermalWindow (maxTj : BitVec 12) (watts : BitVec 16)
  /-- HELLO (R463): A received HELLO counts toward bringing the Rope link up and fixes the version. -/
  | hello (side : RopeSide) (lo hi : Byte)
  /-- HELLO_SEND (R463): Each Rope link end sends HELLO once per millisecond. -/
  | helloSend (side : RopeSide)
  /-- ROPE_LINK_DOWN (R463): Three periods without a HELLO take a Rope link down. -/
  | ropeLinkDown (side : RopeSide)
  /-- POS (R464): A POS frame gives a non-head device its Rope position. -/
  | pos (crcOk : Bool) (n : Byte)
  /-- CHAIN (R464): A CHAIN frame reports the highest position known downstream. -/
  | chain (crcOk : Bool) (n : Byte)
  /-- ROPE_WAKE (R471): A Rope WAKE frame for the device wakes it from Bivouac. -/
  | ropeWake (crcOk : Bool) (dst : BitVec 4)
  /-- RELAY_REQ (R468): A RELAY_REQ carries an SMBus command to the target device for execution. -/
  | relayReq (crcOk : Bool) (src dst : BitVec 4) (seq : Byte) (cmd : List Byte)
  /-- RELAY_RSP (R462): A RELAY_RSP returns the target's status and data to the relaying device. -/
  | relayRsp (crcOk : Bool) (src dst : BitVec 4) (seq : Byte) (rsp : List Byte)
  /-- RELAY_RETRY (R462): A RELAY_REQ without response after 200 µs is repeated, at most three times. -/
  | relayRetry
  /-- GET_STATUS (R467): SMBus GET_STATUS returns device status and clears the alert causes. -/
  | getStatus (pec : Bool)
  /-- GET_IDENTITY (R467): SMBus GET_IDENTITY returns serial, MAC, part and revision. -/
  | getIdentity (pec : Bool)
  /-- SET_IP (R468): SMBus SET_IP sets the IP address or resumes DHCP. -/
  | setIp (pec : Bool) (family plen : Byte) (addr gw : BitVec 128)
  /-- SET_VBAT_KEY (R468): SMBus SET_VBAT_KEY writes the battery-backed key register. -/
  | setVbatKey (pec : Bool) (key : BitVec 256)
  /-- CLEAR_VBAT_KEY (R468): SMBus CLEAR_VBAT_KEY clears the battery-backed key register. -/
  | clearVbatKey (pec : Bool)
  /-- PROG_KEY_SLOT (R468): SMBus PROG_KEY_SLOT blows a verification key slot's fuses. -/
  | progKeySlot (pec : Bool) (slot : Byte) (hash : BitVec 256)
  /-- HEALTH_CLEAR (R468): SMBus HEALTH_CLEAR appends a CLEAR record for a unit's newest state record. -/
  | healthClear (pec : Bool) (type : Byte) (unit : BitVec 16)
  /-- HEALTH_READ (R467): SMBus HEALTH_READ returns one health record. -/
  | healthRead (pec : Bool) (idx : BitVec 32)
  /-- WAKE (R471): SMBus WAKE is a wake event for a device in Bivouac. -/
  | wake (pec : Bool)
  /-- BIVOUAC_ENTER (R469): SMBus BIVOUAC_ENTER requests entry into Bivouac. -/
  | bivouacEnter (pec : Bool)
  /-- ROPE_RELAY (R468): SMBus ROPE_RELAY forwards a command to another Rope position. -/
  | ropeRelay (pec : Bool) (target : Byte) (cmd : List Byte)
  /-- SET_POWER_LIMIT (R467): SMBus SET_POWER_LIMIT sets the power limit. -/
  | setPowerLimit (pec : Bool) (watts : BitVec 16)
  /-- GET_RESULT (R466): SMBus GET_RESULT returns the final status of a pending command. -/
  | getResult (pec : Bool)
  /-- SMBUS_COMMAND_COMPLETE (R466): A command that returned SMB_PENDING finishes, and its final status is kept for GET_RESULT. -/
  | smbusCommandComplete (readBack : BitVec 256)
  /-- ALERT_RESPONSE (R465): The device answers the Alert Response Address while it drives ALERT_N low. -/
  | alertResponse
  /-- BIVOUAC_ENTRY_COMPLETE (R470): Bivouac entry completes, with the domains set as in Table 17-8. -/
  | bivouacEntryComplete
  /-- WAKE_COMPLETE (R472): The device leaves Bivouac, restores its domains and processes the wake buffer. -/
  | wakeComplete
  /-- PROBE (R434): A discovery PROBE is answered with an ANNOUNCE. -/
  | probe (serial : BitVec 128)
  /-- ANNOUNCE (R434): An unclaimed or admin-free device broadcasts ANNOUNCE once per second. -/
  | announce
  /-- HOST_CLAIM (R435): A CLAIM is accepted or refused, opening the admin connection and starting the base stream. -/
  | hostClaim (c : ClaimBody)
  /-- CONNECT (R440): A CONNECT opens a tenant or admin connection if its token and limits allow. -/
  | connect (c : ConnectBody)
  /-- DISCONNECT (R436): A DISCONNECT closes a connection, losing the claim if it is the admin connection before READY. -/
  | disconnect (qpn : BitVec 32) (reason : Byte)
  /-- RELEASE (R436): A RELEASE with the claim's nonce frees the admin role. -/
  | release (nonce : BitVec 64)
  /-- RDMA_WRITE (R441): An RDMA WRITE is placed in permitted device memory or refused with a NAK. -/
  | rdmaWrite (n : QpNo) (rkey : BitVec 32) (a : BitVec 64) (data : List Byte)
  /-- RDMA_READ (R441): An RDMA READ returns permitted device memory, stopping with a NAK at a poisoned word. -/
  | rdmaRead (n : QpNo) (rkey : BitVec 32) (a : BitVec 64) (len : BitVec 32)
  /-- DOORBELL (R445): A doorbell SEND makes the Gate read new command entries into the Hut mailbox. -/
  | doorbell (n : QpNo) (pi cqci : BitVec 32)
  /-- STREAM_BYTES (R444): A stream-bytes SEND continues the connection's unicast stream. -/
  | streamBytes (n : QpNo) (len : BitVec 16)
  /-- UNSUPPORTED_OPERATION (R431): An unsupported transport operation is answered with NAK Invalid Request. -/
  | unsupportedOperation (n : QpNo)
  /-- CE_MARKED_PACKET (R432): A CE-marked packet makes the Gate send a CNP, at most one per 50 µs per queue pair. -/
  | ceMarkedPacket (n : QpNo)
  /-- CNP (R432): A received CNP halves the queue pair's send rate. -/
  | cnp (n : QpNo)
  /-- RATE_RECOVERY (R432): Every 50 µs without a CNP the send rate rises by 1 % of line rate. -/
  | rateRecovery (n : QpNo)
  /-- ACK_TIMEOUT (R432): An expired ACK timeout retransmits go-back-N, up to seven retries. -/
  | ackTimeout (n : QpNo)
  /-- PAUSE (R429): A PAUSE frame is honoured when PAUSE_EN is set. -/
  | pause (quanta : BitVec 16)
  /-- PFC (R429): A PFC frame is honoured on priority PCP when PFC_EN is set. -/
  | pfc (prio : BitVec 3) (quanta : BitVec 16)
  /-- ARP (R430): The Gate answers ARP requests. -/
  | arp
  /-- NDP (R430): The Gate answers IPv6 neighbour discovery. -/
  | ndp
  /-- ICMP_ECHO (R430): The Gate answers ICMP and ICMPv6 echo. -/
  | icmpEcho
  /-- IP_FRAGMENT (R430): An IP fragment is discarded and counted. -/
  | ipFragment
  /-- COMMAND_DISPATCH (R446): The Hut starts the next command from its mailbox in order. -/
  | commandDispatch
  /-- COMPLETION_WRITE (R446): The Gate writes a completion record in ring order once room exists, optionally with a notification. -/
  | completionWrite (n : QpNo)
  /-- LOAD (R415): LOAD starts receiving a section stream into the partition's stream slot. -/
  | load (c : Ctx) (o : LoadOps)
  /-- RUN (R326): RUN marks a Staged section runnable with a priority and an optional AFTER. -/
  | run (c : Ctx) (o : RunOps)
  /-- PREEMPT (R331): PREEMPT requests preemption of a job at the next boundary. -/
  | preempt (c : Ctx) (job : BitVec 16)
  /-- RESUME (R336): RESUME continues a Paused, Saved, held Armed or Halted section. -/
  | resume (c : Ctx) (entry prio row : Byte)
  /-- DISCARD (R336): DISCARD makes a section Failed with DISCARDED and releases its region. -/
  | discard (c : Ctx) (entry : Byte)
  /-- DIGEST_SET (R446): DIGEST_SET records a job's digest ranges. -/
  | digestSet (c : Ctx) (o : DigestOps)
  /-- DIGEST_NOW (R367): DIGEST_NOW starts a digest of ranges and buffers of a live section. -/
  | digestNow (c : Ctx) (o : DigestOps)
  /-- REG_READ (R443): REG_READ returns a register value under the access rights. -/
  | regRead (c : Ctx) (a : BitVec 64)
  /-- REG_WRITE (R443): REG_WRITE writes the masked bits of a register under the access rights. -/
  | regWrite (c : Ctx) (a value mask : BitVec 64)
  /-- REG_WRITE_LIST (R443): REG_WRITE_LIST applies register-write records in order, stopping at a denied record. -/
  | regWriteList (c : Ctx) (list : BitVec 64) (count : BitVec 16)
  /-- WANAN_SUBMIT (R448): WANAN_SUBMIT runs a Wanan command stream one command at a time. -/
  | wananSubmit (c : Ctx) (job : BitVec 16) (stream : BitVec 64) (len : BitVec 64)
  /-- WANAN_COMMAND (R337): The Hut starts the next Wanan command once the previous one completes. -/
  | wananCommand (p : PartNo) (w : Option WananCmd)
  /-- TENANT_CREATE (R439): TENANT_CREATE activates a tenant with token, connection limit and expert access. -/
  | tenantCreate (c : Ctx) (tenant : Byte) (expert : Bool) (maxqp : BitVec 16) (token : BitVec 64)
  /-- TENANT_REMOVE (R439): TENANT_REMOVE removes a tenant that holds no partition and closes its connections. -/
  | tenantRemove (c : Ctx) (tenant : Byte)
  /-- PART_CREATE (R317): PART_CREATE creates a partition of column blocks and rows for a tenant. -/
  | partCreate (c : Ctx) (o : PartOps)
  /-- PART_REMOVE (R318): PART_REMOVE removes a partition with no live sections at the next boundary. -/
  | partRemove (c : Ctx) (part : Byte)
  /-- GRANT (R320): GRANT requests a run of granules in a group for a partition. -/
  | grant (c : Ctx) (o : GrantOps)
  /-- REGISTER_WRITE (R7): A host write to a register without its own row acts on each field by its access code. -/
  | registerWrite (w : Who) (a : BitVec 48) (value mask : Word)
  /-- COL_PITCH_CTRL_WRITE (R27): A write of NEW_LOG2 requests a pitch-length change, or is refused with PITCH_LOCKED or PITCH_RANGE. -/
  | colPitchCtrlWrite (w : Who) (value : Word)
  /-- DOMAIN_ON (R39): PWR_DOMAIN_CMD action ON requests a domain to switch ON. -/
  | domainOn (w : Who) (dom : BitVec 4) (site : SiteId)
  /-- DOMAIN_RETAIN (R39): PWR_DOMAIN_CMD action RETAIN requests a domain to enter RETAIN. -/
  | domainRetain (w : Who) (dom : BitVec 4) (site : SiteId)
  /-- DOMAIN_OFF (R39): PWR_DOMAIN_CMD action OFF requests a domain to switch OFF. -/
  | domainOff (w : Who) (dom : BitVec 4) (site : SiteId)
  /-- SR_SEED_WRITE (R59): A write of VEC_SR_SEED records a new seed that takes effect after the next boundary. -/
  | srSeedWrite (w : Who) (site : SiteId) (seed : Word)
  /-- STEER_CONFIG_WRITE (R172): A write of SEQ_STEERn configures a steering unit, or is refused with STEER_CONFLICT or STEER_LOCKED. -/
  | steerConfigWrite (w : Who) (site : SiteId) (n : BitVec 3) (value : Word)
  /-- SCRUB_CTRL_WRITE (R362): A write of CFG_SCRUB_CTRL sets all three voted copies of each field. -/
  | scrubCtrlWrite (w : Who) (value : Word)
  /-- BIVOUAC_ENTER_WRITE (R469): A write of 1 to PWR_BIVOUAC.ENTER requests Bivouac entry. -/
  | bivouacEnterWrite (w : Who)
  /-- CHK_LOG_READ (R109): A read of CHK_LOG returns the logged disagreement and clears KIND. -/
  | chkLogRead (w : Who) (site : SiteId)
  /-- MEM_ERR_LOG_READ (R7): A read of MEM_ERR_LOG returns the logged event and clears KIND. -/
  | memErrLogRead (w : Who)
  /-- LOAD_REFUSAL_READ (R297): A read of HUT_LOAD_REFUSALp returns the refusal record and clears VALID. -/
  | loadRefusalRead (w : Who) (p : PartNo)
  /-- POISON_LOG_READ (R348): A read of HUT_POISONp returns the commit-point record and clears KIND. -/
  | poisonLogRead (w : Who) (p : PartNo)
  /-- ECC_LOG_READ (R342): A read of CHK_ECC_LOG returns the logged decode event and clears MEM. -/
  | eccLogRead (w : Who) (site : SiteId)
  /-- STEER_DATA_INTAKE (R170): A STEER unit takes one entry from queue IN0 into its data FIFO in each cycle while the FIFO has room. -/
  | steerDataIntake (p : At) (unit : BitVec 3)
  /-- ADMIN_RECONNECT_EXPIRY (R436): After READY, a closed admin connection not reopened within the claim window frees the admin role, and the device announces itself again. -/
  | adminReconnectExpiry
  /-- DHCP_REPLY (R430): A DHCPv4 or DHCPv6 reply gives the Gate its IP address while DHCP is in use. -/
  | dhcpReply (addr : BitVec 128)
  /-- OTHER_IMMEDIATE_SEND (R444): A SEND with immediate whose IMM[31:24] is neither 0x01 nor 0x02 is discarded and counted in GATE_CNT_RXDROP. -/
  | otherImmediateSend (n : QpNo) (imm : BitVec 32)
  deriving DecidableEq, Repr

end Sys2Proof
end

