-- ==== Sys2Proof/Machine/Codes.lean ====
section
/-! DEFINITION. The check codes the manual names over byte strings: CRC-32C (R349, R397, R411), and the SHAKE256 function
of the digests (R364, R408). -/

namespace Sys2Proof.Machine

/-! ### CRC-32C (R349): polynomial 0x1EDC_6F41, reflected, initial value and final xor 0xFFFF_FFFF -/

/-- One bit of the reflected division. -/
def crcBit (c : BitVec 32) : BitVec 32 := if c.getLsbD 0 then (c >>> 1) ^^^ 0x82F63B78#32 else c >>> 1

/-- One byte. -/
def crcByte (c : BitVec 32) (b : Byte) : BitVec 32 :=
  crcBit (crcBit (crcBit (crcBit (crcBit (crcBit (crcBit (crcBit (c ^^^ b.setWidth 32))))))))

/-- The CRC-32C of a byte string. -/
def crc32c (l : List Byte) : BitVec 32 := l.foldl crcByte 0xFFFFFFFF#32 ^^^ 0xFFFFFFFF#32

/-! ### The flit (Table 13-3) -/

/-- The header as a 64-bit word (Table 13-3). -/
def FlitHdr.word (h : FlitHdr) : Word :=
  (h.src.setWidth 64 <<< 56) ||| (h.part.setWidth 64 <<< 52) ||| (h.kind.setWidth 64 <<< 49) |||
  (h.conn.setWidth 64 <<< 37) ||| (h.cred.setWidth 64 <<< 30) ||| (h.lseq.setWidth 64 <<< 24) |||
  (h.eseq.setWidth 64 <<< 8)

/-- The eight bytes of a word, little-endian (R15). -/
def wordBytes (w : Word) : List Byte := (List.range 8).map (fun i => (w >>> (8 * i)).setWidth 8)

/-- The 168-byte string that a flit's CRC covers (R349). -/
def Flit.string (f : Flit) : List Byte :=
  List.append (wordBytes f.hdr.word)
    (f.words.map (fun w => List.append (wordBytes w.data) [w.check, if w.poison then 1 else 0])).flatten

/-- Whether a flit's CRC matches, over sixteen payload words. -/
def Flit.crcOk (f : Flit) : Bool := f.words.length == 16 && f.crc == crc32c f.string

/-- Whether KIND fits the role of the local slot (R350, Table 07-1). An empty or a header-only flit stands in any data
slot; the control plane carries control flits and the service slot service flits. -/
def Flit.kindOk (f : Flit) : Bool :=
  let k := f.hdr.kind.toNat
  if f.slot.toNat < 14 then k == 0 || k == 1 || k == 2 || k == 5
  else if f.slot.toNat = 14 then k == 0 || k == 3
  else k == 0 || k == 4

/-! ### Keccak and SHAKE256 (R364)

The 1600 bits are 25 lanes; lane x + 5 y stands in column x of row y. -/

/-- A lane turned left by n places. -/
def Lane.turn (w : Word) (n : Nat) : Word := BitVec.rotateLeft w n

/-- What theta adds to the lanes of column x: the parity of the column before it, and that of the column after it turned by one. -/
def Keccak.columnSum (s : List Word) (x : Nat) : Word :=
  let parity (c : Nat) : Word := [0, 5, 10, 15, 20].foldl (fun w r => w ^^^ s.getD (r + c % 5) 0) 0
  parity (x + 4) ^^^ Lane.turn (parity (x + 1)) 1

/-- theta. -/
def Keccak.mix (s : List Word) : List Word :=
  let sums := [0, 1, 2, 3, 4].map (Keccak.columnSum s)
  (s.zip (List.range 25)).map (fun q => q.1 ^^^ sums.getD (q.2 % 5) 0)

/-- rho and pi in one walk of the 24 lanes beside (0, 0): step k takes the lane at (x, y), turned by the k-th triangular number,
to (y, 2 x + 3 y). -/
def Keccak.walk (s : List Word) : Nat → Nat → Nat → Nat → List Word → List Word
  | 0, _, _, _, t => t
  | n + 1, k, x, y, t =>
    let y1 := (2 * x + 3 * y) % 5
    Keccak.walk s n (k + 1) y y1 (t.set (y + 5 * y1) (Lane.turn (s.getD (x + 5 * y) 0) (k * (k + 1) / 2)))

/-- chi. -/
def Keccak.nonlinear (s : List Word) : List Word :=
  (s.zip (List.range 25)).map (fun q =>
    let row := 5 * (q.2 / 5)
    q.1 ^^^ (s.getD (row + (q.2 + 2) % 5) 0 &&& ~~~ s.getD (row + (q.2 + 1) % 5) 0))

/-- The register that gives iota its bits: the powers of x modulo x^8 + x^6 + x^5 + x^4 + 1. -/
def Keccak.nextBit (g : Nat) : Nat := if g < 128 then 2 * g else (2 * g) ^^^ 0x171

/-- The constant of a round, seven bits at the places 2^j - 1, and the register after it. -/
def Keccak.constant (g : Nat) : Word × Nat :=
  (List.range 7).foldl (fun acc j =>
    (if acc.2 % 2 = 1 then acc.1 ||| BitVec.ofNat 64 (2 ^ (2 ^ j - 1)) else acc.1, Keccak.nextBit acc.2)) (0, g)

/-- Rounds of the permutation, from a state of the register. -/
def Keccak.rounds : Nat → Nat → List Word → List Word
  | 0, _, s => s
  | n + 1, g, s =>
    let t := Keccak.mix s
    let u := Keccak.nonlinear (Keccak.walk t 24 1 1 0 t)
    let (c, g) := Keccak.constant g
    Keccak.rounds n g (u.set 0 (u.getD 0 0 ^^^ c))

/-- Keccak-f[1600]: 24 rounds, one a cycle of the lane. -/
def Keccak.permute (s : List Word) : List Word := Keccak.rounds 24 1 s

/-- The 17 lanes that 136 bytes fill. -/
def Keccak.block (l : List Byte) : List Word :=
  (List.range 17).map (fun k => BitVec.ofNat 64 (((l.drop (8 * k)).take 8).foldr (fun b n => b.toNat + 256 * n) 0))

/-- A padded string absorbed, 136 bytes a permutation; `n` is the number of its blocks. -/
def Keccak.absorb : Nat → List Byte → List Word → List Word
  | 0, _, s => s
  | n + 1, l, s =>
    let new := (s.zip (Keccak.block l)).map (fun q => q.1 ^^^ q.2)
    Keccak.absorb n (l.drop 136) (Keccak.permute (List.append new (s.drop 17)))

/-- SHAKE256 of a byte string to 64 bytes. The string is followed by the bits 1111 and the padding 10*1 up to whole blocks. -/
def shake256 (l : List Byte) : List Byte :=
  let blocks := l.length / 136 + 1
  let zeros := 136 * blocks - 1 - l.length
  let pad : List Byte := match zeros with
    | 0 => [0x9F]
    | z + 1 => 0x1F :: List.append (List.replicate z 0) [0x80]
  ((Keccak.absorb blocks (List.append l pad) (List.replicate 25 0)).take 8).flatMap wordBytes

end Sys2Proof.Machine
end

