-- ==== Sys2Proof/Config.lean ====
section
/-! DEFINITION. The values the manual leaves open, as constants without a body: nothing in Lean can evaluate them or
prove a value of them, so a claim that mentions one holds whatever it is. -/

namespace Sys2Proof.Config

open Sys2Proof.Machine

/-- Fresh value for what the manual leaves to the device at each use: the n-th one (log entry 9). -/
opaque freeValue : Nat → BitVec 64

/-- Where a VLD or VST with an MX descriptor finds or leaves the scale line: the manual says that the line moves with
the rows and not to which byte (R133, log entry 21). In 64 B units, from SBASE, SPITCH and the number of rows. -/
opaque scaleLineAt : Nat → Nat → Nat → Nat

/-- AES-256-GCM encryption (R404): the cipher text of a block under a key and a nonce (log entry 20). -/
opaque gcmCipher : BitVec 256 → List (BitVec 8) → List (BitVec 8) → List (BitVec 8)

/-- The AES-256-GCM tag of a block: key, nonce, additional data, plain text (R405, log entry 20). -/
opaque gcmTag : BitVec 256 → List (BitVec 8) → List (BitVec 8) → List (BitVec 8) → BitVec 128

/-- Whether a HashSLH-DSA-SHAKE-256s signature verifies: public key, message, signature (R408, log entry 20). -/
opaque sigVerifies : List (BitVec 8) → List (BitVec 8) → List (BitVec 8) → Bool

/-- Where the loader binds a group slot's ranges within the partition's grant: an offset in 256 B units by partition and
group; the manual says only that the base lies within the grant (R292, log entry 23). -/
opaque slotOffset : Nat → Nat → Nat

end Sys2Proof.Config
end

