-- ==== Sys2Proof/Machine/Regs.lean ====
section
/-! DEFINITION. The registers of the device (R6 to R9, Tables 18-2 to 18-7 and the register tables of the chapters):
every register family with its place, every field with its bits, access code, reset value and level, and the
plain reading and writing of one field of a 64-bit word. -/

namespace Sys2Proof.Machine

/-- Access codes of Table 00-3 (R7). -/
inductive Access where
  | rw | ro | wo | w1c | w1s | rc
  deriving DecidableEq, Repr

/-- The register families of the manual, by their names (Tables 18-2, 18-3 and 18-6). Event counters are kept apart (R483). -/
inductive RegName where
  | MTX_OPD
  | MTX_OPS
  | MTX_RMASK
  | MTX_BMASK_ORG
  | MTX_RECOMP
  | CHK_CTRL
  | VEC_SR_SEED
  | VEC_SR_COORD01
  | VEC_SR_COORD23
  | VEC_OPD
  | VEC_LMASK
  | STR_DESC
  | TRN_THR
  | TRN_PF_CTRL
  | TRN_WC
  | TRN_WC_CFG
  | SEQ_CTRL
  | SEQ_PRED
  | SEQ_SELPTR
  | SEQ_WDOG
  | SEQ_CLAIM
  | SEQ_LC
  | SEQ_SIG
  | SEQ_STEER
  | TRV_OUT
  | QUE_CFG
  | QUE_PAR
  | QUE_MLEAF
  | SEQ_STATUS
  | SEQ_WAIT
  | SEQ_MARK
  | SEQ_SIG_STATUS
  | SEQ_BARFLAG
  | TRV_LINK_STATE
  | CHK_ECC_LOG
  | SEQ_STEER_STAT
  | SEQ_LOOP
  | QUE_STAT
  | MOR_STATUS
  | MTX_STATUS
  | CHK_LOG
  | CHK_SYND
  | VEC_FLAGS
  | VEC_STATUS
  | STR_STATE
  | STR_PROG
  | STR_AREG
  | TRN_HALF
  | TRN_PF_STATUS
  | TRN_CLOG_STATUS
  | TRN_THR_STATE
  | TRN_PROG
  | TRN_AREG
  | COL_PITCH_CTRL
  | COL_PITCH_NUM
  | COL_BAR
  | COL_BAR_MEM
  | COL_BAR_ARR
  | HUT_PART
  | HUT_TRAIN
  | HUT_LOAD_REFUSAL
  | HUT_REF
  | HUT_POISON
  | HUT_HEALTH_CTRL
  | HUT_HREC_STATUS
  | HUT_GRANT
  | HUT_SPUR_HEALTH
  | HUT_SECT
  | GATE_NET_CFG
  | GATE_LANE_HEALTH
  | GATE_TENANT
  | GATE_QP
  | MEM_GRP_STATUS
  | MEM_CH_STATE
  | MEM_RETIRE_CFG
  | MEM_SCRUB
  | MEM_ERR_LOG
  | MEM_GRP_MAP
  | CFG_DEV_STATE
  | CFG_CLAIM
  | CFG_STARTUP
  | CFG_KEY_STATUS
  | CFG_SEC_POLICY
  | CFG_STRAPS
  | CFG_SCRUB_CTRL
  | CFG_SCRUB_STATUS
  | CFG_VKEY_HASH
  | CFG_STREAM
  | CFG_STREAM_POS
  | CFG_STREAM_SYNC
  | ROPE_STATUS
  | PWR_DOMAIN_CMD
  | PWR_BIVOUAC
  | PWR_THERM
  | PWR_CORE_STATE
  | PWR_ROUTER_STATE
  | PWR_TIER_STATE
  | TAL_DIG
  | TAL_LIST
  | TAL_DIGSTEP
  | TAL_ROOT
  deriving DecidableEq, Repr

/-- The kind of site a per-site register belongs to: 0 common, 1 Spur, 2 Tarn; `block` is `none` for a per-site
register and the device-level block number otherwise (Table 18-5). -/
structure RegPlace where
  block : Option Nat
  kind : Nat
  offset : Nat
  first : Nat
  count : Nat
  deriving DecidableEq, Repr

/-- Where each register family lies (Tables 18-2, 18-3 and 18-6). -/
def RegName.place : RegName → RegPlace
  | .MTX_OPD => ⟨none, 1, 0x0, 0, 16⟩
  | .MTX_OPS => ⟨none, 1, 0x80, 0, 16⟩
  | .MTX_RMASK => ⟨none, 1, 0x100, 1, 7⟩
  | .MTX_BMASK_ORG => ⟨none, 1, 0x140, 0, 1⟩
  | .MTX_RECOMP => ⟨none, 1, 0x148, 0, 1⟩
  | .CHK_CTRL => ⟨none, 1, 0x150, 0, 1⟩
  | .VEC_SR_SEED => ⟨none, 1, 0x158, 0, 1⟩
  | .VEC_SR_COORD01 => ⟨none, 1, 0x160, 0, 1⟩
  | .VEC_SR_COORD23 => ⟨none, 1, 0x168, 0, 1⟩
  | .VEC_OPD => ⟨none, 1, 0x180, 0, 16⟩
  | .VEC_LMASK => ⟨none, 1, 0x200, 1, 7⟩
  | .STR_DESC => ⟨none, 1, 0x240, 0, 4⟩
  | .TRN_THR => ⟨none, 2, 0x0, 0, 16⟩
  | .TRN_PF_CTRL => ⟨none, 2, 0x80, 0, 1⟩
  | .TRN_WC => ⟨none, 2, 0x400, 0, 64⟩
  | .TRN_WC_CFG => ⟨none, 2, 0x600, 0, 64⟩
  | .SEQ_CTRL => ⟨none, 0, 0x800, 0, 1⟩
  | .SEQ_PRED => ⟨none, 0, 0x808, 0, 1⟩
  | .SEQ_SELPTR => ⟨none, 0, 0x810, 0, 1⟩
  | .SEQ_WDOG => ⟨none, 0, 0x818, 0, 1⟩
  | .SEQ_CLAIM => ⟨none, 0, 0x820, 0, 1⟩
  | .SEQ_LC => ⟨none, 0, 0x840, 0, 4⟩
  | .SEQ_SIG => ⟨none, 0, 0x880, 0, 8⟩
  | .SEQ_STEER => ⟨none, 0, 0x8c0, 0, 8⟩
  | .TRV_OUT => ⟨none, 0, 0x900, 0, 4⟩
  | .QUE_CFG => ⟨none, 0, 0xa00, 0, 32⟩
  | .QUE_PAR => ⟨none, 0, 0xb00, 0, 32⟩
  | .QUE_MLEAF => ⟨none, 0, 0xc00, 0, 32⟩
  | .SEQ_STATUS => ⟨none, 0, 0x1000, 0, 1⟩
  | .SEQ_WAIT => ⟨none, 0, 0x1008, 0, 1⟩
  | .SEQ_MARK => ⟨none, 0, 0x1010, 0, 1⟩
  | .SEQ_SIG_STATUS => ⟨none, 0, 0x1018, 0, 1⟩
  | .SEQ_BARFLAG => ⟨none, 0, 0x1020, 0, 1⟩
  | .TRV_LINK_STATE => ⟨none, 0, 0x1028, 0, 1⟩
  | .CHK_ECC_LOG => ⟨none, 0, 0x1030, 0, 1⟩
  | .SEQ_STEER_STAT => ⟨none, 0, 0x1040, 0, 8⟩
  | .SEQ_LOOP => ⟨none, 0, 0x1080, 0, 8⟩
  | .QUE_STAT => ⟨none, 0, 0x1100, 0, 32⟩
  | .MOR_STATUS => ⟨none, 1, 0x1200, 0, 1⟩
  | .MTX_STATUS => ⟨none, 1, 0x1208, 0, 1⟩
  | .CHK_LOG => ⟨none, 1, 0x1210, 0, 1⟩
  | .CHK_SYND => ⟨none, 1, 0x1218, 0, 1⟩
  | .VEC_FLAGS => ⟨none, 1, 0x1220, 0, 1⟩
  | .VEC_STATUS => ⟨none, 1, 0x1228, 0, 1⟩
  | .STR_STATE => ⟨none, 1, 0x1240, 0, 4⟩
  | .STR_PROG => ⟨none, 1, 0x1260, 0, 4⟩
  | .STR_AREG => ⟨none, 1, 0x1300, 0, 32⟩
  | .TRN_HALF => ⟨none, 2, 0x1200, 0, 1⟩
  | .TRN_PF_STATUS => ⟨none, 2, 0x1208, 0, 1⟩
  | .TRN_CLOG_STATUS => ⟨none, 2, 0x1210, 0, 1⟩
  | .TRN_THR_STATE => ⟨none, 2, 0x1300, 0, 16⟩
  | .TRN_PROG => ⟨none, 2, 0x1380, 0, 16⟩
  | .TRN_AREG => ⟨none, 2, 0x1400, 0, 128⟩
  | .COL_PITCH_CTRL => ⟨some 0, 0, 0x0, 0, 1⟩
  | .COL_PITCH_NUM => ⟨some 0, 0, 0x8, 0, 1⟩
  | .COL_BAR => ⟨some 0, 0, 0x200, 0, 64⟩
  | .COL_BAR_MEM => ⟨some 0, 0, 0x800, 0, 256⟩
  | .COL_BAR_ARR => ⟨some 0, 0, 0x1000, 0, 256⟩
  | .HUT_PART => ⟨some 1, 0, 0x0, 0, 16⟩
  | .HUT_TRAIN => ⟨some 1, 0, 0x80, 0, 16⟩
  | .HUT_LOAD_REFUSAL => ⟨some 1, 0, 0x100, 0, 16⟩
  | .HUT_REF => ⟨some 1, 0, 0x180, 0, 16⟩
  | .HUT_POISON => ⟨some 1, 0, 0x200, 0, 16⟩
  | .HUT_HEALTH_CTRL => ⟨some 1, 0, 0x280, 0, 1⟩
  | .HUT_HREC_STATUS => ⟨some 1, 0, 0x288, 0, 1⟩
  | .HUT_GRANT => ⟨some 1, 0, 0x400, 0, 64⟩
  | .HUT_SPUR_HEALTH => ⟨some 1, 0, 0x800, 0, 192⟩
  | .HUT_SECT => ⟨some 1, 0, 0x1000, 0, 512⟩
  | .GATE_NET_CFG => ⟨some 2, 0, 0x0, 0, 1⟩
  | .GATE_LANE_HEALTH => ⟨some 2, 0, 0x8, 0, 1⟩
  | .GATE_TENANT => ⟨some 2, 0, 0x80, 0, 16⟩
  | .GATE_QP => ⟨some 2, 0, 0x2000, 0, 1024⟩
  | .MEM_GRP_STATUS => ⟨some 3, 0, 0x0, 0, 4⟩
  | .MEM_CH_STATE => ⟨some 3, 0, 0x20, 0, 6⟩
  | .MEM_RETIRE_CFG => ⟨some 3, 0, 0x50, 0, 1⟩
  | .MEM_SCRUB => ⟨some 3, 0, 0x58, 0, 1⟩
  | .MEM_ERR_LOG => ⟨some 3, 0, 0x60, 0, 1⟩
  | .MEM_GRP_MAP => ⟨some 3, 0, 0x100, 0, 24⟩
  | .CFG_DEV_STATE => ⟨some 4, 0, 0x0, 0, 1⟩
  | .CFG_CLAIM => ⟨some 4, 0, 0x8, 0, 1⟩
  | .CFG_STARTUP => ⟨some 4, 0, 0x10, 0, 1⟩
  | .CFG_KEY_STATUS => ⟨some 4, 0, 0x18, 0, 1⟩
  | .CFG_SEC_POLICY => ⟨some 4, 0, 0x20, 0, 1⟩
  | .CFG_STRAPS => ⟨some 4, 0, 0x28, 0, 1⟩
  | .CFG_SCRUB_CTRL => ⟨some 4, 0, 0x30, 0, 1⟩
  | .CFG_SCRUB_STATUS => ⟨some 4, 0, 0x38, 0, 1⟩
  | .CFG_VKEY_HASH => ⟨some 4, 0, 0x80, 0, 16⟩
  | .CFG_STREAM => ⟨some 4, 0, 0x100, 0, 17⟩
  | .CFG_STREAM_POS => ⟨some 4, 0, 0x200, 0, 17⟩
  | .CFG_STREAM_SYNC => ⟨some 4, 0, 0x300, 0, 17⟩
  | .ROPE_STATUS => ⟨some 5, 0, 0x0, 0, 1⟩
  | .PWR_DOMAIN_CMD => ⟨some 6, 0, 0x0, 0, 1⟩
  | .PWR_BIVOUAC => ⟨some 6, 0, 0x8, 0, 1⟩
  | .PWR_THERM => ⟨some 6, 0, 0x10, 0, 1⟩
  | .PWR_CORE_STATE => ⟨some 6, 0, 0x40, 0, 8⟩
  | .PWR_ROUTER_STATE => ⟨some 6, 0, 0x80, 0, 8⟩
  | .PWR_TIER_STATE => ⟨some 6, 0, 0xc0, 0, 8⟩
  | .TAL_DIG => ⟨some 7, 0, 0x0, 0, 16⟩
  | .TAL_LIST => ⟨some 7, 0, 0x80, 0, 16⟩
  | .TAL_DIGSTEP => ⟨some 7, 0, 0x100, 0, 16⟩
  | .TAL_ROOT => ⟨some 7, 0, 0x200, 0, 64⟩

/-- One field of a register family: its lowest bit, width, access code, reset value and whether it is an expert
field (R3, R6, R7). A field of an array field is the field of index 0; `Fld.at` gives the others. -/
structure Fld where
  reg : RegName
  lo : Nat
  width : Nat
  acc : Access
  reset : Nat
  expert : Bool
  deriving DecidableEq, Repr

/-- Element `j` of an array field whose elements lie `step` bits apart. -/
def Fld.at (f : Fld) (step j : Nat) : Fld := { f with lo := f.lo + step * j }

namespace F

/-! MTX_OPD: Table 03-10 -/
def MTX_OPD_BASE : Fld := ⟨.MTX_OPD, 47, 17, .rw, 0, false⟩
def MTX_OPD_PITCH : Fld := ⟨.MTX_OPD, 35, 12, .rw, 0, false⟩
def MTX_OPD_FMT : Fld := ⟨.MTX_OPD, 31, 4, .rw, 0, false⟩
def MTX_OPD_MX : Fld := ⟨.MTX_OPD, 30, 1, .rw, 0, false⟩
def MTX_OPD_ADV : Fld := ⟨.MTX_OPD, 13, 17, .rw, 0, false⟩
/-! MTX_OPS: Table 03-11 -/
def MTX_OPS_SBASE : Fld := ⟨.MTX_OPS, 41, 23, .rw, 0, false⟩
def MTX_OPS_SPITCH : Fld := ⟨.MTX_OPS, 29, 12, .rw, 0, false⟩
def MTX_OPS_SADV : Fld := ⟨.MTX_OPS, 6, 23, .rw, 0, false⟩
/-! MTX_RMASK: Table 03-12 -/
def MTX_RMASK_ROWS : Fld := ⟨.MTX_RMASK, 0, 64, .rw, 18446744073709551615, false⟩
/-! MTX_BMASK_ORG: Table 03-13 -/
def MTX_BMASK_ORG_BASE : Fld := ⟨.MTX_BMASK_ORG, 41, 23, .rw, 0, false⟩
def MTX_BMASK_ORG_LEN : Fld := ⟨.MTX_BMASK_ORG, 28, 13, .rw, 0, false⟩
def MTX_BMASK_ORG_ORG : Fld := ⟨.MTX_BMASK_ORG, 15, 13, .rw, 0, false⟩
/-! MTX_RECOMP: Table 11-3 -/
def MTX_RECOMP_EN : Fld := ⟨.MTX_RECOMP, 16, 1, .rw, 0, false⟩
def MTX_RECOMP_LAST_UNIT : Fld := ⟨.MTX_RECOMP, 8, 7, .rw, 0, false⟩
def MTX_RECOMP_FIRST_UNIT : Fld := ⟨.MTX_RECOMP, 0, 7, .rw, 0, false⟩
/-! CHK_CTRL: Table 03-15 -/
def CHK_CTRL_LOG_ALL : Fld := ⟨.CHK_CTRL, 2, 1, .rw, 0, true⟩
def CHK_CTRL_UNDECIDED : Fld := ⟨.CHK_CTRL, 0, 2, .rw, 0, true⟩
/-! VEC_SR_SEED: Table 02-11 -/
def VEC_SR_SEED_SEED : Fld := ⟨.VEC_SR_SEED, 0, 64, .rw, 0, false⟩
/-! VEC_SR_COORD01: Table 04-6 -/
def VEC_SR_COORD01_C1 : Fld := ⟨.VEC_SR_COORD01, 32, 32, .rw, 0, false⟩
def VEC_SR_COORD01_C0 : Fld := ⟨.VEC_SR_COORD01, 0, 32, .rw, 0, false⟩
/-! VEC_SR_COORD23: Table 04-6 -/
def VEC_SR_COORD23_C3 : Fld := ⟨.VEC_SR_COORD23, 32, 32, .rw, 0, false⟩
def VEC_SR_COORD23_C2 : Fld := ⟨.VEC_SR_COORD23, 0, 32, .rw, 0, false⟩
/-! VEC_OPD: Table 04-4 -/
def VEC_OPD_LINE : Fld := ⟨.VEC_OPD, 55, 9, .rw, 0, false⟩
def VEC_OPD_RSTRIDE : Fld := ⟨.VEC_OPD, 47, 8, .rw, 0, false⟩
def VEC_OPD_LB : Fld := ⟨.VEC_OPD, 46, 1, .rw, 0, false⟩
def VEC_OPD_LANE : Fld := ⟨.VEC_OPD, 40, 6, .rw, 0, false⟩
def VEC_OPD_FMT : Fld := ⟨.VEC_OPD, 36, 4, .rw, 0, false⟩
def VEC_OPD_MX : Fld := ⟨.VEC_OPD, 35, 1, .rw, 0, false⟩
def VEC_OPD_SLINE : Fld := ⟨.VEC_OPD, 26, 9, .rw, 0, false⟩
def VEC_OPD_KIND : Fld := ⟨.VEC_OPD, 25, 1, .rw, 0, false⟩
def VEC_OPD_QUEUE : Fld := ⟨.VEC_OPD, 20, 5, .rw, 0, false⟩
def VEC_OPD_ADV : Fld := ⟨.VEC_OPD, 11, 9, .rw, 0, false⟩
/-! VEC_LMASK: Table 04-5 -/
def VEC_LMASK_LANES : Fld := ⟨.VEC_LMASK, 0, 64, .rw, 18446744073709551615, false⟩
/-! STR_DESC: Table 06-7 -/
def STR_DESC_START : Fld := ⟨.STR_DESC, 55, 9, .rw, 0, false⟩
def STR_DESC_CNT : Fld := ⟨.STR_DESC, 50, 5, .rw, 0, false⟩
def STR_DESC_SREM : Fld := ⟨.STR_DESC, 49, 1, .rw, 0, false⟩
def STR_DESC_QN : Fld := ⟨.STR_DESC, 44, 5, .rw, 0, false⟩
def STR_DESC_CSRC : Fld := ⟨.STR_DESC, 42, 2, .rw, 0, false⟩
def STR_DESC_CIDX : Fld := ⟨.STR_DESC, 37, 5, .rw, 0, false⟩
def STR_DESC_CNUM : Fld := ⟨.STR_DESC, 33, 4, .rw, 0, false⟩
def STR_DESC_DEPTH : Fld := ⟨.STR_DESC, 28, 5, .rw, 0, false⟩
def STR_DESC_CLASS : Fld := ⟨.STR_DESC, 26, 2, .rw, 0, true⟩
/-! TRN_THR: Table 06-7 -/
def TRN_THR_START : Fld := ⟨.TRN_THR, 55, 9, .rw, 0, false⟩
def TRN_THR_CNT : Fld := ⟨.TRN_THR, 50, 5, .rw, 0, false⟩
def TRN_THR_SREM : Fld := ⟨.TRN_THR, 49, 1, .rw, 0, false⟩
def TRN_THR_QN : Fld := ⟨.TRN_THR, 44, 5, .rw, 0, false⟩
def TRN_THR_CSRC : Fld := ⟨.TRN_THR, 42, 2, .rw, 0, false⟩
def TRN_THR_CIDX : Fld := ⟨.TRN_THR, 37, 5, .rw, 0, false⟩
def TRN_THR_CNUM : Fld := ⟨.TRN_THR, 33, 4, .rw, 0, false⟩
def TRN_THR_DEPTH : Fld := ⟨.TRN_THR, 28, 5, .rw, 0, false⟩
def TRN_THR_CLASS : Fld := ⟨.TRN_THR, 26, 2, .rw, 0, true⟩
/-! TRN_PF_CTRL: Table 06-12 -/
def TRN_PF_CTRL_THREADS : Fld := ⟨.TRN_PF_CTRL, 0, 4, .rw, 4, true⟩
/-! TRN_WC: Table 08-8 -/
def TRN_WC_VALUE : Fld := ⟨.TRN_WC, 0, 32, .ro, 0, true⟩
/-! TRN_WC_CFG: Table 08-8 -/
def TRN_WC_CFG_MODE : Fld := ⟨.TRN_WC_CFG, 62, 2, .ro, 0, true⟩
def TRN_WC_CFG_PAIR : Fld := ⟨.TRN_WC_CFG, 56, 6, .ro, 0, true⟩
def TRN_WC_CFG_WRAP : Fld := ⟨.TRN_WC_CFG, 55, 1, .w1c, 0, false⟩
/-! SEQ_CTRL: Table 05-9 -/
def SEQ_CTRL_PLEN : Fld := ⟨.SEQ_CTRL, 0, 12, .rw, 0, false⟩
/-! SEQ_PRED: Table 05-14 -/
def SEQ_PRED_P : Fld := ⟨.SEQ_PRED, 1, 7, .rw, 0, true⟩
def SEQ_PRED_P0 : Fld := ⟨.SEQ_PRED, 0, 1, .ro, 1, true⟩
/-! SEQ_SELPTR: Table 05-16 -/
def SEQ_SELPTR_PTR : Fld := ⟨.SEQ_SELPTR, 0, 5, .rw, 0, true⟩
/-! SEQ_WDOG: Table 05-17 -/
def SEQ_WDOG_ALL : Fld := ⟨.SEQ_WDOG, 16, 1, .rw, 0, true⟩
def SEQ_WDOG_COUNT : Fld := ⟨.SEQ_WDOG, 8, 8, .ro, 0, false⟩
def SEQ_WDOG_LIMIT : Fld := ⟨.SEQ_WDOG, 0, 8, .rw, 16, true⟩
/-! SEQ_CLAIM: Table 08-5 -/
def SEQ_CLAIM_RETRY : Fld := ⟨.SEQ_CLAIM, 16, 8, .rw, 4, true⟩
def SEQ_CLAIM_REQ_SEQ : Fld := ⟨.SEQ_CLAIM, 0, 16, .ro, 0, true⟩
/-! SEQ_LC: Table 05-13 -/
def SEQ_LC_LC : Fld := ⟨.SEQ_LC, 0, 16, .rw, 0, true⟩
/-! SEQ_SIG: Table 08-3 -/
def SEQ_SIG_CNT : Fld := ⟨.SEQ_SIG, 0, 16, .rw, 0, true⟩
/-! SEQ_STEER: Table 05-10 -/
def SEQ_STEER_MODE : Fld := ⟨.SEQ_STEER, 62, 2, .rw, 0, true⟩
def SEQ_STEER_STATUS : Fld := ⟨.SEQ_STEER, 60, 2, .ro, 0, true⟩
def SEQ_STEER_TSRC : Fld := ⟨.SEQ_STEER, 59, 1, .rw, 0, true⟩
def SEQ_STEER_TQ : Fld := ⟨.SEQ_STEER, 54, 5, .rw, 0, true⟩
def SEQ_STEER_IEN : Fld := ⟨.SEQ_STEER, 50, 4, .rw, 0, true⟩
def SEQ_STEER_OEN : Fld := ⟨.SEQ_STEER, 46, 4, .rw, 0, true⟩
def SEQ_STEER_IN : Fld := ⟨.SEQ_STEER, 26, 5, .rw, 0, true⟩
def SEQ_STEER_OUT : Fld := ⟨.SEQ_STEER, 6, 5, .rw, 0, true⟩
/-! TRV_OUT: Table 07-9 -/
def TRV_OUT_SRC : Fld := ⟨.TRV_OUT, 0, 4, .rw, 0, true⟩
/-! QUE_CFG: Table 07-10 -/
def QUE_CFG_ROLE : Fld := ⟨.QUE_CFG, 61, 3, .rw, 0, false⟩
def QUE_CFG_OLINK : Fld := ⟨.QUE_CFG, 59, 2, .rw, 0, true⟩
def QUE_CFG_OSLOTS : Fld := ⟨.QUE_CFG, 45, 14, .rw, 0, true⟩
def QUE_CFG_ILINK : Fld := ⟨.QUE_CFG, 43, 2, .rw, 0, true⟩
def QUE_CFG_ISLOTS : Fld := ⟨.QUE_CFG, 29, 14, .rw, 0, true⟩
def QUE_CFG_PEER : Fld := ⟨.QUE_CFG, 16, 13, .rw, 0, false⟩
/-! QUE_PAR: Table 07-11 -/
def QUE_PAR_BACKOFF : Fld := ⟨.QUE_PAR, 48, 16, .rw, 0, true⟩
def QUE_PAR_IDLE_CLOSE : Fld := ⟨.QUE_PAR, 40, 8, .rw, 0, true⟩
def QUE_PAR_DETACH : Fld := ⟨.QUE_PAR, 33, 7, .rw, 0, true⟩
def QUE_PAR_SCNT : Fld := ⟨.QUE_PAR, 28, 5, .rw, 0, false⟩
def QUE_PAR_RLOG2 : Fld := ⟨.QUE_PAR, 24, 4, .rw, 10, false⟩
def QUE_PAR_MIDX : Fld := ⟨.QUE_PAR, 23, 1, .rw, 0, true⟩
def QUE_PAR_RBASE : Fld := ⟨.QUE_PAR, 0, 19, .rw, 0, false⟩
/-! QUE_MLEAF: Table 07-13 -/
def QUE_MLEAF_OUTST : Fld := ⟨.QUE_MLEAF, 14, 7, .ro, 0, true⟩
def QUE_MLEAF_ATT : Fld := ⟨.QUE_MLEAF, 13, 1, .rw, 0, true⟩
def QUE_MLEAF_LEAF : Fld := ⟨.QUE_MLEAF, 0, 13, .rw, 0, true⟩
/-! SEQ_STATUS: Table 05-12 -/
def SEQ_STATUS_STATE : Fld := ⟨.SEQ_STATUS, 56, 3, .ro, 0, false⟩
def SEQ_STATUS_TRAP_SRC : Fld := ⟨.SEQ_STATUS, 54, 2, .ro, 0, false⟩
def SEQ_STATUS_LAST_TRAP : Fld := ⟨.SEQ_STATUS, 51, 3, .ro, 0, false⟩
def SEQ_STATUS_TRAP_PC : Fld := ⟨.SEQ_STATUS, 40, 11, .ro, 0, false⟩
def SEQ_STATUS_LOOP_SP : Fld := ⟨.SEQ_STATUS, 36, 4, .ro, 0, true⟩
def SEQ_STATUS_PC : Fld := ⟨.SEQ_STATUS, 0, 11, .ro, 0, false⟩
/-! SEQ_WAIT: Table 05-18 -/
def SEQ_WAIT_KIND : Fld := ⟨.SEQ_WAIT, 62, 2, .ro, 0, false⟩
def SEQ_WAIT_PC : Fld := ⟨.SEQ_WAIT, 51, 11, .ro, 0, false⟩
def SEQ_WAIT_ID : Fld := ⟨.SEQ_WAIT, 0, 13, .ro, 0, false⟩
/-! SEQ_MARK: Table 05-19 -/
def SEQ_MARK_VALUE : Fld := ⟨.SEQ_MARK, 48, 16, .ro, 0, false⟩
def SEQ_MARK_PITCH : Fld := ⟨.SEQ_MARK, 16, 32, .ro, 0, false⟩
def SEQ_MARK_CYCLE : Fld := ⟨.SEQ_MARK, 0, 16, .ro, 0, false⟩
/-! SEQ_SIG_STATUS: Table 08-4 -/
def SEQ_SIG_STATUS_ADD_OUT : Fld := ⟨.SEQ_SIG_STATUS, 24, 16, .ro, 0, true⟩
def SEQ_SIG_STATUS_FENCE_HELD : Fld := ⟨.SEQ_SIG_STATUS, 17, 7, .ro, 0, true⟩
def SEQ_SIG_STATUS_FIRST_SAT : Fld := ⟨.SEQ_SIG_STATUS, 12, 5, .ro, 0, true⟩
def SEQ_SIG_STATUS_SIG_XPART : Fld := ⟨.SEQ_SIG_STATUS, 2, 1, .w1c, 0, false⟩
def SEQ_SIG_STATUS_PEND_SAT : Fld := ⟨.SEQ_SIG_STATUS, 1, 1, .w1c, 0, false⟩
def SEQ_SIG_STATUS_SIG_SAT : Fld := ⟨.SEQ_SIG_STATUS, 0, 1, .w1c, 0, false⟩
/-! SEQ_BARFLAG: Table 08-5 -/
def SEQ_BARFLAG_FLAGS : Fld := ⟨.SEQ_BARFLAG, 0, 64, .ro, 0, true⟩
/-! TRV_LINK_STATE: Table 14-10 -/
def TRV_LINK_STATE_REPLAYS : Fld := ⟨.TRV_LINK_STATE, 7, 4, .ro, 0, true⟩
def TRV_LINK_STATE_DELAY : Fld := ⟨.TRV_LINK_STATE, 2, 5, .ro, 0, false⟩
def TRV_LINK_STATE_STATE : Fld := ⟨.TRV_LINK_STATE, 0, 2, .ro, 0, false⟩
/-! CHK_ECC_LOG: Table 13-6 -/
def CHK_ECC_LOG_MEM : Fld := ⟨.CHK_ECC_LOG, 61, 3, .rc, 0, false⟩
def CHK_ECC_LOG_UE : Fld := ⟨.CHK_ECC_LOG, 60, 1, .ro, 0, false⟩
def CHK_ECC_LOG_SYND : Fld := ⟨.CHK_ECC_LOG, 52, 8, .ro, 0, false⟩
def CHK_ECC_LOG_WORD : Fld := ⟨.CHK_ECC_LOG, 24, 24, .ro, 0, false⟩
def CHK_ECC_LOG_PITCH : Fld := ⟨.CHK_ECC_LOG, 0, 24, .ro, 0, false⟩
/-! SEQ_STEER_STAT: Table 05-11 -/
def SEQ_STEER_STAT_BADSEL : Fld := ⟨.SEQ_STEER_STAT, 16, 1, .w1c, 0, true⟩
def SEQ_STEER_STAT_DATA : Fld := ⟨.SEQ_STEER_STAT, 8, 5, .ro, 0, true⟩
def SEQ_STEER_STAT_TOKENS : Fld := ⟨.SEQ_STEER_STAT, 4, 4, .ro, 0, true⟩
/-! SEQ_LOOP: Table 05-15 -/
def SEQ_LOOP_START : Fld := ⟨.SEQ_LOOP, 43, 11, .ro, 0, true⟩
def SEQ_LOOP_END : Fld := ⟨.SEQ_LOOP, 32, 11, .ro, 0, true⟩
def SEQ_LOOP_COUNT : Fld := ⟨.SEQ_LOOP, 16, 16, .ro, 0, true⟩
def SEQ_LOOP_LC : Fld := ⟨.SEQ_LOOP, 0, 4, .ro, 0, true⟩
/-! QUE_STAT: Table 07-12 -/
def QUE_STAT_CSTATE : Fld := ⟨.QUE_STAT, 61, 3, .ro, 0, false⟩
def QUE_STAT_GEN : Fld := ⟨.QUE_STAT, 54, 7, .ro, 0, true⟩
def QUE_STAT_GAP : Fld := ⟨.QUE_STAT, 53, 1, .ro, 0, false⟩
def QUE_STAT_SEQ : Fld := ⟨.QUE_STAT, 37, 16, .ro, 0, true⟩
def QUE_STAT_ENTRIES : Fld := ⟨.QUE_STAT, 30, 7, .ro, 0, false⟩
def QUE_STAT_CREDITS : Fld := ⟨.QUE_STAT, 23, 7, .ro, 64, false⟩
def QUE_STAT_RESV : Fld := ⟨.QUE_STAT, 16, 7, .ro, 0, false⟩
def QUE_STAT_RCRED : Fld := ⟨.QUE_STAT, 0, 16, .ro, 0, false⟩
/-! MOR_STATUS: Table 02-10 -/
def MOR_STATUS_LAST_TRAP : Fld := ⟨.MOR_STATUS, 21, 3, .ro, 0, false⟩
def MOR_STATUS_FIRST_SAT_SLOT : Fld := ⟨.MOR_STATUS, 14, 7, .ro, 0, true⟩
def MOR_STATUS_BAD_TAG : Fld := ⟨.MOR_STATUS, 3, 1, .w1c, 0, false⟩
def MOR_STATUS_NAN_SEEN : Fld := ⟨.MOR_STATUS, 2, 1, .w1c, 0, false⟩
def MOR_STATUS_INF_SEEN : Fld := ⟨.MOR_STATUS, 1, 1, .w1c, 0, false⟩
def MOR_STATUS_SAT_SEEN : Fld := ⟨.MOR_STATUS, 0, 1, .w1c, 0, false⟩
/-! MTX_STATUS: Table 03-14 -/
def MTX_STATUS_LAST_TRAP : Fld := ⟨.MTX_STATUS, 40, 4, .ro, 0, false⟩
def MTX_STATUS_PROJ : Fld := ⟨.MTX_STATUS, 16, 16, .ro, 0, true⟩
def MTX_STATUS_REEXEC_SPENT : Fld := ⟨.MTX_STATUS, 8, 1, .ro, 0, true⟩
def MTX_STATUS_PENDING : Fld := ⟨.MTX_STATUS, 5, 3, .ro, 0, true⟩
def MTX_STATUS_HELD : Fld := ⟨.MTX_STATUS, 4, 1, .ro, 0, false⟩
/-! CHK_LOG: Table 03-16 -/
def CHK_LOG_KIND : Fld := ⟨.CHK_LOG, 62, 2, .rc, 0, false⟩
def CHK_LOG_ROW : Fld := ⟨.CHK_LOG, 56, 6, .ro, 0, false⟩
def CHK_LOG_COL : Fld := ⟨.CHK_LOG, 50, 6, .ro, 0, false⟩
def CHK_LOG_OUTCOME : Fld := ⟨.CHK_LOG, 48, 2, .ro, 0, false⟩
def CHK_LOG_PITCH : Fld := ⟨.CHK_LOG, 0, 48, .ro, 0, false⟩
/-! CHK_SYND: Table 03-17 -/
def CHK_SYND_SAME : Fld := ⟨.CHK_SYND, 61, 1, .ro, 0, true⟩
def CHK_SYND_SYND : Fld := ⟨.CHK_SYND, 0, 61, .ro, 0, false⟩
/-! VEC_FLAGS: Table 04-7 -/
def VEC_FLAGS_ARI_DIVZ : Fld := ⟨.VEC_FLAGS, 8, 1, .w1c, 0, false⟩
def VEC_FLAGS_ARI_INVALID : Fld := ⟨.VEC_FLAGS, 7, 1, .w1c, 0, false⟩
def VEC_FLAGS_ARI_OVF : Fld := ⟨.VEC_FLAGS, 6, 1, .w1c, 0, false⟩
def VEC_FLAGS_ARI_UNF : Fld := ⟨.VEC_FLAGS, 5, 1, .w1c, 0, false⟩
def VEC_FLAGS_ARI_INX : Fld := ⟨.VEC_FLAGS, 4, 1, .w1c, 0, false⟩
def VEC_FLAGS_CVT_INVALID : Fld := ⟨.VEC_FLAGS, 3, 1, .w1c, 0, false⟩
def VEC_FLAGS_CVT_OVF : Fld := ⟨.VEC_FLAGS, 2, 1, .w1c, 0, false⟩
def VEC_FLAGS_CVT_UNF : Fld := ⟨.VEC_FLAGS, 1, 1, .w1c, 0, false⟩
def VEC_FLAGS_CVT_INX : Fld := ⟨.VEC_FLAGS, 0, 1, .w1c, 0, false⟩
/-! VEC_STATUS: Table 04-8 -/
def VEC_STATUS_LAST_TRAP : Fld := ⟨.VEC_STATUS, 32, 4, .ro, 0, false⟩
def VEC_STATUS_PROJ : Fld := ⟨.VEC_STATUS, 16, 16, .ro, 0, true⟩
def VEC_STATUS_UNDEC_ROW : Fld := ⟨.VEC_STATUS, 10, 6, .ro, 0, true⟩
def VEC_STATUS_REPLAY_SPENT : Fld := ⟨.VEC_STATUS, 9, 1, .ro, 0, true⟩
def VEC_STATUS_HELD : Fld := ⟨.VEC_STATUS, 8, 1, .ro, 0, false⟩
/-! STR_STATE: Table 06-8 -/
def STR_STATE_STATE : Fld := ⟨.STR_STATE, 62, 2, .ro, 0, false⟩
def STR_STATE_CREDITS : Fld := ⟨.STR_STATE, 57, 5, .ro, 0, false⟩
def STR_STATE_PC : Fld := ⟨.STR_STATE, 48, 9, .ro, 0, true⟩
def STR_STATE_ARG : Fld := ⟨.STR_STATE, 32, 16, .ro, 0, true⟩
def STR_STATE_SHADOW : Fld := ⟨.STR_STATE, 16, 16, .ro, 0, true⟩
def STR_STATE_OUTST : Fld := ⟨.STR_STATE, 10, 6, .ro, 0, true⟩
def STR_STATE_LOOP_SP : Fld := ⟨.STR_STATE, 7, 3, .ro, 0, true⟩
def STR_STATE_LAST_TRAP : Fld := ⟨.STR_STATE, 4, 3, .ro, 0, false⟩
def STR_STATE_CRED_OVF : Fld := ⟨.STR_STATE, 3, 1, .w1c, 0, false⟩
/-! STR_PROG: Table 06-10 -/
def STR_PROG_DONE : Fld := ⟨.STR_PROG, 0, 16, .ro, 0, true⟩
/-! STR_AREG: Table 06-9 -/
def STR_AREG_ADDR : Fld := ⟨.STR_AREG, 0, 48, .ro, 0, true⟩
/-! TRN_HALF: Table 06-11 -/
def TRN_HALF_BOTH : Fld := ⟨.TRN_HALF, 2, 1, .ro, 0, false⟩
def TRN_HALF_LIVE : Fld := ⟨.TRN_HALF, 1, 1, .ro, 0, false⟩
def TRN_HALF_ACT : Fld := ⟨.TRN_HALF, 0, 1, .ro, 0, false⟩
/-! TRN_PF_STATUS: Table 06-12 -/
def TRN_PF_STATUS_DONE : Fld := ⟨.TRN_PF_STATUS, 0, 1, .ro, 1, false⟩
/-! TRN_CLOG_STATUS: Table 08-8 -/
def TRN_CLOG_STATUS_USED : Fld := ⟨.TRN_CLOG_STATUS, 0, 10, .ro, 0, true⟩
/-! TRN_THR_STATE: Table 06-8 -/
def TRN_THR_STATE_STATE : Fld := ⟨.TRN_THR_STATE, 62, 2, .ro, 0, false⟩
def TRN_THR_STATE_CREDITS : Fld := ⟨.TRN_THR_STATE, 57, 5, .ro, 0, false⟩
def TRN_THR_STATE_PC : Fld := ⟨.TRN_THR_STATE, 48, 9, .ro, 0, true⟩
def TRN_THR_STATE_ARG : Fld := ⟨.TRN_THR_STATE, 32, 16, .ro, 0, true⟩
def TRN_THR_STATE_SHADOW : Fld := ⟨.TRN_THR_STATE, 16, 16, .ro, 0, true⟩
def TRN_THR_STATE_OUTST : Fld := ⟨.TRN_THR_STATE, 10, 6, .ro, 0, true⟩
def TRN_THR_STATE_LOOP_SP : Fld := ⟨.TRN_THR_STATE, 7, 3, .ro, 0, true⟩
def TRN_THR_STATE_LAST_TRAP : Fld := ⟨.TRN_THR_STATE, 4, 3, .ro, 0, false⟩
def TRN_THR_STATE_CRED_OVF : Fld := ⟨.TRN_THR_STATE, 3, 1, .w1c, 0, false⟩
/-! TRN_PROG: Table 06-10 -/
def TRN_PROG_DONE : Fld := ⟨.TRN_PROG, 0, 16, .ro, 0, true⟩
/-! TRN_AREG: Table 06-9 -/
def TRN_AREG_ADDR : Fld := ⟨.TRN_AREG, 0, 48, .ro, 0, true⟩
/-! COL_PITCH_CTRL: Table 01-9 -/
def COL_PITCH_CTRL_WRAPPED : Fld := ⟨.COL_PITCH_CTRL, 8, 1, .w1c, 0, false⟩
def COL_PITCH_CTRL_CHANGE_PEND : Fld := ⟨.COL_PITCH_CTRL, 7, 1, .ro, 0, false⟩
def COL_PITCH_CTRL_STATUS : Fld := ⟨.COL_PITCH_CTRL, 4, 3, .ro, 0, false⟩
def COL_PITCH_CTRL_NEW_LOG2 : Fld := ⟨.COL_PITCH_CTRL, 0, 4, .rw, 12, true⟩
/-! COL_PITCH_NUM: Table 01-10 -/
def COL_PITCH_NUM_LOG2_LEN : Fld := ⟨.COL_PITCH_NUM, 60, 4, .ro, 12, false⟩
def COL_PITCH_NUM_PITCH : Fld := ⟨.COL_PITCH_NUM, 0, 48, .ro, 0, false⟩
/-! COL_BAR: Table 08-6 -/
def COL_BAR_ACTIVE : Fld := ⟨.COL_BAR, 63, 1, .ro, 0, true⟩
def COL_BAR_OWNER : Fld := ⟨.COL_BAR, 59, 4, .ro, 0, true⟩
def COL_BAR_REL : Fld := ⟨.COL_BAR, 54, 5, .ro, 0, true⟩
def COL_BAR_TARGET : Fld := ⟨.COL_BAR, 45, 9, .ro, 0, true⟩
def COL_BAR_COUNT : Fld := ⟨.COL_BAR, 36, 9, .ro, 0, true⟩
def COL_BAR_GEN : Fld := ⟨.COL_BAR, 20, 16, .ro, 0, true⟩
/-! COL_BAR_MEM: Table 08-7 -/
def COL_BAR_MEM_MEMBERS : Fld := ⟨.COL_BAR_MEM, 0, 64, .ro, 0, true⟩
/-! COL_BAR_ARR: Table 08-7 -/
def COL_BAR_ARR_ARRIVED : Fld := ⟨.COL_BAR_ARR, 0, 64, .ro, 0, true⟩
/-! HUT_PART: Table 12-4 -/
def HUT_PART_ACTIVE : Fld := ⟨.HUT_PART, 63, 1, .ro, 0, false⟩
def HUT_PART_STATUS : Fld := ⟨.HUT_PART, 60, 3, .ro, 0, false⟩
def HUT_PART_TENANT : Fld := ⟨.HUT_PART, 56, 4, .ro, 0, false⟩
def HUT_PART_AUTO : Fld := ⟨.HUT_PART, 55, 1, .rw, 0, false⟩
def HUT_PART_CB0 : Fld := ⟨.HUT_PART, 50, 2, .ro, 0, false⟩
def HUT_PART_NCB : Fld := ⟨.HUT_PART, 47, 3, .ro, 0, false⟩
def HUT_PART_ROW0 : Fld := ⟨.HUT_PART, 43, 4, .ro, 0, false⟩
def HUT_PART_NROW : Fld := ⟨.HUT_PART, 38, 5, .ro, 0, false⟩
/-! HUT_TRAIN: Table 11-4 -/
def HUT_TRAIN_STEP : Fld := ⟨.HUT_TRAIN, 32, 32, .ro, 0, false⟩
def HUT_TRAIN_DIG_PEND : Fld := ⟨.HUT_TRAIN, 31, 1, .ro, 0, false⟩
def HUT_TRAIN_INTERVAL : Fld := ⟨.HUT_TRAIN, 0, 16, .rw, 0, false⟩
/-! HUT_LOAD_REFUSAL: Table 10-6 -/
def HUT_LOAD_REFUSAL_STEP : Fld := ⟨.HUT_LOAD_REFUSAL, 59, 5, .ro, 0, false⟩
def HUT_LOAD_REFUSAL_CODE : Fld := ⟨.HUT_LOAD_REFUSAL, 51, 8, .ro, 0, false⟩
def HUT_LOAD_REFUSAL_SITE : Fld := ⟨.HUT_LOAD_REFUSAL, 43, 8, .ro, 0, false⟩
def HUT_LOAD_REFUSAL_OBJ : Fld := ⟨.HUT_LOAD_REFUSAL, 32, 11, .ro, 0, false⟩
def HUT_LOAD_REFUSAL_JOB : Fld := ⟨.HUT_LOAD_REFUSAL, 16, 16, .ro, 0, false⟩
def HUT_LOAD_REFUSAL_VALID : Fld := ⟨.HUT_LOAD_REFUSAL, 0, 1, .rc, 0, false⟩
/-! HUT_REF: Table 13-8 -/
def HUT_REF_SUSPECT : Fld := ⟨.HUT_REF, 56, 8, .ro, 0, false⟩
def HUT_REF_REFEREE : Fld := ⟨.HUT_REF, 48, 8, .ro, 0, false⟩
def HUT_REF_UNIT : Fld := ⟨.HUT_REF, 47, 1, .ro, 0, false⟩
def HUT_REF_STATE : Fld := ⟨.HUT_REF, 44, 3, .ro, 0, false⟩
def HUT_REF_VERDICT : Fld := ⟨.HUT_REF, 42, 2, .ro, 0, false⟩
def HUT_REF_SAME : Fld := ⟨.HUT_REF, 41, 1, .ro, 0, true⟩
def HUT_REF_PITCH : Fld := ⟨.HUT_REF, 0, 32, .ro, 0, false⟩
/-! HUT_POISON: Table 13-9 -/
def HUT_POISON_KIND : Fld := ⟨.HUT_POISON, 61, 3, .rc, 0, false⟩
def HUT_POISON_SITE : Fld := ⟨.HUT_POISON, 53, 8, .ro, 0, false⟩
def HUT_POISON_ADDR : Fld := ⟨.HUT_POISON, 0, 48, .ro, 0, false⟩
/-! HUT_HEALTH_CTRL: Table 14-8 -/
def HUT_HEALTH_CTRL_REARM_MAX : Fld := ⟨.HUT_HEALTH_CTRL, 36, 4, .rw, 2, true⟩
def HUT_HEALTH_CTRL_HEALTHY_LOG2 : Fld := ⟨.HUT_HEALTH_CTRL, 31, 5, .rw, 16, true⟩
def HUT_HEALTH_CTRL_WATCH_PERIOD : Fld := ⟨.HUT_HEALTH_CTRL, 23, 8, .rw, 64, true⟩
def HUT_HEALTH_CTRL_WATCH_CLEAN : Fld := ⟨.HUT_HEALTH_CTRL, 11, 12, .rw, 256, true⟩
/-! HUT_HREC_STATUS: Table 14-12 -/
def HUT_HREC_STATUS_HREC_RESET : Fld := ⟨.HUT_HREC_STATUS, 63, 1, .ro, 0, false⟩
def HUT_HREC_STATUS_WERR : Fld := ⟨.HUT_HREC_STATUS, 62, 1, .w1c, 0, false⟩
def HUT_HREC_STATUS_BADREC : Fld := ⟨.HUT_HREC_STATUS, 32, 16, .ro, 0, false⟩
def HUT_HREC_STATUS_BOOT : Fld := ⟨.HUT_HREC_STATUS, 16, 16, .ro, 0, false⟩
def HUT_HREC_STATUS_USED : Fld := ⟨.HUT_HREC_STATUS, 0, 15, .ro, 0, false⟩
/-! HUT_GRANT: Table 12-5 -/
def HUT_GRANT_STATUS : Fld := ⟨.HUT_GRANT, 62, 2, .ro, 0, false⟩
def HUT_GRANT_ZEROING : Fld := ⟨.HUT_GRANT, 61, 1, .ro, 0, false⟩
def HUT_GRANT_SIZE : Fld := ⟨.HUT_GRANT, 32, 10, .ro, 0, false⟩
def HUT_GRANT_BASE : Fld := ⟨.HUT_GRANT, 0, 10, .ro, 0, false⟩
/-! HUT_SPUR_HEALTH: Table 14-9 -/
def HUT_SPUR_HEALTH_STATE : Fld := ⟨.HUT_SPUR_HEALTH, 62, 2, .ro, 0, false⟩
def HUT_SPUR_HEALTH_PRIOR : Fld := ⟨.HUT_SPUR_HEALTH, 61, 1, .ro, 0, true⟩
def HUT_SPUR_HEALTH_WATCH_LEFT : Fld := ⟨.HUT_SPUR_HEALTH, 49, 12, .ro, 0, false⟩
def HUT_SPUR_HEALTH_FAULTS : Fld := ⟨.HUT_SPUR_HEALTH, 41, 8, .ro, 0, false⟩
def HUT_SPUR_HEALTH_CAUSE : Fld := ⟨.HUT_SPUR_HEALTH, 38, 3, .ro, 0, false⟩
def HUT_SPUR_HEALTH_PITCH : Fld := ⟨.HUT_SPUR_HEALTH, 0, 32, .ro, 0, false⟩
/-! HUT_SECT: Table 12-6 -/
def HUT_SECT_STATE : Fld := ⟨.HUT_SECT, 60, 4, .ro, 0, false⟩
def HUT_SECT_RUNNABLE : Fld := ⟨.HUT_SECT, 59, 1, .ro, 0, false⟩
def HUT_SECT_BUSY : Fld := ⟨.HUT_SECT, 58, 1, .ro, 0, false⟩
def HUT_SECT_PRIO : Fld := ⟨.HUT_SECT, 55, 3, .ro, 0, false⟩
def HUT_SECT_ORG_COL : Fld := ⟨.HUT_SECT, 51, 4, .ro, 0, false⟩
def HUT_SECT_ORG_ROW : Fld := ⟨.HUT_SECT, 47, 4, .ro, 0, false⟩
def HUT_SECT_AFTER : Fld := ⟨.HUT_SECT, 42, 5, .ro, 0, false⟩
def HUT_SECT_AFTER_EN : Fld := ⟨.HUT_SECT, 41, 1, .ro, 0, false⟩
def HUT_SECT_JOB : Fld := ⟨.HUT_SECT, 16, 16, .ro, 0, false⟩
/-! GATE_NET_CFG: Table 16-12 -/
def GATE_NET_CFG_PAUSE_EN : Fld := ⟨.GATE_NET_CFG, 18, 1, .rw, 0, false⟩
def GATE_NET_CFG_PFC_EN : Fld := ⟨.GATE_NET_CFG, 17, 1, .rw, 1, false⟩
def GATE_NET_CFG_VLAN_EN : Fld := ⟨.GATE_NET_CFG, 16, 1, .rw, 0, false⟩
def GATE_NET_CFG_PCP : Fld := ⟨.GATE_NET_CFG, 13, 3, .rw, 3, false⟩
def GATE_NET_CFG_VID : Fld := ⟨.GATE_NET_CFG, 0, 12, .rw, 0, false⟩
/-! GATE_LANE_HEALTH: Table 14-11 -/
def GATE_LANE_HEALTH_WIDTH : Fld := ⟨.GATE_LANE_HEALTH, 61, 3, .ro, 0, false⟩
def GATE_LANE_HEALTH_PAIR : Fld := ⟨.GATE_LANE_HEALTH, 59, 2, .ro, 0, false⟩
def GATE_LANE_HEALTH_FAIL_HI : Fld := ⟨.GATE_LANE_HEALTH, 48, 8, .ro, 0, false⟩
def GATE_LANE_HEALTH_FAIL_LO : Fld := ⟨.GATE_LANE_HEALTH, 40, 8, .ro, 0, false⟩
def GATE_LANE_HEALTH_LANE_SER_MAX : Fld := ⟨.GATE_LANE_HEALTH, 0, 16, .rw, 4096, true⟩
/-! GATE_TENANT: Table 16-14 -/
def GATE_TENANT_ACTIVE : Fld := ⟨.GATE_TENANT, 63, 1, .ro, 0, false⟩
def GATE_TENANT_EXPERT : Fld := ⟨.GATE_TENANT, 62, 1, .ro, 0, false⟩
def GATE_TENANT_MAXQP : Fld := ⟨.GATE_TENANT, 42, 10, .ro, 0, false⟩
def GATE_TENANT_QPS : Fld := ⟨.GATE_TENANT, 32, 10, .ro, 0, false⟩
/-! GATE_QP: Table 16-13 -/
def GATE_QP_STATE : Fld := ⟨.GATE_QP, 61, 3, .ro, 0, false⟩
def GATE_QP_OWNER : Fld := ⟨.GATE_QP, 56, 5, .ro, 0, false⟩
def GATE_QP_GVER : Fld := ⟨.GATE_QP, 54, 2, .ro, 0, false⟩
def GATE_QP_MTU : Fld := ⟨.GATE_QP, 52, 2, .ro, 0, false⟩
def GATE_QP_PEND : Fld := ⟨.GATE_QP, 32, 16, .ro, 0, true⟩
def GATE_QP_CI : Fld := ⟨.GATE_QP, 0, 32, .ro, 0, false⟩
/-! MEM_GRP_STATUS: Table 09-5 -/
def MEM_GRP_STATUS_STATE : Fld := ⟨.MEM_GRP_STATUS, 61, 3, .ro, 0, false⟩
def MEM_GRP_STATUS_LIVE : Fld := ⟨.MEM_GRP_STATUS, 48, 6, .ro, 48, false⟩
def MEM_GRP_STATUS_HELD : Fld := ⟨.MEM_GRP_STATUS, 0, 1, .ro, 0, false⟩
/-! MEM_CH_STATE: Table 09-7 -/
def MEM_CH_STATE_CH : Fld := ⟨.MEM_CH_STATE, 0, 2, .ro, 0, false⟩
/-! MEM_RETIRE_CFG: Table 09-8 -/
def MEM_RETIRE_CFG_RETRY : Fld := ⟨.MEM_RETIRE_CFG, 32, 2, .rw, 2, true⟩
def MEM_RETIRE_CFG_UE_MAX : Fld := ⟨.MEM_RETIRE_CFG, 24, 8, .rw, 4, true⟩
def MEM_RETIRE_CFG_UE_WIN_MS : Fld := ⟨.MEM_RETIRE_CFG, 8, 16, .rw, 1000, true⟩
def MEM_RETIRE_CFG_RETRAIN_MAX : Fld := ⟨.MEM_RETIRE_CFG, 4, 4, .rw, 3, true⟩
/-! MEM_SCRUB: Table 09-9 -/
def MEM_SCRUB_EN : Fld := ⟨.MEM_SCRUB, 16, 1, .rw, 1, true⟩
def MEM_SCRUB_INTERVAL : Fld := ⟨.MEM_SCRUB, 0, 16, .rw, 8192, true⟩
/-! MEM_ERR_LOG: Table 09-10 -/
def MEM_ERR_LOG_KIND : Fld := ⟨.MEM_ERR_LOG, 62, 2, .rc, 0, false⟩
def MEM_ERR_LOG_CH : Fld := ⟨.MEM_ERR_LOG, 54, 8, .ro, 0, false⟩
def MEM_ERR_LOG_FRAME : Fld := ⟨.MEM_ERR_LOG, 24, 24, .ro, 0, false⟩
def MEM_ERR_LOG_PITCH : Fld := ⟨.MEM_ERR_LOG, 0, 24, .ro, 0, false⟩
/-! MEM_GRP_MAP: Table 09-6 -/
def MEM_GRP_MAP_ENTRY : Fld := ⟨.MEM_GRP_MAP, 0, 8, .ro, 0, true⟩
/-! CFG_DEV_STATE: Table 15-8 -/
def CFG_DEV_STATE_STATE : Fld := ⟨.CFG_DEV_STATE, 61, 3, .ro, 0, false⟩
def CFG_DEV_STATE_STEP : Fld := ⟨.CFG_DEV_STATE, 57, 4, .ro, 0, false⟩
def CFG_DEV_STATE_FAIL : Fld := ⟨.CFG_DEV_STATE, 54, 3, .ro, 0, false⟩
def CFG_DEV_STATE_POS : Fld := ⟨.CFG_DEV_STATE, 51, 3, .ro, 0, false⟩
def CFG_DEV_STATE_LEFT_MS : Fld := ⟨.CFG_DEV_STATE, 0, 32, .ro, 0, false⟩
/-! CFG_CLAIM: Table 15-9 -/
def CFG_CLAIM_WIN : Fld := ⟨.CFG_CLAIM, 62, 2, .ro, 0, false⟩
def CFG_CLAIM_SECT_MS : Fld := ⟨.CFG_CLAIM, 32, 30, .rw, 10000, false⟩
def CFG_CLAIM_DEADLINE_MS : Fld := ⟨.CFG_CLAIM, 0, 32, .ro, 0, false⟩
/-! CFG_STARTUP: Table 15-10 -/
def CFG_STARTUP_STEP : Fld := ⟨.CFG_STARTUP, 0, 4, .ro, 0, false⟩
/-! CFG_KEY_STATUS: Table 15-11 -/
def CFG_KEY_STATUS_SRC : Fld := ⟨.CFG_KEY_STATUS, 63, 1, .ro, 0, false⟩
def CFG_KEY_STATUS_FUSE_KEY : Fld := ⟨.CFG_KEY_STATUS, 62, 1, .ro, 0, false⟩
def CFG_KEY_STATUS_VBAT_KEY : Fld := ⟨.CFG_KEY_STATUS, 61, 1, .ro, 0, false⟩
def CFG_KEY_STATUS_SLOTS : Fld := ⟨.CFG_KEY_STATUS, 0, 4, .ro, 0, false⟩
/-! CFG_SEC_POLICY: Table 15-11 -/
def CFG_SEC_POLICY_REQ_SIG : Fld := ⟨.CFG_SEC_POLICY, 0, 1, .w1s, 0, false⟩
/-! CFG_STRAPS: Table 17-13 -/
def CFG_STRAPS_ROPE_HEAD : Fld := ⟨.CFG_STRAPS, 16, 1, .ro, 1, false⟩
def CFG_STRAPS_MGMT_BASE : Fld := ⟨.CFG_STRAPS, 14, 2, .ro, 0, false⟩
def CFG_STRAPS_PITCH_DEF : Fld := ⟨.CFG_STRAPS, 12, 2, .ro, 0, false⟩
def CFG_STRAPS_CLAIM_WIN : Fld := ⟨.CFG_STRAPS, 10, 2, .ro, 0, false⟩
def CFG_STRAPS_ETH_MODE : Fld := ⟨.CFG_STRAPS, 8, 2, .ro, 0, false⟩
def CFG_STRAPS_KEY_SRC : Fld := ⟨.CFG_STRAPS, 7, 1, .ro, 0, false⟩
def CFG_STRAPS_BOARD_ID : Fld := ⟨.CFG_STRAPS, 0, 6, .ro, 0, false⟩
/-! CFG_SCRUB_CTRL: Table 13-7 -/
def CFG_SCRUB_CTRL_VOTE_ERR : Fld := ⟨.CFG_SCRUB_CTRL, 5, 1, .ro, 0, true⟩
def CFG_SCRUB_CTRL_EN : Fld := ⟨.CFG_SCRUB_CTRL, 4, 1, .rw, 0, true⟩
def CFG_SCRUB_CTRL_RATE : Fld := ⟨.CFG_SCRUB_CTRL, 0, 4, .rw, 0, true⟩
/-! CFG_SCRUB_STATUS: Table 13-7 -/
def CFG_SCRUB_STATUS_HEARTBEAT : Fld := ⟨.CFG_SCRUB_STATUS, 32, 32, .ro, 0, false⟩
def CFG_SCRUB_STATUS_SITE : Fld := ⟨.CFG_SCRUB_STATUS, 24, 8, .ro, 0, false⟩
/-! CFG_VKEY_HASH: Table 15-12 -/
def CFG_VKEY_HASH_HASH : Fld := ⟨.CFG_VKEY_HASH, 0, 64, .ro, 0, false⟩
/-! CFG_STREAM: Table 15-13 -/
def CFG_STREAM_STATE : Fld := ⟨.CFG_STREAM, 61, 3, .ro, 0, false⟩
def CFG_STREAM_OUTCOME : Fld := ⟨.CFG_STREAM, 58, 3, .ro, 0, false⟩
def CFG_STREAM_REASON : Fld := ⟨.CFG_STREAM, 53, 5, .ro, 0, false⟩
def CFG_STREAM_RESUMABLE : Fld := ⟨.CFG_STREAM, 52, 1, .ro, 0, false⟩
def CFG_STREAM_BLOCK : Fld := ⟨.CFG_STREAM, 32, 16, .ro, 0, true⟩
def CFG_STREAM_STREAM_ID : Fld := ⟨.CFG_STREAM, 0, 32, .ro, 0, false⟩
/-! CFG_STREAM_POS: Table 15-13 -/
def CFG_STREAM_POS_OFFSET : Fld := ⟨.CFG_STREAM_POS, 0, 48, .ro, 0, false⟩
/-! CFG_STREAM_SYNC: Table 15-13 -/
def CFG_STREAM_SYNC_OFFSET : Fld := ⟨.CFG_STREAM_SYNC, 0, 48, .ro, 0, false⟩
/-! ROPE_STATUS: Table 17-14 -/
def ROPE_STATUS_POS : Fld := ⟨.ROPE_STATUS, 61, 3, .ro, 0, false⟩
def ROPE_STATUS_POS_VALID : Fld := ⟨.ROPE_STATUS, 60, 1, .ro, 0, false⟩
def ROPE_STATUS_HEAD : Fld := ⟨.ROPE_STATUS, 59, 1, .ro, 1, false⟩
def ROPE_STATUS_UP_LINK : Fld := ⟨.ROPE_STATUS, 58, 1, .ro, 0, false⟩
def ROPE_STATUS_DOWN_LINK : Fld := ⟨.ROPE_STATUS, 57, 1, .ro, 0, false⟩
def ROPE_STATUS_UP_VER : Fld := ⟨.ROPE_STATUS, 55, 2, .ro, 0, false⟩
def ROPE_STATUS_DOWN_VER : Fld := ⟨.ROPE_STATUS, 53, 2, .ro, 0, false⟩
def ROPE_STATUS_LAST : Fld := ⟨.ROPE_STATUS, 50, 3, .ro, 0, false⟩
def ROPE_STATUS_LONG : Fld := ⟨.ROPE_STATUS, 49, 1, .ro, 0, false⟩
/-! PWR_DOMAIN_CMD: Table 01-11 -/
def PWR_DOMAIN_CMD_STATUS : Fld := ⟨.PWR_DOMAIN_CMD, 16, 3, .ro, 0, true⟩
def PWR_DOMAIN_CMD_ACTION : Fld := ⟨.PWR_DOMAIN_CMD, 14, 2, .wo, 0, true⟩
def PWR_DOMAIN_CMD_DOMAIN : Fld := ⟨.PWR_DOMAIN_CMD, 10, 4, .wo, 0, true⟩
def PWR_DOMAIN_CMD_SITE : Fld := ⟨.PWR_DOMAIN_CMD, 0, 8, .wo, 0, true⟩
/-! PWR_BIVOUAC: Table 17-15 -/
def PWR_BIVOUAC_STATE : Fld := ⟨.PWR_BIVOUAC, 62, 2, .ro, 0, false⟩
def PWR_BIVOUAC_STATUS : Fld := ⟨.PWR_BIVOUAC, 60, 2, .ro, 0, false⟩
def PWR_BIVOUAC_WAKE_SRC : Fld := ⟨.PWR_BIVOUAC, 57, 3, .ro, 0, false⟩
def PWR_BIVOUAC_ENTER : Fld := ⟨.PWR_BIVOUAC, 56, 1, .w1s, 0, false⟩
def PWR_BIVOUAC_AUTO_MS : Fld := ⟨.PWR_BIVOUAC, 0, 32, .rw, 0, false⟩
/-! PWR_THERM: Table 17-16 -/
def PWR_THERM_TJ : Fld := ⟨.PWR_THERM, 52, 12, .ro, 0, false⟩
def PWR_THERM_LEVEL : Fld := ⟨.PWR_THERM, 50, 2, .ro, 0, false⟩
def PWR_THERM_WARN : Fld := ⟨.PWR_THERM, 49, 1, .ro, 0, false⟩
def PWR_THERM_POWER_W : Fld := ⟨.PWR_THERM, 32, 16, .ro, 0, false⟩
def PWR_THERM_LIMIT_W : Fld := ⟨.PWR_THERM, 0, 16, .rw, 1200, true⟩
/-! PWR_CORE_STATE: Table 01-12 -/
def PWR_CORE_STATE_SITE : Fld := ⟨.PWR_CORE_STATE, 0, 2, .ro, 2, false⟩
/-! PWR_ROUTER_STATE: Table 01-12 -/
def PWR_ROUTER_STATE_SITE : Fld := ⟨.PWR_ROUTER_STATE, 0, 2, .ro, 2, false⟩
/-! PWR_TIER_STATE: Table 01-12 -/
def PWR_TIER_STATE_SITE : Fld := ⟨.PWR_TIER_STATE, 0, 2, .ro, 2, false⟩
/-! TAL_DIG: Table 13-10 -/
def TAL_DIG_STATE : Fld := ⟨.TAL_DIG, 61, 3, .ro, 0, false⟩
def TAL_DIG_ORIGIN : Fld := ⟨.TAL_DIG, 60, 1, .ro, 0, false⟩
def TAL_DIG_LEAVES : Fld := ⟨.TAL_DIG, 32, 24, .ro, 0, false⟩
def TAL_DIG_DONE : Fld := ⟨.TAL_DIG, 0, 24, .ro, 0, false⟩
/-! TAL_LIST: Table 13-10 -/
def TAL_LIST_EN : Fld := ⟨.TAL_LIST, 63, 1, .rw, 0, false⟩
def TAL_LIST_LIST_ERR : Fld := ⟨.TAL_LIST, 62, 1, .w1c, 0, false⟩
def TAL_LIST_BASE : Fld := ⟨.TAL_LIST, 0, 48, .rw, 0, false⟩
/-! TAL_DIGSTEP: Table 13-10 -/
def TAL_DIGSTEP_STEP : Fld := ⟨.TAL_DIGSTEP, 0, 32, .ro, 0, false⟩
/-! TAL_ROOT: Table 13-10 -/
def TAL_ROOT_ROOT : Fld := ⟨.TAL_ROOT, 0, 64, .ro, 0, false⟩

end F

/-- The `n` elements of an array field. -/
def Fld.spread (f : Fld) (step n : Nat) : List Fld := (List.range n).map (f.at step)

/-- Every field of a register family that is not reserved (R8: all other bits read as 0 and ignore writes). -/
def RegName.fields : RegName → List Fld
  | .MTX_OPD => [F.MTX_OPD_BASE, F.MTX_OPD_PITCH, F.MTX_OPD_FMT, F.MTX_OPD_MX, F.MTX_OPD_ADV]
  | .MTX_OPS => [F.MTX_OPS_SBASE, F.MTX_OPS_SPITCH, F.MTX_OPS_SADV]
  | .MTX_RMASK => [F.MTX_RMASK_ROWS]
  | .MTX_BMASK_ORG => [F.MTX_BMASK_ORG_BASE, F.MTX_BMASK_ORG_LEN, F.MTX_BMASK_ORG_ORG]
  | .MTX_RECOMP => [F.MTX_RECOMP_EN, F.MTX_RECOMP_LAST_UNIT, F.MTX_RECOMP_FIRST_UNIT]
  | .CHK_CTRL => [F.CHK_CTRL_LOG_ALL, F.CHK_CTRL_UNDECIDED]
  | .VEC_SR_SEED => [F.VEC_SR_SEED_SEED]
  | .VEC_SR_COORD01 => [F.VEC_SR_COORD01_C1, F.VEC_SR_COORD01_C0]
  | .VEC_SR_COORD23 => [F.VEC_SR_COORD23_C3, F.VEC_SR_COORD23_C2]
  | .VEC_OPD => [F.VEC_OPD_LINE, F.VEC_OPD_RSTRIDE, F.VEC_OPD_LB, F.VEC_OPD_LANE, F.VEC_OPD_FMT, F.VEC_OPD_MX, F.VEC_OPD_SLINE, F.VEC_OPD_KIND, F.VEC_OPD_QUEUE, F.VEC_OPD_ADV]
  | .VEC_LMASK => [F.VEC_LMASK_LANES]
  | .STR_DESC => [F.STR_DESC_START, F.STR_DESC_CNT, F.STR_DESC_SREM, F.STR_DESC_QN, F.STR_DESC_CSRC, F.STR_DESC_CIDX, F.STR_DESC_CNUM, F.STR_DESC_DEPTH, F.STR_DESC_CLASS]
  | .TRN_THR => [F.TRN_THR_START, F.TRN_THR_CNT, F.TRN_THR_SREM, F.TRN_THR_QN, F.TRN_THR_CSRC, F.TRN_THR_CIDX, F.TRN_THR_CNUM, F.TRN_THR_DEPTH, F.TRN_THR_CLASS]
  | .TRN_PF_CTRL => [F.TRN_PF_CTRL_THREADS]
  | .TRN_WC => [F.TRN_WC_VALUE]
  | .TRN_WC_CFG => [F.TRN_WC_CFG_MODE, F.TRN_WC_CFG_PAIR, F.TRN_WC_CFG_WRAP]
  | .SEQ_CTRL => [F.SEQ_CTRL_PLEN]
  | .SEQ_PRED => [F.SEQ_PRED_P, F.SEQ_PRED_P0]
  | .SEQ_SELPTR => F.SEQ_SELPTR_PTR.spread 5 4
  | .SEQ_WDOG => [F.SEQ_WDOG_ALL, F.SEQ_WDOG_COUNT, F.SEQ_WDOG_LIMIT]
  | .SEQ_CLAIM => [F.SEQ_CLAIM_RETRY, F.SEQ_CLAIM_REQ_SEQ]
  | .SEQ_LC => F.SEQ_LC_LC.spread 16 4
  | .SEQ_SIG => F.SEQ_SIG_CNT.spread 16 4
  | .SEQ_STEER => List.append [F.SEQ_STEER_MODE, F.SEQ_STEER_STATUS, F.SEQ_STEER_TSRC, F.SEQ_STEER_TQ, F.SEQ_STEER_IEN, F.SEQ_STEER_OEN] (List.append (F.SEQ_STEER_IN.spread 5 4) (F.SEQ_STEER_OUT.spread 5 4))
  | .TRV_OUT => F.TRV_OUT_SRC.spread 4 14
  | .QUE_CFG => [F.QUE_CFG_ROLE, F.QUE_CFG_OLINK, F.QUE_CFG_OSLOTS, F.QUE_CFG_ILINK, F.QUE_CFG_ISLOTS, F.QUE_CFG_PEER]
  | .QUE_PAR => [F.QUE_PAR_BACKOFF, F.QUE_PAR_IDLE_CLOSE, F.QUE_PAR_DETACH, F.QUE_PAR_SCNT, F.QUE_PAR_RLOG2, F.QUE_PAR_MIDX, F.QUE_PAR_RBASE]
  | .QUE_MLEAF => [F.QUE_MLEAF_OUTST, F.QUE_MLEAF_ATT, F.QUE_MLEAF_LEAF]
  | .SEQ_STATUS => [F.SEQ_STATUS_STATE, F.SEQ_STATUS_TRAP_SRC, F.SEQ_STATUS_LAST_TRAP, F.SEQ_STATUS_TRAP_PC, F.SEQ_STATUS_LOOP_SP, F.SEQ_STATUS_PC]
  | .SEQ_WAIT => [F.SEQ_WAIT_KIND, F.SEQ_WAIT_PC, F.SEQ_WAIT_ID]
  | .SEQ_MARK => [F.SEQ_MARK_VALUE, F.SEQ_MARK_PITCH, F.SEQ_MARK_CYCLE]
  | .SEQ_SIG_STATUS => [F.SEQ_SIG_STATUS_ADD_OUT, F.SEQ_SIG_STATUS_FENCE_HELD, F.SEQ_SIG_STATUS_FIRST_SAT, F.SEQ_SIG_STATUS_SIG_XPART, F.SEQ_SIG_STATUS_PEND_SAT, F.SEQ_SIG_STATUS_SIG_SAT]
  | .SEQ_BARFLAG => [F.SEQ_BARFLAG_FLAGS]
  | .TRV_LINK_STATE => List.append (F.TRV_LINK_STATE_REPLAYS.spread 16 4) (List.append (F.TRV_LINK_STATE_DELAY.spread 16 4) (F.TRV_LINK_STATE_STATE.spread 16 4))
  | .CHK_ECC_LOG => [F.CHK_ECC_LOG_MEM, F.CHK_ECC_LOG_UE, F.CHK_ECC_LOG_SYND, F.CHK_ECC_LOG_WORD, F.CHK_ECC_LOG_PITCH]
  | .SEQ_STEER_STAT => [F.SEQ_STEER_STAT_BADSEL, F.SEQ_STEER_STAT_DATA, F.SEQ_STEER_STAT_TOKENS]
  | .SEQ_LOOP => [F.SEQ_LOOP_START, F.SEQ_LOOP_END, F.SEQ_LOOP_COUNT, F.SEQ_LOOP_LC]
  | .QUE_STAT => [F.QUE_STAT_CSTATE, F.QUE_STAT_GEN, F.QUE_STAT_GAP, F.QUE_STAT_SEQ, F.QUE_STAT_ENTRIES, F.QUE_STAT_CREDITS, F.QUE_STAT_RESV, F.QUE_STAT_RCRED]
  | .MOR_STATUS => [F.MOR_STATUS_LAST_TRAP, F.MOR_STATUS_FIRST_SAT_SLOT, F.MOR_STATUS_BAD_TAG, F.MOR_STATUS_NAN_SEEN, F.MOR_STATUS_INF_SEEN, F.MOR_STATUS_SAT_SEEN]
  | .MTX_STATUS => [F.MTX_STATUS_LAST_TRAP, F.MTX_STATUS_PROJ, F.MTX_STATUS_REEXEC_SPENT, F.MTX_STATUS_PENDING, F.MTX_STATUS_HELD]
  | .CHK_LOG => [F.CHK_LOG_KIND, F.CHK_LOG_ROW, F.CHK_LOG_COL, F.CHK_LOG_OUTCOME, F.CHK_LOG_PITCH]
  | .CHK_SYND => [F.CHK_SYND_SAME, F.CHK_SYND_SYND]
  | .VEC_FLAGS => [F.VEC_FLAGS_ARI_DIVZ, F.VEC_FLAGS_ARI_INVALID, F.VEC_FLAGS_ARI_OVF, F.VEC_FLAGS_ARI_UNF, F.VEC_FLAGS_ARI_INX, F.VEC_FLAGS_CVT_INVALID, F.VEC_FLAGS_CVT_OVF, F.VEC_FLAGS_CVT_UNF, F.VEC_FLAGS_CVT_INX]
  | .VEC_STATUS => [F.VEC_STATUS_LAST_TRAP, F.VEC_STATUS_PROJ, F.VEC_STATUS_UNDEC_ROW, F.VEC_STATUS_REPLAY_SPENT, F.VEC_STATUS_HELD]
  | .STR_STATE => [F.STR_STATE_STATE, F.STR_STATE_CREDITS, F.STR_STATE_PC, F.STR_STATE_ARG, F.STR_STATE_SHADOW, F.STR_STATE_OUTST, F.STR_STATE_LOOP_SP, F.STR_STATE_LAST_TRAP, F.STR_STATE_CRED_OVF]
  | .STR_PROG => [F.STR_PROG_DONE]
  | .STR_AREG => [F.STR_AREG_ADDR]
  | .TRN_HALF => [F.TRN_HALF_BOTH, F.TRN_HALF_LIVE, F.TRN_HALF_ACT]
  | .TRN_PF_STATUS => [F.TRN_PF_STATUS_DONE]
  | .TRN_CLOG_STATUS => [F.TRN_CLOG_STATUS_USED]
  | .TRN_THR_STATE => [F.TRN_THR_STATE_STATE, F.TRN_THR_STATE_CREDITS, F.TRN_THR_STATE_PC, F.TRN_THR_STATE_ARG, F.TRN_THR_STATE_SHADOW, F.TRN_THR_STATE_OUTST, F.TRN_THR_STATE_LOOP_SP, F.TRN_THR_STATE_LAST_TRAP, F.TRN_THR_STATE_CRED_OVF]
  | .TRN_PROG => [F.TRN_PROG_DONE]
  | .TRN_AREG => [F.TRN_AREG_ADDR]
  | .COL_PITCH_CTRL => [F.COL_PITCH_CTRL_WRAPPED, F.COL_PITCH_CTRL_CHANGE_PEND, F.COL_PITCH_CTRL_STATUS, F.COL_PITCH_CTRL_NEW_LOG2]
  | .COL_PITCH_NUM => [F.COL_PITCH_NUM_LOG2_LEN, F.COL_PITCH_NUM_PITCH]
  | .COL_BAR => [F.COL_BAR_ACTIVE, F.COL_BAR_OWNER, F.COL_BAR_REL, F.COL_BAR_TARGET, F.COL_BAR_COUNT, F.COL_BAR_GEN]
  | .COL_BAR_MEM => [F.COL_BAR_MEM_MEMBERS]
  | .COL_BAR_ARR => [F.COL_BAR_ARR_ARRIVED]
  | .HUT_PART => [F.HUT_PART_ACTIVE, F.HUT_PART_STATUS, F.HUT_PART_TENANT, F.HUT_PART_AUTO, F.HUT_PART_CB0, F.HUT_PART_NCB, F.HUT_PART_ROW0, F.HUT_PART_NROW]
  | .HUT_TRAIN => [F.HUT_TRAIN_STEP, F.HUT_TRAIN_DIG_PEND, F.HUT_TRAIN_INTERVAL]
  | .HUT_LOAD_REFUSAL => [F.HUT_LOAD_REFUSAL_STEP, F.HUT_LOAD_REFUSAL_CODE, F.HUT_LOAD_REFUSAL_SITE, F.HUT_LOAD_REFUSAL_OBJ, F.HUT_LOAD_REFUSAL_JOB, F.HUT_LOAD_REFUSAL_VALID]
  | .HUT_REF => [F.HUT_REF_SUSPECT, F.HUT_REF_REFEREE, F.HUT_REF_UNIT, F.HUT_REF_STATE, F.HUT_REF_VERDICT, F.HUT_REF_SAME, F.HUT_REF_PITCH]
  | .HUT_POISON => [F.HUT_POISON_KIND, F.HUT_POISON_SITE, F.HUT_POISON_ADDR]
  | .HUT_HEALTH_CTRL => [F.HUT_HEALTH_CTRL_REARM_MAX, F.HUT_HEALTH_CTRL_HEALTHY_LOG2, F.HUT_HEALTH_CTRL_WATCH_PERIOD, F.HUT_HEALTH_CTRL_WATCH_CLEAN]
  | .HUT_HREC_STATUS => [F.HUT_HREC_STATUS_HREC_RESET, F.HUT_HREC_STATUS_WERR, F.HUT_HREC_STATUS_BADREC, F.HUT_HREC_STATUS_BOOT, F.HUT_HREC_STATUS_USED]
  | .HUT_GRANT => [F.HUT_GRANT_STATUS, F.HUT_GRANT_ZEROING, F.HUT_GRANT_SIZE, F.HUT_GRANT_BASE]
  | .HUT_SPUR_HEALTH => [F.HUT_SPUR_HEALTH_STATE, F.HUT_SPUR_HEALTH_PRIOR, F.HUT_SPUR_HEALTH_WATCH_LEFT, F.HUT_SPUR_HEALTH_FAULTS, F.HUT_SPUR_HEALTH_CAUSE, F.HUT_SPUR_HEALTH_PITCH]
  | .HUT_SECT => [F.HUT_SECT_STATE, F.HUT_SECT_RUNNABLE, F.HUT_SECT_BUSY, F.HUT_SECT_PRIO, F.HUT_SECT_ORG_COL, F.HUT_SECT_ORG_ROW, F.HUT_SECT_AFTER, F.HUT_SECT_AFTER_EN, F.HUT_SECT_JOB]
  | .GATE_NET_CFG => [F.GATE_NET_CFG_PAUSE_EN, F.GATE_NET_CFG_PFC_EN, F.GATE_NET_CFG_VLAN_EN, F.GATE_NET_CFG_PCP, F.GATE_NET_CFG_VID]
  | .GATE_LANE_HEALTH => [F.GATE_LANE_HEALTH_WIDTH, F.GATE_LANE_HEALTH_PAIR, F.GATE_LANE_HEALTH_FAIL_HI, F.GATE_LANE_HEALTH_FAIL_LO, F.GATE_LANE_HEALTH_LANE_SER_MAX]
  | .GATE_TENANT => [F.GATE_TENANT_ACTIVE, F.GATE_TENANT_EXPERT, F.GATE_TENANT_MAXQP, F.GATE_TENANT_QPS]
  | .GATE_QP => [F.GATE_QP_STATE, F.GATE_QP_OWNER, F.GATE_QP_GVER, F.GATE_QP_MTU, F.GATE_QP_PEND, F.GATE_QP_CI]
  | .MEM_GRP_STATUS => [F.MEM_GRP_STATUS_STATE, F.MEM_GRP_STATUS_LIVE, F.MEM_GRP_STATUS_HELD]
  | .MEM_CH_STATE => F.MEM_CH_STATE_CH.spread 2 32
  | .MEM_RETIRE_CFG => [F.MEM_RETIRE_CFG_RETRY, F.MEM_RETIRE_CFG_UE_MAX, F.MEM_RETIRE_CFG_UE_WIN_MS, F.MEM_RETIRE_CFG_RETRAIN_MAX]
  | .MEM_SCRUB => [F.MEM_SCRUB_EN, F.MEM_SCRUB_INTERVAL]
  | .MEM_ERR_LOG => [F.MEM_ERR_LOG_KIND, F.MEM_ERR_LOG_CH, F.MEM_ERR_LOG_FRAME, F.MEM_ERR_LOG_PITCH]
  | .MEM_GRP_MAP => F.MEM_GRP_MAP_ENTRY.spread 8 8
  | .CFG_DEV_STATE => [F.CFG_DEV_STATE_STATE, F.CFG_DEV_STATE_STEP, F.CFG_DEV_STATE_FAIL, F.CFG_DEV_STATE_POS, F.CFG_DEV_STATE_LEFT_MS]
  | .CFG_CLAIM => [F.CFG_CLAIM_WIN, F.CFG_CLAIM_SECT_MS, F.CFG_CLAIM_DEADLINE_MS]
  | .CFG_STARTUP => F.CFG_STARTUP_STEP.spread 4 15
  | .CFG_KEY_STATUS => [F.CFG_KEY_STATUS_SRC, F.CFG_KEY_STATUS_FUSE_KEY, F.CFG_KEY_STATUS_VBAT_KEY, F.CFG_KEY_STATUS_SLOTS]
  | .CFG_SEC_POLICY => [F.CFG_SEC_POLICY_REQ_SIG]
  | .CFG_STRAPS => [F.CFG_STRAPS_ROPE_HEAD, F.CFG_STRAPS_MGMT_BASE, F.CFG_STRAPS_PITCH_DEF, F.CFG_STRAPS_CLAIM_WIN, F.CFG_STRAPS_ETH_MODE, F.CFG_STRAPS_KEY_SRC, F.CFG_STRAPS_BOARD_ID]
  | .CFG_SCRUB_CTRL => [F.CFG_SCRUB_CTRL_VOTE_ERR, F.CFG_SCRUB_CTRL_EN, F.CFG_SCRUB_CTRL_RATE]
  | .CFG_SCRUB_STATUS => [F.CFG_SCRUB_STATUS_HEARTBEAT, F.CFG_SCRUB_STATUS_SITE]
  | .CFG_VKEY_HASH => [F.CFG_VKEY_HASH_HASH]
  | .CFG_STREAM => [F.CFG_STREAM_STATE, F.CFG_STREAM_OUTCOME, F.CFG_STREAM_REASON, F.CFG_STREAM_RESUMABLE, F.CFG_STREAM_BLOCK, F.CFG_STREAM_STREAM_ID]
  | .CFG_STREAM_POS => [F.CFG_STREAM_POS_OFFSET]
  | .CFG_STREAM_SYNC => [F.CFG_STREAM_SYNC_OFFSET]
  | .ROPE_STATUS => [F.ROPE_STATUS_POS, F.ROPE_STATUS_POS_VALID, F.ROPE_STATUS_HEAD, F.ROPE_STATUS_UP_LINK, F.ROPE_STATUS_DOWN_LINK, F.ROPE_STATUS_UP_VER, F.ROPE_STATUS_DOWN_VER, F.ROPE_STATUS_LAST, F.ROPE_STATUS_LONG]
  | .PWR_DOMAIN_CMD => [F.PWR_DOMAIN_CMD_STATUS, F.PWR_DOMAIN_CMD_ACTION, F.PWR_DOMAIN_CMD_DOMAIN, F.PWR_DOMAIN_CMD_SITE]
  | .PWR_BIVOUAC => [F.PWR_BIVOUAC_STATE, F.PWR_BIVOUAC_STATUS, F.PWR_BIVOUAC_WAKE_SRC, F.PWR_BIVOUAC_ENTER, F.PWR_BIVOUAC_AUTO_MS]
  | .PWR_THERM => [F.PWR_THERM_TJ, F.PWR_THERM_LEVEL, F.PWR_THERM_WARN, F.PWR_THERM_POWER_W, F.PWR_THERM_LIMIT_W]
  | .PWR_CORE_STATE => F.PWR_CORE_STATE_SITE.spread 2 32
  | .PWR_ROUTER_STATE => F.PWR_ROUTER_STATE_SITE.spread 2 32
  | .PWR_TIER_STATE => F.PWR_TIER_STATE_SITE.spread 2 32
  | .TAL_DIG => [F.TAL_DIG_STATE, F.TAL_DIG_ORIGIN, F.TAL_DIG_LEAVES, F.TAL_DIG_DONE]
  | .TAL_LIST => [F.TAL_LIST_EN, F.TAL_LIST_LIST_ERR, F.TAL_LIST_BASE]
  | .TAL_DIGSTEP => [F.TAL_DIGSTEP_STEP]
  | .TAL_ROOT => [F.TAL_ROOT_ROOT]

/-- The field's value in a 64-bit word. -/
def fieldGet (f : Fld) (w : BitVec 64) : Nat := (w.toNat >>> f.lo) % 2 ^ f.width

/-- The word with the field set to the low bits of `v`; every other bit keeps its value. -/
def fieldSet (f : Fld) (v : Nat) (w : BitVec 64) : BitVec 64 :=
  let m : BitVec 64 := BitVec.ofNat 64 ((2 ^ f.width - 1) <<< f.lo)
  (w &&& ~~~m) ||| (BitVec.ofNat 64 ((v % 2 ^ f.width) <<< f.lo) &&& m)

/-- Entry i of a group's channel map at start-up: group channel index (i mod 6) × 8 + (i div 6) (R267). -/
def startMap (i : Nat) : Nat := (i % 6) * 8 + i / 6

/-- The reset value of register `i` of a family (R9): the fields' reset values, with the two families whose reset
value depends on the index or is given over the whole word (MEM_GRP_MAP by R267, CFG_STARTUP by Table 15-10). -/
def RegName.resetWord (r : RegName) (i : Nat) : BitVec 64 :=
  match r with
  | .MEM_GRP_MAP =>
      (List.range 8).foldl (fun w e => fieldSet (F.MEM_GRP_MAP_ENTRY.at 8 e) (startMap (8 * (i % 6) + e)) w) 0
  | .CFG_STARTUP => 0x07654321
  | _ => r.fields.foldl (fun w f => fieldSet f f.reset w) 0

/-- The device address of register `i` of a family, at site index `a` for a per-site register (Tables 18-1 to 18-6). -/
def RegName.address (r : RegName) (a i : Nat) : Nat :=
  match r.place.block with
  | none => 0x01F000000000 + a * 0x10000 + r.place.offset + 8 * i
  | some b => 0x01FF00000000 + b * 0x10000 + r.place.offset + 8 * i


/-- Register families, part 1. -/
def RegName.part1 : List RegName :=
  [.MTX_OPD, .MTX_OPS, .MTX_RMASK, .MTX_BMASK_ORG, .MTX_RECOMP, .CHK_CTRL, .VEC_SR_SEED, .VEC_SR_COORD01, .VEC_SR_COORD23, .VEC_OPD, .VEC_LMASK, .STR_DESC, .TRN_THR, .TRN_PF_CTRL, .TRN_WC, .TRN_WC_CFG, .SEQ_CTRL, .SEQ_PRED, .SEQ_SELPTR, .SEQ_WDOG, .SEQ_CLAIM, .SEQ_LC, .SEQ_SIG, .SEQ_STEER]

/-- Register families, part 2. -/
def RegName.part2 : List RegName :=
  [.TRV_OUT, .QUE_CFG, .QUE_PAR, .QUE_MLEAF, .SEQ_STATUS, .SEQ_WAIT, .SEQ_MARK, .SEQ_SIG_STATUS, .SEQ_BARFLAG, .TRV_LINK_STATE, .CHK_ECC_LOG, .SEQ_STEER_STAT, .SEQ_LOOP, .QUE_STAT, .MOR_STATUS, .MTX_STATUS, .CHK_LOG, .CHK_SYND, .VEC_FLAGS, .VEC_STATUS, .STR_STATE, .STR_PROG, .STR_AREG, .TRN_HALF]

/-- Register families, part 3. -/
def RegName.part3 : List RegName :=
  [.TRN_PF_STATUS, .TRN_CLOG_STATUS, .TRN_THR_STATE, .TRN_PROG, .TRN_AREG, .COL_PITCH_CTRL, .COL_PITCH_NUM, .COL_BAR, .COL_BAR_MEM, .COL_BAR_ARR, .HUT_PART, .HUT_TRAIN, .HUT_LOAD_REFUSAL, .HUT_REF, .HUT_POISON, .HUT_HEALTH_CTRL, .HUT_HREC_STATUS, .HUT_GRANT, .HUT_SPUR_HEALTH, .HUT_SECT, .GATE_NET_CFG, .GATE_LANE_HEALTH, .GATE_TENANT, .GATE_QP]

/-- Register families, part 4. -/
def RegName.part4 : List RegName :=
  [.MEM_GRP_STATUS, .MEM_CH_STATE, .MEM_RETIRE_CFG, .MEM_SCRUB, .MEM_ERR_LOG, .MEM_GRP_MAP, .CFG_DEV_STATE, .CFG_CLAIM, .CFG_STARTUP, .CFG_KEY_STATUS, .CFG_SEC_POLICY, .CFG_STRAPS, .CFG_SCRUB_CTRL, .CFG_SCRUB_STATUS, .CFG_VKEY_HASH, .CFG_STREAM, .CFG_STREAM_POS, .CFG_STREAM_SYNC, .ROPE_STATUS, .PWR_DOMAIN_CMD, .PWR_BIVOUAC, .PWR_THERM, .PWR_CORE_STATE, .PWR_ROUTER_STATE]

/-- Register families, part 5. -/
def RegName.part5 : List RegName :=
  [.PWR_TIER_STATE, .TAL_DIG, .TAL_LIST, .TAL_DIGSTEP, .TAL_ROOT]

/-- Every register family. -/
def RegName.all : List RegName :=
  List.flatten [RegName.part1, RegName.part2, RegName.part3, RegName.part4, RegName.part5]

end Sys2Proof.Machine
end

