-- ==== Sys2Proof/Machine/Sparse.lean ====
section
/-! DEFINITION. Finite maps as lists: `aget`/`aput`/`adel` over any key with decidable equality, and the one canonical
form of addressed memory (`mget`/`mput`): addresses strictly rising, no entry equal to what an unlisted address
reads as. -/

namespace Sys2Proof.Machine

/-- The list without repetitions, in order of first occurrence. -/
def dedup : List Nat → List Nat
  | [] => []
  | x :: l => x :: (dedup l).filter (fun y => y != x)

/-- The value listed under a key. -/
def aget {κ α : Type} [DecidableEq κ] : List (κ × α) → κ → Option α
  | [], _ => none
  | (k', v) :: m, k => if k' = k then some v else aget m k

/-- The list with the key's value replaced, or added at the end. -/
def aput {κ α : Type} [DecidableEq κ] : List (κ × α) → κ → α → List (κ × α)
  | [], k, v => [(k, v)]
  | (k', v') :: m, k, v => if k' = k then (k, v) :: m else (k', v') :: aput m k v

/-- The list without the key. -/
def adel {κ α : Type} [DecidableEq κ] : List (κ × α) → κ → List (κ × α)
  | [], _ => []
  | (k', v') :: m, k => if k' = k then adel m k else (k', v') :: adel m k

/-- What the address reads as; `d` is what an unlisted address reads as. -/
def mget {α : Type} (d : α) : List (Nat × α) → Nat → α
  | [], _ => d
  | (k', v) :: m, k => if k' = k then v else mget d m k

/-- The list without the address. -/
def mdel {α : Type} : List (Nat × α) → Nat → List (Nat × α)
  | [], _ => []
  | (k', v') :: m, k => if k' = k then m else (k', v') :: mdel m k

/-- The list with the address's value set, in rising order. -/
def mins {α : Type} : List (Nat × α) → Nat → α → List (Nat × α)
  | [], k, v => [(k, v)]
  | (k', v') :: m, k, v =>
    if k < k' then (k, v) :: (k', v') :: m
    else if k' = k then (k, v) :: m
    else (k', v') :: mins m k v

/-- A write that keeps the canonical form: writing the value an unlisted address reads as removes the entry. -/
def mput {α : Type} [DecidableEq α] (d : α) (m : List (Nat × α)) (k : Nat) (v : α) : List (Nat × α) :=
  if v = d then mdel m k else mins m k v

/-- Every address listed is above `lo`. -/
def above {α : Type} (lo : Nat) (m : List (Nat × α)) : Prop := ∀ x ∈ m, lo < x.1

/-- The canonical form. -/
def mcanon {α : Type} [DecidableEq α] (d : α) : List (Nat × α) → Bool
  | [] => true
  | (k, v) :: m => decide (v ≠ d) && m.all (fun x => decide (k < x.1)) && mcanon d m

end Sys2Proof.Machine
end

