-- ==== Sys2Proof/Machine/State.lean ====
section
/-! DEFINITION. The state of the device: every register (Tables 18-2 to 18-7) in one register file, and beside it the
state that no register shows: programs, queues, slots, tiles, links, sections, streams, connections, the board's
pins. The faults and refusals, and the state after reset. -/

namespace Sys2Proof.Machine

/-- The reasons a step can stop with a fault. The device has no undefined behaviour that a host, a program or a
board signal can reach (R2): every stated limit has a stated response. -/
inductive Fault where
  /-- Raised by no command: kept so that the type has a name for a stop outside R2. Safe. -/
  | beyondSpec
  deriving DecidableEq, Repr

/-- The reasons a step can refuse a command. -/
inductive Refusal where
  /-- The command has no meaning yet; raised only by an arm of `exec` that is still rejected by name. Safe. -/
  | notModelled (mnemonic : String)
  deriving DecidableEq, Repr

/-- The key of one register: its family, its site index (0 for a device-level register) and its index. -/
structure RegKey where
  reg : RegName
  a : Nat
  i : Nat
  deriving DecidableEq, Repr

/-- A frame of the sequencer's loop stack (R151). -/
structure LoopFrame where
  start : Nat
  last : Nat
  count : Nat
  lc : Nat
  deriving DecidableEq, Repr

/-- A hold of the head instruction: its kind (Table 05-4: 1 queue, 2 signal, 3 stream; 0 for a hold that is none of
these), the identifier SEQ_WAIT would show, and the cycle it was last seen in (R175, Table 05-18). -/
structure Hold where
  kind : Nat
  id : Nat
  at_ : Nat
  deriving DecidableEq, Repr

/-- A CLAIM that waits for its reply (R162, R254). -/
structure ClaimWait where
  tarn : Nat
  ctr : Nat
  inc : Nat
  seq : Nat
  boundaries : Nat
  reply : Option (BitVec 32)
  poisoned : Bool
  deriving DecidableEq, Repr

/-- The sequencer's state beyond its registers (R142 to R154). -/
structure SeqX where
  pc : Nat
  frames : List LoopFrame
  issuedPitch : Bool
  lastIssue : Option Nat
  hold : Option Hold
  claim : Option ClaimWait
  arrived : Bool
  selfTest : Bool
  deriving DecidableEq, Repr

/-- A steering unit (R169 to R171): tokens with their empty mark, data entries, the two `left` and `take` counts (0
when the token is new), the intake position, the core cycles of the last firing, data intake and token intake, and
whether a poisoned token has stopped it (R348). -/
structure SteerX where
  toks : List (BitVec 16 × Bool)
  data : List Entry
  left : Nat
  take : Nat
  ipos : Nat
  fireAt : Option Nat
  inAt : Option Nat
  tokAt : Option Nat
  stopped : Bool
  deriving DecidableEq, Repr

/-- An issue-time slot (R85): first unit, mode, anchor, term count, whether Closed, the projected release of its
LAST instruction, and the cycle after its latest projected vector read. -/
structure SlotI where
  start : Nat
  mode : AccMode
  anchor : Int
  count : Nat
  closed : Bool
  lastRel : Nat
  readEnd : Nat
  deriving DecidableEq, Repr

/-- A slot's contents, which change in release order (R86); `synd` are the syndromes of its protected words whose check byte does
not match, by their index within the span (R340). -/
structure SlotP where
  start : Nat
  mode : AccMode
  anchor : Int
  count : Nat
  words : List (BitVec 128)
  synd : List (Nat × BitVec 8)
  poison : Bool
  done : Bool
  deriving DecidableEq, Repr

/-- Kinds of matrix instructions in flight. -/
inductive TileKind where
  | mma | mmerge | msave | mfree | skip
  deriving DecidableEq, Repr

/-- Where a tile instruction stands between issue and release (R105 to R107, R346): running to its verdict; to be
re-run; re-run and awaiting its second verdict; agreed; committed and awaiting its check; committed again; undecided. -/
inductive TileStage where
  | running | rerun | reran | agreed | committed | recommitted | undecided
  deriving DecidableEq, Repr

/-- What the Cairn holds of one run and its commit: ρ of each element, the operand side of the checksum of each row and column, the
tag that the operands' special values give each element, ρc of each element of the commit; and the tags that cells took in the run
(bit 0 SAT, 1 an infinity, 2 NaN) (R101, R102). -/
structure CairnX where
  rho : List (BitVec 61)
  rows : List (BitVec 61)
  cols : List (BitVec 61)
  tags : List (BitVec 3)
  rhoC : List (BitVec 61)
  took : BitVec 3
  deriving DecidableEq, Repr

/-- Nothing checked yet. -/
def CairnX.none : CairnX := ⟨[], [], [], [], [], 0⟩

/-- A matrix instruction that has issued and is not released: its operands and descriptor values at issue, its schedule
within the pitch, its budget and count, and its pending buffer: the contribution without any upset (`exact`), the one
held (`delta`), the original of a re-run (`orig`), the slot's words before and after its commit, the Cairn's part (`chk`), whether an input was
poisoned, whether every result word is to be poisoned, the upset not yet judged, and whether CHK_LOG holds its
disagreement (R91, R105, R346). -/
structure Tile where
  kind : TileKind
  instr : SeqInstr
  slot : Nat
  mode : AccMode
  anchor : Int
  first : Bool
  last : Bool
  descA : Word
  descB : Word
  scaleA : Word
  scaleB : Word
  rowMask : Word
  count : Nat
  fill : Nat
  run : Nat
  lastK : Nat
  rel : Nat
  freeAt : Nat
  exact : List (BitVec 128)
  delta : List (BitVec 128)
  orig : List (BitVec 128)
  old : List (BitVec 128)
  new : List (BitVec 128)
  chk : CairnX
  poisonIn : Bool
  poisonOut : Bool
  stage : TileStage
  upset : Upset
  logged : Bool
  issued : Nat
  deriving DecidableEq, Repr

/-- The matrix engine's state beyond its registers: slots at issue, their contents, units waiting for their physical
free, tiles in issue order, what R91 and R92 carry from issue to issue, and the cycle of the last release. -/
structure MtxX where
  slots : List SlotI
  phys : List SlotP
  frees : List (Nat × Nat)
  tiles : List Tile
  lastK : Nat
  relPrev : Nat
  pendRels : List Nat
  reserve : Nat
  relAct : Nat
  deriving DecidableEq, Repr

/-- One line of the operand cache: 256 bytes, and the poison bit and the syndrome (8 bits) of each of its 32 words (R111,
R112). -/
structure Line where
  bits : BitVec 2048
  poison : BitVec 32
  synd : BitVec 256
  deriving DecidableEq, Repr

/-- A vector instruction in the engine: its descriptors and coordinates at issue, projected start, the row that enters then (0, or
the row at which it goes on after a restore), next row to enter,
rows, cycles per row, the slot unit a VRD reads, and the core cycle of its issue (R120 to R122). -/
structure VInst where
  instr : SeqInstr
  dst : Word
  s1 : Word
  s2 : Word
  s3 : Word
  c0 : Nat
  c1 : Nat
  c2 : Nat
  c3 : Nat
  seed : Word
  start : Nat
  from_ : Nat
  next : Nat
  n : Nat
  cpr : Nat
  slotAt : Option Nat
  issued : Nat
  deriving DecidableEq, Repr

/-- A vector row between stage 1 and the gating stage: its instruction, its row number, the operands latched for replay (for each
source its elements with their poison bits), its result elements, the exact integer result of each lane with the residue
predicted for it (R136), the result as the gating stage found it, the scale bytes of an MX row, the flags it would raise, and
whether it is a replay (R120, R138, R352). -/
structure VRow where
  instr : VInst
  row : Nat
  ops : List (List (Nat × Bool))
  elems : List (Nat × Bool)
  res : List (Int × Nat)
  got : List (Nat × Bool)
  scales : List Nat
  flags : Nat
  poisonIn : Bool
  replay : Bool
  entered : Nat
  deriving DecidableEq, Repr

/-- The vector engine's state beyond its registers (R114, R120 to R123, R139). -/
structure VecX where
  cache : List (Nat × Line)
  queue : List VInst
  pipe : List VRow
  ready : List (Nat × Nat)
  nextFree : Nat
  undecided : Option VRow
  deriving DecidableEq, Repr

/-- A frame of a stream program's loop stack, with its internal counter (R187). -/
structure AgFrame where
  start : Nat
  last : Nat
  count : Nat
  cur : Nat
  deriving DecidableEq, Repr

/-- A COPY that has issued and is not complete: both ends, its length, its number in program order, the
64 B units written, how many bytes its requests cover so far, whether it signals, whether an end is remote, and the
core cycle of its issue (R188 to R191, R194). -/
structure CopyX where
  src : Nat
  dst : Nat
  len : Nat
  gen : Nat
  done : List Nat
  next : Nat
  signals : Bool
  remote : Bool
  issued : Nat
  deriving DecidableEq, Repr

/-- One request of a COPY: which COPY (its position in program order), both addresses, its length, whether it goes
to external memory or to a remote site, and whether the remote port agent has served it (R189); of a remote one the flits of
the stream lane that have still to leave, and those that have still to leave on the way back (R210). -/
structure Req where
  num : Nat
  copyPos : Nat
  off : Nat
  src : Nat
  dst : Nat
  len : Nat
  ext : Bool
  remote : Bool
  served : Bool
  out : Nat
  back : Nat
  deriving DecidableEq, Repr

/-- A stream program or thread beyond its registers (R181, R183): COPYs issued since the program started, and the core
cycles of its last instruction and its last request, the core cycle from which a hold for a credit is not yet counted, and whether
its descriptor was invalid when it started (R193). -/
structure StrX where
  pc : Nat
  frames : List AgFrame
  ended : Bool
  copies : List CopyX
  reqs : List Req
  made : Nat
  issueAt : Option Nat
  reqAt : Option Nat
  creditHeld : Option Nat
  invalid : Bool
  deriving DecidableEq, Repr

/-- A position of a queue, in allocation order: an entry with the core cycle it was written in, an allocated position
not yet written, or a signal record (R208, R211). -/
inductive QItem where
  | entry (e : Entry) (t : Nat)
  | hole
  | sig (ctr : BitVec 5) (add : BitVec 16)
  deriving DecidableEq, Repr

/-- How far the opening of a dynamic connection has come (R224, R225): the candidates for n0 in each direction, and the
slots held or owned on its links as (site, direction, slot). -/
structure ProbeX where
  fwd : List Nat
  ret : List Nat
  held : List (Nat × Nat × Nat)
  deriving DecidableEq, Repr

/-- A queue beyond its registers: its positions, credits owed to the far end, positions allocated so far,
positions whose writing at the far end has been reported (and by each leaf of a tree), entries and records that have
arrived here, the entries ahead of a GAP marker with the sequence number it records, the ring write pointer, the message
lengths waiting, the message being placed (position of its header, payload records in all and sent so far, poison), the
records on their way (0 payload, 1 the header that completes a message, 2 a pad, 3 a signal record), the idle pitches, and the state of a dynamic connection: its slots, the connection a receiving
queue is bound to, the core cycle in which its backoff ends. `rcHeld` is the core cycle from which a wait of the head for
remote credit is not yet counted, `pushPtr` the pointer of the arbiter among the steering units that push (R173), `credOut` the
credits that ride in return flits under way, oldest first (R212), and `touched` tells whether its connection has been other than idle
since the pitch began (R227); `next` is the sequence number a leaf attached again expects behind its gap (R223). -/
structure QueueX where
  items : List QItem
  credRet : Nat
  allocd : Nat
  written : Nat
  arrived : Nat
  gap : Option (Nat × Nat)
  leafRep : List (Nat × Nat)
  wp : Nat
  msgs : List Nat
  placing : Option (Nat × Nat × Nat × Bool)
  ringOut : List (Nat × Entry × Nat)
  idle : Nat
  probe : Option ProbeX
  bound : Option (Nat × Nat)
  slots : Option (Nat × Nat)
  backoffAt : Nat
  rcHeld : Option Nat
  pushPtr : Nat
  credOut : List Nat
  touched : Bool
  next : Option Nat
  deriving DecidableEq, Repr

/-- A connection message in its holder: its kind, the queue it goes to and the identifier it carries (Table 07-6, R228). -/
structure ConnMsg where
  kind : Nat
  dst : Nat
  conn : Nat
  deriving DecidableEq, Repr

/-- The synchronisation state of a site beyond its registers (R218, R245, R246): the signal table in first-pending
order, the arrivals offered and those held by their fence (with the core cycle of the arrival and the positions
allocated in each sending queue by then), a claim request, connection messages and coalesced
credit returns to inject, and the injection arbiter's pointer. -/
structure SyncX where
  table : List (Nat × Nat)
  offered : List Nat
  fenced : List (Nat × Nat × List (Nat × Nat))
  claimOut : Bool
  connOut : List (Nat × ConnMsg)
  creditOut : List (Nat × Nat)
  ptr : Nat
  deriving DecidableEq, Repr

/-- State of a claim-log entry (R255, R256). -/
inductive ClogState where
  | claimed | committed | reissue
  deriving DecidableEq, Repr

/-- An entry of a Tarn's claim log (R255). -/
structure ClogE where
  ctr : Nat
  first : Nat
  inc : Nat
  req : Nat
  seq : Nat
  st : ClogState
  deriving DecidableEq, Repr

/-- The claim service of a Tarn beyond its registers: the last request of each requester, and the claim log; and the
pointer of its thread arbiter with the core cycle of its last issue (R196); `logWait` is the core cycle from which a
claim's wait for a log entry is not yet counted, `waiting` the requests that wait for one, and `servedAt` the core cycle of the last
request served (R253, R255). -/
structure TarnX where
  reqs : List (Nat × (Nat × BitVec 32))
  clog : List ClogE
  logWait : Option Nat
  agPtr : Nat
  agAt : Option Nat
  waiting : List ClaimMsg
  servedAt : Option Nat
  deriving DecidableEq, Repr

/-- The arbiters of Table 07-8 that the commands of several requesters meet: a bank of a scratchpad (R180), a port of a Tarn's SRAM
(R195), the couloir port of a Tarn within a class (R196), a half of a couloir (Table 01-4), the lanes of a connection end and its
stream lane (R213), the control and the service output of a link (R217, R219), and a site's port agent (R231). -/
inductive ArbKey where
  | bank (a b : Nat)
  | tarnPort (a p : Nat)
  | couPort (a cls : Nat)
  | couHalf (k h : Nat)
  | lanes (a q : Nat)
  | streamLane (a q : Nat)
  | ctlOut (a d : Nat)
  | svcOut (a d : Nat)
  | agent (a : Nat)
  deriving DecidableEq, Repr

/-- A round-robin arbiter: its pointer, the first core cycle in which it may grant again, and the requesters refused so far with
the core cycle from which their refusals are not yet counted (R231). -/
structure ArbX where
  ptr : Nat
  free : Nat
  waits : List (Nat × Nat)
  deriving DecidableEq, Repr

/-- A control message in the FIFO of an output link (R217): the core cycle in which it reached it, the input it came from (0 N, 1 E,
2 S, 3 W, 4 the site itself) and the core cycle in which it leaves. -/
structure CtlWait where
  at_ : Nat
  from_ : Nat
  leaves : Nat
  deriving DecidableEq, Repr

/-- The data flit that a site last injected into a link: the core cycle, the queue, and the entries of the ordered lane that it
carries (R210). -/
structure DataSent where
  at_ : Nat
  qid : Nat
  entries : Nat
  deriving DecidableEq, Repr

/-- A flit with the core cycle in which it was sent, or reached the hold line. -/
structure TimedFlit where
  at_ : Nat
  flit : Flit
  deriving DecidableEq, Repr

/-- One outgoing link (R372 to R376): the flits of the last 32 cycles, the hold line and the core cycle from which it takes flits,
the next link sequence, the LSEQ its receiver waits for and the cycle in which that flit failed last, the LSEQ being resent, the
failures of that flit in succession, and the core cycles of the last eight replays; its control FIFO (R217) and the data flit last
injected (R203). -/
structure LinkX where
  replay : List TimedFlit
  hold : List TimedFlit
  heldFrom : Nat
  lseq : Nat
  waiting : Option Nat
  failedAt : Nat
  resent : Option Nat
  fails : Nat
  replays : List Nat
  ctl : List CtlWait
  sent : Option DataSent
  deriving DecidableEq, Repr

/-- A site beyond its registers. `sect` is the section that holds the site (32 × partition + entry). -/
structure Site where
  sect : Option Nat
  prog : List (Nat × Word)
  progSynd : List (Nat × BitVec 8)
  ag : List (Nat × Word)
  agSynd : List (Nat × BitVec 8)
  seq : SeqX
  mtx : MtxX
  vec : VecX
  strs : List (Nat × StrX)
  queues : List (Nat × QueueX)
  steers : List (Nat × SteerX)
  sync : SyncX
  tarn : TarnX
  links : List (Nat × LinkX)
  deriving DecidableEq, Repr

/-- A control message on its way (R217, Table 07-6); `part` is the partition number it carries (R214). -/
inductive CtlMsg where
  | add (tgt : Nat) (m : AddMsg)
  | ack (tgt : Nat) (discarded : Bool) (part : Nat)
  | arrival (site part bar : Nat)
  | release (bar part : Nat) (to_ : List Nat)
  | claim (tarn : Nat) (m : ClaimMsg)
  | reply (site seq : Nat) (value : BitVec 32) (part : Nat)
  | conn (kind src site q conn part : Nat)
  | credit (to_ : Nat) (leaf n conn part : Nat)
  deriving DecidableEq, Repr

/-- An entry or record on a connection's circuit, between its two queues (R211). -/
structure Flight where
  src : Nat
  dst : Nat
  seq : Nat
  item : QItem
  deriving DecidableEq, Repr

/-- The phase of a section's reconfiguration, save or restore (R328, R332, R333, R336). -/
inductive SectPhase where
  | none | powering | loading | quiescing | saving
  deriving DecidableEq, Repr

/-- What a save holds of one site (Table 12-2): its home site index and the site it was saved from, its state beyond the
registers, its saved registers, and the saved bytes, poison bits and stored errors: of a scratchpad by offset, of a Tarn
by offset within the bound half. -/
structure SavedSite where
  home : Nat
  site : Nat
  x : Site
  regs : List (RegKey × Word)
  bytes : List (Nat × Byte)
  poison : List (Nat × BitVec 2)
  synd : List (Nat × BitVec 8)
  deriving DecidableEq, Repr

/-- A barrier as a save holds it (R252): its number, COL_BAR, and the home site indices in ARRIVED. -/
structure SavedBar where
  bar : Nat
  word : Word
  arrived : List Nat
  deriving DecidableEq, Repr

/-- What the Hut keeps of a section beyond HUT_SECT (R296, R325 to R336, R361, R387, R388): its image and LOAD options;
the logarithm of the pitch length of its last check of step 15; whether it has been Armed, and how often re-armed; the
bound halves, the bases of its group slots, and those of its ranges in the four memory groups; the frames still to be
written (128 × home site + frame) and the core cycle from which;
the phase; whether a reconfiguration is a restore's, and which of its two parts is in place; whether it is held Armed;
whether its final barrier has released; the order in which it became runnable, or ended; the RUN it answers; what was
saved; the row it moves to; whether it becomes runnable once Saved, or is re-armed at the next boundary; the site of a
configuration halt; the core cycle a save or restore is counted from; the Tarns on which its prefetch has started. Its save areas and
staged frames (base and length) and where the frames begin are `areas` and `frameBase` (R325, R412), and the row
and halves they are staged for is `stagedAt` (R484). -/
structure SectX where
  img : SectionImage
  update : Bool
  log2 : Nat
  everArmed : Bool
  rearms : Nat
  halves : List (Nat × Nat)
  slotBase : List Nat
  groupBase : List Nat
  areas : List (Nat × Nat)
  frameBase : Nat
  stagedAt : Option (Nat × List (Nat × Nat))
  framesLeft : List Nat
  startAt : Nat
  phase : SectPhase
  restoring : Bool
  restored : Bool
  framesDone : Bool
  held : Bool
  released : Bool
  stamp : Nat
  runCtx : Option Ctx
  saved : List SavedSite
  savedBars : List SavedBar
  newRow : Option Nat
  movedAt : Option Nat
  autoRun : Bool
  autoArm : Bool
  haltSite : Nat
  since : Nat
  pfStarted : List Nat
  ran : Bool
  deriving DecidableEq, Repr

/-- A failure set to take effect at step 3 (R174, R348, R351, R375): partition, job, status class and code, the
DETAIL of Table 16-7, and the entry when it fails one section alone (R200). -/
structure FailReq where
  part : Nat
  job : Nat
  cls : Nat
  code : Nat
  site : Nat
  prog : Nat
  addr : Nat
  only : Option Nat
  deriving DecidableEq, Repr

/-- A referee case (R354 to R358): the Suspect's site at the event, its section, whether a vector row is disputed, the
referee's site, the pitch in which its run begins, whether it runs, its result for the disputed instruction (ΔC and
committed words, or the row), and how many referees were abandoned. -/
structure RefX where
  suspect : Nat
  sect : Nat
  vector : Bool
  referee : Option Nat
  runAt : Option Nat
  running : Bool
  result : Option (List (BitVec 128) × List (BitVec 128))
  row : Option (List (Nat × Bool))
  abandoned : Nat
  deriving DecidableEq, Repr

/-- A digest in progress (R365 to R368): its ranges, leaf digests so far, and the DIGEST_NOW it answers. -/
structure DigX where
  ranges : List (Nat × Nat)
  job : Nat
  leaves : List (Nat × List Byte)
  scheduled : Bool
  ctx : Option Ctx
  deriving DecidableEq, Repr

/-- A health record (Table 14-6). -/
structure HRec where
  type : Nat
  state : Bool
  unit : Nat
  pitch : Nat
  boot : Nat
  detail : List Nat
  bad : Bool
  deriving DecidableEq, Repr

/-- A host command as the Gate read it from a ring entry (Table 16-6). -/
inductive HostCmd where
  | load (o : LoadOps)
  | run (o : RunOps)
  | preempt (job : BitVec 16)
  | resume (entry prio row : Byte)
  | discard (entry : Byte)
  | digestSet (o : DigestOps)
  | digestNow (o : DigestOps)
  | regRead (a : BitVec 64)
  | regWrite (a value mask : BitVec 64)
  | regWriteList (list : BitVec 64) (count : BitVec 16)
  | wananSubmit (job : BitVec 16) (stream len : BitVec 64)
  | tenantCreate (tenant : Byte) (expert : Bool) (maxqp : BitVec 16) (token : BitVec 64)
  | tenantRemove (tenant : Byte)
  | partCreate (o : PartOps)
  | partRemove (p : Byte)
  | grant (o : GrantOps)
  | bad (opcode : Byte)
  deriving DecidableEq, Repr

/-- A pending creation or removal of a partition, or a pending grant (R317, R318, R321). -/
inductive PartReq where
  | create (o : PartOps) (ctx : Ctx)
  | remove (p : Nat) (ctx : Ctx)
  | grant (p k base size : Nat) (zeroing : Bool) (ctx : Ctx)
  deriving DecidableEq, Repr

/-- A request of the host that takes effect at step 4 of the next boundary (R331, R336, R337): a preemption of a job,
or a RESUME of an entry with its priority and origin row. -/
inductive BoundReq where
  | preempt (part job : Nat) (ctx : Ctx)
  | resume (sect prio row : Nat) (ctx : Ctx)
  deriving DecidableEq, Repr

/-- A Wanan job (R337, R448): its submission, the commands completed, whether one is in progress, whether a
preemption waits or holds it. -/
structure WananX where
  ctx : Ctx
  job : Nat
  done : Nat
  busy : Bool
  preempt : Option Ctx
  stopped : Bool
  deriving DecidableEq, Repr

/-- The Hut's state beyond its registers: `lastOwner` the last tenant of each granule (768 × group + granule), `testing`
the Spurs whose self-test runs, `testNow` those due at once, `hostDoms` the domains (kind, site) that a host switched ON or
into RETAIN and whose site no section has left since, `marks` the links marked (site, direction) since the last boundary,
`digDue` the scheduled digests that are due and have not started (partition, job),
`switching` the domains on their way to ON (site, kind 0 core, 1 router, 2 + tier, core cycle of completion), `recPend`
the health records to append, `recs` the store. -/
structure HutX where
  sects : List (Nat × SectX)
  fails : List FailReq
  cfgHalts : List Nat
  parts : List PartReq
  bounds : List BoundReq
  lastOwner : List (Nat × Nat)
  mailbox : List (Ctx × HostCmd)
  runWaits : List (Ctx × RunOps)
  digs : List (Nat × DigX)
  digDue : List (Nat × Nat)
  digSets : List (Nat × List (Nat × Nat))
  refs : List RefX
  testing : List Nat
  testNow : List Nat
  lastTest : List (Nat × Nat)
  failedTests : List Nat
  hostDoms : List (Nat × Nat)
  marks : List (Nat × Nat)
  switching : List (Nat × Nat × Nat)
  recPend : List HRec
  recs : List HRec
  bootCount : Nat
  compactions : Nat
  storeOk : Bool
  wanan : List (Nat × WananX)
  stamp : Nat
  deriving DecidableEq, Repr

/-- A frame read that failed and is being re-read, and whether patrol scrubbing made it (R272, R273). -/
structure Reread where
  addr : Nat
  left : Nat
  patrol : Bool
  deriving DecidableEq, Repr

/-- A channel's part in granting (R268 to R270): its next turn, and the requests of streams granted and not yet executed (Tarn site,
thread, request number), oldest first. -/
structure ChanX where
  turn : Nat
  queue : List (Nat × Nat × Nat)
  deriving DecidableEq, Repr

/-- The memory controllers' state beyond their registers: cells whose stored check byte is wrong lie in the device's
`synd`; here stripes whose stored address tag, or the syndrome of its tag word, is not what the controllers write (Table 09-2),
re-reads in progress, the stripe last delivered, the
times (ms) of uncorrectable events and the failed trainings of each channel, the next frame of patrol scrubbing and the core cycle
of its last read, the refreshes issued, the channels' turns and queues, and the requests at the crossing on their way into each half
of a couloir (2 × group + half). -/
structure MemX where
  tags : List (Nat × (BitVec 32 × Byte))
  rereads : List Reread
  delivered : Option (Nat × List (Word × Bool))
  ueTimes : List (Nat × List Nat)
  trainFails : List (Nat × Nat)
  scrubNext : List (Nat × Nat)
  scrubAt : List (Nat × Nat)
  refreshes : List (Nat × Nat)
  chans : List (Nat × ChanX)
  crossing : List (Nat × List (Nat × Nat × Nat))
  deriving DecidableEq, Repr

/-- What the packets of a stream have brought so far (R399, R401, R411): bytes of the firmware image, whether the last
packet that applied was FIRMWARE, the FWSIG packet, whether a START_SEQ came, its codes if it applied, bytes of WREG
records and the records that apply, whether a packet has applied to this device, the code of the last IMAGE packet and
the parts by code, whether a part broke R401, and the frames with their addresses in order. -/
structure StreamGot where
  fwLen : Nat
  fwLast : Bool
  fwsig : Option (List Byte × List Byte)
  sawSeq : Bool
  codes : Option (List Byte)
  wregLen : Nat
  wregs : List (Word × Word)
  applied : Bool
  lastPart : Option Nat
  parts : List (Nat × List Byte)
  badParts : Bool
  frames : List (Nat × List Byte)
  deriving DecidableEq, Repr

/-- A stream in a slot beyond its registers (R396 to R419): its header once received, the delivery, the time of its load
deadline in thirtieths of a nanosecond, the LOAD it answers, the key it decrypts with and the offset its delivery began
at, the offset of the next packet and that of the open block, the bytes of that block, the bytes of the stream as
transmitted up to the last SYNC, the TYPE of the packet before (256 for the header), the SIGNATURE packet, what the
packets brought, what they had brought at the last passed SYNC, the slot's registers before this delivery; `wait` while a
delivery's header is still to come, the other parts being those of the stream before; `loadNo` is the place of its LOAD in the order
in which the mailbox delivered them (R284). -/
structure StreamX where
  wait : Bool
  hdr : Option StreamHdr
  multicast : Bool
  qp : Nat
  group : BitVec 128
  deadline : Nat
  load : Option (Ctx × LoadOps)
  key : Option (BitVec 256)
  from_ : Nat
  at_ : Nat
  blockStart : Nat
  block : List Byte
  sent : List Byte
  prev : Nat
  sig : Option (List Byte × List Byte)
  got : StreamGot
  kept : StreamGot
  old : Word × Word
  loadNo : Nat
  deriving DecidableEq, Repr

/-- The configuration controller's state beyond its registers: stream slots, the firmware image, start-up progress,
the three copies of the scrubber's fields, its heartbeat watch, its place, and the corrections it sent (R359 to
R362, R411, R422). -/
structure CfgX where
  streams : List (Nat × StreamX)
  firmware : List Byte
  stepsLeft : List Nat
  startedAt : Nat
  wregs : List (Word × Word)
  scrubEn : List Bool
  scrubRate : List Nat
  beatSame : Nat
  beatLast : Nat
  scrubFrame : Nat
  corrections : List (Nat × Nat × Nat × Nat)
  deriving DecidableEq, Repr

/-- A completion held for ring order or room (R446, Table 16-7). -/
structure Completion where
  idx : Nat
  tag : BitVec 32
  opcode : Nat
  cls : Nat
  code : Nat
  pitch : Nat
  result : Nat
  detail : Nat
  notify : Bool
  deriving DecidableEq, Repr

/-- A queue pair beyond GATE_QP (R431 to R433, R440 to R446). -/
structure QpX where
  hostQpn : BitVec 32
  rkey : BitVec 32
  ringAddr : Nat
  ringLog2 : Nat
  cqLog2 : Nat
  eqLog2 : Nat
  ackTo : Nat
  sver : Nat
  cqci : Nat
  nextCq : Nat
  eqUsed : Nat
  lost : Bool
  done : List Completion
  staged : List (Nat × Nat)
  rate : Nat
  retries : Nat
  lastCnp : Nat
  rateAt : Nat
  stream : Option Nat
  deriving DecidableEq, Repr

/-- The Gate's state beyond its registers (R429, R430, R434 to R440): `laneBad` the windows in succession in which a lane
erred, `laneDown` the lanes that failed and the rate code, while the port retrains (R379, R381), `windowAt`, `trainedAt` and
`announcedAt` the times of the last window, the last retrain and the last announcement of its own, `ipNet` the family, length and
gateway of SET_IP (R468). -/
structure GateX where
  qps : List (Nat × QpX)
  tokens : List (Nat × BitVec 64)
  nonce : Option (BitVec 64)
  claimAck : Option (Nat × Nat × Nat × Nat)
  adminQp : Option Nat
  adminLostAt : Option Nat
  ip : Option (BitVec 128)
  ipNet : Nat × Nat × BitVec 128
  dhcp : Bool
  paused : Nat
  pfcPaused : Nat
  joined : List (BitVec 128)
  wakeBuf : List Instr
  wakeBytes : Nat
  laneBad : List (Nat × Nat)
  laneDown : List (Nat × Nat)
  windowAt : Option Nat
  trainedAt : Option Nat
  announcedAt : Option Nat
  deriving DecidableEq, Repr

/-- Fuses, battery-backed key and identity (R406, R407, Table 15-11): what no reset clears (R455). -/
structure Fuses where
  key : Option (BitVec 256)
  vbat : Option (BitVec 256)
  slots : List (BitVec 256)
  slotUsed : List Bool
  reqSig : Bool
  scrubEn : Bool
  scrubRate : Nat
  signature : Word
  serial : BitVec 128
  mac : BitVec 48
  deriving DecidableEq, Repr

/-- An SMBus command that returned SMB_PENDING and its final status (R466). -/
structure SmbX where
  pending : Option (Nat × List Byte)
  result : Option (Nat × List Byte)
  deriving DecidableEq, Repr

/-- One Rope link (R463). -/
structure RopeLinkX where
  hellos : Nat
  peerLo : Nat
  peerHi : Nat
  heardAt : Nat
  sendDue : Nat
  deriving DecidableEq, Repr

/-- A relay in progress (R462, R468); `sentAt` is the time of its last sending. -/
structure RelayX where
  target : Nat
  seq : Nat
  cmd : List Byte
  repeats : Nat
  sentAt : Nat
  deriving DecidableEq, Repr

/-- The board side: power, pins, alert causes, SMBus, Rope, thermal windows and Bivouac's saved domains (R453 to
R474). A pin named with _N is held here as its electrical level. `cut` tells that the 48 V input has gone since THERMTRIP_N fell,
`wakeSrc` the wake event that came during entry into Bivouac (0 none), `bivSince` the pitch of entry, and `lastHost` the
time of the last host command or stream byte. -/
structure BoardX where
  pwrgd : Bool
  porstN : Bool
  stageInN : Bool
  stageOutN : Bool
  readyN : Bool
  thermtripN : Bool
  cut : Bool
  alerts : Nat
  smb : SmbX
  up : RopeLinkX
  down : RopeLinkX
  relay : Option RelayX
  relaySeq : Nat
  coolWindows : Nat
  windowDue : Nat
  wakeSrc : Nat
  savedDomains : List (RegKey × Word)
  bivSince : Nat
  lastHost : Nat
  pllLock : Bool
  deriving DecidableEq, Repr

/-- What the device sends out: the model's own record, in order of sending, of packets, records, frames and replies. -/
inductive Output where
  | completion (qp pos : Nat) (phase : Bool) (c : Completion)
  | notification (qp idx : Nat)
  | event (qp kind : Nat) (lost : Bool) (pitch : Nat) (body : List Nat)
  | claimAck (status gver sver qpn psn rkey : Nat)
  | connectAck (status gver sver qpn psn rkey : Nat)
  | announce (state : Nat) (admin : Bool) (pos board : Nat)
  | disconnect (qp reason : Nat)
  | nak (qp kind : Nat)
  | readData (qp : Nat) (data : List Byte)
  | cnp (qp : Nat)
  | retransmit (qp : Nat)
  | arpReply | ndpReply | echoReply
  | smb (status : Nat) (data : List Byte)
  | alertAddress (addr : Nat)
  | rope (side : RopeSide) (type dst src seq : Nat) (payload : List Byte)
  deriving DecidableEq, Repr

/-- The Col beyond its registers (R247): the arrivals waiting at its four ports (port, site, partition, barrier), its arbiter's
pointer, the core cycle of the last acceptance, that from which waiting at the ports is not yet counted, and the barrier whose release
is emitted in the next cycle, with its partition. -/
structure ColX where
  ports : List (Nat × Nat × Nat × Nat)
  ptr : Nat
  lastAt : Option Nat
  waitAt : Option Nat
  due : Option (Nat × Nat)
  deriving DecidableEq, Repr

/-- The state of the device. `cycle` is the cycle within the pitch, `cycles` the core cycles and `time` the thirtieths
of a nanosecond since the clock started; `lenPend` is a pitch length that waits for step 8, `lenNext` one that waits for
the next pitch (R31, Table 01-9); `sigAdds` are the adds of this cycle to each signal counter, `sigNext` those of the next (R240, R242), `ringDue` the
signal counters whose whole value a ring's sender consumes in this cycle (R241), and `credNext` the stream credits that return at the end of this cycle (R190);
`evs` are the registers with a field that a host clears which an event of this cycle has met: the word as the cycle found it, and
what the events leave when the clear comes first; `hostSigs` are the signal counters a host has written in this cycle (R7); `padOld`
holds the scratchpad words that streams have written in this cycle as the cycle found them (R179), and `arbs` the arbiters; `free`
is the model's own counter for values the manual leaves open. -/
structure State where
  pending : List Instr
  cycle : Nat
  cycles : Nat
  time : Nat
  regs : List (RegKey × Word)
  counters : List (Nat × Nat)
  snaps : List (Nat × Nat)
  mem : List (Nat × Byte)
  poison : List (Nat × BitVec 2)
  synd : List (Nat × BitVec 8)
  sites : List (Nat × Site)
  sigAdds : List (Nat × Nat)
  sigNext : List (Nat × Nat)
  ringDue : List Nat
  credNext : List (Nat × Nat)
  ctl : List CtlMsg
  flight : List Flight
  col : ColX
  hut : HutX
  memc : MemX
  cfg : CfgX
  gate : GateX
  fuses : Fuses
  board : BoardX
  seedNext : List (Nat × Word)
  domPend : List (DomKind × Nat × Nat)
  lenPend : Option Nat
  lenNext : Option Nat
  evs : List (RegKey × Word × Word)
  hostSigs : List Nat
  padOld : List (Nat × (Word × Byte × BitVec 2))
  arbs : List (ArbKey × ArbX)
  free : Nat
  out : List Output
  deriving DecidableEq, Repr

/-! ### Reset values -/

def SeqX.reset : SeqX := ⟨0, [], false, none, none, none, false, false⟩
def SteerX.reset : SteerX := ⟨[], [], 0, 0, 0, none, none, none, false⟩
def MtxX.reset : MtxX := ⟨[], [], [], [], 0, 0, [], 0, 0⟩
def Line.zero : Line := ⟨0, 0, 0⟩
def VecX.reset : VecX := ⟨[], [], [], [], 0, none⟩
def StrX.reset : StrX := ⟨0, [], false, [], [], 0, none, none, none, false⟩
def QueueX.reset : QueueX := ⟨[], 0, 0, 0, 0, none, [], 0, [], none, [], 0, none, none, none, 0, none, 0, [], false, none⟩
def SyncX.reset : SyncX := ⟨[], [], [], false, [], [], 0⟩
def TarnX.reset : TarnX := ⟨[], [], none, 0, none, [], none⟩
def LinkX.reset : LinkX := ⟨[], [], 0, 0, none, 0, none, 0, [], [], none⟩
def Site.reset : Site :=
  ⟨none, [], [], [], [], SeqX.reset, MtxX.reset, VecX.reset, [], [], [], SyncX.reset, TarnX.reset, []⟩
def HutX.reset : HutX :=
  { sects := [], fails := [], cfgHalts := [], parts := [], bounds := [], lastOwner := [], mailbox := [], runWaits := [], digs := [], digDue := [],
    digSets := [], refs := [], testing := [], testNow := [], lastTest := [], failedTests := [], hostDoms := [], marks := [],
    switching := [], recPend := [], recs := [], bootCount := 0, compactions := 0, storeOk := true, wanan := [],
    stamp := 0 }
def MemX.reset : MemX := ⟨[], [], none, [], [], [], [], [], [], []⟩
def StreamGot.reset : StreamGot :=
  { fwLen := 0, fwLast := false, fwsig := none, sawSeq := false, codes := none, wregLen := 0, wregs := [],
    applied := false, lastPart := none, parts := [], badParts := false, frames := [] }
def StreamX.reset : StreamX :=
  { wait := true, hdr := none, multicast := false, qp := 0, group := 0, deadline := 0, load := none, key := none, from_ := 64, at_ := 64,
    blockStart := 64, block := [], sent := [], prev := 256, sig := none, got := StreamGot.reset,
    kept := StreamGot.reset, old := (0, 0), loadNo := 0 }
def GateX.reset : GateX :=
  { qps := [], tokens := [], nonce := none, claimAck := none, adminQp := none, adminLostAt := none, ip := none, ipNet := (0, 0, 0),
    dhcp := true, paused := 0, pfcPaused := 0, joined := [], wakeBuf := [], wakeBytes := 0, laneBad := [],
    laneDown := [], windowAt := none, trainedAt := none, announcedAt := none }
/-- Fuse and identity values. DESIGN CHOICE (log entry 2): the manual gives none. -/
def Fuses.reset : Fuses :=
  { key := none, vbat := none, slots := [0, 0, 0, 0], slotUsed := [false, false, false, false], reqSig := false,
    scrubEn := false, scrubRate := 1, signature := 0, serial := 0, mac := 0 }
def CfgX.reset (f : Fuses) : CfgX :=
  { streams := [], firmware := [], stepsLeft := [], startedAt := 0, wregs := [],
    scrubEn := [f.scrubEn, f.scrubEn, f.scrubEn], scrubRate := [f.scrubRate, f.scrubRate, f.scrubRate],
    beatSame := 0, beatLast := 0, scrubFrame := 0, corrections := [] }
def RopeLinkX.reset : RopeLinkX := ⟨0, 0, 0, 0, 0⟩
/-- The board side after PORST_N rises, with every strap left open and STAGE_IN_N open, which reads low (R455, R456,
Table 17-2). -/
def BoardX.reset : BoardX :=
  { pwrgd := true, porstN := true, stageInN := false, stageOutN := true, readyN := true, thermtripN := true,
    cut := false, alerts := 0, smb := ⟨none, none⟩, up := RopeLinkX.reset, down := RopeLinkX.reset, relay := none,
    relaySeq := 0, coolWindows := 0, windowDue := 0, wakeSrc := 0, savedDomains := [], bivSince := 0,
    lastHost := 0, pllLock := false }

/-- The device right after PORST_N is deasserted, with every strap left open: state BOOT, every register at its reset
value (an unlisted register reads its reset value), no memory byte listed, every queue empty (R9, R420, R455). The
head of a Rope holds position 0 from the rise of PWRGD (R464). -/
def State.reset : State :=
  { pending := [], cycle := 0, cycles := 0, time := 0
    regs := [(⟨.ROPE_STATUS, 0, 0⟩, fieldSet F.ROPE_STATUS_HEAD 1 (fieldSet F.ROPE_STATUS_POS_VALID 1 0)),
             (⟨.CFG_STRAPS, 0, 0⟩, fieldSet F.CFG_STRAPS_ROPE_HEAD 1 0)]
    counters := [], snaps := [], mem := [], poison := [], synd := [], sites := [], sigAdds := [], sigNext := [], ringDue := [], credNext := [], ctl := []
    flight := [], col := ⟨[], 0, none, none, none⟩, hut := HutX.reset, memc := MemX.reset, cfg := CfgX.reset Fuses.reset
    gate := GateX.reset, fuses := Fuses.reset, board := BoardX.reset, seedNext := [], domPend := [], lenPend := none
    lenNext := none, evs := [], hostSigs := [], padOld := [], arbs := []
    free := 0, out := [] }

end Sys2Proof.Machine
end

