-- ==== Sys2Proof/Machine/Ops.lean ====
section
/-! DEFINITION. The named operations over the state: registers and their fields, event counters, memory with its
poison bits, the parts of a site, and time. Every meaning goes through these. -/

namespace Sys2Proof.Machine

/-! ### Sites (R10, R11, R21) -/

/-- Column of a site index (R10). -/
def colOf (a : Nat) : Nat := a % 16
/-- Row of a site index (R10). -/
def rowOf (a : Nat) : Nat := a / 16
/-- The site index of a column and a row (R10). -/
def siteAt (c r : Nat) : Nat := r * 16 + c
/-- Whether a column holds Tarns (R11). -/
def tarnCol (c : Nat) : Bool := [1, 5, 10, 14].contains c
/-- Whether a site is a Tarn (R11, R21). -/
def isTarn (a : Nat) : Bool := tarnCol (colOf a)
/-- Whether a site is a Spur (R11, R21). -/
def isSpur (a : Nat) : Bool := decide (a < 256) && !isTarn a
/-- The Spur columns in rank order (R11). -/
def spurCols : List Nat := [0, 2, 3, 4, 6, 7, 8, 9, 11, 12, 13, 15]
/-- The Spur number of a site (R11). -/
def spurNo (a : Nat) : Nat := rowOf a * 12 + (spurCols.findIdx (· = colOf a))
/-- The site of a Spur number (R11). -/
def siteOfSpur (n : Nat) : Nat := siteAt (spurCols.getD (n % 12) 0) (n / 12)
/-- The Tarn number of a site (R11). -/
def tarnNo (a : Nat) : Nat := rowOf a * 4 + ([1, 5, 10, 14].findIdx (· = colOf a))
/-- The site of a Tarn number (R11). -/
def siteOfTarn (t : Nat) : Nat := siteAt ([1, 5, 10, 14].getD (t % 4) 0) (t / 4)
/-- Every site index. -/
def allSites : List Nat := List.range 256

/-! ### Registers -/

/-- The whole word of a register as its storage holds it: an unlisted register holds its reset value (R9). -/
def State.word (s : State) (r : RegName) (a i : Nat) : Word := (aget s.regs ⟨r, a, i⟩).getD (r.resetWord i)

/-- The state with the whole word of a register replaced. -/
def State.setWord (s : State) (r : RegName) (a i : Nat) (w : Word) : State :=
  { s with regs := aput s.regs ⟨r, a, i⟩ w }

/-- A field of a register. -/
def State.rd (s : State) (f : Fld) (a : Nat := 0) (i : Nat := 0) : Nat := fieldGet f (s.word f.reg a i)

/-- The state with a field of a register set by the hardware; its other bits keep their values. -/
def State.wr (s : State) (f : Fld) (a i v : Nat) : State := s.setWord f.reg a i (fieldSet f v (s.word f.reg a i))

/-- Several fields of one register set together. -/
def State.wrs (s : State) (a i : Nat) (l : List (Fld × Nat)) : State := l.foldl (fun s x => s.wr x.1 a i x.2) s

/-! ### Events that meet a host in the same cycle (R7, Table 00-3) -/

/-- A word with its reserved bits 0 (R8). -/
def RegName.defined (r : RegName) (w : Word) : Word := r.fields.foldl (fun v f => fieldSet f (fieldGet f w) v) 0

/-- The word of a register with the fields cleared that a host clears by reading (RC) or by writing ones (W1C). -/
def RegName.cleared (r : RegName) (w : Word) : Word :=
  (r.fields.filter (fun f => f.acc == .rc || f.acc == .w1c)).foldl (fun w f => fieldSet f 0 w) w

/-- An event recorded in a register that has such fields: `rule` gives the word after the event from the word before it. What
the event would leave had the host's clear come first is kept beside it until the cycle ends. -/
def State.note (s : State) (r : RegName) (a i : Nat) (rule : Word → Word) : State :=
  let w := s.word r a i
  let met := (aget s.evs ⟨r, a, i⟩).getD (w, r.cleared w)
  { s.setWord r a i (rule w) with evs := aput s.evs ⟨r, a, i⟩ (met.1, rule met.2) }

/-- Several fields of a word set together. -/
def setFields (l : List (Fld × Nat)) (w : Word) : Word := l.foldl (fun w x => fieldSet x.1 x.2 w) w

/-- An event sets a flag that a host clears. -/
def State.noteFlag (s : State) (f : Fld) (a i : Nat) : State := s.note f.reg a i (fieldSet f 1)

/-! ### Event counters (R483, Tables 18-4 and 18-7) -/

/-- An event counter: `none` for a site counter, the block for a device-level one, and its index in the block. -/
structure Ctr where
  block : Option Nat
  idx : Nat
  deriving DecidableEq, Repr

namespace C
def SEQ_CNT_ISSUE : Ctr := ⟨none, 0⟩
def SEQ_CNT_HOLD : Ctr := ⟨none, 1⟩
def SEQ_CNT_QWAIT : Ctr := ⟨none, 2⟩
def SEQ_CNT_SWAIT : Ctr := ⟨none, 3⟩
def SEQ_CNT_STEER : Ctr := ⟨none, 4⟩
def SEQ_CNT_MARK : Ctr := ⟨none, 5⟩
def SEQ_CNT_SIGADD : Ctr := ⟨none, 6⟩
def SEQ_CNT_SATLOSS : Ctr := ⟨none, 7⟩
def SEQ_CNT_FENCE : Ctr := ⟨none, 8⟩
def TRV_CNT_DATA : Ctr := ⟨none, 9⟩
def TRV_CNT_CTRL : Ctr := ⟨none, 10⟩
def TRV_CNT_SVC : Ctr := ⟨none, 11⟩
def TRV_CNT_XPART : Ctr := ⟨none, 12⟩
def TRV_CNT_STALE : Ctr := ⟨none, 13⟩
def QUE_CNT_NOSLOT : Ctr := ⟨none, 14⟩
def QUE_CNT_DETACH : Ctr := ⟨none, 15⟩
def QUE_CNT_PAD : Ctr := ⟨none, 16⟩
def QUE_CNT_RCWAIT : Ctr := ⟨none, 17⟩
def TRV_CNT_CRC : Ctr := ⟨none, 18⟩
def TRV_CNT_SRCERR : Ctr := ⟨none, 19⟩
def TRV_CNT_RETRY : Ctr := ⟨none, 20⟩
def TRV_CNT_DELAY : Ctr := ⟨none, 21⟩
def TRV_CNT_DEADDROP : Ctr := ⟨none, 22⟩
def CHK_CNT_CE : Ctr := ⟨none, 23⟩
def CHK_CNT_UE : Ctr := ⟨none, 24⟩
def MTX_CNT_TILES : Ctr := ⟨none, 32⟩
def MTX_CNT_SKIP : Ctr := ⟨none, 33⟩
def MTX_CNT_BUSY : Ctr := ⟨none, 34⟩
def MTX_CNT_RECOMP : Ctr := ⟨none, 35⟩
def MTX_CNT_RECOMP_BUSY : Ctr := ⟨none, 36⟩
def CHK_CNT_DISAGREE : Ctr := ⟨none, 37⟩
def CHK_CNT_DPT : Ctr := ⟨none, 38⟩
def CHK_CNT_CKT : Ctr := ⟨none, 39⟩
def CHK_CNT_UNDEC : Ctr := ⟨none, 40⟩
def CHK_CNT_POISONREL : Ctr := ⟨none, 41⟩
def VEC_CNT_ROWS : Ctr := ⟨none, 42⟩
def VEC_CNT_BUSY : Ctr := ⟨none, 43⟩
def VEC_CNT_REPLAY : Ctr := ⟨none, 44⟩
def VEC_CNT_UNDEC : Ctr := ⟨none, 45⟩
def STR_CNT_BYTES : Ctr := ⟨none, 46⟩
def STR_CNT_CWAIT : Ctr := ⟨none, 47⟩
def STR_CNT_BANKWAIT : Ctr := ⟨none, 48⟩
def TRN_CNT_EXT_BYTES : Ctr := ⟨none, 32⟩
def TRN_CNT_PF_BYTES : Ctr := ⟨none, 33⟩
def TRN_CNT_PF_WAIT : Ctr := ⟨none, 34⟩
def TRN_CNT_CLAIM : Ctr := ⟨none, 35⟩
def TRN_CNT_RETRY : Ctr := ⟨none, 36⟩
def TRN_CNT_REISSUE : Ctr := ⟨none, 37⟩
def TRN_CNT_DUPCOMMIT : Ctr := ⟨none, 38⟩
def TRN_CNT_LOGWAIT : Ctr := ⟨none, 39⟩
def COL_CNT_ARRIVE : Ctr := ⟨some 0, 0⟩
def COL_CNT_RELEASE : Ctr := ⟨some 0, 1⟩
def COL_CNT_DISCARD : Ctr := ⟨some 0, 2⟩
def COL_CNT_QWAIT : Ctr := ⟨some 0, 3⟩
def HUT_CNT_FENCE : Ctr := ⟨some 1, 0⟩
def HUT_CNT_RELOCATE : Ctr := ⟨some 1, 1⟩
def HUT_CNT_REARM : Ctr := ⟨some 1, 2⟩
def HUT_CNT_SELFTEST : Ctr := ⟨some 1, 3⟩
def HUT_CNT_DIGWAIT : Ctr := ⟨some 1, 16⟩
def HUT_CNT_REFWAIT : Ctr := ⟨some 1, 32⟩
def HUT_ACCT_WAIT : Ctr := ⟨some 1, 48⟩
def HUT_ACCT_PREEMPT : Ctr := ⟨some 1, 64⟩
def HUT_ACCT_SAVECYC : Ctr := ⟨some 1, 80⟩
def HUT_ACCT_RESTCYC : Ctr := ⟨some 1, 96⟩
def HUT_ACCT_WDELAY : Ctr := ⟨some 1, 112⟩
def GATE_CNT_RXBYTES : Ctr := ⟨some 2, 0⟩
def GATE_CNT_TXBYTES : Ctr := ⟨some 2, 1⟩
def GATE_CNT_RETX : Ctr := ⟨some 2, 2⟩
def GATE_CNT_CNP : Ctr := ⟨some 2, 3⟩
def GATE_CNT_RXDROP : Ctr := ⟨some 2, 4⟩
def GATE_CNT_ACCESS_NAK : Ctr := ⟨some 2, 5⟩
def GATE_CNT_BUSY : Ctr := ⟨some 2, 6⟩
def GATE_CNT_DENIED : Ctr := ⟨some 2, 7⟩
def GATE_CNT_EVTLOST : Ctr := ⟨some 2, 8⟩
def GATE_CNT_RETRAIN : Ctr := ⟨some 2, 9⟩
def MEM_CNT_RDBYTES : Ctr := ⟨some 3, 0⟩
def MEM_CNT_WRBYTES : Ctr := ⟨some 3, 1⟩
def MEM_CNT_CE : Ctr := ⟨some 3, 2⟩
def MEM_CNT_RETRYOK : Ctr := ⟨some 3, 3⟩
def MEM_CNT_UE : Ctr := ⟨some 3, 4⟩
def MEM_CNT_TAG : Ctr := ⟨some 3, 5⟩
def MEM_CNT_RETRAIN : Ctr := ⟨some 3, 6⟩
def MEM_CNT_SCRUBFIX : Ctr := ⟨some 3, 7⟩
def MEM_CNT_RETIRED : Ctr := ⟨some 3, 8⟩
def MEM_CNT_UNBACKED : Ctr := ⟨some 3, 9⟩
def CFG_CNT_SCRUB_FIX : Ctr := ⟨some 4, 0⟩
def CFG_CNT_SCRUB_DISAGREE : Ctr := ⟨some 4, 1⟩
def CFG_CNT_SCRUB_STUCK : Ctr := ⟨some 4, 2⟩
def CFG_CNT_SCRUB_UE : Ctr := ⟨some 4, 3⟩
def CFG_CNT_FETCH_CE : Ctr := ⟨some 4, 4⟩
def CFG_CNT_SCRUB_STALL : Ctr := ⟨some 4, 5⟩
def CFG_CNT_SCRUB_PASS : Ctr := ⟨some 4, 6⟩
def CFG_CNT_STREAM_BYTES : Ctr := ⟨some 4, 8⟩
def CFG_CNT_DGRAM : Ctr := ⟨some 4, 9⟩
def CFG_CNT_DGRAM_DROP : Ctr := ⟨some 4, 10⟩
def CFG_CNT_STREAM_OK : Ctr := ⟨some 4, 11⟩
def CFG_CNT_STREAM_FAIL : Ctr := ⟨some 4, 12⟩
def ROPE_CNT_CRC : Ctr := ⟨some 5, 0⟩
def ROPE_CNT_RETRY : Ctr := ⟨some 5, 1⟩
def PWR_CNT_THROTTLE : Ctr := ⟨some 6, 0⟩
def PWR_CNT_BIVOUAC : Ctr := ⟨some 6, 1⟩
def PWR_CNT_BIV_PITCH : Ctr := ⟨some 6, 2⟩
def TAL_CNT_LEAVES : Ctr := ⟨some 7, 0⟩
end C

/-- Address of the live register of a counter: of site `a`, or of a device-level block with `a` the number added to
the counter's index (a partition or tenant; 16 times a memory group) (R483). -/
def Ctr.address (c : Ctr) (a : Nat) : Nat :=
  match c.block with
  | none => 0x01F000000000 + a * 0x10000 + 0x2000 + 16 * c.idx
  | some b => 0x01FF00000000 + b * 0x10000 + 0x8000 + 16 * (c.idx + a)

/-- A counter's value. -/
def State.ctr (s : State) (c : Ctr) (a : Nat := 0) : Nat := (aget s.counters (c.address a)).getD 0

/-- The state with `n` added to a counter, modulo 2^48 (R110). -/
def State.count (s : State) (c : Ctr) (a : Nat := 0) (n : Nat := 1) : State :=
  { s with counters := aput s.counters (c.address a) ((s.ctr c a + n) % 2 ^ 48) }

/-! ### Memory (R479, R15, R340 to R344) -/

/-- Bases of the memory ranges of Table 18-1. -/
def tarnBase (t : Nat) : Nat := 0x010000000000 + t * 0x02000000
def padBase (n : Nat) : Nat := 0x011000000000 + n * 0x00800000
def morBase (n : Nat) : Nat := 0x012000000000 + n * 0x00200000
/-- Size of external memory (Table 18-1). -/
def extSize : Nat := 0x00C000000000

/-- Whether an address holds a byte of external memory. -/
def inExt (x : Nat) : Bool := x < extSize
/-- Whether an address holds a byte of Tarn SRAM. -/
def inTarn (x : Nat) : Bool := tarnBase 0 ≤ x && x < tarnBase 64
/-- Whether an address holds a scratchpad byte: the upper quarter of each window is not memory. -/
def inPad (x : Nat) : Bool := padBase 0 ≤ x && x < padBase 192 && (x - padBase 0) % 0x800000 < 0x600000
/-- The Spur whose scratchpad window holds the address. -/
def padSpur (x : Nat) : Nat := (x - padBase 0) / 0x800000
/-- The Tarn whose SRAM holds the address. -/
def tarnOf (x : Nat) : Nat := (x - tarnBase 0) / 0x2000000

/-- One byte of memory; a byte nothing has written reads as 0 (R280, R319; log entry 5). -/
def State.byte (s : State) (x : Nat) : Byte := mget 0 s.mem x

/-- The poison bits of the 8-byte word at word index `w` = address / 8; nonzero is poisoned (R341). -/
def State.pois (s : State) (w : Nat) : BitVec 2 := mget 0 s.poison w

/-- Whether the word that holds an address is poisoned. -/
def State.poisonedAt (s : State) (x : Nat) : Bool := s.pois (x / 8) != 0

/-- The state with one byte written; the word's poison and stored errors stay. -/
def State.putByte (s : State) (x : Nat) (b : Byte) : State := { s with mem := mput 0 s.mem x b }

/-- The state with the poison of word index `w` set. -/
def State.setPois (s : State) (w : Nat) (p : Bool) : State :=
  { s with poison := mput 0 s.poison w (if p then 3 else 0), synd := mput 0 s.synd w 0 }

/-- The n bytes at an address. -/
def State.bytes (s : State) (x n : Nat) : List Byte := (List.range n).map (fun i => s.byte (x + i))

/-- Bytes written at an address; poison is left alone. -/
def State.putRaw (s : State) : Nat → List Byte → State
  | _, [] => s
  | x, b :: bs => (s.putByte x b).putRaw (x + 1) bs

/-- The 64-bit little-endian word at an address (R15). -/
def State.word64 (s : State) (x : Nat) : Word :=
  (s.bytes x 8).foldr (fun b w => (w <<< 8) ||| b.setWidth 64) 0

/-- Little-endian bytes of a number (R15). -/
def leBytes (v : Nat) : Nat → List Byte
  | 0 => []
  | n + 1 => BitVec.ofNat 8 v :: leBytes (v / 256) n

/-- The number a little-endian byte list spells (R15). -/
def leNat : List Byte → Nat
  | [] => 0
  | b :: bs => b.toNat + 256 * leNat bs

/-- One whole word written with its poison bit. -/
def State.putWord (s : State) (x : Nat) (w : Word) (p : Bool) : State :=
  (s.putRaw x (leBytes w.toNat 8)).setPois (x / 8) p

/-- Word indices of the words that the n bytes at an address touch. -/
def wordsOf (x n : Nat) : List Nat :=
  if n = 0 then [] else (List.range ((x + n - 1) / 8 - x / 8 + 1)).map (· + x / 8)

/-- Whether any word that the n bytes touch is poisoned. -/
def State.anyPoison (s : State) (x n : Nat) : Bool := (wordsOf x n).any (fun w => s.pois w != 0)

/-- Bytes written by an engine, with one poison bit for all the words touched (R344: a write of new data clears
poison; a poisoned source poisons what is written). -/
def State.putBytes (s : State) (x : Nat) (bs : List Byte) (p : Bool := false) : State :=
  (wordsOf x bs.length).foldl (fun s w => s.setPois w p) (s.putRaw x bs)

/-! ### SEC-DED words (R340 to R343)

A stored word whose check byte does not match is listed in `synd` by its syndrome. -/

/-- Number of ones of a byte. -/
def ones (b : Nat) : Nat := (List.range 8).foldl (fun n i => n + b / 2 ^ i % 2) 0

/-- The columns h_0 to h_63 (R340): the weight-3 bytes in ascending order, then eight of weight 5. -/
def eccColumns : List Nat :=
  List.append ((List.range 256).filter (fun b => ones b = 3)) [0x1F, 0x2F, 0x37, 0x3B, 0x3D, 0x3E, 0x4F, 0x57]

/-- The check byte of a word (R340). -/
def checkByte (w : Word) : Byte :=
  (eccColumns.zip (List.range 64)).foldl (fun c (h, i) => if w.getLsbD i then c ^^^ BitVec.ofNat 8 h else c) 0

/-- Outcome of a decode (Table 13-1): clean, one data bit wrong, one check bit wrong, uncorrectable. -/
inductive Decoded where
  | clean
  | data (i : Nat)
  | check
  | bad
  deriving DecidableEq, Repr

/-- The outcome of a syndrome (Table 13-1). -/
def decodeSynd (sy : Byte) : Decoded :=
  if sy = 0 then .clean
  else if ones sy.toNat = 1 then .check
  else match eccColumns.findIdx? (· = sy.toNat) with
    | some i => .data i
    | none => .bad

/-- Whether a syndrome is corrected on delivery (Table 13-1). -/
def correctable (sy : Byte) : Bool :=
  match decodeSynd sy with
  | .data _ => true
  | .check => true
  | _ => false

/-- The word as delivered after decoding (Table 13-1). -/
def corrected (sy : Byte) (w : Word) : Word :=
  match decodeSynd sy with
  | .data i => w ^^^ (1#64 <<< i)
  | _ => w

/-! ### The parts of a site -/

/-- The site's state beyond its registers. -/
def State.site (s : State) (a : Nat) : Site := (aget s.sites a).getD Site.reset

/-- The state with the site's state replaced. -/
def State.setSite (s : State) (a : Nat) (x : Site) : State := { s with sites := aput s.sites a x }

/-- The state with the site's state changed by a function. -/
def State.modSite (s : State) (a : Nat) (f : Site → Site) : State := s.setSite a (f (s.site a))

/-- The sequencer of a site. -/
def State.seq (s : State) (a : Nat) : SeqX := (s.site a).seq
def State.modSeq (s : State) (a : Nat) (f : SeqX → SeqX) : State := s.modSite a (fun x => { x with seq := f x.seq })
/-- The matrix engine of a site. -/
def State.mtx (s : State) (a : Nat) : MtxX := (s.site a).mtx
def State.modMtx (s : State) (a : Nat) (f : MtxX → MtxX) : State := s.modSite a (fun x => { x with mtx := f x.mtx })
/-- The vector engine of a site. -/
def State.vec (s : State) (a : Nat) : VecX := (s.site a).vec
def State.modVec (s : State) (a : Nat) (f : VecX → VecX) : State := s.modSite a (fun x => { x with vec := f x.vec })
/-- A queue of a site. -/
def State.queue (s : State) (a q : Nat) : QueueX := (aget (s.site a).queues q).getD QueueX.reset
def State.modQueue (s : State) (a q : Nat) (f : QueueX → QueueX) : State :=
  s.modSite a (fun x => { x with queues := aput x.queues q (f ((aget x.queues q).getD QueueX.reset)) })
/-- A stream program or thread of a site. -/
def State.str (s : State) (a n : Nat) : StrX := (aget (s.site a).strs n).getD StrX.reset
def State.modStr (s : State) (a n : Nat) (f : StrX → StrX) : State :=
  s.modSite a (fun x => { x with strs := aput x.strs n (f ((aget x.strs n).getD StrX.reset)) })
/-- A steering unit of a site. -/
def State.steer (s : State) (a n : Nat) : SteerX := (aget (s.site a).steers n).getD SteerX.reset
def State.modSteer (s : State) (a n : Nat) (f : SteerX → SteerX) : State :=
  s.modSite a (fun x => { x with steers := aput x.steers n (f ((aget x.steers n).getD SteerX.reset)) })
/-- The synchronisation state of a site. -/
def State.sync (s : State) (a : Nat) : SyncX := (s.site a).sync
def State.modSync (s : State) (a : Nat) (f : SyncX → SyncX) : State := s.modSite a (fun x => { x with sync := f x.sync })
/-- An outgoing link of a site. -/
def State.link (s : State) (a d : Nat) : LinkX := (aget (s.site a).links d).getD LinkX.reset
def State.modLink (s : State) (a d : Nat) (f : LinkX → LinkX) : State :=
  s.modSite a (fun x => { x with links := aput x.links d (f ((aget x.links d).getD LinkX.reset)) })

/-- A section of the Hut's table. -/
def State.sectX? (s : State) (e : Nat) : Option SectX := aget s.hut.sects e
def State.modHut (s : State) (f : HutX → HutX) : State := { s with hut := f s.hut }
def State.modSect (s : State) (e : Nat) (f : SectX → SectX) : State :=
  match aget s.hut.sects e with
  | none => s
  | some x => s.modHut (fun h => { h with sects := aput h.sects e (f x) })

/-- A record of what the device sends out. -/
def State.emit (s : State) (o : Output) : State := { s with out := List.append s.out [o] }

/-- A fresh free value and the state whose counter has moved on. -/
def State.fresh (s : State) : Word × State := (Config.freeValue s.free, { s with free := s.free + 1 })

/-! ### The partition of a site (R315) -/

/-- Whether a column block and row rectangle holds the site: column block k is columns 4k to 4k + 3 (R315). -/
def State.partHolds (s : State) (p a : Nat) : Bool :=
  s.rd F.HUT_PART_ACTIVE 0 p == 1 &&
  (s.rd F.HUT_PART_CB0 0 p ≤ colOf a / 4) && (colOf a / 4 < s.rd F.HUT_PART_CB0 0 p + s.rd F.HUT_PART_NCB 0 p) &&
  (s.rd F.HUT_PART_ROW0 0 p ≤ rowOf a) && (rowOf a < s.rd F.HUT_PART_ROW0 0 p + s.rd F.HUT_PART_NROW 0 p)

/-- The active partition that holds a site. -/
def State.partOf (s : State) (a : Nat) : Option Nat := (List.range 16).find? (fun p => s.partHolds p a)

/-! ### Time (R26 to R29) -/

/-- log2 of the pitch length in force; the 4-bit value 0 stands for 16 (log entry 6). -/
def State.logLen (s : State) : Nat :=
  let v := s.rd F.COL_PITCH_NUM_LOG2_LEN
  if v = 0 then 16 else v

/-- The pitch length L in cycles (R27). -/
def State.pitchLen (s : State) : Nat := 2 ^ s.logLen

/-- The number of the current pitch. -/
def State.pitch (s : State) : Nat := s.rd F.COL_PITCH_NUM_PITCH

/-- Core clock period in thirtieths of a nanosecond at a throttle level (R474): 0.4 ns at level 0. -/
def periodOf (level : Nat) : Nat := [12, 15, 20, 30].getD level 30

/-- One millisecond in the units of `time`. -/
def milli : Nat := 30000000

/-! ### Decodes noted (R342, Table 13-6) -/

/-- A decode that found an error: counted, and logged by the rule of CHK_ECC_LOG: the first event after a read that
cleared MEM, an uncorrectable one overwriting a logged correction (R342, Table 13-6). -/
def State.noteEcc (s : State) (a memCode wordIx : Nat) (sy : Byte) : State :=
  if sy = 0 then s
  else
    let ue := !correctable sy
    let s := s.count (if ue then C.CHK_CNT_UE else C.CHK_CNT_CE) a
    s.note .CHK_ECC_LOG a 0 (fun w =>
      if fieldGet F.CHK_ECC_LOG_MEM w = 0 ∨ (ue ∧ fieldGet F.CHK_ECC_LOG_UE w = 0) then
        setFields [(F.CHK_ECC_LOG_MEM, memCode), (F.CHK_ECC_LOG_UE, ue.toNat), (F.CHK_ECC_LOG_SYND, sy.toNat),
                   (F.CHK_ECC_LOG_WORD, wordIx), (F.CHK_ECC_LOG_PITCH, s.pitch)] w
      else w)

/-- What a decode delivers of `n` protected words held side by side, with their syndromes (8 bits a word) and poison bits (R342,
Table 13-1). -/
def decodeSpan (n synd bits poison : Nat) : Nat × Nat :=
  if synd = 0 then (bits, poison)
  else (List.range n).foldl (fun x k =>
    match decodeSynd (BitVec.ofNat 8 (synd / 2 ^ (8 * k))) with
    | .data i => (x.1 ^^^ 2 ^ (64 * k + i), x.2)
    | .bad => (x.1, x.2 ||| 2 ^ k)
    | _ => x) (bits, poison)

/-- The decodes of `n` words side by side noted; `base` is the index of the first within its memory. -/
def State.noteSpan (s : State) (a memCode base n synd : Nat) : State :=
  if synd = 0 then s
  else (List.range n).foldl (fun s k => s.noteEcc a memCode (base + k) (BitVec.ofNat 8 (synd / 2 ^ (8 * k)))) s

/-! ### Signal counters (R238 to R240) -/

/-- The field of signal counter `c` of a site. -/
def sigFld (c : Nat) : Fld := F.SEQ_SIG_CNT.at 16 (c % 4)

/-- The value of a signal counter. -/
def State.sig (s : State) (a c : Nat) : Nat := s.rd (sigFld c) a (c / 4)

/-- The state with a signal counter set. -/
def State.setSig (s : State) (a c v : Nat) : State := s.wr (sigFld c) a (c / 4) v

/-- An add that reaches a counter in this cycle; it is applied at the cycle's end (R240). -/
def State.sigAdd (s : State) (id n : Nat) : State :=
  { s.count C.SEQ_CNT_SIGADD (id / 32) with
    sigAdds := aput s.sigAdds id (((aget s.sigAdds id).getD 0) + n) }

/-- The adds of one counter applied: the sum saturates at 65,535 with its flag and loss count (R240). -/
def State.applyAdd (s : State) (id n : Nat) : State :=
  let a := id / 32
  let c := id % 32
  let v := s.sig a c + n
  if v ≤ 65535 then s.setSig a c v
  else
    let s := s.setSig a c 65535
    let s := s.count C.SEQ_CNT_SATLOSS a (v - 65535)
    s.note .SEQ_SIG_STATUS a 0 (fun w => if fieldGet F.SEQ_SIG_STATUS_SIG_SAT w = 1 then w
      else setFields [(F.SEQ_SIG_STATUS_FIRST_SAT, c), (F.SEQ_SIG_STATUS_SIG_SAT, 1)] w)

/-- A stream field: that of a Tarn's thread or of a Spur's program. -/
def strFld (a : Nat) (spur tarn : Fld) : Fld := if isTarn a then tarn else spur

/-- One stream credit returned: a return above 16 is ignored and flagged (R190). -/
def State.giveCredit (s : State) (a n : Nat) : State :=
  let f := strFld a F.STR_STATE_CREDITS F.TRN_THR_STATE_CREDITS
  if s.rd f a n ≥ 16 then s.noteFlag (strFld a F.STR_STATE_CRED_OVF F.TRN_THR_STATE_CRED_OVF) a n
  else s.wr f a n (s.rd f a n + 1)

/-- The SEND_RING queue of a site that consumes a signal counter (R230, R241). -/
def State.ringOf (s : State) (a c : Nat) : Option Nat :=
  (List.range 32).find? (fun q => s.rd F.QUE_CFG_ROLE a q == 5 && s.rd F.QUE_PAR_SCNT a q == c)

/-- A ring's sender consumes the whole value of its counter, and its RCRED rises by that amount (R241). -/
def State.ringConsume (s : State) (id : Nat) : State :=
  let a := id / 32
  match s.ringOf a (id % 32) with
  | some q => (s.wr F.QUE_STAT_RCRED a q (s.rd F.QUE_STAT_RCRED a q + s.sig a (id % 32))).setSig a (id % 32) 0
  | none => s

/-- The state of a section (Table 12-6): 1 Staged, 2 Armed, 3 Running, 4 Paused, 5 Saved, 6 Halted, 7 Done, 8 Failed. -/
def State.sectState (s : State) (e : Nat) : Nat := s.rd F.HUT_SECT_STATE 0 e

/-- Bit of site `a` in word a / 64 of barrier b's MEMBERS or ARRIVED. -/
def State.barBit (s : State) (r : RegName) (b a : Nat) : Bool := (s.word r 0 (4 * b + a / 64)).getLsbD (a % 64)

/-- The final barrier of a section that holds its region has released (R330): Running, Paused, Halted, or Armed by a
restore, whose held arrivals are offered again (R252). -/
def State.noteRelease (s : State) (part b : Nat) : State :=
  let hit (x : Nat × SectX) : Bool := x.1 / 32 == part && x.2.img.finalBar == b &&
    [2, 3, 4, 6].contains (s.sectState x.1)
  s.modHut (fun h =>
    { h with sects := h.sects.map (fun x => if hit x then (x.1, { x.2 with released := true }) else x) })

/-- Sites on which a release acts (R249): the members, and every other site of the partition whose flag is set. -/
def State.releaseTo (s : State) (part b : Nat) : List Nat :=
  allSites.filter (fun a => s.barBit .COL_BAR_MEM b a ||
    (s.partHolds part a && (BitVec.ofNat 64 (s.rd F.SEQ_BARFLAG_FLAGS a)).getLsbD b))

/-- The release of a barrier emitted (R247, R249): COUNT and ARRIVED return to 0, GEN rises, and the release is on its way. -/
def State.emitRelease (s : State) (b part : Nat) : State :=
  let dest := s.releaseTo part b
  let s := (List.range 4).foldl (fun s k => s.setWord .COL_BAR_ARR 0 (4 * b + k) 0) s
  let s := (s.wr F.COL_BAR_COUNT 0 b 0).wr F.COL_BAR_GEN 0 b (s.rd F.COL_BAR_GEN 0 b + 1)
  let s := (s.count C.COL_CNT_RELEASE).noteRelease part b
  { s with ctl := List.append s.ctl [.release b part dest], col := { s.col with due := none } }

/-- The signal counters that SEND_RING queues consume: the SCNT of each (R241). -/
def State.ringCounters (s : State) : List Nat :=
  (s.regs.filter (fun x => x.1.reg == .QUE_CFG && fieldGet F.QUE_CFG_ROLE x.2 == 5)).map
    (fun x => 32 * x.1.a + s.rd F.QUE_PAR_SCNT x.1.a x.1.i)

/-- The end of a core cycle: ring senders consume, the adds of the cycle are applied, a local signal's add moves to the
next cycle, and stream credits return (R190, R240 to R242). A counter that a host has written keeps what was written (R7). -/
def State.endCycle (s : State) : State :=
  let own (id : Nat) : Bool := s.hostSigs.contains id
  let s0 := (s.ringDue.filter (fun id => !own id)).foldl (fun s id => s.ringConsume id) { s with ringDue := [], evs := [], hostSigs := [], padOld := [] }
  let adds := s.sigAdds.filter (fun x => !own x.1)
  let s1 := adds.foldl (fun s x => s.applyAdd x.1 x.2) { s0 with sigAdds := [], sigNext := [] }
  let s1 : State := { s1 with ringDue := (dedup s1.ringCounters).filter (fun id => s1.sig (id / 32) (id % 32) != 0) }
  let s2 := s.sigNext.foldl (fun s x => s.sigAdd x.1 x.2) s1
  let s3 := s.credNext.foldl (fun s x => s.giveCredit (x.1 / 16) (x.1 % 16)) { s2 with credNext := [] }
  let s4 := match s.col.due with
    | some (b, part) => s3.emitRelease b part
    | none => s3
  { s4 with cycle := s4.cycle + 1, cycles := s4.cycles + 1, time := s4.time + periodOf (s4.rd F.PWR_THERM_LEVEL) }

/-- Sites with an outgoing link whose added delay D is not 0 (R373). -/
def State.delayed (s : State) : List Nat :=
  ((s.regs.filter (fun x => x.1.reg == .TRV_LINK_STATE)).map (fun x => x.1.a)).filter (fun a =>
    (List.range 4).any (fun d => s.rd (F.TRV_LINK_STATE_DELAY.at 16 d) a != 0))

/-- The cycles of `n` counted at every site with an added delay (TRV_CNT_DELAY); the sites' counters stand still in
Bivouac (R470). -/
def State.countDelay (s : State) (n : Nat) : State :=
  if s.rd F.PWR_BIVOUAC_STATE ≠ 0 then s
  else s.delayed.foldl (fun s a => s.count C.TRV_CNT_DELAY a n) s

/-- The clock moved on by `n` core cycles at whose ends nothing waits. -/
def State.skip (s : State) (n : Nat) : State :=
  { s with cycle := s.cycle + n, cycles := s.cycles + n, time := s.time + n * periodOf (s.rd F.PWR_THERM_LEVEL) }

/-- `n` core cycles pass. The ends of the first three settle all that waits for a cycle's end. -/
def State.elapse (s : State) : Nat → State
  | 0 => s
  | 1 => s.endCycle
  | 2 => s.endCycle.endCycle
  | n + 3 => s.endCycle.endCycle.endCycle.skip n

/-- `n` core cycles pass, and added delays are counted. -/
def State.pass (s : State) (n : Nat) : State := (s.countDelay n).elapse n

/-- Whether time may go on to cycle t of the pitch: a self-test that runs ends by cycle 48, for it takes at most 48 c of the
boundary window from cycle 0 on (R33, Example 01-1). -/
def State.testsAllow (s : State) (t : Nat) : Bool := s.hut.testing.isEmpty || decide (t ≤ 48)

/-- Whether a command may take place in cycle t of the pitch: the cycle is not past and lies in the pitch. -/
def State.reaches (s : State) (t : Nat) : Bool := decide (s.cycle ≤ t) && decide (t < s.pitchLen) && s.testsAllow t

/-- The state when cycle t of the pitch is reached. -/
def State.at_ (s : State) (t : Nat) : State := if t ≤ s.cycle then s else s.pass (t - s.cycle)

/-! ### Arbiters (R231, Table 07-8) -/

/-- The number of an arbiter's requesters. -/
def ArbKey.size : ArbKey → Nat
  | .tarnPort _ _ => 2
  | .couPort _ _ => 16
  | .couHalf _ _ => 9
  | .lanes _ _ => 2
  | .streamLane _ _ => 32
  | _ => 5

/-- The site whose arbiter it is; a couloir's is none's. -/
def ArbKey.site? : ArbKey → Option Nat
  | .bank a _ => some a
  | .tarnPort a _ => some a
  | .couPort a _ => some a
  | .couHalf _ _ => none
  | .lanes a _ => some a
  | .streamLane a _ => some a
  | .ctlOut a _ => some a
  | .svcOut a _ => some a
  | .agent a => some a

/-- An arbiter: its pointer starts at requester 0, which Table 07-8 lists first. -/
def State.arb (s : State) (k : ArbKey) : ArbX := (aget s.arbs k).getD ⟨0, 0, []⟩

/-- The first of some requesters from an arbiter's pointer on. -/
def State.arbFirst (s : State) (k : ArbKey) (l : List Nat) : Option Nat :=
  ((List.range k.size).map (fun i => ((s.arb k).ptr + i) % k.size)).find? (fun r => l.contains r)

/-- Whether an arbiter grants the requester now: it has not granted in this cycle, and of the requester and those that wait the
requester is first from the pointer on. -/
def State.mayTake (s : State) (k : ArbKey) (r : Nat) : Bool :=
  decide ((s.arb k).free ≤ s.cycles) && s.arbFirst k (r :: (s.arb k).waits.map Prod.fst) == some r

/-- Refusals of a requester up to now counted; only a scratchpad bank has a counter of them (R180). -/
def State.countRefusals (s : State) (k : ArbKey) (n : Nat) : State :=
  match k with
  | .bank a _ => s.count C.STR_CNT_BANKWAIT a n
  | _ => s

/-- A grant for n cycles: the pointer moves past the requester (R231). -/
def State.take (s : State) (k : ArbKey) (r n : Nat) : State :=
  let x := s.arb k
  let s := match aget x.waits r with
    | some t => s.countRefusals k (s.cycles - t)
    | none => s
  { s with arbs := aput s.arbs k ⟨(r + 1) % k.size, s.cycles + n, adel x.waits r⟩ }

/-- A refusal: the requester keeps its request and waits. -/
def State.refuse (s : State) (k : ArbKey) (r : Nat) : State :=
  let x := s.arb k
  if (aget x.waits r).isSome then s else { s with arbs := aput s.arbs k { x with waits := aput x.waits r s.cycles } }

/-- What a command asks of an arbiter: the requester it stands for and the cycles its access takes. -/
structure Ask where
  key : ArbKey
  who : Nat
  n : Nat
  deriving DecidableEq, Repr

/-- Every arbiter a command meets grants, or it waits at those that do not (R231). Requests that meet for the first time in one cycle
are granted in the order in which the commands bring them (log entry 34). -/
def State.askAll (s : State) (l : List Ask) : Bool × State :=
  if l.all (fun x => s.mayTake x.key x.who) then (true, l.foldl (fun s x => s.take x.key x.who x.n) s)
  else (false, (l.filter (fun x => !s.mayTake x.key x.who)).foldl (fun s x => s.refuse x.key x.who) s)

/-- Refusals counted up to now at every arbiter. -/
def State.settleArbs (s : State) : State :=
  s.arbs.foldl (fun s y =>
    let s := y.2.waits.foldl (fun s w => s.countRefusals y.1 (s.cycles - w.2)) s
    { s with arbs := aput s.arbs y.1 { y.2 with waits := y.2.waits.map (fun w => (w.1, s.cycles)) } }) s

/-! ### Ranges of written fields -/

/-- Whether a write may give a field a value: the ranges its Meaning column states. -/
def State.fieldTakes (s : State) (f : Fld) (a i v : Nat) : Bool :=
  if f = F.CHK_CTRL_UNDECIDED then decide (v ≤ 1)
  else if f = F.QUE_PAR_DETACH then decide (v ≤ 64)
  else if f = F.QUE_PAR_RLOG2 then decide (10 ≤ v)
  else if f = F.TRN_PF_CTRL_THREADS then
    decide (v ≤ 8) && (List.range 16).all (fun n =>
      decide (n < 16 - max v (s.rd F.TRN_PF_CTRL_THREADS a)) || s.rd F.TRN_THR_STATE_STATE a n == 0)
  else if f = F.HUT_HEALTH_CTRL_HEALTHY_LOG2 then decide (10 ≤ v) && decide (v ≤ 20)
  else if f = F.MEM_SCRUB_INTERVAL then decide (1024 ≤ v)
  else if f = F.PWR_THERM_LIMIT_W then decide (300 ≤ v) && decide (v ≤ 1200)
  else if f = F.TAL_LIST_EN then s.rd F.TAL_DIG_STATE 0 i != 1
  else if [F.HUT_HEALTH_CTRL_WATCH_PERIOD, F.HUT_HEALTH_CTRL_WATCH_CLEAN, F.GATE_LANE_HEALTH_LANE_SER_MAX,
      F.MEM_RETIRE_CFG_UE_WIN_MS, F.MEM_RETIRE_CFG_RETRAIN_MAX, F.CFG_CLAIM_SECT_MS].contains f then v != 0
  else true

/-! ### Sections and jobs -/

/-- The section that holds a site, as 32 × partition + entry. -/
def State.sectOf (s : State) (a : Nat) : Option Nat := (s.site a).sect

/-- Whether the site's section is Running. -/
def State.running (s : State) (a : Nat) : Bool :=
  match s.sectOf a with
  | some e => s.sectState e == 3
  | none => false

/-- Whether the engines of a site go on: its section is Running, or a referee's run is on it (R355). What a save found in
the engines behind an undecided tile or row goes on when the section runs again (R30, R335). -/
def State.engineOn (s : State) (a : Nat) : Bool := s.running a || s.hut.refs.any (fun r => r.running && r.referee == some a)

/-- The job of a section. -/
def State.jobOf (s : State) (e : Nat) : Nat := s.rd F.HUT_SECT_JOB 0 e

/-- A failure set for the job of the site's section, to take effect at step 3 of the next boundary: class, code and
the DETAIL of Table 16-7. -/
def State.failSite (s : State) (a cls code : Nat) (prog : Nat := 0) (addr : Nat := 0) : State :=
  match s.sectOf a with
  | none => s
  | some e =>
    s.modHut (fun h => { h with fails := List.append h.fails [⟨e / 32, s.jobOf e, cls, code, a, prog, addr, none⟩] })

end Sys2Proof.Machine
end

