-- ==== Sys2Proof/Machine/Queues.lean ====
section
/-! DEFINITION. Hardware queues (R208 to R212): positions, credits, pushing and popping, and what the opening of a
dynamic connection begins with (R224). -/

namespace Sys2Proof.Machine

/-- A queue or signal counter identifier (R12, R238). -/
def qid (a q : Nat) : Nat := a * 32 + q

/-- The role of a queue (Table 07-4): 0 LOCAL, 1 SEND, 2 RECV, 3 SEND_DYN, 4 RECV_DYN, 5 SEND_RING, 6 RECV_RING,
7 SEND_MCAST. -/
def State.role (s : State) (a q : Nat) : Nat := s.rd F.QUE_CFG_ROLE a q

/-- Entries at the head that were written before this core cycle: a position not yet written holds every position
behind it (R208), and an entry may be popped from the cycle after its writing (R211). -/
def readyRun (now : Nat) : List QItem → List Entry
  | .entry e t :: l => if t < now then e :: readyRun now l else []
  | _ => []

/-- The entries that can be popped now, from the head. -/
def State.qHeads (s : State) (a q : Nat) : List Entry := readyRun s.cycles (s.queue a q).items

/-- How many entries can be popped now: what QTRY and SEL take a queue to hold. DESIGN CHOICE (log entry 109): an entry written in
this cycle, or behind a position not yet written, does not count (R158, R166). -/
def State.qReady (s : State) (a q : Nat) : Nat := (s.qHeads a q).length

/-- Whether a position holds an entry. -/
def QItem.isEntry : QItem → Bool
  | .entry _ _ => true
  | _ => false

/-- Entries the queue holds (QUE_STAT.ENTRIES). -/
def State.qEntries (s : State) (a q : Nat) : Nat := ((s.queue a q).items.filter QItem.isEntry).length

/-- Free positions of the 64 that are not allocated (R208). -/
def State.qFree (s : State) (a q : Nat) : Nat := 64 - (s.queue a q).items.length

/-- Credits reserved by QTRY (R159). -/
def State.qResv (s : State) (a q : Nat) : Nat := s.rd F.QUE_STAT_RESV a q

/-- Unreserved credits: what steering units, SIG and a further QTRY may use (R158, R159, R208). -/
def State.qUnres (s : State) (a q : Nat) : Nat := s.qFree a q - s.qResv a q

/-- The connection identifier of a queue: GEN × 32 + queue number (R228). -/
def State.connId (s : State) (a q : Nat) : Nat := s.rd F.QUE_STAT_GEN a q * 32 + q

/-- Kinds of connection messages (Table 07-6). -/
def kProbe : Nat := 1
def kReply : Nat := 2
def kRefuseSlot : Nat := 3
def kRefusePeer : Nat := 4
def kCommit : Nat := 5
def kClose : Nat := 6

/-- A connection message of a queue, with the queue it goes to and its identifier, placed in the queue's holder (R218). -/
def State.connOut (s : State) (a q kind dst conn : Nat) : State :=
  s.modSync a (fun y => { y with connOut := aput y.connOut q ⟨kind, dst, conn⟩ })

/-- A queue's connection has been other than idle in this pitch (R227). -/
def State.touch (s : State) (a q : Nat) : State := s.modQueue a q (fun x => { x with touched := true })

/-- The opening of a closed dynamic connection: GEN rises, the PROBE waits for the control plane (R224, R228). -/
def State.openDyn (s : State) (a q : Nat) : State :=
  if s.role a q == 3 && s.rd F.QUE_STAT_CSTATE a q == 0 then
    let s := s.wr F.QUE_STAT_GEN a q (s.rd F.QUE_STAT_GEN a q + 1)
    let s := s.wr F.QUE_STAT_CSTATE a q 1
    let s := s.modQueue a q (fun x => { x with probe := some ⟨[], [], []⟩ })
    s.connOut a q kProbe (s.rd F.QUE_CFG_PEER a q) (s.connId a q)
  else s

/-- Positions allocated at the queue's tail (R208), which may begin the opening of its connection (R224). -/
def State.qAlloc (s : State) (a q : Nat) (l : List QItem) : State :=
  let s := s.modQueue a q (fun x => { x with items := List.append x.items l, allocd := x.allocd + l.length, touched := x.touched || !l.isEmpty })
  if l.length = 0 then s else s.openDyn a q

/-- One entry pushed by a steering unit or an inbound connection: allocated and written in this cycle. -/
def State.qPush (s : State) (a q : Nat) (e : Entry) : State := s.qAlloc a q [.entry e s.cycles]

/-- The first allocated position not yet written takes an entry. -/
def fillHole (now : Nat) (e : Entry) : List QItem → List QItem
  | [] => []
  | .hole :: l => .entry e now :: l
  | x :: l => x :: fillHole now e l

/-- The vector engine's push of a row's entry into its allocated position (R115, R208). -/
def State.qFill (s : State) (a q : Nat) (e : Entry) : State :=
  s.modQueue a q (fun x => { x with items := fillHole s.cycles e x.items })

/-- One popped entry owes one credit to the far end: with a return flit, or for a leaf of a tree on the control plane
(R212, R221). -/
def State.oweCredit (s : State) (a q : Nat) : State :=
  let r := s.role a q
  if r == 2 || r == 4 then
    let peer := s.rd F.QUE_CFG_PEER a q
    if s.role (peer / 32) (peer % 32) == 7 then
      s.modSync a (fun y => { y with creditOut := aput y.creditOut q ((aget y.creditOut q).getD 0 + 1) })
    else s.modQueue a q (fun x => { x with credRet := x.credRet + 1 })
  else s

/-- An empty entry. -/
def Entry.zero : Entry := ⟨0, 0, 0⟩

/-- Whether any word of an entry is poisoned. -/
def Entry.poisoned (e : Entry) : Bool := e.poison != 0

/-- An entry as a decode delivers it (R342). -/
def Entry.decode (e : Entry) : Entry :=
  let x := decodeSpan 8 e.synd.toNat e.bits.toNat e.poison.toNat
  ⟨BitVec.ofNat 512 x.1, BitVec.ofNat 8 x.2, 0⟩

/-- The first word of the head position within the site's queue memory: 64 entries of eight words a queue, taken in the order of
allocation. -/
def State.headWord (s : State) (a q : Nat) : Nat :=
  512 * q + 8 * (((s.queue a q).allocd - (s.queue a q).items.length) % 64)

/-- The head entry popped, when it can be, and decoded (R342): a GAP marker waits for one entry fewer (R223). -/
def State.qPop (s : State) (a q : Nat) : Option Entry × State :=
  match s.qHeads a q with
  | [] => (none, s)
  | e :: _ =>
    let s := (s.noteSpan a 4 (s.headWord a q) 8 e.synd.toNat).modQueue a q (fun x =>
      { x with items := x.items.drop 1, gap := x.gap.map (fun g => (g.1 - 1, g.2)) })
    (some e.decode, s.oweCredit a q)

/-- `n` entries popped, oldest first. -/
def State.qPops (s : State) (a q : Nat) : Nat → List Entry × State
  | 0 => ([], s)
  | n + 1 =>
    match s.qPop a q with
    | (none, s) => ([], s)
    | (some e, s) => let (l, s) := s.qPops a q n; (e :: l, s)


end Sys2Proof.Machine
end

