-- ==== Sys2Proof/Machine/Links.lean ====
section
/-! DEFINITION. The links of the Traverse (R203 to R205, R212 to R219, R373 to R377): routes, local slots, the replay buffer and the
hold line, the control plane and its FIFOs, service words, and the ends of connections. -/

namespace Sys2Proof.Machine

/-! ### The grid (R10, R22, R217) -/

/-- The site one hop away, when the link joins two sites (R22). -/
def neighbour (a : Nat) : Dir → Option Nat
  | .n => if rowOf a = 0 then none else some (a - 16)
  | .s => if rowOf a = 15 then none else some (a + 16)
  | .w => if colOf a = 0 then none else some (a - 1)
  | .e => if colOf a = 15 then none else some (a + 1)

/-- The four directions, in the order of TRV_OUTd. -/
def allDirs : List Dir := [.n, .e, .s, .w]

/-- Links along a row, then along a column, as (site, direction): XY routing (R217). -/
def routeXY (a b : Nat) : List (Nat × Dir) :=
  let c0 := colOf a
  let c1 := colOf b
  let r0 := rowOf a
  let r1 := rowOf b
  let xs := if c0 ≤ c1 then (List.range (c1 - c0)).map (fun i => (siteAt (c0 + i) r0, Dir.e))
    else (List.range (c0 - c1)).map (fun i => (siteAt (c0 - i) r0, Dir.w))
  let ys := if r0 ≤ r1 then (List.range (r1 - r0)).map (fun i => (siteAt c1 (r0 + i), Dir.s))
    else (List.range (r0 - r1)).map (fun i => (siteAt c1 (r0 - i), Dir.n))
  List.append xs ys

/-- Column first (R377). -/
def routeYX (a b : Nat) : List (Nat × Dir) :=
  let m := siteAt (colOf a) (rowOf b)
  List.append (routeXY a m) (routeXY m b)

/-- The reverse links of a path, from its far end. -/
def reverseRoute (l : List (Nat × Dir)) : List (Nat × Dir) :=
  l.reverse.filterMap (fun x => (neighbour x.1 x.2).map (fun b => (b, x.2.opp)))

/-- State of an outgoing link: 0 active, 1 marked, 2 retired, 3 dead (Table 14-10). -/
def State.linkState (s : State) (a : Nat) (d : Dir) : Nat := s.rd (F.TRV_LINK_STATE_STATE.at 16 d.num) a
def State.setLink (s : State) (a : Nat) (d : Dir) (v : Nat) : State := s.wr (F.TRV_LINK_STATE_STATE.at 16 d.num) a 0 v
/-- Added delay of a link in frames (R373). -/
def State.linkDelay (s : State) (a : Nat) (d : Dir) : Nat := s.rd (F.TRV_LINK_STATE_DELAY.at 16 d.num) a
def State.setDelay (s : State) (a : Nat) (d : Dir) (v : Nat) : State := s.wr (F.TRV_LINK_STATE_DELAY.at 16 d.num) a 0 v

/-- Whether a path crosses a dead link. -/
def State.deadPath (s : State) (l : List (Nat × Dir)) : Bool := l.any (fun x => s.linkState x.1 x.2 == 3)

/-- The path of a control or service word: XY, YX where a link of the XY path is dead, none where both are (R377). -/
def State.ctlRoute (s : State) (a b : Nat) : Option (List (Nat × Dir)) :=
  if !s.deadPath (routeXY a b) then some (routeXY a b)
  else if !s.deadPath (routeYX a b) then some (routeYX a b)
  else none

/-! ### Slots (R204, R215) -/

/-- Core cycle in which the present pitch began. -/
def State.pitchStart (s : State) : Nat := s.cycles - s.cycle

/-- The local slot of the links leaving a site in core cycle x: the cycle of the pitch less two for each column and row, mod 16
(R204). Pitch lengths are multiples of 16, and 80 keeps the difference positive. -/
def State.localSlot (s : State) (a x : Nat) : Nat := (x + 80 - s.pitchStart % 16 - 2 * (colOf a + rowOf a)) % 16

/-- The first core cycle from x on in which the links leaving a site are in local slot n. -/
def State.nextSlot (s : State) (a n x : Nat) : Nat := x + (n + 16 - s.localSlot a x) % 16

/-- Source code of local slot n of a link (Table 07-9). -/
def State.slotSrc (s : State) (a : Nat) (d : Dir) (n : Nat) : Nat := s.rd (F.TRV_OUT_SRC.at 4 n) a d.num
def State.setSlot (s : State) (a : Nat) (d : Dir) (n v : Nat) : State := s.wr (F.TRV_OUT_SRC.at 4 n) a d.num v

/-! ### Sending on a link (R373, R374) -/

/-- Flits counted by the role of their slot (Table 07-14); control messages are counted one by one (R217). -/
def State.countFlits (s : State) (a slot n : Nat) : State :=
  if slot < 14 then s.count C.TRV_CNT_DATA a n
  else if slot = 15 then s.count C.TRV_CNT_SVC a n
  else s

/-- A flit leaves on a link in core cycle t: it takes the next LSEQ and enters the replay buffer, which keeps the flits of the last 32
cycles. -/
def State.launchAt (s : State) (a : Nat) (d : Dir) (t : Nat) (f : Flit) : State :=
  let h := { f.hdr with lseq := BitVec.ofNat 6 (s.link a d.num).lseq }
  let g : Flit := { f with hdr := h }
  let g : Flit := { g with crc := crc32c g.string }
  let s := if f.hdr.kind = 0 then s
    else s.countFlits a f.slot.toNat 1
  s.modLink a d.num (fun l =>
    let r := List.append (l.replay.filter (fun x => decide (t < x.at_ + 32))) [⟨t, g⟩]
    { l with replay := r.drop (r.length - 32), lseq := (l.lseq + 1) % 64 })

/-- The flits of the hold line that have left it: each leaves D frames after it reached the output (R373, R374). -/
def State.drain (s : State) (a : Nat) (d : Dir) : State :=
  let n := 16 * s.linkDelay a d
  let l := (s.link a d.num).hold
  let left (x : TimedFlit) : Bool := decide (x.at_ + n < s.cycles)
  if l.isEmpty then s
  else
    (l.filter left).foldl (fun s x => s.launchAt a d (x.at_ + n) x.flit)
      (s.modLink a d.num (fun l => { l with hold := l.hold.filter (fun x => !left x) }))

/-- The hold lines of a site's links. -/
def State.drainSite (s : State) (a : Nat) : State := allDirs.foldl (fun s d => s.drain a d) s

/-- A flit reaches an output: it leaves at once, or through the hold line while D is above 0 (R373, R374). A dead link
carries nothing (R375). -/
def State.sendOn (s : State) (a : Nat) (d : Dir) (f : Flit) : State :=
  if s.linkState a d = 3 then s
  else if s.linkDelay a d = 0 then s.launchAt a d s.cycles f
  else
    let s := s.drain a d
    let now := s.cycles
    s.modLink a d.num (fun l => { l with hold := List.append l.hold [⟨now, f⟩] })

/-- A header-only flit of a message that the model carries by its contents; the manual gives its payload no layout. -/
def bareFlit (src part kind conn : Nat) (slot : Nat) : Flit :=
  ⟨⟨BitVec.ofNat 8 src, BitVec.ofNat 4 part, BitVec.ofNat 3 kind, BitVec.ofNat 12 conn, 0, 0, 0⟩,
   List.replicate 16 ⟨0, 0, false⟩, 0, BitVec.ofNat 4 slot⟩

/-- The partition number a site's words carry (R214). -/
def State.partNo (s : State) (a : Nat) : Nat := (s.partOf a).getD 0

/-- The list without the first element that satisfies a test. -/
def dropFirst {α : Type} (p : α → Bool) : List α → List α
  | [] => []
  | x :: l => if p x then l else x :: dropFirst p l

/-- A control message has arrived: it is no longer on its way. -/
def State.tookCtl (s : State) (p : CtlMsg → Bool) : State := { s with ctl := dropFirst p s.ctl }

/-- A word discarded because the site's partition is not its sender's (R214). -/
def State.crossPart (s : State) (a part : Nat) : Bool := s.partOf a != some part

/-! ### The control plane (R217) -/

/-- The core cycle from y on, in steps of a frame, in which a message of a control FIFO leaves: a flit carries 8 messages, and the
FIFO it goes on to holds 32. -/
def ctlLeave (fifo onward : List CtlWait) : Nat → Nat → Nat
  | 0, y => y
  | n + 1, y =>
    if (fifo.filter (fun w => w.leaves == y)).length ≥ 8 || (onward.filter (fun w => decide (y + 2 ≤ w.leaves))).length ≥ 32 then
      ctlLeave fifo onward n (y + 16)
    else y

/-- The messages that stand in the control FIFO of an output link, or are to reach it. -/
def State.ctlFifo (s : State) (a : Nat) (d : Dir) : List CtlWait :=
  (s.link a d.num).ctl.filter (fun w => decide (s.cycles ≤ w.leaves))

/-- The first input that the control arbiter of an output link grants in a cycle: its pointer has moved past the input granted last
before that cycle (Table 07-8). -/
def State.ctlPtr (s : State) (a : Nat) (d : Dir) (x : Nat) : Nat :=
  match ((s.link a d.num).ctl.filter (fun w => decide (w.at_ < x))).getLast? with
  | some w => (w.from_ + 1) % 5
  | none => (s.arb (.ctlOut a d.num)).ptr

/-- The first cycle from x on in which no message is granted the output, for the arbiter grants one a cycle. -/
def ctlFree (l : List CtlWait) : Nat → Nat → Nat
  | 0, x => x
  | n + 1, x => if l.any (fun w => w.at_ == x) then ctlFree l n (x + 1) else x

/-- One router of a control message's path: it reaches the output in cycle x from input k, stands in its FIFO and leaves in the next
local slot 14 with room, in one flit with the messages that leave then. The core cycle in which it leaves. A message of the site
itself, once granted, goes before one that reaches the output in the same cycle. -/
def State.ctlHop (s : State) (a : Nat) (d : Dir) (onward : List CtlWait) (f : Flit) (x k : Nat) : Nat × State :=
  let fifo := s.ctlFifo a d
  let fifo := if k = 4 then fifo.map (fun w => if w.at_ = x then { w with at_ := x + 1 } else w) else fifo
  let x := if k = 4 then x else ctlFree fifo 64 x
  let y := ctlLeave fifo onward 64 (s.nextSlot a 14 (fifo.foldl (fun m w => max m w.leaves) x))
  let ptr := s.ctlPtr a d s.cycles
  let s := s.count C.TRV_CNT_CTRL a
  let s := if fifo.any (fun w => w.leaves == y) then s else s.sendOn a d f
  let s : State := { s with arbs := aput s.arbs (.ctlOut a d.num) ⟨ptr, 0, []⟩ }
  (y, s.modLink a d.num (fun l => { l with ctl := List.append fifo [⟨x, k, y⟩] }))

/-- A control message passes the routers of its path. -/
def State.ctlPass (s : State) (f : Flit) : List (Nat × Dir) → Nat → Nat → State
  | [], _, _ => s
  | (a, d) :: l, x, k =>
    let onward := match l with
      | (b, k) :: _ => s.ctlFifo b k
      | [] => []
    let (y, s) := s.ctlHop a d onward f x k
    s.ctlPass f l (y + 2) d.opp.num

/-- Whether a site's own message enters the control FIFO of its first link in this cycle: the FIFO has room, and the arbiter grants
the site's input (R217, R218). -/
def State.ctlAdmits (s : State) (a b : Nat) : Bool :=
  match s.ctlRoute a b with
  | some ((x, d) :: _) =>
    let fifo := s.ctlFifo x d
    let here := (fifo.filter (fun w => w.at_ == s.cycles)).map CtlWait.from_
    decide (fifo.length < 32) && !here.contains 4 &&
      ((List.range 5).map (fun i => (s.ctlPtr x d s.cycles + i) % 5)).find? (fun r => (4 :: here).contains r) == some 4
  | _ => true

/-- A control message sent from a site to another: it is on its way, or has no path and is dropped (R377). -/
def State.sendCtl (s : State) (a b : Nat) (m : CtlMsg) : State :=
  match s.ctlRoute a b with
  | some l =>
    let s := s.ctlPass (bareFlit a (s.partNo a) 3 0 14) l s.cycles 4
    { s with ctl := List.append s.ctl [m] }
  | none => s.count C.TRV_CNT_DEADDROP a

/-! ### Service words (R219) -/

/-- n like flits leave on a link one after the other: the replay buffer keeps the last 32. -/
def State.launchRun (s : State) (a : Nat) (d : Dir) (f : Flit) (n : Nat) : State :=
  let m := min n 32
  if s.linkState a d = 3 then s
  else
    let s := (s.countFlits a f.slot.toNat (n - m)).modLink a d.num (fun l => { l with lseq := (l.lseq + (n - m)) % 64 })
    (List.range m).foldl (fun s _ => s.sendOn a d f) s

/-- Service flits over a path, store and forward: the arbiter of each output grants the input they come from (0 the site itself, 1 to 4
N, E, S, W). One command moves a whole transfer, so transfers that meet are granted in the order of their commands (DESIGN CHOICE, log
entry 121). -/
def State.sendSvc (s : State) (f : Flit) (n : Nat) : List (Nat × Dir) → Nat → State
  | [], _ => s
  | (a, d) :: l, k => ((s.take (.svcOut a d.num) k 0).launchRun a d f n).sendSvc f n l (1 + d.opp.num)

/-- A service flit (KIND 4) of a site. -/
def State.svcFlit (s : State) (a : Nat) : Flit := bareFlit a (s.partNo a) 4 0 15

/-- Flits of 128 B that n bytes take. -/
def flitsOf (n : Nat) : Nat := (n + 127) / 128

/-- n bytes sent from a site to another over the service plane; without a path they are dropped (R377). -/
def State.svcTo (s : State) (a b n : Nat) : State :=
  match s.ctlRoute a b with
  | some l => s.sendSvc (s.svcFlit a) (flitsOf n) l 0
  | none => s.count C.TRV_CNT_DEADDROP a

/-- The site of a row next to the configuration controller, which attaches to its east link (R22). -/
def edgeOf (a : Nat) : Nat := siteAt 15 (rowOf a)

/-- n bytes of the configuration controller enter a site's row through the east link of its column-15 site (R328). -/
def State.svcIn (s : State) (a n : Nat) : State :=
  s.sendSvc (s.svcFlit (edgeOf a)) (flitsOf n) (routeXY (edgeOf a) a) (1 + Dir.e.num)

/-- n bytes of a site leave its row through the east link of its column-15 site (R359). -/
def State.svcOut (s : State) (a n : Nat) : State :=
  s.sendSvc (s.svcFlit a) (flitsOf n) (List.append (routeXY a (edgeOf a)) [(edgeOf a, Dir.e)]) 0

/-- The save Tarn of a site (R316). -/
def saveTarn (a : Nat) : Nat := if isTarn a then a else siteAt ([1, 5, 10, 14].getD (colOf a / 4) 1) (rowOf a)

/-! ### Ends of connections (R204, R210, R215) -/

/-- Whether a role is a receiving one. -/
def isRecvRole (r : Nat) : Bool := r == 2 || r == 4 || r == 6

/-- The connection identifier that words of a queue's connection carry: GEN × 32 + the number of the sending queue
(R228). -/
def State.connOf (s : State) (a q : Nat) : Nat :=
  if isRecvRole (s.role a q) then
    let n := match (s.queue a q).bound with
      | some (src, _) => src % 32
      | none => s.rd F.QUE_CFG_PEER a q % 32
    s.rd F.QUE_STAT_GEN a q * 32 + n
  else s.connId a q

/-- The site that words of a queue's connection come from (R351): that of PEER, or of the dynamic connection a receiving
queue is bound to. -/
def State.farSite (s : State) (a q : Nat) : Nat :=
  match (s.queue a q).bound with
  | some (src, _) => src / 32
  | none => s.rd F.QUE_CFG_PEER a q / 32

/-- The slots one circuit owns on its links, as (site, direction, slot, class 2 code): local injection at its first
router, then the input the word came from (R215). -/
def circuitSlots : List (Nat × Dir) → Nat → Nat → List (Nat × Nat × Nat × Nat)
  | [], _, _ => []
  | (a, d) :: l, n, code =>
    (a, d.num, n, code) :: circuitSlots l (if d == .w || d == .n then (n + 4) % 16 else n) (9 + d.opp.num)

/-- The outgoing link of a connection end: OLINK, or the first link of a dynamic connection's route or of its way back. -/
def State.outLink (s : State) (a q : Nat) : Dir :=
  let first (l : List (Nat × Dir)) : Dir := (l.head?.map Prod.snd).getD .n
  match s.role a q with
  | 3 => first (routeXY a (s.farSite a q))
  | 4 => first (reverseRoute (routeXY (s.farSite a q) a))
  | _ => allDirs.getD (s.rd F.QUE_CFG_OLINK a q) .n

/-- The slots of the dynamic connection of an end: forward and return, as local slots of each circuit's first link (R225). -/
def State.dynSlots (s : State) (a q : Nat) : Option (Nat × Nat) :=
  if s.role a q = 4 then
    match (s.queue a q).bound with
    | some (src, _) => (s.queue (src / 32) (src % 32)).slots
    | none => none
  else (s.queue a q).slots

/-- Whether a connection end may send in local slot n of its link: the slot is its own, and the router injects it there (codes 5 and
13, R215). A dynamic connection sends from its opening on, while its COMMIT is still on the way and the slot is held (R225). -/
def State.ownSlot (s : State) (a q n : Nat) : Bool :=
  let c := s.slotSrc a (s.outLink a q) n
  match s.role a q with
  | 3 => (s.dynSlots a q).any (fun x => x.1 == n) && (c == 13 || c == 6)
  | 4 => (s.dynSlots a q).any (fun x => x.2 == n) && (c == 13 || c == 6)
  | _ => decide (n < 14) && s.rd F.QUE_CFG_OSLOTS a q / 2 ^ n % 2 == 1 && c == 5

/-- The data flit that a site injects into a link in this cycle. -/
def State.sentNow (s : State) (a : Nat) (d : Dir) : Option DataSent :=
  (s.link a d.num).sent.filter (fun x => x.at_ == s.cycles)

/-- Whether the present slot of a connection end's link is its own and no flit has yet been injected into it (R203, R204). -/
def State.slotOpen (s : State) (a q : Nat) : Bool :=
  s.ownSlot a q (s.localSlot a s.cycles) && (s.sentNow a (s.outLink a q)).isNone

/-- A data flit of a connection end injected in the present slot, with the entries of the ordered lane it carries. -/
def State.inject (s : State) (a q : Nat) (f : Flit) (entries : Nat) : State :=
  let d := s.outLink a q
  let now := s.cycles
  (s.sendOn a d { f with slot := BitVec.ofNat 4 (s.localSlot a now) }).modLink a d.num
    (fun l => { l with sent := some ⟨now, qid a q, entries⟩ })

/-- Whether a word arrives at a connection end in this cycle: in a slot that ILINK and ISLOTS list, numbered as the sending router
numbers it two cycles earlier, or in the slot of a dynamic connection's last link (R215, R225). -/
def State.arrives (s : State) (a q : Nat) : Bool :=
  let last (l : List (Nat × Dir)) (n : Nat) : Bool :=
    match (circuitSlots l n 13).getLast? with
    | some y => s.localSlot y.1 (s.cycles + 14) == y.2.2.1
    | none => false
  match s.role a q with
  | 3 => (s.dynSlots a q).any (fun x => last (reverseRoute (routeXY a (s.farSite a q))) x.2)
  | 4 => (s.dynSlots a q).any (fun x => last (routeXY (s.farSite a q) a) x.1)
  | _ =>
    match neighbour a (allDirs.getD (s.rd F.QUE_CFG_ILINK a q) .n) with
    | some b => s.rd F.QUE_CFG_ISLOTS a q / 2 ^ s.localSlot b (s.cycles + 14) % 2 == 1
    | none => false

/-- First byte of a site's own memory (Table 18-1). -/
def siteMem (a : Nat) : Nat := if isTarn a then tarnBase (tarnNo a) else padBase (spurNo a)

end Sys2Proof.Machine
end

