-- ==== Sys2Proof/Machine/Events.lean ====
section
/-! DEFINITION. Event records to the hosts (R447, Table 16-8), section states with their events (R34), commit points
of poison (R347, R348), and a Spur that becomes Suspect (R353, Table 14-2). -/

namespace Sys2Proof.Machine

/-- The queue pair beyond GATE_QP. -/
def QpX.reset : QpX := ⟨0, 0, 0, 0, 0, 0, 0, 0, 0, 0, 0, false, [], [], 0, 0, 0, 0, none⟩

/-- A queue pair's state beyond GATE_QP. -/
def State.qp (s : State) (n : Nat) : QpX := (aget s.gate.qps n).getD QpX.reset
/-- The state with a queue pair's state changed. -/
def State.modQp (s : State) (n : Nat) (f : QpX → QpX) : State :=
  { s with gate := { s.gate with qps := aput s.gate.qps n (f (s.qp n)) } }
/-- The state with the Gate's state changed. -/
def State.modGate (s : State) (f : GateX → GateX) : State := { s with gate := f s.gate }

/-- Whether queue pair `n` is open. -/
def State.qpOpen (s : State) (n : Nat) : Bool := s.rd F.GATE_QP_STATE 0 n == 1

/-- One event record to one connection: dropped and counted when its ring is full; the next one placed carries LOST
(R447). Kinds are those of Table 16-8. No rule says how the Gate learns what the host has consumed of the event ring: once as
many records as the ring holds have been placed, whether it has room is a free value (log entry 47). -/
def State.eventTo (s : State) (n kind : Nat) (body : List Nat) : State :=
  let x := s.qp n
  let (v, t) := s.fresh
  let full := decide (x.eqUsed ≥ 2 ^ x.eqLog2)
  let s := if full then t else s
  if full && v.getLsbD 0 then (s.modQp n (fun x => { x with lost := true })).count C.GATE_CNT_EVTLOST
  else
    ((s.modQp n (fun x => { x with eqUsed := x.eqUsed + 1, lost := false })).count C.GATE_CNT_TXBYTES 0 32).emit
      (.event n kind x.lost (s.pitch % 2 ^ 32) body)

/-- An event record to every open connection that satisfies a test. -/
def State.event (s : State) (to_ : Nat → Bool) (kind : Nat) (body : List Nat) : State :=
  ((s.gate.qps.map Prod.fst).filter (fun n => s.qpOpen n && to_ n)).foldl (fun s n => s.eventTo n kind body) s

/-- The connections of a tenant. -/
def State.ofTenant (s : State) (t n : Nat) : Bool := s.rd F.GATE_QP_OWNER 0 n == t

/-- The tenant of a partition (Table 12-3). -/
def State.tenantOf (s : State) (p : Nat) : Nat := s.rd F.HUT_PART_TENANT 0 p

/-- A section's state changes, and its owner is told (R34, Table 16-8 KIND 1). -/
def State.setSect (s : State) (e st : Nat) (cls code : Nat := 0) : State :=
  let s := s.wr F.HUT_SECT_STATE 0 e st
  s.event (s.ofTenant (s.tenantOf (e / 32))) 1 [e % 32, st, s.jobOf e, cls, code]

/-- The HUT_POISON record of a commit point (R348, Table 13-9). -/
def State.logPoison (s : State) (p kind site addr : Nat) : State :=
  s.note .HUT_POISON 0 p (setFields [(F.HUT_POISON_KIND, kind), (F.HUT_POISON_SITE, site), (F.HUT_POISON_ADDR, addr)])

/-- The failure POISON_COMMIT of a job, the HUT_POISON record and its event (R348). `kind` is that of Table 13-9. -/
def State.poisonPart (s : State) (p job kind site addr : Nat) : State :=
  let s := s.logPoison p kind site addr
  let s := s.modHut (fun h => { h with fails := List.append h.fails [⟨p, job, 0x20, 1, site, 0, 0, none⟩] })
  s.event (s.ofTenant (s.tenantOf p)) 3 [(s.word .HUT_POISON 0 p).toNat]

/-- A commit point of the job whose section holds a site (R348). -/
def State.poisonSite (s : State) (a kind addr : Nat) : State :=
  match s.sectOf a with
  | some e => s.poisonPart (e / 32) (s.jobOf e) kind a addr
  | none => s

/-- An alert cause set; ALERT_N is low while any is (R466, R467). -/
def State.alert (s : State) (k : Nat) : State := { s with board := { s.board with alerts := s.board.alerts ||| 2 ^ k } }

/-- The health state of a Spur by its site: 0 Healthy, 1 Suspect, 2 Watched, 3 Fenced (Table 14-9). -/
def State.health (s : State) (a : Nat) : Nat := s.rd F.HUT_SPUR_HEALTH_STATE 0 (spurNo a)

/-- A health record waiting to be appended (R391). -/
def State.record (s : State) (type unit : Nat) (state : Bool) (detail : List Nat) : State :=
  s.modHut (fun h => { h with recPend := List.append h.recPend [⟨type, state, unit, s.pitch, h.bootCount, detail, false⟩] })

/-- The state record of a Spur (Table 14-7, type 1). -/
def State.spurRecord (s : State) (n : Nat) : State :=
  s.record 1 n true [s.rd F.HUT_SPUR_HEALTH_STATE 0 n, s.rd F.HUT_SPUR_HEALTH_WATCH_LEFT 0 n,
    s.rd F.HUT_SPUR_HEALTH_FAULTS 0 n, s.rd F.HUT_SPUR_HEALTH_CAUSE 0 n]

/-- A tile or row on the Spur is undecided: the Spur becomes Suspect in this cycle, PRIOR recording the state it
leaves (R353, Table 14-2); with CHK_CTRL.UNDECIDED = 0b01 its job is set to fail with `code` of Table 16-11. -/
def State.suspect (s : State) (a code : Nat) : State :=
  let n := spurNo a
  let h := s.health a
  let s := if h = 0 ∨ h = 2 then
      (s.wrs 0 n [(F.HUT_SPUR_HEALTH_PRIOR, if h = 2 then 1 else 0), (F.HUT_SPUR_HEALTH_STATE, 1),
                  (F.HUT_SPUR_HEALTH_PITCH, s.pitch)]).spurRecord n
    else s
  if s.rd F.CHK_CTRL_UNDECIDED a = 1 then s.failSite a 0x20 code else s

end Sys2Proof.Machine
end

