-- ==== Sys2Proof/Machine/Numerics.lean ====
section
/-! DEFINITION. Number formats, rounding, conversions and the exact functions of the vector engine (R41 to R59, R126,
R127). Flags are four bits: 8 INVALID (or a NaN created), 4 OVF, 2 UNF, 1 INX; DIVZ is 16. -/

namespace Sys2Proof.Machine

/-- A value: an exact number (−1)^neg × m × 2^e, an infinity, or NaN. A zero keeps its sign (R54). -/
inductive Num where
  | fin (neg : Bool) (m : Nat) (e : Int)
  | inf (neg : Bool)
  | nan
  deriving DecidableEq, Repr

/-- Floor of log2 of a positive number. -/
def ilog2 (m : Nat) : Nat := Nat.log2 m

/-! ### Formats (Tables 02-1 and 02-2) -/

/-- Element width in bits by format code; 0 for a code that is not used. -/
def fmtWidth (f : Nat) : Nat := [32, 16, 16, 8, 8, 6, 6, 4, 32, 8, 4, 8, 96, 128].getD f 0

/-- Parameters of a floating-point format: exponent bits, fraction bits, bias, code of the largest finite magnitude,
and how its top codes are read (0 infinities and NaN; 1 NaN at all ones only; 2 neither). -/
structure FpFmt where
  eb : Nat
  mb : Nat
  bias : Nat
  maxCode : Nat
  top : Nat
  deriving DecidableEq, Repr

/-- The floating-point formats by code (Table 02-2). -/
def fpFmt (f : Nat) : Option FpFmt :=
  match f with
  | 0 => some ⟨8, 23, 127, 0x7F7FFFFF, 0⟩
  | 1 => some ⟨8, 7, 127, 0x7F7F, 0⟩
  | 2 => some ⟨5, 10, 15, 0x7BFF, 0⟩
  | 3 => some ⟨4, 3, 7, 0x7E, 1⟩
  | 4 => some ⟨5, 2, 15, 0x7B, 0⟩
  | 5 => some ⟨3, 2, 3, 0x1F, 2⟩
  | 6 => some ⟨2, 3, 1, 0x1F, 2⟩
  | 7 => some ⟨2, 1, 1, 0x7, 2⟩
  | _ => none

/-- Whether a code names an integer format (R45). -/
def isIntFmt (f : Nat) : Bool := f == 8 || f == 9 || f == 10

/-- The value of a floating-point code (R42). -/
def fpDecode (p : FpFmt) (w : Nat) : Num :=
  let neg := (w >>> (p.eb + p.mb)) % 2 == 1
  let e := (w >>> p.mb) % 2 ^ p.eb
  let m := w % 2 ^ p.mb
  if p.top = 0 ∧ e = 2 ^ p.eb - 1 then (if m = 0 then .inf neg else .nan)
  else if p.top = 1 ∧ e = 2 ^ p.eb - 1 ∧ m = 2 ^ p.mb - 1 then .nan
  else if e = 0 then .fin neg m (1 - (p.bias : Int) - p.mb)
  else .fin neg (2 ^ p.mb + m) ((e : Int) - p.bias - p.mb)

/-- The two's-complement value of a w-bit code. -/
def sval (w n : Nat) : Int := if n % 2 ^ w < 2 ^ (w - 1) then (n % 2 ^ w : Nat) else ((n % 2 ^ w : Nat) : Int) - 2 ^ w

/-- An integer as a value. -/
def Num.ofInt (i : Int) : Num := .fin (i < 0) i.natAbs 0

/-- The value of an element code of a format (R42, R45). -/
def decodeElem (f w : Nat) : Num :=
  match fpFmt f with
  | some p => fpDecode p w
  | none => .ofInt (sval (fmtWidth f) w)

/-- The value of an MX element with its scale byte (R47, R48): INT8 elements count in units of 2^-6. -/
def decodeMx (f w scale : Nat) : Num :=
  if scale = 0xFF then .nan
  else match decodeElem f w with
    | .fin n m e => .fin n m (e + (scale : Int) - 127 - (if f = 9 then 6 else 0))
    | x => x

/-! ### Rounding (R51, R57) -/

/-- The direction of keyed stochastic rounding: true is up (R57). -/
def srRound (f d r : Nat) : Bool :=
  let f' := if d > 16 then f / 2 ^ (d - 16) else f
  let d' := if d > 16 then 16 else d
  decide (f' + r / 2 ^ (16 - d') ≥ 2 ^ d')

/-- A magnitude m × 2^e rounded to a multiple of 2^q under mode `rm` (0 RNE, 1 RTZ, 2 SR with random bits r, 3 RNA):
the multiple, and whether it is inexact (R51, Table 02-3). -/
def roundMag (rm m : Nat) (e q : Int) (r : Nat) : Nat × Bool :=
  if q ≤ e then (m * 2 ^ (e - q).toNat, false)
  else
    let d := (q - e).toNat
    let t := m / 2 ^ d
    let f := m % 2 ^ d
    let up := match rm with
      | 0 => decide (2 * f > 2 ^ d) || (2 * f == 2 ^ d && t % 2 == 1)
      | 1 => false
      | 2 => srRound f d r
      | _ => decide (2 * f ≥ 2 ^ d)
    (if up then t + 1 else t, f != 0)

/-- A rounding rule: mode, saturation and the 16 random bits. -/
structure Rnd where
  rm : Nat
  sat : Bool
  r : Nat
  deriving DecidableEq, Repr

/-- Round to nearest even, no saturation. -/
def Rnd.rne : Rnd := ⟨0, false, 0⟩

/-- The canonical NaN of a format (R44), 0 for the formats without one (Table 02-4). -/
def nanCode (f : Nat) : Nat := [0x7FC00000, 0x7FC0, 0x7E00, 0x7F, 0x7E].getD f 0

/-- Conversion of a value into a floating-point format: code and flags (R51 to R54, Tables 02-4 and 02-5). -/
def toFp (f : Nat) (p : FpFmt) (rd : Rnd) (x : Num) : Nat × Nat :=
  let sgn (neg : Bool) (c : Nat) := if neg then c + 2 ^ (p.eb + p.mb) else c
  let infCode := (2 ^ p.eb - 1) * 2 ^ p.mb
  match x with
  | .nan => if p.top = 2 then (0, 8) else (nanCode f, 0)
  | .inf neg =>
      if p.top = 0 then (sgn neg infCode, 0)
      else if p.top = 1 ∧ ¬ rd.sat then (nanCode f, 8)
      else (sgn neg p.maxCode, 8)
  | .fin neg m e =>
      if m = 0 then (sgn neg 0, 0)
      else
        let qmin : Int := 1 - (p.bias : Int) - p.mb
        let q : Int := max (e + (ilog2 m : Int) - p.mb) qmin
        let (n, inx) := roundMag rd.rm m e q rd.r
        let code := (q - qmin).toNat * 2 ^ p.mb + n
        if code > p.maxCode then
          (if p.top = 0 ∧ rd.rm ≠ 1 ∧ ¬ rd.sat then sgn neg infCode
           else if p.top = 1 ∧ rd.rm ≠ 1 ∧ ¬ rd.sat then nanCode f
           else sgn neg p.maxCode, 4 + 1)
        else
          let below := decide (e + (ilog2 m : Int) < 1 - (p.bias : Int))
          (sgn neg code, if inx then (if below then 3 else 1) else 0)

/-- The two's-complement code of an integer in w bits. -/
def intCode (w : Nat) (i : Int) : Nat := (i % (2 ^ w : Int)).toNat

/-- Conversion of a value into an integer of w bits counting in units of 2^u: code and flags (R52, R55). -/
def toInt (w : Nat) (u : Int) (rd : Rnd) (x : Num) : Nat × Nat :=
  let hi : Int := 2 ^ (w - 1) - 1
  let lo : Int := -(2 ^ (w - 1))
  match x with
  | .nan => (0, 8)
  | .inf neg => (intCode w (if neg then lo else hi), 8)
  | .fin neg m e =>
      -- a magnitude beyond the widest format need not be rounded to be known to overflow
      if m ≠ 0 ∧ e + (ilog2 m : Int) - u > 200 then (intCode w (if neg then lo else hi), 4 + 1)
      else
        let (n, inx) := roundMag rd.rm m e u rd.r
        let v : Int := if neg then -(n : Int) else n
        if v > hi then (intCode w hi, 4 + 1)
        else if v < lo then (intCode w lo, 4 + 1)
        else (intCode w v, if inx then 1 else 0)

/-- Conversion of a value into a format (plain elements): code and flags. -/
def convert (f : Nat) (rd : Rnd) (x : Num) : Nat × Nat :=
  match fpFmt f with
  | some p => toFp f p rd x
  | none => toInt (fmtWidth f) 0 rd x

/-! ### Block scales (R50) -/

/-- Largest exponent of an element format in R50. -/
def emaxOf (f : Nat) : Int :=
  match f with
  | 3 => 8
  | 4 => 15
  | 5 => 4
  | 9 => 0
  | _ => 2

/-- The comparison of two positive magnitudes m × 2^e. -/
def magLt (m1 : Nat) (e1 : Int) (m2 : Nat) (e2 : Int) : Bool :=
  if m2 = 0 then false
  else if m1 = 0 then true
  else
    let g1 := e1 + (ilog2 m1 : Int)
    let g2 := e2 + (ilog2 m2 : Int)
    if g1 < g2 then true
    else if g2 < g1 then false
    else
      let b := min e1 e2
      decide (m1 * 2 ^ (e1 - b).toNat < m2 * 2 ^ (e2 - b).toNat)

/-- Floor of log2 of the largest magnitude of a list, `none` when every value is zero. -/
def maxLog (l : List Num) : Option Int :=
  l.foldl (fun acc x => match x with
    | .fin _ m e => if m = 0 then acc else
        let g := e + (ilog2 m : Int)
        match acc with
        | none => some g
        | some h => some (max g h)
    | _ => acc) none

/-- Whether a value is NaN or an infinity. -/
def Num.special : Num → Bool
  | .fin _ _ _ => false
  | _ => true

/-- The scale byte of a block (R50). -/
def mxScale (l : List Num) (f : Nat) : Nat :=
  if l.any Num.special then 0xFF
  else match maxLog l with
    | none => 0
    | some g => (max (min (g - emaxOf f) 127) (-127) + 127).toNat

/-- A block converted into an MX format: scale byte, codes and flags (R50). -/
def toMx (f : Nat) (rds : List Rnd) (l : List Num) : Nat × List (Nat × Nat) :=
  let sc := mxScale l f
  if sc = 0xFF then
    (sc, l.map (fun _ => (0, if l.any (fun x => x != .nan) then 8 else 0)))
  else
    let x : Int := (sc : Int) - 127
    (sc, (l.zip rds).map (fun (v, rd) =>
      let rd := { rd with sat := true }
      let v' := match v with
        | .fin n m e => Num.fin n m (e - x)
        | v => v
      match fpFmt f with
      | some p => toFp f p rd v'
      | none => toInt 8 (-6) rd v'))

/-! ### Keyed random bits (R56) -/

/-- The 16 random bits of an element (R56). -/
def srBits (seed tid c0 c1 c2 c3 : Nat) : Nat :=
  let x := (seed ^^^ ((tid * 0x9E3779B97F4A7C15) % 2 ^ 64)) % 2 ^ 64
  let step (x v : Nat) : Nat :=
    let y := ((x ^^^ v) * 0xBF58476D1CE4E5B9) % 2 ^ 64
    y ^^^ (y / 2 ^ 31)
  let x := step (step (step (step x c0) c1) c2) c3
  let x := (x * 0x94D049BB133111EB) % 2 ^ 64
  let x := x ^^^ (x / 2 ^ 29)
  x / 2 ^ 48

/-! ### Exact arithmetic -/

/-- Exact sum; the sign of a zero sum is IEEE 754's (log entry 12). -/
def Num.add : Num → Num → Num
  | .nan, _ => .nan
  | _, .nan => .nan
  | .inf a, .inf b => if a = b then .inf a else .nan
  | .inf a, _ => .inf a
  | _, .inf b => .inf b
  | .fin n1 m1 e1, .fin n2 m2 e2 =>
      let e := min e1 e2
      let v1 : Int := (m1 * 2 ^ (e1 - e).toNat : Nat)
      let v2 : Int := (m2 * 2 ^ (e2 - e).toNat : Nat)
      let v := (if n1 then -v1 else v1) + (if n2 then -v2 else v2)
      if v = 0 then .fin (n1 && n2 && (m1 = 0 && m2 = 0)) 0 0 else .fin (v < 0) v.natAbs e

/-- The value with its sign reversed. -/
def Num.neg : Num → Num
  | .nan => .nan
  | .inf a => .inf (!a)
  | .fin n m e => .fin (!n) m e

/-- Exact product. -/
def Num.mul : Num → Num → Num
  | .nan, _ => .nan
  | _, .nan => .nan
  | .inf a, .inf b => .inf (a != b)
  | .inf a, .fin n m _ => if m = 0 then .nan else .inf (a != n)
  | .fin n m _, .inf b => if m = 0 then .nan else .inf (b != n)
  | .fin n1 m1 e1, .fin n2 m2 e2 => .fin (n1 != n2) (m1 * m2) (e1 + e2)

/-- Whether a value is NaN. -/
def Num.isNan (x : Num) : Bool := x == .nan

/-- The sign of a value that is not NaN. -/
def Num.isNeg : Num → Bool
  | .fin n _ _ => n
  | .inf n => n
  | .nan => false

/-- Whether a value is a zero. -/
def Num.isZero : Num → Bool
  | .fin _ m _ => m == 0
  | _ => false

/-- Strict order of two values that are not NaN; zeros of both signs are equal. -/
def Num.lt : Num → Num → Bool
  | .nan, _ => false
  | _, .nan => false
  | .inf a, .inf b => a && !b
  | .inf a, _ => a
  | _, .inf b => !b
  | .fin n1 m1 e1, .fin n2 m2 e2 =>
      let z1 := m1 == 0
      let z2 := m2 == 0
      if z1 && z2 then false
      else if z1 then !n2
      else if z2 then n1
      else if n1 && !n2 then true
      else if !n1 && n2 then false
      else if n1 then magLt m2 e2 m1 e1
      else magLt m1 e1 m2 e2

/-- An FP32 code's value. -/
def f32 (w : Nat) : Num := decodeElem 0 w

/-- A value rounded RNE to FP32: code and flags. -/
def toF32 (x : Num) : Nat × Nat := convert 0 Rnd.rne x

/-- The result of an exact FP operation rounded to FP32, with the flag of a NaN made from operands without NaN. -/
def fpResult (ops : List Num) (x : Num) : Nat × Nat :=
  let (c, fl) := toF32 x
  (c, if x.isNan && !(ops.any Num.isNan) then 8 else fl)

/-! ### Division, roots, exponential and logarithm

Each gives the exact value's leading bits with a last bit that is 1 when anything lies below them, which rounds
exactly as the value itself does. -/

/-- Leading bits of a quotient, the last one sticky. -/
def divSticky (a b : Nat) : Nat := 2 * (a / b) + (if a % b = 0 then 0 else 1)

/-- Integer square root, bit by bit from bit `k`. -/
def isqrtFrom (n : Nat) : Nat → Nat → Nat
  | 0, r => if (r + 1) * (r + 1) ≤ n then r + 1 else r
  | k + 1, r =>
    let r' := r + 2 ^ (k + 1)
    isqrtFrom n k (if r' * r' ≤ n then r' else r)

/-- Integer square root. -/
def isqrt (n : Nat) : Nat := isqrtFrom n (ilog2 n / 2 + 1) 0

/-- Leading bits of a square root, the last one sticky. -/
def sqrtSticky (n : Nat) : Nat :=
  let r := isqrt n
  2 * r + (if r * r = n then 0 else 1)

/-- 1 / a (R126). -/
def recip (m : Nat) (e : Int) : Nat × Int :=
  let k := ilog2 m + 64
  (divSticky (2 ^ k) m, -e - k - 1)

/-- √(m × 2^e). -/
def sqrtVal (m : Nat) (e : Int) : Nat × Int :=
  let s : Nat := if e % 2 = 0 then 128 else 129
  (sqrtSticky (m * 2 ^ s), (e - s) / 2 - 1)

/-- 1 / √(m × 2^e) as √(2^k / m): the quotient carries its own sticky bit far below the root's last bit. -/
def rsqrtVal (m : Nat) (e : Int) : Nat × Int :=
  let s : Nat := if e % 2 = 0 then 0 else 1
  let k := 2 * (ilog2 m + 200)
  let q := 2 ^ k / (m * 2 ^ s)
  let r := isqrt q
  (2 * r + (if r * r * (m * 2 ^ s) = 2 ^ k then 0 else 1), -((e - s) / 2) - (k / 2 : Nat) - 1)

/-- Working precision of EXP2 and LOG2 in bits (log entry 13). -/
def expPrec : Nat := 256

/-- The factors 2^(2^-k) for k = 1, 2, … in units of 2^-expPrec, each the root of the one before. -/
def expRoots : Nat → Nat → List Nat
  | 0, _ => []
  | n + 1, r => let r' := isqrt (r * 2 ^ expPrec); r' :: expRoots n r'

/-- 2^(f / 2^n) in units of 2^-expPrec, for f < 2^n. -/
def exp2Frac (f n : Nat) : Nat :=
  (List.range n).zip (expRoots n (2 * 2 ^ expPrec)) |>.foldl
    (fun acc (i, r) => if (f >>> (n - 1 - i)) % 2 = 1 then acc * r / 2 ^ expPrec else acc) (2 ^ expPrec)

/-- 2^a for a nonzero finite a: magnitude and exponent. An argument beyond ±1,000 gives what ±1,000 gives, which
overflows or underflows FP32 in the same way. -/
def exp2Val (neg : Bool) (m : Nat) (e : Int) : Nat × Int :=
  if e + (ilog2 m : Int) ≥ 10 then (3, if neg then -1000 else 1000)
  else if e ≥ 0 then (1, if neg then -((m * 2 ^ e.toNat : Nat) : Int) else (m * 2 ^ e.toNat : Nat))
  else
    let n := (-e).toNat
    let i : Int := (m / 2 ^ n : Nat)
    let f := m % 2 ^ n
    if f = 0 then (1, if neg then -i else i)
    else if neg then (2 * exp2Frac (2 ^ n - f) n + 1, -i - 1 - expPrec - 1)
    else (2 * exp2Frac f n + 1, i - expPrec - 1)

/-- Bits of log2 y for 1 ≤ y < 2 in units of 2^-expPrec, by repeated squaring. -/
def log2Bits : Nat → Nat → Nat → Nat
  | 0, _, acc => acc
  | n + 1, y, acc =>
    let y2 := y * y / 2 ^ expPrec
    if y2 ≥ 2 * 2 ^ expPrec then log2Bits n (y2 / 2) (2 * acc + 1) else log2Bits n y2 (2 * acc)

/-- log2 of m × 2^e for positive m: sign, magnitude and exponent. -/
def log2Val (m : Nat) (e : Int) : Bool × Nat × Int :=
  let g := e + (ilog2 m : Int)
  if m = 2 ^ ilog2 m then (decide (g < 0), g.natAbs, 0)
  else
    let k := 120
    let y := m * 2 ^ expPrec / 2 ^ ilog2 m
    let b : Int := log2Bits k y 0
    let v := g * 2 ^ k + b
    -- v is the floor of the value in units of 2^-k; a negative value's magnitude lies just below -v
    if v ≥ 0 then (false, 2 * v.natAbs + 1, -(k : Int) - 1)
    else (true, 2 * ((-v) - 1).natAbs + 1, -(k : Int) - 1)

/-! ### The FP functions of VOP (Table 04-2, R126, R127) -/

/-- Smaller (or larger) of two values, −0 below +0, canonical NaN for a NaN operand (R126). -/
def minMax (mx : Bool) (a b : Nat) : Nat :=
  let x := f32 a
  let y := f32 b
  if x.isNan || y.isNan then nanCode 0
  else
    let less := x.lt y || (x.isZero && y.isZero && x.isNeg && !y.isNeg)
    if less then (if mx then b else a) else (if mx then a else b)

/-- The FP functions of Table 04-2 on FP32 codes: result code and flags. `none` for an undefined function. -/
def vopFp (func a b c : Nat) : Option (Nat × Nat) :=
  let x := f32 a
  let y := f32 b
  let z := f32 c
  let signOf (w : Nat) : Bool := w / 2 ^ 31 % 2 == 1
  match func with
  | 0x00 => some (fpResult [x, y] (x.add y))
  | 0x01 => some (fpResult [x, y] (x.add y.neg))
  | 0x02 => some (fpResult [x, y] (x.mul y))
  | 0x03 => some (fpResult [x, y, z] ((x.mul y).add z))
  | 0x04 => some (minMax false a b, 0)
  | 0x05 => some (minMax true a b, 0)
  | 0x06 => some (a % 2 ^ 31, 0)
  | 0x07 => some (if signOf a then a - 2 ^ 31 else a + 2 ^ 31, 0)
  | 0x08 => some (if signOf c then b else a, 0)
  | 0x09 => some (if x.lt y then 0x3F800000 else 0, 0)
  | 0x0A => some (match x with
      | .nan => (nanCode 0, 0)
      | .inf n => toF32 (.fin n 0 0)
      | .fin n m e => if m = 0 then ((toF32 (.inf n)).1, 16)
          else let (q, f) := recip m e; toF32 (.fin n q f))
  | 0x0B => some (match x with
      | .nan => (nanCode 0, 0)
      | .inf n => if n then (nanCode 0, 8) else (0, 0)
      | .fin n m e => if m = 0 then ((toF32 (.inf false)).1, 16)
          else if n then (nanCode 0, 8)
          else let (q, f) := rsqrtVal m e; toF32 (.fin false q f))
  | 0x0C => some (match x with
      | .nan => (nanCode 0, 0)
      | .inf n => if n then (nanCode 0, 8) else toF32 (.inf false)
      | .fin n m e => if m = 0 then (a, 0)
          else if n then (nanCode 0, 8)
          else let (q, f) := sqrtVal m e; toF32 (.fin false q f))
  | 0x0D => some (match x with
      | .nan => (nanCode 0, 0)
      | .inf n => if n then (0, 0) else toF32 (.inf false)
      | .fin n m e => if m = 0 then (0x3F800000, 0)
          else let (q, f) := exp2Val n m e; toF32 (.fin false q f))
  | 0x0E => some (match x with
      | .nan => (nanCode 0, 0)
      | .inf n => if n then (nanCode 0, 8) else toF32 (.inf false)
      | .fin n m e => if m = 0 then ((toF32 (.inf true)).1, 16)
          else if n then (nanCode 0, 8)
          else let (sn, q, f) := log2Val m e; toF32 (.fin sn q f))
  | 0x0F => some (a, 0)
  | _ => none

/-- The integer functions of Table 04-2 on INT32 codes. -/
def vopInt (func a b : Nat) : Option Nat :=
  let sh := b % 32
  match func with
  | 0x20 => some ((a + b) % 2 ^ 32)
  | 0x21 => some ((a + 2 ^ 32 - b % 2 ^ 32) % 2 ^ 32)
  | 0x22 => some (a * b % 2 ^ 32)
  | 0x23 => some (a &&& b)
  | 0x24 => some (a ||| b)
  | 0x25 => some (a ^^^ b)
  | 0x26 => some (a * 2 ^ sh % 2 ^ 32)
  | 0x27 => some (intCode 32 (sval 32 a / 2 ^ sh))
  | 0x28 => some (if sval 32 a ≤ sval 32 b then a else b)
  | 0x29 => some (if sval 32 a ≤ sval 32 b then b else a)
  | _ => none

/-- Number of operands a function names, 0 for an undefined function (Table 04-2). -/
def vopArity (func : Nat) : Nat :=
  if [0x03, 0x08].contains func then 3
  else if [0x00, 0x01, 0x02, 0x04, 0x05, 0x09, 0x20, 0x21, 0x22, 0x23, 0x24, 0x25, 0x26, 0x27, 0x28, 0x29].contains func
    then 2
  else if [0x06, 0x07, 0x0A, 0x0B, 0x0C, 0x0D, 0x0E, 0x0F].contains func then 1
  else 0

/-- Cycles per row of a function (Table 04-2). -/
def vopCpr (func : Nat) : Nat := if [0x0A, 0x0B, 0x0C, 0x0D, 0x0E].contains func then 4 else 1

/-! ### Moraine words (R60 to R72) -/

/-- A Moraine word: its tag code and its value V; an F32 word is held by its code in `v` with tag 0. -/
structure MW where
  tag : Nat
  v : Int
  deriving DecidableEq, Repr

/-- Bits of the VALUE field of a mode (Tables 02-7 and 02-8). -/
def valueBits : AccMode → Nat
  | .ex96 => 93
  | .ex128 => 125
  | .f32 => 32

/-- A stored word read; a reserved tag is treated as NaN (R63). -/
def MW.ofBits (md : AccMode) (w : BitVec 128) : MW :=
  match md with
  | .f32 => ⟨0, (w.toNat % 2 ^ 32 : Nat)⟩
  | _ =>
    let t := w.toNat >>> valueBits md % 8
    let v := sval (valueBits md) w.toNat
    if t ≥ 4 then ⟨4, 0⟩ else if t = 2 ∨ t = 3 then ⟨t, 0⟩ else ⟨t, v⟩

/-- Whether a stored word carries a reserved tag (R63). -/
def badTag (md : AccMode) (w : BitVec 128) : Bool :=
  match md with
  | .f32 => false
  | _ => decide (w.toNat >>> valueBits md % 8 > 4)

/-- A word as it is stored (Tables 02-7 and 02-8). -/
def MW.toBits (md : AccMode) (x : MW) : BitVec 128 :=
  match md with
  | .f32 => BitVec.ofNat 128 (intCode 32 x.v)
  | _ => BitVec.ofNat 128 (x.tag * 2 ^ valueBits md + intCode (valueBits md) x.v)

/-- The largest magnitude of an EX128 value (R67). -/
def clampMag : Int := 2 ^ 124 - 1

/-- A value of the window, clamped with its tag (R67). -/
def clamp128 (v : Int) : MW :=
  if v > clampMag then ⟨1, clampMag⟩ else if v < -clampMag then ⟨1, -clampMag⟩ else ⟨0, v⟩

/-- The exact sum in the value field of EX96: two's complement in 93 bits (R64, R74). -/
def wrap96 (v : Int) : Int := sval 93 (intCode 93 v)

/-- The addition of word `b` to word `a` (R62, R64, R67, R69, R71). -/
def MW.add (md : AccMode) (a b : MW) : MW :=
  match md with
  | .f32 => ⟨0, ((toF32 ((f32 a.v.toNat).add (f32 b.v.toNat))).1 : Nat)⟩
  | _ =>
    if a.tag = 4 ∨ b.tag = 4 ∨ (a.tag = 2 ∧ b.tag = 3) ∨ (a.tag = 3 ∧ b.tag = 2) then ⟨4, 0⟩
    else if a.tag = 2 ∨ b.tag = 2 then ⟨2, 0⟩
    else if a.tag = 3 ∨ b.tag = 3 then ⟨3, 0⟩
    else if a.tag = 1 then ⟨1, a.v⟩
    else if b.tag = 1 then ⟨1, b.v⟩
    else match md with
      | .ex128 => clamp128 (a.v + b.v)
      | _ => ⟨0, wrap96 (a.v + b.v)⟩

/-- The source value of a readout (R72): V × 2^w, or the special value of the tag. -/
def MW.num (md : AccMode) (anchor : Int) (x : MW) : Num :=
  match md with
  | .f32 => f32 x.v.toNat
  | _ =>
    if x.tag = 4 then .nan
    else if x.tag = 2 then .inf false
    else if x.tag = 3 then .inf true
    else
      let w : Int := match md with
        | .ex96 => -32
        | _ => anchor
      .fin (x.v < 0) x.v.natAbs w

/-! ### Terms (R60, R63, R67, R69) -/

/-- The three BF16 parts of a finite FP32 value: hi, mid, lo, each by RTZ of what remains (R60). -/
def threeParts (x : Num) : List Num :=
  let bf (x : Num) : Num := decodeElem 1 (convert 1 ⟨1, true, 0⟩ x).1
  let hi := bf x
  let r1 := x.add hi.neg
  let mid := bf r1
  let r2 := r1.add mid.neg
  [hi, mid, bf r2]

/-- The products of one k in three-part form, or the one product when an operand is not finite (R60). -/
def threePartTerms (a b : Num) : List Num :=
  if a.special || b.special then [a.mul b]
  else
    match threeParts a, threeParts b with
    | [ah, am, al], [bh, bm, bl] => [ah.mul bh, ah.mul bm, am.mul bh, ah.mul bl, al.mul bh, am.mul bm]
    | _, _ => []

/-- Sum of values. -/
def sumNum (l : List Num) : Num :=
  match l with
  | [] => .fin false 0 0
  | x :: xs => xs.foldl Num.add x

/-- A term as a word of EX96 or EX128: exact, or rounded RNE at the anchor and clamped (R63, R64, R67). -/
def termWord (md : AccMode) (anchor : Int) (x : Num) : MW :=
  match x with
  | .nan => ⟨4, 0⟩
  | .inf n => ⟨if n then 3 else 2, 0⟩
  | .fin n m e =>
    match md with
    | .ex128 =>
      let r := (roundMag 0 m e anchor 0).1
      clamp128 (if n then -(r : Int) else r)
    | _ =>
      let r := (roundMag 0 m e (-32) 0).1
      ⟨0, wrap96 (if n then -(r : Int) else r)⟩

/-! ### The Cairn's field (R100) -/

/-- The prime 2^61 − 1. -/
def cairnP : Nat := 2 ^ 61 - 1

/-- φ of a value m × 2^e with its sign (R100). -/
def phiVal (neg : Bool) (m : Nat) (e : Int) : Nat :=
  let x := (m % cairnP) * 2 ^ (e % 61).toNat % cairnP
  if neg then (cairnP - x) % cairnP else x

/-- φ of a value, 0 for NaN and the infinities (R100). -/
def phiNum : Num → Nat
  | .fin n m e => phiVal n m e
  | _ => 0

/-- φ of a Moraine word (R100): specials map to 0. -/
def phiWord (md : AccMode) (anchor : Int) (w : BitVec 128) : Nat :=
  phiNum ((MW.ofBits md w).num md anchor)

/-- φ of a word of a cell or slot (R100). -/
def MW.phi (md : AccMode) (anchor : Int) (w : MW) : Nat := phiNum (w.num md anchor)

/-- A sum in the Cairn's field. -/
def sumP (l : List Nat) : Nat := l.foldl (fun n x => (n + x) % cairnP) 0

/-- What is left of the amounts that go into an addition when `x` is in its result: the difference in the field. -/
def leftOver (amounts x : Nat) : Nat := (amounts + cairnP - x % cairnP) % cairnP

/-! ### The cells of the array (R77, R101) -/

/-- The element products of each term of one output element, in the order the array forms the terms: `a k`, `b k` are the
element values with their block scales, `fa`, `fb` the formats (R60, R67, R69). -/
def elemProducts (md : AccMode) (mx : Bool) (fa fb K : Nat) (a b : Nat → Num) : List (List Num) :=
  let prod (k : Nat) : Num := (a k).mul (b k)
  if mx then (List.range (K / 32)).map (fun j => (List.range 32).map (fun i => prod (32 * j + i)))
  else if fa = 0 ∧ fb = 0 then
    let parts := (List.range K).map (fun k => threePartTerms (a k) (b k))
    match md with
    | .f32 => parts
    | _ => parts.flatten.map (fun x => [x])
  else if md = .f32 ∧ 5 ≤ fa ∧ fa ≤ 7 ∧ 5 ≤ fb ∧ fb ≤ 7 then
    (List.range (K / 2)).map (fun k => [prod (2 * k), prod (2 * k + 1)])
  else (List.range K).map (fun k => [prod k])

/-- A cell: its partial, its ρ, and the tags its partial has taken (bit 0 SAT, bit 1 an infinity, bit 2 NaN). -/
structure CellX where
  w : MW
  rho : Nat
  took : BitVec 3
  deriving DecidableEq, Repr

/-- A cell at the start of a run (R77). -/
def CellX.start : CellX := ⟨⟨0, 0⟩, 0, 0⟩

/-- The tag a word takes when it changes from `o` to `n` (Table 02-10). -/
def tookTag (o n : MW) : BitVec 3 :=
  if n.tag = o.tag then 0
  else if n.tag = 1 then 1 else if n.tag = 2 ∨ n.tag = 3 then 2 else if n.tag = 4 then 4 else 0

/-- One term added to a cell, given by its element products: the term is rounded by its mode and added (R64, R67, R69), and ρ takes
what of it, and of the partial before it, is not in the partial after it: the discarded part of a rounding, a clamp's excess, a
term after SAT, a finite sum lost to an infinity or NaN (R101, log entry 101). -/
def CellX.step (md : AccMode) (anchor : Int) (c : CellX) (ps : List Num) : CellX :=
  let w := MW.add md c.w (match md with
    | .f32 => ⟨0, ((toF32 (sumNum ps)).1 : Nat)⟩
    | _ => termWord md anchor (sumNum ps))
  { w := w, rho := (c.rho + leftOver (sumP (ps.map phiNum) + c.w.phi md anchor) (w.phi md anchor)) % cairnP
    took := match md with
      | .f32 => 0
      | _ => c.took ||| tookTag c.w w }

/-- A cell after its terms, from an empty word: its partial is ΔC of one element (R77). -/
def cellRun (md : AccMode) (anchor : Int) (terms : List (List Num)) : CellX := terms.foldl (CellX.step md anchor) CellX.start

/-- The tag that the operands' special values alone give an element, by the precedence of R62: NaN, an infinity, else 0 (R102). -/
def flagTag (ps : List Num) : Nat :=
  if ps.any (· == .nan) || (ps.any (· == .inf false) && ps.any (· == .inf true)) then 4
  else if ps.any (· == .inf false) then 2 else if ps.any (· == .inf true) then 3 else 0

end Sys2Proof.Machine
end

