-- ==== Sys2Proof/Machine/Operands.lean ====
section
/-! DEFINITION. Every operand form: words as an engine decodes them (R342), elements packed in rows (R46), the operand
descriptors of the matrix engine (R78, R79), raw tile images (R82), and the rows of the vector engine (R111 to R115,
R119). -/

namespace Sys2Proof.Machine

/-! ### Words as decoded -/

/-- A stored word as an engine reads it in this cycle, its syndrome and its poison: a scratchpad word that a stream writes in the same
cycle reads as it was before (R179). -/
def State.engineRaw (s : State) (w : Nat) : Word × Byte × BitVec 2 :=
  (aget s.padOld w).getD (s.word64 (8 * w), mget 0 s.synd w, s.pois w)

/-- The word at word index `w` as a decode delivers it, and whether it is poisoned (R341, R342). -/
def State.engineWord (s : State) (w : Nat) : Word × Bool :=
  let (x, sy, p) := s.engineRaw w
  match decodeSynd sy with
  | .clean => (x, p != 0)
  | .bad => (x, true)
  | _ => (corrected sy x, p != 0)

/-- One byte as a decode delivers it. -/
def State.engineByte (s : State) (x : Nat) : Byte :=
  if mget 0 s.synd (x / 8) = 0 ∧ s.padOld = [] then s.byte x
  else BitVec.ofNat 8 ((s.engineWord (x / 8)).1.toNat / 2 ^ (8 * (x % 8)))

/-- The `n` bytes at an address as decodes deliver them. -/
def State.engineBytes (s : State) (x n : Nat) : List Byte := (List.range n).map (fun i => s.engineByte (x + i))

/-- Whether any word that the `n` bytes touch decodes as poisoned. -/
def State.enginePoison (s : State) (x n : Nat) : Bool := (wordsOf x n).any (fun w => (s.engineWord w).2)

/-- Every decode of a read noted; `base` is the first address of the memory. -/
def State.noteReads (s : State) (a memCode base x n : Nat) : State :=
  if s.synd = [] then s
  else (wordsOf x n).foldl (fun s w => s.noteEcc a memCode (w - base / 8) (s.engineRaw w).2.1) s

/-! ### Elements -/

/-- Element `c` of width `w` bits in a row packed from its first byte, given as one little-endian number (R46). -/
def elemOf (row w c : Nat) : Nat := row / 2 ^ (c * w) % 2 ^ w

/-- A row of elements packed into one number (R46). -/
def packElems (w : Nat) (l : List Nat) : Nat := l.foldr (fun x acc => x % 2 ^ w + 2 ^ w * acc) 0

/-- Size of the scratchpad in bytes (R179). -/
def padSize : Nat := 6291456

/-- The device address of a scratchpad byte of a Spur. -/
def padAddr (a x : Nat) : Nat := padBase (spurNo a) + x

/-! ### Matrix operands (R78, R79) -/

/-- Fields of an MTX_OPD word. -/
def opdBase (w : Word) : Nat := fieldGet F.MTX_OPD_BASE w
def opdPitch (w : Word) : Nat := fieldGet F.MTX_OPD_PITCH w
def opdFmt (w : Word) : Nat := fieldGet F.MTX_OPD_FMT w
def opdMx (w : Word) : Bool := fieldGet F.MTX_OPD_MX w == 1
/-- Fields of an MTX_OPS word. -/
def opsBase (w : Word) : Nat := fieldGet F.MTX_OPS_SBASE w
def opsPitch (w : Word) : Nat := fieldGet F.MTX_OPS_SPITCH w

/-- Rows of an operand (Table 03-1): K in the plain form, 64 in the transposed one. -/
def opdRows (tr : Bool) (K : Nat) : Nat := if tr then 64 else K
/-- Row length in bytes (Table 03-1). -/
def opdRowLen (tr : Bool) (K w : Nat) : Nat := if tr then K * w / 8 else 8 * w
/-- The scratchpad byte of row r. -/
def opdRowAt (desc : Word) (r : Nat) : Nat := 64 * (opdBase desc + r * opdPitch desc)
/-- The byte after the operand's last byte. -/
def opdEnd (desc : Word) (tr : Bool) (K : Nat) : Nat :=
  opdRowAt desc (opdRows tr K - 1) + opdRowLen tr K (fmtWidth (opdFmt desc))
/-- The byte after the last scale byte of an MX operand. -/
def opsEnd (ops : Word) (K : Nat) : Nat := opsBase ops + 63 * opsPitch ops + K / 32

/-- The rows of an operand as numbers. -/
def State.opdRowsNat (s : State) (a : Nat) (desc : Word) (tr : Bool) (K : Nat) : List Nat :=
  (List.range (opdRows tr K)).map (fun r =>
    leNat (s.engineBytes (padAddr a (opdRowAt desc r)) (opdRowLen tr K (fmtWidth (opdFmt desc)))))

/-- The element of output index x (i for A, j for B) at k: its code among the operand's rows (Table 03-1). -/
def opdElem (rows : List Nat) (tr : Bool) (w x k : Nat) : Nat :=
  if tr then elemOf (rows.getD x 0) w k else elemOf (rows.getD k 0) w x

/-- The scale bytes of an MX operand: 64 rows of K / 32 (R79). -/
def State.opdScales (s : State) (a : Nat) (ops : Word) (K : Nat) : List (List Nat) :=
  (List.range 64).map (fun r =>
    (s.engineBytes (padAddr a (opsBase ops + r * opsPitch ops)) (K / 32)).map BitVec.toNat)

/-- The value of an element, with its block's scale when the operand is MX; INT4 widens to INT8 with its value. -/
def opdValue (fmt : Nat) (mx : Bool) (scales : List (List Nat)) (x k code : Nat) : Num :=
  if mx then decodeMx fmt code ((scales.getD x []).getD (k / 32) 0) else decodeElem fmt code

/-- Whether any operand or scale word is poisoned. -/
def State.opdPoison (s : State) (a : Nat) (desc ops : Word) (tr : Bool) (K : Nat) : Bool :=
  (List.range (opdRows tr K)).any (fun r =>
    s.enginePoison (padAddr a (opdRowAt desc r)) (opdRowLen tr K (fmtWidth (opdFmt desc)))) ||
  (opdMx desc && (List.range 64).any (fun r =>
    s.enginePoison (padAddr a (opsBase ops + r * opsPitch ops)) (K / 32)))

/-! ### Raw tile images (R82) -/

/-- Code of a mode in MODE fields and image headers (R81). -/
def modeCode : AccMode → Nat
  | .ex96 => 0
  | .ex128 => 1
  | .f32 => 2
/-- The mode of a code; 3 names none. -/
def modeOf (c : Nat) : Option AccMode :=
  match c with
  | 0 => some .ex96
  | 1 => some .ex128
  | 2 => some .f32
  | _ => none

/-- Bytes of one word in an image. -/
def imageWord : AccMode → Nat
  | .f32 => 4
  | _ => 16
/-- Bytes of an image. -/
def imageSize (md : AccMode) : Nat := 64 + 4096 * imageWord md

/-- The signed value of a 10-bit anchor. -/
def anchorOf (n : Nat) : Int := sval 10 n

/-- The anchor an instruction or header gives: read in EX128 only, else 0 (R81, log entry 102). -/
def anchorFor (md : AccMode) (n : Nat) : Int := if md = .ex128 then anchorOf n else 0

/-- The header of an image: MODE, ANCHOR, count. -/
def State.imageHeader (s : State) (a base : Nat) : Nat × Int × Nat :=
  let h := leNat (s.engineBytes (padAddr a base) 8)
  (h % 4, anchorOf (h / 4), h / 2 ^ 12 % 2 ^ 25)

/-- The words of an image. -/
def State.imageWords (s : State) (a base : Nat) (md : AccMode) : List (BitVec 128) :=
  (List.range 4096).map (fun i =>
    let raw := leNat (s.engineBytes (padAddr a (base + 64 + i * imageWord md)) (imageWord md))
    BitVec.ofNat 128 (match md with
      | .ex96 => raw % 2 ^ 96
      | _ => raw))

/-- The bytes of an image (R82). Where the mode has no anchor the field holds 0 (log entry 102). -/
def imageBytes (md : AccMode) (anchor : Int) (count : Nat) (ws : List (BitVec 128)) : List Byte :=
  List.append (leBytes (modeCode md + 4 * intCode 10 anchor + 2 ^ 12 * count) 64)
    (ws.flatMap (fun w => leBytes w.toNat (imageWord md)))

/-! ### Vector operands (R111 to R115, R119) -/

/-- Fields of a VEC_OPD word. -/
def vLine (w : Word) : Nat := fieldGet F.VEC_OPD_LINE w
def vStride (w : Word) : Nat := fieldGet F.VEC_OPD_RSTRIDE w
def vLb (w : Word) : Bool := fieldGet F.VEC_OPD_LB w == 1
def vLane (w : Word) : Nat := fieldGet F.VEC_OPD_LANE w
def vFmt (w : Word) : Nat := fieldGet F.VEC_OPD_FMT w
def vMx (w : Word) : Bool := fieldGet F.VEC_OPD_MX w == 1
def vSline (w : Word) : Nat := fieldGet F.VEC_OPD_SLINE w
def vIsQueue (w : Word) : Bool := fieldGet F.VEC_OPD_KIND w == 1
def vQueue (w : Word) : Nat := fieldGet F.VEC_OPD_QUEUE w
def vAdv (w : Word) : Nat := fieldGet F.VEC_OPD_ADV w

/-- The line of row r (R114). -/
def vRowLine (d : Word) (r : Nat) : Nat := (vLine d + r * vStride d) % 512
/-- Queue entries per row (R115). -/
def vEntries (d : Word) : Nat := (8 * fmtWidth (vFmt d) + 63) / 64

/-- A line as it is stored. -/
def VecX.rawLine (v : VecX) (l : Nat) : Line := (aget v.cache l).getD Line.zero

/-- A line as a decode delivers it (R342). -/
def Line.decode (x : Line) : Line :=
  let y := decodeSpan 32 x.synd.toNat x.bits.toNat x.poison.toNat
  ⟨BitVec.ofNat 2048 y.1, BitVec.ofNat 32 y.2, 0⟩

/-- A line of the operand cache as it is read. -/
def VecX.line (v : VecX) (l : Nat) : Line := (v.rawLine l).decode

/-- A line after the write-back of its corrected words: an uncorrectable word stays as it is stored (R342, log entry 92). -/
def Line.writtenBack (x : Line) : Line :=
  let bad := (List.range 32).foldl (fun n k =>
    let sy := x.synd.toNat / 2 ^ (8 * k) % 256
    if correctable (BitVec.ofNat 8 sy) then n else n + sy * 2 ^ (8 * k)) 0
  ⟨(Line.decode x).bits, x.poison, BitVec.ofNat 256 bad⟩

/-- The decodes of the cache lines that a row reads: noted, and corrected words written back (R342). -/
def State.decodeLines (s : State) (a : Nat) (ls : List Nat) : State :=
  ls.foldl (fun s l =>
    let x := (s.vec a).rawLine l
    if x.synd = 0 then s
    else (s.noteSpan a 3 (32 * l) 32 x.synd.toNat).modVec a (fun v => { v with cache := aput v.cache l x.writtenBack })) s

/-- The elements of a line: codes with poison; an element is poisoned when a word holding any of it is (Table 13-2). -/
def lineElems (f : Nat) (x : Line) : List (Nat × Bool) :=
  let w := fmtWidth f
  (List.range 64).map (fun n =>
    (elemOf x.bits.toNat w n, x.poison.getLsbD (n * w / 64) || x.poison.getLsbD ((n * w + w - 1) / 64)))

/-- The elements of a row popped from a queue. -/
def entryElems (f : Nat) (l : List Entry) : List (Nat × Bool) :=
  let bits := l.foldr (fun e acc => e.bits.toNat + 2 ^ 512 * acc) 0
  let pois := l.foldr (fun e acc => e.poison.toNat + 2 ^ 8 * acc) 0
  lineElems f ⟨BitVec.ofNat 2048 bits, BitVec.ofNat 32 pois, 0⟩

/-- The elements a cache descriptor names in row r, the scalar broadcast applied (R114). -/
def VecX.rowElems (v : VecX) (d : Word) (r : Nat) : List (Nat × Bool) :=
  let l := lineElems (vFmt d) (v.line (vRowLine d r))
  if vLb d then List.replicate 64 (l.getD (vLane d) (0, false)) else l

/-- The scale bytes of row r, for lanes 0 to 31 and 32 to 63, with their poison (R119). -/
def VecX.rowScales (v : VecX) (d : Word) (r : Nat) : List (Nat × Bool) :=
  let x := v.line (vSline d)
  [2 * r, 2 * r + 1].map (fun b => (x.bits.toNat / 2 ^ (8 * b) % 256, x.poison.getLsbD (b / 8)))

/-- A line written with a row of elements: the rest of the line zero, masked lanes unchanged (R111, R135). A word is
poisoned when an element it holds is (Table 13-2). -/
def writeLine (f : Nat) (mask : Word) (old : Line) (l : List (Nat × Bool)) : Line :=
  let w := fmtWidth f
  let olds := lineElems f old
  let es := (List.range 64).map (fun n => if mask.getLsbD n then l.getD n (0, false) else olds.getD n (0, false))
  let pois := (List.range 32).foldl (fun p k =>
    if (List.range 64).any (fun n => (es.getD n (0, false)).2 && (n * w / 64 == k || (n * w + w - 1) / 64 == k))
    then p ||| (1#32 <<< k) else p) (0#32)
  ⟨BitVec.ofNat 2048 (packElems w (es.map Prod.fst)), pois, 0⟩

/-- The queue entries of a row: unused bytes and masked lanes zero (R115, R135). -/
def rowEntries (f : Nat) (mask : Word) (l : List (Nat × Bool)) : List Entry :=
  let x := writeLine f mask Line.zero l
  (List.range ((8 * fmtWidth f + 63) / 64)).map (fun i =>
    ⟨BitVec.ofNat 512 (x.bits.toNat / 2 ^ (512 * i)), BitVec.ofNat 8 (x.poison.toNat / 2 ^ (8 * i)), 0⟩)

/-- The lane mask an instruction names: 0 is none (R135). -/
def State.laneMask (s : State) (a n : Nat) : Word := if n = 0 then BitVec.allOnes 64 else s.word .VEC_LMASK a n
/-- The row mask an MMA names: 0 is none (R96). -/
def State.rowMask (s : State) (a n : Nat) : Word := if n = 0 then BitVec.allOnes 64 else s.word .MTX_RMASK a n

end Sys2Proof.Machine
end

