-- ==== Sys2Proof/Machine/Flags.lean ====
section
/-! DEFINITION. Every sticky flag the engines raise: VEC_FLAGS (R53, R127, Table 04-7) and MOR_STATUS (R63, R67,
Table 02-10). -/

namespace Sys2Proof.Machine

/-- Conversion flags in their places: INVALID 3, OVF 2, UNF 1, INX 0 (Table 04-7). -/
def cvtFlags (fl : Nat) : Nat := fl % 16
/-- Arithmetic flags in their places: DIVZ 8, INVALID 7, OVF 6, UNF 5, INX 4. -/
def ariFlags (fl : Nat) : Nat := fl % 32 * 16

/-- Flags raised into VEC_FLAGS: a raised flag stays until it is cleared. -/
def State.raiseVec (s : State) (a fl : Nat) : State :=
  if fl % 512 = 0 then s else
  s.note .VEC_FLAGS a 0 (fun w => w ||| BitVec.ofNat 64 (fl % 512))

/-- The flags of a row: those of its unmasked lanes together (R135). -/
def orFlags (mask : Word) (l : List Nat) : Nat :=
  (l.zip (List.range 64)).foldl (fun acc (fl, n) => if mask.getLsbD n then acc ||| fl else acc) 0

/-- MOR_STATUS after words take tags (Table 02-10): SAT_SEEN with its first slot, INF_SEEN, NAN_SEEN. -/
def State.raiseMor (s : State) (a slot : Nat) (sat inf nan : Bool) : State :=
  if !sat && !inf && !nan then s
  else s.note .MOR_STATUS a 0 (fun w =>
    let w := if sat && fieldGet F.MOR_STATUS_SAT_SEEN w == 0 then
        setFields [(F.MOR_STATUS_FIRST_SAT_SLOT, slot), (F.MOR_STATUS_SAT_SEEN, 1)] w else w
    let w := if inf then fieldSet F.MOR_STATUS_INF_SEEN 1 w else w
    if nan then fieldSet F.MOR_STATUS_NAN_SEEN 1 w else w)

/-- A word with a reserved tag was read (R63). -/
def State.raiseBadTag (s : State) (a : Nat) (bad : Bool) : State :=
  if bad then s.noteFlag F.MOR_STATUS_BAD_TAG a 0 else s

/-- The tags taken by words of a slot in a run: bit 0 SAT, bit 1 an infinity, bit 2 NaN. -/
def State.raiseTook (s : State) (a slot : Nat) (t : BitVec 3) : State :=
  s.raiseMor a slot (t.getLsbD 0) (t.getLsbD 1) (t.getLsbD 2)

/-- Which tags a commit makes words take that did not carry them: SAT, an infinity, NaN. -/
def newTags (md : AccMode) (old new : List (BitVec 128)) : Bool × Bool × Bool :=
  match md with
  | .f32 => (false, false, false)
  | _ =>
    let ps := (old.zip new).map (fun (o, n) => ((MW.ofBits md o).tag, (MW.ofBits md n).tag))
    (ps.any (fun (o, n) => n == 1 && o != 1), ps.any (fun (o, n) => (n == 2 || n == 3) && o != n),
     ps.any (fun (o, n) => n == 4 && o != 4))

end Sys2Proof.Machine
end

