-- ==== Sys2Proof/Machine/SeqCode.lean ====
section
/-! DEFINITION. The 64-bit words of the two instruction sets inside the device: the sequencer's (Tables 05-1, 05-2,
03-2, 03-3 and 04-1) and the address generator's (Tables 06-2 and 06-3), decoded and encoded. A word is read as a
number: the field of n bits from bit lo is the number divided by 2^lo, modulo 2^n. -/

namespace Sys2Proof.Machine

/-- The n-bit field of a word from bit `lo`. -/
def bf (w : Nat) (lo n : Nat) : BitVec n := BitVec.ofNat n (w / 2 ^ lo)

/-- One bit of a word. -/
def bit (w : Nat) (lo : Nat) : Bool := w / 2 ^ lo % 2 == 1

/-- The opcode of a sequencer word (R147). -/
def seqOpcode (w : Nat) : Nat := w / 2 ^ 56 % 2 ^ 8

/-- The guard of a sequencer word (R148). -/
def guardOf (w : Nat) : Guard := ⟨bit w 55, bf w 52 3⟩

/-- The instruction a sequencer word spells; `none` for an undefined or reserved opcode (R147). Reserved bits are
not read. -/
def decodeSeq (x : Word) : Option SeqInstr :=
  let w := x.toNat
  let g := guardOf w
  match seqOpcode w with
  | 0x00 => some (.nop g)
  | 0x01 => some (.endI g)
  | 0x02 => some (.br ⟨g, bf w 41 11, bf w 38 3⟩)
  | 0x03 => some (.loop ⟨g, bf w 48 4, bf w 37 11, bf w 21 16⟩)
  | 0x04 => some (.lset ⟨g, bf w 48 4, bf w 0 16⟩)
  | 0x05 => some (.ladd ⟨g, bf w 48 4, bf w 0 16⟩)
  | 0x06 => some (.pset ⟨g, bf w 49 3, bf w 45 4, bf w 42 3, bf w 39 3, bf w 36 3, bf w 0 16⟩)
  | 0x08 => some (.qtry ⟨g, bf w 49 3, bf w 44 5, bit w 43, bf w 36 7⟩)
  | 0x09 => some (.sel ⟨g, bf w 49 3, bf w 45 4, bit w 44, bit w 43, bf w 41 2, bf w 0 32⟩)
  | 0x0A => some (.tpush ⟨g, bf w 49 3, bit w 48, bf w 45 3, bf w 0 16⟩)
  | 0x0C => some (.sig ⟨g, bit w 51, bf w 38 13, bf w 33 5, bf w 0 16⟩)
  | 0x0D => some (.wait ⟨g, bf w 47 5, bf w 0 16⟩)
  | 0x0E => some (.arrive ⟨g, bf w 46 6, bit w 45, bit w 44⟩)
  | 0x0F => some (.claim ⟨g, bf w 46 6, bf w 40 6, bf w 36 4, bf w 0 16⟩)
  | 0x10 => some (.strt ⟨g, bf w 48 4, bit w 47, bf w 44 3, bf w 0 16⟩)
  | 0x11 => some (.tmark ⟨g, bf w 0 16⟩)
  | 0x40 => some (.mma ⟨bf w 52 4, bf w 48 4, bf w 46 2, bf w 36 10, bf w 29 7, bf w 21 8, bit w 20, bit w 19, bit w 18,
      bit w 17, bf w 14 3, bit w 11, bf w 7 4⟩)
  | 0x41 => some (.mmerge ⟨bf w 52 4, bf w 46 2, bf w 36 10, bf w 29 7, bit w 18, bit w 17⟩)
  | 0x42 => some (.msave ⟨bf w 52 4, bf w 29 7⟩)
  | 0x43 => some (.mfree ⟨bf w 29 7⟩)
  | 0x50 => some (.vop ⟨bf w 50 6, bf w 46 4, bf w 42 4, bf w 38 4, bf w 34 4, bf w 28 6, bf w 25 3⟩)
  | 0x51 => some (.vrd ⟨bf w 52 4, bf w 45 7, bf w 39 6, bf w 33 6, bf w 31 2, bit w 30, bf w 27 3, bf w 3 24⟩)
  | 0x52 => some (.vcvt ⟨bf w 52 4, bf w 48 4, bf w 42 6, bf w 40 2, bit w 39, bf w 36 3, bf w 12 24⟩)
  | 0x53 => some (.vred ⟨bf w 52 4, bf w 48 4, bf w 42 6, bf w 40 2⟩)
  | 0x54 => some (.vld ⟨bf w 52 4, bf w 35 17, bf w 23 12, bf w 17 6⟩)
  | 0x55 => some (.vst ⟨bf w 52 4, bf w 35 17, bf w 23 12, bf w 17 6⟩)
  | 0x56 => some (.vimm ⟨bf w 47 9, bf w 41 6, bf w 35 6, bf w 0 32⟩)
  | _ => none

/-- A field's value placed at bit `lo`. -/
def at_ {n : Nat} (v : BitVec n) (lo : Nat) : Nat := v.toNat * 2 ^ lo

/-- A bit placed at bit `lo`. -/
def bitAt (b : Bool) (lo : Nat) : Nat := b.toNat * 2 ^ lo

/-- An opcode and a guard in their places. -/
def opGuard (op : Nat) (g : Guard) : Nat := op * 2 ^ 56 + bitAt g.inv 55 + at_ g.gp 52

/-- The word of an instruction, reserved bits zero. -/
def encodeSeqNat : SeqInstr → Nat
  | .nop g => opGuard 0x00 g
  | .endI g => opGuard 0x01 g
  | .br o => opGuard 0x02 o.g + at_ o.target 41 + at_ o.pop 38
  | .loop o => opGuard 0x03 o.g + at_ o.lc 48 + at_ o.endA 37 + at_ o.count 21
  | .lset o => opGuard 0x04 o.g + at_ o.lc 48 + at_ o.imm 0
  | .ladd o => opGuard 0x05 o.g + at_ o.lc 48 + at_ o.imm 0
  | .pset o => opGuard 0x06 o.g + at_ o.pd 49 + at_ o.lc 45 + at_ o.cmp 42 + at_ o.pa 39 + at_ o.pb 36 + at_ o.imm 0
  | .qtry o => opGuard 0x08 o.g + at_ o.pd 49 + at_ o.qn 44 + bitAt o.dir 43 + at_ o.n 36
  | .sel o => opGuard 0x09 o.g + at_ o.pd 49 + at_ o.lc 45 + bitAt o.mode 44 + bitAt o.y 43 + at_ o.rp 41 + at_ o.mask 0
  | .tpush o => opGuard 0x0A o.g + at_ o.unit 49 + bitAt o.ps 48 + at_ o.pa 45 + at_ o.token 0
  | .sig o => opGuard 0x0C o.g + bitAt o.path 51 + at_ o.target 38 + at_ o.qn 33 + at_ o.add 0
  | .wait o => opGuard 0x0D o.g + at_ o.cnt 47 + at_ o.n 0
  | .arrive o => opGuard 0x0E o.g + at_ o.bar 46 + bitAt o.u 45 + bitAt o.w 44
  | .claim o => opGuard 0x0F o.g + at_ o.tarn 46 + at_ o.ctr 40 + at_ o.lc 36 + at_ o.inc 0
  | .strt o => opGuard 0x10 o.g + at_ o.stream 48 + bitAt o.y 47 + at_ o.pd 44 + at_ o.arg 0
  | .tmark o => opGuard 0x11 o.g + at_ o.value 0
  | .mma o => 0x40 * 2 ^ 56 + at_ o.opdA 52 + at_ o.opdB 48 + at_ o.mode 46 + at_ o.anchor 36 + at_ o.slot 29 +
      at_ o.kt 21 + bitAt o.ta 20 + bitAt o.tb 19 + bitAt o.first 18 + bitAt o.last 17 + at_ o.rmask 14 +
      bitAt o.bm 11 + at_ o.bctr 7
  | .mmerge o => 0x41 * 2 ^ 56 + at_ o.opd 52 + at_ o.mode 46 + at_ o.anchor 36 + at_ o.slot 29 + bitAt o.first 18 +
      bitAt o.last 17
  | .msave o => 0x42 * 2 ^ 56 + at_ o.opd 52 + at_ o.slot 29
  | .mfree o => 0x43 * 2 ^ 56 + at_ o.slot 29
  | .vop o => 0x50 * 2 ^ 56 + at_ o.func 50 + at_ o.dst 46 + at_ o.s1 42 + at_ o.s2 38 + at_ o.s3 34 + at_ o.nm1 28 +
      at_ o.lmask 25
  | .vrd o => 0x51 * 2 ^ 56 + at_ o.dst 52 + at_ o.slot 45 + at_ o.row0 39 + at_ o.nm1 33 + at_ o.rm 31 + bitAt o.sat 30 +
      at_ o.lmask 27 + at_ o.tid 3
  | .vcvt o => 0x52 * 2 ^ 56 + at_ o.dst 52 + at_ o.src 48 + at_ o.nm1 42 + at_ o.rm 40 + bitAt o.sat 39 +
      at_ o.lmask 36 + at_ o.tid 12
  | .vred o => 0x53 * 2 ^ 56 + at_ o.dst 52 + at_ o.src 48 + at_ o.nm1 42 + at_ o.func 40
  | .vld o => 0x54 * 2 ^ 56 + at_ o.opd 52 + at_ o.sbase 35 + at_ o.spitch 23 + at_ o.nm1 17
  | .vst o => 0x55 * 2 ^ 56 + at_ o.opd 52 + at_ o.sbase 35 + at_ o.spitch 23 + at_ o.nm1 17
  | .vimm o => 0x56 * 2 ^ 56 + at_ o.line 47 + at_ o.lane0 41 + at_ o.cntm1 35 + at_ o.imm 0

/-- The word of an instruction. -/
def encodeSeq (i : SeqInstr) : Word := BitVec.ofNat 64 (encodeSeqNat i)

/-- The bits of a word that the instruction's encoding reserves are all zero (R147): the word is the one its own
instruction encodes to. -/
def seqWordClean (x : Word) : Bool :=
  match decodeSeq x with
  | some i => encodeSeq i == x
  | none => false

/-- The guard of an instruction; engine instructions carry none (R148). -/
def SeqInstr.guard? : SeqInstr → Option Guard
  | .nop g => some g
  | .endI g => some g
  | .br o => some o.g
  | .loop o => some o.g
  | .lset o => some o.g
  | .ladd o => some o.g
  | .pset o => some o.g
  | .qtry o => some o.g
  | .sel o => some o.g
  | .tpush o => some o.g
  | .sig o => some o.g
  | .wait o => some o.g
  | .arrive o => some o.g
  | .claim o => some o.g
  | .strt o => some o.g
  | .tmark o => some o.g
  | _ => none

/-- Whether the instruction goes to the matrix engine. -/
def SeqInstr.isMatrix : SeqInstr → Bool
  | .mma _ => true
  | .mmerge _ => true
  | .msave _ => true
  | .mfree _ => true
  | _ => false

/-- Whether the instruction goes to an engine. -/
def SeqInstr.isEngine (i : SeqInstr) : Bool := i.guard?.isNone

/-! ### The address generator -/

/-- The instruction an address-generator word spells; `none` for an opcode that traps (R186). -/
def decodeAg (x : Word) : Option AgInstr :=
  let w := x.toNat
  match w / 2 ^ 60 % 2 ^ 4 with
  | 0x0 => some .endA
  | 0x1 => some (.aset (bf w 57 3) (bf w 0 48))
  | 0x2 => some (.aadd (bf w 57 3) (bf w 54 3) (bf w 0 32))
  | 0x3 => some (.aarg (bf w 57 3) (bf w 54 3) (bf w 48 6))
  | 0x4 => some (.aloop (bf w 32 9) (bf w 0 16))
  | 0x5 => some (.copy ⟨bf w 57 3, bf w 54 3, bit w 53, bit w 52, bit w 51, bit w 50, bf w 32 16⟩)
  | 0x6 => some (.signal (bit w 59) (bf w 48 5) (bf w 0 16))
  | 0x7 => some .fence
  | _ => none

/-- The word of an address-generator instruction, reserved bits zero. -/
def encodeAgNat : AgInstr → Nat
  | .endA => 0
  | .aset ad imm => 0x1 * 2 ^ 60 + at_ ad 57 + at_ imm 0
  | .aadd ad src imm => 0x2 * 2 ^ 60 + at_ ad 57 + at_ src 54 + at_ imm 0
  | .aarg ad src sh => 0x3 * 2 ^ 60 + at_ ad 57 + at_ src 54 + at_ sh 48
  | .aloop e c => 0x4 * 2 ^ 60 + at_ e 32 + at_ c 0
  | .copy o => 0x5 * 2 ^ 60 + at_ o.src 57 + at_ o.dst 54 + bitAt o.c 53 + bitAt o.s 52 + bitAt o.is 51 + bitAt o.id 50 +
      at_ o.lenm1 32
  | .signal rem cnt add => 0x6 * 2 ^ 60 + bitAt rem 59 + at_ cnt 48 + at_ add 0
  | .fence => 0x7 * 2 ^ 60

/-- The word of an address-generator instruction. -/
def encodeAg (i : AgInstr) : Word := BitVec.ofNat 64 (encodeAgNat i)

/-- The word is the one its own instruction encodes to: no reserved bit is set (R186). -/
def agWordClean (x : Word) : Bool :=
  match decodeAg x with
  | some i => encodeAg i == x
  | none => false

end Sys2Proof.Machine
end

