-- ==== Sys2Proof/Machine/Sequencer.lean ====
section
/-! DEFINITION. The sequencer (R142 to R167, R174): fetch, guard, blocking conditions, traps, loop control, and one
meaning for each of its own instructions. Engine instructions issue through the same `issueWith`. -/

namespace Sys2Proof.Machine

/-! ### Loop counters and predicates (R149) -/

/-- The field of loop counter `k`. -/
def lcFld (k : Nat) : Fld := F.SEQ_LC_LC.at 16 (k % 4)
/-- A loop counter's value. -/
def State.lc (s : State) (a k : Nat) : Nat := s.rd (lcFld k) a (k / 4)
/-- The state with a loop counter set, modulo 2^16. -/
def State.setLc (s : State) (a k v : Nat) : State := s.wr (lcFld k) a (k / 4) v

/-- A predicate's value; P0 always reads 1 (R149). -/
def State.pred (s : State) (a n : Nat) : Bool :=
  if n = 0 then true else s.rd F.SEQ_PRED_P a / 2 ^ (n - 1) % 2 == 1

/-- The state with a predicate set; writing P0 has no effect (R149). -/
def State.setPred (s : State) (a n : Nat) (b : Bool) : State :=
  if n = 0 then s
  else
    let p := s.rd F.SEQ_PRED_P a
    let old := p / 2 ^ (n - 1) % 2
    s.wr F.SEQ_PRED_P a 0 (p - old * 2 ^ (n - 1) + b.toNat * 2 ^ (n - 1))

/-- The value of a guard (R148). -/
def State.guardHolds (s : State) (a : Nat) (g : Guard) : Bool := (s.pred a g.gp.toNat) != g.inv

/-! ### What an attempt to issue meets (R154, Table 05-4) -/

/-- Kinds of holds: 0 uncounted (boundary window, held engine, capacity), 1 queue, 2 signal, 3 a stream's STR_BUSY
(signal kind, shown as KIND 3), 4 admissibility. -/
inductive Att where
  | go
  | hold (kind id : Nat)
  | held
  | trap (src cls code : Nat)
  deriving DecidableEq, Repr

/-- What the sequencer fetches at its PC. -/
inductive Fetch where
  | range
  | bad
  | word (w : Word) (fixed : Bool)
  deriving DecidableEq, Repr

/-- The fetch at the PC (R144, R145): at or beyond PLEN, an uncorrectable word, or the word, corrected if need be. -/
def State.fetch (s : State) (a : Nat) : Fetch :=
  let x := s.site a
  let pc := x.seq.pc
  if pc ≥ s.rd F.SEQ_CTRL_PLEN a then .range
  else
    let w := (aget x.prog pc).getD 0
    match decodeSynd ((aget x.progSynd pc).getD 0) with
    | .clean => .word w false
    | .data i => .word (w ^^^ (1#64 <<< i)) true
    | .check => .word w true
    | .bad => .bad

/-- Whether the site's sequencer may issue in this cycle (R143, R154): its section is Running, it is issuing, no
self-test occupies the site, and nothing has issued in this cycle. -/
def State.mayIssue (s : State) (a : Nat) : Bool :=
  s.running a && s.rd F.SEQ_STATUS_STATE a == 1 && !(s.seq a).selfTest && (s.seq a).lastIssue != some s.cycles

/-- The trap of an instruction at the head of issue (R174, Table 05-12): issue stops, the code goes to the status
register of its class (R108, R134), and the job is set to fail with the trap's class and code. TRAP_PC holds the address modulo 2^11:
2,048, reached by falling through a full store, reads 0 (DESIGN CHOICE, log entry 110). -/
def State.seqTrap (s : State) (a src cls code : Nat) : State :=
  let pc := (s.seq a).pc
  let s := s.wrs a 0 [(F.SEQ_STATUS_STATE, 3), (F.SEQ_STATUS_TRAP_SRC, src), (F.SEQ_STATUS_TRAP_PC, pc)]
  let s := match cls with
    | 0x10 => s.wr F.SEQ_STATUS_LAST_TRAP a 0 code
    | 0x11 => s.wr F.MTX_STATUS_LAST_TRAP a 0 code
    | 0x12 => s.wr F.MOR_STATUS_LAST_TRAP a 0 code
    | _ => s.wr F.VEC_STATUS_LAST_TRAP a 0 code
  s.failSite a cls code 0 pc

/-- An uncorrectable fetch: nothing issues, the site stops and halts at the next boundary (R144). -/
def State.seqStop (s : State) (a : Nat) : State :=
  let s := s.wr F.SEQ_STATUS_STATE a 0 4
  let s := (s.count C.CHK_CNT_UE a).count C.CFG_CNT_SCRUB_UE
  s.modHut (fun h => { h with cfgHalts := List.append h.cfgHalts [a] })

/-- Cycles of a hold added to the counter of its kind (Table 05-20). -/
def State.countHold (s : State) (a kind n : Nat) : State :=
  match kind with
  | 1 => s.count C.SEQ_CNT_QWAIT a n
  | 2 => s.count C.SEQ_CNT_SWAIT a n
  | 3 => s.count C.SEQ_CNT_SWAIT a n
  | 4 => s.count C.SEQ_CNT_HOLD a n
  | _ => s

/-- The cycles that have passed since the head was last seen held, counted to the kind it was held by. -/
def State.settleHold (s : State) (a : Nat) : State :=
  match (s.seq a).hold with
  | some h => s.countHold a h.kind (s.cycle - h.at_)
  | none => s

/-- The head held in this cycle; a cycle is counted once however often the head is attempted in it. -/
def State.seqHold (s : State) (a kind id : Nat) : State :=
  let seen := match (s.seq a).hold with
    | some h => h.at_ == s.cycle + 1
    | none => false
  let s := if seen then s else (s.settleHold a).countHold a kind 1
  s.modSeq a (fun q => { q with hold := some ⟨kind, id, s.cycle + 1⟩ })

/-! ### Issue and loop control (R143, R151 to R153) -/

/-- Where issue goes next: on, to a branch target after popping frames, or past a loop that is not entered. -/
inductive Flow where
  | on
  | jump (target pops : Nat)
  | past (last : Nat)
  deriving DecidableEq, Repr

/-- Frames whose END has just issued, oldest frame last in the search: each counter rises; the first that is below
COUNT returns to its start, the others are popped (R153). `fs` is newest first. -/
def loopEnd (a pc : Nat) : List LoopFrame → State → Option Nat × List LoopFrame × State
  | [], s => (none, [], s)
  | f :: fs, s =>
    if f.last = pc then
      let v := (s.lc a f.lc + 1) % 65536
      let s := s.setLc a f.lc v
      if v < f.count then (some f.start, f :: fs, s) else loopEnd a pc fs s
    else (none, f :: fs, s)

/-- An instruction issues: counters, loop control and the next address (R143, R152, R153). Frames are kept newest
first. -/
def State.issued (s : State) (a : Nat) (fl : Flow) : State :=
  let s := s.settleHold a
  let s := s.count C.SEQ_CNT_ISSUE a
  let pc := (s.seq a).pc
  let now := s.cycles
  let fin (s : State) (pc : Nat) (fr : List LoopFrame) : State :=
    s.modSeq a (fun q => { q with pc := pc, frames := fr, issuedPitch := true, lastIssue := some now, hold := none,
                                  claim := none, arrived := false })
  match fl with
  | .jump target pops => fin s target ((s.seq a).frames.drop pops)
  | .on =>
    let (nx, fr, s) := loopEnd a pc (s.seq a).frames s
    fin s (nx.getD (pc + 1)) fr
  | .past last =>
    let (nx, fr, s) := loopEnd a pc (s.seq a).frames s
    fin s (nx.getD (last + 1)) fr

/-- Whether an instruction traps with ILLEGAL_OP where it stands (R146, R150, R158). -/
def illegalHere (a : Nat) (guard : Bool) : SeqInstr → Bool
  | .qtry o => decide (o.n.toNat > 64)
  | .pset o => guard && o.cmp == 7
  | .strt o => guard && !isTarn a && decide (o.stream.toNat > 3)
  | .mma _ => isTarn a
  | .mmerge _ => isTarn a
  | .msave _ => isTarn a
  | .mfree _ => isTarn a
  | .vop _ => isTarn a
  | .vrd _ => isTarn a
  | .vcvt _ => isTarn a
  | .vred _ => isTarn a
  | .vld _ => isTarn a
  | .vst _ => isTarn a
  | .vimm _ => isTarn a
  | _ => false

/-- Whether the stream program would refuse a start with STR_BUSY (Table 06-1). -/
def State.strBusy (s : State) (a n : Nat) : Bool :=
  decide (s.rd (strFld a F.STR_STATE_STATE F.TRN_THR_STATE_STATE) a n ≥ 2)

/-- Lowest queue of a mask. -/
def lowestOf (m : BitVec 32) : Nat := (List.range 32).findIdx (fun q => m.getLsbD q)

/-- The release counter of a barrier (R244). -/
def State.relOf (s : State) (b : Nat) : Nat := s.rd F.COL_BAR_REL 0 b

/-- The blocking conditions and traps of a sequencer instruction whose guard is true (Table 05-4, Table 05-6). -/
def seqCheck (i : SeqInstr) (s : State) (a : Nat) : Att :=
  match i with
  | .br o => if (s.seq a).frames.length < o.pop.toNat then .trap 1 0x10 3 else .go
  | .loop o =>
    if o.endA.toNat < (s.seq a).pc + 1 then .trap 1 0x10 4
    else if o.count.toNat ≥ 1 ∧ (s.seq a).frames.length ≥ 8 then .trap 1 0x10 3
    else .go
  | .sel o =>
    if o.y || (List.range 32).any (fun q => o.mask.getLsbD q && decide (s.qReady a q ≥ 1)) then .go
    else .hold 1 (qid a (lowestOf o.mask))
  | .tpush o =>
    let n := o.unit.toNat
    let md := s.rd F.SEQ_STEER_MODE a n
    if md = 0 ∨ md = 3 ∨ s.rd F.SEQ_STEER_TSRC a n = 1 then .trap 1 0x10 6
    else if (s.steer a n).toks.length ≥ 8 then .hold 1 n
    else .go
  | .sig o => if o.path && s.qUnres a o.qn.toNat == 0 then .hold 1 (qid a o.qn.toNat) else .go
  | .wait o => if s.sig a o.cnt.toNat < o.n.toNat then .hold 2 (qid a o.cnt.toNat) else .go
  | .arrive o => if o.w && s.sig a (s.relOf o.bar.toNat) == 0 then .hold 2 o.bar.toNat else .go
  | .claim o =>
    match (s.seq a).claim with
    | some c => if c.reply.isSome && !c.poisoned then .go else .hold 2 (o.tarn.toNat * 64 + o.ctr.toNat)
    | none => .hold 2 (o.tarn.toNat * 64 + o.ctr.toNat)
  | .strt o => if !o.y && s.strBusy a o.stream.toNat then .hold 3 o.stream.toNat else .go
  | _ => .go

/-- One attempt of the head instruction to issue (R154). The command names the instruction; when the head is another
one the attempt has no effect. `pre` is what reaching the head does, `chk` the conditions, `eff` the effect. -/
def issueWith (p : At) (i : SeqInstr) (pre : State → State) (chk : State → Att) (eff : State → State)
    (flow : Flow) (s : State) : State :=
  let a := p.site.toNat
  if !s.reaches p.t.toNat then s
  else
    let s := s.at_ p.t.toNat
    if !s.mayIssue a then s
    else match s.fetch a with
      | .range => s.seqTrap a 1 0x10 2
      | .bad => s.seqStop a
      | .word w fixed =>
        match decodeSeq w with
        | none => s.seqTrap a 1 0x10 1
        | some j =>
          if j ≠ i then s
          else
            let s := if fixed then (s.count C.CFG_CNT_FETCH_CE).count C.CHK_CNT_CE a else s
            let g := match i.guard? with
              | some g => s.guardHolds a g
              | none => true
            if illegalHere a g i then s.seqTrap a 1 0x10 1
            else if !g then s.issued a .on
            else
              let s := pre s
              match chk s with
              | .go => (eff s).issued a flow
              | .hold kind id => s.seqHold a kind id
              | .held => (s.seqHold a 0 0).wr F.SEQ_STATUS_STATE a 0 4
              | .trap src cls code => s.seqTrap a src cls code

/-- An attempt of one of the sequencer's own instructions with nothing done on reaching the head. -/
def seqCmd (p : At) (i : SeqInstr) (eff : State → State) (flow : Flow) (s : State) : State :=
  issueWith p i id (fun s => seqCheck i s p.site.toNat) eff flow s

/-! ### The instructions -/

/-- NOP (R147). -/
def execNop (p : At) (g : Guard) (s : State) : Host.Outcome State Fault Refusal := .next (seqCmd p (.nop g) id .on s)

/-- END: issue stops, and the site counts as ended (R147). -/
def endEffect (a : Nat) (s : State) : State := s.wr F.SEQ_STATUS_STATE a 0 2
def execSeqEnd (p : At) (g : Guard) (s : State) : Host.Outcome State Fault Refusal :=
  .next (seqCmd p (.endI g) (endEffect p.site.toNat) .on s)

/-- BR (R152). -/
def execBr (p : At) (o : BrOps) (s : State) : Host.Outcome State Fault Refusal :=
  .next (seqCmd p (.br o) id (.jump o.target.toNat o.pop.toNat) s)

/-- LOOP: the counter is set to 0, and a frame is pushed unless COUNT is 0 (R151). -/
def loopEffect (a : Nat) (o : LoopOps) (s : State) : State :=
  let s := s.setLc a o.lc.toNat 0
  if o.count.toNat = 0 then s
  else s.modSeq a (fun q =>
    { q with frames := ⟨q.pc + 1, o.endA.toNat, o.count.toNat, o.lc.toNat⟩ :: q.frames })
def execLoop (p : At) (o : LoopOps) (s : State) : Host.Outcome State Fault Refusal :=
  .next (seqCmd p (.loop o) (loopEffect p.site.toNat o) (if o.count.toNat = 0 then .past o.endA.toNat else .on) s)

/-- LSET (R149). -/
def execLset (p : At) (o : LcOps) (s : State) : Host.Outcome State Fault Refusal :=
  .next (seqCmd p (.lset o) (fun s => s.setLc p.site.toNat o.lc.toNat o.imm.toNat) .on s)

/-- LADD, modulo 2^16 (R149). -/
def execLadd (p : At) (o : LcOps) (s : State) : Host.Outcome State Fault Refusal :=
  .next (seqCmd p (.ladd o)
    (fun s => s.setLc p.site.toNat o.lc.toNat ((s.lc p.site.toNat o.lc.toNat + o.imm.toNat) % 65536)) .on s)

/-- The value PSET gives its predicate (Table 05-3). -/
def psetValue (a : Nat) (o : PsetOps) (s : State) : Bool :=
  let v := s.lc a o.lc.toNat
  let x := s.pred a o.pa.toNat
  let y := s.pred a o.pb.toNat
  match o.cmp.toNat with
  | 0 => v == o.imm.toNat
  | 1 => v != o.imm.toNat
  | 2 => decide (v < o.imm.toNat)
  | 3 => decide (v ≥ o.imm.toNat)
  | 4 => x && y
  | 5 => x || y
  | _ => x != y

/-- PSET (R150). -/
def execPset (p : At) (o : PsetOps) (s : State) : Host.Outcome State Fault Refusal :=
  .next (seqCmd p (.pset o) (fun s => s.setPred p.site.toNat o.pd.toNat (psetValue p.site.toNat o s)) .on s)

/-- QTRY: a receive test pops nothing and counts as `State.qReady` does (DESIGN CHOICE, log entry 109); a send test reserves N credits
or none (R158). -/
def qtryEffect (a : Nat) (o : QtryOps) (s : State) : State :=
  let n := o.n.toNat
  let q := o.qn.toNat
  if n = 0 then s.setPred a o.pd.toNat true
  else if !o.dir then s.setPred a o.pd.toNat (decide (s.qReady a q ≥ n))
  else if s.qUnres a q ≥ n then ((s.wr F.QUE_STAT_RESV a q (s.qResv a q + n)).touch a q).setPred a o.pd.toNat true
  else s.setPred a o.pd.toNat false
def execQtry (p : At) (o : QtryOps) (s : State) : Host.Outcome State Fault Refusal :=
  .next (seqCmd p (.qtry o) (qtryEffect p.site.toNat o) .on s)

/-- The queue SEL chooses: the lowest ready one, or the first from the rotation pointer on (R166); ready as `State.qReady` counts
(DESIGN CHOICE, log entry 109). -/
def selChoice (a : Nat) (o : SelOps) (s : State) : Option Nat :=
  let ok (q : Nat) : Bool := o.mask.getLsbD q && decide (s.qReady a q ≥ 1)
  if !o.mode then (List.range 32).find? ok
  else
    let ptr := s.rd (F.SEQ_SELPTR_PTR.at 5 o.rp.toNat) a
    ((List.range 32).map (fun d => (ptr + d) % 32)).find? ok

/-- SEL (R166): the chosen queue's number goes to LC; the pointer used moves past it. -/
def selEffect (a : Nat) (o : SelOps) (s : State) : State :=
  match selChoice a o s with
  | none => s.setPred a o.pd.toNat false
  | some q =>
    let s := (s.setLc a o.lc.toNat q).setPred a o.pd.toNat true
    if o.mode then s.wr (F.SEQ_SELPTR_PTR.at 5 o.rp.toNat) a 0 ((q + 1) % 32) else s
def execSel (p : At) (o : SelOps) (s : State) : Host.Outcome State Fault Refusal :=
  .next (seqCmd p (.sel o) (selEffect p.site.toNat o) .on s)

/-- TPUSH: TOKEN, or TOKEN with its SEL replaced by the predicate (R169). -/
def tpushToken (a : Nat) (o : TpushOps) (s : State) : BitVec 16 :=
  if o.ps then (o.token &&& 0xFFFC#16) ||| (if s.pred a o.pa.toNat then 1#16 else 0#16) else o.token
def tpushEffect (a : Nat) (o : TpushOps) (s : State) : State :=
  s.modSteer a o.unit.toNat (fun u => { u with toks := List.append u.toks [(tpushToken a o s, false)] })
def execTpush (p : At) (o : TpushOps) (s : State) : Host.Outcome State Fault Refusal :=
  .next (seqCmd p (.tpush o) (tpushEffect p.site.toNat o) .on s)

/-- A pending add in the signal table: a target that already holds one takes it in, saturating (R218). -/
def State.tableAdd (s : State) (a target n : Nat) : State :=
  let old := (aget (s.sync a).table target).getD 0
  let s := if old + n > 65535 then s.noteFlag F.SEQ_SIG_STATUS_PEND_SAT a 0 else s
  s.modSync a (fun y => { y with table := aput y.table target (min (old + n) 65535) })

/-- SIG: behind the data of a connection, to a counter of the own site in the cycle after issue, or into the signal
table (R160, R211, R242). -/
def sigEffect (a : Nat) (o : SigOps) (s : State) : State :=
  let t := o.target.toNat
  if o.path then s.qAlloc a o.qn.toNat [.sig (BitVec.ofNat 5 t) o.add]
  else if t / 32 = a then { s with sigNext := aput s.sigNext t ((aget s.sigNext t).getD 0 + o.add.toNat) }
  else s.tableAdd a t o.add.toNat
def execSig (p : At) (o : SigOps) (s : State) : Host.Outcome State Fault Refusal :=
  .next (seqCmd p (.sig o) (sigEffect p.site.toNat o) .on s)

/-- WAIT: N is subtracted (R160). -/
def execWait (p : At) (o : WaitOps) (s : State) : Host.Outcome State Fault Refusal :=
  .next (seqCmd p (.wait o)
    (fun s => s.setSig p.site.toNat o.cnt.toNat (s.sig p.site.toNat o.cnt.toNat - o.n.toNat)) .on s)

/-- Positions allocated so far in each queue of a site that sends (R246). -/
def State.sentSoFar (s : State) (a : Nat) : List (Nat × Nat) :=
  ((List.range 32).filter (fun q => [1, 3, 5, 7].contains (s.role a q))).map (fun q => (q, (s.queue a q).allocd))

/-- Registration of an arrival in the first cycle in which the ARRIVE is at the head (R245): the flag is set and the
arrival goes to its holder, offered at once or held by its fence. -/
def arriveRegister (a : Nat) (o : ArriveOps) (s : State) : State :=
  if (s.seq a).arrived then s
  else
    let b := o.bar.toNat
    let s := s.wr F.SEQ_BARFLAG_FLAGS a 0 ((BitVec.ofNat 64 (s.rd F.SEQ_BARFLAG_FLAGS a) ||| (1#64 <<< b)).toNat)
    let snap := s.sentSoFar a
    let now := s.cycles
    let s := s.modSync a (fun y =>
      if o.u then { y with offered := List.append y.offered [b] }
      else { y with fenced := List.append y.fenced [(b, now, snap)] })
    s.modSeq a (fun q => { q with arrived := true })

/-- ARRIVE (R161, R245): with W = 1 it takes 1 from the barrier's release counter when it issues. -/
def arriveEffect (a : Nat) (o : ArriveOps) (s : State) : State :=
  if o.w then
    let c := s.relOf o.bar.toNat
    s.setSig a c (s.sig a c - 1)
  else s
def execArrive (p : At) (o : ArriveOps) (s : State) : Host.Outcome State Fault Refusal :=
  .next (issueWith p (.arrive o) (arriveRegister p.site.toNat o)
    (fun s => seqCheck (.arrive o) s p.site.toNat) (arriveEffect p.site.toNat o) .on s)

/-- The request of a CLAIM, made once (R162, R254): the request sequence rises and the request waits for the control
plane. -/
def claimRequest (a : Nat) (o : ClaimOps) (s : State) : State :=
  if (s.seq a).claim.isSome then s
  else
    let q := (s.rd F.SEQ_CLAIM_REQ_SEQ a + 1) % 65536
    let s := s.wr F.SEQ_CLAIM_REQ_SEQ a 0 q
    let s := s.modSync a (fun y => { y with claimOut := true })
    s.modSeq a (fun x =>
      { x with claim := some ⟨o.tarn.toNat, o.ctr.toNat, o.inc.toNat, q, 0, none, false⟩ })

/-- CLAIM: the low 16 bits of the value go to LC when the reply has arrived (R162). -/
def claimEffect (a : Nat) (o : ClaimOps) (s : State) : State :=
  match (s.seq a).claim with
  | some c => s.setLc a o.lc.toNat ((c.reply.getD 0).toNat % 65536)
  | none => s
def execClaim (p : At) (o : ClaimOps) (s : State) : Host.Outcome State Fault Refusal :=
  .next (issueWith p (.claim o) (claimRequest p.site.toNat o)
    (fun s => seqCheck (.claim o) s p.site.toNat) (claimEffect p.site.toNat o) .on s)

/-- A descriptor field (Table 06-7). -/
def State.dsc (s : State) (a n : Nat) (spur tarn : Fld) : Nat := s.rd (strFld a spur tarn) a n
def State.dscQn (s : State) (a n : Nat) : Nat := s.dsc a n F.STR_DESC_QN F.TRN_THR_QN
def State.dscCsrc (s : State) (a n : Nat) : Nat := s.dsc a n F.STR_DESC_CSRC F.TRN_THR_CSRC
def State.dscCidx (s : State) (a n : Nat) : Nat := s.dsc a n F.STR_DESC_CIDX F.TRN_THR_CIDX
def State.dscCnt (s : State) (a n : Nat) : Nat := s.dsc a n F.STR_DESC_CNT F.TRN_THR_CNT
def State.dscSrem (s : State) (a n : Nat) : Nat := s.dsc a n F.STR_DESC_SREM F.TRN_THR_SREM
def State.dscClass (s : State) (a n : Nat) : Nat := s.dsc a n F.STR_DESC_CLASS F.TRN_THR_CLASS

/-- Whether a queue's role gives a program a connection: SEND or RECV (R188). -/
def State.qnJoined (s : State) (a q : Nat) : Bool := s.role a q == 1 || s.role a q == 2

/-- STR_CONFIG of a descriptor (R193). -/
def State.descInvalid (s : State) (a n : Nat) : Bool :=
  let c := s.dscCsrc a n
  let cls := s.dscClass a n
  (isTarn a && (c == 1 || c == 2)) || (!isTarn a && cls != 0) || cls == 3 ||
  decide (s.dsc a n F.STR_DESC_DEPTH F.TRN_THR_DEPTH > 16) ||
  ((c == 1 || c == 2) && decide (s.dscCidx a n + s.dsc a n F.STR_DESC_CNUM F.TRN_THR_CNUM > 15)) ||
  (s.dscSrem a n == 1 && !s.qnJoined a (s.dscQn a n))

/-- A program starts at START with its argument in the next cycle; address registers and loop stack are reset, credits
kept (R183); an invalid descriptor will trap its first instruction (R193). -/
def State.strBegin (s : State) (a n arg : Nat) : State :=
  let s := s.wrs a n [(strFld a F.STR_STATE_STATE F.TRN_THR_STATE_STATE, 1),
                      (strFld a F.STR_STATE_ARG F.TRN_THR_STATE_ARG, arg)]
  let s := (List.range 8).foldl
    (fun s k => s.wr (strFld a F.STR_AREG_ADDR F.TRN_AREG_ADDR) a (8 * n + k) 0) s
  let start := s.rd (strFld a F.STR_DESC_START F.TRN_THR_START) a n
  let now := s.cycles
  let bad := s.descInvalid a n
  s.modStr a n (fun x => { x with pc := start, invalid := bad, frames := [], ended := false, copies := [], reqs := [], made := 0,
                                  issueAt := some now, creditHeld := none })

/-- The threads of a Tarn that are reserved for prefetch (R198). -/
def State.isPf (s : State) (a n : Nat) : Bool := isTarn a && decide (n + s.rd F.TRN_PF_CTRL_THREADS a ≥ 16)

/-- DONE of a Tarn's prefetch when every reserved thread is IDLE (R200). -/
def State.pfDone (s : State) (a : Nat) : State :=
  if ((List.range 16).filter (s.isPf a)).all (fun n => s.rd F.TRN_THR_STATE_STATE a n == 0) then
    s.wr F.TRN_PF_STATUS_DONE a 0 1
  else s

/-- A program that has issued END and whose transfers are complete completes: IDLE, or a restart from the shadow
(R183, Table 06-1). -/
def State.strFinish (s : State) (a n : Nat) : State :=
  let f := strFld a F.STR_STATE_STATE F.TRN_THR_STATE_STATE
  let x := s.str a n
  if x.ended && x.copies.isEmpty && x.reqs.isEmpty then
    match s.rd f a n with
    | 1 =>
      let s := (s.wr f a n 0).modStr a n (fun x => { x with ended := false })
      if s.isPf a n then s.pfDone a else s
    | 2 => s.strBegin a n (s.rd (strFld a F.STR_STATE_SHADOW F.TRN_THR_STATE_SHADOW) a n)
    | _ => s
  else s

/-- A start or re-arm of a stream program (Table 06-1): whether it is accepted, and the state. -/
def State.strStart (s : State) (a n arg : Nat) : Bool × State :=
  match s.rd (strFld a F.STR_STATE_STATE F.TRN_THR_STATE_STATE) a n with
  | 0 => (true, s.strBegin a n arg)
  | 1 => (true, s.wrs a n [(strFld a F.STR_STATE_STATE F.TRN_THR_STATE_STATE, 2),
                           (strFld a F.STR_STATE_SHADOW F.TRN_THR_STATE_SHADOW, arg)])
  | _ => (false, s)

/-- STRT (R163): with Y = 1 the predicate tells whether the start was accepted. A completion in the same cycle is
applied first (R184). -/
def strtEffect (a : Nat) (o : StrtOps) (s : State) : State :=
  let (ok, s) := s.strStart a o.stream.toNat o.arg.toNat
  if o.y then s.setPred a o.pd.toNat ok else s
def execStrt (p : At) (o : StrtOps) (s : State) : Host.Outcome State Fault Refusal :=
  .next (issueWith p (.strt o) (fun s => s.strFinish p.site.toNat o.stream.toNat)
    (fun s => seqCheck (.strt o) s p.site.toNat) (strtEffect p.site.toNat o) .on s)

/-- TMARK (R165). -/
def tmarkEffect (a : Nat) (o : TmarkOps) (s : State) : State :=
  (s.wrs a 0 [(F.SEQ_MARK_VALUE, o.value.toNat), (F.SEQ_MARK_PITCH, s.pitch), (F.SEQ_MARK_CYCLE, s.cycle)]).count
    C.SEQ_CNT_MARK a
def execTmark (p : At) (o : TmarkOps) (s : State) : Host.Outcome State Fault Refusal :=
  .next (seqCmd p (.tmark o) (tmarkEffect p.site.toNat o) .on s)

end Sys2Proof.Machine
end

