-- ==== Sys2Proof/Machine/Matrix.lean ====
section
/-! DEFINITION. The matrix engine, the Moraine slots and the Cairn (R76 to R110, R346, R352): checks and effects at
issue, projection and reserve, verdicts, re-execution, commit and release. -/

namespace Sys2Proof.Machine

/-! ### Slots (R84, R85) -/

/-- Units of a slot (Table 03-4). -/
def unitsOf : AccMode → Nat
  | .f32 => 1
  | .ex96 => 3
  | .ex128 => 4

/-- Whether a slot of the mode may start at the unit (Table 03-4). -/
def slotFits (md : AccMode) (u : Nat) : Bool := u % unitsOf md == 0 && decide (u + unitsOf md ≤ 96)

/-- Units of a span. -/
def spanOf (u : Nat) (md : AccMode) : List Nat := (List.range (unitsOf md)).map (· + u)

/-- The issue-time slot that starts at a unit. -/
def MtxX.slotAt (m : MtxX) (u : Nat) : Option SlotI := m.slots.find? (fun x => x.start == u)
/-- Whether a unit belongs to an issue-time slot. -/
def MtxX.taken (m : MtxX) (u : Nat) : Bool :=
  m.slots.any (fun x => decide (x.start ≤ u) && decide (u < x.start + unitsOf x.mode))
/-- The contents of the slot that starts at a unit. -/
def MtxX.physAt (m : MtxX) (u : Nat) : Option SlotP := m.phys.find? (fun x => x.start == u)

/-- Bytes of one word in the Moraine (Table 03-4). -/
def moraineWord : AccMode → Nat
  | .f32 => 4
  | .ex96 => 12
  | .ex128 => 16

/-- The protected words of a slot that hold its words `lo` to `lo + n - 1`, those whose check byte does not match (R340). -/
def SlotP.errors (y : SlotP) (lo n : Nat) : List (Nat × BitVec 8) :=
  let b := moraineWord y.mode
  y.synd.filter (fun x => decide (lo * b / 8 ≤ x.1) && decide (8 * x.1 < (lo + n) * b))

/-- Word i of a slot as a decode delivers it, and whether it is poisoned (R342). -/
def SlotP.word (y : SlotP) (i : Nat) : BitVec 128 × Bool :=
  let b := moraineWord y.mode
  (y.errors i 1).foldl (fun x e => match decodeSynd e.2 with
    | .data k =>
      let at_ := 64 * e.1 + k
      if 8 * i * b ≤ at_ ∧ at_ < 8 * (i + 1) * b then (x.1 ^^^ (1#128 <<< (at_ - 8 * i * b)), x.2) else x
    | .bad => (x.1, true)
    | _ => x) (y.words.getD i 0, y.poison)

/-- Words `lo` to `lo + n - 1` of a slot as a decode delivers them. -/
def SlotP.span (y : SlotP) (lo n : Nat) : List (BitVec 128 × Bool) :=
  if y.synd = [] then ((y.words.drop lo).take n).map (fun w => (w, y.poison))
  else (List.range n).map (fun i => y.word (lo + i))

/-- The slot after a read of those words: corrected words are written back (R342, log entry 92). -/
def SlotP.readBack (y : SlotP) (lo n : Nat) : SlotP :=
  if y.synd = [] then y
  else { y with words := (List.range 4096).map (fun i => if lo ≤ i ∧ i < lo + n then (y.word i).1 else y.words.getD i 0)
                synd := y.synd.filter (fun x => !(y.errors lo n).contains x || !correctable x.2) }

/-- The list with the slot of that start replaced by the given one. -/
def putSlotI (l : List SlotI) (x : SlotI) : List SlotI := x :: l.filter (fun y => y.start != x.start)
def putSlotP (l : List SlotP) (x : SlotP) : List SlotP := x :: l.filter (fun y => y.start != x.start)

/-- The decodes of a read of words of a slot: noted, and corrected words written back (R342). -/
def State.readSlot (s : State) (a u lo n : Nat) : State :=
  match (s.mtx a).physAt u with
  | some y => if y.synd = [] then s
      else ((y.errors lo n).foldl (fun s x => s.noteEcc a 2 (2048 * u + x.1) x.2) s).modMtx a (fun m =>
        { m with phys := putSlotP m.phys (y.readBack lo n) })
  | none => s

/-- Whether a tile instruction holds a pending buffer (R91). -/
def TileKind.pends : TileKind → Bool
  | .mma => true
  | .mmerge => true
  | _ => false

/-- Pending buffers in use (MTX_STATUS.PENDING). -/
def MtxX.pending (m : MtxX) : Nat := min 4 (m.tiles.filter (fun x => x.kind.pends)).length

/-! ### Formats, runs and budgets (R60, R89, R90) -/

def isF8to4 (f : Nat) : Bool := decide (3 ≤ f) && decide (f ≤ 7)
def isInt8or4 (f : Nat) : Bool := f == 9 || f == 10
/-- The element formats an MX operand may have (R48). -/
def isMxElem (f : Nat) : Bool := isF8to4 f || f == 9
def isF6or4 (f : Nat) : Bool := decide (5 ≤ f) && decide (f ≤ 7)

/-- Whether the pairing is one of Table 02-6 (R60, R79). -/
def pairOk (md : AccMode) (fa : Nat) (mxa : Bool) (fb : Nat) (mxb : Bool) : Bool :=
  if mxa != mxb then false
  else if mxa then md != .ex96 && isMxElem fa && isMxElem fb
  else
    let small := isF8to4 fa && isF8to4 fb
    let wide := fa == fb && decide (fa ≤ 2)
    match md with
    | .ex96 => small || (isInt8or4 fa && isInt8or4 fb)
    | .ex128 => wide
    | .f32 => small || wide

/-- The run of an MMA (Table 03-6). -/
def runOf (fa fb K : Nat) : Nat :=
  if isF6or4 fa && isF6or4 fb then K / 2
  else if fa = 0 ∧ fb = 0 then 12 * K
  else if 1 ≤ fa ∧ fa ≤ 2 ∧ fa = fb then 2 * K
  else K

/-- The first-block fill of the Switchback (Table 03-8). -/
def swbFill (f : Nat) : Nat := if isF6or4 f then 32 else 64

/-- The run of MMERGE and MSAVE (R89). -/
def imageRun : AccMode → Nat
  | .f32 => 17
  | _ => 65

/-- K of an MMA (R76). -/
def MmaOps.K (o : MmaOps) : Nat := 64 * (o.kt.toNat + 1)

/-- What an MMA reads from its descriptors at issue. -/
structure MmaPlan where
  descA : Word
  descB : Word
  opsA : Word
  opsB : Word
  fill : Nat
  run : Nat
  deriving DecidableEq, Repr

/-- The plan of an MMA (R80, R89, R90). -/
def mmaPlan (s : State) (a : Nat) (o : MmaOps) : MmaPlan :=
  let da := s.word .MTX_OPD a o.opdA.toNat
  let db := s.word .MTX_OPD a o.opdB.toNat
  { descA := da, descB := db, opsA := s.word .MTX_OPS a o.opdA.toNat, opsB := s.word .MTX_OPS a o.opdB.toNat
    fill := 16 + (if o.ta then swbFill (opdFmt da) else if o.tb then swbFill (opdFmt db) else 0)
    run := runOf (opdFmt da) (opdFmt db) o.K }

/-- The budget of an MMA or MMERGE (R90). -/
def budgetOf (fill run : Nat) : Nat := fill + run + 80

/-! ### Projection and reserve (R91, R92) -/

/-- The latest pending physical free among the units of a span (R87). -/
def MtxX.freeAt (m : MtxX) (us : List Nat) : Nat :=
  ((m.frees.filter (fun x => us.contains x.1)).map Prod.snd).foldl max 0

/-- Whether an MFREE still in the engine covers a unit. -/
def MtxX.mfreeIn (m : MtxX) (u : Nat) : Bool := m.tiles.any (fun x => x.kind == .mfree && (spanOf x.slot x.mode).contains u)

/-- Whether units that the oldest instruction takes with FIRST are still to become physically Free (R87). An MFREE still
in the engine was issued after that instruction, which does not wait for it. -/
def MtxX.spanWaits (m : MtxX) (x : Tile) : Bool :=
  x.first && m.frees.any (fun f => (spanOf x.slot x.mode).contains f.1 && !m.mfreeIn f.1)

/-- First k step, last k step and release of an MMA or MMERGE issued at t (R91). -/
def projectTile (m : MtxX) (t fill run freeAt : Nat) : Nat × Nat × Nat :=
  let first := max (max (t + fill) (m.lastK + 1)) (m.pendRels.getD 3 0 + 1)
  let last := first + run - 1
  (first, last, max (max (last + 48) m.relPrev) freeAt + 32)

/-- Release of an MSAVE (R91). -/
def projectSave (m : MtxX) (t run : Nat) : Nat := max (t + 16) (m.relPrev + 1) + run - 1

/-- Release of an MFREE, or of a skipped MMA with its physical free (R91). -/
def projectFree (m : MtxX) (t freeAt : Nat) : Nat :=
  max (max t m.relPrev + 1) (if freeAt = 0 then 0 else freeAt + 1)

/-- The reserve with a candidate of budget `b` (R92). -/
def State.mtxReserve (s : State) (a b : Nat) : Nat :=
  if s.rd F.MTX_STATUS_REEXEC_SPENT a = 1 then 0 else max (s.mtx a).reserve b

/-- Whether a release at `rel` under reserve `q` is admissible (R92). -/
def State.admits (s : State) (rel q : Nat) : Bool := decide (rel + q ≤ s.pitchLen - 1)

/-- MFREEs at the head of the engine's order are released when their cycle comes: one cycle after the later of their
issue and the release before them (R91). -/
def settleFrees (t : Nat) : List Tile → Nat → List Tile × Nat
  | [], r => ([], r)
  | x :: l, r =>
    if x.kind = .mfree then
      let rel := max x.lastK r + 1
      if rel ≤ t then settleFrees t l rel else (x :: l, r)
    else (x :: l, r)

def State.mtxSettle (s : State) (a : Nat) : State :=
  s.modMtx a (fun m => let (l, r) := settleFrees s.cycle m.tiles m.relAct; { m with tiles := l, relAct := r })

/-! ### Checks at issue (R108) -/

/-- The first check that fails. -/
def firstFail : List (Bool × Att) → Option Att
  | [] => none
  | (b, x) :: l => if b then some x else firstFail l

def mtxTrap (code : Nat) : Att := .trap 2 0x11 code
def accTrap (code : Nat) : Att := .trap 2 0x12 code

/-- The order of R154 around an engine's trap checks: window, held engine, traps, capacity, admissibility. -/
def engineCheck (s : State) (held : Bool) (trap : Option Att) (full : Bool) (ok : Bool) : Att :=
  if s.cycle < 64 then .hold 0 0
  else if held then .held
  else match trap with
    | some x => x
    | none => if full then .hold 0 0 else if !ok then .hold 4 0 else .go

/-- Slot checks of MMA and MMERGE: Table 03-4, then Table 03-5. -/
def slotChecks (m : MtxX) (md : AccMode) (u : Nat) (first : Bool) : List (Bool × Att) :=
  [ (!slotFits md u, mtxTrap 1),
    (first && (spanOf u md).any m.taken, mtxTrap 2),
    (!first && !m.taken u, mtxTrap 3),
    (!first && (match m.slotAt u with
      | some x => x.closed
      | none => true), mtxTrap 2) ]

/-- Mode, anchor and term count against the slot, and against an image's header, `head`, in an MMERGE (R65, R66, R83). -/
def accChecks (m : MtxX) (md : AccMode) (anchor : Int) (u : Nat) (first : Bool) (n : Nat) (head : Option (Nat × Int) := none) :
    List (Bool × Att) :=
  let old := if first then none else m.slotAt u
  let differs (f : SlotI → Bool) : Bool := (old.map f).getD false
  let headDiffers (f : Nat × Int → Bool) : Bool := (head.map f).getD false
  [ (differs (fun x => x.mode != md) || headDiffers (fun h => h.1 != modeCode md), accTrap 2),
    (md == .ex128 && (differs (fun x => x.anchor != anchor) || headDiffers (fun h => h.2 != anchor)), accTrap 3),
    (decide (((old.map SlotI.count).getD 0) + n > 2 ^ 24), accTrap 4) ]

/-- The block-mask bit of an MMA: its number and the scratchpad byte that holds it (R97). -/
def maskBit (s : State) (a : Nat) (o : MmaOps) : Nat × Nat :=
  let b := s.rd F.MTX_BMASK_ORG_ORG a + s.lc a o.bctr.toNat
  (b, s.rd F.MTX_BMASK_ORG_BASE a + b / 8)

/-- Whether the block mask skips the MMA (R99). -/
def State.maskSkips (s : State) (a : Nat) (o : MmaOps) : Bool :=
  o.bm && (let (b, x) := maskBit s a o; !(s.engineByte (padAddr a x)).getLsbD (b % 8))

/-- Whether the block-mask word decodes as poisoned (R347). -/
def State.maskPoison (s : State) (a : Nat) (o : MmaOps) : Bool :=
  o.bm && s.enginePoison (padAddr a (maskBit s a o).2) 1

/-- The traps of an MMA in the order of R108. -/
def mmaTrap (s : State) (a : Nat) (o : MmaOps) : Option Att :=
  match modeOf o.mode.toNat with
  | none => some (accTrap 1)
  | some md =>
    let p := mmaPlan s a o
    let fa := opdFmt p.descA
    let fb := opdFmt p.descB
    let len (f : Nat) (tr : Bool) := opdRowLen tr o.K (fmtWidth f)
    let (b, x) := maskBit s a o
    firstFail (List.flatten [
      [ (!pairOk md fa (opdMx p.descA) fb (opdMx p.descB), accTrap 1),
        (o.ta && o.tb, mtxTrap 5) ],
      slotChecks (s.mtx a) md o.slot.toNat o.first,
      accChecks (s.mtx a) md (anchorFor md o.anchor.toNat) o.slot.toNat o.first o.K,
      [ (decide (64 * opdPitch p.descA < len fa o.ta) || decide (64 * opdPitch p.descB < len fb o.tb), mtxTrap 6),
        (decide (opdEnd p.descA o.ta o.K > padSize) || decide (opdEnd p.descB o.tb o.K > padSize) ||
          (opdMx p.descA && (decide (opsEnd p.opsA o.K > padSize) || decide (opsEnd p.opsB o.K > padSize))), mtxTrap 7),
        (o.bm && decide (b ≥ s.rd F.MTX_BMASK_ORG_LEN a), mtxTrap 8),
        (o.bm && decide (x ≥ padSize), mtxTrap 7),
        (decide (2 * budgetOf p.fill p.run > s.pitchLen - 64), mtxTrap 9) ]])

/-- The first byte of the image a descriptor names (R79). -/
def imageBase (s : State) (a n : Nat) : Nat := 64 * opdBase (s.word .MTX_OPD a n)

/-- The traps of an MMERGE in the order of R108. -/
def mmergeTrap (s : State) (a : Nat) (o : MmergeOps) : Option Att :=
  match modeOf o.mode.toNat with
  | none => some (accTrap 1)
  | some md =>
    let base := imageBase s a o.opd.toNat
    let (hm, ha, hc) := s.imageHeader a base
    firstFail (List.flatten [
      slotChecks (s.mtx a) md o.slot.toNat o.first,
      [ (decide (base + 64 > padSize), mtxTrap 7) ],
      accChecks (s.mtx a) md (anchorFor md o.anchor.toNat) o.slot.toNat o.first hc (some (hm, ha)),
      [ (decide (base + imageSize md > padSize), mtxTrap 7),
        (decide (2 * budgetOf 16 (imageRun md) > s.pitchLen - 64), mtxTrap 9) ]])

/-- The traps of an MSAVE (R84, Table 03-5, R79). -/
def msaveTrap (s : State) (a : Nat) (o : MsaveOps) : Option Att :=
  let u := o.slot.toNat
  match (s.mtx a).slotAt u with
  | none => some (mtxTrap (if u > 95 then 1 else 3))
  | some x =>
    firstFail [ (decide (u > 95), mtxTrap 1), (!x.closed, mtxTrap 4),
      (decide (imageBase s a o.opd.toNat + imageSize x.mode > padSize), mtxTrap 7) ]

/-- The traps of an MFREE (R84, Table 03-5). -/
def mfreeTrap (s : State) (a : Nat) (o : MfreeOps) : Option Att :=
  let u := o.slot.toNat
  firstFail [ (decide (u > 95), mtxTrap 1), (((s.mtx a).slotAt u).isNone, mtxTrap 3) ]

/-- Whether the matrix engine holds 8 unreleased instructions (R155). -/
def State.mtxFull (s : State) (a : Nat) : Bool := decide ((s.mtx a).tiles.length ≥ 8)
/-- Whether an undecided tile holds the matrix engine (R107). -/
def State.mtxHeld (s : State) (a : Nat) : Bool := s.rd F.MTX_STATUS_HELD a == 1

def modeNat (c : Nat) : AccMode := (modeOf c).getD .f32

/-- Release and reserve of an MMA that would issue now. -/
def mmaProjection (s : State) (a : Nat) (o : MmaOps) : Nat × Nat :=
  let p := mmaPlan s a o
  let m := s.mtx a
  let fa := if o.first then m.freeAt (spanOf o.slot.toNat (modeNat o.mode.toNat)) else 0
  let rel := if s.maskSkips a o then projectFree m s.cycle fa else (projectTile m s.cycle p.fill p.run fa).2.2
  (rel, s.mtxReserve a (budgetOf p.fill p.run))

/-- Release and reserve of an MMERGE that would issue now. -/
def mmergeProjection (s : State) (a : Nat) (o : MmergeOps) : Nat × Nat :=
  let md := modeNat o.mode.toNat
  let m := s.mtx a
  let fa := if o.first then m.freeAt (spanOf o.slot.toNat md) else 0
  ((projectTile m s.cycle 16 (imageRun md) fa).2.2, s.mtxReserve a (budgetOf 16 (imageRun md)))

/-- The mode of the slot an MSAVE reads. -/
def saveMode (s : State) (a u : Nat) : AccMode := (((s.mtx a).slotAt u).map SlotI.mode).getD .f32

/-- The conditions of a matrix instruction (R154). -/
def mtxCheck (i : SeqInstr) (s : State) (a : Nat) : Att :=
  match i with
  | .mma o =>
    let tr := mmaTrap s a o
    if s.cycle ≥ 64 && !s.mtxHeld a && tr.isNone && s.maskPoison a o then .hold 0 1
    else engineCheck s (s.mtxHeld a) tr (s.mtxFull a) (let (r, q) := mmaProjection s a o; s.admits r q)
  | .mmerge o =>
    engineCheck s (s.mtxHeld a) (mmergeTrap s a o) (s.mtxFull a) (let (r, q) := mmergeProjection s a o; s.admits r q)
  | .msave o =>
    engineCheck s (s.mtxHeld a) (msaveTrap s a o) (s.mtxFull a)
      (s.admits (projectSave (s.mtx a) s.cycle (imageRun (saveMode s a o.slot.toNat))) (s.mtxReserve a 0))
  | .mfree o =>
    engineCheck s (s.mtxHeld a) (mfreeTrap s a o) (s.mtxFull a)
      (s.admits (projectFree (s.mtx a) s.cycle 0) (s.mtxReserve a 0))
  | _ => .go

/-- On reaching the head: released MFREEs leave the engine, and an MMA whose block-mask word is poisoned is a commit
point, recorded once with the address of that word (R347, R348, Table 13-9). -/
def mtxPre (i : SeqInstr) (a : Nat) (s : State) : State :=
  let s := s.mtxSettle a
  match i with
  | .mma o =>
    if mtxCheck i s a = .hold 0 1 ∧ (s.seq a).hold.map (fun h => (h.kind, h.id)) ≠ some (0, 1) then
      s.poisonSite a 3 (padAddr a (8 * ((maskBit s a o).2 / 8)))
    else s
  | _ => s

/-! ### Effects at issue -/

/-- BASE and SBASE of a matrix descriptor advance (R80). -/
def State.advance (s : State) (a n : Nat) : State :=
  let s := s.wr F.MTX_OPD_BASE a n (s.rd F.MTX_OPD_BASE a n + s.rd F.MTX_OPD_ADV a n)
  s.wr F.MTX_OPS_SBASE a n (s.rd F.MTX_OPS_SBASE a n + s.rd F.MTX_OPS_SADV a n)

/-- The descriptors an instruction names, each once (R80). -/
def namedOpds : SeqInstr → List Nat
  | .mma o => if o.opdA = o.opdB then [o.opdA.toNat] else [o.opdA.toNat, o.opdB.toNat]
  | .mmerge o => [o.opd.toNat]
  | .msave o => [o.opd.toNat]
  | _ => []

/-- The operands of an MMA as they read now, with their block scales: the rows A[i] and the columns B[·][j] over k (R78, R79). -/
def State.mmaOperands (s : State) (a : Nat) (o : MmaOps) (p : MmaPlan) : List (List Num) × List (List Num) :=
  let side (desc ops : Word) (tr : Bool) : List (List Num) :=
    let f := opdFmt desc
    let rows := s.opdRowsNat a desc tr o.K
    let sc := if opdMx desc then s.opdScales a ops o.K else []
    (List.range 64).map (fun x => (List.range o.K).map (fun k =>
      opdValue f (opdMx desc) sc x k (opdElem rows tr (fmtWidth f) x k)))
  (side p.descA p.opsA o.ta, side p.descB p.opsB o.tb)

/-- The cells of an MMA after its run; rows the mask gates have formed nothing (R77, R96). -/
def mmaCells (o : MmaOps) (p : MmaPlan) (mask : Word) (ab : List (List Num) × List (List Num)) : List CellX :=
  let md := modeNat o.mode.toNat
  (List.range 64).flatMap (fun i =>
    if mask.getLsbD i then
      let r := ab.1.getD i []
      ab.2.map (fun c => cellRun md (anchorFor md o.anchor.toNat)
        (elemProducts md (opdMx p.descA) (opdFmt p.descA) (opdFmt p.descB) o.K
          (fun k => r.getD k (.fin false 0 0)) (fun k => c.getD k (.fin false 0 0))))
    else List.replicate 64 CellX.start)

/-- ΔC of an MMA over its operands as they read now (R77), rows the mask gates left empty. -/
def State.mmaDelta (s : State) (a : Nat) (o : MmaOps) (p : MmaPlan) (mask : Word) : List (BitVec 128) :=
  (mmaCells o p mask (s.mmaOperands a o p)).map (fun c => c.w.toBits (modeNat o.mode.toNat))

/-! ### The Cairn's side of a run (R100 to R103) -/

/-- φ of an operand element; in the three-part form φ of each of its parts, and 0 for an operand that is not finite (R60, R100,
R102). -/
def phiParts (three : Bool) (x : Num) : List Nat :=
  if three then (if x.special then [0, 0, 0] else (threeParts x).map phiNum) else [phiNum x]

/-- The pairs of parts whose products are formed (R60). -/
def partPairs (three : Bool) : List (Nat × Nat) :=
  if three then [(0, 0), (0, 1), (1, 0), (0, 2), (2, 0), (1, 1)] else [(0, 0)]

/-- The sum of one side's parts over its 64 rows or columns at each k: `ok i` tells whether the mask lets i in. -/
def readSums (three : Bool) (K : Nat) (ok : Nat → Bool) (l : List (List Num)) : List (List Nat) :=
  (List.range K).map (fun k => (List.range (if three then 3 else 1)).map (fun n =>
    sumP ((List.range 64).map (fun i =>
      if ok i then (phiParts three ((l.getD i []).getD k (.fin false 0 0))).getD n 0 else 0))))

/-- The operand side of one row's or column's checksum: its own elements against the sums of the other side (R102). -/
def operandSum (three : Bool) (K : Nat) (own : List Num) (sums : List (List Nat)) (swap : Bool) : Nat :=
  sumP ((List.range K).flatMap (fun k =>
    let x := phiParts three (own.getD k (.fin false 0 0))
    let y := sums.getD k []
    (partPairs three).map (fun q => let q := if swap then (q.2, q.1) else q
      x.getD q.1 0 * y.getD q.2 0)))

/-- What the Cairn forms of an MMA from the operands at the read port, and the ρ values it takes from the cells (R101 to R103). -/
def mmaChecks (o : MmaOps) (p : MmaPlan) (mask : Word) (ab : List (List Num) × List (List Num)) (cells : List CellX) : CairnX :=
  let md := modeNat o.mode.toNat
  let three := !opdMx p.descA && opdFmt p.descA == 0 && opdFmt p.descB == 0
  let sa := readSums three o.K (fun i => mask.getLsbD i) ab.1
  let sb := readSums three o.K (fun _ => true) ab.2
  let zero : Num := .fin false 0 0
  { rho := cells.map (fun c => BitVec.ofNat 61 c.rho)
    rows := (List.range 64).map (fun i => BitVec.ofNat 61 (if mask.getLsbD i then operandSum three o.K (ab.1.getD i []) sb false else 0))
    cols := (List.range 64).map (fun j => BitVec.ofNat 61 (operandSum three o.K (ab.2.getD j []) sa true))
    tags := if md = .f32 then [] else (List.range 64).flatMap (fun i => (List.range 64).map (fun j =>
      if mask.getLsbD i then BitVec.ofNat 3 (flagTag ((List.range o.K).map (fun k =>
        ((ab.1.getD i []).getD k zero).mul ((ab.2.getD j []).getD k zero)))) else 0))
    rhoC := []
    took := cells.foldl (fun t c => t ||| c.took) 0 }

/-- A run of an MMA over its operands as they read now: ΔC and the Cairn's part. -/
def State.mmaRun (s : State) (a : Nat) (o : MmaOps) (p : MmaPlan) (mask : Word) : List (BitVec 128) × CairnX :=
  (s.mmaDelta a o p mask, mmaChecks o p mask (s.mmaOperands a o p) (mmaCells o p mask (s.mmaOperands a o p)))

/-- The tag of a word by its special value alone: NaN, an infinity, else 0 (R102). -/
def wordTag (md : AccMode) (w : BitVec 128) : BitVec 3 :=
  let t := (MW.ofBits md w).tag
  if t = 1 then 0 else BitVec.ofNat 3 t

/-- An image as an MMERGE drains it, and the tags the Cairn reads from it (R102). -/
def State.mmergeRun (s : State) (a base : Nat) (md : AccMode) : List (BitVec 128) × CairnX :=
  let ws := s.imageWords a base md
  (ws, { CairnX.none with tags := if md = .f32 then [] else ws.map (wordTag md) })

/-- Every decode of an operand's words noted (R342). -/
def State.noteOpd (s : State) (a : Nat) (desc ops : Word) (tr : Bool) (K : Nat) : State :=
  let base := padBase (spurNo a)
  let s := (List.range (opdRows tr K)).foldl (fun s r =>
    s.noteReads a 1 base (padAddr a (opdRowAt desc r)) (opdRowLen tr K (fmtWidth (opdFmt desc)))) s
  if opdMx desc then
    (List.range 64).foldl (fun s r => s.noteReads a 1 base (padAddr a (opsBase ops + r * opsPitch ops)) (K / 32)) s
  else s

/-- A tile at issue, with nothing run yet. -/
def Tile.start (k : TileKind) (i : SeqInstr) (u : Nat) (md : AccMode) (anchor : Int) (first last : Bool)
    (now : Nat) : Tile :=
  { kind := k, instr := i, slot := u, mode := md, anchor := anchor, first := first, last := last, descA := 0,
    descB := 0, scaleA := 0, scaleB := 0, rowMask := BitVec.allOnes 64, count := 0, fill := 16, run := 0, lastK := 0,
    rel := 0, freeAt := 0, exact := [], delta := [], orig := [], old := [], new := [], chk := CairnX.none, poisonIn := false,
    poisonOut := false, stage := .running, upset := Upset.none, logged := false, issued := now }

/-- The issue-time slot after an MMA or MMERGE (Table 03-5). -/
def slotAfter (m : MtxX) (x : Tile) (n rel : Nat) : SlotI :=
  match (if x.first then none else m.slotAt x.slot) with
  | some y => { y with count := y.count + n, closed := x.last, lastRel := if x.last then rel else y.lastRel }
  | none => ⟨x.slot, x.mode, x.anchor, n, x.last, rel, 0⟩

/-- A tile enters the engine: its slot, its schedule, PROJ, the reserve and its descriptors (R80, R85, R91, R92). -/
def State.pushTile (s : State) (a : Nat) (x : Tile) (n rel budget : Nat) : State :=
  let s := s.modMtx a (fun m =>
    { m with slots := putSlotI m.slots (slotAfter m x n rel), tiles := List.append m.tiles [x], relPrev := rel,
             lastK := if x.kind.pends then x.lastK else m.lastK,
             pendRels := if x.kind.pends then (rel :: m.pendRels).take 4 else m.pendRels,
             reserve := max m.reserve budget })
  let s := s.wr F.MTX_STATUS_PROJ a 0 rel
  (namedOpds x.instr).foldl (fun s n => s.advance a n) s

/-- The effect of an MMA at issue: a skipped one releases one cycle after its predecessor (R99); another reads its
operands, which the program keeps until release (R107). -/
def mmaEffect (a : Nat) (o : MmaOps) (s : State) : State :=
  let p := mmaPlan s a o
  let m := s.mtx a
  let md := modeNat o.mode.toNat
  let u := o.slot.toNat
  let fa := if o.first then m.freeAt (spanOf u md) else 0
  let (rel, _) := mmaProjection s a o
  let b := budgetOf p.fill p.run
  let x0 := Tile.start .skip (.mma o) u md (anchorFor md o.anchor.toNat) o.first o.last s.cycles
  let s := if o.bm then s.noteReads a 1 (padBase (spurNo a)) (padAddr a (maskBit s a o).2) 1 else s
  if s.maskSkips a o then
    (s.pushTile a { x0 with rel := rel, freeAt := fa, lastK := s.cycle } 0 rel b).count C.MTX_CNT_SKIP a
  else
    let (_, lk, _) := projectTile m s.cycle p.fill p.run fa
    let mask := s.rowMask a o.rmask.toNat
    let (d, ck) := s.mmaRun a o p mask
    let x := { x0 with kind := .mma, descA := p.descA, descB := p.descB, scaleA := p.opsA, scaleB := p.opsB,
                       rowMask := mask, count := o.K, fill := p.fill, run := p.run, lastK := lk, rel := rel,
                       freeAt := fa, exact := d, delta := d, chk := ck,
                       poisonIn := s.opdPoison a p.descA p.opsA o.ta o.K || s.opdPoison a p.descB p.opsB o.tb o.K }
    let s := (s.noteOpd a p.descA p.opsA o.ta o.K).noteOpd a p.descB p.opsB o.tb o.K
    s.pushTile a x o.K rel b

/-- The effect of an MMERGE at issue (R83). -/
def mmergeEffect (a : Nat) (o : MmergeOps) (s : State) : State :=
  let m := s.mtx a
  let md := modeNat o.mode.toNat
  let u := o.slot.toNat
  let base := imageBase s a o.opd.toNat
  let fa := if o.first then m.freeAt (spanOf u md) else 0
  let (_, lk, rel) := projectTile m s.cycle 16 (imageRun md) fa
  let (ws, ck) := s.mmergeRun a base md
  let n := (s.imageHeader a base).2.2
  let x := { Tile.start .mmerge (.mmerge o) u md (anchorFor md o.anchor.toNat) o.first o.last s.cycles with
             descA := s.word .MTX_OPD a o.opd.toNat, count := n, run := imageRun md, lastK := lk, rel := rel,
             freeAt := fa, exact := ws, delta := ws, chk := ck, poisonIn := s.enginePoison (padAddr a base) (imageSize md) }
  let s := s.noteReads a 1 (padBase (spurNo a)) (padAddr a base) (imageSize md)
  s.pushTile a x n rel (budgetOf 16 (imageRun md))

/-- The effect of an MSAVE at issue: the slot is read at its release (R86). -/
def msaveEffect (a : Nat) (o : MsaveOps) (s : State) : State :=
  let m := s.mtx a
  let u := o.slot.toNat
  let md := saveMode s a u
  let rel := projectSave m s.cycle (imageRun md)
  let x := { Tile.start .msave (.msave o) u md 0 false false s.cycles with
             descA := s.word .MTX_OPD a o.opd.toNat, run := imageRun md, lastK := s.cycle, rel := rel }
  let s := s.modMtx a (fun m => { m with tiles := List.append m.tiles [x], relPrev := rel })
  (s.wr F.MTX_STATUS_PROJ a 0 rel).advance a o.opd.toNat

/-- The vector reserve in force (R123). -/
def State.vecReserve (s : State) (a : Nat) : Nat := if s.rd F.VEC_STATUS_REPLAY_SPENT a = 1 then 0 else 6

/-- The cycle an MFREE makes its span physically Free (R86). -/
def freeCycle (rel readEnd qv : Nat) : Nat := if readEnd = 0 then rel else max rel (readEnd + qv)

/-- The effect of an MFREE at issue: its span is Free for issue, and pf is fixed (R85, R86). -/
def mfreeEffect (a : Nat) (o : MfreeOps) (s : State) : State :=
  let m := s.mtx a
  let u := o.slot.toNat
  match m.slotAt u with
  | none => s
  | some y =>
    let rel := projectFree m s.cycle 0
    let pf := freeCycle rel y.readEnd (s.vecReserve a)
    let x := { Tile.start .mfree (.mfree o) u y.mode y.anchor false false s.cycles with lastK := s.cycle, rel := rel }
    let s := s.modMtx a (fun m =>
      { m with slots := m.slots.filter (fun z => z.start != u),
               frees := List.append (m.frees.filter (fun f => !(spanOf u y.mode).contains f.1))
                          ((spanOf u y.mode).map (fun k => (k, pf))),
               tiles := List.append m.tiles [x], relPrev := rel })
    s.wr F.MTX_STATUS_PROJ a 0 rel

/-- One attempt of a matrix instruction to issue. -/
def mtxCmd (p : At) (i : SeqInstr) (eff : State → State) (s : State) : State :=
  issueWith p i (mtxPre i p.site.toNat) (fun s => mtxCheck i s p.site.toNat) eff .on s

/-- MMA (R76 to R81, R96 to R99). -/
def execMma (p : At) (o : MmaOps) (s : State) : Host.Outcome State Fault Refusal :=
  .next (mtxCmd p (.mma o) (mmaEffect p.site.toNat o) s)
/-- MMERGE (R83). -/
def execMmerge (p : At) (o : MmergeOps) (s : State) : Host.Outcome State Fault Refusal :=
  .next (mtxCmd p (.mmerge o) (mmergeEffect p.site.toNat o) s)
/-- MSAVE (R82, R85). -/
def execMsave (p : At) (o : MsaveOps) (s : State) : Host.Outcome State Fault Refusal :=
  .next (mtxCmd p (.msave o) (msaveEffect p.site.toNat o) s)
/-- MFREE (R85, R86). -/
def execMfree (p : At) (o : MfreeOps) (s : State) : Host.Outcome State Fault Refusal :=
  .next (mtxCmd p (.mfree o) (mfreeEffect p.site.toNat o) s)

/-! ### The Cairn's judgement (R100 to R104) -/

/-- A disagreement: its kind (1 SINGLE, 2 MULTI, 3 TAG), its place and its syndrome. -/
structure Dis where
  kind : Nat
  row : Nat
  col : Nat
  synd : Nat
  deriving DecidableEq, Repr

/-- Words with an upset's changes; a row the mask gates has none. -/
def applyCells (mask : Word) (u : Upset) (l : List (BitVec 128)) : List (BitVec 128) :=
  u.cells.foldl (fun l c =>
    if mask.getLsbD c.1.toNat then l.set (64 * c.1.toNat + c.2.1.toNat) c.2.2 else l) l

/-- What an upset adds to a syndrome. -/
def upsetAdd (l : List (BitVec 6 × BitVec 61)) (i : Nat) : Nat :=
  (l.filter (fun x => x.1.toNat == i)).foldl (fun n x => n + x.2.toNat) 0

/-- The syndromes of the rows and columns: the checker's sums of `lhs` over the 64 × 64 elements less the other sides, with what
an upset adds; rows the mask gates are left out (R96, R102, R104). -/
def syndromes (mask : Word) (lhs : List Nat) (rows cols : List Nat) (u : Upset) : List Nat × List Nat :=
  let lhs (i j : Nat) : Nat := if mask.getLsbD i then lhs.getD (64 * i + j) 0 else 0
  ((List.range 64).map (fun i => (leftOver (sumP ((List.range 64).map (fun j => lhs i j))) (rows.getD i 0) + upsetAdd u.rowAdd i) % cairnP),
   (List.range 64).map (fun j => (leftOver (sumP ((List.range 64).map (fun i => lhs i j))) (cols.getD j 0) + upsetAdd u.colAdd j) % cairnP))

/-- The indices and values that are not zero. -/
def nonzeros (l : List Nat) : List (Nat × Nat) := ((List.range l.length).zip l).filter (fun x => x.2 != 0)

/-- The Cairn's classification of its syndromes and of a difference of the tags (R102, R104, Table 03-17). -/
def classify (sy : List Nat × List Nat) (tag : Bool) : Option Dis :=
  let rz := nonzeros sy.1
  let cz := nonzeros sy.2
  let firstOf := (cz ++ rz).head?.map Prod.snd |>.getD 0
  if tag then some ⟨3, 0, 0, firstOf⟩
  else match rz, cz with
    | [], [] => none
    | [(i, x)], [(j, y)] => if x = y then some ⟨1, i, j, x⟩ else some ⟨2, 0, 0, firstOf⟩
    | _, _ => some ⟨2, 0, 0, firstOf⟩

/-- Whether the tags of words differ from those the Cairn's duplicate gives; an F32 word has none (R102). -/
def tagsDiffer (md : AccMode) (ws : List (BitVec 128)) (tags : List (BitVec 3)) : Bool :=
  (ws.zip tags).any (fun (w, t) => wordTag md w != t)

/-- The judgement at the verdict: φ(ΔC) + ρ against the operand sums, and the tags; for an MMERGE only the tags (R102). -/
def Tile.judgeDelta (x : Tile) (got : List (BitVec 128)) (u : Upset) : Option Dis :=
  let tag := u.tag || tagsDiffer x.mode got x.chk.tags
  if x.kind = .mma then
    classify (syndromes x.rowMask (List.zipWith (fun w r => phiWord x.mode x.anchor w + BitVec.toNat r) got x.chk.rho)
      (x.chk.rows.map BitVec.toNat) (x.chk.cols.map BitVec.toNat) u) tag
  else classify ([], []) tag

/-- ρc of a commit: what of the slot's words and of ΔC the addition does not place in the new words (R102). -/
def commitRho (md : AccMode) (anchor : Int) (old delta new : List (BitVec 128)) : List (BitVec 61) :=
  List.zipWith (fun (p : BitVec 128 × BitVec 128) n => BitVec.ofNat 61
    (leftOver (phiWord md anchor p.1 + phiWord md anchor p.2) (phiWord md anchor n))) (old.zip delta) new

/-- The contribution a commit is checked against: an image as the Cairn read it, or the agreed ΔC (R102). -/
def Tile.agreedDelta (x : Tile) : List (BitVec 128) := if x.kind = .mmerge then x.exact else x.delta

/-- The tag of a sum by the special values of its two words (R62). -/
def joinTag (a b : BitVec 3) : BitVec 3 :=
  if a = 4 ∨ b = 4 ∨ (a = 2 ∧ b = 3) ∨ (a = 3 ∧ b = 2) then 4
  else if a = 2 ∨ b = 2 then 2 else if a = 3 ∨ b = 3 then 3 else 0

/-- The judgement at the commit check: φ(new) + ρc against φ(old) + φ(ΔC), and the tags (R102). -/
def Tile.judgeCommit (x : Tile) : Option Dis :=
  let d := x.agreedDelta
  let side (i j : Nat) : Nat := phiWord x.mode x.anchor (x.old.getD (64 * i + j) 0) + phiWord x.mode x.anchor (d.getD (64 * i + j) 0)
  let kept (f : Nat → Nat) (i : Nat) : Nat := if x.rowMask.getLsbD i then f i else 0
  let tags := List.zipWith (fun i (p : BitVec 128 × BitVec 128) => if x.rowMask.getLsbD (i / 64)
    then joinTag (wordTag x.mode p.1) (wordTag x.mode p.2) else wordTag x.mode p.1) (List.range 4096) (x.old.zip d)
  classify (syndromes x.rowMask (List.zipWith (fun w r => phiWord x.mode x.anchor w + BitVec.toNat r) x.new x.chk.rhoC)
      ((List.range 64).map (kept (fun i => sumP ((List.range 64).map (fun j => side i j)))))
      ((List.range 64).map (fun j => sumP ((List.range 64).map (kept (fun i => side i j))))) x.upset)
    (x.upset.tag || (x.mode != .f32 && tagsDiffer x.mode x.new tags))

/-- A disagreement counted and logged (Tables 03-15 to 03-18); whether CHK_LOG now holds it. -/
def State.logDis (s : State) (a : Nat) (d : Dis) : State × Bool :=
  let s := s.count C.CHK_CNT_DISAGREE a
  let all := s.rd F.CHK_CTRL_LOG_ALL a == 1
  let takes (w : Word) : Bool := all || fieldGet F.CHK_LOG_KIND w == 0
  let mine := takes (s.word .CHK_LOG a 0)
  let s := s.note .CHK_LOG a 0 (fun w => if takes w then
      setFields [(F.CHK_LOG_KIND, d.kind), (F.CHK_LOG_ROW, d.row), (F.CHK_LOG_COL, d.col), (F.CHK_LOG_OUTCOME, 0),
                 (F.CHK_LOG_PITCH, s.pitch)] w else w)
  (if mine then s.wr F.CHK_SYND_SYND a 0 d.synd else s, mine)

/-- The outcome of a disagreement: 1 data-path transient, 2 checker transient, 3 undecided (R106, Table 03-18). -/
def State.setOutcome (s : State) (a o : Nat) (logged : Bool) : State :=
  let s := match o with
    | 1 => s.count C.CHK_CNT_DPT a
    | 2 => s.count C.CHK_CNT_CKT a
    | _ => s.count C.CHK_CNT_UNDEC a
  if logged then s.wr F.CHK_LOG_OUTCOME a 0 o else s

/-- The state with the i-th tile replaced. -/
def State.setTile (s : State) (a i : Nat) (x : Tile) : State := s.modMtx a (fun m => { m with tiles := m.tiles.set i x })

/-- A tile becomes undecided (R107). -/
def State.undecideTile (s : State) (a i : Nat) (x : Tile) : State :=
  let s := (s.setTile a i { x with stage := .undecided }).setOutcome a 3 x.logged
  (s.wr F.MTX_STATUS_HELD a 0 1).suspect a 2

/-- The tile instructions still to come planned again at cycle v: started runs keep their k steps, a re-run follows
the run then in the array and no earlier than `from_`, and later runs follow in issue order (R91, R106). `af` is
the cycle the array is free, `prev` the release before, `hist` the last pending releases, newest first. -/
def replan (v from_ : Nat) : List Tile → Nat → Nat → List Nat → List Tile × (Nat × Nat × List Nat)
  | [], af, prev, hist => ([], (af, prev, hist))
  | x :: l, af, prev, hist =>
    if x.kind.pends then
      let started := x.stage != .rerun && decide (x.lastK + 1 - x.run ≤ v)
      let first := if x.stage = .rerun then max from_ af
        else max (max (x.lastK + 1 - x.run) af) (hist.getD 3 0 + 1)
      let lk := if started then x.lastK else first + x.run - 1
      let rel := if x.stage = .committed ∨ x.stage = .recommitted then x.rel
        else max (max (lk + 48) prev) x.freeAt + 32
      let (l, e) := replan v from_ l (if started then af else lk + 1) rel (rel :: hist)
      ({ x with lastK := lk, rel := rel } :: l, e)
    else
      let rel := if x.kind = .msave then max (x.lastK + 16) (prev + 1) + x.run - 1
        else max (max x.lastK prev + 1) (if x.freeAt = 0 then 0 else x.freeAt + 1)
      let (l, e) := replan v from_ l af rel hist
      ({ x with rel := rel } :: l, e)

/-- The engine's schedule after a disagreement at cycle v. -/
def State.mtxReplan (s : State) (a v from_ : Nat) : State :=
  s.modMtx a (fun m =>
    let busy := (m.tiles.filter (fun x => x.kind.pends && x.stage != .rerun && decide (x.lastK + 1 - x.run ≤ v))).foldl
      (fun n x => max n (x.lastK + 1)) 0
    let pend := (m.tiles.filter (fun x => x.kind.pends)).length
    let (l, (af, prev, hist)) := replan v from_ m.tiles busy m.relAct (m.pendRels.drop pend)
    let slots := l.foldl (fun sl x =>
      if x.last then sl.map (fun y => if y.start = x.slot then { y with lastRel := x.rel } else y)
      else sl) m.slots
    { m with tiles := l, lastK := max m.lastK (af - 1), relPrev := prev, pendRels := hist.take 4, slots := slots })

/-- REEXEC_SPENT in the current pitch (R107). -/
def State.mtxSpent (s : State) (a : Nat) : Bool := s.rd F.MTX_STATUS_REEXEC_SPENT a == 1
def State.mtxSpend (s : State) (a : Nat) : State := s.wr F.MTX_STATUS_REEXEC_SPENT a 0 1

/-- Whether any word an instruction reads is poisoned, its slot's words included (R346, Table 13-2). -/
def tilePoison (m : MtxX) (x : Tile) : Bool :=
  x.poisonIn || (!x.first && ((m.physAt x.slot).map (fun y => y.poison || y.synd.any (fun e => decodeSynd e.2 == .bad))).getD false)

/-- Cycles the array spends on a run are counted (Table 03-18, Table 11-4). -/
def State.countRun (s : State) (a : Nat) (x : Tile) : State :=
  if x.kind = .mma then
    let s := s.count C.MTX_CNT_BUSY a x.run
    if s.rd F.MTX_RECOMP_EN a = 1 ∧ s.rd F.MTX_RECOMP_FIRST_UNIT a ≤ x.slot ∧ x.slot ≤ s.rd F.MTX_RECOMP_LAST_UNIT a
    then s.count C.MTX_CNT_RECOMP_BUSY a x.run else s
  else s

/-- What the words of a run leave in MOR_STATUS: the tags its cells took, and a reserved tag read from an image (R63, Table 02-10). -/
def State.ranTags (s : State) (a : Nat) (x : Tile) : State :=
  (s.raiseTook a x.slot x.chk.took).raiseBadTag a (x.kind == .mmerge && x.exact.any (badTag x.mode))

/-- The verdict on a tile's first run (R105 to R107, R346). -/
def verdictFirst (a i : Nat) (x : Tile) (u : Upset) (s : State) : State :=
  let s := (s.countRun a x).ranTags a x
  let got := applyCells x.rowMask u x.exact
  let x := { x with delta := got, upset := u }
  match x.judgeDelta got u with
  | none => s.setTile a i { x with stage := .agreed }
  | some d =>
    let (s, lg) := s.logDis a d
    let x := { x with logged := lg }
    if tilePoison (s.mtx a) x then
      (s.setTile a i { x with stage := .agreed, poisonOut := true }).count C.CHK_CNT_POISONREL a
    else if s.mtxSpent a then s.undecideTile a i { x with orig := got }
    else
      ((s.mtxSpend a).setTile a i { x with stage := .rerun, orig := got }).mtxReplan a s.cycle (s.cycle + 1 + x.fill)

/-- The verdict on a re-run (R106, R352). -/
def verdictRerun (a i : Nat) (x : Tile) (s : State) : State :=
  let s := (s.countRun a x).ranTags a x
  let same := x.delta == x.orig
  let s := s.wr F.CHK_SYND_SAME a 0 same.toNat
  match x.judgeDelta x.delta x.upset with
  | none => (s.setTile a i { x with stage := .agreed }).setOutcome a (if same then 2 else 1) x.logged
  | some d =>
    let (s, lg) := s.logDis a d
    s.undecideTile a i { x with logged := x.logged || lg }

/-- A command of a site's engine: nothing happens when its cycle is past or lies outside the pitch. -/
def atSite (p : At) (f : State → State) (s : State) : State :=
  if s.reaches p.t.toNat then f (s.at_ p.t.toNat) else s

/-- An event of the engines of a site in cycle t. -/
def atEngine (p : At) (f : State → State) (s : State) : State :=
  if s.engineOn p.site.toNat then atSite p f s else s

/-- The first tile whose verdict is due (R105). -/
def verdictDue (t : Nat) (x : Tile) : Bool :=
  x.kind.pends && (x.stage == .running || x.stage == .reran) && decide (x.lastK + 48 ≤ t)

/-- TILE_VERDICT (R105 to R107). -/
def execTileVerdict (p : At) (u : Upset) (s : State) : Host.Outcome State Fault Refusal :=
  .next (atEngine p (fun s =>
    let a := p.site.toNat
    let l := (s.mtx a).tiles
    match l.findIdx? (verdictDue s.cycle) with
    | none => s
    | some i =>
      match l[i]? with
      | none => s
      | some x => if x.stage = .running then verdictFirst a i x u s else verdictRerun a i x s) s)

/-- The run of a tile formed again from the same operands and the descriptors of its issue, with the Cairn's part (R106). -/
def State.runAgain (s : State) (a : Nat) (x : Tile) : List (BitVec 128) × CairnX :=
  match x.instr with
  | .mma o => s.mmaRun a o ⟨x.descA, x.descB, x.scaleA, x.scaleB, x.fill, x.run⟩ x.rowMask
  | .mmerge _ => s.mmergeRun a (64 * opdBase x.descA) x.mode
  | _ => (x.exact, x.chk)

/-- The contribution of a tile formed again (R106). -/
def State.tileAgain (s : State) (a : Nat) (x : Tile) : List (BitVec 128) := (s.runAgain a x).1

/-- TILE_REEXECUTION (R106): the re-run of the disputed tile starts, no earlier than its first k step. -/
def execTileReexecution (p : At) (u : Upset) (s : State) : Host.Outcome State Fault Refusal :=
  .next (atEngine p (fun s =>
    let a := p.site.toNat
    let l := (s.mtx a).tiles
    match l.findIdx? (fun x => x.stage == .rerun && decide (x.lastK + 1 - x.run ≤ s.cycle)) with
    | none => s
    | some i =>
      match l[i]? with
      | none => s
      | some x =>
        let d := s.tileAgain a x
        s.setTile a i { x with exact := d, delta := applyCells x.rowMask u d, chk := (s.runAgain a x).2, upset := u, stage := .reran }) s)

/-! ### Commit and release (R105, R87) -/

/-- A slot's words when empty: FIN zero, or +0. -/
def zeroWords : List (BitVec 128) := List.replicate 4096 0

/-- The words of a slot before a commit: zero words when FIRST is set. -/
def wordsBefore (m : MtxX) (x : Tile) : List (BitVec 128) :=
  if x.first then zeroWords else ((m.physAt x.slot).map (fun y => (y.span 0 4096).map Prod.fst)).getD zeroWords

/-- The words a commit should give: every unmasked row takes the contribution (R71, R77, R96). -/
def Tile.commitWords (x : Tile) (delta old : List (BitVec 128)) : List (BitVec 128) :=
  List.zipWith (fun i (p : BitVec 128 × BitVec 128) =>
    if x.rowMask.getLsbD (i / 64) then (MW.add x.mode (MW.ofBits x.mode p.1) (MW.ofBits x.mode p.2)).toBits x.mode
    else p.1) (List.range 4096) (old.zip delta)

/-- A commit of the oldest tile onto the words `old`, met by an upset `u`: the new words, with the ρc of the addition (R102, R105). -/
def Tile.commitOnto (x : Tile) (u : Upset) (old : List (BitVec 128)) : Tile :=
  let new := x.commitWords x.delta old
  { x with old := old, new := applyCells x.rowMask u new, upset := u
           chk := { x.chk with rhoC := commitRho x.mode x.anchor old x.delta new } }

/-- What the words of a commit leave in MOR_STATUS: the tags slot words take, and a reserved tag read from the slot (R63,
Table 02-10). -/
def State.commitTags (s : State) (a : Nat) (x : Tile) : State :=
  let (sat, inf, nan) := newTags x.mode x.old x.new
  (s.raiseMor a x.slot sat inf nan).raiseBadTag a (!x.first && x.old.any (badTag x.mode))

/-- TILE_COMMIT (R77, R87, R105): the oldest tile, agreed, is added into its slot after its predecessor's release and
the physical free of its span. -/
def execTileCommit (p : At) (u : Upset) (s : State) : Host.Outcome State Fault Refusal :=
  .next (atEngine p (fun s =>
    let a := p.site.toNat
    let s := s.mtxSettle a
    let m := s.mtx a
    match m.tiles with
    | [] => s
    | x :: _ =>
      if x.kind.pends && x.stage == .agreed && decide (max (max (x.lastK + 48) m.relAct) x.freeAt < s.cycle) &&
          !m.spanWaits x then
        let x := x.commitOnto u (wordsBefore m x)
        let s := if x.first then s else s.readSlot a x.slot 0 4096
        (s.setTile a 0 { x with stage := .committed, rel := s.cycle + 31 }).commitTags a x
      else s) s)

/-- Credits of CSRC 1 for an instruction released, back in the next cycle (R190). -/
def State.mtxCredits (s : State) (a : Nat) (opds : List Nat) : State :=
  ((List.range 4).filter (fun n => s.rd F.STR_DESC_CSRC a n == 1 &&
      opds.any (fun k => decide (s.rd F.STR_DESC_CIDX a n ≤ k) &&
        decide (k ≤ s.rd F.STR_DESC_CIDX a n + s.rd F.STR_DESC_CNUM a n)))).foldl
    (fun s n => { s with credNext := aput s.credNext (a * 16 + n) (((aget s.credNext (a * 16 + n)).getD 0) + 1) }) s

/-- The slot's contents after a release. -/
def MtxX.physAfter (m : MtxX) (x : Tile) (words : List (BitVec 128)) (poison : Bool)
    (synd : List (Nat × BitVec 8) := []) : SlotP :=
  match (if x.first then none else m.physAt x.slot) with
  | some y => { y with count := y.count + x.count, words := words, synd := synd, poison := poison, done := y.done || x.last }
  | none => ⟨x.slot, x.mode, x.anchor, x.count, words, synd, poison, x.last⟩

/-- The oldest instruction leaves the engine in this cycle. -/
def State.dropTile (s : State) (a : Nat) (x : Tile) : State :=
  let now := s.cycle
  (s.modMtx a (fun m => { m with tiles := m.tiles.drop 1, relAct := now })).mtxCredits a (namedOpds x.instr)

/-- Whether a slot's first unit lies in the recompute range (R305). -/
def State.inRecomp (s : State) (a u : Nat) : Bool :=
  s.rd F.MTX_RECOMP_EN a == 1 && decide (s.rd F.MTX_RECOMP_FIRST_UNIT a ≤ u) && decide (u ≤ s.rd F.MTX_RECOMP_LAST_UNIT a)

/-- A referee's first result is kept for its verdict (R355). -/
def State.refResult (s : State) (a : Nat) (x : Tile) : State :=
  s.modHut (fun h => { h with refs := h.refs.map (fun r =>
    if r.referee == some a && r.running && r.result.isNone then { r with result := some (x.delta, x.new) } else r) })

/-- A tile is released: its slot words become visible (R105). -/
def State.releaseTile (s : State) (a : Nat) (x : Tile) : State :=
  let s := s.refResult a x
  let poison := x.poisonOut || tilePoison (s.mtx a) x
  let s := s.modMtx a (fun m => { m with phys := putSlotP m.phys (m.physAfter x x.new poison) })
  let s := if x.kind = .mma then
      let s := s.count C.MTX_CNT_TILES a
      if s.inRecomp a x.slot then s.count C.MTX_CNT_RECOMP a else s
    else s
  s.dropTile a x

/-- The commit check of the oldest tile (R102, R106, R107). -/
def commitCheck (a : Nat) (x : Tile) (u : Upset) (s : State) : State :=
  let again := x.stage == .recommitted
  let same := x.new == x.orig
  let s := if again then s.wr F.CHK_SYND_SAME a 0 same.toNat else s
  match x.judgeCommit with
  | none =>
    let s := if again then s.setOutcome a (if same then 2 else 1) x.logged else s
    s.releaseTile a x
  | some d =>
    let (s, lg) := s.logDis a d
    let x := { x with logged := x.logged || lg }
    if again then s.undecideTile a 0 x
    else if tilePoison (s.mtx a) x then (s.count C.CHK_CNT_POISONREL a).releaseTile a { x with poisonOut := true }
    else if s.mtxSpent a then s.undecideTile a 0 { x with orig := x.new }
    else
      let y := x.commitOnto u x.old
      (((s.mtxSpend a).setTile a 0 { y with orig := x.new, stage := .recommitted, rel := s.cycle + 32
                                   }).mtxReplan a s.cycle 0).commitTags a y

/-- TILE_RELEASE (R105, R106): the commit check of the oldest tile, and its release when the check passes; `u` is what
befalls a repeated commit. -/
def execTileRelease (p : At) (u : Upset) (s : State) : Host.Outcome State Fault Refusal :=
  .next (atEngine p (fun s =>
    let a := p.site.toNat
    match (s.mtx a).tiles with
    | [] => s
    | x :: _ =>
      if (x.stage == .committed || x.stage == .recommitted) && decide (x.rel ≤ s.cycle) then commitCheck a x u s
      else s) s)

/-- A slot word as a read finds it: a reserved tag is treated as NaN (R63). -/
def readWord (md : AccMode) (w : BitVec 128) : BitVec 128 := if badTag md w then (⟨4, 0⟩ : MW).toBits md else w

/-- MSAVE_SLOT_READ (R82, R86): the image of the slot is written once every earlier instruction is released. -/
def execMsaveSlotRead (p : At) (s : State) : Host.Outcome State Fault Refusal :=
  .next (atEngine p (fun s =>
    let a := p.site.toNat
    let s := s.mtxSettle a
    let m := s.mtx a
    match m.tiles with
    | [] => s
    | x :: _ =>
      if x.kind == .msave && decide (max (x.lastK + 16) (m.relAct + 1) + x.run - 1 ≤ s.cycle) then
        let base := 64 * opdBase x.descA
        match m.physAt x.slot with
        | none => s.dropTile a x
        | some y =>
          let ws := y.span 0 4096
          let bs := imageBytes y.mode y.anchor y.count (ws.map (fun w => readWord y.mode w.1))
          let s := (s.readSlot a x.slot 0 4096).raiseBadTag a (ws.any (fun w => badTag y.mode w.1))
          let s := s.putBytes (padAddr a base) bs
          let at_ (i : Nat) : List Nat := wordsOf (padAddr a (base + 64 + i * imageWord y.mode)) (imageWord y.mode)
          let s := (ws.zip (List.range 4096)).foldl (fun s w => if w.1.2 then (at_ w.2).foldl (fun s k => s.setPois k true) s else s) s
          s.dropTile a x
      else s) s)

/-- PHYSICAL_FREE (R86): spans whose cycle pf has come, and whose MFREE is released, become physically Free. -/
def execPhysicalFree (p : At) (s : State) : Host.Outcome State Fault Refusal :=
  .next (atEngine p (fun s =>
    let a := p.site.toNat
    let s := s.mtxSettle a
    let now := s.cycle
    s.modMtx a (fun m =>
      let due := (m.frees.filter (fun f => decide (f.2 ≤ now) && !m.mfreeIn f.1)).map Prod.fst
      { m with frees := m.frees.filter (fun f => !due.contains f.1),
               phys := m.phys.filter (fun y => !due.contains y.start) })) s)

/-- SKIPPED_MMA_RELEASE (R87, R99): zero words where FIRST is set. -/
def execSkippedMmaRelease (p : At) (s : State) : Host.Outcome State Fault Refusal :=
  .next (atEngine p (fun s =>
    let a := p.site.toNat
    let s := s.mtxSettle a
    let m := s.mtx a
    match m.tiles with
    | [] => s
    | x :: _ =>
      if x.kind == .skip && decide (max (max x.lastK m.relAct) x.freeAt + 1 ≤ s.cycle) &&
          !m.spanWaits x then
        let old := if x.first then none else m.physAt x.slot
        let poison := (old.map SlotP.poison).getD false
        let synd := (old.map SlotP.synd).getD []
        let s := s.modMtx a (fun m => { m with phys := putSlotP m.phys (m.physAfter x ((old.map SlotP.words).getD zeroWords) poison synd) })
        let s := if s.inRecomp a x.slot then s.count C.MTX_CNT_RECOMP a else s
        s.dropTile a x
      else s) s)

end Sys2Proof.Machine
end

