-- ==== Sys2Proof/Machine/Memory.lean ====
section
/-! DEFINITION. External memory (R260 to R282): the channel map, stripe frames, reads with their re-reads, writes,
patrol scrubbing, training, and the retirement and re-forming of groups. -/

namespace Sys2Proof.Machine

/-! ### Groups and channels (R260, R261, R266) -/

/-- Bytes of a group's address window (R265). -/
def groupSize : Nat := 0x3000000000
/-- Stripes of one channel (R261). -/
def chanStripes : Nat := 16777216

/-- The group of an external address. -/
def groupOf (x : Nat) : Nat := x / groupSize

/-- Physical channel of group channel index g of group k (Table 09-1, R261). -/
def physChan (k g : Nat) : Nat :=
  let p := g / 8
  let pkg := if p < 3 then 3 * k + p else 12 + 3 * k + (p - 3)
  pkg * 8 + g % 8

/-- Group of a physical channel. -/
def chanGroup (ch : Nat) : Nat := (ch / 8) % 12 / 3

/-- Entry i of a group's channel map (Table 09-6). -/
def State.mapEntry (s : State) (k i : Nat) : Nat := s.rd (F.MEM_GRP_MAP_ENTRY.at 8 (i % 8)) 0 (6 * k + i / 8) % 64

/-- State of a physical channel: 0 active, 1 marked, 2 retired, 3 excluded (Table 09-7). -/
def State.chanState (s : State) (ch : Nat) : Nat := s.rd (F.MEM_CH_STATE_CH.at 2 (ch % 32)) 0 (ch / 32)
def State.setChan (s : State) (ch v : Nat) : State := s.wr (F.MEM_CH_STATE_CH.at 2 (ch % 32)) 0 (ch / 32) v

/-- n, the channels in a group's map. -/
def State.liveChans (s : State) (k : Nat) : Nat := s.rd F.MEM_GRP_STATUS_LIVE 0 k
/-- State of a group (Table 09-4): 0 NORMAL, 1 DEGRADED, 2 REFORMING, 3 REFORMED, 4 OFFLINE. -/
def State.groupState (s : State) (k : Nat) : Nat := s.rd F.MEM_GRP_STATUS_STATE 0 k

/-- Whether the start-up pass of step MEMORY has ended (R280): the device is past that step. -/
def State.memReady (s : State) : Bool :=
  decide (s.rd F.CFG_DEV_STATE_STATE ≥ 4) || (s.rd F.CFG_DEV_STATE_STATE == 3 && !s.cfg.stepsLeft.contains 2)

/-- Where an external address resolves to (R266). -/
inductive Loc where
  | unbacked
  | retired (ch : Nat)
  | ok (ch : Nat) (off : Nat)
  deriving DecidableEq, Repr

/-- locate (R266); the byte address within the channel is that of the data, 256 B a stripe. -/
def State.locate (s : State) (x : Nat) : Loc :=
  let k := groupOf x
  let off := x % groupSize
  let st := off / 256
  let n := s.liveChans k
  if st ≥ n * chanStripes ∨ n = 0 then .unbacked
  else
    let ch := physChan k (s.mapEntry k (st % n))
    if s.chanState ch ≥ 2 then .retired ch else .ok ch (st / n * 256 + off % 256)

/-- Whether requests to the group meet nothing because it is re-forming (R277). -/
def State.reforming (s : State) (k : Nat) : Bool := s.groupState k == 2

/-- How a request to an external address is served: 0 served, 1 unbacked or re-forming, 2 retired. -/
def State.extServe (s : State) (x : Nat) : Nat :=
  if s.reforming (groupOf x) then 1
  else match s.locate x with
    | .unbacked => 1
    | .retired _ => 2
    | .ok _ _ => 0

/-- A request that is not served, counted (R275, R277, R278). -/
def State.countUnserved (s : State) (x : Nat) : State :=
  if s.extServe x = 1 then s.count C.MEM_CNT_UNBACKED (16 * groupOf x)
  else if s.extServe x = 2 then s.count C.MEM_CNT_RETIRED (16 * groupOf x)
  else s

/-! ### Words in memory and in transfer -/

/-- A word in transfer: its data, its stored syndrome and its poison bits, all of which move with it (R188). -/
structure RawWord where
  data : Word
  synd : Byte
  poison : BitVec 2
  deriving DecidableEq, Repr

/-- The n words at an address as they are stored. -/
def State.rawWords (s : State) (x n : Nat) : List RawWord :=
  (List.range n).map (fun i => ⟨s.word64 (x + 8 * i), mget 0 s.synd (x / 8 + i), s.pois (x / 8 + i)⟩)

/-- Words stored with their check and poison bits unchanged. -/
def State.putRawWords (s : State) (x : Nat) : List RawWord → State
  | [] => s
  | w :: l =>
    let s := s.putRaw x (leBytes w.data.toNat 8)
    let s := { s with synd := mput 0 s.synd (x / 8) w.synd, poison := mput 0 s.poison (x / 8) w.poison }
    s.putRawWords (x + 8) l

/-- n poisoned words whose data the manual does not give (R275, R277, R278). -/
def State.poisonWords (s : State) : Nat → List RawWord × State
  | 0 => ([], s)
  | n + 1 =>
    let (w, s) := s.fresh
    let (l, s) := s.poisonWords n
    (⟨w, 0, 3⟩ :: l, s)

/-! ### Stripe frames (R262, Table 09-2) -/

/-- The stripe number that keys a frame: its address / 256. -/
def stripeOf (x : Nat) : Nat := x / 256

/-- Stripes of a group's address window. -/
def groupStripes : Nat := groupSize / 256

/-- The address tag of a stripe: group number × 2^30 + stripe number within the group (Table 09-2). -/
def tagOf (st : Nat) : BitVec 32 := BitVec.ofNat 32 (st / groupStripes * 2 ^ 30 + st % groupStripes)

/-- The stored tag of a stripe, and the syndrome of its tag word. -/
def State.tagCell (s : State) (st : Nat) : BitVec 32 × Byte := (aget s.memc.tags st).getD (tagOf st, 0)

/-- The tag word of a stripe: its poison bits and its address tag (bytes 32 to 39). -/
def State.tagWord (s : State) (st : Nat) : Word :=
  let p := (List.range 32).foldl (fun n w => if s.pois (32 * st + w) != 0 then n + 2 ^ w else n) 0
  BitVec.ofNat 64 (p + 2 ^ 32 * (s.tagCell st).1.toNat)

/-- The metadata block of a stripe frame as its cells hold it (Table 09-2): check bytes of the data words, the tag word, its check
byte, and reserved bytes, written 0. -/
def State.metadata (s : State) (st : Nat) : List Byte :=
  List.flatten [
    (List.range 32).map (fun w => checkByte (s.word64 (256 * st + 8 * w)) ^^^ mget 0 s.synd (32 * st + w)),
    leBytes (s.tagWord st).toNat 8, [checkByte (s.tagWord st) ^^^ (s.tagCell st).2], List.replicate 23 0]

/-- A stripe whose tag is as the controllers write it. -/
def MemX.goodTag (m : MemX) (st : Nat) : MemX := { m with tags := adel m.tags st }

/-! ### Turns and queues of a channel (R268 to R270) -/

/-- Who presents a request to a channel: the couloir half, the Gate, the configuration controller, the Hut, patrol scrubbing. -/
inductive TurnOwner where
  | couloir | gate | config | hut | scrub
  deriving DecidableEq, Repr

/-- The owner of a turn (R268). -/
def turnOwner (t : Nat) : TurnOwner :=
  if t < 56 then .couloir else if t < 60 then .gate else if t < 62 then .config else if t < 63 then .hut else .scrub

def MemX.chan (m : MemX) (ch : Nat) : ChanX := (aget m.chans ch).getD ⟨0, []⟩

/-- The turn after the one in which an owner is granted, from turn t on: the couloir takes any turn that its owner leaves, another
owner its own, the turns before it going unused. -/
def turnAfter (t : Nat) (o : TurnOwner) : Nat :=
  match o with
  | .couloir => (t + 1) % 64
  | _ => (((List.range 64).map (fun d => (t + d) % 64)).find? (fun u => turnOwner u == o)).getD t + 1

/-- A turn of a channel granted (R268). -/
def State.takeTurn (s : State) (ch : Nat) (o : TurnOwner) : State :=
  let c := s.memc.chan ch
  { s with memc := { s.memc with chans := aput s.memc.chans ch { c with turn := turnAfter c.turn o % 64 } } }

/-- Whether a granted request of a stream is still to be completed. -/
def State.reqLive (s : State) (r : Nat × Nat × Nat) : Bool :=
  (s.str r.1 r.2.1).reqs.any (fun q => q.num == r.2.2 && q.ext)

/-- The requests in a channel's queue (R269). -/
def State.chanQueue (s : State) (ch : Nat) : List (Nat × Nat × Nat) := (s.memc.chan ch).queue.filter s.reqLive

/-- Whether a channel's queue is full: it grants no turn then (R269). -/
def State.chanFull (s : State) (ch : Nat) : Bool := decide ((s.chanQueue ch).length ≥ 32)

/-- Whether requests of a channel wait: for a re-read of a frame, which is executed ahead of them, or for an attempt of its training
to be repeated (R273). -/
def State.chanBusy (s : State) (ch : Nat) : Bool :=
  let n := (aget s.memc.trainFails ch).getD 0
  s.memc.rereads.any (fun r => match s.locate r.addr with
    | .ok c _ => c == ch
    | _ => false) || (n != 0 && decide (n < s.rd F.MEM_RETIRE_CFG_RETRAIN_MAX))

/-- A request of a stream granted by its channel: it joins the queue (R268, R269). -/
def State.chanGrant (s : State) (ch : Nat) (r : Nat × Nat × Nat) : State :=
  let q := s.chanQueue ch
  let s := s.takeTurn ch .couloir
  let c := s.memc.chan ch
  { s with memc := { s.memc with chans := aput s.memc.chans ch { c with queue := List.append q [r] } } }

/-- A request gone from every queue and crossing. -/
def MemX.dropReq (m : MemX) (r : Nat × Nat × Nat) : MemX :=
  { m with chans := m.chans.map (fun x => (x.1, { x.2 with queue := x.2.queue.filter (fun y => y != r) }))
           crossing := m.crossing.map (fun x => (x.1, x.2.filter (fun y => y != r))) }

/-- Every request of a site gone from the queues and crossings. -/
def MemX.dropSite (m : MemX) (a : Nat) : MemX :=
  { m with chans := m.chans.map (fun x => (x.1, { x.2 with queue := x.2.queue.filter (fun y => y.1 != a) }))
           crossing := m.crossing.map (fun x => (x.1, x.2.filter (fun y => y.1 != a))) }

/-! ### Couloirs (R25, Table 01-4) -/

/-- The half of a couloir that serves a channel: the top half the top-edge packages (Table 09-1). -/
def chanHalf (ch : Nat) : Nat := if ch / 8 < 12 then 0 else 1

/-- The requests at the crossing on their way into a half of couloir k. -/
def State.atCrossing (s : State) (k h : Nat) : List (Nat × Nat × Nat) :=
  ((aget s.memc.crossing (2 * k + h)).getD []).filter s.reqLive

/-- A request placed at the crossing. -/
def State.cross (s : State) (k h : Nat) (r : Nat × Nat × Nat) : State :=
  { s with memc := { s.memc with crossing := aput s.memc.crossing (2 * k + h) (List.append (s.atCrossing k h) [r]) } }

/-! ### Frame reads (R263, R273) -/

/-- The tag word of a stripe as one read finds it: 0 clean, 1 corrected, 2 uncorrectable. -/
def State.tagState (s : State) (st : Nat) (o : FrameObs) : Nat :=
  let sy := (s.tagCell st).2
  max o.tag.toNat (if sy = 0 then 0 else if correctable sy then 1 else 2)

/-- Whether the tag is found to differ from the stripe addressed. -/
def State.tagWrong (s : State) (st : Nat) (o : FrameObs) : Bool := o.tagDiffers || (s.tagCell st).1 != tagOf st

/-- The syndrome of data word w of a stripe as one read finds it: what the read adds, or what the cells hold. -/
def State.frameSynd (s : State) (st w : Nat) (o : FrameObs) : Byte :=
  match o.words.find? (fun y => y.1.toNat == w) with
  | some y => y.2
  | none => mget 0 s.synd (32 * st + w)

/-- Whether a read of the frame yields an uncorrectable result. -/
def State.frameFails (s : State) (st : Nat) (o : FrameObs) : Bool :=
  decide (s.tagState st o ≥ 2) || s.tagWrong st o ||
  (List.range 32).any (fun w => let sy := s.frameSynd st w o; sy != 0 && !correctable sy)

/-- The 32 words a read delivers (Table 09-3). -/
def State.frameWords (s : State) (st : Nat) (o : FrameObs) : List (Word × Bool) :=
  let all := decide (s.tagState st o ≥ 2) || s.tagWrong st o
  (List.range 32).map (fun w =>
    let sy := s.frameSynd st w o
    let x := s.word64 (256 * st + 8 * w)
    if sy = 0 then (x, all || s.pois (32 * st + w) != 0)
    else if correctable sy then (corrected sy x, all || s.pois (32 * st + w) != 0)
    else (x, true))

/-- Corrections of one read, the tag word's included. -/
def State.frameCorrections (s : State) (st : Nat) (o : FrameObs) : Nat :=
  ((List.range 32).filter (fun w => let sy := s.frameSynd st w o; sy != 0 && correctable sy)).length +
  (if s.tagState st o = 1 then 1 else 0)

/-- One read of a frame counted: corrections and tag mismatches (R263). -/
def State.countFrame (s : State) (k st : Nat) (o : FrameObs) : State :=
  let s := s.count C.MEM_CNT_CE (16 * k) (s.frameCorrections st o)
  if s.tagState st o < 2 ∧ s.tagWrong st o then s.count C.MEM_CNT_TAG (16 * k) else s

/-- A stripe handed to its requester. -/
def State.deliver (s : State) (st : Nat) (l : List (Word × Bool)) : State :=
  { s with memc := { s.memc with delivered := some (st, l) } }

/-- Milliseconds since the clock started. -/
def State.ms (s : State) : Nat := s.time / milli

/-- An uncorrectable event (R273): delivered by Table 09-3, written back with its unreadable words poisoned, counted,
logged and noted against its channel. -/
def State.frameUe (s : State) (st ch : Nat) (o : FrameObs) (patrol : Bool := false) : State :=
  let k := chanGroup ch
  let l := s.frameWords st o
  let all := decide (s.tagState st o ≥ 2) || s.tagWrong st o
  let kind := if s.tagState st o ≥ 2 then 2 else if s.tagWrong st o then 3 else 1
  let frame := match s.locate (256 * st) with
    | .ok _ off => off / 256
    | _ => 0
  let bad := (List.range 32).filter (fun w => all || (let sy := s.frameSynd st w o; sy != 0 && !correctable sy))
  let s := if patrol then s else s.deliver st l
  let s := bad.foldl (fun s w => s.setPois (32 * st + w) true) s
  let now := s.ms
  let s : State := { s with memc := { s.memc.goodTag st with ueTimes := aput s.memc.ueTimes ch (now :: (aget s.memc.ueTimes ch).getD []) } }
  let s := s.count C.MEM_CNT_UE (16 * k)
  s.note .MEM_ERR_LOG 0 0 (fun w => if fieldGet F.MEM_ERR_LOG_KIND w = 0 then
    setFields [(F.MEM_ERR_LOG_KIND, kind), (F.MEM_ERR_LOG_CH, ch), (F.MEM_ERR_LOG_FRAME, frame), (F.MEM_ERR_LOG_PITCH, s.pitch)] w
    else w)

/-- A read of a stripe's frame: a failing one is to be re-read RETRY times (R273). What patrol scrubbing reads is handed to nobody. -/
def State.readFrame (s : State) (st ch : Nat) (o : FrameObs) (patrol : Bool := false) : State :=
  let k := chanGroup ch
  let s := s.countFrame k st o
  if s.frameFails st o then
    let n := s.rd F.MEM_RETIRE_CFG_RETRY
    if n = 0 then s.frameUe st ch o patrol
    else { s with memc := { s.memc with rereads := List.append s.memc.rereads [⟨256 * st, n, patrol⟩] } }
  else if patrol then s else s.deliver st (s.frameWords st o)

/-- 32 poisoned words handed to a requester whose read meets no channel (R275, R277, R278). -/
def State.deliverPoison (s : State) (st : Nat) : State :=
  let (l, s) := (s.countUnserved (256 * st)).poisonWords 32
  s.deliver st (l.map (fun w => (w.data, true)))

/-- Whether a channel may execute a request to a stripe now: no re-read or training comes first, and the oldest granted request of a
stream, if any, is one to that stripe (R270, R273). -/
def State.chanServes (s : State) (ch st : Nat) : Bool :=
  !s.chanBusy ch && (match s.chanQueue ch with
    | [] => true
    | r :: _ => ((s.str r.1 r.2.1).reqs.find? (fun q => q.num == r.2.2)).any (fun q =>
        stripeOf (if inExt q.src then q.src else q.dst) == st))

/-- FRAME_READ (R263, R273, R275, R278). -/
def execFrameRead (a : Addr) (o : FrameObs) (s : State) : Host.Outcome State Fault Refusal :=
  let x := a.toNat
  .next (if !inExt x then s
    else match s.locate x with
      | .ok ch _ =>
        if s.reforming (groupOf x) then s.deliverPoison (stripeOf x)
        else if s.chanServes ch (stripeOf x) then s.readFrame (stripeOf x) ch o
        else s
      | _ => s.deliverPoison (stripeOf x))

/-- A stripe written back with what one read corrected (R272). -/
def State.writeBackFrame (s : State) (st : Nat) (o : FrameObs) : State :=
  let l := s.frameWords st o
  let s := (l.zip (List.range 32)).foldl (fun s p => s.putWord (256 * st + 8 * p.2) p.1.1 p.1.2) s
  { s with memc := s.memc.goodTag st }

/-- The frame that patrol scrubbing has read written back if it was corrected (R272). -/
def State.scrubFix (s : State) (k st : Nat) (o : FrameObs) : State :=
  if s.frameCorrections st o > 0 then (s.writeBackFrame st o).count C.MEM_CNT_SCRUBFIX (16 * k) else s

/-- FRAME_REREAD (R273): the re-read ahead of the channel's queued requests. -/
def execFrameReread (a : Addr) (o : FrameObs) (s : State) : Host.Outcome State Fault Refusal :=
  let st := stripeOf a.toNat
  .next (match s.memc.rereads.find? (fun r => r.addr == 256 * st), s.locate (256 * st) with
    | some r, .ok ch _ =>
      let k := chanGroup ch
      let s := s.countFrame k st o
      let rest := s.memc.rereads.filter (fun y => y.addr != 256 * st)
      if s.frameFails st o then
        if r.left ≤ 1 then ({ s with memc := { s.memc with rereads := rest } }).frameUe st ch o r.patrol
        else { s with memc := { s.memc with rereads := List.append rest [⟨256 * st, r.left - 1, r.patrol⟩] } }
      else
        let s := { s with memc := { s.memc with rereads := rest } }
        let s := s.count C.MEM_CNT_RETRYOK (16 * k)
        if r.patrol then s.scrubFix k st o else s.deliver st (s.frameWords st o)
    | _, _ => s)

/-! ### Requests (R264, R273, R275, R282) -/

/-- A frame read whose re-reads find the cells as the first read did: what the cells hold reads the same every time, so all fail or
none is made (R273). -/
def State.readCells (s : State) (st ch : Nat) : State :=
  let o : FrameObs := ⟨0, false, []⟩
  let s := s.countFrame (chanGroup ch) st o
  if s.frameFails st o then
    ((List.range (s.rd F.MEM_RETIRE_CFG_RETRY)).foldl (fun s _ => s.countFrame (chanGroup ch) st o) s).frameUe st ch o
  else s.deliver st (s.frameWords st o)

/-- Whether the cells of a stripe hold no error. -/
def State.frameClean (s : State) (st : Nat) : Bool :=
  (s.synd == [] || (List.range 32).all (fun w => mget 0 s.synd (32 * st + w) == 0)) && (aget s.memc.tags st).isNone

/-- The part of a delivered stripe that a request asks for. -/
def partWords (x n : Nat) (l : List (Word × Bool)) : List RawWord :=
  ((l.drop (x % 256 / 8)).take n).map (fun p => ⟨p.1, 0, if p.2 then 3 else 0⟩)

/-- The stripe last delivered, handed over. -/
def State.takeDelivered (s : State) (x n : Nat) : List RawWord × State :=
  (partWords x n ((s.memc.delivered.map Prod.snd).getD []), { s with memc := { s.memc with delivered := none } })

/-- The words of one request, within one stripe, read from external memory: what a frame read has just delivered of the stripe, or
what the cells hold, decoded (R263, R273). -/
def State.extRead (s : State) (x n : Nat) : List RawWord × State :=
  let s := s.count C.MEM_CNT_RDBYTES (16 * groupOf x) (8 * n)
  let st := stripeOf x
  if s.memc.delivered.any (fun d => d.1 == st) then s.takeDelivered x n
  else if s.extServe x ≠ 0 then (s.countUnserved x).poisonWords n
  else if s.frameClean st then ((s.rawWords x n).map (fun w => { w with poison := if w.poison = 0 then 0 else 3 }), s)
  else match s.locate x with
    | .ok ch _ => (s.readCells st ch).takeDelivered x n
    | _ => s.poisonWords n

/-- The words of one request, within one stripe, written to external memory: a word arriving poisoned is stored with its poison bit
and a check byte computed over its data as they arrived, and a whole stripe's write renews its tag (R264). -/
def State.extWrite (s : State) (x : Nat) (l : List RawWord) : State :=
  let s := s.count C.MEM_CNT_WRBYTES (16 * groupOf x) (8 * l.length)
  if s.extServe x ≠ 0 then s.countUnserved x
  else
    let st := stripeOf x
    let s : State := { s with memc := { s.memc with delivered := s.memc.delivered.filter (fun d => d.1 != st) } }
    let s : State := if l.length = 32 then { s with memc := s.memc.goodTag st } else s
    s.putRawWords x (l.map (fun w => if w.poison = 0 then w else { w with synd := 0, poison := 3 }))

/-- The runs of words, none crossing a stripe, that an access of n words at an address makes: one request each. -/
def stripeRuns (x n : Nat) : List (Nat × Nat) :=
  (List.range ((x % 256 / 8 + n + 31) / 32)).filterMap (fun i =>
    let lo := max x (256 * (x / 256 + i))
    let hi := min (x + 8 * n) (256 * (x / 256 + i + 1))
    if lo < hi then some (lo, (hi - lo) / 8) else none)

/-- A turn of the channel that an address resolves to, for one request on an edge path. -/
def State.edgeTurn (s : State) (o : TurnOwner) (x : Nat) : State :=
  match s.locate x with
  | .ok ch _ => s.takeTurn ch o
  | _ => s

/-- n words read on an edge path (R268), one request for each stripe. -/
def State.extReads (s : State) (o : TurnOwner) (x n : Nat) : List RawWord × State :=
  (stripeRuns x n).foldl (fun acc r =>
    let (l, s) := (acc.2.edgeTurn o r.1).extRead r.1 r.2
    (List.append acc.1 l, s)) ([], s)

/-- Words written on an edge path (R268), one request for each stripe. -/
def State.extWrites (s : State) (o : TurnOwner) (x : Nat) (l : List RawWord) : State :=
  (stripeRuns x l.length).foldl (fun s r => (s.edgeTurn o r.1).extWrite r.1 ((l.drop ((r.1 - x) / 8)).take r.2)) s

/-- FRAME_WRITE (R264): words from an address on, within one stripe. -/
def execFrameWrite (a : Addr) (data : List (Word × Bool)) (s : State) : Host.Outcome State Fault Refusal :=
  let x := a.toNat
  let room := (256 - x % 256) / 8
  let serves := match s.locate x with
    | .ok ch _ => s.chanServes ch (stripeOf x)
    | _ => true
  .next (if inExt x && x % 8 == 0 && serves then
      s.extWrite x ((data.take room).map (fun p => ⟨p.1, 0, if p.2 then 3 else 0⟩))
    else s)

/-! ### Patrol scrubbing, training, refresh, marks (R271 to R274) -/

/-- The stripe of frame f of a channel, when the map holds the channel. -/
def State.stripeOfFrame (s : State) (ch f : Nat) : Option Nat :=
  let k := chanGroup ch
  let n := s.liveChans k
  ((List.range n).find? (fun i => physChan k (s.mapEntry k i) == ch)).map (fun i => k * (groupSize / 256) + f * n + i)

/-- Whether patrol scrubbing reads a frame of a channel now: it is on, INTERVAL cycles have passed since the last read, and the channel
grants a turn (R269, R272). -/
def State.scrubDue (s : State) (c : Nat) : Bool :=
  s.rd F.MEM_SCRUB_EN != 0 && decide (c < 192) && decide (s.chanState c < 2) && s.rd F.PWR_BIVOUAC_STATE == 0 &&
  ((aget s.memc.scrubAt c).map (fun t => decide (t + s.rd F.MEM_SCRUB_INTERVAL ≤ s.cycles))).getD true &&
  !s.chanFull c && !s.chanBusy c

/-- PATROL_SCRUB (R272): the channel's next frame in ascending order is read. -/
def execPatrolScrub (ch : ChanNo) (o : FrameObs) (s : State) : Host.Outcome State Fault Refusal :=
  let c := ch.toNat
  let f := (aget s.memc.scrubNext c).getD 0
  .next (if !s.scrubDue c then s
    else match s.stripeOfFrame c f with
      | none => s
      | some st =>
        let now := s.cycles
        let s := s.takeTurn c .scrub
        let s := { s with memc := { s.memc with scrubNext := aput s.memc.scrubNext c ((f + 1) % chanStripes),
                                                scrubAt := aput s.memc.scrubAt c now } }
        let bad := s.frameFails st o
        let s := s.readFrame st c o true
        if bad then s else s.scrubFix (chanGroup c) st o)

/-- PERIODIC_TRAINING (R273): an attempt after a failure is counted; a failure is retried up to RETRAIN_MAX times. -/
def execPeriodicTraining (ch : ChanNo) (ok : Bool) (s : State) : Host.Outcome State Fault Refusal :=
  let c := ch.toNat
  let n := (aget s.memc.trainFails c).getD 0
  let s1 := if n > 0 then s.count C.MEM_CNT_RETRAIN (16 * chanGroup c) else s
  .next (if c ≥ 192 ∨ s.chanState c ≥ 2 ∨ n > s.rd F.MEM_RETIRE_CFG_RETRAIN_MAX then s
    else { s1 with memc := { s1.memc with trainFails := aput s1.memc.trainFails c (if ok then 0 else n + 1) } })

/-- BANK_REFRESH (R271): one per-bank refresh, the model's own record of it. -/
def execBankRefresh (ch : ChanNo) (bank : BitVec 4) (s : State) : Host.Outcome State Fault Refusal :=
  let key := ch.toNat * 16 + bank.toNat
  .next (if ch.toNat ≥ 192 then s
    else { s with memc := { s.memc with refreshes := aput s.memc.refreshes key ((aget s.memc.refreshes key).getD 0 + 1) } })

/-- Whether a channel meets a criterion of R274. -/
def State.markDue (s : State) (c : Nat) : Bool :=
  let fails := (aget s.memc.trainFails c).getD 0
  let win := s.rd F.MEM_RETIRE_CFG_UE_WIN_MS
  let ues := ((aget s.memc.ueTimes c).getD []).filter (fun t => decide (s.ms < t + win))
  let mx := s.rd F.MEM_RETIRE_CFG_UE_MAX
  decide (fails ≥ s.rd F.MEM_RETIRE_CFG_RETRAIN_MAX) || (mx != 0 && decide (ues.length ≥ mx))

/-- CHANNEL_MARK (R274): the channel is marked for retirement at step 3 of the next boundary. -/
def execChannelMark (ch : ChanNo) (s : State) : Host.Outcome State Fault Refusal :=
  let c := ch.toNat
  .next (if c < 192 ∧ s.chanState c = 0 ∧ s.markDue c then s.setChan c 1 else s)

/-! ### Retirement and re-forming (R275 to R277) -/

/-- Every entry of a range of addresses dropped: the range reads as zero, without poison. -/
def State.zeroRange (s : State) (lo hi : Nat) : State :=
  { s with mem := s.mem.filter (fun x => x.1 < lo || hi ≤ x.1)
           poison := s.poison.filter (fun x => 8 * x.1 < lo || hi ≤ 8 * x.1)
           synd := s.synd.filter (fun x => 8 * x.1 < lo || hi ≤ 8 * x.1)
           memc := { s.memc with tags := s.memc.tags.filter (fun x => 256 * x.1 < lo || hi ≤ 256 * x.1) } }

/-- The map of a group without its retired channels, and n (R277). -/
def State.reformMap (s : State) (k : Nat) : State :=
  let n := s.liveChans k
  let old := (List.range n).map (s.mapEntry k)
  let keep := old.filter (fun g => s.chanState (physChan k g) < 2)
  let s := (keep.zip (List.range 48)).foldl (fun s p =>
    s.wr (F.MEM_GRP_MAP_ENTRY.at 8 (p.2 % 8)) 0 (6 * k + p.2 / 8) p.1) s
  s.wr F.MEM_GRP_STATUS_LIVE 0 k keep.length

/-- Whether a channel within the first n entries of a group's map is retired (Table 09-4). -/
def State.mapRetired (s : State) (k : Nat) : Bool :=
  (List.range (s.liveChans k)).any (fun i => decide (s.chanState (physChan k (s.mapEntry k i)) ≥ 2))

/-- GROUP_REFORM_COMPLETE (R277): the group is zeroed and becomes REFORMED, or OFFLINE when no channel remains; or DEGRADED when a
channel of the new map has been retired meanwhile (Table 09-4). -/
def execGroupReformComplete (k : BitVec 2) (s : State) : Host.Outcome State Fault Refusal :=
  let k := k.toNat
  .next (if s.groupState k = 2 then
      let s := s.zeroRange (k * groupSize) ((k + 1) * groupSize)
      s.wr F.MEM_GRP_STATUS_STATE 0 k (if s.liveChans k = 0 then 4 else if s.mapRetired k then 1 else 3)
    else s)

end Sys2Proof.Machine
end

