-- ==== Sys2Proof/Machine/Stream.lean ====
section
/-! DEFINITION. Stream programs and Tarn threads (R181 to R200): the address generator's instructions, requests and
their completion, credits, traps. -/

namespace Sys2Proof.Machine

/-! ### Registers of a program -/

def State.strState (s : State) (a n : Nat) : Nat := s.rd (strFld a F.STR_STATE_STATE F.TRN_THR_STATE_STATE) a n
def State.strCredits (s : State) (a n : Nat) : Nat := s.rd (strFld a F.STR_STATE_CREDITS F.TRN_THR_STATE_CREDITS) a n
def State.areg (s : State) (a n k : Nat) : Nat := s.rd (strFld a F.STR_AREG_ADDR F.TRN_AREG_ADDR) a (8 * n + k)
def State.setAreg (s : State) (a n k v : Nat) : State :=
  s.wr (strFld a F.STR_AREG_ADDR F.TRN_AREG_ADDR) a (8 * n + k) (v % 2 ^ 48)
/-- Whether a site has the program number (R181). -/
def hasProg (a n : Nat) : Bool := if isTarn a then decide (n < 16) else decide (n < 4)
/-- Size of a site's address-generator store (R181). -/
def agSize (a : Nat) : Nat := if isTarn a then 512 else 256

/-- Whether a program may act: a prefetch thread at any time, another while its section is Running (R194, R198). -/
def State.strActive (s : State) (a n : Nat) : Bool := hasProg a n && (s.isPf a n || s.running a)

/-! ### Traps (R193) -/

/-- A trap: nothing more issues, the state is TRAPPED and the job is set to fail (R193); in a prefetch thread the Staged
section it loads for fails (R200). -/
def State.strTrap (s : State) (a n code : Nat) : State :=
  let pc := (s.str a n).pc
  let s := s.wrs a n [(strFld a F.STR_STATE_STATE F.TRN_THR_STATE_STATE, 3),
                      (strFld a F.STR_STATE_LAST_TRAP F.TRN_THR_STATE_LAST_TRAP, code)]
  if s.isPf a n then
    let staged := (s.hut.sects.filter (fun x => s.sectState x.1 == 1 && x.2.pfStarted.contains a &&
      x.2.img.prefetch.any (fun f => f.thread == n && f.site + 16 * s.rd F.HUT_SECT_ORG_ROW 0 x.1 + s.rd F.HUT_SECT_ORG_COL 0 x.1 ==
        a + 16 * x.2.img.homeR + x.2.img.homeC))).map Prod.fst
    match staged.head? with
    | some e => s.modHut (fun h => { h with fails := List.append h.fails [⟨e / 32, s.jobOf e, 0x14, code, a, n, pc, some e⟩] })
    | none => s
  else s.failSite a 0x14 code n pc

/-! ### Spaces (R188, R322, Table 06-5) -/

/-- Kinds of ends. -/
inductive EndKind where
  | own | remote | ext | bad
  deriving DecidableEq, Repr

/-- Whether the n bytes at x lie in the SRAM of a site: a Tarn's, or a Spur's scratchpad. -/
def siteHolds (a x n : Nat) : Bool :=
  if isTarn a then decide (tarnBase (tarnNo a) ≤ x) && decide (x + n ≤ tarnBase (tarnNo a) + 0x2000000)
  else decide (padBase (spurNo a) ≤ x) && decide (x + n ≤ padBase (spurNo a) + padSize)

/-- Whether the n bytes at x lie in a partition's grant (R320, R322). -/
def State.inGrant (s : State) (p x n : Nat) : Bool :=
  let k := groupOf x
  let b := k * groupSize + s.rd F.HUT_GRANT_BASE 0 (4 * p + k) * 0x10000000
  inExt x && decide (b ≤ x) && decide (x + n ≤ b + s.rd F.HUT_GRANT_SIZE 0 (4 * p + k) * 0x10000000)

/-- What one end of a COPY is (Table 06-5). -/
def State.endKind (s : State) (a n x len : Nat) : EndKind :=
  let q := s.dscQn a n
  let far := s.rd F.QUE_CFG_PEER a q / 32
  if siteHolds a x len then .own
  else if isTarn a && inExt x && groupOf x == tarnNo a % 4 &&
      (match s.partOf a with
        | some p => s.inGrant p x len
        | none => false) then .ext
  else if s.qnJoined a q && siteHolds far x len && s.partOf far == s.partOf a then .remote
  else .bad

/-- Whether a byte of Tarn SRAM lies in a half that a live section uses (R199). -/
def State.liveHalf (s : State) (x : Nat) : Bool :=
  inTarn x && (let a := siteOfTarn (tarnOf x)
    s.rd F.TRN_HALF_LIVE a == 1 &&
      (s.rd F.TRN_HALF_BOTH a == 1 || s.rd F.TRN_HALF_ACT a == (x - tarnBase (tarnOf x)) / 0x1000000))

/-- STR_SPACE of a COPY. -/
def State.copySpace (s : State) (a n src dst len : Nat) : Bool :=
  let k1 := s.endKind a n src len
  let k2 := s.endKind a n dst len
  k1 == .bad || k2 == .bad || !(k1 == .own || k2 == .own) ||
  (s.dscClass a n == 2 && (s.liveHalf dst || s.liveHalf (dst + len - 1)))

/-! ### Issue (R185 to R187) -/

/-- What an attempt meets: issue, a hold (for a credit or not), or a trap of Table 06-8. -/
inductive AgAtt where
  | go
  | hold (credit : Bool)
  | trap (code : Nat)
  deriving DecidableEq, Repr

/-- Length of a COPY in bytes. -/
def CopyOps.len (o : CopyOps) : Nat := (o.lenm1.toNat + 1) * 64

/-- Requests to external memory outstanding in a whole Tarn (R189). -/
def State.tarnExt (s : State) (a : Nat) : Nat :=
  (List.range 16).foldl (fun n k => n + ((s.str a k).reqs.filter Req.ext).length) 0

/-- Whether a limit of R189 is reached. -/
def State.reqLimit (s : State) (a n : Nat) (ext : Bool) : Bool :=
  let l := (s.str a n).reqs
  decide (l.length ≥ 32) ||
  (ext && isTarn a && (decide ((l.filter Req.ext).length ≥ 16) || decide (s.tarnExt a ≥ 64)))

/-- Whether a COPY with C = 1 finds a credit (R190). -/
def State.creditReady (s : State) (a n : Nat) : Bool :=
  if s.dscCsrc a n = 3 then decide (s.sig a (s.dscCidx a n) ≥ 1) else decide (s.strCredits a n ≥ 1)

/-- The checks of an instruction in the order of R193, then what it holds for (Table 06-4). -/
def agCheck (i : AgInstr) (s : State) (a n : Nat) : AgAtt :=
  let x := s.str a n
  let illegal := match i with
    | .aarg _ _ sh => decide (sh.toNat > 47)
    | _ => false
  let loop := match i with
    | .aloop e c => decide (e.toNat < x.pc + 1) || (decide (c.toNat ≥ 1) && decide (x.frames.length ≥ 4))
    | _ => false
  let config := x.invalid || (match i with
    | .copy o => o.c && s.dscCsrc a n == 0
    | .signal rem _ _ => rem && !s.qnJoined a (s.dscQn a n)
    | _ => false)
  if illegal then .trap 1
  else if loop then .trap 2
  else if config then .trap 3
  else match i with
    | .copy o =>
      let src := s.areg a n o.src.toNat
      let dst := s.areg a n o.dst.toNat
      if src % 64 ≠ 0 ∨ dst % 64 ≠ 0 then .trap 4
      else if s.copySpace a n src dst o.len then .trap 5
      else if o.c && !s.creditReady a n then .hold true
      else if s.reqLimit a n (inExt src || inExt dst) then .hold false
      else .go
    | .signal _ _ _ => if x.copies.isEmpty then .go else .hold false
    | .fence => if x.copies.isEmpty then .go else .hold false
    | _ => .go

/-- Frames whose END has just issued (R187, R153). -/
def agLoopEnd (pc : Nat) : List AgFrame → Option Nat × List AgFrame
  | [] => (none, [])
  | f :: fs =>
    if f.last = pc then
      if f.cur + 1 < f.count then (some f.start, { f with cur := f.cur + 1 } :: fs) else agLoopEnd pc fs
    else (none, f :: fs)

/-- Cycles a COPY has held for a credit, counted up to now (STR_CNT_CWAIT). -/
def State.settleCredit (s : State) (a n : Nat) : State :=
  match (s.str a n).creditHeld with
  | some t => s.count C.STR_CNT_CWAIT a (s.cycles - t)
  | none => s

/-- An instruction has issued: the next address, `skip` past a loop that is not entered. -/
def State.agIssued (s : State) (a n : Nat) (skip : Option Nat) : State :=
  let s := if isTarn a then s else s.settleCredit a n
  let now := s.cycles
  s.modStr a n (fun x =>
    let (nx, fr) := agLoopEnd x.pc x.frames
    { x with pc := nx.getD ((skip.getD x.pc) + 1), frames := fr, issueAt := some now, creditHeld := none })

/-- The instruction at the head of a program: `none` beyond the store or for an undefined opcode. -/
def State.agHead (s : State) (a n : Nat) : Option AgInstr :=
  let x := s.site a
  let pc := (s.str a n).pc
  if pc ≥ agSize a then none
  else
    let w := (aget x.ag pc).getD 0
    decodeAg (corrected ((aget x.agSynd pc).getD 0) w)

/-- Whether the word at a program's head has an uncorrectable error (R144, R342). -/
def State.agBad (s : State) (a n : Nat) : Bool :=
  let sy := (aget (s.site a).agSynd (s.str a n).pc).getD 0
  sy != 0 && !correctable sy

/-- Whether a program stands ready to attempt an instruction in this cycle. -/
def State.agAlive (s : State) (a n : Nat) : Bool :=
  s.strActive a n && (s.strState a n == 1 || s.strState a n == 2) && !(s.str a n).ended &&
  (s.str a n).issueAt != some s.cycles

/-- Whether a thread can issue: its head does not hold (R196). -/
def State.agCanIssue (s : State) (a n : Nat) : Bool :=
  s.agAlive a n && (match s.agHead a n with
    | some i => (match agCheck i s a n with
      | .hold _ => false
      | _ => true)
    | none => true)

/-- Whether a Tarn's arbiter chooses thread n in this cycle: one instruction a cycle, round-robin (R196). -/
def State.agChosen (s : State) (a n : Nat) : Bool :=
  let t := (s.site a).tarn
  t.agAt != some s.cycles &&
  ((List.range 16).map (fun d => (t.agPtr + d) % 16)).find? (s.agCanIssue a) == some n

/-- The Tarn's arbiter moves past the thread. -/
def State.agMove (s : State) (a n : Nat) : State :=
  let now := s.cycles
  if isTarn a then s.modSite a (fun x => { x with tarn := { x.tarn with agPtr := (n + 1) % 16, agAt := some now } })
  else s

/-- One attempt of a program's head instruction to issue (R185, R193, R196). The command names the instruction; when the
head is another one the attempt has no effect. -/
def agCmd (p : PAt) (i : AgInstr) (eff : Nat → Nat → State → State) (skip : Option Nat) (s : State) : State :=
  let a := p.site.toNat
  let n := p.prog.toNat
  if !s.reaches p.t.toNat then s
  else
    let s := s.at_ p.t.toNat
    if !s.agAlive a n then s
    else if s.agBad a n then
      ((s.count C.CHK_CNT_UE a).count C.CFG_CNT_SCRUB_UE).modHut (fun h => { h with cfgHalts := List.append h.cfgHalts [a] })
    else match s.agHead a n with
      | none => if isTarn a && !s.agChosen a n then s else (s.strTrap a n 1).agMove a n
      | some j =>
        if j ≠ i then s
        else match agCheck i s a n with
          | .hold c =>
            if c && !isTarn a then
              let now := s.cycles
              let s := s.count C.STR_CNT_CWAIT a (now + 1 - ((s.str a n).creditHeld.getD now))
              s.modStr a n (fun x => { x with creditHeld := some (now + 1) })
            else if isTarn a then s
            else (s.settleCredit a n).modStr a n (fun x => { x with creditHeld := none })
          | .trap code => if isTarn a && !s.agChosen a n then s else (s.strTrap a n code).agMove a n
          | .go => if isTarn a && !s.agChosen a n then s else (((eff a n s).agIssued a n skip).agMove a n)

/-! ### The instructions (Table 06-4) -/

/-- ASET. -/
def execAset (p : PAt) (ad : BitVec 3) (imm : BitVec 48) (s : State) : Host.Outcome State Fault Refusal :=
  .next (agCmd p (.aset ad imm) (fun a n s => s.setAreg a n ad.toNat imm.toNat) none s)

/-- AADD: the immediate is sign-extended to 48 bits. -/
def execAadd (p : PAt) (ad src : BitVec 3) (imm : BitVec 32) (s : State) : Host.Outcome State Fault Refusal :=
  .next (agCmd p (.aadd ad src imm)
    (fun a n s => s.setAreg a n ad.toNat (s.areg a n src.toNat + (imm.signExtend 48).toNat)) none s)

/-- AARG: the argument shifted left by SH. -/
def execAarg (p : PAt) (ad src : BitVec 3) (sh : BitVec 6) (s : State) : Host.Outcome State Fault Refusal :=
  .next (agCmd p (.aarg ad src sh)
    (fun a n s => s.setAreg a n ad.toNat (s.areg a n src.toNat +
      s.rd (strFld a F.STR_STATE_ARG F.TRN_THR_STATE_ARG) a n * 2 ^ sh.toNat)) none s)

/-- ALOOP: a frame is pushed unless COUNT is 0 (R187, R151). -/
def execAloop (p : PAt) (last : BitVec 9) (count : BitVec 16) (s : State) : Host.Outcome State Fault Refusal :=
  .next (agCmd p (.aloop last count)
    (fun a n s => if count.toNat = 0 then s
      else s.modStr a n (fun x => { x with frames := ⟨x.pc + 1, last.toNat, count.toNat, 0⟩ :: x.frames }))
    (if count.toNat = 0 then some last.toNat else none) s)

/-- One credit taken by a COPY with C = 1 (R190). -/
def State.takeCredit (s : State) (a n : Nat) : State :=
  if s.dscCsrc a n = 3 then s.setSig a (s.dscCidx a n) (s.sig a (s.dscCidx a n) - 1)
  else s.wr (strFld a F.STR_STATE_CREDITS F.TRN_THR_STATE_CREDITS) a n (s.strCredits a n - 1)

/-- COPY at issue: its transfer begins, and its registers advance once for each set bit that names them. -/
def copyEffect (o : CopyOps) (a n : Nat) (s : State) : State :=
  let src := s.areg a n o.src.toNat
  let dst := s.areg a n o.dst.toNat
  let rem := s.endKind a n src o.len == .remote || s.endKind a n dst o.len == .remote
  let now := s.cycles
  let s := if o.c then s.takeCredit a n else s
  let s := s.modStr a n (fun x =>
    { x with copies := List.append x.copies [⟨src, dst, o.len, x.made, [], 0, o.s, rem, now⟩], made := x.made + 1 })
  let s := if o.is then s.setAreg a n o.src.toNat (s.areg a n o.src.toNat + o.len) else s
  if o.id then s.setAreg a n o.dst.toNat (s.areg a n o.dst.toNat + o.len) else s

def execCopy (p : PAt) (o : CopyOps) (s : State) : Host.Outcome State Fault Refusal :=
  .next (agCmd p (.copy o) (copyEffect o) none s)

/-- A signal that travels on the connection of a queue behind all data of the program (R191). Its sequence number is
none of the ordered lane's. -/
def State.laneSignal (s : State) (a q cnt add : Nat) : State :=
  let f : Flight := ⟨qid a q, s.rd F.QUE_CFG_PEER a q, 65536, .sig (BitVec.ofNat 5 cnt) (BitVec.ofNat 16 add)⟩
  { s with flight := List.append s.flight [f] }

/-- SIGNAL: a local counter, or one at the far end of the descriptor's connection. -/
def execSignal (p : PAt) (rem : Bool) (cnt : BitVec 5) (add : BitVec 16) (s : State) :
    Host.Outcome State Fault Refusal :=
  .next (agCmd p (.signal rem cnt add)
    (fun a n s => if rem then s.laneSignal a (s.dscQn a n) cnt.toNat add.toNat
      else s.sigAdd (qid a cnt.toNat) add.toNat) none s)

/-- FENCE: no effect once every earlier COPY is complete. -/
def execFence (p : PAt) (s : State) : Host.Outcome State Fault Refusal := .next (agCmd p .fence (fun _ _ s => s) none s)

/-- END: the program stops issuing (R183). -/
def execStreamProgramEnd (p : PAt) (s : State) : Host.Outcome State Fault Refusal :=
  .next (agCmd p .endA (fun a n s => s.modStr a n (fun x => { x with ended := true })) none s)

/-! ### Requests (R189, R191, R192) -/

/-- Whether two byte ranges overlap. -/
def overlaps (x n y m : Nat) : Bool := decide (x < y + m) && decide (y < x + n)

/-- The next request of a COPY: at most 256 B, crossing no 256 B boundary of either address. -/
def nextReqLen (c : CopyX) : Nat :=
  min (min (256 - (c.src + c.next) % 256) (256 - (c.dst + c.next) % 256)) (c.len - c.next)

/-- A request that a program may generate in a cycle. -/
structure NextReq where
  copy : CopyX
  src : Nat
  dst : Nat
  len : Nat
  deriving DecidableEq, Repr

/-- The external end of a request, if it has one. -/
def NextReq.extAt (r : NextReq) : Option Nat := if inExt r.src then some r.src else if inExt r.dst then some r.dst else none

/-- The next request that a program can generate in this cycle: of the oldest COPY that has one, in program order, at most one per
cycle, within the limits, and none that overlaps an earlier write that is not complete (R189, R192, R194). A trap stops the issue of
instructions; requests of COPYs issued before it are still generated, since they are those COPYs' own (DESIGN CHOICE, log entry
113: R193 speaks of outstanding requests). -/
def State.nextReq (s : State) (a n : Nat) : Option NextReq :=
  let x := s.str a n
  if !s.strActive a n || x.reqAt == some s.cycles then none
  else match x.copies.find? (fun c => decide (c.next < c.len)) with
    | none => none
    | some c =>
      let r : NextReq := ⟨c, c.src + c.next, c.dst + c.next, nextReqLen c⟩
      if s.reqLimit a n r.extAt.isSome || x.reqs.any (fun y => overlaps r.dst r.len y.dst y.len) then none else some r

/-- The threads of a Tarn that present a request to its couloir port in a class. -/
def State.portAsks (s : State) (a cls : Nat) : List Nat :=
  (List.range 16).filter (fun n => s.dscClass a n == cls && (s.nextReq a n).any (fun r => r.extAt.isSome))

/-- The request a couloir port takes in this cycle, if it has taken none: class 0 first, then 1, then 2; within a class round-robin
(R196). -/
def State.portChoice (s : State) (a : Nat) : Option Nat :=
  if (List.range 3).any (fun c => decide ((s.arb (.couPort a c)).free > s.cycles)) then none
  else (List.range 3).findSome? (fun c => s.arbFirst (.couPort a c) (s.portAsks a c))

/-- Couloir and half of a Tarn, and its place in the half from the lowest row on (Table 01-4). -/
def halfOf (a : Nat) : Nat × Nat × Nat := (tarnNo a % 4, rowOf a / 8, rowOf a % 8)

/-- The requesters of a couloir half in this cycle: Tarn ports by row, and 8 for the crossing. -/
def State.halfAsks (s : State) (k h : Nat) : List Nat :=
  List.append ((List.range 8).filter (fun i => (s.portChoice (siteOfTarn (4 * (8 * h + i) + k))).isSome))
    (if s.atCrossing k h = [] then [] else [8])

/-- The requester that a couloir half grants in this cycle (R25, Table 01-4). -/
def State.halfChoice (s : State) (k h : Nat) : Option Nat :=
  if (s.arb (.couHalf k h)).free > s.cycles then none else s.arbFirst (.couHalf k h) (s.halfAsks k h)

/-- The state with a request of a program generated, `out` flits of which have still to leave on the stream lane. -/
def State.putReq (s : State) (a n : Nat) (r : NextReq) (out : Nat := 0) : Nat × State :=
  let x := s.str a n
  let num := ((List.range 32).find? (fun k => !x.reqs.any (fun y => y.num == k))).getD 0
  let now := s.cycles
  (num, s.modStr a n (fun x =>
    { x with reqs := List.append x.reqs [⟨num, r.copy.gen, r.copy.next, r.src, r.dst, r.len, r.extAt.isSome, r.copy.remote, false, out, 0⟩],
             copies := x.copies.map (fun y => if y.gen = r.copy.gen then { y with next := y.next + r.len } else y),
             reqAt := some now }))

/-- A request to external memory at address y: the Tarn's couloir port and its half of the couloir take it; it goes on to its channel
(R196, R268), or to the crossing when the channel stands on the other half. One that meets no channel goes nowhere. -/
def State.extRequest (s : State) (a n y : Nat) (r : NextReq) : State :=
  let (k, h, i) := halfOf a
  if s.portChoice a ≠ some n ∨ s.halfChoice k h ≠ some i then s
  else
    let go (s : State) : Nat × State := ((s.take (.couPort a (s.dscClass a n)) n 1).take (.couHalf k h) i 1).putReq a n r
    match s.locate y with
    | .ok ch _ =>
      if s.reforming (groupOf y) then (go s).2
      else if chanHalf ch = h then
        if s.chanFull ch then s else (let (num, s) := go s; s.chanGrant ch (a, n, num))
      else (let (num, s) := go s; s.cross k (chanHalf ch) (a, n, num))
    | _ => (go s).2

/-! ### The lanes of a connection end (R210, R213) -/

/-- Whether the head of a sending queue can depart in this cycle but for its slot: a signal record always, an entry from the cycle
after its writing and with remote credit (R211, R212). -/
def State.headDue (s : State) (a q : Nat) : Bool :=
  s.role a q == 1 && s.running a && (match (s.queue a q).items with
    | .sig _ _ :: _ => true
    | .entry _ t :: _ => decide (t < s.cycles) && decide (0 < s.rd F.QUE_STAT_RCRED a q)
    | _ => false)

/-- Flits of the stream lane that a request sends: write data at 128 B a flit, the request with the first of them; a read's request
alone. DESIGN CHOICE (log entry 122): R210 gives a flit 128 B of the lane and no layout of a request. -/
def laneFlits (write : Bool) (len : Nat) : Nat := if write then flitsOf len else 1

/-- Those with a flit to send on the stream lane of a connection end: the site's programs by number, and from 16 on those of the far
end that its port agent answers. -/
def State.laneAsks (s : State) (a q : Nat) : List Nat :=
  let far := s.rd F.QUE_CFG_PEER a q
  let own := (List.range 16).filter (fun n => hasProg a n && s.dscQn a n == q &&
    ((s.str a n).reqs.any (fun r => decide (0 < r.out)) || (s.nextReq a n).any (fun r => r.copy.remote)))
  let back := (List.range 16).filter (fun n => hasProg (far / 32) n && s.dscQn (far / 32) n == far % 32 &&
    (s.str (far / 32) n).reqs.any (fun r => r.served && decide (0 < r.back)))
  List.append own (back.map (· + 16))

/-- The lane that the arbiter of a connection end grants the present slot: 0 the ordered lane, 1 the stream lane; none where the slot
is not the connection's, or neither has anything to send (R213). -/
def State.laneGrant (s : State) (a q : Nat) : Option Nat :=
  if !s.slotOpen a q then none
  else s.arbFirst (.lanes a q) (List.append (if s.headDue a q then [0] else []) (if s.laneAsks a q = [] then [] else [1]))

/-- Whether the stream lane has the present slot, and its own arbiter grants requester k. -/
def State.streamGrant (s : State) (a q k : Nat) : Bool :=
  s.laneGrant a q == some 1 && s.arbFirst (.streamLane a q) (s.laneAsks a q) == some k

/-- A flit of the stream lane leaves for requester k; from a receive end it takes the credits owed with it (R212). -/
def State.laneSend (s : State) (a q k : Nat) : State :=
  let c := if isRecvRole (s.role a q) then min 64 (s.queue a q).credRet else 0
  let f := bareFlit a (s.partNo a) 2 (s.connOf a q) 0
  let s := (s.take (.lanes a q) 1 0).take (.streamLane a q) k 0
  let s := s.inject a q { f with hdr := { f.hdr with cred := BitVec.ofNat 7 c } } 0
  if c = 0 then s else s.modQueue a q (fun x => { x with credRet := x.credRet - c, credOut := List.append x.credOut [c] })

/-- STREAM_REQUEST (R189, R210): the program's next request. A remote one needs a slot of its connection for each flit: those of a
request that is under way go first. -/
def streamRequest (a n : Nat) (s : State) : State :=
  let q := s.dscQn a n
  match (s.str a n).reqs.find? (fun r => decide (0 < r.out)) with
  | some r =>
    if s.streamGrant a q n then
      (s.laneSend a q n).modStr a n (fun x =>
        { x with reqs := x.reqs.map (fun y => if y.num = r.num then { y with out := y.out - 1 } else y) })
    else s
  | none =>
    match s.nextReq a n with
    | none => s
    | some r => match r.extAt with
      | some y => s.extRequest a n y r
      | none =>
        if !r.copy.remote then (s.putReq a n r).2
        else if s.streamGrant a q n then ((s.laneSend a q n).putReq a n r (laneFlits (!siteHolds a r.dst r.len) r.len - 1)).2
        else s

def execStreamRequest (p : PAt) (s : State) : Host.Outcome State Fault Refusal :=
  .next (if s.reaches p.t.toNat then streamRequest p.site.toNat p.prog.toNat (s.at_ p.t.toNat) else s)

/-- The channel in whose queue a request stands. -/
def State.queuedAt (s : State) (r : Nat × Nat × Nat) : Option Nat :=
  (s.memc.chans.find? (fun x => x.2.queue.contains r)).map Prod.fst

/-- Whether the channel that holds a request executes it now: it is the oldest of its queue (R270), and nothing comes first (R273). A
channel retired since executes none: the request completes by R275. -/
def State.chanExecutes (s : State) (r : Nat × Nat × Nat) : Bool :=
  match s.queuedAt r with
  | none => true
  | some ch => decide (s.chanState ch ≥ 2) || ((s.chanQueue ch).head? == some r && !s.chanBusy ch)

/-- A request that stands first at the crossing granted by the half it goes into and by its channel. -/
def State.leaveCrossing (s : State) (y : Nat) (r : Nat × Nat × Nat) : State :=
  match s.locate y with
  | .ok ch _ =>
    let k := tarnNo r.1 % 4
    let h := chanHalf ch
    if (s.atCrossing k h).head? == some r && s.halfChoice k h == some 8 && !s.chanFull ch then
      let s := s.take (.couHalf k h) 8 1
      let s : State := { s with memc := s.memc.dropReq r }
      s.chanGrant ch r
    else s
  | _ => { s with memc := s.memc.dropReq r }

/-- Whether a request to external memory can be executed in this cycle, and the state once it has left the crossing. -/
def State.extReady (s : State) (y : Nat) (r : Nat × Nat × Nat) : Bool × State :=
  let s := if s.memc.crossing.any (fun x => x.2.contains r) then s.leaveCrossing y r else s
  if s.memc.crossing.any (fun x => x.2.contains r) then (false, s) else (s.chanExecutes r, s)

/-- Whether an address lies in an external range that the memory plan of a section marks OUTPUT (R347). -/
def SectX.outputAt (x : SectX) (y : Nat) : Bool :=
  x.img.ext.any (fun r => r.output && (let b := (x.slotBase.getD r.slot 0) + r.off
    decide (b ≤ y) && decide (y < b + r.len)))

/-- Commit point 1: poisoned words stored in an OUTPUT range (R347, R348). -/
def State.outputPoison (s : State) (a x : Nat) (l : List RawWord) : State :=
  match s.sectOf a with
  | none => s
  | some e =>
    match s.sectX? e with
    | none => s
    | some sx =>
      match ((l.zip (List.range l.length)).find? (fun p => p.1.poison != 0 && sx.outputAt (x + 8 * p.2))) with
      | some p => s.poisonSite a 1 (x + 8 * p.2)
      | none => s

/-- The scratchpad words of a run of addresses kept as this cycle found them (R179). -/
def State.keepPad (s : State) (x n : Nat) : State :=
  let new := (wordsOf x n).filter (fun w => (aget s.padOld w).isNone)
  { s with padOld := new.foldl (fun l w => aput l w (s.word64 (8 * w), mget 0 s.synd w, s.pois w)) s.padOld }

/-- The bytes of a request written at its destination (R188, R189). -/
def State.moveReq (s : State) (a n : Nat) (r : Req) : State :=
  let (l, s) := if inExt r.src then s.extRead r.src (r.len / 8) else (s.rawWords r.src (r.len / 8), s)
  let s := if inPad r.dst then s.keepPad r.dst r.len else s
  let s := if inExt r.dst then (s.extWrite r.dst l).outputPoison a r.dst l else s.putRawWords r.dst l
  let s := if r.ext && isTarn a then s.count C.TRN_CNT_EXT_BYTES a r.len else s
  let s := if isTarn a && s.dscClass a n == 2 then s.count C.TRN_CNT_PF_BYTES a r.len else s
  if !isTarn a && siteHolds a r.dst r.len then s.count C.STR_CNT_BYTES a r.len else s

/-- Cycles that an access of n bytes takes at a port of a Tarn's SRAM, 128 B a cycle (R195). -/
def portCycles (n : Nat) : Nat := (n + 127) / 128

/-- The bank of a scratchpad byte (R179). -/
def bankOf (x : Nat) : Nat := (x - padBase (padSpur x)) / 256 % 4

/-- The accesses at one end of a request, made by program n of site a: at the program's own site, or by the port agent of the site at
the far end of queue q (R180, R195, Table 06-6). Ports 4 and 5 serve the couloir, whichever is free. -/
def State.endAsks (s : State) (a n q x len : Nat) (write ext : Bool) : List Ask :=
  let far := s.rd F.QUE_CFG_PEER a q
  if inPad x then
    let b := siteOfSpur (padSpur x)
    [⟨.bank b (bankOf x), if b = a then n else 4, 1⟩]
  else if inTarn x then
    let b := siteOfTarn (tarnOf x)
    let c := portCycles len
    if b ≠ a then [⟨.tarnPort b (s.rd F.QUE_CFG_ILINK (far / 32) (far % 32)), write.toNat, c⟩]
    else if ext then
      let p := if decide ((s.arb (.tarnPort b 4)).free ≤ s.cycles) then 4 else 5
      [⟨.tarnPort b p, if write then 0 else 1, c⟩]
    else [⟨.tarnPort b 6, 0, 2 * c⟩]
  else []

/-- Every access of a request. A copy within one Tarn's SRAM reads and writes at one port, and one within a bank takes its two accesses
one after the other. -/
def State.reqAsks (s : State) (a n : Nat) (r : Req) : List Ask :=
  let q := s.dscQn a n
  let src := s.endAsks a n q r.src r.len false r.ext
  let dst := s.endAsks a n q r.dst r.len true r.ext
  match src, dst with
  | [x], [y] => if x.key = y.key then (if inPad r.src then [{ x with n := 2 }] else [x]) else [x, y]
  | _, _ => List.append src dst

/-- Who brings a request to a port agent: a router link (N, E, S, W), as the far queue's ILINK has it (Table 07-8). -/
def State.agentAsk (s : State) (a n : Nat) : Ask :=
  let far := s.rd F.QUE_CFG_PEER a (s.dscQn a n)
  ⟨.agent (far / 32), s.rd F.QUE_CFG_ILINK (far / 32) (far % 32), 1⟩

/-- One flit of the answer to a served request leaves the far end of its connection: read data, or the acknowledgement (R210). -/
def State.answerReq (s : State) (a n : Nat) (r : Req) : State :=
  let far := s.rd F.QUE_CFG_PEER a (s.dscQn a n)
  if s.streamGrant (far / 32) (far % 32) (n + 16) then
    (s.laneSend (far / 32) (far % 32) (n + 16)).modStr a n (fun x =>
      { x with reqs := x.reqs.map (fun y => if y.num = r.num then { y with back := y.back - 1 } else y) })
  else s

/-- REMOTE_REQUEST (R189): the port agent of the remote site serves request r of the program, once its flits have left; write data are
written there. It serves one request per cycle (Table 07-8), and its accesses are granted by the arbiters of R180 and R195. Of a
request served, the next flit of the answer leaves. -/
def execRemoteRequest (p : PAt) (r : BitVec 5) (s : State) : Host.Outcome State Fault Refusal :=
  let a := p.site.toNat
  let n := p.prog.toNat
  .next (if !s.reaches p.t.toNat then s
    else
      let s := s.at_ p.t.toNat
      match (s.str a n).reqs.find? (fun q => q.num == r.toNat && q.remote && q.out == 0 && (!q.served || decide (0 < q.back))) with
      | none => s
      | some q =>
        let here := siteHolds a q.dst q.len
        if q.served then s.answerReq a n q
        else
        let (ok, s) := s.askAll (s.agentAsk a n :: (s.reqAsks a n q).filter (fun x => !here || x.key.site? != some a))
        if !ok then s
        else
          let s := if here then s else s.moveReq a n q
          s.modStr a n (fun x =>
            { x with reqs := x.reqs.map (fun y => if y.num = q.num then { y with served := true, back := laneFlits here q.len } else y) }))

/-- COPYs complete from the oldest on: each with S = 1 signals in program order (R191). -/
def State.retireCopies (s : State) (a n : Nat) : Nat → State
  | 0 => s
  | k + 1 =>
    match (s.str a n).copies with
    | c :: _ =>
      if c.done.length * 64 = c.len then
        let s := s.modStr a n (fun x => { x with copies := x.copies.drop 1 })
        let s := if c.signals then
            if s.dscSrem a n = 1 then s.laneSignal a (s.dscQn a n) (s.dscCnt a n) 1
            else s.sigAdd (qid a (s.dscCnt a n)) 1
          else s
        s.retireCopies a n k
      else s
    | [] => s

/-- A request complete: it is gone, the units it wrote are recorded, and COPYs complete. -/
def State.finishReq (s : State) (a n : Nat) (q : Req) : State :=
  let units := (List.range (q.len / 64)).map (· + q.off / 64)
  let s : State := { s with memc := s.memc.dropReq (a, n, q.num) }
  let s := s.modStr a n (fun x =>
    { x with reqs := x.reqs.filter (fun y => y.num != q.num),
             copies := x.copies.map (fun c =>
               if c.gen = q.copyPos then { c with done := List.append c.done units } else c) })
  s.retireCopies a n (s.str a n).copies.length

/-- Whether a request can be completed in this cycle: at its channel (R270), and at the arbiters of what it moves its bytes through;
and the state after their grants. -/
def State.reqReady (s : State) (a n : Nat) (q : Req) : Bool × State :=
  let (ok, s) := if q.ext then s.extReady (if inExt q.src then q.src else q.dst) (a, n, q.num) else (true, s)
  if !ok then (false, s) else s.askAll ((s.reqAsks a n q).filter (fun x => !q.remote || x.key.site? == some a))

/-- REQUEST_COMPLETE (R191): the bytes are written, and a remote destination has acknowledged, in the last flit of its answer. -/
def execRequestComplete (p : PAt) (r : BitVec 5) (s : State) : Host.Outcome State Fault Refusal :=
  let a := p.site.toNat
  let n := p.prog.toNat
  .next (if !s.reaches p.t.toNat then s
    else
      let s := s.at_ p.t.toNat
      match (s.str a n).reqs.find? (fun q => q.num == r.toNat && (!q.remote || (q.served && q.back == 0))) with
      | none => s
      | some q =>
        if q.remote && !siteHolds a q.dst q.len then s.finishReq a n q
        else
          let (ok, s) := s.reqReady a n q
          if ok then (s.moveReq a n q).finishReq a n q else s)

/-- STREAM_PROGRAM_COMPLETION (R183, Table 06-1). -/
def execStreamProgramCompletion (p : PAt) (s : State) : Host.Outcome State Fault Refusal :=
  .next (if s.reaches p.t.toNat then (s.at_ p.t.toNat).strFinish p.site.toNat p.prog.toNat else s)

/-- Leading 64 B units of a COPY that are complete (R194). -/
def leadingDone (l : List Nat) (n : Nat) : Nat := (List.range n).takeWhile (fun k => l.contains k) |>.length

/-- A program records its progress in STR_PROGn or TRN_PROGn (R194). -/
def State.recordProg (s : State) (a n : Nat) : State :=
  let v := match (s.str a n).copies with
    | c :: _ => leadingDone c.done (c.len / 64)
    | [] => 0
  s.wr (strFld a F.STR_PROG_DONE F.TRN_PROG_DONE) a n v

end Sys2Proof.Machine
end

