-- ==== Sys2Proof/Machine/AgRun.lean ====
section
/-! DEFINITION. A stream program followed from its argument alone: the transfers and signals of one run, which the loader's
operand-fence check (R164, R190) judges. The address generator has no input but its argument (R185). -/

namespace Sys2Proof.Machine

/-- What a run does, in program order: a COPY (destination, length, C and S), or a SIGNAL. -/
inductive AgAct where
  | copy (dst len : Nat) (c s : Bool)
  | signal (rem : Bool) (cnt : Nat)
  deriving DecidableEq, Repr

/-- Address registers after one is set, modulo 2^48. -/
def setReg (l : List Nat) (k : BitVec 3) (v : Nat) : List Nat := l.set k.toNat (v % 2 ^ 48)
/-- An address register. -/
def getReg (l : List Nat) (k : BitVec 3) : Nat := l.getD k.toNat 0

/-- The registers after an instruction (Table 06-4). -/
def agRegs (arg : Nat) (i : AgInstr) (l : List Nat) : List Nat :=
  match i with
  | .aset ad imm => setReg l ad imm.toNat
  | .aadd ad src imm => setReg l ad (getReg l src + (imm.signExtend 48).toNat)
  | .aarg ad src sh => setReg l ad (getReg l src + arg * 2 ^ sh.toNat)
  | .copy o =>
    let l := if o.is then setReg l o.src (getReg l o.src + o.len) else l
    if o.id then setReg l o.dst (getReg l o.dst + o.len) else l
  | _ => l

/-- What an instruction does beyond its registers. -/
def agAct (i : AgInstr) (l : List Nat) : Option AgAct :=
  match i with
  | .copy o => some (.copy (getReg l o.dst) o.len o.c o.s)
  | .signal rem cnt _ => some (.signal rem cnt.toNat)
  | _ => none

/-- The loop stack once an instruction has pushed its frame, and the END of a loop that is not entered (R187, R151). -/
def agPush (pc : Nat) (i : AgInstr) (fr : List AgFrame) : List AgFrame × Option Nat :=
  match i with
  | .aloop e c => if c.toNat = 0 then (fr, some e.toNat) else (⟨pc + 1, e.toNat, c.toNat, 0⟩ :: fr, none)
  | _ => (fr, none)

/-- At most `fuel` instructions of a run from `pc`: what they do, and whether the run came to its end, which is END, a word that
traps or the end of the store. -/
def agRun (word : Nat → Word) (size arg : Nat) : Nat → Nat → List Nat → List AgFrame → List AgAct × Bool
  | 0, _, _, _ => ([], false)
  | fuel + 1, pc, regs, fr =>
    if pc ≥ size then ([], true)
    else match decodeAg (word pc) with
      | none => ([], true)
      | some .endA => ([], true)
      | some i =>
        let (fr, skip) := agPush pc i fr
        let (nx, fr) := agLoopEnd pc fr
        let (l, ok) := agRun word size arg fuel (nx.getD (skip.getD pc + 1)) (agRegs arg i regs) fr
        (List.append (agAct i regs).toList l, ok)

/-- A write of scratchpad bytes by a COPY: where and how many, the counters (identifiers) on which its completion is signalled, and,
for a COPY that takes a credit returned at a release, the site and the CSRC, CIDX and CNUM of its descriptor (R190). -/
structure PadWrite where
  lo : Nat
  len : Nat
  ctrs : List Nat
  credit : Option (Nat × Nat × Nat × Nat)
  deriving DecidableEq, Repr

/-- The scratchpad writes of a run of program n of a site, with `st` holding the descriptors, and the counters that its part so far
read, from the end, signals: a COPY's completion is told by its own signal or by any later one of the program (R191). -/
def padWritesOf (st : State) (a n : Nat) : List AgAct → List PadWrite × List Nat
  | [] => ([], [])
  | x :: l =>
    let (ws, cs) := padWritesOf st a n l
    let ctr (rem : Bool) (cnt : Nat) : Nat :=
      if rem then qid (st.rd F.QUE_CFG_PEER a (st.dscQn a n) / 32) cnt else qid a cnt
    match x with
    | .signal rem cnt => (ws, ctr rem cnt :: cs)
    | .copy dst len c s =>
      let cs := if s then ctr (st.dscSrem a n == 1) (st.dscCnt a n) :: cs else cs
      let csrc := st.dscCsrc a n
      let credit := if c && (csrc == 1 || csrc == 2) then
          some (a, csrc, st.dscCidx a n, st.dsc a n F.STR_DESC_CNUM F.TRN_THR_CNUM) else none
      (if inPad dst then ⟨dst, len, dedup cs, credit⟩ :: ws else ws, cs)

/-- A run that was not followed to its end may write every scratchpad byte. -/
def PadWrite.anywhere (w : PadWrite) : PadWrite := { w with lo := padBase 0, len := 0x800000 * 192 }

end Sys2Proof.Machine
end

