-- ==== Sys2Proof/Machine/Complete.lean ====
section
/-! DEFINITION. Completions of host commands (R446, Tables 16-7, 16-9, 16-10): each waits in its queue pair's list until
COMPLETION_WRITE places it in ring order. -/

namespace Sys2Proof.Machine

/-- Opcodes of Table 16-6. -/
def opLoad : Nat := 1
def opRun : Nat := 2
def opPreempt : Nat := 3
def opResume : Nat := 4
def opDiscard : Nat := 5
def opDigestSet : Nat := 6
def opDigestNow : Nat := 7
def opRegRead : Nat := 8
def opRegWrite : Nat := 9
def opRegWriteList : Nat := 10
def opWanan : Nat := 11
def opTenantCreate : Nat := 0x10
def opTenantRemove : Nat := 0x11
def opPartCreate : Nat := 0x12
def opPartRemove : Nat := 0x13
def opGrant : Nat := 0x14

/-- Command statuses (Table 16-10). -/
def stBusy : Nat := 1
def stBadCommand : Nat := 2
def stVersionOp : Nat := 3
def stAdminOnly : Nat := 4
def stExpertDenied : Nat := 5
def stPartDenied : Nat := 6
def stSectionLimit : Nat := 7
def stStreamBusy : Nat := 8
def stNotFound : Nat := 9
def stDigestRange : Nat := 10
def stTenantBusy : Nat := 11
def stTenantNone : Nat := 12
def stQpLimit : Nat := 13
def stPartShape : Nat := 14
def stPartOverlap : Nat := 15
def stPartBusy : Nat := 16
def stGrantOverlap : Nat := 17
def stGrantRange : Nat := 18
def stGrantBusy : Nat := 19
def stWananUnsupported : Nat := 20
def stWananFormat : Nat := 21
def stDigestBusy : Nat := 22
def stPartLive : Nat := 23

/-- A command completes: its record waits in its queue pair (R446); a connection that has closed gets none. -/
def State.complete (s : State) (c : Ctx) (op cls code : Nat) (result : Nat := 0) (detail : Nat := 0) : State :=
  let r : Completion := ⟨c.idx.toNat, c.tag, op, cls, code, s.pitch % 2 ^ 32, result, detail, c.notify⟩
  if s.rd F.GATE_QP_STATE 0 c.qp.toNat = 0 then s
  else s.modQp c.qp.toNat (fun x => { x with done := List.append x.done [r] })

/-- A command completes OK. -/
def State.ok (s : State) (c : Ctx) (op : Nat) (result : Nat := 0) : State := s.complete c op 0 0 result

/-- A command completes with a status of Table 16-10. -/
def State.status (s : State) (c : Ctx) (op code : Nat) : State := s.complete c op 3 code

/-- Whether the queue pair of a context belongs to the admin connection (owner 16, Table 16-13). -/
def State.isAdmin (s : State) (n : Nat) : Bool := s.rd F.GATE_QP_OWNER 0 n == 16

/-- The partition of a tenant: it holds at most one (R315). -/
def State.partOfTenant (s : State) (t : Nat) : Option Nat :=
  (List.range 16).find? (fun p => s.rd F.HUT_PART_ACTIVE 0 p == 1 && s.rd F.HUT_PART_TENANT 0 p == t)

/-- The partition of the tenant whose connection a command came on. -/
def State.partOfQp (s : State) (n : Nat) : Option Nat :=
  if s.isAdmin n ∨ s.rd F.GATE_QP_STATE 0 n = 0 then none else s.partOfTenant (s.rd F.GATE_QP_OWNER 0 n)

end Sys2Proof.Machine
end

