-- ==== Sys2Proof/Machine/Vector.lean ====
section
/-! DEFINITION. The vector engine (R111 to R141): checks and projection at issue, rows entering stage 1, and the gating
stage with its replay. -/

namespace Sys2Proof.Machine

/-! ### What an instruction names -/

/-- Rows of an instruction (NM1 holds N − 1). -/
def vecRows : SeqInstr → Nat
  | .vop o => o.nm1.toNat + 1
  | .vrd o => o.nm1.toNat + 1
  | .vcvt o => o.nm1.toNat + 1
  | .vred o => o.nm1.toNat + 1
  | .vld o => o.nm1.toNat + 1
  | .vst o => o.nm1.toNat + 1
  | _ => 1

/-- Cycles per row (R120). -/
def vecCpr : SeqInstr → Nat
  | .vop o => vopCpr o.func.toNat
  | _ => 1

/-- The source descriptors an instruction names, by operand position (R125). -/
def vecSrcs : SeqInstr → List Nat
  | .vop o => [o.s1.toNat, o.s2.toNat, o.s3.toNat].take (vopArity o.func.toNat)
  | .vcvt o => [o.src.toNat]
  | .vred o => [o.src.toNat]
  | .vst o => [o.opd.toNat]
  | _ => []

/-- The destination descriptor an instruction names. -/
def vecDst : SeqInstr → Option Nat
  | .vop o => some o.dst.toNat
  | .vrd o => some o.dst.toNat
  | .vcvt o => some o.dst.toNat
  | .vred o => some o.dst.toNat
  | .vld o => some o.opd.toNat
  | _ => none

/-- Every descriptor an instruction names, each once. -/
def vecNamed (i : SeqInstr) : List Nat := dedup (List.append (vecSrcs i) (vecDst i).toList)

/-- A vector descriptor. -/
def State.vopd (s : State) (a n : Nat) : Word := s.word .VEC_OPD a n

/-! ### Steering ownership (R156, R172) -/

/-- Whether a steering unit is enabled: a MODE of 3 acts as 0. -/
def State.steerOn (s : State) (a n : Nat) : Bool := s.rd F.SEQ_STEER_MODE a n == 1 || s.rd F.SEQ_STEER_MODE a n == 2

/-- The data input queues of a steering unit: IN0 of a STEER, the enabled inputs of a MERGE. -/
def steerInputs (w : Word) : List Nat :=
  let inq (k : Nat) := fieldGet (F.SEQ_STEER_IN.at 5 k) w
  if fieldGet F.SEQ_STEER_MODE w = 1 then [inq 0]
  else ((List.range 4).filter (fun k => fieldGet F.SEQ_STEER_IEN w / 2 ^ k % 2 == 1)).map inq

/-- The token queue of a steering unit that takes its tokens from one. -/
def steerTokenQ (w : Word) : List Nat := if fieldGet F.SEQ_STEER_TSRC w = 1 then [fieldGet F.SEQ_STEER_TQ w] else []

/-- Whether an enabled steering unit consumes the queue. -/
def State.steerOwns (s : State) (a q : Nat) : Bool :=
  (List.range 8).any (fun n => s.steerOn a n &&
    ((steerInputs (s.word .SEQ_STEER a n)).contains q || (steerTokenQ (s.word .SEQ_STEER a n)).contains q))

/-- Whether an enabled steering unit takes tokens from the queue. -/
def State.steerTokens (s : State) (a q : Nat) : Bool :=
  (List.range 8).any (fun n => s.steerOn a n && (steerTokenQ (s.word .SEQ_STEER a n)).contains q)

/-- The trap QUEUE_OWNED (R156). -/
def queueOwned (s : State) (a : Nat) (i : SeqInstr) : Bool :=
  (vecSrcs i).any (fun n => vIsQueue (s.vopd a n) && s.steerOwns a (vQueue (s.vopd a n))) ||
  (match vecDst i with
    | some n => vIsQueue (s.vopd a n) && s.steerTokens a (vQueue (s.vopd a n))
    | none => false)

/-! ### Traps (R118, R125, R128 to R134) -/

def vecTrap (code : Nat) : Att := .trap 3 0x13 code

/-- Formats a row may have: every code of Table 02-1 but E8M0, M96, M128 and those not used. -/
def rowFmt (f : Nat) : Bool := decide (f ≤ 10)

/-- Whether a function is one on INT32 (Table 04-2). -/
def vopIsInt (func : Nat) : Bool := decide (0x20 ≤ func)

/-- VOPD_KIND (R118): of destinations only that of a queue takes any number of rows with RSTRIDE = 0, a VRED's cache descriptor
does not. -/
def vopdKind (s : State) (a : Nat) (i : SeqInstr) : Bool :=
  let bad (w : Word) : Bool := vIsQueue w && (vLb w || vMx w)
  (vecNamed i).any (fun n => bad (s.vopd a n)) ||
  (match vecDst i with
    | none => false
    | some n =>
      let w := s.vopd a n
      let red := match i with
        | .vred _ => true
        | _ => false
      vLb w || (!vIsQueue w && vStride w == 0 && decide (vecRows i > 1)) || (red && vIsQueue w)) ||
  (match i with
    | .vld o => vIsQueue (s.vopd a o.opd.toNat)
    | .vst o => vIsQueue (s.vopd a o.opd.toNat)
    | _ => false)

/-- FORMAT_PAIR of the vector engine. -/
def vecFormat (s : State) (a : Nat) (i : SeqInstr) : Bool :=
  let plain (f n : Nat) : Bool := vFmt (s.vopd a n) == f && !vMx (s.vopd a n)
  let conv (n : Nat) : Bool :=
    rowFmt (vFmt (s.vopd a n)) && (!vMx (s.vopd a n) || isMxElem (vFmt (s.vopd a n)))
  match i with
  | .vop o => !(vecNamed i).all (plain (if vopIsInt o.func.toNat then 8 else 0))
  | .vrd o => !conv o.dst.toNat
  | .vcvt o => !(conv o.dst.toNat && conv o.src.toNat)
  | .vred _ => !(vecNamed i).all (plain 0)
  | .vld o => !rowFmt (vFmt (s.vopd a o.opd.toNat))
  | .vst o => !rowFmt (vFmt (s.vopd a o.opd.toNat))
  | _ => false

/-- VEC_RANGE (R128, R133). -/
def vecRange : SeqInstr → Bool
  | .vrd o => decide (o.row0.toNat + o.nm1.toNat + 1 > 64)
  | .vimm o => decide (o.lane0.toNat + o.cntm1.toNat > 63)
  | _ => false

/-- SPAD_RANGE of a VLD or VST. -/
def vecSpad (s : State) (a : Nat) (i : SeqInstr) : Bool :=
  let beyond (o : VmemOps) : Bool :=
    decide (64 * (o.sbase.toNat + o.nm1.toNat * o.spitch.toNat) + 8 * fmtWidth (vFmt (s.vopd a o.opd.toNat)) > padSize)
  match i with
  | .vld o => beyond o
  | .vst o => beyond o
  | _ => false

/-- The traps of a vector instruction in the order of R156 and R134. -/
def vecTrapOf (s : State) (a : Nat) (i : SeqInstr) : Option Att :=
  let slot := match i with
    | .vrd o => (s.mtx a).slotAt o.slot.toNat
    | _ => none
  let isVrd := match i with
    | .vrd _ => true
    | _ => false
  firstFail [
    (queueOwned s a i, .trap 1 0x10 5),
    (match i with
      | .vop o => vopArity o.func.toNat == 0
      | _ => false, vecTrap 1),
    (vopdKind s a i, vecTrap 2),
    (vecFormat s a i, vecTrap 3),
    (vecRange i, vecTrap 4),
    (isVrd && slot.isNone, vecTrap 5),
    (match slot with
      | some x => isVrd && !x.closed
      | none => false, vecTrap 6),
    (vecSpad s a i, vecTrap 7)]

/-! ### Queue conditions (R116, R159) -/

/-- Entries an instruction pops from each queue: (queue, entries), one pair for each source descriptor. -/
def vecPops (s : State) (a : Nat) (i : SeqInstr) : List (Nat × Nat) :=
  ((dedup (vecSrcs i)).filter (fun n => vIsQueue (s.vopd a n))).map
    (fun n => (vQueue (s.vopd a n), vecRows i * vEntries (s.vopd a n)))

/-- The queue and number of entries an instruction pushes. -/
def vecPush (s : State) (a : Nat) (i : SeqInstr) : Option (Nat × Nat) :=
  match vecDst i with
  | some n => if vIsQueue (s.vopd a n) then some (vQueue (s.vopd a n), vecRows i * vEntries (s.vopd a n)) else none
  | none => none

/-- Total of the pairs of one queue. -/
def totalOf (l : List (Nat × Nat)) (q : Nat) : Nat := (l.filter (fun x => x.1 == q)).foldl (fun n x => n + x.2) 0

/-- Entries that issued instructions of the engine will still pop from a queue. -/
def State.owedPops (s : State) (a q : Nat) : Nat :=
  (s.vec a).queue.foldl (fun n x =>
    let srcs := (dedup (vecSrcs x.instr)).map (fun k =>
      ((List.zip (vecSrcs x.instr) [x.s1, x.s2, x.s3]).find? (fun y => y.1 == k)).map Prod.snd |>.getD 0)
    (srcs.filter (fun w => vIsQueue w && vQueue w == q)).foldl (fun n w => n + (x.n - x.next) * vEntries w) n) 0

/-- The first queue whose condition fails. -/
def vecQueueHold (s : State) (a : Nat) (i : SeqInstr) : Option Nat :=
  let pops := vecPops s a i
  match (pops.map Prod.fst).find? (fun q => decide (s.qReady a q < totalOf pops q + s.owedPops a q)) with
  | some q => some q
  | none =>
    match vecPush s a i with
    | some (q, n) => if s.qFree a q < n then some q else none
    | none => none

/-! ### Projection (R120 to R123) -/

/-- Lines that row r of an instruction reads. -/
def vecReads (s1 s2 s3 : Word) (i : SeqInstr) (r : Nat) : List Nat :=
  (List.zip (vecSrcs i) [s1, s2, s3]).flatMap (fun x =>
    if vIsQueue x.2 then [] else if vMx x.2 then [vRowLine x.2 r, vSline x.2] else [vRowLine x.2 r])

/-- Lines that row r of an instruction writes. -/
def vecWrites (dst : Word) (i : SeqInstr) (r : Nat) : List Nat :=
  match i with
  | .vimm o => [o.line.toNat]
  | .vred _ => [vLine dst]
  | .vst _ => []
  | _ => if vIsQueue dst then [] else if vMx dst then [vRowLine dst r, vSline dst] else [vRowLine dst r]

/-- The descriptors of an instruction as they stand: destination and sources. -/
def vecWords (s : State) (a : Nat) (i : SeqInstr) : Word × Word × Word × Word :=
  let src (k : Nat) : Word := ((vecSrcs i)[k]?.map (s.vopd a)).getD 0
  (((vecDst i).map (s.vopd a)).getD 0, src 0, src 1, src 2)

/-- The projected start of an instruction (R122). A release of LAST in an earlier pitch, kept as 0, holds nothing. -/
def projectStart (s : State) (a : Nat) (i : SeqInstr) : Nat :=
  let v := s.vec a
  let (_, s1, s2, s3) := vecWords s a i
  let c := vecCpr i
  let st := max s.cycle v.nextFree
  let st := match i with
    | .vrd o => match (s.mtx a).slotAt o.slot.toNat with
      | some x => if x.lastRel = 0 then st else max st (x.lastRel + s.mtxReserve a 0 + 1)
      | none => st
    | _ => st
  (List.range (vecRows i)).foldl (fun st r =>
    (vecReads s1 s2 s3 i r).foldl (fun st l => max st (((aget v.ready l).getD 0) - r * c)) st) st

/-- The projected release of an instruction that starts at `st`. -/
def projectEnd (i : SeqInstr) (st : Nat) : Nat := st + (vecRows i - 1) * vecCpr i + 5

/-- Whether four issued instructions have not started (R155). -/
def State.vecFull (s : State) (a : Nat) : Bool := decide (((s.vec a).queue.filter (fun x => x.next == 0)).length ≥ 4)
/-- Whether an undecided row holds the engine (R139). -/
def State.vecHeld (s : State) (a : Nat) : Bool := s.rd F.VEC_STATUS_HELD a == 1

/-- The conditions of a vector instruction (R154). -/
def vecCheck (i : SeqInstr) (s : State) (a : Nat) : Att :=
  match engineCheck s (s.vecHeld a) (vecTrapOf s a i) (s.vecFull a)
      (s.admits (projectEnd i (projectStart s a i)) (s.vecReserve a)) with
  | .go => match vecQueueHold s a i with
    | some q => .hold 1 (qid a q)
    | none => .go
  | x => x

/-! ### Effect at issue -/

/-- Whether VRD or VCVT, which advance C0 (R131). -/
def usesCoords : SeqInstr → Bool
  | .vrd _ => true
  | .vcvt _ => true
  | _ => false

/-- LINE of a cache descriptor advances; a queue descriptor does not (R117). -/
def State.vecAdvance (s : State) (a n : Nat) : State :=
  if vIsQueue (s.vopd a n) then s
  else s.wr F.VEC_OPD_LINE a n (vLine (s.vopd a n) + vAdv (s.vopd a n))

/-- Credits for the entries an instruction will push: reserved ones first, and its positions in the queue (R116,
R159, R208); a ring send's message length waits for its header (R229). -/
def State.vecAlloc (s : State) (a q n : Nat) : State :=
  let r := s.qResv a q
  let s := s.wr F.QUE_STAT_RESV a q (r - n)
  let s := s.qAlloc a q (List.replicate n .hole)
  if s.role a q = 5 then s.modQueue a q (fun x => { x with msgs := List.append x.msgs [n] }) else s

/-- A vector instruction issues (R117, R122, R131). -/
def vecEffect (i : SeqInstr) (a : Nat) (s : State) : State :=
  let (dst, s1, s2, s3) := vecWords s a i
  let st := projectStart s a i
  let n := vecRows i
  let c := vecCpr i
  let push := vecPush s a i
  let x : VInst :=
    { instr := i, dst := dst, s1 := s1, s2 := s2, s3 := s3, c0 := s.rd F.VEC_SR_COORD01_C0 a,
      c1 := s.rd F.VEC_SR_COORD01_C1 a, c2 := s.rd F.VEC_SR_COORD23_C2 a, c3 := s.rd F.VEC_SR_COORD23_C3 a,
      seed := s.word .VEC_SR_SEED a 0, start := st, from_ := 0, next := 0, n := n, cpr := c,
      slotAt := match i with
        | .vrd o => some o.slot.toNat
        | _ => none
      issued := s.cycles }
  let ready := (List.range n).foldl (fun rd r =>
    (vecWrites dst i r).foldl (fun rd l => aput rd l (st + r * c + 6)) rd) (s.vec a).ready
  let s := s.modVec a (fun v => { v with queue := List.append v.queue [x], ready := ready, nextFree := st + n * c })
  let s := match i with
    | .vrd o => s.modMtx a (fun m => { m with slots := m.slots.map (fun (y : SlotI) =>
        if y.start = o.slot.toNat then { y with readEnd := max y.readEnd (st + n) } else y) })
    | _ => s
  let s := s.wr F.VEC_STATUS_PROJ a 0 (projectEnd i st)
  let s := (vecNamed i).foldl (fun s k => s.vecAdvance a k) s
  let s := if usesCoords i then s.wr F.VEC_SR_COORD01_C0 a 0 (s.rd F.VEC_SR_COORD01_C0 a + n) else s
  match push with
  | some (q, k) => s.vecAlloc a q k
  | none => s

/-- The instructions of the engine issued again when a job resumes, rows that were behind an undecided one first: the instruction
whose slot was undecided counted as not issued at the boundary, and those behind it had not started either (R129, R356). The
values of their first issue are used (log entry 104). -/
def VecX.reissue (v : VecX) : VecX :=
  let pipe := (v.pipe.zip (List.range v.pipe.length)).map (fun x => { x.1 with entered := 64 + x.2 })
  v.queue.foldl (fun w x =>
    let rows := (List.range (x.n - x.next)).map (fun k => (x.next + k, k * x.cpr))
    let st := rows.foldl (fun st r => (vecReads x.s1 x.s2 x.s3 x.instr r.1).foldl (fun st l =>
      max st (((aget w.ready l).getD 0) - r.2)) st) w.nextFree
    { w with queue := List.append w.queue [{ x with start := st, from_ := x.next }]
             ready := rows.foldl (fun rd r => (vecWrites x.dst x.instr r.1).foldl (fun rd l => aput rd l (st + r.2 + 6)) rd) w.ready
             nextFree := st + rows.length * x.cpr })
    { v with queue := [], pipe := pipe, nextFree := 64 + pipe.length
             ready := pipe.foldl (fun rd y => (vecWrites y.instr.dst y.instr.instr y.row).foldl (fun rd l => aput rd l (y.entered + 6)) rd) [] }

/-- One attempt of a vector instruction to issue. -/
def vecCmd (p : At) (i : SeqInstr) (s : State) : State :=
  issueWith p i id (fun s => vecCheck i s p.site.toNat) (vecEffect i p.site.toNat) .on s

/-- VOP (R125). -/
def execVop (p : At) (o : VopOps) (s : State) : Host.Outcome State Fault Refusal := .next (vecCmd p (.vop o) s)
/-- VRD (R128). -/
def execVrd (p : At) (o : VrdOps) (s : State) : Host.Outcome State Fault Refusal := .next (vecCmd p (.vrd o) s)
/-- VCVT (R130). -/
def execVcvt (p : At) (o : VcvtOps) (s : State) : Host.Outcome State Fault Refusal := .next (vecCmd p (.vcvt o) s)
/-- VRED (R132). -/
def execVred (p : At) (o : VredOps) (s : State) : Host.Outcome State Fault Refusal := .next (vecCmd p (.vred o) s)
/-- VLD (R133). -/
def execVld (p : At) (o : VmemOps) (s : State) : Host.Outcome State Fault Refusal := .next (vecCmd p (.vld o) s)
/-- VST (R133). -/
def execVst (p : At) (o : VmemOps) (s : State) : Host.Outcome State Fault Refusal := .next (vecCmd p (.vst o) s)
/-- VIMM (R133). -/
def execVimm (p : At) (o : VimmOps) (s : State) : Host.Outcome State Fault Refusal := .next (vecCmd p (.vimm o) s)

/-! ### What a row computes -/

/-- The scale byte of lane n's element with its poison: that of the block of the element the lane reads, which with LB = 1 is
element LANE (R48, R114, R119). -/
def laneScale (d : Word) (scales : List (Nat × Bool)) (n : Nat) : Nat × Bool :=
  scales.getD ((if vLb d then vLane d else n) / 32) (0, false)

/-- A lane's value, with the scale of its block when the row is MX (R48, R119). -/
def laneValue (d : Word) (scales : List (Nat × Bool)) (n code : Nat) : Num :=
  if vMx d then decodeMx (vFmt d) code (laneScale d scales n).1 else decodeElem (vFmt d) code

/-- The rounding rule of row r, lane n of a conversion (R51, R56, R131). -/
def rndOf (x : VInst) (rm : Nat) (sat : Bool) (tid r n : Nat) : Rnd :=
  ⟨rm, sat, if rm = 2 then srBits x.seed.toNat tid ((x.c0 + r) % 2 ^ 32) ((x.c1 + n) % 2 ^ 32) x.c2 x.c3 else 0⟩

/-- Values converted into the format of a destination: codes, flags of each lane, scale bytes of an MX row (R50). -/
def convertRow (d : Word) (rds : List Rnd) (vals : List Num) : List Nat × List Nat × List Nat :=
  if vMx d then
    let half (k : Nat) := toMx (vFmt d) ((rds.drop (32 * k)).take 32) ((vals.drop (32 * k)).take 32)
    let (s0, l0) := half 0
    let (s1, l1) := half 1
    let l := List.append l0 l1
    (l.map Prod.fst, l.map Prod.snd, [s0, s1])
  else
    let l := List.zipWith (fun rd v => convert (vFmt d) rd v) rds vals
    (l.map Prod.fst, l.map Prod.snd, [])

/-- The pairwise sum tree of a row with its flags (R132). -/
def pairSums : List (Nat × Nat) → List (Nat × Nat)
  | (x, f) :: (y, g) :: l =>
    let (z, h) := (vopFp 0 x y 0).getD (0, 0)
    (z, f ||| g ||| h) :: pairSums l
  | l => l

/-- The reduction of a row by FUNC: result and flags (R132). -/
def reduceRow (func : Nat) (l : List Nat) : Nat × Nat :=
  match func with
  | 0 => ((pairSums (pairSums (pairSums (pairSums (pairSums (pairSums (l.map (fun x => (x, 0))))))))).head?).getD (0, 0)
  | 1 => (match l with
      | [] => 0
      | x :: xs => xs.foldl (minMax true) x, 0)
  | 2 => (match l with
      | [] => 0
      | x :: xs => xs.foldl (minMax false) x, 0)
  | _ => ((pairSums (pairSums (pairSums (pairSums (pairSums (pairSums (l.map (fun x =>
      (vopFp 2 x x 0).getD (0, 0))))))))).head?).getD (0, 0)

/-- The elements of a source in a row: from its line, or from the entries popped. -/
def srcElems (v : VecX) (w : Word) (r : Nat) (es : List Entry) : List (Nat × Bool) :=
  if vIsQueue w then entryElems (vFmt w) es else v.rowElems w r

/-- Sources of a row with their elements: each queue descriptor pops its entries once (R115). -/
def State.popSrcs (s : State) (a : Nat) (x : VInst) : List (Nat × Word) → List (Nat × List Entry) →
    List (List (Nat × Bool)) × State
  | [], _ => ([], s)
  | (k, w) :: l, seen =>
    let (es, s, seen) :=
      if vIsQueue w then
        match aget seen k with
        | some es => (es, s, seen)
        | none =>
          let (es, s) := s.qPops a (vQueue w) (vEntries w)
          (es, s, (k, es) :: seen)
      else ([], s, seen)
    let el := srcElems (s.vec a) w x.next es
    let (rest, s) := s.popSrcs a x l seen
    (el :: rest, s)

/-- The words of a scratchpad row as decoded. -/
def State.padWords (s : State) (a off n : Nat) : List (Nat × Bool) :=
  (List.range n).map (fun k => let (w, p) := s.engineWord ((padAddr a off) / 8 + k); (w.toNat, p))

/-- A line from words. -/
def lineOfWords (l : List (Nat × Bool)) : Line :=
  ⟨BitVec.ofNat 2048 (packElems 64 (l.map Prod.fst)),
   BitVec.ofNat 32 ((l.zip (List.range 32)).foldl (fun acc x => if x.1.2 then acc + 2 ^ x.2 else acc) 0), 0⟩
/-- The first n words of a line. -/
def wordsOfLine (x : Line) (n : Nat) : List (Nat × Bool) :=
  (List.range n).map (fun k => (elemOf x.bits.toNat 64 k, x.poison.getLsbD k))

/-- Byte of the scale line a VLD or VST of an MX descriptor moves (R133, log entry 21). -/
def scaleByte (o : VmemOps) : Nat :=
  64 * (Config.scaleLineAt o.sbase.toNat o.spitch.toNat (o.nm1.toNat + 1) % 98301)

/-! ### Residues (R136) -/

/-- The integer of a value: its significand with its sign. -/
def sigOf : Num → Int
  | .fin n m _ => if n then -(m : Int) else m
  | _ => 0

/-- A residue modulo 7. -/
def res7 (i : Int) : Nat := (i % 7).toNat

/-- A residue shifted by d bits (R136). -/
def shift7 (r d : Nat) : Nat := r * 2 ^ (d % 3) % 7

/-- The exponent of a value's integer. -/
def Num.exp : Num → Int
  | .fin _ _ e => e
  | _ => 0

/-- The residue predicted for an exact sum from the residues and exponents of its two parts. -/
def predictSum (r1 : Nat) (e1 : Int) (r2 : Nat) (e2 : Int) : Nat :=
  let e := min e1 e2
  (shift7 r1 (e1 - e).toNat + shift7 r2 (e2 - e).toNat) % 7

/-- The exact integer result of a lane of VOP and the residue predicted for it. A lane with a special value has none. Of a function
of one operand the integer is the operand's. -/
def laneRes (func a b c : Nat) : Int × Nat :=
  let x := f32 a
  let y := f32 b
  let z := f32 c
  let rx := res7 (sigOf x)
  let ry := res7 (sigOf y)
  let pair (ops : List Num) (v : Num) (p : Nat) : Int × Nat := if ops.any Num.special then (0, 0) else (sigOf v, p)
  match func with
  | 0x00 => pair [x, y] (x.add y) (predictSum rx x.exp ry y.exp)
  | 0x01 => pair [x, y] (x.add y.neg) (predictSum rx x.exp (res7 (sigOf y.neg)) y.exp)
  | 0x02 => pair [x, y] (x.mul y) (rx * ry % 7)
  | 0x03 => pair [x, y, z] ((x.mul y).add z) (predictSum (rx * ry % 7) (x.exp + y.exp) (res7 (sigOf z)) z.exp)
  | _ => pair [x] x rx

/-- Whether the significand arithmetic of an instruction's lanes is checked by residue: VCVT, VRD, VRED, and the FP functions of VOP
that do not run in duplicate (R136). -/
def rowResidue : SeqInstr → Bool
  | .vop o => !vopIsInt o.func.toNat && !([0x04, 0x05, 0x08, 0x09, 0x0F].contains o.func.toNat)
  | .vrd _ => true
  | .vcvt _ => true
  | .vred _ => true
  | _ => false

/-- The integers of converted values with their residues. -/
def valueRes (l : List Num) : List (Int × Nat) := l.map (fun v => (sigOf v, res7 (sigOf v)))

/-- Row `next` of an instruction computed from operands as they read now: the latched row, and the state after its
queue pops and decodes. For VLD and VST the elements are 64-bit words; the scale line follows the last row. -/
def State.vecRow (s : State) (a : Nat) (x : VInst) : VRow × State :=
  let r := x.next
  let v := s.vec a
  let s := s.decodeLines a (vecReads x.s1 x.s2 x.s3 x.instr r)
  let row (ops : List (List (Nat × Bool))) (el : List (Nat × Bool)) (rs : List (Int × Nat)) (sc : List Nat) (fl : Nat)
      (p : Bool) : VRow :=
    { instr := x, row := r, ops := ops, elems := el, res := rs, got := el, scales := sc, flags := fl, poisonIn := p
      replay := false, entered := s.cycle }
  let srcs := List.zip (vecSrcs x.instr) [x.s1, x.s2, x.s3]
  match x.instr with
  | .vop o =>
    let (els, s) := s.popSrcs a x srcs []
    let g (k n : Nat) : Nat × Bool := (els.getD k []).getD n (0, false)
    let fn := o.func.toNat
    let res := (List.range 64).map (fun n =>
      let p := (g 0 n).2 || (g 1 n).2 || (g 2 n).2
      let (c, f) := if vopIsInt fn then ((vopInt fn (g 0 n).1 (g 1 n).1).getD 0, 0)
        else (vopFp fn (g 0 n).1 (g 1 n).1 (g 2 n).1).getD (0, 0)
      (c, p, f))
    let mask := s.laneMask a o.lmask.toNat
    let rs := (List.range 64).map (fun n => laneRes fn (g 0 n).1 (g 1 n).1 (g 2 n).1)
    (row els (res.map (fun y => (y.1, y.2.1))) rs [] (ariFlags (orFlags mask (res.map (fun y => y.2.2))))
      (res.any (fun y => y.2.1)), s)
  | .vrd o =>
    match (s.mtx a).physAt o.slot.toNat with
    | none => (row [] [] [] [] 0 false, s)
    | some y =>
      let lo := 64 * (o.row0.toNat + r)
      let wp := y.span lo 64
      let ws := wp.map Prod.fst
      let vals := ws.map (fun w => (MW.ofBits y.mode w).num y.mode y.anchor)
      let rds := (List.range 64).map (rndOf x o.rm.toNat o.sat o.tid.toNat r)
      let (cs, fs, sc) := convertRow x.dst rds vals
      -- a SAT word raises CVT_OVF, but not in a block written with scale 0xFF, which raises CVT_INVALID alone (R50, log entry 106)
      let fs := (List.range 64).map (fun n =>
        let w := ws.getD n 0
        let sat := y.mode != .f32 && (MW.ofBits y.mode w).tag == 1 && sc.getD (n / 32) 0 != 0xFF
        if sat then fs.getD n 0 ||| 4 else fs.getD n 0)
      let mask := s.laneMask a o.lmask.toNat
      let ps := wp.map Prod.snd
      let ps := if vMx x.dst then
          (List.range 64).map (fun n => ((ps.drop (32 * (n / 32))).take 32).any (fun b => b))
        else ps
      (row [wp.map (fun w => (w.1.toNat, w.2))] (cs.zip ps) (valueRes vals) sc (cvtFlags (orFlags mask fs)) (ps.any (fun b => b)),
        (s.readSlot a o.slot.toNat lo 64).raiseBadTag a (ws.any (badTag y.mode)))
  | .vcvt o =>
    let (els, s) := s.popSrcs a x srcs []
    let el := els.getD 0 []
    let mask := s.laneMask a o.lmask.toNat
    let ss := if vMx x.s1 then v.rowScales x.s1 r else []
    if vFmt x.s1 = vFmt x.dst ∧ vMx x.s1 = vMx x.dst then
      let el := if vMx x.s1 then
          (List.zip (List.range 64) el).map (fun (n, c) => (c.1, c.2 || (laneScale x.s1 ss n).2)) else el
      (row [el, ss] el [] (if vMx x.s1 then [(laneScale x.s1 ss 0).1, (laneScale x.s1 ss 32).1] else []) 0 (el.any Prod.snd), s)
    else
      let vals := (List.zip (List.range 64) el).map (fun (n, c) => laneValue x.s1 ss n c.1)
      let rds := (List.range 64).map (rndOf x o.rm.toNat o.sat o.tid.toNat r)
      let (cs, fs, sc) := convertRow x.dst rds vals
      let ps := (List.zip (List.range 64) el).map (fun (n, c) => c.2 || (vMx x.s1 && (laneScale x.s1 ss n).2))
      let ps := if vMx x.dst then
          (List.range 64).map (fun n => ((ps.drop (32 * (n / 32))).take 32).any (fun b => b))
        else ps
      (row [el, ss] (List.zip cs ps) (valueRes vals) sc (cvtFlags (orFlags mask fs)) (ps.any (fun b => b)), s)
  | .vred o =>
    let (els, s) := s.popSrcs a x srcs []
    let el := els.getD 0 []
    let (c, f) := reduceRow o.func.toNat (el.map Prod.fst)
    let p := el.any Prod.snd
    (row [el] [(c, p)] [] [] (ariFlags f) p, s)
  | .vld o =>
    let off := 64 * (o.sbase.toNat + r * o.spitch.toNat)
    let n := fmtWidth (vFmt x.dst)
    let el := s.padWords a off n
    let s1 := s.noteReads a 1 (padBase (spurNo a)) (padAddr a off) (8 * n)
    let el := if vMx x.dst && r + 1 == x.n then List.append el (s.padWords a (scaleByte o) 32) else el
    (row [el] el [] [] 0 (el.any Prod.snd), s1)
  | .vst _ =>
    let n := fmtWidth (vFmt x.s1)
    let f := vFmt x.s1
    let ln := if vLb x.s1 then writeLine f (BitVec.allOnes 64) Line.zero (v.rowElems x.s1 r) else v.line (vRowLine x.s1 r)
    let el := wordsOfLine ln n
    let el := if vMx x.s1 && r + 1 == x.n then List.append el (wordsOfLine (v.line (vSline x.s1)) 32) else el
    (row [el] el [] [] 0 (el.any Prod.snd), s)
  | .vimm o => (row [] (List.replicate 64 (o.imm.toNat, false)) [] [] 0 false, s)
  | _ => (row [] [] [] [] 0 false, s)

/-! ### Entry into stage 1 (R120, R121) -/

/-- Later rows and instructions fall behind by `d` cycles (R138). -/
def VecX.delay (v : VecX) (now d : Nat) : VecX :=
  { v with queue := v.queue.map (fun x => { x with start := x.start + d }), nextFree := v.nextFree + d,
           ready := v.ready.map (fun x => if x.2 > now then (x.1, x.2 + d) else x) }

/-- Whether the next row of an instruction may enter stage 1 in cycle t (R120, R121, R129): its own earlier rows, the last
`x.next` that entered, are none it waits for, since R122 projects no such wait (log entry 87). -/
def State.rowMayEnter (s : State) (a : Nat) (x : VInst) : Bool :=
  let v := s.vec a
  decide (x.start + (x.next - x.from_) * x.cpr ≤ s.cycle) &&
  (match v.pipe.getLast? with
    | some y => decide (y.entered + y.instr.cpr ≤ s.cycle)
    | none => true) &&
  (vecReads x.s1 x.s2 x.s3 x.instr x.next).all (fun l =>
    !((v.pipe.take (v.pipe.length - x.next)).any (fun y => (vecWrites y.instr.dst y.instr.instr y.row).contains l))) &&
  (match x.slotAt with
    | some u => (((s.mtx a).physAt u).map SlotP.done).getD false &&
        !((s.mtx a).tiles.any (fun y => y.slot == u && y.last && decide (y.issued < x.issued)))
    | none => true)

/-- VECTOR_ROW_ENTRY (R120): the oldest instruction's next row enters stage 1. -/
def execVectorRowEntry (p : At) (s : State) : Host.Outcome State Fault Refusal :=
  .next (atEngine p (fun s =>
    let a := p.site.toNat
    match (s.vec a).queue with
    | [] => s
    | x :: _ =>
      if s.vecHeld a || !s.rowMayEnter a x then s
      else
        let now := s.cycle
        let d := now - (x.start + (x.next - x.from_) * x.cpr)
        let (y, s) := s.vecRow a x
        let s := s.count C.VEC_CNT_BUSY a
        s.modVec a (fun v =>
          let v := v.delay now d
          let q := match v.queue with
            | [] => []
            | z :: l => if z.next + 1 ≥ z.n then l else { z with next := z.next + 1 } :: l
          { v with queue := q, pipe := List.append v.pipe [y] })) s)

/-! ### The gating stage (R136 to R139) -/

/-- A line of the cache replaced. -/
def State.putLine (s : State) (a l : Nat) (x : Line) : State := s.modVec a (fun v => { v with cache := aput v.cache l x })

/-- Scale bytes of row r written into their line, those of wholly masked blocks too: R135 leaves masked elements as they are and
does not speak of their scale (R119, DESIGN CHOICE, log entry 105). -/
def State.putScales (s : State) (a : Nat) (d : Word) (r : Nat) (sc : List Nat) (p : Bool) : State :=
  match sc with
  | [s0, s1] =>
    let x := (s.vec a).line (vSline d)
    let mask := (0xFFFF : BitVec 2048) <<< (16 * r)
    let bits := (x.bits &&& ~~~mask) ||| (BitVec.ofNat 2048 (s0 + 256 * s1) <<< (16 * r))
    s.putLine a (vSline d) ⟨bits, if p then x.poison ||| (1#32 <<< (r / 4)) else x.poison, 0⟩
  | _ => s

/-- A scratchpad row written word by word with its poison bits. -/
def State.putPadWords (s : State) (a off : Nat) (l : List (Nat × Bool)) : State :=
  (l.zip (List.range l.length)).foldl (fun s x =>
    s.putWord (padAddr a off + 8 * x.2) (BitVec.ofNat 64 x.1.1) x.1.2) s

/-- The lane mask of a row's instruction. -/
def State.rowMaskOf (s : State) (a : Nat) : SeqInstr → Word
  | .vop o => s.laneMask a o.lmask.toNat
  | .vrd o => s.laneMask a o.lmask.toNat
  | .vcvt o => s.laneMask a o.lmask.toNat
  | _ => BitVec.allOnes 64

/-- A row's result written or pushed (R115, R132, R133, R135). -/
def State.writeRow (s : State) (a : Nat) (y : VRow) : State :=
  let x := y.instr
  let v := s.vec a
  match x.instr with
  | .vimm o =>
    let mask := BitVec.ofNat 64 ((2 ^ (o.cntm1.toNat + 1) - 1) * 2 ^ o.lane0.toNat)
    s.putLine a o.line.toNat (writeLine 0 mask (v.line o.line.toNat) y.elems)
  | .vred _ =>
    s.putLine a (vLine x.dst) (writeLine 0 (1#64 <<< y.row) (v.line (vLine x.dst))
      (List.replicate 64 (y.elems.getD 0 (0, false))))
  | .vld _ =>
    let n := fmtWidth (vFmt x.dst)
    let s := s.putLine a (vRowLine x.dst y.row) (lineOfWords (y.elems.take n))
    if y.elems.length > n then s.putLine a (vSline x.dst) (lineOfWords (y.elems.drop n)) else s
  | .vst o =>
    let n := fmtWidth (vFmt x.s1)
    let s := s.putPadWords a (64 * (o.sbase.toNat + y.row * o.spitch.toNat)) (y.elems.take n)
    if y.elems.length > n then s.putPadWords a (scaleByte o) (y.elems.drop n) else s
  | _ =>
    let mask := s.rowMaskOf a x.instr
    if vIsQueue x.dst then
      (rowEntries (vFmt x.dst) mask y.elems).foldl (fun s e => s.qFill a (vQueue x.dst) e) s
    else
      let l := vRowLine x.dst y.row
      let s := s.putLine a l (writeLine (vFmt x.dst) mask (v.line l) y.elems)
      s.putScales a x.dst y.row y.scales (y.elems.any Prod.snd)

/-- Credits of CSRC 2 when the last row of a VLD or VST passes the gating stage (R190). -/
def State.vecCredits (s : State) (a : Nat) (y : VRow) : State :=
  let give (k : Nat) : State :=
    ((List.range 4).filter (fun n => s.rd F.STR_DESC_CSRC a n == 2 &&
        decide (s.rd F.STR_DESC_CIDX a n ≤ k) &&
        decide (k ≤ s.rd F.STR_DESC_CIDX a n + s.rd F.STR_DESC_CNUM a n))).foldl
      (fun s n => { s with credNext := aput s.credNext (a * 16 + n) (((aget s.credNext (a * 16 + n)).getD 0) + 1) }) s
  if y.row + 1 = y.instr.n then
    match y.instr.instr with
    | .vld o => give o.opd.toNat
    | .vst o => give o.opd.toNat
    | _ => s
  else s

/-- A referee's row is kept for its verdict: its first result (R355). -/
def State.refRow (s : State) (a : Nat) (y : VRow) : State :=
  s.modHut (fun h => { h with refs := h.refs.map (fun r =>
    if r.referee == some a && r.running && r.row.isNone then { r with row := some y.elems } else r) })

/-- A row passes: it is written, its flags are raised and it is counted. -/
def State.rowPasses (s : State) (a : Nat) (y : VRow) : State :=
  let s := (s.refRow a y).writeRow a y
  let s := s.raiseVec a y.flags
  ((s.count C.VEC_CNT_ROWS a).modVec a (fun v => { v with pipe := v.pipe.drop 1 })).vecCredits a y

/-- Whether a row is checked at all: VLD, VST and VIMM have no residue check (R133). -/
def rowChecked : SeqInstr → Bool
  | .vld _ => false
  | .vst _ => false
  | .vimm _ => false
  | _ => true

/-- An undecided row (R139): the rows behind it stay where they are. -/
def State.undecideRow (s : State) (a : Nat) (y : VRow) : State :=
  let s := s.modVec a (fun v => { v with pipe := v.pipe.drop 1, undecided := some y })
  let s := s.wrs a 0 [(F.VEC_STATUS_HELD, 1), (F.VEC_STATUS_UNDEC_ROW, y.row)]
  (s.count C.VEC_CNT_UNDEC a).suspect a 3

/-- A mismatch of the row at the gating stage (R138, R139, R346). -/
def State.rowMismatch (s : State) (a : Nat) (y : VRow) : State :=
  if y.poisonIn then
    (s.count C.CHK_CNT_POISONREL a).rowPasses a { y with elems := y.got.map (fun e => (e.1, true)) }
  else if y.replay || s.rd F.VEC_STATUS_REPLAY_SPENT a == 1 then s.undecideRow a y
  else
    let now := s.cycle
    let s := s.wr F.VEC_STATUS_REPLAY_SPENT a 0 1
    let s := s.count C.VEC_CNT_BUSY a (s.vec a).pipe.length
    s.modVec a (fun v =>
      let v := v.delay now 6
      { v with pipe := (v.pipe.map (fun z => { z with entered := z.entered + 6 })).modifyHead
                 (fun z => { z with replay := true }) })

/-- The elements a row puts out when upsets met its lanes: a VRED has one result. -/
def VRow.met (y : VRow) (u : List LaneUpset) : List (Nat × Bool) :=
  u.foldl (fun l x =>
    let n := if l.length = 1 then 0 else x.lane.toNat
    if x.delta = 0 then l else l.set n (x.out.toNat, (l.getD n (0, false)).2)) y.elems

/-- Whether a lane's check fails: the predicted residue against that of the produced result and the discarded part together, or
the two copies (R136, R137). -/
def VRow.laneFails (y : VRow) (x : LaneUpset) : Bool :=
  let r := y.res.getD x.lane.toNat (0, 0)
  x.copy || (rowResidue y.instr.instr && res7 (r.1 + x.delta.toInt) != r.2)

/-- VECTOR_ROW_GATING (R136 to R139): the oldest row reaches the gating stage, its lanes met by the upsets `u`. An error that the
checks do not find is written (R137). -/
def execVectorRowGating (p : At) (u : List LaneUpset) (s : State) : Host.Outcome State Fault Refusal :=
  .next (atEngine p (fun s =>
    let a := p.site.toNat
    match (s.vec a).pipe with
    | [] => s
    | y :: _ =>
      if s.vecHeld a || decide (s.cycle < y.entered + 5) then s
      else if !rowChecked y.instr.instr then s.rowPasses a y
      else
        let y := { y with got := y.met u }
        if u.any y.laneFails then s.rowMismatch a y
        else
          let s := if y.replay then s.count C.VEC_CNT_REPLAY a else s
          s.rowPasses a { y with elems := y.got }) s)

end Sys2Proof.Machine
end

