-- ==== Sys2Proof/Machine/Steering.lean ====
section
/-! DEFINITION. The steering units (R168 to R173): tokens, data FIFOs, STEER and MERGE. -/

namespace Sys2Proof.Machine

/-! ### Tokens (Table 05-5) -/

/-- Data entries a token governs. -/
def tokCount (t : BitVec 16) : Nat := t.toNat / 256 + 1
/-- SEL of a token. -/
def tokSel (t : BitVec 16) : Nat := t.toNat % 4

/-- Queue of output k of a unit. -/
def steerOut (w : Word) (k : Nat) : Nat := fieldGet (F.SEQ_STEER_OUT.at 5 k) w
/-- Queue of input k of a unit. -/
def steerIn (w : Word) (k : Nat) : Nat := fieldGet (F.SEQ_STEER_IN.at 5 k) w

/-- Entries written into a queue in this core cycle: at most four are accepted (R209). -/
def State.writesNow (s : State) (a q : Nat) : Nat :=
  ((s.queue a q).items.filter (fun x => match x with
    | .entry _ t => t == s.cycles
    | _ => false)).length

/-! ### The head of issue -/

/-- The instruction at the head of issue. -/
def State.headInstr (s : State) (a : Nat) : Option SeqInstr :=
  match s.fetch a with
  | .word w _ => decodeSeq w
  | _ => none

/-- How the head instruction of a site stands in this cycle. -/
def State.headAtt (s : State) (a : Nat) : Att :=
  if s.rd F.SEQ_STATUS_STATE a ≠ 1 then .go
  else match s.headInstr a with
    | some i =>
      let g := match i.guard? with
        | some g => s.guardHolds a g
        | none => true
      if illegalHere a g i || !g then .go
      else if i.isMatrix then mtxCheck i s a
      else if i.isEngine then vecCheck i s a
      else seqCheck i s a
    | none => .go

/-! ### Who pushes into a queue in this cycle (R173, R208, R209) -/

/-- The queue into which a steering unit's next firing pushes: that of the output its token selects, if enabled, or of a MERGE
unit's OUT0 (R170, R171). -/
def State.steerDst (s : State) (a n : Nat) : Option Nat :=
  let w := s.word .SEQ_STEER a n
  let u := s.steer a n
  if u.data.isEmpty then none
  else match u.toks with
    | [] => none
    | (t, mark) :: _ =>
      if fieldGet F.SEQ_STEER_MODE w = 1 then
        if fieldGet F.SEQ_STEER_OEN w / 2 ^ tokSel t % 2 = 1 then some (steerOut w (tokSel t)) else none
      else if mark then none else some (steerOut w 0)

/-- Whether a steering unit asks in this cycle to push into a queue. -/
def State.steerWants (s : State) (a q n : Nat) : Bool :=
  s.steerOn a n && !(s.steer a n).stopped && (s.steer a n).fireAt != some s.cycles && s.steerDst a n == some q

/-- Whether a row of the vector engine is at the gating stage with entries for a queue: its push is served first (R173). -/
def State.vecWriteDue (s : State) (a q : Nat) : Bool :=
  match (s.vec a).pipe with
  | [] => false
  | y :: _ => !s.vecHeld a && decide (s.cycle ≥ y.entered + 5) && vIsQueue y.instr.dst && vQueue y.instr.dst == q &&
      (vecDst y.instr.instr).isSome

/-- Whether the sequencer issues in this cycle an instruction that allocates positions of a queue: a vector instruction that pushes
into it, or a SIG on its connection; its allocation comes first (R208). -/
def State.seqAllocDue (s : State) (a q : Nat) : Bool :=
  s.mayIssue a && s.headAtt a == .go &&
  (match s.headInstr a with
    | some (.sig o) => o.path && o.qn.toNat == q && s.guardHolds a o.g
    | some i => i.isEngine && !i.isMatrix && (vecPush s a i).any (fun x => x.1 == q)
    | none => false)

/-- The steering unit whose push into a queue is served next in this cycle, after the sequencer's allocation and the vector engine's
push: the first that asks from the queue's pointer on, while the queue has a credit not reserved and takes a further write (R159,
R173, R208, R209). -/
def State.steerGrant (s : State) (a q : Nat) : Option Nat :=
  if s.qUnres a q = 0 ∨ s.writesNow a q ≥ 4 ∨ s.vecWriteDue a q ∨ s.seqAllocDue a q then none
  else ((List.range 8).map (fun k => ((s.queue a q).pushPtr + k) % 8)).find? (s.steerWants a q)

/-- A steering unit's push; the first entry of a token opens a ring message (R229). The arbiter's pointer moves past
the unit (R173). -/
def State.steerPush (s : State) (a n q : Nat) (e : Entry) (first : Bool) (len : Nat) : State :=
  let s := s.qPush a q e
  let s := if first && s.role a q == 5 then s.modQueue a q (fun x => { x with msgs := List.append x.msgs [len] }) else s
  s.modQueue a q (fun x => { x with pushPtr := (n + 1) % 8 })

/-- A command of one steering unit in mode `md` whose section is Running and which no poisoned token has stopped. -/
def steerCmd (p : At) (unit : BitVec 3) (md : Nat) (f : Nat → Nat → State → State) (s : State) : State :=
  atSite p (fun s =>
    let a := p.site.toNat
    let n := unit.toNat
    if s.running a && s.steerOn a n && (md == 0 || s.rd F.SEQ_STEER_MODE a n == md) && !(s.steer a n).stopped then
      f a n s
    else s) s

/-- Intake of a queue-sourced token (R169). A poisoned token is a commit point, and the unit stops (R347, R348). -/
def tokenIntake (a n : Nat) (s : State) : State :=
  let w := s.word .SEQ_STEER a n
  let u := s.steer a n
  let now := s.cycles
  if fieldGet F.SEQ_STEER_TSRC w = 0 ∨ u.toks.length ≥ 8 ∨ u.tokAt = some now then s
  else
    let q := fieldGet F.SEQ_STEER_TQ w
    match s.qHeads a q with
    | [] => s
    | e :: _ =>
      if e.decode.poison.getLsbD 0 then (s.modSteer a n (fun u => { u with stopped := true })).poisonSite a 3 0
      else
        let s := (s.qPop a q).2
        s.modSteer a n (fun u =>
          { u with toks := List.append u.toks [(BitVec.ofNat 16 e.decode.bits.toNat, false)], tokAt := some now })

/-- QUEUE_TOKEN_INTAKE (R169). -/
def execQueueTokenIntake (p : At) (unit : BitVec 3) (s : State) : Host.Outcome State Fault Refusal :=
  .next (steerCmd p unit 0 tokenIntake s)

/-- Data intake of a STEER unit from IN0 (R170). -/
def dataIntake (a n : Nat) (s : State) : State :=
  let u := s.steer a n
  let now := s.cycles
  if u.data.length ≥ 16 ∨ u.inAt = some now then s
  else
    match s.qPop a (steerIn (s.word .SEQ_STEER a n) 0) with
    | (none, s) => s
    | (some e, s) => s.modSteer a n (fun u => { u with data := List.append u.data [e], inAt := some now })

/-- STEER_DATA_INTAKE (R170). -/
def execSteerDataIntake (p : At) (unit : BitVec 3) (s : State) : Host.Outcome State Fault Refusal :=
  .next (steerCmd p unit 1 dataIntake s)

/-- The head entry leaves a unit's data FIFO, and its token when it was the last (R170, R171). -/
def State.steerMoved (s : State) (a n left : Nat) : State :=
  let now := s.cycles
  let s := s.count C.SEQ_CNT_STEER a
  s.modSteer a n (fun u =>
    if left = 1 then { u with data := u.data.drop 1, toks := u.toks.drop 1, left := 0, ipos := u.ipos - 1, fireAt := some now }
    else { u with data := u.data.drop 1, left := left - 1, fireAt := some now })

/-- steer_fire (R170). -/
def steerFire (a n : Nat) (s : State) : State :=
  let w := s.word .SEQ_STEER a n
  let u := s.steer a n
  match u.toks, u.data with
  | (t, _) :: _, e :: _ =>
    if u.fireAt = some s.cycles then s
    else
      let left := if u.left = 0 then tokCount t else u.left
      let o := tokSel t
      if fieldGet F.SEQ_STEER_OEN w / 2 ^ o % 2 = 1 then
        let q := steerOut w o
        if s.steerGrant a q = some n then (s.steerPush a n q e (u.left == 0) (tokCount t)).steerMoved a n left else s
      else s.steerMoved a n left
  | _, _ => s

/-- STEER_FIRE (R170). -/
def execSteerFire (p : At) (unit : BitVec 3) (s : State) : Host.Outcome State Fault Refusal :=
  .next (steerCmd p unit 1 steerFire s)

/-- merge_intake (R171). -/
def mergeIntake (a n : Nat) (s : State) : State :=
  let w := s.word .SEQ_STEER a n
  let u := s.steer a n
  let now := s.cycles
  match u.toks[u.ipos]? with
  | none => s
  | some (t, _) =>
    if u.data.length ≥ 16 ∨ u.inAt = some now then s
    else
      let take := if u.take = 0 then tokCount t else u.take
      let k := tokSel t
      if fieldGet F.SEQ_STEER_IEN w / 2 ^ k % 2 = 0 then
        s.modSteer a n (fun u => { u with toks := u.toks.set u.ipos (t, true), ipos := u.ipos + 1, take := 0,
                                          inAt := some now })
      else
        match s.qPop a (steerIn w k) with
        | (none, s) => s
        | (some e, s) => s.modSteer a n (fun u =>
            { u with data := List.append u.data [e], take := take - 1,
                     ipos := if take = 1 then u.ipos + 1 else u.ipos, inAt := some now })

/-- MERGE_INTAKE (R171). -/
def execMergeIntake (p : At) (unit : BitVec 3) (s : State) : Host.Outcome State Fault Refusal :=
  .next (steerCmd p unit 2 mergeIntake s)

/-- merge_fire (R171). -/
def mergeFire (a n : Nat) (s : State) : State :=
  let w := s.word .SEQ_STEER a n
  let u := s.steer a n
  let now := s.cycles
  match u.toks with
  | [] => s
  | (t, mark) :: _ =>
    if u.fireAt = some now then s
    else if mark then
      (s.modSteer a n (fun u => { u with toks := u.toks.drop 1, ipos := u.ipos - 1, fireAt := some now })).noteFlag
        F.SEQ_STEER_STAT_BADSEL a n
    else
      match u.data with
      | [] => s
      | e :: _ =>
        let q := steerOut w 0
        let left := if u.left = 0 then tokCount t else u.left
        if s.steerGrant a q = some n then (s.steerPush a n q e (u.left == 0) (tokCount t)).steerMoved a n left else s

/-- MERGE_FIRE (R171). -/
def execMergeFire (p : At) (unit : BitVec 3) (s : State) : Host.Outcome State Fault Refusal :=
  .next (steerCmd p unit 2 mergeFire s)

end Sys2Proof.Machine
end

