-- ==== Sys2Proof/Machine/Traverse.lean ====
section
/-! DEFINITION. The Traverse (R206 to R237, R349 to R351, R372 to R376): arriving flits and their replay, entries, records and
credits of connections, trees, rings, and dynamic connections. -/

namespace Sys2Proof.Machine

/-! ### Arriving flits (R350, R372) -/

/-- Local slot on which a word that arrived from direction `d` in slot n leaves (R215): a word from the E or S neighbour
arrived in slot n - 4 of its sender's link. -/
def leaveSlot (d : Dir) (n : Nat) : Nat :=
  match d with
  | .n => n
  | .w => n
  | .e => (n + 4) % 16
  | .s => (n + 4) % 16

/-- Whether slot m of output k is held for an open dynamic connection whose words come from direction `d` there: its COMMIT is still
on the way (R225). -/
def State.heldFor (s : State) (a : Nat) (d k : Dir) (m : Nat) : Bool :=
  s.slotSrc a k m == 6 && s.sites.any (fun x => x.2.queues.any (fun y =>
    s.role x.1 y.1 == 3 && y.2.slots.any (fun z =>
      let path := routeXY x.1 (s.farSite x.1 y.1)
      (List.append (circuitSlots path z.1 13) (circuitSlots (reverseRoute path) z.2 13)).contains (a, k.num, m, 9 + d.num))))

/-- The outputs that a data word arriving from direction `d` in local slot n leaves on: forks copy it (R215). -/
def State.outputsOf (s : State) (a : Nat) (d : Dir) (n : Nat) : List Dir :=
  let m := leaveSlot d n
  if m ≥ 14 then []
  else allDirs.filter (fun k => s.slotSrc a k m == d.num + 1 || s.slotSrc a k m == d.num + 9 || s.heldFor a d k m)

/-- A data flit forwarded. -/
def State.forward (s : State) (a : Nat) (d : Dir) (f : Flit) : State :=
  if f.slot.toNat < 14 then
    (s.outputsOf a d f.slot.toNat).foldl (fun s k =>
      s.sendOn a k { f with slot := BitVec.ofNat 4 (leaveSlot d f.slot.toNat) }) s
  else s

/-- FLIT_ARRIVAL (R350, R372): `d` is the neighbour the flit comes from. A bad flit is neither forwarded nor delivered and
starts the link's retry; while a resend is awaited every other flit is discarded. What a delivered flit does is the
effect of the commands for entries, records, credits and messages. -/
def flitArrival (a : Nat) (d : Dir) (f : Flit) (s : State) : State :=
  match neighbour a d with
  | none => s
  | some b =>
    let k := d.opp
    let l := s.link b k.num
    let x := f.hdr.lseq.toNat
    if s.linkState b k = 3 then s
    else if !f.crcOk || !f.kindOk then
      let s := s.count C.TRV_CNT_CRC a
      let now := s.cycles
      match l.waiting with
      | none => s.modLink b k.num (fun l => { l with waiting := some x, failedAt := now, resent := none, fails := 0 })
      | some w =>
        if l.resent = some w ∧ x = w then
          s.modLink b k.num (fun l => { l with failedAt := now, resent := none, fails := l.fails + 1 })
        else s
    else match l.waiting with
      | none => s.forward a d f
      | some w =>
        if x = w ∧ l.resent = some w then
          (s.modLink b k.num (fun l => { l with waiting := none, resent := none, fails := 0 })).forward a d f
        else s
def execFlitArrival (site : SiteId) (d : Dir) (f : Flit) (s : State) : Host.Outcome State Fault Refusal :=
  .next (flitArrival site.toNat d f s)

/-- Whether a link word is a valid NAK: even parity, and NAK set (R372). -/
def nakValid (w : Byte) : Bool := ones w.toNat % 2 == 0 && w.getLsbD 7

/-- The core cycle in which the flit of an LSEQ was sent: a NAK comes 3 c later (Example 14-1) where the flit is not in the replay
buffer, which empty flits do not enter. -/
def LinkX.sentAt (l : LinkX) (x now : Nat) : Nat :=
  ((l.replay.find? (fun y => y.flit.hdr.lseq.toNat == x)).map TimedFlit.at_).getD (now - 3)

/-- LINK_NAK (R372, R373): `d` is the sender's outgoing link. The first valid NAK of a flit starts a replay, unless that
would raise D above 16 frames (R375): the flit and those after it are sent again 32 c after they were sent, and from then on the
hold line takes every flit. -/
def linkNak (a : Nat) (d : Dir) (w : Byte) (s : State) : State :=
  let x := w.toNat / 2 % 64
  let l := s.link a d.num
  let now := s.cycles
  let since := if l.waiting = some x then l.failedAt else now
  if !nakValid w || s.linkState a d == 3 || l.resent == some x then s
  else if s.linkDelay a d + 2 > 16 then s.modLink a d.num (fun l => { l with waiting := some x, failedAt := since })
  else
    let s := s.drain a d
    let t := (s.link a d.num).sentAt x now
    let s := (s.count C.TRV_CNT_RETRY a).setDelay a d (s.linkDelay a d + 2)
    s.modLink a d.num (fun l =>
      let r := List.append l.replays [now]
      { l with waiting := some x, failedAt := since, resent := some x, replays := r.drop (r.length - 8), heldFrom := t + 32,
               replay := l.replay.map (fun y => if t ≤ y.at_ then { y with at_ := y.at_ + 32 } else y) })
def execLinkNak (site : SiteId) (d : Dir) (w : Byte) (s : State) : Host.Outcome State Fault Refusal :=
  .next (linkNak site.toNat d w s)

/-- HOLD_LINE_DROP (R374): the whole frame at the head of the hold line, of flits that reached it 16 × D cycles ago and in the 15
after, is empty, and D falls. -/
def holdLineDrop (a : Nat) (d : Dir) (s : State) : State :=
  let s := s.drain a d
  let l := s.link a d.num
  let h := s.cycles - 16 * s.linkDelay a d
  if s.linkDelay a d > 0 ∧ s.localSlot a s.cycles = 0 ∧ l.heldFrom ≤ h ∧
      l.hold.all (fun x => decide (h + 16 ≤ x.at_) || x.flit.hdr.kind == 0) then
    (s.modLink a d.num (fun l => { l with hold := l.hold.filter (fun x => decide (h + 16 ≤ x.at_)) })).setDelay a d (s.linkDelay a d - 1)
  else s
def execHoldLineDrop (site : SiteId) (d : Dir) (s : State) : Host.Outcome State Fault Refusal :=
  .next (holdLineDrop site.toNat d s)

/-- Whether a condition of R375 holds of a link. -/
def State.deathDue (s : State) (a : Nat) (d : Dir) (c : LinkCause) : Bool :=
  let l := s.link a d.num
  match c with
  | .resendMissing => l.waiting.isSome && decide (l.failedAt + 40 ≤ s.cycles)
  | .fourFailures => decide (l.fails ≥ 4)
  | .delayExceeded => l.waiting.isSome && l.resent.isNone && decide (s.linkDelay a d + 2 > 16)

/-- How far a section's region has moved from its home, in rows and columns (R220, R294). -/
def State.moveOf (s : State) (e : Nat) (x : SectX) : Int × Int :=
  (Int.ofNat (s.rd F.HUT_SECT_ORG_ROW 0 e) - Int.ofNat x.img.homeR,
   Int.ofNat (s.rd F.HUT_SECT_ORG_COL 0 e) - Int.ofNat x.img.homeC)

/-- Whether a section has a circuit over a link in either direction: a configured one, or that of an open dynamic
connection (R375, R376). -/
def State.usesLink (s : State) (e : Nat) (x : SectX) (a : Nat) (d : Dir) : Bool :=
  let (dy, dx) := s.moveOf e x
  let mv := 16 * dy + dx
  let both (l : List (Nat × Dir)) : Bool :=
    l.contains (a, d) || (match neighbour a d with
      | some b => l.contains (b, d.opp)
      | none => false)
  let conf := both ((x.img.conns.map (fun c =>
    (c.route.foldl (fun (acc : List (Nat × Dir) × Nat) k =>
      (List.append acc.1 [(acc.2, k)], (neighbour acc.2 k).getD acc.2)) ([], ((Int.ofNat (c.send / 32)) + mv).toNat)).1)).flatten)
  let dyn := (s.sites.filter (fun y => y.2.sect == some e)).any (fun y =>
    y.2.queues.any (fun q => s.role y.1 q.1 == 3 && s.rd F.QUE_STAT_CSTATE y.1 q.1 == 2 &&
      both (routeXY y.1 (s.rd F.QUE_CFG_PEER y.1 q.1 / 32))))
  conf || dyn

/-- LINK_DEAD (R375): the link carries nothing further; the jobs with a circuit over it, or with a flit in its replay
buffer or hold line, are set to fail with LINK_LOST. -/
def linkDead (a : Nat) (d : Dir) (c : LinkCause) (s : State) : State :=
  if s.linkState a d = 3 ∨ !s.deathDue a d c then s
  else
    let s := s.drain a d
    let l := s.link a d.num
    let flits := (List.append (l.replay.filter (fun x => decide (s.cycles ≤ x.at_ + 32))) l.hold).filter (fun x => x.flit.hdr.kind != 0)
    let parts := flits.map (fun x => x.flit.hdr.part.toNat)
    let hit := s.hut.sects.filter (fun y =>
      decide (2 ≤ s.sectState y.1) && decide (s.sectState y.1 ≤ 4) &&
      (s.usesLink y.1 y.2 a d || parts.contains (y.1 / 32)))
    let reqs := hit.map (fun y => (⟨y.1 / 32, s.jobOf y.1, 0x20, 5, a, 0, 0, none⟩ : FailReq))
    let s := (s.setLink a d 3).modLink a d.num (fun l => { l with hold := [], replay := [] })
    (s.modHut (fun h => { h with fails := List.append h.fails reqs })).record 4 (4 * a + d.num) true [3]
def execLinkDead (site : SiteId) (d : Dir) (c : LinkCause) (s : State) : Host.Outcome State Fault Refusal :=
  .next (linkDead site.toNat d c s)

/-- Whether the last eight replays of a link lie within 2,500,000 c (R376). -/
def LinkX.markDue (l : LinkX) : Bool :=
  match l.replays with
  | t :: _ => l.replays.length == 8 && decide (l.replays.getLast?.getD 0 ≤ t + 2500000)
  | [] => false

/-- LINK_MARK (R376): both directions of the link are marked. -/
def linkMark (a : Nat) (d : Dir) (s : State) : State :=
  if !(s.link a d.num).markDue || s.linkState a d ≥ 1 then s
  else
    let s := (s.setLink a d 1).modHut (fun h => { h with marks := List.append h.marks [(a, d.num)] })
    match neighbour a d with
    | some b => if s.linkState b d.opp = 0 then s.setLink b d.opp 1 else s
    | none => s
def execLinkMark (site : SiteId) (d : Dir) (s : State) : Host.Outcome State Fault Refusal :=
  .next (linkMark site.toNat d s)

/-! ### Connections (R210 to R212) -/

/-- Waiting of a send queue's head for remote credit, counted up to now (QUE_CNT_RCWAIT). -/
def State.settleRc (s : State) (a q : Nat) : State :=
  match (s.queue a q).rcHeld with
  | some t => (s.count C.QUE_CNT_RCWAIT a (s.cycles - t)).modQueue a q (fun x => { x with rcHeld := none })
  | none => s

/-- The head waits for remote credit in this cycle. -/
def State.rcWait (s : State) (a q : Nat) : State :=
  let now := s.cycles
  (s.count C.QUE_CNT_RCWAIT a (now + 1 - (s.queue a q).rcHeld.getD now)).modQueue a q (fun x => { x with rcHeld := some (now + 1) })

/-- The eight words of an entry in a flit, with their check bytes and poison bits (R349). -/
def Entry.words (e : Entry) : List FlitWord :=
  (List.range 8).map (fun i =>
    let w : Word := BitVec.ofNat 64 (e.bits.toNat >>> (64 * i))
    (⟨w, checkByte w ^^^ BitVec.ofNat 8 (e.synd.toNat / 2 ^ (8 * i)), e.poison.getLsbD i⟩ : FlitWord))

/-- What a position of a queue puts into a flit; the manual gives a signal record no layout. -/
def QItem.words : QItem → List FlitWord
  | .entry e _ => e.words
  | _ => List.replicate 8 ⟨0, 0, false⟩

/-- A flit of the ordered lane with one entry in its first half (Table 13-3); an entry that joins it takes the second. -/
def State.entryFlit (s : State) (a q : Nat) (item : QItem) : Flit :=
  ⟨⟨BitVec.ofNat 8 a, BitVec.ofNat 4 (s.partNo a), 1, BitVec.ofNat 12 (s.connId a q), 0, 0,
    BitVec.ofNat 16 (s.rd F.QUE_STAT_SEQ a q)⟩, List.append item.words (QItem.words .hole), 0, 0⟩

/-- The list with its last element changed. -/
def modLast {α : Type} (f : α → α) : List α → List α
  | [] => []
  | [x] => [f x]
  | x :: l => x :: modLast f l

/-- An entry joins the flit that its queue injects in this cycle (R210). -/
def State.joinFlit (s : State) (a q : Nat) (item : QItem) : State :=
  let d := s.outLink a q
  let put (f : TimedFlit) : TimedFlit :=
    let g : Flit := { f.flit with words := List.append (f.flit.words.take 8) item.words }
    { f with flit := { g with crc := crc32c g.string } }
  s.modLink a d.num (fun l =>
    let l := if l.hold.isEmpty then { l with replay := modLast put l.replay } else { l with hold := modLast put l.hold }
    { l with sent := l.sent.map (fun x => { x with entries := 2 }) })

/-- Whether the flit that the queue injects in this cycle has room for a second entry (R210). -/
def State.mayJoin (s : State) (a q : Nat) : Bool :=
  (s.sentNow a (s.outLink a q)).any (fun x => x.qid == qid a q && x.entries == 1)

/-- Whether a position of the ordered lane may leave in this cycle: with the queue's flit of this cycle, or in a slot that the lane
arbiter grants it (R213). Trees, rings and dynamic connections carry no stream lane. -/
def State.laneFree (s : State) (a q : Nat) : Bool :=
  s.mayJoin a q || (if s.role a q = 1 then s.laneGrant a q == some 0 else s.slotOpen a q)

/-- The outputs beside its own link on which a tree forks at its first router: those that inject the slot and are no other queue's
(R215). -/
def State.forks (s : State) (a q : Nat) : List Dir :=
  let n := s.localSlot a s.cycles
  if s.role a q ≠ 7 then []
  else allDirs.filter (fun k => k != s.outLink a q && s.slotSrc a k n == 5 &&
    (List.range 32).all (fun r => isRecvRole (s.role a r) || s.role a r == 0 ||
      s.outLink a r != k || s.rd F.QUE_CFG_OSLOTS a r / 2 ^ n % 2 == 0))

/-- One position of the ordered lane sent: in the queue's flit of this cycle, or in a flit of its own, copied where a tree forks. -/
def State.sendItem (s : State) (a q : Nat) (item : QItem) : State :=
  if s.mayJoin a q then s.joinFlit a q item
  else
    let f := s.entryFlit a q item
    let n := BitVec.ofNat 4 (s.localSlot a s.cycles)
    let s := if s.role a q = 1 then s.take (.lanes a q) 0 0 else s
    let s := (s.forks a q).foldl (fun s k => s.sendOn a k { f with slot := n }) s
    s.inject a q f 1

/-- The head position leaves a sending queue for each of its receivers, with the next sequence number. -/
def State.departTo (s : State) (a q : Nat) (item : QItem) (dsts : List Nat) : State :=
  let sq := s.rd F.QUE_STAT_SEQ a q
  let s := s.sendItem a q item
  let s : State := { s with flight := List.append s.flight (dsts.map (fun d => ⟨qid a q, d, sq, item⟩)) }
  let s := s.wr F.QUE_STAT_SEQ a q ((sq + 1) % 65536)
  s.modQueue a q (fun x => { x with items := x.items.drop 1 })

/-! ### Trees (R221 to R223) -/

/-- Leaves of the tree a SEND_MCAST queue feeds: table index and leaf identifier of each attached one (Table 07-13). -/
def State.leaves (s : State) (a q : Nat) : List (Nat × Nat) :=
  let m := s.rd F.QUE_PAR_MIDX a q
  ((List.range 16).filter (fun k => s.rd F.QUE_MLEAF_ATT a (16 * m + k) == 1)).map
    (fun k => (16 * m + k, s.rd F.QUE_MLEAF_LEAF a (16 * m + k)))

/-- Outstanding entries of a leaf. -/
def State.outst (s : State) (a i : Nat) : Nat := s.rd F.QUE_MLEAF_OUTST a i

/-- The leaves that lag when the head is ready to depart (R222). -/
def State.lagging (s : State) (a q : Nat) : List (Nat × Nat) :=
  let d := s.rd F.QUE_PAR_DETACH a q
  let l := s.leaves a q
  if d = 0 then []
  else l.filter (fun r => decide (s.outst a r.1 ≥ 64) && l.any (fun o => o.1 != r.1 && decide (s.outst a o.1 + d ≤ 64)))

/-- One leaf detached: a GAP marker follows the last entry it received (R222). -/
def State.detach (s : State) (a q : Nat) (r : Nat × Nat) : State :=
  let la := r.2 / 32
  let lq := r.2 % 32
  let sq := s.rd F.QUE_STAT_SEQ a q
  let coming := (s.flight.filter (fun f => f.src == qid a q && f.dst == r.2 && f.item.isEntry)).length
  let s := (s.wr F.QUE_MLEAF_ATT a r.1 0).count C.QUE_CNT_DETACH a
  let s := s.wr F.QUE_STAT_CSTATE la lq 4
  s.modQueue la lq (fun x => { x with gap := some ((x.items.filter QItem.isEntry).length + coming, sq) })

/-- Departure of a tree's head: an entry once every attached leaf has room (R221, R222); a record goes to every attached
leaf. -/
def departMcast (a q : Nat) (item : QItem) (s : State) : State :=
  let s := if item.isEntry then (s.lagging a q).foldl (fun s r => s.detach a q r) s else s
  let l := s.leaves a q
  if item.isEntry && l.any (fun r => decide (s.outst a r.1 ≥ 64)) then s.rcWait a q
  else if !s.laneFree a q then s
  else
    let s := s.settleRc a q
    let s := if item.isEntry then l.foldl (fun s r => s.wr F.QUE_MLEAF_OUTST a r.1 (s.outst a r.1 + 1)) s else s
    s.departTo a q item (l.map Prod.snd)

/-! ### Rings (R229, R230) -/

/-- A ring's length in records (R229): a sender's and a receiver's are the same. -/
def State.ringLen (s : State) (a q : Nat) : Nat := 2 ^ s.rd F.QUE_PAR_RLOG2 a q

/-- The header record of Table 07-7: KIND 1 MSG, 2 PAD. -/
def ringHeader (src seq len kind : Nat) (poison : Bool) : Entry :=
  ⟨BitVec.ofNat 512 ((if poison then 2 ^ 49 else 0) + src % 8192 * 2 ^ 36 + seq % 65536 * 2 ^ 20 +
    len % 65536 * 16 + kind % 16), 0, 0⟩

/-- ring_place (R229) for the message at the head: it waits for credit, then takes its place behind a pad if need be. The length of
the pad comes with it. -/
def ringPlace (a q : Nat) (s : State) : Nat × State :=
  let x := s.queue a q
  match x.msgs with
  | [] => (0, s)
  | len :: rest =>
    let rlen := s.ringLen a q
    let m := len + 1
    let e := rlen - x.wp % rlen
    let pad := if m > e then e else 0
    let rc := s.rd F.QUE_STAT_RCRED a q
    if rc < pad + m then (0, s.rcWait a q)
    else
      let s := (s.settleRc a q).wr F.QUE_STAT_RCRED a q (rc - (pad + m))
      (pad, s.modQueue a q (fun x => { x with msgs := rest, placing := some (x.wp + pad, len, 0, false), wp := x.wp + pad + m }))

/-- The sender's next ring sequence number used (Table 07-7). -/
def State.nextSeq (s : State) (a q : Nat) : State := s.wr F.QUE_STAT_SEQ a q ((s.rd F.QUE_STAT_SEQ a q + 1) % 65536)

/-- A ring record on its way to position `pos`, of kind k. -/
def State.ringPut (s : State) (a q pos : Nat) (e : Entry) (k : Nat) : State :=
  (s.sendItem a q (.entry e 0)).modQueue a q (fun x => { x with ringOut := List.append x.ringOut [(pos, e, k)] })

/-- The pad record that a message is placed behind leaves in a flit of its own (R229). -/
def ringPad (a q pad : Nat) (s : State) : State :=
  match (s.queue a q).placing with
  | some (base, _, _, _) =>
    let rlen := s.ringLen a q
    let h := ringHeader (qid a q) (s.rd F.QUE_STAT_SEQ a q) pad 2 false
    ((s.ringPut a q ((base - pad) % rlen) h 2).nextSeq a q).count C.QUE_CNT_PAD a
  | none => s

/-- One payload record of the message in its place leaves; the header, whose POISON covers the whole payload, goes with
the last, in the second half of its flit (R229, Table 07-7). -/
def ringSend (a q : Nat) (e : Entry) (s : State) : State :=
  match (s.queue a q).placing with
  | none => s
  | some (base, len, k, p) =>
    let rlen := s.ringLen a q
    let p := p || e.poisoned
    if k + 1 = len ∧ s.mayJoin a q then s
    else
      let s := (s.ringPut a q ((base + 1 + k) % rlen) e 0).modQueue a q (fun x =>
        { x with items := x.items.drop 1, placing := some (base, len, k + 1, p) })
      if k + 1 = len then
        let h := ringHeader (qid a q) (s.rd F.QUE_STAT_SEQ a q) len 1 p
        ((s.ringPut a q (base % rlen) h 1).nextSeq a q).modQueue a q (fun x => { x with placing := none })
      else s

/-- Departure of a ring's head entry: the message is placed first, and its pad leaves before it. -/
def departRing (a q : Nat) (e : Entry) (s : State) : State :=
  if !s.laneFree a q then s
  else if (s.queue a q).placing.isNone then
    let (pad, s) := ringPlace a q s
    if pad = 0 then ringSend a q e s else ringPad a q pad s
  else ringSend a q e s

/-- A signal record of a ring leaves behind the records placed before it (R211). -/
def departRingSig (a q : Nat) (item : QItem) (s : State) : State :=
  (s.departTo a q item [s.rd F.QUE_CFG_PEER a q]).modQueue a q (fun x =>
    { x with ringOut := List.append x.ringOut [(0, Entry.zero, 3)] })

/-- ENTRY_DEPART (R210 to R213, R221, R222, R229): the head position of a sending queue departs, an entry only with remote
credit, in a slot of the connection that the lane arbiter grants it; a second departure of the cycle joins its flit. -/
def entryDepart (a q : Nat) (s : State) : State :=
  let r := s.role a q
  let peer := s.rd F.QUE_CFG_PEER a q
  match (s.queue a q).items with
  | .sig c n :: _ =>
    if !s.running a then s
    else if r = 1 ∨ (r = 3 ∧ s.rd F.QUE_STAT_CSTATE a q = 2) then
      if s.laneFree a q then s.departTo a q (.sig c n) [peer] else s
    else if r = 5 then if s.laneFree a q then departRingSig a q (.sig c n) s else s
    else if r = 7 then departMcast a q (.sig c n) s
    else s
  | .entry e t :: _ =>
    if s.cycles ≤ t || !s.running a then s
    else if r = 1 ∨ (r = 3 ∧ s.rd F.QUE_STAT_CSTATE a q = 2) then
      let rc := s.rd F.QUE_STAT_RCRED a q
      if rc = 0 then s.rcWait a q
      else if !s.laneFree a q then s
      else ((s.settleRc a q).wr F.QUE_STAT_RCRED a q (rc - 1)).departTo a q (.entry e t) [peer]
    else if r = 5 then departRing a q e s
    else if r = 7 then departMcast a q (.entry e t) s
    else s
  | _ => s
def execEntryDepart (p : At) (q : QueueNo) (s : State) : Host.Outcome State Fault Refusal :=
  .next (atSite p (entryDepart p.site.toNat q.toNat) s)

/-! ### Receiving (R211, R351) -/

/-- The sequence number that a receive end expects next: SEQ, but that of a leaf attached again behind its gap (R223, R351). -/
def State.nextEseq (s : State) (a q : Nat) : Nat := (s.queue a q).next.getD (s.rd F.QUE_STAT_SEQ a q)

/-- A flit of the ordered lane has passed the checks: the next one is expected. -/
def State.tookEseq (s : State) (a q n : Nat) : State :=
  if (s.queue a q).next.isSome then s.modQueue a q (fun x => { x with next := some ((n + 1) % 65536) })
  else s.wr F.QUE_STAT_SEQ a q ((n + 1) % 65536)

/-- Whether a flit passes the source checks of a queue's end (R351); an ordered-lane flit also has the next sequence
number. A ring's flits have none that Table 07-7 does not count by messages: their order is that of the records on their way. -/
def State.srcOk (s : State) (a q : Nat) (h : FlitHdr) : Bool :=
  h.src.toNat == s.farSite a q && h.conn.toNat == s.connOf a q &&
  (h.kind.toNat != 1 || s.role a q == 6 || h.eseq.toNat == s.nextEseq a q)

/-- A flit that fails the source checks is discarded, and the job is set to fail with ROUTE_FAULT (R351). -/
def State.routeFault (s : State) (a : Nat) : State := (s.count C.TRV_CNT_SRCERR a).failSite a 0x20 4

/-- What was on its way to a queue's end has arrived. -/
def State.tookFlight (s : State) (d sq : Nat) (sig : Bool) : State :=
  { s with flight := dropFirst (fun f => f.dst == d && f.seq == sq && f.item.isEntry != sig) s.flight }

/-- RECEIVE_ENTRY (R211, R215, R351): the entry, in a slot the queue lists, is written in this cycle and may be popped from the next. -/
def receiveEntry (a q : Nat) (h : FlitHdr) (e : Entry) (s : State) : State :=
  let r := s.role a q
  if (r ≠ 2 ∧ r ≠ 4) ∨ !s.arrives a q then s
  else
    let s := s.tookFlight (qid a q) h.eseq.toNat false
    if h.kind.toNat ≠ 1 ∨ !s.srcOk a q h then s.routeFault a
    else
      let now := s.cycles
      (s.tookEseq a q h.eseq.toNat).modQueue a q (fun x =>
        { x with items := List.append x.items [.entry e now], arrived := x.arrived + 1 })
def execReceiveEntry (p : At) (q : QueueNo) (h : FlitHdr) (e : Entry) (s : State) : Host.Outcome State Fault Refusal :=
  .next (atSite p (receiveEntry p.site.toNat q.toNat h e) s)

/-- A flit whose departure no command brings, a stream program's signal or a header-only return flit: it left its connection end in
one of its slots before it arrived, and is counted and kept for replay now (DESIGN CHOICE, log entry 123). -/
def State.lateFlit (s : State) (a q kind cred : Nat) : State :=
  let slot := ((List.range 14).find? (s.ownSlot a q)).getD 0
  let f := bareFlit a (s.partNo a) kind (s.connOf a q) slot
  s.sendOn a (s.outLink a q) { f with hdr := { f.hdr with cred := BitVec.ofNat 7 cred } }

/-- SIGNAL_RECORD (R191, R211, R351): of the ordered lane, or a stream program's signal on the stream lane (KIND 2). One of a ring
arrives behind the records placed before it. -/
def signalRecord (a q : Nat) (h : FlitHdr) (ctr : BitVec 5) (add : BitVec 16) (s : State) : State :=
  let r := s.role a q
  let lane := h.kind.toNat == 2
  let far := s.rd F.QUE_CFG_PEER a q
  let behind := r == 6 && !lane && !((s.queue (far / 32) (far % 32)).ringOut.head?.any (fun x => x.2.2 == 3))
  if r = 0 ∨ !s.arrives a q ∨ behind then s
  else
    let s := if lane then s.lateFlit (far / 32) (far % 32) 2 0 else s
    let s := s.tookFlight (qid a q) (if lane then 65536 else h.eseq.toNat) true
    if (h.kind.toNat ≠ 1 ∧ !lane) ∨ !s.srcOk a q h then s.routeFault a
    else
      let s := if lane then s
        else if r = 6 then s.modQueue (far / 32) (far % 32) (fun x =>
          { x with written := x.written + 1, ringOut := x.ringOut.drop 1 })
        else (s.tookEseq a q h.eseq.toNat).modQueue a q (fun x =>
          { x with arrived := x.arrived + 1 })
      s.sigAdd (qid a ctr.toNat) add.toNat
def execSignalRecord (p : At) (q : QueueNo) (h : FlitHdr) (ctr : BitVec 5) (add : BitVec 16) (s : State) :
    Host.Outcome State Fault Refusal :=
  .next (atSite p (signalRecord p.site.toNat q.toNat h ctr add) s)

/-- Whether a message's generation is not the queue's present one: it is discarded and counted (R228). -/
def State.stale (s : State) (a q conn : Nat) : Bool := conn / 32 != s.rd F.QUE_STAT_GEN a q

/-- The credits of a return flit taken from those the receive end owes: from the oldest flit under way that carries them, or, when
the return circuit has had nothing else to carry, from a header-only flit (R212). None where no such flit can be. -/
def State.takeCredits (s : State) (b r n : Nat) : Option State :=
  let x := s.queue b r
  if n = 0 then none
  else match x.credOut with
    | c :: rest => if c = n then some (s.modQueue b r (fun x => { x with credOut := rest })) else none
    | [] =>
      if n ≤ min 64 x.credRet then some ((s.modQueue b r (fun x => { x with credRet := x.credRet - n })).lateFlit b r 5 n)
      else none

/-- REMOTE_CREDIT_RETURN (R212, R228, R246): RCRED rises by the credits of a return flit, and the receive end reports what it has
written. -/
def remoteCreditReturn (a q conn n : Nat) (s : State) : State :=
  let peer := s.rd F.QUE_CFG_PEER a q
  if (s.role a q ≠ 1 ∧ s.role a q ≠ 3) ∨ !s.arrives a q then s
  else if s.stale a q conn then s.count C.TRV_CNT_STALE a
  else match s.takeCredits (peer / 32) (peer % 32) n with
    | none => s
    | some s =>
      let seen := (s.queue (peer / 32) (peer % 32)).arrived
      let s := (s.settleRc a q).wr F.QUE_STAT_RCRED a q (s.rd F.QUE_STAT_RCRED a q + n)
      s.modQueue a q (fun x => { x with written := max x.written seen })
def execRemoteCreditReturn (p : At) (q : QueueNo) (conn : BitVec 12) (n : BitVec 7) (s : State) :
    Host.Outcome State Fault Refusal :=
  .next (atSite p (remoteCreditReturn p.site.toNat q.toNat conn.toNat n.toNat) s)

/-- Positions that every attached leaf of a tree has reported written (R246). -/
def State.treeWritten (s : State) (a q : Nat) : Nat :=
  let x := s.queue a q
  match (s.leaves a q).map (fun r => (aget x.leafRep r.2).getD 0) with
  | [] => x.allocd
  | v :: l => l.foldl min v

/-- MCAST_CREDIT (R214, R221, R228, R246): the message under way tells the partition and the identifier it carries; one that no
message under way brings carries the present ones. -/
def mcastCredit (a q leaf n : Nat) (s : State) : State :=
  let m := s.rd F.QUE_PAR_MIDX a q
  let mine (c : CtlMsg) : Bool := match c with
    | .credit to_ l k _ _ => to_ == qid a q && l == leaf && k == n
    | _ => false
  let (conn, part) := match s.ctl.find? mine with
    | some (.credit _ _ _ conn part) => (conn, part)
    | _ => (s.connId a q, s.partNo a)
  let s := s.tookCtl mine
  if s.crossPart a part then s.count C.TRV_CNT_XPART a
  else if s.stale a q conn then s.count C.TRV_CNT_STALE a
  else if s.role a q ≠ 7 then s
  else match (List.range 16).find? (fun k => s.rd F.QUE_MLEAF_LEAF a (16 * m + k) == leaf &&
      (s.rd F.QUE_MLEAF_ATT a (16 * m + k) == 1 || decide (s.outst a (16 * m + k) > 0))) with
    | none => s
    | some k =>
      let i := 16 * m + k
      let seen := (s.queue (leaf / 32) (leaf % 32)).arrived
      let s := (s.settleRc a q).wr F.QUE_MLEAF_OUTST a i (s.outst a i - n)
      let s := s.modQueue a q (fun x => { x with leafRep := aput x.leafRep leaf seen })
      s.modQueue a q (fun x => { x with written := max x.written (s.treeWritten a q) })
def execMcastCredit (p : At) (q : QueueNo) (leaf : QueueId) (n : BitVec 7) (s : State) :
    Host.Outcome State Fault Refusal :=
  .next (atSite p (mcastCredit p.site.toNat q.toNat leaf.toNat n.toNat) s)

/-- GAP_MARKER (R223): every entry before the marker has been popped. -/
def gapMarker (a q : Nat) (s : State) : State :=
  match (s.queue a q).gap with
  | some (0, sq) =>
    let s := (s.wr F.QUE_STAT_GAP a q 1).wr F.QUE_STAT_SEQ a q sq
    (s.modQueue a q (fun x => { x with gap := none })).sigAdd (qid a (s.rd F.QUE_PAR_SCNT a q)) 1
  | _ => s
def execGapMarker (p : At) (q : QueueNo) (s : State) : Host.Outcome State Fault Refusal :=
  .next (atSite p (gapMarker p.site.toNat q.toNat) s)

/-- The words of a record as they are stored. -/
def Entry.raw (e : Entry) : List RawWord :=
  (List.range 8).map (fun i => ⟨BitVec.ofNat 64 (e.bits.toNat >>> (64 * i)), BitVec.ofNat 8 (e.synd.toNat / 2 ^ (8 * i)), if e.poison.getLsbD i then 3 else 0⟩)

/-- RING_RECORD_WRITE (R229, R246): the port agent of the receiving site writes the oldest record on its way to ring `q`
and acknowledges it; the last record of a message adds 1 to SCNT. -/
def ringRecordWrite (a q : Nat) (s : State) : State :=
  let peer := s.rd F.QUE_CFG_PEER a q
  let sa := peer / 32
  let sq := peer % 32
  if s.role a q ≠ 6 then s
  else match (s.queue sa sq).ringOut with
    | [] => s
    | (_, _, 3) :: _ => s
    | (pos, e, k) :: rest =>
      let x := siteMem a + 64 * (s.rd F.QUE_PAR_RBASE a q + pos)
      let s := if siteHolds a x 64 then s.putRawWords x e.raw else s
      let s := s.modQueue sa sq (fun y => { y with ringOut := rest, written := if k = 0 then y.written + 1 else y.written })
      if k = 1 then s.sigAdd (qid a (s.rd F.QUE_PAR_SCNT a q)) 1 else s
def execRingRecordWrite (p : At) (q : QueueNo) (s : State) : Host.Outcome State Fault Refusal :=
  .next (atSite p (ringRecordWrite p.site.toNat q.toNat) s)

/-! ### Dynamic connections (R224 to R228) -/

/-- Whether slot n of a link is unused by any circuit, probe or connection: codes 7, 8, 14 and 15 act as 0 (Table 07-9),
and every slot of a retired or dead link counts as used (R377). -/
def State.slotFree (s : State) (a : Nat) (d : Dir) (n : Nat) : Bool :=
  [0, 7, 8, 14, 15].contains (s.slotSrc a d n) && decide (s.linkState a d < 2)

/-- Whether a link's two end sites both belong to the region of a site's section (R214). -/
def State.inRegion (s : State) (b : Nat) (x : Nat × Dir) : Bool :=
  match s.sectOf b, neighbour x.1 x.2 with
  | some e, some c => s.sectOf x.1 == some e && s.sectOf c == some e
  | _, _ => false

/-- What a PROBE or a REPLY has come to: the candidates left, the slots held, and the router at which the candidates ran out. -/
structure Probed where
  cands : List Nat
  held : List (Nat × Nat × Nat)
  failed : Option Nat

/-- probe_forward (R224) for a connection of site b: the candidates for n0 narrow link by link, over links of its region only (R214),
and are held; `w` counts west- and north-going links. -/
def probeLinks (b : Nat) : List (Nat × Dir) → Nat → List Nat → List (Nat × Nat × Nat) → State → Probed × State
  | [], _, c, held, s => (⟨c, held, none⟩, s)
  | (a, d) :: l, w, c, held, s =>
    let c := c.filter (fun n => decide ((n + 4 * w) % 16 ≤ 13) && s.inRegion b (a, d) && s.slotFree a d ((n + 4 * w) % 16))
    if c.isEmpty then (⟨[], held, some a⟩, s)
    else
      let ns := c.map (fun n => (n + 4 * w) % 16)
      let s := ns.foldl (fun s n => s.setSlot a d n 6) s
      let held := List.append held (ns.map (fun n => (a, d.num, n)))
      probeLinks b l (if d == .w || d == .n then w + 1 else w) c held s

/-- Slots released to unused. -/
def State.releaseSlots (s : State) (l : List (Nat × Nat × Nat)) : State :=
  l.foldl (fun s x => s.setSlot x.1 (allDirs.getD x.2.1 .n) x.2.2 0) s

/-- A connection message sent from a site to a queue (R218); it carries the partition number of the site that sends it (R214). -/
def State.sendConn (s : State) (kind src from_ dst conn : Nat) : State :=
  s.sendCtl from_ (dst / 32) (.conn kind src (dst / 32) (dst % 32) conn (s.partNo from_))

/-- The queue that a connection message came from and the partition number it carries: those of the message on its way, else those of
PEER. -/
def State.connFrom (s : State) (kind a q conn : Nat) : Nat × Nat :=
  match s.ctl.findSome? (fun c => match c with
    | .conn k src b r n part => if k == kind && b == a && r == q && n == conn then some (src, part) else none
    | _ => none) with
  | some x => x
  | none =>
    let peer := s.rd F.QUE_CFG_PEER a q
    (peer, s.partNo (peer / 32))

/-- A connection message arrives at a site's queue: the router discards one of another partition (R214), and the site one of another
generation than that of queue `of_` (R228). None where the message is discarded. -/
def State.takeConn (s : State) (kind a q conn of_ part : Nat) : Bool × State :=
  let s := s.tookCtl (fun c => match c with
    | .conn k _ b r n _ => k == kind && b == a && r == q && n == conn
    | _ => false)
  if s.crossPart a part then (false, s.count C.TRV_CNT_XPART a)
  else if s.stale (of_ / 32) (of_ % 32) conn then (false, s.count C.TRV_CNT_STALE a)
  else (true, s)

/-- CONN_PROBE (R224, R225) of the source queue at destination queue q of the site. A refusal by the destination goes through the
holder of its queue (R218): the PROBE waits while the holder has another message. -/
def connProbe (a q conn : Nat) (s : State) : State :=
  let (src, part) := s.connFrom kProbe a q conn
  let sa := src / 32
  let sq := src % 32
  if (aget (s.sync a).connOut q).isSome then s
  else
    let (ok, s) := s.takeConn kProbe a q conn src part
    if !ok || s.rd F.QUE_STAT_CSTATE sa sq != 1 then s
    else
      let (p, s) := probeLinks sa (routeXY sa a) 0 (List.range 14) [] s
      let s := s.modQueue sa sq (fun x => { x with probe := some ⟨p.cands, [], p.held⟩ })
      match p.failed with
      | some b => s.sendConn kRefuseSlot (qid a q) b src conn
      | none =>
        let other := match (s.queue a q).bound with
          | some b => b != (src, conn)
          | none => false
        if s.role a q != 4 || other then s.connOut a q kRefusePeer src conn
        else
          let s := s.modQueue a q (fun x => { x with bound := some (src, conn) })
          ((s.wr F.QUE_STAT_GEN a q (conn / 32)).wr F.QUE_STAT_CSTATE a q 1).connOut a q kReply src conn
def execConnProbe (p : At) (q : QueueNo) (conn : BitVec 12) (s : State) : Host.Outcome State Fault Refusal :=
  .next (atSite p (connProbe p.site.toNat q.toNat conn.toNat) s)

/-- CONN_REPLY (R225) at the source queue q: the return circuit narrows on the reverse links; the connection opens with the
lowest surviving candidate in each direction, or is refused. -/
def connReply (a q conn : Nat) (s : State) : State :=
  let (src, part) := s.connFrom kReply a q conn
  let (ok, s) := s.takeConn kReply a q conn (qid a q) part
  if !ok || s.rd F.QUE_STAT_CSTATE a q != 1 then s
  else match (s.queue a q).probe with
    | none => s
    | some pr =>
      let (p, s) := probeLinks a (reverseRoute (routeXY a (src / 32))) 0 (List.range 14) pr.held s
      let s := s.modQueue a q (fun x => { x with probe := some ⟨pr.fwd, p.cands, p.held⟩ })
      match p.failed with
      | some b => s.sendConn kRefuseSlot src b (qid a q) conn
      | none =>
        let s := s.modQueue a q (fun x => { x with slots := some (pr.fwd.headD 0, p.cands.headD 0), idle := 0 })
        (s.wr F.QUE_STAT_CSTATE a q 2).connOut a q kCommit (s.rd F.QUE_CFG_PEER a q) conn
def execConnReply (p : At) (q : QueueNo) (conn : BitVec 12) (s : State) : Host.Outcome State Fault Refusal :=
  .next (atSite p (connReply p.site.toNat q.toNat conn.toNat) s)

/-- The binding of a receiving queue to a connection is dropped. -/
def State.unbind (s : State) (b src : Nat) : State :=
  match (s.queue (b / 32) (b % 32)).bound with
  | some (x, _) =>
    if x = src then
      (s.wr F.QUE_STAT_CSTATE (b / 32) (b % 32) 0).modQueue (b / 32) (b % 32) (fun y => { y with bound := none })
    else s
  | none => s

/-- CONN_REFUSE (R226) at the source: the holds are released and the queue backs off. -/
def connRefuse (a q conn : Nat) (noPeer : Bool) (s : State) : State :=
  let kind := if noPeer then kRefusePeer else kRefuseSlot
  let (ok, s) := s.takeConn kind a q conn (qid a q) (s.connFrom kind a q conn).2
  if !ok || s.rd F.QUE_STAT_CSTATE a q != 1 then s
  else
    let held := ((s.queue a q).probe.map ProbeX.held).getD []
    let s := (s.releaseSlots held).unbind (s.rd F.QUE_CFG_PEER a q) (qid a q)
    let due := s.cycles + max 1 (16 * s.rd F.QUE_PAR_BACKOFF a q)
    let s := s.modQueue a q (fun x => { x with probe := none, backoffAt := due })
    (s.wr F.QUE_STAT_CSTATE a q 3).count C.QUE_CNT_NOSLOT a
def execConnRefuse (p : At) (q : QueueNo) (conn : BitVec 12) (noPeer : Bool) (s : State) :
    Host.Outcome State Fault Refusal :=
  .next (atSite p (connRefuse p.site.toNat q.toNat conn.toNat noPeer) s)

/-- CONN_COMMIT (R225) at the destination: the chosen slots are kept as class 2 and the other holds released. -/
def connCommit (a q conn : Nat) (s : State) : State :=
  let (src, part) := s.connFrom kCommit a q conn
  let sa := src / 32
  let sq := src % 32
  let (ok, s) := s.takeConn kCommit a q conn (qid a q) part
  if !ok then s
  else match (s.queue sa sq).probe, (s.queue sa sq).slots with
    | some pr, some (f, r) =>
      let path := routeXY sa a
      let keep := List.append (circuitSlots path f 13) (circuitSlots (reverseRoute path) r 13)
      let s := s.releaseSlots pr.held
      let s := keep.foldl (fun s x => s.setSlot x.1 (allDirs.getD x.2.1 .n) x.2.2.1 x.2.2.2) s
      let s := s.modQueue sa sq (fun x => { x with probe := none })
      s.wr F.QUE_STAT_CSTATE a q 2
    | _, _ => s
def execConnCommit (p : At) (q : QueueNo) (conn : BitVec 12) (s : State) : Host.Outcome State Fault Refusal :=
  .next (atSite p (connCommit p.site.toNat q.toNat conn.toNat) s)

/-- A closed dynamic queue opens again where positions are allocated (R224, R226). -/
def State.reopen (s : State) (a q : Nat) : State := if (s.queue a q).items.isEmpty then s else s.openDyn a q

/-- Both slots of a source's connection freed, its far end unbound, and the connection closed (R227). -/
def State.closeDyn (s : State) (a q : Nat) : State :=
  let peer := s.rd F.QUE_CFG_PEER a q
  let path := routeXY a (peer / 32)
  let x := s.queue a q
  let s := match x.probe, x.slots with
    | some pr, _ => s.releaseSlots pr.held
    | none, some (f, r) =>
      s.releaseSlots ((List.append (circuitSlots path f 13) (circuitSlots (reverseRoute path) r 13)).map
        (fun (y : Nat × Nat × Nat × Nat) => (y.1, y.2.1, y.2.2.1)))
    | none, none => s
  let s := (s.unbind peer (qid a q)).modQueue a q (fun x => { x with probe := none, slots := none, idle := 0 })
  s.wr F.QUE_STAT_CSTATE a q 0

/-- CONN_CLOSE (R227) at the destination. -/
def connClose (a q conn : Nat) (s : State) : State :=
  let (src, part) := s.connFrom kClose a q conn
  let (ok, s) := s.takeConn kClose a q conn (qid a q) part
  if !ok then s
  else if s.role (src / 32) (src % 32) ≠ 3 ∨ s.rd F.QUE_STAT_CSTATE (src / 32) (src % 32) ≠ 5 then s
  else (s.closeDyn (src / 32) (src % 32)).reopen (src / 32) (src % 32)
def execConnClose (p : At) (q : QueueNo) (conn : BitVec 12) (s : State) : Host.Outcome State Fault Refusal :=
  .next (atSite p (connClose p.site.toNat q.toNat conn.toNat) s)

/-- BACKOFF_EXPIRY (R226): the clock reaches the end of the backoff, and the queue is closed or opens again. -/
def backoffExpiry (a q : Nat) (s : State) : State :=
  let due := (s.queue a q).backoffAt
  let t := s.cycle + (due - s.cycles)
  if s.role a q ≠ 3 ∨ s.rd F.QUE_STAT_CSTATE a q ≠ 3 ∨ !s.reaches t then s
  else ((s.at_ t).wr F.QUE_STAT_CSTATE a q 0).reopen a q
def execBackoffExpiry (site : SiteId) (q : QueueNo) (s : State) : Host.Outcome State Fault Refusal :=
  .next (backoffExpiry site.toNat q.toNat s)

/-- Whether a dynamic connection is idle: its send queue empty, every remote credit returned, no reservation (R227). -/
def State.dynIdle (s : State) (a q : Nat) : Bool :=
  s.role a q == 3 && s.rd F.QUE_STAT_CSTATE a q == 2 && (s.queue a q).items.isEmpty &&
  decide (s.rd F.QUE_STAT_RCRED a q ≥ 64) && s.qResv a q == 0

/-- IDLE_CLOSE (R227): after IDLE_CLOSE idle pitches a CLOSE waits for the control plane. -/
def State.idleClose (s : State) (a q : Nat) : State :=
  let n := s.rd F.QUE_PAR_IDLE_CLOSE a q
  if n ≠ 0 ∧ s.dynIdle a q ∧ (s.queue a q).idle ≥ n then (s.wr F.QUE_STAT_CSTATE a q 5).connOut a q kClose (s.rd F.QUE_CFG_PEER a q) (s.connId a q) else s
def execIdleClose (site : SiteId) (q : QueueNo) (s : State) : Host.Outcome State Fault Refusal :=
  .next (s.idleClose site.toNat q.toNat)

end Sys2Proof.Machine
end

