-- ==== Sys2Proof/Machine/Sync.lean ====
section
/-! DEFINITION. Synchronisation (R218, R238 to R259): the injection of control messages, remote adds and their
acknowledgements, fences, the Col's barriers, and shared work counters with their claim log. -/

namespace Sys2Proof.Machine

/-! ### Control injection (R218) -/

/-- The holders of a site, in the order of R218: 0 the signal table, 1 barrier arrivals, 2 the claim request, 3 connection
messages, 4 credit returns; and whether one has a message to send. -/
def SyncX.holds (y : SyncX) (k : Nat) : Bool :=
  match k with
  | 0 => !y.table.isEmpty
  | 1 => !y.offered.isEmpty
  | 2 => y.claimOut
  | 3 => !y.connOut.isEmpty
  | _ => !y.creditOut.isEmpty

/-- The holder that the round-robin arbiter grants (R218, R231). -/
def SyncX.grant (y : SyncX) : Option Nat := ((List.range 5).map (fun d => (y.ptr + d) % 5)).find? y.holds

/-- The Col corner of a site's quadrant, which is also its port (R247, "Latency"). -/
def cornerOf (a : Nat) : Nat := siteAt (if colOf a < 8 then 7 else 8) (if rowOf a < 8 then 7 else 8)
/-- Number of the port of a corner, in the order of R247. -/
def portOf (a : Nat) : Nat := (if colOf a < 8 then 0 else 1) + (if rowOf a < 8 then 0 else 2)

/-- The site that the next message of a holder goes to: a barrier arrival to the corner of its quadrant. -/
def State.holderDst (s : State) (a k : Nat) : Option Nat :=
  let y := s.sync a
  match k with
  | 0 => y.table.head?.map (fun x => x.1 / 32)
  | 1 => some (cornerOf a)
  | 2 => (s.seq a).claim.map (fun c => siteOfTarn c.tarn)
  | 3 => y.connOut.head?.map (fun x => x.2.dst / 32)
  | _ => y.creditOut.head?.map (fun x => s.rd F.QUE_CFG_PEER a x.1 / 32)

/-- The first pending add of the signal table is sent; ADD_OUT rises (R218, R242). -/
def injectAdd (a : Nat) (s : State) : State :=
  match (s.sync a).table with
  | [] => s
  | (t, n) :: rest =>
    let s := s.modSync a (fun y => { y with table := rest })
    let s := s.wr F.SEQ_SIG_STATUS_ADD_OUT a 0 (s.rd F.SEQ_SIG_STATUS_ADD_OUT a + 1)
    s.sendCtl a (t / 32) (.add t ⟨BitVec.ofNat 8 a, BitVec.ofNat 4 (s.partNo a), BitVec.ofNat 5 t, BitVec.ofNat 16 n⟩)

/-- Arrivals at a full port stay in its router's control FIFO; each port holds up to 64 (R247). -/
def State.fillPorts (s : State) : State :=
  let s := s.ctl.foldl (fun s c => match c with
    | .arrival a part b =>
      if (s.col.ports.filter (fun x => x.1 == portOf a)).length < 64 then
        { s.tookCtl (fun d => d == c) with col := { s.col with ports := List.append s.col.ports [(portOf a, a, part, b)] } }
      else s
    | _ => s) s
  if s.col.ports.isEmpty || s.col.waitAt.isSome then s else { s with col := { s.col with waitAt := some s.cycles } }

/-- A barrier arrival is sent; it goes to the port of its corner (R247). -/
def injectArrival (a : Nat) (s : State) : State :=
  match (s.sync a).offered with
  | [] => s
  | b :: rest =>
    ((s.modSync a (fun y => { y with offered := rest })).sendCtl a (cornerOf a) (.arrival a (s.partNo a) b)).fillPorts

/-- The claim request is sent (R162, R254). -/
def injectClaim (a : Nat) (s : State) : State :=
  let s := s.modSync a (fun y => { y with claimOut := false })
  match (s.seq a).claim with
  | some c => s.sendCtl a (siteOfTarn c.tarn)
      (.claim c.tarn ⟨BitVec.ofNat 8 a, BitVec.ofNat 4 (s.partNo a), BitVec.ofNat 6 c.ctr, BitVec.ofNat 16 c.inc,
        BitVec.ofNat 16 c.seq⟩)
  | none => s

/-- A connection message is sent: PROBE, COMMIT and CLOSE forward, REPLY and the destination's REFUSE back (Table 07-6). -/
def injectConn (a : Nat) (s : State) : State :=
  match (s.sync a).connOut with
  | [] => s
  | (q, m) :: rest =>
    (s.modSync a (fun y => { y with connOut := rest })).sendConn m.kind (qid a q) a m.dst m.conn

/-- The coalesced credit return of a tree's leaf is sent, with the identifier of its connection (R218, R221, R228). -/
def injectCredit (a : Nat) (s : State) : State :=
  match (s.sync a).creditOut with
  | [] => s
  | (q, n) :: rest =>
    let s := s.modSync a (fun y => { y with creditOut := rest })
    let peer := s.rd F.QUE_CFG_PEER a q
    s.sendCtl a (peer / 32) (.credit peer (qid a q) n (s.connOf a q) (s.partNo a))

/-- CONTROL_INJECT (R217, R218): the granted holder sends one message, and the arbiter's pointer moves past it. It waits while the
control FIFO of the first link takes no message of the site. -/
def controlInject (a : Nat) (s : State) : State :=
  match (s.sync a).grant with
  | none => s
  | some k =>
    if (s.holderDst a k).any (fun b => !s.ctlAdmits a b) then s
    else
      let s := s.modSync a (fun y => { y with ptr := (k + 1) % 5 })
      match k with
      | 0 => injectAdd a s
      | 1 => injectArrival a s
      | 2 => injectClaim a s
      | 3 => injectConn a s
      | _ => injectCredit a s
def execControlInject (p : At) (s : State) : Host.Outcome State Fault Refusal :=
  .next (atSite p (controlInject p.site.toNat) s)

/-! ### Adds (R242, R214) -/

/-- SIGNAL_ADD: applied and acknowledged, or discarded by the site's router and acknowledged as discarded (R214, R242). The
acknowledgement of either carries the partition number of the add, so that it reaches its sender (DEDUCED, log entry 124). -/
def signalAdd (a : Nat) (m : AddMsg) (s : State) : State :=
  let t := qid a m.ctr.toNat
  let s := s.tookCtl (fun c => match c with
    | .add u x => u == t && x == m
    | _ => false)
  let far := m.src.toNat
  if s.crossPart a m.part.toNat then (s.count C.TRV_CNT_XPART a).sendCtl a far (.ack far true m.part.toNat)
  else (s.sigAdd t m.add.toNat).sendCtl a far (.ack far false m.part.toNat)
def execSignalAdd (p : At) (m : AddMsg) (s : State) : Host.Outcome State Fault Refusal :=
  .next (atSite p (signalAdd p.site.toNat m) s)

/-- ADD_ACK: ADD_OUT falls; a discarded message sets SIG_XPART (R242). One that meets another partition is discarded (R214). -/
def addAck (a : Nat) (discarded : Bool) (s : State) : State :=
  let mine (c : CtlMsg) : Bool := match c with
    | .ack u d _ => u == a && d == discarded
    | _ => false
  let part := match s.ctl.find? mine with
    | some (.ack _ _ p) => p
    | _ => s.partNo a
  let s := s.tookCtl mine
  if s.crossPart a part && s.partOf a != none then s.count C.TRV_CNT_XPART a
  else
    let s := s.wr F.SEQ_SIG_STATUS_ADD_OUT a 0 (s.rd F.SEQ_SIG_STATUS_ADD_OUT a - 1)
    if discarded then s.noteFlag F.SEQ_SIG_STATUS_SIG_XPART a 0 else s
def execAddAck (p : At) (discarded : Bool) (s : State) : Host.Outcome State Fault Refusal :=
  .next (atSite p (addAck p.site.toNat discarded) s)

/-! ### Fences (R246) -/

/-- Whether a vector instruction writes the scratchpad. -/
def writesPad : SeqInstr → Bool
  | .vst _ => true
  | _ => false

/-- Whether a tile writes the Moraine or the scratchpad: an MFREE does not, and a skipped MMA only with FIRST (R84, R99). -/
def Tile.writes (y : Tile) : Bool := y.kind != .mfree && (y.kind != .skip || y.first)

/-- Whether every write that the site issued before core cycle t is complete (R246). -/
def State.fenceMet (s : State) (a t : Nat) (sent : List (Nat × Nat)) : Bool :=
  let x := s.site a
  (x.strs.all (fun p => p.2.copies.all (fun c => decide (t ≤ c.issued)))) &&
  (x.mtx.tiles.all (fun y => !y.writes || decide (t ≤ y.issued))) &&
  (x.vec.queue.all (fun v => !writesPad v.instr || decide (t ≤ v.issued))) &&
  (x.vec.pipe.all (fun r => !writesPad r.instr.instr || decide (t ≤ r.instr.issued))) &&
  (sent.all (fun p => decide (p.2 ≤ (s.queue a p.1).written))) &&
  x.sync.table.isEmpty && s.rd F.SEQ_SIG_STATUS_ADD_OUT a == 0

/-- Cycles in which some fenced arrival of a site waited in this pitch and which no remaining arrival covers, once the one
held since `t` goes (SEQ_CNT_FENCE counts a cycle once). -/
def State.fenceCycles (s : State) (t : Nat) (rest : List (Nat × Nat × List (Nat × Nat))) : Nat :=
  let p := s.pitchStart
  let stop := rest.foldl (fun m y => min m (max y.2.1 p)) s.cycles
  stop - max t p

/-- FENCED_ARRIVAL_OFFER (R245, R246). -/
def fencedOffer (a b : Nat) (s : State) : State :=
  match (s.sync a).fenced.find? (fun y => y.1 == b) with
  | none => s
  | some (_, t, sent) =>
    if s.fenceMet a t sent then
      let rest := dropFirst (fun (y : Nat × Nat × List (Nat × Nat)) => y.1 == b) (s.sync a).fenced
      let s := s.count C.SEQ_CNT_FENCE a (s.fenceCycles t rest)
      s.modSync a (fun y => { y with fenced := rest, offered := List.append y.offered [b] })
    else s
def execFencedArrivalOffer (p : At) (bar : BitVec 6) (s : State) : Host.Outcome State Fault Refusal :=
  .next (atSite p (fencedOffer p.site.toNat bar.toNat) s)

/-- The waiting of a site's fenced arrivals in the pitch that ends, counted at its boundary. -/
def State.settleFence (s : State) (a : Nat) : State :=
  match (s.sync a).fenced with
  | [] => s
  | l => s.count C.SEQ_CNT_FENCE a (s.cycles - l.foldl (fun m y => min m (max y.2.1 s.pitchStart)) s.cycles)

/-! ### The Col (R244, R247, R249) -/

/-- The sites of a corner's quadrant in the order of their distance from it. -/
def quadrant (c : Nat) : List Nat :=
  (List.range 15).flatMap (fun h => allSites.filter (fun a => cornerOf a == c && (routeXY a c).length == h))

/-- The release of a barrier leaves the four corners in core cycle x and forks over each quadrant, against the arrivals' way (R249). -/
def State.forkRelease (s : State) (part x : Nat) : State :=
  ([7, 8].flatMap (fun r => [siteAt 7 r, siteAt 8 r])).foldl (fun s c =>
    let f := bareFlit c part 3 0 14
    ((quadrant c).foldl (fun (acc : List (Nat × Nat × Nat) × State) a =>
      match routeXY a c with
      | (_, d) :: _ =>
        let b := (neighbour a d).getD c
        let (at_, k) := (aget acc.1 b).getD (x, 4)
        let (y, s) := acc.2.ctlHop b d.opp [] f at_ k
        ((a, (y + 2, d.num)) :: acc.1, s)
      | [] => acc) ([], s)).2) s

/-- An arrival accepted by the Col (R247). The release of a barrier whose TARGET it reaches is emitted in the next cycle. -/
def State.accept (s : State) (a part b : Nat) : State :=
  if s.rd F.COL_BAR_OWNER 0 b ≠ part ∨ s.rd F.COL_BAR_ACTIVE 0 b = 0 ∨ !s.barBit .COL_BAR_MEM b a ∨
      s.barBit .COL_BAR_ARR b a then s.count C.COL_CNT_DISCARD
  else
    let i := 4 * b + a / 64
    let s := s.setWord .COL_BAR_ARR 0 i (s.word .COL_BAR_ARR 0 i ||| (1#64 <<< (a % 64)))
    let n := s.rd F.COL_BAR_COUNT 0 b + 1
    let s := (s.wr F.COL_BAR_COUNT 0 b n).count C.COL_CNT_ARRIVE
    if n = s.rd F.COL_BAR_TARGET 0 b then
      let s := s.forkRelease part (s.cycles + 1)
      { s with col := { s.col with due := some (b, part) } }
    else s

/-- Waiting at the Col's ports counted up to now (COL_CNT_QWAIT). -/
def State.settlePorts (s : State) : State :=
  match s.col.waitAt with
  | some t => { s.count C.COL_CNT_QWAIT 0 (s.cycles - t) with col := { s.col with waitAt := some s.cycles } }
  | none => s

/-- The arrival that the Col accepts in this cycle: that of the port its round-robin arbiter grants, one a cycle (R247). -/
def State.nextArrival (s : State) : Option (Nat × Nat × Nat × Nat) :=
  if s.col.lastAt = some s.cycles then none
  else match ((List.range 4).map (fun d => (s.col.ptr + d) % 4)).find? (fun k => s.col.ports.any (fun x => x.1 == k)) with
    | some k => s.col.ports.find? (fun x => x.1 == k)
    | none => none

/-- BARRIER_ARRIVAL (R247): one arrival accepted. -/
def execBarrierArrival (s : State) : Host.Outcome State Fault Refusal :=
  .next (match s.nextArrival with
    | none => s
    | some (k, a, part, b) =>
      let s := s.settlePorts
      let rest := dropFirst (fun (x : Nat × Nat × Nat × Nat) => x.1 == k) s.col.ports
      let now := s.cycles
      let s : State := { s with col := { s.col with ports := rest, ptr := (k + 1) % 4, lastAt := some now, waitAt := none } }
      s.fillPorts.accept a part b)

/-- BARRIER_RELEASE (R249) at one site: at a site of the barrier's partition whose flag is set, REL rises by 1 and the flag
clears; every other site ignores it. -/
def barrierRelease (a b : Nat) (s : State) : State :=
  let left (c : CtlMsg) : CtlMsg := match c with
    | .release x p l => if x == b then .release x p (l.filter (fun y => y != a)) else .release x p l
    | c => c
  let empty (c : CtlMsg) : Bool := match c with
    | .release _ _ l => l.isEmpty
    | _ => false
  let s : State := { s with ctl := (s.ctl.map left).filter (fun c => !empty c) }
  let f := BitVec.ofNat 64 (s.rd F.SEQ_BARFLAG_FLAGS a)
  if f.getLsbD b && s.partOf a == some (s.rd F.COL_BAR_OWNER 0 b) then
    (s.wr F.SEQ_BARFLAG_FLAGS a 0 (f &&& ~~~(1#64 <<< b)).toNat).sigAdd (qid a (s.relOf b)) 1
  else s
def execBarrierRelease (p : At) (bar : BitVec 6) (s : State) : Host.Outcome State Fault Refusal :=
  .next (atSite p (barrierRelease p.site.toNat bar.toNat) s)

/-! ### Shared work counters (R253 to R257) -/

/-- Entries of a claim log over one range. -/
def sameRange (x y : ClogE) : Bool := x.ctr == y.ctr && x.first == y.first

/-- The REISSUE entry of lowest first value on a counter (R256). -/
def lowestReissue (ctr : Nat) (l : List ClogE) : Option ClogE :=
  (l.filter (fun e => e.ctr == ctr && e.st == .reissue)).foldl (fun m e => match m with
    | none => some e
    | some x => if e.first < x.first then some e else some x) none

/-- What serving a new request does: an answer, or none while the log is full (R255). -/
def serveClaim (ta : Nat) (m : ClaimMsg) (s : State) : Option (BitVec 32 × State) :=
  let k := m.ctr.toNat
  let mode := s.rd F.TRN_WC_CFG_MODE ta k
  let v := s.rd F.TRN_WC_VALUE ta k
  let log := (s.site ta).tarn.clog
  let setLog (s : State) (l : List ClogE) : State :=
    s.modSite ta (fun x => { x with tarn := { x.tarn with clog := l } })
  let advance (s : State) : State :=
    let n := v + m.inc.toNat
    let s := s.wr F.TRN_WC_VALUE ta k (n % 2 ^ 32)
    if n ≥ 2 ^ 32 then s.noteFlag F.TRN_WC_CFG_WRAP ta k else s
  match mode with
  | 1 =>
    if log.length ≥ 512 then none
    else match lowestReissue k log with
      | some e =>
        let back := log.map (fun x => if x == e then { x with st := .claimed } else x)
        let mine : ClogE := ⟨k, e.first, e.inc, m.src.toNat, m.seq.toNat, .claimed⟩
        some (BitVec.ofNat 32 e.first, (setLog s (List.append back [mine])).count C.TRN_CNT_REISSUE ta)
      | none =>
        some (BitVec.ofNat 32 v, advance (setLog s (List.append log
          [⟨k, v, m.inc.toNat, m.src.toNat, m.seq.toNat, .claimed⟩])))
  | 2 =>
    let pair := s.rd F.TRN_WC_CFG_PAIR ta k
    match log.find? (fun e => e.ctr == pair && e.req == m.src.toNat && e.st == .claimed) with
    | none => some (0xFFFF#32, s.count C.TRN_CNT_DUPCOMMIT ta)
    | some e =>
      let rest := dropFirst (fun x => x == e) log
      let twins := rest.filter (sameRange e)
      let answer := BitVec.ofNat 32 (e.first % 65536)
      let freeDone (l : List ClogE) : List ClogE :=
        if (l.filter (sameRange e)).all (fun x => x.st == .committed) then l.filter (fun x => !sameRange e x) else l
      if twins.any (fun x => x.st == .committed) then
        some (answer, (setLog s (freeDone rest)).count C.TRN_CNT_DUPCOMMIT ta)
      else
        some (answer, setLog s (freeDone (log.map (fun x => if x == e then { x with st := .committed } else x))))
  | _ => some (BitVec.ofNat 32 v, advance s)

/-- The state with the claim service of a Tarn changed. -/
def State.modTarn (s : State) (ta : Nat) (f : TarnX → TarnX) : State := s.modSite ta (fun x => { x with tarn := f x.tarn })

/-- Waiting of claims for a log entry, counted up to now (TRN_CNT_LOGWAIT). -/
def State.settleLog (s : State) (ta : Nat) : State :=
  match (s.site ta).tarn.logWait with
  | some t => (s.count C.TRN_CNT_LOGWAIT ta (s.cycles - t)).modTarn ta (fun x => { x with logWait := some s.cycles })
  | none => s

/-- A request that finds the claim log full waits at the Tarn (R255). -/
def State.holdClaim (s : State) (ta : Nat) (m : ClaimMsg) : State :=
  let now := s.cycles
  s.modTarn ta (fun x =>
    { x with waiting := if x.waiting.contains m then x.waiting else List.append x.waiting [m], logWait := x.logWait.orElse (fun _ => some now) })

/-- A request no longer waits. -/
def State.dropClaim (s : State) (ta : Nat) (m : ClaimMsg) : State :=
  if (s.site ta).tarn.waiting.contains m then
    (s.settleLog ta).modTarn ta (fun x =>
      let l := x.waiting.erase m
      { x with waiting := l, logWait := if l.isEmpty then none else x.logWait })
  else s

/-- What a Tarn's claim service asks of port 6, which it shares with the threads' own-SRAM copies (Table 06-6). -/
def claimAsk (ta : Nat) : Ask := ⟨.tarnPort ta 6, 1, 1⟩

/-- CLAIM_REQUEST (R253 to R257) at a Tarn, which serves one a cycle; a request that waits for a log entry is one it has taken over
from the control plane. -/
def serveRequest (ta : Nat) (m : ClaimMsg) (s : State) : State :=
  let src := m.src.toNat
  let took (s : State) : State := s.tookCtl (fun c => match c with
    | .claim t x => t == tarnNo ta && x == m
    | _ => false)
  let reply (s : State) (v : BitVec 32) : State :=
    let s := (s.modTarn ta (fun x => { x with servedAt := some s.cycles })).count C.TRN_CNT_CLAIM ta
    s.sendCtl ta src (.reply src m.seq.toNat v m.part.toNat)
  if !isTarn ta then s
  else if s.crossPart ta m.part.toNat then (took s).count C.TRV_CNT_XPART ta
  else if (s.site ta).tarn.servedAt = some s.cycles then s
  else
    let (ok, s) := s.askAll [claimAsk ta]
    if !ok then s
    else match (aget (s.site ta).tarn.reqs src).filter (fun r => r.1 == m.seq.toNat) with
      | some (_, v) => reply (((took s).dropClaim ta m).count C.TRN_CNT_RETRY ta) v
      | none =>
        match serveClaim ta m s with
        | none => (took s).holdClaim ta m
        | some (v, s) =>
          reply (((took s).dropClaim ta m).modTarn ta (fun x => { x with reqs := aput x.reqs src (m.seq.toNat, v) })) v
def execClaimRequest (p : At) (m : ClaimMsg) (s : State) : Host.Outcome State Fault Refusal :=
  .next (atSite p (serveRequest p.site.toNat m) s)

/-- CLAIM_REPLY (R162): the value waits for the CLAIM, which issues with it; a poisoned value is a commit point (R347). One of another
partition is discarded by the router (R214), and one that arrives after quiescence by the site (R332). -/
def claimReply (a : Nat) (sq : BitVec 16) (v : BitVec 32) (poison : Bool) (s : State) : State :=
  let mine (c : CtlMsg) : Bool := match c with
    | .reply b n w _ => b == a && n == sq.toNat && w == v
    | _ => false
  let part := match s.ctl.find? mine with
    | some (.reply _ _ _ p) => p
    | _ => s.partNo a
  let s := s.tookCtl mine
  let saving := ((s.sectOf a).bind s.sectX?).any (fun x => x.phase == .saving)
  if s.crossPart a part then s.count C.TRV_CNT_XPART a
  else if saving then s
  else match (s.seq a).claim with
    | some c =>
      if c.seq = sq.toNat ∧ c.reply = none then
        let s := s.modSeq a (fun q => { q with claim := some { c with reply := some v, poisoned := poison } })
        if poison then s.poisonSite a 3 0 else s
      else s
    | none => s
def execClaimReply (p : At) (seq : BitVec 16) (value : BitVec 32) (poison : Bool) (s : State) :
    Host.Outcome State Fault Refusal :=
  .next (atSite p (claimReply p.site.toNat seq value poison) s)

/-- CLAIM_RETRY (R254): after RETRY boundaries without a reply the request is sent again with its sequence. -/
def State.claimRetry (s : State) (a : Nat) : State :=
  let n := s.rd F.SEQ_CLAIM_RETRY a
  match (s.seq a).claim with
  | some c =>
    if n ≠ 0 ∧ c.reply = none ∧ c.boundaries ≥ n then
      (s.modSeq a (fun q => { q with claim := some { c with boundaries := 0 } })).modSync a (fun y => { y with claimOut := true })
    else s
  | none => s
def execClaimRetry (site : SiteId) (s : State) : Host.Outcome State Fault Refusal := .next (s.claimRetry site.toNat)

end Sys2Proof.Machine
end

