-- ==== Sys2Proof/Machine/Loader.lean ====
section
/-! DEFINITION. The loader (R283 to R297, R484): the checks of Table 10-5 in their order, the binding of halves and group
slots, and the translation of an image to an origin. -/

namespace Sys2Proof.Machine

/-! ### Reading an image -/

/-- The site record of a home site index. -/
def SectionImage.rec? (g : SectionImage) (a : Nat) : Option SiteRec := g.sites.find? (fun r => r.site == a)

/-- Whether a home site index lies in the image's rectangle. -/
def SectionImage.inRect (g : SectionImage) (a : Nat) : Bool :=
  decide (g.homeC ≤ colOf a) && decide (colOf a < g.homeC + g.w) &&
  decide (g.homeR ≤ rowOf a) && decide (rowOf a < g.homeR + g.h)

/-- Every home site of the rectangle. -/
def SectionImage.rect (g : SectionImage) : List Nat := allSites.filter g.inRect

/-- Group slots: the Tarn columns of the region from the left (R292), as home columns. -/
def SectionImage.slotCols (g : SectionImage) : List Nat :=
  ((List.range g.w).map (· + g.homeC)).filter tarnCol

/-- Memory group of a Tarn column (R25): couloir k serves group k. -/
def groupOfCol (c : Nat) : Nat := [1, 5, 10, 14].findIdx (· = c)

/-- The register of a site's block at an offset (Tables 18-2, 18-3). -/
def siteRegAt (a off : Nat) : Option (RegName × Nat) :=
  RegName.all.findSome? (fun r =>
    let p := r.place
    let kindOk := p.kind == 0 || (p.kind == 1 && !isTarn a) || (p.kind == 2 && isTarn a)
    if p.block.isNone && kindOk && decide (p.offset + 8 * p.first ≤ off) &&
        decide (off < p.offset + 8 * (p.first + p.count)) && off % 8 == 0 then some (r, (off - p.offset) / 8) else none)

/-- A register-image word written into a site: fields that are RO, and reserved bits, keep their values (R410), and a value that a
write does not give a field leaves it (R198). -/
def State.imageWrite (s : State) (a off : Nat) (w : Word) : State :=
  match siteRegAt a off with
  | none => s
  | some (r, i) => (r.fields.filter (fun f => f.acc == .rw && s.fieldTakes f a i (fieldGet f w))).foldl (fun s f =>
      s.wr f a i (fieldGet f w)) s

/-- The state in which every site of an image, at its home, holds its initial register values: what the checks read. -/
def SectionImage.regState (g : SectionImage) : State :=
  g.sites.foldl (fun s r => r.regs.foldl (fun s x => s.imageWrite r.site x.1 x.2) s) State.reset

/-- The sequencer instruction at an address. -/
def SiteRec.instr (r : SiteRec) (pc : Nat) : Option SeqInstr := decodeSeq (r.seq.getD pc 0)

/-- The addresses and instructions of a program. -/
def SiteRec.prog (r : SiteRec) : List (Nat × SeqInstr) :=
  (List.range r.plen).filterMap (fun pc => (r.instr pc).map (fun i => (pc, i)))

/-- The address-generator word at an address of a home site, prefetch programs included (R198). -/
def SectionImage.agWord (g : SectionImage) (a pc : Nat) : Word :=
  match g.prefetch.find? (fun f => f.site == a && decide (f.at_ ≤ pc) && decide (pc < f.at_ + f.words.length)) with
  | some f => f.words.getD (pc - f.at_) 0
  | none => ((g.rec? a).map (fun r => r.ag.getD pc 0)).getD 0

/-- A refused check: the site and the object at fault (Table 10-6). -/
abbrev Fail := Option (Nat × Nat)

/-- The first element at fault. -/
def firstBad {α : Type} (l : List α) (bad : α → Bool) (at_ : α → Nat × Nat) : Fail := (l.find? bad).map at_

/-! ### Step 1 (Table 10-5): format -/

/-- Whether an ASET immediate is what a record's KIND says it holds (Table 10-4): for KINDs 1 and 2 a Tarn SRAM or scratchpad
window address of a site of the region at the home origin, for KIND 3 an offset within a group slot of the image. -/
def SectionImage.immOk (g : SectionImage) (x : Reloc) (v : Nat) : Bool :=
  if x.kind = 1 then inTarn v && g.inRect (siteOfTarn (tarnOf v))
  else if x.kind = 2 then decide (padBase 0 ≤ v) && decide (v < padBase 192) && g.inRect (siteOfSpur (padSpur v))
  else x.kind == 3 && decide (x.slot < g.slotCols.length)

/-- Whether a relocation record is valid: its KIND, the instruction it names, and that what it translates lies in the region
(Table 10-4). -/
def SectionImage.relocOk (g : SectionImage) (x : Reloc) : Bool :=
  (g.rec? x.site).isSome && (
    if x.store = 1 then
      decide (x.addr < agSize x.site) &&
      (match decodeAg (g.agWord x.site x.addr) with
        | some (.aset _ imm) => g.immOk x imm.toNat
        | _ => false)
    else match (g.rec? x.site).bind (fun r => if x.addr < r.plen then r.instr x.addr else none) with
      | some (.claim o) => x.kind == 4 && x.store == 0 && g.inRect (siteOfTarn o.tarn.toNat)
      | some (.sig o) => x.kind == 5 && x.store == 0 && !o.path && g.inRect (o.target.toNat / 32)
      | _ => false)

/-- Whether a prefetch program stands where R198 has it: in store addresses 448 to 511 of a Tarn of the rectangle, one program a
thread. -/
def SectionImage.pfFormOk (g : SectionImage) (f : PfProg) : Bool :=
  isTarn f.site && g.inRect f.site && decide (f.thread < 16) && decide (448 ≤ f.at_) && decide (f.at_ + f.words.length ≤ 512) &&
  decide ((g.prefetch.filter (fun h => h.site == f.site && h.thread == f.thread)).length ≤ 1)

/-- SECTION_FORMAT. No object of Table 10-6 is at fault in it, so OBJ is 0. -/
def checkFormat (g : SectionImage) : Fail :=
  if !g.formOk || g.version ≠ 1 then some (0, 0)
  else if g.homeC > 15 || g.homeR > 15 then some (0, 0)
  else if (g.sites.map SiteRec.site).length ≠ (dedup (g.sites.map SiteRec.site)).length then some (0, 0)
  else match firstBad g.sites (fun r => !g.inRect r.site || decide (r.plen > 2048) || decide (r.seq.length > 2048) ||
      decide (r.ag.length > agSize r.site)) (fun r => (r.site, 0)) with
    | some x => some x
    | none => match firstBad g.relocs (fun x => !g.relocOk x) (fun x => (x.site, 0)) with
      | some x => some x
      | none => firstBad g.prefetch (fun f => !g.pfFormOk f) (fun f => (f.site, 0))

/-! ### Steps 2 and 3: encoding and program form -/

/-- ENCODING (R147, R186, R158): a word that spells no instruction, or sets a reserved bit. -/
def checkEncoding (g : SectionImage) : Fail :=
  let seqBad := g.sites.findSome? (fun r =>
    (List.range r.plen).findSome? (fun pc => match r.instr pc with
      | none => some (r.site, pc)
      | some (.qtry o) => if o.n.toNat > 64 || !seqWordClean (r.seq.getD pc 0) then some (r.site, pc) else none
      | some _ => if seqWordClean (r.seq.getD pc 0) then none else some (r.site, pc)))
  let agBad := g.sites.findSome? (fun r =>
    (List.range r.ag.length).findSome? (fun pc => if !agWordClean (r.ag.getD pc 0) then some (r.site, pc) else none))
  let pfBad := g.prefetch.findSome? (fun f =>
    (List.range f.words.length).findSome? (fun k =>
      if !agWordClean (f.words.getD k 0) then some (f.site, f.at_ + k) else none))
  (seqBad.or agBad).or pfBad

/-- Whether a guard can be true, and whether it can be false (R148, R149: P0 always reads 1). -/
def Guard.mayHold (g : Guard) : Bool := g.gp != 0 || !g.inv
def Guard.mayFail (g : Guard) : Bool := g.gp != 0 || g.inv

/-- The loops of a program that push a frame (R151): address and END of each LOOP with COUNT at least 1. -/
def SiteRec.loops (r : SiteRec) : List (Nat × Nat) :=
  r.prog.filterMap (fun x => match x.2 with
    | .loop o => if o.count = 0 then none else some (x.1, o.endA.toNat)
    | _ => none)

/-- Where control may go after an instruction that issues without branching: the next address, or back into a loop that
ends here (R153). -/
def SiteRec.onward (r : SiteRec) (pc : Nat) : List Nat :=
  (pc + 1) :: (r.loops.filter (fun l => l.2 == pc)).map (fun l => l.1 + 1)

/-- The addresses that may follow an address on some path. -/
def SiteRec.succs (r : SiteRec) (pc : Nat) : List Nat :=
  match r.instr pc with
  | some (.endI g) => if g.mayFail then r.onward pc else []
  | some (.br o) => List.append (if o.g.mayHold then [o.target.toNat] else []) (if o.g.mayFail then r.onward pc else [])
  | some (.loop o) =>
    List.append (if o.g.mayHold then (if o.count = 0 then [o.endA.toNat + 1] else [pc + 1]) else [])
      (if o.g.mayFail then r.onward pc else [])
  | _ => r.onward pc

/-- Everything that `succ` reaches from a list of starts, within the fuel. -/
def reach (succ : Nat → List Nat) : Nat → List Nat → List Nat → List Nat
  | 0, _, seen => seen
  | _, [], seen => seen
  | n + 1, x :: todo, seen =>
    if seen.contains x then reach succ n todo seen else reach succ n (List.append (succ x) todo) (x :: seen)

/-- The addresses that control reaches from a list of addresses within the program. -/
def SiteRec.reachFrom (r : SiteRec) (start : List Nat) : List Nat :=
  reach (fun pc => if pc < r.plen then r.succs pc else []) (16 * (r.plen + 2)) start []

/-- Whether an instruction names P0 as a destination (R149). -/
def writesP0 : SeqInstr → Bool
  | .pset o => o.pd == 0
  | .qtry o => o.pd == 0
  | .sel o => o.pd == 0
  | .strt o => o.y && o.pd == 0
  | _ => false

/-- Whether an instruction may not stand at a loop's END (R153). -/
def badEnd : Option SeqInstr → Bool
  | some (.br _) => true
  | some (.loop _) => true
  | some (.endI _) => true
  | _ => false

/-- Loops left by a branch from pc to a target: bodies that hold pc and not the target (R152). -/
def SiteRec.leaves (r : SiteRec) (pc target : Nat) : Nat :=
  (r.loops.filter (fun l => decide (l.1 < pc) && decide (pc ≤ l.2) && !(decide (l.1 < target) && decide (target ≤ l.2)))).length

/-- An ALOOP that R187 refuses: an END below its body, or one that holds ALOOP or END. -/
def SectionImage.badAloop (g : SectionImage) (a pc : Nat) : Bool :=
  match decodeAg (g.agWord a pc) with
  | some (.aloop e _) => decide (e.toNat < pc + 1) || (match decodeAg (g.agWord a e.toNat) with
      | some (.aloop _ _) => true
      | some .endA => true
      | _ => false)
  | _ => false

/-- PROGRAM_FORM. -/
def checkForm (g : SectionImage) : Fail :=
  let seqBad := g.sites.findSome? (fun r =>
    let one := r.prog.findSome? (fun x =>
      let bad := writesP0 x.2 || (match x.2 with
        | .loop o => decide (o.endA.toNat < x.1 + 1) || badEnd (r.instr o.endA.toNat)
        | .br o => o.g.mayHold && decide (o.pop.toNat < r.leaves x.1 o.target.toNat)
        | _ => false)
      if bad then some (r.site, x.1) else none)
    match one with
    | some x => some x
    | none => if r.plen = 0 then some (r.site, 0)
      else firstBad (r.reachFrom [0]) (fun pc => decide (pc < r.plen) && (r.succs pc).any (fun n => decide (n ≥ r.plen)))
        (fun pc => (r.site, pc)))
  let agBad := g.sites.findSome? (fun r =>
    (List.range r.ag.length).findSome? (fun pc => if g.badAloop r.site pc then some (r.site, pc) else none))
  let pfBad := g.prefetch.findSome? (fun f =>
    (List.range f.words.length).findSome? (fun k => if g.badAloop f.site (f.at_ + k) then some (f.site, f.at_ + k) else none))
  (seqBad.or agBad).or pfBad

/-! ### Steps 4 and 5: expert use and tile plan -/

/-- EXPERT_DENIED (R4, R161). -/
def checkExpert (g : SectionImage) (expert : Bool) : Fail :=
  if expert then none
  else
    let st := g.regState
    (g.sites.findSome? (fun r => r.prog.findSome? (fun x => match x.2 with
      | .arrive o => if o.u then some (r.site, x.1) else none
      | _ => none))).or
    (firstBad g.sites (fun r => st.word .CHK_CTRL r.site 0 != RegName.resetWord .CHK_CTRL 0 ||
      st.word .SEQ_WDOG r.site 0 != RegName.resetWord .SEQ_WDOG 0) (fun r => (r.site, 0)))

/-- Whether a tile nest obeys R285 and R287. -/
def TileNest.ok (t : TileNest) : Bool :=
  let m64 (x : Nat) : Bool := x % 64 == 0 && x != 0
  let (m, n, k) := t.tensor
  let (m1, n1, k1) := t.l1
  let (m2, n2, k2) := t.l2
  [m, n, k, m1, n1, k1, m2, n2, k2, t.k3].all m64 &&
  m % m1 == 0 && n % n1 == 0 && k % k1 == 0 && m1 % m2 == 0 && n1 % n2 == 0 && k1 % k2 == 0 && k2 % t.k3 == 0 && t.l3 == (64, 64)

/-- TILE_SHAPE (R285, R287). No object of Table 10-6 is at fault in it, so OBJ is 0. -/
def checkTiles (g : SectionImage) : Fail :=
  (firstBad g.tiles (fun t => !t.ok) (fun t => (t.site, 0))).or
  (g.sites.findSome? (fun r => r.prog.findSome? (fun x => match x.2 with
    | .mma o =>
      let l := g.tiles.filter (fun t => t.site == r.site && decide (t.lo ≤ x.1) && decide (x.1 ≤ t.hi))
      match l with
      | [t] => if t.k3 = o.K then none else some (r.site, 0)
      | _ => some (r.site, 0)
    | _ => none)))

/-! ### Steps 6 and 7: region and memory -/

/-- Kind of a column: whether it holds Tarns. -/
def legalOrigin (g : SectionImage) (c r : Nat) : Bool :=
  decide (1 ≤ g.w) && decide (g.w ≤ 16) && decide (1 ≤ g.h) && decide (g.h ≤ 16) &&
  decide (c + g.w ≤ 16) && decide (r + g.h ≤ 16) &&
  (List.range g.w).all (fun x => tarnCol (g.homeC + x) == tarnCol (c + x))

/-- A home site index moved to an origin (R220). -/
def SectionImage.moved (g : SectionImage) (c r a : Nat) : Nat :=
  siteAt (colOf a + c - g.homeC) (rowOf a + r - g.homeR)

/-- The links of a route from a home site. -/
def routeLinks (a : Nat) : List Dir → List (Nat × Dir)
  | [] => []
  | d :: l => (a, d) :: routeLinks ((neighbour a d).getD a) l

/-- Where a route ends. -/
def routeEnd (a : Nat) : List Dir → Nat
  | [] => a
  | d :: l => routeEnd ((neighbour a d).getD a) l

/-- Links of a connection in both directions, at an origin. -/
def SectionImage.connLinks (g : SectionImage) (c r : Nat) (k : ConnRec) : List (Nat × Dir) :=
  let l := (routeLinks (k.send / 32) k.route).map (fun x => (g.moved c r x.1, x.2))
  List.append l (reverseRoute l)

/-- REGION_FAULT: a used site fenced, a circuit over a retired or dead link, or a site cut off from its Col corner (R377). -/
def State.regionFault (s : State) (g : SectionImage) (c r : Nat) : Fail :=
  match firstBad g.sites (fun x => isSpur (g.moved c r x.site) && s.health (g.moved c r x.site) == 3) (fun x => (x.site, 0)) with
  | some x => some x
  | none =>
    match firstBad (g.conns.zip (List.range g.conns.length))
        (fun x => (g.connLinks c r x.1).any (fun y => decide (s.linkState y.1 y.2 ≥ 2)))
        (fun x => (x.1.send / 32, x.2)) with
    | some x => some x
    | none => firstBad g.sites (fun x =>
        let a := g.moved c r x.site
        s.deadPath (routeXY a (cornerOf a)) && s.deadPath (routeYX a (cornerOf a))) (fun x => (x.site, 0))

/-- Whether a section is live: Armed, Running, Paused or Halted (R197, R326). -/
def State.live (s : State) (e : Nat) : Bool := [2, 3, 4, 6].contains (s.sectState e)

/-- The halves of a Tarn that sections use, by a test on the section; 2 stands for both. -/
def State.halvesBy (s : State) (ta : Nat) (p : Nat → Bool) : List Nat :=
  (s.hut.sects.filter (fun x => p x.1)).flatMap (fun x => (x.2.halves.filter (fun h => h.1 == ta)).map Prod.snd)

/-- Whether a half is taken, for section `e` (R197): by a live section, or bound to another Staged section. -/
def State.halfTaken (s : State) (e ta h : Nat) : Bool :=
  (s.halvesBy ta (fun x => x != e && (s.live x || s.sectState x == 1))).any (fun y => y == h || y == 2)

/-- The half a Tarn's footprint binds to: half 0 when both qualify; 2 for both (R197). -/
def State.bindHalf (s : State) (e ta : Nat) (two : Bool) : Option Nat :=
  if two then (if s.halfTaken e ta 0 || s.halfTaken e ta 1 then none else some 2)
  else if !s.halfTaken e ta 0 then some 0
  else if !s.halfTaken e ta 1 then some 1
  else none

/-- The halves of every Tarn of an image at an origin, as (Tarn site, half). -/
def State.bindHalves (s : State) (e : Nat) (g : SectionImage) (c r : Nat) : List (Nat × Option Nat) :=
  g.tarns.map (fun t => (g.moved c r t.site, s.bindHalf e (g.moved c r t.site) t.twoHalf))

/-- Bytes a section provides for the save of one site (R325, Table 12-2, Example 12-2). -/
def SectionImage.saveSize (g : SectionImage) (a : Nat) : Nat :=
  let keep (l : List Buffer) : Nat := (l.filter (fun b => !b.reload)).foldl (fun n b => n + b.len) 0
  if isTarn a then keep (((g.tarns.find? (fun t => t.site == a)).map TarnPlan.buffers).getD []) + 131072 + 4096
  else keep (((g.rec? a).map SiteRec.buffers).getD []) + 1572864 + 1048576 + 131072 + 131072 + 4096

/-- The group slots with their numbers. -/
def SectionImage.slots (g : SectionImage) : List (Nat × Nat) := (List.range g.slotCols.length).zip g.slotCols

/-- Bytes that the external ranges of an image at an origin column reach from the base of the group slot of memory group k
(R292). -/
def SectionImage.slotNeed (g : SectionImage) (c k : Nat) : Nat :=
  let slots := g.slots.filter (fun y => groupOfCol (y.2 + c - g.homeC) == k)
  (g.ext.filter (fun x => slots.any (fun y => y.1 == x.slot))).foldl (fun n x => max n (x.off + x.len)) 0

/-- Bytes of the save area in memory group k: of the sites whose save Tarn lies in its column (R316, R325). -/
def SectionImage.saveNeed (g : SectionImage) (c k : Nat) : Nat :=
  (g.sites.filter (fun x => (colOf x.site + c - g.homeC) / 4 == k)).foldl (fun n x => n + g.saveSize x.site) 0

/-- The frames of a site record, as 128 × home site + FRAME (Table 15-4): stores as far as they are loaded, and the
register-image frames that hold a value. -/
def SiteRec.frames (r : SiteRec) : List Nat :=
  List.flatten [(List.range ((r.seq.length + 31) / 32)).map (fun f => 128 * r.site + f),
    (List.range ((r.ag.length + 31) / 32)).map (fun f => 128 * r.site + 64 + f),
    (dedup (r.regs.map (fun x => x.1 / 256))).map (fun f => 128 * r.site + 80 + f)]

/-- The frames of an image, in the order in which they are staged. -/
def SectionImage.frames (g : SectionImage) : List Nat := g.sites.flatMap SiteRec.frames

/-- Bytes of the staged frames and, beside them, of their index: 256 and 8 a frame (R412). -/
def SectionImage.frameNeed (g : SectionImage) : Nat := 264 * g.frames.length

/-- The ranges of external memory, base and length, that a section holds (R320): those of its group slots, its save areas and
its staged frames. -/
def State.sectRanges (s : State) (e : Nat) (x : SectX) : List (Nat × Nat) :=
  (List.append ((List.range 4).map (fun k => (x.groupBase.getD k 0, x.img.slotNeed (s.rd F.HUT_SECT_ORG_COL 0 e) k))) x.areas).filter
    (fun y => y.2 != 0)

/-- The lowest place of n bytes at lo or behind a range already held, at a multiple of 256, that ends by hi and meets no such
range. -/
def firstFit (lo hi n : Nat) (held : List (Nat × Nat)) : Option Nat :=
  let fits (b : Nat) : Bool := decide (lo ≤ b) && decide (b + n ≤ hi) && held.all (fun h => !overlaps b n h.1 h.2)
  ((lo :: held.map (fun h => (h.1 + h.2 + 255) / 256 * 256)).filter fits).foldl (fun (m : Option Nat) b => match m with
    | some y => some (min y b)
    | none => some b) none

/-- Base and size in bytes of a partition's grant in a group (Table 12-5). -/
def State.grantBase (s : State) (p k : Nat) : Nat := k * groupSize + s.rd F.HUT_GRANT_BASE 0 (4 * p + k) * 0x10000000
def State.grantSize (s : State) (p k : Nat) : Nat := s.rd F.HUT_GRANT_SIZE 0 (4 * p + k) * 0x10000000

/-- MEM_RANGE of one memory group: a group slot's ranges exceed the grant, or the group gives no grant (R276). -/
def State.groupBad (s : State) (p : Nat) (g : SectionImage) (c k : Nat) : Bool :=
  decide (g.slotNeed c k > s.grantSize p k) ||
  ((g.slotNeed c k != 0 || g.saveNeed c k != 0) && [1, 2, 4].contains (s.groupState k))

/-- The base that a section's ranges in a group bind to: within the grant, with room for them (R292). -/
def State.groupBase (s : State) (p : Nat) (g : SectionImage) (c k : Nat) : Nat :=
  let off := 256 * Config.slotOffset p k
  s.grantBase p k + (if off + g.slotNeed c k ≤ s.grantSize p k then off else 0)

/-- The lowest place for n bytes in a partition's grant in group k (R322); none in a group that gives no grant (R276). -/
def State.placeIn (s : State) (p k n : Nat) (held : List (Nat × Nat)) : Option Nat :=
  if [1, 2, 4].contains (s.groupState k) then none
  else firstFit (s.grantBase p k) (s.grantBase p k + s.grantSize p k) n held

/-- Where the Hut places the save areas and the staged frames of an image for entry e at an origin column (R325, R412): clear of
its own group-slot ranges and of every range that another open section of the partition holds; the areas, the frames' own one
last, and where the frames begin. `none` when there is no room. DESIGN CHOICE (log entry 93): the lowest places. -/
def State.placeAreas (s : State) (p e : Nat) (g : SectionImage) (c : Nat) : Option (List (Nat × Nat) × Nat) :=
  let others := (s.hut.sects.filter (fun x => x.1 / 32 == p && x.1 != e && decide (1 ≤ s.sectState x.1) &&
    decide (s.sectState x.1 ≤ 6))).flatMap (fun x => s.sectRanges x.1 x.2)
  let own := ((List.range 4).map (fun k => (s.groupBase p g c k, g.slotNeed c k))).filter (fun y => y.2 != 0)
  let held := List.append others own
  let saves := (List.range 4).foldl (fun (acc : Option (List (Nat × Nat))) k =>
    let n := g.saveNeed c k
    if n = 0 then acc
    else acc.bind (fun l => (s.placeIn p k n (List.append held l)).map (fun b => List.append l [(b, n)]))) (some [])
  saves.bind (fun l =>
    if g.frameNeed = 0 then some (l, 0)
    else ((List.range 4).findSome? (fun k => s.placeIn p k g.frameNeed (List.append held l))).map (fun b =>
      (List.append l [(b, g.frameNeed)], b)))

/-- Steps 6 and 7, which a move repeats (R294): code and place of the first failure. `old` is the column a section
that is staged must keep; its save areas and frames stay where they are. -/
def State.checkPlace (s : State) (p e : Nat) (g : SectionImage) (c r : Nat) (old : Option Nat) : Option (Nat × Nat × Nat × Nat) :=
  if !legalOrigin g c r || (match old with
      | some c0 => c0 != c
      | none => false) then some (6, 6, 0, 0)
  else match g.rect.find? (fun a => !s.partHolds p (g.moved c r a)) with
    | some a => some (6, 7, a, 0)
    | none => match s.regionFault g c r with
      | some (a, o) => some (6, 8, a, o)
      | none => match (s.bindHalves e g c r).find? (fun h => h.2.isNone) with
        | some h => some (7, 9, siteAt (colOf h.1 + g.homeC - c) (rowOf h.1 + g.homeR - r), 0)
        | none => if (List.range 4).any (fun k => s.groupBad p g c k) || (old.isNone && (s.placeAreas p e g c).isNone) then
            some (7, 10, 0, 0) else none

/-! ### Step 8: buffers -/

/-- The buffers of each site with their index; the room each site has. -/
def SectionImage.bufs (g : SectionImage) : List (Nat × Nat × Nat × Buffer) :=
  List.append
    (g.sites.flatMap (fun r => (r.buffers.zip (List.range r.buffers.length)).map (fun x => (r.site, padSize, x.2, x.1))))
    (g.tarns.flatMap (fun t => (t.buffers.zip (List.range t.buffers.length)).map
      (fun x => (t.site, (if t.twoHalf then 0x2000000 else 0x1000000), x.2, x.1))))

/-- Whether a range lies within one external range of its group slot. -/
def SectionImage.inExtRange (g : SectionImage) (slot off len : Nat) : Bool :=
  g.ext.any (fun x => x.slot == slot && decide (x.off ≤ off) && decide (off + len ≤ x.off + x.len))

/-- BUFFER_RANGE (R334, ring channels); a ring is no buffer of a table, so OBJ is 0 for it (Table 10-6). -/
def checkBufRange (g : SectionImage) : Fail :=
  let st := g.regState
  (firstBad g.bufs (fun b => decide (b.2.2.2.addr + b.2.2.2.len > b.2.1) ||
      (b.2.2.2.reload && !g.inExtRange b.2.2.2.srcSlot b.2.2.2.srcOff b.2.2.2.len)) (fun b => (b.1, b.2.2.1))).or
  ((firstBad (g.ext.zip (List.range g.ext.length)) (fun x => decide (x.1.slot ≥ g.slotCols.length)) (fun x => (0, x.2))).or
  (g.sites.findSome? (fun r => (List.range 32).findSome? (fun q =>
    if st.role r.site q == 6 &&
        decide (64 * (st.rd F.QUE_PAR_RBASE r.site q + st.ringLen r.site q) > (if isTarn r.site then 0x2000000 else padSize))
    then some (r.site, 0) else none))))

/-- BUFFER_ALIGN (R289); an MX scale array may begin at any byte and have any length. -/
def checkBufAlign (g : SectionImage) : Fail :=
  (firstBad g.bufs (fun b => !b.2.2.2.scale && (b.2.2.2.addr % 64 != 0 || b.2.2.2.len % 64 != 0)) (fun b => (b.1, b.2.2.1))).or
  (firstBad (g.ext.zip (List.range g.ext.length)) (fun x => !x.1.scale && x.1.off % 256 != 0) (fun x => (0, x.2)))

/-- BUFFER_OVERLAP: two buffers of one site overlap, unless the table marks that one shares the other's bytes. -/
def checkBufOverlap (g : SectionImage) : Fail :=
  firstBad g.bufs (fun b => g.bufs.any (fun d => d.1 == b.1 && decide (d.2.2.1 < b.2.2.1) &&
    overlaps b.2.2.2.addr b.2.2.2.len d.2.2.2.addr d.2.2.2.len &&
    b.2.2.2.sharesWith != some d.2.2.1 && d.2.2.2.sharesWith != some b.2.2.1)) (fun b => (b.1, b.2.2.1))

/-! ### Step 9: resources -/

/-- The register state with the descriptors of the prefetch programs (R198). -/
def SectionImage.descState (g : SectionImage) : State :=
  g.prefetch.foldl (fun s f => s.setWord .TRN_THR f.site f.thread (RegName.defined .TRN_THR f.desc)) g.regState

/-- STREAM_CONFIG (R193). No instruction is at fault, so the object is 0 (Table 10-6). -/
def checkStreams (g : SectionImage) : Fail :=
  let st := g.descState
  (g.sites.findSome? (fun r => (List.range 16).findSome? (fun n =>
    if hasProg r.site n && st.descInvalid r.site n then some (r.site, 0) else none))).or
  (firstBad g.prefetch (fun f => st.descInvalid f.site f.thread) (fun f => (f.site, 0)))

/-- Threads reserved for prefetch on a home Tarn: the initial TRN_PF_CTRL of its site record, or else what the Tarn that is
to hold it reserves now (R198). -/
def SectionImage.reserved (g : SectionImage) (now : Nat → Nat) (r : SiteRec) : Nat :=
  if r.regs.any (fun x => (siteRegAt r.site x.1).map Prod.fst == some .TRN_PF_CTRL) then g.regState.rd F.TRN_PF_CTRL_THREADS r.site
  else now r.site

/-- The threads that a home Tarn without a site record reserves: what the Tarn that is to hold it reserves now. -/
def SectionImage.reservedAt (g : SectionImage) (now : Nat → Nat) (a : Nat) : Nat :=
  match g.rec? a with
  | some r => g.reserved now r
  | none => now a

/-- Whether a prefetch program is not one that R198 permits: its thread is not reserved, it starts outside the program, or its
CLASS is not 2. With THREADS = 0 the Hut prefetches nothing, and the program is only not loaded (R200). -/
def SectionImage.pfBad (g : SectionImage) (now : Nat → Nat) (f : PfProg) : Bool :=
  let n := g.reservedAt now f.site
  n != 0 && (decide (f.thread + n < 16) || fieldGet F.TRN_THR_CLASS f.desc != 2 ||
    decide (fieldGet F.TRN_THR_START f.desc < 448) || decide (511 < fieldGet F.TRN_THR_START f.desc))

/-- PF_RESERVED (R198): a program, other than a prefetch program, in or from a reserved store address or thread; or a prefetch
program outside them. -/
def checkReserved (g : SectionImage) (now : Nat → Nat) : Fail :=
  let st := g.regState
  (g.sites.findSome? (fun r =>
    if !isTarn r.site then none
    else
      let n := g.reserved now r
      let ag := (List.range r.ag.length).find? (fun pc => decide (pc ≥ 448) && r.ag.getD pc 0 != 0)
      let strt := r.prog.find? (fun x => match x.2 with
        | .strt o => decide (o.stream.toNat + n ≥ 16)
        | _ => false)
      let desc := (List.range 16).any (fun k => (decide (k + n ≥ 16) && st.word .TRN_THR r.site k != 0) ||
        decide (st.rd F.TRN_THR_START r.site k ≥ 448))
      match ag, strt with
      | some pc, _ => some (r.site, pc)
      | none, some x => some (r.site, x.1)
      | none, none => if desc then some (r.site, 0) else none)).or
  (firstBad g.prefetch (fun f => g.pfBad now f) (fun f => (f.site, f.at_)))

/-- Consumers of a signal counter of a site other than its sequencer (R241). -/
def otherConsumers (st : State) (a c : Nat) : Nat :=
  ((List.range 16).filter (fun n => hasProg a n && st.dscCsrc a n == 3 && st.dscCidx a n == c)).length +
  ((List.range 32).filter (fun q => st.role a q == 5 && st.rd F.QUE_PAR_SCNT a q == c)).length

/-- The first address at which a site's sequencer consumes a counter: a WAIT, or an ARRIVE with W = 1. -/
def seqConsumes (g : SectionImage) (r : SiteRec) (c : Nat) : Option Nat :=
  (r.prog.find? (fun x => match x.2 with
    | .wait o => o.cnt.toNat == c
    | .arrive o => o.w && g.bars.any (fun b => b.bar == o.bar.toNat && b.rel == c)
    | _ => false)).map Prod.fst

/-- COUNTER_OWNER (R241). The object is the instruction that consumes the counter, if one does (Table 10-6). -/
def checkCounters (g : SectionImage) : Fail :=
  let st := g.descState
  g.sites.findSome? (fun r => (List.range 32).findSome? (fun c =>
    let other := otherConsumers st r.site c
    let own := seqConsumes g r c
    let isRel := g.bars.any (fun b => b.rel == c && b.members.contains r.site)
    if other + (if own.isSome then 1 else 0) > 1 ∨ (isRel ∧ other > 0) then some (r.site, own.getD 0) else none))

/-- The barriers with their indices in the barrier table. -/
def SectionImage.barIdx (g : SectionImage) : List (BarRec × Nat) := g.bars.zip (List.range g.bars.length)

/-- BARRIER_TABLE. -/
def checkBarTable (g : SectionImage) : Fail :=
  (firstBad g.barIdx (fun x => x.1.members.any (fun a => !g.inRect a) || x.1.target != x.1.members.length ||
    decide (x.1.bar > 63) || x.1.members.length != (dedup x.1.members).length || x.1.members.isEmpty) (fun x => (0, x.2))).or
  (if g.bars.any (fun b => b.bar == g.finalBar) then none else some (0, 0))

/-- BARRIER_BUSY: a number held by a section, not Done or Failed, of another partition or of another region. -/
def State.checkBarBusy (s : State) (p : Nat) (g : SectionImage) (c r : Nat) : Fail :=
  let others := s.hut.sects.filter (fun x => decide (1 ≤ s.sectState x.1) && decide (s.sectState x.1 ≤ 6) &&
    (x.1 / 32 != p || s.rd F.HUT_SECT_ORG_COL 0 x.1 != c || s.rd F.HUT_SECT_ORG_ROW 0 x.1 != r ||
     x.2.img.w != g.w || x.2.img.h != g.h))
  firstBad g.barIdx (fun b => others.any (fun x => x.2.img.bars.any (fun d => d.bar == b.1.bar))) (fun b => (0, b.2))

/-! ### Steps 10 to 13: queues and circuits -/

def pushRole (r : Nat) : Bool := r == 0 || r == 1 || r == 3 || r == 5 || r == 7
def popRole (r : Nat) : Bool := r == 0 || r == 2 || r == 4

/-- Queues that a vector instruction pops from, and the one it pushes into. -/
def imgPops (st : State) (a : Nat) (i : SeqInstr) : List Nat :=
  ((vecSrcs i).filter (fun n => vIsQueue (st.vopd a n))).map (fun n => vQueue (st.vopd a n))
def imgPush (st : State) (a : Nat) (i : SeqInstr) : Option Nat :=
  (vecDst i).bind (fun n => if vIsQueue (st.vopd a n) then some (vQueue (st.vopd a n)) else none)

/-- Queues a steering unit consumes, and those it pushes into. -/
def steerPops (st : State) (a n : Nat) : List Nat :=
  if st.steerOn a n then dedup (List.append (steerInputs (st.word .SEQ_STEER a n)) (steerTokenQ (st.word .SEQ_STEER a n))) else []
def steerPushes (st : State) (a n : Nat) : List Nat :=
  let w := st.word .SEQ_STEER a n
  if st.rd F.SEQ_STEER_MODE a n = 1 then
    ((List.range 4).filter (fun k => fieldGet F.SEQ_STEER_OEN w / 2 ^ k % 2 == 1)).map (steerOut w)
  else if st.rd F.SEQ_STEER_MODE a n = 2 then [steerOut w 0]
  else []

/-- Whether the stream program that starts at an address holds a SIGNAL with REM = 1 (R187, R207). -/
def SectionImage.hasRemSignal (g : SectionImage) (a start : Nat) : Bool :=
  let next (pc : Nat) : List Nat := if pc ≥ agSize a then [] else match decodeAg (g.agWord a pc) with
    | some .endA => []
    | some (.aloop e _) => [pc + 1, e.toNat + 1]
    | some _ => [pc + 1]
    | none => []
  (reach next 2048 [start] []).any (fun pc => decide (pc < agSize a) && (match decodeAg (g.agWord a pc) with
    | some (.signal rem _ _) => rem
    | _ => false))

/-- The index of the connection a queue is an end of; 0 where none. -/
def SectionImage.connOf (g : SectionImage) (q : Nat) : Nat :=
  ((List.range g.conns.length).find? (fun i => match g.conns[i]? with
    | some k => k.send == q || k.recv == q
    | none => false)).getD 0

/-- QUEUE_ROLE (R207, R172, R169). The object is the connection of the queue, where there is one, else 0 (Table 10-6). -/
def checkRoles (g : SectionImage) : Fail :=
  let st := g.descState
  g.sites.findSome? (fun r =>
    let a := r.site
    let prog := r.prog.findSome? (fun x =>
      let bad := (imgPops st a x.2).any (fun q => !popRole (st.role a q)) ||
        (match imgPush st a x.2 with
          | some q => !pushRole (st.role a q)
          | none => false) ||
        (match x.2 with
          | .sig o => o.path && !(pushRole (st.role a o.qn.toNat) && st.role a o.qn.toNat != 0)
          | .tpush o => !st.steerOn a o.unit.toNat || st.rd F.SEQ_STEER_TSRC a o.unit.toNat == 1
          | _ => false)
      if bad then some (a, 0) else none)
    let units := (List.range 8).findSome? (fun n =>
      if (steerPops st a n).any (fun q => !popRole (st.role a q)) || (steerPushes st a n).any (fun q => !pushRole (st.role a q))
      then some (a, 0) else none)
    let shared := (List.range 32).findSome? (fun q =>
      let v := if r.prog.any (fun x => (imgPops st a x.2).contains q) then 1 else 0
      if v + ((List.range 8).filter (fun n => (steerPops st a n).contains q)).length > 1 then some (a, g.connOf (qid a q)) else none)
    let used (n : Nat) : Bool := st.word (if isTarn a then .TRN_THR else .STR_DESC) a n != 0 || r.prog.any (fun x => match x.2 with
      | .strt o => o.stream.toNat == n
      | _ => false)
    let strs := (List.range 16).findSome? (fun n =>
      if hasProg a n && !st.qnJoined a (st.dscQn a n) && (st.dscSrem a n == 1 ||
          (used n && g.hasRemSignal a (st.rd (strFld a F.STR_DESC_START F.TRN_THR_START) a n))) then some (a, 0) else none)
    let par := r.regs.findSome? (fun x => match siteRegAt a x.1 with
      | some (.QUE_PAR, q) => if fieldGet F.QUE_PAR_DETACH x.2 > 64 ∨ fieldGet F.QUE_PAR_RLOG2 x.2 < 10 then some (a, g.connOf (qid a q)) else none
      | _ => none)
    (((prog.or units).or shared).or strs).or par)

/-- Local slots of a circuit on its successive links, from slot n0 (R205). -/
def slotsAlong : List (Nat × Dir) → Nat → List (Nat × Dir × Nat)
  | [], _ => []
  | (a, d) :: l, n => (a, d, n) :: slotsAlong l (if d == .w || d == .n then (n + 4) % 16 else n)

/-- Every link slot of a connection, with an identity that branches of one tree share. -/
def ConnRec.slotUse (k : ConnRec) : List (Nat × (Nat × Dir × Nat)) :=
  let f := routeLinks (k.send / 32) k.route
  List.append (k.fwd.flatMap (fun n => (slotsAlong f n).map (fun x => (2 * k.send, x))))
    (k.ret.flatMap (fun n => (slotsAlong (reverseRoute f) n).map (fun x => (2 * k.recv + 1, x))))

/-- The ISLOTS mask and ILINK of a circuit's receiving end. -/
def arrivalOf (l : List (Nat × Dir)) (slots : List Nat) : Option (Nat × Nat) :=
  match l.reverse with
  | [] => none
  | (_, d) :: _ =>
    let w := (l.dropLast.filter (fun x => x.2 == .w || x.2 == .n)).length
    some (d.opp.num, slots.foldl (fun m n => m + 2 ^ ((n + 4 * w) % 16)) 0)

/-- Whether a queue's inbound fields agree with a route. -/
def inboundOk (st : State) (q : Nat) (l : List (Nat × Dir)) (slots : List Nat) : Bool :=
  match arrivalOf l slots with
  | some (link, m) => slots.isEmpty || (st.rd F.QUE_CFG_ILINK (q / 32) (q % 32) == link && st.rd F.QUE_CFG_ISLOTS (q / 32) (q % 32) == m)
  | none => slots.isEmpty

/-- Whether a connection has the circuits R210 gives it: slots forward, and slots back where its sender is a SEND queue, for trees and
rings return their credits otherwise (R221, R230). -/
def ConnRec.circuits (k : ConnRec) (role : Nat) : Bool := !k.fwd.isEmpty && (role != 1 || !k.ret.isEmpty)

/-- SLOT_CONFLICT (R205, R22, R214), and a connection without a circuit that R210 gives it (DEDUCED, log entry 126). -/
def checkSlots (g : SectionImage) : Fail :=
  let st := g.regState
  let all := g.conns.flatMap ConnRec.slotUse
  firstBad (g.conns.zip (List.range g.conns.length)) (fun x =>
    let k := x.1
    let links := routeLinks (k.send / 32) k.route
    !k.circuits (st.role (k.send / 32) (k.send % 32)) || k.slotUse.any (fun u => decide (u.2.2.2 > 13)) ||
    links.any (fun y => !g.inRect y.1 || (match neighbour y.1 y.2 with
      | some b => !g.inRect b
      | none => true)) ||
    routeEnd (k.send / 32) k.route != k.recv / 32 ||
    k.slotUse.any (fun u => all.any (fun v => v.1 != u.1 && v.2 == u.2)) ||
    !inboundOk st k.recv links k.fwd || !inboundOk st k.send (reverseRoute links) k.ret)
    (fun x => (x.1.send / 32, x.2))

/-- CHANNEL_SIZING (R233). -/
def checkSizing (g : SectionImage) : Fail :=
  let st := g.regState
  firstBad (g.conns.zip (List.range g.conns.length)) (fun x =>
    let a := x.1.recv / 32
    let q := x.1.recv % 32
    decide (x.1.maxOut > 64 + (if st.role a q == 6 then st.ringLen a q else 64))) (fun x => (x.1.send / 32, x.2))

/-- UNBALANCED_JOIN (R234). -/
def checkJoins (g : SectionImage) : Fail :=
  firstBad (g.joins.zip (List.range g.joins.length)) (fun x =>
    let j := x.1
    if j.delayA ≤ j.delayB then decide (j.bufA < j.delayB - j.delayA) else decide (j.bufB < j.delayA - j.delayB))
    (fun x => (0, x.2))

/-! ### Steps 14 to 16 -/

/-- open_slots (R290). -/
def openSlots : List NestLoop → Bool → Nat → Nat
  | [], _, o => o
  | x :: l, inside, o =>
    if x.dim = 2 ∧ x.trips > 1 then openSlots l true o
    else if inside ∧ (x.dim = 0 ∨ x.dim = 1) then openSlots l inside (o * x.trips)
    else openSlots l inside o

/-- Moraine units of a nest: (O + V) × u. -/
def TileNest.units (t : TileNest) : Nat := (openSlots t.loops false 1 + t.readout) * unitsOf t.mode

/-- MORAINE_CAPACITY (R290): concurrent nests add, others take the largest. -/
def checkMoraine (g : SectionImage) : Fail :=
  firstBad g.tiles (fun t =>
    let together := match t.group with
      | some k => (g.tiles.filter (fun u => u.site == t.site && u.group == some k)).foldl (fun n u => n + u.units) 0
      | none => t.units
    decide (together > 96)) (fun t => (t.site, t.lo))

/-- PITCH_BUDGET (R93, R296) at a pitch length L. -/
def checkBudget (g : SectionImage) (len : Nat) : Fail :=
  let st := g.regState
  g.sites.findSome? (fun r => r.prog.findSome? (fun x => match x.2 with
    | .mma o =>
      let p := mmaPlan st r.site o
      if 2 * budgetOf p.fill p.run > len - 64 then some (r.site, x.1) else none
    | .mmerge o =>
      if 2 * budgetOf 16 (imageRun (modeNat o.mode.toNat)) > len - 64 then some (r.site, x.1) else none
    | _ => none))

/-- Whether an instruction names a matrix or vector descriptor, and so advances it when it issues. -/
def namesOpd (n : Nat) (i : SeqInstr) : Bool := (namedOpds i).contains n

/-- How often the instructions of a program that pass a test can issue, by the COUNTs of the loops around them; `none` when a branch
may go back. -/
def SiteRec.issues (r : SiteRec) (test : SeqInstr → Bool) : Option Nat :=
  if r.prog.any (fun x => match x.2 with
      | .br o => decide (o.target.toNat ≤ x.1)
      | _ => false) then none
  else
    let times (pc : Nat) : Nat := (r.prog.filterMap (fun y => match y.2 with
      | .loop o => if decide (y.1 < pc) && decide (pc ≤ o.endA.toNat) && o.count != 0 then some o.count.toNat else none
      | _ => none)).foldl (· * ·) 1
    some ((r.prog.filter (fun x => test x.2)).foldl (fun n x => n + times x.1) 0)

/-- The bytes that accesses at `l` (first byte and length) may cover when their descriptor advances by `adv` bytes at each issue. -/
def SiteRec.swept (r : SiteRec) (test : SeqInstr → Bool) (adv : Nat) (l : List (Nat × Nat)) : List (Nat × Nat) :=
  if adv = 0 then l
  else
    let lo := l.foldl (fun m x => min m x.1) padSize
    let hi := l.foldl (fun m x => max m (x.1 + x.2)) 0
    match r.issues test with
    | some k => [(lo, hi + (k - 1) * adv - lo)]
    | none => [(lo, padSize - lo)]

/-- The scratchpad bytes an engine instruction of a site may read, as runs within the scratchpad (R78, R79, R97, R133). -/
def SiteRec.reads (r : SiteRec) (st : State) (i : SeqInstr) : List (Nat × Nat) :=
  let a := r.site
  match i with
  | .mma o =>
    let p := mmaPlan st a o
    let side (n : Nat) (desc ops : Word) (tr : Bool) : List (Nat × Nat) :=
      let rows := (List.range (opdRows tr o.K)).map (fun k => (opdRowAt desc k, opdRowLen tr o.K (fmtWidth (opdFmt desc))))
      let scs := (List.range 64).map (fun k => (opsBase ops + k * opsPitch ops, o.K / 32))
      List.append (r.swept (namesOpd n) (64 * st.rd F.MTX_OPD_ADV a n) rows)
        (if opdMx desc then r.swept (namesOpd n) (st.rd F.MTX_OPS_SADV a n) scs else [])
    List.flatten [side o.opdA.toNat p.descA p.opsA o.ta, side o.opdB.toNat p.descB p.opsB o.tb,
      if o.bm then [(st.rd F.MTX_BMASK_ORG_BASE a, (st.rd F.MTX_BMASK_ORG_LEN a + 7) / 8)] else []]
  | .mmerge o =>
    r.swept (namesOpd o.opd.toNat) (64 * st.rd F.MTX_OPD_ADV a o.opd.toNat)
      [(imageBase st a o.opd.toNat, imageSize (modeNat o.mode.toNat))]
  | .vld o =>
    let w := st.vopd a o.opd.toNat
    let rows := (List.range (o.nm1.toNat + 1)).map (fun k => (64 * (o.sbase.toNat + k * o.spitch.toNat), 8 * fmtWidth (vFmt w)))
    if vMx w then (scaleByte o, 256) :: rows else rows
  | _ => []

/-- The scratchpad writes of every run that the programs of an image start; a run is followed for 65,536 instructions. -/
def SectionImage.padWrites (g : SectionImage) (st : State) : List PadWrite :=
  g.sites.flatMap (fun r => (List.range (if isTarn r.site then 16 else 4)).flatMap (fun n =>
    (dedup (r.prog.filterMap (fun x => match x.2 with
      | .strt o => if o.stream.toNat = n then some o.arg.toNat else none
      | _ => none))).flatMap (fun arg =>
        let run := agRun (g.agWord r.site) (agSize r.site) arg 65536 (st.dsc r.site n F.STR_DESC_START F.TRN_THR_START)
          (List.replicate 8 0) []
        let ws := (padWritesOf st r.site n run.1).1
        if run.2 then ws else ws.map PadWrite.anywhere)))

/-- Whether an address of a program can be reached with no WAIT, certain to execute, that takes from one of the counters. -/
def SiteRec.unwaited (r : SiteRec) (pc : Nat) (ctrs : List Nat) : Bool :=
  let waits (k : Nat) : Bool := match r.instr k with
    | some (.wait o) => !o.g.mayFail && o.n != 0 && ctrs.contains (qid r.site o.cnt.toNat)
    | _ => false
  (reach (fun k => if k < r.plen && !waits k then r.succs k else []) (16 * (r.plen + 2)) [0] []).contains pc

/-- Whether the release of an instruction returns the credit that a COPY took (R190): it names a descriptor of the COPY's range. -/
def creditReturned (a : Nat) (i : SeqInstr) : Option (Nat × Nat × Nat × Nat) → Bool
  | none => true
  | some (b, csrc, cidx, cnum) =>
    let l := if csrc = 1 then namedOpds i else vecNamed i
    a == b && (csrc == 1) == i.isMatrix && l.any (fun n => decide (cidx ≤ n) && decide (n ≤ cidx + cnum))

/-- OPERAND_FENCE (R164, R190; log entry 22): a read of the scratchpad that some path reaches with no WAIT matching the transfer
that writes the bytes, or whose release does not return the credits of that transfer. -/
def checkFence (g : SectionImage) : Fail :=
  let st := g.regState
  let ws := g.padWrites st
  if ws = [] then none
  else g.sites.findSome? (fun r => r.prog.findSome? (fun x =>
    let l := (r.reads st x.2).map (fun y => (padAddr r.site y.1, y.2))
    if ws.any (fun w => l.any (fun y => overlaps y.1 y.2 w.lo w.len) &&
        (r.unwaited x.1 w.ctrs || !creditReturned r.site x.2 w.credit)) then some (r.site, x.1) else none))

/-- BARRIER_ORDER (R248): from an ARRIVE with W = 0, no path meets another ARRIVE at the barrier before a WAIT on REL that takes
something from it. -/
def checkBarOrder (g : SectionImage) : Fail :=
  g.sites.findSome? (fun r =>
    let seen := r.reachFrom [0]
    r.prog.findSome? (fun x => match x.2 with
      | .arrive o =>
        if o.w || !seen.contains x.1 then none
        else
          let rel := ((g.bars.find? (fun b => b.bar == o.bar.toNat)).map BarRec.rel).getD 32
          let waits (pc : Nat) : Bool := match r.instr pc with
            | some (.wait w) => w.cnt.toNat == rel && !w.g.mayFail && w.n != 0
            | _ => false
          let after := reach (fun pc => if pc < r.plen && !waits pc then r.succs pc else []) (16 * (r.plen + 2)) (r.succs x.1) []
          let again := after.any (fun pc => match r.instr pc with
            | some (.arrive q) => q.bar == o.bar
            | _ => false)
          if again then some (r.site, x.1) else none
      | _ => none))

/-- The predicate an instruction writes. -/
def predWritten : SeqInstr → Option Nat
  | .pset o => some o.pd.toNat
  | .qtry o => some o.pd.toNat
  | .sel o => some o.pd.toNat
  | .strt o => if o.y then some o.pd.toNat else none
  | _ => none

/-- Whether an instruction is a send test of queue q: QTRY with DIR = 1, or SEL with Y = 1 (R235). -/
def sendTest (q : Nat) : SeqInstr → Bool
  | .qtry o => o.dir && o.qn.toNat == q
  | .sel o => o.y && o.mask.getLsbD q
  | _ => false

/-- One step of the analysis of R235 for queue q: a state is address × 512 + (test known true) × 256 + the predicates last
set by a test of q. -/
def sendStep (r : SiteRec) (q x : Nat) : List Nat :=
  let pc := x / 512
  let ok := x / 256 % 2
  let m := BitVec.ofNat 8 x
  let go (pc ok : Nat) (m : BitVec 8) : Nat := pc * 512 + ok * 256 + m.toNat
  if pc ≥ r.plen then []
  else match r.instr pc with
    | some (.br o) =>
      let gp := o.g.gp.toNat
      let onTrue := if m.getLsbD gp && gp != 0 then 1 else ok
      let taken := if o.g.mayHold then [go o.target.toNat (if o.g.inv then ok else onTrue) m] else []
      let fall := if o.g.mayFail then (r.onward pc).map (fun n => go n (if o.g.inv then onTrue else ok) m) else []
      List.append taken fall
    | some i =>
      let g := (i.guard?).getD ⟨false, 0⟩
      let hit : List Nat := match predWritten i with
        | some pd =>
          if sendTest q i then (r.succs pc).map (fun n => go n 0 (m ||| (1#8 <<< pd)))
          else (r.succs pc).map (fun n => go n ok (m &&& ~~~(1#8 <<< pd)))
        | none => (r.succs pc).map (fun n => go n ok m)
      if g.mayFail then List.append hit ((r.onward pc).map (fun n => go n ok m)) else hit
    | none => []

/-- SEND_OR_YIELD (R235). -/
def checkSendYield (g : SectionImage) : Fail :=
  let st := g.regState
  g.sites.findSome? (fun r => (List.range 32).findSome? (fun q =>
    if st.role r.site q != 3 then none
    else if !r.prog.any (fun x => imgPush st r.site x.2 == some q) then none
    else
      let states := reach (sendStep r q) (64 * 512 * (r.plen + 1)) [0] []
      (states.find? (fun x => x / 256 % 2 == 0 && (match r.instr (x / 512) with
        | some i => decide (x / 512 < r.plen) && imgPush st r.site i == some q
        | none => false))).map (fun x => (r.site, x / 512))))

/-! ### The checks in order (R295) -/

/-- A refusal: step, code, home site and object (Table 10-6). -/
structure Refused where
  step : Nat
  code : Nat
  site : Nat
  obj : Nat
  deriving DecidableEq, Repr

/-- The first failure among checks in order. -/
def firstRefusal : List (Nat × Nat × (Unit → Fail)) → Option Refused
  | [] => none
  | (st, code, f) :: l =>
    match f () with
    | some (a, o) => some ⟨st, code, a, o⟩
    | none => firstRefusal l

/-- Every check of Table 10-5 on an image for entry `e` of its partition at an origin. -/
def State.checkImage (s : State) (p e : Nat) (g : SectionImage) (c r : Nat) : Option Refused :=
  let expert := s.rd F.GATE_TENANT_EXPERT 0 (s.tenantOf p) == 1
  let threads := fun (a : Nat) => s.rd F.TRN_PF_CTRL_THREADS (g.moved c r a)
  match firstRefusal [(1, 1, fun _ => checkFormat g), (2, 2, fun _ => checkEncoding g), (3, 3, fun _ => checkForm g),
      (4, 4, fun _ => checkExpert g expert), (5, 5, fun _ => checkTiles g)] with
  | some x => some x
  | none => match s.checkPlace p e g c r none with
    | some (st, code, a, o) => some ⟨st, code, a, o⟩
    | none => firstRefusal [
        (8, 11, fun _ => checkBufRange g), (8, 12, fun _ => checkBufAlign g), (8, 13, fun _ => checkBufOverlap g),
        (9, 14, fun _ => checkStreams g),
        (9, 15, fun _ => checkReserved g threads),
        (9, 16, fun _ => checkCounters g), (9, 17, fun _ => checkBarTable g), (9, 18, fun _ => s.checkBarBusy p g c r),
        (10, 19, fun _ => checkRoles g), (11, 20, fun _ => checkSlots g), (12, 21, fun _ => checkSizing g),
        (13, 22, fun _ => checkJoins g), (14, 23, fun _ => checkMoraine g), (15, 24, fun _ => checkBudget g s.pitchLen),
        (16, 25, fun _ => checkFence g), (16, 26, fun _ => checkBarOrder g), (16, 27, fun _ => checkSendYield g)]

/-- The refusal record of a partition (R297). -/
def State.recordRefusal (s : State) (p job : Nat) (x : Refused) : State :=
  s.note .HUT_LOAD_REFUSAL 0 p (setFields [(F.HUT_LOAD_REFUSAL_STEP, x.step), (F.HUT_LOAD_REFUSAL_CODE, x.code),
    (F.HUT_LOAD_REFUSAL_SITE, x.site), (F.HUT_LOAD_REFUSAL_OBJ, x.obj), (F.HUT_LOAD_REFUSAL_JOB, job), (F.HUT_LOAD_REFUSAL_VALID, 1)])

/-! ### Translation (R293, Tables 10-3 and 10-4) -/

/-- The half a Tarn site is bound to, as an offset within its SRAM. -/
def halfBase (halves : List (Nat × Nat)) (ta : Nat) : Nat :=
  match halves.find? (fun h => h.1 == ta) with
  | some (_, 1) => 0x1000000
  | _ => 0

/-- A Tarn SRAM or scratchpad window address moved to an origin and to the bound halves; other addresses are kept. -/
def SectionImage.moveAddr (g : SectionImage) (c r : Nat) (halves : List (Nat × Nat)) (x : Nat) : Nat :=
  if inTarn x then
    let b := g.moved c r (siteOfTarn (tarnOf x))
    tarnBase (tarnNo b) + halfBase halves b + (x - tarnBase (tarnOf x))
  else if padBase 0 ≤ x ∧ x < padBase 192 then
    let b := g.moved c r (siteOfSpur (padSpur x))
    padBase (spurNo b) + (x - padBase (padSpur x))
  else x

/-- The instruction word at a place of the image, translated by the record that names it (Table 10-4). -/
def SectionImage.patch (g : SectionImage) (c r : Nat) (halves : List (Nat × Nat)) (bases : List Nat)
    (a store pc : Nat) (w : Word) : Word :=
  match g.relocs.find? (fun x => x.site == a && x.store == store && x.addr == pc) with
  | none => w
  | some x =>
    if store = 1 then match decodeAg w with
      | some (.aset ad imm) =>
        let v := if x.kind = 3 then bases.getD x.slot 0 + imm.toNat else g.moveAddr c r halves imm.toNat
        encodeAg (.aset ad (BitVec.ofNat 48 v))
      | _ => w
    else match decodeSeq w with
      | some (.claim o) => encodeSeq (.claim { o with tarn := BitVec.ofNat 6 (tarnNo (g.moved c r (siteOfTarn o.tarn.toNat))) })
      | some (.sig o) =>
        encodeSeq (.sig { o with target := BitVec.ofNat 13 (qid (g.moved c r (o.target.toNat / 32)) (o.target.toNat % 32)) })
      | _ => w

/-- A queue or signal counter identifier moved to an origin: it changes by 32 × (16 × dy + dx) (R220). The field holds 13 bits. -/
def SectionImage.moveQ (g : SectionImage) (c r q : Nat) : Nat :=
  (q + 32 * siteAt c r + (8192 - 32 * siteAt g.homeC g.homeR)) % 8192

/-- A register-image word translated: queue identifiers in PEER and LEAF move (R220); every other field is kept. -/
def SectionImage.moveReg (g : SectionImage) (c r a off : Nat) (w : Word) : Word :=
  match siteRegAt a off with
  | some (.QUE_CFG, _) => fieldSet F.QUE_CFG_PEER (g.moveQ c r (fieldGet F.QUE_CFG_PEER w)) w
  | some (.QUE_MLEAF, _) => fieldSet F.QUE_MLEAF_LEAF (g.moveQ c r (fieldGet F.QUE_MLEAF_LEAF w)) w
  | _ => w

/-- The word of a register image for one register of a site record. -/
def SiteRec.regWord (r : SiteRec) (off : Nat) : Word := ((r.regs.find? (fun x => x.1 == off)).map Prod.snd).getD 0

/-- The 32 words of frame FRAME of a site record, translated to an origin, to bound halves and to slot bases (R293, Table 15-4). -/
def SectionImage.frameData (g : SectionImage) (c r : Nat) (halves : List (Nat × Nat)) (bases : List Nat) (x : SiteRec) (k : Nat) :
    List Word :=
  (List.range 32).map (fun i =>
    if k < 64 then (let pc := 32 * k + i
      if pc < x.seq.length then g.patch c r halves bases x.site 0 pc (x.seq.getD pc 0) else 0)
    else if k < 80 then (let pc := 32 * (k - 64) + i
      if pc < x.ag.length then g.patch c r halves bases x.site 1 pc (x.ag.getD pc 0) else 0)
    else (let off := 256 * (k - 80) + 8 * i
      g.moveReg c r x.site off (x.regWord off)))

end Sys2Proof.Machine
end

