-- ==== Sys2Proof/Machine/Power.lean ====
section
/-! DEFINITION. Power domains (R35 to R39, R319): the core and router domains of a site, the SRAM tiers of a Tarn, and
their changes of state. Kinds are 0 core, 1 router, 2 + n tier n. States are 0 ON, 1 RETAIN, 2 OFF, 3 switching to ON. -/

namespace Sys2Proof.Machine

/-- The number of a domain's kind. -/
def DomKind.num : DomKind → Nat
  | .core => 0
  | .router => 1
  | .tier n => 2 + n.toNat

/-- The state of a domain (Table 01-12). -/
def State.dom (s : State) (kind a : Nat) : Nat :=
  if kind = 0 then s.rd (F.PWR_CORE_STATE_SITE.at 2 (a % 32)) 0 (a / 32)
  else if kind = 1 then s.rd (F.PWR_ROUTER_STATE_SITE.at 2 (a % 32)) 0 (a / 32)
  else s.rd (F.PWR_TIER_STATE_SITE.at 2 (4 * (tarnNo a % 8) + (kind - 2))) 0 (tarnNo a / 8)

/-- The state with a domain's state replaced. -/
def State.setDom (s : State) (kind a v : Nat) : State :=
  if kind = 0 then s.wr (F.PWR_CORE_STATE_SITE.at 2 (a % 32)) 0 (a / 32) v
  else if kind = 1 then s.wr (F.PWR_ROUTER_STATE_SITE.at 2 (a % 32)) 0 (a / 32) v
  else s.wr (F.PWR_TIER_STATE_SITE.at 2 (4 * (tarnNo a % 8) + (kind - 2))) 0 (tarnNo a / 8) v

/-- Size of one Tarn SRAM tier. -/
def tierSize : Nat := 0x800000

/-- Every SRAM byte of a domain written with zero, valid check bits and no poison (R319). -/
def State.zeroSram (s : State) (kind a : Nat) : State :=
  if kind = 0 then
    let s := s.modSite a (fun x => { Site.reset with sect := x.sect, links := x.links })
    if isTarn a then s else s.zeroRange (padBase (spurNo a)) (padBase (spurNo a) + 0x600000)
  else if kind = 1 then s
  else
    let b := tarnBase (tarnNo a) + (kind - 2) * tierSize
    s.zeroRange b (b + tierSize)

/-- A domain switched ON at this boundary: it completes 8,192 c later (R35), zeroed when it was OFF (R319). A router domain takes as
long (DESIGN CHOICE, log entry 97: R35 speaks of cores and tiers only). -/
def State.domOn (s : State) (kind a : Nat) : State :=
  let st := s.dom kind a
  if st = 0 ∨ st = 3 then s
  else
    let s := if st = 2 then s.zeroSram kind a else s
    let due := s.cycles + 8192
    (s.setDom kind a 3).modHut (fun h => { h with switching := List.append h.switching [(a, kind, due)] })

/-- A domain switched OFF: its contents are lost (R35). What its SRAM and registers would read while it is OFF is not stated: the old
values stand in the state until the domain is next ON, when its SRAM is zeroed (DESIGN CHOICE, log entry 98). -/
def State.domOff (s : State) (kind a : Nat) : State :=
  (s.setDom kind a 2).modHut (fun h =>
    { h with switching := h.switching.filter (fun x => !(x.1 == a && x.2.1 == kind)) })

/-- A domain in RETAIN keeps what it holds; one that was OFF holds nothing, and is zeroed (R35, log entry 24). -/
def State.domRetain (s : State) (kind a : Nat) : State :=
  let s := if s.dom kind a = 2 then s.zeroSram kind a else s
  (s.setDom kind a 1).modHut (fun h =>
    { h with switching := h.switching.filter (fun x => !(x.1 == a && x.2.1 == kind)) })

/-- Whether R37 requires a site's router domain to be ON: a partition holds a site of the row, one being created
counted, or the site is fenced. -/
def State.routerNeeded (s : State) (a : Nat) : Bool :=
  let row (r0 n : Nat) : Bool := decide (r0 ≤ rowOf a) && decide (rowOf a < r0 + n)
  (List.range 16).any (fun p => s.rd F.HUT_PART_ACTIVE 0 p == 1 && row (s.rd F.HUT_PART_ROW0 0 p) (s.rd F.HUT_PART_NROW 0 p)) ||
  s.hut.parts.any (fun x => match x with
    | .create o _ => row o.row0.toNat o.nrow.toNat
    | _ => false) ||
  (isSpur a && s.rd F.HUT_SPUR_HEALTH_STATE 0 (spurNo a) == 3)

/-- Router domains no longer required go OFF (R37). -/
def State.routersOff (s : State) (l : List Nat) : State :=
  l.foldl (fun s a => if s.routerNeeded a then s else s.domOff 1 a) s

/-- DOMAIN_POWER_UP_COMPLETE (R35). -/
def execDomainPowerUpComplete (d : DomKind) (site : SiteId) (s : State) : Host.Outcome State Fault Refusal :=
  let a := site.toNat
  let k := d.num
  .next (match s.hut.switching.find? (fun x => x.1 == a && x.2.1 == k) with
    | none => s
    | some (_, _, due) =>
      let t := s.cycle + (due - s.cycles)
      if !s.reaches t then s
      else ((s.at_ t).setDom k a 0).modHut (fun h =>
        { h with switching := h.switching.filter (fun x => !(x.1 == a && x.2.1 == k)) }))

end Sys2Proof.Machine
end

