-- ==== Sys2Proof/Machine/Sections.lean ====
section
/-! DEFINITION. Sections (R324 to R338, R34, R361, R484): re-arming a site, frames and arming values, the changes of state,
preemption, saving and restoring, halting, and the end of a job. -/

namespace Sys2Proof.Machine

/-! ### Regions and re-arming -/

/-- The origin of a section. -/
def State.origin (s : State) (e : Nat) : Nat × Nat := (s.rd F.HUT_SECT_ORG_COL 0 e, s.rd F.HUT_SECT_ORG_ROW 0 e)

/-- The sites a section holds. -/
def State.regionSites (s : State) (e : Nat) : List Nat := (s.sites.filter (fun x => x.2.sect == some e)).map Prod.fst

/-- The sites of an image's rectangle at an origin. -/
def SectionImage.region (g : SectionImage) (c r : Nat) : List Nat := g.rect.map (g.moved c r)

/-- The home site index of a site of a region at an origin. -/
def SectionImage.homeOf (g : SectionImage) (c r a : Nat) : Nat := siteAt (colOf a + g.homeC - c) (rowOf a + g.homeR - r)

/-- The sites with a site record at a section's origin. -/
def State.usedSites (s : State) (e : Nat) (g : SectionImage) : List Nat :=
  let (c, r) := s.origin e
  g.sites.map (fun x => g.moved c r x.site)

/-- Whether a prefetch is under way on a Tarn (R200). -/
def State.pfBusy (s : State) (a : Nat) : Bool := isTarn a && s.rd F.TRN_PF_STATUS_DONE a == 0

/-- The entries of Staged sections whose prefetch a Tarn carries (R198). -/
def State.pfOwners (s : State) (a : Nat) : List Nat :=
  (s.hut.sects.filter (fun x => s.sectState x.1 == 1 && x.2.pfStarted.contains a)).map Prod.fst

/-- A site re-armed: every field returns to its reset value, counters aside (R110, R113, R177, R201, R236, R258, R313), and the
link states, which are the links' own (R391); every Moraine unit becomes Free; the stores and all else the site holds beside its
SRAM are cleared. A prefetch under way on the site ends with its threads, and is to be started again (log entry 25). -/
def State.rearm (s : State) (a : Nat) : State :=
  let keep (k : RegKey) : Bool := k.a != a || k.reg.place.block.isSome || k.reg == .TRV_LINK_STATE
  let s := if s.pfBusy a then
      (s.pfOwners a).foldl (fun s e => s.modSect e (fun x => { x with pfStarted := x.pfStarted.filter (fun b => b != a) })) s
    else s
  let s : State := { s with regs := s.regs.filter (fun x => keep x.1), seedNext := s.seedNext.filter (fun x => x.1 != a),
                            flight := s.flight.filter (fun f => f.src / 32 != a && f.dst / 32 != a),
                            arbs := s.arbs.filter (fun x => x.1.site? != some a), memc := s.memc.dropSite a }
  s.modSite a (fun x => { Site.reset with links := x.links })

/-! ### Leaving a region -/

/-- Every dynamic connection of a site closed (R227). -/
def State.closeAllDyn (s : State) (a : Nat) : State :=
  (List.range 32).foldl (fun s q =>
    if s.role a q == 3 && s.rd F.QUE_STAT_CSTATE a q != 0 then s.closeDyn a q else s) s

/-- The dynamic connections of a site that its pause or save closed open again where positions are allocated (R224, R227). -/
def State.reopenDyn (s : State) (a : Nat) : State :=
  (List.range 32).foldl (fun s q => if s.role a q == 3 then s.reopen a q else s) s

/-- A section's region and barriers released: its sites hold no section, the claim logs of its Tarns are empty (R256), and their
domains follow R36 at the next boundary. -/
def State.releaseRegion (s : State) (e : Nat) : State :=
  let l := s.regionSites e
  let s := l.foldl (fun s a => s.closeAllDyn a) s
  let s := (l.filter isTarn).foldl (fun s a => s.wrs a 0 [(F.TRN_HALF_LIVE, 0), (F.TRN_HALF_BOTH, 0)]) s
  let s := ((s.sectX? e).map (fun x => x.img.bars)).getD [] |>.foldl (fun s b =>
    if !l.isEmpty && s.rd F.COL_BAR_OWNER 0 b.bar == e / 32 then s.wr F.COL_BAR_ACTIVE 0 b.bar 0 else s) s
  let s := l.foldl (fun s a => (s.settleLog a).modSite a (fun x =>
    { x with sect := none, tarn := { x.tarn with clog := [], waiting := [], logWait := none } })) s
  s.modHut (fun h => { h with hostDoms := h.hostDoms.filter (fun d => !l.contains d.2) })

/-- The prefetch of a Staged section stopped: its threads go IDLE and their Tarns' DONE reads 1 (log entry 26). -/
def State.stopPrefetch (s : State) (e : Nat) : State :=
  match s.sectX? e with
  | none => s
  | some x =>
    if s.sectState e ≠ 1 then s
    else
      let (c, r) := s.origin e
      let s := x.img.prefetch.foldl (fun s f =>
        let a := x.img.moved c r f.site
        if x.pfStarted.contains a && s.pfBusy a then
          (s.wr F.TRN_THR_STATE_STATE a f.thread 0).modStr a f.thread (fun y =>
            { y with copies := [], reqs := [], ended := false })
        else s) s
      let s := x.pfStarted.foldl (fun s a => s.wr F.TRN_PF_STATUS_DONE a 0 1) s
      s.modSect e (fun x => { x with pfStarted := [] })

/-- A RUN waiting for its section completes (Table 16-6). -/
def State.completeRun (s : State) (e cls code detail : Nat) : State :=
  match (s.sectX? e).bind SectX.runCtx with
  | some c => (s.complete c opRun cls code 0 detail).modSect e (fun x => { x with runCtx := none })
  | none => s

/-- A section ends: region, halves, saved state and staged frames are let go of. -/
def State.endSect (s : State) (e : Nat) : State :=
  let s := s.releaseRegion e
  let s := s.wrs 0 e [(F.HUT_SECT_RUNNABLE, 0), (F.HUT_SECT_BUSY, 0)]
  let n := s.hut.stamp
  let s := s.modHut (fun h => { h with stamp := n + 1 })
  s.modSect e (fun x => { x with phase := .none, halves := [], framesLeft := [], saved := [], savedBars := [],
                                 autoRun := false, autoArm := false, held := false, stamp := n })

/-- A section becomes Failed with a status class and code (R34). -/
def State.failSect (s : State) (e cls code : Nat) (detail : Nat := 0) : State :=
  let s := s.stopPrefetch e
  let s := s.setSect e 8 cls code
  (s.completeRun e cls code detail).endSect e

/-- The entries of a partition whose section is Staged, Armed, Running, Paused, Saved or Halted. -/
def State.openSects (s : State) (p : Nat) : List Nat :=
  ((List.range 32).map (· + 32 * p)).filter (fun e => decide (1 ≤ s.sectState e) && decide (s.sectState e ≤ 6))

/-- The open sections of a job. -/
def State.jobSects (s : State) (p job : Nat) : List Nat := (s.openSects p).filter (fun e => s.jobOf e == job)

/-- DIG_PEND of a partition: a scheduled digest is due or in progress (R310). -/
def State.settlePend (s : State) (p : Nat) : State :=
  let busy := s.hut.digDue.any (fun x => x.1 == p) || ((aget s.hut.digs p).map DigX.scheduled).getD false
  s.wr F.HUT_TRAIN_DIG_PEND 0 p busy.toNat

/-- A digest abandoned (R312, R348): its command completes with `code` when a host asked for it. -/
def State.abandonDigest (s : State) (p : Nat) (code : Nat := 1) : State :=
  match aget s.hut.digs p with
  | none => s
  | some d =>
    let s := s.wr F.TAL_DIG_STATE 0 p 3
    let s := (s.modHut (fun h => { h with digs := adel h.digs p })).settlePend p
    match d.ctx with
    | some c => s.complete c opDigestNow 0x20 code
    | none => s

/-- A Suspect Spur returns to the state it left, and a self-test falls due at once (Table 14-2). -/
def State.unsuspect (s : State) (a : Nat) : State :=
  let n := spurNo a
  if s.health a = 1 then
    ((s.wrs 0 n [(F.HUT_SPUR_HEALTH_STATE, if s.rd F.HUT_SPUR_HEALTH_PRIOR 0 n = 1 then 2 else 0),
                 (F.HUT_SPUR_HEALTH_PITCH, s.pitch)]).spurRecord n).modHut (fun h => { h with testNow := n :: h.testNow })
  else s

/-- A referee let go of: its site's domain follows R36 at the next boundary (R354). -/
def State.dropReferee (s : State) (a : Nat) : State :=
  let w := (s.site a).sect
  ((s.rearm a).modSite a (fun y => { y with sect := w })).unsuspect a

/-- Every referee case of a job's sections abandoned: no verdict is recorded and the Suspects leave that state (R357, R358,
Table 14-2). -/
def State.abandonRefs (s : State) (l : List Nat) : State :=
  let mine := s.hut.refs.filter (fun r => l.contains r.sect)
  let s := s.modHut (fun h => { h with refs := h.refs.filter (fun r => !l.contains r.sect) })
  mine.foldl (fun s r =>
    let s := match r.referee with
      | some a => s.dropReferee a
      | none => s
    let s := if s.rd F.HUT_REF_STATE 0 (r.sect / 32) ∈ [1, 2] then s.wr F.HUT_REF_STATE 0 (r.sect / 32) 4 else s
    s.unsuspect r.suspect) s

/-- A job fails: every open section of it becomes Failed, its digest and its referees are abandoned, and its Suspect Spurs
leave that state (R34, R312, R358, Table 14-2). -/
def State.failJob (s : State) (p job cls code : Nat) (detail : Nat := 0) : State :=
  let l := s.jobSects p job
  let sus := (l.flatMap s.regionSites).filter (fun a => isSpur a && s.health a == 1)
  let s := if ((aget s.hut.digs p).map DigX.job) == some job then s.abandonDigest p code else s
  let s := (s.modHut (fun h => { h with digDue := h.digDue.filter (fun x => x != (p, job)) })).settlePend p
  let s := s.abandonRefs l
  let s := l.foldl (fun s e => s.failSect e cls code detail) s
  sus.foldl (fun s a => s.unsuspect a) s

/-- DETAIL of a failure (Table 16-7). -/
def FailReq.detail (f : FailReq) : Nat :=
  if 0x10 ≤ f.cls ∧ f.cls ≤ 0x14 then f.site * 2 ^ 32 + (if f.cls = 0x14 then f.prog * 2 ^ 16 else 0) + f.addr else 0

/-- A Running section becomes Done (R330, R310): STEP rises for an update section, and a digest may fall due. -/
def State.doneSect (s : State) (e : Nat) : State :=
  let p := e / 32
  let up := ((s.sectX? e).map SectX.update).getD false
  let s := s.setSect e 7
  let s := if up then
      let n := (s.rd F.HUT_TRAIN_STEP 0 p + 1) % 2 ^ 32
      let s := s.wr F.HUT_TRAIN_STEP 0 p n
      let k := s.rd F.HUT_TRAIN_INTERVAL 0 p
      if k ≠ 0 ∧ n % k = 0 then
        let job := s.jobOf e
        (s.modHut (fun h => { h with digDue := List.append h.digDue [(p, job)] })).settlePend p
      else s
    else s
  (s.completeRun e 0 0 0).endSect e

/-! ### Reconfiguration (R328, R361) -/

/-- The address of frame number i of a section's staged frames, and of its entry in their index (R412). -/
def SectX.frameAddr (x : SectX) (i : Nat) : Nat := x.frameBase + 256 * i
def SectX.indexAddr (x : SectX) (i : Nat) : Nat := x.frameBase + 256 * x.img.frames.length + 8 * i

/-- The bytes of 32 words. -/
def framesBytes (l : List Word) : List Byte := l.flatMap wordBytes

/-- The index entry of a frame: its address in bytes 0 to 3, the CRC over address and data in bytes 4 to 7 (R412). -/
def indexWord (addr : Nat) (data : List Word) : Word :=
  (BitVec.ofNat 64 addr) ||| (((crc32c (List.append (leBytes addr 4) (framesBytes data))).setWidth 64) <<< 32)

/-- One staged frame and its index entry written, translated to the section's origin and bound halves (R412, R484). -/
def State.stageFrame (s : State) (e : Nat) (x : SectX) (i f : Nat) : State :=
  let (c, r) := s.origin e
  match x.img.rec? (f / 128) with
  | none => s
  | some rec =>
    let data := x.img.frameData c r x.halves x.slotBase rec (f % 128)
    let addr := x.img.moved c r rec.site + 256 * (f % 128)
    (s.extWrites .hut (x.frameAddr i) (data.map (fun w => ⟨w, 0, 0⟩))).extWrites .hut (x.indexAddr i) [⟨indexWord addr data, 0, 0⟩]

/-- The staged frames written for the section's origin and halves, unless they stand so already (R412, R484). -/
def State.stageFrames (s : State) (e : Nat) : State :=
  match s.sectX? e with
  | none => s
  | some x =>
    let at_ := (s.rd F.HUT_SECT_ORG_ROW 0 e, x.halves)
    if x.stagedAt = some at_ then s
    else
      let s := ((List.range x.img.frames.length).zip x.img.frames).foldl (fun s q => s.stageFrame e x q.1 q.2) s
      s.modSect e (fun x => { x with stagedAt := some at_ })

/-- A staged frame as the configuration controller reads it, with the index entry that the Hut reads: its translated address and
its data when the CRC fits and no word is poisoned, within the partition's grants (R322, R328). -/
def State.readStaged (s : State) (e : Nat) (x : SectX) (f : Nat) : Option (Nat × List Word) × State :=
  let i := x.img.frames.findIdx (fun k => k == f)
  let (l, s) := s.extReads .config (x.frameAddr i) 32
  let (h, s) := s.extReads .hut (x.indexAddr i) 1
  let inside := s.inGrant (e / 32) (x.frameAddr i) 256 && s.inGrant (e / 32) (x.indexAddr i) 8
  let v := (h.map RawWord.data).headD 0
  let addr := v.toNat % 2 ^ 32
  let data := l.map RawWord.data
  let ok := inside && l.all (fun w => w.poison == 0) && h.all (fun w => w.poison == 0) && indexWord addr data == v
  (if ok then some (addr, data) else none, s)

/-- The part of a store outside 32 addresses, with the new words of those addresses; a zero word is not listed. -/
def putStore (l : List (Nat × Word)) (k : Nat) (data : List Word) : List (Nat × Word) :=
  List.append (l.filter (fun y => y.1 / 32 != k))
    (((List.range 32).map (fun i => (32 * k + i, data.getD i 0))).filter (fun y => y.2 != 0))

/-- A frame written into the site that its address names (R328, R410). The register image does not undo a restore (R336). -/
def State.writeFrame (s : State) (e : Nat) (x : SectX) (addr : Nat) (data : List Word) : State :=
  let a := addr % 256
  let k := addr / 256 % 128
  if k < 64 then s.modSite a (fun y =>
    { y with prog := putStore y.prog k data, progSynd := y.progSynd.filter (fun z => z.1 / 32 != k) })
  else if k < 80 then s.modSite a (fun y =>
    { y with ag := putStore y.ag (k - 64) data, agSynd := y.agSynd.filter (fun z => z.1 / 32 != k - 64) })
  else if x.saved.isEmpty || s.sectState e != 2 then
    (List.range 32).foldl (fun s i => s.imageWrite a (256 * (k - 80) + 8 * i) (data.getD i 0)) s
  else s

/-- The tiers of a bound half (R197). -/
def halfTiers (h : Nat) : List Nat := if h = 2 then [0, 1, 2, 3] else [2 * h, 2 * h + 1]

/-- Whether a site is a Fenced Spur (Table 14-2). -/
def State.isFenced (s : State) (a : Nat) : Bool := isSpur a && s.health a == 3

/-- The domains that a section in a region needs ON: the cores, but those of Fenced Spurs, which lie unused in it and stay OFF
(R38, R382; DESIGN CHOICE, log entry 99), and the tiers of its bound halves: (kind, site). -/
def State.domains (s : State) (x : SectX) (l : List Nat) : List (Nat × Nat) :=
  List.append ((l.filter (fun a => !s.isFenced a)).map (fun a => (0, a)))
    (x.halves.flatMap (fun h => (halfTiers h.2).map (fun t => (2 + t, h.1))))

/-- Whether step 15 is to be repeated and fails at the pitch length in force (R296). -/
def State.budgetFails (s : State) (x : SectX) : Bool :=
  s.logLen != x.log2 && (checkBudget x.img s.pitchLen).isSome

/-- A reconfiguration begins at step 4: step 15 again where R296 calls for it, re-arming, domains ON, and the cycle from
which frames are written (R328). -/
def State.beginLoad (s : State) (e : Nat) (restoring : Bool) : State :=
  match s.sectX? e with
  | none => s
  | some x =>
    if s.budgetFails x then s.failSect e 0x20 11
    else
      let (c, r) := s.origin e
      let l := x.img.region c r
      let s := l.foldl (fun s a => s.rearm a) s
      let s := l.foldl (fun s a => s.modSite a (fun y => { y with sect := some e })) s
      let ds := s.domains x l
      let on := ds.all (fun d => s.dom d.1 d.2 == 0)
      let s := ds.foldl (fun s d => s.domOn d.1 d.2) s
      let at_ := s.pitchStart + (if on then 64 else 8192)
      let now := s.cycles
      let lg := s.logLen
      let s := s.wrs 0 e [(F.HUT_SECT_BUSY, 1), (F.HUT_SECT_RUNNABLE, 0)]
      s.modSect e (fun x =>
        { x with log2 := lg, phase := .powering, restoring := restoring, restored := false, framesDone := false,
                 framesLeft := x.img.frames, startAt := at_, released := restoring && x.released,
                 newRow := none, since := if restoring then now else x.since })

/-- The entry of a partition and number. -/
def sectNo (p : PartNo) (e : EntryNo) : Nat := 32 * p.toNat + e.toNat

/-- FRAME_TRANSFER_START (R328): the region's domains are ON and the cycle of the start has come. -/
def execFrameTransferStart (p : PartNo) (e : EntryNo) (s : State) : Host.Outcome State Fault Refusal :=
  let e := sectNo p e
  .next (match s.sectX? e with
    | none => s
    | some x =>
      let t := s.cycle + (x.startAt - s.cycles)
      if x.phase != .powering || !s.reaches t || !(s.domains x (s.regionSites e)).all (fun d => s.dom d.1 d.2 == 0) then s
      else (s.at_ t).modSect e (fun x => { x with phase := .loading }))

/-- A staged frame failed its CRC on both reads (R328): a Staged section becomes Failed in that cycle; Table 01-7 lets any other
leave its state only at step 3, by a failure of its job (R34, log entry 95). -/
def State.failFrames (s : State) (e : Nat) : State :=
  if s.sectState e = 1 then s.failSect e 0x20 9
  else (s.modHut (fun h => { h with fails := List.append h.fails [⟨e / 32, s.jobOf e, 0x20, 9, 0, 0, 0, none⟩] })).modSect e
    (fun x => { x with phase := .none })

/-- CONFIG_FRAME_WRITE (R328): the next staged frame is read, again when its CRC fails, and written into its site over slot 15. `crc1` and `crc2`
tell whether the first and the second read came through undisturbed. -/
def execConfigFrameWrite (p : PartNo) (e : EntryNo) (crc1 crc2 : Bool) (s : State) : Host.Outcome State Fault Refusal :=
  let e := sectNo p e
  .next (match s.sectX? e with
    | none => s
    | some x =>
      match x.framesLeft with
      | [] => s
      | f :: l =>
        if x.phase != .loading then s
        else
          let put (s : State) (y : Nat × List Word) : State :=
            ((s.svcIn (y.1 % 256) 256).writeFrame e x y.1 y.2).modSect e (fun x => { x with framesLeft := l })
          let (v1, s) := s.readStaged e x f
          match crc1, v1 with
          | true, some y => put s y
          | _, _ =>
            let (v2, s) := s.readStaged e x f
            match crc2, v2 with
            | true, some y => put s y
            | _, _ => s.failFrames e)

/-- Credits and remote credits of a site at arming (R182, R212, R229). -/
def State.armCredits (s : State) (a : Nat) : State :=
  let s := ((List.range 16).filter (fun n => hasProg a n && !(s.pfBusy a && s.isPf a n))).foldl (fun s n =>
    s.wr (strFld a F.STR_STATE_CREDITS F.TRN_THR_STATE_CREDITS) a n (s.dsc a n F.STR_DESC_DEPTH F.TRN_THR_DEPTH)) s
  (List.range 32).foldl (fun s q =>
    let r := s.role a q
    if r = 1 ∨ r = 3 then s.wr F.QUE_STAT_RCRED a q 64
    else if r = 5 then s.wr F.QUE_STAT_RCRED a q (s.ringLen a q)
    else s) s

/-- A set of sites as the four words of COL_BAR_MEM or COL_BAR_ARR. -/
def State.putMask (s : State) (r : RegName) (b : Nat) (l : List Nat) : State :=
  (List.range 4).foldl (fun s k => s.setWord r 0 (4 * b + k)
    (BitVec.ofNat 64 ((l.filter (fun a => a / 64 == k)).foldl (fun m a => m + 2 ^ (a % 64)) 0))) s

/-- MTX_RECOMP of a Spur whose tile plan marks recompute nests: the units of the slots that their MMAs name (R305). -/
def State.armRecomp (s : State) (g : SectionImage) (a : Nat) (rec : SiteRec) : State :=
  let nests := g.tiles.filter (fun t => t.site == rec.site && t.recomp)
  let units := rec.prog.filterMap (fun y => match y.2 with
    | .mma o => if nests.any (fun t => decide (t.lo ≤ y.1) && decide (y.1 ≤ t.hi)) then
        some (o.slot.toNat, o.slot.toNat + unitsOf (modeNat o.mode.toNat) - 1) else none
    | _ => none)
  match units with
  | [] => s
  | u :: l => s.wrs a 0 [(F.MTX_RECOMP_EN, 1), (F.MTX_RECOMP_FIRST_UNIT, l.foldl (fun m v => min m v.1) u.1),
      (F.MTX_RECOMP_LAST_UNIT, l.foldl (fun m v => max m v.2) u.2)]

/-- The values the loader assigns at arming (R328): the seed of every Spur (R59), the barriers with COUNT, ARRIVED and GEN
0 (R244, R258), values, modes and pairs of the work counters (R253, R255), credits (R182, R212). -/
def State.armValues (s : State) (e : Nat) (x : SectX) : State :=
  let g := x.img
  let (c, r) := s.origin e
  let l := g.region c r
  let s := (l.filter isSpur).foldl (fun s a => s.setWord .VEC_SR_SEED a 0 g.seed) s
  let s := l.foldl (fun s a => s.armCredits a) s
  let s := g.sites.foldl (fun s rec => s.armRecomp g (g.moved c r rec.site) rec) s
  let s := (g.sites.filter (fun x => isTarn x.site)).foldl (fun s rec =>
    let a := g.moved c r rec.site
    (List.range 64).foldl (fun s k =>
      let cfg := rec.regWord (0x600 + 8 * k)
      (s.wr F.TRN_WC_VALUE a k (fieldGet F.TRN_WC_VALUE (rec.regWord (0x400 + 8 * k)))).wrs a k
        [(F.TRN_WC_CFG_MODE, fieldGet F.TRN_WC_CFG_MODE cfg), (F.TRN_WC_CFG_PAIR, fieldGet F.TRN_WC_CFG_PAIR cfg)]) s) s
  g.bars.foldl (fun s b =>
    let s := (s.setWord .COL_BAR 0 b.bar 0).wrs 0 b.bar [(F.COL_BAR_ACTIVE, 1), (F.COL_BAR_OWNER, e / 32),
      (F.COL_BAR_REL, b.rel), (F.COL_BAR_TARGET, b.target)]
    (s.putMask .COL_BAR_MEM b.bar (b.members.map (g.moved c r))).putMask .COL_BAR_ARR b.bar []) s

/-- The section becomes Armed: its Tarns' halves are live (R200), and a restore's cycles are counted (R338). -/
def State.becomeArmed (s : State) (e : Nat) (x : SectX) : State :=
  let s := x.halves.foldl (fun s h => s.wrs h.1 0 [(F.TRN_HALF_LIVE, 1), (F.TRN_HALF_BOTH, if h.2 = 2 then 1 else 0),
    (F.TRN_HALF_ACT, if h.2 = 1 then 1 else 0)]) s
  let s := if x.restoring then s.count C.HUT_ACCT_RESTCYC (s.tenantOf (e / 32)) (s.cycles - x.since) else s
  let s := s.modSect e (fun x => { x with phase := .none, everArmed := true, restoring := false, pfStarted := [] })
  (s.wr F.HUT_SECT_BUSY 0 e 0).setSect e 2

/-! ### Saving (R332, R333, Table 12-2) -/

/-- The first byte a site's buffers count from: its scratchpad, or the bound half of its Tarn. -/
def bufBase (halves : List (Nat × Nat)) (a : Nat) : Nat := siteMem a + (if isTarn a then halfBase halves a else 0)

/-- The buffers of a home site (R289, R334). -/
def SectionImage.siteBufs (g : SectionImage) (home : Nat) : List Buffer :=
  if isTarn home then ((g.tarns.find? (fun t => t.site == home)).map TarnPlan.buffers).getD []
  else ((g.rec? home).map SiteRec.buffers).getD []

/-- Whether a save holds a register of a site: not those that the staged frames rewrite, nor those of the site itself
(Table 12-2). -/
def savedReg (k : RegKey) : Bool :=
  k.reg.place.block.isNone &&
  !(List.contains [RegName.QUE_CFG, .TRV_OUT, .SEQ_STEER, .TRV_LINK_STATE, .TRN_PF_CTRL, .TRN_PF_STATUS] k.reg)

/-- What a save holds of one site. -/
def State.saveSite (s : State) (x : SectX) (home a : Nat) : SavedSite :=
  let base := bufBase x.halves a
  let bufs := (x.img.siteBufs home).filter (fun b => !b.reload)
  let inBuf (y : Nat) : Bool := bufs.any (fun b => decide (base + b.addr ≤ y) && decide (y < base + b.addr + b.len))
  { home := home, site := a, x := s.site a
    regs := s.regs.filter (fun y => y.1.a == a && savedReg y.1)
    bytes := (s.mem.filter (fun y => inBuf y.1)).map (fun y => (y.1 - base, y.2))
    poison := (s.poison.filter (fun y => inBuf (8 * y.1))).map (fun y => (y.1 - base / 8, y.2))
    synd := (s.synd.filter (fun y => inBuf (8 * y.1))).map (fun y => (y.1 - base / 8, y.2)) }

/-- Whether a control message is from, to or for a site. -/
def CtlMsg.touches (m : CtlMsg) (a : Nat) : Bool := match m with
  | .add t m => t / 32 == a || m.src.toNat == a
  | .ack t _ _ => t == a
  | .arrival x _ _ => x == a
  | .release _ _ l => l.contains a
  | .claim _ m => m.src.toNat == a
  | .reply x _ _ _ => x == a
  | .conn _ src x _ _ _ => src / 32 == a || x == a
  | .credit t l _ _ _ => t / 32 == a || l / 32 == a

/-- Whether a paused section is quiesced (R332): nothing of its circuits is on a link, neither entries and records nor return flits. A
claim that waits at a Tarn for a log entry is in no FIFO. -/
def State.quiesced (s : State) (e : Nat) : Bool :=
  !s.col.due.any (fun d => d.2 == e / 32) &&
  (s.regionSites e).all (fun a =>
    s.flight.all (fun f => f.src / 32 != a && f.dst / 32 != a) &&
    (s.site a).queues.all (fun q => q.2.ringOut.isEmpty && q.2.credOut.isEmpty) &&
    (List.range 16).all (fun n => (s.str a n).reqs.isEmpty || s.isPf a n) &&
    s.rd F.SEQ_SIG_STATUS_ADD_OUT a == 0 &&
    s.ctl.all (fun m => !m.touches a) && s.col.ports.all (fun x => x.2.1 != a))

/-- QUIESCENCE (R332, R194): programs record their progress, dynamic connections close, and the save moves. -/
def execQuiescence (p : PartNo) (e : EntryNo) (s : State) : Host.Outcome State Fault Refusal :=
  let e := sectNo p e
  .next (match s.sectX? e with
    | none => s
    | some x =>
      if x.phase != .quiescing || !s.quiesced e then s
      else
        let l := s.regionSites e
        let s := l.foldl (fun s a =>
          let s := ((List.range 16).filter (fun n => hasProg a n && !s.isPf a n)).foldl (fun s n => s.recordProg a n) s
          let s := s.closeAllDyn a
          s.modSeq a (fun q => { q with claim := q.claim.map (fun c => { c with reply := none }) })) s
        s.modSect e (fun x => { x with phase := .saving }))

/-- Cycles of a save counted, from the step 4 that paused the section (R338). -/
def State.countSave (s : State) (e : Nat) : State :=
  match s.sectX? e with
  | some x => s.count C.HUT_ACCT_SAVECYC (s.tenantOf (e / 32)) (s.cycles - x.since)
  | none => s

/-- A section marked runnable, behind every one marked before (R326). -/
def State.markRunnable (s : State) (e : Nat) : State :=
  let n := s.hut.stamp
  ((s.wr F.HUT_SECT_RUNNABLE 0 e 1).modHut (fun h => { h with stamp := n + 1 })).modSect e (fun x => { x with stamp := n })

/-- Size of a whole leaf (R365). -/
def leafSize : Nat := 65536

/-- The leaves of a list of ranges, each its address and length, in list order (R365). -/
def leavesOf (l : List (Nat × Nat)) : List (Nat × Nat) :=
  l.flatMap (fun r => (List.range ((r.2 + leafSize - 1) / leafSize)).map (fun i =>
    (r.1 + leafSize * i, min leafSize (r.2 - leafSize * i))))

/-- Whether a digest of a live section still has leaves of its buffers to read (R367). -/
def State.digReading (s : State) (e : Nat) : Bool :=
  match aget s.hut.digs (e / 32) with
  | some d =>
    let l := leavesOf d.ranges
    d.job == s.jobOf e && (List.range l.length).any (fun i => !inExt (l.getD i (0, 0)).1 && (aget d.leaves i).isNone)
  | none => false

/-- Bytes that the save of a site moves (R325, Example 12-2): of the Moraine the units that are not Free, and the pending buffers and
the latched operands only of an undecided tile or row. -/
def State.saveBytes (s : State) (g : SectionImage) (home a : Nat) : Nat :=
  let x := s.site a
  if isTarn a then g.saveSize home
  else
    let used := x.mtx.phys.foldl (fun n y => n + unitsOf y.mode) 0
    let open_ := x.mtx.tiles.any (fun t => t.stage == .undecided) || x.vec.undecided.isSome
    g.saveSize home - 16384 * (96 - used) - (if open_ then 0 else 1048576)

/-- Service flits of n bytes between two sites: on links within a region in local slots 0 to 13 and 15, of 15 flits one in slot 15, on
all others in slot 15 (R333). -/
def State.moveSaved (s : State) (l : List Nat) (a b n : Nat) : State :=
  match s.ctlRoute a b with
  | none => s.count C.TRV_CNT_DEADDROP a
  | some path =>
    let k := flitsOf n
    (path.foldl (fun (acc : Nat × State) x =>
      let inside := l.contains x.1 && (neighbour x.1 x.2).any l.contains
      let f := acc.2.svcFlit a
      let s := if inside then acc.2.launchRun x.1 x.2 { f with slot := 0 } (k - (k + 14) / 15) else acc.2
      (1 + x.2.opp.num, s.sendSvc f (if inside then (k + 14) / 15 else k) [x] acc.1)) (0, s)).2

/-- The state of a region's sites moved to the save area through its save Tarns, and counted at the groups' controllers (R282, R333). -/
def State.countSaved (s : State) (g : SectionImage) (l : List (Nat × Nat)) : State :=
  l.foldl (fun s y =>
    let n := s.saveBytes g y.1 y.2
    (s.moveSaved (l.map Prod.snd) y.2 (saveTarn y.2) n).count C.MEM_CNT_WRBYTES (16 * groupOfCol (colOf y.2)) n) s

/-- SAVE_COMPLETE (R333, R335): the section becomes Saved and its region is released. -/
def execSaveComplete (p : PartNo) (e : EntryNo) (s : State) : Host.Outcome State Fault Refusal :=
  let e := sectNo p e
  .next (match s.sectX? e with
    | none => s
    | some x =>
      if x.phase != .saving || s.digReading e then s
      else
        let (c, r) := s.origin e
        let saved := x.img.rect.map (fun h => s.saveSite x h (x.img.moved c r h))
        let s := s.countSaved x.img (x.img.rect.map (fun h => (h, x.img.moved c r h)))
        let bars := x.img.bars.map (fun b =>
          (⟨b.bar, s.word .COL_BAR 0 b.bar, (x.img.region c r).filter (s.barBit .COL_BAR_ARR b.bar) |>.map (x.img.homeOf c r)⟩ : SavedBar))
        let s := s.countSave e
        let s := (s.wr F.HUT_SECT_BUSY 0 e 0).setSect e 5
        let s := s.modSect e (fun x => { x with phase := .none, saved := saved, savedBars := bars, autoRun := false })
        let s := s.releaseRegion e
        let s := match x.newRow with
          | some r => s.wr F.HUT_SECT_ORG_ROW 0 e r
          | none => s
        let s := s.modSect e (fun x => { x with halves := [], newRow := none })
        if x.autoRun then s.markRunnable e else s)

/-! ### Restoring (R336, R484, Table 12-2) -/

/-- A site index moved from an old site to its new one. -/
def shiftSite (old new a : Nat) : Nat := a + new - old

/-- A saved Tarn SRAM or scratchpad address translated from the old place to the new one (R484). -/
def relocAddr (g : SectionImage) (c0 r0 : Nat) (h0 : List (Nat × Nat)) (c r : Nat) (h1 : List (Nat × Nat)) (x : Nat) : Nat :=
  if inTarn x then
    let a := siteOfTarn (tarnOf x)
    let off := x - tarnBase (tarnOf x)
    if (g.region c0 r0).contains a then
      let b := g.moved c r (g.homeOf c0 r0 a)
      (tarnBase (tarnNo b) + halfBase h1 b + off + (2 ^ 48 - halfBase h0 a)) % 2 ^ 48
    else x
  else if padBase 0 ≤ x ∧ x < padBase 192 then
    let a := siteOfSpur (padSpur x)
    if (g.region c0 r0).contains a then
      padBase (spurNo (g.moved c r (g.homeOf c0 r0 a))) + (x - padBase (padSpur x))
    else x
  else x

/-- A stream program's COPYs as a restore resumes them: each from its first incomplete unit, with its addresses translated
(R194, R484). -/
def restoreCopies (f : Nat → Nat) (l : List CopyX) : List CopyX :=
  l.map (fun c =>
    let n := leadingDone c.done (c.len / 64)
    { c with src := f c.src, dst := f c.dst, done := List.range n, next := 64 * n })

/-- The state of a site beyond its registers as a restore brings it back: identifiers, addresses and requesters
translated, the claim log marked (R256, R484); programs, stores and links are those of the new site. -/
def restoredSite (f : Nat → Nat) (old new : Nat) (x now : Site) : Site :=
  let mv (a : Nat) : Nat := shiftSite old new a
  let mvq (q : Nat) : Nat := qid (mv (q / 32)) (q % 32)
  { x with
    sect := now.sect, prog := now.prog, progSynd := now.progSynd, ag := now.ag, agSynd := now.agSynd, links := now.links
    seq := { x.seq with hold := none, selfTest := false,
                        claim := x.seq.claim.map (fun c => { c with tarn := tarnNo (mv (siteOfTarn c.tarn)), reply := none }) }
    vec := x.vec.reissue
    strs := x.strs.map (fun y => (y.1, { y.2 with copies := restoreCopies f y.2.copies, reqs := [], reqAt := none, issueAt := none }))
    sync := { x.sync with table := x.sync.table.map (fun y => (mvq y.1, y.2)), claimOut := x.seq.claim.isSome, connOut := [] }
    tarn := { x.tarn with waiting := [], logWait := none, servedAt := none,
                          reqs := x.tarn.reqs.map (fun y => (mv y.1, y.2)),
                          clog := x.tarn.clog.map (fun y =>
                            { y with req := mv y.req, st := if y.st == .claimed then .reissue else y.st }) }
    queues := x.queues.map (fun y => (y.1, { y.2 with bound := none, probe := none, slots := none, credOut := [] })) }

/-- Registers of a saved site put back: address registers translated, leaves attached as the frames say (R223, R484). -/
def State.restoreRegs (s : State) (f : Nat → Nat) (a : Nat) (l : List (RegKey × Word)) : State :=
  l.foldl (fun s y =>
    let k := y.1
    match k.reg with
    | .STR_AREG => s.setWord k.reg a k.i (fieldSet F.STR_AREG_ADDR (f (fieldGet F.STR_AREG_ADDR y.2)) y.2)
    | .TRN_AREG => s.setWord k.reg a k.i (fieldSet F.TRN_AREG_ADDR (f (fieldGet F.TRN_AREG_ADDR y.2)) y.2)
    | .QUE_MLEAF => s.wr F.QUE_MLEAF_OUTST a k.i (fieldGet F.QUE_MLEAF_OUTST y.2)
    | .QUE_STAT => s.setWord k.reg a k.i (fieldSet F.QUE_STAT_CSTATE 0 y.2)
    | .TRN_HALF => s
    | _ => s.setWord k.reg a k.i y.2) s

/-- The memory of one site restored: a scratchpad's bytes in no buffer are zero, RELOAD buffers are re-read (R333, R334,
Table 12-2). -/
def State.restoreMem (s : State) (x : SectX) (home a : Nat) (v : Option SavedSite) : State :=
  let base := bufBase x.halves a
  let bufs := x.img.siteBufs home
  let s := if isTarn a then
      bufs.foldl (fun s b => s.zeroRange (base + b.addr) (base + b.addr + b.len)) s
    else s.zeroRange base (base + 0x600000)
  let s : State := match v with
    | none => s
    | some v => { s with mem := v.bytes.foldl (fun m y => mput 0 m (base + y.1) y.2) s.mem
                         poison := v.poison.foldl (fun m y => mput 0 m (base / 8 + y.1) y.2) s.poison
                         synd := v.synd.foldl (fun m y => mput 0 m (base / 8 + y.1) y.2) s.synd }
  (bufs.filter Buffer.reload).foldl (fun s b =>
    let (l, s) := s.extReads .couloir (x.slotBase.getD b.srcSlot 0 + b.srcOff) (b.len / 8)
    s.putRawWords (base + b.addr) l) s

/-- The bytes of a save read again and moved to the region through its save Tarns (R282, R336). -/
def State.countRestored (s : State) (x : SectX) (c r : Nat) : State :=
  let g := x.img
  let l := x.saved.map (fun v => g.moved c r v.home)
  x.saved.foldl (fun s v =>
    let a := g.moved c r v.home
    let n := s.saveBytes g v.home a
    (s.moveSaved l (saveTarn a) a n).count C.MEM_CNT_RDBYTES (16 * groupOfCol (colOf a)) n) s

/-- Each leaf of a site's trees that was detached when it was saved is attached again (R223): it expects the tree's next sequence
number, while SEQ shows GAP_SEQ as long as GAP is 1 (DEDUCED, log entry 125). -/
def State.reattach (s : State) (a : Nat) : State :=
  ((List.range 32).filter (fun q => s.role a q == 7)).foldl (fun s q =>
    (s.leaves a q).foldl (fun s r =>
      let la := r.2 / 32
      let lq := r.2 % 32
      if (s.queue la lq).gap.isSome || s.rd F.QUE_STAT_GAP la lq = 1 then
        s.modQueue la lq (fun x => { x with next := some (s.rd F.QUE_STAT_SEQ a q) })
      else s) s) s

/-- The whole restore, once frames and restored bytes are both in place: it overrides what the frames wrote (R336). -/
def State.putBack (s : State) (e : Nat) (x : SectX) : State :=
  let g := x.img
  let (c, r) := s.origin e
  let s := x.saved.foldl (fun s v =>
    let a := g.moved c r v.home
    let c0 := colOf v.site + g.homeC - colOf v.home
    let r0 := rowOf v.site + g.homeR - rowOf v.home
    let h0 := (x.saved.filter (fun w => isTarn w.site)).map (fun w =>
      let y := (aget w.regs ⟨.TRN_HALF, w.site, 0⟩).getD 0
      (w.site, if fieldGet F.TRN_HALF_BOTH y = 1 then 2 else fieldGet F.TRN_HALF_ACT y))
    let f := relocAddr g c0 r0 h0 c r x.halves
    let s := s.restoreMem x v.home a (some v)
    let s := s.restoreRegs f a v.regs
    s.modSite a (restoredSite f v.site a v.x)) s
  let s := s.countRestored x c r
  let s := x.saved.foldl (fun s v => s.reattach (g.moved c r v.home)) s
  x.savedBars.foldl (fun s b =>
    let s := (s.setWord .COL_BAR 0 b.bar b.word).wr F.COL_BAR_ACTIVE 0 b.bar 1
    s.putMask .COL_BAR_ARR b.bar (b.arrived.map (g.moved c r))) s

/-- The section becomes Armed when its frames and, in a restore, its restored state are in place (R328, R336). -/
def State.armIfReady (s : State) (e : Nat) : State :=
  match s.sectX? e with
  | none => s
  | some x =>
    if !x.framesDone then s
    else if s.sectState e = 2 then (s.modSect e (fun x => { x with phase := .none })).wr F.HUT_SECT_BUSY 0 e 0
    else if x.restoring && !x.restored then s
    else
      let s := s.armValues e x
      let s := if x.restoring then s.putBack e x else s
      s.becomeArmed e x

/-- RECONFIG_COMPLETE (R328): every frame is written. -/
def execReconfigComplete (p : PartNo) (e : EntryNo) (s : State) : Host.Outcome State Fault Refusal :=
  let e := sectNo p e
  .next (match s.sectX? e with
    | none => s
    | some x =>
      if x.phase != .loading || !x.framesLeft.isEmpty || x.framesDone then s
      else (s.modSect e (fun x => { x with framesDone := true })).armIfReady e)

/-- RESTORE_COMPLETE (R336): every restored byte is in place. -/
def execRestoreComplete (p : PartNo) (e : EntryNo) (s : State) : Host.Outcome State Fault Refusal :=
  let e := sectNo p e
  .next (match s.sectX? e with
    | none => s
    | some x =>
      if !x.restoring || x.restored || x.phase != .loading then s
      else (s.modSect e (fun x => { x with restored := true })).armIfReady e)

/-! ### Pausing, halting and running -/

/-- A Running section becomes Paused and its save begins (R331, R332). -/
def State.pauseSect (s : State) (e : Nat) : State :=
  let now := s.cycles
  let s := (s.wr F.HUT_SECT_BUSY 0 e 1).setSect e 4
  s.modSect e (fun x => { x with phase := .quiescing, since := now })

/-- A section becomes Halted with a cause of Table 16-11 (R176, R361); a save under way is given up. -/
def State.haltSect (s : State) (e code : Nat) : State :=
  let s := if s.sectState e = 4 then s.countSave e else s
  let now := s.cycles
  let s := (s.wrs 0 e [(F.HUT_SECT_BUSY, 0), (F.HUT_SECT_RUNNABLE, 0)]).setSect e 6 0x20 code
  s.modSect e (fun x => { x with phase := .none, since := now, autoRun := false })

/-- A section becomes Running: the sequencers of its sites issue from the first cycle of the pitch (R142, R34), and the dynamic
connections that its pause closed open again. -/
def State.runSect (s : State) (e : Nat) : State :=
  let l := match s.sectX? e with
    | some x => s.usedSites e x.img
    | none => []
  let s := (s.setSect e 3).modSect e (fun x => { x with saved := [], savedBars := [], held := false, ran := true })
  l.foldl (fun s a =>
    let s := if s.rd F.SEQ_STATUS_STATE a = 0 then s.wr F.SEQ_STATUS_STATE a 0 1 else s
    s.reopenDyn a) s

/-- A paused section runs on from the state its sites hold, its save cancelled (R336). -/
def State.resumePaused (s : State) (e : Nat) : State :=
  let s := s.countSave e
  let s := (s.wr F.HUT_SECT_BUSY 0 e 0).modSect e (fun x => { x with phase := .none, autoRun := false })
  let s := (s.regionSites e).foldl (fun s a =>
    s.modSite a (fun y => if y.seq.claim.isSome then { y with sync := { y.sync with claimOut := true } } else y)) s
  s.runSect e

/-- Whether a site has nothing left to do for a complete section (R330). -/
def State.siteDone (s : State) (a : Nat) : Bool :=
  (s.rd F.SEQ_STATUS_STATE a == 2 || s.rd F.SEQ_CTRL_PLEN a == 0) &&
  (List.range 16).all (fun n => !hasProg a n || s.isPf a n || s.strState a n == 0) &&
  (List.range 32).all (fun q =>
    let r := s.role a q
    let x := s.queue a q
    if r == 1 || r == 3 then x.items.isEmpty && decide (s.rd F.QUE_STAT_RCRED a q ≥ 64)
    else if r == 5 then x.items.isEmpty && x.ringOut.isEmpty && decide (s.rd F.QUE_STAT_RCRED a q ≥ s.ringLen a q)
    else if r == 7 then x.items.isEmpty && (s.leaves a q).all (fun y => s.outst a y.1 == 0)
    else true)

/-- Whether a Running section is complete (R330). -/
def State.complete? (s : State) (e : Nat) : Bool :=
  match s.sectX? e with
  | some x => x.released && (s.usedSites e x.img).all s.siteDone
  | none => false

end Sys2Proof.Machine
end

