-- ==== Sys2Proof/Machine/Referee.lean ====
section
/-! DEFINITION. The checker verdict procedure (R352 to R358) and the health states of Spurs (R382, R384): confirmed
faults, the choice of a referee, its run, and its verdict written into the Suspect's saved state. -/

namespace Sys2Proof.Machine

/-! ### Health states (Table 14-2) -/

/-- A Spur's health state changes, with the pitch of the change (Table 14-9). -/
def State.spurTo (s : State) (n st : Nat) : State :=
  let left := if st = 2 then s.rd F.HUT_HEALTH_CTRL_WATCH_CLEAN
    else if st = 0 then 0 else s.rd F.HUT_SPUR_HEALTH_WATCH_LEFT 0 n
  (s.wrs 0 n [(F.HUT_SPUR_HEALTH_STATE, st), (F.HUT_SPUR_HEALTH_PRIOR, 0), (F.HUT_SPUR_HEALTH_WATCH_LEFT, left),
              (F.HUT_SPUR_HEALTH_PITCH, s.pitch)]).spurRecord n

/-- A confirmed fault of a Spur (R384): Healthy becomes Watched, Watched becomes Fenced, Suspect goes by PRIOR. -/
def State.confirmFault (s : State) (n cause : Nat) : State :=
  let s := s.wrs 0 n [(F.HUT_SPUR_HEALTH_FAULTS, min 255 (s.rd F.HUT_SPUR_HEALTH_FAULTS 0 n + 1)),
                      (F.HUT_SPUR_HEALTH_CAUSE, cause)]
  match s.rd F.HUT_SPUR_HEALTH_STATE 0 n with
  | 0 => s.spurTo n 2
  | 1 => if cause = 5 then s else s.spurTo n (if s.rd F.HUT_SPUR_HEALTH_PRIOR 0 n = 1 then 3 else 2)
  | 2 => s.spurTo n 3
  | _ => s

/-! ### Cases -/

/-- Whether a section that is live, or being loaded, uses a site. -/
def State.siteUsed (s : State) (a : Nat) : Bool :=
  match s.sectOf a with
  | some e => match s.sectX? e with
    | some x => (s.live e || x.phase != .none) && (s.usedSites e x.img).contains a
    | none => false
  | none => false

/-- Whether a site serves as a referee. -/
def State.isReferee (s : State) (a : Nat) : Bool := s.hut.refs.any (fun r => r.referee == some a)

/-- The case of the same Suspect and unit replaced. -/
def State.putRef (s : State) (r : RefX) : State :=
  s.modHut (fun h => { h with refs := h.refs.map (fun y => if y.suspect == r.suspect && y.vector == r.vector then r else y) })

/-- HUT_REF of the case's partition, which shows the case written last. -/
def State.noteRef (s : State) (r : RefX) (l : List (Fld × Nat)) : State :=
  (s.wrs 0 (r.sect / 32) [(F.HUT_REF_SUSPECT, r.suspect), (F.HUT_REF_UNIT, r.vector.toNat)]).wrs 0 (r.sect / 32) l

/-- A new case (R353, Table 13-8). -/
def State.openRef (s : State) (a e : Nat) (vector : Bool) : State :=
  let r : RefX := { suspect := a, sect := e, vector := vector, referee := none, runAt := none, running := false,
                    result := none, row := none, abandoned := 0 }
  (s.modHut (fun h => { h with refs := List.append h.refs [r] })).noteRef r
    [(F.HUT_REF_REFEREE, 0), (F.HUT_REF_STATE, 1), (F.HUT_REF_VERDICT, 0),
     (F.HUT_REF_SAME, if vector then 0 else s.rd F.CHK_SYND_SAME a),
     (F.HUT_REF_PITCH, s.rd F.HUT_SPUR_HEALTH_PITCH 0 (spurNo a))]

/-- The referee of a case: the free Healthy Spur of lowest number in the partition (R354). -/
def State.refereeFor (s : State) (r : RefX) : Option Nat :=
  ((List.range 192).map siteOfSpur).find? (fun a =>
    s.partHolds (r.sect / 32) a && s.health a == 0 && a != r.suspect && !s.siteUsed a && !s.isReferee a)

/-- Step 4 for a case without a referee (R354): the first boundary at which its section is Saved and a Spur qualifies. -/
def State.chooseReferee (s : State) (r : RefX) : State :=
  if r.referee.isSome || s.sectState r.sect != 5 then s
  else match s.refereeFor r with
    | none => s
    | some a =>
      let w := (s.site a).sect
      let s := ((s.rearm a).modSite a (fun y => { y with sect := w })).domOn 0 a
      let on := match s.hut.switching.find? (fun x => x.1 == a && x.2.1 == 0) with
        | some (_, _, due) => (due - s.cycles) / s.pitchLen
        | none => 0
      let r := { r with referee := some a, running := false, result := none, row := none,
                        runAt := some ((s.pitch + on + 1) % 2 ^ 48) }
      (s.putRef r).noteRef r [(F.HUT_REF_REFEREE, a), (F.HUT_REF_STATE, 1)]

/-- Partitions with a case that waits for a free referee count the boundary (R354). -/
def State.countRefWait (s : State) : State :=
  ((List.range 16).filter (fun p => s.hut.refs.any (fun r =>
    r.sect / 32 == p && r.referee.isNone && s.sectState r.sect == 5))).foldl (fun s p => s.count C.HUT_CNT_REFWAIT p) s

/-! ### The run (R355) -/

/-- What the save holds of the Suspect. -/
def State.savedOf (s : State) (r : RefX) : Option SavedSite :=
  (s.sectX? r.sect).bind (fun x => x.saved.find? (fun v => v.site == r.suspect))

/-- The instructions a referee executes: those that held a pending buffer, in issue order from cycle 64. -/
def refTiles (m : MtxX) : List Tile :=
  let l := (m.tiles.filter (fun x => x.kind.pends)).map (fun x =>
    { x with stage := .running, orig := [], old := [], new := [], upset := Upset.none, logged := false, poisonOut := false,
             freeAt := 0, lastK := 63 + x.fill + x.run })
  (replan 0 0 l 0 0 []).1

/-- The inputs on the referee (R355): scratchpad bytes, slot words and the disputed instruction with those behind it, or
the latched row. -/
def State.installReferee (s : State) (r : RefX) (a : Nat) (v : SavedSite) : State :=
  match r.vector, v.x.vec.undecided with
  | true, some y => s.modVec a (fun _ => { VecX.reset with pipe := [{ y with replay := false, got := y.elems, entered := 64 }] })
  | _, _ =>
    let s := match s.sectX? r.sect with
      | some x => s.restoreMem x v.home a (some v)
      | none => s
    let m := v.x.mtx
    s.modMtx a (fun _ => { MtxX.reset with slots := m.slots, phys := m.phys, tiles := refTiles m })

/-- Step 4 for a case with a referee: inputs are copied in the pitch in which the core becomes ON, and the run is in the
next (Example 13-2). -/
def State.runReferee (s : State) (r : RefX) : State :=
  match r.referee, r.runAt with
  | some a, some n =>
    if r.running || s.pitch != n then s
    else if s.dom 0 a ≠ 0 then s.putRef { r with runAt := some ((n + 1) % 2 ^ 48) }
    else match s.savedOf r with
      | some v => ((s.installReferee r a v).putRef { r with running := true }).noteRef r [(F.HUT_REF_STATE, 2)]
      | none => s
  | _, _ => s

/-! ### The verdict (R356) -/

/-- What a save holds of a site, changed by operations as they act on a site. -/
def State.withSaved (s : State) (v : SavedSite) (f : State → State) : SavedSite :=
  let t : State := { s with regs := v.regs, sites := [(v.site, v.x)], credNext := [], mem := [] }
  let t := f t
  let t := t.credNext.foldl (fun t x => t.giveCredit (x.1 / 16) (x.1 % 16)) t
  { v with x := t.site v.site, regs := t.regs.filter (fun y => y.1.a == v.site && savedReg y.1) }

/-- The saved state of a section with one site's part replaced. -/
def State.putSaved (s : State) (e : Nat) (v : SavedSite) : State :=
  s.modSect e (fun x => { x with saved := x.saved.map (fun y => if y.site == v.site then v else y) })

/-- A held engine let go: once neither unit is held, a sequencer stopped by one issues again. -/
def State.unhold (s : State) (a : Nat) : State :=
  if s.rd F.SEQ_STATUS_STATE a = 4 && !s.mtxHeld a && !s.vecHeld a then s.wr F.SEQ_STATUS_STATE a 0 1 else s

/-- The referee's slot words and flags in the Suspect's saved state, with its pending instructions released (R356). -/
def takeTiles (a : Nat) (phys : List SlotP) (mor : Word) (s : State) : State :=
  let l := (s.mtx a).tiles
  let s := (l.filter (fun x => x.kind.pends)).foldl (fun s x => s.mtxCredits a (namedOpds x.instr)) s
  let s := s.modMtx a (fun m =>
    { MtxX.reset with slots := m.slots, phys := phys,
                      tiles := (l.filter (fun x => !x.kind.pends)).map (fun x => { x with lastK := 0, rel := 0, freeAt := 0 }) })
  let sat := fieldGet F.MOR_STATUS_SAT_SEEN mor == 1
  let s := if sat && s.rd F.MOR_STATUS_SAT_SEEN a == 0 then
      s.wr F.MOR_STATUS_FIRST_SAT_SLOT a 0 (fieldGet F.MOR_STATUS_FIRST_SAT_SLOT mor) else s
  let s := [F.MOR_STATUS_SAT_SEEN, F.MOR_STATUS_INF_SEEN, F.MOR_STATUS_NAN_SEEN, F.MOR_STATUS_BAD_TAG].foldl
    (fun s f => if fieldGet f mor = 1 then s.wr f a 0 1 else s) s
  (s.wr F.MTX_STATUS_HELD a 0 0).unhold a

/-- The referee's row in the Suspect's saved state; later rows follow it after restore (R356). -/
def takeRow (a : Nat) (y : VRow) (s : State) : State :=
  let s := s.modVec a (fun v => { v with undecided := none, pipe := y :: v.pipe })
  let s := s.rowPasses a y
  (s.wr F.VEC_STATUS_HELD a 0 0).unhold a

/-- Whether the referee's result R equals the Suspect's X: the re-run words, or the replayed row (R352, R356). -/
def refEqual (r : RefX) (v : SavedSite) : Bool :=
  if r.vector then
    match v.x.vec.undecided, r.row with
    | some y, some l => y.got == l
    | _, _ => false
  else
    match v.x.mtx.tiles.find? (fun x => x.stage == .undecided), r.result with
    | some x, some (d, n) => if x.new.isEmpty then d == x.delta else n == x.new
    | _, _ => false

/-- The verdict at step 3 (R356, R384): recorded, a confirmed fault of the Suspect, and the results taken over. -/
def State.giveVerdict (s : State) (r : RefX) (a : Nat) : State :=
  match s.savedOf r with
  | none => s
  | some v =>
    let vd := if refEqual r v then 1 else 2
    let phys := (s.mtx a).phys
    let mor := s.word .MOR_STATUS a 0
    let v := match r.vector, v.x.vec.undecided with
      | true, some y => s.withSaved v (takeRow v.site { y with elems := r.row.getD y.elems })
      | true, none => v
      | false, _ => s.withSaved v (takeTiles v.site phys mor)
    let s := s.putSaved r.sect v
    let s := s.noteRef r [(F.HUT_REF_REFEREE, a), (F.HUT_REF_STATE, 3), (F.HUT_REF_VERDICT, vd)]
    let n := spurNo r.suspect
    let s := s.record 2 n false [a, vd, r.vector.toNat, s.rd F.HUT_REF_SAME 0 (r.sect / 32)]
    let s := s.modHut (fun h => { h with refs := h.refs.filter (fun y => y.suspect != r.suspect || y.vector != r.vector) })
    (s.dropReferee a).confirmFault n (vd + 2 * r.vector.toNat)

/-- A referee whose own tile or row is undecided is abandoned; after two the job fails (R357). -/
def State.abandonReferee (s : State) (r : RefX) (a : Nat) : State :=
  let s := s.dropReferee a
  let n := r.abandoned + 1
  let r := { r with referee := none, runAt := none, running := false, result := none, row := none, abandoned := n }
  let s := s.putRef r
  if n < 2 then s.noteRef r [(F.HUT_REF_STATE, 1)]
  else (s.noteRef r [(F.HUT_REF_VERDICT, 3)]).failJob (r.sect / 32) (s.jobOf r.sect) 0x20 7

/-- Step 3 for a case whose referee runs. -/
def State.settleReferee (s : State) (r : RefX) : State :=
  match r.referee with
  | some a =>
    if !r.running || !s.hut.refs.contains r then s
    else if s.mtxHeld a || s.vecHeld a then s.abandonReferee r a
    else if (if r.vector then (s.vec a).pipe.isEmpty else (s.mtx a).tiles.isEmpty) then s.giveVerdict r a
    else s
  | none => s

/-- Whether a referee verdict of a job is still to be given (R335, R358). -/
def State.refPending (s : State) (e : Nat) : Bool :=
  s.hut.refs.any (fun r => r.sect / 32 == e / 32 && s.jobOf r.sect == s.jobOf e)

/-- Spurs that became Suspect with a Running or Paused section: their job pauses, and each gets a case (R353). -/
def State.pauseSuspects (s : State) : State :=
  let sus := allSites.filter (fun a => isSpur a && s.health a == 1 && !s.hut.refs.any (fun r => r.suspect == a) &&
    (match s.sectOf a with
      | some e => s.sectState e == 3 || s.sectState e == 4
      | none => false) && s.rd F.CHK_CTRL_UNDECIDED a != 1 && (s.mtxHeld a || s.vecHeld a))
  sus.foldl (fun s a =>
    match s.sectOf a with
    | none => s
    | some e =>
      let s := if s.mtxHeld a then s.openRef a e false else s
      let s := if s.vecHeld a then s.openRef a e true else s
      (s.jobSects (e / 32) (s.jobOf e)).foldl (fun s k =>
        if s.sectState k = 3 then (s.pauseSect k).modSect k (fun x => { x with autoRun := true })
        else s) s) s

end Sys2Proof.Machine
end

