-- ==== Sys2Proof/Machine/Schedule.lean ====
section
/-! DEFINITION. Steps 3 and 4 of the pitch boundary (R31, R32): failures, fences and retirements, configuration halts,
the stall watchdog, relocation and health pauses; then removals, activations and grants, preemptions and resumes,
completions, starts, prefetches, and domains. -/

namespace Sys2Proof.Machine

/-! ### Step 3: failures and configuration halts -/

/-- Every entry of the section table that holds an open section, in ascending order. -/
def State.allOpen (s : State) : List Nat :=
  (List.range 512).filter (fun e => (s.sectX? e).isSome && decide (1 ≤ s.sectState e) && decide (s.sectState e ≤ 6))

/-- Failures set in the pitch take effect, the first cause of each job standing (R31, R34, R200). -/
def State.takeFails (s : State) : State :=
  let l := s.hut.fails
  let s := s.modHut (fun h => { h with fails := [] })
  l.foldl (fun s f => match f.only with
    | some e => if s.sectState e = 1 then s.failSect e f.cls f.code f.detail else s
    | none => s.failJob f.part f.job f.cls f.code f.detail) s

/-- A Running or Paused section with a double-bit configuration error (R361, R388). -/
def State.configHalt (s : State) (e a : Nat) (x : SectX) : State :=
  let most := s.rd F.HUT_HEALTH_CTRL_REARM_MAX
  if most ≠ 0 ∧ x.rearms ≥ most then s.failJob (e / 32) (s.jobOf e) 0x20 8
  else
    let auto := most != 0 && !x.img.ext.any (fun r => r.rd && r.wr)
    (s.haltSect e 8).modSect e (fun x => { x with autoArm := auto, haltSite := a })

/-- The frames of one site of an Armed section written again from cycle 64 (R361). -/
def State.rewriteSite (s : State) (e a : Nat) (x : SectX) : State :=
  let (c, r) := s.origin e
  let l := ((x.img.rec? (x.img.homeOf c r a)).map SiteRec.frames).getD []
  let at_ := s.pitchStart + 64
  let s := s.wr F.HUT_SECT_BUSY 0 e 1
  s.modSect e (fun x => { x with framesLeft := List.append x.framesLeft l, framesDone := false, startAt := at_,
                                 phase := if x.phase == .loading then .loading else .powering })

/-- Sites with a double-bit configuration error halt (R144, R361). -/
def State.takeConfigHalts (s : State) : State :=
  let l := dedup s.hut.cfgHalts
  let s := s.modHut (fun h => { h with cfgHalts := [] })
  l.foldl (fun s a => match s.sectOf a with
    | none => s
    | some e => match s.sectX? e with
      | none => s
      | some x => match s.sectState e with
        | 2 => s.rewriteSite e a x
        | 3 => s.configHalt e a x
        | 4 => s.configHalt e a x
        | _ => s) s

/-! ### The stall watchdog (R175, R176) -/

/-- The kind and identifier of a hold that makes a pitch stalled (R175). -/
def State.stallOf (s : State) (a : Nat) : Option (Nat × Nat) :=
  if (s.seq a).issuedPitch then none
  else match s.headAtt a with
    | .hold 4 _ =>
      -- a vector instruction that is not admissible in the last cycle is held by its queue conditions too when they fail
      (s.headInstr a).bind (fun i =>
        if i.isMatrix then none else (vecQueueHold s a i).map (fun q => (1, qid a q)))
    | .hold k id =>
      if k = 1 ∨ ((k = 2 ∨ k = 3) ∧ s.rd F.SEQ_WDOG_ALL a = 1) then some (k, id) else none
    | _ => none

/-- The stalls of the sites of Running sections, as seen in the last cycle of a pitch. -/
def State.stalls (s : State) : List (Nat × Option (Nat × Nat)) :=
  ((s.sites.filter (fun x => s.running x.1)).map Prod.fst).map (fun a => (a, s.stallOf a))

/-- The pitch just ended is judged at one site (R175, Table 05-18). -/
def State.judgeStall (s : State) (a : Nat) (v : Option (Nat × Nat)) : State :=
  match v with
  | some (k, id) =>
    (s.wr F.SEQ_WDOG_COUNT a 0 (min 255 (s.rd F.SEQ_WDOG_COUNT a + 1))).wrs a 0
      [(F.SEQ_WAIT_KIND, k), (F.SEQ_WAIT_PC, (s.seq a).pc), (F.SEQ_WAIT_ID, id)]
  | none => (s.wr F.SEQ_WDOG_COUNT a 0 0).wr F.SEQ_WAIT_KIND a 0 0

/-- Whether the watchdog of a site has reached its limit (R176). -/
def State.stalledOut (s : State) (a : Nat) : Bool :=
  s.rd F.SEQ_WDOG_LIMIT a != 0 && decide (s.rd F.SEQ_WDOG_COUNT a ≥ s.rd F.SEQ_WDOG_LIMIT a)

/-- The job of a stalled site halts, with one report for each of its held sites (R176, Table 16-8). -/
def State.haltStalled (s : State) (a : Nat) : State :=
  match s.sectOf a with
  | none => s
  | some e =>
    if !s.running a || !s.stalledOut a then s
    else
      let p := e / 32
      let l := (s.jobSects p (s.jobOf e)).filter (fun k => s.sectState k == 3)
      let held := l.flatMap (fun k => ((s.regionSites k).filter (fun b => s.rd F.SEQ_WDOG_COUNT b != 0)).map (fun b => (k, b)))
      let s := l.foldl (fun s k => s.haltSect k 12) s
      held.foldl (fun s x => s.event (s.ofTenant (s.tenantOf p)) 2
        [x.1 % 32, x.2, s.rd F.SEQ_WAIT_ID x.2, s.rd F.SEQ_WAIT_KIND x.2]) s

/-- The watchdog at step 3. -/
def State.takeStalls (s : State) (l : List (Nat × Option (Nat × Nat))) : State :=
  let s := l.foldl (fun s x => if s.running x.1 then s.judgeStall x.1 x.2 else s) s
  l.foldl (fun s x => s.haltStalled x.1) s

/-- STALL_WATCHDOG (R176): the halt at a site whose count has reached LIMIT, at a boundary (R31, step 3). -/
def execStallWatchdog (site : SiteId) (s : State) : Host.Outcome State Fault Refusal :=
  .next (if s.cycle = 0 then s.haltStalled site.toNat else s)

/-! ### Relocation (R385 to R387) -/

/-- The row a section is to stand at next. -/
def State.rowNext (s : State) (e : Nat) (x : SectX) : Nat := x.newRow.getD (s.rd F.HUT_SECT_ORG_ROW 0 e)

/-- Whether a section is affected by the Spurs fenced and the links marked at this step (R386). -/
def State.affected (s : State) (fenced : List Nat) (marks : List (Nat × Dir)) (e : Nat) (x : SectX) : Bool :=
  let c := s.rd F.HUT_SECT_ORG_COL 0 e
  let r := s.rowNext e x
  x.img.sites.any (fun y => fenced.contains (x.img.moved c r y.site)) ||
  marks.any (fun m => x.img.conns.any (fun k => (x.img.connLinks c r k).contains m) ||
    (x.newRow.isNone && s.usesLink e x m.1 m.2))

/-- The state with links taken as retired, for the checks of a relocation. -/
def State.withRetired (s : State) (marks : List (Nat × Dir)) : State :=
  marks.foldl (fun s m =>
    let s := s.setLink m.1 m.2 2
    match neighbour m.1 m.2 with
    | some b => s.setLink b m.2.opp 2
    | none => s) s

/-- The candidate row closest to the present one, the lower on a tie (R386). -/
def State.relocRow (s : State) (marks : List (Nat × Dir)) (reserved : List Nat) (e : Nat) (x : SectX) : Option Nat :=
  let c := s.rd F.HUT_SECT_ORG_COL 0 e
  let r0 := s.rowNext e x
  let t := s.withRetired marks
  let ok (r : Nat) : Bool :=
    decide (r < 16) && (t.checkPlace (e / 32) e x.img c r (some c)).isNone &&
    (x.img.region c r).all (fun a => !reserved.contains a &&
      (match s.sectOf a with
        | some k => !s.live k
        | none => true))
  ((List.range 16).flatMap (fun d => if d ≤ r0 then [r0 - d, r0 + d] else [r0 + d])).find? ok

/-- A load, restore or re-arm under way given up: the region is let go of. -/
def State.abortLoad (s : State) (e : Nat) : State :=
  match s.sectX? e with
  | none => s
  | some x =>
    if x.phase = .none then s
    else
      let s := if s.sectState e = 6 then s else s.releaseRegion e
      let s := (s.wr F.HUT_SECT_BUSY 0 e 0).modSect e (fun x =>
        { x with phase := .none, framesLeft := [], restoring := false, autoArm := x.autoArm || s.sectState e == 6 })
      if s.sectState e = 1 ∨ s.sectState e = 5 then s.markRunnable e else s

/-- Halves bound for a section at its origin (R197), and its frames staged for them (R484). -/
def State.bindAt (s : State) (e : Nat) : State :=
  match s.sectX? e with
  | none => s
  | some x =>
    let (c, r) := s.origin e
    let l := (s.bindHalves e x.img c r).map (fun h => (h.1, h.2.getD 0))
    (s.modSect e (fun x => { x with halves := l, pfStarted := [] })).stageFrames e

/-- The effect of a relocation by the section's state (Table 14-3). -/
def State.moveTo (s : State) (e r : Nat) : State :=
  match s.sectState e with
  | 1 => (((s.stopPrefetch e).abortLoad e).wr F.HUT_SECT_ORG_ROW 0 e r).bindAt e
  | 2 =>
    let s := (s.releaseRegion e).modSect e (fun x =>
      { x with phase := .none, framesLeft := [], saved := [], savedBars := [], held := false, restoring := false })
    let s := (((s.wrs 0 e [(F.HUT_SECT_BUSY, 0), (F.HUT_SECT_ORG_ROW, r)]).setSect e 1).bindAt e)
    s.markRunnable e
  | 3 => (s.pauseSect e).modSect e (fun x => { x with newRow := some r, autoRun := true })
  | 4 => s.modSect e (fun x => { x with newRow := some r, autoRun := true, movedAt := some s.cycles })
  | 5 => (s.abortLoad e).wr F.HUT_SECT_ORG_ROW 0 e r
  | 6 => (s.abortLoad e).modSect e (fun x => { x with newRow := some r })
  | _ => s

/-- Affected sections take new origins in ascending entry; a job without one fails (R386). -/
def State.relocateAll (s : State) (fenced : List Nat) (marks : List (Nat × Dir)) : State :=
  if fenced.isEmpty && marks.isEmpty then s
  else (s.allOpen.foldl (fun (acc : State × List Nat) e =>
    let (s, reserved) := acc
    match s.sectX? e with
    | none => acc
    | some x =>
      if !(decide (1 ≤ s.sectState e) && decide (s.sectState e ≤ 6)) || !s.affected fenced marks e x then acc
      else match s.relocRow marks reserved e x with
        | none => (s.failJob (e / 32) (s.jobOf e) 0x20 6, reserved)
        | some r =>
          ((s.count C.HUT_CNT_RELOCATE).moveTo e r,
           List.append reserved (x.img.region (s.rd F.HUT_SECT_ORG_COL 0 e) r))) (s, [])).1

/-- Marked links over which no Armed, Running or Paused section has a circuit are retired (R376). -/
def State.retireLinks (s : State) : State :=
  let l := (s.regs.filter (fun x => x.1.reg == .TRV_LINK_STATE)).map (fun x => x.1.a)
  l.foldl (fun s a => allDirs.foldl (fun s d =>
    if s.linkState a d = 1 ∧
        !s.hut.sects.any (fun x => decide (2 ≤ s.sectState x.1) && decide (s.sectState x.1 ≤ 4) && s.usesLink x.1 x.2 a d)
    then (s.setLink a d 2).record 4 (4 * a + d.num) true [2] else s) s) s

/-- Spurs that are fenced. -/
def State.fencedNow (s : State) : List Nat := ((List.range 192).filter (fun n => s.rd F.HUT_SPUR_HEALTH_STATE 0 n == 3))

/-- Whether state on a Fenced Spur still awaits saving: its core goes OFF once that is done (R385). -/
def State.awaitsSave (s : State) (a : Nat) : Bool :=
  s.siteUsed a && (match s.sectOf a with
    | some e => s.sectState e == 4
    | none => false)

/-- A fence taken into effect: the router domain is ON (R37), and the core domain goes OFF unless state on the Spur awaits saving
(R38, R385). -/
def State.fenceOff (s : State) (n : Nat) : State :=
  let a := siteOfSpur n
  let s := (s.count C.HUT_CNT_FENCE).domOn 1 a
  if s.awaitsSave a then s else s.domOff 0 a

/-- Step 3 (Table 01-6): `stalls` as the last cycle of the pitch showed them. -/
def State.healthActions (s : State) (stalls : List (Nat × Option (Nat × Nat))) : State :=
  let s := s.takeFails
  let was := s.fencedNow
  let s := s.hut.refs.foldl (fun s r => s.settleReferee r) s
  let l := s.hut.failedTests
  let s := (s.modHut (fun h => { h with failedTests := [] }))
  let s := l.foldl (fun s n => s.confirmFault n 5) s
  let new := s.fencedNow.filter (fun n => !was.contains n)
  let s := (s.takeConfigHalts).takeStalls stalls
  let marks := s.hut.marks.filterMap (fun m => (allDirs.find? (fun d => d.num == m.2)).map (fun d => (m.1, d)))
  let s := s.modHut (fun h => { h with marks := [] })
  let s := s.relocateAll (new.map siteOfSpur) marks
  let s := new.foldl (fun s n => s.fenceOff n) s
  s.retireLinks.pauseSuspects

/-! ### Step 4: partitions, grants and referees -/

/-- A removal takes effect (R318): barriers, grants and section table entries are freed, and a Wanan job between two commands goes with
them. -/
def State.removePart (s : State) (p : Nat) : State :=
  let rows := (List.range (s.rd F.HUT_PART_NROW 0 p)).map (· + s.rd F.HUT_PART_ROW0 0 p)
  let s := (List.range 64).foldl (fun s b =>
    if s.rd F.COL_BAR_ACTIVE 0 b = 1 ∧ s.rd F.COL_BAR_OWNER 0 b = p then s.wr F.COL_BAR_ACTIVE 0 b 0 else s) s
  let s := (List.range 4).foldl (fun s k => s.wrs 0 (4 * p + k)
    [(F.HUT_GRANT_STATUS, 0), (F.HUT_GRANT_ZEROING, 0), (F.HUT_GRANT_SIZE, 0), (F.HUT_GRANT_BASE, 0)]) s
  let l := (s.hut.sects.map Prod.fst).filter (fun e => e / 32 == p)
  let s := l.foldl (fun s e => ((s.stopPrefetch e).endSect e).setWord .HUT_SECT 0 e 0) s
  let s := (s.abandonDigest p).modHut (fun h => { h with sects := h.sects.filter (fun x => x.1 / 32 != p), digDue := h.digDue.filter (fun x => x.1 != p),
                                                         digSets := h.digSets.filter (fun x => x.1 / 65536 != p),
                                                         wanan := adel h.wanan p })
  let s := s.wrs 0 p [(F.HUT_PART_ACTIVE, 0), (F.HUT_PART_STATUS, 0)]
  s.routersOff (rows.flatMap (fun r => (List.range 16).map (fun c => siteAt c r)))

/-- The sites of the rows of a partition to be created. -/
def PartOps.rows (o : PartOps) : List Nat :=
  ((List.range o.nrow.toNat).map (· + o.row0.toNat)).flatMap (fun r => (List.range 16).map (fun c => siteAt c r))

/-- A partition becomes ACTIVE, its sites' registers at their reset values (R317). -/
def State.activate (s : State) (o : PartOps) : State :=
  let p := o.p.toNat
  let s := s.wrs 0 p [(F.HUT_PART_ACTIVE, 1), (F.HUT_PART_STATUS, 0), (F.HUT_PART_TENANT, o.tenant.toNat), (F.HUT_PART_AUTO, 0),
    (F.HUT_PART_CB0, o.cb0.toNat), (F.HUT_PART_NCB, o.ncb.toNat), (F.HUT_PART_ROW0, o.row0.toNat), (F.HUT_PART_NROW, o.nrow.toNat)]
  let s := s.setWord .HUT_TRAIN 0 p 0
  (allSites.filter (fun a => s.partHolds p a)).foldl (fun s a => s.rearm a) s

/-- Granules of a run in group k, as 768 × k + granule. -/
def granulesOf (k base size : Nat) : List Nat := (List.range size).map (fun i => 768 * k + base + i)

/-- Whether a request is a grant of partition p in group k that is being zeroed. -/
def PartReq.zeroingOf (p k : Nat) : PartReq → Bool
  | .grant a b _ _ z _ => a == p && b == k && z
  | _ => false

/-- ZEROING of a grant: some pending grant of the partition in the group is being zeroed (R321, Table 12-5). -/
def State.settleZeroing (s : State) (p k : Nat) : State :=
  s.wr F.HUT_GRANT_ZEROING 0 (4 * p + k) (s.hut.parts.any (fun q => q.zeroingOf p k)).toNat

/-- Whether a run of granules meets the grant of another partition, in force or requested, or the Hut's granule (R320). -/
def State.grantMeets (s : State) (p k base size : Nat) : Bool :=
  let meets (b n : Nat) : Bool := decide (base < b + n) && decide (b < base + size)
  (k == 0 && meets 0 1) ||
  (List.range 16).any (fun q => q != p && s.rd F.HUT_PART_ACTIVE 0 q == 1 &&
    meets (s.rd F.HUT_GRANT_BASE 0 (4 * q + k)) (s.rd F.HUT_GRANT_SIZE 0 (4 * q + k))) ||
  s.hut.parts.any (fun r => match r with
    | .grant q j b n _ _ => q != p && j == k && meets b n
    | _ => false)

/-- Whether a grant would leave outside it a range of a section that is not Done or Failed: an external range, a save area or
staged frames (R320). -/
def State.grantLeaves (s : State) (p k base size : Nat) : Bool :=
  let lo := k * groupSize + base * 0x10000000
  let hi := lo + size * 0x10000000
  (s.openSects p).any (fun e => match s.sectX? e with
    | none => false
    | some x => ((s.sectRanges e x).filter (fun y => groupOf y.1 == k)).any (fun y => !(decide (lo ≤ y.1) && decide (y.1 + y.2 ≤ hi))))

/-- The refusal of a grant (R320), as HUT_GRANT.STATUS and command status. -/
def State.grantRefusal (s : State) (p k base size : Nat) : Option (Nat × Nat) :=
  if s.grantMeets p k base size then some (1, stGrantOverlap)
  else if !s.memReady ∨ base + size > 16 * s.liveChans k ∨ [1, 2, 4].contains (s.groupState k) then some (2, stGrantRange)
  else if s.grantLeaves p k base size then some (3, stGrantBusy)
  else none

/-- A grant takes effect (R321), unless what R320 refuses has come about since its request (log entry 100). -/
def State.takeGrant (s : State) (p k base size : Nat) (c : Ctx) : State :=
  match s.grantRefusal p k base size with
  | some (st, code) => ((s.wr F.HUT_GRANT_STATUS 0 (4 * p + k) st).settleZeroing p k).status c opGrant code
  | none =>
    let t := s.tenantOf p
    let s := s.wrs 0 (4 * p + k) [(F.HUT_GRANT_STATUS, 0), (F.HUT_GRANT_SIZE, size), (F.HUT_GRANT_BASE, base)]
    let s := s.modHut (fun h => { h with lastOwner := (granulesOf k base size).foldl (fun m g => aput m g t) h.lastOwner })
    (s.settleZeroing p k).ok c opGrant

/-- Kinds of pending requests. -/
def PartReq.isRemove : PartReq → Bool
  | .remove _ _ => true
  | _ => false
def PartReq.isGrant : PartReq → Bool
  | .grant _ _ _ _ _ _ => true
  | _ => false

/-- The pending requests that pass a test. -/
def State.keepParts (s : State) (f : PartReq → Bool) : State := s.modHut (fun h => { h with parts := h.parts.filter f })

/-- Pending removals, then creations, then grants, at step 4; those that wait on are kept. -/
def State.takeParts (s : State) : State :=
  let l := s.hut.parts
  let keep (s : State) (q : PartReq) : State := s.modHut (fun h => { h with parts := List.append h.parts [q] })
  let s := l.foldl (fun s q => match q with
    | .remove p c => (s.removePart p).ok c opPartRemove
    | _ => s) (s.keepParts (fun q => !q.isRemove))
  let s := l.foldl (fun s q => match q with
    | .create o c =>
      if o.rows.all (fun a => s.dom 1 a == 0) then (s.activate o).ok c opPartCreate
      else keep (o.rows.foldl (fun s a => s.domOn 1 a) s) q
    | _ => s) (s.keepParts PartReq.isGrant)
  l.foldl (fun s q => match q with
    | .grant p k b n z c =>
      if s.rd F.HUT_PART_ACTIVE 0 p ≠ 1 then s.status c opGrant stNotFound
      else if z then (keep s q).settleZeroing p k
      else s.takeGrant p k b n c
    | _ => s) (s.keepParts (fun q => !q.isGrant))

/-- Referees at step 4 (R354, R355). -/
def State.takeReferees (s : State) : State :=
  let s := s.hut.refs.foldl (fun s r => s.runReferee r) s
  (s.hut.refs.foldl (fun s r => s.chooseReferee r) s).countRefWait

/-! ### Step 4: requests of the host -/

/-- Whether a section of a job halted at this boundary: the job takes no part in steps 4 to 6 (R32). -/
def State.jobOut (s : State) (p job : Nat) : Bool :=
  (s.jobSects p job).any (fun k => s.sectState k == 6 && (match s.sectX? k with
    | some x => x.since == s.cycles
    | none => false))

/-- A host or automatic preemption of one section (R331). It has no effect on one that is Paused already, but that one paused or relocated
at this boundary is not to run again of itself (R335, R387). -/
def State.preemptSect (s : State) (e : Nat) : State :=
  let busy := ((s.sectX? e).map (fun x => x.phase != .none)).getD false
  match s.sectState e with
  | 3 => (s.pauseSect e).count C.HUT_ACCT_PREEMPT (s.tenantOf (e / 32))
  | 4 => s.modSect e (fun x => { x with autoRun := x.autoRun && x.since != s.cycles && x.movedAt != some s.cycles })
  | 2 => s.modSect e (fun x => { x with held := true })
  | 6 => if busy then s.modSect e (fun x => { x with held := true }) else s
  | _ =>
    if busy then s.modSect e (fun x => { x with held := true })
    else (s.wr F.HUT_SECT_RUNNABLE 0 e 0).modSect e (fun x => { x with autoRun := false })

/-- A preemption of a Wanan job: at once when no command is in progress, else it waits (R337). -/
def State.preemptWanan (s : State) (p : Nat) (w : WananX) (c : Ctx) : State :=
  let put (s : State) (w : WananX) : State := s.modHut (fun h => { h with wanan := aput h.wanan p w })
  if w.busy then (put s { w with preempt := some c }).count C.HUT_ACCT_WDELAY (s.tenantOf p)
  else ((put s { w with stopped := true, preempt := none }).count C.HUT_ACCT_PREEMPT (s.tenantOf p)).ok c opPreempt

/-- PREEMPT at step 4 (R331, R337). -/
def State.takePreempt (s : State) (p job : Nat) (c : Ctx) : State :=
  match aget s.hut.wanan p with
  | some w => if w.job = job then s.preemptWanan p w c
    else ((s.jobSects p job).foldl (fun s e => s.preemptSect e) s).ok c opPreempt
  | none => ((s.jobSects p job).foldl (fun s e => s.preemptSect e) s).ok c opPreempt

/-- A Halted section re-armed: its region is loaded from the staged frames, at its new origin if it has one (R336, R388).
`none` when the new region is not free, or a Tarn of it offers no half (R197). -/
def State.rearmHalted (s : State) (e : Nat) (x : SectX) : Option State :=
  match x.newRow with
  | none => some (s.beginLoad e false)
  | some r =>
    let c := s.rd F.HUT_SECT_ORG_COL 0 e
    let t := (s.releaseRegion e).wr F.HUT_SECT_ORG_ROW 0 e r
    if (x.img.region c r).all (fun a => (t.sectOf a).isNone && !t.isReferee a) && (t.bindHalves e x.img c r).all (fun h => h.2.isSome)
    then some ((t.bindAt e).beginLoad e false) else none

/-- RESUME at step 4 (R336, R387); `none` leaves the request for the next boundary. -/
def State.takeResume (s : State) (e prio row : Nat) (c : Ctx) : Option State :=
  match s.sectX? e with
  | none => some (s.status c opResume stNotFound)
  | some x =>
    if s.jobOut (e / 32) (s.jobOf e) then none
    else match s.sectState e with
      | 4 =>
        if x.newRow.isNone && !s.refPending e then some ((s.resumePaused e).ok c opResume)
        else some (((s.wr F.HUT_SECT_PRIO 0 e prio).modSect e (fun x => { x with autoRun := true })).ok c opResume)
      | 5 =>
        if x.phase ≠ .none then some (s.status c opResume stNotFound)
        else some (((s.wrs 0 e [(F.HUT_SECT_PRIO, prio), (F.HUT_SECT_ORG_ROW, row)]).markRunnable e).ok c opResume)
      | 2 =>
        if x.held then some ((s.modSect e (fun x => { x with held := false })).ok c opResume)
        else some (s.status c opResume stNotFound)
      | 6 =>
        if x.phase ≠ .none then some (s.status c opResume stNotFound)
        else (s.rearmHalted e x).map (fun s => (s.modSect e (fun x => { x with autoArm := false })).ok c opResume)
      | _ => some (s.status c opResume stNotFound)

/-- The host's preemptions and resumes that take effect at this boundary. -/
def State.takeBounds (s : State) : State :=
  let l := s.hut.bounds
  let s := s.modHut (fun h => { h with bounds := [] })
  let keep (s : State) (q : BoundReq) : State := s.modHut (fun h => { h with bounds := List.append h.bounds [q] })
  l.foldl (fun s q => match q with
    | .preempt p job c => if s.jobOut p job then keep s q else s.takePreempt p job c
    | .resume e prio row c => (s.takeResume e prio row c).getD (keep s q)) s

/-- A preemption of a Wanan job that waited for its command (R337). -/
def State.takeWanan (s : State) : State :=
  s.hut.wanan.foldl (fun s y => match y.2.preempt with
    | some c => if s.jobOut y.1 y.2.job then s else s.preemptWanan y.1 y.2 c
    | none => s) s

/-- Whether a domain is used by an Armed, Running, Paused or Halted section (R39). -/
def State.domUsed (s : State) (d : DomKind) (a : Nat) : Bool :=
  match s.sectOf a with
  | none => false
  | some e => s.live e && (match d with
    | .tier n => match s.sectX? e with
      | some x => x.halves.any (fun h => h.1 == a && (halfTiers h.2).contains n.toNat)
      | none => false
    | _ => true)

/-- Whether R39 lets an action (0 ON, 1 RETAIN, 2 OFF) on a domain stand: no live section uses it, and R37 does not require the
router it would turn off. -/
def State.domFree (s : State) (d : DomKind) (a act : Nat) : Bool :=
  !s.domUsed d a && !(d == .router && act != 0 && s.routerNeeded a)

/-- One domain command of the host taking effect (R35, R39, Table 01-11): what has become busy since is left as it is. A domain
that the host switches ON or into RETAIN is kept so until a section has used its site, or the host switches it OFF (log entry
24). -/
def State.takeDomain (s : State) (q : DomKind × Nat × Nat) : State :=
  let (k, a, act) := q
  if !s.domFree k a act then s.wr F.PWR_DOMAIN_CMD_STATUS 0 0 2
  else
    let s := (s.modHut (fun h => { h with hostDoms := h.hostDoms.filter (fun d => d != (k.num, a)) })).wr F.PWR_DOMAIN_CMD_STATUS 0 0 0
    let keep (s : State) : State := s.modHut (fun h => { h with hostDoms := (k.num, a) :: h.hostDoms })
    match act with
    | 0 => keep (s.domOn k.num a)
    | 1 => keep (s.domRetain k.num a)
    | _ => s.domOff k.num a

/-- The host's domain commands, in the order of their writing. -/
def State.takeDomains (s : State) : State :=
  let l := s.domPend
  l.foldl (fun s q => s.takeDomain q) { s with domPend := [] }

/-! ### Step 4: completions and starts -/

/-- The digest ranges of a partition's scheduled digests, due and in progress (R310, R311). -/
def State.digRanges (s : State) (p : Nat) : List (Nat × Nat) :=
  let due := (s.hut.digDue.filter (fun x => x.1 == p)).flatMap (fun x => (aget s.hut.digSets (p * 65536 + x.2)).getD [])
  match aget s.hut.digs p with
  | some d => if d.scheduled then List.append d.ranges due else due
  | none => due

/-- Whether an update section writes a range that a scheduled digest of its partition reads (R311). -/
def State.digWaits (s : State) (e : Nat) (x : SectX) : Bool :=
  let l := s.digRanges (e / 32)
  x.update && s.rd F.HUT_TRAIN_DIG_PEND 0 (e / 32) == 1 &&
  x.img.ext.any (fun r => r.wr && l.any (fun y => overlaps (x.slotBase.getD r.slot 0 + r.off) r.len y.1 y.2))

/-- An Armed section at step 4 (R34, R311, R328, R361). -/
def State.runIfArmed (s : State) (e : Nat) : State :=
  match s.sectX? e with
  | none => s
  | some x =>
    if s.sectState e ≠ 2 ∨ x.held ∨ x.phase ≠ .none ∨ s.refPending e ∨ s.jobOut (e / 32) (s.jobOf e) then s
    else if s.digWaits e x then s.count C.HUT_CNT_DIGWAIT (e / 32)
    else s.runSect e

/-- An automatic re-arm, at the first boundary after the halt (R388, Table 14-7). -/
def State.rearmAuto (s : State) (e : Nat) : State :=
  match s.sectX? e with
  | none => s
  | some x =>
    if s.sectState e ≠ 6 ∨ !x.autoArm ∨ x.phase ≠ .none ∨ s.jobOut (e / 32) (s.jobOf e) then s
    else match s.rearmHalted e x with
      | none => s
      | some s =>
        if s.sectState e ≠ 6 then s
        else
          let s := s.modSect e (fun x => { x with autoArm := false, rearms := x.rearms + 1 })
          (s.count C.HUT_CNT_REARM).record 7 x.haltSite false [s.jobOf e, x.rearms + 1]

/-- The sites of a section's region, at its origin. -/
def State.regionAt (s : State) (e : Nat) (x : SectX) : List Nat :=
  let (c, r) := s.origin e
  x.img.region c r

/-- Condition 1 of R326. -/
def State.afterDone (s : State) (e : Nat) : Bool :=
  s.rd F.HUT_SECT_AFTER_EN 0 e == 0 || s.sectState (32 * (e / 32) + s.rd F.HUT_SECT_AFTER 0 e) == 7

/-- Condition 2 of R326, with R382 and R354: no section or referee holds a site, no used Spur is Suspect or Fenced. -/
def State.regionFree (s : State) (e : Nat) (x : SectX) : Bool :=
  (s.regionAt e x).all (fun a => (s.sectOf a).isNone && !s.isReferee a) &&
  (s.usedSites e x.img).all (fun a => !isSpur a || s.health a == 0 || s.health a == 2)

/-- The prefetch programs of a section that stand on a thread that their Tarn reserves, each with its Tarn (R198, R200). -/
def State.pfProgs (s : State) (e : Nat) (x : SectX) : List (Nat × PfProg) :=
  let (c, r) := s.origin e
  (x.img.prefetch.map (fun f => (x.img.moved c r f.site, f))).filter (fun y => s.isPf y.1 y.2.thread)

/-- The Tarns of a section on which its prefetch is not finished: it has not started, or DONE is not set (R200). -/
def State.pfWaits (s : State) (e : Nat) (x : SectX) : List Nat :=
  let l := (s.pfProgs e x).map Prod.fst
  (s.regionAt e x).filter (fun a => isTarn a && (s.rd F.TRN_PF_STATUS_DONE a != 1 || (l.contains a && !x.pfStarted.contains a)))

/-- Condition 3 of R326: the prefetch done on every Tarn of the region. -/
def State.pfReady (s : State) (e : Nat) (x : SectX) : Bool := s.sectState e == 5 || (s.pfWaits e x).isEmpty

/-- Whether an automatic preemption applies: every section on the region is Running with a greater PRIO (R327), and none is of a job
that halted at step 3 of this boundary (R32). -/
def State.autoVictims (s : State) (e : Nat) (x : SectX) : Option (List Nat) :=
  let l := dedup ((s.regionAt e x).filterMap (fun a => s.sectOf a))
  let clear := (s.regionAt e x).all (fun a => !s.isReferee a) &&
    (s.usedSites e x.img).all (fun a => !isSpur a || s.health a == 0 || s.health a == 2)
  if s.rd F.HUT_PART_AUTO 0 (e / 32) = 1 ∧ clear ∧ l ≠ [] ∧
      l.all (fun k => s.sectState k == 3 && decide (s.rd F.HUT_SECT_PRIO 0 k > s.rd F.HUT_SECT_PRIO 0 e) &&
        !s.jobOut (k / 32) (s.jobOf k)) then some l
  else none

/-- A Saved section made ready for its restore: steps 6 and 7 again, and the halves bound (R336). The group slots keep the
bases they were bound to (R484). -/
def State.readySaved (s : State) (e : Nat) (x : SectX) : Option State :=
  let (c, r) := s.origin e
  match s.checkPlace (e / 32) e x.img c r (some c) with
  | some _ => none
  | none =>
    let l := (s.bindHalves e x.img c r).map (fun h => (h.1, h.2.getD 0))
    some ((s.modSect e (fun x => { x with halves := l })).stageFrames e)

/-- One runnable section at step 4 (R326, R327); `failed` are the regions of those earlier in the order that failed. -/
def State.tryStart (s : State) (failed : List Nat) (e : Nat) : State × List Nat :=
  match s.sectX? e with
  | none => (s, failed)
  | some x =>
    let rg := s.regionAt e x
    let c1 := s.afterDone e
    let c2 := s.regionFree e x
    let c3 := s.pfReady e x
    let c4 := !rg.any (fun a => failed.contains a)
    let c5 := s.sectState e != 5 || !s.refPending e
    let go := if c1 && c2 && c3 && c4 && c5 then
        (if s.sectState e = 5 then s.readySaved e x else some s) else none
    match go with
    | some s => (s.beginLoad e (s.sectState e == 5), failed)
    | none =>
      let s := s.count C.HUT_ACCT_WAIT (s.tenantOf (e / 32))
      let s := if c1 && c2 && c4 && c5 && !c3 then
          (s.pfWaits e x).foldl (fun s a => s.count C.TRN_CNT_PF_WAIT a) s
        else s
      let s := if c1 && c3 && c4 && c5 && !c2 then
          (match s.autoVictims e x with
            | some l => l.foldl (fun s k => s.preemptSect k) s
            | none => s)
        else s
      (s, List.append failed rg)

/-- The order of R326: ascending PRIO, then the order of becoming runnable. -/
def insertBy (key : Nat → Nat × Nat) (e : Nat) : List Nat → List Nat
  | [] => [e]
  | k :: l =>
    let (p, q) := key e
    let (p1, q1) := key k
    if p < p1 ∨ (p = p1 ∧ q < q1) then e :: k :: l else k :: insertBy key e l

/-- The runnable sections of a partition in the order of R326. -/
def State.runnables (s : State) (p : Nat) : List Nat :=
  let l := ((List.range 32).map (· + 32 * p)).filter (fun e =>
    s.rd F.HUT_SECT_RUNNABLE 0 e == 1 && (s.sectState e == 1 || s.sectState e == 5) &&
    (match s.sectX? e with
      | some x => x.phase == .none
      | none => false) && !s.jobOut p (s.jobOf e))
  l.foldr (insertBy (fun e => (s.rd F.HUT_SECT_PRIO 0 e, ((s.sectX? e).map SectX.stamp).getD 0))) []

/-- Starts of every partition. -/
def State.takeStarts (s : State) : State :=
  (List.range 16).foldl (fun s p =>
    ((s.runnables p).foldl (fun (acc : State × List Nat) e => acc.1.tryStart acc.2 e) (s, [])).1) s

/-! ### Step 4: prefetch and domains -/

/-- Whether the reserved threads of a Tarn are IDLE. -/
def State.pfIdle (s : State) (a : Nat) : Bool :=
  (List.range 16).all (fun n => !s.isPf a n || s.strState a n == 0)

/-- Whether a half of a Tarn is free of every live section (R198). -/
def State.halfIdle (s : State) (a h : Nat) : Bool :=
  !(s.halvesBy a (fun x => s.live x)).any (fun y => y == h || y == 2 || h == 2)

/-- One prefetch program loaded and started, with argument 0 (R198, R293; DESIGN CHOICE, log entry 96: the manual names no
argument). -/
def State.pfBegin (s : State) (e : Nat) (x : SectX) (y : Nat × PfProg) : State :=
  let (c, r) := s.origin e
  let (a, f) := y
  let s := s.setWord .TRN_THR a f.thread (RegName.defined .TRN_THR f.desc)
  let new := ((List.range f.words.length).map (fun i =>
    (f.at_ + i, x.img.patch c r x.halves x.slotBase f.site 1 (f.at_ + i) (f.words.getD i 0))))
  let s := s.modSite a (fun y => { y with ag := new.foldl (fun m w => aput m w.1 w.2) y.ag })
  let s := s.wr F.TRN_THR_STATE_CREDITS a f.thread (s.dsc a f.thread F.STR_DESC_DEPTH F.TRN_THR_DEPTH)
  (s.wr F.TRN_PF_STATUS_DONE a 0 0).strStart a f.thread 0 |>.2

/-- Whether a tier of a Tarn holds a byte of a buffer of a Staged or live section (R36). -/
def State.tierUsed (s : State) (a t : Nat) : Bool :=
  s.hut.sects.any (fun y => (s.sectState y.1 == 1 || s.live y.1 || y.2.phase != .none) &&
    (match y.2.halves.find? (fun h => h.1 == a) with
      | none => false
      | some (_, h) =>
        let (c, r) := s.origin y.1
        let b0 := if h = 1 then 0x1000000 else 0
        (y.2.img.siteBufs (y.2.img.homeOf c r a)).any (fun b => overlaps (b0 + b.addr) b.len (t * tierSize) tierSize)))

/-- Whether the prefetch of a Staged section is to start on Tarn `a`: it has programs on reserved threads there, the threads are
IDLE, and the bound half is free of every live section (R198). -/
def State.pfDue (s : State) (e : Nat) (x : SectX) (a : Nat) : Bool :=
  s.sectState e == 1 && x.phase == .none && !x.pfStarted.contains a && (s.pfProgs e x).any (fun y => y.1 == a) &&
  s.pfIdle a && x.halves.all (fun h => h.1 != a || s.halfIdle a h.2)

/-- The prefetch of a Staged section started on one Tarn, or its domains switched ON for it: the core, and the tiers that hold a
buffer (R36, R198). -/
def State.pfStartAt (s : State) (e a : Nat) : State :=
  match s.sectX? e with
  | none => s
  | some x =>
    if !s.pfDue e x a then s
    else
      let ds := (0, a) :: ((List.range 4).filter (fun t => s.tierUsed a t)).map (fun t => (2 + t, a))
      if ds.all (fun d => s.dom d.1 d.2 == 0) then
        (((s.pfProgs e x).filter (fun y => y.1 == a)).foldl (fun s y => s.pfBegin e x y) s).modSect e
          (fun x => { x with pfStarted := a :: x.pfStarted })
      else ds.foldl (fun s d => s.domOn d.1 d.2) s

/-- The prefetch of a Staged section started where it can be (R198). -/
def State.pfStart (s : State) (e : Nat) : State :=
  match s.sectX? e with
  | none => s
  | some x =>
    if s.jobOut (e / 32) (s.jobOf e) then s
    else (dedup ((s.pfProgs e x).map Prod.fst)).foldl (fun s a => s.pfStartAt e a) s

/-! ### Domains that nothing uses (R36 to R38) -/

/-- Whether the core domain of a site is in use: a section holds the site, which is no Fenced Spur or still awaits its save (R38,
R385); a referee or a prefetch works there; or the host commanded it (R39). -/
def State.coreUsed (s : State) (a : Nat) : Bool :=
  ((s.sectOf a).isSome && (!s.isFenced a || s.awaitsSave a)) || s.isReferee a || s.pfBusy a ||
  s.hut.hostDoms.contains (0, a) || (isTarn a && s.hut.sects.any (fun y => s.pfDue y.1 y.2 a))

/-- Whether a tier is in use (R36): it holds a buffer, or the section being loaded binds its half (R328), or the host commanded it
(R39). -/
def State.tierKept (s : State) (a t : Nat) : Bool :=
  s.tierUsed a t || s.hut.hostDoms.contains (2 + t, a) ||
  s.hut.sects.any (fun y => y.2.phase != .none && y.2.halves.any (fun h => h.1 == a && (halfTiers h.2).contains t))

/-- Sites and Tarns with a core or a tier that is not OFF. -/
def State.powered (s : State) (r : RegName) (per : Nat) : List Nat :=
  ((s.regs.filter (fun x => x.1.reg == r)).map (fun x => x.1.i)).flatMap (fun k => (List.range per).map (fun j => per * k + j))

/-- The domains that R36 and R38 have OFF are switched OFF, and the routers of Fenced Spurs are ON (R37); in Bivouac both rules are
suspended (R470). -/
def State.sweepDomains (s : State) : State :=
  if s.rd F.PWR_BIVOUAC_STATE ≠ 0 then s
  else
  let s := (s.powered .PWR_CORE_STATE 32).foldl (fun s a => if s.dom 0 a == 2 || s.coreUsed a then s else s.domOff 0 a) s
  let s := (s.powered .PWR_TIER_STATE 8).foldl (fun s n =>
    (List.range 4).foldl (fun s t =>
      let a := siteOfTarn n
      if s.dom (2 + t) a == 2 || s.tierKept a t then s else s.domOff (2 + t) a) s) s
  s.fencedNow.foldl (fun s n => s.domOn 1 (siteOfSpur n)) s

/-- Step 4 (Table 01-6). -/
def State.scheduleActions (s : State) : State :=
  let s := s.takeParts.takeReferees
  let s := (s.takeWanan.takeBounds).takeDomains
  let s := s.allOpen.foldl (fun s e => if s.sectState e = 3 && s.complete? e && !s.jobOut (e / 32) (s.jobOf e) then s.doneSect e else s) s
  let s := s.allOpen.foldl (fun s e => s.runIfArmed e) s
  let s := s.allOpen.foldl (fun s e => s.rearmAuto e) s
  let s := s.takeStarts
  let s := s.allOpen.foldl (fun s e => s.pfStart e) s
  s.sweepDomains

end Sys2Proof.Machine
end

