-- ==== Sys2Proof/Machine/Tally.lean ====
section
/-! DEFINITION. Tally digests (R310, R312, R364 to R368): their start, leaves, roots and leaf lists, and step 6 of the
pitch boundary. -/

namespace Sys2Proof.Machine

/-- The digest of leaf i over its data bytes (R365). -/
def leafDigest (i : Nat) (data : List Byte) : List Byte :=
  (shake256 (0 :: List.flatten [leBytes i 8, leBytes data.length 4, data])).take 32

/-- The root over a STEP and the leaf digests in order (R365). -/
def rootDigest (step : Nat) (l : List (List Byte)) : List Byte :=
  (shake256 (1 :: List.flatten [leBytes step 8, leBytes l.length 8, l.flatten])).take 32

/-- A digest of a partition starts (R310, R367). -/
def State.startDigest (s : State) (p job : Nat) (ranges : List (Nat × Nat)) (ctx : Option Ctx) : State :=
  let n := (leavesOf ranges).length
  let s := s.wrs 0 p [(F.TAL_DIG_STATE, 1), (F.TAL_DIG_ORIGIN, if ctx.isSome then 1 else 0), (F.TAL_DIG_LEAVES, n), (F.TAL_DIG_DONE, 0)]
  let s := s.wr F.TAL_DIGSTEP_STEP 0 p (s.rd F.HUT_TRAIN_STEP 0 p)
  s.modHut (fun h => { h with digs := aput h.digs p ⟨ranges, job, [], ctx.isNone, ctx⟩ })

/-- The first scheduled digest of a partition that is due and whose job did not halt at this boundary starts, once no other digest of
the partition runs (R32, R310). -/
def State.startDue (s : State) (p : Nat) : State :=
  match s.hut.digDue.find? (fun x => x.1 == p && !s.jobOut p x.2) with
  | none => s
  | some (_, job) =>
    if (aget s.hut.digs p).isSome then s
    else
      let s := s.modHut (fun h => { h with digDue := h.digDue.erase (p, job) })
      (s.startDigest p job ((aget s.hut.digSets (p * 65536 + job)).getD []) none).settlePend p

/-- Step 6 (Table 01-6). -/
def State.digestActions (s : State) : State := (List.range 16).foldl (fun s p => s.startDue p) s

/-- SCHEDULED_DIGEST (R310), at a boundary (R31, step 6). -/
def execScheduledDigest (p : PartNo) (s : State) : Host.Outcome State Fault Refusal :=
  .next (if s.cycle = 0 then s.startDue p.toNat else s)

/-- The lanes that read the leaves of group k: the Tarns of its column in the partition, by Tarn number (R366). -/
def State.lanesOf (s : State) (p k : Nat) : List Nat :=
  ((List.range 64).map siteOfTarn).filter (fun a => s.partHolds p a && groupOfCol (colOf a) == k)

/-- The site whose lane reads leaf i (R366, R367). -/
def State.laneOf (s : State) (p : Nat) (l : List (Nat × Nat)) (i : Nat) : Nat :=
  let x := (l.getD i (0, 0)).1
  if inExt x then
    let k := groupOf x
    let j := ((l.take i).filter (fun y => inExt y.1 && groupOf y.1 == k)).length
    let ts := s.lanesOf p k
    ts.getD (j % max 1 ts.length) 0
  else if inTarn x then siteOfTarn (tarnOf x)
  else saveTarn (siteOfSpur (padSpur x))

/-- The words of a leaf as its lane decodes them (R342): external ones by their controllers, 256 B a time; those of a scratchpad come
over slot 15, asked for by the save Tarn (R366). -/
def State.leafWords (s : State) (x n : Nat) : List RawWord × State :=
  if inExt x then
    s.extReads .couloir x (n / 8)
  else
    let l := (List.range (n / 8)).map (fun i =>
      let (w, p) := s.engineWord (x / 8 + i)
      (⟨w, 0, if p then 3 else 0⟩ : RawWord))
    let a := if inTarn x then siteOfTarn (tarnOf x) else siteOfSpur (padSpur x)
    let s := if inTarn x then s else (s.svcTo (saveTarn a) a 64).svcTo a (saveTarn a) n
    (l, s.noteReads a (if inTarn x then 6 else 1) (siteMem a) x n)

/-- LEAF_READ (R366): a leaf is read and digested; a poisoned word is a commit point, and the digest is abandoned. -/
def execLeafRead (p : PartNo) (i : BitVec 24) (s : State) : Host.Outcome State Fault Refusal :=
  let p := p.toNat
  let i := i.toNat
  .next (match aget s.hut.digs p with
    | none => s
    | some d =>
      let l := leavesOf d.ranges
      let (x, n) := l.getD i (0, 0)
      if i ≥ l.length || (aget d.leaves i).isSome then s
      else
        let (ws, s) := s.leafWords x n
        match ws.findIdx? (fun w => w.poison != 0) with
        | some j => (s.poisonPart p d.job 4 (s.laneOf p l i) (x + 8 * j)).abandonDigest p
        | none =>
          let g := leafDigest i (ws.flatMap (fun w => leBytes w.data.toNat 8))
          let s := (s.wr F.TAL_DIG_DONE 0 p (d.leaves.length + 1)).count C.TAL_CNT_LEAVES
          s.modHut (fun h => { h with digs := aput h.digs p { d with leaves := List.append d.leaves [(i, g)] } }))

/-- The leaf list written, or LIST_ERR set (R368). -/
def State.writeLeafList (s : State) (p : Nat) (l : List (List Byte)) : State :=
  let b := s.rd F.TAL_LIST_BASE 0 p
  if s.rd F.TAL_LIST_EN 0 p = 0 then s
  else if b % 256 = 0 ∧ s.inGrant p b (32 * l.length) then
    (l.zip (List.range l.length)).foldl (fun s y =>
      s.extWrites .hut (b + 32 * y.2) ((List.range 4).map (fun k => ⟨BitVec.ofNat 64 (leNat ((y.1.drop (8 * k)).take 8)), 0, 0⟩))) s
  else s.noteFlag F.TAL_LIST_LIST_ERR 0 p

/-- DIGEST_COMPLETE (R365, R368): the root, and the leaf list where it is wanted; DIG_PEND returns to 0 (R310). -/
def execDigestComplete (p : PartNo) (s : State) : Host.Outcome State Fault Refusal :=
  let p := p.toNat
  .next (match aget s.hut.digs p with
    | none => s
    | some d =>
      let n := (leavesOf d.ranges).length
      if d.leaves.length < n then s
      else
        let l := (List.range n).map (fun i => (aget d.leaves i).getD [])
        let step := s.rd F.TAL_DIGSTEP_STEP 0 p
        let r := rootDigest step l
        let s := (List.range 4).foldl (fun s k =>
          s.wr F.TAL_ROOT_ROOT 0 (4 * p + k) (leNat ((r.drop (8 * k)).take 8))) s
        let s := (s.wr F.TAL_DIG_STATE 0 p 2).writeLeafList p l
        let s := (s.modHut (fun h => { h with digs := adel h.digs p })).settlePend p
        let s := s.event (s.ofTenant (s.tenantOf p)) 7 (step :: (r.take 16).map (fun b => b.toNat))
        match d.ctx with
        | some c => s.ok c opDigestNow
        | none => s)

end Sys2Proof.Machine
end

