-- ==== Sys2Proof/Machine/Health.lean ====
section
/-! DEFINITION. Write-back of corrected words (R342), configuration scrubbing (R359 to R362), self-tests (R33, R383, R384),
the retirement of channels and the re-forming of groups at step 3 (R274 to R277), the health record (R390 to R393) and
the Ethernet lanes (R379 to R381). -/

namespace Sys2Proof.Machine

/-! ### Corrected words (R342) -/

/-- CORRECTED_WRITE_BACK (R342): a word of site SRAM with a correctable error is written back corrected, unless a write to
the word came first. -/
def execCorrectedWriteBack (a : Addr) (written : Bool) (s : State) : Host.Outcome State Fault Refusal :=
  let w := a.toNat / 8
  let sy := mget 0 s.synd w
  .next (if written || !(inPad a.toNat || inTarn a.toNat) || sy = 0 || !correctable sy then s
    else
      let v := corrected sy (s.word64 (8 * w))
      let s := s.putRaw (8 * w) (leBytes v.toNat 8)
      { s with synd := mput 0 s.synd w 0 })

/-! ### Scrubbing (R359 to R362) -/

/-- What the reads of one word come to (R360, R361): nothing, a syndrome read twice, no agreement, uncorrectable twice. -/
inductive ScrubVerdict where
  | clean
  | agreed (sy : Byte)
  | never
  | ue
  deriving DecidableEq, Repr

/-- The verdict from the syndromes of at most four reads, and how many reads it took. `prev` is the read before. -/
def judgeReads (prev : Byte) : List Byte → Nat → ScrubVerdict × Nat
  | [], n => (.never, n)
  | x :: l, n =>
    let bad (y : Byte) : Bool := y != 0 && !correctable y
    if bad prev && bad x then (.ue, n + 1)
    else if prev = x then (if x = 0 then .clean else .agreed x, n + 1)
    else judgeReads x l (n + 1)

/-- The stored syndrome of word W of a site's configuration: 32 × FRAME + its place (Table 15-4). -/
def Site.cfgSynd (x : Site) (w : Nat) : Byte :=
  if w < 2048 then (aget x.progSynd w).getD 0
  else if w < 2560 then (aget x.agSynd (w - 2048)).getD 0
  else 0

/-- A correction applied to a stored word (R360). -/
def Site.cfgCorrect (x : Site) (w : Nat) (sy : Byte) : Site :=
  if w < 2048 then
    { x with prog := aput x.prog w (corrected sy ((aget x.prog w).getD 0)), progSynd := adel x.progSynd w }
  else if w < 2560 then
    let k := w - 2048
    { x with ag := aput x.ag k (corrected sy ((aget x.ag k).getD 0)), agSynd := adel x.agSynd k }
  else x

/-- The frames of a site's configuration (Table 15-4). -/
def siteFrames (a : Nat) : List Nat :=
  (List.range 96).filter (fun f => isTarn a || decide (f < 72) || decide (80 ≤ f))

/-- Sites whose core domain is ON. -/
def State.coresOn (s : State) : List Nat := allSites.filter (fun a => s.dom 0 a == 0)

/-- The majority of three copies (R362). -/
def majority {α : Type} [DecidableEq α] (d : α) (l : List α) : α :=
  let x := l.getD 0 d
  let y := l.getD 1 d
  let z := l.getD 2 d
  if x = y ∨ x = z then x else y

/-- Whether scrubbing is on: the majority of the copies of EN; it stands still in Bivouac (R470). -/
def State.scrubOn (s : State) : Bool := majority false s.cfg.scrubEn && s.rd F.PWR_BIVOUAC_STATE == 0

/-- Whether two copies of a field disagree (R362). -/
def State.voteErr (s : State) : Bool :=
  s.cfg.scrubEn.any (fun x => x != s.cfg.scrubEn.getD 0 false) || s.cfg.scrubRate.any (fun x => x != s.cfg.scrubRate.getD 0 0)

/-- One word as the scrubber reads it; reads not told of show what is stored (R360, R361). -/
def State.scrubWord (s : State) (a w : Nat) (o : List ScrubObs) : State :=
  let stored := (s.site a).cfgSynd w
  let ob := o.find? (fun y => y.word.toNat == w)
  let told := (ob.map ScrubObs.synds).getD []
  let reads := (List.append told (List.replicate 4 stored)).take 4
  match reads with
  | [] => s
  | first :: rest =>
    let (v, n) := if first = 0 then (ScrubVerdict.clean, 1) else judgeReads first rest 1
    let mem := if w < 2560 then 5 else 7
    let ix := if w < 2048 then w else w - (if w < 2560 then 2048 else 2560)
    let s := (reads.take n).foldl (fun s sy => s.noteEcc a mem ix sy) s
    match v with
    | .clean => s
    | .never => s.count C.CFG_CNT_SCRUB_DISAGREE
    | .ue => (s.count C.CFG_CNT_SCRUB_UE).modHut (fun h => { h with cfgHalts := List.append h.cfgHalts [a] })
    | .agreed sy =>
      let after := (ob.map ScrubObs.after).getD 0
      { s with cfg := { s.cfg with corrections := List.append s.cfg.corrections [(a, w, sy.toNat, after.toNat)] } }

/-- The place of the scrubber: the site being scrubbed and its next frame, sites whose core is not ON passed over; and
whether the pass is over (R359). -/
def State.scrubPlace (s : State) : Option (Nat × Nat × Bool) :=
  let a := s.rd F.CFG_SCRUB_STATUS_SITE
  let on := s.coresOn
  match on.find? (fun b => decide (a ≤ b)) with
  | some b => some (b, if b = a then s.cfg.scrubFrame else 0, false)
  | none => on.head?.map (fun b => (b, 0, true))

/-- SCRUB_FRAME_READ (R359 to R361): the next frame is read back over slot 15; corrections wait for step 7. -/
def execScrubFrameRead (frame : BitVec 7) (o : List ScrubObs) (s : State) : Host.Outcome State Fault Refusal :=
  .next (match s.scrubPlace with
    | none => s
    | some (a, f, wrapped) =>
      if !s.scrubOn || frame.toNat != f then s
      else
        let s := if wrapped then s.count C.CFG_CNT_SCRUB_PASS else s
        let s := s.svcOut a 256
        let s := (List.range 32).foldl (fun s k => s.scrubWord a (32 * f + k) o) s
        let s := s.wrs 0 0 [(F.CFG_SCRUB_STATUS_HEARTBEAT, (s.rd F.CFG_SCRUB_STATUS_HEARTBEAT + 1) % 2 ^ 32)]
        let put (s : State) (b f : Nat) : State :=
          let s := s.wr F.CFG_SCRUB_STATUS_SITE 0 0 b
          { s with cfg := { s.cfg with scrubFrame := f } }
        match (siteFrames a).find? (fun g => decide (f < g)) with
        | some g => put s a g
        | none => match s.coresOn.find? (fun b => decide (a < b)) with
          | some b => put s b 0
          | none => put (s.count C.CFG_CNT_SCRUB_PASS) (s.coresOn.headD 0) 0)

/-- A correction at step 7, and the scrubber's re-read after it (R360). -/
def State.applyCorrection (s : State) (q : Nat × Nat × Nat × Nat) : State :=
  let (a, w, n, m) := q
  let sy := BitVec.ofNat 8 n
  let after := BitVec.ofNat 8 m
  if after = sy then (s.count C.CFG_CNT_SCRUB_STUCK).record 6 a false [1, w]
  else
    let s := if (s.site a).cfgSynd w = sy then s.modSite a (fun x => x.cfgCorrect w sy) else s
    if after = 0 ∧ (s.site a).cfgSynd w = 0 then s.count C.CFG_CNT_SCRUB_FIX else s

/-- Every correction sent since the last boundary (R31 step 7). -/
def State.applyCorrections (s : State) : State :=
  let l := s.cfg.corrections
  l.foldl (fun s q => s.applyCorrection q) { s with cfg := { s.cfg with corrections := [] } }

/-- The scrubber reset (R362): copies from the fuses, the pass from site 0, and the report. -/
def State.resetScrubber (s : State) : State :=
  let e := s.fuses.scrubEn
  let r := s.fuses.scrubRate
  let s : State := { s with cfg := { s.cfg with scrubEn := [e, e, e], scrubRate := [r, r, r], scrubFrame := 0, beatSame := 0 } }
  let s := (s.wr F.CFG_SCRUB_STATUS_SITE 0 0 0).count C.CFG_CNT_SCRUB_STALL
  ((s.record 6 0xFFFF false [0]).alert 3).event (fun _ => true) 4 [s.ctr C.CFG_CNT_SCRUB_STALL % 2 ^ 32]

/-- Whether the scrubber is to be reset: a vote error, or HEARTBEAT unchanged over 16 boundaries (R362). -/
def State.scrubStuck (s : State) : Bool := s.voteErr || decide (s.cfg.beatSame ≥ 16)

/-- The Hut's watch over the scrubber at step 7 (R362). -/
def State.watchScrubber (s : State) : State :=
  let b := s.rd F.CFG_SCRUB_STATUS_HEARTBEAT
  let n := if s.scrubOn && !s.coresOn.isEmpty then (if b = s.cfg.beatLast then s.cfg.beatSame + 1 else 0) else 0
  let s : State := { s with cfg := { s.cfg with beatSame := n, beatLast := b } }
  if s.scrubStuck then s.resetScrubber else s

/-- SCRUB_STALL (R362), at a boundary (R31, step 7). -/
def execScrubStall (s : State) : Host.Outcome State Fault Refusal :=
  .next (if s.cycle = 0 ∧ s.scrubStuck then s.resetScrubber else s)

/-! ### Self-tests (R33, R383, R384) -/

/-- Pitches since a Spur's last test. -/
def State.sinceTest (s : State) (n : Nat) : Nat := (s.pitch + 2 ^ 48 - (aget s.hut.lastTest n).getD 0) % 2 ^ 48

/-- Whether a test of Spur n is due by its state. -/
def State.testDue (s : State) (n : Nat) : Bool :=
  match s.rd F.HUT_SPUR_HEALTH_STATE 0 n with
  | 0 => s.hut.testNow.contains n || decide (s.sinceTest n ≥ 2 ^ s.rd F.HUT_HEALTH_CTRL_HEALTHY_LOG2)
  | 2 => s.hut.testNow.contains n || decide (s.sinceTest n ≥ s.rd F.HUT_HEALTH_CTRL_WATCH_PERIOD)
  | _ => false

/-- Whether Spur n may be tested at this boundary (R33). -/
def State.mayTest (s : State) (n : Nat) : Bool :=
  let a := siteOfSpur n
  s.dom 0 a == 0 && !s.hut.testing.contains n && (s.health a == 2 || !s.running a)

/-- A self-test begins: the sequencer holds its first issue until it ends (R33). -/
def State.beginTest (s : State) (n : Nat) : State :=
  let p := s.pitch
  let s := (s.count C.HUT_CNT_SELFTEST).modHut (fun h =>
    { h with testing := n :: h.testing, lastTest := aput h.lastTest n p, testNow := h.testNow.filter (fun x => x != n) })
  s.modSeq (siteOfSpur n) (fun q => { q with selfTest := true })

/-- Self-tests of step 7. -/
def State.startTests (s : State) : State :=
  (List.range 192).foldl (fun s n => if s.testDue n && s.mayTest n then s.beginTest n else s) s

/-- One Spur's test at a boundary, its state being `st`. -/
def State.dueTest (s : State) (n st : Nat) : State :=
  if n < 192 ∧ s.cycle = 0 ∧ s.rd F.HUT_SPUR_HEALTH_STATE 0 n = st ∧ s.testDue n ∧ s.mayTest n then s.beginTest n else s

/-- HEALTHY_SELFTEST_DUE (R383). -/
def execHealthySelftestDue (spur : SpurNo) (s : State) : Host.Outcome State Fault Refusal := .next (s.dueTest spur.toNat 0)

/-- WATCHED_SELFTEST_DUE (R383). -/
def execWatchedSelftestDue (spur : SpurNo) (s : State) : Host.Outcome State Fault Refusal := .next (s.dueTest spur.toNat 2)

/-- The result of a self-test (Table 14-2): a failure takes effect at step 3 of the next boundary, a clean one at once. -/
def State.testResult (s : State) (n : Nat) (clean : Bool) : State :=
  if !clean then s.modHut (fun h => { h with failedTests := List.append h.failedTests [n] })
  else if s.rd F.HUT_SPUR_HEALTH_STATE 0 n = 2 then
    let k := s.rd F.HUT_SPUR_HEALTH_WATCH_LEFT 0 n - 1
    if k = 0 then s.spurTo n 0 else s.wr F.HUT_SPUR_HEALTH_WATCH_LEFT 0 n k
  else s

/-- SELFTEST_COMPLETE (R384): the signature is compared with the fuse value. -/
def execSelftestComplete (spur : SpurNo) (signature : Word) (s : State) : Host.Outcome State Fault Refusal :=
  let n := spur.toNat
  .next (if !s.hut.testing.contains n then s
    else
      let s := (s.modHut (fun h => { h with testing := h.testing.filter (fun x => x != n) })).modSeq (siteOfSpur n)
        (fun q => { q with selfTest := false })
      s.testResult n (signature == s.fuses.signature))

/-! ### Channels at step 3 (R274 to R277, R378) -/

/-- The reads of a channel that awaited a re-read when it was retired complete with poisoned words (R275). -/
def State.endRereads (s : State) (c : Nat) : State :=
  let mine (r : Reread) : Bool := match s.locate r.addr with
    | .ok ch _ => ch == c
    | _ => false
  let l := s.memc.rereads.filter mine
  let s : State := { s with memc := { s.memc with rereads := s.memc.rereads.filter (fun r => !mine r) } }
  (l.filter (fun r => !r.patrol)).foldl (fun s r =>
    let (ws, s) := (s.count C.MEM_CNT_RETIRED (16 * chanGroup c)).poisonWords 32
    s.deliver (stripeOf r.addr) (ws.map (fun w => (w.data, true)))) s

/-- A marked channel is retired: its group becomes DEGRADED, with the record and the event. -/
def State.retireChannel (s : State) (c : Nat) : State :=
  let k := chanGroup c
  let why := if (aget s.memc.trainFails c).getD 0 ≥ s.rd F.MEM_RETIRE_CFG_RETRAIN_MAX then 0 else 1
  let s := ((s.endRereads c).setChan c 2).record 3 c true [2, why]
  let s := if s.groupState k = 0 ∨ s.groupState k = 3 then s.wr F.MEM_GRP_STATUS_STATE 0 k 1 else s
  s.event (fun _ => true) 6 [c, s.groupState k]

/-- Whether a range of a group is granted to a partition or reserved by the Hut (R276, R319). -/
def State.groupHeld (s : State) (k : Nat) : Bool :=
  k == 0 || (List.range 16).any (fun p => s.rd F.HUT_PART_ACTIVE 0 p == 1 && s.rd F.HUT_GRANT_SIZE 0 (4 * p + k) != 0)

/-- A DEGRADED group that is not held begins to re-form (R276, R277). -/
def State.startReform (s : State) (k : Nat) : State :=
  if s.groupState k = 1 && !s.groupHeld k then (s.reformMap k).wr F.MEM_GRP_STATUS_STATE 0 k 2 else s

/-- Channel retirements and the start of re-forming at a boundary. -/
def State.channelActions (s : State) : State :=
  let s := (List.range 192).foldl (fun s c => if s.chanState c = 1 then s.retireChannel c else s) s
  (List.range 4).foldl (fun s k => s.startReform k) s

/-! ### The health record (R390 to R393) -/

/-- The unit a record is about: a CLEAR counts for the TYPE and UNIT it cleared (R392). -/
def HRec.key (r : HRec) : Nat × Nat := (if r.type = 8 then r.detail.headD 0 else r.type, r.unit)

/-- Records the store holds (R390). -/
def storeSize : Nat := 32640

/-- The newest state record of every unit, in order. -/
def newestState : List HRec → List HRec
  | [] => []
  | r :: l => if r.state && !l.any (fun y => y.state && y.key == r.key) then r :: newestState l else newestState l

/-- A full store compacted: the newest state record of every unit, then the newest event records that fit in half of it
(R392). -/
def compactStore (l : List HRec) : List HRec :=
  let ev := l.filter (fun r => !r.state)
  List.append (newestState l) (ev.drop (ev.length - storeSize / 2))

/-- HEALTH_RECORD_APPEND (R391): the next waiting record is written, or its write fails. -/
def execHealthRecordAppend (ok : Bool) (s : State) : Host.Outcome State Fault Refusal :=
  .next (match s.hut.recPend with
    | [] => s
    | r :: rest =>
      let s := s.modHut (fun h => { h with recPend := rest })
      if !ok then s.noteFlag F.HUT_HREC_STATUS_WERR 0 0
      else
        let s := if s.hut.recs.length ≥ storeSize then
            s.modHut (fun h => { h with recs := compactStore h.recs, compactions := h.compactions + 1 })
          else s
        let s := (s.modHut (fun h => { h with recs := List.append h.recs [r] })).alert 2
        s.wr F.HUT_HREC_STATUS_USED 0 0 s.hut.recs.length)

/-! ### Ethernet lanes (R379 to R381) -/

/-- The lanes of a width: WIDTH code and pair (Tables 14-1, 14-11). -/
def lanesOfWidth (code pair : Nat) : List Nat :=
  match code with
  | 1 => List.range 8
  | 2 => [0, 1, 2, 3]
  | 3 => [4, 5, 6, 7]
  | 4 => List.range 8
  | 5 => [2 * pair, 2 * pair + 1]
  | _ => []

/-- Whether a width runs at 106.25 Gb/s a lane. -/
def slowWidth (code : Nat) : Bool := code == 4

/-- The widths in the order of Table 14-1, each with its pair and its order. -/
def widthOrder : List (Nat × Nat × Nat) := [(1, 0, 1), (2, 0, 2), (3, 0, 2), (4, 0, 3), (5, 0, 4), (5, 1, 4), (5, 2, 4), (5, 3, 4)]

/-- Whether the strap ETH_MODE permits an order (Table 17-4). -/
def widthAllowed (mode order : Nat) : Bool :=
  match mode with
  | 0 => true
  | 1 => decide (2 ≤ order)
  | 2 => order == 4
  | _ => order == 3

/-- Whether a lane holds a failure mark at a rate (R379). -/
def State.laneMarked (s : State) (slow : Bool) (l : Nat) : Bool :=
  (if slow then s.rd F.GATE_LANE_HEALTH_FAIL_LO else s.rd F.GATE_LANE_HEALTH_FAIL_HI) / 2 ^ l % 2 == 1

/-- The width a retraining port takes of those that train (R380). -/
def State.pickWidth (s : State) (trains : Nat × Nat → Bool) : Nat × Nat :=
  match widthOrder.find? (fun w => widthAllowed (s.rd F.CFG_STRAPS_ETH_MODE) w.2.2 && trains (w.1, w.2.1) &&
      (lanesOfWidth w.1 w.2.1).all (fun l => !s.laneMarked (slowWidth w.1) l)) with
  | some (c, p, _) => (c, p)
  | none => (0, 0)

/-- Whether 1 ms has passed since the last window of the lanes ended (R379); time is in thirtieths of a nanosecond. -/
def State.windowOver (s : State) : Bool := s.gate.windowAt.all (fun t => decide (t + milli ≤ s.time))

/-- Whether a second has passed since the port trained last (R380). -/
def State.retryDue (s : State) : Bool := s.gate.trainedAt.all (fun t => decide (t + 1000 * milli ≤ s.time))

/-- LANE_WINDOW (R379): a lane that errs in three windows in succession fails at its rate, and the port retrains. -/
def execLaneWindow (lost : BitVec 8) (errors : List (BitVec 32)) (s : State) : Host.Outcome State Fault Refusal :=
  let c := s.rd F.GATE_LANE_HEALTH_WIDTH
  let used := lanesOfWidth c (s.rd F.GATE_LANE_HEALTH_PAIR)
  let errs (l : Nat) : Bool := lost.getLsbD l || decide ((errors.getD l 0).toNat > s.rd F.GATE_LANE_HEALTH_LANE_SER_MAX)
  .next (if !s.windowOver then s else
    let s := s.modGate (fun g => { g with windowAt := some s.time })
    let bad := used.map (fun l => (l, if errs l then (aget s.gate.laneBad l).getD 0 + 1 else 0))
    let failed := (bad.filter (fun x => decide (x.2 ≥ 3))).map Prod.fst
    if failed = [] then s.modGate (fun g => { g with laneBad := bad })
    else
      let f := if slowWidth c then F.GATE_LANE_HEALTH_FAIL_LO else F.GATE_LANE_HEALTH_FAIL_HI
      let s := failed.foldl (fun s l => if s.laneMarked (slowWidth c) l then s else s.wr f 0 0 (s.rd f + 2 ^ l)) s
      let rate := if slowWidth c then 1 else 0
      (s.wrs 0 0 [(F.GATE_LANE_HEALTH_WIDTH, 0), (F.GATE_LANE_HEALTH_PAIR, 0)]).modGate (fun g =>
        { g with laneBad := [], laneDown := failed.map (fun l => (l, rate)) }))

/-- A retrain ends (R380, R381): counted, recorded and reported. -/
def State.retrain (s : State) (trains : List (BitVec 3 × BitVec 2)) : State :=
  let (c, p) := s.pickWidth (fun w => trains.any (fun y => y.1.toNat == w.1 && (w.1 != 5 || y.2.toNat == w.2)))
  let (l, rate) := s.gate.laneDown.headD (0, 0)
  let s := s.wrs 0 0 [(F.GATE_LANE_HEALTH_WIDTH, c), (F.GATE_LANE_HEALTH_PAIR, p)]
  let s := ((s.count C.GATE_CNT_RETRAIN).record 5 l false [rate, c]).modGate (fun g => { g with laneDown := [], laneBad := [], trainedAt := some s.time })
  s.event (fun _ => true) 5 [c]

/-- RETRAIN_COMPLETE (R381). -/
def execRetrainComplete (trains : List (BitVec 3 × BitVec 2)) (s : State) : Host.Outcome State Fault Refusal :=
  .next (if s.gate.laneDown.isEmpty then s else s.retrain trains)

/-- RETRAIN_RETRY (R380): a port that stayed down trains again. -/
def execRetrainRetry (trains : List (BitVec 3 × BitVec 2)) (s : State) : Host.Outcome State Fault Refusal :=
  .next (if s.rd F.GATE_LANE_HEALTH_WIDTH = 0 ∧ s.gate.laneDown = [] ∧ s.rd F.CFG_DEV_STATE_STATE ≠ 0 ∧ s.retryDue then s.retrain trains else s)

end Sys2Proof.Machine
end

