-- ==== Sys2Proof/Machine/RegCmds.lean ====
section
/-! DEFINITION. Register accesses of hosts (R4 to R9, R443, R480 to R482): the address map, what a read returns, the rights
of a host, what a write does to each field, and the registers whose writes have a meaning of their own. -/

namespace Sys2Proof.Machine

/-! ### The map (R479 to R483) -/

/-- What a register address names. -/
inductive RegAt where
  | reg (r : RegName) (a i : Nat)
  | counter (site : Option Nat) (live : Nat) (snap : Bool)
  | none
  deriving DecidableEq, Repr

/-- The register of a device-level block at an offset (Table 18-6). -/
def blockRegAt (b off : Nat) : Option (RegName × Nat) :=
  RegName.all.findSome? (fun r =>
    let p := r.place
    if p.block == some b && decide (p.offset + 8 * p.first ≤ off) && decide (off < p.offset + 8 * (p.first + p.count)) &&
        off % 8 == 0 then some (r, (off - p.offset) / 8) else Option.none)

/-- What an aligned address of the register space names (R479, R481, R483). -/
def regAt (x : Nat) : RegAt :=
  let y := x - 0x01F000000000
  let z := x - 0x01FF00000000
  if 0x01F000000000 ≤ x ∧ y < 0x1000000 then
    let a := y / 0x10000
    let off := y % 0x10000
    if 0x2000 ≤ off ∧ off < 0x3000 then .counter (some a) (x - off % 16) (off % 16 == 8)
    else match siteRegAt a off with
      | some (r, i) => .reg r a i
      | Option.none => .none
  else if 0x01FF00000000 ≤ x ∧ z < 0x80000 then
    let off := z % 0x10000
    if 0x8000 ≤ off then .counter Option.none (x - off % 16) (off % 16 == 8)
    else match blockRegAt (z / 0x10000) off with
      | some (r, i) => .reg r 0 i
      | Option.none => .none
  else .none

/-- The site whose block holds an address. -/
def siteOfReg (x : Nat) : Option Nat :=
  let y := x - 0x01F000000000
  if 0x01F000000000 ≤ x ∧ y < 0x1000000 then some (y / 0x10000) else Option.none

/-! ### What a read returns -/

/-- Fields that follow other state of the device: they are read from it, and stored nowhere (Tables 05-11, 05-12, 05-15,
06-8, 07-12, 03-14, 08-4, 08-8, 13-7, 14-10, 15-8 to 15-12, 16-13, 16-14, 09-5). -/
def State.derived (s : State) (r : RegName) (a i : Nat) : List (Fld × Nat) :=
  match r with
  | .SEQ_STATUS => [(F.SEQ_STATUS_LOOP_SP, (s.seq a).frames.length), (F.SEQ_STATUS_PC, (s.seq a).pc)]
  | .SEQ_LOOP =>
    match (s.seq a).frames.reverse[i]? with
    | some f => [(F.SEQ_LOOP_START, f.start), (F.SEQ_LOOP_END, f.last), (F.SEQ_LOOP_COUNT, f.count), (F.SEQ_LOOP_LC, f.lc)]
    | Option.none => []
  | .SEQ_STEER_STAT => [(F.SEQ_STEER_STAT_DATA, (s.steer a i).data.length), (F.SEQ_STEER_STAT_TOKENS, (s.steer a i).toks.length)]
  | .SEQ_SIG_STATUS => [(F.SEQ_SIG_STATUS_FENCE_HELD, (s.sync a).fenced.length)]
  | .QUE_STAT => [(F.QUE_STAT_ENTRIES, s.qEntries a i), (F.QUE_STAT_CREDITS, s.qFree a i)]
  | .MTX_STATUS => [(F.MTX_STATUS_PENDING, (s.mtx a).pending)]
  | .STR_STATE => [(F.STR_STATE_PC, (s.str a i).pc), (F.STR_STATE_OUTST, (s.str a i).reqs.length),
                   (F.STR_STATE_LOOP_SP, (s.str a i).frames.length)]
  | .TRN_THR_STATE => [(F.TRN_THR_STATE_PC, (s.str a i).pc), (F.TRN_THR_STATE_OUTST, (s.str a i).reqs.length),
                       (F.TRN_THR_STATE_LOOP_SP, (s.str a i).frames.length)]
  | .TRN_CLOG_STATUS => [(F.TRN_CLOG_STATUS_USED, (s.site a).tarn.clog.length)]
  | .MEM_GRP_STATUS => [(F.MEM_GRP_STATUS_HELD, (s.groupHeld i).toNat)]
  | .CFG_DEV_STATE =>
    [(F.CFG_DEV_STATE_POS, s.rd F.ROPE_STATUS_POS),
     (F.CFG_DEV_STATE_LEFT_MS, if s.rd F.CFG_DEV_STATE_STATE = 2 then
        ((((aget s.cfg.streams 16).map StreamX.deadline).getD 0) - s.time + (milli - 1)) / milli else 0)]
  | .CFG_CLAIM => [(F.CFG_CLAIM_WIN, s.rd F.CFG_STRAPS_CLAIM_WIN)]
  | .CFG_KEY_STATUS => [(F.CFG_KEY_STATUS_SRC, s.rd F.CFG_STRAPS_KEY_SRC), (F.CFG_KEY_STATUS_FUSE_KEY, s.fuses.key.isSome.toNat),
      (F.CFG_KEY_STATUS_VBAT_KEY, s.fuses.vbat.isSome.toNat),
      (F.CFG_KEY_STATUS_SLOTS, ((List.range 4).filter (fun k => s.fuses.slotUsed.getD k false)).foldl (fun n k => n + 2 ^ k) 0)]
  | .CFG_SEC_POLICY => if s.fuses.reqSig then [(F.CFG_SEC_POLICY_REQ_SIG, 1)] else []
  | .CFG_VKEY_HASH => [(F.CFG_VKEY_HASH_HASH, ((s.fuses.slots.getD (i / 4) 0).toNat >>> (64 * (i % 4))) % 2 ^ 64)]
  | .CFG_SCRUB_CTRL => [(F.CFG_SCRUB_CTRL_VOTE_ERR, s.voteErr.toNat), (F.CFG_SCRUB_CTRL_EN, (majority false s.cfg.scrubEn).toNat),
      (F.CFG_SCRUB_CTRL_RATE, majority 0 s.cfg.scrubRate)]
  | .GATE_TENANT => [(F.GATE_TENANT_QPS, ((List.range 1024).filter (fun n => s.qpOpen n && s.ofTenant i n)).length)]
  | .TRV_LINK_STATE => allDirs.map (fun d => (F.TRV_LINK_STATE_REPLAYS.at 16 d.num,
      ((s.link a d.num).replays.filter (fun t => decide (s.cycles < t + 2500000))).length))
  | .GATE_QP => [(F.GATE_QP_PEND, (s.qp i).done.length)]
  | .HUT_SECT =>
    -- a Halted section that is relocated has its new origin at once (Table 14-3); its sites change with the re-arm (log entry 143)
    if s.sectState i = 6 then (((s.sectX? i).bind SectX.newRow).map (fun r => (F.HUT_SECT_ORG_ROW, r))).toList else []
  | _ => []

/-- The whole word of a register as it reads, all fields from one cycle (R482); WO fields read 0 (R7). -/
def State.look (s : State) (r : RegName) (a i : Nat) : Word :=
  let w := (s.derived r a i).foldl (fun w x => fieldSet x.1 x.2 w) (s.word r a i)
  (r.fields.filter (fun f => f.acc == .wo)).foldl (fun w f => fieldSet f 0 w) w

/-- A read: RC fields are cleared by it. An event of the same cycle is not in what it returns, and is kept as if it had
followed the clear (R7). -/
def State.hostRead (s : State) (r : RegName) (a i : Nat) : Word × State :=
  let rc := r.fields.filter (fun f => f.acc == .rc)
  match rc, aget s.evs ⟨r, a, i⟩ with
  | _ :: _, some (before, after) =>
    ((s.setWord r a i before).look r a i, { s.setWord r a i after with evs := adel s.evs ⟨r, a, i⟩ })
  | _, _ => (s.look r a i, rc.foldl (fun s f => s.wr f a i 0) s)

/-! ### Rights (R4, Table 12-1, R39, R394, R426, R450, R477) -/

/-- Whether an asker is the host of a tenant. -/
def Who.isTenant (w : Who) (t : Nat) : Bool := match w with
  | .admin => false
  | .tenant k => k.toNat == t

/-- Whether an asker's tenant owns the active partition p. -/
def State.ownsPart (s : State) (w : Who) (p : Nat) : Bool := s.rd F.HUT_PART_ACTIVE 0 p == 1 && w.isTenant (s.tenantOf p)

/-- Whether an asker's partition holds a site. -/
def State.ownsSite (s : State) (w : Who) (a : Nat) : Bool := match s.partOf a with
  | some p => s.ownsPart w p
  | Option.none => false

/-- Whether an asker holds expert access (R4, R439). -/
def State.expert (s : State) (w : Who) : Bool := match w with
  | .admin => true
  | .tenant t => s.rd F.GATE_TENANT_EXPERT 0 t.toNat == 1

/-- Whether a host may read a register. -/
def State.mayRead (s : State) (w : Who) (r : RegName) (a i : Nat) : Bool :=
  match r.place.block with
  | Option.none => r == .TRV_LINK_STATE || s.ownsSite w a
  | some _ => match r with
    | .HUT_PART | .HUT_TRAIN | .HUT_LOAD_REFUSAL | .HUT_REF | .HUT_POISON => s.ownsPart w i
    | .HUT_GRANT => s.ownsPart w (i / 4)
    | .HUT_SECT => s.ownsPart w (i / 32)
    | .TAL_DIG | .TAL_LIST | .TAL_DIGSTEP => s.ownsPart w i
    | .TAL_ROOT => s.ownsPart w (i / 4)
    | .COL_BAR => s.rd F.COL_BAR_ACTIVE 0 i == 1 && s.ownsPart w (s.rd F.COL_BAR_OWNER 0 i)
    | .COL_BAR_MEM | .COL_BAR_ARR => s.rd F.COL_BAR_ACTIVE 0 (i / 4) == 1 && s.ownsPart w (s.rd F.COL_BAR_OWNER 0 (i / 4))
    | .GATE_TENANT => w.isTenant i
    | .GATE_QP => s.rd F.GATE_QP_STATE 0 i != 0 &&
        (match w with
          | .admin => s.isAdmin i
          | .tenant t => s.ofTenant t.toNat i)
    | .CFG_STREAM | .CFG_STREAM_POS | .CFG_STREAM_SYNC => if i = 16 then w == .admin else s.ownsPart w i
    | _ => true

/-- Whether a host may write a register at all; EXPERT_DENIED is judged after this. -/
def State.mayWrite (s : State) (w : Who) (r : RegName) (a i : Nat) : Bool :=
  match r with
  | .HUT_HEALTH_CTRL | .HUT_HREC_STATUS | .GATE_LANE_HEALTH | .GATE_NET_CFG | .CFG_CLAIM | .CFG_SEC_POLICY
  | .PWR_BIVOUAC | .PWR_THERM => w == .admin
  | .HUT_SPUR_HEALTH | .TRV_LINK_STATE | .CFG_DEV_STATE | .CFG_STARTUP | .CFG_KEY_STATUS | .CFG_VKEY_HASH | .CFG_STREAM
  | .CFG_STREAM_POS | .CFG_STREAM_SYNC | .CFG_STRAPS | .ROPE_STATUS => false
  | _ => s.mayRead w r a i

/-- Whether a mask takes in a bit of a field. -/
def Fld.masked (f : Fld) (mask : Word) : Bool := fieldGet f mask != 0

/-- Whether a write names an expert field, whatever its access code (R4). -/
def namesExpert (r : RegName) (mask : Word) : Bool := r.fields.any (fun f => f.expert && f.masked mask)

/-- Whether a write names a field on which a write can act (R7, R8). -/
def actsOn (r : RegName) (mask : Word) : Bool :=
  r.fields.any (fun f => f.masked mask && (f.acc == .rw || f.acc == .wo || f.acc == .w1c || f.acc == .w1s))

/-- The owner of a device-level counter: none, or a partition or a tenant (Table 18-7). -/
def State.counterOwn (s : State) (w : Who) (live : Nat) : Bool :=
  let z := live - 0x01FF00000000
  let k := (z % 0x10000 - 0x8000) / 16
  if z / 0x10000 = 1 ∧ 16 ≤ k ∧ k < 48 then s.ownsPart w (k % 16)
  else if z / 0x10000 = 1 ∧ 48 ≤ k ∧ k < 128 then w.isTenant (k % 16)
  else true

/-- Whether a host may read what an address names. -/
def State.mayReadAt (s : State) (w : Who) (x : Nat) : Bool :=
  match regAt x with
  | .reg r a i => s.mayRead w r a i
  | .counter (some a) _ _ => s.ownsSite w a
  | .counter Option.none live _ => s.counterOwn w live
  | .none => match siteOfReg x with
    | some a => s.ownsSite w a
    | Option.none => true

/-! ### What a write does -/

/-- Registers that keep their value while the site's section is Running (R109, R140, R177, R182, R236, R258, R313). -/
def lockedRunning (r : RegName) : Bool :=
  [RegName.MTX_OPD, .MTX_OPS, .MTX_RMASK, .MTX_BMASK_ORG, .CHK_CTRL, .MTX_RECOMP, .VEC_OPD, .VEC_LMASK, .VEC_SR_COORD01,
   .VEC_SR_COORD23, .STR_DESC, .TRN_THR, .SEQ_LC, .SEQ_PRED, .SEQ_CTRL, .TRV_OUT, .QUE_CFG, .QUE_PAR, .QUE_MLEAF, .SEQ_SIG].contains r

/-- A host's write of a signal counter, which stands against the adds of its cycle (R7). -/
def State.ownSigs (s : State) (f : Fld) (a i : Nat) : State :=
  match (List.range 4).find? (fun k => sigFld k == f) with
  | some k => { s with hostSigs := (32 * a + 4 * i + k) :: s.hostSigs }
  | Option.none => s

/-- What the events of this cycle leave in a field that a host clears (R7). -/
def State.eventBits (s : State) (f : Fld) (a i : Nat) : Nat := match aget s.evs ⟨f.reg, a, i⟩ with
  | some x => fieldGet f x.2
  | Option.none => 0

/-- A masked write to one field, by its access code (R7, R443): a hardware set of the same cycle wins over W1C. -/
def State.writeField (s : State) (f : Fld) (a i : Nat) (value mask : Word) : State :=
  if !f.masked mask then s
  else
    let old := s.word f.reg a i
    let new := fieldGet f ((old &&& ~~~mask) ||| (value &&& mask))
    match f.acc with
    | .rw => if s.fieldTakes f a i new then (s.wr f a i new).ownSigs f a i else s
    | .w1c => s.wr f a i (max (fieldGet f (old &&& ~~~(value &&& mask))) (s.eventBits f a i))
    | .w1s => s.wr f a i (fieldGet f (old ||| (value &&& mask)))
    | _ => s

/-- Every field of a register written under a mask. -/
def State.writeFields (s : State) (r : RegName) (a i : Nat) (value mask : Word) : State :=
  r.fields.foldl (fun s f => s.writeField f a i value mask) s

/-- A write to a stream descriptor: before the section first becomes Running, the credit count follows DEPTH (R182). -/
def State.writeDesc (s : State) (r : RegName) (a i : Nat) (value mask : Word) : State :=
  let s := s.writeFields r a i value mask
  match (s.sectOf a).bind s.sectX? with
  | some x => if x.ran then s
    else s.wr (strFld a F.STR_STATE_CREDITS F.TRN_THR_STATE_CREDITS) a i (s.dsc a i F.STR_DESC_DEPTH F.TRN_THR_DEPTH)
  | Option.none => s

/-- Queues that a steering unit configured by a word consumes: its data inputs and its token queue (R168, R169, R172). -/
def steerTakes (w : Word) : List Nat :=
  let md := fieldGet F.SEQ_STEER_MODE w
  if md = 1 ∨ md = 2 then List.append (steerInputs w) (steerTokenQ w) else []

/-- STEER_CONFIG_WRITE (R172): refused while Running, or when another enabled unit consumes one of the queues. -/
def State.writeSteer (s : State) (a i : Nat) (value mask : Word) : State :=
  let new := (s.word .SEQ_STEER a i &&& ~~~mask) ||| (value &&& mask)
  if s.running a then s.wr F.SEQ_STEER_STATUS a i 2
  else if (List.range 8).any (fun n => n != i && (steerTakes (s.word .SEQ_STEER a n)).any (fun q => (steerTakes new).contains q)) then
    s.wr F.SEQ_STEER_STATUS a i 1
  else (s.writeFields .SEQ_STEER a i value mask).wr F.SEQ_STEER_STATUS a i 0

/-- SR_SEED_WRITE (R59): the new seed waits for the next boundary. -/
def State.writeSeed (s : State) (a : Nat) (value mask : Word) : State :=
  let cur := (aget s.seedNext a).getD (s.word .VEC_SR_SEED a 0)
  { s with seedNext := aput s.seedNext a ((cur &&& ~~~mask) ||| (value &&& mask)) }

/-- Whether a section of the device is Armed, Running, Paused or Halted. -/
def State.anyLive (s : State) : Bool := s.hut.sects.any (fun x => s.live x.1)

/-- COL_PITCH_CTRL_WRITE (R27, Table 01-9). The value 0 stands for 16 (log entry 6). -/
def State.writePitch (s : State) (value mask : Word) : State :=
  let s := s.writeField F.COL_PITCH_CTRL_WRAPPED 0 0 value mask
  let f := F.COL_PITCH_CTRL_NEW_LOG2
  if !f.masked mask then s
  else
    let v := fieldGet f ((s.word .COL_PITCH_CTRL 0 0 &&& ~~~mask) ||| (value &&& mask))
    if s.anyLive then s.wr F.COL_PITCH_CTRL_STATUS 0 0 1
    else if v ≠ 0 ∧ v < 10 then s.wr F.COL_PITCH_CTRL_STATUS 0 0 2
    else
      let s := s.wrs 0 0 [(f, v), (F.COL_PITCH_CTRL_STATUS, 0), (F.COL_PITCH_CTRL_CHANGE_PEND, 1)]
      { s with lenPend := some v }

/-- The domain a code of PWR_DOMAIN_CMD names at a site (Table 01-11). -/
def domOfCode (code a : Nat) : Option DomKind :=
  if code = 0 then some .core
  else if code = 1 then some .router
  else if code ≤ 5 ∧ isTarn a then some (.tier (BitVec.ofNat 2 (code - 2)))
  else Option.none

/-- PWR_DOMAIN_CMD (R39): action 0 ON, 1 RETAIN, 2 OFF waits for the next boundary, or is refused with DOMAIN_BUSY. ACTION
0b11 has no effect, whatever the other fields say, and leaves STATUS (log entry 94: DESIGN CHOICE). -/
def State.domainCmd (s : State) (w : Who) (act code a : Nat) : State :=
  let busy (s : State) : State := s.wr F.PWR_DOMAIN_CMD_STATUS 0 0 2
  if act ≥ 3 then s
  else match domOfCode code a with
    | Option.none => busy s
    | some d =>
      let other := match s.partOf a with
        | some p => !s.ownsPart w p
        | Option.none => false
      if !s.domFree d a act || other then busy s
      else { s.wr F.PWR_DOMAIN_CMD_STATUS 0 0 1 with domPend := List.append s.domPend [(d, a, act)] }

/-- SCRUB_CTRL_WRITE (R362): all three copies of each field written. -/
def State.writeScrub (s : State) (value mask : Word) : State :=
  let cur := s.look .CFG_SCRUB_CTRL 0 0
  let new := (cur &&& ~~~mask) ||| (value &&& mask)
  let e := fieldGet F.CFG_SCRUB_CTRL_EN new == 1
  let r := fieldGet F.CFG_SCRUB_CTRL_RATE new
  let s : State := if F.CFG_SCRUB_CTRL_EN.masked mask then { s with cfg := { s.cfg with scrubEn := [e, e, e] } } else s
  if F.CFG_SCRUB_CTRL_RATE.masked mask && decide (1 ≤ r) && decide (r ≤ 8) then
    { s with cfg := { s.cfg with scrubRate := [r, r, r] } } else s

/-- A permitted write to a register, whatever its meaning. A write whose mask names no field that a write acts on has no
effect; a bit of PWR_DOMAIN_CMD that the mask leaves out counts as 0 (log entry 94). -/
def State.hostWrite (s : State) (w : Who) (r : RegName) (a i : Nat) (value mask : Word) : State :=
  if !actsOn r mask || (lockedRunning r && s.running a) then s
  else match r with
    | .STR_DESC | .TRN_THR => s.writeDesc r a i value mask
    | .SEQ_STEER => s.writeSteer a i value mask
    | .VEC_SR_SEED => s.writeSeed a value mask
    | .COL_PITCH_CTRL => s.writePitch value mask
    | .PWR_DOMAIN_CMD =>
      let v := value &&& mask
      s.domainCmd w (fieldGet F.PWR_DOMAIN_CMD_ACTION v) (fieldGet F.PWR_DOMAIN_CMD_DOMAIN v) (fieldGet F.PWR_DOMAIN_CMD_SITE v)
    | .CFG_SCRUB_CTRL => s.writeScrub value mask
    | _ => s.writeFields r a i value mask

/-- The outcome of a write at an address under the rights: a status code of Table 16-10, or 0 and the state. -/
def State.writeAt (s : State) (w : Who) (x : Nat) (value mask : Word) : Nat × State :=
  match regAt x with
  | .reg r a i =>
    if !s.mayWrite w r a i then (stPartDenied, s)
    else if namesExpert r mask && !s.expert w then (stExpertDenied, s)
    else (0, s.hostWrite w r a i value mask)
  | _ => if s.mayReadAt w x then (0, s) else (stPartDenied, s)

/-- The outcome of a read at an address under the rights: a status code, the value and the state. -/
def State.readAt (s : State) (w : Who) (x : Nat) : Nat × Word × State :=
  if !s.mayReadAt w x then (stPartDenied, 0, s)
  else match regAt x with
    | .reg r a i => let (v, s) := s.hostRead r a i; (0, v, s)
    | .counter _ live snap => (0, BitVec.ofNat 64 ((aget (if snap then s.snaps else s.counters) live).getD 0), s)
    | .none => (0, 0, s)

/-! ### The commands -/

/-- Who sends commands on a queue pair. -/
def State.who (s : State) (n : Nat) : Who :=
  if s.isAdmin n then .admin else .tenant (BitVec.ofNat 4 (s.rd F.GATE_QP_OWNER 0 n))

/-- Whether an address may be named in a register command (R480). -/
def regCmdAddr (x : Nat) : Bool := x % 8 == 0 && decide (0x01F000000000 ≤ x) && decide (x < 0x020000000000)

/-- REG_READ (R443, R480). -/
def State.regRead (s : State) (c : Ctx) (x : Nat) : State :=
  if s.rd F.GATE_QP_STATE 0 c.qp.toNat = 0 then s
  else if !regCmdAddr x then s.status c opRegRead stBadCommand
  else
    let (st, v, s) := s.readAt (s.who c.qp.toNat) x
    if st = 0 then s.ok c opRegRead v.toNat else s.status c opRegRead st

/-- REG_WRITE (R443, R480). -/
def State.regWrite (s : State) (c : Ctx) (x : Nat) (value mask : Word) : State :=
  if s.rd F.GATE_QP_STATE 0 c.qp.toNat = 0 then s
  else if !regCmdAddr x then s.status c opRegWrite stBadCommand
  else
    let (st, s) := s.writeAt (s.who c.qp.toNat) x value mask
    if st = 0 then s.ok c opRegWrite else s.status c opRegWrite st

/-- Whether a host may reach n bytes of memory on a queue pair (R441); none before the pass of step MEMORY has ended (R280). -/
def State.memPermitted (s : State) (q x n : Nat) : Bool :=
  if !s.memReady then false
  else if s.isAdmin q then decide (0x08000000 ≤ x) && decide (x + n ≤ 0x08100000)
  else match s.partOfQp q with
    | some p => s.inGrant p x n && s.rd F.HUT_GRANT_ZEROING 0 (4 * p + groupOf x) == 0
    | Option.none => false

/-- Words taken in pairs. -/
def pairWords : List RawWord → List (Nat × Nat)
  | a :: b :: l => (a.data.toNat, b.data.toNat) :: pairWords l
  | _ => []

/-- The records of a list in device memory, as the Gate reads them: pairs of 64-bit words (R445). -/
def State.listAt (s : State) (x n : Nat) : List (Nat × Nat) × State :=
  let (l, s) := s.extReads .gate x (2 * n)
  (pairWords l, s)

/-- Records of a list applied in order: the state, and the index and status of the record that stopped it. -/
def State.writeList (s : State) (w : Who) : List (Nat × Nat) → Nat → State × Option (Nat × Nat)
  | [], _ => (s, Option.none)
  | (x, v) :: l, k =>
    if !regCmdAddr x then (s, some (k, stBadCommand))
    else
      let (st, s) := s.writeAt w x (BitVec.ofNat 64 v) (BitVec.allOnes 64)
      if st = 0 then s.writeList w l (k + 1) else (s, some (k, st))

/-- REG_WRITE_LIST (R443, R445, R480). -/
def State.regWriteList (s : State) (c : Ctx) (x n : Nat) : State :=
  if s.rd F.GATE_QP_STATE 0 c.qp.toNat = 0 then s
  else if n = 0 ∨ n > 4096 ∨ x % 8 ≠ 0 ∨ !s.memPermitted c.qp.toNat x (16 * n) then s.status c opRegWriteList stBadCommand
  else match (s.listAt x n).2.writeList (s.who c.qp.toNat) (s.listAt x n).1 0 with
    | (s, Option.none) => s.ok c opRegWriteList
    | (s, some (k, st)) => s.complete c opRegWriteList 3 st k

/-- Commands marked "3" on a connection at Gate protocol 2 complete with VERSION_OP (R438). -/
def State.needsV3 (s : State) (c : Ctx) (op : Nat) (f : State → State) : State :=
  if s.rd F.GATE_QP_GVER 0 c.qp.toNat = 2 then s.status c op stVersionOp else f s

/-- REG_READ (R443). -/
def execRegRead (c : Ctx) (a : BitVec 64) (s : State) : Host.Outcome State Fault Refusal := .next (s.regRead c a.toNat)

/-- REG_WRITE (R443). -/
def execRegWrite (c : Ctx) (a value mask : BitVec 64) (s : State) : Host.Outcome State Fault Refusal :=
  .next (s.regWrite c a.toNat value mask)

/-- REG_WRITE_LIST (R443). -/
def execRegWriteList (c : Ctx) (list : BitVec 64) (count : BitVec 16) (s : State) : Host.Outcome State Fault Refusal :=
  .next (s.needsV3 c opRegWriteList (fun s => s.regWriteList c list.toNat count.toNat))

/-- REGISTER_WRITE (R7): each field by its access code, under the rights. -/
def execRegisterWrite (w : Who) (a : BitVec 48) (value mask : Word) (s : State) : Host.Outcome State Fault Refusal :=
  .next (if regCmdAddr a.toNat then (s.writeAt w a.toNat value mask).2 else s)

/-- COL_PITCH_CTRL_WRITE (R27). -/
def execColPitchCtrlWrite (w : Who) (value : Word) (s : State) : Host.Outcome State Fault Refusal :=
  .next (s.writeAt w (RegName.COL_PITCH_CTRL.address 0 0) value (BitVec.allOnes 64)).2

/-- A domain command of a host that holds expert access (R39). -/
def State.domainReq (s : State) (w : Who) (act code a : Nat) : State :=
  if s.expert w then s.domainCmd w act code a else s

/-- DOMAIN_ON (R39). -/
def execDomainOn (w : Who) (dom : BitVec 4) (site : SiteId) (s : State) : Host.Outcome State Fault Refusal :=
  .next (s.domainReq w 0 dom.toNat site.toNat)

/-- DOMAIN_RETAIN (R39). -/
def execDomainRetain (w : Who) (dom : BitVec 4) (site : SiteId) (s : State) : Host.Outcome State Fault Refusal :=
  .next (s.domainReq w 1 dom.toNat site.toNat)

/-- DOMAIN_OFF (R39). -/
def execDomainOff (w : Who) (dom : BitVec 4) (site : SiteId) (s : State) : Host.Outcome State Fault Refusal :=
  .next (s.domainReq w 2 dom.toNat site.toNat)

/-- SR_SEED_WRITE (R59). -/
def execSrSeedWrite (w : Who) (site : SiteId) (seed : Word) (s : State) : Host.Outcome State Fault Refusal :=
  .next (s.writeAt w (RegName.VEC_SR_SEED.address site.toNat 0) seed (BitVec.allOnes 64)).2

/-- STEER_CONFIG_WRITE (R172). -/
def execSteerConfigWrite (w : Who) (site : SiteId) (n : BitVec 3) (value : Word) (s : State) : Host.Outcome State Fault Refusal :=
  .next (s.writeAt w (RegName.SEQ_STEER.address site.toNat n.toNat) value (BitVec.allOnes 64)).2

/-- SCRUB_CTRL_WRITE (R362). -/
def execScrubCtrlWrite (w : Who) (value : Word) (s : State) : Host.Outcome State Fault Refusal :=
  .next (s.writeAt w (RegName.CFG_SCRUB_CTRL.address 0 0) value (BitVec.allOnes 64)).2

/-- BIVOUAC_ENTER_WRITE (R469): a write of 1 to ENTER alone. -/
def execBivouacEnterWrite (w : Who) (s : State) : Host.Outcome State Fault Refusal :=
  let m := fieldSet F.PWR_BIVOUAC_ENTER 1 0
  .next (s.writeAt w (RegName.PWR_BIVOUAC.address 0 0) m m).2

/-- CHK_LOG_READ (R109): the read clears KIND. -/
def execChkLogRead (w : Who) (site : SiteId) (s : State) : Host.Outcome State Fault Refusal :=
  .next (s.readAt w (RegName.CHK_LOG.address site.toNat 0)).2.2

/-- MEM_ERR_LOG_READ (R7, Table 09-10). -/
def execMemErrLogRead (w : Who) (s : State) : Host.Outcome State Fault Refusal :=
  .next (s.readAt w (RegName.MEM_ERR_LOG.address 0 0)).2.2

/-- LOAD_REFUSAL_READ (R297). -/
def execLoadRefusalRead (w : Who) (p : PartNo) (s : State) : Host.Outcome State Fault Refusal :=
  .next (s.readAt w (RegName.HUT_LOAD_REFUSAL.address 0 p.toNat)).2.2

/-- POISON_LOG_READ (R348). -/
def execPoisonLogRead (w : Who) (p : PartNo) (s : State) : Host.Outcome State Fault Refusal :=
  .next (s.readAt w (RegName.HUT_POISON.address 0 p.toNat)).2.2

/-- ECC_LOG_READ (R342, Table 13-6). -/
def execEccLogRead (w : Who) (site : SiteId) (s : State) : Host.Outcome State Fault Refusal :=
  .next (s.readAt w (RegName.CHK_ECC_LOG.address site.toNat 0)).2.2

end Sys2Proof.Machine
end

