-- ==== Sys2Proof/Machine/Loading.lean ====
section
/-! DEFINITION. The Tristox stream (chapter 15): its header, packets, blocks, signatures, delivery and outcomes; the
staging of a section that has arrived; and the start-up sequence. -/

namespace Sys2Proof.Machine

/-! ### Closing a connection and releasing the claim (R423, R436) -/

/-- A connection closes: its queue pair is free, its commands that wait in the mailbox go with it, and its host is told why (Table 16-2, DISCONNECT), unless it
asked (reason 0). -/
def State.closeQp (s : State) (q reason : Nat) : State :=
  if s.rd F.GATE_QP_STATE 0 q = 0 then s
  else
    let lost := s.isAdmin q
    let t := s.time
    let s := (if reason = 0 then s else s.emit (.disconnect q reason)).setWord .GATE_QP 0 q 0
    let s := s.modHut (fun h => { h with mailbox := h.mailbox.filter (fun x => x.1.qp.toNat != q),
                                         runWaits := h.runWaits.filter (fun x => x.1.qp.toNat != q) })
    s.modGate (fun g =>
      { g with qps := adel g.qps q, adminQp := if lost then none else g.adminQp
               adminLostAt := if lost then some t else g.adminLostAt })

/-- The state of a stream slot beyond its registers. -/
def State.stream (s : State) (k : Nat) : StreamX := (aget s.cfg.streams k).getD StreamX.reset
def State.putStream (s : State) (k : Nat) (x : StreamX) : State :=
  { s with cfg := { s.cfg with streams := aput s.cfg.streams k x } }
def State.modStream (s : State) (k : Nat) (f : StreamX → StreamX) : State := s.putStream k (f (s.stream k))

/-- The claim is released (R423): the admin connection closes, Hut code memory and slot 16 are cleared, and the device is
UNCLAIMED again. -/
def State.releaseClaim (s : State) : State :=
  let s := match s.gate.adminQp with
    | some q => s.closeQp q 3
    | none => s
  let s := ((s.setWord .CFG_STREAM 0 16 0).setWord .CFG_STREAM_POS 0 16 0).setWord .CFG_STREAM_SYNC 0 16 0
  let s : State := { s with cfg := { s.cfg with streams := adel s.cfg.streams 16, firmware := [] } }
  let s := s.modGate (fun g => { g with nonce := none, claimAck := none, adminLostAt := none, joined := [] })
  (s.wr F.CFG_CLAIM_DEADLINE_MS 0 0 0).wr F.CFG_DEV_STATE_STATE 0 0 1

/-! ### RUN (R326), and a RUN that waits for its LOAD (R446) -/

/-- A RUN of an entry: a Staged section becomes runnable; any other entry is NOT_FOUND. A connection at protocol 2 takes PRIO
4 and no AFTER (R438). -/
def State.runEntry (s : State) (c : Ctx) (o : RunOps) (e : Nat) : State :=
  let old := s.rd F.GATE_QP_GVER 0 c.qp.toNat == 2
  if s.sectState e ≠ 1 || s.rd F.HUT_SECT_RUNNABLE 0 e == 1 then s.status c opRun stNotFound
  else
    let s := s.wrs 0 e [(F.HUT_SECT_PRIO, if old then 4 else o.prio.toNat % 8), (F.HUT_SECT_AFTER, if old then 0 else o.after.toNat % 32),
      (F.HUT_SECT_AFTER_EN, if old then 0 else o.afterEn.toNat % 2)]
    (s.modSect e (fun x => { x with runCtx := some c })).markRunnable e

/-- A LOAD completes, and a RUN that named it goes on (R446): to the section it staged, or NOT_FOUND. -/
def State.loadDone (s : State) (c : Ctx) (cls code detail : Nat) (staged : Option Nat) : State :=
  let s := s.complete c opLoad cls code ((staged.getD 0) % 32) detail
  let s := match staged with
    | some e => s.modQp c.qp.toNat (fun x => { x with staged := aput x.staged c.idx.toNat e })
    | none => s
  let l := s.hut.runWaits.filter (fun w => w.1.qp == c.qp && w.2.ringIdx == c.idx)
  let s := s.modHut (fun h => { h with runWaits := h.runWaits.filter (fun w => !(w.1.qp == c.qp && w.2.ringIdx == c.idx)) })
  l.foldl (fun s w => match staged with
    | some e => s.runEntry w.1 w.2 e
    | none => s.status w.1 opRun stNotFound) s

/-! ### Outcomes (R417 to R419, Table 15-3) -/

/-- A stream ends TRUNCATED (4) or REJECTED (5): what came after the last passed SYNC is invalid; a section slot is
resumable, and the claim of a base stream is released. -/
def State.endStream (s : State) (k outcome reason : Nat) : State :=
  let x := s.stream k
  let keep := k != 16 && x.hdr.isSome && !x.wait
  let s := s.wrs 0 k [(F.CFG_STREAM_STATE, 3), (F.CFG_STREAM_OUTCOME, outcome), (F.CFG_STREAM_REASON, reason)]
  let s := if x.wait then s else s.wr F.CFG_STREAM_RESUMABLE 0 k keep.toNat
  let s := (s.count C.CFG_CNT_STREAM_FAIL).modStream k (fun x => { x with load := none, got := x.kept, block := [], sig := none })
  let s := match x.load with
    | some (c, _) => s.loadDone c 2 (32 * outcome + reason) 0 none
    | none => s
  if k = 16 then s.releaseClaim else s

/-- The stream ends REJECTED for a reason. -/
def State.reject (s : State) (k reason : Nat) : State := s.endStream k 5 reason

/-- A header makes the stream FOREIGN (R397): the slot is as before this delivery but for OUTCOME and REASON. A base slot
waits for another header under the same deadline. -/
def State.foreign (s : State) (k reason : Nat) : State :=
  let x := s.stream k
  let s := ((s.setWord .CFG_STREAM 0 k x.old.1).setWord .CFG_STREAM_POS 0 k x.old.2).wrs 0 k
    [(F.CFG_STREAM_OUTCOME, 3), (F.CFG_STREAM_REASON, reason)]
  let s := (s.count C.CFG_CNT_STREAM_FAIL).modStream k (fun x => { x with load := none, wait := k == 16 })
  match x.load with
  | some (c, _) => s.loadDone c 2 (32 * 3 + reason) 0 none
  | none => s

/-- Whether a slot receives (Table 15-13). -/
def State.receiving (s : State) (k : Nat) : Bool := s.rd F.CFG_STREAM_STATE 0 k == 1

/-- Whether the base slot, its stream SKIPPED or FOREIGN, may take another under the same deadline (Table 15-3). -/
def State.baseAgain (s : State) (k : Nat) : Bool :=
  k == 16 && s.rd F.CFG_DEV_STATE_STATE == 2 && !s.receiving 16 && (s.stream 16).wait &&
  [2, 3].contains (s.rd F.CFG_STREAM_OUTCOME 0 16)

/-- Whether a slot takes bytes: until the cycle in which its load deadline passes (R417). -/
def State.takesBytes (s : State) (k : Nat) : Bool :=
  (s.receiving k || s.baseAgain k) && decide (s.time < (s.stream k).deadline + periodOf (s.rd F.PWR_THERM_LEVEL))

/-- Whether the last byte of a slot's stream, that of END, has come. -/
def State.endCame (s : State) (k : Nat) : Bool :=
  (s.stream k).hdr.any (fun h => !(s.stream k).wait && decide (h.totalLen.toNat ≤ s.rd F.CFG_STREAM_POS_OFFSET 0 k))

/-- The streams of a closing connection, or of a removed partition, end TRUNCATED with CLOSED. -/
def State.truncateIf (s : State) (p : Nat → StreamX → Bool) : State :=
  (List.range 17).foldl (fun s k => if s.receiving k && p k (s.stream k) then s.endStream k 4 9 else s) s

/-! ### Bytes (R413, R414, R444) -/

/-- The key the strap KEY_SRC selects (R406). -/
def State.selectedKey (s : State) : Option (BitVec 256) :=
  if s.rd F.CFG_STRAPS_KEY_SRC = 1 then s.fuses.vbat else s.fuses.key

/-- Offset E of a slot. -/
def State.posE (s : State) (k : Nat) : Nat := s.rd F.CFG_STREAM_POS_OFFSET 0 k

/-- The first byte after the header of an encrypted stream needs a key (R406). -/
def State.needKey (s : State) (k : Nat) : State :=
  let x := s.stream k
  match x.hdr with
  | none => s
  | some h =>
    if x.wait || !s.receiving k || !h.flags.getLsbD 0 || x.key.isSome || s.posE k ≤ x.from_ then s
    else s.reject k 19

/-- Bytes consumed by a slot: E moves on to `e`. -/
def State.consume (s : State) (k e : Nat) : State :=
  let s : State := { s with board := { s.board with lastHost := s.time } }
  let s := if s.baseAgain k then s.wrs 0 k [(F.CFG_STREAM_STATE, 1)] |>.wr F.CFG_STREAM_POS_OFFSET 0 k 0 else s
  let s := (s.count C.CFG_CNT_STREAM_BYTES 0 (e - s.posE k)).wr F.CFG_STREAM_POS_OFFSET 0 k e
  s.needKey k

/-- A datagram at one slot (R414). -/
def State.takeDatagram (s : State) (k off len : Nat) : State :=
  let e := if s.baseAgain k then 0 else s.posE k
  if off ≤ e ∧ e < off + len then (s.count C.CFG_CNT_DGRAM).consume k (off + len)
  else s.count C.CFG_CNT_DGRAM_DROP

/-- DATAGRAM (R414): every slot that receives this stream by multicast. -/
def execDatagram (id : BitVec 32) (offset : BitVec 64) (len : BitVec 16) (s : State) : Host.Outcome State Fault Refusal :=
  let mine (k : Nat) : Bool := s.takesBytes k && (s.stream k).multicast && ((s.stream k).wait || (match (s.stream k).hdr with
    | some h => h.id == id
    | none => true))
  .next (((List.range 17).filter mine).foldl (fun s k => s.takeDatagram k offset.toNat len.toNat) s)

/-- A stream-bytes SEND (R444): the bytes continue the unicast stream of the connection; with none, they are counted. -/
def State.streamBytes (s : State) (q len : Nat) : State :=
  let s := s.count C.GATE_CNT_RXBYTES 0 len
  match (List.range 17).find? (fun k => s.takesBytes k && !(s.stream k).multicast && (s.stream k).qp == q) with
  | some k => s.consume k ((if s.baseAgain k then 0 else s.posE k) + len)
  | none => s.count C.GATE_CNT_RXDROP

/-! ### The header (R396 to R398, R417, R419) -/

/-- The first 60 bytes of a header (Table 15-1). -/
def StreamHdr.body (h : StreamHdr) : List Byte :=
  List.flatten [leBytes h.magic.toNat 4, leBytes h.version.toNat 2, leBytes h.part.toNat 2, [h.rev, h.kind, h.flags, h.keySlot],
    leBytes h.id.toNat 4, leBytes h.totalLen.toNat 8, leBytes h.ivBase.toNat 8, leBytes h.reserved.toNat 28]

/-- All 64 bytes of a header. -/
def StreamHdr.bytes (h : StreamHdr) : List Byte := List.append h.body (leBytes h.hcrc.toNat 4)

/-- The FOREIGN reason of a header, in the order of R417; 0 for none. A connection whose chosen stream format is 3, as it is at protocol
2, brings no stream of version 4 (R437, R438). -/
def State.foreignWhy (s : State) (x : StreamX) (h : StreamHdr) : Nat :=
  let old := s.rd F.GATE_QP_GVER 0 x.qp == 2 || (s.qp x.qp).sver == 3
  if h.magic ≠ 0x58535254 then 1
  else if h.hcrc ≠ crc32c h.body then 2
  else if h.part ≠ 0x0300 then 3
  else if h.rev ≠ 0x41 then 4
  else if h.version = 3 then (if x.multicast then 5 else 0)
  else if h.version = 4 ∧ !old then 0
  else 5

/-- Whether the device is past the start-up (Table 15-6). -/
def State.isReady (s : State) : Bool := s.rd F.CFG_DEV_STATE_STATE == 4

/-- A header that is not FOREIGN starts the stream, or continues the one kept (R419). -/
def State.acceptHeader (s : State) (k : Nat) (h : StreamHdr) : State :=
  let x := s.stream k
  let sy := s.rd F.CFG_STREAM_SYNC_OFFSET 0 k
  let resume := s.rd F.CFG_STREAM_RESUMABLE 0 k == 1 && x.hdr == some h && decide (64 < sy)
  let kind := if k = 16 then 0 else 1
  let s := s.wrs 0 k [(F.CFG_STREAM_STREAM_ID, h.id.toNat), (F.CFG_STREAM_RESUMABLE, 0)]
  let s := if resume then
      (s.putStream k { x with wait := false, key := s.selectedKey, from_ := sy, at_ := sy, blockStart := sy, block := [], prev := 1,
                              sig := none, got := x.kept }).wr F.CFG_STREAM_POS_OFFSET 0 k
        (if x.multicast then sy else sy + (s.posE k - 64))
    else
      let s := (s.wr F.CFG_STREAM_BLOCK 0 k 0).wr F.CFG_STREAM_SYNC_OFFSET 0 k 0
      let s : State := if k = 16 then { s with cfg := { s.cfg with firmware := [] } } else s
      s.putStream k { x with wait := false, hdr := some h, key := s.selectedKey, from_ := 64, at_ := 64, blockStart := 64, block := [],
                             sent := h.bytes, prev := 256, sig := none, got := StreamGot.reset, kept := StreamGot.reset }
  if h.kind.toNat > 1 ∨ h.reserved ≠ 0 ∨ h.flags.toNat ≥ 4 then s.reject k 16
  else if h.kind.toNat ≠ kind ∨ (k ≠ 16 ∧ !s.isReady) then s.reject k 24
  else s.needKey k

/-- STREAM_HEADER (R397): checked once its 64 bytes have come. -/
def execStreamHeader (slot : SlotNo) (h : StreamHdr) (multicast : Bool) (s : State) : Host.Outcome State Fault Refusal :=
  let k := slot.toNat
  let x := s.stream k
  .next (if !s.receiving k || !x.wait || x.multicast != multicast || s.posE k < 64 then s
    else
      let why := s.foreignWhy x h
      if why ≠ 0 then s.foreign k why else s.acceptHeader k h)

/-! ### Packets (R399 to R411) -/

/-- The 16 bytes of a packet header (Table 15-2). -/
def PktHdr.bytes (h : PktHdr) (typ : Nat) : List Byte :=
  List.flatten [[BitVec.ofNat 8 typ, h.mask], leBytes h.reserved.toNat 2, leBytes h.len.toNat 4, leBytes h.arg.toNat 8]

/-- Whether a packet applies to this device (R398, R400). -/
def State.applies (s : State) (x : StreamX) (h : PktHdr) : Bool :=
  let v3 := match x.hdr with
    | some y => y.version == 3
    | none => false
  v3 || h.mask.getLsbD (s.rd F.ROPE_STATUS_POS)

/-- Whether a packet of a type breaks Table 15-2 in a stream of a KIND, by itself (R399). -/
def packetBad (typ : Nat) (h : PktHdr) (kind : Nat) : Bool :=
  let len := h.len.toNat
  let arg := h.arg.toNat
  let shape : Bool := match typ with
    | 0 => arg == 0
    | 1 => len == 16 && arg == 0
    | 2 => kind == 0 && decide (16 ≤ len) && decide (len ≤ 65536) && decide (arg < 2 ^ 32)
    | 3 => kind == 0 && len == 29856 && arg == 0
    | 4 => kind == 0 && arg == 0
    | 5 => kind == 0 && len == 16 && arg == 0
    | 8 => kind == 1 && len == 256
    | 9 => kind == 1 && decide (arg < 256)
    | 14 => len == 29856 && arg == 0
    | 15 => len == 0 && arg == 0
    | _ => false
  !shape || h.reserved != 0 || len % 16 != 0

/-- Whether a packet breaks the order of packets or a block's limit (R399, R402). -/
def StreamX.orderBad (x : StreamX) (typ len : Nat) : Bool :=
  if typ = 15 then
    !(x.prev == 14 || x.at_ == x.blockStart) || (match x.hdr with
      | some h => x.at_ + 16 != h.totalLen.toNat
      | none => true)
  else if x.prev = 14 then true
  else if typ = 14 then x.prev != 1
  else if typ = 1 then false
  else decide (x.at_ + 16 + len - x.blockStart > 16777216)

/-- A packet of `typ` with its payload: nothing unless it lies at the next offset of a stream that receives; rejected when it is
malformed; else `f` once all its bytes have come. -/
def State.packet (s : State) (k typ : Nat) (h : PktHdr) (data : List Byte) (bad : StreamX → Bool) (f : State → StreamX → State) :
    State :=
  let x := s.stream k
  let kind := if k = 16 then 0 else 1
  if !s.receiving k || x.wait || s.posE k < x.at_ + 16 then s
  else if packetBad typ h kind || x.orderBad typ h.len.toNat then s.reject k 16
  else if data.length ≠ h.len.toNat then s
  else if bad x then s.reject k 16
  else if s.posE k < x.at_ + 16 + data.length then s
  else
    let y := { x with at_ := x.at_ + 16 + data.length, prev := typ }
    f s (if typ = 1 ∨ typ = 14 ∨ typ = 15 then y
      else { y with block := List.append x.block (List.append (h.bytes typ) data) })

/-- A packet of a block taken in: `g` changes what the stream has brought, if the packet applies to this device. -/
def State.takePacket (s : State) (k : Nat) (x : StreamX) (h : PktHdr) (g : StreamGot → StreamGot) : State :=
  s.putStream k (if s.applies x h then { x with got := { g x.got with applied := true } } else x)

/-- NOP_PACKET (R400). -/
def execNopPacket (slot : SlotNo) (h : PktHdr) (data : List Byte) (s : State) : Host.Outcome State Fault Refusal :=
  let k := slot.toNat
  .next (s.packet k 0 h data (fun _ => false) (fun s x =>
    s.putStream k { x with got := { x.got with fwLast := false, lastPart := none } }))

/-- SYNC (R402 to R405, R418): the block's tag is checked, and its bytes count as received. -/
def execSync (slot : SlotNo) (h : PktHdr) (tag : BitVec 128) (s : State) : Host.Outcome State Fault Refusal :=
  let k := slot.toNat
  let t := leBytes tag.toNat 16
  .next (s.packet k 1 h t (fun _ => false) (fun s x =>
    match x.hdr with
    | none => s
    | some hd =>
      let b := s.rd F.CFG_STREAM_BLOCK 0 k
      let nonce := List.append (leBytes hd.ivBase.toNat 8) (leBytes b 4)
      let aad := List.append hd.bytes (h.bytes 1)
      let enc := hd.flags.getLsbD 0
      let key := x.key.getD 0
      if enc && Config.gcmTag key nonce aad x.block != tag then s.reject k 17
      else
        let body := if enc then Config.gcmCipher key nonce x.block else x.block
        let got := { x.got with fwLast := false, lastPart := none }
        let s := (s.wr F.CFG_STREAM_BLOCK 0 k ((b + 1) % 65536)).wr F.CFG_STREAM_SYNC_OFFSET 0 k x.at_
        s.putStream k { x with sent := List.flatten [x.sent, body, h.bytes 1, t], block := [], blockStart := x.at_,
                               got := got, kept := got }))

/-- FIRMWARE (R399, R411): image bytes placed into Hut code memory. -/
def execFirmware (slot : SlotNo) (h : PktHdr) (data : List Byte) (s : State) : Host.Outcome State Fault Refusal :=
  let k := slot.toNat
  let off := h.arg.toNat
  .next (s.packet k 2 h data (fun x => s.applies x h && (x.got.fwsig.isSome || off != x.got.fwLen || decide (off + data.length > 8388608)))
    (fun s x =>
      let s : State := if s.applies x h then { s with cfg := { s.cfg with firmware := List.append s.cfg.firmware data } } else s
      s.takePacket k x h (fun g => { g with fwLen := g.fwLen + data.length, fwLast := true })))

/-- FWSIG (R399, R409): directly after the last FIRMWARE packet, and once. -/
def execFwsig (slot : SlotNo) (h : PktHdr) (pk sig : List Byte) (s : State) : Host.Outcome State Fault Refusal :=
  let k := slot.toNat
  .next (if pk.length ≠ 64 then s else s.packet k 3 h (List.append pk sig)
    (fun x => s.applies x h && (x.got.fwsig.isSome || !x.got.fwLast))
    (fun s x => s.takePacket k x h (fun g => { g with fwsig := some (pk, sig), fwLast := false })))

/-- WREG (R399, R411): register-write records for step WRITES. -/
def execWreg (slot : SlotNo) (h : PktHdr) (recs : List (Word × Word)) (s : State) : Host.Outcome State Fault Refusal :=
  let k := slot.toNat
  let data := recs.flatMap (fun r => List.append (leBytes r.1.toNat 8) (leBytes r.2.toNat 8))
  let badAddr := recs.any (fun r => decide (r.1.toNat < 0x01FF00000000) || decide (0x01FFFFFFFFFF < r.1.toNat) || r.1.toNat % 8 != 0)
  .next (s.packet k 4 h data (fun x => badAddr || (s.applies x h && decide (x.got.wregLen + data.length > 65536)))
    (fun s x => s.takePacket k x h (fun g =>
      { g with wregLen := g.wregLen + data.length, wregs := List.append g.wregs recs, fwLast := false })))

/-- START_SEQ (R399, R421): once. -/
def execStartSeq (slot : SlotNo) (h : PktHdr) (codes : List Byte) (s : State) : Host.Outcome State Fault Refusal :=
  let k := slot.toNat
  .next (s.packet k 5 h codes (fun x => s.applies x h && x.got.sawSeq)
    (fun s x => s.takePacket k x h (fun g => { g with sawSeq := true, codes := some codes, fwLast := false })))

/-- FRAME (R403, R410, R411): its CRC is checked, and its data goes to the receipt area, frame after frame. -/
def execFrame (slot : SlotNo) (h : PktHdr) (data : List Byte) (s : State) : Host.Outcome State Fault Refusal :=
  let k := slot.toNat
  let addr := h.arg.toNat % 2 ^ 32
  .next (s.packet k 8 h data (fun _ => false) (fun s x =>
    if (crc32c (List.append (leBytes addr 4) data)).toNat ≠ h.arg.toNat / 2 ^ 32 then s.reject k 18
    else
      let n := x.got.frames.length
      let s := match x.load with
        | some (_, o) =>
          if s.applies x h && decide (256 * (n + 1) ≤ o.receiptLen.toNat) then
            s.extWrites .config (o.receipt.toNat + 256 * n)
              ((List.range 32).map (fun i => ⟨BitVec.ofNat 64 (leNat ((data.drop (8 * i)).take 8)), 0, 0⟩))
          else s
        | none => s
      s.takePacket k x h (fun g => { g with frames := List.append g.frames [(addr, data)], lastPart := none })))

/-- IMAGE (R401): bytes added to a part of the section image. -/
def execImage (slot : SlotNo) (h : PktHdr) (data : List Byte) (s : State) : Host.Outcome State Fault Refusal :=
  let k := slot.toNat
  let code := h.arg.toNat
  .next (s.packet k 9 h data (fun _ => false) (fun s x => s.takePacket k x h (fun g =>
    let again := (aget g.parts code).isSome && g.lastPart != some code
    { g with parts := aput g.parts code (List.append ((aget g.parts code).getD []) data), lastPart := some code,
             badParts := g.badParts || again || decide (code = 1) || decide (code > 8) })))

/-- SIGNATURE (R399, R408): directly after a SYNC. -/
def execSignature (slot : SlotNo) (h : PktHdr) (pk sig : List Byte) (s : State) : Host.Outcome State Fault Refusal :=
  let k := slot.toNat
  .next (if pk.length ≠ 64 then s else s.packet k 14 h (List.append pk sig) (fun _ => false)
    (fun s x => s.putStream k { x with sig := some (pk, sig) }))

/-- STREAM_END_PACKET (R408): verification begins. -/
def execStreamEndPacket (slot : SlotNo) (h : PktHdr) (s : State) : Host.Outcome State Fault Refusal :=
  let k := slot.toNat
  .next (s.packet k 15 h [] (fun _ => false) (fun s x => (s.putStream k x).wr F.CFG_STREAM_STATE 0 k 2))

/-! ### Verification (R407 to R409, R417) -/

/-- Whether every stream needs a signature (R408, Table 15-11). -/
def State.reqSig (s : State) : Bool := s.fuses.reqSig || s.rd F.CFG_SEC_POLICY_REQ_SIG == 1

/-- Whether a public key hashes to a programmed key slot (R407). -/
def State.keyKnown (s : State) (slot : Nat) (pk : List Byte) : Bool :=
  s.fuses.slotUsed.getD slot false && leNat ((shake256 pk).take 32) == (s.fuses.slots.getD slot 0).toNat

/-- The reason signatures reject a stream, 0 for none (R408, R409). -/
def State.sigWhy (s : State) (k : Nat) (h : StreamHdr) (x : StreamX) : Nat :=
  let signed := h.flags.getLsbD 1
  let main := match x.sig with
    | none => if signed || k == 16 || s.reqSig then 20 else 0
    | some (pk, sig) =>
      if !signed then 20
      else if !s.keyKnown h.keySlot.toNat pk then 21
      else if !Config.sigVerifies pk x.sent sig then 22
      else 0
  if main ≠ 0 then main
  else match x.got.fwsig with
    | none => if x.got.fwLen = 0 then 0 else 23
    | some (pk, sig) => if s.keyKnown 0 pk && Config.sigVerifies pk s.cfg.firmware sig then 0 else 23

/-- The frames of seq_run's dependencies: what running step c runs, in order (R422, Table 15-7). -/
def stepClosure (c : Nat) : List Nat :=
  match c with
  | 1 => [1]
  | 2 => [1, 2]
  | 3 => [1, 3]
  | 4 => [1, 3, 4]
  | 5 => [1, 2, 3, 5]
  | 6 => [1, 6]
  | _ => []

/-- Steps done, with what running another adds. -/
def addSteps (done : List Nat) (c : Nat) : List Nat :=
  (stepClosure c).foldl (fun d x => if d.contains x then d else List.append d [x]) done

/-- seq_run (R422): the steps in order from a list of codes; 0 ends the plan at a bad code. -/
def seqRun : List Nat → List Nat → List Nat
  | [], d => List.append ([2, 3, 4, 5, 6].foldl addSteps d) [7]
  | c :: l, d =>
    if c = 7 then seqRun l d
    else if c = 0 ∨ c > 7 then List.append d [0]
    else seqRun l (addSteps d c)

/-- The codes of a START_SEQ payload: up to 15, ended by 0 (R421). -/
def seqCodes (l : List Byte) : List Nat := ((l.take 15).map (fun b => b.toNat)).takeWhile (fun c => c != 0)

/-- The step in progress as CFG_DEV_STATE shows it. -/
def State.showStep (s : State) : State := s.wr F.CFG_DEV_STATE_STEP 0 0 (s.cfg.stepsLeft.headD 0)

/-- The base stream is LOADED: the firmware starts, and the start-up sequence (R421, R424, Table 15-10). -/
def State.startUp (s : State) (g : StreamGot) : State :=
  let codes := match g.codes with
    | some l => seqCodes l
    | none => [1, 2, 3, 4, 5, 6, 7]
  let s := (List.range 15).foldl (fun s i => s.wr (F.CFG_STARTUP_STEP.at 4 i) 0 0 (codes.getD i 0 % 16)) s
  let s : State := { s with cfg := { s.cfg with stepsLeft := seqRun codes [1], startedAt := s.time, wregs := g.wregs } }
  (s.wr F.CFG_DEV_STATE_STATE 0 0 3).showStep

/-- A stream that passed every check is LOADED or SKIPPED (R417). -/
def State.passStream (s : State) (k : Nat) : State :=
  let x := s.stream k
  let oc := if x.got.applied then 1 else 2
  let s := (s.wrs 0 k [(F.CFG_STREAM_STATE, 3), (F.CFG_STREAM_OUTCOME, oc), (F.CFG_STREAM_REASON, 0)]).count C.CFG_CNT_STREAM_OK
  if x.got.applied then (if k = 16 then s.startUp x.got else s)
  else
    let s := s.modStream k (fun x => { x with load := none, wait := k == 16 })
    match x.load with
    | some (c, _) => s.loadDone c 2 (32 * 2) 0 none
    | none => s

/-- SIGNATURE_VERIFIED (R408, R409, R417). -/
def execSignatureVerified (slot : SlotNo) (s : State) : Host.Outcome State Fault Refusal :=
  let k := slot.toNat
  let x := s.stream k
  .next (if s.rd F.CFG_STREAM_STATE 0 k ≠ 2 then s
    else match x.hdr with
      | none => s
      | some h =>
        let why := s.sigWhy k h x
        if why ≠ 0 then s.reject k why else s.passStream k)

/-- LOAD_DEADLINE (R416, R417, R423): a stream whose END came in time goes on. -/
def execLoadDeadline (slot : SlotNo) (s : State) : Host.Outcome State Fault Refusal :=
  let k := slot.toNat
  .next (if s.time < (s.stream k).deadline ∨ (s.receiving k ∧ s.endCame k) then s
    else if s.receiving k then s.endStream k 4 8
    else if s.baseAgain k then (if s.rd F.CFG_STREAM_OUTCOME 0 16 = 2 then s.releaseClaim else s.endStream k 4 8)
    else s)

/-! ### Staging (R295, R297, R324, R412) -/

/-- Whether a frame address is one that Table 15-4 gives for its site and lies in W × H (R410). -/
def frameOk (g : SectionImage) (addr : Nat) : Bool :=
  let a := siteAt (addr % 16) (addr / 16 % 16)
  let f := addr / 256 % 128
  decide (addr < 32768) && g.inRect a && (isTarn a || decide (f < 72) || decide (80 ≤ f)) && decide (f < 96)

/-- The words of a frame. -/
def frameWords (l : List Byte) : List Word :=
  (List.range 32).map (fun i => BitVec.ofNat 64 (leNat ((l.drop (8 * i)).take 8)))

/-- Words of one store of a site from its frames: `lo` is its first frame, `n` how many it may have. -/
def storeOf (frames : List (Nat × List Byte)) (a lo n : Nat) : List Word :=
  let get (f : Nat) : Option (List Byte) := (frames.find? (fun x => x.1 == colOf a + 16 * rowOf a + 256 * (lo + f))).map Prod.snd
  let top := ((List.range n).filter (fun f => (get f).isSome)).foldl (fun m f => max m (f + 1)) 0
  (List.range top).flatMap (fun f => match get f with
    | some l => frameWords l
    | none => List.replicate 32 0)

/-- A site record from its frames (R410): stores, and register-image words by offset. -/
def siteFrom (g : SectionImage) (frames : List (Nat × List Byte)) (a : Nat) : SiteRec :=
  let regs := (List.range 16).flatMap (fun f =>
    match frames.find? (fun x => x.1 == colOf a + 16 * rowOf a + 256 * (80 + f)) with
    | some (_, l) => ((List.range 32).zip (frameWords l)).map (fun y => (256 * f + 8 * y.1, y.2))
    | none => [])
  let r : SiteRec := ⟨a, 0, storeOf frames a 0 64, storeOf frames a 64 (if isTarn a then 16 else 8), regs,
    ((g.rec? a).map SiteRec.buffers).getD []⟩
  { r with plen := fieldGet F.SEQ_CTRL_PLEN (r.regWord RegName.SEQ_CTRL.place.offset) }

/-- Whether the parts that a stream brought are those that Table 10-1 requires of an image: header, barrier table and memory plan; the
connection, join and relocation tables and the prefetch programs where it has such entries; the tile plan where a program has an
MMA. -/
def partsOk (g : SectionImage) (parts : List Nat) : Bool :=
  let need (code : Nat) (want : Bool) : Bool := !want || parts.contains code
  [0, 4, 5].all parts.contains && need 2 (!g.conns.isEmpty) && need 3 (!g.joins.isEmpty) && need 7 (!g.relocs.isEmpty) &&
  need 8 (!g.prefetch.isEmpty) &&
  need 6 (!g.tiles.isEmpty || g.sites.any (fun r => r.prog.any (fun x => match x.2 with
    | .mma _ => true
    | _ => false)))

/-- The image the Hut checks: its decoded parts, with the site records that travelled as frames (R283, R401, R410). -/
def State.received (g : SectionImage) (got : StreamGot) : SectionImage :=
  let fr := got.frames
  let l := dedup (fr.map (fun x => siteAt (x.1 % 16) (x.1 / 16 % 16)))
  let ok := g.formOk && !got.badParts && fr.all (fun x => frameOk g x.1) && (fr.map Prod.fst).length == (dedup (fr.map Prod.fst)).length
  let g := { g with formOk := ok, sites := l.map (siteFrom g fr) }
  { g with formOk := ok && !l.isEmpty && partsOk g (got.parts.map Prod.fst) }

/-- The entry a passing load takes: the lowest empty one, else the one that has been Done or Failed longest. -/
def State.freeEntry (s : State) (p : Nat) : Option Nat :=
  let l := (List.range 32).map (· + 32 * p)
  match l.find? (fun e => s.sectState e == 0) with
  | some e => some e
  | none =>
    let stamp (e : Nat) : Nat := ((s.sectX? e).map SectX.stamp).getD 0
    (l.filter (fun e => decide (s.sectState e ≥ 7))).foldl (fun (b : Option Nat) e => match b with
      | some x => if stamp e < stamp x then some e else b
      | none => some e) none

/-- An image that passed every check becomes Staged in an entry at an origin, its staged frames written (R295, R197, R292, R412). -/
def State.stage (s : State) (p e : Nat) (g : SectionImage) (o : LoadOps) : State :=
  let c := o.orgC.toNat
  let r := o.orgR.toNat
  let halves := (s.bindHalves e g c r).map (fun h => (h.1, h.2.getD 0))
  let groups := (List.range 4).map (s.groupBase p g c)
  let places := (s.placeAreas p e g c).getD ([], 0)
  let bases := g.slots.map (fun y => groups.getD (groupOfCol (y.2 + c - g.homeC)) 0)
  let x : SectX :=
    { img := g, update := o.update, log2 := s.logLen, everArmed := false, rearms := 0, halves := halves, slotBase := bases,
      groupBase := groups, areas := places.1, frameBase := places.2, stagedAt := none,
      framesLeft := [], startAt := 0, phase := .none, restoring := false, restored := false, framesDone := false, held := false,
      released := false, stamp := 0, runCtx := none, saved := [], savedBars := [], newRow := none, movedAt := none, autoRun := false,
      autoArm := false, haltSite := 0, since := 0, pfStarted := [], ran := false }
  let s := s.modHut (fun h => { h with sects := aput h.sects e x })
  let s := (s.setWord .HUT_SECT 0 e 0).wrs 0 e [(F.HUT_SECT_ORG_COL, c), (F.HUT_SECT_ORG_ROW, r), (F.HUT_SECT_JOB, g.job)]
  (s.setSect e 1).stageFrames e

/-- Whether no LOAD that the mailbox delivered earlier still waits for its check (R284). -/
def State.firstLoad (s : State) (k : Nat) : Bool :=
  s.cfg.streams.all (fun y => y.1 == k || y.2.load.isNone || decide ((s.stream k).loadNo < y.2.loadNo))

/-- LOADER_CHECK (R284, R295, R297, R324): the image of a stream that ended LOADED is staged or refused, in the order of the LOADs. -/
def execLoaderCheck (p : PartNo) (img : SectionImage) (s : State) : Host.Outcome State Fault Refusal :=
  let k := p.toNat
  let x := s.stream k
  .next (match x.load with
    | none => s
    | some (c, o) =>
      if s.rd F.CFG_STREAM_STATE 0 k ≠ 3 ∨ s.rd F.CFG_STREAM_OUTCOME 0 k ≠ 1 ∨ !s.firstLoad k then s
      else
        let g := State.received img x.got
        let s := s.modStream k (fun x => { x with load := none })
        match s.freeEntry k with
        | none => s.loadDone c 3 stSectionLimit 0 none
        | some e => match s.checkImage k e g o.orgC.toNat o.orgR.toNat with
          | some w =>
            let s := s.recordRefusal k g.job w
            s.loadDone c 1 w.code (s.word .HUT_LOAD_REFUSAL 0 k).toNat none
          | none => (s.stage k e g o).loadDone c 0 0 0 (some e))

/-! ### Start-up (R420 to R425) -/

/-- A start-up step fails (R425): 1 STARTUP_LOCK, 2 STARTUP_MEMORY, 3 STARTUP_CODE. -/
def State.startFail (s : State) (why : Nat) : State :=
  let s : State := { s with cfg := { s.cfg with stepsLeft := [] } }
  (s.wrs 0 0 [(F.CFG_DEV_STATE_STATE, 5), (F.CFG_DEV_STATE_FAIL, why)]).showStep

/-- A step is done. -/
def State.nextStep (s : State) : State :=
  let s : State := { s with cfg := { s.cfg with stepsLeft := s.cfg.stepsLeft.drop 1 } }
  s.showStep

/-- One state record of the health record applied (R392, Tables 14-7 and 14-2). -/
def State.applyRecord (s : State) (r : HRec) : State :=
  let d (i : Nat) : Nat := r.detail.getD i 0
  match r.type with
  | 1 =>
    let st := if d 0 = 1 then (if d 1 > 0 then 2 else 0) else d 0
    let s := s.wrs 0 r.unit [(F.HUT_SPUR_HEALTH_STATE, st), (F.HUT_SPUR_HEALTH_WATCH_LEFT, if 2 ≤ st then d 1 else 0),
      (F.HUT_SPUR_HEALTH_FAULTS, d 2), (F.HUT_SPUR_HEALTH_CAUSE, d 3)]
    if d 0 = 1 then s.modHut (fun h => { h with testNow := r.unit :: h.testNow }) else s
  | 3 => s.setChan r.unit 3
  | 4 => match allDirs.find? (fun x => x.num == r.unit % 4) with
    | some dir => s.setLink (r.unit / 4) dir (d 0)
    | none => s
  | _ => s

/-- The health record is read (R392). -/
def State.readRecord (s : State) : State :=
  let s := if s.hut.storeOk then s
    else (s.modHut (fun h => { h with recs := [], bootCount := 0, compactions := 0, storeOk := true })).wr F.HUT_HREC_STATUS_HREC_RESET 0 0 1
  let s := s.modHut (fun h => { h with bootCount := (h.bootCount + 1) % 2 ^ 32 })
  let good := s.hut.recs.filter (fun r => !r.bad)
  let s := s.wrs 0 0 [(F.HUT_HREC_STATUS_BADREC, (s.hut.recs.length - good.length) % 65536),
    (F.HUT_HREC_STATUS_BOOT, s.hut.bootCount % 65536), (F.HUT_HREC_STATUS_USED, s.hut.recs.length)]
  (newestState good).foldl (fun s r => s.applyRecord r) s

/-- A group formed at start-up (R279): NORMAL, REFORMED or OFFLINE. -/
def State.formGroup (s : State) (k : Nat) : State :=
  let s := s.reformMap k
  let n := s.liveChans k
  s.wr F.MEM_GRP_STATUS_STATE 0 k (if n = 48 then 0 else if n = 0 then 4 else 3)

/-- Step MEMORY (Table 15-7, R279, R280, R392). -/
def State.stepMemory (s : State) (bad : List ChanNo) : State :=
  let s := s.readRecord
  let s := bad.foldl (fun s c => if s.chanState c.toNat = 3 ∨ c.toNat ≥ 192 then s
    else (s.setChan c.toNat 3).record 3 c.toNat true [3, 0]) s
  let s := (List.range 4).foldl (fun s k => s.formGroup k) s
  let s := (List.range 4).foldl (fun s k =>
    if s.groupState k = 4 then s else s.zeroRange (k * groupSize) ((k + 1) * groupSize)) s
  if s.groupState 0 = 4 then s.startFail 2 else s.nextStep

/-- Step SELFTEST (Table 15-7, R383): a failed test takes effect at step 3 of the next boundary (Table 14-2). -/
def State.stepSelftest (s : State) (bad : List SpurNo) : State :=
  let s := (List.range 192).foldl (fun s n =>
    if s.rd F.HUT_SPUR_HEALTH_STATE 0 n = 3 then s
    else
      let p := s.pitch
      ((s.count C.HUT_CNT_SELFTEST).modHut (fun h =>
        { h with lastTest := aput h.lastTest n p, testNow := h.testNow.filter (fun x => x != n) })).testResult n
          (!bad.any (fun b => b.toNat == n))) s
  s.nextStep

/-- Step WRITES (R422, R7): the records in order, with full rights. -/
def State.stepWrites (s : State) : State :=
  let s := s.cfg.wregs.foldl (fun s r => match regAt r.1.toNat with
    | .reg g a i => s.hostWrite .admin g a i r.2 (BitVec.allOnes 64)
    | _ => s) s
  s.nextStep

/-- Step RESET (Table 15-7): every site register at its reset value; the states of links are those of step MEMORY. -/
def State.stepReset (s : State) : State :=
  let s : State := { s with regs := s.regs.filter (fun x => x.1.reg.place.block.isSome || x.1.reg == .TRV_LINK_STATE) }
  s.nextStep

/-- The core PLL reports lock: pitch 0 begins, unless a start-up before has begun it (R28). -/
def State.startClock (s : State) : State :=
  if s.board.pllLock then s
  else { s with cycle := 0, board := { s.board with pllLock := true } }

/-- STARTUP_STEP (R422): the next step of seq_run; LOCK waits for the PLLs, MEMORY for STAGE_IN_N (R456). -/
def execStartupStep (o : StepObs) (s : State) : Host.Outcome State Fault Refusal :=
  .next (if s.rd F.CFG_DEV_STATE_STATE ≠ 3 then s
    else match s.cfg.stepsLeft with
      | [] => s
      | c :: _ => match c with
        | 0 => s.startFail 3
        | 1 => if o.lock then s.startClock.nextStep else s
        | 2 => if s.board.stageInN then s else s.stepMemory o.badChannels
        | 3 => s.stepReset
        | 4 => s.stepWrites
        | 5 => s.stepSelftest o.badSpurs
        | 6 =>
          let s : State := { s with board := { s.board with stageOutN := false } }
          s.nextStep
        | _ =>
          let s : State := { s with board := { s.board with readyN := false } }
          (s.wr F.CFG_DEV_STATE_STATE 0 0 4).nextStep)

/-- PLL_LOCK_TIMEOUT (R425): 1 ms after the start. -/
def execPllLockTimeout (s : State) : Host.Outcome State Fault Refusal :=
  .next (if s.rd F.CFG_DEV_STATE_STATE = 3 ∧ s.cfg.stepsLeft.headD 0 = 1 ∧ s.cfg.startedAt + milli ≤ s.time then s.startFail 1 else s)

/-- BOOT_COMPLETE (R420, R428): the port takes the first permitted width, and the device is UNCLAIMED, once it has a Rope position
(R464). -/
def execBootComplete (s : State) : Host.Outcome State Fault Refusal :=
  .next (if s.rd F.CFG_DEV_STATE_STATE ≠ 0 || !s.board.porstN || !s.board.pwrgd || s.rd F.ROPE_STATUS_POS_VALID = 0 then s
    else
      let (c, p) := s.pickWidth (fun _ => true)
      (s.wrs 0 0 [(F.GATE_LANE_HEALTH_WIDTH, c), (F.GATE_LANE_HEALTH_PAIR, p)]).wr F.CFG_DEV_STATE_STATE 0 0 1)

end Sys2Proof.Machine
end

