-- ==== Sys2Proof/Machine/Board.lean ====
section
/-! DEFINITION. The board side (chapter 17): power and reset, pins, temperature and power, the Rope, SMBus, and the entry
into Bivouac. -/

namespace Sys2Proof.Machine

/-- The state with the board side changed. -/
def State.modBoard (s : State) (f : BoardX → BoardX) : State := { s with board := f s.board }

/-! ### Power and reset (R453 to R458) -/

/-- LOG2_LEN of the strap PITCH_DEF (Table 17-4); the 4-bit field holds 0 for 16 (log entry 6). -/
def pitchDef (v : Nat) : Nat := [12, 10, 14, 0].getD v 12

/-- What a reset leaves of the registers: those that a strap gives, and the head's position (R457, R458, R464). -/
def State.strapRegs (s : State) (straps : Word) : State :=
  let d := pitchDef (fieldGet F.CFG_STRAPS_PITCH_DEF straps)
  let head := fieldGet F.CFG_STRAPS_ROPE_HEAD straps
  let s := ({ s with regs := [] } : State).setWord .CFG_STRAPS 0 0 straps
  let s := if d = 12 then s else (s.wr F.COL_PITCH_NUM_LOG2_LEN 0 0 d).wr F.COL_PITCH_CTRL_NEW_LOG2 0 0 d
  s.wrs 0 0 [(F.ROPE_STATUS_HEAD, head), (F.ROPE_STATUS_POS_VALID, head)]

/-- Reset (R455): every register and all memory is lost; the fuses, the VBAT key and the health-record store stay. The
queue of commands, the record of outputs and the counter of free values are the model's own. -/
def State.hardReset (s : State) (straps : Word) : State :=
  let r := State.reset
  let b := r.board
  let h := r.hut
  ({ r with
      pending := s.pending, out := s.out, free := s.free, fuses := s.fuses, cfg := CfgX.reset s.fuses
      hut := { h with recs := s.hut.recs, bootCount := s.hut.bootCount, compactions := s.hut.compactions, storeOk := s.hut.storeOk }
      board := { b with pwrgd := s.board.pwrgd, porstN := s.board.porstN, thermtripN := s.board.thermtripN, cut := s.board.cut,
                        alerts := s.board.alerts, stageInN := s.board.stageInN } } : State).strapRegs straps

/-- The straps as last sampled. -/
def State.straps (s : State) : Word := s.word .CFG_STRAPS 0 0

/-- PWRGD_RISE (R453, R473): after THERMTRIP_N, only once the input has been cycled and TJ is below 95 °C. -/
def execPwrgdRise (s : State) : Host.Outcome State Fault Refusal :=
  let cool := (BitVec.ofNat 12 (s.rd F.PWR_THERM_TJ)).toInt < 380
  .next (if s.board.pwrgd || (!s.board.thermtripN && !(s.board.cut && cool)) then s
    else (s.modBoard (fun b => { b with pwrgd := true, thermtripN := true, cut := false })).hardReset s.straps)

/-- INPUT_UNDERVOLTAGE (R453): PWRGD falls, and the device is held in reset. -/
def execInputUndervoltage (s : State) : Host.Outcome State Fault Refusal :=
  .next ((s.modBoard (fun b => { b with pwrgd := false, cut := true })).hardReset s.straps)

/-- PORST_N_ASSERT (R455). -/
def execPorstNAssert (s : State) : Host.Outcome State Fault Refusal :=
  .next ((s.modBoard (fun b => { b with porstN := false })).hardReset s.straps)

/-- The word of CFG_STRAPS for a sample (Table 17-13). -/
def Straps.word (st : Straps) : Word :=
  [(F.CFG_STRAPS_ROPE_HEAD, st.ropeHead.toNat), (F.CFG_STRAPS_MGMT_BASE, st.mgmtBase.toNat), (F.CFG_STRAPS_PITCH_DEF, st.pitchDef.toNat),
   (F.CFG_STRAPS_CLAIM_WIN, st.claimWin.toNat), (F.CFG_STRAPS_ETH_MODE, st.ethMode.toNat), (F.CFG_STRAPS_KEY_SRC, st.keySrc.toNat),
   (F.CFG_STRAPS_BOARD_ID, st.boardId.toNat)].foldl (fun w x => fieldSet x.1 x.2 w) 0

/-- PORST_N_DEASSERT (R455, R457): the straps are sampled, and the device is in BOOT. -/
def execPorstNDeassert (st : Straps) (s : State) : Host.Outcome State Fault Refusal :=
  .next (if s.board.porstN then s
    else (s.modBoard (fun b => { b with porstN := true })).hardReset st.word)

/-- STAGE_IN_N_LOW (R456). -/
def execStageInNLow (s : State) : Host.Outcome State Fault Refusal := .next (s.modBoard (fun b => { b with stageInN := false }))

/-- VBAT_LOSS (R406). -/
def execVbatLoss (s : State) : Host.Outcome State Fault Refusal := .next { s with fuses := { s.fuses with vbat := none } }

/-! ### Temperature and power (R473) -/

/-- THERMTRIP_N is asserted and the power stages go off (R473): PWRGD falls, and the device is held in reset (R453). -/
def State.thermTrip (s : State) : State :=
  (s.modBoard (fun b => { b with thermtripN := false, pwrgd := false, cut := false })).hardReset s.straps

/-- TEMPERATURE_SAMPLE (R473): TJ in units of 0.25 °C; a warning from 95 °C, a trip from 105 °C. -/
def execTemperatureSample (tj : BitVec 12) (s : State) : Host.Outcome State Fault Refusal :=
  let t := tj.toInt
  let show_ (s : State) : State := s.wrs 0 0 [(F.PWR_THERM_TJ, tj.toNat), (F.PWR_THERM_WARN, if t ≥ 380 then 1 else 0)]
  .next (
    let s := show_ s
    let s := if t ≥ 380 then s.alert 0 else s
    if t ≥ 420 then show_ s.thermTrip else s)

/-- THERMAL_WINDOW (R473, R478): the throttle level at the end of a 1 ms window, and the trip if it has not come before. -/
def execThermalWindow (maxTj : BitVec 12) (watts : BitVec 16) (s : State) : Host.Outcome State Fault Refusal :=
  let limit := s.rd F.PWR_THERM_LIMIT_W
  let level := s.rd F.PWR_THERM_LEVEL
  let hot := decide (maxTj.toInt ≥ 400) || decide (watts.toNat > limit)
  let cool := decide (maxTj.toInt ≤ 388) && decide (watts.toNat + 50 ≤ limit)
  let n := if hot || !cool then 0 else s.board.coolWindows + 1
  let new := if hot then min 3 (level + 1) else if n = 10 then level - 1 else level
  .next (if s.time < s.board.windowDue then s
    else if maxTj.toInt ≥ 420 then s.thermTrip
    else
      let s := s.wrs 0 0 [(F.PWR_THERM_POWER_W, watts.toNat), (F.PWR_THERM_LEVEL, new)]
      let s := s.modBoard (fun b => { b with coolWindows := if n = 10 then 0 else n, windowDue := s.time + milli })
      if new = 0 then s else (s.alert 1).count C.PWR_CNT_THROTTLE)

/-! ### Wake events (R471) -/

/-- A wake event of a source: in Bivouac the wake begins; during entry it waits for the entry to complete. -/
def State.wakeEvent (s : State) (src : Nat) : State :=
  match s.rd F.PWR_BIVOUAC_STATE with
  | 2 => s.wrs 0 0 [(F.PWR_BIVOUAC_STATE, 3), (F.PWR_BIVOUAC_WAKE_SRC, src)]
  | 1 => if s.board.wakeSrc = 0 then s.modBoard (fun b => { b with wakeSrc := src }) else s
  | _ => s

/-! ### The Rope (R461 to R464) -/

/-- The device's position, and whether it has one. -/
def State.pos (s : State) : Nat := s.rd F.ROPE_STATUS_POS
def State.hasPos (s : State) : Bool := s.rd F.ROPE_STATUS_POS_VALID == 1

/-- Fields of one Rope side. -/
def linkFld : RopeSide → Fld
  | .up => F.ROPE_STATUS_UP_LINK
  | .down => F.ROPE_STATUS_DOWN_LINK
def verFld : RopeSide → Fld
  | .up => F.ROPE_STATUS_UP_VER
  | .down => F.ROPE_STATUS_DOWN_VER

/-- One Rope link's counts, and their change. -/
def BoardX.side (b : BoardX) : RopeSide → RopeLinkX
  | .up => b.up
  | .down => b.down
def BoardX.setSide (b : BoardX) (d : RopeSide) (x : RopeLinkX) : BoardX :=
  match d with
  | .up => { b with up := x }
  | .down => { b with down := x }

/-- A frame sent on a side whose link is up; a device that sets LONG forwards nothing (R464). -/
def State.ropeSend (s : State) (d : RopeSide) (type dst src seq : Nat) (payload : List Byte) : State :=
  if s.rd (linkFld d) = 1 ∧ s.rd F.ROPE_STATUS_LONG = 0 then s.emit (.rope d type dst src seq payload) else s

/-- The side toward a position. -/
def State.toward (s : State) (dst : Nat) : RopeSide := if dst > s.pos then .down else .up

/-- A frame for another device sent on toward it; a broadcast frame sent onward (R462, log entry 44). -/
def State.ropeForward (s : State) (type dst src seq : Nat) (payload : List Byte) : State :=
  if dst = 15 then s.ropeSend .down type dst src seq payload else s.ropeSend (s.toward dst) type dst src seq payload

/-- CHAIN sent upstream: the highest position known on this side (R464). -/
def State.sendChain (s : State) : State :=
  if s.hasPos then s.ropeSend .up 3 15 s.pos 0 [BitVec.ofNat 8 (s.rd F.ROPE_STATUS_LAST)] else s

/-- POS sent on ROPE_OUT (R464). -/
def State.sendPos (s : State) : State :=
  if s.hasPos then s.ropeSend .down 2 15 s.pos 0 [BitVec.ofNat 8 s.pos] else s

/-- The highest position known (Table 17-14, LAST). -/
def State.knowLast (s : State) (n : Nat) : State := (s.wr F.ROPE_STATUS_LAST 0 0 (max n s.pos % 8)).sendChain

/-- The highest version common with a peer's range; 0 for none (R463: the device supports 1 and 2). -/
def ropeVersion (lo hi : Nat) : Nat := if lo ≤ 2 ∧ 2 ≤ hi then 2 else if lo ≤ 1 ∧ 1 ≤ hi then 1 else 0

/-- HELLO (R463): three bring the link up, if the ends share a version. -/
def execHello (side : RopeSide) (lo hi : Byte) (s : State) : Host.Outcome State Fault Refusal :=
  let n := (s.board.side side).hellos + 1
  let v := ropeVersion lo.toNat hi.toNat
  .next (if !s.board.pwrgd then s
    else
      let s := s.modBoard (fun b => b.setSide side ⟨min n 3, lo.toNat, hi.toNat, s.time, (b.side side).sendDue⟩)
      if n < 3 then s
      else if v = 0 then s.wrs 0 0 [(linkFld side, 0), (verFld side, 0)]
      else
        let was := s.rd (linkFld side)
        let s := s.wrs 0 0 [(linkFld side, 1), (verFld side, v)]
        if was = 1 then s
        else match side with
          | .down => s.sendPos
          | .up => s.sendChain)

/-- HELLO_SEND (R463): once per millisecond, the lowest and highest version of this end. -/
def execHelloSend (side : RopeSide) (s : State) : Host.Outcome State Fault Refusal :=
  let x := s.board.side side
  .next (if !s.board.pwrgd || decide (s.time < x.sendDue) then s
    else (s.modBoard (fun b => b.setSide side { x with sendDue := s.time + milli })).emit (.rope side 1 15 s.pos 0 [1, 2]))

/-- ROPE_LINK_DOWN (R463): after three periods without a HELLO. -/
def execRopeLinkDown (side : RopeSide) (s : State) : Host.Outcome State Fault Refusal :=
  let x := s.board.side side
  .next (if s.time < x.heardAt + 3 * milli then s
    else (s.modBoard (fun b => b.setSide side { x with hellos := 0, peerLo := 0, peerHi := 0 })).wrs 0 0 [(linkFld side, 0), (verFld side, 0)])

/-- POS (R464). -/
def execPos (crcOk : Bool) (n : Byte) (s : State) : Host.Outcome State Fault Refusal :=
  .next (if !crcOk then s.count C.ROPE_CNT_CRC
    else if s.rd F.ROPE_STATUS_HEAD = 1 ∨ s.hasPos then s
    else if n.toNat + 1 > 7 then s.wr F.ROPE_STATUS_LONG 0 0 1
    else
      let s := s.wrs 0 0 [(F.ROPE_STATUS_POS, n.toNat + 1), (F.ROPE_STATUS_POS_VALID, 1)]
      (s.knowLast (s.rd F.ROPE_STATUS_LAST)).sendPos)

/-- CHAIN (R464). -/
def execChain (crcOk : Bool) (n : Byte) (s : State) : Host.Outcome State Fault Refusal :=
  .next (if !crcOk then s.count C.ROPE_CNT_CRC
    else if n.toNat > 7 then s
    else s.knowLast n.toNat)

/-- ROPE_WAKE (R462, R471). -/
def execRopeWake (crcOk : Bool) (dst : BitVec 4) (s : State) : Host.Outcome State Fault Refusal :=
  let d := dst.toNat
  .next (if !crcOk then s.count C.ROPE_CNT_CRC
    else
      let s := if d = 15 ∨ d ≠ s.pos then s.ropeForward 4 d 0 0 [] else s
      if d = 15 ∨ (s.hasPos ∧ d = s.pos) then s.wakeEvent 3 else s)

/-! ### SMBus (R465 to R468) -/

/-- Statuses of Table 17-7. -/
def smbOk : Nat := 0
def smbPending : Nat := 1
def smbBadCmd : Nat := 2
def smbPec : Nat := 3
def smbState : Nat := 4
def smbRange : Nat := 5
def smbSlotUsed : Nat := 6
def smbFuseFail : Nat := 7
def smbNoRecord : Nat := 8
def smbRope : Nat := 9
def smbBusy : Nat := 10

/-- GET_STATUS (Table 17-6): the alert causes are cleared. The input voltage is measured: a free value (log entry 45). -/
def State.smbStatus (s : State) : List Byte × State :=
  let (v, s) := s.fresh
  let tj := (BitVec.ofNat 12 (s.rd F.PWR_THERM_TJ)).signExtend 16
  let d := List.flatten [[BitVec.ofNat 8 (s.rd F.CFG_DEV_STATE_STATE), BitVec.ofNat 8 s.pos, BitVec.ofNat 8 (s.rd F.PWR_BIVOUAC_STATE),
      BitVec.ofNat 8 (s.rd F.PWR_THERM_LEVEL)], leBytes tj.toNat 2, leBytes (s.rd F.PWR_THERM_POWER_W) 2, leBytes v.toNat 2,
    leBytes s.board.alerts 2, leBytes s.pitch 4]
  (d, s.modBoard (fun b => { b with alerts := 0 }))

/-- The 32 bytes of a record (Table 14-6); the parts of DETAIL as two bytes each (log entry 46). -/
def HRec.bytes (r : HRec) : List Byte :=
  let d := (List.range 7).flatMap (fun i => leBytes (r.detail.getD i 0) 2)
  let l := List.flatten [[BitVec.ofNat 8 r.type, BitVec.ofNat 8 r.state.toNat], leBytes r.unit 2, leBytes r.pitch 6, leBytes r.boot 4, d]
  let c := crc32c l
  List.append l (leBytes (if r.bad then ~~~c else c).toNat 4)

/-- Whether a slot receives or verifies an encrypted stream. -/
def State.encBusy (s : State) : Bool :=
  (List.range 17).any (fun k => [1, 2].contains (s.rd F.CFG_STREAM_STATE 0 k) && !(s.stream k).wait &&
    (match (s.stream k).hdr with
      | some h => h.flags.getLsbD 0
      | none => false))

/-- SET_IP (R468). -/
def State.setIp (s : State) (family plen : Nat) (addr gw : BitVec 128) : Nat × State :=
  if family = 0 then (smbOk, s.modGate (fun g => { g with ip := none, ipNet := (0, 0, 0), dhcp := true }))
  else if (family = 4 ∧ plen ≤ 32) ∨ (family = 6 ∧ plen ≤ 128) then
    (smbOk, s.modGate (fun g => { g with ip := some addr, ipNet := (family, plen, gw), dhcp := false }))
  else (smbRange, s)

/-- SET_VBAT_KEY and CLEAR_VBAT_KEY (R468). -/
def State.setVbat (s : State) (key : Option (BitVec 256)) : Nat × State :=
  if s.encBusy then (smbState, s) else (smbOk, { s with fuses := { s.fuses with vbat := key } })

/-- PROG_KEY_SLOT (R468): the fuses are blown while the command is pending. -/
def State.progSlot (s : State) (slot : Nat) (hash : BitVec 256) : Nat × State :=
  if !(decide (s.rd F.CFG_DEV_STATE_STATE ≤ 1)) then (smbState, s)
  else if slot = 0 ∨ slot > 3 then (smbRange, s)
  else if s.fuses.slotUsed.getD slot false then (smbSlotUsed, s)
  else (smbPending, s.modBoard (fun b =>
    { b with smb := ⟨some (6, BitVec.ofNat 8 slot :: leBytes hash.toNat 32), none⟩ }))

/-- HEALTH_CLEAR (R393, R468). -/
def State.clearHealth (s : State) (type unit : Nat) : Nat × State :=
  if s.hut.recs.any (fun r => r.state && r.type == type && r.type != 8 && r.unit == unit && !r.bad)
  then (smbOk, s.record 8 unit true [type]) else (smbNoRecord, s)

/-- ROPE_RELAY (R462, R463, R468): the command goes to the target, or none is there; `none` waits for the reply. -/
def State.ropeRelay (s : State) (target : Nat) (cmd : List Byte) : Option Nat × State :=
  let d := s.toward target
  if target > 7 ∨ cmd = [] ∨ cmd.length > 64 then (some smbRange, s)
  else if target = s.pos ∨ (target > s.rd F.ROPE_STATUS_LAST ∧ target > s.pos) ∨ s.rd (linkFld d) = 0 ∨ s.rd (verFld d) < 2 then
    (some smbRope, s)
  else
    let q := s.board.relaySeq
    let s := s.modBoard (fun b => { b with relay := some ⟨target, q, cmd, 0, s.time⟩, relaySeq := (q + 1) % 256 })
    (none, s.ropeSend d 5 target s.pos q cmd)

/-- SET_POWER_LIMIT (R467). -/
def State.setLimit (s : State) (w : Nat) : Nat × State :=
  if 300 ≤ w ∧ w ≤ 1200 then (smbOk, s.wr F.PWR_THERM_LIMIT_W 0 0 w) else (smbRange, s)

/-- The bits of a little-endian byte string. -/
def leVec (w : Nat) (l : List Byte) : BitVec w := BitVec.ofNat w (leNat l)

/-- One SMBus command by its code and data (Table 17-6): the status, `none` when the reply comes later, and the data. -/
def State.smbRun (s : State) (code : Nat) (data : List Byte) : Option Nat × List Byte × State :=
  let part (i n : Nat) : List Byte := (data.drop i).take n
  let plain (r : Nat × State) : Option Nat × List Byte × State := (some r.1, [], r.2)
  match code with
  | 1 => let (d, s) := s.smbStatus; (some smbOk, d, s)
  | 2 => (some smbOk, List.flatten [leBytes s.fuses.serial.toNat 16, leBytes s.fuses.mac.toNat 6, leBytes 0x0300 2, [0x41]], s)
  | 3 => plain (s.setIp (leNat (part 0 1)) (leNat (part 1 1)) (leVec 128 (part 2 16)) (leVec 128 (part 18 16)))
  | 4 => plain (s.setVbat (some (leVec 256 (part 0 32))))
  | 5 => plain (s.setVbat none)
  | 6 => plain (s.progSlot (leNat (part 0 1)) (leVec 256 (part 1 32)))
  | 7 => plain (s.clearHealth (leNat (part 0 1)) (leNat (part 1 2)))
  | 8 => match s.hut.recs[leNat (part 0 4)]? with
    | some r => (some smbOk, r.bytes, s)
    | none => (some smbRange, [], s)
  | 9 => (some smbOk, [], s)
  | 10 => if s.isReady then (some smbOk, [], s.wr F.PWR_BIVOUAC_ENTER 0 0 1) else (some smbState, [], s)
  | 11 => let (r, s) := s.ropeRelay (leNat (part 0 1)) (data.drop 1); (r, [], s)
  | 12 => plain (s.setLimit (leNat (part 0 2)))
  | 15 => match s.board.smb.pending, s.board.smb.result with
    | some _, _ => (some smbPending, [], s)
    | none, some (st, d) => (some st, d, s)
    | none, none => (some smbOk, [], s)
  | _ => (some smbBadCmd, [], s)

/-- An SMBus command under R466 and R471: a wrong PEC, a command pending or a relay in progress, the wake event, then the
command. -/
def State.smbCommand (s : State) (pec : Bool) (code : Nat) (data : List Byte) : Option Nat × List Byte × State :=
  if !pec then (some smbPec, [], s)
  else
    let s := if [1, 2, 8, 15].contains code then s else s.wakeEvent 4
    if (s.board.smb.pending.isSome || s.board.relay.isSome) && !(List.contains [1, 2, 15] code) then (some smbBusy, [], s)
    else s.smbRun code data

/-- A command on the device's own port (R465): it answers once it has power and a position. -/
def State.smbus (s : State) (pec : Bool) (code : Nat) (data : List Byte) : State :=
  if !s.board.pwrgd || !s.hasPos then s
  else match s.smbCommand pec code data with
    | (some st, d, s) => s.emit (.smb st d)
    | (none, _, s) => s

/-- GET_STATUS (R467). -/
def execGetStatus (pec : Bool) (s : State) : Host.Outcome State Fault Refusal := .next (s.smbus pec 1 [])

/-- GET_IDENTITY (R467). -/
def execGetIdentity (pec : Bool) (s : State) : Host.Outcome State Fault Refusal := .next (s.smbus pec 2 [])

/-- SET_IP (R468). -/
def execSetIp (pec : Bool) (family plen : Byte) (addr gw : BitVec 128) (s : State) : Host.Outcome State Fault Refusal :=
  .next (s.smbus pec 3 (List.flatten [[family, plen], leBytes addr.toNat 16, leBytes gw.toNat 16]))

/-- SET_VBAT_KEY (R468). -/
def execSetVbatKey (pec : Bool) (key : BitVec 256) (s : State) : Host.Outcome State Fault Refusal :=
  .next (s.smbus pec 4 (leBytes key.toNat 32))

/-- CLEAR_VBAT_KEY (R468). -/
def execClearVbatKey (pec : Bool) (s : State) : Host.Outcome State Fault Refusal := .next (s.smbus pec 5 [])

/-- PROG_KEY_SLOT (R468). -/
def execProgKeySlot (pec : Bool) (slot : Byte) (hash : BitVec 256) (s : State) : Host.Outcome State Fault Refusal :=
  .next (s.smbus pec 6 (slot :: leBytes hash.toNat 32))

/-- HEALTH_CLEAR (R468). -/
def execHealthClear (pec : Bool) (type : Byte) (unit : BitVec 16) (s : State) : Host.Outcome State Fault Refusal :=
  .next (s.smbus pec 7 (type :: leBytes unit.toNat 2))

/-- HEALTH_READ (R467). -/
def execHealthRead (pec : Bool) (idx : BitVec 32) (s : State) : Host.Outcome State Fault Refusal :=
  .next (s.smbus pec 8 (leBytes idx.toNat 4))

/-- WAKE (R471). -/
def execWake (pec : Bool) (s : State) : Host.Outcome State Fault Refusal := .next (s.smbus pec 9 [])

/-- BIVOUAC_ENTER (R469). -/
def execBivouacEnter (pec : Bool) (s : State) : Host.Outcome State Fault Refusal := .next (s.smbus pec 10 [])

/-- ROPE_RELAY (R468). -/
def execRopeRelay (pec : Bool) (target : Byte) (cmd : List Byte) (s : State) : Host.Outcome State Fault Refusal :=
  .next (s.smbus pec 11 (target :: cmd))

/-- SET_POWER_LIMIT (R467). -/
def execSetPowerLimit (pec : Bool) (watts : BitVec 16) (s : State) : Host.Outcome State Fault Refusal :=
  .next (s.smbus pec 12 (leBytes watts.toNat 2))

/-- GET_RESULT (R466). -/
def execGetResult (pec : Bool) (s : State) : Host.Outcome State Fault Refusal := .next (s.smbus pec 15 [])

/-- SMBUS_COMMAND_COMPLETE (R466, R468): the slot stays programmed with the value read back. -/
def execSmbusCommandComplete (readBack : BitVec 256) (s : State) : Host.Outcome State Fault Refusal :=
  .next (match s.board.smb.pending with
    | none => s
    | some (_, d) =>
      let slot := leNat (d.take 1)
      let st := if leVec 256 (d.drop 1) = readBack then smbOk else smbFuseFail
      let s : State := { s with fuses := { s.fuses with slots := s.fuses.slots.set slot readBack, slotUsed := s.fuses.slotUsed.set slot true } }
      s.modBoard (fun b => { b with smb := ⟨none, some (st, [])⟩ }))

/-- ALERT_RESPONSE (R465): the address of the device, while it drives ALERT_N low. -/
def execAlertResponse (s : State) : Host.Outcome State Fault Refusal :=
  .next (if s.board.alerts ≠ 0 ∧ s.hasPos ∧ s.board.pwrgd then
      s.emit (.alertAddress (0x20 + 8 * s.rd F.CFG_STRAPS_MGMT_BASE + s.pos))
    else s)

/-! ### Relays (R462, R468) -/

/-- RELAY_REQ (R468): the command is executed here, and its status and data returned; or it goes on. -/
def execRelayReq (crcOk : Bool) (src dst : BitVec 4) (seq : Byte) (cmd : List Byte) (s : State) : Host.Outcome State Fault Refusal :=
  .next (if !crcOk || decide (cmd.length > 64) then s.count C.ROPE_CNT_CRC
    else if !s.hasPos || dst.toNat ≠ s.pos then s.ropeForward 5 dst.toNat src.toNat seq.toNat cmd
    else
      let (st, d, s) := s.smbCommand true (leNat (cmd.take 1)) (cmd.drop 1)
      s.ropeSend (s.toward src.toNat) 6 src.toNat s.pos seq.toNat (BitVec.ofNat 8 (st.getD smbPending) :: d))

/-- RELAY_RSP (R462). -/
def execRelayRsp (crcOk : Bool) (src dst : BitVec 4) (seq : Byte) (rsp : List Byte) (s : State) : Host.Outcome State Fault Refusal :=
  .next (if !crcOk || decide (rsp.length > 64) then s.count C.ROPE_CNT_CRC
    else if !s.hasPos || dst.toNat ≠ s.pos then s.ropeForward 6 dst.toNat src.toNat seq.toNat rsp
    else match s.board.relay with
      | none => s
      | some r =>
        if r.seq ≠ seq.toNat then s
        else (s.modBoard (fun b => { b with relay := none })).emit (.smb (leNat (rsp.take 1)) (rsp.drop 1)))

/-- RELAY_RETRY (R462): 200 µs after the last sending it is repeated, at most three times; then SMB_ROPE. -/
def execRelayRetry (s : State) : Host.Outcome State Fault Refusal :=
  .next (match s.board.relay with
    | none => s
    | some r =>
      if s.time < r.sentAt + milli / 5 then s
      else if r.repeats < 3 then
        let s := (s.count C.ROPE_CNT_RETRY).modBoard (fun b => { b with relay := some { r with repeats := r.repeats + 1, sentAt := s.time } })
        s.ropeSend (s.toward r.target) 5 r.target s.pos r.seq r.cmd
      else (s.modBoard (fun b => { b with relay := none })).emit (.smb smbRope []))

/-! ### Entry into Bivouac (R469, R470) -/

/-- BIVOUAC_AUTO_ENTRY (R469): AUTO_MS without a host command or stream byte. -/
def execBivouacAutoEntry (s : State) : Host.Outcome State Fault Refusal :=
  let n := s.rd F.PWR_BIVOUAC_AUTO_MS
  .next (if n = 0 ∨ s.time < s.board.lastHost + n * milli then s else s.wr F.PWR_BIVOUAC_ENTER 0 0 1)

/-- Whether the device may enter Bivouac (R469). -/
def State.mayEnter (s : State) : Bool :=
  s.isReady && s.rd F.PWR_BIVOUAC_STATE == 0 &&
  s.hut.sects.all (fun x => !s.live x.1 && x.2.phase == .none) &&
  s.hut.digs.isEmpty && s.hut.refs.isEmpty &&
  s.hut.parts.all (fun q => match q with
    | .grant _ _ _ _ z _ => !z
    | _ => true) &&
  (List.range 4).all (fun k => s.groupState k != 2) &&
  (List.range 17).all (fun k => s.rd F.CFG_STREAM_STATE 0 k != 1 && s.rd F.CFG_STREAM_STATE 0 k != 2) &&
  s.sites.all (fun x => (List.range 16).all (fun n => s.strState x.1 n == 0)) &&
  s.hut.mailbox.isEmpty && s.gate.qps.all (fun x => x.2.done.isEmpty)

/-- The registers that hold the domains' states (Table 01-12). -/
def domainRegs : List (RegName × Nat) :=
  List.flatten [(List.range 8).map (fun i => (.PWR_CORE_STATE, i)), (List.range 8).map (fun i => (.PWR_ROUTER_STATE, i)),
    (List.range 8).map (fun i => (.PWR_TIER_STATE, i))]

/-- A word of 32 domains with every one that is in a state of `l` given state v. -/
def mapDoms (l : List (BitVec 64)) (v : Nat) (w : Word) : Word :=
  (List.range 32).foldl (fun (u : Word) i =>
    if l.contains ((w >>> (2 * i)) &&& 3#64) then (u &&& ~~~(3#64 <<< (2 * i))) ||| (BitVec.ofNat 64 v <<< (2 * i)) else u) w

/-- The domains as Table 17-8 gives them: one that is ON, or on its way to ON, goes to RETAIN, and an OFF one stays OFF. What they were
is kept for the wake (R472). -/
def State.retainDomains (s : State) : State :=
  let saved := domainRegs.map (fun r => ((⟨r.1, 0, r.2⟩ : RegKey), s.word r.1 0 r.2))
  let s := domainRegs.foldl (fun s r => s.setWord r.1 0 r.2 (mapDoms [0, 3] 1 (s.word r.1 0 r.2))) s
  (s.modBoard (fun b => { b with savedDomains := saved })).modHut (fun h => { h with switching := [] })

/-- An entry request judged at a boundary (R469); entry takes effect at that boundary (R470). -/
def State.judgeEntry (s : State) : State :=
  if s.rd F.PWR_BIVOUAC_ENTER = 0 then s
  else if s.mayEnter then
    let s := s.wrs 0 0 [(F.PWR_BIVOUAC_ENTER, 0), (F.PWR_BIVOUAC_STATUS, 1), (F.PWR_BIVOUAC_STATE, 1)]
    ((s.count C.PWR_CNT_BIVOUAC).modBoard (fun b => { b with bivSince := s.pitch, wakeSrc := 0 })).retainDomains
  else s.wrs 0 0 [(F.PWR_BIVOUAC_ENTER, 0), (F.PWR_BIVOUAC_STATUS, 2)]

/-- BIVOUAC_ENTRY_COMPLETE (R470); a wake event that came during entry counts now (R471). -/
def execBivouacEntryComplete (s : State) : Host.Outcome State Fault Refusal :=
  .next (if s.rd F.PWR_BIVOUAC_STATE ≠ 1 then s
    else
      let src := s.board.wakeSrc
      let s := (s.modBoard (fun b => { b with wakeSrc := 0 })).wr F.PWR_BIVOUAC_STATE 0 0 2
      if src = 0 then s else s.wakeEvent src)

/-- At the boundary after a wake event every domain that was ON, or on its way to ON, begins to switch ON (R35, Table 17-9). -/
def State.beginWake (s : State) : State :=
  if s.rd F.PWR_BIVOUAC_STATE ≠ 3 then s
  else
    let was (k a : Nat) : Nat := ({ s with regs := s.board.savedDomains } : State).dom k a
    let doms := List.append (allSites.flatMap (fun a => [(0, a), (1, a)]))
      ((List.range 64).flatMap (fun n => (List.range 4).map (fun t => (2 + t, siteOfTarn n))))
    let on := if s.board.savedDomains = [] then [] else doms.filter (fun d => was d.1 d.2 == 0 || was d.1 d.2 == 3)
    (on.foldl (fun s d => s.domOn d.1 d.2) s).modBoard (fun b => { b with savedDomains := [] })

/-- Whether the domains stand as before entry (R472). -/
def State.domainsBack (s : State) : Bool := s.board.savedDomains.isEmpty && s.hut.switching.isEmpty

/-- The device leaves Bivouac (R472): the alert, and the pitches counted. -/
def State.leaveBivouac (s : State) : State :=
  let n := (s.pitch + 2 ^ 48 - s.board.bivSince) % 2 ^ 48
  ((s.wr F.PWR_BIVOUAC_STATE 0 0 0).alert 4).count C.PWR_CNT_BIV_PITCH 0 n

end Sys2Proof.Machine
end

