-- ==== Sys2Proof/Machine/Gate.lean ====
section
/-! DEFINITION. The Gate (chapter 16): discovery and claiming, connections, RDMA, doorbells, congestion, the link and IP
layers, completions, and the wake buffer of Bivouac (R471). -/

namespace Sys2Proof.Machine

/-! ### The wake buffer (R471) -/

/-- Size of the wake buffer. -/
def wakeSize : Nat := 4194304

/-- A packet at the Gate: acted on, or in Bivouac kept in order as a wake event of a source, dropped when the buffer is full. -/
def State.viaGate (s : State) (i : Instr) (n src : Nat) (f : State → State) : State :=
  if s.rd F.PWR_BIVOUAC_STATE = 0 then f s
  else
    let s := if s.gate.wakeBytes + n ≤ wakeSize then
        s.modGate (fun g => { g with wakeBuf := List.append g.wakeBuf [i], wakeBytes := g.wakeBytes + n })
      else s
    s.wakeEvent src

/-! ### Discovery (R434 to R437) -/

/-- Whether the Gate takes part in discovery: from UNCLAIMED onward. -/
def State.linkReady (s : State) : Bool := s.rd F.CFG_DEV_STATE_STATE != 0

/-- An ANNOUNCE (Table 16-2). -/
def State.sendAnnounce (s : State) : State :=
  s.emit (.announce (s.rd F.CFG_DEV_STATE_STATE) s.gate.nonce.isSome s.pos (s.rd F.CFG_STRAPS_BOARD_ID))

/-- PROBE (R434). -/
def execProbe (serial : BitVec 128) (s : State) : Host.Outcome State Fault Refusal :=
  .next (if s.linkReady && (serial == 0 || serial == s.fuses.serial) then s.sendAnnounce else s)

/-- Whether the device is to announce itself: UNCLAIMED, or READY without an admin connection, once a second (R434). -/
def State.announceDue (s : State) : Bool :=
  (s.rd F.CFG_DEV_STATE_STATE == 1 || (s.isReady && s.gate.adminQp.isNone)) &&
  s.gate.announcedAt.all (fun t => decide (t + 1000 * milli ≤ s.time))

/-- ANNOUNCE (R434). -/
def execAnnounce (s : State) : Host.Outcome State Fault Refusal :=
  .next (if s.announceDue then s.sendAnnounce.modGate (fun g => { g with announcedAt := some s.time }) else s)

/-- The highest version common to two ranges; 0 for none (R437). -/
def commonVersion (lo hi l h : Nat) : Nat := if max lo l ≤ min hi h then min hi h else 0

/-- Whether a queue-pair block keeps its ranges (Table 16-3). -/
def QpBlock.ok (b : QpBlock) : Bool :=
  decide (b.mtu.toNat ≤ 2) && decide (b.ackTo.toNat ≤ 20) &&
  decide (6 ≤ b.ringLog2.toNat) && decide (b.ringLog2.toNat ≤ 12) &&
  decide (6 ≤ b.cqLog2.toNat) && decide (b.cqLog2.toNat ≤ 16) &&
  decide (6 ≤ b.eqLog2.toNat) && decide (b.eqLog2.toNat ≤ 16) &&
  b.ring.toNat % 64 == 0 && b.cq.toNat % 64 == 0 && b.eq.toNat % 64 == 0

/-- The command ring of a block, as address and length. -/
def QpBlock.ringLen (b : QpBlock) : Nat := 64 * 2 ^ b.ringLog2.toNat

/-- Whether a range lies in the admin area (R441). -/
def inAdmin (x n : Nat) : Bool := decide (0x08000000 ≤ x) && decide (x + n ≤ 0x08100000)

/-- The queue pair of a pending partition, grant or boundary request. -/
def PartReq.qp : PartReq → Nat
  | .create _ c => c.qp.toNat
  | .remove _ c => c.qp.toNat
  | .grant _ _ _ _ _ c => c.qp.toNat
def BoundReq.qp : BoundReq → Nat
  | .preempt _ _ c => c.qp.toNat
  | .resume _ _ _ c => c.qp.toNat

/-- Whether a command that came over a queue pair is still to complete; while one is, the queue pair is not opened again, so that no
later connection gets its record (DESIGN CHOICE, log entry 74). -/
def State.awaited (s : State) (n : Nat) : Bool :=
  let mine (c : Ctx) : Bool := c.qp.toNat == n
  s.hut.sects.any (fun x => x.2.runCtx.any mine) || s.hut.digs.any (fun x => x.2.ctx.any mine) ||
  s.hut.parts.any (fun r => r.qp == n) || s.hut.bounds.any (fun r => r.qp == n) ||
  s.hut.wanan.any (fun x => mine x.2.ctx || x.2.preempt.any mine)

/-- The lowest free queue pair. -/
def State.freeQp (s : State) : Option Nat := (List.range 1024).find? (fun n => s.rd F.GATE_QP_STATE 0 n == 0 && !s.awaited n)

/-- Line rate of the port in bits a second, by the width in use (R428, Table 14-1). -/
def State.lineRate (s : State) : Nat :=
  match s.rd F.GATE_LANE_HEALTH_WIDTH with
  | 1 => 1600000000000
  | 5 => 400000000000
  | _ => 800000000000

/-- A queue pair opens for an owner; its start PSN and R_Key are free values. The two values are answered. -/
def State.openQp (s : State) (n owner gver sver : Nat) (b : QpBlock) : State × Nat × Nat :=
  let (v, s) := s.fresh
  let psn := v.toNat % 2 ^ 24
  let key := v.toNat / 2 ^ 32
  let rate := s.lineRate
  let t := s.time
  let s := (s.setWord .GATE_QP 0 n 0).wrs 0 n [(F.GATE_QP_STATE, 1), (F.GATE_QP_OWNER, owner), (F.GATE_QP_GVER, gver), (F.GATE_QP_MTU, b.mtu.toNat)]
  (s.modQp n (fun _ =>
    { hostQpn := b.hostQpn, rkey := BitVec.ofNat 32 key, ringAddr := b.ring.toNat, ringLog2 := b.ringLog2.toNat,
      cqLog2 := b.cqLog2.toNat, eqLog2 := b.eqLog2.toNat, ackTo := b.ackTo.toNat, sver := sver, cqci := 0, nextCq := 0, eqUsed := 0,
      lost := false, done := [], staged := [], rate := rate, retries := 0, lastCnp := 0, rateAt := t, stream := none }), psn, key)

/-- Statuses of CLAIM_ACK and CONNECT_ACK (Table 16-4). -/
def ackOk : Nat := 0
def ackElsewhere : Nat := 1
def ackVersion : Nat := 2
def ackDenied : Nat := 3
def ackQpLimit : Nat := 4
def ackBadParam : Nat := 5

/-- The device QPN of queue pair n (R433). -/
def devQpn (n : Nat) : Nat := 0x100000 + n

/-- A claim window code in ms (R423). -/
def windowMs (code : Nat) : Nat := [2000, 10000, 60000, 600000].getD code 2000

/-- The claim window in thirtieths of a nanosecond. -/
def State.claimWindow (s : State) : Nat := windowMs (s.rd F.CFG_STRAPS_CLAIM_WIN) * milli

/-- The base stream of an accepted claim begins to be received (R416, R423, R435). -/
def State.startBase (s : State) (c : ClaimBody) (q : Nat) : State :=
  let w := windowMs (s.rd F.CFG_STRAPS_CLAIM_WIN)
  let d := c.deadline.toNat
  let ms := if d = 0 ∨ d > w then w else d
  let end_ := s.time + ms * milli
  let multi := c.group != 0
  let s := (s.wr F.CFG_CLAIM_DEADLINE_MS 0 0 ms).wr F.CFG_DEV_STATE_STATE 0 0 2
  let s := s.putStream 16 { StreamX.reset with multicast := multi, qp := q, group := c.group, deadline := end_ }
  let s := ((s.setWord .CFG_STREAM 0 16 0).setWord .CFG_STREAM_POS 0 16 0).setWord .CFG_STREAM_SYNC 0 16 0
  let s := s.wr F.CFG_STREAM_STATE 0 16 1
  if multi then s.modGate (fun g => { g with joined := c.group :: g.joined }) else s

/-- A CLAIM that does not repeat the accepted one. -/
def State.newClaim (s : State) (st sver gver : Nat) (c : ClaimBody) : State :=
  let no (k : Nat) : State := s.emit (.claimAck k 0 0 0 0 0)
  if st = 0 then s
  else if !(st == 1 || (st == 4 && s.gate.adminQp.isNone)) then no ackElsewhere
  else if gver ≠ 3 ∨ sver = 0 then no ackVersion
  else if !c.qp.ok || !inAdmin c.qp.ring.toNat c.qp.ringLen then no ackBadParam
  else match s.freeQp with
    | none => no ackQpLimit
    | some n =>
      let (s, psn, key) := s.openQp n 16 3 sver c.qp
      let s := s.modGate (fun g =>
        { g with nonce := some c.nonce, claimAck := some (sver, devQpn n, psn, key), adminQp := some n, adminLostAt := none })
      let s := if st = 1 then s.startBase c n else s
      s.emit (.claimAck ackOk 3 sver (devQpn n) psn key)

/-- A CLAIM at the Gate (R435, R437). -/
def State.hostClaim (s : State) (c : ClaimBody) : State :=
  let st := s.rd F.CFG_DEV_STATE_STATE
  let sver := commonVersion c.vers.streamMin.toNat c.vers.streamMax.toNat 3 4
  let gver := commonVersion c.vers.gateMin.toNat c.vers.gateMax.toNat 2 3
  match s.gate.claimAck with
  | some (v, q, psn, key) =>
    if s.gate.nonce = some c.nonce then s.emit (.claimAck ackOk 3 v q psn key) else s.newClaim st sver gver c
  | none => s.newClaim st sver gver c

/-- Connections a tenant has open. -/
def State.tenantQps (s : State) (t : Nat) : Nat := ((List.range 1024).filter (fun n => s.qpOpen n && s.ofTenant t n)).length

/-- A CONNECT at the Gate (R436, R437, R440). -/
def State.connect (s : State) (c : ConnectBody) : State :=
  let t := c.tenant.toNat
  let gver := commonVersion c.vers.gateMin.toNat c.vers.gateMax.toNat 2 3
  let sver := commonVersion c.vers.streamMin.toNat c.vers.streamMax.toNat 3 4
  let admin := t == 255
  let may := if admin then
      [3, 4].contains (s.rd F.CFG_DEV_STATE_STATE) && s.gate.adminQp.isNone && s.gate.nonce == some c.token &&
      (match s.gate.adminLostAt with
        | some t0 => decide (s.time ≤ t0 + s.claimWindow)
        | none => false)
    else decide (t < 16) && s.rd F.GATE_TENANT_ACTIVE 0 t == 1 && aget s.gate.tokens t == some c.token
  let ringOk := if admin then inAdmin c.qp.ring.toNat c.qp.ringLen else match s.partOfTenant t with
    | some p => s.inGrant p c.qp.ring.toNat c.qp.ringLen
    | none => false
  let no (s : State) (k : Nat) : State := s.emit (.connectAck k 0 0 0 0 0)
  if !s.linkReady then s
  else if !may then no (s.count C.GATE_CNT_DENIED) ackDenied
  else if gver = 0 ∨ sver = 0 then no s ackVersion
  else if !c.qp.ok || !ringOk then no s ackBadParam
  else if !admin && decide (s.tenantQps t ≥ s.rd F.GATE_TENANT_MAXQP 0 t) then no s ackQpLimit
  else match s.freeQp with
    | none => no s ackQpLimit
    | some n =>
      let (s, psn, key) := s.openQp n (if admin then 16 else t) gver sver c.qp
      let s := if admin then s.modGate (fun g => { g with adminQp := some n, adminLostAt := none }) else s
      s.emit (.connectAck ackOk gver sver (devQpn n) psn key)

/-- The claim is lost before READY: a base stream still receiving is TRUNCATED, and the claim is released (R418, R423). -/
def State.loseClaim (s : State) : State := if s.receiving 16 then s.endStream 16 4 9 else s.releaseClaim

/-- A connection is lost or closed: the claim with it before the base stream is LOADED, else the streams it carries end
TRUNCATED (R417, R424, R436). -/
def State.loseQp (s : State) (q reason : Nat) : State :=
  if s.isAdmin q && s.rd F.CFG_DEV_STATE_STATE == 2 then (s.closeQp q reason).loseClaim
  else (s.truncateIf (fun _ x => x.qp == q)).closeQp q reason

/-- A DISCONNECT at the Gate (Table 16-2). -/
def State.disconnect (s : State) (qpn : Nat) : State :=
  let n := qpn - 0x100000
  if 0x100000 ≤ qpn ∧ n < 1024 ∧ s.rd F.GATE_QP_STATE 0 n ≠ 0 then s.loseQp n 0 else s

/-- The admin role is freed; the device stays as it is (R436). -/
def State.freeAdmin (s : State) : State :=
  let s := match s.gate.adminQp with
    | some q => s.loseQp q 3
    | none => s
  s.modGate (fun g => { g with nonce := none, claimAck := none, adminLostAt := none })

/-- A RELEASE at the Gate (R424, R436). -/
def State.releaseReq (s : State) (nonce : BitVec 64) : State :=
  if s.gate.nonce ≠ some nonce then s
  else if s.rd F.CFG_DEV_STATE_STATE = 2 then s.loseClaim
  else s.freeAdmin

/-- HOST_CLAIM (R435). -/
def execHostClaim (c : ClaimBody) (s : State) : Host.Outcome State Fault Refusal :=
  .next (s.viaGate (.hostClaim c) 104 2 (fun s => s.hostClaim c))

/-- CONNECT (R440). -/
def execConnect (c : ConnectBody) (s : State) : Host.Outcome State Fault Refusal :=
  .next (s.viaGate (.connect c) 88 2 (fun s => s.connect c))

/-- DISCONNECT (R436). -/
def execDisconnect (qpn : BitVec 32) (reason : Byte) (s : State) : Host.Outcome State Fault Refusal :=
  .next (s.viaGate (.disconnect qpn reason) 24 2 (fun s => s.disconnect qpn.toNat))

/-- RELEASE (R436). -/
def execRelease (nonce : BitVec 64) (s : State) : Host.Outcome State Fault Refusal :=
  .next (s.viaGate (.release nonce) 24 2 (fun s => s.releaseReq nonce))

/-- ADMIN_RECONNECT_EXPIRY (R436). -/
def execAdminReconnectExpiry (s : State) : Host.Outcome State Fault Refusal :=
  .next (match s.gate.adminLostAt with
    | some t0 => if s.gate.adminQp.isNone && decide (t0 + s.claimWindow ≤ s.time) && s.rd F.CFG_DEV_STATE_STATE != 2 then s.freeAdmin else s
    | none => s)

/-! ### RDMA (R441, R442) -/

/-- NAKs of the transport: 1 Remote Access Error, 2 Invalid Request, 3 Remote Operational Error. -/
def State.sendNak (s : State) (q kind : Nat) : State := s.emit (.nak q kind)

/-- A refused request (R441): NAK, counted, and the queue pair in error. -/
def State.accessNak (s : State) (q : Nat) : State := ((s.sendNak q 1).count C.GATE_CNT_ACCESS_NAK).wr F.GATE_QP_STATE 0 q 2

/-- One word of an RDMA WRITE: a word written whole loses its poison; of a word written in part the rest stays. -/
def State.hostWord (s : State) (w x : Nat) (data : List Byte) : RawWord :=
  let (old, p) := s.engineWord w
  let byte (i : Nat) : Byte :=
    let a := 8 * w + i
    if x ≤ a ∧ a < x + data.length then data.getD (a - x) 0 else (old >>> (8 * i)).setWidth 8
  let whole := decide (x ≤ 8 * w) && decide (8 * w + 8 ≤ x + data.length)
  ⟨leVec 64 ((List.range 8).map byte), 0, if !whole && p then 3 else 0⟩

/-- Bytes of a host placed in external memory, one request for each stripe. -/
def State.hostPut (s : State) (x : Nat) (data : List Byte) : State :=
  s.extWrites .gate (8 * (x / 8)) ((wordsOf x data.length).map (fun w => s.hostWord w x data))

/-- RDMA WRITE (R441). -/
def State.rdmaWrite (s : State) (q : Nat) (rkey : BitVec 32) (x : Nat) (data : List Byte) : State :=
  if !s.qpOpen q then s
  else
    let s := s.count C.GATE_CNT_RXBYTES 0 data.length
    if rkey ≠ (s.qp q).rkey || !s.memPermitted q x data.length then s.accessNak q
    else s.hostPut x data

/-- The job whose memory plan lists an external address, among the sections of a partition (R348). -/
def State.jobOfRange (s : State) (p x : Nat) : Option Nat :=
  ((s.openSects p).find? (fun e => match s.sectX? e with
    | some y => y.img.ext.any (fun r => overlaps (y.slotBase.getD r.slot 0 + r.off) r.len x 8)
    | none => false)).map s.jobOf

/-- A poisoned word met by a host read (R348, R442): the job that lists the range fails; the event is recorded. -/
def State.hostPoison (s : State) (q x : Nat) : State :=
  match s.partOfQp q with
  | none => s
  | some p => match s.jobOfRange p x with
    | some job => s.poisonPart p job 2 0 x
    | none =>
      let s := s.logPoison p 2 0 x
      s.event (s.ofTenant (s.tenantOf p)) 3 [(s.word .HUT_POISON 0 p).toNat]

/-- The path MTU of a connection (R432). -/
def State.mtuOf (s : State) (q : Nat) : Nat := 1024 * 2 ^ s.rd F.GATE_QP_MTU 0 q

/-- RDMA READ (R441, R442): the packets before the one that holds a poisoned word are sent. -/
def State.rdmaRead (s : State) (q : Nat) (rkey : BitVec 32) (x len : Nat) : State :=
  if !s.qpOpen q then s
  else if rkey ≠ (s.qp q).rkey || !s.memPermitted q x len then s.accessNak q
  else
    let (ws, s) := s.extReads .gate (8 * (x / 8)) (wordsOf x len).length
    let bytes := ((ws.flatMap (fun w => leBytes w.data.toNat 8)).drop (x % 8)).take len
    let send (s : State) (l : List Byte) : State :=
      if l = [] then s else (s.emit (.readData q l)).count C.GATE_CNT_TXBYTES 0 l.length
    match ws.findIdx? (fun w => w.poison != 0) with
    | none => send s bytes
    | some i =>
      let a := 8 * (x / 8 + i)
      let m := s.mtuOf q
      ((send s (bytes.take ((a - x) / m * m))).sendNak q 3).hostPoison q a

/-- RDMA_WRITE (R441). -/
def execRdmaWrite (n : QpNo) (rkey : BitVec 32) (a : BitVec 64) (data : List Byte) (s : State) : Host.Outcome State Fault Refusal :=
  .next (s.viaGate (.rdmaWrite n rkey a data) data.length 1 (fun s => s.rdmaWrite n.toNat rkey a.toNat data))

/-- RDMA_READ (R441, R442). -/
def execRdmaRead (n : QpNo) (rkey : BitVec 32) (a : BitVec 64) (len : BitVec 32) (s : State) : Host.Outcome State Fault Refusal :=
  .next (s.viaGate (.rdmaRead n rkey a len) 16 1 (fun s => s.rdmaRead n.toNat rkey a.toNat len.toNat))

/-! ### Doorbells and command entries (R444 to R446, Tables 16-5 and 16-6) -/

/-- The argument bytes that an opcode names, as (first byte, bytes). -/
def namedBytes (op : Nat) : List (Nat × Nat) :=
  match op with
  | 1 => [(8, 24), (32, 18)]
  | 2 => [(8, 5), (16, 4)]
  | 3 => [(8, 2)]
  | 4 => [(8, 3)]
  | 5 => [(8, 1)]
  | 6 => [(8, 2), (16, 10)]
  | 7 => [(8, 1), (16, 10)]
  | 8 => [(8, 8)]
  | 9 => [(8, 24)]
  | 10 => [(16, 10)]
  | 11 => [(8, 2), (16, 16)]
  | 16 => [(8, 4), (16, 8)]
  | 17 => [(8, 1)]
  | 18 => [(8, 6)]
  | 19 => [(8, 1)]
  | 20 => [(8, 6)]
  | _ => []

/-- The command an entry's 64 bytes spell (Tables 16-5 and 16-6): reserved bits and unnamed bytes are 0. -/
def parseEntry (l : List Byte) : HostCmd :=
  let n (i k : Nat) : Nat := leNat ((l.drop i).take k)
  let b (i : Nat) : Byte := l.getD i 0
  let v (w i k : Nat) : BitVec w := leVec w ((l.drop i).take k)
  let op := n 0 1
  let zero := (List.range 56).all (fun i => b (8 + i) == 0 ||
    (namedBytes op).any (fun r => decide (r.1 ≤ 8 + i) && decide (8 + i < r.1 + r.2)))
  if !zero || n 1 1 > 1 || n 2 2 != 0 then .bad (b 0)
  else match op with
    | 1 =>
      if n 30 1 > 1 || n 31 1 > 1 then .bad (b 0)
      else .load ⟨v 64 8 8, v 64 16 8, v 32 24 4, b 28, b 29, b 30, n 31 1 == 1, v 128 32 16, v 16 48 2⟩
    | 2 => if n 12 1 > 1 then .bad (b 0) else .run ⟨b 8, b 9, b 10, b 11, n 12 1 == 1, v 32 16 4⟩
    | 3 => .preempt (v 16 8 2)
    | 4 => .resume (b 8) (b 9) (b 10)
    | 5 => .discard (b 8)
    | 6 => .digestSet ⟨v 16 8 2, v 64 16 8, v 16 24 2⟩
    | 7 => .digestNow ⟨v 16 8 1, v 64 16 8, v 16 24 2⟩
    | 8 => .regRead (v 64 8 8)
    | 9 => .regWrite (v 64 8 8) (v 64 16 8) (v 64 24 8)
    | 10 => .regWriteList (v 64 16 8) (v 16 24 2)
    | 11 => .wananSubmit (v 16 8 2) (v 64 16 8) (v 64 24 8)
    | 16 => if n 9 1 > 1 then .bad (b 0) else .tenantCreate (b 8) (n 9 1 == 1) (v 16 10 2) (v 64 16 8)
    | 17 => .tenantRemove (b 8)
    | 18 => .partCreate ⟨b 8, b 9, b 10, b 11, b 12, b 13⟩
    | 19 => .partRemove (b 8)
    | 20 => .grant ⟨b 8, b 9, v 16 10 2, v 16 12 2⟩
    | _ => .bad (b 0)

/-- One entry of a command ring handed to the Hut mailbox, or completed with BUSY (R445); `busy` once one has been. -/
def State.takeEntry (s : State) (q i : Nat) (busy : Bool) : State × Bool :=
  let x := s.qp q
  let at_ := x.ringAddr + 64 * (i % 2 ^ x.ringLog2)
  let (ws, s) := s.extReads .gate (8 * (at_ / 8)) (wordsOf at_ 64).length
  let l := ws.flatMap (fun w => leBytes w.data.toNat 8)
  let c : Ctx := ⟨BitVec.ofNat 10 q, BitVec.ofNat 32 i, leVec 32 ((l.drop 4).take 4), (l.getD 1 0).getLsbD 0⟩
  if busy || decide (s.hut.mailbox.length ≥ 64) then
    ((s.complete c (leNat (l.take 1)) 3 stBusy).count C.GATE_CNT_BUSY, true)
  else (s.modHut (fun h => { h with mailbox := List.append h.mailbox [(c, parseEntry l)] }), false)

/-- A doorbell (R444, R445). -/
def State.doorbell (s : State) (q pi cqci : Nat) : State :=
  if !s.qpOpen q then s
  else
    let x := s.qp q
    let s := (s.count C.GATE_CNT_RXBYTES 0 8).modQp q (fun x => { x with cqci := cqci, retries := 0 })
    let s : State := { s with board := { s.board with lastHost := s.time } }
    let ci := s.rd F.GATE_QP_CI 0 q
    let n := (pi + 2 ^ 32 - ci) % 2 ^ 32
    if n > 2 ^ x.ringLog2 then s.loseQp q 1
    else
      let (s, _) := (List.range n).foldl (fun (acc : State × Bool) k => acc.1.takeEntry q ((ci + k) % 2 ^ 32) acc.2) (s, false)
      s.wr F.GATE_QP_CI 0 q pi

/-- DOORBELL (R445). -/
def execDoorbell (n : QpNo) (pi cqci : BitVec 32) (s : State) : Host.Outcome State Fault Refusal :=
  .next (s.viaGate (.doorbell n pi cqci) 8 1 (fun s => s.doorbell n.toNat pi.toNat cqci.toNat))

/-- STREAM_BYTES (R444). -/
def execStreamBytes (n : QpNo) (len : BitVec 16) (s : State) : Host.Outcome State Fault Refusal :=
  .next (s.viaGate (.streamBytes n len) len.toNat 1 (fun s => if s.qpOpen n.toNat then s.streamBytes n.toNat len.toNat else s))

/-- A SEND with another immediate (R444). -/
def State.otherSend (s : State) (q : Nat) (imm : BitVec 32) : State :=
  let k := imm.toNat / 2 ^ 24
  if s.qpOpen q && k != 1 && k != 2 then s.count C.GATE_CNT_RXDROP else s

/-- OTHER_IMMEDIATE_SEND (R444). -/
def execOtherImmediateSend (n : QpNo) (imm : BitVec 32) (s : State) : Host.Outcome State Fault Refusal :=
  .next (s.viaGate (.otherImmediateSend n imm) 4 1 (fun s => s.otherSend n.toNat imm))

/-- An operation the transport does not support (R431). -/
def State.badOperation (s : State) (q : Nat) : State := if s.qpOpen q then s.sendNak q 2 else s

/-- UNSUPPORTED_OPERATION (R431). -/
def execUnsupportedOperation (n : QpNo) (s : State) : Host.Outcome State Fault Refusal :=
  .next (s.viaGate (.unsupportedOperation n) 0 1 (fun s => s.badOperation n.toNat))

/-! ### Congestion and retransmission (R432) -/

/-- 50 µs in thirtieths of a nanosecond. -/
def cnpGap : Nat := 1500000

/-- A CE-marked packet: a CNP, at most one per queue pair in 50 µs. `lastCnp` is the time after the last one sent, 0 for
none. -/
def State.ceMarked (s : State) (q : Nat) : State :=
  let x := s.qp q
  let t := s.time
  if s.qpOpen q && (x.lastCnp == 0 || decide (x.lastCnp - 1 + cnpGap ≤ t)) then
    (s.emit (.cnp q)).modQp q (fun x => { x with lastCnp := t + 1 })
  else s

/-- CE_MARKED_PACKET (R432). -/
def execCeMarkedPacket (n : QpNo) (s : State) : Host.Outcome State Fault Refusal :=
  .next (s.viaGate (.ceMarkedPacket n) 0 1 (fun s => s.ceMarked n.toNat))

/-- A CNP halves the send rate, with a floor of 1 Gb/s. -/
def State.takeCnp (s : State) (q : Nat) : State :=
  let t := s.time
  if s.qpOpen q then (s.count C.GATE_CNT_CNP).modQp q (fun x => { x with rate := max 1000000000 (x.rate / 2), rateAt := t }) else s

/-- CNP (R432). -/
def execCnp (n : QpNo) (s : State) : Host.Outcome State Fault Refusal :=
  .next (s.viaGate (.cnp n) 16 1 (fun s => s.takeCnp n.toNat))

/-- RATE_RECOVERY (R432): 1 % of the line rate, up to it, for every 50 µs without a CNP. -/
def execRateRecovery (n : QpNo) (s : State) : Host.Outcome State Fault Refusal :=
  let q := n.toNat
  let l := s.lineRate
  let t := s.time
  .next (if s.qpOpen q && decide ((s.qp q).rateAt + cnpGap ≤ t) then
      s.modQp q (fun x => { x with rate := min l (x.rate + l / 100), rateAt := t })
    else s)

/-- ACK_TIMEOUT (R432): go-back-N, at most seven times; then the queue pair is in error. How many packets are outstanding is
no state of this model: the number retransmitted is a free value (log entry 48). -/
def execAckTimeout (n : QpNo) (s : State) : Host.Outcome State Fault Refusal :=
  let q := n.toNat
  .next (if !s.qpOpen q then s
    else if (s.qp q).retries < 7 then
      let (v, s) := s.fresh
      ((s.emit (.retransmit q)).count C.GATE_CNT_RETX 0 (v.toNat % 65536)).modQp q (fun x => { x with retries := x.retries + 1 })
    else s.wr F.GATE_QP_STATE 0 q 2)

/-! ### Link and IP layers (R429, R430) -/

/-- PAUSE (R429). -/
def execPause (quanta : BitVec 16) (s : State) : Host.Outcome State Fault Refusal :=
  .next (if s.rd F.GATE_NET_CFG_PAUSE_EN = 1 then s.modGate (fun g => { g with paused := quanta.toNat }) else s)

/-- PFC (R429). -/
def execPfc (prio : BitVec 3) (quanta : BitVec 16) (s : State) : Host.Outcome State Fault Refusal :=
  .next (if s.rd F.GATE_NET_CFG_PFC_EN = 1 ∧ prio.toNat = s.rd F.GATE_NET_CFG_PCP then
      s.modGate (fun g => { g with pfcPaused := quanta.toNat })
    else s)

/-- ARP (R430). -/
def execArp (s : State) : Host.Outcome State Fault Refusal :=
  .next (if s.linkReady && s.gate.ip.isSome then s.emit .arpReply else s)

/-- NDP (R430). -/
def execNdp (s : State) : Host.Outcome State Fault Refusal :=
  .next (if s.linkReady && s.gate.ip.isSome then s.emit .ndpReply else s)

/-- ICMP_ECHO (R430). -/
def execIcmpEcho (s : State) : Host.Outcome State Fault Refusal :=
  .next (if s.linkReady && s.gate.ip.isSome then s.emit .echoReply else s)

/-- IP_FRAGMENT (R430). -/
def execIpFragment (s : State) : Host.Outcome State Fault Refusal := .next (s.count C.GATE_CNT_RXDROP)

/-- DHCP_REPLY (R430). -/
def execDhcpReply (addr : BitVec 128) (s : State) : Host.Outcome State Fault Refusal :=
  .next (if s.gate.dhcp then s.modGate (fun g => { g with ip := some addr }) else s)

/-! ### Completions (R446, Table 16-7) -/

/-- COMPLETION_WRITE (R446): the record of the next entry in ring order, once the host ring has room. -/
def execCompletionWrite (n : QpNo) (s : State) : Host.Outcome State Fault Refusal :=
  let q := n.toNat
  let x := s.qp q
  let i := x.nextCq
  .next (if !s.qpOpen q || (i + 2 ^ 32 - x.cqci) % 2 ^ 32 ≥ 2 ^ x.cqLog2 then s
    else match x.done.find? (fun c => c.idx == i) with
      | none => s
      | some c =>
        let s := s.modQp q (fun x => { x with done := x.done.filter (fun d => d.idx != i), nextCq := (i + 1) % 2 ^ 32 })
        let s := (s.count C.GATE_CNT_TXBYTES 0 32).emit (.completion q (i % 2 ^ x.cqLog2) (i / 2 ^ x.cqLog2 % 2 == 0) c)
        if c.notify then s.emit (.notification q i) else s)

/-! ### Leaving Bivouac (R471, R472) -/

/-- A packet of the wake buffer, processed after the wake. -/
def State.gateRun (s : State) (i : Instr) : State :=
  match i with
  | .hostClaim c => s.hostClaim c
  | .connect c => s.connect c
  | .disconnect q _ => s.disconnect q.toNat
  | .release n => s.releaseReq n
  | .rdmaWrite n k a d => s.rdmaWrite n.toNat k a.toNat d
  | .rdmaRead n k a l => s.rdmaRead n.toNat k a.toNat l.toNat
  | .doorbell n p c => s.doorbell n.toNat p.toNat c.toNat
  | .streamBytes n l => if s.qpOpen n.toNat then s.streamBytes n.toNat l.toNat else s
  | .otherImmediateSend n imm => s.otherSend n.toNat imm
  | .unsupportedOperation n => s.badOperation n.toNat
  | .ceMarkedPacket n => s.ceMarked n.toNat
  | .cnp n => s.takeCnp n.toNat
  | _ => s

/-- WAKE_COMPLETE (R472): once the domains are as before entry, the wake buffer is processed in order. -/
def execWakeComplete (s : State) : Host.Outcome State Fault Refusal :=
  .next (if s.rd F.PWR_BIVOUAC_STATE ≠ 3 ∨ !s.domainsBack then s
    else
      let l := s.gate.wakeBuf
      let s := s.leaveBivouac.modGate (fun g => { g with wakeBuf := [], wakeBytes := 0 })
      l.foldl (fun s i => s.gateRun i) s)

end Sys2Proof.Machine
end

