-- ==== Sys2Proof/Machine/HostCmds.lean ====
section
/-! DEFINITION. The host commands of Table 16-6 (R439, R446, R448) and their dispatch from the Hut mailbox. -/

namespace Sys2Proof.Machine

/-- A command of a tenant, given its partition; without an active one it is PART_DENIED (R446). -/
def State.asTenant (s : State) (c : Ctx) (op : Nat) (f : State → Nat → State) : State :=
  match s.partOfQp c.qp.toNat with
  | some p => f s p
  | none => s.status c op stPartDenied

/-- A command of the admin connection; on a tenant connection it is ADMIN_ONLY. All are marked "3" (R438). -/
def State.asAdmin (s : State) (c : Ctx) (op : Nat) (f : State → State) : State :=
  if s.isAdmin c.qp.toNat then s.needsV3 c op f else s.status c op stAdminOnly

/-! ### Sections -/

/-- LOAD (R415, R416, R419, R438): the partition's slot begins to receive, its earlier state kept until a header comes. -/
def State.load (s : State) (c : Ctx) (o : LoadOps) : State :=
  s.asTenant c opLoad (fun s p =>
    let q := c.qp.toNat
    let multi := o.multicast != 0
    if [1, 2].contains (s.rd F.CFG_STREAM_STATE 0 p) || (s.stream p).load.isSome then s.status c opLoad stStreamBusy
    else if (multi && s.rd F.GATE_QP_GVER 0 q == 2) || o.receipt.toNat % 8 != 0 || !s.inGrant p o.receipt.toNat o.receiptLen.toNat ||
        o.orgC.toNat > 15 || o.orgR.toNat > 15 then s.status c opLoad stBadCommand
    else
      let ms := if o.deadline = 0 then s.rd F.CFG_CLAIM_SECT_MS else o.deadline.toNat
      let end_ := s.time + ms * milli
      let old := (s.word .CFG_STREAM 0 p, s.word .CFG_STREAM_POS 0 p)
      let no := s.hut.stamp
      let s := s.modHut (fun h => { h with stamp := no + 1 })
      let s := s.modStream p (fun x =>
        { x with wait := true, multicast := multi, qp := q, group := o.group, deadline := end_, load := some (c, o), old := old,
                 loadNo := no })
      let s := (s.wrs 0 p [(F.CFG_STREAM_STATE, 1), (F.CFG_STREAM_OUTCOME, 0), (F.CFG_STREAM_REASON, 0)]).wr F.CFG_STREAM_POS_OFFSET 0 p 0
      if multi then s.modGate (fun g => { g with joined := o.group :: g.joined }) else s)

/-- Whether a LOAD of a queue pair's ring entry has not completed. -/
def State.loadOpen (s : State) (q : QpNo) (idx : BitVec 32) : Bool :=
  s.cfg.streams.any (fun x => match x.2.load with
    | some (c, _) => c.qp == q && c.idx == idx
    | none => false)

/-- RUN (R326, R446): by entry, or by the LOAD of an earlier ring entry, for which it waits. -/
def State.run (s : State) (c : Ctx) (o : RunOps) : State :=
  s.asTenant c opRun (fun s p =>
    let old := s.rd F.GATE_QP_GVER 0 c.qp.toNat == 2
    if !old && (decide (o.prio.toNat > 7) || decide (o.afterEn.toNat > 1) || decide (o.after.toNat > 31)) then s.status c opRun stBadCommand
    else if o.byLoad && !old then
      match aget (s.qp c.qp.toNat).staged o.ringIdx.toNat with
      | some e => s.runEntry c o e
      | none =>
        if s.loadOpen c.qp o.ringIdx then s.modHut (fun h => { h with runWaits := List.append h.runWaits [(c, o)] })
        else s.status c opRun stNotFound
    else if o.entry.toNat > 31 then s.status c opRun stNotFound
    else s.runEntry c o (32 * p + o.entry.toNat))

/-- PREEMPT (R331, R337): at step 4 of the next boundary. -/
def State.preempt (s : State) (c : Ctx) (job : Nat) : State :=
  s.asTenant c opPreempt (fun s p =>
    s.modHut (fun h => { h with bounds := List.append h.bounds [.preempt p job c] }))

/-- Whether a section's state accepts RESUME (R336). -/
def State.resumable (s : State) (e : Nat) : Bool :=
  match s.sectX? e with
  | none => false
  | some x => match s.sectState e with
    | 4 => true
    | 5 => x.phase == .none
    | 2 => x.held
    | 6 => x.phase == .none
    | _ => false

/-- RESUME (R336, R337): at step 4 of the next boundary; a stopped Wanan job goes on where the entry names no section that
can (log entry 54). -/
def State.resume (s : State) (c : Ctx) (entry prio row : Nat) : State :=
  s.asTenant c opResume (fun s p =>
    let e := 32 * p + entry
    if prio > 7 ∨ row > 15 then s.status c opResume stBadCommand
    else if entry < 32 ∧ s.resumable e then
      s.modHut (fun h => { h with bounds := List.append h.bounds [.resume e prio row c] })
    else match aget s.hut.wanan p with
      | some w =>
        if w.stopped then (s.modHut (fun h => { h with wanan := aput h.wanan p { w with stopped := false } })).ok c opResume
        else s.status c opResume stNotFound
      | none => s.status c opResume stNotFound)

/-- DISCARD (R336): a Staged, Armed, Saved or Halted section becomes Failed with DISCARDED at once. -/
def State.discard (s : State) (c : Ctx) (entry : Nat) : State :=
  s.asTenant c opDiscard (fun s p =>
    let e := 32 * p + entry
    if entry > 31 ∨ !(List.contains [1, 2, 5, 6] (s.sectState e)) then s.status c opDiscard stNotFound
    else
      let sus := (s.regionSites e).filter (fun a => isSpur a && s.health a == 1)
      let s := (s.abandonRefs [e]).failSect e 0x20 10
      (sus.foldl (fun s a => s.unsuspect a) s).ok c opDiscard)

/-! ### Digests (R367, R446) -/

/-- The ranges of a list in the connection's permitted memory; `none` where the list does not lie there (R445). -/
def State.rangeList (s : State) (c : Ctx) (x n : Nat) : Option (List (Nat × Nat)) × State :=
  if n = 0 ∨ n > 256 ∨ x % 8 ≠ 0 ∨ !s.memPermitted c.qp.toNat x (16 * n) then (none, s)
  else let (l, s) := s.listAt x n
    (some l, s)

/-- Whether a digest may cover an external range: within the grants, in a group with a Tarn column in the partition. -/
def State.digestRange (s : State) (p : Nat) (r : Nat × Nat) : Bool :=
  r.2 % 64 == 0 && r.1 % 8 == 0 && s.inGrant p r.1 r.2 && !(s.lanesOf p (groupOf r.1)).isEmpty

/-- Whether a digest may cover a buffer of a live section: a scratchpad of its region, or a bound Tarn half (R367). -/
def State.digestBuffer (s : State) (e : Nat) (r : Nat × Nat) : Bool :=
  match s.sectX? e with
  | none => false
  | some x =>
    r.2 % 64 == 0 && r.1 % 8 == 0 &&
    ((s.regionSites e).any (fun a => isSpur a && siteHolds a r.1 r.2) ||
     x.halves.any (fun h => decide (bufBase x.halves h.1 ≤ r.1) &&
       decide (r.1 + r.2 ≤ bufBase x.halves h.1 + (if h.2 = 2 then 0x2000000 else 0x1000000))))

/-- DIGEST_SET (R446). -/
def State.digestSet (s : State) (c : Ctx) (o : DigestOps) : State :=
  s.needsV3 c opDigestSet (fun s => s.asTenant c opDigestSet (fun s p =>
    match s.rangeList c o.list.toNat o.count.toNat with
    | (none, s) => s.status c opDigestSet stBadCommand
    | (some l, s) =>
      if s.rd F.TAL_DIG_STATE 0 p = 1 then s.status c opDigestSet stDigestBusy
      else if !l.all (s.digestRange p) then s.status c opDigestSet stDigestRange
      else (s.modHut (fun h => { h with digSets := aput h.digSets (p * 65536 + o.job.toNat) l })).ok c opDigestSet))

/-- DIGEST_NOW (R367, R446): of a live section, its external ranges and its buffers. -/
def State.digestNow (s : State) (c : Ctx) (o : DigestOps) : State :=
  s.needsV3 c opDigestNow (fun s => s.asTenant c opDigestNow (fun s p =>
    let e := 32 * p + o.job.toNat
    match s.rangeList c o.list.toNat o.count.toNat with
    | (none, s) => s.status c opDigestNow stBadCommand
    | (some l, s) =>
      if o.job.toNat > 31 ∨ !s.live e then s.status c opDigestNow stNotFound
      else if s.rd F.TAL_DIG_STATE 0 p = 1 then s.status c opDigestNow stDigestBusy
      else if !l.all (fun r => s.digestRange p r || s.digestBuffer e r) then s.status c opDigestNow stDigestRange
      else s.startDigest p (s.jobOf e) l (some c)))

/-! ### Wanan jobs (R337, R448) -/

/-- WANAN_SUBMIT (R448): one job of a partition at a time. -/
def State.wananSubmit (s : State) (c : Ctx) (job x len : Nat) : State :=
  s.asTenant c opWanan (fun s p =>
    if !s.inGrant p x len then s.status c opWanan stBadCommand
    else if (aget s.hut.wanan p).isSome then s.status c opWanan stBusy
    else s.modHut (fun h => { h with wanan := aput h.wanan p ⟨c, job, 0, false, none, false⟩ }))

/-- The job of a partition ends: RESULT counts the commands completed, DETAIL is the index of one refused. -/
def State.wananEnd (s : State) (p : Nat) (w : WananX) (code : Nat) : State :=
  let s := s.modHut (fun h => { h with wanan := adel h.wanan p })
  if code = 0 then s.ok w.ctx opWanan w.done else s.complete w.ctx opWanan 3 code w.done w.done

/-- WANAN_COMMAND (R337, R448): the command in progress has completed, and the next one of the stream starts: `none` at its
end. -/
def execWananCommand (p : PartNo) (w : Option WananCmd) (s : State) : Host.Outcome State Fault Refusal :=
  let p := p.toNat
  .next (match aget s.hut.wanan p with
    | none => s
    | some x =>
      let x := if x.busy then { x with busy := false, done := x.done + 1 } else x
      let put (x : WananX) : State := s.modHut (fun h => { h with wanan := aput h.wanan p x })
      if x.stopped || x.preempt.isSome then put x
      else match w with
        | none => s.wananEnd p x 0
        | some .unsupported => s.wananEnd p x stWananUnsupported
        | some .malformed => s.wananEnd p x stWananFormat
        | some _ => put { x with busy := true })

/-! ### Tenants, partitions and grants (R317 to R321, R439, R440) -/

/-- The sum of the connection limits of all tenants. -/
def State.allQps (s : State) : Nat :=
  (List.range 16).foldl (fun n t => n + (if s.rd F.GATE_TENANT_ACTIVE 0 t = 1 then s.rd F.GATE_TENANT_MAXQP 0 t else 0)) 0

/-- The accounting counters of a tenant (Table 12-3). -/
def acctCounters : List Ctr := [C.HUT_ACCT_WAIT, C.HUT_ACCT_PREEMPT, C.HUT_ACCT_SAVECYC, C.HUT_ACCT_RESTCYC, C.HUT_ACCT_WDELAY]

/-- TENANT_CREATE (R338, R439). -/
def State.tenantCreate (s : State) (c : Ctx) (t : Nat) (expert : Bool) (maxqp : Nat) (token : BitVec 64) : State :=
  s.asAdmin c opTenantCreate (fun s =>
    if t > 15 then s.status c opTenantCreate stBadCommand
    else if s.rd F.GATE_TENANT_ACTIVE 0 t = 1 then s.status c opTenantCreate stTenantBusy
    else if s.allQps + maxqp + 1 > 1024 then s.status c opTenantCreate stQpLimit
    else
      let s := s.wrs 0 t [(F.GATE_TENANT_ACTIVE, 1), (F.GATE_TENANT_EXPERT, expert.toNat), (F.GATE_TENANT_MAXQP, maxqp)]
      let s := s.modGate (fun g => { g with tokens := aput g.tokens t token })
      let s := acctCounters.foldl (fun (s : State) k =>
        { s with counters := aput s.counters (k.address t) 0, snaps := aput s.snaps (k.address t) 0 }) s
      s.ok c opTenantCreate)

/-- Whether a tenant holds a partition, or one is being created for it. -/
def State.tenantHolds (s : State) (t : Nat) : Bool :=
  (s.partOfTenant t).isSome || s.hut.parts.any (fun q => match q with
    | .create o _ => o.tenant.toNat == t
    | _ => false)

/-- TENANT_REMOVE (R439). -/
def State.tenantRemove (s : State) (c : Ctx) (t : Nat) : State :=
  s.asAdmin c opTenantRemove (fun s =>
    if t > 15 ∨ s.rd F.GATE_TENANT_ACTIVE 0 t = 0 then s.status c opTenantRemove stTenantNone
    else if s.tenantHolds t then s.status c opTenantRemove stTenantBusy
    else
      let s := ((List.range 1024).filter (fun n => s.rd F.GATE_QP_STATE 0 n != 0 && s.ofTenant t n)).foldl (fun s n => s.loseQp n 2) s
      let s := (s.setWord .GATE_TENANT 0 t 0).modGate (fun g => { g with tokens := adel g.tokens t })
      s.ok c opTenantRemove)

/-- Whether two rectangles of column blocks and rows meet. -/
def rectsMeet (c0 n0 r0 m0 c1 n1 r1 m1 : Nat) : Bool :=
  decide (c0 < c1 + n1) && decide (c1 < c0 + n0) && decide (r0 < r1 + m1) && decide (r1 < r0 + m0)

/-- Whether a partition to be created meets another active one, or another being created (R317). -/
def State.partMeets (s : State) (o : PartOps) : Bool :=
  let meets := rectsMeet o.cb0.toNat o.ncb.toNat o.row0.toNat o.nrow.toNat
  (List.range 16).any (fun p => p != o.p.toNat && s.rd F.HUT_PART_ACTIVE 0 p == 1 &&
    meets (s.rd F.HUT_PART_CB0 0 p) (s.rd F.HUT_PART_NCB 0 p) (s.rd F.HUT_PART_ROW0 0 p) (s.rd F.HUT_PART_NROW 0 p)) ||
  s.hut.parts.any (fun q => match q with
    | .create k _ => k.p != o.p && meets k.cb0.toNat k.ncb.toNat k.row0.toNat k.nrow.toNat
    | _ => false)

/-- The refusal of a creation (R317), as HUT_PART.STATUS and command status. -/
def State.partRefusal (s : State) (o : PartOps) : Option (Nat × Nat) :=
  let n := o.ncb.toNat
  let m := o.nrow.toNat
  let p := o.p.toNat
  if n = 0 ∨ n > 4 ∨ o.cb0.toNat + n > 4 ∨ m = 0 ∨ m > 16 ∨ o.row0.toNat + m > 16 then some (1, stPartShape)
  else if s.partMeets o then some (2, stPartOverlap)
  else if s.rd F.HUT_PART_ACTIVE 0 p = 1 ∨ s.hut.parts.any (fun q => match q with
      | .create k _ => k.p == o.p
      | _ => false) then some (3, stPartBusy)
  else none

/-- PART_CREATE (R317, R439): pending until its router domains are ON at a boundary. -/
def State.partCreate (s : State) (c : Ctx) (o : PartOps) : State :=
  s.asAdmin c opPartCreate (fun s =>
    let p := o.p.toNat
    let t := o.tenant.toNat
    if p > 15 then s.status c opPartCreate stBadCommand
    else if t > 15 ∨ s.rd F.GATE_TENANT_ACTIVE 0 t = 0 then s.status c opPartCreate stTenantNone
    else if s.tenantHolds t then s.status c opPartCreate stTenantBusy
    else match s.partRefusal o with
      | some (st, code) => (s.wr F.HUT_PART_STATUS 0 p st).status c opPartCreate code
      | none => (s.wr F.HUT_PART_STATUS 0 p 4).modHut (fun h => { h with parts := List.append h.parts [.create o c] }))

/-- PART_REMOVE (R318): at step 4 of the next boundary. A Wanan command in progress has sections in place. -/
def State.partRemove (s : State) (c : Ctx) (p : Nat) : State :=
  s.asAdmin c opPartRemove (fun s =>
    if p > 15 ∨ s.rd F.HUT_PART_ACTIVE 0 p = 0 then s.status c opPartRemove stNotFound
    else if !(s.openSects p).isEmpty || ((aget s.hut.wanan p).map WananX.busy).getD false then (s.wr F.HUT_PART_STATUS 0 p 5).status c opPartRemove stPartLive
    else (s.wr F.HUT_PART_STATUS 0 p 4).modHut (fun h => { h with parts := List.append h.parts [.remove p c] }))

/-- GRANT (R320, R321): in effect at a boundary, after zeroing where a granule was last another tenant's, or no one's. -/
def State.grant (s : State) (c : Ctx) (o : GrantOps) : State :=
  s.asAdmin c opGrant (fun s =>
    let p := o.p.toNat
    let k := o.group.toNat
    let base := o.base.toNat
    let size := o.size.toNat
    if p > 15 ∨ s.rd F.HUT_PART_ACTIVE 0 p = 0 then s.status c opGrant stNotFound
    else if k > 3 then s.status c opGrant stBadCommand
    else match s.grantRefusal p k base size with
      | some (st, code) => (s.wr F.HUT_GRANT_STATUS 0 (4 * p + k) st).status c opGrant code
      | none =>
        let t := s.tenantOf p
        let zero := (granulesOf k base size).any (fun g => aget s.hut.lastOwner g != some t)
        let s := s.wr F.HUT_GRANT_STATUS 0 (4 * p + k) 0
        (s.modHut (fun h => { h with parts := List.append h.parts [.grant p k base size zero c] })).settleZeroing p k)

/-- The first pending grant that is being zeroed, marked as zeroed. -/
def zeroedFirst (p k : Nat) : List PartReq → List PartReq
  | [] => []
  | q :: l =>
    if q.zeroingOf p k then (match q with
      | .grant a b x n _ c => .grant a b x n false c :: l
      | q => q :: l)
    else q :: zeroedFirst p k l

/-- GRANT_ZEROING_COMPLETE (R321): the granules of the first pending grant that the tenant did not hold last are zero. -/
def execGrantZeroingComplete (p : PartNo) (k : BitVec 2) (s : State) : Host.Outcome State Fault Refusal :=
  let p := p.toNat
  let k := k.toNat
  .next (match s.hut.parts.find? (fun q => q.zeroingOf p k) with
    | some (.grant _ _ base size _ _) =>
      let t := s.tenantOf p
      let l := (granulesOf k base size).filter (fun g => aget s.hut.lastOwner g != some t)
      let s := l.foldl (fun s g =>
        let b := k * groupSize + (g - 768 * k) * 0x10000000
        s.zeroRange b (b + 0x10000000)) s
      (s.modHut (fun h => { h with parts := zeroedFirst p k h.parts })).settleZeroing p k
    | _ => s)

/-! ### The commands -/

/-- LOAD (R415). -/
def execLoad (c : Ctx) (o : LoadOps) (s : State) : Host.Outcome State Fault Refusal := .next (s.load c o)

/-- RUN (R326). -/
def execRun (c : Ctx) (o : RunOps) (s : State) : Host.Outcome State Fault Refusal := .next (s.run c o)

/-- PREEMPT (R331). -/
def execPreempt (c : Ctx) (job : BitVec 16) (s : State) : Host.Outcome State Fault Refusal := .next (s.preempt c job.toNat)

/-- RESUME (R336). -/
def execResume (c : Ctx) (entry prio row : Byte) (s : State) : Host.Outcome State Fault Refusal :=
  .next (s.resume c entry.toNat prio.toNat row.toNat)

/-- DISCARD (R336). -/
def execDiscard (c : Ctx) (entry : Byte) (s : State) : Host.Outcome State Fault Refusal := .next (s.discard c entry.toNat)

/-- DIGEST_SET (R446). -/
def execDigestSet (c : Ctx) (o : DigestOps) (s : State) : Host.Outcome State Fault Refusal := .next (s.digestSet c o)

/-- DIGEST_NOW (R367). -/
def execDigestNow (c : Ctx) (o : DigestOps) (s : State) : Host.Outcome State Fault Refusal := .next (s.digestNow c o)

/-- WANAN_SUBMIT (R448). -/
def execWananSubmit (c : Ctx) (job : BitVec 16) (stream len : BitVec 64) (s : State) : Host.Outcome State Fault Refusal :=
  .next (s.wananSubmit c job.toNat stream.toNat len.toNat)

/-- TENANT_CREATE (R439). -/
def execTenantCreate (c : Ctx) (tenant : Byte) (expert : Bool) (maxqp : BitVec 16) (token : BitVec 64) (s : State) :
    Host.Outcome State Fault Refusal := .next (s.tenantCreate c tenant.toNat expert maxqp.toNat token)

/-- TENANT_REMOVE (R439). -/
def execTenantRemove (c : Ctx) (tenant : Byte) (s : State) : Host.Outcome State Fault Refusal := .next (s.tenantRemove c tenant.toNat)

/-- PART_CREATE (R317). -/
def execPartCreate (c : Ctx) (o : PartOps) (s : State) : Host.Outcome State Fault Refusal := .next (s.partCreate c o)

/-- PART_REMOVE (R318). -/
def execPartRemove (c : Ctx) (part : Byte) (s : State) : Host.Outcome State Fault Refusal := .next (s.partRemove c part.toNat)

/-- GRANT (R320). -/
def execGrant (c : Ctx) (o : GrantOps) (s : State) : Host.Outcome State Fault Refusal := .next (s.grant c o)

/-- One command as the Hut starts it (R446, R467). -/
def State.hostCmd (s : State) (c : Ctx) (k : HostCmd) : State :=
  match k with
  | .load o => s.load c o
  | .run o => s.run c o
  | .preempt j => s.preempt c j.toNat
  | .resume e p r => s.resume c e.toNat p.toNat r.toNat
  | .discard e => s.discard c e.toNat
  | .digestSet o => s.digestSet c o
  | .digestNow o => s.digestNow c o
  | .regRead a => s.regRead c a.toNat
  | .regWrite a v m => s.regWrite c a.toNat v m
  | .regWriteList l n => s.needsV3 c opRegWriteList (fun s => s.regWriteList c l.toNat n.toNat)
  | .wananSubmit j x n => s.wananSubmit c j.toNat x.toNat n.toNat
  | .tenantCreate t e m k => s.tenantCreate c t.toNat e m.toNat k
  | .tenantRemove t => s.tenantRemove c t.toNat
  | .partCreate o => s.partCreate c o
  | .partRemove p => s.partRemove c p.toNat
  | .grant o => s.grant c o
  | .bad op => s.status c op.toNat stBadCommand

/-- COMMAND_DISPATCH (R446): the first command of the mailbox. -/
def execCommandDispatch (s : State) : Host.Outcome State Fault Refusal :=
  .next (match s.hut.mailbox with
    | [] => s
    | (c, k) :: l =>
      let s := (s.modHut (fun h => { h with mailbox := l })).modBoard (fun b => { b with lastHost := s.time })
      s.hostCmd c k)

end Sys2Proof.Machine
end

