-- ==== Sys2Proof/Machine/Pitch.lean ====
section
/-! DEFINITION. The pitch boundary (R26 to R32, Table 01-6): the end of a pitch, the eight actions in their order, and what
other chapters tie to a boundary. -/

namespace Sys2Proof.Machine

/-- Whether the engines of a site have nothing in flight (R30). An undecided tile or row holds what is behind it until its
referee (R107, R138, R352). -/
def State.enginesDone (s : State) (a : Nat) : Bool :=
  let m := s.mtx a
  let v := s.vec a
  let stuck := m.tiles.any (fun x => x.stage == .undecided) || v.undecided.isSome
  (m.tiles.all (fun x => x.kind == .mfree) || stuck) && ((v.queue.isEmpty && v.pipe.isEmpty) || stuck)

/-- The sites of Running sections. -/
def State.runningSites (s : State) : List Nat := (s.sites.map Prod.fst).filter (fun a => s.running a)

/-- Whether the pitch can end: pitch 0 has begun, no engine instruction is in flight and no self-test runs (R28, R30, R33). -/
def State.pitchDone (s : State) : Bool :=
  s.board.pllLock && s.hut.testing.isEmpty && s.runningSites.all (fun a => s.enginesDone a)

/-- The cycle of the next pitch from which the hold of the head goes on: an engine instruction is held by the boundary window until
cycle 64 (R29, R157). -/
def State.holdFrom (s : State) (a : Nat) : Nat := if (s.headInstr a).any SeqInstr.isEngine then 64 else 0

/-- Waits of a site counted to the end of the pitch; a hold goes on in the next (R178). Nothing waits to issue at a site whose section
is not Running (R194). -/
def State.settleSite (s : State) (a : Nat) : State :=
  let runs := s.running a
  let s := (if runs then s.settleHold a else s).settleFence a
  let now := s.cycles
  let from_ := s.holdFrom a
  let s := (s.mtxSettle a).modSeq a (fun q => { q with hold := q.hold.map (fun h => { h with at_ := from_ }), issuedPitch := false })
  let s := (s.site a).strs.foldl (fun s x =>
    if x.2.creditHeld.isSome then
      (if runs then s.settleCredit a x.1 else s).modStr a x.1 (fun y => { y with creditHeld := some now }) else s) s
  let s := (s.site a).queues.foldl (fun s x =>
    if x.2.rcHeld.isSome then (s.settleRc a x.1).modQueue a x.1 (fun y => { y with rcHeld := some now }) else s) s
  (s.settleLog a).drainSite a

/-- What the engines of a site carry within one pitch only (R91, R92, R122, R123). -/
def State.newPitchSite (s : State) (a : Nat) : State :=
  let s := (s.wr F.MTX_STATUS_REEXEC_SPENT a 0 0).wr F.VEC_STATUS_REPLAY_SPENT a 0 0
  let s := s.modMtx a (fun m => { m with lastK := 0, relPrev := 0, pendRels := [], reserve := 0, relAct := 0,
                                          slots := m.slots.map (fun x => { x with lastRel := 0, readEnd := 0 }),
                                          frees := m.frees.map (fun x => (x.1, 0)) })
  s.modVec a (fun v => { v with ready := [], nextFree := 0 })

/-- A boundary that a claim waits through (R254), and the idle pitches of the dynamic connections (R227). -/
def State.countWaits (s : State) (a : Nat) : State :=
  let s := s.modSeq a (fun q => { q with claim := q.claim.map (fun c => { c with boundaries := c.boundaries + 1 }) })
  let s := (s.site a).queues.foldl (fun s x =>
    let now := s.dynIdle a x.1
    let n := if now && !x.2.touched then x.2.idle + 1 else 0
    (s.modQueue a x.1 (fun y => { y with idle := n, touched := !now })).idleClose a x.1) s
  s.claimRetry a

/-- Step 1 (R31, R110): every live counter is copied; in Bivouac those of the RETAIN domains of the sites are not (R470). -/
def State.sample (s : State) : State :=
  let l := if s.rd F.PWR_BIVOUAC_STATE ≠ 0 then s.counters.filter (fun x => decide (0x01FF00000000 ≤ x.1)) else s.counters
  { s with snaps := l.foldl (fun m x => aput m x.1 x.2) s.snaps }

/-- Step 8 (Table 01-9): a change of the pitch length takes effect for the pitch after this one. -/
def State.takeLength (s : State) : State :=
  match s.lenPend with
  | some v =>
    let s : State := { s with lenPend := none, lenNext := some v }
    s.wr F.COL_PITCH_CTRL_CHANGE_PEND 0 0 0
  | none => s

/-- The next pitch number and the length in force (R28, R40). -/
def State.nextPitch (s : State) : State :=
  let last := s.pitch = 2 ^ 48 - 1
  let s := s.wr F.COL_PITCH_NUM_PITCH 0 0 (if last then 0 else s.pitch + 1)
  let s := if last then s.noteFlag F.COL_PITCH_CTRL_WRAPPED 0 0 else s
  match s.lenNext with
  | some v =>
    let s : State := { s with lenNext := none }
    s.wr F.COL_PITCH_NUM_LOG2_LEN 0 0 v
  | none => s

/-- Stochastic-rounding seeds written since the last boundary (R59). -/
def State.takeSeeds (s : State) : State :=
  s.seedNext.foldl (fun s x => s.setWord .VEC_SR_SEED x.1 0 x.2) { s with seedNext := [] }

/-- Reception into the slot of a partition that is not ACTIVE any more ends (R318). -/
def State.endInactive (s : State) : State :=
  s.truncateIf (fun k _ => decide (k < 16) && s.rd F.HUT_PART_ACTIVE 0 k == 0)

/-- The actions of Table 01-6 in their order, at the start of the pitch; `stalls` is how the heads stood in the last
cycle of the pitch before (R175). Step 2 finds every verdict final (R30), and step 5 begins with what steps 3 and 4 pause. -/
def State.boundaryActions (s : State) (stalls : List (Nat × Option (Nat × Nat))) : State :=
  let s := s.sample
  let s := (s.healthActions stalls).channelActions
  let s := s.scheduleActions.endInactive
  let s := s.digestActions
  let s := s.applyCorrections.watchScrubber.startTests
  let s := s.takeLength
  s.judgeEntry.beginWake

/-- The end of the pitch: its last cycle is reached, the heads are judged, and every wait is counted. -/
def State.endPitch (s : State) : State × List (Nat × Option (Nat × Nat)) :=
  let s := s.at_ (s.pitchLen - 1)
  let st := s.stalls
  let s := (s.pass 1).settleArbs
  ((s.sites.map Prod.fst).foldl (fun s a => s.settleSite a) s.settlePorts, st)

/-- A pitch boundary (R31). -/
def State.boundary (s : State) : State :=
  let (s, st) := s.endPitch
  let s : State := { s with cycle := 0 }
  let s := s.nextPitch.takeSeeds
  let l := s.sites.map Prod.fst
  let s := l.foldl (fun s a => (s.newPitchSite a).countWaits a) s
  s.boundaryActions st

/-- PITCH_BOUNDARY (R31): the pitch runs to its end and the next begins. -/
def execPitchBoundary (s : State) : Host.Outcome State Fault Refusal := .next (if s.pitchDone then s.boundary else s)

/-- PITCH_WRAP (R28): the boundary after pitch 2^48 - 1. -/
def execPitchWrap (s : State) : Host.Outcome State Fault Refusal :=
  .next (if s.pitch = 2 ^ 48 - 1 && s.pitchDone then s.boundary else s)

end Sys2Proof.Machine
end

