-- ==== Sys2Proof/Machine/Dispatch.lean ====
section
/-! DEFINITION. The effect of each command: one arm per constructor. -/

namespace Sys2Proof.Machine

open Sys2Proof

/-- The effect of a command on the state, the queue of waiting commands aside. -/
def exec (i : Instr) (s : State) : Host.Outcome State Fault Refusal :=
  match i with
  | .pitchBoundary => Sys2Proof.Machine.execPitchBoundary s
  | .pitchWrap => Sys2Proof.Machine.execPitchWrap s
  | .stallWatchdog site => Sys2Proof.Machine.execStallWatchdog site s
  | .healthySelftestDue spur => Sys2Proof.Machine.execHealthySelftestDue spur s
  | .watchedSelftestDue spur => Sys2Proof.Machine.execWatchedSelftestDue spur s
  | .selftestComplete spur signature => Sys2Proof.Machine.execSelftestComplete spur signature s
  | .idleClose site q => Sys2Proof.Machine.execIdleClose site q s
  | .claimRetry site => Sys2Proof.Machine.execClaimRetry site s
  | .scrubStall => Sys2Proof.Machine.execScrubStall s
  | .scheduledDigest p => Sys2Proof.Machine.execScheduledDigest p s
  | .bivouacAutoEntry => Sys2Proof.Machine.execBivouacAutoEntry s
  | .nop p g => Sys2Proof.Machine.execNop p g s
  | .seqEnd p g => Sys2Proof.Machine.execSeqEnd p g s
  | .br p o => Sys2Proof.Machine.execBr p o s
  | .loop p o => Sys2Proof.Machine.execLoop p o s
  | .lset p o => Sys2Proof.Machine.execLset p o s
  | .ladd p o => Sys2Proof.Machine.execLadd p o s
  | .pset p o => Sys2Proof.Machine.execPset p o s
  | .qtry p o => Sys2Proof.Machine.execQtry p o s
  | .sel p o => Sys2Proof.Machine.execSel p o s
  | .tpush p o => Sys2Proof.Machine.execTpush p o s
  | .sig p o => Sys2Proof.Machine.execSig p o s
  | .wait p o => Sys2Proof.Machine.execWait p o s
  | .arrive p o => Sys2Proof.Machine.execArrive p o s
  | .claim p o => Sys2Proof.Machine.execClaim p o s
  | .strt p o => Sys2Proof.Machine.execStrt p o s
  | .tmark p o => Sys2Proof.Machine.execTmark p o s
  | .mma p o => Sys2Proof.Machine.execMma p o s
  | .mmerge p o => Sys2Proof.Machine.execMmerge p o s
  | .msave p o => Sys2Proof.Machine.execMsave p o s
  | .mfree p o => Sys2Proof.Machine.execMfree p o s
  | .tileVerdict p u => Sys2Proof.Machine.execTileVerdict p u s
  | .tileReexecution p u => Sys2Proof.Machine.execTileReexecution p u s
  | .tileCommit p u => Sys2Proof.Machine.execTileCommit p u s
  | .tileRelease p u => Sys2Proof.Machine.execTileRelease p u s
  | .msaveSlotRead p => Sys2Proof.Machine.execMsaveSlotRead p s
  | .physicalFree p => Sys2Proof.Machine.execPhysicalFree p s
  | .skippedMmaRelease p => Sys2Proof.Machine.execSkippedMmaRelease p s
  | .vop p o => Sys2Proof.Machine.execVop p o s
  | .vrd p o => Sys2Proof.Machine.execVrd p o s
  | .vcvt p o => Sys2Proof.Machine.execVcvt p o s
  | .vred p o => Sys2Proof.Machine.execVred p o s
  | .vld p o => Sys2Proof.Machine.execVld p o s
  | .vst p o => Sys2Proof.Machine.execVst p o s
  | .vimm p o => Sys2Proof.Machine.execVimm p o s
  | .vectorRowEntry p => Sys2Proof.Machine.execVectorRowEntry p s
  | .vectorRowGating p u => Sys2Proof.Machine.execVectorRowGating p u s
  | .queueTokenIntake p unit => Sys2Proof.Machine.execQueueTokenIntake p unit s
  | .steerFire p unit => Sys2Proof.Machine.execSteerFire p unit s
  | .mergeIntake p unit => Sys2Proof.Machine.execMergeIntake p unit s
  | .mergeFire p unit => Sys2Proof.Machine.execMergeFire p unit s
  | .aset p ad imm => Sys2Proof.Machine.execAset p ad imm s
  | .aadd p ad src imm => Sys2Proof.Machine.execAadd p ad src imm s
  | .aarg p ad src sh => Sys2Proof.Machine.execAarg p ad src sh s
  | .aloop p last count => Sys2Proof.Machine.execAloop p last count s
  | .copy p o => Sys2Proof.Machine.execCopy p o s
  | .signal p rem cnt add => Sys2Proof.Machine.execSignal p rem cnt add s
  | .fence p => Sys2Proof.Machine.execFence p s
  | .streamProgramEnd p => Sys2Proof.Machine.execStreamProgramEnd p s
  | .streamRequest p => Sys2Proof.Machine.execStreamRequest p s
  | .remoteRequest p r => Sys2Proof.Machine.execRemoteRequest p r s
  | .requestComplete p r => Sys2Proof.Machine.execRequestComplete p r s
  | .streamProgramCompletion p => Sys2Proof.Machine.execStreamProgramCompletion p s
  | .flitArrival site d f => Sys2Proof.Machine.execFlitArrival site d f s
  | .linkNak site d w => Sys2Proof.Machine.execLinkNak site d w s
  | .holdLineDrop site d => Sys2Proof.Machine.execHoldLineDrop site d s
  | .linkDead site d c => Sys2Proof.Machine.execLinkDead site d c s
  | .linkMark site d => Sys2Proof.Machine.execLinkMark site d s
  | .entryDepart p q => Sys2Proof.Machine.execEntryDepart p q s
  | .receiveEntry p q h e => Sys2Proof.Machine.execReceiveEntry p q h e s
  | .signalRecord p q h ctr add => Sys2Proof.Machine.execSignalRecord p q h ctr add s
  | .remoteCreditReturn p q conn n => Sys2Proof.Machine.execRemoteCreditReturn p q conn n s
  | .mcastCredit p q leaf n => Sys2Proof.Machine.execMcastCredit p q leaf n s
  | .gapMarker p q => Sys2Proof.Machine.execGapMarker p q s
  | .controlInject p => Sys2Proof.Machine.execControlInject p s
  | .signalAdd p m => Sys2Proof.Machine.execSignalAdd p m s
  | .addAck p discarded => Sys2Proof.Machine.execAddAck p discarded s
  | .fencedArrivalOffer p bar => Sys2Proof.Machine.execFencedArrivalOffer p bar s
  | .barrierArrival => Sys2Proof.Machine.execBarrierArrival s
  | .barrierRelease p bar => Sys2Proof.Machine.execBarrierRelease p bar s
  | .claimRequest p m => Sys2Proof.Machine.execClaimRequest p m s
  | .claimReply p seq value poison => Sys2Proof.Machine.execClaimReply p seq value poison s
  | .connProbe p q conn => Sys2Proof.Machine.execConnProbe p q conn s
  | .connReply p q conn => Sys2Proof.Machine.execConnReply p q conn s
  | .connRefuse p q conn noPeer => Sys2Proof.Machine.execConnRefuse p q conn noPeer s
  | .connCommit p q conn => Sys2Proof.Machine.execConnCommit p q conn s
  | .connClose p q conn => Sys2Proof.Machine.execConnClose p q conn s
  | .backoffExpiry site q => Sys2Proof.Machine.execBackoffExpiry site q s
  | .ringRecordWrite p q => Sys2Proof.Machine.execRingRecordWrite p q s
  | .frameRead a o => Sys2Proof.Machine.execFrameRead a o s
  | .frameWrite a data => Sys2Proof.Machine.execFrameWrite a data s
  | .frameReread a o => Sys2Proof.Machine.execFrameReread a o s
  | .patrolScrub ch o => Sys2Proof.Machine.execPatrolScrub ch o s
  | .periodicTraining ch ok => Sys2Proof.Machine.execPeriodicTraining ch ok s
  | .bankRefresh ch bank => Sys2Proof.Machine.execBankRefresh ch bank s
  | .channelMark ch => Sys2Proof.Machine.execChannelMark ch s
  | .groupReformComplete k => Sys2Proof.Machine.execGroupReformComplete k s
  | .domainPowerUpComplete d site => Sys2Proof.Machine.execDomainPowerUpComplete d site s
  | .frameTransferStart p e => Sys2Proof.Machine.execFrameTransferStart p e s
  | .configFrameWrite p e crc1 crc2 => Sys2Proof.Machine.execConfigFrameWrite p e crc1 crc2 s
  | .reconfigComplete p e => Sys2Proof.Machine.execReconfigComplete p e s
  | .quiescence p e => Sys2Proof.Machine.execQuiescence p e s
  | .saveComplete p e => Sys2Proof.Machine.execSaveComplete p e s
  | .restoreComplete p e => Sys2Proof.Machine.execRestoreComplete p e s
  | .grantZeroingComplete p k => Sys2Proof.Machine.execGrantZeroingComplete p k s
  | .loaderCheck p img => Sys2Proof.Machine.execLoaderCheck p img s
  | .correctedWriteBack a written => Sys2Proof.Machine.execCorrectedWriteBack a written s
  | .scrubFrameRead frame o => Sys2Proof.Machine.execScrubFrameRead frame o s
  | .leafRead p j => Sys2Proof.Machine.execLeafRead p j s
  | .digestComplete p => Sys2Proof.Machine.execDigestComplete p s
  | .healthRecordAppend ok => Sys2Proof.Machine.execHealthRecordAppend ok s
  | .laneWindow lost errors => Sys2Proof.Machine.execLaneWindow lost errors s
  | .retrainComplete trains => Sys2Proof.Machine.execRetrainComplete trains s
  | .retrainRetry trains => Sys2Proof.Machine.execRetrainRetry trains s
  | .streamHeader slot h multicast => Sys2Proof.Machine.execStreamHeader slot h multicast s
  | .nopPacket slot h data => Sys2Proof.Machine.execNopPacket slot h data s
  | .sync slot h tag => Sys2Proof.Machine.execSync slot h tag s
  | .firmware slot h data => Sys2Proof.Machine.execFirmware slot h data s
  | .fwsig slot h pk sig => Sys2Proof.Machine.execFwsig slot h pk sig s
  | .wreg slot h recs => Sys2Proof.Machine.execWreg slot h recs s
  | .startSeq slot h codes => Sys2Proof.Machine.execStartSeq slot h codes s
  | .frame slot h data => Sys2Proof.Machine.execFrame slot h data s
  | .image slot h data => Sys2Proof.Machine.execImage slot h data s
  | .signature slot h pk sig => Sys2Proof.Machine.execSignature slot h pk sig s
  | .streamEndPacket slot h => Sys2Proof.Machine.execStreamEndPacket slot h s
  | .signatureVerified slot => Sys2Proof.Machine.execSignatureVerified slot s
  | .datagram id offset len => Sys2Proof.Machine.execDatagram id offset len s
  | .loadDeadline slot => Sys2Proof.Machine.execLoadDeadline slot s
  | .bootComplete => Sys2Proof.Machine.execBootComplete s
  | .startupStep o => Sys2Proof.Machine.execStartupStep o s
  | .pllLockTimeout => Sys2Proof.Machine.execPllLockTimeout s
  | .pwrgdRise => Sys2Proof.Machine.execPwrgdRise s
  | .inputUndervoltage => Sys2Proof.Machine.execInputUndervoltage s
  | .porstNAssert => Sys2Proof.Machine.execPorstNAssert s
  | .porstNDeassert st => Sys2Proof.Machine.execPorstNDeassert st s
  | .stageInNLow => Sys2Proof.Machine.execStageInNLow s
  | .vbatLoss => Sys2Proof.Machine.execVbatLoss s
  | .temperatureSample tj => Sys2Proof.Machine.execTemperatureSample tj s
  | .thermalWindow maxTj watts => Sys2Proof.Machine.execThermalWindow maxTj watts s
  | .hello side lo hi => Sys2Proof.Machine.execHello side lo hi s
  | .helloSend side => Sys2Proof.Machine.execHelloSend side s
  | .ropeLinkDown side => Sys2Proof.Machine.execRopeLinkDown side s
  | .pos crcOk n => Sys2Proof.Machine.execPos crcOk n s
  | .chain crcOk n => Sys2Proof.Machine.execChain crcOk n s
  | .ropeWake crcOk dst => Sys2Proof.Machine.execRopeWake crcOk dst s
  | .relayReq crcOk src dst seq cmd => Sys2Proof.Machine.execRelayReq crcOk src dst seq cmd s
  | .relayRsp crcOk src dst seq rsp => Sys2Proof.Machine.execRelayRsp crcOk src dst seq rsp s
  | .relayRetry => Sys2Proof.Machine.execRelayRetry s
  | .getStatus pec => Sys2Proof.Machine.execGetStatus pec s
  | .getIdentity pec => Sys2Proof.Machine.execGetIdentity pec s
  | .setIp pec family plen addr gw => Sys2Proof.Machine.execSetIp pec family plen addr gw s
  | .setVbatKey pec key => Sys2Proof.Machine.execSetVbatKey pec key s
  | .clearVbatKey pec => Sys2Proof.Machine.execClearVbatKey pec s
  | .progKeySlot pec slot hash => Sys2Proof.Machine.execProgKeySlot pec slot hash s
  | .healthClear pec type unit => Sys2Proof.Machine.execHealthClear pec type unit s
  | .healthRead pec idx => Sys2Proof.Machine.execHealthRead pec idx s
  | .wake pec => Sys2Proof.Machine.execWake pec s
  | .bivouacEnter pec => Sys2Proof.Machine.execBivouacEnter pec s
  | .ropeRelay pec target cmd => Sys2Proof.Machine.execRopeRelay pec target cmd s
  | .setPowerLimit pec watts => Sys2Proof.Machine.execSetPowerLimit pec watts s
  | .getResult pec => Sys2Proof.Machine.execGetResult pec s
  | .smbusCommandComplete readBack => Sys2Proof.Machine.execSmbusCommandComplete readBack s
  | .alertResponse => Sys2Proof.Machine.execAlertResponse s
  | .bivouacEntryComplete => Sys2Proof.Machine.execBivouacEntryComplete s
  | .wakeComplete => Sys2Proof.Machine.execWakeComplete s
  | .probe serial => Sys2Proof.Machine.execProbe serial s
  | .announce => Sys2Proof.Machine.execAnnounce s
  | .hostClaim c => Sys2Proof.Machine.execHostClaim c s
  | .connect c => Sys2Proof.Machine.execConnect c s
  | .disconnect qpn reason => Sys2Proof.Machine.execDisconnect qpn reason s
  | .release nonce => Sys2Proof.Machine.execRelease nonce s
  | .rdmaWrite n rkey a data => Sys2Proof.Machine.execRdmaWrite n rkey a data s
  | .rdmaRead n rkey a len => Sys2Proof.Machine.execRdmaRead n rkey a len s
  | .doorbell n pi cqci => Sys2Proof.Machine.execDoorbell n pi cqci s
  | .streamBytes n len => Sys2Proof.Machine.execStreamBytes n len s
  | .unsupportedOperation n => Sys2Proof.Machine.execUnsupportedOperation n s
  | .ceMarkedPacket n => Sys2Proof.Machine.execCeMarkedPacket n s
  | .cnp n => Sys2Proof.Machine.execCnp n s
  | .rateRecovery n => Sys2Proof.Machine.execRateRecovery n s
  | .ackTimeout n => Sys2Proof.Machine.execAckTimeout n s
  | .pause quanta => Sys2Proof.Machine.execPause quanta s
  | .pfc prio quanta => Sys2Proof.Machine.execPfc prio quanta s
  | .arp => Sys2Proof.Machine.execArp s
  | .ndp => Sys2Proof.Machine.execNdp s
  | .icmpEcho => Sys2Proof.Machine.execIcmpEcho s
  | .ipFragment => Sys2Proof.Machine.execIpFragment s
  | .commandDispatch => Sys2Proof.Machine.execCommandDispatch s
  | .completionWrite n => Sys2Proof.Machine.execCompletionWrite n s
  | .load c o => Sys2Proof.Machine.execLoad c o s
  | .run c o => Sys2Proof.Machine.execRun c o s
  | .preempt c job => Sys2Proof.Machine.execPreempt c job s
  | .resume c entry prio row => Sys2Proof.Machine.execResume c entry prio row s
  | .discard c entry => Sys2Proof.Machine.execDiscard c entry s
  | .digestSet c o => Sys2Proof.Machine.execDigestSet c o s
  | .digestNow c o => Sys2Proof.Machine.execDigestNow c o s
  | .regRead c a => Sys2Proof.Machine.execRegRead c a s
  | .regWrite c a value mask => Sys2Proof.Machine.execRegWrite c a value mask s
  | .regWriteList c list count => Sys2Proof.Machine.execRegWriteList c list count s
  | .wananSubmit c job stream len => Sys2Proof.Machine.execWananSubmit c job stream len s
  | .wananCommand p w => Sys2Proof.Machine.execWananCommand p w s
  | .tenantCreate c tenant expert maxqp token => Sys2Proof.Machine.execTenantCreate c tenant expert maxqp token s
  | .tenantRemove c tenant => Sys2Proof.Machine.execTenantRemove c tenant s
  | .partCreate c o => Sys2Proof.Machine.execPartCreate c o s
  | .partRemove c part => Sys2Proof.Machine.execPartRemove c part s
  | .grant c o => Sys2Proof.Machine.execGrant c o s
  | .registerWrite w a value mask => Sys2Proof.Machine.execRegisterWrite w a value mask s
  | .colPitchCtrlWrite w value => Sys2Proof.Machine.execColPitchCtrlWrite w value s
  | .domainOn w dom site => Sys2Proof.Machine.execDomainOn w dom site s
  | .domainRetain w dom site => Sys2Proof.Machine.execDomainRetain w dom site s
  | .domainOff w dom site => Sys2Proof.Machine.execDomainOff w dom site s
  | .srSeedWrite w site seed => Sys2Proof.Machine.execSrSeedWrite w site seed s
  | .steerConfigWrite w site n value => Sys2Proof.Machine.execSteerConfigWrite w site n value s
  | .scrubCtrlWrite w value => Sys2Proof.Machine.execScrubCtrlWrite w value s
  | .bivouacEnterWrite w => Sys2Proof.Machine.execBivouacEnterWrite w s
  | .chkLogRead w site => Sys2Proof.Machine.execChkLogRead w site s
  | .memErrLogRead w => Sys2Proof.Machine.execMemErrLogRead w s
  | .loadRefusalRead w p => Sys2Proof.Machine.execLoadRefusalRead w p s
  | .poisonLogRead w p => Sys2Proof.Machine.execPoisonLogRead w p s
  | .eccLogRead w site => Sys2Proof.Machine.execEccLogRead w site s
  | .steerDataIntake p unit => Sys2Proof.Machine.execSteerDataIntake p unit s
  | .adminReconnectExpiry => Sys2Proof.Machine.execAdminReconnectExpiry s
  | .dhcpReply addr => Sys2Proof.Machine.execDhcpReply addr s
  | .otherImmediateSend n imm => Sys2Proof.Machine.execOtherImmediateSend n imm s

end Sys2Proof.Machine
end

