-- ==== Sys2Proof/Machine/Tick.lean ====
section
/-! DEFINITION. The passing of core clock cycles when no command waits (log entry 1). -/

namespace Sys2Proof.Machine

/-- One core clock cycle passes. Before the core PLL has locked there is no pitch and only time goes on (R28); after the last
cycle of a pitch the boundary comes, unless an engine instruction is in flight. A self-test that runs ends by cycle 48 (R33). -/
def tick (s : State) : State :=
  if !s.board.pllLock then { s with cycles := s.cycles + 1, time := s.time + periodOf 0, evs := [], hostSigs := [], padOld := [] }
  else if s.cycle + 1 < s.pitchLen then (if s.testsAllow (s.cycle + 1) then s.pass 1 else s)
  else if s.pitchDone then s.boundary
  else s

end Sys2Proof.Machine
end

