-- ==== Sys2Proof/Certificates/Slice0/Obligations.lean ====
section
/-! DEFINITION. The statements for the provers. `Done c s Q` says that the command completes with a next state of which Q
holds; `Frame u t R` that t keeps every byte of memory of u with its poison, and every register but those of R. -/

open Sys2Proof Sys2Proof.Machine

/-- The command answers a next state, and Q holds of it. -/
def Done (c : Instr) (s : State) (Q : State → Prop) : Prop := ∃ t, exec c s = .next t ∧ Q t

/-- Every byte of memory reads as before, and so does the poison of its word. -/
def SameMem (u t : State) : Prop := ∀ x, t.byte x = u.byte x ∧ t.poisonedAt x = u.poisonedAt x

/-- Every register but those named keeps its word. -/
def SameRegs (u t : State) (R : RegName → Nat → Nat → Prop) : Prop :=
  ∀ r a i, ¬ R r a i → t.word r a i = u.word r a i

/-- Memory and every register but those named are as before. -/
def Frame (u t : State) (R : RegName → Nat → Nat → Prop) : Prop := SameMem u t ∧ SameRegs u t R

/-- No register. -/
def noReg : RegName → Nat → Nat → Prop := fun _ _ _ => False

/-- One register. -/
def oneReg (r : RegName) (a i : Nat) : RegName → Nat → Nat → Prop := fun r' a' i' => r' = r ∧ a' = a ∧ i' = i

/-- Every site but one keeps its state beyond the registers. -/
def OtherSites (u t : State) (a : Nat) : Prop := ∀ b, b ≠ a → t.site b = u.site b

/-! ### The step -/

/-- A step runs the command at the front of the queue on the state with the queue's rest. -/
def Obligations.StepRunsFront : Prop :=
  ∀ (c : Instr) (cs : List Instr) (s : State), step { s with pending := c :: cs } = exec c { s with pending := cs }

/-- With no command waiting, one core cycle passes within a pitch, but not past the cycle by which a self-test ends; before the core PLL has locked only time goes on (the
model's choice, log entry 1). -/
def Obligations.IdleStepPassesACycle : Prop :=
  ∀ s : State, s.pending = [] →
    (s.board.pllLock = false → ∃ t, step s = .next t ∧ t.cycle = s.cycle ∧ s.time < t.time ∧ t.regs = s.regs ∧ SameMem s t) ∧
    (s.board.pllLock = true → s.cycle + 1 < s.pitchLen → s.testsAllow (s.cycle + 1) = true →
      ∃ t, step s = .next t ∧ t.cycle = s.cycle + 1 ∧ t.cycles = s.cycles + 1 ∧ SameMem s t ∧ t.sites = s.sites) ∧
    (s.board.pllLock = true → s.cycle + 1 < s.pitchLen → s.testsAllow (s.cycle + 1) = false → step s = .next s)

/-! ### The sequencer (chapter 05) -/

/-- When the sequencer of site `p.site` may issue in cycle `p.t`, said of the state before the command alone (R33, R143, R145, R154): the
cycle is not past and lies in the pitch; the site's section is Running; the sequencer is issuing; no self-test is on the site; and
no instruction has issued in that cycle. -/
structure MayIssueAt (s : State) (p : At) : Prop where
  reached : s.reaches p.t.toNat = true
  running : s.running p.site.toNat = true
  issuing : s.rd F.SEQ_STATUS_STATE p.site.toNat = 1
  untested : (s.seq p.site.toNat).selfTest = false
  first : (s.seq p.site.toNat).lastIssue ≠ some (s.cycles + (p.t.toNat - s.cycle))

/-- The sequencer may issue in cycle `p.t`, and the program store holds instruction `i` at its PC (R144, R145, R147). -/
structure AtHead (s : State) (p : At) (i : SeqInstr) : Prop where
  may : MayIssueAt s p
  word : ∃ w fixed, s.fetch p.site.toNat = .word w fixed ∧ decodeSeq w = some i

/-- No loop ends at the head (R153). -/
def NoLoopEnds (s : State) (a : Nat) : Prop := ∀ f ∈ (s.seq a).frames, f.last ≠ (s.seq a).pc

/-- The instruction issues: the PC goes to `pc`, one issue is counted, and everything but the registers named and the
site's own state is as it was when the cycle was reached. -/
def IssuedTo (u t : State) (a pc : Nat) (R : RegName → Nat → Nat → Prop) : Prop :=
  (t.seq a).pc = pc ∧ t.ctr C.SEQ_CNT_ISSUE a = (u.ctr C.SEQ_CNT_ISSUE a + 1) % 2 ^ 48 ∧ Frame u t R ∧ OtherSites u t a

/-- The instruction issues, and the PC goes on by one. -/
def Issued (u t : State) (a : Nat) (R : RegName → Nat → Nat → Prop) : Prop := IssuedTo u t a ((u.seq a).pc + 1) R

/-- The command of each of the sequencer's instructions. -/
def seqCommand (p : At) : SeqInstr → Instr
  | .nop g => .nop p g
  | .endI g => .seqEnd p g
  | .br o => .br p o
  | .loop o => .loop p o
  | .lset o => .lset p o
  | .ladd o => .ladd p o
  | .pset o => .pset p o
  | .qtry o => .qtry p o
  | .sel o => .sel p o
  | .tpush o => .tpush p o
  | .sig o => .sig p o
  | .wait o => .wait p o
  | .arrive o => .arrive p o
  | .claim o => .claim p o
  | .strt o => .strt p o
  | .tmark o => .tmark p o
  | .mma o => .mma p o
  | .mmerge o => .mmerge p o
  | .msave o => .msave p o
  | .mfree o => .mfree p o
  | .vop o => .vop p o
  | .vrd o => .vrd p o
  | .vcvt o => .vcvt p o
  | .vred o => .vred p o
  | .vld o => .vld p o
  | .vst o => .vst p o
  | .vimm o => .vimm p o

/-- An instruction whose guard is false issues with no effect of its own, whatever it would wait for (R148). A QTRY with N
above 64 traps whatever its guard (R158). -/
def Obligations.FalseGuardIssuesWithoutEffect : Prop :=
  ∀ (s : State) (p : At) (i : SeqInstr) (g : Guard), AtHead s p i → i.guard? = some g →
    s.guardHolds p.site.toNat g = false → illegalHere p.site.toNat false i = false →
    NoLoopEnds s p.site.toNat →
    Done (seqCommand p i) s (fun t => Issued (s.at_ p.t.toNat) t p.site.toNat noReg)

/-- What stops an instruction at the head before its guard is judged (R144, R145, R147, R174): at or beyond PLEN the trap
PC_RANGE; an undefined opcode the trap ILLEGAL_OP; an uncorrectable word stops the site. SEQ_STATUS shows the state and the
trap's PC; memory and every register but SEQ_STATUS keep their values. -/
def FetchStops : Prop :=
  ∀ (s : State) (p : At) (i : SeqInstr), MayIssueAt s p →
    (s.fetch p.site.toNat = .range →
      Done (seqCommand p i) s (fun t => t.rd F.SEQ_STATUS_STATE p.site.toNat = 3 ∧ t.rd F.SEQ_STATUS_LAST_TRAP p.site.toNat = 2 ∧
        Frame (s.at_ p.t.toNat) t (oneReg .SEQ_STATUS p.site.toNat 0))) ∧
    (∀ w fixed, s.fetch p.site.toNat = .word w fixed → decodeSeq w = none →
      Done (seqCommand p i) s (fun t => t.rd F.SEQ_STATUS_STATE p.site.toNat = 3 ∧ t.rd F.SEQ_STATUS_LAST_TRAP p.site.toNat = 1 ∧
        Frame (s.at_ p.t.toNat) t (oneReg .SEQ_STATUS p.site.toNat 0))) ∧
    (s.fetch p.site.toNat = .bad →
      Done (seqCommand p i) s (fun t => t.rd F.SEQ_STATUS_STATE p.site.toNat = 4 ∧
        t.ctr C.CHK_CNT_UE p.site.toNat = ((s.at_ p.t.toNat).ctr C.CHK_CNT_UE p.site.toNat + 1) % 2 ^ 48 ∧
        Frame (s.at_ p.t.toNat) t (oneReg .SEQ_STATUS p.site.toNat 0)))

/-- NOP, LSET and LADD with a true guard complete (R147, R148, R149): exec answers the next state the rules give. -/
def ScalarInstructionsIssue : Prop :=
  ∀ (s : State) (p : At), NoLoopEnds s p.site.toNat →
    let a := p.site.toNat
    let u := s.at_ p.t.toNat
    (∀ g, AtHead s p (.nop g) → s.guardHolds a g = true → Done (.nop p g) s (fun t => Issued u t a noReg)) ∧
    (∀ o, AtHead s p (.lset o) → s.guardHolds a o.g = true →
      Done (.lset p o) s (fun t => t.lc a o.lc.toNat = o.imm.toNat ∧ Issued u t a (oneReg .SEQ_LC a (o.lc.toNat / 4)) ∧
        ∀ k, k < 16 → k ≠ o.lc.toNat → t.lc a k = u.lc a k)) ∧
    (∀ o, AtHead s p (.ladd o) → s.guardHolds a o.g = true →
      Done (.ladd p o) s (fun t => t.lc a o.lc.toNat = (u.lc a o.lc.toNat + o.imm.toNat) % 65536 ∧
        Issued u t a (oneReg .SEQ_LC a (o.lc.toNat / 4)) ∧ ∀ k, k < 16 → k ≠ o.lc.toNat → t.lc a k = u.lc a k))

/-- The last instruction of a loop body (R153): the innermost loop's counter rises by 1; below COUNT issue goes back to the
loop's start, otherwise its frame is popped and issue goes on. -/
def LoopBodyEnds : Prop :=
  ∀ (s : State) (p : At) (g : Guard) (f : LoopFrame) (fs : List LoopFrame),
    let a := p.site.toNat
    let u := s.at_ p.t.toNat
    AtHead s p (.nop g) → (s.seq a).frames = f :: fs → f.last = (s.seq a).pc → f.lc < 16 →
    let v := (u.lc a f.lc + 1) % 65536
    (v < f.count → Done (.nop p g) s (fun t => (t.seq a).frames = f :: fs ∧ t.lc a f.lc = v ∧
      IssuedTo u t a f.start (oneReg .SEQ_LC a (f.lc / 4)))) ∧
    (f.count ≤ v → (∀ k ∈ fs, k.last ≠ (s.seq a).pc) → Done (.nop p g) s (fun t => (t.seq a).frames = fs ∧
      t.lc a f.lc = v ∧ Issued u t a (oneReg .SEQ_LC a (f.lc / 4))))

/-- BR, LOOP and END with a true guard complete (R147, R151, R152): a branch pops POP frames and goes to TARGET; LOOP sets its counter
to 0 and pushes a frame, or with COUNT = 0 goes past the body; END ends issue. -/
def ControlInstructionsIssue : Prop :=
  ∀ (s : State) (p : At),
    let a := p.site.toNat
    let u := s.at_ p.t.toNat
    (∀ o, AtHead s p (.br o) → s.guardHolds a o.g = true → o.pop.toNat ≤ (s.seq a).frames.length →
      Done (.br p o) s (fun t => (t.seq a).frames = (s.seq a).frames.drop o.pop.toNat ∧ IssuedTo u t a o.target.toNat noReg)) ∧
    (∀ o, AtHead s p (.br o) → s.guardHolds a o.g = true → (s.seq a).frames.length < o.pop.toNat →
      Done (.br p o) s (fun t => t.rd F.SEQ_STATUS_STATE a = 3 ∧ t.rd F.SEQ_STATUS_LAST_TRAP a = 3 ∧ t.seq a = s.seq a ∧
        Frame u t (oneReg .SEQ_STATUS a 0))) ∧
    (∀ o, AtHead s p (.loop o) → s.guardHolds a o.g = true → NoLoopEnds s a → (s.seq a).pc < o.endA.toNat →
      (1 ≤ o.count.toNat → (s.seq a).frames.length < 8 →
        Done (.loop p o) s (fun t => t.lc a o.lc.toNat = 0 ∧
          (t.seq a).frames = ⟨(s.seq a).pc + 1, o.endA.toNat, o.count.toNat, o.lc.toNat⟩ :: (s.seq a).frames ∧
          Issued u t a (oneReg .SEQ_LC a (o.lc.toNat / 4)))) ∧
      (o.count = 0 → Done (.loop p o) s (fun t => t.lc a o.lc.toNat = 0 ∧ (t.seq a).frames = (s.seq a).frames ∧
        IssuedTo u t a (o.endA.toNat + 1) (oneReg .SEQ_LC a (o.lc.toNat / 4))))) ∧
    (∀ g, AtHead s p (.endI g) → s.guardHolds a g = true → NoLoopEnds s a →
      Done (.seqEnd p g) s (fun t => t.rd F.SEQ_STATUS_STATE a = 2 ∧ Frame u t (oneReg .SEQ_STATUS a 0) ∧ OtherSites u t a))

/-- Registers of a site's predicates and of one of its queues. -/
def predOrQueue (a q : Nat) : RegName → Nat → Nat → Prop := fun r b i => oneReg .SEQ_PRED a 0 r b i ∨ oneReg .QUE_STAT a q r b i

/-- A predicate after a write: P0 always reads 1 (R149). -/
def PredIs (t : State) (a : Nat) (pd : BitVec 3) (b : Bool) : Prop := t.pred a pd.toNat = (if pd = 0 then true else b)

/-- QTRY, SEL and TPUSH with a true guard complete (R158, R166, R169): a receive test pops nothing, a send test reserves N credits or
none; SEL writes the number of the queue it chooses; TPUSH pushes its token behind the others. -/
def QueueInstructionsIssue : Prop :=
  ∀ (s : State) (p : At),
    let a := p.site.toNat
    let u := s.at_ p.t.toNat
    NoLoopEnds s a →
    (∀ o, AtHead s p (.qtry o) → s.guardHolds a o.g = true → o.n.toNat ≤ 64 →
      (o.n = 0 → Done (.qtry p o) s (fun t => PredIs t a o.pd true ∧ Issued u t a (oneReg .SEQ_PRED a 0))) ∧
      (o.n ≠ 0 → o.dir = false → Done (.qtry p o) s (fun t =>
        PredIs t a o.pd (decide (o.n.toNat ≤ u.qReady a o.qn.toNat)) ∧ Issued u t a (oneReg .SEQ_PRED a 0))) ∧
      (o.n ≠ 0 → o.dir = true → o.n.toNat ≤ u.qUnres a o.qn.toNat → Done (.qtry p o) s (fun t => PredIs t a o.pd true ∧
        t.qResv a o.qn.toNat = u.qResv a o.qn.toNat + o.n.toNat ∧ Issued u t a (predOrQueue a o.qn.toNat))) ∧
      (o.n ≠ 0 → o.dir = true → u.qUnres a o.qn.toNat < o.n.toNat → Done (.qtry p o) s (fun t => PredIs t a o.pd false ∧
        Issued u t a (oneReg .SEQ_PRED a 0)))) ∧
    (∀ o, AtHead s p (.sel o) → s.guardHolds a o.g = true →
      (∀ q, selChoice a o u = some q → o.mode = false → Done (.sel p o) s (fun t => t.lc a o.lc.toNat = q ∧ PredIs t a o.pd true ∧
        Issued u t a (fun r b i => oneReg .SEQ_PRED a 0 r b i ∨ oneReg .SEQ_LC a (o.lc.toNat / 4) r b i))) ∧
      (∀ q, selChoice a o u = some q → o.mode = true → Done (.sel p o) s (fun t => t.lc a o.lc.toNat = q ∧ PredIs t a o.pd true ∧
        t.rd (F.SEQ_SELPTR_PTR.at 5 o.rp.toNat) a = (q + 1) % 32 ∧
        Issued u t a (fun r b i => oneReg .SEQ_PRED a 0 r b i ∨ oneReg .SEQ_LC a (o.lc.toNat / 4) r b i ∨
          oneReg .SEQ_SELPTR a 0 r b i))) ∧
      (selChoice a o u = none → o.y = true → Done (.sel p o) s (fun t => PredIs t a o.pd false ∧
        Issued u t a (oneReg .SEQ_PRED a 0)))) ∧
    (∀ o, AtHead s p (.tpush o) → s.guardHolds a o.g = true →
      (u.rd F.SEQ_STEER_MODE a o.unit.toNat = 1 ∨ u.rd F.SEQ_STEER_MODE a o.unit.toNat = 2) →
      u.rd F.SEQ_STEER_TSRC a o.unit.toNat = 0 → (u.steer a o.unit.toNat).toks.length < 8 →
      Done (.tpush p o) s (fun t => (t.steer a o.unit.toNat).toks =
        List.append (u.steer a o.unit.toNat).toks [(tpushToken a o u, false)] ∧ Issued u t a noReg))

/-- SIG with a true guard completes (R160, R211, R242): PATH = 1 places a record behind the data of the queue; PATH = 0 adds to a
counter of the own site in the next cycle, or goes to the signal table, where it joins what the target already has,
saturating (R218). -/
def SigIssues : Prop :=
  ∀ (s : State) (p : At) (o : SigOps),
    let a := p.site.toNat
    let u := s.at_ p.t.toNat
    NoLoopEnds s a → AtHead s p (.sig o) → s.guardHolds a o.g = true →
    (o.path = true → u.qUnres a o.qn.toNat ≠ 0 → Done (.sig p o) s (fun t =>
      (t.queue a o.qn.toNat).items =
        List.append (u.queue a o.qn.toNat).items [.sig (BitVec.ofNat 5 o.target.toNat) o.add] ∧
      Issued u t a (oneReg .QUE_STAT a o.qn.toNat))) ∧
    (o.path = false → o.target.toNat / 32 = a → Done (.sig p o) s (fun t =>
      aget t.sigNext o.target.toNat = some ((aget u.sigNext o.target.toNat).getD 0 + o.add.toNat) ∧ Issued u t a noReg)) ∧
    (o.path = false → o.target.toNat / 32 ≠ a → Done (.sig p o) s (fun t =>
      aget (t.sync a).table o.target.toNat =
        some (min ((aget (u.sync a).table o.target.toNat).getD 0 + o.add.toNat) 65535) ∧
      Issued u t a (oneReg .SEQ_SIG_STATUS a 0)))

/-- WAIT, ARRIVE and CLAIM with a true guard, when nothing holds them, complete (R160, R161, R162, R245): WAIT subtracts N; a waiting
ARRIVE takes 1 from its barrier's release counter; CLAIM writes the low 16 bits of the reply. -/
def WaitingInstructionsIssue : Prop :=
  ∀ (s : State) (p : At),
    let a := p.site.toNat
    let u := s.at_ p.t.toNat
    NoLoopEnds s a →
    (∀ o, AtHead s p (.wait o) → s.guardHolds a o.g = true → o.n.toNat ≤ u.sig a o.cnt.toNat →
      Done (.wait p o) s (fun t => t.sig a o.cnt.toNat = u.sig a o.cnt.toNat - o.n.toNat ∧
        Issued u t a (oneReg .SEQ_SIG a (o.cnt.toNat / 4)))) ∧
    (∀ o, AtHead s p (.arrive o) → s.guardHolds a o.g = true → o.w = true → (s.seq a).arrived = true →
      1 ≤ u.sig a (u.relOf o.bar.toNat) →
      Done (.arrive p o) s (fun t => t.sig a (u.relOf o.bar.toNat) = u.sig a (u.relOf o.bar.toNat) - 1 ∧
        (t.seq a).arrived = false ∧ Issued u t a (oneReg .SEQ_SIG a (u.relOf o.bar.toNat / 4)))) ∧
    (∀ o c v, AtHead s p (.claim o) → s.guardHolds a o.g = true → (s.seq a).claim = some c → c.reply = some v →
      c.poisoned = false →
      Done (.claim p o) s (fun t => t.lc a o.lc.toNat = v.toNat % 65536 ∧ (t.seq a).claim = none ∧
        Issued u t a (oneReg .SEQ_LC a (o.lc.toNat / 4))))

/-- An ARRIVE that reaches the head sets the barrier's flag and goes to its holder, offered at once when unfenced; a CLAIM
that reaches the head raises the request sequence and asks the control plane to send, and holds (R161, R162, R245, R254). -/
def HeadRequests : Prop :=
  ∀ (s : State) (p : At),
    let a := p.site.toNat
    let u := s.at_ p.t.toNat
    NoLoopEnds s a →
    (∀ o, AtHead s p (.arrive o) → s.guardHolds a o.g = true → o.w = false → (s.seq a).arrived = false →
      Done (.arrive p o) s (fun t => (t.word .SEQ_BARFLAG a 0).getLsbD o.bar.toNat = true ∧
        (o.u = true → (t.sync a).offered = List.append (s.sync a).offered [o.bar.toNat] ∧ (t.sync a).fenced = (s.sync a).fenced) ∧
        (o.u = false → (t.sync a).offered = (s.sync a).offered ∧
          (t.sync a).fenced = List.append (s.sync a).fenced [(o.bar.toNat, u.cycles, u.sentSoFar a)]) ∧
        Issued u t a (oneReg .SEQ_BARFLAG a 0))) ∧
    (∀ o, AtHead s p (.claim o) → s.guardHolds a o.g = true → (s.seq a).claim = none →
      let q := (u.rd F.SEQ_CLAIM_REQ_SEQ a + 1) % 65536
      Done (.claim p o) s (fun t => t.rd F.SEQ_CLAIM_REQ_SEQ a = q ∧ (t.sync a).claimOut = true ∧
        (t.seq a).claim = some ⟨o.tarn.toNat, o.ctr.toNat, o.inc.toNat, q, 0, none, false⟩ ∧
        (t.seq a).pc = (s.seq a).pc ∧ Frame u t (oneReg .SEQ_CLAIM a 0) ∧ OtherSites u t a))

/-- STRT with a true guard completes (R163, R183, R184, Table 06-1), after a completion of the same cycle: an idle program starts at
START with its argument; a running one takes a shadow; one that has a shadow refuses, which Y = 1 shows in the predicate. -/
def StrtIssues : Prop :=
  ∀ (s : State) (p : At) (o : StrtOps),
    let a := p.site.toNat
    let n := o.stream.toNat
    let v := (s.at_ p.t.toNat).strFinish a n
    let st := strFld a F.STR_STATE_STATE F.TRN_THR_STATE_STATE
    AtHead s p (.strt o) → s.guardHolds a o.g = true → (isTarn a = true ∨ n ≤ 3) → NoLoopEnds s a →
    (v.rd st a n = 0 → Done (.strt p o) s (fun t => t.rd st a n = 1 ∧
      t.rd (strFld a F.STR_STATE_ARG F.TRN_THR_STATE_ARG) a n = o.arg.toNat ∧
      (t.str a n).pc = v.rd (strFld a F.STR_DESC_START F.TRN_THR_START) a n ∧ (o.y = true → PredIs t a o.pd true) ∧
      (t.seq a).pc = (s.seq a).pc + 1 ∧ SameMem s t)) ∧
    (v.rd st a n = 1 → Done (.strt p o) s (fun t => t.rd st a n = 2 ∧
      t.rd (strFld a F.STR_STATE_SHADOW F.TRN_THR_STATE_SHADOW) a n = o.arg.toNat ∧ (o.y = true → PredIs t a o.pd true) ∧
      (t.seq a).pc = (s.seq a).pc + 1 ∧ SameMem s t)) ∧
    (2 ≤ v.rd st a n → o.y = true → Done (.strt p o) s (fun t => t.rd st a n = v.rd st a n ∧ PredIs t a o.pd false ∧
      (t.seq a).pc = (s.seq a).pc + 1 ∧ SameMem s t))

/-- An instruction that must wait stays at the head (R154): the PC, memory and every register keep their values. -/
def BlockedInstructionsHold : Prop :=
  ∀ (s : State) (p : At) (k id : Nat),
    let a := p.site.toNat
    let u := s.at_ p.t.toNat
    (∀ o, AtHead s p (.wait o) → s.guardHolds a o.g = true → seqCheck (.wait o) u a = .hold k id →
      Done (.wait p o) s (fun t => (t.seq a).pc = (s.seq a).pc ∧ Frame u t noReg)) ∧
    (∀ o, AtHead s p (.sel o) → s.guardHolds a o.g = true → seqCheck (.sel o) u a = .hold k id →
      Done (.sel p o) s (fun t => (t.seq a).pc = (s.seq a).pc ∧ Frame u t noReg)) ∧
    (∀ o, AtHead s p (.sig o) → s.guardHolds a o.g = true → seqCheck (.sig o) u a = .hold k id →
      Done (.sig p o) s (fun t => (t.seq a).pc = (s.seq a).pc ∧ Frame u t noReg)) ∧
    (∀ o, AtHead s p (.tpush o) → s.guardHolds a o.g = true → seqCheck (.tpush o) u a = .hold k id →
      Done (.tpush p o) s (fun t => (t.seq a).pc = (s.seq a).pc ∧ Frame u t noReg))

/-! ### The matrix engine (chapter 03) -/

/-- Registers a matrix instruction may change at issue: MTX_STATUS, its descriptors, and the log of decode events. -/
def mtxRegs (a : Nat) (l : List Nat) : RegName → Nat → Nat → Prop := fun r b i =>
  oneReg .MTX_STATUS a 0 r b i ∨ oneReg .CHK_ECC_LOG a 0 r b i ∨ (∃ n ∈ l, oneReg .MTX_OPD a n r b i ∨ oneReg .MTX_OPS a n r b i)

/-- A descriptor that an instruction names advances by its ADV and SADV (R80). -/
def Advanced (v t : State) (a n : Nat) : Prop :=
  t.rd F.MTX_OPD_BASE a n = (v.rd F.MTX_OPD_BASE a n + v.rd F.MTX_OPD_ADV a n) % 2 ^ 17 ∧
  t.rd F.MTX_OPS_SBASE a n = (v.rd F.MTX_OPS_SBASE a n + v.rd F.MTX_OPS_SADV a n) % 2 ^ F.MTX_OPS_SBASE.width

/-- An MMA or MMERGE that no trap of R108 and no hold of R91 and R154 meets completes (R76, R80, R83, R85, R91): its contribution, formed from the operands and
descriptors of this cycle, goes into a pending buffer behind the earlier instructions; its slot is Open, or Closed with LAST;
PROJ shows its projected release; the descriptors it names advance. A block-masked MMA forms no terms (R99). -/
def TileInstructionsIssue : Prop :=
  ∀ (s : State) (p : At),
    let a := p.site.toNat
    NoLoopEnds s a →
    (∀ o, AtHead s p (.mma o) → isTarn a = false →
      let v := mtxPre (.mma o) a (s.at_ p.t.toNat)
      mtxCheck (.mma o) v a = .go →
      Done (.mma p o) s (fun t =>
        (∃ x, (t.mtx a).tiles = List.append (v.mtx a).tiles [x] ∧ x.slot = o.slot.toNat ∧ x.rel = (mmaProjection v a o).1 ∧
          (v.maskSkips a o = true → x.kind = .skip) ∧
          (v.maskSkips a o = false → x.kind = .mma ∧ x.count = o.K ∧ x.delta = x.exact ∧
            x.exact = v.mmaDelta a o (mmaPlan v a o) (v.rowMask a o.rmask.toNat))) ∧
        ((t.mtx a).slotAt o.slot.toNat).map SlotI.closed = some o.last ∧
        t.rd F.MTX_STATUS_PROJ a = (mmaProjection v a o).1 % 2 ^ 16 ∧
        (∀ n ∈ namedOpds (.mma o), Advanced v t a n) ∧ Issued (s.at_ p.t.toNat) t a (mtxRegs a (namedOpds (.mma o))))) ∧
    (∀ o, AtHead s p (.mmerge o) → isTarn a = false →
      let v := mtxPre (.mmerge o) a (s.at_ p.t.toNat)
      mtxCheck (.mmerge o) v a = .go →
      Done (.mmerge p o) s (fun t =>
        (∃ x, (t.mtx a).tiles = List.append (v.mtx a).tiles [x] ∧ x.kind = .mmerge ∧ x.slot = o.slot.toNat ∧
          x.count = (v.imageHeader a (imageBase v a o.opd.toNat)).2.2 ∧ x.delta = x.exact ∧
          x.exact = v.imageWords a (imageBase v a o.opd.toNat) (modeNat o.mode.toNat)) ∧
        ((t.mtx a).slotAt o.slot.toNat).map SlotI.closed = some o.last ∧ Advanced v t a o.opd.toNat ∧
        Issued (s.at_ p.t.toNat) t a (mtxRegs a [o.opd.toNat])))

/-- An MSAVE or MFREE that no trap of R108 and no hold of R91 and R154 meets completes (R80, R85, R86): MSAVE joins the order of the engine and advances its
descriptor; MFREE frees its slot for issue at once, while its units wait for their physical free. -/
def SaveAndFreeIssue : Prop :=
  ∀ (s : State) (p : At),
    let a := p.site.toNat
    NoLoopEnds s a →
    (∀ o, AtHead s p (.msave o) → isTarn a = false →
      let v := mtxPre (.msave o) a (s.at_ p.t.toNat)
      mtxCheck (.msave o) v a = .go →
      Done (.msave p o) s (fun t =>
        (∃ x, (t.mtx a).tiles = List.append (v.mtx a).tiles [x] ∧ x.kind = .msave ∧ x.slot = o.slot.toNat ∧
          x.rel = projectSave (v.mtx a) v.cycle (imageRun (saveMode v a o.slot.toNat))) ∧
        (t.mtx a).slots = (v.mtx a).slots ∧ Advanced v t a o.opd.toNat ∧
        Issued (s.at_ p.t.toNat) t a (mtxRegs a [o.opd.toNat]))) ∧
    (∀ o y, AtHead s p (.mfree o) → isTarn a = false →
      let v := mtxPre (.mfree o) a (s.at_ p.t.toNat)
      mtxCheck (.mfree o) v a = .go → (v.mtx a).slotAt o.slot.toNat = some y →
      Done (.mfree p o) s (fun t =>
        (∃ x, (t.mtx a).tiles = List.append (v.mtx a).tiles [x] ∧ x.kind = .mfree ∧ x.slot = o.slot.toNat) ∧
        (t.mtx a).slotAt o.slot.toNat = none ∧ (t.mtx a).phys = (v.mtx a).phys ∧
        (∀ u ∈ spanOf o.slot.toNat y.mode, u ∈ (t.mtx a).frees.map Prod.fst) ∧
        Issued (s.at_ p.t.toNat) t a (oneReg .MTX_STATUS a 0)))

/-- The verdict on the first run of a tile (R102, R104 to R107): a run whose checksums and tags agree is agreed, and its contribution
stands; a disagreement, the first of the pitch and with no poisoned input, is counted and sends the tile to its one re-execution.
The site's section runs, or a referee's run is on it. -/
def TileVerdictJudges : Prop :=
  ∀ (s : State) (p : At) (u : Upset) (i : Nat) (x : Tile),
    let a := p.site.toNat
    let v := s.at_ p.t.toNat
    s.engineOn a = true → s.reaches p.t.toNat = true → (s.mtx a).tiles.findIdx? (verdictDue v.cycle) = some i → (s.mtx a).tiles[i]? = some x →
    x.stage = .running →
    (x.judgeDelta (applyCells x.rowMask u x.exact) u = none → Done (.tileVerdict p u) s (fun t =>
      ((t.mtx a).tiles[i]?).map (fun y => (y.stage, y.delta)) = some (.agreed, applyCells x.rowMask u x.exact) ∧ SameMem s t)) ∧
    (∀ d, x.judgeDelta (applyCells x.rowMask u x.exact) u = some d →
      tilePoison (s.mtx a) x = false → v.mtxSpent a = false →
      Done (.tileVerdict p u) s (fun t => ((t.mtx a).tiles[i]?).map Tile.stage = some .rerun ∧
        t.rd F.MTX_STATUS_REEXEC_SPENT a = 1 ∧
        t.ctr C.CHK_CNT_DISAGREE a = (v.ctr C.CHK_CNT_DISAGREE a + 1) % 2 ^ 48 ∧ SameMem s t))

/-- The Cairn's judgement of a run (R100 to R104): what an MMA forms of its operands as they read, in every format, mode and mask,
agrees with the checksums formed of the same operands, the remainders of every rounding, clamp and special word taken in; one
word of an unmasked row changed, with its tag as it was and another value in the Cairn's field, is SINGLE, with its row and column. -/
def Obligations.CairnJudgesRuns : Prop :=
  ∀ (s : State) (a : Nat) (o : MmaOps) (x : Tile),
    let r := s.mmaRun a o (mmaPlan s a o) x.rowMask
    x.kind = .mma → x.mode = modeNat o.mode.toNat → x.anchor = anchorFor x.mode o.anchor.toNat → x.chk = r.2 →
    x.judgeDelta (applyCells x.rowMask Upset.none r.1) Upset.none = none ∧
    (∀ (i j : BitVec 6) (w : BitVec 128), let u : Upset := ⟨[(i, j, w)], [], [], false⟩
      let old := r.1.getD (64 * i.toNat + j.toNat) 0
      x.rowMask.getLsbD i.toNat = true → wordTag x.mode w = wordTag x.mode old →
      phiWord x.mode x.anchor w % cairnP ≠ phiWord x.mode x.anchor old % cairnP →
      (x.judgeDelta (applyCells x.rowMask u r.1) u).map (fun d => (d.kind, d.row, d.col)) = some (1, i.toNat, j.toNat))

/-- A disputed tile runs again from the same operands once the array is free (R106). The
site's section runs, or a referee's run is on it. -/
def TileRunsAgain : Prop :=
  ∀ (s : State) (p : At) (u : Upset) (i : Nat) (x : Tile),
    let a := p.site.toNat
    let v := s.at_ p.t.toNat
    s.engineOn a = true → s.reaches p.t.toNat = true →
    (s.mtx a).tiles.findIdx? (fun x => x.stage == .rerun && decide (x.lastK + 1 - x.run ≤ v.cycle)) = some i →
    (s.mtx a).tiles[i]? = some x →
    Done (.tileReexecution p u) s (fun t =>
      ((t.mtx a).tiles[i]?).map (fun y => (y.stage, y.delta, y.chk)) =
        some (.reran, applyCells x.rowMask u (v.tileAgain a x), (v.runAgain a x).2) ∧
      Frame v t noReg ∧ OtherSites v t a)

/-- Registers that a read of a slot may change: the tags met, and the log of decode events (R63, R342). -/
def slotRegs (a : Nat) : RegName → Nat → Nat → Prop := fun r b i => oneReg .MOR_STATUS a 0 r b i ∨ oneReg .CHK_ECC_LOG a 0 r b i

/-- The oldest tile, agreed, is committed after the release before it and the physical free of its span: each unmasked word
of its slot takes the contribution by the rule of its mode (R71, R77, R87), and the Cairn takes what the addition does not place
(R102). A commit that passes its check is released: the new words become visible and the tile leaves the engine (R105). The
site's section runs, or a referee's run is on it. -/
def TilesCommitAndRelease : Prop :=
  ∀ (s : State) (p : At) (x : Tile) (l : List Tile),
    let a := p.site.toNat
    let v := (s.at_ p.t.toNat).mtxSettle a
    s.engineOn a = true → s.reaches p.t.toNat = true →
    ((v.mtx a).tiles = x :: l → x.kind.pends = true → x.stage = .agreed →
      max (max (x.lastK + 48) (v.mtx a).relAct) x.freeAt < v.cycle →
      (v.mtx a).spanWaits x = false →
      Done (.tileCommit p Upset.none) s (fun t => ∃ y, (t.mtx a).tiles = y :: l ∧ y.stage = .committed ∧
        y.new = x.commitWords x.delta (wordsBefore (v.mtx a) x) ∧
        y.chk.rhoC = commitRho x.mode x.anchor (wordsBefore (v.mtx a) x) x.delta y.new ∧
        (x.first = true ∨ ((v.mtx a).physAt x.slot).all (fun z => z.synd.isEmpty) = true → (t.mtx a).phys = (v.mtx a).phys) ∧
        Frame v t (slotRegs a))) ∧
    ((s.mtx a).tiles = x :: l → x.kind = .mma → x.stage = .committed → x.rel ≤ (s.at_ p.t.toNat).cycle →
      x.judgeCommit = none →
      Done (.tileRelease p Upset.none) s (fun t => (t.mtx a).tiles = l ∧
        ((t.mtx a).physAt x.slot).map SlotP.words = some x.new ∧
        t.ctr C.MTX_CNT_TILES a = ((s.at_ p.t.toNat).ctr C.MTX_CNT_TILES a + 1) % 2 ^ 48 ∧
        Frame (s.at_ p.t.toNat) t noReg))

/-- The oldest instruction leaves the engine (R63, R82, R86, R87, R99): MSAVE writes the image of its slot, as decodes deliver its words, to the scratchpad
and nowhere else; a skipped MMA with FIRST leaves zero words; a span whose cycle has come becomes physically Free. The
site's section runs, or a referee's run is on it. -/
def SavesSkipsAndFrees : Prop :=
  ∀ (s : State) (p : At) (x : Tile) (l : List Tile),
    let a := p.site.toNat
    let v := (s.at_ p.t.toNat).mtxSettle a
    s.engineOn a = true → s.reaches p.t.toNat = true →
    (∀ y, (v.mtx a).tiles = x :: l → x.kind = .msave → max (x.lastK + 16) ((v.mtx a).relAct + 1) + x.run - 1 ≤ v.cycle →
      (v.mtx a).physAt x.slot = some y → mcanon 0 s.mem = true →
      Done (.msaveSlotRead p) s (fun t => (t.mtx a).tiles = l ∧
        (let bs := imageBytes y.mode y.anchor y.count ((y.span 0 4096).map (fun w => readWord y.mode w.1))
         let at0 := padAddr a (64 * opdBase x.descA)
         (∀ i (h : i < bs.length), t.byte (at0 + i) = bs[i]) ∧
         (∀ z, z < at0 ∨ at0 + bs.length ≤ z → t.byte z = s.byte z)) ∧ SameRegs v t (slotRegs a))) ∧
    ((v.mtx a).tiles = x :: l → x.kind = .skip → max (max x.lastK (v.mtx a).relAct) x.freeAt + 1 ≤ v.cycle →
      x.first = true → (v.mtx a).spanWaits x = false →
      Done (.skippedMmaRelease p) s (fun t => (t.mtx a).tiles = l ∧
        ((t.mtx a).physAt x.slot).map SlotP.words = some zeroWords ∧ Frame v t noReg)) ∧
    (∀ f ∈ (v.mtx a).frees, f.2 ≤ v.cycle →
      (v.mtx a).mfreeIn f.1 = false →
      Done (.physicalFree p) s (fun t => f.1 ∉ (t.mtx a).frees.map Prod.fst ∧ (t.mtx a).physAt f.1 = none ∧ Frame v t noReg))

/-! ### The vector engine (chapter 04) and the steering units (chapter 05) -/

/-- Command `c` of a vector instruction `i` at the head that no condition holds: exec answers the next state in which it has joined the
engine's queue with its projected start, PROJ shows its projected release, and the positions for what it pushes are allocated; only
the status, the descriptors, the coordinates and the destination queue's register may change. -/
def VectorIssues (s : State) (p : At) (i : SeqInstr) (c : Instr) : Prop :=
    let a := p.site.toNat
    let u := s.at_ p.t.toNat
    AtHead s p i → vecCheck i u a = .go →
    Done c s (fun t =>
      (∃ x, (t.vec a).queue = List.append (u.vec a).queue [x] ∧ x.instr = i ∧ x.n = vecRows i ∧ x.next = 0 ∧
        x.start = projectStart u a i) ∧
      t.rd F.VEC_STATUS_PROJ a = projectEnd i (projectStart u a i) % 2 ^ 16 ∧
      (∀ q k, vecPush u a i = some (q, k) → (t.queue a q).items = List.append (u.queue a q).items (List.replicate k .hole)) ∧
      (∀ n ∈ vecNamed i, vIsQueue (u.vopd a n) = false →
        t.rd F.VEC_OPD_LINE a n = (vLine (u.vopd a n) + vAdv (u.vopd a n)) % 2 ^ F.VEC_OPD_LINE.width) ∧
      Issued u t a (fun r b k => oneReg .VEC_STATUS a 0 r b k ∨ (∃ n ∈ vecNamed i, oneReg .VEC_OPD a n r b k) ∨
        oneReg .VEC_SR_COORD01 a 0 r b k ∨ (∃ q n, vecPush u a i = some (q, n) ∧ oneReg .QUE_STAT a q r b k)))

/-- VOP, VRD, VCVT, VRED, VLD, VST and VIMM that no condition of R116, R122 and R154 holds complete (R115 to R117, R122, R131). -/
def VectorInstructionsIssue : Prop :=
  ∀ (s : State) (p : At), NoLoopEnds s p.site.toNat → isTarn p.site.toNat = false →
    (∀ o, VectorIssues s p (.vop o) (.vop p o)) ∧ (∀ o, VectorIssues s p (.vrd o) (.vrd p o)) ∧
    (∀ o, VectorIssues s p (.vcvt o) (.vcvt p o)) ∧ (∀ o, VectorIssues s p (.vred o) (.vred p o)) ∧
    (∀ o, VectorIssues s p (.vld o) (.vld p o)) ∧ (∀ o, VectorIssues s p (.vst o) (.vst p o)) ∧
    (∀ o, VectorIssues s p (.vimm o) (.vimm p o))

/-- The oldest vector instruction's next row enters stage 1 (R120, R121): its operands are read and latched now, the cycle is
counted busy, and the instruction leaves the queue with its last row. The
site's section runs, or a referee's run is on it. -/
def VectorRowsEnter : Prop :=
  ∀ (s : State) (p : At) (x : VInst) (l : List VInst),
    let a := p.site.toNat
    let v := s.at_ p.t.toNat
    s.engineOn a = true → s.reaches p.t.toNat = true → (s.vec a).queue = x :: l → v.vecHeld a = false → v.rowMayEnter a x = true →
    Done (.vectorRowEntry p) s (fun t => (t.vec a).pipe = List.append (s.vec a).pipe [(v.vecRow a x).1] ∧
      (x.n ≤ x.next + 1 → (t.vec a).queue.length = l.length) ∧
      (x.next + 1 < x.n → ((t.vec a).queue.head?).map VInst.next = some (x.next + 1)) ∧
      t.ctr C.VEC_CNT_BUSY a = (v.ctr C.VEC_CNT_BUSY a + 1) % 2 ^ 48 ∧ ((∀ x ∈ (s.vec a).cache, x.2.synd = 0) → (t.vec a).cache = (s.vec a).cache) ∧ SameMem s t)

/-- The oldest row at the gating stage (R127, R133, R135 to R138): a row that passes is written or stored, its flags join
VEC_FLAGS and it is counted; the first row of the pitch with a lane whose check fails, with no poisoned operand, is replayed, and
nothing is written. An error the checks do not find is written (R137). The
site's section runs, or a referee's run is on it. -/
def Obligations.VectorRowsPassTheGate : Prop :=
  ∀ (s : State) (p : At) (m : List LaneUpset) (y : VRow) (l : List VRow),
    let a := p.site.toNat
    let v := s.at_ p.t.toNat
    s.engineOn a = true → s.reaches p.t.toNat = true → (s.vec a).pipe = y :: l → v.vecHeld a = false → y.entered + 5 ≤ v.cycle →
    let es := if rowChecked y.instr.instr then y.met m else y.elems
    ((rowChecked y.instr.instr && m.any y.laneFails) = false →
      Done (.vectorRowGating p m) s (fun t => (t.vec a).pipe = l ∧
        t.word .VEC_FLAGS a 0 = v.word .VEC_FLAGS a 0 ||| BitVec.ofNat 64 (y.flags % 512) ∧
        t.ctr C.VEC_CNT_ROWS a = (v.ctr C.VEC_CNT_ROWS a + 1) % 2 ^ 48 ∧ SameRegs v t (oneReg .VEC_FLAGS a 0) ∧
        (∀ o, y.instr.instr = .vop o → vIsQueue y.instr.dst = false → y.scales = [] →
          (t.vec a).line (vRowLine y.instr.dst y.row) = writeLine (vFmt y.instr.dst) (v.laneMask a o.lmask.toNat)
            ((s.vec a).line (vRowLine y.instr.dst y.row)) es ∧ SameMem s t) ∧
        (∀ o, y.instr.instr = .vst o → y.elems.length = fmtWidth (vFmt y.instr.s1) → mcanon 0 s.mem = true →
          (let x := padAddr a (64 * (o.sbase.toNat + y.row * o.spitch.toNat))
           (∀ k (h : k < y.elems.length), t.word64 (x + 8 * k) = BitVec.ofNat 64 y.elems[k].1) ∧
           (∀ z, z < x ∨ x + 8 * y.elems.length ≤ z → t.byte z = s.byte z))))) ∧
    (m.any y.laneFails = true → rowChecked y.instr.instr = true → y.poisonIn = false → y.replay = false →
      v.rd F.VEC_STATUS_REPLAY_SPENT a = 0 →
      Done (.vectorRowGating p m) s (fun t => t.rd F.VEC_STATUS_REPLAY_SPENT a = 1 ∧
        ((t.vec a).pipe.head?).map VRow.replay = some true ∧ (t.vec a).pipe.length = l.length + 1 ∧
        (t.vec a).cache = (s.vec a).cache ∧ Frame v t (oneReg .VEC_STATUS a 0)))

/-- A steering unit of mode `md` may act in cycle `p.t` (R169). -/
def SteerReady (s : State) (p : At) (n : BitVec 3) (md : Nat) : Prop :=
  s.reaches p.t.toNat = true ∧ (s.at_ p.t.toNat).running p.site.toNat = true ∧
  (s.at_ p.t.toNat).rd F.SEQ_STEER_MODE p.site.toNat n.toNat = md ∧ (md = 1 ∨ md = 2) ∧
  (s.steer p.site.toNat n.toNat).stopped = false

/-- What a steering unit takes in (R169 to R171, R347): a token from its token queue, unless it is poisoned, which stops the
unit; an entry of IN0 of a STEER unit; the entry that a MERGE unit's token names; entries as decodes deliver them (R342). -/
def SteeringUnitsTakeIn : Prop :=
  ∀ (s : State) (p : At) (n : BitVec 3),
    let a := p.site.toNat
    let u := s.at_ p.t.toNat
    let w := u.word .SEQ_STEER a n.toNat
    (∀ md e l, SteerReady s p n md → fieldGet F.SEQ_STEER_TSRC w = 1 → (s.steer a n.toNat).toks.length < 8 →
      (s.steer a n.toNat).tokAt ≠ some u.cycles → u.qHeads a (fieldGet F.SEQ_STEER_TQ w) = e :: l →
      (e.decode.poison.getLsbD 0 = false → Done (.queueTokenIntake p n) s (fun t =>
        (t.steer a n.toNat).toks = List.append (s.steer a n.toNat).toks [(BitVec.ofNat 16 e.decode.bits.toNat, false)] ∧
        (t.queue a (fieldGet F.SEQ_STEER_TQ w)).items = (s.queue a (fieldGet F.SEQ_STEER_TQ w)).items.drop 1 ∧
        Frame u t (oneReg .CHK_ECC_LOG a 0))) ∧
      (e.decode.poison.getLsbD 0 = true → Done (.queueTokenIntake p n) s (fun t =>
        (t.steer a n.toNat).stopped = true ∧ (t.steer a n.toNat).toks = (s.steer a n.toNat).toks))) ∧
    (∀ e l, SteerReady s p n 1 → (s.steer a n.toNat).data.length < 16 → (s.steer a n.toNat).inAt ≠ some u.cycles →
      u.qHeads a (steerIn w 0) = e :: l → Done (.steerDataIntake p n) s (fun t =>
        (t.steer a n.toNat).data = List.append (s.steer a n.toNat).data [e.decode] ∧
        (t.queue a (steerIn w 0)).items = (s.queue a (steerIn w 0)).items.drop 1 ∧ Frame u t (oneReg .CHK_ECC_LOG a 0))) ∧
    (∀ e l k mk, SteerReady s p n 2 → (s.steer a n.toNat).toks[(s.steer a n.toNat).ipos]? = some (k, mk) →
      (s.steer a n.toNat).data.length < 16 → (s.steer a n.toNat).inAt ≠ some u.cycles →
      fieldGet F.SEQ_STEER_IEN w / 2 ^ tokSel k % 2 = 1 → u.qHeads a (steerIn w (tokSel k)) = e :: l →
      Done (.mergeIntake p n) s (fun t => (t.steer a n.toNat).data = List.append (s.steer a n.toNat).data [e.decode] ∧
        (t.queue a (steerIn w (tokSel k))).items = (s.queue a (steerIn w (tokSel k))).items.drop 1 ∧ Frame u t (oneReg .CHK_ECC_LOG a 0)))

/-- What a steering unit moves on (R170, R171): the head entry goes to the output its token selects, or in a MERGE unit to the
one output; the move is counted, and the token leaves with its last entry. The queue's arbiter grants the unit (R173). -/
def SteeringUnitsFire : Prop :=
  ∀ (s : State) (p : At) (n : BitVec 3) (k : BitVec 16) (ts : List (BitVec 16 × Bool)) (e : Entry) (es : List Entry) (q : Nat),
    let a := p.site.toNat
    let u := s.at_ p.t.toNat
    let w := u.word .SEQ_STEER a n.toNat
    let x := s.steer a n.toNat
    let moved := fun (t : State) => (t.steer a n.toNat).data = es ∧
      (t.queue a q).items = List.append (s.queue a q).items [.entry e u.cycles] ∧
      ((if x.left = 0 then tokCount k else x.left) = 1 → (t.steer a n.toNat).toks = ts) ∧
      ((if x.left = 0 then tokCount k else x.left) ≠ 1 → (t.steer a n.toNat).toks = x.toks) ∧
      t.ctr C.SEQ_CNT_STEER a = (u.ctr C.SEQ_CNT_STEER a + 1) % 2 ^ 48 ∧ Frame u t (oneReg .QUE_STAT a q)
    x.toks = (k, false) :: ts → x.data = e :: es → x.fireAt ≠ some u.cycles → u.steerGrant a q = some n.toNat →
    (SteerReady s p n 1 → fieldGet F.SEQ_STEER_OEN w / 2 ^ tokSel k % 2 = 1 → q = steerOut w (tokSel k) →
      Done (.steerFire p n) s moved) ∧
    (SteerReady s p n 2 → q = steerOut w 0 → Done (.mergeFire p n) s moved)

/-! ### Stream programs (chapter 06) -/

/-- In cycle `p.t` program `p.prog` of site `p.site` may issue, a Tarn's arbiter chooses it, instruction `i` is at its head, and
nothing traps or holds it (R185, R186, R193, R196). -/
def AgAtHead (s : State) (p : PAt) (i : AgInstr) : Prop :=
  let a := p.site.toNat
  let n := p.prog.toNat
  let u := s.at_ p.t.toNat
  s.reaches p.t.toNat = true ∧ u.agAlive a n = true ∧ u.agBad a n = false ∧ u.agHead a n = some i ∧ agCheck i u a n = .go ∧
  (isTarn a = true → u.agChosen a n = true)

/-- No loop of the program ends at its head (R187). -/
def NoAgLoopEnds (s : State) (a n : Nat) : Prop := ∀ f ∈ (s.str a n).frames, f.last ≠ (s.str a n).pc

/-- The program's next address is `pc`; memory, every register but those named and every other site are unchanged. -/
def AgIssued (u t : State) (a n pc : Nat) (R : RegName → Nat → Nat → Prop) : Prop :=
  (t.str a n).pc = pc ∧ Frame u t R ∧ OtherSites u t a ∧ ∀ m, m ≠ n → t.str a m = u.str a m

/-- An address register of a program. -/
def aregOf (a n k : Nat) : RegName → Nat → Nat → Prop := oneReg (strFld a F.STR_AREG_ADDR F.TRN_AREG_ADDR).reg a (8 * n + k)

/-- ASET, AADD and AARG write one address register modulo 2^48; AADD's immediate is signed, and AARG adds the program's
argument shifted left (R186). -/
def AddressInstructionsIssue : Prop :=
  ∀ (s : State) (p : PAt) (ad src : BitVec 3),
    let a := p.site.toNat
    let n := p.prog.toNat
    let u := s.at_ p.t.toNat
    let wrote := fun (v : Nat) (t : State) => t.areg a n ad.toNat = v % 2 ^ 48 ∧ (t.str a n).frames = (s.str a n).frames ∧
      AgIssued u t a n ((s.str a n).pc + 1) (aregOf a n ad.toNat)
    NoAgLoopEnds s a n →
    (∀ imm, AgAtHead s p (.aset ad imm) → Done (.aset p ad imm) s (wrote imm.toNat)) ∧
    (∀ imm, AgAtHead s p (.aadd ad src imm) →
      Done (.aadd p ad src imm) s (wrote (u.areg a n src.toNat + (imm.signExtend 48).toNat))) ∧
    (∀ sh, AgAtHead s p (.aarg ad src sh) → Done (.aarg p ad src sh) s
      (wrote (u.areg a n src.toNat + u.rd (strFld a F.STR_STATE_ARG F.TRN_THR_STATE_ARG) a n * 2 ^ sh.toNat)))

/-- ALOOP pushes a frame, or goes past its body when COUNT is 0; the last instruction of a body goes back to its start until
COUNT passes are done; END stops issue; FENCE and a local SIGNAL wait for the earlier COPYs, and the SIGNAL then adds to a
counter of the site, a remote one to a counter behind the program's data (R183, R186, R187, R191). -/
def StreamControlIssues : Prop :=
  ∀ (s : State) (p : PAt),
    let a := p.site.toNat
    let n := p.prog.toNat
    let u := s.at_ p.t.toNat
    let x := s.str a n
    (∀ e c, AgAtHead s p (.aloop e c) → NoAgLoopEnds s a n →
      (c ≠ 0 → Done (.aloop p e c) s (fun t => (t.str a n).frames = ⟨x.pc + 1, e.toNat, c.toNat, 0⟩ :: x.frames ∧
        AgIssued u t a n (x.pc + 1) noReg)) ∧
      (c = 0 → Done (.aloop p e c) s (fun t => (t.str a n).frames = x.frames ∧ AgIssued u t a n (e.toNat + 1) noReg))) ∧
    (∀ f fs, AgAtHead s p .fence → x.frames = f :: fs → f.last = x.pc →
      (f.cur + 1 < f.count → Done (.fence p) s (fun t => (t.str a n).frames = { f with cur := f.cur + 1 } :: fs ∧
        AgIssued u t a n f.start noReg)) ∧
      (f.count ≤ f.cur + 1 → (∀ g ∈ fs, g.last ≠ x.pc) → Done (.fence p) s (fun t => (t.str a n).frames = fs ∧
        AgIssued u t a n (x.pc + 1) noReg))) ∧
    (NoAgLoopEnds s a n →
      (AgAtHead s p .fence → Done (.fence p) s (fun t => x.copies = [] ∧ (t.str a n).copies = [] ∧ AgIssued u t a n (x.pc + 1) noReg)) ∧
      (∀ cnt add, AgAtHead s p (.signal false cnt add) → Done (.signal p false cnt add) s (fun t =>
        x.copies = [] ∧ aget t.sigAdds (32 * a + cnt.toNat) = some ((aget u.sigAdds (32 * a + cnt.toNat)).getD 0 + add.toNat) ∧
        AgIssued u t a n (x.pc + 1) noReg)) ∧
      (∀ cnt add, AgAtHead s p (.signal true cnt add) → Done (.signal p true cnt add) s (fun t =>
        x.copies = [] ∧ (∃ f, t.flight = List.append u.flight [f] ∧ f.src = 32 * a + u.dscQn a n ∧
          f.dst = u.rd F.QUE_CFG_PEER a (u.dscQn a n) ∧ f.item = .sig cnt add) ∧
        AgIssued u t a n (x.pc + 1) noReg)) ∧
      (AgAtHead s p .endA → Done (.streamProgramEnd p) s (fun t => (t.str a n).ended = true ∧
        AgIssued u t a n (x.pc + 1) noReg)))

/-- Registers that a COPY may change: its address registers, and with C = 1 the credit it takes. -/
def copyRegs (o : CopyOps) (u : State) (a n : Nat) : RegName → Nat → Nat → Prop := fun r b i =>
  (o.is = true ∧ aregOf a n o.src.toNat r b i) ∨ (o.id = true ∧ aregOf a n o.dst.toNat r b i) ∨
  (o.c = true ∧ u.dscCsrc a n = 3 ∧ oneReg .SEQ_SIG a (u.dscCidx a n / 4) r b i) ∨
  (o.c = true ∧ u.dscCsrc a n ≠ 3 ∧ oneReg (strFld a F.STR_STATE_CREDITS F.TRN_THR_STATE_CREDITS).reg a n r b i)

/-- A COPY that nothing traps or holds (R186, R188, R190): its transfer of (LENM1 + 1) × 64 bytes begins, from and to the
addresses its registers hold; each register that IS or ID names advances by the length; with C = 1 one credit is taken. -/
def CopyIssues : Prop :=
  ∀ (s : State) (p : PAt) (o : CopyOps),
    let a := p.site.toNat
    let n := p.prog.toNat
    let u := s.at_ p.t.toNat
    let len := 64 * (o.lenm1.toNat + 1)
    NoAgLoopEnds s a n → AgAtHead s p (.copy o) →
    Done (.copy p o) s (fun t =>
      (∃ x, (t.str a n).copies = List.append (s.str a n).copies [x] ∧ x.src = u.areg a n o.src.toNat ∧
        x.dst = u.areg a n o.dst.toNat ∧ x.len = len ∧ x.done = [] ∧ x.next = 0 ∧ x.signals = o.s) ∧
      (∀ k, k < 8 → t.areg a n k = (u.areg a n k + (if o.is && o.src.toNat == k then len else 0) +
        (if o.id && o.dst.toNat == k then len else 0)) % 2 ^ 48) ∧
      (o.c = true → u.dscCsrc a n = 3 → t.sig a (u.dscCidx a n) = u.sig a (u.dscCidx a n) - 1) ∧
      (o.c = true → u.dscCsrc a n ≠ 3 → t.strCredits a n = u.strCredits a n - 1) ∧
      AgIssued u t a n ((s.str a n).pc + 1) (copyRegs o u a n))

/-- A trap of a stream program (R193, Table 06-8): nothing issues, the program is TRAPPED with the trap's code, and its job is
set to fail. COPYs not aligned to 64 B trap with code 4. -/
def StreamTraps : Prop :=
  ∀ (s : State) (p : PAt) (o : CopyOps),
    let a := p.site.toNat
    let n := p.prog.toNat
    let u := s.at_ p.t.toNat
    s.reaches p.t.toNat = true → u.agAlive a n = true → u.agBad a n = false → u.agHead a n = some (.copy o) →
    (s.str a n).invalid = false → (o.c && u.dscCsrc a n == 0) = false →
    (u.areg a n o.src.toNat % 64 ≠ 0 ∨ u.areg a n o.dst.toNat % 64 ≠ 0) → (isTarn a = true → u.agChosen a n = true) →
    Done (.copy p o) s (fun t => t.strState a n = 3 ∧ t.rd (strFld a F.STR_STATE_LAST_TRAP F.TRN_THR_STATE_LAST_TRAP) a n = 4 ∧
      t.str a n = s.str a n ∧ Frame u t (oneReg (strFld a F.STR_STATE_STATE F.TRN_THR_STATE_STATE).reg a n))

/-- The request that a program makes next, in the state after: of COPY `c`, at most 256 bytes, within no two 256 B blocks of either
end, with a number no request outstanding has; the COPY goes on behind it. -/
def RequestMade (s t : State) (a n : Nat) (c : CopyX) : Prop :=
  (∃ r, (t.str a n).reqs = List.append (s.str a n).reqs [r] ∧ r.src = c.src + c.next ∧ r.dst = c.dst + c.next ∧ r.off = c.next ∧
    0 < r.len ∧ r.len ≤ 256 ∧ c.next + r.len ≤ c.len ∧ r.src / 256 = (r.src + r.len - 1) / 256 ∧
    r.dst / 256 = (r.dst + r.len - 1) / 256 ∧ r.remote = c.remote ∧ r.served = false ∧ (∀ q ∈ (s.str a n).reqs, q.num ≠ r.num)) ∧
  (t.str a n).copies.map CopyX.next =
    (s.str a n).copies.map (fun y => if y.gen = c.gen then y.next + nextReqLen c else y.next) ∧
  (t.str a n).pc = (s.str a n).pc

/-- A program's next request (R189, R192): of its oldest COPY with bytes left, one a cycle, within the limits and while no write
outstanding overlaps it. Within the site it is made at once; to the far end of a connection when the stream lane of the slot is the
program's (R213); to external memory when the Tarn's port, its half of the couloir and the channel's queue take it, and then it
stands last in that queue (R25, R196, R268, R269). -/
def StreamRequestsGo : Prop :=
  ∀ (s : State) (p : PAt) (c : CopyX),
    let a := p.site.toNat
    let n := p.prog.toNat
    let u := s.at_ p.t.toNat
    let x := s.str a n
    let ext := inExt (c.src + c.next) || inExt (c.dst + c.next)
    s.reaches p.t.toNat = true → s.strActive a n = true → (∀ r ∈ x.reqs, r.out = 0) →
    x.copies.find? (fun c => decide (c.next < c.len)) = some c → x.reqAt ≠ some u.cycles → u.reqLimit a n ext = false →
    (∀ r ∈ x.reqs, ¬ (c.dst + c.next < r.dst + r.len ∧ r.dst < c.dst + c.next + nextReqLen c)) →
    (ext = false → c.remote = false →
      Done (.streamRequest p) s (fun t => RequestMade s t a n c ∧ Frame u t noReg ∧ OtherSites u t a)) ∧
    (ext = false → c.remote = true → u.streamGrant a (u.dscQn a n) n = true →
      Done (.streamRequest p) s (fun t => RequestMade s t a n c ∧ Frame u t noReg ∧ OtherSites u t a)) ∧
    (∀ ch off, ext = true → u.portChoice a = some n → u.halfChoice (halfOf a).1 (halfOf a).2.1 = some (halfOf a).2.2 →
      (let y := if inExt (c.src + c.next) then c.src + c.next else c.dst + c.next
       u.locate y = .ok ch off ∧ u.reforming (groupOf y) = false) →
      chanHalf ch = (halfOf a).2.1 → u.chanFull ch = false →
      Done (.streamRequest p) s (fun t => RequestMade s t a n c ∧ Frame u t noReg ∧ OtherSites u t a ∧
        ∃ r, (t.str a n).reqs.getLast? = some r ∧ (t.chanQueue ch).getLast? = some (a, n, r.num)))

/-- The far end serves a request, and a request completes (R180, R188, R189, R191, R195), once the arbiters of the memories it moves
its bytes through grant it: its bytes stand at its destination as they stood at its source, nothing else in memory changes, its
number is free again, and its units are written; a COPY whose last unit is written leaves the program, and with S = 1 signals. -/
def StreamRequestsComplete : Prop :=
  ∀ (s : State) (p : PAt) (r : BitVec 5) (q : Req),
    let a := p.site.toNat
    let n := p.prog.toNat
    let u := s.at_ p.t.toNat
    let here := siteHolds a q.dst q.len
    let moved := fun (t : State) => (∀ i, i < q.len → t.byte (q.dst + i) = s.byte (q.src + i)) ∧
      (∀ z, z < q.dst ∨ q.dst + q.len ≤ z → t.byte z = s.byte z)
    let servedReqs := (s.str a n).reqs.map (fun y => if y.num = q.num then { y with served := true, back := laneFlits here q.len } else y)
    s.reaches p.t.toNat = true → mcanon 0 s.mem = true → q.len % 64 = 0 → inExt q.src = false → inExt q.dst = false →
    ((s.str a n).reqs.find? (fun y => y.num == r.toNat && y.remote && y.out == 0 && (!y.served || decide (0 < y.back))) = some q →
      q.served = false →
      (u.askAll (u.agentAsk a n :: (u.reqAsks a n q).filter (fun x => !here || x.key.site? != some a))).1 = true →
      (here = true → Done (.remoteRequest p r) s (fun t => (t.str a n).reqs = servedReqs ∧ Frame u t noReg)) ∧
      (here = false → Done (.remoteRequest p r) s (fun t => moved t ∧ SameRegs u t noReg ∧ (t.str a n).reqs = servedReqs))) ∧
    ((s.str a n).reqs.find? (fun y => y.num == r.toNat && (!y.remote || (y.served && y.back == 0))) = some q →
      (q.remote = false ∨ here = true) → q.ext = false → (u.reqReady a n q).1 = true →
      ∀ c, (s.str a n).copies = [c] → c.gen = q.copyPos →
      (64 * c.done.length + q.len ≠ c.len → Done (.requestComplete p r) s (fun t => moved t ∧ SameRegs u t noReg ∧
        (t.str a n).reqs = (s.str a n).reqs.filter (fun y => y.num != q.num) ∧
        (t.str a n).copies = [{ c with done := List.append c.done ((List.range (q.len / 64)).map (· + q.off / 64)) }])) ∧
      (64 * c.done.length + q.len = c.len → Done (.requestComplete p r) s (fun t => moved t ∧ SameRegs u t noReg ∧
        (t.str a n).reqs = (s.str a n).reqs.filter (fun y => y.num != q.num) ∧ (t.str a n).copies = [] ∧
        (c.signals = true → u.dscSrem a n ≠ 1 → aget t.sigAdds (32 * a + u.dscCnt a n) =
          some ((aget u.sigAdds (32 * a + u.dscCnt a n)).getD 0 + 1)) ∧
        (c.signals = false → t.sigAdds = u.sigAdds ∧ t.flight = u.flight))))

/-- A program whose END has issued and whose COPYs are complete (R183, Table 06-1): a running one goes IDLE; one with a shadow
starts again with the shadow's argument. -/
def StreamProgramsComplete : Prop :=
  ∀ (s : State) (p : PAt),
    let a := p.site.toNat
    let n := p.prog.toNat
    let u := s.at_ p.t.toNat
    s.reaches p.t.toNat = true → (s.str a n).ended = true → (s.str a n).copies = [] → (s.str a n).reqs = [] →
    (u.strState a n = 1 → u.isPf a n = false → Done (.streamProgramCompletion p) s (fun t => t.strState a n = 0 ∧
      (t.str a n).ended = false ∧ Frame u t (oneReg (strFld a F.STR_STATE_STATE F.TRN_THR_STATE_STATE).reg a n))) ∧
    (u.strState a n = 2 → Done (.streamProgramCompletion p) s (fun t => t.strState a n = 1 ∧
      t.rd (strFld a F.STR_STATE_ARG F.TRN_THR_STATE_ARG) a n = u.rd (strFld a F.STR_STATE_SHADOW F.TRN_THR_STATE_SHADOW) a n ∧
      (t.str a n).pc = u.rd (strFld a F.STR_DESC_START F.TRN_THR_START) a n ∧ (t.str a n).ended = false ∧ SameMem s t))

/-! ### Links (chapters 07, 13, 14) -/

/-- A flit has been forwarded from state u: on each output whose slot takes it, it has left with its words, poison and check bytes as
they came, or stands last in the hold line while the link's delay is above 0; every other output is as before. -/
def Forwarded (u t : State) (a : Nat) (d : Dir) (f : Flit) : Prop :=
  (∀ k ∈ u.outputsOf a d f.slot.toNat, u.linkState a k ≠ 3 →
    (u.linkDelay a k = 0 → ∃ g, (t.link a k.num).replay.getLast? = some ⟨u.cycles, g⟩ ∧ g.words = f.words ∧
      g.hdr = { f.hdr with lseq := BitVec.ofNat 6 (u.link a k.num).lseq } ∧ g.slot.toNat = leaveSlot d f.slot.toNat % 16) ∧
    (u.linkDelay a k ≠ 0 → (t.link a k.num).hold.getLast? =
      some ⟨u.cycles, { f with slot := BitVec.ofNat 4 (leaveSlot d f.slot.toNat) }⟩)) ∧
  (∀ k, k ∉ u.outputsOf a d f.slot.toNat → t.link a k.num = u.link a k.num)

/-- A data flit that passes its CRC and the check of its slot's role is forwarded: at once on a link that awaits no resend, and on
one that does when it is the flit resent, which ends the wait; any other is discarded (R215, R349, R350, R372). A flit that
fails is counted and not forwarded, and its link awaits the resend (R372). -/
def FlitsAreForwarded : Prop :=
  ∀ (s : State) (site : SiteId) (d : Dir) (f : Flit) (b : Nat),
    let a := site.toNat
    let l := s.link b d.opp.num
    neighbour a d = some b → s.linkState b d.opp ≠ 3 →
    (f.crcOk = true → f.kindOk = true → f.slot.toNat < 14 →
      (l.waiting = none → Done (.flitArrival site d f) s (fun t => Forwarded s t a d f ∧ Frame s t noReg ∧ OtherSites s t a)) ∧
      (∀ w, l.waiting = some w → (f.hdr.lseq.toNat = w ∧ l.resent = some w) →
        Done (.flitArrival site d f) s (fun t =>
          let u := s.modLink b d.opp.num (fun l => { l with waiting := none, resent := none, fails := 0 })
          Forwarded u t a d f ∧ (t.link b d.opp.num).waiting = none ∧ Frame s t noReg)) ∧
      (∀ w, l.waiting = some w → ¬ (f.hdr.lseq.toNat = w ∧ l.resent = some w) →
        Done (.flitArrival site d f) s (fun t => t = s))) ∧
    ((f.crcOk && f.kindOk) = false → l.waiting = none → Done (.flitArrival site d f) s (fun t =>
      t.ctr C.TRV_CNT_CRC a = (s.ctr C.TRV_CNT_CRC a + 1) % 2 ^ 48 ∧
      t.link b d.opp.num = { l with waiting := some f.hdr.lseq.toNat, failedAt := s.cycles, resent := none, fails := 0 } ∧
      (∀ k : Dir, t.link a k.num = s.link a k.num) ∧ Frame s t noReg ∧ OtherSites s t b))

/-- A link's replay and its end (R372 to R376): the first valid NAK of a flit starts a replay, which adds 2 to the link's delay, unless
that passes 16; a wholly empty frame at the head of the hold line is dropped and the delay falls by 1; a dead link carries
nothing, and a job with a circuit over it, or with a flit in its hold line, is set to fail; a link whose last eight replays lie
within 1 ms is marked in both directions. -/
def LinksReplayAndEnd : Prop :=
  ∀ (s : State) (site : SiteId) (d : Dir),
    let a := site.toNat
    let l := s.link a d.num
    let u := s.drain a d
    let v := u.link a d.num
    (∀ w : Byte, nakValid w = true → s.linkState a d ≠ 3 → l.resent ≠ some (w.toNat / 2 % 64) →
      (s.linkDelay a d + 2 ≤ 16 → Done (.linkNak site d w) s (fun t => (t.link a d.num).resent = some (w.toNat / 2 % 64) ∧
        (t.link a d.num).waiting = some (w.toNat / 2 % 64) ∧ t.linkDelay a d = s.linkDelay a d + 2 ∧
        (t.link a d.num).heldFrom = v.sentAt (w.toNat / 2 % 64) s.cycles + 32 ∧
        t.ctr C.TRV_CNT_RETRY a = (s.ctr C.TRV_CNT_RETRY a + 1) % 2 ^ 48 ∧ Frame s t (oneReg .TRV_LINK_STATE a 0))) ∧
      (16 < s.linkDelay a d + 2 → Done (.linkNak site d w) s (fun t => (t.link a d.num).resent = l.resent ∧
        (t.link a d.num).waiting = some (w.toNat / 2 % 64) ∧ Frame s t noReg))) ∧
    (let h := s.cycles - 16 * s.linkDelay a d
     0 < s.linkDelay a d → s.localSlot a s.cycles = 0 → v.heldFrom ≤ h → (∀ x ∈ v.hold, x.at_ < h + 16 → x.flit.hdr.kind = 0) →
     Done (.holdLineDrop site d) s (fun t => (t.link a d.num).hold = v.hold.filter (fun x => decide (h + 16 ≤ x.at_)) ∧
      t.linkDelay a d = s.linkDelay a d - 1 ∧ Frame s t (oneReg .TRV_LINK_STATE a 0))) ∧
    (∀ c, s.linkState a d ≠ 3 → s.deathDue a d c = true → Done (.linkDead site d c) s (fun t => t.linkState a d = 3 ∧
      (t.link a d.num).hold = [] ∧ (t.link a d.num).replay = [] ∧
      (∀ e x, (e, x) ∈ s.hut.sects → 2 ≤ s.sectState e → s.sectState e ≤ 4 →
        (u.usesLink e x a d = true ∨ ∃ y ∈ v.hold, y.flit.hdr.kind ≠ 0 ∧ y.flit.hdr.part.toNat = e / 32) →
        ⟨e / 32, s.jobOf e, 0x20, 5, a, 0, 0, none⟩ ∈ t.hut.fails) ∧ Frame s t (oneReg .TRV_LINK_STATE a 0))) ∧
    (∀ b, neighbour a d = some b → l.markDue = true → s.linkState a d = 0 → s.linkState b d.opp = 0 →
      Done (.linkMark site d) s (fun t => t.linkState a d = 1 ∧ t.linkState b d.opp = 1 ∧
        Frame s t (fun r x i => oneReg .TRV_LINK_STATE a 0 r x i ∨ oneReg .TRV_LINK_STATE b 0 r x i)))

/-! ### Queues (chapter 07) -/

/-- The head of a sending queue departs in a slot of its connection that the lane arbiter grants it (R211 to R213, R221, R222, R229):
an entry takes one remote credit and the next sequence number and is on its way to the receiver; without credit it stays; a
signal record needs no credit; a tree's entry goes to every attached leaf once each has room; a ring's payload record goes to the
next record of its message's place. -/
def EntriesDepart : Prop :=
  ∀ (s : State) (p : At) (q : QueueNo) (l : List QItem),
    let a := p.site.toNat
    let n := q.toNat
    let u := s.at_ p.t.toNat
    let peer := u.rd F.QUE_CFG_PEER a n
    let sq := u.rd F.QUE_STAT_SEQ a n
    s.reaches p.t.toNat = true → u.running a = true →
    ((u.role a n = 1 ∨ (u.role a n = 3 ∧ u.rd F.QUE_STAT_CSTATE a n = 2)) →
      (∀ e w, (s.queue a n).items = .entry e w :: l → w < u.cycles →
        (u.rd F.QUE_STAT_RCRED a n ≠ 0 → u.laneFree a n = true → Done (.entryDepart p q) s (fun t => (t.queue a n).items = l ∧
          t.rd F.QUE_STAT_RCRED a n = u.rd F.QUE_STAT_RCRED a n - 1 ∧ t.rd F.QUE_STAT_SEQ a n = (sq + 1) % 65536 ∧
          t.flight = List.append u.flight [⟨32 * a + n, peer, sq, .entry e w⟩] ∧ Frame u t (oneReg .QUE_STAT a n))) ∧
        (u.rd F.QUE_STAT_RCRED a n = 0 → Done (.entryDepart p q) s (fun t => (t.queue a n).items = .entry e w :: l ∧
          t.flight = u.flight ∧ Frame u t noReg))) ∧
      (∀ c k, (s.queue a n).items = .sig c k :: l → u.laneFree a n = true →
        Done (.entryDepart p q) s (fun t => (t.queue a n).items = l ∧
        t.rd F.QUE_STAT_RCRED a n = u.rd F.QUE_STAT_RCRED a n ∧ t.rd F.QUE_STAT_SEQ a n = (sq + 1) % 65536 ∧
        t.flight = List.append u.flight [⟨32 * a + n, peer, sq, .sig c k⟩] ∧ Frame u t (oneReg .QUE_STAT a n)))) ∧
    (∀ e w, u.role a n = 7 → (s.queue a n).items = .entry e w :: l → w < u.cycles → u.laneFree a n = true →
      (∀ r ∈ u.leaves a n, u.outst a r.1 < 64) → Done (.entryDepart p q) s (fun t => (t.queue a n).items = l ∧
        (∀ r ∈ u.leaves a n, t.outst a r.1 = u.outst a r.1 + 1) ∧
        t.flight = List.append u.flight ((u.leaves a n).map (fun r => ⟨32 * a + n, r.2, sq, .entry e w⟩)) ∧
        Frame u t (fun r b i => oneReg .QUE_STAT a n r b i ∨ (∃ x ∈ u.leaves a n, oneReg .QUE_MLEAF a x.1 r b i)))) ∧
    (∀ e w base len k b, u.role a n = 5 → (s.queue a n).items = .entry e w :: l → w < u.cycles → u.laneFree a n = true →
      (s.queue a n).placing = some (base, len, k, b) → k + 1 < len → Done (.entryDepart p q) s (fun t => (t.queue a n).items = l ∧
        (t.queue a n).ringOut = List.append (s.queue a n).ringOut [((base + 1 + k) % u.ringLen a n, e, 0)] ∧
        (t.queue a n).placing = some (base, len, k + 1, b || e.poisoned) ∧ Frame u t noReg))

/-- What arrives at the end of a connection in a slot it lists (R211, R215, R351): an entry of the right source, connection and
sequence number is written behind the others; one that fails the checks is discarded, counted, and its job set to fail; a signal
record adds to its counter, one of a ring once the records placed before it have been written. -/
def EntriesAndRecordsArrive : Prop :=
  ∀ (s : State) (p : At) (q : QueueNo) (h : FlitHdr),
    let a := p.site.toNat
    let n := q.toNat
    let u := s.at_ p.t.toNat
    let tookSeq (t : State) : Prop :=
      ((s.queue a n).next = none → t.rd F.QUE_STAT_SEQ a n = (h.eseq.toNat + 1) % 65536) ∧
      ((s.queue a n).next ≠ none → (t.queue a n).next = some ((h.eseq.toNat + 1) % 65536))
    s.reaches p.t.toNat = true → u.arrives a n = true →
    (∀ e, (u.role a n = 2 ∨ u.role a n = 4) →
      (h.kind = 1 → u.srcOk a n h = true → Done (.receiveEntry p q h e) s (fun t =>
        (t.queue a n).items = List.append (s.queue a n).items [.entry e u.cycles] ∧ tookSeq t ∧
        Frame u t (oneReg .QUE_STAT a n) ∧ OtherSites u t a)) ∧
      (h.kind ≠ 1 ∨ u.srcOk a n h = false → Done (.receiveEntry p q h e) s (fun t => (t.queue a n).items = (s.queue a n).items ∧
        t.ctr C.TRV_CNT_SRCERR a = (u.ctr C.TRV_CNT_SRCERR a + 1) % 2 ^ 48 ∧
        (∀ x, u.sectOf a = some x →
          t.hut.fails = List.append u.hut.fails [⟨x / 32, u.jobOf x, 0x20, 4, a, 0, 0, none⟩]) ∧ Frame u t noReg))) ∧
    (∀ c k, u.role a n ≠ 0 → u.srcOk a n h = true →
      let added (t : State) : Prop := aget t.sigAdds (32 * a + c.toNat) = some ((aget u.sigAdds (32 * a + c.toNat)).getD 0 + k.toNat)
      let far := u.rd F.QUE_CFG_PEER a n
      (h.kind = 1 → u.role a n ≠ 6 → Done (.signalRecord p q h c k) s (fun t => tookSeq t ∧ added t ∧
        (t.queue a n).items = (s.queue a n).items ∧ Frame u t (oneReg .QUE_STAT a n))) ∧
      (∀ x rest, h.kind = 1 → u.role a n = 6 → (s.queue (far / 32) (far % 32)).ringOut = (x, Entry.zero, 3) :: rest →
        Done (.signalRecord p q h c k) s (fun t => added t ∧ (t.queue (far / 32) (far % 32)).ringOut = rest ∧ Frame u t noReg)) ∧
      (h.kind = 2 → Done (.signalRecord p q h c k) s (fun t => added t ∧ Frame u t noReg)))

/-- Credits that return, a GAP marker, and the records of a ring (R212, R214, R221, R223, R228, R229): RCRED rises by the credits of a
return flit, which the receive end no longer owes, unless they are of an older generation; a leaf's outstanding entries fall
by the credits of its message, unless it is of another partition; a marker at the head sets GAP with the sequence number it
records and adds 1 to SCNT; a record stands in the ring of the receiver's memory, and the header that completes a message
adds 1 to SCNT. -/
def Obligations.CreditsGapsAndRings : Prop :=
  ∀ (s : State) (p : At) (q : QueueNo),
    let a := p.site.toNat
    let n := q.toNat
    let u := s.at_ p.t.toNat
    s.reaches p.t.toNat = true →
    (∀ (conn : BitVec 12) (k : BitVec 7), (u.role a n = 1 ∨ u.role a n = 3) → u.arrives a n = true →
      let peer := u.rd F.QUE_CFG_PEER a n
      let x := s.queue (peer / 32) (peer % 32)
      let given (t : State) : Prop :=
        t.rd F.QUE_STAT_RCRED a n = (u.rd F.QUE_STAT_RCRED a n + k.toNat) % 65536 ∧ Frame u t (oneReg .QUE_STAT a n)
      (u.rd F.QUE_STAT_GEN a n = conn.toNat / 32 → k ≠ 0 →
        (∀ rest, x.credOut = k.toNat :: rest → Done (.remoteCreditReturn p q conn k) s (fun t =>
          given t ∧ (t.queue (peer / 32) (peer % 32)).credOut = rest)) ∧
        (x.credOut = [] → k.toNat ≤ 64 → k.toNat ≤ x.credRet → Done (.remoteCreditReturn p q conn k) s (fun t =>
          given t ∧ (t.queue (peer / 32) (peer % 32)).credRet = x.credRet - k.toNat))) ∧
      (u.rd F.QUE_STAT_GEN a n ≠ conn.toNat / 32 → Done (.remoteCreditReturn p q conn k) s (fun t =>
        t.ctr C.TRV_CNT_STALE a = (u.ctr C.TRV_CNT_STALE a + 1) % 2 ^ 48 ∧ t.sites = u.sites ∧ Frame u t noReg))) ∧
    (∀ (leaf : QueueId) (k : BitVec 7) j conn part rest, u.role a n = 7 → (j, leaf.toNat) ∈ u.leaves a n →
      (∀ i, 16 * u.rd F.QUE_PAR_MIDX a n ≤ i → i < 16 * u.rd F.QUE_PAR_MIDX a n + 16 → i ≠ j →
        u.rd F.QUE_MLEAF_LEAF a i ≠ leaf.toNat) →
      u.ctl = .credit (32 * a + n) leaf.toNat k.toNat conn part :: rest →
      (u.partOf a = some part → conn / 32 = u.rd F.QUE_STAT_GEN a n → Done (.mcastCredit p q leaf k) s (fun t =>
        t.outst a j = u.outst a j - k.toNat ∧ t.ctl = rest ∧ Frame u t (oneReg .QUE_MLEAF a j))) ∧
      (u.partOf a ≠ some part → Done (.mcastCredit p q leaf k) s (fun t =>
        t.ctr C.TRV_CNT_XPART a = (u.ctr C.TRV_CNT_XPART a + 1) % 2 ^ 48 ∧ t.ctl = rest ∧ Frame u t noReg))) ∧
    (∀ sq, (s.queue a n).gap = some (0, sq) → Done (.gapMarker p q) s (fun t => t.rd F.QUE_STAT_GAP a n = 1 ∧
      t.rd F.QUE_STAT_SEQ a n = sq % 65536 ∧ (t.queue a n).gap = none ∧
      (let c := 32 * a + u.rd F.QUE_PAR_SCNT a n
       aget t.sigAdds c = some ((aget u.sigAdds c).getD 0 + 1)) ∧ Frame u t (oneReg .QUE_STAT a n) ∧ OtherSites u t a)) ∧
    (∀ pos e k rest, u.role a n = 6 → mcanon 0 s.mem = true →
      let src := u.rd F.QUE_CFG_PEER a n
      let x := siteMem a + 64 * (u.rd F.QUE_PAR_RBASE a n + pos)
      (s.queue (src / 32) (src % 32)).ringOut = (pos, e, k) :: rest → k ≠ 3 → siteHolds a x 64 = true →
      Done (.ringRecordWrite p q) s (fun t => (∀ i, i < 64 → t.byte (x + i) = BitVec.ofNat 8 (e.bits.toNat / 2 ^ (8 * i))) ∧
        (∀ z, z < x ∨ x + 64 ≤ z → t.byte z = s.byte z) ∧ (t.queue (src / 32) (src % 32)).ringOut = rest ∧
        (let c := 32 * a + u.rd F.QUE_PAR_SCNT a n
         (k = 1 → aget t.sigAdds c = some ((aget u.sigAdds c).getD 0 + 1)) ∧ (k ≠ 1 → t.sigAdds = u.sigAdds)) ∧ SameRegs u t noReg))

/-! ### Dynamic connections (chapter 07) -/

/-- A dynamic connection opens (R214, R218, R224, R225): the PROBE holds the slots free on every link of its route and binds the
receiving queue to the connection; the REPLY holds the return slots, and the source is open with the lowest candidate of each
direction; the COMMIT keeps the forward circuit's slots as class 2. With no slot free in common the source is refused by the
router that has none; a queue that is another connection's, or no receiver, refuses it itself. A PROBE of another partition is
discarded and counted. -/
def ConnectionsOpen : Prop :=
  ∀ (s : State) (p : At) (q : QueueNo) (conn : BitVec 12),
    let a := p.site.toNat
    let n := q.toNat
    let u := s.at_ p.t.toNat
    s.reaches p.t.toNat = true →
    (∀ src part, u.connFrom kProbe a n conn.toNat = (src, part) → aget (u.sync a).connOut n = none →
     (u.partOf a ≠ some part → Done (.connProbe p q conn) s (fun t =>
       t.ctr C.TRV_CNT_XPART a = (u.ctr C.TRV_CNT_XPART a + 1) % 2 ^ 48 ∧ Frame u t noReg)) ∧
     (∀ v, u.takeConn kProbe a n conn.toNat src part = (true, v) → u.rd F.QUE_STAT_CSTATE (src / 32) (src % 32) = 1 →
      let r := (probeLinks (src / 32) (routeXY (src / 32) a) 0 (List.range 14) [] v).1
      (r.failed = none → u.role a n = 4 → ((s.queue a n).bound = none ∨ (s.queue a n).bound = some (src, conn.toNat)) →
       src ≠ 32 * a + n →
       Done (.connProbe p q conn) s (fun t => (t.queue a n).bound = some (src, conn.toNat) ∧
         t.rd F.QUE_STAT_CSTATE a n = 1 ∧ t.rd F.QUE_STAT_GEN a n = conn.toNat / 32 ∧
         (t.queue (src / 32) (src % 32)).probe = some ⟨r.cands, [], r.held⟩ ∧
         aget (t.sync a).connOut n = some ⟨kReply, src, conn.toNat⟩ ∧
         (∀ x ∈ r.held, t.slotSrc x.1 (allDirs.getD x.2.1 .n) x.2.2 = 6) ∧ SameMem u t)) ∧
      (r.failed = none → u.role a n ≠ 4 → Done (.connProbe p q conn) s (fun t =>
         aget (t.sync a).connOut n = some ⟨kRefusePeer, src, conn.toNat⟩ ∧ SameMem u t)) ∧
      (∀ b path, r.failed = some b → u.ctlRoute b (src / 32) = some path → Done (.connProbe p q conn) s (fun t =>
         t.ctl.getLast? = some (.conn kRefuseSlot (32 * a + n) (src / 32) (src % 32) conn.toNat (u.partNo b)) ∧
         (t.queue a n).bound = (s.queue a n).bound ∧ SameMem u t)))) ∧
    (∀ src part v pr, u.connFrom kReply a n conn.toNat = (src, part) →
      u.takeConn kReply a n conn.toNat (32 * a + n) part = (true, v) → u.rd F.QUE_STAT_CSTATE a n = 1 →
      (s.queue a n).probe = some pr →
      let r := (probeLinks a (reverseRoute (routeXY a (src / 32))) 0 (List.range 14) pr.held v).1
      r.failed = none →
      Done (.connReply p q conn) s (fun t => t.rd F.QUE_STAT_CSTATE a n = 2 ∧
        (t.queue a n).slots = some (pr.fwd.headD 0, r.cands.headD 0) ∧
        aget (t.sync a).connOut n = some ⟨kCommit, u.rd F.QUE_CFG_PEER a n, conn.toNat⟩ ∧
        (t.queue a n).items = (s.queue a n).items ∧ SameMem u t)) ∧
    (∀ src part v pr f r, u.connFrom kCommit a n conn.toNat = (src, part) →
      u.takeConn kCommit a n conn.toNat (32 * a + n) part = (true, v) →
      (s.queue (src / 32) (src % 32)).probe = some pr →
      (s.queue (src / 32) (src % 32)).slots = some (f, r) → f ≤ 13 → r ≤ 13 → src / 32 < 256 →
      Done (.connCommit p q conn) s (fun t => t.rd F.QUE_STAT_CSTATE a n = 2 ∧
        (t.queue (src / 32) (src % 32)).probe = none ∧
        (∀ x ∈ circuitSlots (routeXY (src / 32) a) f 13, t.slotSrc x.1 (allDirs.getD x.2.1 .n) x.2.2.1 = x.2.2.2) ∧
        SameMem u t))

/-- A dynamic connection is refused, closed or left idle (R226, R227): a REFUSE releases the slots held and the queue backs off for
16 BACKOFF cycles; a CLOSE frees the connection's slots; the end of the backoff closes the queue, or opens it again where
positions are allocated; IDLE_CLOSE idle pitches ask for a CLOSE. -/
def ConnectionsEnd : Prop :=
  ∀ (s : State) (p : At) (q : QueueNo) (conn : BitVec 12),
    let a := p.site.toNat
    let n := q.toNat
    let u := s.at_ p.t.toNat
    (∀ (b : Bool) v pr, s.reaches p.t.toNat = true →
      (let k := if b then kRefusePeer else kRefuseSlot
       u.takeConn k a n conn.toNat (32 * a + n) (u.connFrom k a n conn.toNat).2 = (true, v)) →
      u.rd F.QUE_STAT_CSTATE a n = 1 → (s.queue a n).probe = some pr → (∀ x ∈ pr.held, x.2.2 < 16) →
      Done (.connRefuse p q conn b) s (fun t => t.rd F.QUE_STAT_CSTATE a n = 3 ∧ (t.queue a n).probe = none ∧
        (t.queue a n).backoffAt = u.cycles + max 1 (16 * u.rd F.QUE_PAR_BACKOFF a n) ∧
        (∀ x ∈ pr.held, t.slotSrc x.1 (allDirs.getD x.2.1 .n) x.2.2 = 0) ∧
        t.ctr C.QUE_CNT_NOSLOT a = (u.ctr C.QUE_CNT_NOSLOT a + 1) % 2 ^ 48 ∧ SameMem u t)) ∧
    (∀ src part v f r, s.reaches p.t.toNat = true → u.connFrom kClose a n conn.toNat = (src, part) →
     u.takeConn kClose a n conn.toNat (32 * a + n) part = (true, v) → u.role (src / 32) (src % 32) = 3 →
     u.rd F.QUE_STAT_CSTATE (src / 32) (src % 32) = 5 → (s.queue (src / 32) (src % 32)).items = [] →
     (s.queue (src / 32) (src % 32)).probe = none → (s.queue (src / 32) (src % 32)).slots = some (f, r) → f ≤ 13 →
     Done (.connClose p q conn) s (fun t => t.rd F.QUE_STAT_CSTATE (src / 32) (src % 32) = 0 ∧
       (t.queue (src / 32) (src % 32)).slots = none ∧
       (∀ x ∈ circuitSlots (routeXY (src / 32) (u.rd F.QUE_CFG_PEER (src / 32) (src % 32) / 32)) f 13,
         t.slotSrc x.1 (allDirs.getD x.2.1 .n) x.2.2.1 = 0) ∧ SameMem u t)) ∧
    (let w := s.cycle + ((s.queue a n).backoffAt - s.cycles)
     s.role a n = 3 → s.rd F.QUE_STAT_CSTATE a n = 3 → s.reaches w = true →
     ((s.queue a n).items = [] → Done (.backoffExpiry p.site q) s (fun t => t.rd F.QUE_STAT_CSTATE a n = 0 ∧
       Frame (s.at_ w) t (oneReg .QUE_STAT a n))) ∧
     ((s.queue a n).items ≠ [] → Done (.backoffExpiry p.site q) s (fun t =>
       let g := ((s.at_ w).rd F.QUE_STAT_GEN a n + 1) % 128
       t.rd F.QUE_STAT_CSTATE a n = 1 ∧ t.rd F.QUE_STAT_GEN a n = g ∧
       aget (t.sync a).connOut n = some ⟨kProbe, s.rd F.QUE_CFG_PEER a n, 32 * g + n⟩ ∧
       Frame (s.at_ w) t (oneReg .QUE_STAT a n)))) ∧
    (s.rd F.QUE_PAR_IDLE_CLOSE a n ≠ 0 → s.dynIdle a n = true → s.rd F.QUE_PAR_IDLE_CLOSE a n ≤ (s.queue a n).idle →
      Done (.idleClose p.site q) s (fun t => t.rd F.QUE_STAT_CSTATE a n = 5 ∧
        aget (t.sync a).connOut n = some ⟨kClose, s.rd F.QUE_CFG_PEER a n, s.connId a n⟩ ∧ Frame s t (oneReg .QUE_STAT a n)))

/-! ### Synchronisation (chapters 07 and 08) -/

/-- The injection arbiter sends one message of the holder it grants, when the control FIFO of the first link takes it (R217, R218, R231,
R242, R245, R254): an add of the signal table, which raises ADD_OUT; a barrier arrival, to its port of the Col, or to wait
before it while the port is full; the claim request; a connection message; or a credit return. While the FIFO takes none
the message waits. -/
def ControlMessagesAreInjected : Prop :=
  ∀ (s : State) (p : At),
    let a := p.site.toNat
    let u := s.at_ p.t.toNat
    let y := s.sync a
    s.reaches p.t.toNat = true →
    (∀ k b, y.grant = some k → u.holderDst a k = some b → u.ctlAdmits a b = false → Done (.controlInject p) s (fun t => t = u)) ∧
    (∀ tgt k rest path, y.grant = some 0 → y.table = (tgt, k) :: rest → u.ctlAdmits a (tgt / 32) = true →
      u.ctlRoute a (tgt / 32) = some path →
      Done (.controlInject p) s (fun t => (t.sync a).table = rest ∧ (t.sync a).ptr = 1 ∧
        t.rd F.SEQ_SIG_STATUS_ADD_OUT a = (u.rd F.SEQ_SIG_STATUS_ADD_OUT a + 1) % 2 ^ F.SEQ_SIG_STATUS_ADD_OUT.width ∧
        (∃ m, t.ctl.getLast? = some (.add tgt m) ∧ m.src = p.site ∧ m.part = BitVec.ofNat 4 (u.partNo a) ∧
          m.ctr = BitVec.ofNat 5 tgt ∧ m.add = BitVec.ofNat 16 k) ∧ Frame u t (oneReg .SEQ_SIG_STATUS a 0))) ∧
    (∀ b rest path, y.grant = some 1 → y.offered = b :: rest → u.ctlAdmits a (cornerOf a) = true →
      u.ctlRoute a (cornerOf a) = some path → (∀ c ∈ u.ctl, ∀ x k z, c ≠ .arrival x k z) →
      let n := (u.col.ports.filter (fun x => x.1 == portOf a)).length
      (n < 64 → Done (.controlInject p) s (fun t => (t.sync a).offered = rest ∧ (t.sync a).ptr = 2 ∧
        t.col.ports = List.append u.col.ports [(portOf a, a, u.partNo a, b)] ∧ Frame u t noReg)) ∧
      (64 ≤ n → Done (.controlInject p) s (fun t => (t.sync a).offered = rest ∧ t.col.ports = u.col.ports ∧
        t.ctl.getLast? = some (.arrival a (u.partNo a) b) ∧ Frame u t noReg))) ∧
    (∀ c path, y.grant = some 2 → (s.seq a).claim = some c → u.ctlAdmits a (siteOfTarn c.tarn) = true →
      u.ctlRoute a (siteOfTarn c.tarn) = some path →
      Done (.controlInject p) s (fun t => (t.sync a).claimOut = false ∧ (t.sync a).ptr = 3 ∧
        (∃ m, t.ctl.getLast? = some (.claim c.tarn m) ∧ m.src = p.site ∧ m.seq = BitVec.ofNat 16 c.seq ∧
          m.ctr = BitVec.ofNat 6 c.ctr ∧ m.inc = BitVec.ofNat 16 c.inc) ∧ Frame u t noReg)) ∧
    (∀ n m rest path, y.grant = some 3 → y.connOut = (n, m) :: rest → u.ctlAdmits a (m.dst / 32) = true →
      u.ctlRoute a (m.dst / 32) = some path →
      Done (.controlInject p) s (fun t => (t.sync a).connOut = rest ∧ (t.sync a).ptr = 4 ∧
        t.ctl.getLast? = some (.conn m.kind (32 * a + n) (m.dst / 32) (m.dst % 32) m.conn (u.partNo a)) ∧ Frame u t noReg)) ∧
    (∀ n k rest path, y.grant = some 4 → y.creditOut = (n, k) :: rest →
      u.ctlAdmits a (u.rd F.QUE_CFG_PEER a n / 32) = true → u.ctlRoute a (u.rd F.QUE_CFG_PEER a n / 32) = some path →
      Done (.controlInject p) s (fun t => (t.sync a).creditOut = rest ∧ (t.sync a).ptr = 0 ∧
        t.ctl.getLast? = some (.credit (u.rd F.QUE_CFG_PEER a n) (32 * a + n) k (u.connOf a n) (u.partNo a)) ∧ Frame u t noReg))

/-- An add message at its target (R214, R242): from the site's own partition it adds to its counter, from another it is
discarded and counted; either way an acknowledgement goes back, which lowers ADD_OUT and for a discarded one sets SIG_XPART.
An acknowledgement that meets another partition is discarded. -/
def AddsAreAppliedAndAcknowledged : Prop :=
  ∀ (s : State) (p : At) (m : AddMsg) (path : List (Nat × Dir)),
    let a := p.site.toNat
    let u := s.at_ p.t.toNat
    let c := 32 * a + m.ctr.toNat
    s.reaches p.t.toNat = true →
    (u.ctlRoute a m.src.toNat = some path →
      (u.partOf a = some m.part.toNat → Done (.signalAdd p m) s (fun t =>
        aget t.sigAdds c = some ((aget u.sigAdds c).getD 0 + m.add.toNat) ∧
        t.ctl.getLast? = some (.ack m.src.toNat false m.part.toNat) ∧ Frame u t noReg)) ∧
      (u.partOf a ≠ some m.part.toNat → Done (.signalAdd p m) s (fun t => t.sigAdds = u.sigAdds ∧
        t.ctr C.TRV_CNT_XPART a = (u.ctr C.TRV_CNT_XPART a + 1) % 2 ^ 48 ∧
        t.ctl.getLast? = some (.ack m.src.toNat true m.part.toNat) ∧ Frame u t noReg))) ∧
    (∀ d x k rest, u.ctl = .ack a d k :: rest → u.partOf a = some x →
      (x = k → Done (.addAck p d) s (fun t => t.ctl = rest ∧
        t.rd F.SEQ_SIG_STATUS_ADD_OUT a = u.rd F.SEQ_SIG_STATUS_ADD_OUT a - 1 ∧
        t.rd F.SEQ_SIG_STATUS_SIG_XPART a = (if d then 1 else u.rd F.SEQ_SIG_STATUS_SIG_XPART a) ∧
        Frame u t (oneReg .SEQ_SIG_STATUS a 0))) ∧
      (x ≠ k → Done (.addAck p d) s (fun t => t.ctl = rest ∧
        t.ctr C.TRV_CNT_XPART a = (u.ctr C.TRV_CNT_XPART a + 1) % 2 ^ 48 ∧ Frame u t noReg)))

/-- Barriers (R245 to R249): a fenced arrival is offered once every earlier write of its site is complete, and not before; the Col
accepts one arrival a cycle, counts one of a member that has not arrived, of the partition that owns the active barrier, and
discards any other; in the cycle after the arrival that reaches TARGET it empties the barrier, raises GEN and sends the
release; at a member the release clears the flag and adds 1 to REL. -/
def Obligations.BarriersCountAndRelease : Prop :=
  ∀ (s : State) (p : At) (bar : BitVec 6),
    let a := p.site.toNat
    let u := s.at_ p.t.toNat
    (s.reaches p.t.toNat = true → ∀ w sent, (s.sync a).fenced.find? (fun y => y.1 == bar.toNat) = some (bar.toNat, w, sent) →
      (u.fenceMet a w sent = true → Done (.fencedArrivalOffer p bar) s (fun t =>
        (t.sync a).offered = List.append (s.sync a).offered [bar.toNat] ∧ Frame u t noReg ∧ OtherSites u t a)) ∧
      (u.fenceMet a w sent = false → Done (.fencedArrivalOffer p bar) s (fun t => t = u))) ∧
    (s.col.lastAt = some s.cycles → Done .barrierArrival s (fun t => t = s)) ∧
    (∀ k x part b, s.nextArrival = some (k, x, part, b) → x < 256 →
      (s.rd F.COL_BAR_OWNER 0 b = part → s.rd F.COL_BAR_ACTIVE 0 b ≠ 0 → s.barBit .COL_BAR_MEM b x = true →
        s.barBit .COL_BAR_ARR b x = false →
        Done .barrierArrival s (fun t =>
          t.rd F.COL_BAR_COUNT 0 b = (s.rd F.COL_BAR_COUNT 0 b + 1) % 2 ^ F.COL_BAR_COUNT.width ∧
          t.barBit .COL_BAR_ARR b x = true ∧ t.col.ptr = (k + 1) % 4 ∧ t.col.lastAt = some s.cycles ∧
          (s.rd F.COL_BAR_COUNT 0 b + 1 = s.rd F.COL_BAR_TARGET 0 b → t.col.due = some (b, part)) ∧
          (s.rd F.COL_BAR_COUNT 0 b + 1 ≠ s.rd F.COL_BAR_TARGET 0 b → t.col.due = s.col.due) ∧
          Frame s t (fun r c i => oneReg .COL_BAR 0 b r c i ∨ oneReg .COL_BAR_ARR 0 (4 * b + x / 64) r c i))) ∧
      ((s.rd F.COL_BAR_OWNER 0 b ≠ part ∨ s.rd F.COL_BAR_ACTIVE 0 b = 0 ∨ s.barBit .COL_BAR_MEM b x = false ∨
        s.barBit .COL_BAR_ARR b x = true) → Done .barrierArrival s (fun t =>
          t.ctr C.COL_CNT_DISCARD = (s.ctr C.COL_CNT_DISCARD + 1) % 2 ^ 48 ∧ t.col.ptr = (k + 1) % 4 ∧ Frame s t noReg))) ∧
    (∀ b part, s.pending = [] → s.board.pllLock = true → s.cycle + 1 < s.pitchLen → s.hut.testing = [] → b < 64 →
      s.col.due = some (b, part) → ∃ t, step s = .next t ∧ t.col.due = none ∧
        t.rd F.COL_BAR_COUNT 0 b = 0 ∧ t.rd F.COL_BAR_GEN 0 b = (s.rd F.COL_BAR_GEN 0 b + 1) % 2 ^ F.COL_BAR_GEN.width ∧
        (∀ z, z < 256 → t.barBit .COL_BAR_ARR b z = false) ∧
        t.ctl.getLast? = some (.release b part (s.releaseTo part b)) ∧ SameMem s t) ∧
    (s.reaches p.t.toNat = true →
      ((u.word .SEQ_BARFLAG a 0).getLsbD bar.toNat = true → u.partOf a = some (u.rd F.COL_BAR_OWNER 0 bar.toNat) →
        let c := 32 * a + u.relOf bar.toNat
        Done (.barrierRelease p bar) s (fun t => (t.word .SEQ_BARFLAG a 0).getLsbD bar.toNat = false ∧
          (∀ k, k ≠ bar.toNat → (t.word .SEQ_BARFLAG a 0).getLsbD k = (u.word .SEQ_BARFLAG a 0).getLsbD k) ∧
          aget t.sigAdds c = some ((aget u.sigAdds c).getD 0 + 1) ∧ Frame u t (oneReg .SEQ_BARFLAG a 0))) ∧
      ((u.word .SEQ_BARFLAG a 0).getLsbD bar.toNat = false → Done (.barrierRelease p bar) s (fun t =>
        t.sigAdds = u.sigAdds ∧ t.sites = u.sites ∧ Frame u t noReg)))

/-- A Tarn serves a claim, one a cycle, where its port 6 grants (R253 to R256): a plain counter answers with its value and adds INC modulo
2^32; a repeated request gets the value of the first answer and changes nothing; a logged counter hands out the lowest range
marked for reissue, else a fresh range, which its log holds as claimed, and while its log is full the request waits; a commit
counter answers with the range its requester holds, which leaves the log once every claim of it is committed. -/
def ClaimsAreServed : Prop :=
  ∀ (s : State) (p : At) (m : ClaimMsg) (path : List (Nat × Dir)),
    let ta := p.site.toNat
    let k := m.ctr.toNat
    let u := s.at_ p.t.toNat
    let v := u.rd F.TRN_WC_VALUE ta k
    let x := (s.site ta).tarn
    let R := fun r b i => oneReg .TRN_WC ta k r b i ∨ oneReg .TRN_WC_CFG ta k r b i
    let answered := fun (w : BitVec 32) (t : State) => t.ctl.getLast? = some (.reply m.src.toNat m.seq.toNat w m.part.toNat) ∧
      t.ctr C.TRN_CNT_CLAIM ta = (u.ctr C.TRN_CNT_CLAIM ta + 1) % 2 ^ 48 ∧ (t.site ta).tarn.servedAt = some u.cycles ∧
      aget (t.site ta).tarn.reqs m.src.toNat = some (m.seq.toNat, w)
    s.reaches p.t.toNat = true → isTarn ta = true → u.partOf ta = some m.part.toNat → u.ctlRoute ta m.src.toNat = some path →
    (x.servedAt = some u.cycles → Done (.claimRequest p m) s (fun t => t = u)) ∧
    (x.servedAt ≠ some u.cycles → (u.askAll [claimAsk ta]).1 = true →
      (∀ w, aget x.reqs m.src.toNat = some (m.seq.toNat, w) → Done (.claimRequest p m) s (fun t =>
        answered w t ∧ (t.site ta).tarn.clog = x.clog ∧ Frame u t noReg)) ∧
      ((aget x.reqs m.src.toNat).filter (fun r => r.1 == m.seq.toNat) = none →
        (u.rd F.TRN_WC_CFG_MODE ta k = 0 → Done (.claimRequest p m) s (fun t => answered (BitVec.ofNat 32 v) t ∧
          t.rd F.TRN_WC_VALUE ta k = (v + m.inc.toNat) % 2 ^ 32 ∧ (t.site ta).tarn.clog = x.clog ∧ Frame u t R)) ∧
        (u.rd F.TRN_WC_CFG_MODE ta k = 1 → x.clog.length < 512 →
          (lowestReissue k x.clog = none → Done (.claimRequest p m) s (fun t => answered (BitVec.ofNat 32 v) t ∧
            t.rd F.TRN_WC_VALUE ta k = (v + m.inc.toNat) % 2 ^ 32 ∧
            (t.site ta).tarn.clog = List.append x.clog [⟨k, v, m.inc.toNat, m.src.toNat, m.seq.toNat, .claimed⟩] ∧ Frame u t R)) ∧
          (∀ e, lowestReissue k x.clog = some e → Done (.claimRequest p m) s (fun t => answered (BitVec.ofNat 32 e.first) t ∧
            (t.site ta).tarn.clog.getLast? = some ⟨k, e.first, e.inc, m.src.toNat, m.seq.toNat, .claimed⟩ ∧
            t.ctr C.TRN_CNT_REISSUE ta = (u.ctr C.TRN_CNT_REISSUE ta + 1) % 2 ^ 48 ∧ Frame u t noReg))) ∧
        (u.rd F.TRN_WC_CFG_MODE ta k = 1 → 512 ≤ x.clog.length → Done (.claimRequest p m) s (fun t =>
          m ∈ (t.site ta).tarn.waiting ∧ (t.site ta).tarn.clog = x.clog ∧ Frame u t noReg)) ∧
        (u.rd F.TRN_WC_CFG_MODE ta k = 2 →
          let mine := x.clog.find? (fun e => e.ctr == u.rd F.TRN_WC_CFG_PAIR ta k && e.req == m.src.toNat && e.st == .claimed)
          (mine = none → Done (.claimRequest p m) s (fun t => answered 0xFFFF#32 t ∧ (t.site ta).tarn.clog = x.clog ∧
            t.ctr C.TRN_CNT_DUPCOMMIT ta = (u.ctr C.TRN_CNT_DUPCOMMIT ta + 1) % 2 ^ 48 ∧ Frame u t noReg)) ∧
          (∀ e, mine = some e → (∀ z ∈ x.clog, sameRange e z = true → z = e) → Done (.claimRequest p m) s (fun t =>
            answered (BitVec.ofNat 32 (e.first % 65536)) t ∧
            (t.site ta).tarn.clog = x.clog.filter (fun z => !sameRange e z) ∧ Frame u t noReg)))))

/-- The claimant's side (R162, R214, R254, R332, R347): the reply to the present request waits for the CLAIM; a poisoned one is a commit
point of kind 3; one that arrives after quiescence is discarded; after RETRY boundaries without a reply the request is sent
again with its sequence. -/
def ClaimsAreAnsweredOrRetried : Prop :=
  ∀ (s : State) (p : At) (c : ClaimWait) (v : BitVec 32) (sq : BitVec 16) (rest : List CtlMsg),
    let a := p.site.toNat
    let u := s.at_ p.t.toNat
    let saving := ((u.sectOf a).bind u.sectX?).any (fun x => x.phase == .saving)
    (s.seq a).claim = some c → c.reply = none →
    (s.reaches p.t.toNat = true → c.seq = sq.toNat → ∀ part, u.partOf a = some part → u.ctl = .reply a sq.toNat v part :: rest →
      (saving = false → Done (.claimReply p sq v false) s (fun t =>
        (t.seq a).claim = some { c with reply := some v, poisoned := false } ∧
        (t.seq a).pc = (s.seq a).pc ∧ t.ctl = rest ∧ Frame u t noReg ∧ OtherSites u t a)) ∧
      (∀ e, saving = false → u.sectOf a = some e → Done (.claimReply p sq v true) s (fun t =>
        (t.seq a).claim = some { c with reply := some v, poisoned := true } ∧ t.rd F.HUT_POISON_KIND 0 (e / 32) = 3 ∧
        t.rd F.HUT_POISON_SITE 0 (e / 32) = a ∧ Frame u t (oneReg .HUT_POISON 0 (e / 32)))) ∧
      (saving = true → Done (.claimReply p sq v false) s (fun t => (t.seq a).claim = some c ∧ t.ctl = rest ∧ Frame u t noReg))) ∧
    (s.rd F.SEQ_CLAIM_RETRY a ≠ 0 → s.rd F.SEQ_CLAIM_RETRY a ≤ c.boundaries → Done (.claimRetry p.site) s (fun t =>
      (t.sync a).claimOut = true ∧ (t.seq a).claim = some { c with boundaries := 0 } ∧ Frame s t noReg ∧ OtherSites s t a))

/-! ### External memory (chapter 09) -/

/-- The delivery of a stripe: its words with their poison. -/
def Delivered (t : State) (st : Nat) (l : List (Word × Bool)) : Prop := t.memc.delivered = some (st, l)

/-- A frame's read (R263, R270, R273, R275, R278): a frame without uncorrectable error is delivered with its corrections made and
counted, unless its channel has a re-read, a training or an older request first; a failing one is re-read RETRY times ahead of
the others, and one that reads well then counts as RETRYOK, what patrol scrubbing had read going back corrected; after the
last failure it is delivered with poison, counted, and its unreadable words stay poisoned; a stripe that nothing backs is
delivered poisoned and counted. -/
def FramesAreRead : Prop :=
  ∀ (s : State) (x : Addr) (o : FrameObs),
    let st := x.toNat / 256
    (∀ ch off, inExt x.toNat = true → s.locate x.toNat = .ok ch off → s.reforming (groupOf x.toNat) = false →
      (s.chanServes ch st = false → Done (.frameRead x o) s (fun t => t = s)) ∧
      (s.chanServes ch st = true → s.frameFails st o = false → Done (.frameRead x o) s (fun t => Delivered t st (s.frameWords st o) ∧
        t.ctr C.MEM_CNT_CE (16 * chanGroup ch) =
          (s.ctr C.MEM_CNT_CE (16 * chanGroup ch) + s.frameCorrections st o) % 2 ^ 48 ∧ Frame s t noReg)) ∧
      (s.chanServes ch st = true → s.frameFails st o = true → s.rd F.MEM_RETIRE_CFG_RETRY ≠ 0 → Done (.frameRead x o) s (fun t =>
        t.memc.rereads = List.append s.memc.rereads [⟨256 * st, s.rd F.MEM_RETIRE_CFG_RETRY, false⟩] ∧
        t.memc.delivered = s.memc.delivered ∧ Frame s t noReg))) ∧
    (inExt x.toNat = true → s.locate x.toNat = .unbacked → Done (.frameRead x o) s (fun t =>
      (∃ l, Delivered t st l ∧ l.length = 32 ∧ ∀ w ∈ l, w.2 = true) ∧
      t.ctr C.MEM_CNT_UNBACKED (16 * groupOf x.toNat) = (s.ctr C.MEM_CNT_UNBACKED (16 * groupOf x.toNat) + 1) % 2 ^ 48 ∧
      Frame s t noReg)) ∧
    (∀ ch off r, s.memc.rereads.find? (fun r => r.addr == 256 * st) = some r → s.locate (256 * st) = .ok ch off →
      (s.frameFails st o = false → Done (.frameReread x o) s (fun t =>
        (r.patrol = false → Delivered t st (s.frameWords st o) ∧ SameMem s t) ∧
        (r.patrol = true → 0 < s.frameCorrections st o →
          t.ctr C.MEM_CNT_SCRUBFIX (16 * chanGroup ch) = (s.ctr C.MEM_CNT_SCRUBFIX (16 * chanGroup ch) + 1) % 2 ^ 48 ∧
          t.memc.delivered = s.memc.delivered) ∧
        t.ctr C.MEM_CNT_RETRYOK (16 * chanGroup ch) = (s.ctr C.MEM_CNT_RETRYOK (16 * chanGroup ch) + 1) % 2 ^ 48 ∧
        (∀ y ∈ t.memc.rereads, y.addr ≠ 256 * st) ∧ SameRegs s t noReg)) ∧
      (s.frameFails st o = true → r.left ≤ 1 → mcanon 0 s.poison = true → Done (.frameReread x o) s (fun t =>
        (r.patrol = false → Delivered t st (s.frameWords st o)) ∧
        t.ctr C.MEM_CNT_UE (16 * chanGroup ch) = (s.ctr C.MEM_CNT_UE (16 * chanGroup ch) + 1) % 2 ^ 48 ∧
        (∀ w, w < 32 → s.frameSynd st w o ≠ 0 → correctable (s.frameSynd st w o) = false → t.pois (32 * st + w) ≠ 0) ∧
        (∀ z, t.byte z = s.byte z) ∧ SameRegs s t (oneReg .MEM_ERR_LOG 0 0))) ∧
      (s.frameFails st o = true → 2 ≤ r.left → Done (.frameReread x o) s (fun t =>
        ⟨256 * st, r.left - 1, r.patrol⟩ ∈ t.memc.rereads ∧ Frame s t noReg)))

/-- Writes of a frame and of the patrol scrubber (R264, R268, R272): words written from an aligned address on stand there with their
poison and nothing else changes; a frame that patrol scrubbing, once INTERVAL cycles have passed, finds with correctable errors is written back corrected. -/
def FramesAreWritten : Prop :=
  ∀ (s : State), mcanon 0 s.mem = true → mcanon 0 s.poison = true →
    (∀ (x : Addr) (data : List (Word × Bool)), inExt x.toNat = true → x.toNat % 8 = 0 → s.extServe x.toNat = 0 →
      (∀ ch off, s.locate x.toNat = .ok ch off → s.chanServes ch (x.toNat / 256) = true) →
      x.toNat % 256 + 8 * data.length ≤ 256 → Done (.frameWrite x data) s (fun t =>
        (∀ i (h : i < data.length), t.word64 (x.toNat + 8 * i) = data[i].1 ∧ t.poisonedAt (x.toNat + 8 * i) = data[i].2) ∧
        (∀ z, z < x.toNat ∨ x.toNat + 8 * data.length ≤ z → t.byte z = s.byte z ∧ t.poisonedAt z = s.poisonedAt z) ∧
        SameRegs s t noReg)) ∧
    (∀ (ch : ChanNo) (o : FrameObs) (st : Nat), s.scrubDue ch.toNat = true →
      s.stripeOfFrame ch.toNat ((aget s.memc.scrubNext ch.toNat).getD 0) = some st → s.frameFails st o = false →
      0 < s.frameCorrections st o →
      let k := chanGroup ch.toNat
      Done (.patrolScrub ch o) s (fun t =>
        (∀ i, i < 32 → t.word64 (256 * st + 8 * i) = ((s.frameWords st o).getD i (0, false)).1) ∧
        (∀ z, z < 256 * st ∨ 256 * st + 256 ≤ z → t.byte z = s.byte z) ∧
        t.ctr C.MEM_CNT_SCRUBFIX (16 * k) = (s.ctr C.MEM_CNT_SCRUBFIX (16 * k) + 1) % 2 ^ 48 ∧
        aget t.memc.scrubNext ch.toNat = some (((aget s.memc.scrubNext ch.toNat).getD 0 + 1) % chanStripes) ∧
        aget t.memc.scrubAt ch.toNat = some s.cycles ∧ SameRegs s t noReg))

/-- Channels and groups (R271, R273, R274, R277): a training that succeeds ends the count of failures, one that fails adds to it, and a
retry, of which there are RETRAIN_MAX, is counted; a per-bank refresh changes nothing a program can see; an active channel that meets a criterion is marked;
the re-forming of a group ends with its window zero, REFORMED, DEGRADED where a channel of its new map has been
retired meanwhile, or, with no channel left, OFFLINE. -/
def Obligations.ChannelsAndGroups : Prop :=
  ∀ (s : State) (ch : ChanNo), ch.toNat < 192 →
    let c := ch.toNat
    (∀ ok, s.chanState c < 2 → (aget s.memc.trainFails c).getD 0 ≤ s.rd F.MEM_RETIRE_CFG_RETRAIN_MAX → Done (.periodicTraining ch ok) s (fun t =>
      aget t.memc.trainFails c = some (if ok then 0 else (aget s.memc.trainFails c).getD 0 + 1) ∧
      t.ctr C.MEM_CNT_RETRAIN (16 * chanGroup c) = (if (aget s.memc.trainFails c).getD 0 = 0 then
        s.ctr C.MEM_CNT_RETRAIN (16 * chanGroup c) else (s.ctr C.MEM_CNT_RETRAIN (16 * chanGroup c) + 1) % 2 ^ 48) ∧
      Frame s t noReg)) ∧
    (∀ bank, Done (.bankRefresh ch bank) s (fun t => t.sites = s.sites ∧ t.counters = s.counters ∧ Frame s t noReg)) ∧
    (s.chanState c = 0 → s.markDue c = true → Done (.channelMark ch) s (fun t => t.chanState c = 1 ∧
      (∀ d, d < 192 → d ≠ c → t.chanState d = s.chanState d) ∧ Frame s t (oneReg .MEM_CH_STATE 0 (c / 32)))) ∧
    (∀ k : BitVec 2, s.groupState k.toNat = 2 → mcanon 0 s.mem = true → mcanon 0 s.poison = true →
      let lo := k.toNat * groupSize
      Done (.groupReformComplete k) s (fun t => t.groupState k.toNat = (if s.liveChans k.toNat = 0 then 4 else
          if s.mapRetired k.toNat then 1 else 3) ∧
        (∀ z, lo ≤ z → z < lo + groupSize → t.byte z = 0 ∧ t.poisonedAt z = false) ∧
        (∀ z, z < lo ∨ lo + groupSize ≤ z → t.byte z = s.byte z ∧ t.poisonedAt z = s.poisonedAt z) ∧
        SameRegs s t (oneReg .MEM_GRP_STATUS 0 k.toNat)))

/-! ### Domains and sections (chapters 01, 10 to 12) -/

/-- Registers of the states of power domains. -/
def domRegs : RegName → Nat → Nat → Prop := fun r _ _ => r = .PWR_CORE_STATE ∨ r = .PWR_ROUTER_STATE ∨ r = .PWR_TIER_STATE

/-- A domain switched ON is ON when its power-up completes, 8,192 c after the boundary that switched it (R35); the frames of a
section then begin to move, once every domain of its region is ON and the cycle of their start has come (R328). -/
def DomainsAndFrameTransferBegin : Prop :=
  ∀ (s : State),
    (∀ (d : DomKind) (site : SiteId) (due : Nat),
      s.hut.switching.find? (fun x => x.1 == site.toNat && x.2.1 == d.num) = some (site.toNat, d.num, due) →
      let w := s.cycle + (due - s.cycles)
      s.reaches w = true → Done (.domainPowerUpComplete d site) s (fun t => t.dom d.num site.toNat = 0 ∧
        (∀ x ∈ t.hut.switching, ¬ (x.1 = site.toNat ∧ x.2.1 = d.num)) ∧ w ≤ t.cycle ∧ Frame (s.at_ w) t domRegs)) ∧
    (∀ (p : PartNo) (n : EntryNo) (x : SectX),
      let e := sectNo p n
      let w := s.cycle + (x.startAt - s.cycles)
      s.sectX? e = some x → x.phase = .powering → s.reaches w = true →
      (∀ d ∈ s.domains x (s.regionSites e), s.dom d.1 d.2 = 0) → Done (.frameTransferStart p n) s (fun t =>
        (t.sectX? e).map SectX.phase = some .loading ∧ w ≤ t.cycle ∧ t.sites = s.sites ∧ Frame (s.at_ w) t noReg))

/-- A frame of address y.1 and data y.2 has been written, from state u: the 32 words stand in the store that the address names, at the
addresses it names, and no store holds anything else than before; the section goes on with the frames left. -/
def FrameWritten (s u t : State) (e : Nat) (l : List Nat) (y : Nat × List Word) : Prop :=
  let a := y.1 % 256
  let k := y.1 / 256 % 128
  (t.sectX? e).map SectX.framesLeft = some l ∧ SameMem u t ∧
  (∀ b, b ≠ a → (t.site b).prog = (s.site b).prog ∧ (t.site b).ag = (s.site b).ag) ∧
  (k < 64 → (∀ z, aget (t.site a).prog z = if z / 32 = k then
      (let w := y.2.getD (z % 32) 0
       if w = 0 then none else some w) else aget (s.site a).prog z) ∧
    (t.site a).ag = (s.site a).ag ∧ SameRegs u t noReg) ∧
  (64 ≤ k → k < 80 → (∀ z, aget (t.site a).ag z = if z / 32 = k - 64 then
      (let w := y.2.getD (z % 32) 0
       if w = 0 then none else some w) else aget (s.site a).ag z) ∧
    (t.site a).prog = (s.site a).prog ∧ SameRegs u t noReg) ∧
  (80 ≤ k → (t.site a).prog = (s.site a).prog ∧ (t.site a).ag = (s.site a).ag)

/-- The configuration controller reads the next staged frame and its index entry from external memory (R322, R328, R410, R412): a frame
whose CRC fits on either read is written to the site that its address names, and nothing else of the stores changes; one
that fits on neither fails a Staged section, and the job of any other. -/
def ConfigFramesAreWritten : Prop :=
  ∀ (s : State) (p : PartNo) (n : EntryNo) (x : SectX) (f : Nat) (l : List Nat),
    let e := sectNo p n
    let r1 := s.readStaged e x f
    let r2 := r1.2.readStaged e x f
    s.sectX? e = some x → x.phase = .loading → x.framesLeft = f :: l →
    (∀ c2 y, r1.1 = some y → Done (.configFrameWrite p n true c2) s (fun t => FrameWritten s r1.2 t e l y)) ∧
    (∀ c1 y, (c1 = false ∨ r1.1 = none) → r2.1 = some y →
      Done (.configFrameWrite p n c1 true) s (fun t => FrameWritten s r2.2 t e l y)) ∧
    (∀ c1 c2, (c1 = false ∨ r1.1 = none) → (c2 = false ∨ r2.1 = none) →
      (s.sectState e = 1 → Done (.configFrameWrite p n c1 c2) s (fun t => t.sectState e = 8 ∧ SameMem r2.2 t)) ∧
      (s.sectState e ≠ 1 → Done (.configFrameWrite p n c1 c2) s (fun t => t.sectState e = s.sectState e ∧
        t.hut.fails = List.append s.hut.fails [⟨e / 32, s.jobOf e, 0x20, 9, 0, 0, 0, none⟩] ∧
        (t.sectX? e).map SectX.phase = some .none ∧ Frame r2.2 t noReg)))

/-- A section becomes Armed (R59, R244, R328, R336): with every frame written, its Spurs hold the image's seed and its barriers
are active at COUNT 0 with their TARGET; a restore waits for its restored state too, and then its sites stand where they
were saved. -/
def SectionsBecomeArmed : Prop :=
  ∀ (s : State) (p : PartNo) (n : EntryNo) (x : SectX),
    let e := sectNo p n
    let o := s.origin e
    s.sectX? e = some x → x.phase = .loading → s.sectState e ≠ 2 →
    (x.framesLeft = [] → x.framesDone = false → x.restoring = false → (x.img.bars.map BarRec.bar).Nodup →
      Done (.reconfigComplete p n) s (fun t => t.sectState e = 2 ∧ t.rd F.HUT_SECT_BUSY 0 e = 0 ∧
        (t.sectX? e).map SectX.phase = some .none ∧
        (∀ a ∈ x.img.region o.1 o.2, isSpur a = true → t.word .VEC_SR_SEED a 0 = x.img.seed) ∧
        (∀ b ∈ x.img.bars, t.rd F.COL_BAR_ACTIVE 0 b.bar = 1 ∧ t.rd F.COL_BAR_OWNER 0 b.bar = (e / 32) % 16 ∧
          t.rd F.COL_BAR_COUNT 0 b.bar = 0 ∧ t.rd F.COL_BAR_TARGET 0 b.bar = b.target % 2 ^ F.COL_BAR_TARGET.width) ∧
        SameMem s t)) ∧
    (x.framesLeft = [] → x.framesDone = false → x.restoring = true → x.restored = false →
      Done (.reconfigComplete p n) s (fun t => t.sectState e = s.sectState e ∧
        (t.sectX? e).map SectX.framesDone = some true ∧ Frame s t noReg)) ∧
    (x.restoring = true → x.restored = false → x.framesDone = false → Done (.restoreComplete p n) s (fun t =>
      t.sectState e = s.sectState e ∧ (t.sectX? e).map SectX.restored = some true ∧ Frame s t noReg)) ∧
    (∀ v, x.restoring = true → x.restored = false → x.framesDone = true → x.saved = [v] →
      Done (.restoreComplete p n) s (fun t => t.sectState e = 2 ∧ t.rd F.HUT_SECT_BUSY 0 e = 0 ∧
        (let a := x.img.moved o.1 o.2 v.home
         (t.seq a).pc = v.x.seq.pc ∧ (t.seq a).frames = v.x.seq.frames ∧ (t.mtx a) = v.x.mtx)))

/-- A paused section that is quiesced begins its save with every dynamic connection closed (R227, R332); when the last byte is saved the
section is Saved with what its sites held, and its region is free (R333, R335). -/
def SectionsAreSaved : Prop :=
  ∀ (s : State) (p : PartNo) (n : EntryNo) (x : SectX),
    let e := sectNo p n
    s.sectX? e = some x →
    (x.phase = .quiescing → s.quiesced e = true → Done (.quiescence p n) s (fun t =>
      (t.sectX? e).map SectX.phase = some .saving ∧ t.sectState e = s.sectState e ∧
      (∀ a ∈ s.regionSites e, ∀ q, q < 32 → s.role a q = 3 → t.rd F.QUE_STAT_CSTATE a q = 0) ∧ SameMem s t)) ∧
    (x.phase = .saving → s.digReading e = false → Done (.saveComplete p n) s (fun t => t.sectState e = 5 ∧
      t.rd F.HUT_SECT_BUSY 0 e = 0 ∧ (∀ a ∈ s.regionSites e, t.sectOf a = none) ∧
      (t.sectX? e).map SectX.saved =
        some (x.img.rect.map (fun h => s.saveSite x h (x.img.moved (s.origin e).1 (s.origin e).2 h))) ∧ SameMem s t))

/-- The zeroing of a grant's granules for a new tenant completes (R321): each granule that the tenant did not hold last reads zero
without poison, and nothing outside the grant changes. -/
def GrantedGranulesAreZero : Prop :=
  ∀ (s : State) (p : PartNo) (k : BitVec 2) (base size : Nat) (c : Ctx),
    let gs := granulesOf k.toNat base size
    let lo := fun (g : Nat) => k.toNat * groupSize + (g - 768 * k.toNat) * 0x10000000
    s.hut.parts = [.grant p.toNat k.toNat base size true c] →
    Done (.grantZeroingComplete p k) s (fun t => t.hut.parts = [.grant p.toNat k.toNat base size false c] ∧
      t.rd F.HUT_GRANT_ZEROING 0 (4 * p.toNat + k.toNat) = 0 ∧
      (∀ g ∈ gs, aget s.hut.lastOwner g ≠ some (s.tenantOf p.toNat) →
        ∀ z, lo g ≤ z → z < lo g + 0x10000000 → t.byte z = 0 ∧ t.poisonedAt z = false) ∧
      (∀ z, (∀ g ∈ gs, z < lo g ∨ lo g + 0x10000000 ≤ z) → t.byte z = s.byte z ∧ t.poisonedAt z = s.poisonedAt z) ∧
      SameRegs s t (oneReg .HUT_GRANT 0 (4 * p.toNat + k.toNat)))

/-- The loader's answer to a section that has arrived, in the order of the LOADs (R284, R295, R297, R324, R412): an image that passes every check is Staged in a free entry
at its origin, and only the place of its staged frames is written; one that fails is refused, and the record of its refusal holds the code of the first check that failed. -/
def Obligations.LoaderStagesOrRefuses : Prop :=
  ∀ (s : State) (p : PartNo) (img : SectionImage) (c : Ctx) (o : LoadOps) (e : Nat),
    let k := p.toNat
    let g := State.received img (s.stream k).got
    let v := s.modStream k (fun x => { x with load := none })
    (s.stream k).load = some (c, o) → s.rd F.CFG_STREAM_STATE 0 k = 3 → s.rd F.CFG_STREAM_OUTCOME 0 k = 1 →
    s.firstLoad k = true → v.freeEntry k = some e →
    (v.checkImage k e g o.orgC.toNat o.orgR.toNat = none → Done (.loaderCheck p img) s (fun t => t.sectState e = 1 ∧
      (∃ y, t.sectX? e = some y ∧ y.img = g ∧
        ∀ z, z < y.frameBase ∨ y.frameBase + 264 * g.frames.length ≤ z → t.byte z = s.byte z) ∧ t.jobOf e = g.job % 65536 ∧
      t.rd F.HUT_SECT_ORG_COL 0 e = o.orgC.toNat % 16 ∧ t.rd F.HUT_SECT_ORG_ROW 0 e = o.orgR.toNat % 16)) ∧
    (∀ w, v.checkImage k e g o.orgC.toNat o.orgR.toNat = some w → Done (.loaderCheck p img) s (fun t =>
      t.rd F.HUT_LOAD_REFUSAL_VALID 0 k = 1 ∧ t.rd F.HUT_LOAD_REFUSAL_CODE 0 k = w.code % 2 ^ F.HUT_LOAD_REFUSAL_CODE.width ∧
      t.hut.sects = s.hut.sects ∧ SameMem s t))

/-! ### Correction, scrubbing, self-test and the health record (chapters 13 and 14) -/

/-- A word of site memory with a correctable error is written back corrected (R342), and the scrubber's read of a frame (R359,
R360): HEARTBEAT rises by 1 and the stores are only read; a correctable error read twice alike waits as a correction for
the boundary. -/
def CorrectionsAndScrubReads : Prop :=
  ∀ (s : State),
    (∀ (x : Addr), let w := x.toNat / 8
      (inPad x.toNat || inTarn x.toNat) = true → correctable (mget 0 s.synd w) = true →
      mcanon 0 s.mem = true → mcanon 0 s.synd = true →
      Done (.correctedWriteBack x false) s (fun t => t.word64 (8 * w) = corrected (mget 0 s.synd w) (s.word64 (8 * w)) ∧
        mget 0 t.synd w = 0 ∧ (∀ z, z / 8 ≠ w → t.byte z = s.byte z) ∧ (∀ z, t.poisonedAt z = s.poisonedAt z) ∧
        SameRegs s t noReg)) ∧
    (∀ (frame : BitVec 7) (a f : Nat) (b : Bool), s.scrubPlace = some (a, f, b) → s.scrubOn = true → frame.toNat = f →
      Done (.scrubFrameRead frame []) s (fun t =>
        t.rd F.CFG_SCRUB_STATUS_HEARTBEAT = (s.rd F.CFG_SCRUB_STATUS_HEARTBEAT + 1) % 2 ^ 32 ∧ SameMem s t ∧
        (∀ b, (t.site b).prog = (s.site b).prog ∧ (t.site b).progSynd = (s.site b).progSynd ∧
          (t.site b).ag = (s.site b).ag ∧ (t.site b).agSynd = (s.site b).agSynd) ∧
        (∀ k, k < 32 → 32 * f + k < 2560 → correctable ((s.site a).cfgSynd (32 * f + k)) = true →
          (a, 32 * f + k, ((s.site a).cfgSynd (32 * f + k)).toNat, 0) ∈ t.cfg.corrections) ∧
        SameRegs s t (fun r c i => oneReg .CFG_SCRUB_STATUS 0 0 r c i ∨ oneReg .CHK_ECC_LOG a 0 r c i)))

/-- The scrubber's watch and the stall watchdog, at a boundary (R31, R176, R362): a vote error or a heartbeat that stands still resets the scrubber to
the fuse values and is counted and reported; a site whose count of stalled pitches reaches its limit halts every Running
section of its job. -/
def WatchdogsFire : Prop :=
  ∀ (s : State),
    (s.cycle = 0 → s.scrubStuck = true → Done .scrubStall s (fun t =>
      t.cfg.scrubEn = List.replicate 3 s.fuses.scrubEn ∧ t.cfg.scrubRate = List.replicate 3 s.fuses.scrubRate ∧
      t.rd F.CFG_SCRUB_STATUS_SITE = 0 ∧ t.cfg.scrubFrame = 0 ∧ t.scrubStuck = false ∧
      t.ctr C.CFG_CNT_SCRUB_STALL = (s.ctr C.CFG_CNT_SCRUB_STALL + 1) % 2 ^ 48 ∧ Frame s t (oneReg .CFG_SCRUB_STATUS 0 0))) ∧
    (∀ (site : SiteId) (e : Nat), s.sectOf site.toNat = some e → s.running site.toNat = true → s.stalledOut site.toNat = true →
      e < 512 → s.cycle = 0 →
      Done (.stallWatchdog site) s (fun t => t.sectState e = 6 ∧
        (∀ k, k < 512 → k / 32 = e / 32 → s.sectState k = 3 → s.jobOf k = s.jobOf e → t.sectState k = 6) ∧
        (∀ k, k < 512 → k / 32 ≠ e / 32 → t.sectState k = s.sectState k) ∧ t.sites = s.sites ∧ SameMem s t))

/-- Self-tests (R33, R383, R384): one that is due on a Spur that may be tested begins, is counted, and holds the first issue of its
sequencer; at its end a wrong signature is a failure to be taken at the boundary, and a clean one of a Watched Spur lowers
WATCH_LEFT, the last making the Spur Healthy. -/
def SelfTestsRun : Prop :=
  ∀ (s : State) (spur : SpurNo), spur.toNat < 192 →
    let n := spur.toNat
    let a := siteOfSpur n
    let begun := fun (t : State) => n ∈ t.hut.testing ∧ (t.seq a).selfTest = true ∧
      t.ctr C.HUT_CNT_SELFTEST = (s.ctr C.HUT_CNT_SELFTEST + 1) % 2 ^ 48 ∧ aget t.hut.lastTest n = some s.pitch ∧ Frame s t noReg
    (s.cycle = 0 → s.testDue n = true → s.mayTest n = true →
      (s.rd F.HUT_SPUR_HEALTH_STATE 0 n = 0 → Done (.healthySelftestDue spur) s begun) ∧
      (s.rd F.HUT_SPUR_HEALTH_STATE 0 n = 2 → Done (.watchedSelftestDue spur) s begun)) ∧
    (s.hut.testing.contains n = true → ∀ sg,
      (sg ≠ s.fuses.signature → Done (.selftestComplete spur sg) s (fun t => n ∉ t.hut.testing ∧ (t.seq a).selfTest = false ∧
        t.hut.failedTests = List.append s.hut.failedTests [n] ∧ Frame s t noReg)) ∧
      (sg = s.fuses.signature → s.rd F.HUT_SPUR_HEALTH_STATE 0 n = 2 → Done (.selftestComplete spur sg) s (fun t =>
        n ∉ t.hut.testing ∧ (t.seq a).selfTest = false ∧
        (s.rd F.HUT_SPUR_HEALTH_WATCH_LEFT 0 n ≤ 1 → t.rd F.HUT_SPUR_HEALTH_STATE 0 n = 0) ∧
        (2 ≤ s.rd F.HUT_SPUR_HEALTH_WATCH_LEFT 0 n → t.rd F.HUT_SPUR_HEALTH_STATE 0 n = 2 ∧
          t.rd F.HUT_SPUR_HEALTH_WATCH_LEFT 0 n = s.rd F.HUT_SPUR_HEALTH_WATCH_LEFT 0 n - 1) ∧
        Frame s t (oneReg .HUT_SPUR_HEALTH 0 n))))

/-- Health records and lanes (R379 to R381, R391): the oldest record that waits is stored, or its failure sets WERR; a lane that errs
in a third window of 1 ms in succession is marked at its rate and takes the port down; a retrain takes the first width of those that
train, is counted, and keeps memory and every section; a port that stayed down trains again a second later. -/
def RecordsAndLanes : Prop :=
  ∀ (s : State),
    (∀ r rest, s.hut.recPend = r :: rest → s.hut.recs.length < storeSize →
      Done (.healthRecordAppend true) s (fun t => t.hut.recs = List.append s.hut.recs [r] ∧ t.hut.recPend = rest ∧
        t.rd F.HUT_HREC_STATUS_USED = (s.hut.recs.length + 1) % 2 ^ 15 ∧ Frame s t (oneReg .HUT_HREC_STATUS 0 0)) ∧
      Done (.healthRecordAppend false) s (fun t => t.hut.recs = s.hut.recs ∧ t.hut.recPend = rest ∧
        t.rd F.HUT_HREC_STATUS_WERR = 1 ∧ Frame s t (oneReg .HUT_HREC_STATUS 0 0))) ∧
    (∀ lost errors l, s.windowOver = true → slowWidth (s.rd F.GATE_LANE_HEALTH_WIDTH) = false →
      l ∈ lanesOfWidth (s.rd F.GATE_LANE_HEALTH_WIDTH) (s.rd F.GATE_LANE_HEALTH_PAIR) → lost.getLsbD l = true →
      2 ≤ (aget s.gate.laneBad l).getD 0 → Done (.laneWindow lost errors) s (fun t => t.laneMarked false l = true ∧
        t.rd F.GATE_LANE_HEALTH_WIDTH = 0 ∧ (l, 0) ∈ t.gate.laneDown ∧ Frame s t (oneReg .GATE_LANE_HEALTH 0 0))) ∧
    (∀ trains, let w := s.pickWidth (fun w => trains.any (fun y => y.1.toNat == w.1 && (w.1 != 5 || y.2.toNat == w.2)))
      let done := fun (t : State) => t.rd F.GATE_LANE_HEALTH_WIDTH = w.1 ∧ t.gate.laneDown = [] ∧
        t.ctr C.GATE_CNT_RETRAIN = (s.ctr C.GATE_CNT_RETRAIN + 1) % 2 ^ 48 ∧ t.hut.sects = s.hut.sects ∧ t.sites = s.sites ∧
        Frame s t (oneReg .GATE_LANE_HEALTH 0 0)
      (s.gate.laneDown ≠ [] → Done (.retrainComplete trains) s done) ∧
      (s.gate.laneDown = [] → s.rd F.GATE_LANE_HEALTH_WIDTH = 0 → s.rd F.CFG_DEV_STATE_STATE ≠ 0 →
        s.retryDue = true → Done (.retrainRetry trains) s done))

/-! ### Digests (chapters 11 and 13) -/

/-- Digests (R31, R32, R310, R364 to R368): at a boundary the first scheduled one that is due, of a job that did not halt there, starts with every leaf to read; a leaf without poison joins the digests as the
SHAKE256 of its number, length and bytes; one with poison is a commit point of kind 4 and abandons the digest; with every leaf
read the root over STEP and the leaf digests stands in TAL_ROOT, and DIG_PEND shows whether another is due. -/
def Obligations.DigestsAreComputed : Prop :=
  ∀ (s : State) (p : PartNo),
    let k := p.toNat
    (∀ job, s.cycle = 0 → s.hut.digDue.find? (fun x => x.1 == k && !s.jobOut k x.2) = some (k, job) → aget s.hut.digs k = none →
      let ranges := (aget s.hut.digSets (k * 65536 + job)).getD []
      Done (.scheduledDigest p) s (fun t => t.rd F.TAL_DIG_STATE 0 k = 1 ∧ t.rd F.TAL_DIG_ORIGIN 0 k = 0 ∧
        t.rd F.TAL_DIG_DONE 0 k = 0 ∧ t.rd F.TAL_DIG_LEAVES 0 k = (leavesOf ranges).length % 2 ^ 24 ∧
        t.rd F.TAL_DIGSTEP_STEP 0 k = s.rd F.HUT_TRAIN_STEP 0 k ∧ aget t.hut.digs k = some ⟨ranges, job, [], true, none⟩ ∧
        t.rd F.HUT_TRAIN_DIG_PEND 0 k = 1 ∧ t.hut.digDue = s.hut.digDue.erase (k, job) ∧
        Frame s t (fun r c i => oneReg .TAL_DIG 0 k r c i ∨ oneReg .TAL_DIGSTEP 0 k r c i ∨ oneReg .HUT_TRAIN 0 k r c i))) ∧
    (∀ (i : BitVec 24) (d : DigX), aget s.hut.digs k = some d → i.toNat < (leavesOf d.ranges).length →
      aget d.leaves i.toNat = none →
      let y := (leavesOf d.ranges).getD i.toNat (0, 0)
      let ws := (s.leafWords y.1 y.2).1
      let u := (s.leafWords y.1 y.2).2
      ((∀ w ∈ ws, w.poison = 0) → Done (.leafRead p i) s (fun t =>
        (∃ d', aget t.hut.digs k = some d' ∧
          aget d'.leaves i.toNat = some (leafDigest i.toNat (ws.flatMap (fun w => leBytes w.data.toNat 8)))) ∧
        t.rd F.TAL_DIG_DONE 0 k = (d.leaves.length + 1) % 2 ^ 24 ∧
        t.ctr C.TAL_CNT_LEAVES = (s.ctr C.TAL_CNT_LEAVES + 1) % 2 ^ 48 ∧ Frame u t (oneReg .TAL_DIG 0 k))) ∧
      ((∃ w ∈ ws, w.poison ≠ 0) → Done (.leafRead p i) s (fun t => aget t.hut.digs k = none ∧ t.rd F.TAL_DIG_STATE 0 k = 3 ∧
        t.rd F.HUT_POISON_KIND 0 k = 4 ∧ SameMem u t))) ∧
    (∀ d, aget s.hut.digs k = some d → (leavesOf d.ranges).length ≤ d.leaves.length → s.rd F.TAL_LIST_EN 0 k = 0 →
      let root := rootDigest (s.rd F.TAL_DIGSTEP_STEP 0 k)
        ((List.range (leavesOf d.ranges).length).map (fun i => (aget d.leaves i).getD []))
      Done (.digestComplete p) s (fun t => t.rd F.TAL_DIG_STATE 0 k = 2 ∧ aget t.hut.digs k = none ∧
        (∀ j, j < 4 → t.rd F.TAL_ROOT_ROOT 0 (4 * k + j) = leNat ((root.drop (8 * j)).take 8) % 2 ^ 64) ∧
        t.rd F.HUT_TRAIN_DIG_PEND 0 k = (s.hut.digDue.any (fun x => x.1 == k)).toNat ∧ SameMem s t))

/-! ### The pitch (chapter 01) -/

/-- A pitch boundary (R28, R31, Table 01-6, Table 01-9): the pitch number rises by 1 modulo 2^48, WRAPPED showing the wrap, and the
next pitch begins at cycle 0; a length in force from this pitch is in LOG2_LEN, and one that waited for step 8 comes into
force with the next; the sampling of step 1 copies every live counter while Bivouac does not rest. -/
def Obligations.PitchBoundaryActs : Prop :=
  ∀ (s : State),
    let next := fun (t : State) => t.pitch = (s.pitch + 1) % 2 ^ 48 ∧ t.cycle = 0 ∧
      (s.pitch + 1 = 2 ^ 48 → t.rd F.COL_PITCH_CTRL_WRAPPED = 1) ∧
      (∀ v, s.lenNext = some v → t.rd F.COL_PITCH_NUM_LOG2_LEN = v % 16) ∧
      (∀ v, s.lenPend = some v → t.lenNext = some v ∧ t.lenPend = none ∧ t.rd F.COL_PITCH_CTRL_CHANGE_PEND = 0)
    (s.pitchDone = true → Done .pitchBoundary s next) ∧
    (s.pitchDone = true → s.pitch + 1 = 2 ^ 48 → Done .pitchWrap s next) ∧
    (s.rd F.PWR_BIVOUAC_STATE = 0 → (s.counters.map Prod.fst).Nodup →
      ∀ k v, aget s.counters k = some v → aget s.sample.snaps k = some v)

/-! ### The Tristox stream (chapter 15) -/

/-- A packet that its slot takes: it lies at the next offset of a stream that receives, its bytes have all come, and it breaks
neither its own layout nor the order of packets (R399, R402). -/
def PacketOk (s : State) (k typ : Nat) (h : PktHdr) (data : List Byte) : Prop :=
  s.receiving k = true ∧ (s.stream k).wait = false ∧ (s.stream k).at_ + 16 + data.length ≤ s.posE k ∧
  packetBad typ h (if k = 16 then 0 else 1) = false ∧ (s.stream k).orderBad typ h.len.toNat = false ∧
  data.length = h.len.toNat

/-- The packet of a block is taken: the stream stands behind it and its bytes are those of the open block. -/
def PacketTaken (s t : State) (k typ : Nat) (h : PktHdr) (data : List Byte) : Prop :=
  (t.stream k).at_ = (s.stream k).at_ + 16 + data.length ∧ (t.stream k).prev = typ ∧
  (t.stream k).block = List.append (s.stream k).block (List.append (h.bytes typ) data) ∧ SameRegs s t noReg

/-- The stream of a partition's slot has ended with an outcome and a reason (Tables 15-3, 15-14). -/
def Ended (t : State) (k outcome reason : Nat) : Prop :=
  t.rd F.CFG_STREAM_STATE 0 k = 3 ∧ t.rd F.CFG_STREAM_OUTCOME 0 k = outcome ∧ t.rd F.CFG_STREAM_REASON 0 k = reason

/-- Packets of a block (R398 to R401, R409 to R411, R421): each that applies to the device adds what it carries: image bytes to their
part, register records, the step codes, firmware bytes and their signature, a frame whose CRC holds; one whose MASK leaves
the device out is passed over; a frame whose CRC fails rejects the stream with FRAME_CRC. -/
def Obligations.StreamPacketsAreTaken : Prop :=
  ∀ (s : State) (slot : SlotNo) (h : PktHdr),
    let k := slot.toNat
    let x := s.stream k
    (∀ data, PacketOk s k 0 h data → Done (.nopPacket slot h data) s (fun t => PacketTaken s t k 0 h data ∧
      (t.stream k).got.parts = x.got.parts ∧ SameMem s t)) ∧
    (∀ data, PacketOk s k 9 h data →
      (s.applies x h = true → Done (.image slot h data) s (fun t => PacketTaken s t k 9 h data ∧
        aget (t.stream k).got.parts h.arg.toNat = some (List.append ((aget x.got.parts h.arg.toNat).getD []) data) ∧
        (t.stream k).got.applied = true ∧ SameMem s t)) ∧
      (s.applies x h = false → Done (.image slot h data) s (fun t => PacketTaken s t k 9 h data ∧
        (t.stream k).got = x.got ∧ SameMem s t))) ∧
    (∀ recs, let data := recs.flatMap (fun r => List.append (leBytes r.1.toNat 8) (leBytes r.2.toNat 8))
      PacketOk s k 4 h data → s.applies x h = true → x.got.wregLen + data.length ≤ 65536 →
      (∀ r ∈ recs, 0x01FF00000000 ≤ r.1.toNat ∧ r.1.toNat ≤ 0x01FFFFFFFFFF ∧ r.1.toNat % 8 = 0) →
      Done (.wreg slot h recs) s (fun t => PacketTaken s t k 4 h data ∧
        (t.stream k).got.wregs = List.append x.got.wregs recs ∧ SameMem s t)) ∧
    (∀ codes, PacketOk s k 5 h codes → s.applies x h = true → x.got.sawSeq = false →
      Done (.startSeq slot h codes) s (fun t => PacketTaken s t k 5 h codes ∧ (t.stream k).got.codes = some codes ∧ SameMem s t)) ∧
    (∀ data, PacketOk s k 2 h data → s.applies x h = true → x.got.fwsig = none → h.arg.toNat = x.got.fwLen →
      h.arg.toNat + data.length ≤ 8388608 → Done (.firmware slot h data) s (fun t => PacketTaken s t k 2 h data ∧
        t.cfg.firmware = List.append s.cfg.firmware data ∧ (t.stream k).got.fwLen = x.got.fwLen + data.length ∧ SameMem s t)) ∧
    (∀ pk sg, pk.length = 64 → PacketOk s k 3 h (List.append pk sg) → s.applies x h = true → x.got.fwsig = none →
      x.got.fwLast = true → Done (.fwsig slot h pk sg) s (fun t => PacketTaken s t k 3 h (List.append pk sg) ∧
        (t.stream k).got.fwsig = some (pk, sg) ∧ SameMem s t)) ∧
    (∀ data, PacketOk s k 8 h data →
      let a := h.arg.toNat % 2 ^ 32
      ((crc32c (List.append (leBytes a 4) data)).toNat = h.arg.toNat / 2 ^ 32 → s.applies x h = true →
        Done (.frame slot h data) s (fun t => PacketTaken s t k 8 h data ∧
          (t.stream k).got.frames = List.append x.got.frames [(a, data)] ∧ (x.load = none → SameMem s t))) ∧
      ((crc32c (List.append (leBytes a 4) data)).toNat ≠ h.arg.toNat / 2 ^ 32 → k < 16 →
        Done (.frame slot h data) s (fun t => Ended t k 5 18 ∧ SameMem s t)))

/-- The end of a block and of a stream (R402 to R405, R408, R417): a SYNC of a plain stream, or one whose GCM tag holds, counts its
block as received; one whose tag fails rejects the stream with AUTH_TAG; SIGNATURE is kept; END begins the verification,
which rejects with the reason of the first signature check that fails, or ends the stream LOADED or, where nothing applied
to the device, SKIPPED. -/
def StreamBlocksEnd : Prop :=
  ∀ (s : State) (slot : SlotNo) (h : PktHdr),
    let k := slot.toNat
    let x := s.stream k
    (∀ tag hd, PacketOk s k 1 h (leBytes (BitVec.toNat tag) 16) → x.hdr = some hd →
      let b := s.rd F.CFG_STREAM_BLOCK 0 k
      let good := Config.gcmTag (x.key.getD 0) (List.append (leBytes hd.ivBase.toNat 8) (leBytes b 4))
        (List.append hd.bytes (h.bytes 1)) x.block = tag
      ((hd.flags.getLsbD 0 = false ∨ good) → Done (.sync slot h tag) s (fun t =>
        t.rd F.CFG_STREAM_BLOCK 0 k = (b + 1) % 65536 ∧ t.rd F.CFG_STREAM_SYNC_OFFSET 0 k = (x.at_ + 32) % 2 ^ 48 ∧
        (t.stream k).at_ = x.at_ + 32 ∧ (t.stream k).block = [] ∧ (t.stream k).prev = 1 ∧
        (t.stream k).kept = (t.stream k).got ∧
        Frame s t (fun r c i => oneReg .CFG_STREAM 0 k r c i ∨ oneReg .CFG_STREAM_SYNC 0 k r c i))) ∧
      (hd.flags.getLsbD 0 = true → ¬ good → k < 16 → Done (.sync slot h tag) s (fun t => Ended t k 5 17 ∧ SameMem s t))) ∧
    (∀ pk sg, pk.length = 64 → PacketOk s k 14 h (List.append pk sg) → Done (.signature slot h pk sg) s (fun t =>
      (t.stream k).sig = some (pk, sg) ∧ (t.stream k).prev = 14 ∧ (t.stream k).block = x.block ∧ Frame s t noReg)) ∧
    (PacketOk s k 15 h [] → Done (.streamEndPacket slot h) s (fun t => t.rd F.CFG_STREAM_STATE 0 k = 2 ∧
      Frame s t (oneReg .CFG_STREAM 0 k))) ∧
    (∀ hd, s.rd F.CFG_STREAM_STATE 0 k = 2 → x.hdr = some hd →
      (s.sigWhy k hd x ≠ 0 → k < 16 → Done (.signatureVerified slot) s (fun t => Ended t k 5 (s.sigWhy k hd x) ∧ SameMem s t)) ∧
      (s.sigWhy k hd x = 0 → k < 16 → Done (.signatureVerified slot) s (fun t =>
        Ended t k (if x.got.applied then 1 else 2) 0 ∧ SameMem s t)) ∧
      (s.sigWhy k hd x = 0 → k = 16 → x.got.applied = true → Done (.signatureVerified slot) s (fun t =>
        t.rd F.CFG_STREAM_OUTCOME 0 16 = 1 ∧ t.rd F.CFG_DEV_STATE_STATE = 3 ∧
        t.cfg.stepsLeft = seqRun (match x.got.codes with
          | some l => seqCodes l
          | none => [1, 2, 3, 4, 5, 6, 7]) [1] ∧ SameMem s t)))

/-- A stream begins, goes on and ends (R396, R397, R414, R416, R417): a header that names another part or fails a check of R417 makes
the stream FOREIGN with the reason; one that passes starts it at offset 64; a datagram of the stream whose bytes reach offset
E is consumed to its end, and any other is dropped; a slot takes no byte past its deadline, and one that still receives
then ends TRUNCATED with DEADLINE, unless its END has come. -/
def StreamsBeginAndRunOut : Prop :=
  ∀ (s : State) (slot : SlotNo),
    let k := slot.toNat
    let x := s.stream k
    k < 16 →
    (∀ (h : StreamHdr), s.receiving k = true → x.wait = true → 64 ≤ s.posE k →
      (s.foreignWhy x h ≠ 0 → Done (.streamHeader slot h x.multicast) s (fun t => t.rd F.CFG_STREAM_OUTCOME 0 k = 3 ∧
        t.rd F.CFG_STREAM_REASON 0 k = s.foreignWhy x h ∧ t.rd F.CFG_STREAM_STATE 0 k = fieldGet F.CFG_STREAM_STATE x.old.1 ∧
        SameMem s t)) ∧
      (s.foreignWhy x h = 0 → h.kind = 1 → h.reserved = 0 → h.flags.toNat < 4 → h.flags.getLsbD 0 = false →
        s.rd F.CFG_STREAM_RESUMABLE 0 k = 0 → s.isReady = true → Done (.streamHeader slot h x.multicast) s (fun t =>
          (t.stream k).hdr = some h ∧ (t.stream k).wait = false ∧ (t.stream k).at_ = 64 ∧
          t.rd F.CFG_STREAM_STREAM_ID 0 k = h.id.toNat ∧ t.rd F.CFG_STREAM_BLOCK 0 k = 0 ∧
          t.rd F.CFG_STREAM_SYNC_OFFSET 0 k = 0 ∧
          Frame s t (fun r c i => oneReg .CFG_STREAM 0 k r c i ∨ oneReg .CFG_STREAM_SYNC 0 k r c i)))) ∧
    (∀ id off len h, s.receiving k = true → s.takesBytes k = true → x.multicast = true → x.wait = false → x.hdr = some h → h.id = id →
      (h.flags.getLsbD 0 = false ∨ x.key.isSome = true) →
      (off.toNat ≤ s.posE k → s.posE k < off.toNat + len.toNat → Done (.datagram id off len) s (fun t =>
        t.posE k = (off.toNat + len.toNat) % 2 ^ 48 ∧ t.receiving k = true ∧ SameMem s t)) ∧
      ((s.posE k < off.toNat ∨ off.toNat + len.toNat ≤ s.posE k) → Done (.datagram id off len) s (fun t =>
        t.posE k = s.posE k ∧ SameMem s t))) ∧
    (s.takesBytes k = false → ∀ id off len, Done (.datagram id off len) s (fun t => t.posE k = s.posE k ∧ SameMem s t)) ∧
    (s.receiving k = true → x.deadline ≤ s.time →
      (s.endCame k = false → Done (.loadDeadline slot) s (fun t => Ended t k 4 8 ∧ SameMem s t)) ∧
      (s.endCame k = true → Done (.loadDeadline slot) s (fun t => t = s)))

/-- Boot and start-up (R420, R422, R425, R456, Table 15-7): from BOOT, with power and a Rope position, the device becomes UNCLAIMED; LOCK
waits for the PLLs and starts the pitch clock; MEMORY, with STAGE_IN_N low, leaves every group that is not OFFLINE zero, and
fails without group 0; RESET puts every site register but the link states at its reset value; STAGE_OUT, READY and a bad
code act on their pins and the device state; a PLL without lock after 1 ms fails LOCK. -/
def Obligations.StartUpSteps : Prop :=
  ∀ (s : State) (o : StepObs) (l : List Nat),
    (s.rd F.CFG_DEV_STATE_STATE = 0 → s.board.porstN = true → s.board.pwrgd = true → s.rd F.ROPE_STATUS_POS_VALID = 1 →
      Done .bootComplete s (fun t => t.rd F.CFG_DEV_STATE_STATE = 1 ∧
        Frame s t (fun r c i => oneReg .CFG_DEV_STATE 0 0 r c i ∨ oneReg .GATE_LANE_HEALTH 0 0 r c i))) ∧
    (s.rd F.CFG_DEV_STATE_STATE = 3 →
      (s.cfg.stepsLeft = 1 :: l → o.lock = true → Done (.startupStep o) s (fun t => t.board.pllLock = true ∧
        (s.board.pllLock = false → t.cycle = 0) ∧ t.cfg.stepsLeft = l ∧ Frame s t (oneReg .CFG_DEV_STATE 0 0))) ∧
      (s.cfg.stepsLeft = 2 :: l → s.board.stageInN = false → Done (.startupStep o) s (fun t =>
        (t.groupState 0 = 4 → t.rd F.CFG_DEV_STATE_STATE = 5 ∧ t.rd F.CFG_DEV_STATE_FAIL = 2) ∧
        (t.groupState 0 ≠ 4 → t.cfg.stepsLeft = l) ∧
        (∀ y, inExt y = true → t.groupState (groupOf y) ≠ 4 → t.byte y = 0 ∧ t.poisonedAt y = false))) ∧
      (s.cfg.stepsLeft = 3 :: l → Done (.startupStep o) s (fun t => t.cfg.stepsLeft = l ∧
        (∀ r a i, r.place.block = none → r ≠ .TRV_LINK_STATE → t.word r a i = r.resetWord i) ∧ SameMem s t)) ∧
      (s.cfg.stepsLeft = 6 :: l → Done (.startupStep o) s (fun t => t.board.stageOutN = false ∧ t.cfg.stepsLeft = l ∧
        Frame s t (oneReg .CFG_DEV_STATE 0 0))) ∧
      (s.cfg.stepsLeft = 7 :: l → Done (.startupStep o) s (fun t => t.board.readyN = false ∧
        t.rd F.CFG_DEV_STATE_STATE = 4 ∧ Frame s t (oneReg .CFG_DEV_STATE 0 0))) ∧
      (s.cfg.stepsLeft = 0 :: l → Done (.startupStep o) s (fun t => t.rd F.CFG_DEV_STATE_STATE = 5 ∧
        t.rd F.CFG_DEV_STATE_FAIL = 3 ∧ Frame s t (oneReg .CFG_DEV_STATE 0 0))) ∧
      (s.cfg.stepsLeft = 1 :: l → s.cfg.startedAt + milli ≤ s.time → Done .pllLockTimeout s (fun t => t.rd F.CFG_DEV_STATE_STATE = 5 ∧
        t.rd F.CFG_DEV_STATE_FAIL = 1 ∧ t.cfg.stepsLeft = [] ∧ Frame s t (oneReg .CFG_DEV_STATE 0 0))))

/-! ### The board: power, temperature, the Rope, SMBus and Bivouac (chapter 17) -/

/-- What a reset leaves (R455): memory, and every register that no strap gives, at its reset value; the fuses and the stored health
records as before. -/
def ResetLeaves (s t : State) : Prop :=
  (∀ r a i, r ∉ [RegName.CFG_STRAPS, .COL_PITCH_NUM, .COL_PITCH_CTRL, .ROPE_STATUS] → t.word r a i = r.resetWord i) ∧
  (∀ x, t.byte x = 0 ∧ t.poisonedAt x = false) ∧ t.sites = [] ∧ t.hut.sects = [] ∧ t.fuses = s.fuses ∧ t.hut.recs = s.hut.recs

/-- Power and reset (R453, R455 to R457, R406): the rise of PWRGD, its fall and either edge of PORST_N leave the device reset; at the
rising edge the straps are sampled into CFG_STRAPS and give the pitch length and the head of the Rope; STAGE_IN_N and the
loss of VBAT change one pin and one key. -/
def ResetsAndPins : Prop :=
  ∀ (s : State) (st : Straps),
    (s.board.pwrgd = false → s.board.thermtripN = true → Done .pwrgdRise s (fun t => t.board.pwrgd = true ∧ ResetLeaves s t)) ∧
    Done .inputUndervoltage s (fun t => t.board.pwrgd = false ∧ ResetLeaves s t) ∧
    Done .porstNAssert s (fun t => t.board.porstN = false ∧ ResetLeaves s t) ∧
    (s.board.porstN = false → Done (.porstNDeassert st) s (fun t => t.board.porstN = true ∧ ResetLeaves s t ∧
      t.rd F.CFG_STRAPS_PITCH_DEF = st.pitchDef.toNat ∧ t.rd F.CFG_STRAPS_BOARD_ID = st.boardId.toNat ∧
      t.rd F.CFG_STRAPS_CLAIM_WIN = st.claimWin.toNat ∧ t.rd F.CFG_STRAPS_MGMT_BASE = st.mgmtBase.toNat ∧
      t.rd F.COL_PITCH_NUM_LOG2_LEN = pitchDef st.pitchDef.toNat ∧
      t.rd F.ROPE_STATUS_HEAD = st.ropeHead.toNat ∧ t.rd F.ROPE_STATUS_POS_VALID = st.ropeHead.toNat)) ∧
    Done .stageInNLow s (fun t => t.board.stageInN = false ∧ Frame s t noReg) ∧
    Done .vbatLoss s (fun t => t.fuses.vbat = none ∧ t.fuses.key = s.fuses.key ∧ t.fuses.slots = s.fuses.slots ∧ Frame s t noReg)

/-- Temperature and power (R473, R478): a sample shows in TJ, from 95 °C warns and from 105 °C trips THERMTRIP_N and the power, as
does a 1 ms window at 105 °C; a window at 100 °C or over the limit raises LEVEL by 1, at most to 3; the tenth window in succession at most 97 °C and
50 W below the limit lowers it by 1. -/
def TemperatureThrottlesAndTrips : Prop :=
  ∀ (s : State) (tj : BitVec 12) (w : BitVec 16),
    (tj.toInt < 380 → Done (.temperatureSample tj) s (fun t => t.rd F.PWR_THERM_TJ = tj.toNat ∧ t.rd F.PWR_THERM_WARN = 0 ∧
      t.board = s.board ∧ Frame s t (oneReg .PWR_THERM 0 0))) ∧
    (380 ≤ tj.toInt → tj.toInt < 420 → Done (.temperatureSample tj) s (fun t => t.rd F.PWR_THERM_TJ = tj.toNat ∧
      t.rd F.PWR_THERM_WARN = 1 ∧ t.board.alerts = s.board.alerts ||| 1 ∧ Frame s t (oneReg .PWR_THERM 0 0))) ∧
    (420 ≤ tj.toInt → Done (.temperatureSample tj) s (fun t => t.rd F.PWR_THERM_TJ = tj.toNat ∧ t.rd F.PWR_THERM_WARN = 1 ∧
      t.board.thermtripN = false ∧ t.board.pwrgd = false ∧ t.fuses = s.fuses ∧ ∀ x, t.byte x = 0 ∧ t.poisonedAt x = false)) ∧
    (let limit := s.rd F.PWR_THERM_LIMIT_W
     let level := s.rd F.PWR_THERM_LEVEL
     let gives := fun (t : State) (n c : Nat) => t.rd F.PWR_THERM_LEVEL = n ∧ t.rd F.PWR_THERM_POWER_W = w.toNat ∧
       t.board.coolWindows = c ∧ t.board.windowDue = s.time + milli ∧ (1 ≤ n → t.board.alerts = s.board.alerts ||| 2 ∧
         t.ctr C.PWR_CNT_THROTTLE = (s.ctr C.PWR_CNT_THROTTLE + 1) % 2 ^ 48) ∧ (n = 0 → t.board.alerts = s.board.alerts) ∧
       Frame s t (oneReg .PWR_THERM 0 0)
     (s.time < s.board.windowDue → Done (.thermalWindow tj w) s (fun t => t = s)) ∧
     (s.board.windowDue ≤ s.time → 420 ≤ tj.toInt → Done (.thermalWindow tj w) s (fun t =>
       t.board.thermtripN = false ∧ t.board.pwrgd = false ∧ t.fuses = s.fuses ∧ ∀ x, t.byte x = 0 ∧ t.poisonedAt x = false)) ∧
     (s.board.windowDue ≤ s.time → tj.toInt < 420 → (400 ≤ tj.toInt ∨ limit < w.toNat) → Done (.thermalWindow tj w) s (fun t => gives t (min 3 (level + 1)) 0)) ∧
     (s.board.windowDue ≤ s.time → tj.toInt < 400 → w.toNat ≤ limit → (388 < tj.toInt ∨ limit < w.toNat + 50) →
       Done (.thermalWindow tj w) s (fun t => gives t level 0)) ∧
     (s.board.windowDue ≤ s.time → tj.toInt ≤ 388 → w.toNat + 50 ≤ limit →
       (s.board.coolWindows < 9 → Done (.thermalWindow tj w) s (fun t => gives t level (s.board.coolWindows + 1))) ∧
       (s.board.coolWindows = 9 → Done (.thermalWindow tj w) s (fun t => gives t (level - 1) 0))))

/-- Rope links and positions (R463, R464, R471): the third HELLO brings a link up at the highest common version, or leaves it down
where there is none; a HELLO is sent once a millisecond; a link
without one for three shows none and no version; POS gives a device without one the next position and raises LAST, and
past position 7 sets LONG; CHAIN gives LAST; a frame whose CRC fails is only counted; WAKE for this device or for all wakes
it from Bivouac. -/
def RopeLinksAndPositions : Prop :=
  ∀ (s : State) (d : RopeSide) (lo hi n : Byte) (dst : BitVec 4),
    let rope := oneReg .ROPE_STATUS 0 0
    let v := ropeVersion lo.toNat hi.toNat
    let bad := fun (t : State) => t.ctr C.ROPE_CNT_CRC = (s.ctr C.ROPE_CNT_CRC + 1) % 2 ^ 48 ∧ t.out = s.out ∧ Frame s t noReg
    (s.board.pwrgd = true →
      ((s.board.side d).hellos < 2 → Done (.hello d lo hi) s (fun t =>
        (t.board.side d).hellos = (s.board.side d).hellos + 1 ∧ (t.board.side d).heardAt = s.time ∧ Frame s t noReg)) ∧
      (2 ≤ (s.board.side d).hellos → Done (.hello d lo hi) s (fun t =>
        t.rd (linkFld d) = (if v = 0 then 0 else 1) ∧ t.rd (verFld d) = v ∧ Frame s t rope)) ∧
      ((s.board.side d).sendDue ≤ s.time → Done (.helloSend d) s (fun t =>
        t.out = List.append s.out [.rope d 1 15 s.pos 0 [1, 2]] ∧ (t.board.side d).sendDue = s.time + milli ∧ Frame s t noReg)) ∧
      (s.time < (s.board.side d).sendDue → Done (.helloSend d) s (fun t => t = s))) ∧
    ((s.board.side d).heardAt + 3 * milli ≤ s.time → Done (.ropeLinkDown d) s (fun t => t.rd (linkFld d) = 0 ∧ t.rd (verFld d) = 0 ∧ (t.board.side d).hellos = 0 ∧
      Frame s t rope)) ∧
    Done (.pos false n) s bad ∧ Done (.chain false n) s bad ∧ Done (.ropeWake false dst) s bad ∧
    (s.rd F.ROPE_STATUS_HEAD = 0 → s.rd F.ROPE_STATUS_POS_VALID = 0 →
      (n.toNat < 7 → Done (.pos true n) s (fun t => t.rd F.ROPE_STATUS_POS = n.toNat + 1 ∧ t.rd F.ROPE_STATUS_POS_VALID = 1 ∧
        t.rd F.ROPE_STATUS_LAST = max (s.rd F.ROPE_STATUS_LAST) (n.toNat + 1) ∧ Frame s t rope)) ∧
      (7 ≤ n.toNat → Done (.pos true n) s (fun t => t.rd F.ROPE_STATUS_LONG = 1 ∧ t.rd F.ROPE_STATUS_POS_VALID = 0 ∧
        Frame s t rope))) ∧
    (n.toNat ≤ 7 → Done (.chain true n) s (fun t => t.rd F.ROPE_STATUS_LAST = max n.toNat s.pos ∧ Frame s t rope)) ∧
    ((dst.toNat = 15 ∨ (s.hasPos = true ∧ dst.toNat = s.pos)) → s.rd F.PWR_BIVOUAC_STATE = 2 →
      Done (.ropeWake true dst) s (fun t => t.rd F.PWR_BIVOUAC_STATE = 3 ∧ t.rd F.PWR_BIVOUAC_WAKE_SRC = 3 ∧
        Frame s t (oneReg .PWR_BIVOUAC 0 0))) ∧
    (dst.toNat ≠ 15 → dst.toNat ≠ s.pos → Done (.ropeWake true dst) s (fun t => Frame s t noReg ∧
      (s.rd (linkFld (s.toward dst.toNat)) = 1 → s.rd F.ROPE_STATUS_LONG = 0 →
        t.out = List.append s.out [.rope (s.toward dst.toNat) 4 dst.toNat 0 0 []])))

/-- A device awake that answers on SMBus: powered, with a position, no command pending and no relay in progress (R465, R466). -/
def SmbReady (s : State) : Prop :=
  s.board.pwrgd = true ∧ s.hasPos = true ∧ s.rd F.PWR_BIVOUAC_STATE = 0 ∧ s.board.smb.pending = none ∧ s.board.relay = none

/-- The reply of an SMBus command is sent, and the command wrote at most the registers R. -/
def Replied (s t : State) (st : Nat) (d : List Byte) (R : RegName → Nat → Nat → Prop) : Prop :=
  t.out = List.append s.out [.smb st d] ∧ Frame s t R

/-- SMBus reads (R465 to R467, R469, R471): a wrong PEC answers SMB_PEC and does nothing; GET_STATUS answers 16 bytes and clears the
alert causes; GET_IDENTITY, HEALTH_READ and GET_RESULT answer what they name; WAKE wakes the device from Bivouac;
BIVOUAC_ENTER raises an entry request; the Alert Response Address is answered while an alert holds. -/
def SmbusReads : Prop :=
  ∀ (s : State), s.board.pwrgd = true → s.hasPos = true →
    (∀ (b : Byte) (w : BitVec 16) (i : BitVec 32) (x y : BitVec 128) (k : BitVec 256) (l : List Byte),
      ∀ c ∈ [Instr.getStatus false, .getIdentity false, .setIp false b b x y, .setVbatKey false k, .clearVbatKey false,
        .progKeySlot false b k, .healthClear false b w, .healthRead false i, .wake false, .bivouacEnter false,
        .ropeRelay false b l, .setPowerLimit false w, .getResult false], Done c s (fun t => Replied s t 3 [] noReg)) ∧
    (s.board.alerts ≠ 0 → Done .alertResponse s (fun t =>
      t.out = List.append s.out [.alertAddress (0x20 + 8 * s.rd F.CFG_STRAPS_MGMT_BASE + s.pos)] ∧ Frame s t noReg)) ∧
    (∀ p, s.board.smb.pending = some p → Done (.getResult true) s (fun t => Replied s t 1 [] noReg)) ∧
    (s.rd F.PWR_BIVOUAC_STATE = 2 → s.board.smb.pending = none → s.board.relay = none → Done (.wake true) s (fun t =>
      t.rd F.PWR_BIVOUAC_STATE = 3 ∧ t.rd F.PWR_BIVOUAC_WAKE_SRC = 4 ∧ Replied s t 0 [] (oneReg .PWR_BIVOUAC 0 0))) ∧
    (SmbReady s →
      Done (.getStatus true) s (fun t => t.board.alerts = 0 ∧ ∃ d, d.length = 16 ∧ Replied s t 0 d noReg ∧
        d.take 4 = [BitVec.ofNat 8 (s.rd F.CFG_DEV_STATE_STATE), BitVec.ofNat 8 s.pos, BitVec.ofNat 8 (s.rd F.PWR_BIVOUAC_STATE),
          BitVec.ofNat 8 (s.rd F.PWR_THERM_LEVEL)] ∧ leNat ((d.drop 10).take 2) = s.board.alerts % 2 ^ 16 ∧
        leNat ((d.drop 12).take 4) = s.pitch % 2 ^ 32) ∧
      Done (.getIdentity true) s (fun t => ∃ d, d.length = 25 ∧ Replied s t 0 d noReg ∧
        leNat (d.take 16) = s.fuses.serial.toNat ∧ leNat ((d.drop 16).take 6) = s.fuses.mac.toNat) ∧
      (∀ (i : BitVec 32), (∀ r, s.hut.recs[i.toNat]? = some r → Done (.healthRead true i) s (fun t => Replied s t 0 r.bytes noReg)) ∧
        (s.hut.recs.length ≤ i.toNat → Done (.healthRead true i) s (fun t => Replied s t 5 [] noReg))) ∧
      (∀ st d, s.board.smb.result = some (st, d) → Done (.getResult true) s (fun t => Replied s t st d noReg)) ∧
      Done (.wake true) s (fun t => Replied s t 0 [] noReg) ∧
      (s.isReady = true → Done (.bivouacEnter true) s (fun t => t.rd F.PWR_BIVOUAC_ENTER = 1 ∧
        Replied s t 0 [] (oneReg .PWR_BIVOUAC 0 0))) ∧
      (s.isReady = false → Done (.bivouacEnter true) s (fun t => Replied s t 4 [] noReg)))

/-- SMBus writes (R466 to R468): SET_IP sets the address or resumes DHCP; the VBAT key is written or cleared unless an encrypted
stream is under way; PROG_KEY_SLOT waits as SMB_PENDING, and its completion programs the slot with what the fuses read back;
HEALTH_CLEAR appends a CLEAR record; ROPE_RELAY sends the command on; SET_POWER_LIMIT takes 300 to 1,200 W. -/
def SmbusWrites : Prop :=
  ∀ (s : State), SmbReady s →
    (∀ (f n : Byte) (x g : BitVec 128),
      (((f.toNat = 4 ∧ n.toNat ≤ 32) ∨ (f.toNat = 6 ∧ n.toNat ≤ 128)) → Done (.setIp true f n x g) s (fun t =>
        t.gate.ip = some x ∧ t.gate.ipNet = (f.toNat, n.toNat, g) ∧ t.gate.dhcp = false ∧ Replied s t 0 [] noReg)) ∧
      (f = 0 → Done (.setIp true f n x g) s (fun t => t.gate.ip = none ∧ t.gate.dhcp = true ∧ Replied s t 0 [] noReg))) ∧
    (∀ (k : BitVec 256),
      (s.encBusy = false → Done (.setVbatKey true k) s (fun t => t.fuses.vbat = some k ∧ Replied s t 0 [] noReg) ∧
        Done (.clearVbatKey true) s (fun t => t.fuses.vbat = none ∧ Replied s t 0 [] noReg)) ∧
      (s.encBusy = true → Done (.setVbatKey true k) s (fun t => t.fuses = s.fuses ∧ Replied s t 4 [] noReg) ∧
        Done (.clearVbatKey true) s (fun t => t.fuses = s.fuses ∧ Replied s t 4 [] noReg))) ∧
    (∀ (slot : Byte) (h : BitVec 256), s.rd F.CFG_DEV_STATE_STATE ≤ 1 → 1 ≤ slot.toNat → slot.toNat ≤ 3 →
      (s.fuses.slotUsed.getD slot.toNat false = false → Done (.progKeySlot true slot h) s (fun t =>
        t.board.smb.pending = some (6, slot :: leBytes h.toNat 32) ∧ t.fuses = s.fuses ∧ Replied s t 1 [] noReg)) ∧
      (s.fuses.slotUsed.getD slot.toNat false = true → Done (.progKeySlot true slot h) s (fun t =>
        t.fuses = s.fuses ∧ t.board.smb.pending = none ∧ Replied s t 6 [] noReg))) ∧
    (∀ (ty : Byte) (unit : BitVec 16),
      let has := ∃ r ∈ s.hut.recs, r.state = true ∧ r.type = ty.toNat ∧ r.type ≠ 8 ∧ r.unit = unit.toNat ∧ r.bad = false
      (has → Done (.healthClear true ty unit) s (fun t => t.hut.recPend = List.append s.hut.recPend
        [⟨8, true, unit.toNat, s.pitch, s.hut.bootCount, [ty.toNat], false⟩] ∧ Replied s t 0 [] noReg)) ∧
      (¬ has → Done (.healthClear true ty unit) s (fun t => t.hut.recPend = s.hut.recPend ∧ Replied s t 8 [] noReg))) ∧
    (∀ (target : Byte) (cmd : List Byte), let d := s.toward target.toNat
      target.toNat ≤ 7 → cmd ≠ [] → cmd.length ≤ 64 →
      (target.toNat ≠ s.pos → target.toNat ≤ max s.pos (s.rd F.ROPE_STATUS_LAST) → s.rd (linkFld d) = 1 → 2 ≤ s.rd (verFld d) →
        s.rd F.ROPE_STATUS_LONG = 0 → Done (.ropeRelay true target cmd) s (fun t =>
          t.board.relay = some ⟨target.toNat, s.board.relaySeq, cmd, 0, s.time⟩ ∧ t.board.relaySeq = (s.board.relaySeq + 1) % 256 ∧
          t.out = List.append s.out [.rope d 5 target.toNat s.pos s.board.relaySeq cmd] ∧ Frame s t noReg)) ∧
      (target.toNat = s.pos → Done (.ropeRelay true target cmd) s (fun t => t.board.relay = none ∧ Replied s t 9 [] noReg))) ∧
    (∀ (w : BitVec 16),
      (300 ≤ w.toNat → w.toNat ≤ 1200 → Done (.setPowerLimit true w) s (fun t => t.rd F.PWR_THERM_LIMIT_W = w.toNat ∧
        Replied s t 0 [] (oneReg .PWR_THERM 0 0))) ∧
      ((w.toNat < 300 ∨ 1200 < w.toNat) → Done (.setPowerLimit true w) s (fun t => Replied s t 5 [] noReg)))

/-- Pending commands and relays (R462, R466, R468): a completion of PROG_KEY_SLOT keeps its status for GET_RESULT; a relayed command is
executed here and its status returned; a response ends the relay and is answered; a relay without one is repeated three
times, 200 µs apart, and then answered SMB_ROPE; a relay frame for another device goes on toward it. -/
def RelaysAndCompletions : Prop :=
  ∀ (s : State),
    (∀ (slot : Byte) (h rb : BitVec 256), s.board.smb.pending = some (6, slot :: leBytes h.toNat 32) →
      Done (.smbusCommandComplete rb) s (fun t => t.board.smb = ⟨none, some (if h = rb then 0 else 7, [])⟩ ∧
        t.fuses.slots = s.fuses.slots.set slot.toNat rb ∧ t.fuses.slotUsed = s.fuses.slotUsed.set slot.toNat true ∧
        Frame s t noReg)) ∧
    (∀ (src dst : BitVec 4) (seq : Byte) (w : BitVec 16), let d := s.toward src.toNat
      SmbReady s → dst.toNat = s.pos → s.rd (linkFld d) = 1 → s.rd F.ROPE_STATUS_LONG = 0 → 300 ≤ w.toNat → w.toNat ≤ 1200 →
      Done (.relayReq true src dst seq (12 :: leBytes w.toNat 2)) s (fun t => t.rd F.PWR_THERM_LIMIT_W = w.toNat ∧
        t.out = List.append s.out [.rope d 6 src.toNat s.pos seq.toNat [0]] ∧ Frame s t (oneReg .PWR_THERM 0 0))) ∧
    (∀ (src dst : BitVec 4) (seq : Byte) (l : List Byte), l.length ≤ 64 → dst.toNat ≠ s.pos → dst.toNat ≠ 15 →
      let d := s.toward dst.toNat
      s.rd (linkFld d) = 1 → s.rd F.ROPE_STATUS_LONG = 0 →
      Done (.relayReq true src dst seq l) s (fun t =>
        t.out = List.append s.out [.rope d 5 dst.toNat src.toNat seq.toNat l] ∧ Frame s t noReg) ∧
      Done (.relayRsp true src dst seq l) s (fun t =>
        t.out = List.append s.out [.rope d 6 dst.toNat src.toNat seq.toNat l] ∧ Frame s t noReg)) ∧
    (∀ (src dst : BitVec 4) (seq st : Byte) (l : List Byte) (r : RelayX), s.board.relay = some r →
      (s.hasPos = true → dst.toNat = s.pos → r.seq = seq.toNat → l.length < 64 →
        Done (.relayRsp true src dst seq (st :: l)) s (fun t => t.board.relay = none ∧ Replied s t st.toNat l noReg)) ∧
      (s.time < r.sentAt + milli / 5 → Done .relayRetry s (fun t => t = s)) ∧
      (r.sentAt + milli / 5 ≤ s.time → r.repeats < 3 → Done .relayRetry s (fun t =>
        t.board.relay = some { r with repeats := r.repeats + 1, sentAt := s.time } ∧
        t.ctr C.ROPE_CNT_RETRY = (s.ctr C.ROPE_CNT_RETRY + 1) % 2 ^ 48 ∧ Frame s t noReg)) ∧
      (r.sentAt + milli / 5 ≤ s.time → 3 ≤ r.repeats → Done .relayRetry s (fun t => t.board.relay = none ∧ Replied s t 9 [] noReg)))

/-- The state of domain i of a word of domain states. -/
def domAt (s : State) (r : RegName × Nat) (i : Nat) : Nat := (s.word r.1 0 r.2).toNat / 4 ^ i % 4

/-- Bivouac (R35, R469 to R472, Tables 17-8 and 17-9): AUTO_MS without a host raises an entry request; the boundary refuses it, or takes
every domain that was ON or on its way there to RETAIN and leaves the others; entry complete, a wake event that came
meanwhile counts at once; at the boundary after a wake event those domains begin to switch ON, for 8,192 c; a wake complete,
once they are ON, sets the alert cause and counts the pitches slept. -/
def Obligations.BivouacComesAndGoes : Prop :=
  ∀ (s : State),
    (s.rd F.PWR_BIVOUAC_AUTO_MS ≠ 0 → s.board.lastHost + s.rd F.PWR_BIVOUAC_AUTO_MS * milli ≤ s.time →
      Done .bivouacAutoEntry s (fun t => t.rd F.PWR_BIVOUAC_ENTER = 1 ∧ Frame s t (oneReg .PWR_BIVOUAC 0 0))) ∧
    (s.rd F.PWR_BIVOUAC_ENTER ≠ 0 → let t := s.judgeEntry
      t.rd F.PWR_BIVOUAC_ENTER = 0 ∧ SameMem s t ∧ t.sites = s.sites ∧
      (s.mayEnter = true → t.rd F.PWR_BIVOUAC_STATE = 1 ∧ t.rd F.PWR_BIVOUAC_STATUS = 1 ∧ t.hut.switching = [] ∧
        (∀ r ∈ domainRegs, ∀ i, i < 32 → domAt t r i = if domAt s r i = 0 ∨ domAt s r i = 3 then 1 else domAt s r i) ∧
        SameRegs s t (fun r c i => oneReg .PWR_BIVOUAC 0 0 r c i ∨ (c = 0 ∧ (r, i) ∈ domainRegs))) ∧
      (s.mayEnter = false → t.rd F.PWR_BIVOUAC_STATUS = 2 ∧ SameRegs s t (oneReg .PWR_BIVOUAC 0 0))) ∧
    (s.rd F.PWR_BIVOUAC_STATE = 1 → s.board.wakeSrc < 8 → Done .bivouacEntryComplete s (fun t =>
      (s.board.wakeSrc = 0 → t.rd F.PWR_BIVOUAC_STATE = 2) ∧
      (s.board.wakeSrc ≠ 0 → t.rd F.PWR_BIVOUAC_STATE = 3 ∧ t.rd F.PWR_BIVOUAC_WAKE_SRC = s.board.wakeSrc) ∧
      t.sites = s.sites ∧ Frame s t (oneReg .PWR_BIVOUAC 0 0))) ∧
    (s.rd F.PWR_BIVOUAC_STATE = 3 → s.board.savedDomains ≠ [] → let t := s.beginWake
      t.board.savedDomains = [] ∧ SameMem s t ∧
      ∀ k a, (k < 2 ∧ a < 256) ∨ (2 ≤ k ∧ k < 6 ∧ ∃ n, n < 64 ∧ a = siteOfTarn n) → s.dom k a = 1 →
        (let was := ({ s with regs := s.board.savedDomains } : State).dom k a
         was = 0 ∨ was = 3) → t.dom k a = 3 ∧ (a, k, s.cycles + 8192) ∈ t.hut.switching) ∧
    (s.rd F.PWR_BIVOUAC_STATE = 3 →
      (s.domainsBack = false → Done .wakeComplete s (fun t => t = s)) ∧
      (s.domainsBack = true → s.gate.wakeBuf = [] → Done .wakeComplete s (fun t => t.rd F.PWR_BIVOUAC_STATE = 0 ∧
        t.board.alerts = s.board.alerts ||| 16 ∧
        t.ctr C.PWR_CNT_BIV_PITCH = (s.ctr C.PWR_CNT_BIV_PITCH + (s.pitch + 2 ^ 48 - s.board.bivSince) % 2 ^ 48) % 2 ^ 48 ∧
        t.sites = s.sites ∧ Frame s t (oneReg .PWR_BIVOUAC 0 0))))

/-! ### The Gate (chapter 16) -/

/-- No stream comes in on a queue pair. -/
def NoStreamOn (s : State) (q : Nat) : Prop := ∀ k, k < 17 → s.receiving k = true → (s.stream k).qp ≠ q

/-- The connection is open for an owner at a protocol, with its start PSN and R_Key answered. -/
def Opened (s t : State) (n owner gver : Nat) : Prop :=
  t.qpOpen n = true ∧ t.rd F.GATE_QP_OWNER 0 n = owner ∧ t.rd F.GATE_QP_GVER 0 n = gver % 4 ∧ t.rd F.GATE_QP_CI 0 n = 0 ∧
  (t.qp n).done = [] ∧ SameMem s t

/-- Discovery and the claim (R434 to R437, R423): a PROBE for this device or for any is answered, and a device without an admin
connection announces itself once a second; the first CLAIM of an
unclaimed device that has a common version and keeps its ranges opens the admin connection and starts the base stream; the
same CLAIM again is answered as before; another is told ELSEWHERE; RELEASE with the nonce, or the expiry of the reconnect
window, frees the admin role. -/
def Obligations.DevicesAreClaimed : Prop :=
  ∀ (s : State), s.rd F.PWR_BIVOUAC_STATE = 0 →
    let tell := fun (t : State) => t = s.sendAnnounce
    (∀ serial, s.linkReady = true → (serial = 0 ∨ serial = s.fuses.serial) → Done (.probe serial) s tell) ∧
    ((s.rd F.CFG_DEV_STATE_STATE = 1 ∨ (s.rd F.CFG_DEV_STATE_STATE = 4 ∧ s.gate.adminQp = none)) →
      (∀ t0, s.gate.announcedAt = some t0 → t0 + 1000 * milli ≤ s.time) →
      Done .announce s (fun t => t.out = s.sendAnnounce.out ∧ t.gate.announcedAt = some s.time ∧ Frame s t noReg)) ∧
    (∀ t0, s.gate.announcedAt = some t0 → s.time < t0 + 1000 * milli → Done .announce s (fun t => t = s)) ∧
    (∀ (c : ClaimBody) (n : Nat),
      let sver := commonVersion c.vers.streamMin.toNat c.vers.streamMax.toNat 3 4
      let win := windowMs (s.rd F.CFG_STRAPS_CLAIM_WIN)
      let ms := if c.deadline.toNat = 0 ∨ win < c.deadline.toNat then win else c.deadline.toNat
      s.rd F.CFG_DEV_STATE_STATE = 1 → (s.gate.claimAck = none ∨ s.gate.nonce ≠ some c.nonce) →
      commonVersion c.vers.gateMin.toNat c.vers.gateMax.toNat 2 3 = 3 → sver ≠ 0 → c.qp.ok = true →
      inAdmin c.qp.ring.toNat c.qp.ringLen = true → s.freeQp = some n → Done (.hostClaim c) s (fun t =>
        Opened s t n 16 3 ∧ t.gate.adminQp = some n ∧ t.gate.nonce = some c.nonce ∧ t.rd F.CFG_DEV_STATE_STATE = 2 ∧
        t.rd F.CFG_CLAIM_DEADLINE_MS = ms ∧ t.receiving 16 = true ∧ t.posE 16 = 0 ∧
        (∃ psn key, t.out = List.append s.out [.claimAck 0 3 sver (0x100000 + n) psn key]) ∧
        SameRegs s t (fun r a i => oneReg .GATE_QP 0 n r a i ∨ oneReg .CFG_CLAIM 0 0 r a i ∨ oneReg .CFG_DEV_STATE 0 0 r a i ∨
          (r ∈ [RegName.CFG_STREAM, .CFG_STREAM_POS, .CFG_STREAM_SYNC] ∧ a = 0 ∧ i = 16)))) ∧
    (∀ (c : ClaimBody),
      (∀ v q psn key, s.gate.claimAck = some (v, q, psn, key) → s.gate.nonce = some c.nonce → Done (.hostClaim c) s (fun t =>
        t.out = List.append s.out [.claimAck 0 3 v q psn key] ∧ t.gate = s.gate ∧ Frame s t noReg)) ∧
      (s.gate.claimAck = none → s.rd F.CFG_DEV_STATE_STATE = 2 → Done (.hostClaim c) s (fun t =>
        t.out = List.append s.out [.claimAck 1 0 0 0 0 0] ∧ t.gate = s.gate ∧ Frame s t noReg))) ∧
    (∀ nonce, s.gate.nonce = some nonce →
      (s.rd F.CFG_DEV_STATE_STATE = 2 → Done (.release nonce) s (fun t => t.rd F.CFG_DEV_STATE_STATE = 1 ∧ t.gate.nonce = none ∧
        t.gate.claimAck = none ∧ SameMem s t)) ∧
      (∀ q, s.rd F.CFG_DEV_STATE_STATE = 4 → s.gate.adminQp = some q → s.rd F.GATE_QP_STATE 0 q ≠ 0 → s.isAdmin q = true →
        NoStreamOn s q → Done (.release nonce) s (fun t => t.gate.nonce = none ∧ t.gate.adminQp = none ∧
          t.rd F.GATE_QP_STATE 0 q = 0 ∧ Frame s t (oneReg .GATE_QP 0 q)))) ∧
    (∀ nonce, s.gate.nonce ≠ some nonce → Done (.release nonce) s (fun t => t = s)) ∧
    (∀ t0, s.gate.adminLostAt = some t0 → s.gate.adminQp = none → s.rd F.CFG_DEV_STATE_STATE ≠ 2 →
      t0 + s.claimWindow ≤ s.time → Done .adminReconnectExpiry s (fun t => t.gate.nonce = none ∧ t.gate.claimAck = none ∧
        Frame s t noReg))

/-- CONNECT and DISCONNECT (R436, R437, R440): a tenant's CONNECT with its token, common versions, a ring in its grants and a free queue
pair within its limit opens a connection; one whose token differs is DENIED and counted; the admin reconnects with its nonce
within the window; DISCONNECT closes its queue pair, and before READY of a claim loses the claim. -/
def Obligations.ConnectionsOfHosts : Prop :=
  ∀ (s : State) (c : ConnectBody), s.rd F.PWR_BIVOUAC_STATE = 0 → s.linkReady = true →
    let tn := c.tenant.toNat
    let gver := commonVersion c.vers.gateMin.toNat c.vers.gateMax.toNat 2 3
    let sver := commonVersion c.vers.streamMin.toNat c.vers.streamMax.toNat 3 4
    (∀ p n, tn < 16 → s.rd F.GATE_TENANT_ACTIVE 0 tn = 1 → aget s.gate.tokens tn = some c.token → gver ≠ 0 → sver ≠ 0 →
      c.qp.ok = true → s.partOfTenant tn = some p → s.inGrant p c.qp.ring.toNat c.qp.ringLen = true →
      s.tenantQps tn < s.rd F.GATE_TENANT_MAXQP 0 tn → s.freeQp = some n → Done (.connect c) s (fun t =>
        Opened s t n tn gver ∧ (∃ psn key, t.out = List.append s.out [.connectAck 0 gver sver (0x100000 + n) psn key]) ∧
        SameRegs s t (oneReg .GATE_QP 0 n))) ∧
    (tn < 16 → aget s.gate.tokens tn ≠ some c.token → Done (.connect c) s (fun t =>
      t.out = List.append s.out [.connectAck 3 0 0 0 0 0] ∧
      t.ctr C.GATE_CNT_DENIED = (s.ctr C.GATE_CNT_DENIED + 1) % 2 ^ 48 ∧ t.gate = s.gate ∧ Frame s t noReg)) ∧
    (∀ t0 n, tn = 255 → s.rd F.CFG_DEV_STATE_STATE = 4 → s.gate.adminQp = none → s.gate.nonce = some c.token →
      s.gate.adminLostAt = some t0 → s.time ≤ t0 + s.claimWindow → gver ≠ 0 → sver ≠ 0 → c.qp.ok = true →
      inAdmin c.qp.ring.toNat c.qp.ringLen = true → s.freeQp = some n → Done (.connect c) s (fun t =>
        Opened s t n 16 gver ∧ t.gate.adminQp = some n ∧ t.gate.adminLostAt = none ∧ SameRegs s t (oneReg .GATE_QP 0 n))) ∧
    (∀ (qpn : BitVec 32) (r : Byte) (n : Nat), qpn.toNat = 0x100000 + n → n < 1024 → s.rd F.GATE_QP_STATE 0 n ≠ 0 →
      ((s.isAdmin n = false ∨ s.rd F.CFG_DEV_STATE_STATE ≠ 2) → NoStreamOn s n → Done (.disconnect qpn r) s (fun t =>
        t.rd F.GATE_QP_STATE 0 n = 0 ∧ aget t.gate.qps n = none ∧ t.out = s.out ∧
        (s.isAdmin n = true → t.gate.adminQp = none ∧ t.gate.adminLostAt = some s.time) ∧ Frame s t (oneReg .GATE_QP 0 n))) ∧
      (s.isAdmin n = true → s.rd F.CFG_DEV_STATE_STATE = 2 → Done (.disconnect qpn r) s (fun t =>
        t.rd F.CFG_DEV_STATE_STATE = 1 ∧ t.gate.nonce = none ∧ t.gate.claimAck = none ∧ SameMem s t)))

/-- RDMA (R431, R441, R442, R444): a WRITE with the connection's R_Key to permitted memory that is served stands there and changes
nothing else; a READ answers the bytes; at a poisoned word it answers NAK and a commit point of kind 2 is recorded; without
the key or the right the queue pair is in error and NAK and the count say so; other operations are NAKed, and other SENDs
counted. -/
def Obligations.RdmaReachesPermittedMemory : Prop :=
  ∀ (s : State) (n : QpNo) (k : BitVec 32) (a : BitVec 64), s.rd F.PWR_BIVOUAC_STATE = 0 → s.qpOpen n.toNat = true →
    let q := n.toNat
    let x := a.toNat
    let error := fun (t : State) => .nak q 1 ∈ t.out ∧ t.rd F.GATE_QP_STATE 0 q = 2 ∧
      t.ctr C.GATE_CNT_ACCESS_NAK = (s.ctr C.GATE_CNT_ACCESS_NAK + 1) % 2 ^ 48 ∧ Frame s t (oneReg .GATE_QP 0 q)
    (∀ data, k = (s.qp q).rkey → s.memPermitted q x data.length = true → mcanon 0 s.mem = true → mcanon 0 s.poison = true →
      mcanon 0 s.synd = true → (∀ w ∈ wordsOf x data.length, s.extServe (8 * w) = 0) → Done (.rdmaWrite n k a data) s (fun t =>
        (∀ i (h : i < data.length), t.byte (x + i) = data[i]) ∧
        (∀ z, z < x ∨ x + data.length ≤ z → (z / 8 ∉ wordsOf x data.length ∨ mget 0 s.synd (z / 8) = 0) → t.byte z = s.byte z) ∧
        (∀ w, x ≤ 8 * w → 8 * w + 8 ≤ x + data.length → t.pois w = 0) ∧
        (∀ w, w ∉ wordsOf x data.length → t.pois w = s.pois w) ∧
        t.ctr C.GATE_CNT_RXBYTES = (s.ctr C.GATE_CNT_RXBYTES + data.length) % 2 ^ 48 ∧ SameRegs s t noReg)) ∧
    (∀ data, (k ≠ (s.qp q).rkey ∨ s.memPermitted q x data.length = false) → Done (.rdmaWrite n k a data) s error) ∧
    (∀ len : BitVec 32, (k ≠ (s.qp q).rkey ∨ s.memPermitted q x len.toNat = false) → Done (.rdmaRead n k a len) s error) ∧
    (∀ len : BitVec 32, k = (s.qp q).rkey → s.memPermitted q x len.toNat = true → 0 < len.toNat → s.memc.delivered = none →
      (∀ w ∈ wordsOf x len.toNat, s.extServe (8 * w) = 0 ∧ s.frameClean (w / 32) = true) →
      ((∀ w ∈ wordsOf x len.toNat, s.pois w = 0) → Done (.rdmaRead n k a len) s (fun t =>
        t.out = List.append s.out [.readData q (s.bytes x len.toNat)] ∧
        t.ctr C.GATE_CNT_TXBYTES = (s.ctr C.GATE_CNT_TXBYTES + len.toNat) % 2 ^ 48 ∧ Frame s t noReg)) ∧
      (s.pois (x / 8) ≠ 0 → Done (.rdmaRead n k a len) s (fun t => .nak q 3 ∈ t.out ∧
        (∀ p, s.partOfQp q = some p → t.rd F.HUT_POISON_KIND 0 p = 2 ∧ t.rd F.HUT_POISON_ADDR 0 p = 8 * (x / 8) % 2 ^ 48 ∧
          SameRegs s t (oneReg .HUT_POISON 0 p)) ∧ SameMem s t))) ∧
    Done (.unsupportedOperation n) s (fun t => t.out = List.append s.out [.nak q 2] ∧ Frame s t noReg) ∧
    (∀ imm : BitVec 32, imm.toNat / 2 ^ 24 ≠ 1 → imm.toNat / 2 ^ 24 ≠ 2 → Done (.otherImmediateSend n imm) s (fun t =>
      t.ctr C.GATE_CNT_RXDROP = (s.ctr C.GATE_CNT_RXDROP + 1) % 2 ^ 48 ∧ Frame s t noReg))

/-- Doorbells, stream bytes and completions (R444 to R446, R471): a doorbell hands each new ring entry to the mailbox as its 64 bytes
spell it, or completes it BUSY when the mailbox is full, and moves CI; one past the ring loses the connection; stream bytes
move offset E on; the record of the next entry in ring order is written once there is room; in Bivouac a packet waits in
order and wakes the device. -/
def Obligations.DoorbellsHandCommandsOver : Prop :=
  ∀ (s : State) (n : QpNo), s.qpOpen n.toNat = true →
    let q := n.toNat
    let x := s.qp q
    let ci := s.rd F.GATE_QP_CI 0 q
    let qp := oneReg .GATE_QP 0 q
    (∀ (pi cq : BitVec 32), s.rd F.PWR_BIVOUAC_STATE = 0 →
      let addr := x.ringAddr + 64 * (ci % 2 ^ x.ringLog2)
      let l := s.bytes addr 64
      (pi.toNat = (ci + 1) % 2 ^ 32 → addr % 8 = 0 → s.memc.delivered = none →
        (∀ w ∈ wordsOf addr 64, s.extServe (8 * w) = 0 ∧ s.frameClean (w / 32) = true) →
        (s.hut.mailbox.length < 64 → Done (.doorbell n pi cq) s (fun t => t.rd F.GATE_QP_CI 0 q = pi.toNat ∧
          (t.qp q).cqci = cq.toNat ∧ t.hut.mailbox = List.append s.hut.mailbox
            [(⟨n, BitVec.ofNat 32 ci, leVec 32 ((l.drop 4).take 4), (l.getD 1 0).getLsbD 0⟩, parseEntry l)] ∧ Frame s t qp)) ∧
        (64 ≤ s.hut.mailbox.length → Done (.doorbell n pi cq) s (fun t => t.rd F.GATE_QP_CI 0 q = pi.toNat ∧
          t.hut.mailbox = s.hut.mailbox ∧ t.ctr C.GATE_CNT_BUSY = (s.ctr C.GATE_CNT_BUSY + 1) % 2 ^ 48 ∧
          (∃ c : Completion, (t.qp q).done = List.append x.done [c] ∧ c.cls = 3 ∧ c.code = 1 ∧ c.idx = ci) ∧ Frame s t qp))) ∧
      (2 ^ x.ringLog2 < (pi.toNat + 2 ^ 32 - ci) % 2 ^ 32 → NoStreamOn s q →
        (s.isAdmin q = false ∨ s.rd F.CFG_DEV_STATE_STATE ≠ 2) → Done (.doorbell n pi cq) s (fun t =>
          t.rd F.GATE_QP_STATE 0 q = 0 ∧ t.out = List.append s.out [.disconnect q 1] ∧ Frame s t qp))) ∧
    (∀ (len : BitVec 16), s.rd F.PWR_BIVOUAC_STATE = 0 →
      (∀ k, k < 17 → (∀ j, j < 17 → (s.takesBytes j = true ∧ (s.stream j).multicast = false ∧ (s.stream j).qp = q ↔ j = k)) →
        s.baseAgain k = false → (∀ h, (s.stream k).hdr = some h → h.flags.getLsbD 0 = false ∨ (s.stream k).key.isSome = true) →
        Done (.streamBytes n len) s (fun t => t.posE k = (s.posE k + len.toNat) % 2 ^ 48 ∧
          t.ctr C.CFG_CNT_STREAM_BYTES = (s.ctr C.CFG_CNT_STREAM_BYTES + len.toNat) % 2 ^ 48 ∧
          Frame s t (oneReg .CFG_STREAM_POS 0 k))) ∧
      ((∀ j, j < 17 → ¬ (s.takesBytes j = true ∧ (s.stream j).multicast = false ∧ (s.stream j).qp = q)) →
        Done (.streamBytes n len) s (fun t => t.ctr C.GATE_CNT_RXDROP = (s.ctr C.GATE_CNT_RXDROP + 1) % 2 ^ 48 ∧
          Frame s t noReg))) ∧
    (∀ c, let i := x.nextCq
      (i + 2 ^ 32 - x.cqci) % 2 ^ 32 < 2 ^ x.cqLog2 → x.done.find? (fun c => c.idx == i) = some c →
      Done (.completionWrite n) s (fun t =>
        t.out = List.append s.out (.completion q (i % 2 ^ x.cqLog2) (i / 2 ^ x.cqLog2 % 2 == 0) c ::
          (if c.notify then [.notification q i] else [])) ∧
        (t.qp q).nextCq = (i + 1) % 2 ^ 32 ∧ (∀ d ∈ (t.qp q).done, d.idx ≠ i) ∧ Frame s t noReg)) ∧
    (∀ (pi cq : BitVec 32), s.rd F.PWR_BIVOUAC_STATE = 2 → s.gate.wakeBytes + 8 ≤ wakeSize → Done (.doorbell n pi cq) s (fun t =>
      t.gate.wakeBuf = List.append s.gate.wakeBuf [.doorbell n pi cq] ∧ t.rd F.PWR_BIVOUAC_STATE = 3 ∧
      t.rd F.PWR_BIVOUAC_WAKE_SRC = 1 ∧ t.hut.mailbox = s.hut.mailbox ∧ Frame s t (oneReg .PWR_BIVOUAC 0 0)))

/-- Congestion and the link and IP layers (R429, R430, R432): a marked packet makes at most one CNP in 50 µs; a CNP halves the send rate
down to 1 Gb/s, and every 50 µs without one raise it by a hundredth of the line
rate; an expired acknowledgement is retransmitted
seven times and then puts the queue pair in error; PAUSE and PFC act when enabled; ARP, NDP and echo are answered; a
fragment is dropped and counted; DHCP gives the address. -/
def Obligations.CongestionAndLinkLayers : Prop :=
  ∀ (s : State) (n : QpNo), s.rd F.PWR_BIVOUAC_STATE = 0 →
    let q := n.toNat
    let x := s.qp q
    let same := fun (t : State) => Frame s t noReg
    (s.qpOpen q = true →
      ((x.lastCnp = 0 ∨ x.lastCnp - 1 + 1500000 ≤ s.time) → Done (.ceMarkedPacket n) s (fun t =>
        t.out = List.append s.out [.cnp q] ∧ (t.qp q).lastCnp = s.time + 1 ∧ same t)) ∧
      (0 < x.lastCnp → s.time < x.lastCnp - 1 + 1500000 → Done (.ceMarkedPacket n) s (fun t => t = s)) ∧
      Done (.cnp n) s (fun t => (t.qp q).rate = max 1000000000 (x.rate / 2) ∧ (t.qp q).rateAt = s.time ∧
        t.ctr C.GATE_CNT_CNP = (s.ctr C.GATE_CNT_CNP + 1) % 2 ^ 48 ∧ same t) ∧
      (x.rateAt + cnpGap ≤ s.time → Done (.rateRecovery n) s (fun t =>
        (t.qp q).rate = min s.lineRate (x.rate + s.lineRate / 100) ∧ (t.qp q).rateAt = s.time ∧ same t)) ∧
      (s.time < x.rateAt + cnpGap → Done (.rateRecovery n) s (fun t => t = s)) ∧
      (x.retries < 7 → Done (.ackTimeout n) s (fun t => (t.qp q).retries = x.retries + 1 ∧
        t.out = List.append s.out [.retransmit q] ∧ same t)) ∧
      (7 ≤ x.retries → Done (.ackTimeout n) s (fun t => t.rd F.GATE_QP_STATE 0 q = 2 ∧ Frame s t (oneReg .GATE_QP 0 q)))) ∧
    (∀ v : BitVec 16,
      (s.rd F.GATE_NET_CFG_PAUSE_EN = 1 → Done (.pause v) s (fun t => t.gate.paused = v.toNat ∧ same t)) ∧
      (s.rd F.GATE_NET_CFG_PAUSE_EN = 0 → Done (.pause v) s (fun t => t = s)) ∧
      (∀ prio : BitVec 3,
        (s.rd F.GATE_NET_CFG_PFC_EN = 1 → prio.toNat = s.rd F.GATE_NET_CFG_PCP → Done (.pfc prio v) s (fun t =>
          t.gate.pfcPaused = v.toNat ∧ same t)) ∧
        ((s.rd F.GATE_NET_CFG_PFC_EN = 0 ∨ prio.toNat ≠ s.rd F.GATE_NET_CFG_PCP) → Done (.pfc prio v) s (fun t => t = s)))) ∧
    (s.linkReady = true → s.gate.ip.isSome = true →
      Done .arp s (fun t => t.out = List.append s.out [.arpReply] ∧ same t) ∧
      Done .ndp s (fun t => t.out = List.append s.out [.ndpReply] ∧ same t) ∧
      Done .icmpEcho s (fun t => t.out = List.append s.out [.echoReply] ∧ same t)) ∧
    Done .ipFragment s (fun t => t.ctr C.GATE_CNT_RXDROP = (s.ctr C.GATE_CNT_RXDROP + 1) % 2 ^ 48 ∧ same t) ∧
    (∀ addr, s.gate.dhcp = true → Done (.dhcpReply addr) s (fun t => t.gate.ip = some addr ∧ same t))

/-! ### Registers (chapters 00, 16 and 18) -/

/-- The command's completion waits, with a class, a code, RESULT and DETAIL, behind those of its queue pair (R446, Table 16-7). -/
def Completed (s t : State) (c : Ctx) (op cls code res det : Nat) : Prop :=
  (t.qp c.qp.toNat).done = List.append (s.qp c.qp.toNat).done
    [⟨c.idx.toNat, c.tag, op, cls, code, s.pitch % 2 ^ 32, res, det, c.notify⟩]

/-- A register was written under a mask (R7): an RW field whose new value it takes has the masked bits and keeps the others, and one
that does not take it stays; W1C and W1S fields lose or gain the masked bits that are 1, but an event of the same cycle keeps a W1C
field set; every other field, and every field outside the mask, stays. -/
def FieldsWritten (s t : State) (r : RegName) (a i : Nat) (v m : Word) : Prop :=
  ∀ f ∈ r.fields,
    let old := s.word r a i
    let new := fieldGet f ((old &&& ~~~m) ||| (v &&& m))
    (f.masked m = true →
      (f.acc = .rw → s.fieldTakes f a i new = true → t.rd f a i = new) ∧
      (f.acc = .rw → s.fieldTakes f a i new = false → t.rd f a i = s.rd f a i) ∧
      (f.acc = .w1c → t.rd f a i = max (fieldGet f (old &&& ~~~(v &&& m))) (s.eventBits f a i)) ∧
      (f.acc = .w1s → t.rd f a i = fieldGet f (old ||| (v &&& m)))) ∧
    (f.masked m = false ∨ f.acc = .ro ∨ f.acc = .rc → t.rd f a i = s.rd f a i)

/-- Registers whose writes have a meaning of their own. -/
def ownWrite : List RegName := [.STR_DESC, .TRN_THR, .SEQ_STEER, .VEC_SR_SEED, .COL_PITCH_CTRL, .PWR_DOMAIN_CMD, .CFG_SCRUB_CTRL]

/-- REG_READ and the reads that clear (R7, R443, R480 to R483): the value answered is the register's word, with its RC fields then 0
(an event of the same cycle is not in what it returns and is kept), or the counter's value; without the right the answer is PART_DENIED, off the register space BAD_COMMAND, and nothing
changes. -/
def Obligations.RegistersAreRead : Prop :=
  ∀ (s : State),
    (∀ (c : Ctx) (x : BitVec 64), s.rd F.GATE_QP_STATE 0 c.qp.toNat ≠ 0 →
      let w := s.who c.qp.toNat
      (∀ r a i, regCmdAddr x.toNat = true → s.mayReadAt w x.toNat = true → regAt x.toNat = .reg r a i →
        (aget s.evs ⟨r, a, i⟩ = none → Done (.regRead c x) s (fun t => Completed s t c 8 0 0 (s.look r a i).toNat 0 ∧
          (∀ f ∈ r.fields, f.acc = .rc → t.rd f a i = 0) ∧ (∀ f ∈ r.fields, f.acc ≠ .rc → t.rd f a i = s.rd f a i) ∧
          Frame s t (oneReg r a i))) ∧
        (∀ before after, aget s.evs ⟨r, a, i⟩ = some (before, after) → (∃ f ∈ r.fields, f.acc = .rc) →
          Done (.regRead c x) s (fun t => Completed s t c 8 0 0 ((s.setWord r a i before).look r a i).toNat 0 ∧
            t.word r a i = after ∧ Frame s t (oneReg r a i)))) ∧
      (∀ site live snap, regCmdAddr x.toNat = true → s.mayReadAt w x.toNat = true → regAt x.toNat = .counter site live snap →
        Done (.regRead c x) s (fun t =>
          Completed s t c 8 0 0 ((aget (if snap then s.snaps else s.counters) live).getD 0 % 2 ^ 64) 0 ∧ Frame s t noReg)) ∧
      (regCmdAddr x.toNat = true → s.mayReadAt w x.toNat = false → Done (.regRead c x) s (fun t =>
        Completed s t c 8 3 6 0 0 ∧ Frame s t noReg)) ∧
      (regCmdAddr x.toNat = false → Done (.regRead c x) s (fun t => Completed s t c 8 3 2 0 0 ∧ Frame s t noReg))) ∧
    (∀ (w : Who) (site : SiteId) (p : PartNo),
      let clears := fun (c : Instr) (f : Fld) (a i : Nat) =>
        (s.mayRead w f.reg a i = true → aget s.evs ⟨f.reg, a, i⟩ = none → Done c s (fun t => t.rd f a i = 0 ∧
          (∀ g ∈ f.reg.fields, g ≠ f → t.rd g a i = s.rd g a i) ∧ Frame s t (oneReg f.reg a i))) ∧
        (∀ before after, s.mayRead w f.reg a i = true → aget s.evs ⟨f.reg, a, i⟩ = some (before, after) → Done c s (fun t =>
          t.word f.reg a i = after ∧ Frame s t (oneReg f.reg a i))) ∧
        (s.mayRead w f.reg a i = false → Done c s (fun t => t = s))
      (isSpur site.toNat = true → clears (.chkLogRead w site) F.CHK_LOG_KIND site.toNat 0) ∧
      clears (.memErrLogRead w) F.MEM_ERR_LOG_KIND 0 0 ∧ clears (.loadRefusalRead w p) F.HUT_LOAD_REFUSAL_VALID 0 p.toNat ∧
      clears (.poisonLogRead w p) F.HUT_POISON_KIND 0 p.toNat ∧ clears (.eccLogRead w site) F.CHK_ECC_LOG_MEM site.toNat 0)

/-- REG_WRITE, REGISTER_WRITE and REG_WRITE_LIST (R4, R7, R438, R443, R480): a write by right changes each field by its access code and
nothing else; without the right it is PART_DENIED, and for an expert field without expert access EXPERT_DENIED; a list stops
at its first record that fails, whose index is RESULT; a mask that names nothing writable changes nothing; a list on a connection at protocol 2 is VERSION_OP. -/
def Obligations.RegistersAreWritten : Prop :=
  ∀ (s : State),
    let plain := fun (w : Who) (r : RegName) (a i : Nat) (m : Word) => s.mayWrite w r a i = true ∧
      (namesExpert r m = false ∨ s.expert w = true) ∧ (lockedRunning r = false ∨ s.running a = false) ∧
      r ∉ ownWrite ∧ actsOn r m = true
    (∀ (c : Ctx) (x v m : BitVec 64) (r : RegName) (a i : Nat), s.rd F.GATE_QP_STATE 0 c.qp.toNat ≠ 0 →
      regCmdAddr x.toNat = true → regAt x.toNat = .reg r a i →
      let w := s.who c.qp.toNat
      (plain w r a i m → Done (.regWrite c x v m) s (fun t => FieldsWritten s t r a i v m ∧ Completed s t c 9 0 0 0 0 ∧
        Frame s t (oneReg r a i))) ∧
      (s.mayWrite w r a i = false → Done (.regWrite c x v m) s (fun t => Completed s t c 9 3 6 0 0 ∧ Frame s t noReg)) ∧
      (s.mayWrite w r a i = true → namesExpert r m = true → s.expert w = false → Done (.regWrite c x v m) s (fun t =>
        Completed s t c 9 3 5 0 0 ∧ Frame s t noReg)) ∧
      (s.mayWrite w r a i = true → (namesExpert r m = false ∨ s.expert w = true) →
        (actsOn r m = false ∨ (lockedRunning r = true ∧ s.running a = true)) → Done (.regWrite c x v m) s (fun t =>
          Completed s t c 9 0 0 0 0 ∧ Frame s t noReg))) ∧
    (∀ (w : Who) (x : BitVec 48) (v m : Word) (r : RegName) (a i : Nat), regCmdAddr x.toNat = true → regAt x.toNat = .reg r a i →
      (plain w r a i m → Done (.registerWrite w x v m) s (fun t => FieldsWritten s t r a i v m ∧ Frame s t (oneReg r a i))) ∧
      ((s.mayWrite w r a i = false ∨ (namesExpert r m = true ∧ s.expert w = false)) →
        Done (.registerWrite w x v m) s (fun t => t = s))) ∧
    (∀ (c : Ctx) (l : BitVec 64) (n : BitVec 16), s.rd F.GATE_QP_STATE 0 c.qp.toNat ≠ 0 →
      let w := s.who c.qp.toNat
      let y := (s.word64 l.toNat).toNat
      let v := s.word64 (l.toNat + 8)
      (s.rd F.GATE_QP_GVER 0 c.qp.toNat = 2 → Done (.regWriteList c l n) s (fun t => Completed s t c 10 3 3 0 0 ∧
        Frame s t noReg)) ∧
      (s.rd F.GATE_QP_GVER 0 c.qp.toNat ≠ 2 → l.toNat % 8 = 0 → 1 ≤ n.toNat → n.toNat ≤ 4096 →
        s.memPermitted c.qp.toNat l.toNat (16 * n.toNat) = true →
        s.memc.delivered = none →
        (∀ k, k < 2 * n.toNat → s.extServe (l.toNat + 8 * k) = 0 ∧ s.frameClean (stripeOf (l.toNat + 8 * k)) = true) →
        regCmdAddr y = true →
        (∀ r a i, n.toNat = 1 → regAt y = .reg r a i → plain w r a i (BitVec.allOnes 64) → Done (.regWriteList c l n) s (fun t =>
          FieldsWritten s t r a i v (BitVec.allOnes 64) ∧ Completed s t c 10 0 0 0 0 ∧ Frame s t (oneReg r a i))) ∧
        (∀ r a i, regAt y = .reg r a i → s.mayWrite w r a i = false → Done (.regWriteList c l n) s (fun t =>
          Completed s t c 10 3 6 0 0 ∧ Frame s t noReg)) ∧
        (∀ r a i, 2 ≤ n.toNat → regAt y = .reg r a i → plain w r a i (BitVec.allOnes 64) →
          regCmdAddr (s.word64 (l.toNat + 16)).toNat = false → Done (.regWriteList c l n) s (fun t =>
            FieldsWritten s t r a i v (BitVec.allOnes 64) ∧ Completed s t c 10 3 2 1 0 ∧ Frame s t (oneReg r a i)))))

/-- Writes with a meaning of their own (R27, R39, R59, R172, R362, R469): a pitch length waits for the boundary unless a section is live
or it is out of range; a domain command waits or is DOMAIN_BUSY; a seed waits; a steering unit takes its configuration
unless its section runs or another unit consumes one of its queues; all three copies of the scrubber's fields change; ENTER
is set by the admin alone. -/
def Obligations.WritesWithAMeaning : Prop :=
  ∀ (s : State) (w : Who) (site : SiteId),
    let a := site.toNat
    (∀ v : Word, let n := fieldGet F.COL_PITCH_CTRL_NEW_LOG2 v
      let gives := fun (t : State) (st : Nat) => t.rd F.COL_PITCH_CTRL_STATUS = st ∧
        (fieldGet F.COL_PITCH_CTRL_WRAPPED v = 1 → s.eventBits F.COL_PITCH_CTRL_WRAPPED 0 0 = 0 →
          t.rd F.COL_PITCH_CTRL_WRAPPED = 0) ∧ Frame s t (oneReg .COL_PITCH_CTRL 0 0)
      (s.anyLive = false → (n = 0 ∨ 10 ≤ n) → Done (.colPitchCtrlWrite .admin v) s (fun t => gives t 0 ∧
        t.rd F.COL_PITCH_CTRL_NEW_LOG2 = n ∧ t.rd F.COL_PITCH_CTRL_CHANGE_PEND = 1 ∧ t.lenPend = some n)) ∧
      (s.anyLive = true → Done (.colPitchCtrlWrite .admin v) s (fun t => gives t 1 ∧ t.lenPend = s.lenPend)) ∧
      (s.anyLive = false → 1 ≤ n → n < 10 → Done (.colPitchCtrlWrite .admin v) s (fun t => gives t 2 ∧ t.lenPend = s.lenPend))) ∧
    (∀ (dom : BitVec 4) (d : DomKind), s.expert w = true → domOfCode dom.toNat a = some d →
      let mine := ∀ p, s.partOf a = some p → s.ownsPart w p = true
      let takes := fun (act : Nat) (t : State) => t.rd F.PWR_DOMAIN_CMD_STATUS = 1 ∧
        t.domPend = List.append s.domPend [(d, a, act)] ∧ Frame s t (oneReg .PWR_DOMAIN_CMD 0 0)
      let busy := fun (t : State) => t.rd F.PWR_DOMAIN_CMD_STATUS = 2 ∧ t.domPend = s.domPend ∧
        Frame s t (oneReg .PWR_DOMAIN_CMD 0 0)
      (s.domUsed d a = false → mine → Done (.domainOn w dom site) s (takes 0)) ∧
      (s.domUsed d a = false → mine → (d ≠ .router ∨ s.routerNeeded a = false) →
        Done (.domainRetain w dom site) s (takes 1) ∧ Done (.domainOff w dom site) s (takes 2)) ∧
      ((s.domUsed d a = true ∨ ¬ mine) → Done (.domainOn w dom site) s busy ∧ Done (.domainRetain w dom site) s busy ∧
        Done (.domainOff w dom site) s busy) ∧
      (d = .router → s.routerNeeded a = true → Done (.domainRetain w dom site) s busy ∧ Done (.domainOff w dom site) s busy)) ∧
    (∀ v : Word, isSpur a = true → s.ownsSite w a = true → Done (.srSeedWrite w site v) s (fun t =>
      aget t.seedNext a = some v ∧ Frame s t noReg)) ∧
    (∀ (n : BitVec 3) (v : Word), s.ownsSite w a = true → s.expert w = true →
      let i := n.toNat
      let reg := oneReg .SEQ_STEER a i
      let clash := ∃ k, k < 8 ∧ k ≠ i ∧ ∃ q ∈ steerTakes (s.word .SEQ_STEER a k), q ∈ steerTakes v
      (s.running a = true → Done (.steerConfigWrite w site n v) s (fun t => t.rd F.SEQ_STEER_STATUS a i = 2 ∧
        t.rd F.SEQ_STEER_MODE a i = s.rd F.SEQ_STEER_MODE a i ∧ Frame s t reg)) ∧
      (s.running a = false → clash → Done (.steerConfigWrite w site n v) s (fun t => t.rd F.SEQ_STEER_STATUS a i = 1 ∧
        t.rd F.SEQ_STEER_MODE a i = s.rd F.SEQ_STEER_MODE a i ∧ Frame s t reg)) ∧
      (s.running a = false → ¬ clash → Done (.steerConfigWrite w site n v) s (fun t => t.rd F.SEQ_STEER_STATUS a i = 0 ∧
        (∀ f ∈ RegName.SEQ_STEER.fields, f.acc = .rw → t.rd f a i = fieldGet f v) ∧ Frame s t reg))) ∧
    (∀ v : Word, let e := fieldGet F.CFG_SCRUB_CTRL_EN v == 1
      let r := fieldGet F.CFG_SCRUB_CTRL_RATE v
      Done (.scrubCtrlWrite .admin v) s (fun t => t.cfg.scrubEn = [e, e, e] ∧
        t.cfg.scrubRate = (if 1 ≤ r ∧ r ≤ 8 then [r, r, r] else s.cfg.scrubRate) ∧ Frame s t noReg)) ∧
    Done (.bivouacEnterWrite .admin) s (fun t => t.rd F.PWR_BIVOUAC_ENTER = 1 ∧ Frame s t (oneReg .PWR_BIVOUAC 0 0)) ∧
    (∀ tn, Done (.bivouacEnterWrite (.tenant tn)) s (fun t => t = s))

/-! ### Host commands (chapters 11, 12 and 16) -/

/-- COMMAND_DISPATCH and TENANT_CREATE, TENANT_REMOVE (R317, R338, R438, R439, R446): the first command of the mailbox runs as the command
itself would; an undefined entry is BAD_COMMAND; the admin creates a tenant with its token, limit and access, its accounting
counters and their snapshots at 0, and removes one that holds no partition with its connections; a tenant's attempt is ADMIN_ONLY. -/
def Obligations.MailboxAndTenants : Prop :=
  ∀ (s : State) (c : Ctx), s.rd F.GATE_QP_STATE 0 c.qp.toNat ≠ 0 →
    let q := c.qp.toNat
    (∀ k l, s.hut.mailbox = (c, k) :: l →
      let u := (s.modHut (fun h => { h with mailbox := l })).modBoard (fun b => { b with lastHost := s.time })
      (∀ o, k = .load o → exec .commandDispatch s = exec (.load c o) u) ∧
      (∀ o, k = .run o → exec .commandDispatch s = exec (.run c o) u) ∧
      (∀ e p r, k = .resume e p r → exec .commandDispatch s = exec (.resume c e p r) u) ∧
      (∀ o, k = .digestNow o → exec .commandDispatch s = exec (.digestNow c o) u) ∧
      (∀ a v m, k = .regWrite a v m → exec .commandDispatch s = exec (.regWrite c a v m) u) ∧
      (∀ o, k = .grant o → exec .commandDispatch s = exec (.grant c o) u) ∧
      (∀ op, k = .bad op → Done .commandDispatch s (fun t => Completed s t c op.toNat 3 2 0 0 ∧ t.hut.mailbox = l ∧
        Frame s t noReg))) ∧
    (∀ (tn : Byte) (ex : Bool) (maxqp : BitVec 16) (token : BitVec 64), let i := tn.toNat
      (s.isAdmin q = true → s.rd F.GATE_QP_GVER 0 q ≠ 2 → i ≤ 15 → s.rd F.GATE_TENANT_ACTIVE 0 i = 0 →
        s.allQps + maxqp.toNat + 1 ≤ 1024 → Done (.tenantCreate c tn ex maxqp token) s (fun t =>
          t.rd F.GATE_TENANT_ACTIVE 0 i = 1 ∧ t.rd F.GATE_TENANT_EXPERT 0 i = ex.toNat ∧
          t.rd F.GATE_TENANT_MAXQP 0 i = maxqp.toNat ∧ aget t.gate.tokens i = some token ∧
          (∀ k ∈ acctCounters, t.ctr k i = 0 ∧ aget t.snaps (k.address i) = some 0) ∧ Completed s t c 16 0 0 0 0 ∧ Frame s t (oneReg .GATE_TENANT 0 i))) ∧
      (s.isAdmin q = true → s.rd F.GATE_QP_GVER 0 q ≠ 2 → i ≤ 15 → s.rd F.GATE_TENANT_ACTIVE 0 i = 1 →
        Done (.tenantCreate c tn ex maxqp token) s (fun t => Completed s t c 16 3 11 0 0 ∧ Frame s t noReg) ∧
        (s.tenantHolds i = true → Done (.tenantRemove c tn) s (fun t => Completed s t c 17 3 11 0 0 ∧ Frame s t noReg)) ∧
        (s.tenantHolds i = false → (∀ k, k < 17 → s.receiving k = false) → Done (.tenantRemove c tn) s (fun t =>
          t.rd F.GATE_TENANT_ACTIVE 0 i = 0 ∧ aget t.gate.tokens i = none ∧
          (∀ n, n < 1024 → s.rd F.GATE_QP_OWNER 0 n = i → t.rd F.GATE_QP_STATE 0 n = 0) ∧
          (∀ n, n < 1024 → s.rd F.GATE_QP_OWNER 0 n ≠ i → t.word .GATE_QP 0 n = s.word .GATE_QP 0 n) ∧
          Completed s t c 17 0 0 0 0 ∧ SameMem s t))) ∧
      (s.isAdmin q = false → Done (.tenantCreate c tn ex maxqp token) s (fun t => Completed s t c 16 3 4 0 0 ∧ Frame s t noReg) ∧
        Done (.tenantRemove c tn) s (fun t => Completed s t c 17 3 4 0 0 ∧ Frame s t noReg)) ∧
      (s.isAdmin q = true → s.rd F.GATE_QP_GVER 0 q = 2 → Done (.tenantCreate c tn ex maxqp token) s (fun t =>
        Completed s t c 16 3 3 0 0 ∧ Frame s t noReg)))

/-- PART_CREATE, PART_REMOVE and GRANT (R317, R318, R320, R321): each waits for the boundary when it is in order, with its status 4, or
with ZEROING where a granule was last another tenant's, which stays while any grant of that partition and group is zeroed; no
grant is made before step MEMORY has ended (R280); otherwise its register shows why, and the command completes with the
reason. -/
def Obligations.PartitionsAndGrants : Prop :=
  ∀ (s : State) (c : Ctx), s.rd F.GATE_QP_STATE 0 c.qp.toNat ≠ 0 → s.isAdmin c.qp.toNat = true →
    s.rd F.GATE_QP_GVER 0 c.qp.toNat ≠ 2 →
    (∀ o : PartOps, let p := o.p.toNat
      p ≤ 15 → o.tenant.toNat ≤ 15 → s.rd F.GATE_TENANT_ACTIVE 0 o.tenant.toNat = 1 → s.tenantHolds o.tenant.toNat = false →
      (s.partRefusal o = none → Done (.partCreate c o) s (fun t => t.rd F.HUT_PART_STATUS 0 p = 4 ∧
        t.hut.parts = List.append s.hut.parts [.create o c] ∧ t.gate = s.gate ∧ Frame s t (oneReg .HUT_PART 0 p))) ∧
      (∀ st code, s.partRefusal o = some (st, code) → Done (.partCreate c o) s (fun t => t.rd F.HUT_PART_STATUS 0 p = st ∧
        t.hut.parts = s.hut.parts ∧ Completed s t c 18 3 code 0 0 ∧ Frame s t (oneReg .HUT_PART 0 p)))) ∧
    (∀ p : Byte, p.toNat ≤ 15 → s.rd F.HUT_PART_ACTIVE 0 p.toNat = 1 →
      let busy := ((aget s.hut.wanan p.toNat).map WananX.busy).getD false
      (s.openSects p.toNat = [] → busy = false → Done (.partRemove c p) s (fun t => t.rd F.HUT_PART_STATUS 0 p.toNat = 4 ∧
        t.hut.parts = List.append s.hut.parts [.remove p.toNat c] ∧ Frame s t (oneReg .HUT_PART 0 p.toNat))) ∧
      ((s.openSects p.toNat ≠ [] ∨ busy = true) → Done (.partRemove c p) s (fun t => t.rd F.HUT_PART_STATUS 0 p.toNat = 5 ∧
        t.hut.parts = s.hut.parts ∧ Completed s t c 19 3 23 0 0 ∧ Frame s t (oneReg .HUT_PART 0 p.toNat)))) ∧
    (∀ o : GrantOps, let p := o.p.toNat
      let k := o.group.toNat
      let b := o.base.toNat
      let n := o.size.toNat
      let reg := oneReg .HUT_GRANT 0 (4 * p + k)
      let no := fun (st code : Nat) (t : State) => t.rd F.HUT_GRANT_STATUS 0 (4 * p + k) = st ∧ t.hut.parts = s.hut.parts ∧
        Completed s t c 20 3 code 0 0 ∧ Frame s t reg
      p ≤ 15 → s.rd F.HUT_PART_ACTIVE 0 p = 1 → k ≤ 3 →
      (s.grantMeets p k b n = true → Done (.grant c o) s (no 1 17)) ∧
      (s.grantMeets p k b n = false → (s.memReady = false ∨ 16 * s.liveChans k < b + n) → Done (.grant c o) s (no 2 18)) ∧
      (s.grantMeets p k b n = false → b + n ≤ 16 * s.liveChans k → s.groupState k ∈ [1, 2, 4] → Done (.grant c o) s (no 2 18)) ∧
      (s.grantMeets p k b n = false → s.memReady = true → b + n ≤ 16 * s.liveChans k → s.groupState k ∈ [0, 3] →
        (s.grantLeaves p k b n = true → Done (.grant c o) s (no 3 19)) ∧
        (s.grantLeaves p k b n = false →
          let z := (granulesOf k b n).any (fun g => aget s.hut.lastOwner g != some (s.tenantOf p))
          Done (.grant c o) s (fun t => t.rd F.HUT_GRANT_STATUS 0 (4 * p + k) = 0 ∧
            t.rd F.HUT_GRANT_ZEROING 0 (4 * p + k) = (s.hut.parts.any (fun r => r.zeroingOf p k) || z).toNat ∧ t.gate = s.gate ∧
            t.hut.parts = List.append s.hut.parts [.grant p k b n z c] ∧ Frame s t reg))))

/-- LOAD, RUN, PREEMPT, RESUME and DISCARD (R326, R331, R336, R415, R416, R446): LOAD starts the slot of the partition to receive, or is
STREAM_BUSY; RUN makes a Staged section runnable with its priority and AFTER, or is NOT_FOUND; PREEMPT, and RESUME of a
section that can go on, wait for the boundary; DISCARD fails a Staged, Armed, Saved or Halted section at once; without a
partition all are PART_DENIED. -/
def Obligations.SectionCommands : Prop :=
  ∀ (s : State) (c : Ctx), s.rd F.GATE_QP_STATE 0 c.qp.toNat ≠ 0 →
    let q := c.qp.toNat
    let old := s.rd F.GATE_QP_GVER 0 q = 2
    let denied := fun (op : Nat) (t : State) => Completed s t c op 3 6 0 0 ∧ Frame s t noReg
    (s.partOfQp q = none → ∀ (o : LoadOps) (r : RunOps) (j : BitVec 16) (e x y : Byte), Done (.load c o) s (denied 1) ∧
      Done (.run c r) s (denied 2) ∧ Done (.preempt c j) s (denied 3) ∧ Done (.resume c e x y) s (denied 4) ∧
      Done (.discard c e) s (denied 5)) ∧
    (∀ p, s.partOfQp q = some p →
      (∀ o : LoadOps,
        (s.rd F.CFG_STREAM_STATE 0 p ∉ [1, 2] → (s.stream p).load = none → (o.multicast = 0 ∨ ¬ old) →
          o.receipt.toNat % 8 = 0 → s.inGrant p o.receipt.toNat o.receiptLen.toNat = true → o.orgC.toNat ≤ 15 → o.orgR.toNat ≤ 15 →
          Done (.load c o) s (fun t => t.receiving p = true ∧ t.posE p = 0 ∧ (t.stream p).wait = true ∧
            (t.stream p).load = some (c, o) ∧ (t.stream p).qp = q ∧ (t.stream p).multicast = (o.multicast != 0) ∧
            (t.stream p).deadline = s.time + 30000000 *
              (if o.deadline.toNat = 0 then s.rd F.CFG_CLAIM_SECT_MS else o.deadline.toNat) ∧
            Frame s t (fun r a i => oneReg .CFG_STREAM 0 p r a i ∨ oneReg .CFG_STREAM_POS 0 p r a i))) ∧
        ((s.rd F.CFG_STREAM_STATE 0 p ∈ [1, 2] ∨ (s.stream p).load ≠ none) → Done (.load c o) s (fun t => Completed s t c 1 3 8 0 0 ∧ Frame s t noReg))) ∧
      (∀ o : RunOps, let e := 32 * p + o.entry.toNat
        ¬ old → o.byLoad = false → o.prio.toNat ≤ 7 → o.afterEn.toNat ≤ 1 → o.after.toNat ≤ 31 → o.entry.toNat ≤ 31 →
        (s.sectState e = 1 → s.rd F.HUT_SECT_RUNNABLE 0 e = 0 → Done (.run c o) s (fun t => t.rd F.HUT_SECT_RUNNABLE 0 e = 1 ∧
          t.rd F.HUT_SECT_PRIO 0 e = o.prio.toNat ∧ t.rd F.HUT_SECT_AFTER 0 e = o.after.toNat ∧
          t.rd F.HUT_SECT_AFTER_EN 0 e = o.afterEn.toNat ∧ t.gate = s.gate ∧ Frame s t (oneReg .HUT_SECT 0 e))) ∧
        (s.sectState e ≠ 1 → Done (.run c o) s (fun t => Completed s t c 2 3 9 0 0 ∧ Frame s t noReg))) ∧
      (∀ j, Done (.preempt c j) s (fun t => t.hut.bounds = List.append s.hut.bounds [.preempt p j.toNat c] ∧
        t.gate = s.gate ∧ Frame s t noReg)) ∧
      (∀ (e pr row : Byte), let n := 32 * p + e.toNat
        pr.toNat ≤ 7 → row.toNat ≤ 15 →
        (e.toNat < 32 → s.resumable n = true → Done (.resume c e pr row) s (fun t =>
          t.hut.bounds = List.append s.hut.bounds [.resume n pr.toNat row.toNat c] ∧ t.gate = s.gate ∧ Frame s t noReg)) ∧
        (s.resumable n = false → aget s.hut.wanan p = none → Done (.resume c e pr row) s (fun t =>
          Completed s t c 4 3 9 0 0 ∧ Frame s t noReg))) ∧
      (∀ e : Byte, let n := 32 * p + e.toNat
        e.toNat < 32 →
        (s.sectState n ∈ [1, 2, 5, 6] → Done (.discard c e) s (fun t => t.sectState n = 8 ∧
          (∃ d ∈ (t.qp q).done, d.idx = c.idx.toNat ∧ d.opcode = 5 ∧ d.cls = 0 ∧ d.code = 0) ∧ SameMem s t)) ∧
        (s.sectState n ∉ [1, 2, 5, 6] → Done (.discard c e) s (fun t => Completed s t c 5 3 9 0 0 ∧ Frame s t noReg))))

/-- DIGEST_SET, DIGEST_NOW, WANAN_SUBMIT and the Wanan commands (R337, R367, R446, R448): a job's ranges are recorded; a digest of a live
section starts; one at a time per partition; a Wanan job starts, and each command follows the last, a record it cannot take
ending it with its index. -/
def Obligations.DigestAndWananCommands : Prop :=
  ∀ (s : State) (c : Ctx) (p : Nat), s.rd F.GATE_QP_STATE 0 c.qp.toNat ≠ 0 → s.partOfQp c.qp.toNat = some p →
    (∀ o l, s.rd F.GATE_QP_GVER 0 c.qp.toNat ≠ 2 → (s.rangeList c o.list.toNat o.count.toNat).1 = some l →
      s.memc.delivered = none → (∀ k, k < 2 * o.count.toNat →
        s.extServe (o.list.toNat + 8 * k) = 0 ∧ s.frameClean (stripeOf (o.list.toNat + 8 * k)) = true) →
      let e := 32 * p + o.job.toNat
      let said := fun (op code : Nat) (t : State) => Completed s t c op 3 code 0 0 ∧ Frame s t noReg
      (s.rd F.TAL_DIG_STATE 0 p ≠ 1 →
        (l.all (s.digestRange p) = true → Done (.digestSet c o) s (fun t =>
          aget t.hut.digSets (p * 65536 + o.job.toNat) = some l ∧ Completed s t c 6 0 0 0 0 ∧ Frame s t noReg)) ∧
        (l.all (s.digestRange p) = false → Done (.digestSet c o) s (said 6 10))) ∧
      (s.rd F.TAL_DIG_STATE 0 p = 1 → Done (.digestSet c o) s (said 6 22)) ∧
      (o.job.toNat ≤ 31 → s.live e = true → s.rd F.TAL_DIG_STATE 0 p ≠ 1 →
        l.all (fun r => s.digestRange p r || s.digestBuffer e r) = true → Done (.digestNow c o) s (fun t =>
          t.rd F.TAL_DIG_STATE 0 p = 1 ∧ t.rd F.TAL_DIG_ORIGIN 0 p = 1 ∧ t.rd F.TAL_DIG_DONE 0 p = 0 ∧
          t.rd F.TAL_DIGSTEP_STEP 0 p = s.rd F.HUT_TRAIN_STEP 0 p ∧
          aget t.hut.digs p = some ⟨l, s.jobOf e, [], false, some c⟩ ∧ t.gate = s.gate ∧
          Frame s t (fun r a i => oneReg .TAL_DIG 0 p r a i ∨ oneReg .TAL_DIGSTEP 0 p r a i))) ∧
      ((31 < o.job.toNat ∨ s.live e = false) → Done (.digestNow c o) s (said 7 9))) ∧
    (∀ (job : BitVec 16) (x n : BitVec 64), s.inGrant p x.toNat n.toNat = true →
      (aget s.hut.wanan p = none → Done (.wananSubmit c job x n) s (fun t =>
        aget t.hut.wanan p = some ⟨c, job.toNat, 0, false, none, false⟩ ∧ t.gate = s.gate ∧ Frame s t noReg)) ∧
      (aget s.hut.wanan p ≠ none → Done (.wananSubmit c job x n) s (fun t => Completed s t c 11 3 1 0 0 ∧ Frame s t noReg))) ∧
    (∀ (k : PartNo) (y : WananX), aget s.hut.wanan k.toNat = some y → y.ctx = c → y.stopped = false → y.preempt = none →
      let n := y.done + (if y.busy then 1 else 0)
      (∀ w ∈ [WananCmd.matmul, .eltwise, .convert, .copy, .fence], Done (.wananCommand k (some w)) s (fun t =>
        aget t.hut.wanan k.toNat = some { y with busy := true, done := n } ∧ t.gate = s.gate ∧ Frame s t noReg)) ∧
      Done (.wananCommand k none) s (fun t => aget t.hut.wanan k.toNat = none ∧ Completed s t c 11 0 0 n 0 ∧ Frame s t noReg) ∧
      Done (.wananCommand k (some .unsupported)) s (fun t => aget t.hut.wanan k.toNat = none ∧
        Completed s t c 11 3 20 n n ∧ Frame s t noReg) ∧
      Done (.wananCommand k (some .malformed)) s (fun t => aget t.hut.wanan k.toNat = none ∧
        Completed s t c 11 3 21 n n ∧ Frame s t noReg))

/-! ### Words, formats, memory and reset -/

/-- The words of both instruction sets are decoded as they are encoded, with every operand at every value (Tables 05-2, 03-2, 03-3,
04-1, 06-2, 06-3). -/
def Obligations.InstructionWordsRoundTrip : Prop :=
  (∀ i : SeqInstr, decodeSeq (encodeSeq i) = some i) ∧ (∀ i : AgInstr, decodeAg (encodeAg i) = some i) ∧
  (∀ x i, seqWordClean x = true → decodeSeq x = some i → encodeSeq i = x) ∧
  (∀ x i, agWordClean x = true → decodeAg x = some i → encodeAg i = x)

/-- Words written out from the encodings, and opcodes that are undefined or reserved (R147, R148, Tables 03-2, 04-1, 05-1, 05-2, 06-2). -/
def Obligations.WordsMeanTheirInstructions : Prop :=
  decodeSeq 0x04A3000000000005#64 = some (.lset ⟨⟨true, 2⟩, 3, 5⟩) ∧
  decodeSeq 0x02000A4000000000#64 = some (.br ⟨⟨false, 0⟩, 5, 1⟩) ∧
  decodeSeq 0x0D11800000000007#64 = some (.wait ⟨⟨false, 1⟩, 3, 7⟩) ∧
  decodeSeq 0x4300000040000000#64 = some (.mfree ⟨2⟩) ∧
  decodeSeq 0x4012401040A60000#64 = some (.mma ⟨1, 2, 1, 1, 2, 5, false, false, true, true, 0, false, 0⟩) ∧
  decodeSeq 0x5004C8503E000000#64 = some (.vop ⟨1, 3, 2, 1, 4, 3, 7⟩) ∧
  decodeSeq 0x0700000000000000#64 = none ∧ decodeSeq 0x4400000000000000#64 = none ∧ decodeSeq 0x5F00000000000000#64 = none ∧
  decodeAg 0x1600000000001000#64 = some (.aset 3 0x1000) ∧
  decodeAg 0x5270000300000000#64 = some (.copy ⟨1, 1, true, true, false, false, 3⟩) ∧
  decodeAg 0x8000000000000000#64 = none

/-- Integer elements (R45): INT32, INT8 and INT4 codes have their two's-complement values, which run over −2^31 to 2^31 − 1, −128 to
127 and −8 to 7. -/
def IntegersAreTwosComplement : Prop :=
  let form := fun (f n : Nat) =>
    (∀ x : BitVec n, decodeElem f x.toNat = Num.ofInt x.toInt) ∧
    (∀ x : BitVec n, -(2 ^ (n - 1) : Int) ≤ x.toInt ∧ x.toInt ≤ 2 ^ (n - 1) - 1) ∧
    (∀ v : Int, -(2 ^ (n - 1) : Int) ≤ v → v ≤ 2 ^ (n - 1) - 1 → ∃ w, decodeElem f w = Num.ofInt v)
  form 8 32 ∧ form 9 8 ∧ form 10 4

/-- Block scales (R47, R48): the byte e from 0 to 254 multiplies an element's value by 2^(e − 127), an INT8 element counting units of
2^-6; 0xFF makes every element NaN; a scale changes no sign and makes no zero. -/
def MxElementsAreScaled : Prop :=
  ∀ (f w e : Nat),
    decodeMx f w 255 = .nan ∧
    (e ≤ 254 → ∀ n m k, decodeElem f w = .fin n m k →
      decodeMx f w e = .fin n m (k + ((e : Int) - 127) + (if f = 9 then -6 else 0))) ∧
    (e ≤ 254 → (∀ n m k, decodeElem f w ≠ .fin n m k) → decodeMx f w e = decodeElem f w)

/-- PSET (R150, Table 05-3): with a true guard it sets PD by its comparison of a counter with IMM, as unsigned 16-bit values, or by its
combination of two predicates, P0 staying 1, and nothing else; code 7 traps with ILLEGAL_OP. -/
def Obligations.PsetSetsItsPredicate : Prop :=
  ∀ (s : State) (p : At) (o : PsetOps), AtHead s p (.pset o) → s.guardHolds p.site.toNat o.g = true →
    NoLoopEnds s p.site.toNat →
    let a := p.site.toNat
    let u := s.at_ p.t.toNat
    let v := u.lc a o.lc.toNat
    let n := o.imm.toNat
    let x := u.pred a o.pa.toNat
    let y := u.pred a o.pb.toNat
    let sets := fun (b : Bool) => Done (.pset p o) s (fun t => PredIs t a o.pd b ∧ Issued u t a (oneReg .SEQ_PRED a 0) ∧
      ∀ k, k < 8 → k ≠ o.pd.toNat → t.pred a k = u.pred a k)
    (o.cmp = 0 → sets (decide (v = n))) ∧ (o.cmp = 1 → sets (decide (v ≠ n))) ∧ (o.cmp = 2 → sets (decide (v < n))) ∧
    (o.cmp = 3 → sets (decide (n ≤ v))) ∧ (o.cmp = 4 → sets (x && y)) ∧ (o.cmp = 5 → sets (x || y)) ∧
    (o.cmp = 6 → sets (xor x y)) ∧ v < 65536 ∧
    (o.cmp = 7 → Done (.pset p o) s (fun t => t.rd F.SEQ_STATUS_STATE a = 3 ∧ t.rd F.SEQ_STATUS_LAST_TRAP a = 1 ∧
      Frame u t (oneReg .SEQ_STATUS a 0)))

/-- TMARK (R165): it writes VALUE, the pitch number and the cycle within the pitch into SEQ_MARK, counts one in SEQ_CNT_MARK, and issues
with no other effect. -/
def Obligations.TmarkMarks : Prop :=
  ∀ (s : State) (p : At) (o : TmarkOps), AtHead s p (.tmark o) → s.guardHolds p.site.toNat o.g = true →
    NoLoopEnds s p.site.toNat →
    let a := p.site.toNat
    let u := s.at_ p.t.toNat
    Done (.tmark p o) s (fun t => t.rd F.SEQ_MARK_VALUE a = o.value.toNat ∧ t.rd F.SEQ_MARK_PITCH a = u.pitch % 2 ^ 32 ∧
      t.rd F.SEQ_MARK_CYCLE a = u.cycle % 2 ^ 16 ∧ t.ctr C.SEQ_CNT_MARK a = (u.ctr C.SEQ_CNT_MARK a + 1) % 2 ^ 48 ∧
      Issued u t a (oneReg .SEQ_MARK a 0))

/-- The protection code (R340, R342, R343, Table 13-1): a word that differs from the one its check byte was computed over in one data bit
is delivered corrected, one wrong check bit leaves it as read, and any two wrong bits are uncorrectable; zero has check
byte 0. -/
def Obligations.ProtectionCodeCorrectsAndDetects : Prop :=
  checkByte 0 = 0 ∧
  ∀ (w : Word),
    (∀ i, i < 64 → let y := w ^^^ (1#64 <<< i)
      let sy := checkByte w ^^^ checkByte y
      correctable sy = true ∧ corrected sy y = w ∧
      (∀ j, j < 64 → j ≠ i → decodeSynd (checkByte w ^^^ checkByte (y ^^^ (1#64 <<< j))) = .bad) ∧
      (∀ j, j < 8 → decodeSynd (sy ^^^ (1#8 <<< j)) = .bad)) ∧
    (∀ j, j < 8 → decodeSynd (1#8 <<< j) = .check ∧ corrected (1#8 <<< j) w = w ∧
      ∀ k, k < 8 → k ≠ j → decodeSynd ((1#8 <<< j) ^^^ (1#8 <<< k)) = .bad)

/-- The memory and its marks are in canonical form: addresses rising, and nothing listed that reads as what an unlisted address does. -/
def Canonical (s : State) : Prop := mcanon 0 s.mem = true ∧ mcanon 0 s.poison = true ∧ mcanon 0 s.synd = true

/-- After reset (R9, R420, R455, R457, Tables 01-9, 15-8, 17-13 to 17-16): every register but the two that a strap gives reads its reset
value, the device is in BOOT with pitch length 2^12 c, nothing waits, memory is zero (log entry 5) in canonical form, and
the straps left open make it the head of its Rope. -/
def Obligations.ResetState : Prop :=
  let s := State.reset
  (∀ r a i, r ≠ .ROPE_STATUS → r ≠ .CFG_STRAPS → s.word r a i = r.resetWord i) ∧
  s.rd F.CFG_DEV_STATE_STATE = 0 ∧ s.rd F.COL_PITCH_NUM_LOG2_LEN = 12 ∧ s.pitch = 0 ∧ s.rd F.PWR_THERM_LIMIT_W = 1200 ∧
  s.rd F.CFG_CLAIM_SECT_MS = 10000 ∧ s.rd F.ROPE_STATUS_HEAD = 1 ∧ s.pos = 0 ∧ s.hasPos = true ∧ s.pending = [] ∧
  Canonical s ∧ (∀ x, s.byte x = 0 ∧ s.poisonedAt x = false)

/-- Every step keeps the memory's canonical form, whatever the command. -/
def Obligations.StepsKeepMemoryCanonical : Prop :=
  ∀ (s t : State), Canonical s → step s = .next t → Canonical t

/-! ### Statements of several parts -/

/-- What stops or holds the instruction at the head: the statements it names, together. -/
def Obligations.FetchStopsOrHolds : Prop := FetchStops ∧ BlockedInstructionsHold

/-- NOP, LSET and LADD; loop bodies end; BR, LOOP and END: the statements it names, together. -/
def Obligations.ScalarAndControlInstructions : Prop := ScalarInstructionsIssue ∧ LoopBodyEnds ∧ ControlInstructionsIssue

/-- QTRY, SEL, TPUSH and SIG: the statements it names, together. -/
def Obligations.QueueAndSignalInstructions : Prop := QueueInstructionsIssue ∧ SigIssues

/-- WAIT, ARRIVE, CLAIM and STRT: the statements it names, together. -/
def Obligations.WaitsRequestsAndStarts : Prop := WaitingInstructionsIssue ∧ HeadRequests ∧ StrtIssues

/-- MMA, MMERGE, MSAVE and MFREE issue: the statements it names, together. -/
def Obligations.MatrixInstructionsIssue : Prop := TileInstructionsIssue ∧ SaveAndFreeIssue

/-- The verdict on a tile and its one re-execution: the statements it names, together. -/
def Obligations.TilesAreJudged : Prop := TileVerdictJudges ∧ TileRunsAgain

/-- Commit, release, save, free and skip of tiles: the statements it names, together. -/
def Obligations.TilesAreReleased : Prop := TilesCommitAndRelease ∧ SavesSkipsAndFrees

/-- Vector instructions issue and their rows enter: the statements it names, together. -/
def Obligations.VectorInstructionsRun : Prop := VectorInstructionsIssue ∧ VectorRowsEnter

/-- Steering units take in and fire: the statements it names, together. -/
def Obligations.SteeringUnitsSteer : Prop := SteeringUnitsTakeIn ∧ SteeringUnitsFire

/-- Instructions of stream programs issue: the statements it names, together. -/
def Obligations.StreamInstructionsIssue : Prop := AddressInstructionsIssue ∧ StreamControlIssues

/-- COPY issues or traps: the statements it names, together. -/
def Obligations.CopiesIssueOrTrap : Prop := CopyIssues ∧ StreamTraps

/-- Requests of COPYs and the end of programs: the statements it names, together. -/
def Obligations.StreamRequestsRun : Prop := StreamRequestsGo ∧ StreamRequestsComplete ∧ StreamProgramsComplete

/-- Flits are forwarded; links replay, are marked and die: the statements it names, together. -/
def Obligations.LinksForwardAndReplay : Prop := FlitsAreForwarded ∧ LinksReplayAndEnd

/-- Queue entries depart and arrive: the statements it names, together. -/
def Obligations.EntriesTravel : Prop := EntriesDepart ∧ EntriesAndRecordsArrive

/-- Dynamic connections open and end: the statements it names, together. -/
def Obligations.DynamicConnections : Prop := ConnectionsOpen ∧ ConnectionsEnd

/-- Control messages are injected; adds are applied and acknowledged: the statements it names, together. -/
def Obligations.AddsReachCounters : Prop := ControlMessagesAreInjected ∧ AddsAreAppliedAndAcknowledged

/-- Claims are served, answered and retried: the statements it names, together. -/
def Obligations.WorkIsClaimed : Prop := ClaimsAreServed ∧ ClaimsAreAnsweredOrRetried

/-- Frames of external memory: the statements it names, together. -/
def Obligations.ExternalFramesAreReadAndWritten : Prop := FramesAreRead ∧ FramesAreWritten

/-- Domains, frame transfer and Armed sections: the statements it names, together. -/
def Obligations.SectionsAreLoaded : Prop := DomainsAndFrameTransferBegin ∧ ConfigFramesAreWritten ∧ SectionsBecomeArmed

/-- Quiescence, save, and zeroed grants: the statements it names, together. -/
def Obligations.SectionsAreSavedAndGrantsZeroed : Prop := SectionsAreSaved ∧ GrantedGranulesAreZero

/-- Corrections, the scrubber and the watchdogs: the statements it names, together. -/
def Obligations.ErrorsAreCorrectedAndWatched : Prop := CorrectionsAndScrubReads ∧ WatchdogsFire

/-- Self-tests, health records and port lanes: the statements it names, together. -/
def Obligations.SelfTestsRecordsAndLanes : Prop := SelfTestsRun ∧ RecordsAndLanes

/-- Streams begin, end their blocks and end: the statements it names, together. -/
def Obligations.StreamsBeginAndEnd : Prop := StreamBlocksEnd ∧ StreamsBeginAndRunOut

/-- Power, reset, pins and temperature: the statements it names, together. -/
def Obligations.PowerResetAndTemperature : Prop := ResetsAndPins ∧ TemperatureThrottlesAndTrips

/-- The Rope: links, positions and relays: the statements it names, together. -/
def Obligations.RopeCarriesFrames : Prop := RopeLinksAndPositions ∧ RelaysAndCompletions

/-- SMBus commands: the statements it names, together. -/
def Obligations.SmbusCommandsAnswer : Prop := SmbusReads ∧ SmbusWrites

/-- Integer elements and scaled MX elements: the statements it names, together. -/
def Obligations.ElementsHaveTheirValues : Prop := IntegersAreTwosComplement ∧ MxElementsAreScaled
end

