-- ==== Sys2Proof/Laws/Fields.lean ====
section
/-! SUPPORT. Laws of register fields: what a field reads as after it, or another field of the same word, was set. -/

namespace Sys2Proof.Machine

/-- A field that lies within the word. -/
def Fld.fits (f : Fld) : Prop := f.lo + f.width ≤ 64

/-- Two fields of one word that share no bit. -/
def Fld.apart (f g : Fld) : Prop := g.lo + g.width ≤ f.lo ∨ f.lo + f.width ≤ g.lo

theorem getLsbD_fieldSet (f : Fld) (v : Nat) (w : BitVec 64) (i : Nat) (hi : i < 64) :
    (fieldSet f v w).getLsbD i =
      if f.lo ≤ i ∧ i < f.lo + f.width then v.testBit (i - f.lo) else w.getLsbD i := by
  simp only [fieldSet, BitVec.getLsbD_or, BitVec.getLsbD_and, BitVec.getLsbD_not, BitVec.getLsbD_ofNat, hi, decide_true,
    Bool.true_and, Nat.testBit_shiftLeft, Nat.testBit_mod_two_pow, Nat.testBit_two_pow_sub_one]
  by_cases h1 : f.lo ≤ i
  · by_cases h2 : i < f.lo + f.width
    · have h3 : i - f.lo < f.width := by omega
      simp [h1, h2, h3]
    · have h3 : ¬ i - f.lo < f.width := by omega
      simp [h2, h3]
  · simp [h1]

theorem testBit_fieldGet (f : Fld) (w : BitVec 64) (j : Nat) :
    (fieldGet f w).testBit j = (decide (j < f.width) && w.getLsbD (f.lo + j)) := by
  simp [fieldGet, Nat.testBit_mod_two_pow, Nat.testBit_shiftRight, BitVec.testBit_toNat]

/-- A field reads back the low bits of what it was set to. -/
theorem fieldGet_fieldSet (f : Fld) (v : Nat) (w : BitVec 64) (h : f.fits) :
    fieldGet f (fieldSet f v w) = v % 2 ^ f.width := by
  apply Nat.eq_of_testBit_eq
  intro j
  rw [testBit_fieldGet, Nat.testBit_mod_two_pow]
  by_cases hj : j < f.width
  · have h64 : f.lo + j < 64 := by unfold Fld.fits at h; omega
    rw [getLsbD_fieldSet f v w _ h64]
    simp [hj]
  · simp [hj]

/-- Setting a field leaves a field apart from it alone. -/
theorem fieldGet_fieldSet_apart (f g : Fld) (v : Nat) (w : BitVec 64) (h : f.apart g) :
    fieldGet g (fieldSet f v w) = fieldGet g w := by
  apply Nat.eq_of_testBit_eq
  intro j
  rw [testBit_fieldGet, testBit_fieldGet]
  by_cases hj : j < g.width
  · by_cases h64 : g.lo + j < 64
    · rw [getLsbD_fieldSet f v w _ h64, if_neg]
      rintro ⟨h1, h2⟩
      rcases h with h | h <;> omega
    · rw [BitVec.getLsbD_of_ge _ _ (by omega), BitVec.getLsbD_of_ge _ _ (by omega)]
  · simp [hj]

theorem fieldGet_lt (f : Fld) (w : BitVec 64) : fieldGet f w < 2 ^ f.width := Nat.mod_lt _ (Nat.two_pow_pos _)

end Sys2Proof.Machine
end

