-- ==== Sys2Proof/Laws/Sparse.lean ====
section
/-! SUPPORT. Laws of the finite maps: a read after a write, and the canonical form of addressed memory. -/

namespace Sys2Proof.Machine

variable {κ α : Type}

@[simp] theorem aget_aput_same [DecidableEq κ] (m : List (κ × α)) (k : κ) (v : α) : aget (aput m k v) k = some v := by
  induction m with
  | nil => simp [aput, aget]
  | cons x m ih =>
    obtain ⟨k', v'⟩ := x
    by_cases h : k' = k
    · simp [aput, aget, h]
    · simp [aput, aget, h, ih]

theorem aget_aput_ne [DecidableEq κ] (m : List (κ × α)) {k j : κ} (v : α) (h : j ≠ k) :
    aget (aput m k v) j = aget m j := by
  induction m with
  | nil => simp [aput, aget, Ne.symm h]
  | cons x m ih =>
    obtain ⟨k', v'⟩ := x
    by_cases hk : k' = k
    · subst hk
      simp [aput, aget, Ne.symm h]
    · simp [aput, aget, hk, ih]

theorem aget_aput [DecidableEq κ] (m : List (κ × α)) (k j : κ) (v : α) :
    aget (aput m k v) j = if j = k then some v else aget m j := by
  by_cases h : j = k
  · simp [h]
  · simp [h, aget_aput_ne m v h]

@[simp] theorem aget_adel_same [DecidableEq κ] (m : List (κ × α)) (k : κ) : aget (adel m k) k = none := by
  induction m with
  | nil => rfl
  | cons x m ih =>
    obtain ⟨k', v'⟩ := x
    by_cases h : k' = k
    · simp [adel, h, ih]
    · simp [adel, aget, h, ih]

theorem aget_adel_ne [DecidableEq κ] (m : List (κ × α)) {k j : κ} (h : j ≠ k) : aget (adel m k) j = aget m j := by
  induction m with
  | nil => rfl
  | cons x m ih =>
    obtain ⟨k', v'⟩ := x
    by_cases hk : k' = k
    · simp [adel, aget, hk, ih, Ne.symm h]
    · simp [adel, aget, hk, ih]

/-! ### Addressed memory -/

theorem mget_mins_same (d : α) (m : List (Nat × α)) (k : Nat) (v : α) : mget d (mins m k v) k = v := by
  induction m with
  | nil => simp [mins, mget]
  | cons x m ih =>
    obtain ⟨k', v'⟩ := x
    by_cases h : k < k'
    · simp [mins, mget, h]
    · by_cases hk : k' = k
      · simp [mins, mget, hk]
      · simp [mins, mget, h, hk, ih]

theorem mget_mins_ne (d : α) (m : List (Nat × α)) {k j : Nat} (v : α) (hj : j ≠ k) :
    mget d (mins m k v) j = mget d m j := by
  induction m with
  | nil => simp [mins, mget, Ne.symm hj]
  | cons x m ih =>
    obtain ⟨k', v'⟩ := x
    by_cases h : k < k'
    · simp [mins, mget, h, Ne.symm hj]
    · by_cases hk : k' = k
      · subst hk
        simp [mins, mget, Ne.symm hj]
      · simp [mins, mget, h, hk, ih]

theorem mget_mdel_ne (d : α) (m : List (Nat × α)) {k j : Nat} (hj : j ≠ k) : mget d (mdel m k) j = mget d m j := by
  induction m with
  | nil => rfl
  | cons x m ih =>
    obtain ⟨k', v'⟩ := x
    by_cases hk : k' = k
    · subst hk
      simp [mdel, mget, Ne.symm hj]
    · simp [mdel, mget, hk, ih]

/-- A write leaves every other address alone. -/
theorem mget_mput_ne [DecidableEq α] (d : α) (m : List (Nat × α)) {k j : Nat} (v : α) (hj : j ≠ k) :
    mget d (mput d m k v) j = mget d m j := by
  unfold mput
  split
  · exact mget_mdel_ne d m hj
  · exact mget_mins_ne d m v hj

theorem mget_above (d : α) (m : List (Nat × α)) (k : Nat) (h : ∀ x ∈ m, k < x.1) : mget d m k = d := by
  induction m with
  | nil => rfl
  | cons x m ih =>
    obtain ⟨k', v'⟩ := x
    have h1 : k < k' := h (k', v') (by simp)
    simp only [mget]
    rw [if_neg (by omega)]
    exact ih (fun y hy => h y (by simp [hy]))

theorem mcanon_cons [DecidableEq α] (d : α) (k : Nat) (v : α) (m : List (Nat × α)) :
    mcanon d ((k, v) :: m) = true ↔ v ≠ d ∧ (∀ x ∈ m, k < x.1) ∧ mcanon d m = true := by
  simp [mcanon, and_assoc]

theorem mget_mdel_same [DecidableEq α] (d : α) (m : List (Nat × α)) (k : Nat) (h : mcanon d m = true) :
    mget d (mdel m k) k = d := by
  induction m with
  | nil => rfl
  | cons x m ih =>
    obtain ⟨k', v'⟩ := x
    obtain ⟨_, ha, hm⟩ := (mcanon_cons d k' v' m).1 h
    by_cases hk : k' = k
    · subst hk
      simp only [mdel, if_pos]
      exact mget_above d m k' ha
    · simp [mdel, mget, hk, ih hm]

/-- A read after a write to the same address gives the value written. -/
theorem mget_mput_same [DecidableEq α] (d : α) (m : List (Nat × α)) (k : Nat) (v : α) (h : mcanon d m = true) :
    mget d (mput d m k v) k = v := by
  unfold mput
  split
  · next hv => rw [hv]; exact mget_mdel_same d m k h
  · exact mget_mins_same d m k v

theorem mem_mdel {m : List (Nat × α)} {k : Nat} {x : Nat × α} (h : x ∈ mdel m k) : x ∈ m := by
  induction m with
  | nil => exact h
  | cons y m ih =>
    obtain ⟨k', v'⟩ := y
    by_cases hk : k' = k
    · simp only [mdel, hk, if_pos] at h
      exact List.mem_cons_of_mem _ h
    · simp only [mdel, hk, if_neg, not_false_eq_true] at h
      rcases List.mem_cons.1 h with h | h
      · exact h ▸ List.mem_cons_self
      · exact List.mem_cons_of_mem _ (ih h)

theorem mem_mins {m : List (Nat × α)} {k : Nat} {v : α} {x : Nat × α} (h : x ∈ mins m k v) : x = (k, v) ∨ x ∈ m := by
  induction m with
  | nil => simpa [mins] using h
  | cons y m ih =>
    obtain ⟨k', v'⟩ := y
    by_cases hlt : k < k'
    · simpa [mins, hlt] using h
    · by_cases hk : k' = k
      · subst hk
        simp only [mins, Nat.lt_irrefl, if_false, if_true] at h
        rcases List.mem_cons.1 h with h | h
        · exact .inl h
        · exact .inr (List.mem_cons_of_mem _ h)
      · simp only [mins, hlt, hk, if_false] at h
        rcases List.mem_cons.1 h with h | h
        · exact .inr (h ▸ List.mem_cons_self)
        · rcases ih h with h | h
          · exact .inl h
          · exact .inr (List.mem_cons_of_mem _ h)

theorem mcanon_mdel [DecidableEq α] (d : α) (m : List (Nat × α)) (k : Nat) (h : mcanon d m = true) :
    mcanon d (mdel m k) = true := by
  induction m with
  | nil => rfl
  | cons x m ih =>
    obtain ⟨k', v'⟩ := x
    obtain ⟨hv, ha, hm⟩ := (mcanon_cons d k' v' m).1 h
    by_cases hk : k' = k
    · simpa [mdel, hk] using hm
    · simp only [mdel, hk, if_false]
      exact (mcanon_cons ..).2 ⟨hv, fun y hy => ha y (mem_mdel hy), ih hm⟩

theorem mcanon_mins [DecidableEq α] (d : α) (m : List (Nat × α)) (k : Nat) (v : α) (h : mcanon d m = true) (hv : v ≠ d) :
    mcanon d (mins m k v) = true := by
  induction m with
  | nil => simp [mins, mcanon, hv]
  | cons x m ih =>
    obtain ⟨k', v'⟩ := x
    obtain ⟨hv', ha, hm⟩ := (mcanon_cons d k' v' m).1 h
    by_cases hlt : k < k'
    · simp only [mins, hlt, if_true]
      refine (mcanon_cons ..).2 ⟨hv, fun y hy => ?_, h⟩
      rcases List.mem_cons.1 hy with hy | hy
      · rw [hy]; exact hlt
      · exact Nat.lt_trans hlt (ha y hy)
    · by_cases hk : k' = k
      · subst hk
        simp only [mins, Nat.lt_irrefl, if_false, if_true]
        exact (mcanon_cons ..).2 ⟨hv, ha, hm⟩
      · simp only [mins, hlt, hk, if_false]
        refine (mcanon_cons ..).2 ⟨hv', fun y hy => ?_, ih hm⟩
        rcases mem_mins hy with hy | hy
        · rw [hy]; show k' < k; omega
        · exact ha y hy

/-- Every write keeps the canonical form. -/
theorem mcanon_mput [DecidableEq α] (d : α) (m : List (Nat × α)) (k : Nat) (v : α) (h : mcanon d m = true) :
    mcanon d (mput d m k v) = true := by
  unfold mput
  split
  · exact mcanon_mdel d m k h
  · next hv => exact mcanon_mins d m k v h hv

/-- Removing entries keeps the canonical form. -/
theorem mcanon_filter [DecidableEq α] (d : α) (m : List (Nat × α)) (p : Nat × α → Bool) (h : mcanon d m = true) :
    mcanon d (m.filter p) = true := by
  induction m with
  | nil => rfl
  | cons x m ih =>
    obtain ⟨k', v'⟩ := x
    obtain ⟨hv, ha, hm⟩ := (mcanon_cons d k' v' m).1 h
    by_cases hp : p (k', v') = true
    · rw [List.filter_cons_of_pos hp]
      exact (mcanon_cons ..).2 ⟨hv, fun y hy => ha y ((List.mem_filter.1 hy).1), ih hm⟩
    · rw [List.filter_cons_of_neg hp]
      exact ih hm

end Sys2Proof.Machine
end

