-- ==== Sys2Proof/Laws/State.lean ====
section
/-! SUPPORT. One lemma for each field of the state and each named update, so that no proof unfolds a record update; and what
registers, counters and the parts of a site read as after an update. -/

namespace Sys2Proof.Machine

section
variable (s : State) (r : RegName) (a i : Nat) (w : Word)
@[simp] theorem State.setWord_pending : (s.setWord r a i w).pending = s.pending := rfl
@[simp] theorem State.setWord_cycle : (s.setWord r a i w).cycle = s.cycle := rfl
@[simp] theorem State.setWord_cycles : (s.setWord r a i w).cycles = s.cycles := rfl
@[simp] theorem State.setWord_time : (s.setWord r a i w).time = s.time := rfl
@[simp] theorem State.setWord_counters : (s.setWord r a i w).counters = s.counters := rfl
@[simp] theorem State.setWord_snaps : (s.setWord r a i w).snaps = s.snaps := rfl
@[simp] theorem State.setWord_mem : (s.setWord r a i w).mem = s.mem := rfl
@[simp] theorem State.setWord_poison : (s.setWord r a i w).poison = s.poison := rfl
@[simp] theorem State.setWord_synd : (s.setWord r a i w).synd = s.synd := rfl
@[simp] theorem State.setWord_sites : (s.setWord r a i w).sites = s.sites := rfl
@[simp] theorem State.setWord_sigAdds : (s.setWord r a i w).sigAdds = s.sigAdds := rfl
@[simp] theorem State.setWord_sigNext : (s.setWord r a i w).sigNext = s.sigNext := rfl
@[simp] theorem State.setWord_ringDue : (s.setWord r a i w).ringDue = s.ringDue := rfl
@[simp] theorem State.setWord_credNext : (s.setWord r a i w).credNext = s.credNext := rfl
@[simp] theorem State.setWord_ctl : (s.setWord r a i w).ctl = s.ctl := rfl
@[simp] theorem State.setWord_flight : (s.setWord r a i w).flight = s.flight := rfl
@[simp] theorem State.setWord_col : (s.setWord r a i w).col = s.col := rfl
@[simp] theorem State.setWord_hut : (s.setWord r a i w).hut = s.hut := rfl
@[simp] theorem State.setWord_memc : (s.setWord r a i w).memc = s.memc := rfl
@[simp] theorem State.setWord_cfg : (s.setWord r a i w).cfg = s.cfg := rfl
@[simp] theorem State.setWord_gate : (s.setWord r a i w).gate = s.gate := rfl
@[simp] theorem State.setWord_fuses : (s.setWord r a i w).fuses = s.fuses := rfl
@[simp] theorem State.setWord_board : (s.setWord r a i w).board = s.board := rfl
@[simp] theorem State.setWord_seedNext : (s.setWord r a i w).seedNext = s.seedNext := rfl
@[simp] theorem State.setWord_domPend : (s.setWord r a i w).domPend = s.domPend := rfl
@[simp] theorem State.setWord_lenPend : (s.setWord r a i w).lenPend = s.lenPend := rfl
@[simp] theorem State.setWord_lenNext : (s.setWord r a i w).lenNext = s.lenNext := rfl
@[simp] theorem State.setWord_evs : (s.setWord r a i w).evs = s.evs := rfl
@[simp] theorem State.setWord_hostSigs : (s.setWord r a i w).hostSigs = s.hostSigs := rfl
@[simp] theorem State.setWord_padOld : (s.setWord r a i w).padOld = s.padOld := rfl
@[simp] theorem State.setWord_arbs : (s.setWord r a i w).arbs = s.arbs := rfl
@[simp] theorem State.setWord_free : (s.setWord r a i w).free = s.free := rfl
@[simp] theorem State.setWord_out : (s.setWord r a i w).out = s.out := rfl
end

section
variable (s : State) (f : Fld) (a i v : Nat)
@[simp] theorem State.wr_pending : (s.wr f a i v).pending = s.pending := rfl
@[simp] theorem State.wr_cycle : (s.wr f a i v).cycle = s.cycle := rfl
@[simp] theorem State.wr_cycles : (s.wr f a i v).cycles = s.cycles := rfl
@[simp] theorem State.wr_time : (s.wr f a i v).time = s.time := rfl
@[simp] theorem State.wr_counters : (s.wr f a i v).counters = s.counters := rfl
@[simp] theorem State.wr_snaps : (s.wr f a i v).snaps = s.snaps := rfl
@[simp] theorem State.wr_mem : (s.wr f a i v).mem = s.mem := rfl
@[simp] theorem State.wr_poison : (s.wr f a i v).poison = s.poison := rfl
@[simp] theorem State.wr_synd : (s.wr f a i v).synd = s.synd := rfl
@[simp] theorem State.wr_sites : (s.wr f a i v).sites = s.sites := rfl
@[simp] theorem State.wr_sigAdds : (s.wr f a i v).sigAdds = s.sigAdds := rfl
@[simp] theorem State.wr_sigNext : (s.wr f a i v).sigNext = s.sigNext := rfl
@[simp] theorem State.wr_ringDue : (s.wr f a i v).ringDue = s.ringDue := rfl
@[simp] theorem State.wr_credNext : (s.wr f a i v).credNext = s.credNext := rfl
@[simp] theorem State.wr_ctl : (s.wr f a i v).ctl = s.ctl := rfl
@[simp] theorem State.wr_flight : (s.wr f a i v).flight = s.flight := rfl
@[simp] theorem State.wr_col : (s.wr f a i v).col = s.col := rfl
@[simp] theorem State.wr_hut : (s.wr f a i v).hut = s.hut := rfl
@[simp] theorem State.wr_memc : (s.wr f a i v).memc = s.memc := rfl
@[simp] theorem State.wr_cfg : (s.wr f a i v).cfg = s.cfg := rfl
@[simp] theorem State.wr_gate : (s.wr f a i v).gate = s.gate := rfl
@[simp] theorem State.wr_fuses : (s.wr f a i v).fuses = s.fuses := rfl
@[simp] theorem State.wr_board : (s.wr f a i v).board = s.board := rfl
@[simp] theorem State.wr_seedNext : (s.wr f a i v).seedNext = s.seedNext := rfl
@[simp] theorem State.wr_domPend : (s.wr f a i v).domPend = s.domPend := rfl
@[simp] theorem State.wr_lenPend : (s.wr f a i v).lenPend = s.lenPend := rfl
@[simp] theorem State.wr_lenNext : (s.wr f a i v).lenNext = s.lenNext := rfl
@[simp] theorem State.wr_evs : (s.wr f a i v).evs = s.evs := rfl
@[simp] theorem State.wr_hostSigs : (s.wr f a i v).hostSigs = s.hostSigs := rfl
@[simp] theorem State.wr_padOld : (s.wr f a i v).padOld = s.padOld := rfl
@[simp] theorem State.wr_arbs : (s.wr f a i v).arbs = s.arbs := rfl
@[simp] theorem State.wr_free : (s.wr f a i v).free = s.free := rfl
@[simp] theorem State.wr_out : (s.wr f a i v).out = s.out := rfl
end

section
variable (s : State) (r : RegName) (a i : Nat) (g : Word → Word)
@[simp] theorem State.note_pending : (s.note r a i g).pending = s.pending := rfl
@[simp] theorem State.note_cycle : (s.note r a i g).cycle = s.cycle := rfl
@[simp] theorem State.note_cycles : (s.note r a i g).cycles = s.cycles := rfl
@[simp] theorem State.note_time : (s.note r a i g).time = s.time := rfl
@[simp] theorem State.note_counters : (s.note r a i g).counters = s.counters := rfl
@[simp] theorem State.note_snaps : (s.note r a i g).snaps = s.snaps := rfl
@[simp] theorem State.note_mem : (s.note r a i g).mem = s.mem := rfl
@[simp] theorem State.note_poison : (s.note r a i g).poison = s.poison := rfl
@[simp] theorem State.note_synd : (s.note r a i g).synd = s.synd := rfl
@[simp] theorem State.note_sites : (s.note r a i g).sites = s.sites := rfl
@[simp] theorem State.note_sigAdds : (s.note r a i g).sigAdds = s.sigAdds := rfl
@[simp] theorem State.note_sigNext : (s.note r a i g).sigNext = s.sigNext := rfl
@[simp] theorem State.note_ringDue : (s.note r a i g).ringDue = s.ringDue := rfl
@[simp] theorem State.note_credNext : (s.note r a i g).credNext = s.credNext := rfl
@[simp] theorem State.note_ctl : (s.note r a i g).ctl = s.ctl := rfl
@[simp] theorem State.note_flight : (s.note r a i g).flight = s.flight := rfl
@[simp] theorem State.note_col : (s.note r a i g).col = s.col := rfl
@[simp] theorem State.note_hut : (s.note r a i g).hut = s.hut := rfl
@[simp] theorem State.note_memc : (s.note r a i g).memc = s.memc := rfl
@[simp] theorem State.note_cfg : (s.note r a i g).cfg = s.cfg := rfl
@[simp] theorem State.note_gate : (s.note r a i g).gate = s.gate := rfl
@[simp] theorem State.note_fuses : (s.note r a i g).fuses = s.fuses := rfl
@[simp] theorem State.note_board : (s.note r a i g).board = s.board := rfl
@[simp] theorem State.note_seedNext : (s.note r a i g).seedNext = s.seedNext := rfl
@[simp] theorem State.note_domPend : (s.note r a i g).domPend = s.domPend := rfl
@[simp] theorem State.note_lenPend : (s.note r a i g).lenPend = s.lenPend := rfl
@[simp] theorem State.note_lenNext : (s.note r a i g).lenNext = s.lenNext := rfl
@[simp] theorem State.note_hostSigs : (s.note r a i g).hostSigs = s.hostSigs := rfl
@[simp] theorem State.note_padOld : (s.note r a i g).padOld = s.padOld := rfl
@[simp] theorem State.note_arbs : (s.note r a i g).arbs = s.arbs := rfl
@[simp] theorem State.note_free : (s.note r a i g).free = s.free := rfl
@[simp] theorem State.note_out : (s.note r a i g).out = s.out := rfl
end

section
variable (s : State) (f : Fld) (a i : Nat)
@[simp] theorem State.noteFlag_pending : (s.noteFlag f a i).pending = s.pending := rfl
@[simp] theorem State.noteFlag_cycle : (s.noteFlag f a i).cycle = s.cycle := rfl
@[simp] theorem State.noteFlag_cycles : (s.noteFlag f a i).cycles = s.cycles := rfl
@[simp] theorem State.noteFlag_time : (s.noteFlag f a i).time = s.time := rfl
@[simp] theorem State.noteFlag_counters : (s.noteFlag f a i).counters = s.counters := rfl
@[simp] theorem State.noteFlag_snaps : (s.noteFlag f a i).snaps = s.snaps := rfl
@[simp] theorem State.noteFlag_mem : (s.noteFlag f a i).mem = s.mem := rfl
@[simp] theorem State.noteFlag_poison : (s.noteFlag f a i).poison = s.poison := rfl
@[simp] theorem State.noteFlag_synd : (s.noteFlag f a i).synd = s.synd := rfl
@[simp] theorem State.noteFlag_sites : (s.noteFlag f a i).sites = s.sites := rfl
@[simp] theorem State.noteFlag_sigAdds : (s.noteFlag f a i).sigAdds = s.sigAdds := rfl
@[simp] theorem State.noteFlag_sigNext : (s.noteFlag f a i).sigNext = s.sigNext := rfl
@[simp] theorem State.noteFlag_ringDue : (s.noteFlag f a i).ringDue = s.ringDue := rfl
@[simp] theorem State.noteFlag_credNext : (s.noteFlag f a i).credNext = s.credNext := rfl
@[simp] theorem State.noteFlag_ctl : (s.noteFlag f a i).ctl = s.ctl := rfl
@[simp] theorem State.noteFlag_flight : (s.noteFlag f a i).flight = s.flight := rfl
@[simp] theorem State.noteFlag_col : (s.noteFlag f a i).col = s.col := rfl
@[simp] theorem State.noteFlag_hut : (s.noteFlag f a i).hut = s.hut := rfl
@[simp] theorem State.noteFlag_memc : (s.noteFlag f a i).memc = s.memc := rfl
@[simp] theorem State.noteFlag_cfg : (s.noteFlag f a i).cfg = s.cfg := rfl
@[simp] theorem State.noteFlag_gate : (s.noteFlag f a i).gate = s.gate := rfl
@[simp] theorem State.noteFlag_fuses : (s.noteFlag f a i).fuses = s.fuses := rfl
@[simp] theorem State.noteFlag_board : (s.noteFlag f a i).board = s.board := rfl
@[simp] theorem State.noteFlag_seedNext : (s.noteFlag f a i).seedNext = s.seedNext := rfl
@[simp] theorem State.noteFlag_domPend : (s.noteFlag f a i).domPend = s.domPend := rfl
@[simp] theorem State.noteFlag_lenPend : (s.noteFlag f a i).lenPend = s.lenPend := rfl
@[simp] theorem State.noteFlag_lenNext : (s.noteFlag f a i).lenNext = s.lenNext := rfl
@[simp] theorem State.noteFlag_hostSigs : (s.noteFlag f a i).hostSigs = s.hostSigs := rfl
@[simp] theorem State.noteFlag_padOld : (s.noteFlag f a i).padOld = s.padOld := rfl
@[simp] theorem State.noteFlag_arbs : (s.noteFlag f a i).arbs = s.arbs := rfl
@[simp] theorem State.noteFlag_free : (s.noteFlag f a i).free = s.free := rfl
@[simp] theorem State.noteFlag_out : (s.noteFlag f a i).out = s.out := rfl
end

section
variable (s : State) (c : Ctr) (a n : Nat)
@[simp] theorem State.count_pending : (s.count c a n).pending = s.pending := rfl
@[simp] theorem State.count_cycle : (s.count c a n).cycle = s.cycle := rfl
@[simp] theorem State.count_cycles : (s.count c a n).cycles = s.cycles := rfl
@[simp] theorem State.count_time : (s.count c a n).time = s.time := rfl
@[simp] theorem State.count_regs : (s.count c a n).regs = s.regs := rfl
@[simp] theorem State.count_snaps : (s.count c a n).snaps = s.snaps := rfl
@[simp] theorem State.count_mem : (s.count c a n).mem = s.mem := rfl
@[simp] theorem State.count_poison : (s.count c a n).poison = s.poison := rfl
@[simp] theorem State.count_synd : (s.count c a n).synd = s.synd := rfl
@[simp] theorem State.count_sites : (s.count c a n).sites = s.sites := rfl
@[simp] theorem State.count_sigAdds : (s.count c a n).sigAdds = s.sigAdds := rfl
@[simp] theorem State.count_sigNext : (s.count c a n).sigNext = s.sigNext := rfl
@[simp] theorem State.count_ringDue : (s.count c a n).ringDue = s.ringDue := rfl
@[simp] theorem State.count_credNext : (s.count c a n).credNext = s.credNext := rfl
@[simp] theorem State.count_ctl : (s.count c a n).ctl = s.ctl := rfl
@[simp] theorem State.count_flight : (s.count c a n).flight = s.flight := rfl
@[simp] theorem State.count_col : (s.count c a n).col = s.col := rfl
@[simp] theorem State.count_hut : (s.count c a n).hut = s.hut := rfl
@[simp] theorem State.count_memc : (s.count c a n).memc = s.memc := rfl
@[simp] theorem State.count_cfg : (s.count c a n).cfg = s.cfg := rfl
@[simp] theorem State.count_gate : (s.count c a n).gate = s.gate := rfl
@[simp] theorem State.count_fuses : (s.count c a n).fuses = s.fuses := rfl
@[simp] theorem State.count_board : (s.count c a n).board = s.board := rfl
@[simp] theorem State.count_seedNext : (s.count c a n).seedNext = s.seedNext := rfl
@[simp] theorem State.count_domPend : (s.count c a n).domPend = s.domPend := rfl
@[simp] theorem State.count_lenPend : (s.count c a n).lenPend = s.lenPend := rfl
@[simp] theorem State.count_lenNext : (s.count c a n).lenNext = s.lenNext := rfl
@[simp] theorem State.count_evs : (s.count c a n).evs = s.evs := rfl
@[simp] theorem State.count_hostSigs : (s.count c a n).hostSigs = s.hostSigs := rfl
@[simp] theorem State.count_padOld : (s.count c a n).padOld = s.padOld := rfl
@[simp] theorem State.count_arbs : (s.count c a n).arbs = s.arbs := rfl
@[simp] theorem State.count_free : (s.count c a n).free = s.free := rfl
@[simp] theorem State.count_out : (s.count c a n).out = s.out := rfl
end

section
variable (s : State) (x : Nat) (b : Byte)
@[simp] theorem State.putByte_pending : (s.putByte x b).pending = s.pending := rfl
@[simp] theorem State.putByte_cycle : (s.putByte x b).cycle = s.cycle := rfl
@[simp] theorem State.putByte_cycles : (s.putByte x b).cycles = s.cycles := rfl
@[simp] theorem State.putByte_time : (s.putByte x b).time = s.time := rfl
@[simp] theorem State.putByte_regs : (s.putByte x b).regs = s.regs := rfl
@[simp] theorem State.putByte_counters : (s.putByte x b).counters = s.counters := rfl
@[simp] theorem State.putByte_snaps : (s.putByte x b).snaps = s.snaps := rfl
@[simp] theorem State.putByte_poison : (s.putByte x b).poison = s.poison := rfl
@[simp] theorem State.putByte_synd : (s.putByte x b).synd = s.synd := rfl
@[simp] theorem State.putByte_sites : (s.putByte x b).sites = s.sites := rfl
@[simp] theorem State.putByte_sigAdds : (s.putByte x b).sigAdds = s.sigAdds := rfl
@[simp] theorem State.putByte_sigNext : (s.putByte x b).sigNext = s.sigNext := rfl
@[simp] theorem State.putByte_ringDue : (s.putByte x b).ringDue = s.ringDue := rfl
@[simp] theorem State.putByte_credNext : (s.putByte x b).credNext = s.credNext := rfl
@[simp] theorem State.putByte_ctl : (s.putByte x b).ctl = s.ctl := rfl
@[simp] theorem State.putByte_flight : (s.putByte x b).flight = s.flight := rfl
@[simp] theorem State.putByte_col : (s.putByte x b).col = s.col := rfl
@[simp] theorem State.putByte_hut : (s.putByte x b).hut = s.hut := rfl
@[simp] theorem State.putByte_memc : (s.putByte x b).memc = s.memc := rfl
@[simp] theorem State.putByte_cfg : (s.putByte x b).cfg = s.cfg := rfl
@[simp] theorem State.putByte_gate : (s.putByte x b).gate = s.gate := rfl
@[simp] theorem State.putByte_fuses : (s.putByte x b).fuses = s.fuses := rfl
@[simp] theorem State.putByte_board : (s.putByte x b).board = s.board := rfl
@[simp] theorem State.putByte_seedNext : (s.putByte x b).seedNext = s.seedNext := rfl
@[simp] theorem State.putByte_domPend : (s.putByte x b).domPend = s.domPend := rfl
@[simp] theorem State.putByte_lenPend : (s.putByte x b).lenPend = s.lenPend := rfl
@[simp] theorem State.putByte_lenNext : (s.putByte x b).lenNext = s.lenNext := rfl
@[simp] theorem State.putByte_evs : (s.putByte x b).evs = s.evs := rfl
@[simp] theorem State.putByte_hostSigs : (s.putByte x b).hostSigs = s.hostSigs := rfl
@[simp] theorem State.putByte_padOld : (s.putByte x b).padOld = s.padOld := rfl
@[simp] theorem State.putByte_arbs : (s.putByte x b).arbs = s.arbs := rfl
@[simp] theorem State.putByte_free : (s.putByte x b).free = s.free := rfl
@[simp] theorem State.putByte_out : (s.putByte x b).out = s.out := rfl
end

section
variable (s : State) (w : Nat) (p : Bool)
@[simp] theorem State.setPois_pending : (s.setPois w p).pending = s.pending := rfl
@[simp] theorem State.setPois_cycle : (s.setPois w p).cycle = s.cycle := rfl
@[simp] theorem State.setPois_cycles : (s.setPois w p).cycles = s.cycles := rfl
@[simp] theorem State.setPois_time : (s.setPois w p).time = s.time := rfl
@[simp] theorem State.setPois_regs : (s.setPois w p).regs = s.regs := rfl
@[simp] theorem State.setPois_counters : (s.setPois w p).counters = s.counters := rfl
@[simp] theorem State.setPois_snaps : (s.setPois w p).snaps = s.snaps := rfl
@[simp] theorem State.setPois_mem : (s.setPois w p).mem = s.mem := rfl
@[simp] theorem State.setPois_sites : (s.setPois w p).sites = s.sites := rfl
@[simp] theorem State.setPois_sigAdds : (s.setPois w p).sigAdds = s.sigAdds := rfl
@[simp] theorem State.setPois_sigNext : (s.setPois w p).sigNext = s.sigNext := rfl
@[simp] theorem State.setPois_ringDue : (s.setPois w p).ringDue = s.ringDue := rfl
@[simp] theorem State.setPois_credNext : (s.setPois w p).credNext = s.credNext := rfl
@[simp] theorem State.setPois_ctl : (s.setPois w p).ctl = s.ctl := rfl
@[simp] theorem State.setPois_flight : (s.setPois w p).flight = s.flight := rfl
@[simp] theorem State.setPois_col : (s.setPois w p).col = s.col := rfl
@[simp] theorem State.setPois_hut : (s.setPois w p).hut = s.hut := rfl
@[simp] theorem State.setPois_memc : (s.setPois w p).memc = s.memc := rfl
@[simp] theorem State.setPois_cfg : (s.setPois w p).cfg = s.cfg := rfl
@[simp] theorem State.setPois_gate : (s.setPois w p).gate = s.gate := rfl
@[simp] theorem State.setPois_fuses : (s.setPois w p).fuses = s.fuses := rfl
@[simp] theorem State.setPois_board : (s.setPois w p).board = s.board := rfl
@[simp] theorem State.setPois_seedNext : (s.setPois w p).seedNext = s.seedNext := rfl
@[simp] theorem State.setPois_domPend : (s.setPois w p).domPend = s.domPend := rfl
@[simp] theorem State.setPois_lenPend : (s.setPois w p).lenPend = s.lenPend := rfl
@[simp] theorem State.setPois_lenNext : (s.setPois w p).lenNext = s.lenNext := rfl
@[simp] theorem State.setPois_evs : (s.setPois w p).evs = s.evs := rfl
@[simp] theorem State.setPois_hostSigs : (s.setPois w p).hostSigs = s.hostSigs := rfl
@[simp] theorem State.setPois_padOld : (s.setPois w p).padOld = s.padOld := rfl
@[simp] theorem State.setPois_arbs : (s.setPois w p).arbs = s.arbs := rfl
@[simp] theorem State.setPois_free : (s.setPois w p).free = s.free := rfl
@[simp] theorem State.setPois_out : (s.setPois w p).out = s.out := rfl
end

section
variable (s : State) (a : Nat) (x : Site)
@[simp] theorem State.setSite_pending : (s.setSite a x).pending = s.pending := rfl
@[simp] theorem State.setSite_cycle : (s.setSite a x).cycle = s.cycle := rfl
@[simp] theorem State.setSite_cycles : (s.setSite a x).cycles = s.cycles := rfl
@[simp] theorem State.setSite_time : (s.setSite a x).time = s.time := rfl
@[simp] theorem State.setSite_regs : (s.setSite a x).regs = s.regs := rfl
@[simp] theorem State.setSite_counters : (s.setSite a x).counters = s.counters := rfl
@[simp] theorem State.setSite_snaps : (s.setSite a x).snaps = s.snaps := rfl
@[simp] theorem State.setSite_mem : (s.setSite a x).mem = s.mem := rfl
@[simp] theorem State.setSite_poison : (s.setSite a x).poison = s.poison := rfl
@[simp] theorem State.setSite_synd : (s.setSite a x).synd = s.synd := rfl
@[simp] theorem State.setSite_sigAdds : (s.setSite a x).sigAdds = s.sigAdds := rfl
@[simp] theorem State.setSite_sigNext : (s.setSite a x).sigNext = s.sigNext := rfl
@[simp] theorem State.setSite_ringDue : (s.setSite a x).ringDue = s.ringDue := rfl
@[simp] theorem State.setSite_credNext : (s.setSite a x).credNext = s.credNext := rfl
@[simp] theorem State.setSite_ctl : (s.setSite a x).ctl = s.ctl := rfl
@[simp] theorem State.setSite_flight : (s.setSite a x).flight = s.flight := rfl
@[simp] theorem State.setSite_col : (s.setSite a x).col = s.col := rfl
@[simp] theorem State.setSite_hut : (s.setSite a x).hut = s.hut := rfl
@[simp] theorem State.setSite_memc : (s.setSite a x).memc = s.memc := rfl
@[simp] theorem State.setSite_cfg : (s.setSite a x).cfg = s.cfg := rfl
@[simp] theorem State.setSite_gate : (s.setSite a x).gate = s.gate := rfl
@[simp] theorem State.setSite_fuses : (s.setSite a x).fuses = s.fuses := rfl
@[simp] theorem State.setSite_board : (s.setSite a x).board = s.board := rfl
@[simp] theorem State.setSite_seedNext : (s.setSite a x).seedNext = s.seedNext := rfl
@[simp] theorem State.setSite_domPend : (s.setSite a x).domPend = s.domPend := rfl
@[simp] theorem State.setSite_lenPend : (s.setSite a x).lenPend = s.lenPend := rfl
@[simp] theorem State.setSite_lenNext : (s.setSite a x).lenNext = s.lenNext := rfl
@[simp] theorem State.setSite_evs : (s.setSite a x).evs = s.evs := rfl
@[simp] theorem State.setSite_hostSigs : (s.setSite a x).hostSigs = s.hostSigs := rfl
@[simp] theorem State.setSite_padOld : (s.setSite a x).padOld = s.padOld := rfl
@[simp] theorem State.setSite_arbs : (s.setSite a x).arbs = s.arbs := rfl
@[simp] theorem State.setSite_free : (s.setSite a x).free = s.free := rfl
@[simp] theorem State.setSite_out : (s.setSite a x).out = s.out := rfl
end

section
variable (s : State) (a : Nat) (f : Site → Site)
@[simp] theorem State.modSite_pending : (s.modSite a f).pending = s.pending := rfl
@[simp] theorem State.modSite_cycle : (s.modSite a f).cycle = s.cycle := rfl
@[simp] theorem State.modSite_cycles : (s.modSite a f).cycles = s.cycles := rfl
@[simp] theorem State.modSite_time : (s.modSite a f).time = s.time := rfl
@[simp] theorem State.modSite_regs : (s.modSite a f).regs = s.regs := rfl
@[simp] theorem State.modSite_counters : (s.modSite a f).counters = s.counters := rfl
@[simp] theorem State.modSite_snaps : (s.modSite a f).snaps = s.snaps := rfl
@[simp] theorem State.modSite_mem : (s.modSite a f).mem = s.mem := rfl
@[simp] theorem State.modSite_poison : (s.modSite a f).poison = s.poison := rfl
@[simp] theorem State.modSite_synd : (s.modSite a f).synd = s.synd := rfl
@[simp] theorem State.modSite_sigAdds : (s.modSite a f).sigAdds = s.sigAdds := rfl
@[simp] theorem State.modSite_sigNext : (s.modSite a f).sigNext = s.sigNext := rfl
@[simp] theorem State.modSite_ringDue : (s.modSite a f).ringDue = s.ringDue := rfl
@[simp] theorem State.modSite_credNext : (s.modSite a f).credNext = s.credNext := rfl
@[simp] theorem State.modSite_ctl : (s.modSite a f).ctl = s.ctl := rfl
@[simp] theorem State.modSite_flight : (s.modSite a f).flight = s.flight := rfl
@[simp] theorem State.modSite_col : (s.modSite a f).col = s.col := rfl
@[simp] theorem State.modSite_hut : (s.modSite a f).hut = s.hut := rfl
@[simp] theorem State.modSite_memc : (s.modSite a f).memc = s.memc := rfl
@[simp] theorem State.modSite_cfg : (s.modSite a f).cfg = s.cfg := rfl
@[simp] theorem State.modSite_gate : (s.modSite a f).gate = s.gate := rfl
@[simp] theorem State.modSite_fuses : (s.modSite a f).fuses = s.fuses := rfl
@[simp] theorem State.modSite_board : (s.modSite a f).board = s.board := rfl
@[simp] theorem State.modSite_seedNext : (s.modSite a f).seedNext = s.seedNext := rfl
@[simp] theorem State.modSite_domPend : (s.modSite a f).domPend = s.domPend := rfl
@[simp] theorem State.modSite_lenPend : (s.modSite a f).lenPend = s.lenPend := rfl
@[simp] theorem State.modSite_lenNext : (s.modSite a f).lenNext = s.lenNext := rfl
@[simp] theorem State.modSite_evs : (s.modSite a f).evs = s.evs := rfl
@[simp] theorem State.modSite_hostSigs : (s.modSite a f).hostSigs = s.hostSigs := rfl
@[simp] theorem State.modSite_padOld : (s.modSite a f).padOld = s.padOld := rfl
@[simp] theorem State.modSite_arbs : (s.modSite a f).arbs = s.arbs := rfl
@[simp] theorem State.modSite_free : (s.modSite a f).free = s.free := rfl
@[simp] theorem State.modSite_out : (s.modSite a f).out = s.out := rfl
end

section
variable (s : State) (a : Nat) (f : SeqX → SeqX)
@[simp] theorem State.modSeq_pending : (s.modSeq a f).pending = s.pending := rfl
@[simp] theorem State.modSeq_cycle : (s.modSeq a f).cycle = s.cycle := rfl
@[simp] theorem State.modSeq_cycles : (s.modSeq a f).cycles = s.cycles := rfl
@[simp] theorem State.modSeq_time : (s.modSeq a f).time = s.time := rfl
@[simp] theorem State.modSeq_regs : (s.modSeq a f).regs = s.regs := rfl
@[simp] theorem State.modSeq_counters : (s.modSeq a f).counters = s.counters := rfl
@[simp] theorem State.modSeq_snaps : (s.modSeq a f).snaps = s.snaps := rfl
@[simp] theorem State.modSeq_mem : (s.modSeq a f).mem = s.mem := rfl
@[simp] theorem State.modSeq_poison : (s.modSeq a f).poison = s.poison := rfl
@[simp] theorem State.modSeq_synd : (s.modSeq a f).synd = s.synd := rfl
@[simp] theorem State.modSeq_sigAdds : (s.modSeq a f).sigAdds = s.sigAdds := rfl
@[simp] theorem State.modSeq_sigNext : (s.modSeq a f).sigNext = s.sigNext := rfl
@[simp] theorem State.modSeq_ringDue : (s.modSeq a f).ringDue = s.ringDue := rfl
@[simp] theorem State.modSeq_credNext : (s.modSeq a f).credNext = s.credNext := rfl
@[simp] theorem State.modSeq_ctl : (s.modSeq a f).ctl = s.ctl := rfl
@[simp] theorem State.modSeq_flight : (s.modSeq a f).flight = s.flight := rfl
@[simp] theorem State.modSeq_col : (s.modSeq a f).col = s.col := rfl
@[simp] theorem State.modSeq_hut : (s.modSeq a f).hut = s.hut := rfl
@[simp] theorem State.modSeq_memc : (s.modSeq a f).memc = s.memc := rfl
@[simp] theorem State.modSeq_cfg : (s.modSeq a f).cfg = s.cfg := rfl
@[simp] theorem State.modSeq_gate : (s.modSeq a f).gate = s.gate := rfl
@[simp] theorem State.modSeq_fuses : (s.modSeq a f).fuses = s.fuses := rfl
@[simp] theorem State.modSeq_board : (s.modSeq a f).board = s.board := rfl
@[simp] theorem State.modSeq_seedNext : (s.modSeq a f).seedNext = s.seedNext := rfl
@[simp] theorem State.modSeq_domPend : (s.modSeq a f).domPend = s.domPend := rfl
@[simp] theorem State.modSeq_lenPend : (s.modSeq a f).lenPend = s.lenPend := rfl
@[simp] theorem State.modSeq_lenNext : (s.modSeq a f).lenNext = s.lenNext := rfl
@[simp] theorem State.modSeq_evs : (s.modSeq a f).evs = s.evs := rfl
@[simp] theorem State.modSeq_hostSigs : (s.modSeq a f).hostSigs = s.hostSigs := rfl
@[simp] theorem State.modSeq_padOld : (s.modSeq a f).padOld = s.padOld := rfl
@[simp] theorem State.modSeq_arbs : (s.modSeq a f).arbs = s.arbs := rfl
@[simp] theorem State.modSeq_free : (s.modSeq a f).free = s.free := rfl
@[simp] theorem State.modSeq_out : (s.modSeq a f).out = s.out := rfl
end

section
variable (s : State) (a : Nat) (f : MtxX → MtxX)
@[simp] theorem State.modMtx_pending : (s.modMtx a f).pending = s.pending := rfl
@[simp] theorem State.modMtx_cycle : (s.modMtx a f).cycle = s.cycle := rfl
@[simp] theorem State.modMtx_cycles : (s.modMtx a f).cycles = s.cycles := rfl
@[simp] theorem State.modMtx_time : (s.modMtx a f).time = s.time := rfl
@[simp] theorem State.modMtx_regs : (s.modMtx a f).regs = s.regs := rfl
@[simp] theorem State.modMtx_counters : (s.modMtx a f).counters = s.counters := rfl
@[simp] theorem State.modMtx_snaps : (s.modMtx a f).snaps = s.snaps := rfl
@[simp] theorem State.modMtx_mem : (s.modMtx a f).mem = s.mem := rfl
@[simp] theorem State.modMtx_poison : (s.modMtx a f).poison = s.poison := rfl
@[simp] theorem State.modMtx_synd : (s.modMtx a f).synd = s.synd := rfl
@[simp] theorem State.modMtx_sigAdds : (s.modMtx a f).sigAdds = s.sigAdds := rfl
@[simp] theorem State.modMtx_sigNext : (s.modMtx a f).sigNext = s.sigNext := rfl
@[simp] theorem State.modMtx_ringDue : (s.modMtx a f).ringDue = s.ringDue := rfl
@[simp] theorem State.modMtx_credNext : (s.modMtx a f).credNext = s.credNext := rfl
@[simp] theorem State.modMtx_ctl : (s.modMtx a f).ctl = s.ctl := rfl
@[simp] theorem State.modMtx_flight : (s.modMtx a f).flight = s.flight := rfl
@[simp] theorem State.modMtx_col : (s.modMtx a f).col = s.col := rfl
@[simp] theorem State.modMtx_hut : (s.modMtx a f).hut = s.hut := rfl
@[simp] theorem State.modMtx_memc : (s.modMtx a f).memc = s.memc := rfl
@[simp] theorem State.modMtx_cfg : (s.modMtx a f).cfg = s.cfg := rfl
@[simp] theorem State.modMtx_gate : (s.modMtx a f).gate = s.gate := rfl
@[simp] theorem State.modMtx_fuses : (s.modMtx a f).fuses = s.fuses := rfl
@[simp] theorem State.modMtx_board : (s.modMtx a f).board = s.board := rfl
@[simp] theorem State.modMtx_seedNext : (s.modMtx a f).seedNext = s.seedNext := rfl
@[simp] theorem State.modMtx_domPend : (s.modMtx a f).domPend = s.domPend := rfl
@[simp] theorem State.modMtx_lenPend : (s.modMtx a f).lenPend = s.lenPend := rfl
@[simp] theorem State.modMtx_lenNext : (s.modMtx a f).lenNext = s.lenNext := rfl
@[simp] theorem State.modMtx_evs : (s.modMtx a f).evs = s.evs := rfl
@[simp] theorem State.modMtx_hostSigs : (s.modMtx a f).hostSigs = s.hostSigs := rfl
@[simp] theorem State.modMtx_padOld : (s.modMtx a f).padOld = s.padOld := rfl
@[simp] theorem State.modMtx_arbs : (s.modMtx a f).arbs = s.arbs := rfl
@[simp] theorem State.modMtx_free : (s.modMtx a f).free = s.free := rfl
@[simp] theorem State.modMtx_out : (s.modMtx a f).out = s.out := rfl
end

section
variable (s : State) (a : Nat) (f : VecX → VecX)
@[simp] theorem State.modVec_pending : (s.modVec a f).pending = s.pending := rfl
@[simp] theorem State.modVec_cycle : (s.modVec a f).cycle = s.cycle := rfl
@[simp] theorem State.modVec_cycles : (s.modVec a f).cycles = s.cycles := rfl
@[simp] theorem State.modVec_time : (s.modVec a f).time = s.time := rfl
@[simp] theorem State.modVec_regs : (s.modVec a f).regs = s.regs := rfl
@[simp] theorem State.modVec_counters : (s.modVec a f).counters = s.counters := rfl
@[simp] theorem State.modVec_snaps : (s.modVec a f).snaps = s.snaps := rfl
@[simp] theorem State.modVec_mem : (s.modVec a f).mem = s.mem := rfl
@[simp] theorem State.modVec_poison : (s.modVec a f).poison = s.poison := rfl
@[simp] theorem State.modVec_synd : (s.modVec a f).synd = s.synd := rfl
@[simp] theorem State.modVec_sigAdds : (s.modVec a f).sigAdds = s.sigAdds := rfl
@[simp] theorem State.modVec_sigNext : (s.modVec a f).sigNext = s.sigNext := rfl
@[simp] theorem State.modVec_ringDue : (s.modVec a f).ringDue = s.ringDue := rfl
@[simp] theorem State.modVec_credNext : (s.modVec a f).credNext = s.credNext := rfl
@[simp] theorem State.modVec_ctl : (s.modVec a f).ctl = s.ctl := rfl
@[simp] theorem State.modVec_flight : (s.modVec a f).flight = s.flight := rfl
@[simp] theorem State.modVec_col : (s.modVec a f).col = s.col := rfl
@[simp] theorem State.modVec_hut : (s.modVec a f).hut = s.hut := rfl
@[simp] theorem State.modVec_memc : (s.modVec a f).memc = s.memc := rfl
@[simp] theorem State.modVec_cfg : (s.modVec a f).cfg = s.cfg := rfl
@[simp] theorem State.modVec_gate : (s.modVec a f).gate = s.gate := rfl
@[simp] theorem State.modVec_fuses : (s.modVec a f).fuses = s.fuses := rfl
@[simp] theorem State.modVec_board : (s.modVec a f).board = s.board := rfl
@[simp] theorem State.modVec_seedNext : (s.modVec a f).seedNext = s.seedNext := rfl
@[simp] theorem State.modVec_domPend : (s.modVec a f).domPend = s.domPend := rfl
@[simp] theorem State.modVec_lenPend : (s.modVec a f).lenPend = s.lenPend := rfl
@[simp] theorem State.modVec_lenNext : (s.modVec a f).lenNext = s.lenNext := rfl
@[simp] theorem State.modVec_evs : (s.modVec a f).evs = s.evs := rfl
@[simp] theorem State.modVec_hostSigs : (s.modVec a f).hostSigs = s.hostSigs := rfl
@[simp] theorem State.modVec_padOld : (s.modVec a f).padOld = s.padOld := rfl
@[simp] theorem State.modVec_arbs : (s.modVec a f).arbs = s.arbs := rfl
@[simp] theorem State.modVec_free : (s.modVec a f).free = s.free := rfl
@[simp] theorem State.modVec_out : (s.modVec a f).out = s.out := rfl
end

section
variable (s : State) (a q : Nat) (f : QueueX → QueueX)
@[simp] theorem State.modQueue_pending : (s.modQueue a q f).pending = s.pending := rfl
@[simp] theorem State.modQueue_cycle : (s.modQueue a q f).cycle = s.cycle := rfl
@[simp] theorem State.modQueue_cycles : (s.modQueue a q f).cycles = s.cycles := rfl
@[simp] theorem State.modQueue_time : (s.modQueue a q f).time = s.time := rfl
@[simp] theorem State.modQueue_regs : (s.modQueue a q f).regs = s.regs := rfl
@[simp] theorem State.modQueue_counters : (s.modQueue a q f).counters = s.counters := rfl
@[simp] theorem State.modQueue_snaps : (s.modQueue a q f).snaps = s.snaps := rfl
@[simp] theorem State.modQueue_mem : (s.modQueue a q f).mem = s.mem := rfl
@[simp] theorem State.modQueue_poison : (s.modQueue a q f).poison = s.poison := rfl
@[simp] theorem State.modQueue_synd : (s.modQueue a q f).synd = s.synd := rfl
@[simp] theorem State.modQueue_sigAdds : (s.modQueue a q f).sigAdds = s.sigAdds := rfl
@[simp] theorem State.modQueue_sigNext : (s.modQueue a q f).sigNext = s.sigNext := rfl
@[simp] theorem State.modQueue_ringDue : (s.modQueue a q f).ringDue = s.ringDue := rfl
@[simp] theorem State.modQueue_credNext : (s.modQueue a q f).credNext = s.credNext := rfl
@[simp] theorem State.modQueue_ctl : (s.modQueue a q f).ctl = s.ctl := rfl
@[simp] theorem State.modQueue_flight : (s.modQueue a q f).flight = s.flight := rfl
@[simp] theorem State.modQueue_col : (s.modQueue a q f).col = s.col := rfl
@[simp] theorem State.modQueue_hut : (s.modQueue a q f).hut = s.hut := rfl
@[simp] theorem State.modQueue_memc : (s.modQueue a q f).memc = s.memc := rfl
@[simp] theorem State.modQueue_cfg : (s.modQueue a q f).cfg = s.cfg := rfl
@[simp] theorem State.modQueue_gate : (s.modQueue a q f).gate = s.gate := rfl
@[simp] theorem State.modQueue_fuses : (s.modQueue a q f).fuses = s.fuses := rfl
@[simp] theorem State.modQueue_board : (s.modQueue a q f).board = s.board := rfl
@[simp] theorem State.modQueue_seedNext : (s.modQueue a q f).seedNext = s.seedNext := rfl
@[simp] theorem State.modQueue_domPend : (s.modQueue a q f).domPend = s.domPend := rfl
@[simp] theorem State.modQueue_lenPend : (s.modQueue a q f).lenPend = s.lenPend := rfl
@[simp] theorem State.modQueue_lenNext : (s.modQueue a q f).lenNext = s.lenNext := rfl
@[simp] theorem State.modQueue_evs : (s.modQueue a q f).evs = s.evs := rfl
@[simp] theorem State.modQueue_hostSigs : (s.modQueue a q f).hostSigs = s.hostSigs := rfl
@[simp] theorem State.modQueue_padOld : (s.modQueue a q f).padOld = s.padOld := rfl
@[simp] theorem State.modQueue_arbs : (s.modQueue a q f).arbs = s.arbs := rfl
@[simp] theorem State.modQueue_free : (s.modQueue a q f).free = s.free := rfl
@[simp] theorem State.modQueue_out : (s.modQueue a q f).out = s.out := rfl
end

section
variable (s : State) (a n : Nat) (f : StrX → StrX)
@[simp] theorem State.modStr_pending : (s.modStr a n f).pending = s.pending := rfl
@[simp] theorem State.modStr_cycle : (s.modStr a n f).cycle = s.cycle := rfl
@[simp] theorem State.modStr_cycles : (s.modStr a n f).cycles = s.cycles := rfl
@[simp] theorem State.modStr_time : (s.modStr a n f).time = s.time := rfl
@[simp] theorem State.modStr_regs : (s.modStr a n f).regs = s.regs := rfl
@[simp] theorem State.modStr_counters : (s.modStr a n f).counters = s.counters := rfl
@[simp] theorem State.modStr_snaps : (s.modStr a n f).snaps = s.snaps := rfl
@[simp] theorem State.modStr_mem : (s.modStr a n f).mem = s.mem := rfl
@[simp] theorem State.modStr_poison : (s.modStr a n f).poison = s.poison := rfl
@[simp] theorem State.modStr_synd : (s.modStr a n f).synd = s.synd := rfl
@[simp] theorem State.modStr_sigAdds : (s.modStr a n f).sigAdds = s.sigAdds := rfl
@[simp] theorem State.modStr_sigNext : (s.modStr a n f).sigNext = s.sigNext := rfl
@[simp] theorem State.modStr_ringDue : (s.modStr a n f).ringDue = s.ringDue := rfl
@[simp] theorem State.modStr_credNext : (s.modStr a n f).credNext = s.credNext := rfl
@[simp] theorem State.modStr_ctl : (s.modStr a n f).ctl = s.ctl := rfl
@[simp] theorem State.modStr_flight : (s.modStr a n f).flight = s.flight := rfl
@[simp] theorem State.modStr_col : (s.modStr a n f).col = s.col := rfl
@[simp] theorem State.modStr_hut : (s.modStr a n f).hut = s.hut := rfl
@[simp] theorem State.modStr_memc : (s.modStr a n f).memc = s.memc := rfl
@[simp] theorem State.modStr_cfg : (s.modStr a n f).cfg = s.cfg := rfl
@[simp] theorem State.modStr_gate : (s.modStr a n f).gate = s.gate := rfl
@[simp] theorem State.modStr_fuses : (s.modStr a n f).fuses = s.fuses := rfl
@[simp] theorem State.modStr_board : (s.modStr a n f).board = s.board := rfl
@[simp] theorem State.modStr_seedNext : (s.modStr a n f).seedNext = s.seedNext := rfl
@[simp] theorem State.modStr_domPend : (s.modStr a n f).domPend = s.domPend := rfl
@[simp] theorem State.modStr_lenPend : (s.modStr a n f).lenPend = s.lenPend := rfl
@[simp] theorem State.modStr_lenNext : (s.modStr a n f).lenNext = s.lenNext := rfl
@[simp] theorem State.modStr_evs : (s.modStr a n f).evs = s.evs := rfl
@[simp] theorem State.modStr_hostSigs : (s.modStr a n f).hostSigs = s.hostSigs := rfl
@[simp] theorem State.modStr_padOld : (s.modStr a n f).padOld = s.padOld := rfl
@[simp] theorem State.modStr_arbs : (s.modStr a n f).arbs = s.arbs := rfl
@[simp] theorem State.modStr_free : (s.modStr a n f).free = s.free := rfl
@[simp] theorem State.modStr_out : (s.modStr a n f).out = s.out := rfl
end

section
variable (s : State) (a n : Nat) (f : SteerX → SteerX)
@[simp] theorem State.modSteer_pending : (s.modSteer a n f).pending = s.pending := rfl
@[simp] theorem State.modSteer_cycle : (s.modSteer a n f).cycle = s.cycle := rfl
@[simp] theorem State.modSteer_cycles : (s.modSteer a n f).cycles = s.cycles := rfl
@[simp] theorem State.modSteer_time : (s.modSteer a n f).time = s.time := rfl
@[simp] theorem State.modSteer_regs : (s.modSteer a n f).regs = s.regs := rfl
@[simp] theorem State.modSteer_counters : (s.modSteer a n f).counters = s.counters := rfl
@[simp] theorem State.modSteer_snaps : (s.modSteer a n f).snaps = s.snaps := rfl
@[simp] theorem State.modSteer_mem : (s.modSteer a n f).mem = s.mem := rfl
@[simp] theorem State.modSteer_poison : (s.modSteer a n f).poison = s.poison := rfl
@[simp] theorem State.modSteer_synd : (s.modSteer a n f).synd = s.synd := rfl
@[simp] theorem State.modSteer_sigAdds : (s.modSteer a n f).sigAdds = s.sigAdds := rfl
@[simp] theorem State.modSteer_sigNext : (s.modSteer a n f).sigNext = s.sigNext := rfl
@[simp] theorem State.modSteer_ringDue : (s.modSteer a n f).ringDue = s.ringDue := rfl
@[simp] theorem State.modSteer_credNext : (s.modSteer a n f).credNext = s.credNext := rfl
@[simp] theorem State.modSteer_ctl : (s.modSteer a n f).ctl = s.ctl := rfl
@[simp] theorem State.modSteer_flight : (s.modSteer a n f).flight = s.flight := rfl
@[simp] theorem State.modSteer_col : (s.modSteer a n f).col = s.col := rfl
@[simp] theorem State.modSteer_hut : (s.modSteer a n f).hut = s.hut := rfl
@[simp] theorem State.modSteer_memc : (s.modSteer a n f).memc = s.memc := rfl
@[simp] theorem State.modSteer_cfg : (s.modSteer a n f).cfg = s.cfg := rfl
@[simp] theorem State.modSteer_gate : (s.modSteer a n f).gate = s.gate := rfl
@[simp] theorem State.modSteer_fuses : (s.modSteer a n f).fuses = s.fuses := rfl
@[simp] theorem State.modSteer_board : (s.modSteer a n f).board = s.board := rfl
@[simp] theorem State.modSteer_seedNext : (s.modSteer a n f).seedNext = s.seedNext := rfl
@[simp] theorem State.modSteer_domPend : (s.modSteer a n f).domPend = s.domPend := rfl
@[simp] theorem State.modSteer_lenPend : (s.modSteer a n f).lenPend = s.lenPend := rfl
@[simp] theorem State.modSteer_lenNext : (s.modSteer a n f).lenNext = s.lenNext := rfl
@[simp] theorem State.modSteer_evs : (s.modSteer a n f).evs = s.evs := rfl
@[simp] theorem State.modSteer_hostSigs : (s.modSteer a n f).hostSigs = s.hostSigs := rfl
@[simp] theorem State.modSteer_padOld : (s.modSteer a n f).padOld = s.padOld := rfl
@[simp] theorem State.modSteer_arbs : (s.modSteer a n f).arbs = s.arbs := rfl
@[simp] theorem State.modSteer_free : (s.modSteer a n f).free = s.free := rfl
@[simp] theorem State.modSteer_out : (s.modSteer a n f).out = s.out := rfl
end

section
variable (s : State) (a : Nat) (f : SyncX → SyncX)
@[simp] theorem State.modSync_pending : (s.modSync a f).pending = s.pending := rfl
@[simp] theorem State.modSync_cycle : (s.modSync a f).cycle = s.cycle := rfl
@[simp] theorem State.modSync_cycles : (s.modSync a f).cycles = s.cycles := rfl
@[simp] theorem State.modSync_time : (s.modSync a f).time = s.time := rfl
@[simp] theorem State.modSync_regs : (s.modSync a f).regs = s.regs := rfl
@[simp] theorem State.modSync_counters : (s.modSync a f).counters = s.counters := rfl
@[simp] theorem State.modSync_snaps : (s.modSync a f).snaps = s.snaps := rfl
@[simp] theorem State.modSync_mem : (s.modSync a f).mem = s.mem := rfl
@[simp] theorem State.modSync_poison : (s.modSync a f).poison = s.poison := rfl
@[simp] theorem State.modSync_synd : (s.modSync a f).synd = s.synd := rfl
@[simp] theorem State.modSync_sigAdds : (s.modSync a f).sigAdds = s.sigAdds := rfl
@[simp] theorem State.modSync_sigNext : (s.modSync a f).sigNext = s.sigNext := rfl
@[simp] theorem State.modSync_ringDue : (s.modSync a f).ringDue = s.ringDue := rfl
@[simp] theorem State.modSync_credNext : (s.modSync a f).credNext = s.credNext := rfl
@[simp] theorem State.modSync_ctl : (s.modSync a f).ctl = s.ctl := rfl
@[simp] theorem State.modSync_flight : (s.modSync a f).flight = s.flight := rfl
@[simp] theorem State.modSync_col : (s.modSync a f).col = s.col := rfl
@[simp] theorem State.modSync_hut : (s.modSync a f).hut = s.hut := rfl
@[simp] theorem State.modSync_memc : (s.modSync a f).memc = s.memc := rfl
@[simp] theorem State.modSync_cfg : (s.modSync a f).cfg = s.cfg := rfl
@[simp] theorem State.modSync_gate : (s.modSync a f).gate = s.gate := rfl
@[simp] theorem State.modSync_fuses : (s.modSync a f).fuses = s.fuses := rfl
@[simp] theorem State.modSync_board : (s.modSync a f).board = s.board := rfl
@[simp] theorem State.modSync_seedNext : (s.modSync a f).seedNext = s.seedNext := rfl
@[simp] theorem State.modSync_domPend : (s.modSync a f).domPend = s.domPend := rfl
@[simp] theorem State.modSync_lenPend : (s.modSync a f).lenPend = s.lenPend := rfl
@[simp] theorem State.modSync_lenNext : (s.modSync a f).lenNext = s.lenNext := rfl
@[simp] theorem State.modSync_evs : (s.modSync a f).evs = s.evs := rfl
@[simp] theorem State.modSync_hostSigs : (s.modSync a f).hostSigs = s.hostSigs := rfl
@[simp] theorem State.modSync_padOld : (s.modSync a f).padOld = s.padOld := rfl
@[simp] theorem State.modSync_arbs : (s.modSync a f).arbs = s.arbs := rfl
@[simp] theorem State.modSync_free : (s.modSync a f).free = s.free := rfl
@[simp] theorem State.modSync_out : (s.modSync a f).out = s.out := rfl
end

section
variable (s : State) (a d : Nat) (f : LinkX → LinkX)
@[simp] theorem State.modLink_pending : (s.modLink a d f).pending = s.pending := rfl
@[simp] theorem State.modLink_cycle : (s.modLink a d f).cycle = s.cycle := rfl
@[simp] theorem State.modLink_cycles : (s.modLink a d f).cycles = s.cycles := rfl
@[simp] theorem State.modLink_time : (s.modLink a d f).time = s.time := rfl
@[simp] theorem State.modLink_regs : (s.modLink a d f).regs = s.regs := rfl
@[simp] theorem State.modLink_counters : (s.modLink a d f).counters = s.counters := rfl
@[simp] theorem State.modLink_snaps : (s.modLink a d f).snaps = s.snaps := rfl
@[simp] theorem State.modLink_mem : (s.modLink a d f).mem = s.mem := rfl
@[simp] theorem State.modLink_poison : (s.modLink a d f).poison = s.poison := rfl
@[simp] theorem State.modLink_synd : (s.modLink a d f).synd = s.synd := rfl
@[simp] theorem State.modLink_sigAdds : (s.modLink a d f).sigAdds = s.sigAdds := rfl
@[simp] theorem State.modLink_sigNext : (s.modLink a d f).sigNext = s.sigNext := rfl
@[simp] theorem State.modLink_ringDue : (s.modLink a d f).ringDue = s.ringDue := rfl
@[simp] theorem State.modLink_credNext : (s.modLink a d f).credNext = s.credNext := rfl
@[simp] theorem State.modLink_ctl : (s.modLink a d f).ctl = s.ctl := rfl
@[simp] theorem State.modLink_flight : (s.modLink a d f).flight = s.flight := rfl
@[simp] theorem State.modLink_col : (s.modLink a d f).col = s.col := rfl
@[simp] theorem State.modLink_hut : (s.modLink a d f).hut = s.hut := rfl
@[simp] theorem State.modLink_memc : (s.modLink a d f).memc = s.memc := rfl
@[simp] theorem State.modLink_cfg : (s.modLink a d f).cfg = s.cfg := rfl
@[simp] theorem State.modLink_gate : (s.modLink a d f).gate = s.gate := rfl
@[simp] theorem State.modLink_fuses : (s.modLink a d f).fuses = s.fuses := rfl
@[simp] theorem State.modLink_board : (s.modLink a d f).board = s.board := rfl
@[simp] theorem State.modLink_seedNext : (s.modLink a d f).seedNext = s.seedNext := rfl
@[simp] theorem State.modLink_domPend : (s.modLink a d f).domPend = s.domPend := rfl
@[simp] theorem State.modLink_lenPend : (s.modLink a d f).lenPend = s.lenPend := rfl
@[simp] theorem State.modLink_lenNext : (s.modLink a d f).lenNext = s.lenNext := rfl
@[simp] theorem State.modLink_evs : (s.modLink a d f).evs = s.evs := rfl
@[simp] theorem State.modLink_hostSigs : (s.modLink a d f).hostSigs = s.hostSigs := rfl
@[simp] theorem State.modLink_padOld : (s.modLink a d f).padOld = s.padOld := rfl
@[simp] theorem State.modLink_arbs : (s.modLink a d f).arbs = s.arbs := rfl
@[simp] theorem State.modLink_free : (s.modLink a d f).free = s.free := rfl
@[simp] theorem State.modLink_out : (s.modLink a d f).out = s.out := rfl
end

section
variable (s : State) (f : HutX → HutX)
@[simp] theorem State.modHut_pending : (s.modHut f).pending = s.pending := rfl
@[simp] theorem State.modHut_cycle : (s.modHut f).cycle = s.cycle := rfl
@[simp] theorem State.modHut_cycles : (s.modHut f).cycles = s.cycles := rfl
@[simp] theorem State.modHut_time : (s.modHut f).time = s.time := rfl
@[simp] theorem State.modHut_regs : (s.modHut f).regs = s.regs := rfl
@[simp] theorem State.modHut_counters : (s.modHut f).counters = s.counters := rfl
@[simp] theorem State.modHut_snaps : (s.modHut f).snaps = s.snaps := rfl
@[simp] theorem State.modHut_mem : (s.modHut f).mem = s.mem := rfl
@[simp] theorem State.modHut_poison : (s.modHut f).poison = s.poison := rfl
@[simp] theorem State.modHut_synd : (s.modHut f).synd = s.synd := rfl
@[simp] theorem State.modHut_sites : (s.modHut f).sites = s.sites := rfl
@[simp] theorem State.modHut_sigAdds : (s.modHut f).sigAdds = s.sigAdds := rfl
@[simp] theorem State.modHut_sigNext : (s.modHut f).sigNext = s.sigNext := rfl
@[simp] theorem State.modHut_ringDue : (s.modHut f).ringDue = s.ringDue := rfl
@[simp] theorem State.modHut_credNext : (s.modHut f).credNext = s.credNext := rfl
@[simp] theorem State.modHut_ctl : (s.modHut f).ctl = s.ctl := rfl
@[simp] theorem State.modHut_flight : (s.modHut f).flight = s.flight := rfl
@[simp] theorem State.modHut_col : (s.modHut f).col = s.col := rfl
@[simp] theorem State.modHut_memc : (s.modHut f).memc = s.memc := rfl
@[simp] theorem State.modHut_cfg : (s.modHut f).cfg = s.cfg := rfl
@[simp] theorem State.modHut_gate : (s.modHut f).gate = s.gate := rfl
@[simp] theorem State.modHut_fuses : (s.modHut f).fuses = s.fuses := rfl
@[simp] theorem State.modHut_board : (s.modHut f).board = s.board := rfl
@[simp] theorem State.modHut_seedNext : (s.modHut f).seedNext = s.seedNext := rfl
@[simp] theorem State.modHut_domPend : (s.modHut f).domPend = s.domPend := rfl
@[simp] theorem State.modHut_lenPend : (s.modHut f).lenPend = s.lenPend := rfl
@[simp] theorem State.modHut_lenNext : (s.modHut f).lenNext = s.lenNext := rfl
@[simp] theorem State.modHut_evs : (s.modHut f).evs = s.evs := rfl
@[simp] theorem State.modHut_hostSigs : (s.modHut f).hostSigs = s.hostSigs := rfl
@[simp] theorem State.modHut_padOld : (s.modHut f).padOld = s.padOld := rfl
@[simp] theorem State.modHut_arbs : (s.modHut f).arbs = s.arbs := rfl
@[simp] theorem State.modHut_free : (s.modHut f).free = s.free := rfl
@[simp] theorem State.modHut_out : (s.modHut f).out = s.out := rfl
end

section
variable (s : State) (o : Output)
@[simp] theorem State.emit_pending : (s.emit o).pending = s.pending := rfl
@[simp] theorem State.emit_cycle : (s.emit o).cycle = s.cycle := rfl
@[simp] theorem State.emit_cycles : (s.emit o).cycles = s.cycles := rfl
@[simp] theorem State.emit_time : (s.emit o).time = s.time := rfl
@[simp] theorem State.emit_regs : (s.emit o).regs = s.regs := rfl
@[simp] theorem State.emit_counters : (s.emit o).counters = s.counters := rfl
@[simp] theorem State.emit_snaps : (s.emit o).snaps = s.snaps := rfl
@[simp] theorem State.emit_mem : (s.emit o).mem = s.mem := rfl
@[simp] theorem State.emit_poison : (s.emit o).poison = s.poison := rfl
@[simp] theorem State.emit_synd : (s.emit o).synd = s.synd := rfl
@[simp] theorem State.emit_sites : (s.emit o).sites = s.sites := rfl
@[simp] theorem State.emit_sigAdds : (s.emit o).sigAdds = s.sigAdds := rfl
@[simp] theorem State.emit_sigNext : (s.emit o).sigNext = s.sigNext := rfl
@[simp] theorem State.emit_ringDue : (s.emit o).ringDue = s.ringDue := rfl
@[simp] theorem State.emit_credNext : (s.emit o).credNext = s.credNext := rfl
@[simp] theorem State.emit_ctl : (s.emit o).ctl = s.ctl := rfl
@[simp] theorem State.emit_flight : (s.emit o).flight = s.flight := rfl
@[simp] theorem State.emit_col : (s.emit o).col = s.col := rfl
@[simp] theorem State.emit_hut : (s.emit o).hut = s.hut := rfl
@[simp] theorem State.emit_memc : (s.emit o).memc = s.memc := rfl
@[simp] theorem State.emit_cfg : (s.emit o).cfg = s.cfg := rfl
@[simp] theorem State.emit_gate : (s.emit o).gate = s.gate := rfl
@[simp] theorem State.emit_fuses : (s.emit o).fuses = s.fuses := rfl
@[simp] theorem State.emit_board : (s.emit o).board = s.board := rfl
@[simp] theorem State.emit_seedNext : (s.emit o).seedNext = s.seedNext := rfl
@[simp] theorem State.emit_domPend : (s.emit o).domPend = s.domPend := rfl
@[simp] theorem State.emit_lenPend : (s.emit o).lenPend = s.lenPend := rfl
@[simp] theorem State.emit_lenNext : (s.emit o).lenNext = s.lenNext := rfl
@[simp] theorem State.emit_evs : (s.emit o).evs = s.evs := rfl
@[simp] theorem State.emit_hostSigs : (s.emit o).hostSigs = s.hostSigs := rfl
@[simp] theorem State.emit_padOld : (s.emit o).padOld = s.padOld := rfl
@[simp] theorem State.emit_arbs : (s.emit o).arbs = s.arbs := rfl
@[simp] theorem State.emit_free : (s.emit o).free = s.free := rfl
end

section
variable (s : State) (a i : Nat) (l : List (Fld × Nat))
@[simp] theorem State.wrs_pending : (s.wrs a i l).pending = s.pending := by
  induction l generalizing s with
  | nil => rfl
  | cons x l ih => exact ih (s.wr x.1 a i x.2)
@[simp] theorem State.wrs_cycle : (s.wrs a i l).cycle = s.cycle := by
  induction l generalizing s with
  | nil => rfl
  | cons x l ih => exact ih (s.wr x.1 a i x.2)
@[simp] theorem State.wrs_cycles : (s.wrs a i l).cycles = s.cycles := by
  induction l generalizing s with
  | nil => rfl
  | cons x l ih => exact ih (s.wr x.1 a i x.2)
@[simp] theorem State.wrs_time : (s.wrs a i l).time = s.time := by
  induction l generalizing s with
  | nil => rfl
  | cons x l ih => exact ih (s.wr x.1 a i x.2)
@[simp] theorem State.wrs_counters : (s.wrs a i l).counters = s.counters := by
  induction l generalizing s with
  | nil => rfl
  | cons x l ih => exact ih (s.wr x.1 a i x.2)
@[simp] theorem State.wrs_snaps : (s.wrs a i l).snaps = s.snaps := by
  induction l generalizing s with
  | nil => rfl
  | cons x l ih => exact ih (s.wr x.1 a i x.2)
@[simp] theorem State.wrs_mem : (s.wrs a i l).mem = s.mem := by
  induction l generalizing s with
  | nil => rfl
  | cons x l ih => exact ih (s.wr x.1 a i x.2)
@[simp] theorem State.wrs_poison : (s.wrs a i l).poison = s.poison := by
  induction l generalizing s with
  | nil => rfl
  | cons x l ih => exact ih (s.wr x.1 a i x.2)
@[simp] theorem State.wrs_synd : (s.wrs a i l).synd = s.synd := by
  induction l generalizing s with
  | nil => rfl
  | cons x l ih => exact ih (s.wr x.1 a i x.2)
@[simp] theorem State.wrs_sites : (s.wrs a i l).sites = s.sites := by
  induction l generalizing s with
  | nil => rfl
  | cons x l ih => exact ih (s.wr x.1 a i x.2)
@[simp] theorem State.wrs_sigAdds : (s.wrs a i l).sigAdds = s.sigAdds := by
  induction l generalizing s with
  | nil => rfl
  | cons x l ih => exact ih (s.wr x.1 a i x.2)
@[simp] theorem State.wrs_sigNext : (s.wrs a i l).sigNext = s.sigNext := by
  induction l generalizing s with
  | nil => rfl
  | cons x l ih => exact ih (s.wr x.1 a i x.2)
@[simp] theorem State.wrs_ringDue : (s.wrs a i l).ringDue = s.ringDue := by
  induction l generalizing s with
  | nil => rfl
  | cons x l ih => exact ih (s.wr x.1 a i x.2)
@[simp] theorem State.wrs_credNext : (s.wrs a i l).credNext = s.credNext := by
  induction l generalizing s with
  | nil => rfl
  | cons x l ih => exact ih (s.wr x.1 a i x.2)
@[simp] theorem State.wrs_ctl : (s.wrs a i l).ctl = s.ctl := by
  induction l generalizing s with
  | nil => rfl
  | cons x l ih => exact ih (s.wr x.1 a i x.2)
@[simp] theorem State.wrs_flight : (s.wrs a i l).flight = s.flight := by
  induction l generalizing s with
  | nil => rfl
  | cons x l ih => exact ih (s.wr x.1 a i x.2)
@[simp] theorem State.wrs_col : (s.wrs a i l).col = s.col := by
  induction l generalizing s with
  | nil => rfl
  | cons x l ih => exact ih (s.wr x.1 a i x.2)
@[simp] theorem State.wrs_hut : (s.wrs a i l).hut = s.hut := by
  induction l generalizing s with
  | nil => rfl
  | cons x l ih => exact ih (s.wr x.1 a i x.2)
@[simp] theorem State.wrs_memc : (s.wrs a i l).memc = s.memc := by
  induction l generalizing s with
  | nil => rfl
  | cons x l ih => exact ih (s.wr x.1 a i x.2)
@[simp] theorem State.wrs_cfg : (s.wrs a i l).cfg = s.cfg := by
  induction l generalizing s with
  | nil => rfl
  | cons x l ih => exact ih (s.wr x.1 a i x.2)
@[simp] theorem State.wrs_gate : (s.wrs a i l).gate = s.gate := by
  induction l generalizing s with
  | nil => rfl
  | cons x l ih => exact ih (s.wr x.1 a i x.2)
@[simp] theorem State.wrs_fuses : (s.wrs a i l).fuses = s.fuses := by
  induction l generalizing s with
  | nil => rfl
  | cons x l ih => exact ih (s.wr x.1 a i x.2)
@[simp] theorem State.wrs_board : (s.wrs a i l).board = s.board := by
  induction l generalizing s with
  | nil => rfl
  | cons x l ih => exact ih (s.wr x.1 a i x.2)
@[simp] theorem State.wrs_seedNext : (s.wrs a i l).seedNext = s.seedNext := by
  induction l generalizing s with
  | nil => rfl
  | cons x l ih => exact ih (s.wr x.1 a i x.2)
@[simp] theorem State.wrs_domPend : (s.wrs a i l).domPend = s.domPend := by
  induction l generalizing s with
  | nil => rfl
  | cons x l ih => exact ih (s.wr x.1 a i x.2)
@[simp] theorem State.wrs_lenPend : (s.wrs a i l).lenPend = s.lenPend := by
  induction l generalizing s with
  | nil => rfl
  | cons x l ih => exact ih (s.wr x.1 a i x.2)
@[simp] theorem State.wrs_lenNext : (s.wrs a i l).lenNext = s.lenNext := by
  induction l generalizing s with
  | nil => rfl
  | cons x l ih => exact ih (s.wr x.1 a i x.2)
@[simp] theorem State.wrs_evs : (s.wrs a i l).evs = s.evs := by
  induction l generalizing s with
  | nil => rfl
  | cons x l ih => exact ih (s.wr x.1 a i x.2)
@[simp] theorem State.wrs_hostSigs : (s.wrs a i l).hostSigs = s.hostSigs := by
  induction l generalizing s with
  | nil => rfl
  | cons x l ih => exact ih (s.wr x.1 a i x.2)
@[simp] theorem State.wrs_padOld : (s.wrs a i l).padOld = s.padOld := by
  induction l generalizing s with
  | nil => rfl
  | cons x l ih => exact ih (s.wr x.1 a i x.2)
@[simp] theorem State.wrs_arbs : (s.wrs a i l).arbs = s.arbs := by
  induction l generalizing s with
  | nil => rfl
  | cons x l ih => exact ih (s.wr x.1 a i x.2)
@[simp] theorem State.wrs_free : (s.wrs a i l).free = s.free := by
  induction l generalizing s with
  | nil => rfl
  | cons x l ih => exact ih (s.wr x.1 a i x.2)
@[simp] theorem State.wrs_out : (s.wrs a i l).out = s.out := by
  induction l generalizing s with
  | nil => rfl
  | cons x l ih => exact ih (s.wr x.1 a i x.2)
end

/-! ### Registers -/

theorem State.word_setWord (s : State) (r r' : RegName) (a i a' i' : Nat) (w : Word) :
    (s.setWord r a i w).word r' a' i' = if r' = r ∧ a' = a ∧ i' = i then w else s.word r' a' i' := by
  simp only [State.word, State.setWord, aget_aput, RegKey.mk.injEq]
  by_cases h : r' = r ∧ a' = a ∧ i' = i
  · simp [h]
  · rw [if_neg h, if_neg h]

@[simp] theorem State.word_setWord_same (s : State) (r : RegName) (a i : Nat) (w : Word) :
    (s.setWord r a i w).word r a i = w := by simp [State.word_setWord]

theorem State.word_setWord_ne (s : State) {r r' : RegName} {a i a' i' : Nat} (w : Word)
    (h : ¬ (r' = r ∧ a' = a ∧ i' = i)) : (s.setWord r a i w).word r' a' i' = s.word r' a' i' := by
  rw [State.word_setWord, if_neg h]

/-- A register other than the one a field was set in keeps its word. -/
theorem State.word_wr_ne (s : State) {f : Fld} {r' : RegName} {a i a' i' : Nat} (v : Nat)
    (h : ¬ (r' = f.reg ∧ a' = a ∧ i' = i)) : (s.wr f a i v).word r' a' i' = s.word r' a' i' :=
  s.word_setWord_ne _ h

theorem State.word_wr (s : State) (f : Fld) (r' : RegName) (a i a' i' v : Nat) :
    (s.wr f a i v).word r' a' i' =
      if r' = f.reg ∧ a' = a ∧ i' = i then fieldSet f v (s.word f.reg a i) else s.word r' a' i' :=
  s.word_setWord ..

/-- A field reads back what the hardware set it to. -/
theorem State.rd_wr_same (s : State) (f : Fld) (a i v : Nat) (h : f.fits) :
    (s.wr f a i v).rd f a i = v % 2 ^ f.width := by
  simp [State.rd, State.wr, fieldGet_fieldSet f v _ h]

/-- A field of another register keeps its value. -/
theorem State.rd_wr_ne (s : State) {f g : Fld} {a i a' i' : Nat} (v : Nat)
    (h : ¬ (g.reg = f.reg ∧ a' = a ∧ i' = i)) : (s.wr f a i v).rd g a' i' = s.rd g a' i' := by
  simp only [State.rd, State.word_wr_ne s v h]

/-- A field apart from the one set keeps its value. -/
theorem State.rd_wr_apart (s : State) {f g : Fld} {a i a' i' : Nat} (v : Nat) (h : f.apart g) :
    (s.wr f a i v).rd g a' i' = s.rd g a' i' := by
  by_cases hk : g.reg = f.reg ∧ a' = a ∧ i' = i
  · obtain ⟨h1, h2, h3⟩ := hk
    subst h2; subst h3
    simp [State.rd, State.wr, h1, fieldGet_fieldSet_apart f g v _ h]
  · exact s.rd_wr_ne v hk

/-- Registers read the same when the register files are equal. -/
theorem State.word_congr {s t : State} (h : t.regs = s.regs) (r : RegName) (a i : Nat) : t.word r a i = s.word r a i := by
  simp [State.word, h]

theorem State.rd_congr {s t : State} (h : t.regs = s.regs) (f : Fld) (a i : Nat) : t.rd f a i = s.rd f a i := by
  simp [State.rd, State.word_congr h]

section
variable (s : State) (r : RegName) (f : Fld) (a i : Nat)
@[simp] theorem State.word_count (c : Ctr) (b n : Nat) : (s.count c b n).word r a i = s.word r a i := rfl
@[simp] theorem State.word_putByte (x : Nat) (b : Byte) : (s.putByte x b).word r a i = s.word r a i := rfl
@[simp] theorem State.word_setPois (w : Nat) (p : Bool) : (s.setPois w p).word r a i = s.word r a i := rfl
@[simp] theorem State.word_modSite (b : Nat) (g : Site → Site) : (s.modSite b g).word r a i = s.word r a i := rfl
@[simp] theorem State.word_modSeq (b : Nat) (g : SeqX → SeqX) : (s.modSeq b g).word r a i = s.word r a i := rfl
@[simp] theorem State.word_modMtx (b : Nat) (g : MtxX → MtxX) : (s.modMtx b g).word r a i = s.word r a i := rfl
@[simp] theorem State.word_modVec (b : Nat) (g : VecX → VecX) : (s.modVec b g).word r a i = s.word r a i := rfl
@[simp] theorem State.word_modQueue (b q : Nat) (g : QueueX → QueueX) : (s.modQueue b q g).word r a i = s.word r a i := rfl
@[simp] theorem State.word_modStr (b n : Nat) (g : StrX → StrX) : (s.modStr b n g).word r a i = s.word r a i := rfl
@[simp] theorem State.word_modSteer (b n : Nat) (g : SteerX → SteerX) : (s.modSteer b n g).word r a i = s.word r a i := rfl
@[simp] theorem State.word_modSync (b : Nat) (g : SyncX → SyncX) : (s.modSync b g).word r a i = s.word r a i := rfl
@[simp] theorem State.word_modLink (b d : Nat) (g : LinkX → LinkX) : (s.modLink b d g).word r a i = s.word r a i := rfl
@[simp] theorem State.word_modHut (g : HutX → HutX) : (s.modHut g).word r a i = s.word r a i := rfl
@[simp] theorem State.word_emit (o : Output) : (s.emit o).word r a i = s.word r a i := rfl
@[simp] theorem State.rd_count (c : Ctr) (b n : Nat) : (s.count c b n).rd f a i = s.rd f a i := rfl
@[simp] theorem State.rd_modSite (b : Nat) (g : Site → Site) : (s.modSite b g).rd f a i = s.rd f a i := rfl
@[simp] theorem State.rd_modSeq (b : Nat) (g : SeqX → SeqX) : (s.modSeq b g).rd f a i = s.rd f a i := rfl
@[simp] theorem State.rd_modMtx (b : Nat) (g : MtxX → MtxX) : (s.modMtx b g).rd f a i = s.rd f a i := rfl
@[simp] theorem State.rd_modVec (b : Nat) (g : VecX → VecX) : (s.modVec b g).rd f a i = s.rd f a i := rfl
@[simp] theorem State.rd_modQueue (b q : Nat) (g : QueueX → QueueX) : (s.modQueue b q g).rd f a i = s.rd f a i := rfl
@[simp] theorem State.rd_modStr (b n : Nat) (g : StrX → StrX) : (s.modStr b n g).rd f a i = s.rd f a i := rfl
@[simp] theorem State.rd_modSteer (b n : Nat) (g : SteerX → SteerX) : (s.modSteer b n g).rd f a i = s.rd f a i := rfl
@[simp] theorem State.rd_modSync (b : Nat) (g : SyncX → SyncX) : (s.modSync b g).rd f a i = s.rd f a i := rfl
@[simp] theorem State.rd_modLink (b d : Nat) (g : LinkX → LinkX) : (s.modLink b d g).rd f a i = s.rd f a i := rfl
@[simp] theorem State.rd_modHut (g : HutX → HutX) : (s.modHut g).rd f a i = s.rd f a i := rfl
@[simp] theorem State.rd_emit (o : Output) : (s.emit o).rd f a i = s.rd f a i := rfl
end

/-! ### Counters -/

/-- A counter rises by what is added, modulo 2^48 (R110). -/
@[simp] theorem State.ctr_count_same (s : State) (c : Ctr) (a n : Nat) :
    (s.count c a n).ctr c a = (s.ctr c a + n) % 2 ^ 48 := by
  simp [State.ctr, State.count]

theorem State.ctr_count_ne (s : State) {c c' : Ctr} {a a' : Nat} (n : Nat) (h : c'.address a' ≠ c.address a) :
    (s.count c a n).ctr c' a' = s.ctr c' a' := by
  simp [State.ctr, State.count, aget_aput_ne _ _ h]

/-! ### Parts of a site -/

@[simp] theorem State.site_setSite_same (s : State) (a : Nat) (x : Site) : (s.setSite a x).site a = x := by
  simp [State.site, State.setSite]

theorem State.site_setSite_ne (s : State) {a b : Nat} (x : Site) (h : b ≠ a) : (s.setSite a x).site b = s.site b := by
  simp [State.site, State.setSite, aget_aput_ne _ _ h]

@[simp] theorem State.site_modSite_same (s : State) (a : Nat) (f : Site → Site) : (s.modSite a f).site a = f (s.site a) := by
  simp [State.modSite]

theorem State.site_modSite_ne (s : State) {a b : Nat} (f : Site → Site) (h : b ≠ a) : (s.modSite a f).site b = s.site b := by
  simp [State.modSite, s.site_setSite_ne _ h]

section
variable (s : State) (a : Nat)
@[simp] theorem State.seq_modSeq_same (f : SeqX → SeqX) : (s.modSeq a f).seq a = f (s.seq a) := by
  simp [State.seq, State.modSeq]
@[simp] theorem State.mtx_modMtx_same (f : MtxX → MtxX) : (s.modMtx a f).mtx a = f (s.mtx a) := by
  simp [State.mtx, State.modMtx]
@[simp] theorem State.vec_modVec_same (f : VecX → VecX) : (s.modVec a f).vec a = f (s.vec a) := by
  simp [State.vec, State.modVec]
@[simp] theorem State.sync_modSync_same (f : SyncX → SyncX) : (s.modSync a f).sync a = f (s.sync a) := by
  simp [State.sync, State.modSync]
@[simp] theorem State.queue_modQueue_same (q : Nat) (f : QueueX → QueueX) :
    (s.modQueue a q f).queue a q = f (s.queue a q) := by
  simp [State.queue, State.modQueue]
@[simp] theorem State.str_modStr_same (n : Nat) (f : StrX → StrX) : (s.modStr a n f).str a n = f (s.str a n) := by
  simp [State.str, State.modStr]
@[simp] theorem State.steer_modSteer_same (n : Nat) (f : SteerX → SteerX) :
    (s.modSteer a n f).steer a n = f (s.steer a n) := by
  simp [State.steer, State.modSteer]
@[simp] theorem State.link_modLink_same (d : Nat) (f : LinkX → LinkX) : (s.modLink a d f).link a d = f (s.link a d) := by
  simp [State.link, State.modLink]
end

/-- Sites read the same when the site lists are equal. -/
theorem State.site_congr {s t : State} (h : t.sites = s.sites) (a : Nat) : t.site a = s.site a := by
  simp [State.site, h]

section
variable (s : State) (b : Nat)
@[simp] theorem State.site_wr (f : Fld) (a i v : Nat) : (s.wr f a i v).site b = s.site b := rfl
@[simp] theorem State.site_setWord (r : RegName) (a i : Nat) (w : Word) : (s.setWord r a i w).site b = s.site b := rfl
@[simp] theorem State.site_count (c : Ctr) (a n : Nat) : (s.count c a n).site b = s.site b := rfl
@[simp] theorem State.site_modHut (f : HutX → HutX) : (s.modHut f).site b = s.site b := rfl
@[simp] theorem State.seq_wr (f : Fld) (a i v : Nat) : (s.wr f a i v).seq b = s.seq b := rfl
@[simp] theorem State.seq_setWord (r : RegName) (a i : Nat) (w : Word) : (s.setWord r a i w).seq b = s.seq b := rfl
@[simp] theorem State.seq_count (c : Ctr) (a n : Nat) : (s.count c a n).seq b = s.seq b := rfl
@[simp] theorem State.seq_modHut (f : HutX → HutX) : (s.modHut f).seq b = s.seq b := rfl
@[simp] theorem State.mtx_wr (f : Fld) (a i v : Nat) : (s.wr f a i v).mtx b = s.mtx b := rfl
@[simp] theorem State.mtx_count (c : Ctr) (a n : Nat) : (s.count c a n).mtx b = s.mtx b := rfl
@[simp] theorem State.queue_wr (f : Fld) (a i v q : Nat) : (s.wr f a i v).queue b q = s.queue b q := rfl
@[simp] theorem State.queue_count (c : Ctr) (a n q : Nat) : (s.count c a n).queue b q = s.queue b q := rfl
end

/-! ### Memory -/

@[simp] theorem State.byte_wr (s : State) (f : Fld) (a i v x : Nat) : (s.wr f a i v).byte x = s.byte x := rfl
@[simp] theorem State.byte_count (s : State) (c : Ctr) (a n x : Nat) : (s.count c a n).byte x = s.byte x := rfl
@[simp] theorem State.byte_setPois (s : State) (w : Nat) (p : Bool) (x : Nat) : (s.setPois w p).byte x = s.byte x := rfl
@[simp] theorem State.byte_modSite (s : State) (a : Nat) (f : Site → Site) (x : Nat) : (s.modSite a f).byte x = s.byte x := rfl

/-- A byte other than the one written keeps its value. -/
theorem State.byte_putByte_ne (s : State) {x y : Nat} (b : Byte) (h : y ≠ x) : (s.putByte x b).byte y = s.byte y :=
  mget_mput_ne 0 s.mem b h

/-- The byte written reads back, in a memory in canonical form. -/
theorem State.byte_putByte_same (s : State) (x : Nat) (b : Byte) (h : mcanon 0 s.mem = true) :
    (s.putByte x b).byte x = b := mget_mput_same 0 s.mem x b h

end Sys2Proof.Machine
end

