-- ==== Sys2Proof/Laws/Ops.lean ====
section
/-! SUPPORT. What the shared operations can do: the passing of time, writes of memory and their canonical form. -/

namespace Sys2Proof.Machine

/-! ### Folds -/

/-- What every step of a fold keeps, the fold keeps. -/
theorem foldl_keep {β γ : Type} (p : State → γ) (g : State → β → State) (h : ∀ s x, p (g s x) = p s) (l : List β)
    (s : State) : p (l.foldl g s) = p s := by
  induction l generalizing s with
  | nil => rfl
  | cons x l ih => rw [List.foldl_cons, ih, h]

/-- A property that every step of a fold keeps, the fold keeps. -/
theorem foldl_inv {β : Type} (P : State → Prop) (g : State → β → State) (h : ∀ s x, P s → P (g s x)) (l : List β)
    (s : State) (hs : P s) : P (l.foldl g s) := by
  induction l generalizing s with
  | nil => exact hs
  | cons x l ih => exact ih _ (h s x hs)

/-! ### Time -/

/-- The registers that the passing of time may change: signal counters, stream credits, the credits of rings and a barrier's count. -/
def timeRegs : List RegName := [.SEQ_SIG, .SEQ_SIG_STATUS, .STR_STATE, .TRN_THR_STATE, .QUE_STAT, .COL_BAR, .COL_BAR_ARR]

/-- The parts of the state that the passing of time alone cannot change. The release of a barrier may fall due as time passes (R247):
it changes registers, the control messages under way, the Col and the sections' note of it. -/
structure SameButTime (s t : State) : Prop where
  pending : t.pending = s.pending
  word : ∀ r a i, r ∉ timeRegs → t.word r a i = s.word r a i
  snaps : t.snaps = s.snaps
  mem : t.mem = s.mem
  poison : t.poison = s.poison
  synd : t.synd = s.synd
  sites : t.sites = s.sites
  flight : t.flight = s.flight
  hut : { t.hut with sects := [] } = { s.hut with sects := [] }
  memc : t.memc = s.memc
  cfg : t.cfg = s.cfg
  gate : t.gate = s.gate
  fuses : t.fuses = s.fuses
  board : t.board = s.board
  seedNext : t.seedNext = s.seedNext
  domPend : t.domPend = s.domPend
  lenPend : t.lenPend = s.lenPend
  lenNext : t.lenNext = s.lenNext
  free : t.free = s.free
  out : t.out = s.out

theorem SameButTime.refl (s : State) : SameButTime s s := by constructor <;> intros <;> rfl

theorem SameButTime.trans {s t u : State} (h : SameButTime s t) (k : SameButTime t u) : SameButTime s u := by
  constructor
  · exact k.pending.trans h.pending
  · exact fun r a i hr => (k.word r a i hr).trans (h.word r a i hr)
  · exact k.snaps.trans h.snaps
  · exact k.mem.trans h.mem
  · exact k.poison.trans h.poison
  · exact k.synd.trans h.synd
  · exact k.sites.trans h.sites
  · exact k.flight.trans h.flight
  · exact k.hut.trans h.hut
  · exact k.memc.trans h.memc
  · exact k.cfg.trans h.cfg
  · exact k.gate.trans h.gate
  · exact k.fuses.trans h.fuses
  · exact k.board.trans h.board
  · exact k.seedNext.trans h.seedNext
  · exact k.domPend.trans h.domPend
  · exact k.lenPend.trans h.lenPend
  · exact k.lenNext.trans h.lenNext
  · exact k.free.trans h.free
  · exact k.out.trans h.out

theorem SameButTime.setWord (s : State) {r : RegName} (h : r ∈ timeRegs) (a i : Nat) (w : Word) : SameButTime s (s.setWord r a i w) := by
  constructor <;> intros <;> try rfl
  exact s.word_setWord_ne w (fun e => ‹_ ∉ timeRegs› (e.1 ▸ h))
theorem SameButTime.setEvs (s : State) (l : List (RegKey × Word × Word)) : SameButTime s { s with evs := l } := by
  constructor <;> intros <;> rfl
theorem SameButTime.wr (s : State) {f : Fld} (h : f.reg ∈ timeRegs) (a i v : Nat) : SameButTime s (s.wr f a i v) := .setWord s h a i _
theorem SameButTime.note (s : State) {r : RegName} (h : r ∈ timeRegs) (a i : Nat) (g : Word → Word) : SameButTime s (s.note r a i g) :=
  (SameButTime.setWord s h a i _).trans (.setEvs _ _)
theorem SameButTime.noteFlag (s : State) {f : Fld} (h : f.reg ∈ timeRegs) (a i : Nat) : SameButTime s (s.noteFlag f a i) := .note s h a i _
theorem SameButTime.count (s : State) (c : Ctr) (a n : Nat) : SameButTime s (s.count c a n) := by constructor <;> intros <;> rfl

theorem SameButTime.foldl {β : Type} (g : State → β → State) (h : ∀ s x, SameButTime s (g s x)) (l : List β) (s : State) :
    SameButTime s (l.foldl g s) := by
  induction l generalizing s with
  | nil => exact .refl s
  | cons x l ih => exact (h s x).trans (ih (g s x))

theorem SameButTime.giveCredit (s : State) (a n : Nat) : SameButTime s (s.giveCredit a n) := by
  unfold State.giveCredit
  dsimp only
  have h : ∀ f g : Fld, f.reg ∈ timeRegs → g.reg ∈ timeRegs → (strFld a f g).reg ∈ timeRegs := fun f g hf hg => by
    unfold strFld; split <;> assumption
  split
  · exact .noteFlag _ (h _ _ (by decide) (by decide)) ..
  · exact .wr _ (h _ _ (by decide) (by decide)) ..

theorem sigFld_time (c : Nat) : (sigFld c).reg ∈ timeRegs := List.mem_cons_self ..

theorem SameButTime.applyAdd (s : State) (id n : Nat) : SameButTime s (s.applyAdd id n) := by
  unfold State.applyAdd State.setSig
  dsimp only
  split
  · exact .wr _ (sigFld_time _) ..
  · exact ((SameButTime.wr _ (sigFld_time _) ..).trans (.count ..)).trans (.note _ (by decide) ..)

theorem SameButTime.ringConsume (s : State) (id : Nat) : SameButTime s (s.ringConsume id) := by
  unfold State.ringConsume
  dsimp only
  split
  · exact (SameButTime.wr _ (by decide) ..).trans (.wr _ (sigFld_time _) ..)
  · exact .refl s

theorem SameButTime.sigAdd (s : State) (id n : Nat) : SameButTime s (s.sigAdd id n) := by constructor <;> intros <;> rfl

theorem SameButTime.setClear (s : State) : SameButTime s { s with ringDue := [], evs := [], hostSigs := [], padOld := [] } := by
  constructor <;> intros <;> rfl
theorem SameButTime.setAdds (s : State) : SameButTime s { s with sigAdds := [], sigNext := [] } := by constructor <;> intros <;> rfl
theorem SameButTime.setRing (s : State) (l : List Nat) : SameButTime s { s with ringDue := l } := by constructor <;> intros <;> rfl
theorem SameButTime.setCred (s : State) : SameButTime s { s with credNext := [] } := by constructor <;> intros <;> rfl
theorem SameButTime.setClock (s : State) (c d t : Nat) : SameButTime s { s with cycle := c, cycles := d, time := t } := by
  constructor <;> intros <;> rfl

theorem SameButTime.noteRelease (s : State) (part b : Nat) : SameButTime s (s.noteRelease part b) := by constructor <;> intros <;> rfl
theorem SameButTime.sendRelease (s : State) (l : List CtlMsg) (c : ColX) : SameButTime s { s with ctl := l, col := c } := by
  constructor <;> intros <;> rfl

theorem SameButTime.emitRelease (s : State) (b part : Nat) : SameButTime s (s.emitRelease b part) := by
  unfold State.emitRelease
  exact (((((SameButTime.foldl _ (fun s k => .setWord s (by decide) 0 (4 * b + k) 0) _ _).trans (.wr _ (by decide) ..)).trans (.wr _ (by decide) ..)).trans
    (.count ..)).trans (.noteRelease ..)).trans (.sendRelease ..)

/-- The release that is due, if one is. -/
theorem SameButTime.release (s : State) (d : Option (Nat × Nat)) :
    SameButTime s (match d with
      | some (b, part) => s.emitRelease b part
      | none => s) := by
  cases d with
  | none => exact .refl s
  | some x => exact .emitRelease s x.1 x.2

/-- The end of a cycle changes registers, counters, the clock and a barrier's release only. -/
theorem SameButTime.endCycle (s : State) : SameButTime s s.endCycle := by
  have h0 : ∀ (u : State) (k : List Nat),
      SameButTime u (k.foldl (fun s id => s.ringConsume id) { u with ringDue := [], evs := [], hostSigs := [], padOld := [] }) := fun u k =>
    (setClear u).trans (.foldl (fun s id => s.ringConsume id) SameButTime.ringConsume _ _)
  have h1 : ∀ (u : State) (k : List (Nat × Nat)),
      SameButTime u (k.foldl (fun s x => s.applyAdd x.1 x.2) { u with sigAdds := [], sigNext := [] }) := fun u k =>
    (setAdds u).trans (.foldl (fun s (x : Nat × Nat) => s.applyAdd x.1 x.2) (fun s x => SameButTime.applyAdd s x.1 x.2) _ _)
  have h2 : ∀ (u : State) (k : List (Nat × Nat)), SameButTime u (k.foldl (fun s x => s.sigAdd x.1 x.2) u) := fun u k =>
    .foldl (fun s (x : Nat × Nat) => s.sigAdd x.1 x.2) (fun s x => SameButTime.sigAdd s x.1 x.2) _ _
  have h3 : ∀ (u : State) (k : List (Nat × Nat)),
      SameButTime u (k.foldl (fun s x => s.giveCredit (x.1 / 16) (x.1 % 16)) { u with credNext := [] }) := fun u k =>
    (setCred u).trans (.foldl (fun s (x : Nat × Nat) => s.giveCredit (x.1 / 16) (x.1 % 16))
      (fun s x => SameButTime.giveCredit s (x.1 / 16) (x.1 % 16)) _ _)
  unfold State.endCycle
  exact (((((((h0 s _).trans (h1 _ _)).trans (setRing _ _)).trans (h2 _ _)).trans (h3 _ _))).trans (release _ s.col.due)).trans
    (setClock _ _ _ _)

theorem SameButTime.countDelay (s : State) (n : Nat) : SameButTime s (s.countDelay n) := by
  unfold State.countDelay
  split
  · exact .refl s
  · exact .foldl _ (fun s x => .count s _ x n) _ _

theorem SameButTime.elapse (s : State) (n : Nat) : SameButTime s (s.elapse n) := by
  match n with
  | 0 => exact .refl s
  | 1 => exact .endCycle s
  | 2 => exact (SameButTime.endCycle s).trans (.endCycle _)
  | n + 3 =>
    exact (((SameButTime.endCycle s).trans (.endCycle _)).trans (.endCycle _)).trans (.setClock _ _ _ _)

/-- Time that passes changes registers, counters and the clock only. -/
theorem SameButTime.pass (s : State) (n : Nat) : SameButTime s (s.pass n) :=
  (SameButTime.countDelay s n).trans (.elapse _ n)

/-- Reaching a later cycle of the pitch changes registers, counters and the clock only. -/
theorem SameButTime.at_ (s : State) (t : Nat) : SameButTime s (s.at_ t) := by
  unfold State.at_
  split
  · exact .refl s
  · exact .pass ..

section
variable (s : State) (t : Nat)
@[simp] theorem State.at_pending : (s.at_ t).pending = s.pending := (SameButTime.at_ s t).pending
@[simp] theorem State.at_snaps : (s.at_ t).snaps = s.snaps := (SameButTime.at_ s t).snaps
@[simp] theorem State.at_mem : (s.at_ t).mem = s.mem := (SameButTime.at_ s t).mem
@[simp] theorem State.at_poison : (s.at_ t).poison = s.poison := (SameButTime.at_ s t).poison
@[simp] theorem State.at_synd : (s.at_ t).synd = s.synd := (SameButTime.at_ s t).synd
@[simp] theorem State.at_sites : (s.at_ t).sites = s.sites := (SameButTime.at_ s t).sites
@[simp] theorem State.at_flight : (s.at_ t).flight = s.flight := (SameButTime.at_ s t).flight
@[simp] theorem State.at_memc : (s.at_ t).memc = s.memc := (SameButTime.at_ s t).memc
@[simp] theorem State.at_cfg : (s.at_ t).cfg = s.cfg := (SameButTime.at_ s t).cfg
@[simp] theorem State.at_gate : (s.at_ t).gate = s.gate := (SameButTime.at_ s t).gate
@[simp] theorem State.at_fuses : (s.at_ t).fuses = s.fuses := (SameButTime.at_ s t).fuses
@[simp] theorem State.at_board : (s.at_ t).board = s.board := (SameButTime.at_ s t).board
@[simp] theorem State.at_seedNext : (s.at_ t).seedNext = s.seedNext := (SameButTime.at_ s t).seedNext
@[simp] theorem State.at_domPend : (s.at_ t).domPend = s.domPend := (SameButTime.at_ s t).domPend
@[simp] theorem State.at_lenPend : (s.at_ t).lenPend = s.lenPend := (SameButTime.at_ s t).lenPend
@[simp] theorem State.at_lenNext : (s.at_ t).lenNext = s.lenNext := (SameButTime.at_ s t).lenNext
@[simp] theorem State.at_free : (s.at_ t).free = s.free := (SameButTime.at_ s t).free
@[simp] theorem State.at_out : (s.at_ t).out = s.out := (SameButTime.at_ s t).out
@[simp] theorem State.at_site (a : Nat) : (s.at_ t).site a = s.site a := State.site_congr (s.at_sites t) a
@[simp] theorem State.at_seq (a : Nat) : (s.at_ t).seq a = s.seq a := by simp [State.seq]
@[simp] theorem State.at_byte (x : Nat) : (s.at_ t).byte x = s.byte x := by simp [State.byte]
end

/-- A register that time does not change reads the same at a later cycle. -/
theorem State.at_word (s : State) (t : Nat) {r : RegName} (h : r ∉ timeRegs) (a i : Nat) : (s.at_ t).word r a i = s.word r a i :=
  (SameButTime.at_ s t).word r a i h
theorem State.at_rd (s : State) (t : Nat) {f : Fld} (h : f.reg ∉ timeRegs) (a i : Nat) : (s.at_ t).rd f a i = s.rd f a i := by
  simp only [State.rd, s.at_word t h]

/-- Time does not change whether a section runs. -/
theorem State.at_running (s : State) (t a : Nat) : (s.at_ t).running a = s.running a := by
  simp only [State.running, State.sectOf, State.at_site, State.sectState, s.at_rd t (f := F.HUT_SECT_STATE) (by decide)]

/-- A cycle that is not past is reached. -/
theorem State.at_cycle_self (s : State) : s.at_ s.cycle = s := by simp [State.at_]

/-! ### Memory -/

/-- The canonical form of memory, of its poison bits and of its stored errors. -/
def MemOk (s : State) : Prop := mcanon 0 s.mem = true ∧ mcanon 0 s.poison = true ∧ mcanon 0 s.synd = true

theorem MemOk.congr {s t : State} (h : MemOk s) (h1 : t.mem = s.mem) (h2 : t.poison = s.poison) (h3 : t.synd = s.synd) :
    MemOk t := by
  unfold MemOk
  rw [h1, h2, h3]
  exact h

theorem MemOk.same {s t : State} (h : MemOk s) (k : SameButTime s t) : MemOk t := h.congr k.mem k.poison k.synd

theorem MemOk.putByte {s : State} (h : MemOk s) (x : Nat) (b : Byte) : MemOk (s.putByte x b) :=
  ⟨mcanon_mput 0 _ _ _ h.1, h.2.1, h.2.2⟩

theorem MemOk.setPois {s : State} (h : MemOk s) (w : Nat) (p : Bool) : MemOk (s.setPois w p) :=
  ⟨h.1, mcanon_mput 0 s.poison w _ h.2.1, mcanon_mput 0 s.synd w 0 h.2.2⟩

theorem MemOk.putRaw {s : State} (h : MemOk s) (x : Nat) (l : List Byte) : MemOk (s.putRaw x l) := by
  induction l generalizing s x with
  | nil => exact h
  | cons b l ih => exact ih (h.putByte x b) (x + 1)

theorem MemOk.putBytes {s : State} (h : MemOk s) (x : Nat) (l : List Byte) (p : Bool) : MemOk (s.putBytes x l p) :=
  foldl_inv MemOk _ (fun _ w k => k.setPois w p) _ _ (h.putRaw x l)

theorem MemOk.putWord {s : State} (h : MemOk s) (x : Nat) (w : Word) (p : Bool) : MemOk (s.putWord x w p) :=
  (h.putRaw x _).setPois _ p

/-- Bytes outside a written run keep their values. -/
theorem State.byte_putRaw_out (s : State) (x : Nat) (l : List Byte) (y : Nat) (h : y < x ∨ x + l.length ≤ y) :
    (s.putRaw x l).byte y = s.byte y := by
  induction l generalizing s x with
  | nil => rfl
  | cons b l ih =>
    rw [List.length_cons] at h
    rw [State.putRaw, ih (s.putByte x b) (x + 1) (by omega), s.byte_putByte_ne b (by omega)]

theorem State.byte_setPoisAll (s : State) (l : List Nat) (p : Bool) (y : Nat) :
    (l.foldl (fun s w => s.setPois w p) s).byte y = s.byte y :=
  foldl_keep (fun s => s.byte y) _ (fun s w => s.byte_setPois w p y) l s

/-- An engine's write leaves every byte outside its run alone. -/
theorem State.byte_putBytes_out (s : State) (x : Nat) (l : List Byte) (p : Bool) (y : Nat)
    (h : y < x ∨ x + l.length ≤ y) : (s.putBytes x l p).byte y = s.byte y := by
  rw [State.putBytes, State.byte_setPoisAll, State.byte_putRaw_out s x l y h]

/-- The written run reads back. -/
theorem State.byte_putRaw_in (s : State) (x : Nat) (l : List Byte) (i : Nat) (hi : i < l.length)
    (h : mcanon 0 s.mem = true) : (s.putRaw x l).byte (x + i) = l[i] := by
  induction l generalizing s x i with
  | nil => simp at hi
  | cons b l ih =>
    rw [State.putRaw]
    cases i with
    | zero =>
      rw [State.byte_putRaw_out _ _ _ _ (by omega)]
      exact s.byte_putByte_same x b h
    | succ i =>
      have e : x + (i + 1) = x + 1 + i := by omega
      rw [e, ih (s.putByte x b) (x + 1) i (by simpa using hi) (mcanon_mput 0 _ _ _ h)]
      rfl

/-- An engine's write reads back. -/
theorem State.byte_putBytes_in (s : State) (x : Nat) (l : List Byte) (p : Bool) (i : Nat) (hi : i < l.length)
    (h : mcanon 0 s.mem = true) : (s.putBytes x l p).byte (x + i) = l[i] := by
  rw [State.putBytes, State.byte_setPoisAll, State.byte_putRaw_in s x l i hi h]

end Sys2Proof.Machine
end

