-- ==== Sys2Proof/Laws/Sequencer.lean ====
section
/-! SUPPORT. What an attempt to issue can do (R143 to R154), and what issuing changes. -/

namespace Sys2Proof.Machine

/-- The state in which an attempt is judged: the cycle reached, and a corrected fetch counted (R144). -/
def State.fetched (s : State) (p : At) (fixed : Bool) : State :=
  if fixed then ((s.at_ p.t.toNat).count C.CFG_CNT_FETCH_CE).count C.CHK_CNT_CE p.site.toNat else s.at_ p.t.toNat

/-- The value of an instruction's guard; an engine instruction has none. -/
def State.guardOk (s : State) (a : Nat) (i : SeqInstr) : Bool :=
  match i.guard? with
  | some g => s.guardHolds a g
  | none => true

/-- An attempt on the instruction that is at the head: every outcome it can have. -/
theorem issueWith_head (p : At) (i : SeqInstr) (pre : State → State) (chk : State → Att) (eff : State → State) (flow : Flow)
    (s : State) (w : Word) (fixed : Bool) (h1 : s.reaches p.t.toNat = true)
    (h2 : (s.at_ p.t.toNat).mayIssue p.site.toNat = true)
    (h3 : (s.at_ p.t.toNat).fetch p.site.toNat = .word w fixed) (h4 : decodeSeq w = some i) :
    issueWith p i pre chk eff flow s =
      (let u := s.fetched p fixed
       if illegalHere p.site.toNat (u.guardOk p.site.toNat i) i then u.seqTrap p.site.toNat 1 0x10 1
       else if !u.guardOk p.site.toNat i then u.issued p.site.toNat .on
       else match chk (pre u) with
         | .go => (eff (pre u)).issued p.site.toNat flow
         | .hold kind id => (pre u).seqHold p.site.toNat kind id
         | .held => ((pre u).seqHold p.site.toNat 0 0).wr F.SEQ_STATUS_STATE p.site.toNat 0 4
         | .trap src cls code => (pre u).seqTrap p.site.toNat src cls code) := by
  unfold issueWith
  simp only [h1, h2, h3, h4, Bool.not_true, Bool.false_eq_true, if_false, ne_eq, not_true_eq_false, State.fetched,
    State.guardOk]
  rfl

/-- An attempt whose instruction goes: its effect, then issue. -/
theorem issueWith_go (p : At) (i : SeqInstr) (pre : State → State) (chk : State → Att) (eff : State → State) (flow : Flow)
    (s : State) (w : Word) (fixed : Bool) (h1 : s.reaches p.t.toNat = true)
    (h2 : (s.at_ p.t.toNat).mayIssue p.site.toNat = true)
    (h3 : (s.at_ p.t.toNat).fetch p.site.toNat = .word w fixed) (h4 : decodeSeq w = some i)
    (h5 : (s.fetched p fixed).guardOk p.site.toNat i = true) (h6 : illegalHere p.site.toNat true i = false)
    (h7 : chk (pre (s.fetched p fixed)) = .go) :
    issueWith p i pre chk eff flow s = (eff (pre (s.fetched p fixed))).issued p.site.toNat flow := by
  rw [issueWith_head p i pre chk eff flow s w fixed h1 h2 h3 h4]
  simp [h5, h6, h7]

/-- An attempt whose guard is false: issue without an effect (R148). -/
theorem issueWith_guard_false (p : At) (i : SeqInstr) (pre : State → State) (chk : State → Att) (eff : State → State)
    (flow : Flow) (s : State) (w : Word) (fixed : Bool) (h1 : s.reaches p.t.toNat = true)
    (h2 : (s.at_ p.t.toNat).mayIssue p.site.toNat = true)
    (h3 : (s.at_ p.t.toNat).fetch p.site.toNat = .word w fixed) (h4 : decodeSeq w = some i)
    (h5 : (s.fetched p fixed).guardOk p.site.toNat i = false) (h6 : illegalHere p.site.toNat false i = false) :
    issueWith p i pre chk eff flow s = (s.fetched p fixed).issued p.site.toNat .on := by
  rw [issueWith_head p i pre chk eff flow s w fixed h1 h2 h3 h4]
  simp [h5, h6]

/-! ### What a corrected fetch leaves alone -/

section
variable (s : State) (p : At) (fixed : Bool)
@[simp] theorem State.fetched_regs : (s.fetched p fixed).regs = (s.at_ p.t.toNat).regs := by unfold State.fetched; split <;> rfl
@[simp] theorem State.fetched_sites : (s.fetched p fixed).sites = s.sites := by unfold State.fetched; split <;> simp
@[simp] theorem State.fetched_mem : (s.fetched p fixed).mem = s.mem := by unfold State.fetched; split <;> simp
@[simp] theorem State.fetched_poison : (s.fetched p fixed).poison = s.poison := by unfold State.fetched; split <;> simp
@[simp] theorem State.fetched_cycle : (s.fetched p fixed).cycle = (s.at_ p.t.toNat).cycle := by unfold State.fetched; split <;> rfl
@[simp] theorem State.fetched_cycles : (s.fetched p fixed).cycles = (s.at_ p.t.toNat).cycles := by
  unfold State.fetched; split <;> rfl
@[simp] theorem State.fetched_word (r : RegName) (a i : Nat) :
    (s.fetched p fixed).word r a i = (s.at_ p.t.toNat).word r a i := State.word_congr (by simp) r a i
@[simp] theorem State.fetched_rd (f : Fld) (a i : Nat) : (s.fetched p fixed).rd f a i = (s.at_ p.t.toNat).rd f a i :=
  State.rd_congr (by simp) f a i
@[simp] theorem State.fetched_seq (a : Nat) : (s.fetched p fixed).seq a = s.seq a := by simp [State.seq, State.site]
end

/-- Different addresses of two event counters of sites. -/
theorem Ctr.site_ne {j k : Nat} (a : Nat) (h : j ≠ k) : Ctr.address ⟨none, j⟩ a ≠ Ctr.address ⟨none, k⟩ a := by
  simp only [Ctr.address]
  omega

theorem State.fetched_ctr (s : State) (p : At) (fixed : Bool) (k a : Nat) (h : k ≠ 23) (ha : a < 256) (hk : k < 2048) :
    (s.fetched p fixed).ctr ⟨none, k⟩ a = (s.at_ p.t.toNat).ctr ⟨none, k⟩ a := by
  unfold State.fetched
  split
  · rw [State.ctr_count_ne _ _ (by simp only [Ctr.address, C.CHK_CNT_CE]; omega),
      State.ctr_count_ne _ _ (by simp only [Ctr.address, C.CFG_CNT_FETCH_CE]; omega)]
  · rfl

/-! ### Issue -/

section
variable (s : State) (a : Nat)
theorem State.settleHold_frame : (s.settleHold a).regs = s.regs ∧ (s.settleHold a).sites = s.sites ∧
    (s.settleHold a).mem = s.mem ∧ (s.settleHold a).poison = s.poison ∧
    (s.settleHold a).ctr C.SEQ_CNT_ISSUE a = s.ctr C.SEQ_CNT_ISSUE a := by
  unfold State.settleHold State.countHold
  split
  · split <;> first
      | exact ⟨rfl, rfl, rfl, rfl, rfl⟩
      | exact ⟨rfl, rfl, rfl, rfl, State.ctr_count_ne _ _ (Ctr.site_ne a (by decide))⟩
  · exact ⟨rfl, rfl, rfl, rfl, rfl⟩
end

theorem loopEnd_none (a pc : Nat) (l : List LoopFrame) (s : State) (h : ∀ f ∈ l, f.last ≠ pc) :
    loopEnd a pc l s = (none, l, s) := by
  cases l with
  | nil => rfl
  | cons f l => simp [loopEnd, h f (by simp)]

/-- Issue of an instruction at which no loop ends: registers and memory keep their values, the PC goes on by one, and one
issue is counted (R143). -/
theorem State.issued_on (s : State) (a : Nat) (h : ∀ f ∈ (s.seq a).frames, f.last ≠ (s.seq a).pc) :
    (s.issued a .on).regs = s.regs ∧ (s.issued a .on).mem = s.mem ∧ (s.issued a .on).poison = s.poison ∧
    ((s.issued a .on).seq a).pc = (s.seq a).pc + 1 ∧ ((s.issued a .on).seq a).frames = (s.seq a).frames ∧
    (s.issued a .on).ctr C.SEQ_CNT_ISSUE a = (s.ctr C.SEQ_CNT_ISSUE a + 1) % 2 ^ 48 ∧
    (∀ b, b ≠ a → (s.issued a .on).site b = s.site b) := by
  obtain ⟨h1, h2, h3, h4, h5⟩ := s.settleHold_frame a
  have hs : (s.settleHold a).seq a = s.seq a := by simp [State.seq, State.site, h2]
  unfold State.issued
  simp only [State.seq_count, hs, loopEnd_none a _ _ _ h, Option.getD_none]
  refine ⟨h1, h3, h4, ?_, ?_, ?_, ?_⟩
  · simp
  · simp [hs]
  · show ((s.settleHold a).count C.SEQ_CNT_ISSUE a 1).ctr C.SEQ_CNT_ISSUE a = _
    rw [State.ctr_count_same, h5]
  · intro b hb
    unfold State.modSeq
    rw [State.site_modSite_ne _ _ hb]
    simp [State.site, h2]

end Sys2Proof.Machine
end

