-- ==== Sys2Proof/Safety.lean ====
section
/-! DEFINITION. What counts as a safe run: no step stops, and the memory keeps its canonical form. -/

namespace Sys2Proof

open Sys2Proof.Machine

/-- The step answers a next state. -/
def Answers (s : State) : Prop := ∃ t, step s = .next t

end Sys2Proof
end

