-- ==== Sys2Proof/WellFormed.lean ====
section
/-! DEFINITION. Well-formed commands: those whose operands name a unit the device has and whose parts agree in length. Every
other value of an operand has the response the manual gives it, in the meaning (R2). -/

namespace Sys2Proof

open Sys2Proof.Machine

/-- A stream slot: 0 to 15 serve the partitions, 16 the base stream (R415). -/
def slotOk (k : SlotNo) : Bool := decide (k.toNat ≤ 16)

/-- A domain at a site: only a Tarn has tiers (R35). -/
def domOk (d : DomKind) (site : SiteId) : Bool :=
  match d with
  | .core => true
  | .router => true
  | .tier _ => isTarn site.toNat

/-- Whether a command is well formed: an engine of a Spur (R11, R21), a Tarn's claim service (R253), one of 192 Spurs or
channels (R11, R261), a stream slot, a flit of sixteen words (R203), a packet whose LEN is the length of its parts (R398). -/
def Instr.wellFormed (c : Instr) : Bool :=
  match c with
  | .pitchBoundary | .pitchWrap | .stallWatchdog _ | .idleClose _ _ | .claimRetry _ | .scrubStall
  | .scheduledDigest _ | .bivouacAutoEntry | .nop _ _ | .seqEnd _ _ | .br _ _ | .loop _ _ | .lset _ _ | .ladd _ _
  | .pset _ _ | .qtry _ _ | .sel _ _ | .tpush _ _ | .sig _ _ | .wait _ _ | .arrive _ _ | .claim _ _ | .strt _ _
  | .tmark _ _ | .mma _ _ | .mmerge _ _ | .msave _ _ | .mfree _ _ | .vop _ _ | .vrd _ _ | .vcvt _ _ | .vred _ _
  | .vld _ _ | .vst _ _ | .vimm _ _ | .queueTokenIntake _ _ | .steerFire _ _ | .mergeIntake _ _ | .mergeFire _ _
  | .aset _ _ _ | .aadd _ _ _ _ | .aarg _ _ _ _ | .aloop _ _ _ | .copy _ _ | .signal _ _ _ _ | .fence _
  | .streamProgramEnd _ | .streamRequest _ | .remoteRequest _ _ | .requestComplete _ _ | .streamProgramCompletion _
  | .linkNak _ _ _ | .holdLineDrop _ _ | .linkDead _ _ _ | .linkMark _ _ | .entryDepart _ _ | .receiveEntry _ _ _ _
  | .signalRecord _ _ _ _ _ | .remoteCreditReturn _ _ _ _ | .mcastCredit _ _ _ _ | .gapMarker _ _ | .controlInject _
  | .signalAdd _ _ | .addAck _ _ | .fencedArrivalOffer _ _ | .barrierArrival | .barrierRelease _ _
  | .claimReply _ _ _ _ | .connProbe _ _ _ | .connReply _ _ _ | .connRefuse _ _ _ _ | .connCommit _ _ _
  | .connClose _ _ _ | .backoffExpiry _ _ | .ringRecordWrite _ _ | .frameRead _ _ | .frameWrite _ _
  | .frameReread _ _ | .groupReformComplete _ | .frameTransferStart _ _ | .configFrameWrite _ _ _ _
  | .reconfigComplete _ _ | .quiescence _ _ | .saveComplete _ _ | .restoreComplete _ _ | .grantZeroingComplete _ _
  | .loaderCheck _ _ | .correctedWriteBack _ _ | .scrubFrameRead _ _ | .leafRead _ _ | .digestComplete _
  | .healthRecordAppend _ | .laneWindow _ _ | .retrainComplete _ | .retrainRetry _ | .datagram _ _ _ | .bootComplete
  | .startupStep _ | .pllLockTimeout | .pwrgdRise | .inputUndervoltage | .porstNAssert | .porstNDeassert _
  | .stageInNLow | .vbatLoss | .temperatureSample _ | .thermalWindow _ _ | .hello _ _ _ | .helloSend _
  | .ropeLinkDown _ | .pos _ _ | .chain _ _ | .ropeWake _ _ | .relayReq _ _ _ _ _ | .relayRsp _ _ _ _ _ | .relayRetry
  | .getStatus _ | .getIdentity _ | .setIp _ _ _ _ _ | .setVbatKey _ _ | .clearVbatKey _ | .progKeySlot _ _ _
  | .healthClear _ _ _ | .healthRead _ _ | .wake _ | .bivouacEnter _ | .ropeRelay _ _ _ | .setPowerLimit _ _
  | .getResult _ | .smbusCommandComplete _ | .alertResponse | .bivouacEntryComplete | .wakeComplete | .probe _
  | .announce | .hostClaim _ | .connect _ | .disconnect _ _ | .release _ | .rdmaWrite _ _ _ _ | .rdmaRead _ _ _ _
  | .doorbell _ _ _ | .streamBytes _ _ | .unsupportedOperation _ | .ceMarkedPacket _ | .cnp _ | .rateRecovery _
  | .ackTimeout _ | .pause _ | .pfc _ _ | .arp | .ndp | .icmpEcho | .ipFragment | .commandDispatch
  | .completionWrite _ | .load _ _ | .run _ _ | .preempt _ _ | .resume _ _ _ _ | .discard _ _ | .digestSet _ _
  | .digestNow _ _ | .regRead _ _ | .regWrite _ _ _ _ | .regWriteList _ _ _ | .wananSubmit _ _ _ _
  | .wananCommand _ _ | .tenantCreate _ _ _ _ _ | .tenantRemove _ _ | .partCreate _ _ | .partRemove _ _ | .grant _ _
  | .registerWrite _ _ _ _ | .colPitchCtrlWrite _ _ | .domainOn _ _ _ | .domainRetain _ _ _ | .domainOff _ _ _
  | .steerConfigWrite _ _ _ _ | .scrubCtrlWrite _ _ | .bivouacEnterWrite _ | .memErrLogRead _ | .loadRefusalRead _ _
  | .poisonLogRead _ _ | .eccLogRead _ _ | .steerDataIntake _ _ | .adminReconnectExpiry | .dhcpReply _
  | .otherImmediateSend _ _ => true
  | .healthySelftestDue spur | .watchedSelftestDue spur | .selftestComplete spur _ => decide (spur.toNat < 192)
  | .tileVerdict p _ | .tileReexecution p _ | .tileCommit p _ | .tileRelease p _ | .msaveSlotRead p | .physicalFree p
  | .skippedMmaRelease p | .vectorRowEntry p | .vectorRowGating p _ => isSpur p.site.toNat
  | .flitArrival _ _ f => decide (f.words.length = 16)
  | .claimRequest p _ => isTarn p.site.toNat
  | .patrolScrub ch _ | .periodicTraining ch _ | .bankRefresh ch _ | .channelMark ch => decide (ch.toNat < 192)
  | .domainPowerUpComplete d site => domOk d site
  | .streamHeader slot _ _ | .sync slot _ _ | .streamEndPacket slot _ | .signatureVerified slot | .loadDeadline slot =>
      slotOk slot
  | .nopPacket slot h data | .firmware slot h data | .frame slot h data | .image slot h data =>
      slotOk slot && decide (h.len.toNat = data.length)
  | .fwsig slot h pk sg | .signature slot h pk sg =>
      slotOk slot && decide (pk.length = 64) && decide (h.len.toNat = 64 + sg.length)
  | .wreg slot h recs => slotOk slot && decide (h.len.toNat = 16 * recs.length)
  | .startSeq slot h codes => slotOk slot && decide (h.len.toNat = codes.length)
  | .srSeedWrite _ site _ | .chkLogRead _ site => isSpur site.toNat

end Sys2Proof
end

