-- ==== Sys2Proof/Tests/Slice0.lean ====
section
/-! SUPPORT. Small tests of single steps: ill-formed commands that the check refuses, words written out from the encodings, and
for each statement states and operands that meet its hypotheses together, with what the step then does there. Expected
values are those of the manual's rules, worked out by hand. -/

namespace Sys2Proof.Tests

set_option Elab.async false

open Sys2Proof Sys2Proof.Machine

/-! ### Small states -/

/-- A device whose pitch clock runs, in cycle 100 of pitch 0. -/
def base : State := { State.reset with board := { BoardX.reset with pllLock := true }, cycle := 100, cycles := 100, time := 1200 }

/-- Fields of registers set: field, site, index, value. -/
def setAll (s : State) (l : List (Fld × Nat × Nat × Nat)) : State := l.foldl (fun s x => s.wr x.1 x.2.1 x.2.2.1 x.2.2.2) s

/-- The state a command leads to. -/
def after (c : Instr) (s : State) : State :=
  match exec c s with
  | .next t => t
  | _ => s

/-- Memory, its poison and every listed register but those named are equal. -/
def same (u t : State) (keep : RegName → Nat → Nat → Bool) : Bool :=
  t.mem == u.mem && t.poison == u.poison &&
  (List.append u.regs t.regs).all (fun x =>
    keep x.1.reg x.1.a x.1.i || t.word x.1.reg x.1.a x.1.i == u.word x.1.reg x.1.a x.1.i)

def none3 : RegName → Nat → Nat → Bool := fun _ _ _ => false
def one3 (r : RegName) (a i : Nat) : RegName → Nat → Nat → Bool := fun r' a' i' => r' == r && a' == a && i' == i

/-! ### A small section -/

/-- An image of one site with barrier 63, and no programs. -/
def img0 : SectionImage :=
  { formOk := true, version := 1, job := 700, w := 1, h := 1, homeC := 0, homeR := 0, finalBar := 63, modes := [], sites := [], conns := [], joins := [],
    bars := [⟨63, [0], 31, 1⟩], tarns := [], ext := [], seed := 0x1234, tiles := [], relocs := [], prefetch := [] }

/-- The same with a site record: two sequencer words, one of the address generator. -/
def rec0 : SiteRec := { site := 0, plen := 2, seq := [7, 9], ag := [5], regs := [], buffers := [] }
def img1 : SectionImage := { img0 with sites := [rec0] }

/-- What the Hut keeps of a section in a phase. -/
def sectx (g : SectionImage) (ph : SectPhase) (left : List Nat) : SectX :=
  { img := g, update := false, log2 := 16, everArmed := false, rearms := 0, halves := [], slotBase := [], groupBase := [], areas := [],
    frameBase := 0, stagedAt := none, framesLeft := left, startAt := 300,
    phase := ph, restoring := false, restored := false, framesDone := false, held := false, released := false, stamp := 0, runCtx := none,
    saved := [], savedBars := [], newRow := none, movedAt := none, autoRun := false, autoArm := false, haltSite := 0, since := 0, pfStarted := [], ran := false }

/-- Partition 1 has the left half of the device; its entry 1 (33) holds this section, of state `st`, at site 18 (column 2, row 1). -/
def sect (x : SectX) (st : Nat) : State :=
  let b := setAll { base with sites := [(18, { Site.reset with sect := some 33 })] }
    [(F.HUT_PART_ACTIVE, 0, 1, 1), (F.HUT_PART_NCB, 0, 1, 2), (F.HUT_PART_NROW, 0, 1, 16), (F.HUT_SECT_STATE, 0, 33, st),
     (F.HUT_SECT_ORG_COL, 0, 33, 2), (F.HUT_SECT_ORG_ROW, 0, 33, 1), (F.HUT_SECT_BUSY, 0, 33, 1), (F.HUT_SECT_JOB, 0, 33, 700)]
  b.modHut (fun h => { h with sects := [(33, x)] })

/-! ### A stream header -/

/-- A header of a stream of this KIND with FLAGS, its CRC to be the given one. -/
def hdrOf (kind flags : Byte) (crc : BitVec 32) : StreamHdr := ⟨0x58535254, 4, 0x0300, 0x41, kind, flags, 0, 9, 4096, 7, 0, crc⟩

/-! ### Reset -/
theorem test_reset_queue_empty : State.reset.pending = [] := rfl

/-! ### Ill-formed commands are refused, and their neighbours taken -/
theorem wf_refuses_spur_192 : (Instr.healthySelftestDue 192).wellFormed = false ∧ (Instr.healthySelftestDue 191).wellFormed = true ∧
    (Instr.watchedSelftestDue 200).wellFormed = false ∧ (Instr.selftestComplete 255 0).wellFormed = false := by decide

theorem wf_refuses_engines_of_tarns : (Instr.tileVerdict ⟨1, 0⟩ Upset.none).wellFormed = false ∧
    (Instr.physicalFree ⟨1, 0⟩).wellFormed = false ∧ (Instr.physicalFree ⟨0, 0⟩).wellFormed = true ∧
    (Instr.vectorRowEntry ⟨5, 0⟩).wellFormed = false := by decide

theorem wf_refuses_claims_at_spurs : (Instr.claimRequest ⟨0, 0⟩ ⟨0, 0, 0, 0, 0⟩).wellFormed = false ∧
    (Instr.claimRequest ⟨1, 0⟩ ⟨0, 0, 0, 0, 0⟩).wellFormed = true := by decide

theorem wf_refuses_channel_192 : (Instr.channelMark 192).wellFormed = false ∧ (Instr.channelMark 191).wellFormed = true := by decide

theorem wf_refuses_tier_of_spur : (Instr.domainPowerUpComplete (.tier 0) 0).wellFormed = false ∧
    (Instr.domainPowerUpComplete (.tier 0) 1).wellFormed = true := by decide

theorem wf_refuses_slot_17 : (Instr.loadDeadline 17).wellFormed = false ∧ (Instr.loadDeadline 16).wellFormed = true := by decide

theorem wf_refuses_wrong_lengths : (Instr.nopPacket 0 ⟨255, 0, 4, 0⟩ [0, 0]).wellFormed = false ∧
    (Instr.nopPacket 0 ⟨255, 0, 2, 0⟩ [0, 0]).wellFormed = true ∧
    (Instr.wreg 0 ⟨255, 0, 8, 0⟩ [(0, 0)]).wellFormed = false ∧ (Instr.startSeq 0 ⟨255, 0, 1, 0⟩ []).wellFormed = false ∧
    (Instr.fwsig 0 ⟨255, 0, 64, 0⟩ [0] []).wellFormed = false := by decide

theorem wf_refuses_short_flit : ∀ h : FlitHdr, (Instr.flitArrival 0 .n ⟨h, [], 0, 0⟩).wellFormed = false := by
  intro h; rfl

theorem wf_refuses_seed_of_tarn : (Instr.srSeedWrite .admin 1 0).wellFormed = false ∧ (Instr.chkLogRead .admin 14).wellFormed = false ∧
    (Instr.chkLogRead .admin 15).wellFormed = true := by decide

/-! ### Words written out from Tables 03-2, 03-3, 04-1, 05-2, 06-2 and 06-3 -/

/-- A word from its fields, each a value at its lowest bit. -/
def word (l : List (Nat × Nat)) : Word := BitVec.ofNat 64 (l.foldl (fun n x => n + x.1 * 2 ^ x.2) 0)

theorem decodes_control : decodeSeq (word [(3, 56), (5, 48), (700, 37), (65535, 21)]) = some (.loop ⟨⟨false, 0⟩, 5, 700, 65535⟩) ∧
    decodeSeq (word [(0x01, 56), (1, 55), (7, 52)]) = some (.endI ⟨true, 7⟩) ∧
    decodeSeq (word [(0x11, 56), (0xABCD, 0)]) = some (.tmark ⟨⟨false, 0⟩, 0xABCD⟩) := by decide +kernel

theorem decodes_predicates_and_queues :
    decodeSeq (word [(6, 56), (5, 49), (9, 45), (2, 42), (3, 39), (4, 36), (77, 0)]) = some (.pset ⟨⟨false, 0⟩, 5, 9, 2, 3, 4, 77⟩) ∧
    decodeSeq (word [(8, 56), (1, 49), (31, 44), (1, 43), (64, 36)]) = some (.qtry ⟨⟨false, 0⟩, 1, 31, true, 64⟩) ∧
    decodeSeq (word [(9, 56), (1, 49), (2, 45), (1, 44), (3, 41), (6, 0)]) = some (.sel ⟨⟨false, 0⟩, 1, 2, true, false, 3, 6⟩) ∧
    decodeSeq (word [(10, 56), (7, 49), (1, 48), (2, 45), (9, 0)]) = some (.tpush ⟨⟨false, 0⟩, 7, true, 2, 9⟩) := by decide +kernel

theorem decodes_synchronisation :
    decodeSeq (word [(12, 56), (1, 51), (33, 38), (4, 33), (2, 0)]) = some (.sig ⟨⟨false, 0⟩, true, 33, 4, 2⟩) ∧
    decodeSeq (word [(14, 56), (63, 46), (1, 45)]) = some (.arrive ⟨⟨false, 0⟩, 63, true, false⟩) ∧
    decodeSeq (word [(15, 56), (63, 46), (1, 40), (2, 36), (3, 0)]) = some (.claim ⟨⟨false, 0⟩, 63, 1, 2, 3⟩) ∧
    decodeSeq (word [(16, 56), (15, 48), (1, 47), (2, 44), (3, 0)]) = some (.strt ⟨⟨false, 0⟩, 15, true, 2, 3⟩) := by decide +kernel

theorem decodes_engines :
    decodeSeq (word [(0x41, 56), (3, 52), (2, 46), (1, 36), (127, 29), (1, 17)]) = some (.mmerge ⟨3, 2, 1, 127, false, true⟩) ∧
    decodeSeq (word [(0x42, 56), (3, 52), (64, 29)]) = some (.msave ⟨3, 64⟩) ∧
    decodeSeq (word [(0x51, 56), (1, 52), (2, 45), (3, 39), (4, 33), (1, 31), (1, 30), (5, 27), (6, 3)]) =
      some (.vrd ⟨1, 2, 3, 4, 1, true, 5, 6⟩) ∧
    decodeSeq (word [(0x54, 56), (1, 52), (0x1FFFF, 35), (3, 23), (63, 17)]) = some (.vld ⟨1, 0x1FFFF, 3, 63⟩) ∧
    decodeSeq (word [(0x56, 56), (511, 47), (1, 41), (2, 35), (0xFFFFFFFF, 0)]) = some (.vimm ⟨511, 1, 2, 0xFFFFFFFF⟩) := by decide +kernel

theorem decodes_streams : decodeAg (word [(2, 60), (1, 57), (2, 54), (0xFFFFFFFF, 0)]) = some (.aadd 1 2 0xFFFFFFFF) ∧
    decodeAg (word [(3, 60), (1, 57), (2, 54), (47, 48)]) = some (.aarg 1 2 47) ∧
    decodeAg (word [(4, 60), (511, 32), (9, 0)]) = some (.aloop 511 9) ∧
    decodeAg (word [(6, 60), (1, 59), (31, 48), (7, 0)]) = some (.signal true 31 7) ∧
    decodeAg (word [(7, 60)]) = some .fence ∧ decodeAg (word [(9, 60)]) = none := by decide +kernel

/-! ### The sequencer -/

/-- Site 0, a Spur whose section 0 runs, its program standing at address `pc` of these words. -/
def seqState (pc : Nat) (ws : List Word) : State :=
  let q : SeqX := { SeqX.reset with pc := pc }
  let site : Site := { Site.reset with sect := some 0, prog := (List.range ws.length).zip ws, seq := q }
  setAll { base with sites := [(0, site)] }
    [(F.SEQ_STATUS_STATE, 0, 0, 1), (F.SEQ_CTRL_PLEN, 0, 0, 8), (F.HUT_SECT_STATE, 0, 0, 3)]

/-- The same with one instruction at the head. -/
def headState (i : SeqInstr) : State := seqState 2 [0, 0, encodeSeq i]

/-- `MayIssueAt`, decided. -/
def mayIssueAt (s : State) (p : At) : Bool :=
  s.reaches p.t.toNat && s.running p.site.toNat && s.rd F.SEQ_STATUS_STATE p.site.toNat == 1 && !(s.seq p.site.toNat).selfTest &&
  (s.seq p.site.toNat).lastIssue != some (s.cycles + (p.t.toNat - s.cycle))

theorem mayIssueAt_of {s : State} {p : At} (h : mayIssueAt s p = true) : MayIssueAt s p := by
  simp only [mayIssueAt, Bool.and_eq_true, beq_iff_eq, bne_iff_ne, Bool.not_eq_true', and_assoc] at h
  exact ⟨h.1, h.2.1, h.2.2.1, h.2.2.2.1, h.2.2.2.2⟩

/-- `AtHead`, decided. -/
def atHead (s : State) (p : At) (i : SeqInstr) : Bool :=
  mayIssueAt s p && (match s.fetch p.site.toNat with
    | .word w _ => decodeSeq w == some i
    | _ => false)

theorem atHead_of {s : State} {p : At} {i : SeqInstr} (h : atHead s p i = true) : AtHead s p i := by
  simp only [atHead, Bool.and_eq_true] at h
  refine ⟨mayIssueAt_of h.1, ?_⟩
  have h2 := h.2
  split at h2
  · next w fixed hw => exact ⟨w, fixed, hw, by simpa using h2⟩
  · simp at h2

/-- Cycle 200 at site 0. -/
def p0 : At := ⟨0, 200⟩

def u0 (s : State) : State := s.at_ 200

/-- The instruction is at the head under a true guard, no loop ends there, and its command issues it, writing at most the
registers of `keep`. -/
def issues (i : SeqInstr) (s : State) (keep : RegName → Nat → Nat → Bool) : Bool :=
  let t := after (seqCommand p0 i) s
  atHead s p0 i && (match i.guard? with
    | some g => s.guardHolds 0 g
    | none => true) && (s.seq 0).frames.all (fun f => f.last != (s.seq 0).pc) &&
  (t.seq 0).pc == 3 && t.ctr C.SEQ_CNT_ISSUE 0 == 1 && same (u0 s) t keep

def gt : Guard := ⟨false, 0⟩
def gf : Guard := ⟨true, 0⟩

theorem witness_FalseGuard : (let i : SeqInstr := .wait ⟨gf, 3, 7⟩
    let s := headState i
    let t := after (seqCommand p0 i) s
    atHead s p0 i && !s.guardHolds 0 gf && !illegalHere 0 false i && (t.seq 0).pc == 3 && same (u0 s) t none3) = true := by
  decide +kernel

theorem witness_FetchStops : (let g : SeqInstr := .nop gt
    let r := seqState 8 []
    let b := { headState g with sites := (headState g).sites.map (fun x => (x.1, { x.2 with progSynd := [(2, 3)] })) }
    let bad := seqState 2 [0, 0, 0x0700000000000000]
    let f (s : State) : State := after (.nop p0 gt) s
    mayIssueAt r p0 && r.fetch 0 == .range && (f r).rd F.SEQ_STATUS_STATE 0 == 3 && (f r).rd F.SEQ_STATUS_LAST_TRAP 0 == 2 &&
    mayIssueAt bad p0 && bad.fetch 0 == .word 0x0700000000000000 false && (f bad).rd F.SEQ_STATUS_LAST_TRAP 0 == 1 &&
    mayIssueAt b p0 && b.fetch 0 == .bad && (f b).rd F.SEQ_STATUS_STATE 0 == 4 && (f b).ctr C.CHK_CNT_UE 0 == 1) = true := by decide +kernel

theorem witness_Scalar : (let a : SeqInstr := .lset ⟨gt, 3, 5⟩
    let b : SeqInstr := .ladd ⟨gt, 15, 0xFFFF⟩
    let sb := (headState b).setLc 0 15 2
    issues (.nop gt) (headState (.nop gt)) none3 && issues a (headState a) (one3 .SEQ_LC 0 0) &&
    (after (seqCommand p0 a) (headState a)).lc 0 3 == 5 && issues b sb (one3 .SEQ_LC 0 3) &&
    (after (seqCommand p0 b) sb).lc 0 15 == 1) = true := by decide +kernel

/-- PSET of P1 by LC0, P2 and P3 with IMM 5. -/
def psetI (c : BitVec 3) : SeqInstr := .pset ⟨gt, 1, 0, c, 2, 3, 5⟩
/-- What it leaves in P1 when LC0 is 4, P2 is 1 and P3 is 0. -/
def psetTo (c : BitVec 3) : Bool :=
  let s := (((headState (psetI c)).setLc 0 0 4).setPred 0 2 true)
  issues (psetI c) s (one3 .SEQ_PRED 0 0) && (after (seqCommand p0 (psetI c)) s).pred 0 1

theorem witness_Pset : ([psetTo 0, psetTo 1, psetTo 2, psetTo 3, psetTo 4, psetTo 5, psetTo 6] = [false, true, true, false, false, true, true]) ∧
    (let s := headState (psetI 7)
     atHead s p0 (psetI 7) && (after (seqCommand p0 (psetI 7)) s).rd F.SEQ_STATUS_LAST_TRAP 0 == 1) = true := by decide +kernel

theorem witness_Tmark : (let i : SeqInstr := .tmark ⟨gt, 0xBEEF⟩
    let t := after (seqCommand p0 i) (headState i)
    issues i (headState i) (one3 .SEQ_MARK 0 0) && t.rd F.SEQ_MARK_VALUE 0 == 0xBEEF && t.rd F.SEQ_MARK_CYCLE 0 == 200 &&
    t.rd F.SEQ_MARK_PITCH 0 == 0 && t.ctr C.SEQ_CNT_MARK 0 == 1) = true := by decide +kernel

/-- The state with loop frames, newest first. -/
def withFrames (s : State) (l : List LoopFrame) : State := s.modSeq 0 (fun q => { q with frames := l })

theorem witness_LoopBodyEnds : (let g : SeqInstr := .nop gt
    let s := withFrames (headState g) [⟨1, 2, 3, 4⟩, ⟨0, 7, 2, 5⟩]
    let e := s.setLc 0 4 2
    let t := after (.nop p0 gt) s
    let v := after (.nop p0 gt) e
    atHead s p0 g && (t.seq 0).pc == 1 && t.lc 0 4 == 1 && (t.seq 0).frames.length == 2 &&
    atHead e p0 g && (v.seq 0).pc == 3 && v.lc 0 4 == 3 && (v.seq 0).frames == [⟨0, 7, 2, 5⟩]) = true := by decide +kernel

theorem witness_Control : (let b : SeqInstr := .br ⟨gt, 6, 1⟩
    let s := withFrames (headState b) [⟨1, 7, 3, 4⟩]
    let l : SeqInstr := .loop ⟨gt, 4, 5, 9⟩
    let z : SeqInstr := .loop ⟨gt, 4, 5, 0⟩
    let e : SeqInstr := .endI gt
    let f (i : SeqInstr) (s : State) : State := after (seqCommand p0 i) s
    atHead s p0 b && ((f b s).seq 0).pc == 6 && ((f b s).seq 0).frames == [] &&
    (f b (headState b)).rd F.SEQ_STATUS_LAST_TRAP 0 == 3 &&
    issues l (headState l) (one3 .SEQ_LC 0 1) && ((f l (headState l)).seq 0).frames == [⟨3, 5, 9, 4⟩] &&
    atHead (headState z) p0 z && ((f z (headState z)).seq 0).pc == 6 &&
    issues e (headState e) (one3 .SEQ_STATUS 0 0) && (f e (headState e)).rd F.SEQ_STATUS_STATE 0 == 2) = true := by decide +kernel

/-- A receiving queue 5 (role 2) with two entries; queue 6 (role 1) is empty. -/
def queues (s : State) : State :=
  (setAll s [(F.QUE_CFG_ROLE, 0, 5, 2), (F.QUE_CFG_ROLE, 0, 6, 1)]).modQueue 0 5
    (fun q => { q with items := [.entry ⟨1, 0, 0⟩ 10, .entry ⟨2, 0, 0⟩ 11] })

/-- The command of an instruction at the head of a state. -/
def run (i : SeqInstr) (s : State) : State := after (seqCommand p0 i) s

theorem witness_Queue_instructions : (let z : SeqInstr := .qtry ⟨gt, 1, 5, false, 0⟩
    let r : SeqInstr := .qtry ⟨gt, 1, 5, false, 2⟩
    let w : SeqInstr := .qtry ⟨gt, 1, 6, true, 64⟩
    let l : SeqInstr := .sel ⟨gt, 1, 2, false, false, 0, 0x60⟩
    let m : SeqInstr := .sel ⟨gt, 1, 2, true, false, 3, 0x60⟩
    let y : SeqInstr := .sel ⟨gt, 1, 2, false, true, 0, 0x40⟩
    let h (i : SeqInstr) : State := queues (headState i)
    let both : RegName → Nat → Nat → Bool := fun r a i => one3 .SEQ_PRED 0 0 r a i || one3 .QUE_STAT 0 6 r a i
    let lcs : RegName → Nat → Nat → Bool := fun r a i => one3 .SEQ_PRED 0 0 r a i || one3 .SEQ_LC 0 0 r a i || one3 .SEQ_SELPTR 0 0 r a i
    issues z (h z) (one3 .SEQ_PRED 0 0) && (run z (h z)).pred 0 1 &&
    issues r (h r) (one3 .SEQ_PRED 0 0) && (run r (h r)).pred 0 1 && (run r (h r)).qReady 0 5 == 2 &&
    issues w (h w) both && (run w (h w)).pred 0 1 && (run w (h w)).qResv 0 6 == 64 &&
    (let s := setAll (h w) [(F.QUE_STAT_RESV, 0, 6, 1)]
     issues w s (one3 .SEQ_PRED 0 0) && !(run w s).pred 0 1 && (run w s).qResv 0 6 == 1) &&
    issues l (h l) lcs && selChoice 0 ⟨gt, 1, 2, false, false, 0, 0x60⟩ (u0 (h l)) == some 5 && (run l (h l)).lc 0 2 == 5 &&
    issues m (h m) lcs && (run m (h m)).lc 0 2 == 5 && (run m (h m)).rd (F.SEQ_SELPTR_PTR.at 5 3) 0 == 6 &&
    issues y (h y) (one3 .SEQ_PRED 0 0) && !(run y (h y)).pred 0 1) = true := by decide +kernel

theorem witness_Tpush : (let i : SeqInstr := .tpush ⟨gt, 7, true, 0, 0x0102⟩
    let s := setAll (headState i) [(F.SEQ_STEER_MODE, 0, 7, 1)]
    issues i s none3 && (u0 s).rd F.SEQ_STEER_TSRC 0 7 == 0 && ((run i s).steer 0 7).toks == [(0x0101, false)]) = true := by
  decide +kernel

theorem witness_Sig : (let a : SeqInstr := .sig ⟨gt, true, 9, 6, 4⟩
    let b : SeqInstr := .sig ⟨gt, false, 31, 0, 65535⟩
    let c : SeqInstr := .sig ⟨gt, false, 40, 0, 65535⟩
    let sc := (headState c).tableAdd 0 40 3
    let h (i : SeqInstr) : State := queues (headState i)
    issues a (h a) (one3 .QUE_STAT 0 6) && ((run a (h a)).queue 0 6).items == [.sig 9 4] &&
    issues b (h b) none3 && aget (run b (h b)).sigNext 31 == some 65535 &&
    issues c sc (one3 .SEQ_SIG_STATUS 0 0) && aget ((run c sc).sync 0).table 40 == some 65535 &&
    (run c sc).rd F.SEQ_SIG_STATUS_PEND_SAT 0 == 1) = true := by decide +kernel

theorem witness_Waits : (let w : SeqInstr := .wait ⟨gt, 31, 7⟩
    let a : SeqInstr := .arrive ⟨gt, 63, false, true⟩
    let c : SeqInstr := .claim ⟨gt, 63, 5, 4, 9⟩
    let sw := (headState w).setSig 0 31 7
    let sa := (((headState a).setSig 0 4 2).wr F.COL_BAR_REL 0 63 4).modSeq 0 (fun q => { q with arrived := true })
    let sc := (headState c).modSeq 0 (fun q => { q with claim := some ⟨63, 5, 9, 1, 0, some 0x12345, false⟩ })
    issues w sw (one3 .SEQ_SIG 0 7) && (run w sw).sig 0 31 == 0 && issues a sa (one3 .SEQ_SIG 0 1) &&
    (u0 sa).relOf 63 == 4 && (run a sa).sig 0 4 == 1 && !((run a sa).seq 0).arrived &&
    issues c sc (one3 .SEQ_LC 0 1) && (run c sc).lc 0 4 == 0x2345 && ((run c sc).seq 0).claim == none) = true := by decide +kernel

theorem witness_HeadRequests : (let a : SeqInstr := .arrive ⟨gt, 63, true, false⟩
    let f : SeqInstr := .arrive ⟨gt, 0, false, false⟩
    let c : SeqInstr := .claim ⟨gt, 63, 5, 4, 9⟩
    let sc := setAll (headState c) [(F.SEQ_CLAIM_REQ_SEQ, 0, 0, 65535)]
    issues a (headState a) (one3 .SEQ_BARFLAG 0 0) && ((run a (headState a)).sync 0).offered == [63] &&
    ((run a (headState a)).word .SEQ_BARFLAG 0 0).getLsbD 63 &&
    issues f (headState f) (one3 .SEQ_BARFLAG 0 0) && ((run f (headState f)).sync 0).fenced == [(0, 200, [])] &&
    atHead sc p0 c && (run c sc).rd F.SEQ_CLAIM_REQ_SEQ 0 == 0 && ((run c sc).seq 0).pc == 2 && ((run c sc).sync 0).claimOut &&
    same (u0 sc) (run c sc) (one3 .SEQ_CLAIM 0 0)) = true := by decide +kernel

theorem witness_Strt : (let i : SeqInstr := .strt ⟨gt, 3, true, 1, 0xBEEF⟩
    let h (v : Nat) : State := setAll (headState i) [(F.STR_STATE_STATE, 0, 3, v), (F.STR_DESC_START, 0, 3, 77)]
    let st (v : Nat) : Nat := (run i (h v)).rd F.STR_STATE_STATE 0 3
    atHead (h 0) p0 i && st 0 == 1 && (run i (h 0)).rd F.STR_STATE_ARG 0 3 == 0xBEEF && ((run i (h 0)).str 0 3).pc == 77 &&
    (run i (h 0)).pred 0 1 && atHead (h 1) p0 i && st 1 == 2 && (run i (h 1)).rd F.STR_STATE_SHADOW 0 3 == 0xBEEF &&
    (run i (h 1)).pred 0 1 && atHead (h 2) p0 i && st 2 == 2 && !(run i (h 2)).pred 0 1 && ((run i (h 2)).seq 0).pc == 3) = true := by
  decide +kernel

theorem witness_Blocked : (let w : SeqInstr := .wait ⟨gt, 31, 7⟩
    let l : SeqInstr := .sel ⟨gt, 1, 2, false, false, 0, 0x60⟩
    let g : SeqInstr := .sig ⟨gt, true, 9, 6, 4⟩
    let k : SeqInstr := .tpush ⟨gt, 7, true, 0, 0x0102⟩
    let sg := setAll (headState g) [(F.QUE_STAT_RESV, 0, 6, 64)]
    let sk := (setAll (headState k) [(F.SEQ_STEER_MODE, 0, 7, 1)]).modSteer 0 7 (fun x => { x with toks := List.replicate 8 (0, false) })
    let held (i : SeqInstr) (s : State) : Bool := atHead s p0 i && ((run i s).seq 0).pc == 2 && same (u0 s) (run i s) none3
    held w (headState w) && seqCheck w (u0 (headState w)) 0 == .hold 2 31 && held l (headState l) &&
    seqCheck l (u0 (headState l)) 0 == .hold 1 5 && held g sg && seqCheck g (u0 sg) 0 == .hold 1 6 &&
    held k sk && seqCheck k (u0 sk) 0 == .hold 1 7) = true := by decide +kernel

/-! ### The matrix engine -/

/-- MMA of BF16 operands of descriptors 0 and 1 into slot 0, rows of mask register 1. -/
def mmaO : MmaOps :=
  { opdA := 0, opdB := 1, mode := 2, anchor := 0, slot := 0, kt := 0, ta := false, tb := false, first := true, last := true,
    rmask := 1, bm := false, bctr := 0 }

/-- The descriptors of `mmaO`: pitch 2 lines, advance 3 and 131071 lines; no block-mask bit is set. -/
def descs (s : State) : State :=
  setAll s [(F.MTX_OPD_FMT, 0, 0, 1), (F.MTX_OPD_PITCH, 0, 0, 2), (F.MTX_OPD_ADV, 0, 0, 3), (F.MTX_OPD_FMT, 0, 1, 1),
    (F.MTX_OPD_PITCH, 0, 1, 2), (F.MTX_OPD_BASE, 0, 1, 5), (F.MTX_OPD_ADV, 0, 1, 131071), (F.MTX_BMASK_ORG_LEN, 0, 0, 4)]

/-- Slot 0, closed, as an earlier instruction left it. -/
def withSlot (s : State) (md : AccMode) : State :=
  s.modMtx 0 (fun m => { m with slots := [⟨0, md, 0, 64, true, 150, 0⟩], phys := [⟨0, md, 0, 64, [5], [], false, true⟩] })

def mtxKeep (l : List Nat) : RegName → Nat → Nat → Bool := fun r b i =>
  one3 .MTX_STATUS 0 0 r b i || one3 .CHK_ECC_LOG 0 0 r b i || l.any (fun n => one3 .MTX_OPD 0 n r b i || one3 .MTX_OPS 0 n r b i)

/-- The instruction issues, and the last tile of the engine is of this kind and is projected to release then. -/
def tileIn (i : SeqInstr) (s : State) (k : TileKind) (rel : Nat) (keep : RegName → Nat → Nat → Bool) : Bool :=
  let t := run i s
  atHead s p0 i && mtxCheck i (mtxPre i 0 (u0 s)) 0 == .go && same (u0 s) t keep && (t.seq 0).pc == 3 &&
  ((t.mtx 0).tiles.getLast?.map (fun x => (x.kind, x.rel, x.slot))) == some (k, rel, 0) && t.rd F.MTX_STATUS_PROJ 0 == rel

theorem witness_Mma : (let i : SeqInstr := .mma mmaO
    let s := descs (headState i)
    let b : SeqInstr := .mma { mmaO with bm := true }
    let sb := descs (headState b)
    tileIn i s .mma (200 + 16 + 127 + 48 + 32) (mtxKeep [0, 1]) && !(u0 s).maskSkips 0 mmaO &&
    (run i s).rd F.MTX_OPD_BASE 0 0 == 3 && (run i s).rd F.MTX_OPD_BASE 0 1 == 4 &&
    ((run i s).mtx 0).slotAt 0 == some ⟨0, .f32, 0, 64, true, 423, 0⟩ &&
    tileIn b sb .skip 201 (mtxKeep [0, 1]) && (u0 sb).maskSkips 0 { mmaO with bm := true } &&
    (run b sb).ctr C.MTX_CNT_SKIP 0 == 1) = true := by decide +kernel

theorem witness_Mmerge : (let i : SeqInstr := .mmerge { opd := 1, mode := 2, anchor := 0, slot := 0, first := true, last := false }
    let s := (descs (headState i)).putBytes (padAddr 0 320) (leBytes (2 + 2 ^ 12 * 9) 64)
    tileIn i s .mmerge (200 + 16 + 16 + 48 + 32) (mtxKeep [1]) && ((run i s).mtx 0).tiles.map Tile.count == [9] &&
    (((run i s).mtx 0).slotAt 0).map SlotI.closed == some false) = true := by decide +kernel

theorem witness_Msave_Mfree : (let i : SeqInstr := .msave { opd := 0, slot := 0 }
    let s := withSlot (descs (headState i)) .ex96
    let f : SeqInstr := .mfree { slot := 0 }
    let sf := withSlot (descs (headState f)) .ex96
    tileIn i s .msave (200 + 16 + 65 - 1) (mtxKeep [0]) && (run i s).rd F.MTX_OPD_BASE 0 0 == 3 &&
    tileIn f sf .mfree 201 (one3 .MTX_STATUS 0 0) && ((run f sf).mtx 0).slots == [] &&
    ((run f sf).mtx 0).frees == [(0, 201), (1, 201), (2, 201)] && ((run f sf).mtx 0).phys.length == 1) = true := by
  decide +kernel

/-- A tile of `mmaO` of its first row only, its last k step in cycle 150. -/
def tile0 : Tile :=
  { Tile.start .mma (.mma mmaO) 0 .f32 0 true true 0 with
    rowMask := 1, count := 64, run := 128, lastK := 150, rel := 230 }

/-- The engine with these tiles. -/
def tiles (l : List Tile) : State := (headState (.nop gt)).modMtx 0 (fun m => { m with tiles := l })

/-- An upset of the tags alone. -/
def upTag : Upset := ⟨[], [], [], true⟩

theorem witness_TileAgrees : (let s := tiles [tile0]
    let t := after (.tileVerdict p0 Upset.none) s
    s.engineOn 0 && s.reaches 200 && (s.mtx 0).tiles.findIdx? (verdictDue (u0 s).cycle) == some 0 && tile0.stage == .running &&
    (t.mtx 0).tiles.map Tile.stage == [.agreed]) = true := by decide +kernel

theorem witness_TileDisagrees : (let s := tiles [tile0]
    let d := after (.tileVerdict p0 upTag) s
    let y := { tile0 with delta := [], upset := upTag }
    (y.judgeDelta (applyCells 1 upTag []) upTag).map Dis.kind == some 3 && !tilePoison (s.mtx 0) tile0 && !(u0 s).mtxSpent 0 &&
    (d.mtx 0).tiles.map Tile.stage == [.rerun] && d.rd F.MTX_STATUS_REEXEC_SPENT 0 == 1 && d.ctr C.CHK_CNT_DISAGREE 0 == 1 &&
    d.rd F.CHK_LOG_KIND 0 == 3) = true := by decide +kernel

/-- One wrong word, at row 0 and column 5, is SINGLE with its place (R104, Table 03-17). -/
theorem test_single : (let u : Upset := ⟨[(0, 5, 0x3F800000)], [], [], false⟩
    let x := { tile0 with chk := { CairnX.none with rho := List.replicate 64 0, rows := List.replicate 64 0, cols := List.replicate 64 0 } }
    x.judgeDelta (applyCells 1 Upset.none (List.replicate 64 0)) Upset.none == none &&
    (x.judgeDelta (applyCells 1 u (List.replicate 64 0)) u).map (fun d => (d.kind, d.row, d.col)) == some (1, 0, 5)) = true := by
  decide +kernel

theorem witness_CairnJudgesRuns : (let s := descs (headState (.mma mmaO))
    let r := s.mmaRun 0 mmaO (mmaPlan s 0 mmaO) 1
    let x := { tile0 with chk := r.2, rowMask := 1, anchor := anchorFor .f32 0 }
    x.kind == .mma && x.mode == modeNat mmaO.mode.toNat && r.1.getD 5 1 == 0 && wordTag .f32 0x3F800000 == wordTag .f32 0 &&
    phiWord .f32 x.anchor 0x3F800000 % cairnP != phiWord .f32 x.anchor 0 % cairnP) = true := by decide +kernel

theorem witness_TileRunsAgain : (let s := tiles [{ tile0 with stage := .rerun, lastK := 327, instr := .nop gt }]
    let t := after (.tileReexecution p0 Upset.none) s
    s.engineOn 0 && s.reaches 200 && (s.mtx 0).tiles.findIdx? (fun x => x.stage == .rerun && decide (x.lastK + 1 - x.run ≤ (u0 s).cycle)) == some 0 &&
    (t.mtx 0).tiles.map Tile.stage == [.reran]) = true := by decide +kernel

theorem witness_TileCommit : (let x := { tile0 with stage := .agreed }
    let s := tiles [x, tile0]
    let v := (u0 s).mtxSettle 0
    let t := after (.tileCommit p0 Upset.none) s
    s.engineOn 0 && s.reaches 200 && (v.mtx 0).tiles == [x, tile0] && x.kind.pends && decide (max (max (x.lastK + 48) (v.mtx 0).relAct) x.freeAt < v.cycle) &&
    !(v.mtx 0).spanWaits x &&
    (t.mtx 0).tiles.map Tile.stage == [.committed, .running] && (t.mtx 0).tiles.map Tile.rel == [231, 230]) = true := by decide +kernel

theorem witness_TileRelease : (let x := { tile0 with stage := .committed, rel := 199 }
    let s := tiles [x, tile0]
    let t := after (.tileRelease p0 Upset.none) s
    s.engineOn 0 && s.reaches 200 && x.rel ≤ (u0 s).cycle && x.judgeCommit == none && (t.mtx 0).tiles == [tile0] &&
    ((t.mtx 0).physAt 0).map SlotP.words == some [] && t.ctr C.MTX_CNT_TILES 0 == 1 && same (u0 s) t none3) = true := by
  decide +kernel

theorem witness_SaveRead : (let x : Tile := { Tile.start .msave (.msave ⟨0, 0⟩) 0 .f32 0 false false 0 with run := 17, lastK := 100, descA := fieldSet F.MTX_OPD_BASE 2 0 }
    let s := withSlot (tiles [x]) .f32
    let v := (u0 s).mtxSettle 0
    let t := after (.msaveSlotRead p0) s
    s.engineOn 0 && s.reaches 200 && (v.mtx 0).tiles == [x] && decide (max (x.lastK + 16) ((v.mtx 0).relAct + 1) + x.run - 1 ≤ v.cycle) &&
    ((v.mtx 0).physAt 0).isSome && mcanon 0 s.mem && (t.mtx 0).tiles == [] && opdBase x.descA == 2 &&
    t.byte (padAddr 0 128) == 2 && t.byte (padAddr 0 129) == 0 && t.byte (padAddr 0 130) == 4 &&
    t.byte (padAddr 0 192) == 5) = true := by decide +kernel

theorem witness_SkipAndFree : (let x := { Tile.start .skip (.mma mmaO) 0 .f32 0 true true 0 with lastK := 100 }
    let s := tiles [x]
    let t := after (.skippedMmaRelease p0) s
    let f := (withSlot (tiles []) .f32).modMtx 0 (fun m => { m with slots := [], frees := [(0, 199), (3, 205)] })
    let g := after (.physicalFree p0) f
    s.engineOn 0 && s.reaches 200 && ((u0 s).mtxSettle 0).mtx 0 == s.mtx 0 && max (max x.lastK (s.mtx 0).relAct) x.freeAt + 1 ≤ 200 &&
    (t.mtx 0).tiles == [] && ((t.mtx 0).physAt 0).map SlotP.words == some zeroWords && f.reaches 200 &&
    (g.mtx 0).frees == [(3, 205)] && (g.mtx 0).physAt 0 == none) = true := by decide +kernel

/-- Engines hold while their section is Paused, and go on when it runs again (R30, R335). -/
theorem test_engines_hold : (let x := { tile0 with stage := .committed, rel := 199 }
    let s := (tiles [x]).setSect 0 4
    let t := s.setSect 0 3
    !s.engineOn 0 && ((after (.tileRelease p0 Upset.none) s).mtx 0).tiles == [x] && ((after (.tileRelease p0 Upset.none) t).mtx 0).tiles == []) = true := by
  decide +kernel

/-- A skipped FIRST tile does not wait for the free of an MFREE behind it, and does wait for one issued before it (R86, R87). -/
theorem test_free_behind_first : (let x := { Tile.start .skip (.mma mmaO) 0 .f32 0 true true 0 with lastK := 100 }
    let f := { Tile.start .mfree (.mfree ⟨0⟩) 0 .f32 0 false false 0 with rel := 300 }
    let s := (tiles [x, f]).modMtx 0 (fun m => { m with frees := [(0, 300)] })
    let w := (tiles [x]).modMtx 0 (fun m => { m with frees := [(0, 300)] })
    ((after (.skippedMmaRelease p0) s).mtx 0).tiles == [f] && ((after (.skippedMmaRelease p0) w).mtx 0).tiles == [x]) = true := by decide +kernel

/-! ### The vector engine and the steering units -/

/-- A vector instruction issues with its projected release. -/
def vecIn (i : SeqInstr) (s : State) (rel : Nat) (keep : RegName → Nat → Nat → Bool) : Bool :=
  let t := run i s
  atHead s p0 i && i.guard? == none && !i.isMatrix && vecCheck i (u0 s) 0 == .go && (t.seq 0).pc == 3 &&
  ((t.vec 0).queue.map (fun x => (x.instr, x.n, x.next, x.start))) == [(i, vecRows i, 0, projectStart (u0 s) 0 i)] &&
  t.rd F.VEC_STATUS_PROJ 0 == rel && same (u0 s) t (fun r b k => one3 .VEC_STATUS 0 0 r b k ||
    (vecNamed i).any (fun n => one3 .VEC_OPD 0 n r b k) || keep r b k)

/-- Operands of the vector engine: 0 and 1 FP32 rows of lines 10 and 20, 2 FP32 rows pushed to queue 6. -/
def vecs (s : State) : State :=
  queues (setAll s [(F.VEC_OPD_LINE, 0, 0, 510), (F.VEC_OPD_ADV, 0, 0, 3), (F.VEC_OPD_RSTRIDE, 0, 0, 1),
    (F.VEC_OPD_LINE, 0, 1, 20), (F.VEC_OPD_RSTRIDE, 0, 1, 1), (F.VEC_OPD_KIND, 0, 2, 1), (F.VEC_OPD_QUEUE, 0, 2, 6),
    (F.VEC_OPD_FMT, 0, 2, 0)])

theorem witness_Vector : (let add : SeqInstr := .vop { func := 0, dst := 0, s1 := 1, s2 := 1, s3 := 0, nm1 := 1, lmask := 0 }
    let push : SeqInstr := .vop { func := 0, dst := 2, s1 := 1, s2 := 1, s3 := 0, nm1 := 1, lmask := 0 }
    let cvt : SeqInstr := .vcvt { dst := 0, src := 1, nm1 := 3, rm := 0, sat := false, lmask := 0, tid := 0 }
    let red : SeqInstr := .vred { dst := 0, src := 1, nm1 := 0, func := 0 }
    let ld : SeqInstr := .vld { opd := 0, sbase := 0, spitch := 4, nm1 := 0 }
    let st : SeqInstr := .vst { opd := 1, sbase := 0, spitch := 4, nm1 := 0 }
    let imm : SeqInstr := .vimm { line := 511, lane0 := 0, cntm1 := 63, imm := 7 }
    let vrd : SeqInstr := .vrd { dst := 0, slot := 0, row0 := 0, nm1 := 0, rm := 0, sat := false, lmask := 0, tid := 0 }
    let h (i : SeqInstr) : State := vecs (headState i)
    let sp := h push
    vecIn add (h add) 206 none3 && (run add (h add)).rd F.VEC_OPD_LINE 0 0 == 1 &&
    vecIn push sp 206 (one3 .QUE_STAT 0 6) && vecPush (u0 sp) 0 push == some (6, 8) &&
    ((run push sp).queue 0 6).items == List.replicate 8 .hole &&
    vecIn cvt (h cvt) 208 (one3 .VEC_SR_COORD01 0 0) && (run cvt (h cvt)).rd F.VEC_SR_COORD01_C0 0 == 4 &&
    vecIn red (h red) 205 none3 && vecIn ld (h ld) 205 none3 && vecIn st (h st) 205 none3 && vecIn imm (h imm) 205 none3 &&
    vecIn vrd (withSlot (h vrd) .f32) 205 (one3 .VEC_SR_COORD01 0 0)) = true := by decide +kernel

/-- An issued VOP of two rows that copies line 20 + r to line 510 + r, sources as in `vecs`. -/
def vi0 (i : SeqInstr) (next n : Nat) : VInst :=
  let s := vecs (headState (.nop gt))
  { instr := i, dst := s.vopd 0 0, s1 := s.vopd 0 1, s2 := s.vopd 0 1, s3 := 0, c0 := 0, c1 := 0, c2 := 0, c3 := 0, seed := 0,
    start := 200, from_ := 0, next := next, n := n, cpr := 1, slotAt := none, issued := 0 }

def addI : SeqInstr := .vop { func := 0, dst := 0, s1 := 1, s2 := 1, s3 := 0, nm1 := 1, lmask := 1 }
def stI : SeqInstr := .vst { opd := 1, sbase := 2, spitch := 4, nm1 := 0 }

/-- The vector engine with these instructions, rows and line 20 holding 1.0 in lane 3. -/
def engine (q : List VInst) (l : List VRow) : State :=
  (vecs (headState (.nop gt))).modVec 0 (fun v => { v with queue := q, pipe := l, cache := [(20, ⟨BitVec.ofNat 2048 (0x3F800000 * 2 ^ 96), 0, 0⟩)] })

theorem witness_VectorRowEntry : (let f := engine [vi0 addI 0 2, vi0 stI 0 1] []
    let l := engine [{ vi0 addI 1 2 with start := 199 }, vi0 stI 0 1] []
    let t := after (.vectorRowEntry p0) f
    let e := after (.vectorRowEntry p0) l
    f.engineOn 0 && f.reaches 200 && !(u0 f).vecHeld 0 && (u0 f).rowMayEnter 0 (vi0 addI 0 2) && (t.vec 0).queue.map VInst.next == [1, 0] &&
    (t.vec 0).pipe.map (fun y => (y.row, y.entered, y.elems.getD 3 (0, true), y.flags)) == [(0, 200, (0x40000000, false), 0)] &&
    (u0 l).rowMayEnter 0 { vi0 addI 1 2 with start := 199 } && (e.vec 0).queue.map VInst.next == [0] && (e.vec 0).pipe.length == 1 &&
    t.ctr C.VEC_CNT_BUSY 0 == 1) = true := by decide +kernel

/-- A row of the add that entered in cycle 195: 2.0 in lane 3, the overflow flag. -/
def row0 : VRow :=
  let one : List (Nat × Bool) := (List.range 64).map (fun n => if n = 3 then (0x3F800000, false) else (0, false))
  let two : List (Nat × Bool) := (List.range 64).map (fun n => if n = 3 then (0x40000000, false) else (0, false))
  { instr := vi0 addI 1 2, row := 1, ops := [one, one], elems := two, got := two, scales := [],
    res := one.map (fun x => laneRes 0 x.1 x.1 0), flags := 64, poisonIn := false, replay := false, entered := 195 }
/-- A row of the store: words 1 to 32. -/
def rowS : VRow := { row0 with instr := vi0 stI 0 1, row := 0, elems := (List.range 32).map (fun n => (n + 1, false)), flags := 0 }

theorem witness_VectorRowGating : (let s := (engine [] [row0, rowS]).setWord .VEC_LMASK 0 1 0xF0
    let m := (engine [] [row0, rowS]).setWord .VEC_LMASK 0 1 0xF
    let st := engine [] [rowS]
    let t := after (.vectorRowGating p0 []) s
    let w := after (.vectorRowGating p0 []) st
    let r := after (.vectorRowGating p0 [⟨3, 3, false, 5⟩]) s
    s.engineOn 0 && s.reaches 200 && !(u0 s).vecHeld 0 && decide (row0.entered + 5 ≤ (u0 s).cycle) && (t.vec 0).pipe == [rowS] &&
    t.word .VEC_FLAGS 0 0 == 64 && ((t.vec 0).line 511).bits == 0 &&
    ((after (.vectorRowGating p0 []) m).vec 0).line 511 == ⟨BitVec.ofNat 2048 (0x40000000 * 2 ^ 96), 0, 0⟩ &&
    rowS.elems.length == fmtWidth (vFmt rowS.instr.s1) && mcanon 0 st.mem && w.word64 (padAddr 0 128) == 1 &&
    w.word64 (padAddr 0 (128 + 8 * 31)) == 32 && w.byte (padAddr 0 (128 + 256)) == 0 && t.ctr C.VEC_CNT_ROWS 0 == 1 &&
    rowChecked addI && (u0 s).rd F.VEC_STATUS_REPLAY_SPENT 0 == 0 && r.rd F.VEC_STATUS_REPLAY_SPENT 0 == 1 &&
    (r.vec 0).pipe.map VRow.replay == [true, false] && ((r.vec 0).line 511).bits == 0 &&
    row0.laneFails ⟨3, 3, false, 5⟩ && !row0.laneFails ⟨3, 7, false, 5⟩ &&
    ((after (.vectorRowGating p0 [⟨3, 7, false, 5⟩]) m).vec 0).line 511 == ⟨BitVec.ofNat 2048 (5 * 2 ^ 96), 0, 0⟩) = true := by decide +kernel

/-- Steering unit 7 in a mode, with tokens and data; queue 5 holds two entries and queue 6 takes some. -/
def unit7 (mode : Nat) (src : Nat) (toks : List (BitVec 16 × Bool)) (data : List Entry) : State :=
  (setAll (queues (headState (.nop gt))) [(F.SEQ_STEER_MODE, 0, 7, mode), (F.SEQ_STEER_TSRC, 0, 7, src), (F.SEQ_STEER_TQ, 0, 7, 5),
    (F.SEQ_STEER_IN.at 5 0, 0, 7, 5), (F.SEQ_STEER_IN.at 5 3, 0, 7, 5), (F.SEQ_STEER_IEN, 0, 7, 9), (F.SEQ_STEER_OEN, 0, 7, 9),
    (F.SEQ_STEER_OUT.at 5 0, 0, 7, 6), (F.SEQ_STEER_OUT.at 5 3, 0, 7, 6)]).modSteer 0 7 (fun x => { x with toks := toks, data := data })

/-- `SteerReady`, decided. -/
def ready7 (s : State) (md : Nat) : Bool :=
  s.reaches 200 && (u0 s).running 0 && (u0 s).rd F.SEQ_STEER_MODE 0 7 == md && !(s.steer 0 7).stopped

theorem witness_SteerIn : (let k := unit7 1 1 [] []
    let kp := k.modQueue 0 5 (fun q => { q with items := [.entry ⟨1, 1, 0⟩ 10] })
    let d := unit7 1 0 [] []
    let m := unit7 2 0 [(3, false)] []
    let w := (u0 m).word .SEQ_STEER 0 7
    let tok := after (.queueTokenIntake p0 7) k
    let bad := after (.queueTokenIntake p0 7) kp
    let dat := after (.steerDataIntake p0 7) d
    let mrg := after (.mergeIntake p0 7) m
    ready7 k 1 && (u0 k).qHeads 0 5 == [⟨1, 0, 0⟩, ⟨2, 0, 0⟩] && (tok.steer 0 7).toks == [(1, false)] && (tok.queue 0 5).items.length == 1 &&
    ready7 kp 1 && (u0 kp).qHeads 0 5 == [⟨1, 1, 0⟩] && (bad.steer 0 7).stopped && (bad.steer 0 7).toks == [] &&
    ready7 d 1 && steerIn w 0 == 5 && (dat.steer 0 7).data == [⟨1, 0, 0⟩] && (dat.queue 0 5).items == [.entry ⟨2, 0, 0⟩ 11] &&
    ready7 m 2 && tokSel 3 == 3 && fieldGet F.SEQ_STEER_IEN w / 2 ^ tokSel 3 % 2 == 1 && steerIn w 3 == 5 &&
    (mrg.steer 0 7).data == [⟨1, 0, 0⟩] && (mrg.queue 0 5).items == [.entry ⟨2, 0, 0⟩ 11]) = true := by decide +kernel

theorem witness_SteerFire : (let one := unit7 1 0 [(3, false), (0, false)] [⟨9, 0, 0⟩, ⟨8, 0, 0⟩]
    let two := unit7 2 0 [(0x103, false)] [⟨9, 0, 0⟩]
    let t := after (.steerFire p0 7) one
    let v := after (.mergeFire p0 7) two
    let w := (u0 one).word .SEQ_STEER 0 7
    ready7 one 1 && (u0 one).steerGrant 0 6 == some 7 && fieldGet F.SEQ_STEER_OEN w / 2 ^ tokSel 3 % 2 == 1 && steerOut w 3 == 6 && steerOut w 0 == 6 &&
    tokCount 3 == 1 && (t.steer 0 7).data == [⟨8, 0, 0⟩] && (t.steer 0 7).toks == [(0, false)] && (t.queue 0 6).items == [.entry ⟨9, 0, 0⟩ 200] &&
    t.ctr C.SEQ_CNT_STEER 0 == 1 && same (u0 one) t (one3 .QUE_STAT 0 6) &&
    ready7 two 2 && (u0 two).steerGrant 0 6 == some 7 && tokCount 0x103 == 2 && (v.steer 0 7).toks == [(0x103, false)] &&
    (v.queue 0 6).items == [.entry ⟨9, 0, 0⟩ 200] && same (u0 two) v (one3 .QUE_STAT 0 6)) = true := by decide +kernel

/-! ### Stream programs -/

/-- Cycle 200, program 0 of site 0. -/
def g0 : PAt := ⟨0, 0, 200⟩

/-- Program 0 of site 0 runs, its instruction at address 4 at the head; queue 6 is a SEND queue to queue 7 of site 1. -/
def agState (i : AgInstr) : State :=
  let site : Site := { Site.reset with sect := some 0, ag := [(4, encodeAg i)], strs := [(0, { StrX.reset with pc := 4 })] }
  setAll { base with sites := [(0, site)] }
    [(F.STR_STATE_STATE, 0, 0, 1), (F.HUT_SECT_STATE, 0, 0, 3), (F.QUE_CFG_ROLE, 0, 6, 1), (F.QUE_CFG_PEER, 0, 6, 39),
     (F.STR_DESC_QN, 0, 0, 6), (F.STR_DESC_CNT, 0, 0, 9), (F.STR_STATE_ARG, 0, 0, 5), (F.STR_AREG_ADDR, 0, 2, padBase 0 + 64),
     (F.STR_AREG_ADDR, 0, 3, padBase 0 + 4096)]

/-- `AgAtHead`, decided, at a Spur. -/
def agHead (s : State) (i : AgInstr) : Bool :=
  s.reaches 200 && (u0 s).agAlive 0 0 && !(u0 s).agBad 0 0 && (u0 s).agHead 0 0 == some i && agCheck i (u0 s) 0 0 == .go && !isTarn 0 &&
  (s.str 0 0).frames.all (fun f => f.last != (s.str 0 0).pc)

/-- The command issues, with its next address and the registers it may write. -/
def agGoes (c : Instr) (i : AgInstr) (s : State) (pc : Nat) (keep : RegName → Nat → Nat → Bool) : Bool :=
  agHead s i && ((after c s).str 0 0).pc == pc && same (u0 s) (after c s) keep

theorem witness_Address : (let s1 := agState (.aset 1 0x123456789ABC)
    let s2 := agState (.aadd 1 2 0xFFFFFFC0)
    let s3 := agState (.aarg 1 2 47)
    agGoes (.aset g0 1 0x123456789ABC) (.aset 1 0x123456789ABC) s1 5 (one3 .STR_AREG 0 1) &&
    (after (.aset g0 1 0x123456789ABC) s1).areg 0 0 1 == 0x123456789ABC &&
    agGoes (.aadd g0 1 2 0xFFFFFFC0) (.aadd 1 2 0xFFFFFFC0) s2 5 (one3 .STR_AREG 0 1) &&
    (after (.aadd g0 1 2 0xFFFFFFC0) s2).areg 0 0 1 == padBase 0 &&
    agGoes (.aarg g0 1 2 47) (.aarg 1 2 47) s3 5 (one3 .STR_AREG 0 1) &&
    (after (.aarg g0 1 2 47) s3).areg 0 0 1 == (padBase 0 + 64 + 5 * 2 ^ 47) % 2 ^ 48) = true := by decide +kernel

/-- The program's frames set. -/
def agFrames (s : State) (l : List AgFrame) : State := s.modStr 0 0 (fun x => { x with frames := l })

theorem witness_StreamControl : (let l := agState (.aloop 7 3)
    let z := agState (.aloop 7 0)
    let f := agState .fence
    let back := agFrames f [⟨2, 4, 3, 1⟩]
    let over_ := agFrames f [⟨2, 4, 3, 2⟩, ⟨1, 9, 2, 0⟩]
    let g := agState (.signal false 9 65535)
    let r := agState (.signal true 9 65535)
    let e := agState .endA
    let fr (c : Instr) (s : State) : List AgFrame := ((after c s).str 0 0).frames
    agGoes (.aloop g0 7 3) (.aloop 7 3) l 5 none3 && fr (.aloop g0 7 3) l == [⟨5, 7, 3, 0⟩] &&
    agGoes (.aloop g0 7 0) (.aloop 7 0) z 8 none3 && fr (.aloop g0 7 0) z == [] &&
    agGoes (.fence g0) .fence f 5 none3 && (u0 back).agHead 0 0 == some .fence && agCheck .fence (u0 back) 0 0 == .go &&
    ((after (.fence g0) back).str 0 0).pc == 2 && fr (.fence g0) back == [⟨2, 4, 3, 2⟩] &&
    ((after (.fence g0) over_).str 0 0).pc == 5 && fr (.fence g0) over_ == [⟨1, 9, 2, 0⟩] &&
    agGoes (.signal g0 false 9 65535) (.signal false 9 65535) g 5 none3 &&
    aget (after (.signal g0 false 9 65535) g).sigAdds 9 == some 65535 &&
    agGoes (.signal g0 true 9 65535) (.signal true 9 65535) r 5 none3 &&
    (after (.signal g0 true 9 65535) r).flight.map (fun f => (f.src, f.dst, f.item)) == [(6, 39, .sig 9 65535)] &&
    agGoes (.streamProgramEnd g0) .endA e 5 none3 && ((after (.streamProgramEnd g0) e).str 0 0).ended) = true := by decide +kernel

/-- COPY of 65,536 blocks' worth of one: LENM1 + 1 = 2 blocks from register 2 to register `d`. -/
def copyO (c : Bool) (d : BitVec 3) : CopyOps := { src := 2, dst := d, c := c, s := true, is := true, id := true, lenm1 := 1 }

theorem witness_Copy : (let i (c : Bool) : AgInstr := .copy (copyO c 3)
    let s := agState (i false)
    let k := setAll (agState (i true)) [(F.STR_DESC_CSRC, 0, 0, 1), (F.STR_STATE_CREDITS, 0, 0, 2)]
    let j := (setAll (agState (i true)) [(F.STR_DESC_CSRC, 0, 0, 3), (F.STR_DESC_CIDX, 0, 0, 10)]).setSig 0 10 7
    let m := agState (.copy (copyO false 2))
    let regs : RegName → Nat → Nat → Bool := fun r b n => one3 .STR_AREG 0 2 r b n || one3 .STR_AREG 0 3 r b n
    let t := after (.copy g0 (copyO false 3)) s
    agGoes (.copy g0 (copyO false 3)) (i false) s 5 regs && t.areg 0 0 2 == padBase 0 + 192 && t.areg 0 0 3 == padBase 0 + 4224 &&
    (t.str 0 0).copies.map (fun x => (x.src, x.dst, x.len, x.signals)) == [(padBase 0 + 64, padBase 0 + 4096, 128, true)] &&
    agGoes (.copy g0 (copyO true 3)) (i true) k 5 (fun r b n => regs r b n || one3 .STR_STATE 0 0 r b n) &&
    (after (.copy g0 (copyO true 3)) k).strCredits 0 0 == 1 &&
    agGoes (.copy g0 (copyO true 3)) (i true) j 5 (fun r b n => regs r b n || one3 .SEQ_SIG 0 2 r b n) &&
    (after (.copy g0 (copyO true 3)) j).sig 0 10 == 6 && agHead m (.copy (copyO false 2)) &&
    (after (.copy g0 (copyO false 2)) m).areg 0 0 2 == padBase 0 + 320) = true := by decide +kernel

theorem witness_StreamTrap : (let i : AgInstr := .copy (copyO false 3)
    let s := setAll (agState i) [(F.STR_AREG_ADDR, 0, 2, padBase 0 + 32)]
    let t := after (.copy g0 (copyO false 3)) s
    s.reaches 200 && (u0 s).agAlive 0 0 && !(u0 s).agBad 0 0 && (u0 s).agHead 0 0 == some i && !(u0 s).descInvalid 0 0 &&
    t.strState 0 0 == 3 && t.rd F.STR_STATE_LAST_TRAP 0 0 == 4 && t.str 0 0 == s.str 0 0 && same (u0 s) t (one3 .STR_STATE 0 0) &&
    t.hut.fails.map (fun f => (f.cls, f.code)) == [(0x14, 4)]) = true := by decide +kernel

/-- A COPY of `len` bytes from scratchpad byte 192 to byte 4096, with `done` blocks written and `next` bytes requested. -/
def copyX (len : Nat) (done : List Nat) (next : Nat) : CopyX := ⟨padBase 0 + 192, padBase 0 + 4096, len, 0, done, next, true, false, 0⟩
/-- A program with COPYs and requests; source bytes 192 to 255 hold 7. -/
def moving (l : List CopyX) (r : List Req) : State :=
  ((agState .fence).putBytes (padBase 0 + 192) (List.replicate 64 7)).modStr 0 0 (fun x => { x with copies := l, reqs := r })

theorem witness_StreamRequest : (let s := moving [copyX 1024 [] 0] [⟨0, 0, 0, 0, 64, 64, false, false, false, 0, 0⟩]
    let c := copyX 1024 [] 0
    let t := after (.streamRequest g0) s
    s.reaches 200 && s.strActive 0 0 && (s.str 0 0).copies.find? (fun c => decide (c.next < c.len)) == some c &&
    !(u0 s).reqLimit 0 0 (inExt (c.src + c.next) || inExt (c.dst + c.next)) &&
    (s.str 0 0).reqs.all (fun r => r.out == 0) && (s.str 0 0).reqAt == none &&
    (s.str 0 0).reqs.all (fun r => !(decide (c.dst + c.next < r.dst + r.len) && decide (r.dst < c.dst + c.next + nextReqLen c))) &&
    (t.str 0 0).reqs.map (fun r => (r.num, r.src, r.dst, r.len)) == [(0, 0, 64, 64), (1, padBase 0 + 192, padBase 0 + 4096, 64)] &&
    (t.str 0 0).copies.map CopyX.next == [64] && same (u0 s) t none3) = true := by decide +kernel

/-- The same COPY to the far end of queue 6, a slot of whose link is its own in cycle 200 (R204). -/
theorem witness_StreamRequest_lane : (let c := { copyX 1024 [] 0 with dst := padBase 1, remote := true }
    let s := setAll (moving [c] []) [(F.QUE_CFG_OLINK, 0, 6, 1), (F.QUE_CFG_OSLOTS, 0, 6, 2 ^ 8), (F.TRV_OUT_SRC.at 4 8, 0, 1, 5)]
    let t := after (.streamRequest g0) s
    s.reaches 200 && s.strActive 0 0 && !(u0 s).reqLimit 0 0 false && (u0 s).streamGrant 0 ((u0 s).dscQn 0 0) 0 &&
    (t.str 0 0).reqs.map (fun r => (r.num, r.src, r.dst, r.len, r.remote)) == [(0, padBase 0 + 192, padBase 1, 64, true)] &&
    (t.str 0 0).copies.map CopyX.next == [64] && same (u0 s) t none3) = true := by decide +kernel

/-- Thread 0 of the Tarn at site 1 reads stripe 0 of group 0. -/
theorem witness_StreamRequest_ext : (let c := { copyX 1024 [] 0 with src := 0, dst := padBase 1 }
    let site : Site := { Site.reset with sect := some 0, strs := [(0, { StrX.reset with copies := [c] })] }
    let s := setAll { base with sites := [(1, site)] } [(F.TRN_THR_STATE_STATE, 1, 0, 1), (F.HUT_SECT_STATE, 0, 0, 3)]
    let t := after (.streamRequest ⟨1, 0, 200⟩) s
    s.reaches 200 && s.strActive 1 0 && !(u0 s).reqLimit 1 0 true && (u0 s).portChoice 1 == some 0 && halfOf 1 == (0, 0, 0) &&
    (u0 s).halfChoice 0 0 == some 0 && (u0 s).locate 0 == .ok 0 0 && !(u0 s).reforming 0 && chanHalf 0 == 0 && !(u0 s).chanFull 0 &&
    (t.str 1 0).reqs.map (fun r => (r.num, r.src, r.len, r.ext)) == [(0, 0, 256, true)] && t.chanQueue 0 == [(1, 0, 0)] &&
    same (u0 s) t none3) = true := by decide +kernel

/-- The one request of a COPY of 128 or 64 bytes. -/
def req0 (remote served : Bool) (back : Nat := 0) : Req := ⟨3, 0, 0, padBase 0 + 192, padBase 0 + 4096, 64, false, remote, served, 0, back⟩

theorem witness_RequestComplete : (let more := moving [copyX 128 [] 64] [req0 false false]
    let last := moving [copyX 64 [] 64] [req0 false false]
    let near := moving [copyX 64 [] 64] [req0 true false]
    let far := moving [{ copyX 64 [] 64 with dst := padBase 1 }] [{ req0 true false with dst := padBase 1 }]
    let t := after (.requestComplete g0 3) more
    let v := after (.requestComplete g0 3) last
    let n := after (.remoteRequest g0 3) near
    let f := after (.remoteRequest g0 3) far
    ((u0 near).askAll ((u0 near).agentAsk 0 0 :: ((u0 near).reqAsks 0 0 (req0 true false)).filter (fun x => x.key.site? != some 0))).1 &&
    ((u0 far).askAll ((u0 far).agentAsk 0 0 :: (u0 far).reqAsks 0 0 { req0 true false with dst := padBase 1 })).1 &&
    ((u0 more).reqReady 0 0 (req0 false false)).1 && ((u0 last).reqReady 0 0 (req0 false false)).1 &&
    more.reaches 200 && mcanon 0 more.mem && (more.str 0 0).reqs.find? (fun y => y.num == 3 && (!y.remote || (y.served && y.back == 0))) == some (req0 false false) &&
    !inExt (padBase 0) && siteHolds 0 (padBase 0 + 4096) 64 && !siteHolds 0 (padBase 1) 64 &&
    t.byte (padBase 0 + 4096) == 7 && t.byte (padBase 0 + 4159) == 7 && t.byte (padBase 0 + 4160) == 0 && (t.str 0 0).reqs == [] &&
    (t.str 0 0).copies.map CopyX.done == [[0]] && (v.str 0 0).copies == [] && aget v.sigAdds 9 == some 1 && v.dscSrem 0 0 != 1 &&
    (near.str 0 0).reqs.find? (fun y => y.num == 3 && y.remote && y.out == 0 && (!y.served || decide (0 < y.back))) == some (req0 true false) &&
    (n.str 0 0).reqs == [req0 true true (laneFlits true 64)] && n.mem == near.mem && f.byte (padBase 1 + 63) == 7 && f.byte (padBase 1 + 64) == 0) = true := by
  decide +kernel

theorem witness_ProgramComplete : (let e (st : Nat) : State := (setAll (agState .endA) [(F.STR_STATE_STATE, 0, 0, st), (F.STR_STATE_SHADOW, 0, 0, 77),
      (F.STR_DESC_START, 0, 0, 300)]).modStr 0 0 (fun x => { x with ended := true })
    let t := after (.streamProgramCompletion g0) (e 1)
    let v := after (.streamProgramCompletion g0) (e 2)
    (e 1).reaches 200 && (u0 (e 1)).strState 0 0 == 1 && !(u0 (e 1)).isPf 0 0 && t.strState 0 0 == 0 && !(t.str 0 0).ended &&
    same (u0 (e 1)) t (one3 .STR_STATE 0 0) && (u0 (e 2)).strState 0 0 == 2 && v.strState 0 0 == 1 && v.rd F.STR_STATE_ARG 0 0 == 77 &&
    (v.str 0 0).pc == 300 && !(v.str 0 0).ended) = true := by decide +kernel

/-! ### The Traverse -/

/-- A data flit from site 16 that arrives in slot 3, its third word poisoned. -/
def flitOf (kind : BitVec 3) (lseq : BitVec 6) : Flit :=
  let f : Flit := ⟨⟨16, 2, kind, 5, 0, lseq, 77⟩, (List.range 16).map (fun i => ⟨BitVec.ofNat 64 (3 * i), 0, i == 2⟩), 0, 3⟩
  { f with crc := crc32c f.string }

/-- Site 17, whose east and south outputs take slot 3 of its west neighbour. -/
def fork : State := (((base.setSlot 17 .e 3 4).setSlot 17 .s 3 12).modLink 17 1 (fun l => { l with lseq := 63 }))

theorem test_crc_of_nine_digits : crc32c [0x31, 0x32, 0x33, 0x34, 0x35, 0x36, 0x37, 0x38, 0x39] = 0xE3069283 := by decide +kernel

set_option maxRecDepth 100000 in
theorem witness_FlitForwarded : (let f := flitOf 1 9
    let t := after (.flitArrival 17 .w f) fork
    let g (d : Nat) : Option (Nat × Nat × Bool) := (t.link 17 d).replay.getLast?.map (fun g => (g.flit.hdr.lseq.toNat, g.flit.hdr.eseq.toNat, g.flit.words == f.words))
    neighbour 17 .w == some 16 && fork.linkState 16 .e != 3 && (fork.link 16 1).waiting == none && f.crcOk && f.kindOk &&
    fork.outputsOf 17 .w 3 == [.e, .s] && fork.linkDelay 17 .e == 0 && g 1 == some (63, 77, true) && g 2 == some (0, 77, true) &&
    (t.link 17 1).lseq == 0 && t.link 17 0 == fork.link 17 0) = true := by decide +kernel

set_option maxRecDepth 100000 in
theorem witness_FlitBad : (let f := { flitOf 1 9 with crc := 0 }
    let k := flitOf 3 9
    let t := after (.flitArrival 17 .w f) fork
    !f.crcOk && k.crcOk && !k.kindOk && t.ctr C.TRV_CNT_CRC 17 == 1 && (t.link 16 1).waiting == some 9 && (t.link 17 1).replay == [] &&
    ((after (.flitArrival 17 .w k) fork).link 16 1).waiting == some 9) = true := by decide +kernel

set_option maxRecDepth 100000 in
theorem witness_Links : (let w : Byte := 0x82
    let s := base.setDelay 17 .e 14
    let t := after (.linkNak 17 .e w) s
    let e := { flitOf 0 0 with hdr := ⟨16, 2, 0, 5, 0, 0, 0⟩ }
    let h := (base.setDelay 17 .e 1).modLink 17 1 (fun l => { l with hold := List.append ((List.range 16).map (fun i => ⟨84 + i, e⟩)) [⟨100, flitOf 1 1⟩] })
    let d := after (.holdLineDrop 17 .e) h
    let x := base.modLink 17 1 (fun l => { l with fails := 4, hold := [⟨100, flitOf 1 1⟩] })
    let y := after (.linkDead 17 .e .fourFailures) x
    let m := base.modLink 17 1 (fun l => { l with replays := [1, 2, 3, 4, 5, 6, 7, 2500001] })
    let z := after (.linkMark 17 .e) m
    nakValid w && s.linkState 17 .e != 3 && (s.link 17 1).resent != some (w.toNat / 2 % 64) && s.linkDelay 17 .e + 2 ≤ 16 &&
    (t.link 17 1).resent == some 1 && t.linkDelay 17 .e == 16 && t.ctr C.TRV_CNT_RETRY 17 == 1 &&
    h.localSlot 17 100 == 0 && ((h.drain 17 .e).link 17 1).heldFrom ≤ 84 && ((h.drain 17 .e).link 17 1).hold.all (fun x => decide (100 ≤ x.at_) || x.flit.hdr.kind == 0) &&
    d.linkDelay 17 .e == 0 && (d.link 17 1).hold == [⟨100, flitOf 1 1⟩] &&
    x.deathDue 17 .e .fourFailures && y.linkState 17 .e == 3 && (y.link 17 1).hold == [] &&
    neighbour 17 .e == some 18 && (m.link 17 1).markDue && m.linkState 17 .e == 0 && m.linkState 18 .w == 0 &&
    z.linkState 17 .e == 1 && z.linkState 18 .w == 1) = true := by decide +kernel

/-- Queue 6 of site 0, a sender of the given role to queue 7 of site 1, with one more position behind its head; it owns local slot 8,
that of cycle 200, of its link east (R204, R215), and its credits come back in local slot 4 of site 1. Sites 0 and 1 are held by section
0 of partition 0. -/
def sender (role : Nat) (x : QItem) : State :=
  let s := (headState (.nop gt)).modSite 1 (fun y => { y with sect := some 0 })
  (setAll s [(F.QUE_CFG_ROLE, 0, 6, role), (F.QUE_CFG_PEER, 0, 6, 39), (F.QUE_STAT_SEQ, 0, 6, 65535),
    (F.QUE_STAT_RCRED, 0, 6, 1), (F.QUE_CFG_OLINK, 0, 6, 1), (F.QUE_CFG_OSLOTS, 0, 6, 2 ^ 8), (F.TRV_OUT_SRC.at 4 8, 0, 1, 5),
    (F.QUE_CFG_ILINK, 0, 6, 1), (F.QUE_CFG_ISLOTS, 0, 6, 2 ^ 4), (F.HUT_PART_ACTIVE, 0, 0, 1), (F.HUT_PART_NCB, 0, 0, 1),
    (F.HUT_PART_NROW, 0, 0, 1)]).modQueue 0 6 (fun q => { q with items := [x, .hole] })

theorem witness_Depart : (let x : QItem := .entry ⟨7, 0, 0⟩ 199
    let s := sender 1 x
    let z := ((sender 3 x).wr F.QUE_STAT_CSTATE 0 6 2).modQueue 0 6 (fun q => { q with slots := some (8, 13) })
    let z := z.setSlot 0 .e 8 13
    let n := s.wr F.QUE_STAT_RCRED 0 6 0
    let r := (sender 1 (.sig 5 6)).wr F.QUE_STAT_RCRED 0 6 0
    let m := setAll (sender 7 x) [(F.QUE_PAR_MIDX, 0, 6, 1), (F.QUE_MLEAF_ATT, 0, 16, 1), (F.QUE_MLEAF_LEAF, 0, 16, 39),
      (F.QUE_MLEAF_ATT, 0, 31, 1), (F.QUE_MLEAF_LEAF, 0, 31, 71), (F.QUE_MLEAF_OUTST, 0, 31, 63)]
    let g := (setAll (sender 5 x) [(F.QUE_PAR_RLOG2, 0, 6, 10)]).modQueue 0 6 (fun q => { q with placing := some (0, 3, 1, false) })
    let d (s : State) : State := after (.entryDepart p0 6) s
    let fl (s : State) : List (Nat × Nat × Nat × QItem) := (d s).flight.map (fun f => (f.src, f.dst, f.seq, f.item))
    (u0 s).laneFree 0 6 && (u0 z).laneFree 0 6 && (u0 r).laneFree 0 6 && (u0 m).laneFree 0 6 && (u0 g).laneFree 0 6 &&
    ((d g).queue 0 6).ringOut == [(2, ⟨7, 0, 0⟩, 0)] && ((d g).queue 0 6).placing == some (0, 3, 2, false) &&
    s.reaches 200 && (u0 s).running 0 && (u0 s).role 0 6 == 1 && (s.queue 0 6).items == [x, .hole] && ((d s).queue 0 6).items == [.hole] &&
    (d s).rd F.QUE_STAT_RCRED 0 6 == 0 && (d s).rd F.QUE_STAT_SEQ 0 6 == 0 && fl s == [(6, 39, 65535, x)] && fl z == [(6, 39, 65535, x)] &&
    same (u0 s) (d s) (one3 .QUE_STAT 0 6) && same (u0 n) (d n) none3 && fl n == [] && ((d n).queue 0 6).items == [x, .hole] &&
    fl r == [(6, 39, 65535, .sig 5 6)] && (d r).rd F.QUE_STAT_RCRED 0 6 == 0 && (u0 m).leaves 0 6 == [(16, 39), (31, 71)] &&
    (u0 m).outst 0 31 == 63 && (d m).outst 0 31 == 64 && (d m).outst 0 16 == 1 && fl m == [(6, 39, 65535, x), (6, 71, 65535, x)]) = true := by
  decide +kernel

/-- Queue 7 of site 1 receives from queue 6 of site 0 in local slot 6 of site 0's link; site 1 is held by section 0 of partition 0. -/
def receiver (role : Nat) : State :=
  setAll { (headState (.nop gt)) with sites := [(1, { Site.reset with sect := some 0 })] }
    [(F.QUE_CFG_ROLE, 1, 7, role), (F.QUE_CFG_PEER, 1, 7, 6), (F.QUE_STAT_SEQ, 1, 7, 65535), (F.QUE_PAR_SCNT, 1, 7, 31),
     (F.QUE_CFG_ILINK, 1, 7, 3), (F.QUE_CFG_ISLOTS, 1, 7, 2 ^ 6)]

/-- Cycle 200 at site 1. -/
def p1 : At := ⟨1, 200⟩

theorem witness_Arrive : (let s := receiver 2
    let h : FlitHdr := ⟨0, 0, 1, 6, 0, 0, 65535⟩
    let b : FlitHdr := { h with eseq := 0 }
    let l : FlitHdr := { h with kind := 2 }
    let t := after (.receiveEntry p1 7 h ⟨5, 1, 0⟩) s
    let v := after (.receiveEntry p1 7 b ⟨5, 1, 0⟩) s
    let r := after (.signalRecord p1 7 h 31 65535) s
    let k := after (.signalRecord p1 7 l 31 65535) s
    let g := (receiver 6).modQueue 0 6 (fun q => { q with ringOut := [(2, Entry.zero, 3)] })
    let w := after (.signalRecord p1 7 { h with eseq := 0 } 31 65535) g
    (u0 s).arrives 1 7 && (u0 g).arrives 1 7 && (u0 g).srcOk 1 7 { h with eseq := 0 } && aget w.sigAdds 63 == some 65535 && (w.queue 0 6).ringOut == [] &&
    s.reaches 200 && (u0 s).role 1 7 == 2 && (u0 s).srcOk 1 7 h && !(u0 s).srcOk 1 7 b && (u0 s).srcOk 1 7 l &&
    (t.queue 1 7).items == [.entry ⟨5, 1, 0⟩ 200] && t.rd F.QUE_STAT_SEQ 1 7 == 0 && same (u0 s) t (one3 .QUE_STAT 1 7) &&
    (v.queue 1 7).items == [] && v.ctr C.TRV_CNT_SRCERR 1 == 1 && (u0 s).sectOf 1 == some 0 &&
    v.hut.fails.map (fun f => (f.cls, f.code, f.site)) == [(0x20, 4, 1)] && same (u0 s) v none3 &&
    r.rd F.QUE_STAT_SEQ 1 7 == 0 && aget r.sigAdds 63 == some 65535 && k.rd F.QUE_STAT_SEQ 1 7 == 65535 && aget k.sigAdds 63 == some 65535) = true := by
  decide +kernel

theorem witness_CreditsGapsRings : (let x : QItem := .entry ⟨7, 0, 0⟩ 199
    let back (f : QueueX → QueueX) : State := (sender 1 x).modQueue 1 7 f
    let s := back (fun q => { q with credOut := [127, 5] })
    let e := back (fun q => { q with credRet := 70 })
    let c := after (.remoteCreditReturn p0 6 6 127) s
    let b := after (.remoteCreditReturn p0 6 6 64) e
    let o := after (.remoteCreditReturn p0 6 38 127) s
    let m (part : Nat) : State := { setAll (sender 7 x) [(F.QUE_MLEAF_ATT, 0, 15, 1), (F.QUE_MLEAF_LEAF, 0, 15, 39), (F.QUE_MLEAF_OUTST, 0, 15, 64)] with
      ctl := [.credit 6 39 64 6 part, .ack 0 false 0] }
    let mc := after (.mcastCredit p0 6 39 64) (m 0)
    let mx := after (.mcastCredit p0 6 39 64) (m 1)
    let g := (receiver 4).modQueue 1 7 (fun q => { q with gap := some (0, 65535) })
    let gm := after (.gapMarker p1 7) g
    let r (k : Nat) : State := ((receiver 6).wr F.QUE_PAR_RBASE 1 7 2).modQueue 0 6 (fun q => { q with ringOut := [(3, ⟨0x0102, 0, 0⟩, k)] })
    let w (k : Nat) : State := after (.ringRecordWrite p1 7) (r k)
    let y := siteMem 1 + 320
    (u0 s).arrives 0 6 && (u0 s).rd F.QUE_STAT_GEN 0 6 == 0 && c.rd F.QUE_STAT_RCRED 0 6 == 128 && (c.queue 1 7).credOut == [5] &&
    same (u0 s) c (one3 .QUE_STAT 0 6) && b.rd F.QUE_STAT_RCRED 0 6 == 65 && (b.queue 1 7).credRet == 6 &&
    o.ctr C.TRV_CNT_STALE 0 == 1 && same (u0 s) o none3 && (u0 (m 0)).leaves 0 6 == [(15, 39)] && (u0 (m 0)).partOf 0 == some 0 &&
    mc.outst 0 15 == 0 && mc.ctl == [.ack 0 false 0] && same (u0 (m 0)) mc (one3 .QUE_MLEAF 0 15) && mx.outst 0 15 == 64 &&
    mx.ctr C.TRV_CNT_XPART 0 == 1 && gm.rd F.QUE_STAT_GAP 1 7 == 1 && gm.rd F.QUE_STAT_SEQ 1 7 == 65535 && aget gm.sigAdds 63 == some 1 &&
    (u0 (r 1)).role 1 7 == 6 && mcanon 0 (r 1).mem && siteHolds 1 y 64 && (w 1).byte y == 2 && (w 1).byte (y + 1) == 1 && (w 1).byte (y + 2) == 0 &&
    aget (w 1).sigAdds 63 == some 1 && (w 0).sigAdds == [] && ((w 0).queue 0 6).ringOut == []) = true := by decide +kernel

/-- A dynamic queue 6 of site 0 that is opening towards queue 7 of site 1, with connection 1 × 32 + 6. -/
def opening : State :=
  setAll (sender 3 .hole) [(F.QUE_STAT_CSTATE, 0, 6, 1), (F.QUE_STAT_GEN, 0, 6, 1), (F.QUE_CFG_ROLE, 1, 7, 4), (F.QUE_CFG_PEER, 1, 7, 6),
    (F.TRV_OUT_SRC.at 4 8, 0, 1, 0)]

theorem witness_Probe : (let s := (opening.setSlot 0 .e 0 1).setSlot 0 .e 1 5
    let k := ((u0 s).takeConn kProbe 1 7 38 6 0)
    let t := after (.connProbe p1 7 38) s
    let r := (probeLinks 0 (routeXY 0 1) 0 (List.range 14) [] k.2).1
    let full := (List.range 14).foldl (fun s n => s.setSlot 0 .e n 1) opening
    let rf := (probeLinks 0 (routeXY 0 1) 0 (List.range 14) [] (u0 full)).1
    let f := after (.connProbe p1 7 38) full
    let np := s.wr F.QUE_CFG_ROLE 1 7 2
    let n := after (.connProbe p1 7 38) np
    let x := { s with ctl := [.conn kProbe 6 1 7 38 9] }
    let y := after (.connProbe p1 7 38) x
    s.reaches 200 && (u0 s).connFrom kProbe 1 7 38 == (6, 0) && (u0 s).partOf 1 == some 0 && k.1 && aget ((u0 s).sync 1).connOut 7 == none &&
    (u0 s).rd F.QUE_STAT_CSTATE 0 6 == 1 && (u0 s).role 1 7 == 4 && (s.queue 1 7).bound == none && r.failed == none &&
    r.cands == (List.range 12).map (· + 2) &&
    (t.queue 1 7).bound == some (6, 38) && t.rd F.QUE_STAT_CSTATE 1 7 == 1 && t.rd F.QUE_STAT_GEN 1 7 == 1 && t.slotSrc 0 .e 13 == 6 &&
    t.slotSrc 0 .e 1 == 5 && aget (t.sync 1).connOut 7 == some ⟨kReply, 6, 38⟩ &&
    rf.failed == some 0 && ((u0 full).ctlRoute 0 0).isSome && f.ctl == [.conn kRefuseSlot 39 0 6 38 0] && (f.queue 1 7).bound == none &&
    aget (n.sync 1).connOut 7 == some ⟨kRefusePeer, 6, 38⟩ && (u0 x).connFrom kProbe 1 7 38 == (6, 9) &&
    y.ctr C.TRV_CNT_XPART 1 == 1 && (y.queue 1 7).bound == none) = true := by decide +kernel

theorem witness_ReplyCommit : (let s := (opening.setSlot 1 .w 5 1).modQueue 0 6 (fun q => { q with probe := some ⟨[2, 3], [], [(0, 1, 2), (0, 1, 3)]⟩ })
    let t := after (.connReply p0 6 38) s
    let c := (opening.wr F.QUE_STAT_GEN 1 7 1).modQueue 0 6 (fun q => { q with probe := some ⟨[2, 3], [0], [(0, 1, 2), (0, 1, 3)]⟩, slots := some (2, 13) })
    let v := after (.connCommit p1 7 38) c
    let k := (u0 s).takeConn kReply 0 6 38 6 0
    let r := (probeLinks 0 (reverseRoute (routeXY 0 1)) 0 (List.range 14) [(0, 1, 2), (0, 1, 3)] k.2).1
    s.reaches 200 && (u0 s).connFrom kReply 0 6 38 == (39, 0) && k.1 && (u0 s).rd F.QUE_STAT_CSTATE 0 6 == 1 &&
    r.failed == none && r.cands == (List.range 14).filter (· != 5) &&
    t.rd F.QUE_STAT_CSTATE 0 6 == 2 && (t.queue 0 6).slots == some (2, 0) && aget (t.sync 0).connOut 6 == some ⟨kCommit, 39, 38⟩ &&
    (u0 c).connFrom kCommit 1 7 38 == (6, 0) && ((u0 c).takeConn kCommit 1 7 38 39 0).1 && v.rd F.QUE_STAT_CSTATE 1 7 == 2 && (v.queue 0 6).probe == none &&
    circuitSlots (routeXY 0 1) 2 13 == [(0, 1, 2, 13)] && v.slotSrc 0 .e 2 == 13 && v.slotSrc 0 .e 3 == 0) = true := by
  decide +kernel

theorem witness_ConnectionsEnd : (let s := ((opening.wr F.QUE_PAR_BACKOFF 0 6 3).setSlot 0 .e 2 6).modQueue 0 6 (fun q => { q with probe := some ⟨[2], [], [(0, 1, 2)]⟩ })
    let t := after (.connRefuse p0 6 38 true) s
    let c := ((opening.wr F.QUE_STAT_GEN 1 7 1).wr F.QUE_STAT_CSTATE 0 6 5).modQueue 0 6 (fun q => { q with items := [], slots := some (2, 13) })
    let v := after (.connClose p1 7 38) c
    let b (l : List QItem) : State := (opening.wr F.QUE_STAT_CSTATE 0 6 3).modQueue 0 6 (fun q => { q with items := l, backoffAt := 148 })
    let e (l : List QItem) : State := after (.backoffExpiry 0 6) (b l)
    let i := (setAll opening [(F.QUE_STAT_CSTATE, 0, 6, 2), (F.QUE_STAT_RCRED, 0, 6, 64), (F.QUE_PAR_IDLE_CLOSE, 0, 6, 255)]).modQueue 0 6
      (fun q => { q with items := [], idle := 255 })
    let d := after (.idleClose 0 6) i
    ((u0 s).takeConn kRefusePeer 0 6 38 6 ((u0 s).connFrom kRefusePeer 0 6 38).2).1 && ((u0 c).takeConn kClose 1 7 38 39 0).1 &&
    t.rd F.QUE_STAT_CSTATE 0 6 == 3 && (t.queue 0 6).backoffAt == 248 && t.slotSrc 0 .e 2 == 0 && t.ctr C.QUE_CNT_NOSLOT 0 == 1 &&
    (u0 c).connFrom kClose 1 7 38 == (6, 0) && (u0 c).role 0 6 == 3 && v.rd F.QUE_STAT_CSTATE 0 6 == 0 &&
    (v.queue 0 6).slots == none && (b []).reaches 148 && (e []).rd F.QUE_STAT_CSTATE 0 6 == 0 && (e [.hole]).rd F.QUE_STAT_CSTATE 0 6 == 1 &&
    (e [.hole]).rd F.QUE_STAT_GEN 0 6 == 2 && aget ((e [.hole]).sync 0).connOut 6 == some ⟨kProbe, 39, 70⟩ && i.dynIdle 0 6 &&
    d.rd F.QUE_STAT_CSTATE 0 6 == 5 && aget (d.sync 0).connOut 6 == some ⟨kClose, 39, 38⟩ && same i d (one3 .QUE_STAT 0 6)) = true := by decide +kernel

/-! ### Synchronisation -/

/-- Site 0 with messages in every holder and the injection arbiter at one of them; partition 3 has the sites of column blocks 0
and 1. -/
def holders (ptr : Nat) : State :=
  let c : ClaimWait := ⟨63, 5, 9, 65535, 255, none, false⟩
  let s := setAll (sender 2 .hole) [(F.HUT_PART_ACTIVE, 0, 0, 0), (F.HUT_PART_ACTIVE, 0, 3, 1), (F.HUT_PART_NCB, 0, 3, 2), (F.HUT_PART_NROW, 0, 3, 16), (F.SEQ_CLAIM_RETRY, 0, 0, 255)]
  (s.modSeq 0 (fun q => { q with claim := some c })).modSync 0 (fun y => { y with
    table := [(39, 65535), (40, 1)], offered := [63, 0], claimOut := true, connOut := [(6, ⟨kProbe, 39, 38⟩)], creditOut := [(6, 64)], ptr := ptr })

/-- What the arbiter at a holder sends. -/
def injected (ptr : Nat) : State := after (.controlInject p0) (holders ptr)

theorem witness_Inject : (let o (n : Nat) : Option CtlMsg := (injected n).ctl.getLast?
    (holders 0).reaches 200 && ((List.range 5).all (fun n => ((holders n).sync 0).grant == some n && ((injected n).sync 0).ptr == (n + 1) % 5)) &&
    (List.range 5).all (fun n => ((u0 (holders 0)).holderDst 0 n).any (fun b => (u0 (holders 0)).ctlAdmits 0 b)) &&
    ((u0 (holders 0)).ctlRoute 0 1).isSome && ((u0 (holders 0)).ctlRoute 0 (cornerOf 0)).isSome && ((u0 (holders 0)).ctlRoute 0 (siteOfTarn 63)).isSome &&
    o 0 == some (.add 39 ⟨0, 3, 7, 65535⟩) && ((injected 0).sync 0).table == [(40, 1)] && (injected 0).rd F.SEQ_SIG_STATUS_ADD_OUT 0 == 1 &&
    same (u0 (holders 0)) (injected 0) (one3 .SEQ_SIG_STATUS 0 0) && ((injected 1).sync 0).offered == [0] &&
    (injected 1).col.ports == [(0, 0, 3, 63)] && o 2 == some (.claim 63 ⟨0, 3, 5, 9, 65535⟩) && !((injected 2).sync 0).claimOut &&
    o 3 == some (.conn kProbe 6 1 7 38 3) && ((injected 3).sync 0).connOut == [] && o 4 == some (.credit 39 6 64 7 3) &&
    ((injected 4).sync 0).creditOut == []) = true := by decide +kernel

/-- With 32 messages in the control FIFO of the first link a message waits; an arrival whose port holds 64 goes on its way (R217, R247). -/
theorem witness_Inject_waits : (let f := (holders 0).modLink 0 1 (fun l => { l with ctl := List.replicate 32 ⟨100, 4, 240⟩ })
    let g := { holders 1 with col := { (holders 1).col with ports := List.replicate 64 (0, 1, 3, 5) } }
    let t := after (.controlInject p0) g
    (f.sync 0).grant == some 0 && (u0 f).holderDst 0 0 == some 1 && !(u0 f).ctlAdmits 0 1 && after (.controlInject p0) f == u0 f &&
    (u0 g).ctlAdmits 0 (cornerOf 0) && (u0 g).ctl == [] && portOf 0 == 0 && t.col.ports.length == 64 &&
    t.ctl == [.arrival 0 3 63] && (t.sync 0).offered == [0]) = true := by decide +kernel

theorem witness_Adds : (let s := (holders 0).wr F.SEQ_SIG_STATUS_ADD_OUT 0 0 1
    let m : AddMsg := ⟨1, 3, 31, 65535⟩
    let t := after (.signalAdd p0 m) s
    let v := after (.signalAdd p0 { m with part := 2 }) s
    let k (d : Bool) (part : Nat) : State := { s with ctl := [.ack 0 d part] }
    let a := after (.addAck p0 false) (k false 3)
    let x := after (.addAck p0 true) (k true 3)
    let y := after (.addAck p0 true) (k true 2)
    ((u0 s).ctlRoute 0 1).isSome && (u0 s).partOf 0 == some 3 && aget t.sigAdds 31 == some 65535 && t.ctl.getLast? == some (.ack 1 false 3) &&
    v.sigAdds == [] && v.ctr C.TRV_CNT_XPART 0 == 1 && v.ctl.getLast? == some (.ack 1 true 2) && a.rd F.SEQ_SIG_STATUS_ADD_OUT 0 == 0 &&
    a.rd F.SEQ_SIG_STATUS_SIG_XPART 0 == 0 && x.rd F.SEQ_SIG_STATUS_SIG_XPART 0 == 1 && a.ctl == [] &&
    y.rd F.SEQ_SIG_STATUS_ADD_OUT 0 == 1 && y.ctr C.TRV_CNT_XPART 0 == 1 && y.ctl == []) = true := by decide +kernel

/-- Barrier 63 of partition 3 with members 0 and 255, release counter 31; the arrival of a site waits at port 3. -/
def barrier (x part arrived count : Nat) : State :=
  let s := setAll (holders 0) [(F.COL_BAR_OWNER, 0, 63, 3), (F.COL_BAR_ACTIVE, 0, 63, 1), (F.COL_BAR_TARGET, 0, 63, 2), (F.COL_BAR_COUNT, 0, 63, count),
    (F.COL_BAR_GEN, 0, 63, 65535), (F.COL_BAR_REL, 0, 63, 31), (F.COL_BAR_MEM_MEMBERS, 0, 252, 1), (F.COL_BAR_MEM_MEMBERS, 0, 255, 2 ^ 63),
    (F.COL_BAR_ARR_ARRIVED, 0, 252, arrived)]
  { s with col := ⟨[(3, x, part, 63)], 3, none, none, none⟩ }

set_option maxRecDepth 100000 in
theorem witness_BarrierCol : (let n := barrier 255 3 0 0
    let r := barrier 255 3 1 1
    let d := barrier 254 3 0 0
    let w := barrier 255 2 0 0
    let f (s : State) : State := after .barrierArrival s
    let t := match step (f r) with
      | .next t => t
      | _ => r
    n.rd F.COL_BAR_OWNER 0 63 == 3 && n.barBit .COL_BAR_MEM 63 255 && !n.barBit .COL_BAR_ARR 63 255 && (f n).rd F.COL_BAR_COUNT 0 63 == 1 &&
    (f n).barBit .COL_BAR_ARR 63 255 && (f n).col.ptr == 0 && (f n).ctl == [] &&
    same n (f n) (fun r c i => one3 .COL_BAR 0 63 r c i || one3 .COL_BAR_ARR 0 255 r c i) &&
    n.nextArrival == some (3, 255, 3, 63) && (f n).col.lastAt == some n.cycles && (f n).col.due == none && f (f n) == f n &&
    (f r).rd F.COL_BAR_COUNT 0 63 == 2 && (f r).col.due == some (63, 3) && (f r).pending == [] && (f r).cycle + 1 < (f r).pitchLen &&
    t.col.due == none && t.rd F.COL_BAR_COUNT 0 63 == 0 && t.rd F.COL_BAR_GEN 0 63 == 0 && !t.barBit .COL_BAR_ARR 63 0 && !t.barBit .COL_BAR_ARR 63 255 &&
    t.ctl == [.release 63 3 [0, 255]] && !d.barBit .COL_BAR_MEM 63 254 && (f d).ctr C.COL_CNT_DISCARD == 1 && same d (f d) none3 &&
    (f w).ctr C.COL_CNT_DISCARD == 1) = true := by decide +kernel

theorem witness_BarrierSite : (let s := ((barrier 255 3 0 0).modSync 0 (fun y => { y with table := [], fenced := [(63, 100, [])] })).wr F.SEQ_BARFLAG_FLAGS 0 0 (2 ^ 63 + 1)
    let b := s.modSync 0 (fun y => { y with table := [(39, 1)] })
    let t := after (.fencedArrivalOffer p0 63) s
    let v := after (.fencedArrivalOffer p0 63) b
    let r := after (.barrierRelease p0 63) s
    let i := after (.barrierRelease p0 62) s
    (u0 s).fenceMet 0 100 [] && !(u0 b).fenceMet 0 100 [] && (t.sync 0).offered == [63, 0, 63] && v == u0 b && (u0 s).relOf 63 == 31 &&
    (u0 s).partOf 0 == some ((u0 s).rd F.COL_BAR_OWNER 0 63) && r.word .SEQ_BARFLAG 0 0 == 1 && aget r.sigAdds 31 == some 1 &&
    i.sigAdds == [] && i.word .SEQ_BARFLAG 0 0 == 2 ^ 63 + 1) = true := by decide +kernel

/-- Tarn 63, site 254, of partition 3: its counter 63 in a mode holds 2^32 − 1; this is its log. -/
def tarn (mode : Nat) (log : List ClogE) (reqs : List (Nat × (Nat × BitVec 32))) : State :=
  let x : Site := { Site.reset with tarn := { TarnX.reset with clog := log, reqs := reqs } }
  setAll { base with sites := [(254, x)] } [(F.HUT_PART_ACTIVE, 0, 3, 1), (F.HUT_PART_NCB, 0, 3, 4), (F.HUT_PART_NROW, 0, 3, 16),
    (F.TRN_WC_CFG_MODE, 254, 63, mode), (F.TRN_WC_VALUE, 254, 63, 2 ^ 32 - 1)]

theorem witness_ClaimServed : (let m : ClaimMsg := ⟨0, 3, 63, 9, 65535⟩
    let e : ClogE := ⟨63, 40, 8, 17, 2, .reissue⟩
    let lo : ClogE := ⟨63, 16, 8, 18, 3, .reissue⟩
    let c : ClogE := ⟨63, 4, 8, 18, 3, .claimed⟩
    let f (s : State) : State := after (.claimRequest ⟨254, 200⟩ m) s
    let rep (s : State) : Option CtlMsg := (f s).ctl.getLast?
    let again := tarn 0 [] [(0, (65535, 7))]
    let plain := tarn 0 [] [(0, (65534, 7))]
    let busy := plain.modTarn 254 (fun x => { x with servedAt := some 200 })
    let full := tarn 1 (List.replicate 512 c) []
    let own : ClogE := ⟨0, 70000, 8, 0, 3, .claimed⟩
    let comm := (tarn 2 [c, own] []).wr F.TRN_WC_CFG_PAIR 254 63 0
    let dup := (tarn 2 [c] []).wr F.TRN_WC_CFG_PAIR 254 63 0
    let log := tarn 1 [c] []
    let re := tarn 1 [e, c, lo] []
    ((u0 plain).askAll [claimAsk 254]).1 && ((f plain).site 254).tarn.servedAt == some 200 && f busy == u0 busy &&
    ((f full).site 254).tarn.waiting == [m] && rep comm == some (.reply 0 65535 (70000 % 65536) 3) && ((f comm).site 254).tarn.clog == [c] &&
    rep dup == some (.reply 0 65535 0xFFFF 3) && (f dup).ctr C.TRN_CNT_DUPCOMMIT 254 == 1 &&
    isTarn 254 && (u0 plain).partOf 254 == some 3 && ((u0 plain).ctlRoute 254 0).isSome && rep again == some (.reply 0 65535 7 3) &&
    (f again).rd F.TRN_WC_VALUE 254 63 == 2 ^ 32 - 1 && rep plain == some (.reply 0 65535 0xFFFFFFFF 3) && (f plain).rd F.TRN_WC_VALUE 254 63 == 8 &&
    (f plain).rd F.TRN_WC_CFG_WRAP 254 63 == 1 && aget ((f plain).site 254).tarn.reqs 0 == some (65535, 0xFFFFFFFF) &&
    lowestReissue 63 [c] == none && ((f log).site 254).tarn.clog == [c, ⟨63, 2 ^ 32 - 1, 9, 0, 65535, .claimed⟩] &&
    lowestReissue 63 [e, c, lo] == some lo && rep re == some (.reply 0 65535 16 3) &&
    ((f re).site 254).tarn.clog.getLast? == some ⟨63, 16, 8, 0, 65535, .claimed⟩ && (f re).ctr C.TRN_CNT_REISSUE 254 == 1) = true := by
  decide +kernel

theorem witness_ClaimAnswered : (let s := holders 0
    let c : ClaimWait := ⟨63, 5, 9, 65535, 255, none, false⟩
    let s := { s with ctl := [.reply 0 65535 7 3] }
    let r := after (.claimReply p0 65535 7 false) s
    let b := after (.claimReply p0 65535 7 true) s
    let q := s.modHut (fun h => { h with sects := [(0, sectx img0 .saving [])] })
    let d := after (.claimReply p0 65535 7 false) q
    let y := after (.claimRetry 0) (s.modSync 0 (fun y => { y with claimOut := false }))
    (d.seq 0).claim == some c && d.ctl == [] && r.ctl == [] && (u0 s).partOf 0 == some 3 && (s.seq 0).claim == some c && (r.seq 0).claim == some { c with reply := some 7, poisoned := false } && same (u0 s) r none3 &&
    (u0 s).sectOf 0 == some 0 && (b.seq 0).claim == some { c with reply := some 7, poisoned := true } && b.rd F.HUT_POISON_KIND 0 0 == 3 &&
    b.rd F.HUT_POISON_SITE 0 0 == 0 && s.rd F.SEQ_CLAIM_RETRY 0 == 255 && (y.sync 0).claimOut &&
    (y.seq 0).claim == some { c with boundaries := 0 }) = true := by decide +kernel

/-! ### External memory -/

/-- Stripe 5 of group 0, its bytes 8 to 15 holding 3, its second word with a stored syndrome. -/
def stripe (synd : BitVec 8) : State := { base.putBytes 1288 (leBytes 3 8) with synd := [(161, synd)] }

/-- A read that adds nothing to what the cells hold. -/
def quiet : FrameObs := ⟨0, false, []⟩
/-- A read whose word 31 fails with a syndrome that names no single bit. -/
def noisy : FrameObs := ⟨0, false, [(31, 3)]⟩

theorem witness_FrameRead : (let s := stripe 1
    let x : Addr := 1288
    let t := after (.frameRead x quiet) s
    let f := after (.frameRead x noisy) s
    let u := (stripe 0).wr F.MEM_GRP_STATUS_LIVE 0 0 0
    let b := after (.frameRead x quiet) u
    let busy : State := { s with memc := { s.memc with rereads := [⟨1280, 1, false⟩] } }
    inExt x.toNat && s.locate x.toNat == .ok (physChan 0 (s.mapEntry 0 5)) 8 && !s.reforming (groupOf x.toNat) && correctable 1 && s.chanServes 112 5 && !busy.chanServes 112 5 && after (.frameRead x quiet) busy == busy && !s.frameFails 5 quiet &&
    t.memc.delivered == some (5, s.frameWords 5 quiet) && t.ctr C.MEM_CNT_CE 0 == 1 && same s t none3 && !correctable 3 &&
    s.frameFails 5 noisy && s.rd F.MEM_RETIRE_CFG_RETRY == 2 && f.memc.rereads == [⟨1280, 2, false⟩] && f.memc.delivered == none &&
    u.locate x.toNat == .unbacked && b.memc.delivered.map (fun d => (d.1, d.2.map Prod.snd)) == some (5, List.replicate 32 true) &&
    b.ctr C.MEM_CNT_UNBACKED 0 == 1) = true := by decide +kernel

/-- The same stripe while a re-read is waiting. -/
def reading (left : Nat) (synd : BitVec 8 := 0) (patrol : Bool := false) : State :=
  { stripe synd with memc := { MemX.reset with rereads := [⟨1280, left, patrol⟩] } }

theorem witness_FrameReread : (let x : Addr := 1288
    let s := reading 1
    let g := after (.frameReread x quiet) s
    let b := after (.frameReread x noisy) s
    let m := after (.frameReread x noisy) (reading 2)
    let p := reading 1 1 true
    let h := after (.frameReread x quiet) p
    !p.frameFails 5 quiet && decide (0 < p.frameCorrections 5 quiet) && h.ctr C.MEM_CNT_SCRUBFIX 0 == 1 && h.ctr C.MEM_CNT_RETRYOK 0 == 1 &&
    h.memc.delivered == none && h.memc.rereads == [] && s.memc.rereads.find? (fun r => r.addr == 1280) == some ⟨1280, 1, false⟩ && s.locate 1280 == .ok 112 0 && !s.frameFails 5 quiet &&
    g.memc.delivered == some (5, s.frameWords 5 quiet) && g.ctr C.MEM_CNT_RETRYOK 0 == 1 && g.memc.rereads == [] &&
    s.frameFails 5 noisy && mcanon 0 s.poison && b.ctr C.MEM_CNT_UE 0 == 1 && b.pois 191 == 3 && b.pois 190 == 0 && b.mem == s.mem &&
    b.rd F.MEM_ERR_LOG_KIND == 1 && m.memc.rereads == [⟨1280, 1, false⟩] && m.pois 191 == 0) = true := by decide +kernel

theorem witness_FrameWrite : (let s := stripe 1
    let x : Addr := 1528
    let t := after (.frameWrite x [(0x0807060504030201, true)]) s
    let y : State := { s with memc := { s.memc with scrubNext := [(0, 0)] } }
    let w := y.wr F.MEM_SCRUB_EN 0 0 1
    let z : State := { base.putBytes 8 (leBytes 3 8) with synd := [(1, 1)] }
    let v := after (.patrolScrub 0 quiet) z
    mcanon 0 s.mem && mcanon 0 s.poison && inExt x.toNat && s.extServe x.toNat == 0 && s.chanServes 112 5 && x.toNat % 256 + 8 == 256 &&
    t.word64 1528 == 0x0807060504030201 && t.byte 1528 == 1 && t.poisonedAt 1535 && !t.poisonedAt 1536 && t.byte 1536 == 0 && t.byte 1288 == 3 &&
    w.rd F.MEM_SCRUB_EN == 1 && z.rd F.MEM_SCRUB_EN != 0 && z.chanState 0 < 2 && z.rd F.PWR_BIVOUAC_STATE == 0 &&
    z.scrubDue 0 && z.stripeOfFrame 0 0 == some 0 && aget v.memc.scrubAt 0 == some z.cycles && !z.frameFails 0 quiet && z.frameCorrections 0 quiet == 1 && v.word64 8 == (z.frameWords 0 quiet)[1]!.1 &&
    v.ctr C.MEM_CNT_SCRUBFIX 0 == 1 && aget v.memc.scrubNext 0 == some 1) = true := by decide +kernel

theorem witness_Channels : (let f (s : State) (ok : Bool) : State := after (.periodicTraining 191 ok) s
    let two : State := { base with memc := { MemX.reset with trainFails := [(191, 3)] } }
    let k := after (.channelMark 191) two
    let g : State := setAll { base.putBytes 0x3000000000 [1, 2] with poison := [(0x600000000, 3)] } [(F.MEM_GRP_STATUS_STATE, 0, 1, 2)]
    let h := g.putBytes 0x2FFFFFFFFF [9]
    let r := after (.groupReformComplete 1) h
    let o := after (.groupReformComplete 1) (h.wr F.MEM_GRP_STATUS_LIVE 0 1 0)
    base.chanState 191 == 0 && two.rd F.MEM_RETIRE_CFG_RETRAIN_MAX ≥ 3 && h.liveChans 1 == 48 && !h.mapRetired 1 && aget (f base true).memc.trainFails 191 == some 0 && aget (f base false).memc.trainFails 191 == some 1 &&
    (f base false).ctr C.MEM_CNT_RETRAIN 48 == 0 && aget (f two false).memc.trainFails 191 == some 4 && (f two false).ctr C.MEM_CNT_RETRAIN 48 == 1 &&
    (after (.bankRefresh 191 15) base).sites == base.sites && two.markDue 191 && k.chanState 191 == 1 && k.chanState 190 == 0 &&
    h.groupState 1 == 2 && mcanon 0 h.mem && mcanon 0 h.poison && r.groupState 1 == 3 && o.groupState 1 == 4 && r.byte 0x3000000000 == 0 &&
    r.byte 0x2FFFFFFFFF == 9 && !r.poisonedAt 0x3000000000 && same (h.putBytes 0x3000000000 [0, 0]) r (one3 .MEM_GRP_STATUS 0 1)) = true := by
  decide +kernel

/-! ### Domains and sections -/

theorem witness_Domains : (let x := sectx img0 .powering []
    let s := ((sect x 1).setDom 0 18 3).modHut (fun h => { h with switching := [(17, 1, 90), (18, 0, 300)] })
    let t := after (.domainPowerUpComplete .core 18) s
    let on := (sect x 1).setDom 0 18 0
    let f := after (.frameTransferStart 1 1) on
    s.hut.switching.find? (fun x => x.1 == 18 && x.2.1 == 0) == some (18, 0, 300) && s.reaches 300 && t.dom 0 18 == 0 &&
    t.hut.switching == [(17, 1, 90)] && t.cycle == 300 && on.sectX? 33 == some x && (on.domains x (on.regionSites 33)) == [(0, 18)] &&
    on.dom 0 18 == 0 && (f.sectX? 33).map SectX.phase == some .loading && f.cycle == 300) = true := by decide +kernel

/-- The same section with its frames staged at 0x1000, in partition 1's grant of the first granule. -/
def staged (x : SectX) (st : Nat) : State :=
  ((sect { x with frameBase := 0x1000 } st).wr F.HUT_GRANT_SIZE 0 4 1).stageFrames 33

def stagedX (f : Nat) : SectX := (((staged (sectx img1 .loading [f]) 1).sectX? 33).getD (sectx img1 .loading []))

set_option maxRecDepth 100000 in
theorem witness_ConfigFrame : (let s (f st : Nat) : State := staged (sectx img1 .loading [f]) st
    let t (f : Nat) : State := after (.configFrameWrite 1 1 true false) (s f 1)
    let r (f : Nat) := (s f 1).readStaged 33 (stagedX f) f
    let bad := after (.configFrameWrite 1 1 false false) (s 0 1)
    let gone := after (.configFrameWrite 1 1 true true) ((s 0 1).wr F.HUT_GRANT_SIZE 0 4 0)
    let job := after (.configFrameWrite 1 1 false false) (s 0 5)
    let prev := (s 0 1).modSite 18 (fun y => { y with prog := [(5, 6), (33, 8)] })
    img1.frames == [0, 64] && (s 0 1).sectX? 33 == some (stagedX 0) && (r 0).1 == some (18, List.append [7, 9] (List.replicate 30 0)) &&
    (r 64).1.map Prod.fst == some (18 + 256 * 64) && ((t 0).site 18).prog == [(0, 7), (1, 9)] &&
    (after (.configFrameWrite 1 1 false true) prev).site 18 == { (prev.site 18) with prog := [(33, 8), (0, 7), (1, 9)] } &&
    ((t 64).site 18).ag == [(0, 5)] && (((t 64).sectX? 33).map SectX.framesLeft) == some [] && bad.sectState 33 == 8 &&
    gone.sectState 33 == 8 && job.sectState 33 == 5 && job.hut.fails == [⟨1, 700, 0x20, 9, 0, 0, 0, none⟩]) = true := by decide +kernel

/-- A saved site whose sequencer stood at 77. -/
def saved0 : SavedSite :=
  { home := 0, site := 18, x := { Site.reset with seq := { SeqX.reset with pc := 77, frames := [⟨1, 99, 2, 3⟩] } }, regs := [], bytes := [], poison := [], synd := [] }

theorem witness_Armed : (let x := sectx img0 .loading []
    let t := after (.reconfigComplete 1 1) (sect x 1)
    let r := { x with restoring := true }
    let t1 := after (.reconfigComplete 1 1) (sect r 5)
    let t2 := after (.restoreComplete 1 1) (sect r 5)
    let d := { r with framesDone := true, saved := [saved0] }
    let t3 := after (.restoreComplete 1 1) (sect d 5)
    (sect x 1).sectState 33 == 1 && t.sectState 33 == 2 && t.word .VEC_SR_SEED 18 0 == 0x1234 && t.rd F.COL_BAR_ACTIVE 0 63 == 1 &&
    t.rd F.COL_BAR_OWNER 0 63 == 1 && t.rd F.COL_BAR_TARGET 0 63 == 1 && (t1.sectX? 33).map SectX.framesDone == some true && t1.sectState 33 == 5 &&
    (t2.sectX? 33).map SectX.restored == some true && t2.sectState 33 == 5 && t3.sectState 33 == 2 && (t3.seq 18).pc == 77 &&
    (t3.seq 18).frames.length == 1) = true := by decide +kernel

theorem witness_Saved : (let q := sectx img0 .quiescing []
    let s := setAll (sect q 4) [(F.QUE_CFG_ROLE, 18, 31, 3), (F.QUE_STAT_CSTATE, 18, 31, 2)]
    let t := after (.quiescence 1 1) s
    let v := sect (sectx img0 .saving []) 4
    let w := after (.saveComplete 1 1) v
    s.quiesced 33 && (t.sectX? 33).map SectX.phase == some .saving && t.rd F.QUE_STAT_CSTATE 18 31 == 0 && !v.digReading 33 &&
    v.regionSites 33 == [18] && w.sectState 33 == 5 && w.rd F.HUT_SECT_BUSY 0 33 == 0 && w.sectOf 18 == none &&
    (w.sectX? 33).map (fun x => x.saved.map SavedSite.site) == some [18]) = true := by decide +kernel

theorem witness_GrantZeroed : (let c : Ctx := ⟨0, 0, 0, false⟩
    let lo := groupSize + 5 * 0x10000000
    let s0 : State := { (base.putBytes lo [1]).putBytes (lo - 1) [2] with hut := { HutX.reset with parts := [.grant 1 1 5 2 true c], lastOwner := [(774, 0)] } }
    let s := s0.putBytes (lo + 0x10000000) [3]
    let t := after (.grantZeroingComplete 1 1) s
    granulesOf 1 5 2 == [773, 774] && s.tenantOf 1 == 0 && t.byte lo == 0 && t.byte (lo - 1) == 2 && t.byte (lo + 0x10000000) == 3 &&
    t.hut.parts == [.grant 1 1 5 2 false c]) = true := by decide +kernel

/-- What the packets of a stream brought for a small section: its header, barrier table and memory plan, and the frames of site 0: an
END, and a program length of 1. -/
def gotSect : StreamGot :=
  let zeros (n : Nat) : List Byte := List.replicate n 0
  { StreamGot.reset with
    parts := [(0, []), (4, []), (5, [])],
    frames := [(0, List.flatten [zeros 7, [1], zeros 248]), (256 * 88, (List.range 32).flatMap (fun i =>
      wordBytes (if 8 * i = RegName.SEQ_CTRL.place.offset % 256 then setFields [(F.SEQ_CTRL_PLEN, 1)] 0
        else if 8 * i = RegName.SEQ_WDOG.place.offset % 256 then RegName.resetWord .SEQ_WDOG 0 else 0)))] }

set_option maxRecDepth 100000 in
theorem witness_Loader : (let c : Ctx := ⟨0, 0, 0, false⟩
    let o : LoadOps := ⟨0, 0, 0, 2, 1, 0, false, 0, 0⟩
    let s : State := (setAll (sect (sectx img0 .none []) 7) [(F.CFG_STREAM_STATE, 0, 1, 3), (F.CFG_STREAM_OUTCOME, 0, 1, 1), (F.HUT_GRANT_SIZE, 0, 4, 1)]).modStream 1
      (fun x => { x with load := some (c, o), got := gotSect })
    let g := State.received img0 gotSect
    let v := s.modStream 1 (fun x => { x with load := none })
    let t := after (.loaderCheck 1 img0) s
    let w := after (.loaderCheck 1 { img0 with version := 2 }) s
    let y := (t.sectX? 32).getD (sectx img0 .none [])
    (s.stream 1).load == some (c, o) && s.firstLoad 1 && s.rd F.CFG_STREAM_STATE 0 1 == 3 && v.freeEntry 1 == some 32 && g.formOk && g.frames.length == 2 &&
    v.checkImage 1 32 g 2 1 == none && t.sectState 32 == 1 && t.jobOf 32 == 700 && y.img == g && (y.frameBase, y.areas.length) == (2887680, 2) &&
    t.byte (y.frameBase + 7) == 1 && t.byte (y.frameBase + 512) == 18 && t.byte (y.frameBase - 1) == s.byte (y.frameBase - 1) && t.rd F.HUT_SECT_ORG_COL 0 32 == 2 &&
    (v.checkImage 1 32 { g with version := 2 } 2 1).map Refused.code == some 1 &&
    w.rd F.HUT_LOAD_REFUSAL_CODE 0 1 == 1 && w.rd F.HUT_LOAD_REFUSAL_VALID 0 1 == 1 && w.hut.sects == s.hut.sects) = true := by decide +kernel

/-! The loader's checks, from Table 10-5: an END with a reserved bit set is refused at step 2 (R147), a program without an END
at step 3. -/
def imgOf (l : List Word) : SectionImage := { img0 with sites := [{ rec0 with plen := l.length, seq := l, ag := [] }] }
theorem test_reserved_bit_refused : checkEncoding (imgOf [0x0100000000000001]) = some (0, 0) ∧
    checkEncoding (imgOf [0x0100000000000000]) = none := by decide
theorem test_run_past_plen_refused : checkForm (imgOf [0]) = some (0, 0) ∧ checkForm (imgOf [0, 0x0100000000000000]) = none := by decide

/-! ### Correction, scrubbing, self-tests, records, lanes, digests, the pitch -/

theorem witness_Correction : (let x : Addr := BitVec.ofNat 48 (padBase 3 + 13)
    let w := (padBase 3) / 8 + 1
    let s : State := { base.putBytes (padBase 3 + 8) (leBytes 5 8) with synd := [(w, 1)], poison := [(w, 1)] }
    let t := after (.correctedWriteBack x false) s
    x.toNat / 8 == w && inPad x.toNat && correctable (mget 0 s.synd w) && mcanon 0 s.mem && mcanon 0 s.synd &&
    t.word64 (8 * w) == corrected 1 5 && t.synd == [] && t.poison == s.poison && t.regs == s.regs) = true := by decide +kernel

theorem witness_Scrub : (let b := (base.setDom 0 17 0).modSite 17 (fun y => { y with progSynd := [(40, 1)], prog := [(40, 9)] })
    let s : State := { b with cfg := { b.cfg with scrubEn := [true, false, true], scrubFrame := 1 } }
    let s := setAll s [(F.CFG_SCRUB_STATUS_SITE, 0, 0, 17), (F.CFG_SCRUB_STATUS_HEARTBEAT, 0, 0, 2 ^ 32 - 1)]
    let t := after (.scrubFrameRead 1 []) s
    s.scrubPlace == some (17, 1, false) && s.scrubOn && t.rd F.CFG_SCRUB_STATUS_HEARTBEAT == 0 && t.cfg.corrections == [(17, 40, 1, 0)] &&
    (t.site 17).prog == (s.site 17).prog && (t.site 17).progSynd == [(40, 1)] && (t.site 17).ag == []) = true := by decide +kernel

theorem witness_Watchdogs : (let v : State := { base with cycle := 0, cfg := { base.cfg with scrubEn := [true, false, false], scrubFrame := 9 } }
    let t := after .scrubStall v
    let x := sectx img0 .none []
    let s := (setAll { (sect x 3) with cycle := 0 } [(F.SEQ_WDOG_LIMIT, 18, 0, 5), (F.SEQ_WDOG_COUNT, 18, 0, 5), (F.HUT_SECT_STATE, 0, 34, 3), (F.HUT_SECT_JOB, 0, 34, 700),
      (F.HUT_SECT_STATE, 0, 64, 3), (F.HUT_SECT_JOB, 0, 64, 700)]).modHut (fun h => { h with sects := [(33, x), (34, x), (64, x)] })
    let w := after (.stallWatchdog 18) s
    v.scrubStuck && !t.scrubStuck && t.cfg.scrubFrame == 0 && t.ctr C.CFG_CNT_SCRUB_STALL == 1 && s.sectOf 18 == some 33 && s.running 18 &&
    s.stalledOut 18 && w.sectState 33 == 6 && w.sectState 34 == 6 && w.sectState 64 == 3) = true := by decide +kernel

theorem witness_SelfTest : (let n := 191
    let a := siteOfSpur n
    let z : State := { base with cycle := 0 }
    let s := ((z.setDom 0 a 0)).modHut (fun h => { h with testNow := [n] })
    let w := s.wr F.HUT_SPUR_HEALTH_STATE 0 n 2
    let t := after (.healthySelftestDue 191) s
    let u := after (.watchedSelftestDue 191) w
    let r (left : Nat) : State := setAll (base.modHut (fun h => { h with testing := [n] })) [(F.HUT_SPUR_HEALTH_STATE, 0, n, 2), (F.HUT_SPUR_HEALTH_WATCH_LEFT, 0, n, left)]
    let bad := after (.selftestComplete 191 1) (r 1)
    let ok (k : Nat) : State := after (.selftestComplete 191 0) (r k)
    s.testDue n && s.mayTest n && s.rd F.HUT_SPUR_HEALTH_STATE 0 n == 0 && t.hut.testing == [n] && (t.seq a).selfTest &&
    w.testDue n && w.mayTest n && u.hut.testing == [n] && bad.hut.failedTests == [n] && base.fuses.signature == 0 &&
    (ok 1).rd F.HUT_SPUR_HEALTH_STATE 0 n == 0 && (ok 2).rd F.HUT_SPUR_HEALTH_STATE 0 n == 2 && (ok 2).rd F.HUT_SPUR_HEALTH_WATCH_LEFT 0 n == 1) = true := by
  decide +kernel

theorem witness_RecordsLanes : (let r : HRec := ⟨4, true, 71, 3, 1, [3], false⟩
    let s := base.modHut (fun h => { h with recPend := [r, r] })
    let t := after (.healthRecordAppend true) s
    let f := after (.healthRecordAppend false) s
    let l := (base.wr F.GATE_LANE_HEALTH_WIDTH 0 0 1).modGate (fun g => { g with laneBad := [(7, 2)] })
    let w := after (.laneWindow 0x80 []) l
    let d := w.modGate (fun g => { g with laneDown := [(7, 0)] })
    let c := after (.retrainComplete [(1, 0), (2, 0), (5, 1)]) d
    let y := setAll (w.modGate (fun g => { g with laneDown := [] })) [(F.CFG_DEV_STATE_STATE, 0, 0, 1)]
    let z := after (.retrainRetry [(5, 3)]) y
    s.hut.recs.length < storeSize && t.hut.recs == [r] && t.rd F.HUT_HREC_STATUS_USED == 1 && f.hut.recs == [] &&
    f.rd F.HUT_HREC_STATUS_WERR == 1 && l.windowOver && y.retryDue && (after (.laneWindow 0x80 []) w == w) && !slowWidth (l.rd F.GATE_LANE_HEALTH_WIDTH) && w.laneMarked false 7 && w.rd F.GATE_LANE_HEALTH_WIDTH == 0 &&
    w.gate.laneDown == [(7, 0)] && c.rd F.GATE_LANE_HEALTH_WIDTH == 2 && c.ctr C.GATE_CNT_RETRAIN == 1 && c.gate.laneDown == [] &&
    y.rd F.GATE_LANE_HEALTH_WIDTH == 0 && z.rd F.GATE_LANE_HEALTH_WIDTH == 0) = true := by decide +kernel

/-- A digest of partition 1 over 64 bytes of external memory. -/
def dig (leaves : List (Nat × List Byte)) : State :=
  (setAll base [(F.HUT_TRAIN_STEP, 0, 1, 9), (F.TAL_DIG_STATE, 0, 1, 1)]).modHut (fun h =>
    { h with digs := [(1, ⟨[(0, 64)], 700, leaves, true, none⟩)] })

theorem witness_Digests : (let s := (setAll { base with cycle := 0 } [(F.HUT_TRAIN_STEP, 0, 1, 9)]).modHut (fun h =>
      { h with digDue := [(1, 700)], digSets := [(1 * 65536 + 700, [(0, 64)])] })
    let t := after (.scheduledDigest 1) s
    let l := after (.leafRead 1 0) (dig [])
    let p := (dig []).setPois 3 true
    let q := after (.leafRead 1 0) p
    let c := after (.digestComplete 1) (dig [(0, [])])
    (s.hut.digDue.find? (fun x => x.1 == 1 && !s.jobOut 1 x.2)) == some (1, 700) && (aget s.hut.digs 1).isNone && t.rd F.TAL_DIG_STATE 0 1 == 1 && t.rd F.HUT_TRAIN_DIG_PEND 0 1 == 1 && t.hut.digDue == [] && t.rd F.TAL_DIG_LEAVES 0 1 == 1 && t.rd F.TAL_DIGSTEP_STEP 0 1 == 9 &&
    leavesOf [(0, 64)] == [(0, 64)] && ((dig []).leafWords 0 64).1.all (fun w => w.poison == 0) && l.rd F.TAL_DIG_DONE 0 1 == 1 &&
    l.ctr C.TAL_CNT_LEAVES == 1 && (p.leafWords 0 64).1.any (fun w => w.poison != 0) && (aget q.hut.digs 1).isNone && q.rd F.TAL_DIG_STATE 0 1 == 3 &&
    q.rd F.HUT_POISON_KIND 0 1 == 4 && (dig []).rd F.TAL_LIST_EN 0 1 == 0 && c.rd F.TAL_DIG_STATE 0 1 == 2 && (aget c.hut.digs 1).isNone) = true := by
  decide +kernel

set_option maxRecDepth 100000 in
theorem witness_Pitch : (let z : State := { base with cycle := 65533, cycles := 65533, lenPend := some 14, lenNext := some 13 }
    let s := setAll z [(F.COL_PITCH_NUM_PITCH, 0, 0, 2 ^ 48 - 1), (F.COL_PITCH_CTRL_CHANGE_PEND, 0, 0, 1)]
    let t := after .pitchBoundary s
    let w := after .pitchWrap s
    let k : State := { base with counters := [(5, 7)], snaps := [(5, 1)] }
    s.pitchDone && s.pitch + 1 == 2 ^ 48 && t.pitch == 0 && t.cycle == 0 && t.rd F.COL_PITCH_CTRL_WRAPPED == 1 && t.rd F.COL_PITCH_NUM_LOG2_LEN == 13 &&
    t.lenNext == some 14 && t.lenPend == none && t.rd F.COL_PITCH_CTRL_CHANGE_PEND == 0 && w.pitch == 0 && k.rd F.PWR_BIVOUAC_STATE == 0 &&
    aget k.sample.snaps 5 == some 7) = true := by decide +kernel

/-! ### The Tristox stream and start-up -/

/-- A slot whose stream stands at offset 64 with that header, its bytes come up to offset 65,536. -/
def rx (slot : Nat) (flags : Byte) : State :=
  let hd := hdrOf (if slot = 16 then 0 else 1) flags 0
  let x : StreamX := { StreamX.reset with wait := false, hdr := some hd, sent := [1], key := some 5 }
  (setAll base [(F.CFG_STREAM_STATE, 0, slot, 1), (F.CFG_STREAM_POS_OFFSET, 0, slot, 65536), (F.CFG_DEV_STATE_STATE, 0, 0, 2)]).putStream slot x

/-- `PacketOk` but for the bytes themselves, decided. -/
def pktOk (s : State) (k typ : Nat) (h : PktHdr) (n : Nat) : Bool :=
  s.receiving k && !(s.stream k).wait && decide ((s.stream k).at_ + 16 + n ≤ s.posE k) && !packetBad typ h (if k = 16 then 0 else 1) &&
  !(s.stream k).orderBad typ h.len.toNat && n == h.len.toNat

theorem packetOk_of {s : State} {k typ : Nat} {h : PktHdr} {data : List Byte} {n : Nat} (hn : data.length = n)
    (h0 : pktOk s k typ h n = true) : PacketOk s k typ h data := by
  subst hn
  unfold pktOk at h0
  simp only [Bool.and_eq_true, Bool.not_eq_true', decide_eq_true_eq, beq_iff_eq] at h0
  obtain ⟨⟨⟨⟨⟨h1, h2⟩, h3⟩, h4⟩, h5⟩, h6⟩ := h0
  exact ⟨h1, h2, h3, h4, h5, h6⟩

/-- A packet header that applies to every position. -/
def pkt (len : BitVec 32) (arg : BitVec 64) : PktHdr := ⟨0xFF, 0, len, arg⟩
/-- Sixteen bytes. -/
def bytes16 : List Byte := (List.range 16).map (fun i => BitVec.ofNat 8 (i + 1))

theorem witness_Packets : (let s := rx 3 0
    let b := rx 16 0
    let g (t : State) (k : Nat) : StreamGot := (t.stream k).got
    let nop := after (.nopPacket 3 (pkt 16 0) bytes16) s
    let img := after (.image 3 (pkt 16 8) bytes16) s
    let off := { pkt 16 8 with mask := 0xFE }
    let pass := after (.image 3 off bytes16) s
    let recs : List (Word × Word) := [(0x01FF00000000, 7)]
    let wr := after (.wreg 16 (pkt 16 0) recs) b
    let sq := after (.startSeq 16 (pkt 16 0) bytes16) b
    let fw := after (.firmware 16 (pkt 16 0) bytes16) b
    pktOk s 3 0 (pkt 16 0) 16 && (nop.stream 3).at_ == 96 && (nop.stream 3).prev == 0 && (nop.stream 3).block.length == 32 &&
    pktOk s 3 9 (pkt 16 8) 16 && s.applies (s.stream 3) (pkt 16 8) && aget (g img 3).parts 8 == some bytes16 && (g img 3).applied &&
    pktOk s 3 9 off 16 && !s.applies (s.stream 3) off && (pass.stream 3).at_ == 96 && g pass 3 == g s 3 &&
    pktOk b 16 4 (pkt 16 0) 16 && b.applies (b.stream 16) (pkt 16 0) && (g wr 16).wregs == recs && pktOk b 16 5 (pkt 16 0) 16 &&
    (g sq 16).codes == some bytes16 && pktOk b 16 2 (pkt 16 0) 16 && fw.cfg.firmware == bytes16 && (g fw 16).fwLen == 16) = true := by
  decide +kernel

/-- The bytes of a key and of a signature. -/
def keyBytes : List Byte := List.replicate 64 0
def sigBytes : List Byte := List.replicate 29792 0

theorem sig_length : (List.append keyBytes sigBytes).length = 29856 := by
  simp only [keyBytes, sigBytes, List.append_eq, List.length_append, List.length_replicate]

theorem witness_Fwsig : (let b := (rx 16 0).modStream 16 (fun x => { x with got := { x.got with fwLast := true } })
    PacketOk b 16 3 (pkt 29856 0) (List.append keyBytes sigBytes) ∧ keyBytes.length = 64 ∧ b.applies (b.stream 16) (pkt 29856 0) = true ∧
    (b.stream 16).got.fwsig = none ∧ (b.stream 16).got.fwLast = true) := by
  exact ⟨packetOk_of sig_length (by decide +kernel), by decide, by decide +kernel, by decide +kernel, by decide +kernel⟩

theorem witness_Signature : (let s := (rx 3 0).modStream 3 (fun x => { x with prev := 1 })
    PacketOk s 3 14 (pkt 29856 0) (List.append keyBytes sigBytes)) :=
  packetOk_of sig_length (by decide +kernel)

/-- A frame's 256 bytes and its CRC over address 0x0100 and them. -/
def frameBytes : List Byte := List.replicate 256 7
def frameCrc : BitVec 32 := crc32c (List.append (leBytes 256 4) frameBytes)

set_option maxRecDepth 100000 in
theorem witness_Frame : (let s := rx 3 0
    let h := pkt 256 (frameCrc.setWidth 64 <<< 32 ||| 256)
    let w := pkt 256 256
    let t := after (.frame 3 h frameBytes) s
    let v := after (.frame 3 w frameBytes) s
    pktOk s 3 8 h 256 && frameBytes.length == 256 && h.arg.toNat % 2 ^ 32 == 256 && frameCrc.toNat == h.arg.toNat / 2 ^ 32 &&
    (t.stream 3).got.frames == [(256, frameBytes)] && frameCrc.toNat != w.arg.toNat / 2 ^ 32 && v.rd F.CFG_STREAM_OUTCOME 0 3 == 5 &&
    v.rd F.CFG_STREAM_REASON 0 3 == 18) = true := by decide +kernel

theorem witness_SyncPlain : (let s := rx 3 0
    let t := after (.sync 3 (pkt 16 0) 0xABC) s
    pktOk s 3 1 (pkt 16 0) 16 && (s.stream 3).hdr == some (hdrOf 1 0 0) && t.rd F.CFG_STREAM_BLOCK 0 3 == 1 &&
    t.rd F.CFG_STREAM_SYNC_OFFSET 0 3 == 96 && (t.stream 3).at_ == 96 && (t.stream 3).block == [] && (t.stream 3).prev == 1) = true := by
  decide +kernel

/-- The tag of the empty first block of an encrypted stream. -/
noncomputable def goodTag : BitVec 128 :=
  Config.gcmTag (((rx 3 1).stream 3).key.getD 0) (List.append (leBytes (hdrOf 1 1 0).ivBase.toNat 8) (leBytes ((rx 3 1).rd F.CFG_STREAM_BLOCK 0 3) 4))
    (List.append (hdrOf 1 1 0).bytes ((pkt 16 0).bytes 1)) ((rx 3 1).stream 3).block

theorem witness_SyncTags : (∀ tag : BitVec 128, PacketOk (rx 3 1) 3 1 (pkt 16 0) (leBytes tag.toNat 16)) ∧
    ((rx 3 1).stream 3).hdr = some (hdrOf 1 1 0) ∧ (hdrOf 1 1 0).flags.getLsbD 0 = true ∧ goodTag ≠ goodTag + 1 := by
  refine ⟨fun tag => packetOk_of (n := 16) rfl (by decide +kernel), by decide +kernel, by decide +kernel, ?_⟩
  intro h
  have h1 := congrArg BitVec.toNat h
  have h2 := goodTag.isLt
  rw [BitVec.toNat_add] at h1
  have h3 : (1 : BitVec 128).toNat = 1 := rfl
  omega

theorem witness_StreamEnds : (let s := (rx 3 0).modStream 3 (fun x => { x with at_ := 4080, blockStart := 4080, prev := 14, got := { x.got with applied := true } })
    let t := after (.streamEndPacket 3 (pkt 0 0)) s
    let v := after (.signatureVerified 3) t
    let n := t.modStream 3 (fun x => { x with got := { x.got with applied := false } })
    let r := (t.modStream 3 (fun x => { x with hdr := some (hdrOf 1 2 0) }))
    let b := (rx 16 2).wr F.CFG_STREAM_STATE 0 16 2
    let c := b.modStream 16 (fun x => { x with hdr := some (hdrOf 0 0 0), got := { x.got with applied := true } })
    pktOk s 3 15 (pkt 0 0) 0 && t.rd F.CFG_STREAM_STATE 0 3 == 2 && t.sigWhy 3 (hdrOf 1 0 0) (t.stream 3) == 0 &&
    v.rd F.CFG_STREAM_STATE 0 3 == 3 && v.rd F.CFG_STREAM_OUTCOME 0 3 == 1 && (after (.signatureVerified 3) n).rd F.CFG_STREAM_OUTCOME 0 3 == 2 &&
    r.sigWhy 3 (hdrOf 1 2 0) (r.stream 3) == 20 && (after (.signatureVerified 3) r).rd F.CFG_STREAM_REASON 0 3 == 20 &&
    (after (.signatureVerified 3) r).rd F.CFG_STREAM_OUTCOME 0 3 == 5 && c.sigWhy 16 (hdrOf 0 0 0) (c.stream 16) == 20) = true := by decide +kernel

/-- A signed base stream at its verification, its key in key slot 0. -/
def signed : State :=
  let b := ((rx 16 2).wr F.CFG_STREAM_STATE 0 16 2).modStream 16 (fun x => { x with sig := some (keyBytes, []), got := { x.got with applied := true } })
  { b with fuses := { b.fuses with slotUsed := [true, false, false, false], slots := [BitVec.ofNat 256 (leNat ((shake256 keyBytes).take 32)), 0, 0, 0] } }

set_option maxRecDepth 100000 in
theorem signed_keyKnown : signed.keyKnown 0 keyBytes = true := by decide +kernel

/-- Whether a signature verifies is no computation of the model (log entry 20): where it does, the base stream passes. -/
theorem witness_BaseLoaded (hv : Config.sigVerifies keyBytes [1] [] = true) :
    signed.rd F.CFG_STREAM_STATE 0 16 = 2 ∧ (signed.stream 16).hdr = some (hdrOf 0 2 0) ∧ (signed.stream 16).got.applied = true ∧
    signed.sigWhy 16 (hdrOf 0 2 0) (signed.stream 16) = 0 := by
  refine ⟨by decide +kernel, by decide +kernel, by decide +kernel, ?_⟩
  have hs : (signed.stream 16).sig = some (keyBytes, []) := by decide +kernel
  have hg : (signed.stream 16).got.fwsig = none := by decide +kernel
  have hl : (signed.stream 16).got.fwLen = 0 := by decide +kernel
  have hx : (signed.stream 16).sent = [1] := by decide +kernel
  have hf : (hdrOf 0 2 0).flags.getLsbD 1 = true := by decide
  have hk : (hdrOf 0 2 0).keySlot.toNat = 0 := by decide
  unfold State.sigWhy
  simp only [hs, hg, hl, hx, hf, hk, hv, signed_keyKnown]
  decide

theorem test_seq_run : seqRun [5] [1] = [1, 2, 3, 5, 4, 6, 7] ∧ seqRun [] [1] = [1, 2, 3, 4, 5, 6, 7] ∧ seqRun [6, 9, 2] [1] = [1, 6, 0] := by decide

set_option maxRecDepth 100000 in
theorem witness_StreamHeader : (let h := hdrOf 1 0 0
    let g := { h with hcrc := crc32c h.body }
    let s := ((rx 3 0).wr F.CFG_DEV_STATE_STATE 0 0 4).modStream 3 (fun x => { x with wait := true, hdr := none, old := (fieldSet F.CFG_STREAM_STATE 3 0, 5) })
    let b := after (.streamHeader 3 h false) s
    let t := after (.streamHeader 3 g false) s
    s.receiving 3 && (s.stream 3).wait && 64 ≤ s.posE 3 && s.foreignWhy (s.stream 3) h == 2 && b.rd F.CFG_STREAM_OUTCOME 0 3 == 3 &&
    b.rd F.CFG_STREAM_REASON 0 3 == 2 && b.rd F.CFG_STREAM_STATE 0 3 == 3 && s.foreignWhy (s.stream 3) g == 0 && g.kind == 1 && g.reserved == 0 &&
    !g.flags.getLsbD 0 && s.rd F.CFG_STREAM_RESUMABLE 0 3 == 0 && s.isReady && (t.stream 3).hdr == some g && !(t.stream 3).wait &&
    t.rd F.CFG_STREAM_STREAM_ID 0 3 == 9) = true := by decide +kernel

theorem witness_DatagramDeadline : (let s := ((rx 3 0).modStream 3 (fun x => { x with multicast := true, deadline := 1200 })).wr F.CFG_STREAM_POS_OFFSET 0 3 100
    let t := after (.datagram 9 100 1) s
    let u := after (.datagram 9 0 101) s
    let d := after (.datagram 9 101 50) s
    let e := after (.datagram 9 0 100) s
    let l := after (.loadDeadline 3) s
    let o := { s with time := 1300 }
    let c := s.wr F.CFG_STREAM_POS_OFFSET 0 3 4096
    s.receiving 3 && s.takesBytes 3 && !s.endCame 3 && c.endCame 3 && after (.loadDeadline 3) c == c && !o.takesBytes 3 &&
    (after (.datagram 9 0 101) o).posE 3 == 100 && (s.stream 3).multicast && s.posE 3 == 100 && t.posE 3 == 101 && t.receiving 3 && u.posE 3 == 101 && d.posE 3 == 100 &&
    e.posE 3 == 100 && s.time == 1200 && l.rd F.CFG_STREAM_STATE 0 3 == 3 && l.rd F.CFG_STREAM_OUTCOME 0 3 == 4 && l.rd F.CFG_STREAM_REASON 0 3 == 8) = true := by
  decide +kernel

/-- A device in start-up whose next step is `c`. -/
def starting (c : Nat) : State :=
  let b := setAll (base.putBytes 256 [7]) [(F.CFG_DEV_STATE_STATE, 0, 0, 3), (F.SEQ_MARK_VALUE, 18, 0, 5)]
  { b with cfg := { b.cfg with stepsLeft := [c, 7] } }

theorem witness_StartUp : (let o : StepObs := ⟨[], [], true⟩
    let f (c : Nat) : State := after (.startupStep o) (starting c)
    let b := after .bootComplete State.reset
    let k := (starting 1)
    let nl : State := { k with board := { k.board with pllLock := false } }
    let late : State := { k with time := milli }
    let x := after .pllLockTimeout late
    State.reset.rd F.CFG_DEV_STATE_STATE == 0 && State.reset.board.porstN && State.reset.board.pwrgd && State.reset.rd F.ROPE_STATUS_POS_VALID == 1 &&
    b.rd F.CFG_DEV_STATE_STATE == 1 && (f 1).cfg.stepsLeft == [7] && (f 1).cycle == 100 && (after (.startupStep o) nl).cycle == 0 &&
    (after (.startupStep o) nl).board.pllLock && !(starting 2).board.stageInN && (f 2).groupState 0 == 0 && (f 2).byte 256 == 0 && (f 2).cfg.stepsLeft == [7] &&
    (f 3).rd F.SEQ_MARK_VALUE 18 == 0 && (f 3).byte 256 == 7 && !(f 6).board.stageOutN && !(f 7).board.readyN && (f 7).rd F.CFG_DEV_STATE_STATE == 4 &&
    (f 0).rd F.CFG_DEV_STATE_STATE == 5 && (f 0).rd F.CFG_DEV_STATE_FAIL == 3 && decide (late.cfg.startedAt + milli ≤ late.time) && after .pllLockTimeout k == k && x.rd F.CFG_DEV_STATE_FAIL == 1 && x.cfg.stepsLeft == []) = true := by
  decide +kernel

/-! ### The board -/

/-- A board's state changed. -/
def brd (s : State) (f : BoardX → BoardX) : State := { s with board := f s.board }

/-- A device in READY with position 3 of 5 and both Rope links up at version 2. -/
def onRope : State := setAll base [(F.CFG_DEV_STATE_STATE, 0, 0, 4), (F.ROPE_STATUS_POS, 0, 0, 3), (F.ROPE_STATUS_POS_VALID, 0, 0, 1),
  (F.ROPE_STATUS_LAST, 0, 0, 5), (F.ROPE_STATUS_UP_LINK, 0, 0, 1), (F.ROPE_STATUS_UP_VER, 0, 0, 2), (F.ROPE_STATUS_DOWN_LINK, 0, 0, 1),
  (F.ROPE_STATUS_DOWN_VER, 0, 0, 2)]

theorem witness_ResetsAndPins : (let s := brd ((onRope.putBytes 256 [7])) (fun b => { b with pwrgd := false })
    let p := brd (onRope.putBytes 256 [7]) (fun b => { b with porstN := false })
    let st : Straps := ⟨0x25, true, 1, 2, 3, 3, true⟩
    let t := after .pwrgdRise s
    let u := after .inputUndervoltage onRope
    let a := after .porstNAssert onRope
    let d := after (.porstNDeassert st) p
    let v : State := { base with fuses := { base.fuses with vbat := some 5 } }
    !s.board.pwrgd && s.board.thermtripN && t.board.pwrgd && t.byte 256 == 0 && t.rd F.CFG_DEV_STATE_STATE == 0 && !u.board.pwrgd &&
    u.rd F.ROPE_STATUS_LAST == 0 && !a.board.porstN && !p.board.porstN && d.board.porstN && d.byte 256 == 0 && d.rd F.CFG_STRAPS_BOARD_ID == 0x25 &&
    d.rd F.COL_PITCH_NUM_LOG2_LEN == 0 && d.rd F.ROPE_STATUS_POS_VALID == 1 && d.rd F.CFG_STRAPS_MGMT_BASE == 3 &&
    !(after .stageInNLow base).board.stageInN && (after .vbatLoss v).fuses.vbat == none) = true := by decide +kernel

theorem witness_Temperature : (let f (n : Int) : State := after (.temperatureSample (BitVec.ofInt 12 n)) (onRope.putBytes 256 [7])
    let win (lv cool : Nat) (tj : Int) (w : Nat) : State :=
      after (.thermalWindow (BitVec.ofInt 12 tj) (BitVec.ofNat 16 w)) (brd (base.wr F.PWR_THERM_LEVEL 0 0 lv) (fun b => { b with coolWindows := cool }))
    let l := base.rd F.PWR_THERM_LIMIT_W
    let early := brd base (fun b => { b with windowDue := 1201 })
    let hot := after (.thermalWindow (BitVec.ofInt 12 420) 0) (onRope.putBytes 256 [7])
    (BitVec.ofInt 12 (-40)).toInt == -40 && (f (-40)).rd F.PWR_THERM_TJ == 4056 && (f 379).rd F.PWR_THERM_WARN == 0 && (f 380).rd F.PWR_THERM_WARN == 1 && (f 380).board.alerts == 1 &&
    (f 419).board.thermtripN && !(f 420).board.thermtripN && !(f 420).board.pwrgd && (f 420).byte 256 == 0 && (f 420).rd F.PWR_THERM_TJ == 420 &&
    after (.thermalWindow 0 0) early == early && !hot.board.thermtripN && hot.byte 256 == 0 && decide (base.board.windowDue ≤ base.time) && (win 0 5 400 0).rd F.PWR_THERM_LEVEL == 1 && (win 3 5 0 (l + 1)).rd F.PWR_THERM_LEVEL == 3 && (win 2 5 399 0).rd F.PWR_THERM_LEVEL == 2 &&
    (win 2 5 399 0).board.coolWindows == 0 && (win 2 8 388 (l - 50)).board.coolWindows == 9 && (win 2 9 388 (l - 50)).rd F.PWR_THERM_LEVEL == 1 &&
    (win 2 9 388 (l - 49)).rd F.PWR_THERM_LEVEL == 2 && (win 0 9 388 0).rd F.PWR_THERM_LEVEL == 0 && (win 2 9 388 0).board.alerts == 2 &&
    (win 1 9 388 0).board.alerts == 0) = true := by decide +kernel

theorem witness_Rope : (let h (n lo hi : Nat) : State := after (.hello .down (BitVec.ofNat 8 lo) (BitVec.ofNat 8 hi)) (brd onRope (fun b => { b with down := { b.down with hellos := n } }))
    let np := setAll onRope [(F.ROPE_STATUS_HEAD, 0, 0, 0), (F.ROPE_STATUS_POS_VALID, 0, 0, 0), (F.ROPE_STATUS_POS, 0, 0, 0)]
    let ps (n : Nat) : State := after (.pos true (BitVec.ofNat 8 n)) np
    let early := brd onRope (fun b => { b with up := { b.up with sendDue := 1201 } })
    let biv := onRope.wr F.PWR_BIVOUAC_STATE 0 0 2
    let w (d : Nat) : State := after (.ropeWake true (BitVec.ofNat 4 d)) biv
    onRope.board.pwrgd && (h 1 1 2).board.down.hellos == 2 && (h 2 1 2).rd F.ROPE_STATUS_DOWN_VER == 2 && (h 2 1 1).rd F.ROPE_STATUS_DOWN_VER == 1 &&
    (h 2 3 7).rd F.ROPE_STATUS_DOWN_LINK == 0 && (after (.helloSend .up) onRope).out == [.rope .up 1 15 3 0 [1, 2]] &&
    (after (.ropeLinkDown .up) { onRope with time := 3 * milli }).rd F.ROPE_STATUS_UP_VER == 0 && after (.helloSend .up) early == early && (after (.pos false 2) onRope).ctr C.ROPE_CNT_CRC == 1 &&
    np.rd F.ROPE_STATUS_HEAD == 0 && np.rd F.ROPE_STATUS_POS_VALID == 0 && (ps 6).rd F.ROPE_STATUS_POS == 7 && (ps 6).rd F.ROPE_STATUS_LAST == 7 &&
    (ps 7).rd F.ROPE_STATUS_LONG == 1 && (after (.chain true 2) onRope).rd F.ROPE_STATUS_LAST == 3 && (after (.chain true 7) onRope).rd F.ROPE_STATUS_LAST == 7 &&
    (w 3).rd F.PWR_BIVOUAC_STATE == 3 && (w 3).rd F.PWR_BIVOUAC_WAKE_SRC == 3 && (w 15).rd F.PWR_BIVOUAC_STATE == 3 && (w 4).rd F.PWR_BIVOUAC_STATE == 2 &&
    (w 4).out == [.rope .down 4 4 0 0 []] && (w 2).out == [.rope .up 4 2 0 0 []]) = true := by decide +kernel

def rec4 : HRec := ⟨4, true, 71, 3, 1, [3], false⟩

theorem witness_SmbusReads : (let a := brd onRope (fun b => { b with alerts := 3, smb := ⟨none, some (7, [])⟩ })
    let s := (a.modHut (fun h => { h with recs := [rec4] })).wr F.CFG_STRAPS_MGMT_BASE 0 0 2
    let biv := s.wr F.PWR_BIVOUAC_STATE 0 0 2
    let g := after (.getStatus true) s
    s.board.pwrgd && s.hasPos && s.rd F.PWR_BIVOUAC_STATE == 0 && s.board.smb.pending == none && s.board.relay == none && s.isReady &&
    (after (.getStatus false) s).out == [.smb 3 []] && (after (.setPowerLimit false 500) s).out == [.smb 3 []] &&
    (after .alertResponse s).out == [.alertAddress 0x33] &&
    (after (.getResult true) (brd s (fun b => { b with smb := ⟨some (6, []), none⟩ }))).out == [.smb 1 []] &&
    (after (.wake true) biv).rd F.PWR_BIVOUAC_WAKE_SRC == 4 && (after (.wake true) biv).out == [.smb 0 []] && (after (.wake true) s).out == [.smb 0 []] &&
    g.board.alerts == 0 && (after (.healthRead true 1) s).out == [.smb 5 []] && (after (.healthRead true 0) s).out == [.smb 0 rec4.bytes] &&
    rec4.bytes.length == 32 && (after (.getResult true) s).out == [.smb 7 []] && (after (.bivouacEnter true) s).rd F.PWR_BIVOUAC_ENTER == 1 &&
    (after (.bivouacEnter true) (s.wr F.CFG_DEV_STATE_STATE 0 0 1)).out == [.smb 4 []] &&
    (match (after (.getIdentity true) s).out with
      | [.smb st d] => st == 0 && d.length == 25
      | _ => false)) = true := by decide +kernel

theorem witness_SmbusWrites : (let s := (onRope.modHut (fun h => { h with recs := [rec4] })).modGate (fun g => { g with ip := some 9 })
    let e := (setAll s [(F.CFG_STREAM_STATE, 0, 3, 1)]).modStream 3 (fun x => { x with hdr := some (hdrOf 1 1 0), wait := false })
    let bo := s.wr F.CFG_DEV_STATE_STATE 0 0 1
    let us : State := { bo with fuses := { bo.fuses with slotUsed := [true, true, false, false] } }
    let ip4 := after (.setIp true 4 32 0x0A000001 1) s
    let k := after (.progKeySlot true 3 77) bo
    let c := after (.healthClear true 4 71) s
    let r := after (.ropeRelay true 5 [1]) s
    let l (w : Nat) : State := after (.setPowerLimit true (BitVec.ofNat 16 w)) s
    s.board.pwrgd && s.hasPos && s.rd F.PWR_BIVOUAC_STATE == 0 && s.board.smb.pending == none && s.board.relay == none &&
    ip4.gate.ip == some 0x0A000001 && !ip4.gate.dhcp && ip4.out == [.smb 0 []] && (after (.setIp true 4 33 1 1) s).out == [.smb 5 []] &&
    (after (.setIp true 0 0 1 1) s).gate.ip == none && !s.encBusy && e.encBusy && (after (.setVbatKey true 6) s).fuses.vbat == some 6 &&
    (after (.setVbatKey true 6) e).out == [.smb 4 []] && (after (.clearVbatKey true) e).fuses == e.fuses && k.out == [.smb 1 []] &&
    k.board.smb.pending == some (6, 3 :: leBytes 77 32) && us.fuses.slotUsed.getD 1 false && (after (.progKeySlot true 1 77) us).out == [.smb 6 []] &&
    c.hut.recPend == [⟨8, true, 71, s.pitch, s.hut.bootCount, [4], false⟩] && (after (.healthClear true 8 71) s).out == [.smb 8 []] &&
    r.board.relay == some ⟨5, s.board.relaySeq, [1], 0, s.time⟩ && r.out == [.rope .down 5 5 3 s.board.relaySeq [1]] &&
    (after (.ropeRelay true 3 [1]) s).out == [.smb 9 []] && (l 300).rd F.PWR_THERM_LIMIT_W == 300 && (l 1200).rd F.PWR_THERM_LIMIT_W == 1200 &&
    (l 299).out == [.smb 5 []] && (l 1201).out == [.smb 5 []]) = true := by decide +kernel

theorem witness_Relays : (let p := brd onRope (fun b => { b with smb := ⟨some (6, (3 : Byte) :: leBytes 77 32), none⟩ })
    let c (v : Nat) : State := after (.smbusCommandComplete (BitVec.ofNat 256 v)) p
    let q := after (.relayReq true 5 3 9 (12 :: leBytes 400 2)) onRope
    let f := after (.relayReq true 1 6 9 [2]) onRope
    let g := after (.relayRsp true 6 1 9 [0]) onRope
    let rl (n : Nat) : State := brd { onRope with time := milli } (fun b => { b with relay := some ⟨5, 9, [2], n, 0⟩ })
    let rl' : State := brd onRope (fun b => { b with relay := some ⟨5, 9, [2], 0, 0⟩ })
    let a := after (.relayRsp true 5 3 9 [0, 7]) (rl 0)
    (c 77).board.smb == ⟨none, some (0, [])⟩ && (c 78).board.smb == ⟨none, some (7, [])⟩ && (c 78).fuses.slots.getD 3 0 == 78 &&
    q.rd F.PWR_THERM_LIMIT_W == 400 && q.out == [.rope .down 6 5 3 9 [0]] && f.out == [.rope .down 5 6 1 9 [2]] &&
    g.out == [.rope .up 6 1 6 9 [0]] && a.board.relay == none && a.out == [.smb 0 [7]] &&
    (after .relayRetry (rl 2)).board.relay == some ⟨5, 9, [2], 3, milli⟩ && after .relayRetry rl' == rl' && (after .relayRetry (rl 2)).ctr C.ROPE_CNT_RETRY == 1 &&
    (after .relayRetry (rl 3)).board.relay == none && (after .relayRetry (rl 3)).out == [.smb 9 []]) = true := by decide +kernel

/-- Table 17-8's entry: a device in READY with a request, one tier domain OFF. -/
def resting : State := (setAll base [(F.CFG_DEV_STATE_STATE, 0, 0, 4), (F.PWR_BIVOUAC_ENTER, 0, 0, 1)]).setWord .PWR_TIER_STATE 0 7 8#64

theorem witness_Bivouac : (let s := setAll base [(F.PWR_BIVOUAC_AUTO_MS, 0, 0, 1)]
    let t0 : State := { s with time := milli }
    let j := resting.judgeEntry
    let n := (resting.wr F.PWR_BIVOUAC_STATE 0 0 2).judgeEntry
    let e (w : Nat) : State := brd (setAll base [(F.PWR_BIVOUAC_STATE, 0, 0, 1)]) (fun b => { b with wakeSrc := w })
    let d (w : Nat) : State := after .bivouacEntryComplete (e w)
    s.board.lastHost == 0 && (after .bivouacAutoEntry t0).rd F.PWR_BIVOUAC_ENTER == 1 && resting.mayEnter && j.rd F.PWR_BIVOUAC_STATE == 1 &&
    j.word .PWR_TIER_STATE 0 7 == 0x5555555555555559#64 && j.board.savedDomains.length == 24 && n.rd F.PWR_BIVOUAC_STATUS == 2 &&
    (d 0).rd F.PWR_BIVOUAC_STATE == 2 && (d 4).rd F.PWR_BIVOUAC_STATE == 3 && (d 4).rd F.PWR_BIVOUAC_WAKE_SRC == 4) = true := by decide +kernel

theorem witness_Wake : (let k := brd ((base.wr F.PWR_BIVOUAC_STATE 0 0 3).setWord .PWR_TIER_STATE 0 7 0x5555555555555559#64) (fun b => { b with savedDomains := [(⟨.PWR_TIER_STATE, 0, 7⟩, 8#64)], bivSince := 2 ^ 48 - 4 })
    let b := k.beginWake
    let c := brd k (fun b => { b with savedDomains := [] })
    let v := after .wakeComplete c
    b.hut.switching.contains (siteOfTarn 56, 2, 8292) && k.dom 2 (siteOfTarn 56) == 1 && b.word .PWR_TIER_STATE 0 7 == 0xFFFFFFFFFFFFFFFB#64 && b.board.savedDomains == [] && !k.domainsBack &&
    after .wakeComplete k == k && c.domainsBack && c.gate.wakeBuf == [] && v.rd F.PWR_BIVOUAC_STATE == 0 && v.board.alerts == 16 &&
    v.ctr C.PWR_CNT_BIV_PITCH == 4) = true := by decide +kernel

/-! ### The Gate -/

/-- A device in state `st` of Table 15-11 with tenant 2, its partition 1 with 256 MB of group 0 at 0x10000000, and queue pair 7 of that
tenant open, its ring of 64 entries at the grant's start. -/
def linked (st : Nat) : State :=
  let b := setAll base [(F.CFG_DEV_STATE_STATE, 0, 0, st), (F.HUT_PART_ACTIVE, 0, 1, 1), (F.HUT_PART_TENANT, 0, 1, 2), (F.HUT_GRANT_BASE, 0, 4, 1),
    (F.HUT_GRANT_SIZE, 0, 4, 1), (F.GATE_TENANT_ACTIVE, 0, 2, 1), (F.GATE_TENANT_MAXQP, 0, 2, 2), (F.GATE_QP_STATE, 0, 7, 1), (F.GATE_QP_OWNER, 0, 7, 2)]
  let x := { QpX.reset with rkey := 9, ringAddr := 0x10000000, ringLog2 := 6, cqLog2 := 6, rate := 1500000000 }
  { b with gate := { b.gate with tokens := [(2, 0x55)], qps := [(7, x)] } }

def blk (ring : BitVec 64) : QpBlock := ⟨1, 2, 0, 0, 6, 6, 6, ring, 0, 0, 3⟩
def vers : Versions := ⟨2, 3, 3, 4⟩
def claim (deadline : BitVec 32) : ClaimBody := ⟨0x77, deadline, vers, 0, 0, blk 0x080FF000⟩

/-- The device of `linked`, its admin connection on queue pair 3 with nonce 0x77. -/
def withAdmin (st : Nat) : State :=
  let b := setAll (linked st) [(F.GATE_QP_STATE, 0, 3, 1), (F.GATE_QP_OWNER, 0, 3, 16)]
  b.modGate (fun g => { g with nonce := some 0x77, claimAck := some (4, 0x100003, 1, 2), adminQp := some 3 })

theorem witness_Claims : (let s := linked 1
    let r := withAdmin 4
    let t := after (.hostClaim (claim 0)) s
    let u := after (.hostClaim (claim 500)) s
    let a := after (.hostClaim (claim 0)) r
    let o : State := s.wr F.CFG_DEV_STATE_STATE 0 0 2
    let w := (r.wr F.GATE_QP_STATE 0 3 0).modGate (fun g => { g with adminQp := none, adminLostAt := some 0 })
    s.rd F.PWR_BIVOUAC_STATE == 0 && s.linkReady && (after (.probe 0) s).out.length == 1 && (after (.probe s.fuses.serial) s).out.length == 1 &&
    (after .announce s).out.length == 1 && (after .announce s).gate.announcedAt == some 1200 && after .announce (after .announce s) == after .announce s && (after .announce w).out.length == 1 && s.gate.claimAck.isNone &&
    commonVersion 2 3 2 3 == 3 && commonVersion 3 4 3 4 == 4 && (claim 0).qp.ok && inAdmin 0x080FF000 (claim 0).qp.ringLen && s.freeQp == some 0 &&
    t.qpOpen 0 && t.rd F.GATE_QP_OWNER 0 0 == 16 && t.rd F.CFG_DEV_STATE_STATE == 2 && t.rd F.CFG_CLAIM_DEADLINE_MS == 2000 && u.rd F.CFG_CLAIM_DEADLINE_MS == 500 &&
    t.receiving 16 && t.out.length == 1 && r.gate.nonce == some (claim 0).nonce && a.out == [.claimAck 0 3 4 0x100003 1 2] &&
    (after (.hostClaim (claim 0)) o).out == [.claimAck 1 0 0 0 0 0]) = true := by decide +kernel

theorem witness_Release : (let r := withAdmin 4
    let w := (r.wr F.GATE_QP_STATE 0 3 0).modGate (fun g => { g with adminQp := none, adminLostAt := some 0 })
    let l : State := { w with time := 60000000000 }
    let c := after (.release 0x77) (withAdmin 2)
    let f := after (.release 0x77) r
    let n := after (.release 0x78) r
    let e := after .adminReconnectExpiry l
    c.rd F.CFG_DEV_STATE_STATE == 1 && c.gate.nonce == none && r.isAdmin 3 && (List.range 17).all (fun k => !r.receiving k) &&
    f.gate.adminQp == none && f.rd F.GATE_QP_STATE 0 3 == 0 && f.rd F.CFG_DEV_STATE_STATE == 4 && n == r && l.claimWindow == 60000000000 &&
    e.gate.nonce == none && e.rd F.CFG_DEV_STATE_STATE == 4 && (after .adminReconnectExpiry { w with time := 59999999999 }).gate.nonce == some 0x77) = true := by
  decide +kernel

theorem witness_Connections : (let s := linked 4
    let c (tn : Byte) (tok ring : BitVec 64) : ConnectBody := ⟨tn, tok, vers, blk ring⟩
    let w := ((withAdmin 4).wr F.GATE_QP_STATE 0 3 0).modGate (fun g => { g with adminQp := none, adminLostAt := some 1200 })
    let t := after (.connect (c 2 0x55 0x10001000)) s
    let d := after (.connect (c 2 0x56 0x10001000)) s
    let a := after (.connect (c 255 0x77 0x08000000)) w
    let l := after (.disconnect 0x100003 0) (withAdmin 4)
    let b := after (.disconnect 0x100003 0) (withAdmin 2)
    s.rd F.PWR_BIVOUAC_STATE == 0 && s.linkReady && aget s.gate.tokens 2 == some 0x55 && (blk 0x10001000).ok && s.partOfTenant 2 == some 1 &&
    s.inGrant 1 0x10001000 (blk 0x10001000).ringLen && s.tenantQps 2 == 1 && s.freeQp == some 0 && t.qpOpen 0 && t.rd F.GATE_QP_OWNER 0 0 == 2 &&
    t.rd F.GATE_QP_GVER 0 0 == 3 && t.out.length == 1 && d.out == [.connectAck 3 0 0 0 0 0] && d.ctr C.GATE_CNT_DENIED == 1 && d.gate == s.gate &&
    w.time == 1200 && w.gate.nonce == some 0x77 && a.qpOpen 0 && a.gate.adminQp == some 0 && a.gate.adminLostAt == none &&
    l.gate.adminQp == none && l.gate.adminLostAt == some 1200 && l.rd F.GATE_QP_STATE 0 3 == 0 && b.rd F.CFG_DEV_STATE_STATE == 1 && b.gate.nonce == none) = true := by
  decide +kernel

theorem witness_Rdma : (let s := linked 4
    let p := (linked 4).putBytes 0x10000008 [1, 2, 3]
    let t := after (.rdmaWrite 7 9 0x10000006 [5, 6, 7]) p
    let e := after (.rdmaWrite 7 8 0x10000000 [5]) s
    let x := after (.rdmaWrite 7 9 0x1FFFFFFF [5, 6]) s
    let r := after (.rdmaRead 7 9 0x10000008 3) p
    let q : State := { p with poison := [(0x2000001, 3)] }
    let f := after (.rdmaRead 7 9 0x10000008 3) q
    s.qpOpen 7 && s.memPermitted 7 0x10000006 3 && !s.memPermitted 7 0x1FFFFFFF 2 && s.memPermitted 7 0x1FFFFFFF 1 &&
    (wordsOf 0x10000006 3).all (fun w => s.extServe (8 * w) == 0 && p.frameClean (w / 32)) && s.memc.delivered.isNone && mcanon 0 p.mem && mcanon 0 p.poison && mcanon 0 p.synd &&
    t.byte 0x10000006 == 5 && t.byte 0x10000008 == 7 && t.byte 0x10000009 == 2 && t.byte 0x10000005 == 0 && t.ctr C.GATE_CNT_RXBYTES == 3 &&
    e.out == [.nak 7 1] && e.rd F.GATE_QP_STATE 0 7 == 2 && e.ctr C.GATE_CNT_ACCESS_NAK == 1 && x.out == [.nak 7 1] &&
    (after (.rdmaRead 7 8 0x10000000 1) s).out == [.nak 7 1] && r.out == [.readData 7 [1, 2, 3]] && r.ctr C.GATE_CNT_TXBYTES == 3 &&
    q.pois (0x10000008 / 8) == 3 && q.partOfQp 7 == some 1 && f.rd F.HUT_POISON_KIND 0 1 == 2 && f.rd F.HUT_POISON_ADDR 0 1 == 0x10000008 &&
    f.out.contains (.nak 7 3) && (after (.unsupportedOperation 7) s).out == [.nak 7 2] && (after (.otherImmediateSend 7 0x03000000) s).ctr C.GATE_CNT_RXDROP == 1) = true := by
  decide +kernel

theorem witness_Doorbells : (let b := (linked 4).putBytes 0x10000000 [0x11, 1, 0, 0, 9]
    let s := setAll (b.putBytes 0x10000008 [2]) [(F.GATE_QP_CI, 0, 7, 64)]
    let t := after (.doorbell 7 65 1) s
    let m := s.modHut (fun h => { h with mailbox := List.replicate 64 (⟨7, 1, 2, false⟩, .bad 0) })
    let u := after (.doorbell 7 65 1) m
    let l := after (.doorbell 7 129 1) s
    let r := (setAll (linked 4) [(F.CFG_STREAM_STATE, 0, 3, 1)]).putStream 3 { StreamX.reset with qp := 7, wait := false, deadline := 9999, hdr := some (hdrOf 1 0 0) }
    let y := after (.streamBytes 7 100) r
    let z := after (.streamBytes 7 100) s
    let d : Completion := ⟨63, 9, 1, 0, 0, 0, 0, 0, true⟩
    let c := (linked 4).modQp 7 (fun x => { x with done := [d], nextCq := 63, cqci := 0 })
    let w := after (.completionWrite 7) c
    let v := s.wr F.PWR_BIVOUAC_STATE 0 0 2
    let n := after (.doorbell 7 65 1) v
    (wordsOf 0x10000000 64).all (fun w => s.extServe (8 * w) == 0 && s.frameClean (w / 32)) && s.memc.delivered.isNone && s.qpOpen 7 && t.rd F.GATE_QP_CI 0 7 == 65 && (t.qp 7).cqci == 1 && t.hut.mailbox == [(⟨7, 64, 9, true⟩, .tenantRemove 2)] &&
    u.hut.mailbox == m.hut.mailbox && u.ctr C.GATE_CNT_BUSY == 1 && (u.qp 7).done.length == 1 && l.rd F.GATE_QP_STATE 0 7 == 0 &&
    l.out == [.disconnect 7 1] && (List.range 17).all (fun k => (r.takesBytes k && !(r.stream k).multicast && (r.stream k).qp == 7) == (k == 3)) &&
    !r.baseAgain 3 && y.posE 3 == 100 && y.ctr C.CFG_CNT_STREAM_BYTES == 100 && z.ctr C.GATE_CNT_RXDROP == 1 &&
    w.out == [.completion 7 63 true d, .notification 7 63] && (w.qp 7).nextCq == 64 && (w.qp 7).done == [] && v.gate.wakeBytes == 0 &&
    n.gate.wakeBuf == [.doorbell 7 65 1] && n.rd F.PWR_BIVOUAC_STATE == 3 && n.rd F.PWR_BIVOUAC_WAKE_SRC == 1) = true := by decide +kernel

theorem witness_Congestion : (let s := linked 4
    let cn (v : Nat) : State := s.modQp 7 (fun x => { x with lastCnp := v })
    let late (v time : Nat) : State := { cn v with time := time }
    let rt (v : Nat) : State := s.modQp 7 (fun x => { x with retries := v })
    let p (en pfc pcp : Nat) : State := setAll s [(F.GATE_NET_CFG_PAUSE_EN, 0, 0, en), (F.GATE_NET_CFG_PFC_EN, 0, 0, pfc), (F.GATE_NET_CFG_PCP, 0, 0, pcp)]
    let i := s.modGate (fun g => { g with ip := some 9, dhcp := true })
    s.qpOpen 7 && (after (.ceMarkedPacket 7) s).out == [.cnp 7] && ((after (.ceMarkedPacket 7) s).qp 7).lastCnp == 1201 &&
    (after (.ceMarkedPacket 7) (late 1 1500000)).out == [.cnp 7] && (after (.ceMarkedPacket 7) (late 1 1499999)).out == [] &&
    ((after (.cnp 7) s).qp 7).rate == 1000000000 && after (.rateRecovery 7) s == s && ((after (.rateRecovery 7) { s with time := cnpGap }).qp 7).rate == 9500000000 && ((after (.rateRecovery 7) { s with time := cnpGap }).qp 7).rateAt == cnpGap &&
    ((after (.ackTimeout 7) (rt 6)).qp 7).retries == 7 && (after (.ackTimeout 7) (rt 7)).rd F.GATE_QP_STATE 0 7 == 2 &&
    (after (.pause 5) (p 1 0 0)).gate.paused == 5 && (after (.pause 5) (p 0 0 0)).gate.paused == 0 && (after (.pfc 7 5) (p 0 1 7)).gate.pfcPaused == 5 &&
    (after (.pfc 6 5) (p 0 1 7)).gate.pfcPaused == 0 && (after (.pfc 7 5) (p 0 0 7)).gate.pfcPaused == 0 && i.linkReady &&
    (after .arp i).out == [.arpReply] && (after .ndp i).out == [.ndpReply] && (after .icmpEcho i).out == [.echoReply] &&
    (after .ipFragment s).ctr C.GATE_CNT_RXDROP == 1 && (after (.dhcpReply 77) i).gate.ip == some 77) = true := by decide +kernel

/-! ### Registers -/

/-- Sent by queue pair 7, or by the admin connection 3, of `withAdmin`. -/
def fromT : Ctx := ⟨7, 5, 9, true⟩
def fromA : Ctx := ⟨3, 5, 9, false⟩

/-- Whether the last completion of a sender's queue pair has a class, a code and a result. -/
def done1 (t : State) (c : Ctx) (op cls code res : Nat) : Bool :=
  (t.qp c.qp.toNat).done.map (fun d => (d.idx, d.tag, d.opcode, d.cls, d.code, d.result, d.notify)) == [(5, 9, op, cls, code, res, c.notify)]

/-- `withAdmin 4`, its partition over column block 0, with expert access e of tenant 2. -/
def owned (e : Nat) : State :=
  setAll (withAdmin 4) [(F.HUT_PART_NCB, 0, 1, 1), (F.HUT_PART_NROW, 0, 1, 16), (F.GATE_TENANT_EXPERT, 0, 2, e), (F.GATE_QP_GVER, 0, 7, 3),
    (F.GATE_QP_GVER, 0, 3, 3)]

def addr (r : RegName) (a i : Nat) : BitVec 64 := BitVec.ofNat 64 (r.address a i)

theorem witness_RegRead : (let s := setAll (owned 0) [(F.HUT_POISON_KIND, 0, 1, 2), (F.HUT_POISON_ADDR, 0, 1, 64)]
    let x := addr .HUT_POISON 0 1
    let t := after (.regRead fromT x) s
    let d := after (.regRead fromT (addr .HUT_POISON 0 2)) s
    let b := after (.regRead fromT (x + 4)) s
    let k := { s with counters := [(C.HUT_ACCT_WAIT.address 2, 77)] }
    let c := after (.regRead fromT (BitVec.ofNat 64 (C.HUT_ACCT_WAIT.address 2))) k
    let n := after (.regRead fromT (BitVec.ofNat 64 (C.HUT_ACCT_WAIT.address 3))) k
    let old := fieldSet F.HUT_POISON_ADDR 8 0
    let new := fieldSet F.HUT_POISON_KIND 2 0
    let v : State := { s with evs := [(⟨.HUT_POISON, 0, 1⟩, old, new)] }
    let e := after (.regRead fromT x) v
    (aget s.evs ⟨.HUT_POISON, 0, 1⟩).isNone && done1 e fromT 8 0 0 old.toNat && e.word .HUT_POISON 0 1 == new &&
    (after (.poisonLogRead (.tenant 2) 1) v).word .HUT_POISON 0 1 == new && s.rd F.GATE_QP_STATE 0 7 == 1 && regCmdAddr x.toNat && s.mayReadAt (s.who 7) x.toNat && regAt x.toNat == .reg .HUT_POISON 0 1 &&
    done1 t fromT 8 0 0 (s.look .HUT_POISON 0 1).toNat && t.rd F.HUT_POISON_KIND 0 1 == 0 && t.rd F.HUT_POISON_ADDR 0 1 == 64 &&
    done1 d fromT 8 3 6 0 && d.regs == s.regs && done1 b fromT 8 3 2 0 && done1 c fromT 8 0 0 77 && done1 n fromT 8 3 6 0) = true := by decide +kernel

theorem witness_ReadsClear : (let p := setAll (owned 0) [(F.HUT_POISON_KIND, 0, 1, 2), (F.MEM_ERR_LOG_KIND, 0, 0, 1), (F.HUT_LOAD_REFUSAL_VALID, 0, 1, 1),
      (F.CHK_LOG_KIND, 18, 0, 1), (F.CHK_ECC_LOG_MEM, 18, 0, 1)]
    let s := p
    let w : Who := .tenant 2
    let o : Who := .tenant 3
    s.partOf 18 == some 1 && s.mayRead w .CHK_LOG 18 0 && s.mayRead w .MEM_ERR_LOG 0 0 && !s.mayRead o .CHK_LOG 18 0 &&
    (after (.chkLogRead w 18) s).rd F.CHK_LOG_KIND 18 == 0 && after (.chkLogRead o 18) s == s && (after (.memErrLogRead w) s).rd F.MEM_ERR_LOG_KIND == 0 &&
    (after (.loadRefusalRead w 1) s).rd F.HUT_LOAD_REFUSAL_VALID 0 1 == 0 && after (.loadRefusalRead o 1) s == s &&
    (after (.poisonLogRead w 1) s).rd F.HUT_POISON_KIND 0 1 == 0 && (after (.eccLogRead w 18) s).rd F.CHK_ECC_LOG_MEM 18 == 0) = true := by decide +kernel

theorem witness_RegWrite : (let s := owned 0
    let x := addr .PWR_THERM 0 0
    let v := fieldSet F.PWR_THERM_LIMIT_W 700 0
    let m := fieldSet F.PWR_THERM_LIMIT_W 0xFFFF 0
    let t := after (.regWrite fromA x v m) s
    let u := after (.regWrite fromA x (fieldSet F.PWR_THERM_LIMIT_W 200 0) m) s
    let d := after (.regWrite fromT x v m) s
    let y := addr .SEQ_STEER 18 0
    let e := after (.regWrite fromT y 1 (BitVec.allOnes 64)) s
    let r := after (.registerWrite .admin (BitVec.ofNat 48 x.toNat) v m) s
    let q := after (.registerWrite (.tenant 2) (BitVec.ofNat 48 x.toNat) v m) s
    s.mayWrite .admin .PWR_THERM 0 0 && regAt x.toNat == .reg .PWR_THERM 0 0 && !lockedRunning .PWR_THERM && s.expert .admin && s.who 3 == .admin &&
    t.rd F.PWR_THERM_LIMIT_W == 700 && done1 t fromA 9 0 0 0 && u.rd F.PWR_THERM_LIMIT_W == 1200 && done1 d fromT 9 3 6 0 && d.regs == s.regs &&
    s.mayWrite (.tenant 2) .SEQ_STEER 18 0 && namesExpert .SEQ_STEER (BitVec.allOnes 64) && !s.expert (.tenant 2) && done1 e fromT 9 3 5 0 &&
    r.rd F.PWR_THERM_LIMIT_W == 700 && q == s && actsOn .PWR_THERM m && !actsOn .PWR_THERM 0 && done1 (after (.regWrite fromA x v 0) s) fromA 9 0 0 0 &&
    (after (.regWrite fromA x v 0) s).regs == s.regs && fieldGet F.PWR_THERM_LIMIT_W ((0 &&& ~~~m) ||| (v &&& m)) == 700) = true := by decide +kernel

theorem witness_RegWriteList : (let g (y : BitVec 64) (e : Nat) : State := (owned e).putBytes 0x10000000 (List.append (leBytes y.toNat 8) (leBytes 4 8))
    let s := g (addr .SEQ_MARK 18 0) 1
    let f := g (addr .VEC_LMASK 18 1) 1
    let d := g (addr .PWR_THERM 0 0) 1
    let t := after (.regWriteList fromT 0x10000000 1) f
    let n := after (.regWriteList fromT 0x10000000 2) d
    let v := after (.regWriteList fromT 0x10000000 1) (s.wr F.GATE_QP_GVER 0 7 2)
    let o := after (.regWriteList fromT 0x10000000 4097) s
    let c := after (.regWriteList fromT 0x10000000 2) f
    (List.range 4).all (fun k => f.extServe (0x10000000 + 8 * k) == 0 && f.frameClean (stripeOf (0x10000000 + 8 * k))) && f.memc.delivered.isNone &&
    f.memPermitted 7 0x10000000 32 && !regCmdAddr (f.word64 0x10000010).toNat && c.word .VEC_LMASK 18 1 == 4 && done1 c fromT 10 3 2 1 && actsOn .VEC_LMASK (BitVec.allOnes 64) &&
    f.memPermitted 7 0x10000000 16 && regAt (f.word64 0x10000000).toNat == .reg .VEC_LMASK 18 1 && f.mayWrite (.tenant 2) .VEC_LMASK 18 1 &&
    f.expert (.tenant 2) && !f.running 18 && t.word .VEC_LMASK 18 1 == 4 && done1 t fromT 10 0 0 0 && d.memPermitted 7 0x10000000 32 &&
    done1 n fromT 10 3 6 0 && done1 v fromT 10 3 3 0 && done1 o fromT 10 3 2 0) = true := by decide +kernel

theorem witness_PitchWrite : (let s := owned 1
    let w (n : Nat) : State := after (.colPitchCtrlWrite .admin (fieldSet F.COL_PITCH_CTRL_WRAPPED 1 (fieldSet F.COL_PITCH_CTRL_NEW_LOG2 n 0))) (s.wr F.COL_PITCH_CTRL_WRAPPED 0 0 1)
    let l := (s.wr F.HUT_SECT_STATE 0 33 4).modHut (fun h => { h with sects := [(33, sectx img0 .none [])] })
    let k := after (.colPitchCtrlWrite .admin (fieldSet F.COL_PITCH_CTRL_NEW_LOG2 12 0)) l
    s.eventBits F.COL_PITCH_CTRL_WRAPPED 0 0 == 0 && !s.anyLive && (w 10).rd F.COL_PITCH_CTRL_STATUS == 0 && (w 10).lenPend == some 10 && (w 0).lenPend == some 0 && (w 9).rd F.COL_PITCH_CTRL_STATUS == 2 &&
    (w 9).rd F.COL_PITCH_CTRL_WRAPPED == 0 && (w 1).lenPend == none && l.anyLive && k.rd F.COL_PITCH_CTRL_STATUS == 1) = true := by decide +kernel

theorem witness_DomainWrites : (let s := owned 1
    let w : Who := .tenant 2
    let a := after (.domainOn w 0 18) s
    let r := after (.domainRetain w 0 18) s
    let f := after (.domainOff w 0 18) s
    let o := after (.domainOff w 0 23) (setAll s [(F.HUT_PART_ACTIVE, 0, 2, 1), (F.HUT_PART_TENANT, 0, 2, 3), (F.HUT_PART_CB0, 0, 2, 1), (F.HUT_PART_NCB, 0, 2, 1), (F.HUT_PART_NROW, 0, 2, 16)])
    let u := (sect (sectx img0 .none []) 3)
    let g := after (.domainOff .admin 0 18) u
    let h := after (.domainOff w 1 18) s
    s.expert w && domOfCode 0 18 == some .core && !s.domUsed .core 18 && s.partOf 18 == some 1 && s.ownsPart w 1 && a.rd F.PWR_DOMAIN_CMD_STATUS == 1 &&
    a.domPend == [(.core, 18, 0)] && r.domPend == [(.core, 18, 1)] && f.domPend == [(.core, 18, 2)] && o.rd F.PWR_DOMAIN_CMD_STATUS == 2 && o.domPend == [] &&
    u.domUsed .core 18 && g.rd F.PWR_DOMAIN_CMD_STATUS == 2 && domOfCode 1 18 == some .router && s.routerNeeded 18 && h.rd F.PWR_DOMAIN_CMD_STATUS == 2) = true := by
  decide +kernel

theorem witness_OwnWrites : (let s := owned 1
    let w : Who := .tenant 2
    let v := fieldSet F.SEQ_STEER_IEN 1 (fieldSet F.SEQ_STEER_IN 30 (fieldSet F.SEQ_STEER_MODE 2 0))
    let c := s.setWord .SEQ_STEER 18 7 v
    let u := ((setAll (s.modSite 18 (fun y => { y with sect := some 33 })) [(F.HUT_SECT_STATE, 0, 33, 3)]).modHut (fun h => { h with sects := [(33, sectx img0 .none [])] }))
    let a := after (.steerConfigWrite w 18 0 v) s
    let b := after (.steerConfigWrite w 18 0 v) c
    let r := after (.steerConfigWrite w 18 0 v) u
    let e := after (.srSeedWrite w 18 99) s
    let k (n : Nat) : State := after (.scrubCtrlWrite .admin (fieldSet F.CFG_SCRUB_CTRL_EN 1 (fieldSet F.CFG_SCRUB_CTRL_RATE n 0))) s
    s.ownsSite w 18 && s.expert w && !s.running 18 && a.rd F.SEQ_STEER_STATUS 18 0 == 0 && a.rd F.SEQ_STEER_MODE 18 0 == 2 &&
    b.rd F.SEQ_STEER_STATUS 18 0 == 1 && b.rd F.SEQ_STEER_MODE 18 0 == 0 && u.running 18 && r.rd F.SEQ_STEER_STATUS 18 0 == 2 && aget e.seedNext 18 == some 99 &&
    (k 8).cfg.scrubEn == [true, true, true] && (k 8).cfg.scrubRate == [8, 8, 8] && (k 9).cfg.scrubRate == s.cfg.scrubRate &&
    (after (.bivouacEnterWrite .admin) s).rd F.PWR_BIVOUAC_ENTER == 1 && after (.bivouacEnterWrite (.tenant 2)) s == s) = true := by decide +kernel

/-! ### Host commands -/

/-- `owned 0` with a section in entry 33 of a state, its job 700. -/
def withSect (st : Nat) (ph : SectPhase) : State :=
  (setAll ((owned 0).modSite 18 (fun y => { y with sect := some 33 })) [(F.HUT_SECT_STATE, 0, 33, st), (F.HUT_SECT_ORG_COL, 0, 33, 2),
    (F.HUT_SECT_ORG_ROW, 0, 33, 1), (F.HUT_SECT_BUSY, 0, 33, 1), (F.HUT_SECT_JOB, 0, 33, 700)]).modHut (fun h => { h with sects := [(33, sectx img0 ph [])] })

theorem witness_Mailbox : (let m (k : HostCmd) : State := (owned 0).modHut (fun h => { h with mailbox := [(fromT, k), (fromA, .bad 0)] })
    let b := after .commandDispatch (m (.bad 0x30))
    let r := after .commandDispatch (m (.preempt 700))
    done1 b fromT 0x30 3 2 0 && b.hut.mailbox == [(fromA, .bad 0)] && r.hut.bounds.length == 1 && r.hut.mailbox.length == 1) = true := by decide +kernel

theorem witness_Tenants : (let s := owned 0
    let z := { s with counters := [(C.HUT_ACCT_WAIT.address 15, 9)], snaps := [(C.HUT_ACCT_WAIT.address 15, 8)] }
    let t := after (.tenantCreate fromA 15 true 1021 0x99) z
    let b := after (.tenantCreate fromA 2 false 1 1) s
    let q := after (.tenantCreate fromA 15 true 1022 0x99) s
    let n := after (.tenantCreate fromT 15 true 1 1) s
    let v := after (.tenantCreate fromA 15 true 1 1) (s.wr F.GATE_QP_GVER 0 3 2)
    let h := after (.tenantRemove fromA 2) s
    let f := s.wr F.HUT_PART_ACTIVE 0 1 0
    let r := after (.tenantRemove fromA 2) f
    s.isAdmin 3 && !s.isAdmin 7 && s.allQps == 2 && t.rd F.GATE_TENANT_ACTIVE 0 15 == 1 && t.rd F.GATE_TENANT_EXPERT 0 15 == 1 &&
    t.rd F.GATE_TENANT_MAXQP 0 15 == 1021 && aget t.gate.tokens 15 == some 0x99 && t.ctr C.HUT_ACCT_WAIT 15 == 0 && aget t.snaps (C.HUT_ACCT_WAIT.address 15) == some 0 && done1 t fromA 16 0 0 0 &&
    done1 b fromA 16 3 11 0 && (q.qp 3).done.length == 1 && q.rd F.GATE_TENANT_ACTIVE 0 15 == 0 && done1 n fromT 16 3 4 0 && done1 v fromA 16 3 3 0 &&
    s.tenantHolds 2 && done1 h fromA 17 3 11 0 && !f.tenantHolds 2 && (List.range 17).all (fun k => !f.receiving k) && r.rd F.GATE_TENANT_ACTIVE 0 2 == 0 &&
    r.rd F.GATE_QP_STATE 0 7 == 0 && r.rd F.GATE_QP_STATE 0 3 == 1 && done1 r fromA 17 0 0 0) = true := by decide +kernel

theorem witness_Partitions : (let s := setAll (owned 0) [(F.GATE_TENANT_ACTIVE, 0, 5, 1)]
    let o (p cb0 ncb row0 nrow : Byte) : PartOps := ⟨p, 5, cb0, ncb, row0, nrow⟩
    let t (x : PartOps) : State := after (.partCreate fromA x) s
    let e := withSect 3 .none
    let r := after (.partRemove fromA 1) s
    let l := after (.partRemove fromA 1) e
    let y := after (.partRemove fromA 1) (s.modHut (fun h => { h with wanan := [(1, ⟨fromT, 9, 1, true, none, false⟩)] }))
    s.rd F.GATE_QP_STATE 0 3 == 1 && s.isAdmin 3 && s.rd F.GATE_QP_GVER 0 3 == 3 && !s.tenantHolds 5 && s.partRefusal (o 15 1 3 0 16) == none &&
    (t (o 15 1 3 0 16)).rd F.HUT_PART_STATUS 0 15 == 4 && (t (o 15 1 3 0 16)).hut.parts == [.create (o 15 1 3 0 16) fromA] &&
    (t (o 15 1 4 0 16)).rd F.HUT_PART_STATUS 0 15 == 1 && (t (o 15 0 1 15 1)).rd F.HUT_PART_STATUS 0 15 == 2 && (t (o 1 1 1 0 1)).rd F.HUT_PART_STATUS 0 1 == 3 &&
    (s.openSects 1).isEmpty && r.rd F.HUT_PART_STATUS 0 1 == 4 && r.hut.parts == [.remove 1 fromA] && !(e.openSects 1).isEmpty &&
    l.rd F.HUT_PART_STATUS 0 1 == 5 && done1 l fromA 19 3 23 0 && y.rd F.HUT_PART_STATUS 0 1 == 5 && done1 y fromA 19 3 23 0) = true := by decide +kernel

theorem witness_Grants : (let s := setAll (owned 0) [(F.HUT_PART_ACTIVE, 0, 2, 1), (F.HUT_PART_TENANT, 0, 2, 3)]
    let o (p k : Byte) (b n : BitVec 16) : GrantOps := ⟨p, k, b, n⟩
    let t (x : GrantOps) : State := after (.grant fromA x) s
    let h := s.modHut (fun h => { h with lastOwner := [(768, 3)] })
    let v := after (.grant fromA (o 2 1 0 1)) h
    let y : SectX := { sectx { img0 with w := 4, homeC := 0, ext := [⟨0, 0, 64, true, false, false, false⟩] } .none [] with slotBase := [0x10000000] }
    let w := (setAll (withSect 3 .none) [(F.HUT_SECT_ORG_COL, 0, 33, 0)]).modHut (fun h => { h with sects := [(33, y)] })
    let lv := after (.grant fromA (o 1 0 2 1)) w
    let gs := after (.grant fromA (o 2 1 0 1)) (s.wr F.MEM_GRP_STATUS_STATE 0 1 4)
    let ng := after (.grant fromA (o 2 1 0 1)) (setAll s [(F.CFG_DEV_STATE_STATE, 0, 0, 2)])
    s.memReady && !(setAll s [(F.CFG_DEV_STATE_STATE, 0, 0, 2)]).memReady && ng.rd F.HUT_GRANT_STATUS 0 9 == 2 && s.grantMeets 2 0 0 1 && (t (o 2 0 0 1)).rd F.HUT_GRANT_STATUS 0 8 == 1 && done1 (t (o 2 0 0 1)) fromA 20 3 17 0 && (t (o 2 0 1 1)).rd F.HUT_GRANT_STATUS 0 8 == 1 &&
    s.liveChans 0 == 48 && !s.grantMeets 2 0 700 69 && (t (o 2 0 700 69)).rd F.HUT_GRANT_STATUS 0 8 == 2 && s.groupState 1 == 0 &&
    (t (o 2 1 767 1)).rd F.HUT_GRANT_ZEROING 0 9 == 1 && (t (o 2 1 767 1)).hut.parts.length == 1 && v.rd F.HUT_GRANT_ZEROING 0 9 == 0 &&
    v.hut.parts == [.grant 2 1 0 1 false fromA] && !w.grantMeets 1 0 2 1 && w.grantLeaves 1 0 2 1 && lv.rd F.HUT_GRANT_STATUS 0 4 == 3 && done1 lv fromA 20 3 19 0 &&
    gs.rd F.HUT_GRANT_STATUS 0 9 == 2) = true := by decide +kernel

theorem witness_Sections : (let s := owned 0
    let n := s.wr F.HUT_PART_ACTIVE 0 1 0
    let o (m : Byte) (x : BitVec 64) : LoadOps := ⟨x, 64, 0, 15, 15, m, false, 0, 0⟩
    let l := after (.load fromT (o 1 0x10000000)) s
    let b := after (.load fromT (o 0 0x10000000)) (s.wr F.CFG_STREAM_STATE 0 1 2)
    let x := after (.load fromT (o 0 0x1FFFFFC8)) s
    let w := withSect 1 .none
    let r (e : Byte) : RunOps := ⟨e, 7, 1, 31, false, 0⟩
    let u := after (.run fromT (r 1)) w
    let i := withSect 5 .none
    let d (st : Nat) : State := after (.discard fromT 1) (withSect st .none)
    done1 (after (.load fromT (o 0 0)) n) fromT 1 3 6 0 && done1 (after (.run fromT (r 1)) n) fromT 2 3 6 0 && done1 (after (.discard fromT 1) n) fromT 5 3 6 0 &&
    s.partOfQp 7 == some 1 && s.inGrant 1 0x10000000 64 && l.receiving 1 && (l.stream 1).load == some (fromT, o 1 0x10000000) && (l.stream 1).multicast &&
    (l.stream 1).deadline == 1200 + 300000000000 && done1 b fromT 1 3 8 0 && done1 x fromT 1 3 2 0 && u.rd F.HUT_SECT_RUNNABLE 0 33 == 1 && u.rd F.HUT_SECT_PRIO 0 33 == 7 &&
    u.rd F.HUT_SECT_AFTER 0 33 == 31 && done1 (after (.run fromT (r 31)) w) fromT 2 3 9 0 &&
    (after (.preempt fromT 700) s).hut.bounds == [.preempt 1 700 fromT] && i.resumable 33 &&
    (after (.resume fromT 1 7 15) i).hut.bounds == [.resume 33 7 15 fromT] && !s.resumable 33 && done1 (after (.resume fromT 1 7 15) s) fromT 4 3 9 0 &&
    (d 1).sectState 33 == 8 && (d 6).sectState 33 == 8 && ((d 5).qp 7).done.length == 1 && (d 3).sectState 33 == 3 && done1 (d 3) fromT 5 3 9 0) = true := by
  decide +kernel

theorem witness_DigestCommands : (let list (x n : Nat) : List Byte := List.append (leBytes x 8) (leBytes n 8)
    let s (n : Nat) : State := (withSect 3 .none).putBytes 0x10000000 (list 0x10000040 n)
    let o (j : BitVec 16) : DigestOps := ⟨j, 0x10000000, 1⟩
    let t := after (.digestSet fromT (o 700)) (s 128)
    let r := after (.digestSet fromT (o 700)) (s 72)
    let b := after (.digestSet fromT (o 700)) ((s 128).wr F.TAL_DIG_STATE 0 1 1)
    let w := after (.digestNow fromT (o 1)) (setAll (s 128) [(F.HUT_TRAIN_STEP, 0, 1, 12)])
    let e := after (.digestNow fromT (o 32)) (s 128)
    (s 128).memc.delivered.isNone && (List.range 2).all (fun k => (s 128).extServe (0x10000000 + 8 * k) == 0 && (s 128).frameClean (stripeOf (0x10000000 + 8 * k))) &&
    ((s 128).rangeList fromT 0x10000000 1).1 == some [(0x10000040, 128)] && (s 128).digestRange 1 (0x10000040, 128) && !(s 128).digestRange 1 (0x10000040, 72) &&
    aget t.hut.digSets (65536 + 700) == some [(0x10000040, 128)] && done1 t fromT 6 0 0 0 && done1 r fromT 6 3 10 0 && done1 b fromT 6 3 22 0 &&
    (s 128).live 33 && w.rd F.TAL_DIG_STATE 0 1 == 1 && w.rd F.TAL_DIG_ORIGIN 0 1 == 1 && w.rd F.TAL_DIGSTEP_STEP 0 1 == 12 &&
    done1 e fromT 7 3 9 0) = true := by decide +kernel

theorem witness_Wanan : (let s := owned 0
    let t := after (.wananSubmit fromT 9 0x10000000 64) s
    let a := after (.wananCommand 1 (some .matmul)) t
    let b := after (.wananCommand 1 (some .fence)) a
    let e := after (.wananCommand 1 none) b
    let u := after (.wananCommand 1 (some .unsupported)) b
    let m := after (.wananCommand 1 (some .malformed)) t
    s.inGrant 1 0x10000000 64 && aget t.hut.wanan 1 == some ⟨fromT, 9, 0, false, none, false⟩ && done1 (after (.wananSubmit fromT 9 0x10000000 64) t) fromT 11 3 1 0 &&
    aget b.hut.wanan 1 == some ⟨fromT, 9, 1, true, none, false⟩ && done1 e fromT 11 0 0 2 && aget e.hut.wanan 1 == none && done1 u fromT 11 3 20 2 &&
    done1 m fromT 11 3 21 0) = true := by decide +kernel

/-! ### Words, formats, memory and reset -/

theorem test_step_takes_front : (let s := { base with pending := [Instr.temperatureSample 40, .stageInNLow] }
    (match step s with
      | .next t => t.rd F.PWR_THERM_TJ == 40 && t.pending == [.stageInNLow] && t.board.stageInN == base.board.stageInN
      | _ => false)) = true := by decide +kernel

theorem witness_Idle : (let f (s : State) : Nat × Nat × Nat := match step s with
      | .next t => (t.cycle, t.cycles, t.time)
      | _ => (0, 0, 0)
    let e : State := { base with cycle := 4094 }
    !State.reset.board.pllLock && (f State.reset).1 == State.reset.cycle && decide (State.reset.time < (f State.reset).2.2) && base.board.pllLock &&
    e.cycle + 1 < e.pitchLen && (f base).1 == 101 && (f base).2.1 == 101 && (f e).1 == 4095) = true := by decide +kernel

theorem witness_RoundTrip : seqWordClean 0x04A3000000000005#64 = true ∧ seqWordClean 0x04A3000000000025#64 = true ∧
    encodeSeq (.lset ⟨⟨true, 2⟩, 3, 5⟩) = 0x04A3000000000005#64 ∧ agWordClean 0x1600000000001000#64 = true ∧
    encodeAg (.aset 3 0x1000) = 0x1600000000001000#64 := by decide +kernel

theorem test_integers : decodeElem 10 8 = Machine.Num.ofInt (-8) ∧ decodeElem 9 0x80 = Machine.Num.ofInt (-128) ∧ decodeElem 8 0x80000000 = Machine.Num.ofInt (-2147483648) := by
  decide +kernel

theorem witness_Mx : (∃ n m k, decodeElem 9 0x40 = .fin n m k) ∧ decodeElem 0 0x7FC00000 = .nan ∧ decodeMx 9 0x40 127 = .fin false 64 (-6) := by
  refine ⟨⟨false, 64, 0, by decide +kernel⟩, by decide +kernel, by decide +kernel⟩

/-- Example 13-1. -/
theorem test_example_13_1 : checkByte 1 = 0x07 ∧ checkByte 0x11 = 0x14 ∧ decodeSynd (checkByte 1 ^^^ checkByte 0x11) = .data 4 ∧
    corrected (checkByte 1 ^^^ checkByte 0x11) 0x11 = 1 ∧ decodeSynd (checkByte 1 ^^^ checkByte 0x10) = .bad := by decide +kernel

theorem witness_Canonical : (let s := base.putBytes 300 [1, 0, 2]
    let t := after (.rdmaWrite 7 9 0x10000006 [0, 6, 7]) ((linked 4).putBytes 0x10000006 [1, 0, 2])
    s.mem == [(300, 1), (302, 2)] && mcanon 0 s.mem && mcanon 0 s.poison && mcanon 0 s.synd && mcanon 0 t.mem && t.mem == [(0x10000007, 6), (0x10000008, 7)]) = true := by
  decide +kernel

/-- Example 00-1. -/
theorem test_example_00_1 : siteAt 9 3 = 57 ∧ spurNo 57 = 43 ∧ siteOfSpur 43 = 57 ∧ padBase 43 = 0x011015800000 := by decide +kernel

/-- Example 18-1. -/
theorem test_example_18_1 : RegName.QUE_STAT.address 57 5 = 0x01F000391128 ∧ C.MTX_CNT_BUSY.address 57 + 8 = 0x01F000392228 ∧
    C.TRN_CNT_PF_WAIT.address 0xB5 + 8 = 0x01F000B52228 ∧ RegName.HUT_SECT.address 0 (32 * 6 + 3) = 0x01FF00011618 ∧
    regAt 0x01FF00011618 = .reg .HUT_SECT 0 195 ∧ regCmdAddr 0x01FF0001161C = false := by decide +kernel

/-- Example 10-1. -/
theorem test_example_10_1 : (let g := { img0 with w := 5, h := 4, homeC := 2, homeR := 4 }
    ((List.range 16).filter (fun c => legalOrigin g c 9) == [2, 7, 11]) && (List.range 16).filter (fun r => legalOrigin g 7 r) == List.range 13 &&
    g.moved 7 9 (siteAt 5 5) == siteAt 10 10 && tarnNo (siteAt 10 10) == 42 && g.slotCols == [5]) = true := by decide +kernel

/-- The term of two E4M3 codes. -/
def e4m3 (a b : Nat) : Machine.Num := (decodeElem 3 a).mul (decodeElem 3 b)

/-- The word that a run of terms gives, each term a list of products. -/
def delta (md : AccMode) (anchor : Int) (l : List (List Machine.Num)) : BitVec 128 := (cellRun md anchor l).w.toBits md

/-- Example 02-1: the contributions of three K tiles in EX96, and their sum in two orders; in F32 the orders part. -/
theorem test_example_02_1 : (let t1 := delta .ex96 0 [[e4m3 0x7E 0x7E]]
    let t2 := delta .ex96 0 [[e4m3 0xFE 0x7E]]
    let t3 := delta .ex96 0 [[e4m3 1 1]]
    let sum (md : AccMode) (l : List (BitVec 128)) : BitVec 128 := (l.foldl (fun a w => MW.add md a (MW.ofBits md w)) ⟨0, 0⟩).toBits md
    let f (a b : Nat) : BitVec 128 := delta .f32 0 [[e4m3 a b]]
    t1 == 0x31000_00000000#128 && t3 == 0x4000#128 && sum .ex96 [t2, t3] == 0x1FFF_FFFF_FFFC_F000_0000_4000#128 &&
    sum .ex96 [t1, t2, t3] == 0x4000#128 && sum .ex96 [t3, t1, t2] == 0x4000#128 && (toF32 ((MW.ofBits .ex96 t3).num .ex96 0)).1 == 0x36800000 &&
    sum .f32 [f 0x7E 0x7E, f 0xFE 0x7E, f 1 1] == 0x36800000#128 && sum .f32 [f 1 1, f 0x7E 0x7E, f 0xFE 0x7E] == 0#128) = true := by decide +kernel

/-- Example 02-2: two block terms rounded at anchor −4, their sum, and its readout to BF16. -/
theorem test_example_02_2 : (let b (l : List (Nat × Nat)) : List Machine.Num := l.map (fun x => (decodeMx 3 x.1 0x7F).mul (decodeMx 3 x.2 0x81))
    let t := delta .ex128 (-4) [b [(0x28, 0x38), (0x20, 0x24)]]
    let u := delta .ex128 (-4) [b [(0xA0, 0x38), (0x98, 0x20)]]
    let r := MW.add .ex128 (MW.ofBits .ex128 t) (MW.ofBits .ex128 u)
    t == 0x12#128 && u == 0x1FFF_FFFF_FFFF_FFFF_FFFF_FFFF_FFFF_FFF8#128 && r.v == 10 && (convert 1 Rnd.rne (r.num .ex128 (-4))).1 == 0x3F20) = true := by
  decide +kernel

/-- Example 04-1: the projected starts and the last release. -/
theorem test_example_04_1 : (let v : SeqInstr := .vrd { dst := 0, slot := 0, row0 := 0, nm1 := 63, rm := 0, sat := false, lmask := 0, tid := 0 }
    let f : SeqInstr := .vop { func := 3, dst := 0, s1 := 0, s2 := 1, s3 := 2, nm1 := 63, lmask := 0 }
    let m : SeqInstr := .vop { func := 5, dst := 0, s1 := 0, s2 := 3, s3 := 0, nm1 := 63, lmask := 0 }
    let c : SeqInstr := .vcvt { dst := 4, src := 0, nm1 := 63, rm := 0, sat := true, lmask := 0, tid := 0 }
    let s := withSlot (queues (setAll (seqState 2 [0, 0, encodeSeq v, encodeSeq f, encodeSeq m, encodeSeq c])
      [(F.VEC_OPD_RSTRIDE, 0, 0, 1), (F.VEC_OPD_LINE, 0, 1, 100), (F.VEC_OPD_LB, 0, 1, 1), (F.VEC_OPD_LINE, 0, 2, 101), (F.VEC_OPD_LINE, 0, 3, 102),
       (F.VEC_OPD_LB, 0, 3, 1), (F.VEC_OPD_KIND, 0, 4, 1), (F.VEC_OPD_QUEUE, 0, 4, 6), (F.VEC_OPD_FMT, 0, 4, 3)])) .ex96
    let go (t : Nat) (i : SeqInstr) (s : State) : State := after (seqCommand ⟨0, BitVec.ofNat _ t⟩ i) s
    let t := go 2103 c (go 2102 m (go 2101 f (go 2100 v s)))
    (t.vec 0).queue.map VInst.start == [2100, 2164, 2228, 2292] && t.rd F.VEC_STATUS_PROJ 0 == 2360) = true := by decide +kernel

end Sys2Proof.Tests
end

section
/-! PROOF. Values of element codes: integer codes (R45), and MX elements under their block's scale (R47, R48). -/

namespace Sys2Proof.Proofs

open Sys2Proof Sys2Proof.Machine

/-! ### Integer formats -/

/-- The model's two's-complement value of a code is the library's signed reading of the code's bits. -/
theorem sval_toNat {n : Nat} (x : BitVec n) : sval n x.toNat = x.toInt := by
  rw [sval, Nat.mod_eq_of_lt x.isLt, BitVec.toInt_eq_toNat_cond]
  cases n with
  | zero => simp [BitVec.of_length_zero]
  | succ k =>
    have hlow : x.toNat < 2 ^ k ↔ 2 * x.toNat < 2 ^ (k + 1) := by rw [Nat.pow_succ]; omega
    simp [hlow]

/-- A format that is no floating-point format is read as two's complement. -/
theorem decodeElem_of_fpFmt_none {f : Nat} (hf : fpFmt f = none) (w : Nat) :
    decodeElem f w = .ofInt (sval (fmtWidth f) w) := by
  simp [decodeElem, hf]

theorem decodeElem_toNat {f : Nat} (hf : fpFmt f = none) (x : BitVec (fmtWidth f)) :
    decodeElem f x.toNat = .ofInt x.toInt := by
  rw [decodeElem_of_fpFmt_none hf, sval_toNat]

/-- Every integer of the range is the value of a code: that of its own two's-complement bits. -/
theorem exists_decodeElem_eq_ofInt {f : Nat} (hf : fpFmt f = none) (hpos : 0 < fmtWidth f) {v : Int}
    (hlo : -(2 ^ (fmtWidth f - 1) : Int) ≤ v) (hhi : v ≤ 2 ^ (fmtWidth f - 1) - 1) :
    ∃ w, decodeElem f w = .ofInt v := by
  have hv : (BitVec.ofInt (fmtWidth f) v).toInt = v :=
    BitVec.toInt_ofInt_eq_self hpos hlo (Int.lt_of_le_sub_one hhi)
  exact ⟨(BitVec.ofInt (fmtWidth f) v).toNat, by rw [decodeElem_toNat hf, hv]⟩

/-- R45 for one integer format: what its codes mean, the range of their values, and that no value of it is missing. -/
theorem intFormat_values {f : Nat} (hf : fpFmt f = none) (hpos : 0 < fmtWidth f) :
    (∀ x : BitVec (fmtWidth f), decodeElem f x.toNat = .ofInt x.toInt) ∧
    (∀ x : BitVec (fmtWidth f), -(2 ^ (fmtWidth f - 1) : Int) ≤ x.toInt ∧ x.toInt ≤ 2 ^ (fmtWidth f - 1) - 1) ∧
    (∀ v : Int, -(2 ^ (fmtWidth f - 1) : Int) ≤ v → v ≤ 2 ^ (fmtWidth f - 1) - 1 → ∃ w, decodeElem f w = .ofInt v) :=
  ⟨decodeElem_toNat hf, fun x => ⟨BitVec.le_toInt x, Int.le_sub_one_of_lt BitVec.toInt_lt⟩,
    fun _ => exists_decodeElem_eq_ofInt hf hpos⟩

/-- The formats of codes 8, 9 and 10 are INT32, INT8 and INT4. -/
theorem integersAreTwosComplement : IntegersAreTwosComplement :=
  ⟨intFormat_values (f := 8) rfl (by decide), intFormat_values (f := 9) rfl (by decide),
    intFormat_values (f := 10) rfl (by decide)⟩

/-! ### Scaled MX elements -/

/-- R48: the scale byte 0xFF makes its block's elements NaN, whatever their codes. -/
@[simp] theorem decodeMx_nan_scale (f w : Nat) : decodeMx f w 255 = .nan := if_pos rfl

/-- R47, R48: a scale byte that is a number adds its power of two to a finite element's exponent. -/
theorem decodeMx_of_fin {f w e : Nat} (he : e ≤ 254) {n : Bool} {m : Nat} {k : Int} (hd : decodeElem f w = .fin n m k) :
    decodeMx f w e = .fin n m (k + ((e : Int) - 127) + (if f = 9 then -6 else 0)) := by
  have hnum : e ≠ 0xFF := by omega
  simp only [decodeMx, if_neg hnum, hd, Num.fin.injEq, true_and]
  split <;> omega

/-- A scale byte that is a number leaves an element that is no finite number as it is. -/
theorem decodeMx_of_not_fin {f w e : Nat} (he : e ≤ 254) (hd : ∀ n m k, decodeElem f w ≠ .fin n m k) :
    decodeMx f w e = decodeElem f w := by
  have hnum : e ≠ 0xFF := by omega
  rw [decodeMx, if_neg hnum]
  cases hv : decodeElem f w with
  | fin n m k => exact absurd hv (hd n m k)
  | inf n => rfl
  | nan => rfl

theorem mxElementsAreScaled : MxElementsAreScaled := fun f w _ =>
  ⟨decodeMx_nan_scale f w, fun he _ _ _ => decodeMx_of_fin he, decodeMx_of_not_fin⟩

/-- Settles O57: integer codes by the library's two's complement, MX elements by the three kinds of value under a scale. -/
theorem elementsHaveTheirValues : Obligations.ElementsHaveTheirValues :=
  ⟨integersAreTwosComplement, mxElementsAreScaled⟩

end Sys2Proof.Proofs
end

section
/-! SUPPORT. Frames, fields and clocks: what a command leaves as it was, and what a core cycle moves (R6, R26). -/

section
open Sys2Proof Sys2Proof.Machine

/-! ### Frames -/

theorem SameMem.refl (s : State) : SameMem s s := fun _ => ⟨rfl, rfl⟩

/-- Memory is as before when its two maps are. -/
theorem SameMem.of_eq {u t : State} (hm : t.mem = u.mem := by simp -implicitDefEqProofs) (hp : t.poison = u.poison := by simp -implicitDefEqProofs) : SameMem u t := fun x => by
  simp [State.byte, State.poisonedAt, State.pois, hm, hp]

theorem SameMem.trans {u v t : State} (h : SameMem u v) (k : SameMem v t) : SameMem u t := fun x =>
  ⟨(k x).1.trans (h x).1, (k x).2.trans (h x).2⟩

theorem SameRegs.refl (s : State) (R : RegName → Nat → Nat → Prop) : SameRegs s s R := fun _ _ _ _ => rfl

theorem SameRegs.of_eq {u t : State} {R : RegName → Nat → Nat → Prop} (h : t.regs = u.regs) : SameRegs u t R :=
  fun r a i _ => State.word_congr h r a i

theorem SameRegs.trans {u v t : State} {R : RegName → Nat → Nat → Prop} (h : SameRegs u v R) (k : SameRegs v t R) :
    SameRegs u t R := fun r a i hr => (k r a i hr).trans (h r a i hr)

/-- What the frame of a command names may be named more widely. -/
theorem SameRegs.mono {u t : State} {R R' : RegName → Nat → Nat → Prop} (h : SameRegs u t R)
    (k : ∀ r a i, R r a i → R' r a i) : SameRegs u t R' := fun r a i hr => h r a i (fun e => hr (k r a i e))

theorem SameRegs.setWord {u t : State} {R : RegName → Nat → Nat → Prop} (h : SameRegs u t R) {r : RegName} {a i : Nat} (w : Word)
    (hr : R r a i) : SameRegs u (t.setWord r a i w) R := fun r' a' i' hn => by
  rw [State.word_setWord_ne _ _ (fun e => hn (by obtain ⟨rfl, rfl, rfl⟩ := e; exact hr)), h r' a' i' hn]

theorem SameRegs.wr {u t : State} {R : RegName → Nat → Nat → Prop} (h : SameRegs u t R) {f : Fld} {a i : Nat} (v : Nat)
    (hr : R f.reg a i) : SameRegs u (t.wr f a i v) R := h.setWord _ hr

theorem SameRegs.note {u t : State} {R : RegName → Nat → Nat → Prop} (h : SameRegs u t R) {r : RegName} {a i : Nat} (g : Word → Word)
    (hr : R r a i) : SameRegs u (t.note r a i g) R := fun r' a' i' hn => (h.setWord (g (t.word r a i)) hr) r' a' i' hn

theorem SameRegs.wrs {u t : State} {R : RegName → Nat → Nat → Prop} (h : SameRegs u t R) {a i : Nat} {l : List (Fld × Nat)}
    (hr : ∀ x ∈ l, R x.1.reg a i) : SameRegs u (t.wrs a i l) R := by
  induction l generalizing t with
  | nil => exact h
  | cons x l ih => exact ih (SameRegs.wr h x.2 (hr x (by simp))) (fun y hy => hr y (by simp [hy]))

theorem Frame.of_regs {u t : State} {R : RegName → Nat → Nat → Prop} (h : SameRegs u t R) (hm : t.mem = u.mem := by simp -implicitDefEqProofs)
    (hp : t.poison = u.poison := by simp -implicitDefEqProofs) :
    Frame u t R := ⟨.of_eq hm hp, h⟩

theorem Frame.wr (s : State) {R : RegName → Nat → Nat → Prop} {f : Fld} {a i : Nat} (v : Nat) (hr : R f.reg a i) : Frame s (s.wr f a i v) R :=
  .of_regs (.wr (.refl s R) v hr) rfl rfl

theorem Frame.wrs (s : State) {R : RegName → Nat → Nat → Prop} {a i : Nat} {l : List (Fld × Nat)} (hr : ∀ x ∈ l, R x.1.reg a i) :
    Frame s (s.wrs a i l) R := .of_regs (.wrs (.refl s R) hr) (by simp) (by simp)

/-- A frame speaks of memory and registers alone. -/
theorem Frame.congr {u t t' : State} {R : RegName → Nat → Nat → Prop} (h : Frame u t R) (hm : t'.mem = t.mem := by simp -implicitDefEqProofs)
    (hp : t'.poison = t.poison := by simp -implicitDefEqProofs) (hr : t'.regs = t.regs := by simp -implicitDefEqProofs) : Frame u t' R := ⟨h.1.trans (.of_eq hm hp), fun r a i hn => (State.word_congr hr r a i).trans (h.2 r a i hn)⟩

theorem Frame.refl (s : State) (R : RegName → Nat → Nat → Prop) : Frame s s R := ⟨.refl s, .refl s R⟩

theorem Frame.of_eq {u t : State} {R : RegName → Nat → Nat → Prop} (hm : t.mem = u.mem := by simp -implicitDefEqProofs) (hp : t.poison = u.poison := by simp -implicitDefEqProofs)
    (hr : t.regs = u.regs := by simp -implicitDefEqProofs) :
    Frame u t R := ⟨.of_eq hm hp, .of_eq hr⟩

theorem OtherSites.of_eq {u t : State} {a : Nat} (h : t.sites = u.sites) : OtherSites u t a := fun b _ => State.site_congr h b

theorem OtherSites.modSite {u t : State} {a : Nat} (h : OtherSites u t a) (f : Site → Site) : OtherSites u (t.modSite a f) a :=
  fun b hb => (t.site_modSite_ne f hb).trans (h b hb)

/-- A command that answers `t` does what holds of `t`. -/
theorem Done.next {c : Instr} {s t : State} {Q : State → Prop} (h : exec c s = .next t) (hq : Q t) : Done c s Q := ⟨t, h, hq⟩

end

namespace Sys2Proof.Machine

/-! ### Fields, with side conditions that `decide` settles -/

theorem fieldGet_fieldSet_self (f : Fld) (v : Nat) (w : Word) (h : f.lo + f.width ≤ 64) :
    fieldGet f (fieldSet f v w) = v % 2 ^ f.width := fieldGet_fieldSet f v w h

theorem fieldGet_fieldSet_other {f g : Fld} (v : Nat) (w : Word) (h : g.lo + g.width ≤ f.lo ∨ f.lo + f.width ≤ g.lo) :
    fieldGet g (fieldSet f v w) = fieldGet g w := fieldGet_fieldSet_apart f g v w h

theorem State.rd_wr_self (s : State) (f : Fld) (a i v : Nat) (h : f.lo + f.width ≤ 64) :
    (s.wr f a i v).rd f a i = v % 2 ^ f.width := s.rd_wr_same f a i v h

theorem State.rd_wr_other (s : State) {f g : Fld} (a i a' i' v : Nat)
    (h : g.reg ≠ f.reg ∨ g.lo + g.width ≤ f.lo ∨ f.lo + f.width ≤ g.lo) : (s.wr f a i v).rd g a' i' = s.rd g a' i' := by
  rcases h with h | h
  · exact s.rd_wr_ne v (fun e => h e.1)
  · exact s.rd_wr_apart v h

theorem State.word_wr_other (s : State) {f : Fld} {r : RegName} (a i a' i' v : Nat) (h : r ≠ f.reg) :
    (s.wr f a i v).word r a' i' = s.word r a' i' := s.word_wr_ne v (fun e => h e.1)

/-! ### Parts of the state without laws of their own in the model's files -/

section
variable (s : State) (r : RegName) (f : Fld) (c : Ctr) (a i x : Nat) (g : BoardX → BoardX) (h : GateX → GateX)
@[simp] theorem State.word_modBoard : (s.modBoard g).word r a i = s.word r a i := rfl
@[simp] theorem State.rd_modBoard : (s.modBoard g).rd f a i = s.rd f a i := rfl
@[simp] theorem State.ctr_modBoard : (s.modBoard g).ctr c a = s.ctr c a := rfl
@[simp] theorem State.modBoard_regs : (s.modBoard g).regs = s.regs := rfl
@[simp] theorem State.modBoard_mem : (s.modBoard g).mem = s.mem := rfl
@[simp] theorem State.modBoard_poison : (s.modBoard g).poison = s.poison := rfl
@[simp] theorem State.modBoard_board : (s.modBoard g).board = g s.board := rfl
@[simp] theorem State.modBoard_out : (s.modBoard g).out = s.out := rfl
@[simp] theorem State.modBoard_time : (s.modBoard g).time = s.time := rfl
@[simp] theorem State.word_alert : (s.alert x).word r a i = s.word r a i := rfl
@[simp] theorem State.rd_alert : (s.alert x).rd f a i = s.rd f a i := rfl
@[simp] theorem State.ctr_alert : (s.alert x).ctr c a = s.ctr c a := rfl
@[simp] theorem State.alert_regs : (s.alert x).regs = s.regs := rfl
@[simp] theorem State.alert_mem : (s.alert x).mem = s.mem := rfl
@[simp] theorem State.alert_poison : (s.alert x).poison = s.poison := rfl
@[simp] theorem State.alert_out : (s.alert x).out = s.out := rfl
@[simp] theorem State.alert_board : (s.alert x).board = { s.board with alerts := s.board.alerts ||| 2 ^ x } := rfl
@[simp] theorem State.word_modGate : (s.modGate h).word r a i = s.word r a i := rfl
@[simp] theorem State.rd_modGate : (s.modGate h).rd f a i = s.rd f a i := rfl
@[simp] theorem State.ctr_modGate : (s.modGate h).ctr c a = s.ctr c a := rfl
@[simp] theorem State.modGate_regs : (s.modGate h).regs = s.regs := rfl
@[simp] theorem State.modGate_mem : (s.modGate h).mem = s.mem := rfl
@[simp] theorem State.modGate_poison : (s.modGate h).poison = s.poison := rfl
@[simp] theorem State.modGate_out : (s.modGate h).out = s.out := rfl
@[simp] theorem State.modGate_gate : (s.modGate h).gate = h s.gate := rfl
@[simp] theorem State.modGate_board : (s.modGate h).board = s.board := rfl
@[simp] theorem State.modGate_hut : (s.modGate h).hut = s.hut := rfl
@[simp] theorem State.modGate_sites : (s.modGate h).sites = s.sites := rfl
@[simp] theorem State.modGate_time : (s.modGate h).time = s.time := rfl
@[simp] theorem State.ctr_wr (v : Nat) : (s.wr f a i v).ctr c x = s.ctr c x := rfl
@[simp] theorem State.ctr_setWord (w : Word) : (s.setWord r a i w).ctr c x = s.ctr c x := rfl
@[simp] theorem State.ctr_emit (o : Output) : (s.emit o).ctr c x = s.ctr c x := rfl
@[simp] theorem State.emit_out_append (o : Output) : (s.emit o).out = List.append s.out [o] := rfl
end

theorem State.ctr_wrs (s : State) (c : Ctr) (x a i : Nat) (l : List (Fld × Nat)) : (s.wrs a i l).ctr c x = s.ctr c x := by
  simp [State.ctr]

/-! ### Time -/

/-- The clocks of a state. -/
def clocks (s : State) : Nat × Nat × Nat := (s.cycle, s.cycles, s.time)

theorem clocks_giveCredit (s : State) (a n : Nat) : clocks (s.giveCredit a n) = clocks s := by
  unfold State.giveCredit; dsimp only; split <;> rfl

theorem clocks_applyAdd (s : State) (id n : Nat) : clocks (s.applyAdd id n) = clocks s := by
  unfold State.applyAdd; dsimp only; split <;> rfl

theorem clocks_ringConsume (s : State) (id : Nat) : clocks (s.ringConsume id) = clocks s := by
  unfold State.ringConsume; dsimp only; split <;> rfl

theorem clocks_emitRelease (s : State) (b part : Nat) : clocks (s.emitRelease b part) = clocks s := by
  have h := foldl_keep clocks (fun s k => s.setWord .COL_BAR_ARR 0 (4 * b + k) 0) (fun _ _ => rfl) (List.range 4) s
  exact h


/-- What a fold does to the clocks when none of its steps moves them. -/
theorem clocks_foldl {β : Type} (g : State → β → State) (h : ∀ s x, clocks (g s x) = clocks s) (l : List β) (u : State) :
    clocks (l.foldl g u) = clocks u := foldl_keep clocks g h l u

theorem clocks_due (s : State) (d : Option (Nat × Nat)) : clocks (match d with
    | some (b, part) => s.emitRelease b part
    | none => s) = clocks s := by
  cases d with
  | none => rfl
  | some x => exact clocks_emitRelease s x.1 x.2

/-- One core cycle ends (R26). -/
theorem State.endCycle_clock (s : State) : s.endCycle.cycle = s.cycle + 1 ∧ s.endCycle.cycles = s.cycles + 1 ∧ s.time < s.endCycle.time := by
  have h1 := fun (u : State) (l : List Nat) => clocks_foldl (fun s id => s.ringConsume id) clocks_ringConsume l u
  have h2 := fun (u : State) (l : List (Nat × Nat)) =>
    clocks_foldl (fun s (x : Nat × Nat) => s.applyAdd x.1 x.2) (fun s x => clocks_applyAdd s x.1 x.2) l u
  have h3 := fun (u : State) (l : List (Nat × Nat)) => clocks_foldl (fun s (x : Nat × Nat) => s.sigAdd x.1 x.2) (fun _ _ => rfl) l u
  have h4 := fun (u : State) (l : List (Nat × Nat)) =>
    clocks_foldl (fun s (x : Nat × Nat) => s.giveCredit (x.1 / 16) (x.1 % 16)) (fun s x => clocks_giveCredit s _ _) l u
  unfold State.endCycle
  extract_lets own s0 adds s1 s1' s2 s3 s4
  have e : clocks s4 = clocks s := by
    calc clocks s4 = clocks s3 := clocks_due s3 _
      _ = clocks s2 := h4 _ _
      _ = clocks s1' := h3 _ _
      _ = clocks s1 := rfl
      _ = clocks s0 := h2 _ _
      _ = clocks s := h1 _ _
  simp only [clocks, Prod.mk.injEq] at e
  obtain ⟨e1, e2, e3⟩ := e
  have hp : ∀ n, 0 < periodOf n := by
    intro n
    unfold periodOf
    match n with
    | 0 | 1 | 2 | 3 => decide
    | n + 4 => simp
  have := hp (s4.rd F.PWR_THERM_LEVEL)
  refine ⟨?_, ?_, ?_⟩
  · show s4.cycle + 1 = _; omega
  · show s4.cycles + 1 = _; omega
  · show _ < s4.time + _; omega

theorem clocks_countDelay (s : State) (n : Nat) : clocks (s.countDelay n) = clocks s := by
  unfold State.countDelay
  split
  · rfl
  · exact clocks_foldl (fun s a => s.count C.TRV_CNT_DELAY a n) (fun _ _ => rfl) _ _

theorem State.elapse_clock (s : State) (n : Nat) : (s.elapse n).cycle = s.cycle + n ∧ (s.elapse n).cycles = s.cycles + n := by
  match n with
  | 0 => exact ⟨rfl, rfl⟩
  | 1 => exact ⟨s.endCycle_clock.1, s.endCycle_clock.2.1⟩
  | 2 =>
    obtain ⟨h1, h2, -⟩ := s.endCycle_clock
    obtain ⟨h3, h4, -⟩ := s.endCycle.endCycle_clock
    exact ⟨by rw [State.elapse]; omega, by rw [State.elapse]; omega⟩
  | n + 3 =>
    obtain ⟨h1, h2, -⟩ := s.endCycle_clock
    obtain ⟨h3, h4, -⟩ := s.endCycle.endCycle_clock
    obtain ⟨h5, h6, -⟩ := s.endCycle.endCycle.endCycle_clock
    exact ⟨by show s.endCycle.endCycle.endCycle.cycle + n = _; omega, by show s.endCycle.endCycle.endCycle.cycles + n = _; omega⟩

theorem State.pass_clock (s : State) (n : Nat) : (s.pass n).cycle = s.cycle + n ∧ (s.pass n).cycles = s.cycles + n := by
  have h := clocks_countDelay s n
  simp only [clocks, Prod.mk.injEq] at h
  obtain ⟨h1, h2⟩ := (s.countDelay n).elapse_clock n
  exact ⟨by rw [State.pass, h1, h.1], by rw [State.pass, h2, h.2.1]⟩

/-- The cycle of a command that may take place is reached. -/
theorem State.at_cycle {s : State} {t : Nat} (h : s.reaches t = true) : (s.at_ t).cycle = t := by
  simp only [State.reaches, Bool.and_eq_true, decide_eq_true_eq] at h
  unfold State.at_
  split
  · omega
  · rw [(s.pass_clock _).1]; omega

end Sys2Proof.Machine

/-! ### The step -/

namespace Sys2Proof.Proofs

open Sys2Proof Sys2Proof.Machine

/-- Settles O1: the step's own equation on a queue that holds a command. -/
theorem stepRunsFront : Obligations.StepRunsFront := fun _ _ _ => rfl

/-- Settles O2: within a pitch the tick passes one cycle. -/
theorem idleStepPassesACycle : Obligations.IdleStepPassesACycle := by
  intro s hp
  have hstep : step s = .next (tick s) := by simp [step, hp]
  refine ⟨fun hl => ⟨_, hstep, ?_⟩, fun hl hc ht => ⟨_, hstep, ?_⟩, fun hl hc ht => ?_⟩
  · simp only [tick, hl]
    exact ⟨rfl, Nat.lt_add_of_pos_right (by decide), rfl, .refl s⟩
  · have e : tick s = s.pass 1 := by simp [tick, hl, hc, ht]
    have h := SameButTime.pass s 1
    rw [e]
    exact ⟨(s.pass_clock 1).1, (s.pass_clock 1).2, .of_eq h.mem h.poison, h.sites⟩
  · rw [hstep]
    simp [tick, hl, hc, ht]

/-- Settles O56: the decoders run on the words. -/
theorem wordsMeanTheirInstructions : Obligations.WordsMeanTheirInstructions := by
  unfold Obligations.WordsMeanTheirInstructions
  decide +kernel

/-- Settles O59: a register without an entry reads its reset value, and reset lists the two that a strap gives. -/
theorem resetState : Obligations.ResetState := by
  refine ⟨fun r a i h1 h2 => ?_, by decide, by decide, by decide, by decide, by decide, by decide, by decide, by decide, rfl,
    ⟨rfl, rfl, rfl⟩, fun x => ⟨rfl, rfl⟩⟩
  simp [State.word, State.reset, aget, Ne.symm h1, Ne.symm h2]

end Sys2Proof.Proofs
end

section
/-! PROOF. Instruction words: every operand stands in bits of its own (Tables 05-2, 03-2, 03-3, 04-1, 06-2, 06-3). -/

namespace Sys2Proof.Proofs
open Sys2Proof Sys2Proof.Machine

/-- A field of n bits of a number below 2^64 reads back the value whose digits stand there. -/
theorem bf_ofNat {n : Nat} (N lo : Nat) (v : BitVec n) (h : N % 2 ^ 64 / 2 ^ lo % 2 ^ n = v.toNat) :
    bf (BitVec.ofNat 64 N).toNat lo n = v := by
  apply BitVec.eq_of_toNat_eq
  rw [bf, BitVec.toNat_ofNat, BitVec.toNat_ofNat, h]

/-- A bit is a field of width 1, so that every operand of an instruction is a bounded number to `omega`. -/
theorem bitAt_eq (b : Bool) (lo : Nat) : bitAt b lo = (BitVec.ofBool b).toNat * 2 ^ lo := by cases b <;> rfl

theorem bit_ofNat (N lo : Nat) (b : Bool) (h : N % 2 ^ 64 / 2 ^ lo % 2 = (BitVec.ofBool b).toNat) :
    bit (BitVec.ofNat 64 N).toNat lo = b := by
  rw [bit, BitVec.toNat_ofNat, h]
  cases b <;> rfl

theorem guardOf_ofNat (N : Nat) (g : Guard) (h : N % 2 ^ 64 / 2 ^ 52 % 2 ^ 4 = 8 * (BitVec.ofBool g.inv).toNat + g.gp.toNat) :
    guardOf (BitVec.ofNat 64 N).toNat = g := by
  obtain ⟨inv, gp⟩ := g
  simp only at h
  rw [guardOf, bit_ofNat _ _ inv (by omega), bf_ofNat _ _ gp (by omega)]

theorem seqOpcode_ofNat (N op : Nat) (h : N % 2 ^ 64 / 2 ^ 56 % 2 ^ 8 = op) :
    seqOpcode (BitVec.ofNat 64 N).toNat = op := by
  rw [seqOpcode, BitVec.toNat_ofNat, h]

/-- The opcode of each instruction (Tables 05-2, 03-2, 04-1). -/
def opcodeOf : SeqInstr → Nat
  | .nop _ => 0x00
  | .endI _ => 0x01
  | .br _ => 0x02
  | .loop _ => 0x03
  | .lset _ => 0x04
  | .ladd _ => 0x05
  | .pset _ => 0x06
  | .qtry _ => 0x08
  | .sel _ => 0x09
  | .tpush _ => 0x0A
  | .sig _ => 0x0C
  | .wait _ => 0x0D
  | .arrive _ => 0x0E
  | .claim _ => 0x0F
  | .strt _ => 0x10
  | .tmark _ => 0x11
  | .mma _ => 0x40
  | .mmerge _ => 0x41
  | .msave _ => 0x42
  | .mfree _ => 0x43
  | .vop _ => 0x50
  | .vrd _ => 0x51
  | .vcvt _ => 0x52
  | .vred _ => 0x53
  | .vld _ => 0x54
  | .vst _ => 0x55
  | .vimm _ => 0x56

theorem seqOpcode_encodeSeq (i : SeqInstr) : seqOpcode (encodeSeq i).toNat = opcodeOf i := by
  cases i <;> simp only [seqOpcode, encodeSeq, encodeSeqNat, opcodeOf, opGuard, at_, bitAt_eq, BitVec.toNat_ofNat] <;> omega

theorem decodeSeq_encodeSeq_mma (o : MmaOps) : decodeSeq (encodeSeq (.mma o)) = some (.mma o) := by
  have hop := seqOpcode_encodeSeq (.mma o)
  simp only [decodeSeq, hop, opcodeOf]
  simp only [encodeSeq, encodeSeqNat, at_, bitAt_eq]
  rw [bf_ofNat, bf_ofNat, bf_ofNat, bf_ofNat, bf_ofNat, bf_ofNat, bit_ofNat, bit_ofNat, bit_ofNat, bit_ofNat, bf_ofNat, bit_ofNat,
    bf_ofNat] <;> omega

/-- Every operand stands in bits of its own, so that each field of the word reads it back. -/
theorem decodeSeq_encodeSeq (i : SeqInstr) : decodeSeq (encodeSeq i) = some i := by
  have hop := seqOpcode_encodeSeq i
  cases i
  case mma o => exact decodeSeq_encodeSeq_mma o
  all_goals simp only [decodeSeq, hop, opcodeOf]
  all_goals simp only [encodeSeq, encodeSeqNat, opGuard, at_, bitAt_eq]
  case nop => rw [guardOf_ofNat] <;> omega
  case endI => rw [guardOf_ofNat] <;> omega
  case br => rw [guardOf_ofNat, bf_ofNat, bf_ofNat] <;> omega
  case loop => rw [guardOf_ofNat, bf_ofNat, bf_ofNat, bf_ofNat] <;> omega
  case lset => rw [guardOf_ofNat, bf_ofNat, bf_ofNat] <;> omega
  case ladd => rw [guardOf_ofNat, bf_ofNat, bf_ofNat] <;> omega
  case pset => rw [guardOf_ofNat, bf_ofNat, bf_ofNat, bf_ofNat, bf_ofNat, bf_ofNat, bf_ofNat] <;> omega
  case qtry => rw [guardOf_ofNat, bf_ofNat, bf_ofNat, bit_ofNat, bf_ofNat] <;> omega
  case sel => rw [guardOf_ofNat, bf_ofNat, bf_ofNat, bit_ofNat, bit_ofNat, bf_ofNat, bf_ofNat] <;> omega
  case tpush => rw [guardOf_ofNat, bf_ofNat, bit_ofNat, bf_ofNat, bf_ofNat] <;> omega
  case sig => rw [guardOf_ofNat, bit_ofNat, bf_ofNat, bf_ofNat, bf_ofNat] <;> omega
  case wait => rw [guardOf_ofNat, bf_ofNat, bf_ofNat] <;> omega
  case arrive => rw [guardOf_ofNat, bf_ofNat, bit_ofNat, bit_ofNat] <;> omega
  case claim => rw [guardOf_ofNat, bf_ofNat, bf_ofNat, bf_ofNat, bf_ofNat] <;> omega
  case strt => rw [guardOf_ofNat, bf_ofNat, bit_ofNat, bf_ofNat, bf_ofNat] <;> omega
  case tmark => rw [guardOf_ofNat, bf_ofNat] <;> omega
  case mmerge => rw [bf_ofNat, bf_ofNat, bf_ofNat, bf_ofNat, bit_ofNat, bit_ofNat] <;> omega
  case msave => rw [bf_ofNat, bf_ofNat] <;> omega
  case mfree => rw [bf_ofNat] <;> omega
  case vop => rw [bf_ofNat, bf_ofNat, bf_ofNat, bf_ofNat, bf_ofNat, bf_ofNat, bf_ofNat] <;> omega
  case vrd => rw [bf_ofNat, bf_ofNat, bf_ofNat, bf_ofNat, bf_ofNat, bit_ofNat, bf_ofNat, bf_ofNat] <;> omega
  case vcvt => rw [bf_ofNat, bf_ofNat, bf_ofNat, bf_ofNat, bit_ofNat, bf_ofNat, bf_ofNat] <;> omega
  case vred => rw [bf_ofNat, bf_ofNat, bf_ofNat, bf_ofNat] <;> omega
  case vld => rw [bf_ofNat, bf_ofNat, bf_ofNat, bf_ofNat] <;> omega
  case vst => rw [bf_ofNat, bf_ofNat, bf_ofNat, bf_ofNat] <;> omega
  case vimm => rw [bf_ofNat, bf_ofNat, bf_ofNat, bf_ofNat] <;> omega

/-- The opcode of each address-generator instruction (Tables 06-2, 06-3). -/
def agOpcodeOf : AgInstr → Nat
  | .endA => 0x0
  | .aset _ _ => 0x1
  | .aadd _ _ _ => 0x2
  | .aarg _ _ _ => 0x3
  | .aloop _ _ => 0x4
  | .copy _ => 0x5
  | .signal _ _ _ => 0x6
  | .fence => 0x7

theorem agOpcode_encodeAg (i : AgInstr) : (encodeAg i).toNat / 2 ^ 60 % 2 ^ 4 = agOpcodeOf i := by
  cases i <;> simp only [encodeAg, encodeAgNat, agOpcodeOf, at_, bitAt_eq, BitVec.toNat_ofNat] <;> omega

theorem decodeAg_encodeAg (i : AgInstr) : decodeAg (encodeAg i) = some i := by
  have hop := agOpcode_encodeAg i
  unfold decodeAg
  simp only [hop]
  cases i <;> simp only [agOpcodeOf, encodeAg, encodeAgNat, at_, bitAt_eq]
  case aset => rw [bf_ofNat, bf_ofNat] <;> omega
  case aadd => rw [bf_ofNat, bf_ofNat, bf_ofNat] <;> omega
  case aarg => rw [bf_ofNat, bf_ofNat, bf_ofNat] <;> omega
  case aloop => rw [bf_ofNat, bf_ofNat] <;> omega
  case copy => rw [bf_ofNat, bf_ofNat, bit_ofNat, bit_ofNat, bit_ofNat, bit_ofNat, bf_ofNat] <;> omega
  case signal => rw [bit_ofNat, bf_ofNat, bf_ofNat] <;> omega

/-- A word counts as clean only when it is the word of its own instruction, so that decoding loses nothing of it. -/
theorem encodeSeq_of_decodeSeq {x : Word} {i : SeqInstr} (hx : seqWordClean x = true) (hi : decodeSeq x = some i) : encodeSeq i = x := by
  simpa [seqWordClean, hi] using hx

theorem encodeAg_of_decodeAg {x : Word} {i : AgInstr} (hx : agWordClean x = true) (hi : decodeAg x = some i) : encodeAg i = x := by
  simpa [agWordClean, hi] using hx

/-- Settles O55: each operand reads back from its own bits, instruction by instruction. -/
theorem instructionWordsRoundTrip : Obligations.InstructionWordsRoundTrip :=
  ⟨decodeSeq_encodeSeq, decodeAg_encodeAg, fun _ _ => encodeSeq_of_decodeSeq, fun _ _ => encodeAg_of_decodeAg⟩
end Sys2Proof.Proofs
end

section
/-! PROOF. The protection code is linear in the word and its columns have odd weight (R340, Table 13-1). -/

namespace Sys2Proof.Proofs
open Sys2Proof Sys2Proof.Machine

/-- What one column adds to a check byte. -/
def addColumn (w : Word) (c : Byte) (p : Nat × Nat) : Byte := if w.getLsbD p.2 then c ^^^ BitVec.ofNat 8 p.1 else c

theorem addColumn_xor (x y : Word) (c d : Byte) (p : Nat × Nat) :
    addColumn (x ^^^ y) (c ^^^ d) p = addColumn x c p ^^^ addColumn y d p := by
  simp only [addColumn, BitVec.getLsbD_xor]
  generalize BitVec.ofNat 8 p.1 = b
  apply BitVec.eq_of_getLsbD_eq
  intro k _
  cases x.getLsbD p.2 <;> cases y.getLsbD p.2 <;> simp [Bool.xor_comm, Bool.xor_left_comm]

/-- The check byte is linear in the word (R340). -/
theorem checkByte_xor (x y : Word) : checkByte (x ^^^ y) = checkByte x ^^^ checkByte y := by
  have fold : ∀ (l : List (Nat × Nat)) (c d : Byte),
      l.foldl (addColumn (x ^^^ y)) (c ^^^ d) = l.foldl (addColumn x) c ^^^ l.foldl (addColumn y) d := by
    intro l
    induction l with
    | nil => exact fun _ _ => rfl
    | cons p l ih => exact fun c d => by rw [List.foldl_cons, addColumn_xor, ih, List.foldl_cons, List.foldl_cons]
  exact fold _ 0 0

/-- The column of a data bit. -/
def eccColumn (i : Nat) : Byte := checkByte (1#64 <<< i)

theorem syndrome_of_flip (w : Word) (i : Nat) : checkByte w ^^^ checkByte (w ^^^ 1#64 <<< i) = eccColumn i := by
  rw [checkByte_xor, eccColumn, ← BitVec.xor_assoc, BitVec.xor_self, BitVec.zero_xor]

theorem decodeSynd_column : ∀ i < 64, decodeSynd (eccColumn i) = .data i := by decide +kernel

/-- Every column has odd weight, so an even number of errors leaves a syndrome of even weight, which no single error has. -/
theorem decodeSynd_even : ∀ b < 256, b ≠ 0 → ones b % 2 = 0 → decodeSynd (BitVec.ofNat 8 b) = .bad := by decide +kernel

theorem decodeSynd_of_even {b : Byte} (h0 : b ≠ 0) (h : ones b.toNat % 2 = 0) : decodeSynd b = .bad := by
  have := decodeSynd_even b.toNat b.isLt (fun e => h0 (BitVec.eq_of_toNat_eq e)) h
  rwa [BitVec.ofNat_toNat, BitVec.setWidth_eq] at this

/-- The columns are pairwise distinct, and two of them together have even weight. -/
theorem eccColumns_pairwise : (eccColumns.map (BitVec.ofNat 8)).Pairwise (fun a b => a ≠ b ∧ ones (a ^^^ b).toNat % 2 = 0) := by
  decide +kernel

theorem eccColumn_eq : ∀ i < 64, some (eccColumn i) = (eccColumns.map (BitVec.ofNat 8))[i]? := by decide +kernel

theorem decodeSynd_two_columns {i j : Nat} (hi : i < 64) (hj : j < 64) (h : j ≠ i) :
    decodeSynd (eccColumn i ^^^ eccColumn j) = .bad := by
  have apart : ∀ {m n : Nat}, m < n → n < 64 → decodeSynd (eccColumn m ^^^ eccColumn n) = .bad := by
    intro m n hmn hn
    obtain ⟨hn', en⟩ := List.getElem?_eq_some_iff.1 (eccColumn_eq n hn).symm
    obtain ⟨hm', em⟩ := List.getElem?_eq_some_iff.1 (eccColumn_eq m (by omega)).symm
    obtain ⟨hne, hev⟩ := List.pairwise_iff_getElem.1 eccColumns_pairwise m n hm' hn' hmn
    rw [em, en] at hne hev
    exact decodeSynd_of_even (fun e => hne (BitVec.xor_eq_zero_iff.1 e)) hev
  rcases Nat.lt_or_gt_of_ne h with h | h
  · rw [BitVec.xor_comm]; exact apart h hi
  · exact apart h hj

theorem decodeSynd_column_check : ∀ i < 64, ∀ j < 8, decodeSynd (eccColumn i ^^^ 1#8 <<< j) = .bad := by
  have odd : ∀ c ∈ eccColumns.map (BitVec.ofNat 8), ∀ j < 8,
      c ^^^ 1#8 <<< j ≠ 0 ∧ ones (c ^^^ 1#8 <<< j).toNat % 2 = 0 := by decide +kernel
  intro i hi j hj
  obtain ⟨h0, h⟩ := odd _ (List.mem_of_getElem? (eccColumn_eq i hi).symm) j hj
  exact decodeSynd_of_even h0 h

theorem decodeSynd_check : ∀ j < 8, decodeSynd (1#8 <<< j) = .check := by decide +kernel

theorem decodeSynd_two_checks : ∀ j < 8, ∀ k < 8, k ≠ j → decodeSynd (1#8 <<< j ^^^ 1#8 <<< k) = .bad := by decide +kernel

/-- Settles O58: the code is linear, so every word errs as zero does, and the columns are compared once. -/
theorem protectionCodeCorrectsAndDetects : Obligations.ProtectionCodeCorrectsAndDetects := by
  refine ⟨rfl, fun w => ⟨fun i hi => ?_, fun j hj => ⟨decodeSynd_check j hj, ?_, decodeSynd_two_checks j hj⟩⟩⟩
  · have hd := decodeSynd_column i hi
    simp only [syndrome_of_flip]
    refine ⟨by simp [correctable, hd], ?_, fun j hj hne => ?_, decodeSynd_column_check i hi⟩
    · simp [corrected, hd]
    · rw [checkByte_xor, ← BitVec.xor_assoc, syndrome_of_flip]
      exact decodeSynd_two_columns hi hj hne
  · simp [corrected, decodeSynd_check j hj]
end Sys2Proof.Proofs
end

section
/-! PROOF. Power, reset, pins and temperature (R453, R455 to R458, R473). -/

namespace Sys2Proof.Proofs
open Sys2Proof Sys2Proof.Machine

/-- The registers after a reset are those of an empty register file, but for the straps' (R457, R458, R464). -/
theorem word_strapRegs {s : State} {st : Word} {r : RegName} (a i : Nat)
    (h : r ∉ [RegName.CFG_STRAPS, .COL_PITCH_NUM, .COL_PITCH_CTRL, .ROPE_STATUS]) : (s.strapRegs st).word r a i = r.resetWord i := by
  simp only [List.mem_cons, List.not_mem_nil, or_false, not_or] at h
  obtain ⟨h1, h2, h3, h4⟩ := h
  have e : (({ s with regs := [] } : State).setWord .CFG_STRAPS 0 0 st).word r a i = r.resetWord i := by
    rw [State.word_setWord_ne _ _ (fun e => h1 e.1)]; rfl
  unfold State.strapRegs
  dsimp only [State.wrs, List.foldl]
  rw [State.word_wr_other _ _ _ _ _ _ h4, State.word_wr_other _ _ _ _ _ _ h4]
  split
  · exact e
  · rw [State.word_wr_other _ _ _ _ _ _ h3, State.word_wr_other _ _ _ _ _ _ h2, e]

theorem hardReset_leaves (s : State) (st : Word) : ResetLeaves s (s.hardReset st) := by
  refine ⟨fun r a i h => word_strapRegs a i h, ?_⟩
  unfold State.hardReset State.strapRegs
  dsimp only
  split <;> exact ⟨fun _ => ⟨rfl, rfl⟩, rfl, rfl, rfl, rfl⟩

/-- What a reset keeps of the board side, and what it starts with (R455). -/
theorem hardReset_board (s : State) (st : Word) : (s.hardReset st).board =
    { BoardX.reset with pwrgd := s.board.pwrgd, porstN := s.board.porstN, thermtripN := s.board.thermtripN, cut := s.board.cut,
                        alerts := s.board.alerts, stageInN := s.board.stageInN } := by
  unfold State.hardReset State.strapRegs
  dsimp only
  split <;> rfl

/-- A reset with other fuses than the state's own does not occur. -/
theorem hardReset_fuses (s : State) (st : Word) : (s.hardReset st).fuses = s.fuses := (hardReset_leaves s st).2.2.2.2.1

/-- The registers that the straps give (R457, R458, R464). -/
theorem strapRegs_straps (s : State) (st : Word) :
    (s.strapRegs st).word .CFG_STRAPS 0 0 = st ∧
    (s.strapRegs st).rd F.COL_PITCH_NUM_LOG2_LEN = pitchDef (fieldGet F.CFG_STRAPS_PITCH_DEF st) ∧
    (s.strapRegs st).rd F.ROPE_STATUS_HEAD = fieldGet F.CFG_STRAPS_ROPE_HEAD st ∧
    (s.strapRegs st).rd F.ROPE_STATUS_POS_VALID = fieldGet F.CFG_STRAPS_ROPE_HEAD st := by
  have hh : fieldGet F.CFG_STRAPS_ROPE_HEAD st < 2 := fieldGet_lt ..
  have hd : pitchDef (fieldGet F.CFG_STRAPS_PITCH_DEF st) < 16 := by
    have : fieldGet F.CFG_STRAPS_PITCH_DEF st < 4 := fieldGet_lt ..
    revert this
    generalize fieldGet F.CFG_STRAPS_PITCH_DEF st = n
    revert n
    decide
  unfold State.strapRegs
  dsimp only [State.wrs, List.foldl]
  generalize fieldGet F.CFG_STRAPS_ROPE_HEAD st = v at hh
  generalize pitchDef (fieldGet F.CFG_STRAPS_PITCH_DEF st) = k at hd
  refine ⟨?_, ?_, ?_, ?_⟩
  · rw [State.word_wr_other _ _ _ _ _ _ (by decide), State.word_wr_other _ _ _ _ _ _ (by decide)]
    split
    · exact State.word_setWord_same ..
    · rw [State.word_wr_other _ _ _ _ _ _ (by decide), State.word_wr_other _ _ _ _ _ _ (by decide)]
      exact State.word_setWord_same ..
  · rw [State.rd_wr_other _ _ _ _ _ _ (by decide), State.rd_wr_other _ _ _ _ _ _ (by decide)]
    split
    · next h =>
      have e : fieldGet F.COL_PITCH_NUM_LOG2_LEN (RegName.resetWord .COL_PITCH_NUM 0) = 12 := by decide
      rw [h]
      exact e
    · rw [State.rd_wr_other _ _ _ _ _ _ (by decide), State.rd_wr_self _ _ _ _ _ (by decide)]
      exact Nat.mod_eq_of_lt hd
  · rw [State.rd_wr_other _ _ _ _ _ _ (by decide), State.rd_wr_self _ _ _ _ _ (by decide)]
    exact Nat.mod_eq_of_lt hh
  · rw [State.rd_wr_self _ _ _ _ _ (by decide)]
    exact Nat.mod_eq_of_lt hh

theorem hardReset_straps (s : State) (st : Word) :
    (s.hardReset st).word .CFG_STRAPS 0 0 = st ∧
    (s.hardReset st).rd F.COL_PITCH_NUM_LOG2_LEN = pitchDef (fieldGet F.CFG_STRAPS_PITCH_DEF st) ∧
    (s.hardReset st).rd F.ROPE_STATUS_HEAD = fieldGet F.CFG_STRAPS_ROPE_HEAD st ∧
    (s.hardReset st).rd F.ROPE_STATUS_POS_VALID = fieldGet F.CFG_STRAPS_ROPE_HEAD st := strapRegs_straps _ st

/-- The sampled word reads back each strap (Table 17-13). -/
theorem fieldGet_straps (st : Straps) :
    fieldGet F.CFG_STRAPS_PITCH_DEF st.word = st.pitchDef.toNat ∧ fieldGet F.CFG_STRAPS_BOARD_ID st.word = st.boardId.toNat ∧
    fieldGet F.CFG_STRAPS_CLAIM_WIN st.word = st.claimWin.toNat ∧ fieldGet F.CFG_STRAPS_MGMT_BASE st.word = st.mgmtBase.toNat ∧
    fieldGet F.CFG_STRAPS_ROPE_HEAD st.word = st.ropeHead.toNat := by
  have hb := Bool.toNat_lt st.ropeHead
  simp only [Straps.word, List.foldl]
  simp (disch := decide) only [fieldGet_fieldSet_other, fieldGet_fieldSet_self]
  exact ⟨Nat.mod_eq_of_lt st.pitchDef.isLt, Nat.mod_eq_of_lt st.boardId.isLt, Nat.mod_eq_of_lt st.claimWin.isLt,
    Nat.mod_eq_of_lt st.mgmtBase.isLt, Nat.mod_eq_of_lt hb⟩

theorem resetsAndPins : ResetsAndPins := by
  intro s st
  refine ⟨fun hp ht => ?_, ⟨_, rfl, ?_, ?_⟩, ⟨_, rfl, ?_, ?_⟩, fun hp => ?_, ⟨_, rfl, rfl, .of_eq rfl rfl rfl⟩,
    ⟨_, rfl, rfl, rfl, rfl, .of_eq rfl rfl rfl⟩⟩
  · refine Done.next (t := (s.modBoard (fun b => { b with pwrgd := true, thermtripN := true, cut := false })).hardReset s.straps) ?_ ⟨?_, ?_⟩
    · simp [exec, execPwrgdRise, hp, ht]
    · rw [hardReset_board]; rfl
    · exact hardReset_leaves (s.modBoard _) _
  · rw [hardReset_board]; rfl
  · exact hardReset_leaves (s.modBoard _) _
  · rw [hardReset_board]; rfl
  · exact hardReset_leaves (s.modBoard _) _
  · refine Done.next (t := (s.modBoard (fun b => { b with porstN := true })).hardReset st.word) ?_ ?_
    · simp [exec, execPorstNDeassert, hp]
    · obtain ⟨hw, hl, hh, hv⟩ := hardReset_straps (s.modBoard (fun b => { b with porstN := true })) st.word
      obtain ⟨h1, h2, h3, h4, h5⟩ := fieldGet_straps st
      refine ⟨by rw [hardReset_board]; rfl, hardReset_leaves (s.modBoard _) _, ?_, ?_, ?_, ?_, ?_, ?_, ?_⟩
      · exact (congrArg _ hw).trans h1
      · exact (congrArg _ hw).trans h2
      · exact (congrArg _ hw).trans h3
      · exact (congrArg _ hw).trans h4
      · rw [hl, h1]
      · rw [hh, h5]
      · rw [hv, h5]

/-- What a trip leaves: no power, THERMTRIP_N asserted, the fuses, and no memory (R453, R455, R473). -/
theorem thermTrip_leaves (s : State) : (s.thermTrip).board.thermtripN = false ∧ (s.thermTrip).board.pwrgd = false ∧
    (s.thermTrip).fuses = s.fuses ∧ ∀ x, (s.thermTrip).byte x = 0 ∧ (s.thermTrip).poisonedAt x = false := by
  obtain ⟨-, hm, -, -, hf, -⟩ := hardReset_leaves (s.modBoard (fun b => { b with thermtripN := false, pwrgd := false, cut := false })) s.straps
  exact ⟨by rw [State.thermTrip, hardReset_board]; rfl, by rw [State.thermTrip, hardReset_board]; rfl, hf, hm⟩

/-- A sample as PWR_THERM shows it (R473). -/
def shownSample (tj : BitVec 12) (s : State) : State :=
  s.wrs 0 0 [(F.PWR_THERM_TJ, tj.toNat), (F.PWR_THERM_WARN, if tj.toInt ≥ 380 then 1 else 0)]

theorem shownSample_shows (tj : BitVec 12) (s : State) : (shownSample tj s).rd F.PWR_THERM_TJ = tj.toNat ∧
    (shownSample tj s).rd F.PWR_THERM_WARN = (if tj.toInt ≥ 380 then 1 else 0) ∧ (shownSample tj s).board = s.board ∧
    Frame s (shownSample tj s) (oneReg .PWR_THERM 0 0) := by
  have htj : tj.toNat < 2 ^ 12 := tj.isLt
  refine ⟨?_, ?_, State.wrs_board .., .wrs s (by simp [oneReg, F.PWR_THERM_TJ, F.PWR_THERM_WARN])⟩
  · simp (disch := decide) only [shownSample, State.wrs, List.foldl, State.rd_wr_self, State.rd_wr_other]
    exact Nat.mod_eq_of_lt htj
  · simp (disch := decide) only [shownSample, State.wrs, List.foldl, State.rd_wr_self]
    split <;> rfl

theorem execTemperatureSample_eq (tj : BitVec 12) (s : State) : exec (.temperatureSample tj) s = .next (
    if tj.toInt ≥ 420 then shownSample tj (if tj.toInt ≥ 380 then (shownSample tj s).alert 0 else shownSample tj s).thermTrip
    else if tj.toInt ≥ 380 then (shownSample tj s).alert 0 else shownSample tj s) := rfl

/-- The power and the level as PWR_THERM shows them (R473). -/
def shownWindow (s : State) (w new : Nat) : State := s.wrs 0 0 [(F.PWR_THERM_POWER_W, w), (F.PWR_THERM_LEVEL, new)]

/-- The end of a window without a trip that leaves the level `new`: the count of cool windows, the next window's end, the
alert of a throttled level (R473). -/
def windowEnd (t : State) (new cool due : Nat) : State :=
  if new = 0 then t.modBoard (fun b => { b with coolWindows := cool, windowDue := due })
  else ((t.modBoard (fun b => { b with coolWindows := cool, windowDue := due })).alert 1).count C.PWR_CNT_THROTTLE

theorem shownWindow_shows (s : State) {w new : Nat} (hw : w < 2 ^ 16) (hn : new < 2 ^ 2) :
    (shownWindow s w new).rd F.PWR_THERM_LEVEL = new ∧ (shownWindow s w new).rd F.PWR_THERM_POWER_W = w ∧
    Frame s (shownWindow s w new) (oneReg .PWR_THERM 0 0) := by
  refine ⟨?_, ?_, .wrs s (by simp [oneReg, F.PWR_THERM_POWER_W, F.PWR_THERM_LEVEL])⟩
  · simp only [shownWindow, State.wrs, List.foldl]
    rw [State.rd_wr_self _ _ _ _ _ (by decide)]
    exact Nat.mod_eq_of_lt hn
  · simp only [shownWindow, State.wrs, List.foldl]
    rw [State.rd_wr_other _ _ _ _ _ _ (by decide), State.rd_wr_self _ _ _ _ _ (by decide)]
    exact Nat.mod_eq_of_lt hw

/-- What a window that does not trip leaves: the level `n`, `c` cool windows (R473). -/
def Windowed (s : State) (w due : Nat) (t : State) (n c : Nat) : Prop :=
  t.rd F.PWR_THERM_LEVEL = n ∧ t.rd F.PWR_THERM_POWER_W = w ∧ t.board.coolWindows = c ∧ t.board.windowDue = due ∧
    (1 ≤ n → t.board.alerts = s.board.alerts ||| 2 ∧ t.ctr C.PWR_CNT_THROTTLE = (s.ctr C.PWR_CNT_THROTTLE + 1) % 2 ^ 48) ∧
    (n = 0 → t.board.alerts = s.board.alerts) ∧ Frame s t (oneReg .PWR_THERM 0 0)

/-- The end of a window, of any state that shows the window. -/
theorem Windowed.windowEnd {s u : State} {w new : Nat} (cool due : Nat) (hl : u.rd F.PWR_THERM_LEVEL = new)
    (hp : u.rd F.PWR_THERM_POWER_W = w) (hb : u.board = s.board) (hc : u.ctr C.PWR_CNT_THROTTLE = s.ctr C.PWR_CNT_THROTTLE)
    (hf : Frame s u (oneReg .PWR_THERM 0 0)) : Windowed s w due (windowEnd u new cool due) new cool := by
  unfold Proofs.windowEnd
  split
  · next h =>
    exact ⟨by simpa using hl, by simpa using hp, rfl, rfl, fun k => absurd h (by omega), fun _ => by simp [hb], hf.congr⟩
  · next h =>
    refine ⟨by simpa using hl, by simpa using hp, rfl, rfl, fun _ => ⟨?_, ?_⟩, fun k => absurd k h, hf.congr⟩
    · simp [hb]
    · simp [State.ctr_count_same, hc]

theorem windowed (s : State) {w new : Nat} (cool due : Nat) (hw : w < 2 ^ 16) (hn : new < 2 ^ 2) :
    Windowed s w due (windowEnd (shownWindow s w new) new cool due) new cool := by
  obtain ⟨hl, hp, hf⟩ := shownWindow_shows s hw hn
  exact .windowEnd cool due hl hp (State.wrs_board ..) (State.ctr_wrs ..) hf

/-- A window ends when it is due. -/
theorem execThermalWindow_early {s : State} (tj : BitVec 12) (w : BitVec 16) (h : s.time < s.board.windowDue) :
    exec (.thermalWindow tj w) s = .next s := by
  simp [exec, execThermalWindow, h]

theorem execThermalWindow_trip {s : State} {tj : BitVec 12} (w : BitVec 16) (h : s.board.windowDue ≤ s.time)
    (ht : 420 ≤ tj.toInt) : exec (.thermalWindow tj w) s = .next s.thermTrip := by
  simp [exec, execThermalWindow, Nat.not_lt.2 h, ht]

/-- A window that is too hot or takes too much raises the level. -/
theorem execThermalWindow_hot {s : State} {tj : BitVec 12} {w : BitVec 16} (h : s.board.windowDue ≤ s.time)
    (ht : tj.toInt < 420) (hh : 400 ≤ tj.toInt ∨ s.rd F.PWR_THERM_LIMIT_W < w.toNat) :
    exec (.thermalWindow tj w) s = .next (windowEnd (shownWindow s w.toNat (min 3 (s.rd F.PWR_THERM_LEVEL + 1))) (min 3 (s.rd F.PWR_THERM_LEVEL + 1)) 0 (s.time + milli)) := by
  simp only [exec, execThermalWindow, windowEnd, shownWindow, State.wrs_time, Nat.not_lt.2 h, Int.not_le.2 ht, ge_iff_le, gt_iff_lt, if_false]
  simp [hh]

/-- A window that is neither hot nor cool keeps the level. -/
theorem execThermalWindow_between {s : State} {tj : BitVec 12} {w : BitVec 16} (h : s.board.windowDue ≤ s.time)
    (ht : tj.toInt < 400) (hw : w.toNat ≤ s.rd F.PWR_THERM_LIMIT_W) (hh : 388 < tj.toInt ∨ s.rd F.PWR_THERM_LIMIT_W < w.toNat + 50) :
    exec (.thermalWindow tj w) s = .next (windowEnd (shownWindow s w.toNat (s.rd F.PWR_THERM_LEVEL)) (s.rd F.PWR_THERM_LEVEL) 0 (s.time + milli)) := by
  have h1 : ¬ (420 ≤ tj.toInt) := by omega
  have h2 : ¬ (400 ≤ tj.toInt) := by omega
  have h3 : (decide (tj.toInt ≤ 388) && decide (w.toNat + 50 ≤ s.rd F.PWR_THERM_LIMIT_W)) = false := by
    simp only [Bool.and_eq_false_iff, decide_eq_false_iff_not]; omega
  simp only [exec, execThermalWindow, windowEnd, shownWindow, State.wrs_time, Nat.not_lt.2 h, h1, h2, h3, Nat.not_lt.2 hw, if_false]
  simp

/-- A cool window counts; the tenth in succession lowers the level. -/
theorem execThermalWindow_cool {s : State} {tj : BitVec 12} {w : BitVec 16} (h : s.board.windowDue ≤ s.time)
    (ht : tj.toInt ≤ 388) (hw : w.toNat + 50 ≤ s.rd F.PWR_THERM_LIMIT_W) :
    exec (.thermalWindow tj w) s = .next (if s.board.coolWindows = 9 then windowEnd (shownWindow s w.toNat (s.rd F.PWR_THERM_LEVEL - 1)) (s.rd F.PWR_THERM_LEVEL - 1) 0 (s.time + milli)
      else windowEnd (shownWindow s w.toNat (s.rd F.PWR_THERM_LEVEL)) (s.rd F.PWR_THERM_LEVEL) (s.board.coolWindows + 1) (s.time + milli)) := by
  have h1 : ¬ (420 ≤ tj.toInt) := by omega
  have h2 : ¬ (400 ≤ tj.toInt) := by omega
  have h3 : ¬ (s.rd F.PWR_THERM_LIMIT_W < w.toNat) := by omega
  simp only [exec, execThermalWindow, windowEnd, shownWindow, State.wrs_time, Nat.not_lt.2 h, h1, h2, h3, ht, hw, if_false, decide_false,
    decide_true, Bool.or_false, Bool.and_self, Bool.not_true, Bool.false_eq_true]
  by_cases h9 : s.board.coolWindows = 9 <;> simp [h9]

theorem fuses_wrs (s : State) (a i : Nat) (l : List (Fld × Nat)) : (s.wrs a i l).fuses = s.fuses := by
  induction l generalizing s with
  | nil => rfl
  | cons x l ih => exact ih (s.wr x.1 a i x.2)

/-- A sample below 95 °C is shown. -/
theorem execTemperatureSample_low {tj : BitVec 12} (s : State) (h : tj.toInt < 380) :
    exec (.temperatureSample tj) s = .next (shownSample tj s) := by
  rw [execTemperatureSample_eq, if_neg (by omega), if_neg (by omega)]

/-- A sample from 95 °C warns. -/
theorem execTemperatureSample_warm {tj : BitVec 12} (s : State) (h : 380 ≤ tj.toInt) (h' : tj.toInt < 420) :
    exec (.temperatureSample tj) s = .next ((shownSample tj s).alert 0) := by
  rw [execTemperatureSample_eq, if_neg (by omega), if_pos h]

/-- A sample from 105 °C trips. -/
theorem execTemperatureSample_hot {tj : BitVec 12} (s : State) (h : 420 ≤ tj.toInt) :
    exec (.temperatureSample tj) s = .next (shownSample tj ((shownSample tj s).alert 0).thermTrip) := by
  rw [execTemperatureSample_eq, if_pos h, if_pos (by omega)]

theorem shownSample_warm {tj : BitVec 12} (s : State) (h : 380 ≤ tj.toInt) :
    ((shownSample tj s).alert 0).rd F.PWR_THERM_TJ = tj.toNat ∧ ((shownSample tj s).alert 0).rd F.PWR_THERM_WARN = 1 ∧
      ((shownSample tj s).alert 0).board.alerts = s.board.alerts ||| 1 ∧ Frame s ((shownSample tj s).alert 0) (oneReg .PWR_THERM 0 0) := by
  obtain ⟨h1, h2, h3, h4⟩ := shownSample_shows tj s
  exact ⟨by simpa -implicitDefEqProofs using h1, by simpa -implicitDefEqProofs [h] using h2, by simp -implicitDefEqProofs [h3], h4.congr⟩

theorem fuses_alert (s : State) (k : Nat) : (s.alert k).fuses = s.fuses := rfl

theorem shownSample_fuses (tj : BitVec 12) (s : State) : (shownSample tj s).fuses = s.fuses := by
  rw [shownSample, fuses_wrs]

/-- What a trip leaves still holds when the sample is shown after it. -/
theorem shownSample_tripped {tj : BitVec 12} {s t : State} (h : 380 ≤ tj.toInt)
    (k : t.board.thermtripN = false ∧ t.board.pwrgd = false ∧ t.fuses = s.fuses ∧ ∀ x, t.byte x = 0 ∧ t.poisonedAt x = false) :
    (shownSample tj t).rd F.PWR_THERM_TJ = tj.toNat ∧ (shownSample tj t).rd F.PWR_THERM_WARN = 1 ∧
      (shownSample tj t).board.thermtripN = false ∧ (shownSample tj t).board.pwrgd = false ∧
      (shownSample tj t).fuses = s.fuses ∧ ∀ x, (shownSample tj t).byte x = 0 ∧ (shownSample tj t).poisonedAt x = false := by
  obtain ⟨k1, k2, k3, k4⟩ := k
  obtain ⟨g1, g2, g3, g4⟩ := shownSample_shows tj t
  refine ⟨g1, by rw [g2, if_pos h], by rw [g3, k1], by rw [g3, k2], (shownSample_fuses tj t).trans k3, fun x => ?_⟩
  rw [(g4.1 x).1, (g4.1 x).2]
  exact k4 x

theorem temperatureThrottlesAndTrips : TemperatureThrottlesAndTrips := by
  intro s tj w
  have hw : w.toNat < 2 ^ 16 := w.isLt
  have hlv : s.rd F.PWR_THERM_LEVEL < 2 ^ 2 := fieldGet_lt ..
  refine ⟨fun h => .next (execTemperatureSample_low s h) ?_, fun h h' => .next (execTemperatureSample_warm s h h') (shownSample_warm s h),
    fun h => .next (execTemperatureSample_hot s h) ?_, fun h => .next (execThermalWindow_early tj w h) rfl,
    fun h h' => .next (execThermalWindow_trip w h h') (thermTrip_leaves s),
    fun h h' k => .next (execThermalWindow_hot h h' k) (windowed s _ _ hw (by omega)),
    fun h h' k k' => .next (execThermalWindow_between h h' k k') (windowed s _ _ hw hlv),
    fun h h' k => ⟨fun k' => ?_, fun k' => ?_⟩⟩
  · obtain ⟨h1, h2, h3, h4⟩ := shownSample_shows tj s
    exact ⟨h1, by rw [h2, if_neg (by omega)], h3, h4⟩
  · obtain ⟨k1, k2, k3, k4⟩ := thermTrip_leaves ((shownSample tj s).alert 0)
    exact shownSample_tripped (by omega) ⟨k1, k2, k3.trans ((fuses_alert ..).trans (shownSample_fuses tj s)), k4⟩
  · refine .next (execThermalWindow_cool h h' k) ?_
    rw [if_neg (by omega)]
    exact windowed s _ _ hw hlv
  · refine .next (execThermalWindow_cool h h' k) ?_
    rw [if_pos k']
    exact windowed s _ _ hw (by omega)

/-- Settles O39: each command from its equation, the registers of a reset from the straps. -/
theorem powerResetAndTemperature : Obligations.PowerResetAndTemperature := ⟨resetsAndPins, temperatureThrottlesAndTrips⟩

end Sys2Proof.Proofs
end

section
/-! SUPPORT. Memory as three maps, its bytes, its poison bits and its stored errors, and what leaves them as they are (R263, R340). -/

namespace Sys2Proof.Machine

/-- The maps that hold memory: bytes, poison bits, stored errors. -/
def mems (s : State) : List (Nat × Byte) × List (Nat × BitVec 2) × List (Nat × BitVec 8) := (s.mem, s.poison, s.synd)

@[simp] theorem mems_mk (pending cycle cycles time regs counters snaps mem poison synd sites sigAdds sigNext ringDue credNext ctl flight
    col hut memc cfg gate fuses board seedNext domPend lenPend lenNext evs hostSigs padOld arbs free out) :
    mems ⟨pending, cycle, cycles, time, regs, counters, snaps, mem, poison, synd, sites, sigAdds, sigNext, ringDue, credNext, ctl,
      flight, col, hut, memc, cfg, gate, fuses, board, seedNext, domPend, lenPend, lenNext, evs, hostSigs, padOld, arbs, free,
      out⟩ = (mem, poison, synd) := rfl

@[simp] theorem mems_eta (s : State) : (s.mem, s.poison, s.synd) = mems s := rfl

@[simp] theorem mems_ite (c : Prop) [Decidable c] (s t : State) : mems (if c then s else t) = if c then mems s else mems t :=
  apply_ite ..

@[simp] theorem mems_foldl {β : Type} (g : State → β → State) (l : List β) (s : State) (h : ∀ s x, mems (g s x) = mems s) :
    mems (l.foldl g s) = mems s := foldl_keep mems g h l s

theorem mems_of_snd {α : Type} {p : α × State} {x : α} {t : State} (h : p = (x, t)) : mems t = mems p.2 := by rw [h]
theorem mems_of_snd_snd {α β : Type} {p : α × β × State} {x : α} {y : β} {t : State} (h : p = (x, y, t)) : mems t = mems p.2.2 := by rw [h]
theorem mems_of_fst {α : Type} {p : State × α} {x : α} {t : State} (h : p = (t, x)) : mems t = mems p.1 := by rw [h]

/-- A fold over pairs keeps what its steps keep. -/
theorem mems_foldl_snd {α β : Type} (g : α × State → β → α × State) (l : List β) (p : α × State) (h : ∀ (p : α × State) x, mems (g p x).2 = mems p.2) :
    mems (l.foldl g p).2 = mems p.2 := by
  induction l generalizing p with
  | nil => rfl
  | cons x l ih => exact (ih _).trans (h p x)

/-- What holds of the state that a command leaves, if it leaves one. -/
def After (P : State → Prop) : Host.Outcome State Fault Refusal → Prop
  | .next t => P t
  | _ => True

section
variable (P : State → Prop)
@[simp] theorem after_next (t : State) : After P (.next t) = P t := rfl
@[simp] theorem after_fault (f : Fault) : After P (.fault f) = True := rfl
@[simp] theorem after_refused (r : Refusal) : After P (.refused r) = True := rfl
@[simp] theorem after_ite (c : Prop) [Decidable c] (o o' : Host.Outcome State Fault Refusal) :
    After P (if c then o else o') = if c then After P o else After P o' := apply_ite ..
end

end Sys2Proof.Machine
end

section
/-! SUPPORT. What leaves memory as it is: every operation that writes no word of memory (R263, R340). -/

namespace Sys2Proof.Machine

/-! ### State operations -/

@[simp] theorem mems_setWord (s : State) (r : RegName) (a i : Nat) (w : Word) : mems (s.setWord r a i w) = mems s := by
  simp [State.setWord]

@[simp] theorem mems_wr (s : State) (f : Fld) (a i v : Nat) : mems (s.wr f a i v) = mems s := by
  simp [State.wr]

@[simp] theorem mems_wrs (s : State) (a i : Nat) (l : List (Fld × Nat)) : mems (s.wrs a i l) = mems s := by
  simp [State.wrs]

@[simp] theorem mems_note (s : State) (r : RegName) (a i : Nat) (rule : Word → Word) : mems (s.note r a i rule) = mems s := by
  simp [State.note]

@[simp] theorem mems_noteFlag (s : State) (f : Fld) (a i : Nat) : mems (s.noteFlag f a i) = mems s := by
  simp [State.noteFlag]

@[simp] theorem mems_count (s : State) (c : Ctr) (a n : Nat) : mems (s.count c a n) = mems s := by
  simp [State.count]

@[simp] theorem mems_setSite (s : State) (a : Nat) (x : Site) : mems (s.setSite a x) = mems s := by
  simp [State.setSite]

@[simp] theorem mems_modSite (s : State) (a : Nat) (f : Site → Site) : mems (s.modSite a f) = mems s := by
  simp [State.modSite]

@[simp] theorem mems_modSeq (s : State) (a : Nat) (f : SeqX → SeqX) : mems (s.modSeq a f) = mems s := by
  simp [State.modSeq]

@[simp] theorem mems_modMtx (s : State) (a : Nat) (f : MtxX → MtxX) : mems (s.modMtx a f) = mems s := by
  simp [State.modMtx]

@[simp] theorem mems_modVec (s : State) (a : Nat) (f : VecX → VecX) : mems (s.modVec a f) = mems s := by
  simp [State.modVec]

@[simp] theorem mems_modQueue (s : State) (a q : Nat) (f : QueueX → QueueX) : mems (s.modQueue a q f) = mems s := by
  simp [State.modQueue]

@[simp] theorem mems_modStr (s : State) (a n : Nat) (f : StrX → StrX) : mems (s.modStr a n f) = mems s := by
  simp [State.modStr]

@[simp] theorem mems_modSteer (s : State) (a n : Nat) (f : SteerX → SteerX) : mems (s.modSteer a n f) = mems s := by
  simp [State.modSteer]

@[simp] theorem mems_modSync (s : State) (a : Nat) (f : SyncX → SyncX) : mems (s.modSync a f) = mems s := by
  simp [State.modSync]

@[simp] theorem mems_modLink (s : State) (a d : Nat) (f : LinkX → LinkX) : mems (s.modLink a d f) = mems s := by
  simp [State.modLink]

@[simp] theorem mems_modHut (s : State) (f : HutX → HutX) : mems (s.modHut f) = mems s := by
  simp [State.modHut]

@[simp] theorem mems_modSect (s : State) (e : Nat) (f : SectX → SectX) : mems (s.modSect e f) = mems s := by
  unfold State.modSect
  split <;> simp

@[simp] theorem mems_emit (s : State) (o : Output) : mems (s.emit o) = mems s := by
  simp [State.emit]

@[simp] theorem mems_fresh (s : State) : mems s.fresh.2 = mems s := by
  simp [State.fresh]

@[simp] theorem mems_noteEcc (s : State) (a memCode wordIx : Nat) (sy : Byte) : mems (s.noteEcc a memCode wordIx sy) = mems s := by
  simp [State.noteEcc]

@[simp] theorem mems_noteSpan (s : State) (a memCode base n synd : Nat) : mems (s.noteSpan a memCode base n synd) = mems s := by
  simp [State.noteSpan]

@[simp] theorem mems_setSig (s : State) (a c v : Nat) : mems (s.setSig a c v) = mems s := by
  simp [State.setSig]

@[simp] theorem mems_sigAdd (s : State) (id n : Nat) : mems (s.sigAdd id n) = mems s := by
  simp [State.sigAdd]

@[simp] theorem mems_applyAdd (s : State) (id n : Nat) : mems (s.applyAdd id n) = mems s := by
  simp [State.applyAdd]

@[simp] theorem mems_giveCredit (s : State) (a n : Nat) : mems (s.giveCredit a n) = mems s := by
  simp [State.giveCredit]

@[simp] theorem mems_ringConsume (s : State) (id : Nat) : mems (s.ringConsume id) = mems s := by
  unfold State.ringConsume
  dsimp only
  split <;> simp

@[simp] theorem mems_noteRelease (s : State) (part b : Nat) : mems (s.noteRelease part b) = mems s := by
  simp [State.noteRelease]

@[simp] theorem mems_emitRelease (s : State) (b part : Nat) : mems (s.emitRelease b part) = mems s := by
  simp [State.emitRelease]

@[simp] theorem mems_endCycle (s : State) : mems s.endCycle = mems s := by
  unfold State.endCycle
  split <;> simp

@[simp] theorem mems_countDelay (s : State) (n : Nat) : mems (s.countDelay n) = mems s := by
  simp [State.countDelay]

@[simp] theorem mems_skip (s : State) (n : Nat) : mems (s.skip n) = mems s := by
  simp [State.skip]

@[simp] theorem mems_elapse (s : State) (n : Nat) : mems (s.elapse n) = mems s := by
  match n with
  | 0 => rfl
  | 1 => exact mems_endCycle s
  | 2 => exact (mems_endCycle _).trans (mems_endCycle s)
  | n + 3 => exact ((mems_endCycle _).trans (mems_endCycle _)).trans (mems_endCycle s)

@[simp] theorem mems_pass (s : State) (n : Nat) : mems (s.pass n) = mems s := by
  simp [State.pass]

@[simp] theorem mems_at_ (s : State) (t : Nat) : mems (s.at_ t) = mems s := by
  simp [State.at_]

@[simp] theorem mems_countRefusals (s : State) (k : ArbKey) (n : Nat) : mems (s.countRefusals k n) = mems s := by
  unfold State.countRefusals
  split <;> simp

@[simp] theorem mems_take (s : State) (k : ArbKey) (r n : Nat) : mems (s.take k r n) = mems s := by
  unfold State.take
  dsimp only
  split <;> simp

@[simp] theorem mems_refuse (s : State) (k : ArbKey) (r : Nat) : mems (s.refuse k r) = mems s := by
  simp [State.refuse]

@[simp] theorem mems_askAll (s : State) (l : List Ask) : mems (s.askAll l).2 = mems s := by
  unfold State.askAll
  split <;> simp

@[simp] theorem mems_settleArbs (s : State) : mems s.settleArbs = mems s := by
  simp [State.settleArbs]

@[simp] theorem mems_failSite (s : State) (a cls code prog addr : Nat) : mems (s.failSite a cls code prog addr) = mems s := by
  unfold State.failSite
  split <;> simp

/-! ### Queues -/

@[simp] theorem mems_connOut (s : State) (a q kind dst conn : Nat) : mems (s.connOut a q kind dst conn) = mems s := by
  simp [State.connOut]

@[simp] theorem mems_touch (s : State) (a q : Nat) : mems (s.touch a q) = mems s := by
  simp [State.touch]

@[simp] theorem mems_openDyn (s : State) (a q : Nat) : mems (s.openDyn a q) = mems s := by
  simp [State.openDyn]

@[simp] theorem mems_qAlloc (s : State) (a q : Nat) (l : List QItem) : mems (s.qAlloc a q l) = mems s := by
  simp [State.qAlloc]

@[simp] theorem mems_qPush (s : State) (a q : Nat) (e : Entry) : mems (s.qPush a q e) = mems s := by
  simp [State.qPush]

@[simp] theorem mems_qFill (s : State) (a q : Nat) (e : Entry) : mems (s.qFill a q e) = mems s := by
  simp [State.qFill]

@[simp] theorem mems_oweCredit (s : State) (a q : Nat) : mems (s.oweCredit a q) = mems s := by
  simp [State.oweCredit]

@[simp] theorem mems_qPop (s : State) (a q : Nat) : mems (s.qPop a q).2 = mems s := by
  unfold State.qPop
  split <;> simp

@[simp] theorem mems_qPops (s : State) (a q n : Nat) : mems (s.qPops a q n).2 = mems s := by
  induction n generalizing s with
  | zero => rfl
  | succ n ih =>
    unfold State.qPops
    split
    · next h => simpa using mems_of_snd h
    · next h => simpa [ih] using mems_of_snd h

/-! ### Links -/

@[simp] theorem mems_setLink (s : State) (a : Nat) (d : Dir) (v : Nat) : mems (s.setLink a d v) = mems s := by
  simp [State.setLink]

@[simp] theorem mems_setDelay (s : State) (a : Nat) (d : Dir) (v : Nat) : mems (s.setDelay a d v) = mems s := by
  simp [State.setDelay]

@[simp] theorem mems_setSlot (s : State) (a : Nat) (d : Dir) (n v : Nat) : mems (s.setSlot a d n v) = mems s := by
  simp [State.setSlot]

@[simp] theorem mems_countFlits (s : State) (a slot n : Nat) : mems (s.countFlits a slot n) = mems s := by
  simp [State.countFlits]

@[simp] theorem mems_launchAt (s : State) (a : Nat) (d : Dir) (t : Nat) (f : Flit) : mems (s.launchAt a d t f) = mems s := by
  simp [State.launchAt]

@[simp] theorem mems_drain (s : State) (a : Nat) (d : Dir) : mems (s.drain a d) = mems s := by
  simp [State.drain]

@[simp] theorem mems_drainSite (s : State) (a : Nat) : mems (s.drainSite a) = mems s := by
  simp [State.drainSite]

@[simp] theorem mems_sendOn (s : State) (a : Nat) (d : Dir) (f : Flit) : mems (s.sendOn a d f) = mems s := by
  simp [State.sendOn]

@[simp] theorem mems_tookCtl (s : State) (p : CtlMsg → Bool) : mems (s.tookCtl p) = mems s := by
  simp [State.tookCtl]

@[simp] theorem mems_ctlHop (s : State) (a : Nat) (d : Dir) (onward : List CtlWait) (f : Flit) (x k : Nat) :
    mems (s.ctlHop a d onward f x k).2 = mems s := by
  simp [State.ctlHop]

@[simp] theorem mems_ctlPass (s : State) (f : Flit) (l : List (Nat × Dir)) (x k : Nat) : mems (s.ctlPass f l x k) = mems s := by
  induction l generalizing s x k with
  | nil => rfl
  | cons y l ih =>
    unfold State.ctlPass
    simp [ih]

@[simp] theorem mems_sendCtl (s : State) (a b : Nat) (m : CtlMsg) : mems (s.sendCtl a b m) = mems s := by
  unfold State.sendCtl
  split <;> simp

@[simp] theorem mems_launchRun (s : State) (a : Nat) (d : Dir) (f : Flit) (n : Nat) : mems (s.launchRun a d f n) = mems s := by
  simp [State.launchRun]

@[simp] theorem mems_sendSvc (s : State) (f : Flit) (n : Nat) (l : List (Nat × Dir)) (k : Nat) :
    mems (s.sendSvc f n l k) = mems s := by
  induction l generalizing s k with
  | nil => rfl
  | cons y l ih =>
    unfold State.sendSvc
    simp [ih]

@[simp] theorem mems_svcTo (s : State) (a b n : Nat) : mems (s.svcTo a b n) = mems s := by
  unfold State.svcTo
  split <;> simp

@[simp] theorem mems_svcIn (s : State) (a n : Nat) : mems (s.svcIn a n) = mems s := by
  simp [State.svcIn]

@[simp] theorem mems_svcOut (s : State) (a n : Nat) : mems (s.svcOut a n) = mems s := by
  simp [State.svcOut]

@[simp] theorem mems_inject (s : State) (a q : Nat) (f : Flit) (entries : Nat) : mems (s.inject a q f entries) = mems s := by
  simp [State.inject]

/-! ### Events -/

@[simp] theorem mems_modQp (s : State) (n : Nat) (f : QpX → QpX) : mems (s.modQp n f) = mems s := by
  simp [State.modQp]

@[simp] theorem mems_modGate (s : State) (f : GateX → GateX) : mems (s.modGate f) = mems s := by
  simp [State.modGate]

@[simp] theorem mems_eventTo (s : State) (n kind : Nat) (body : List Nat) : mems (s.eventTo n kind body) = mems s := by
  simp [State.eventTo]

@[simp] theorem mems_event (s : State) (to_ : Nat → Bool) (kind : Nat) (body : List Nat) : mems (s.event to_ kind body) = mems s := by
  simp [State.event]

@[simp] theorem mems_setSect (s : State) (e st cls code : Nat) : mems (s.setSect e st cls code) = mems s := by
  simp [State.setSect]

@[simp] theorem mems_logPoison (s : State) (p kind site addr : Nat) : mems (s.logPoison p kind site addr) = mems s := by
  simp [State.logPoison]

@[simp] theorem mems_poisonPart (s : State) (p job kind site addr : Nat) : mems (s.poisonPart p job kind site addr) = mems s := by
  simp [State.poisonPart]

@[simp] theorem mems_poisonSite (s : State) (a kind addr : Nat) : mems (s.poisonSite a kind addr) = mems s := by
  unfold State.poisonSite
  split <;> simp

@[simp] theorem mems_alert (s : State) (k : Nat) : mems (s.alert k) = mems s := by
  simp [State.alert]

@[simp] theorem mems_record (s : State) (type unit : Nat) (state : Bool) (detail : List Nat) :
    mems (s.record type unit state detail) = mems s := by
  simp [State.record]

@[simp] theorem mems_spurRecord (s : State) (n : Nat) : mems (s.spurRecord n) = mems s := by
  simp [State.spurRecord]

@[simp] theorem mems_suspect (s : State) (a code : Nat) : mems (s.suspect a code) = mems s := by
  simp [State.suspect]

/-! ### Operands -/

@[simp] theorem mems_noteReads (s : State) (a memCode base x n : Nat) : mems (s.noteReads a memCode base x n) = mems s := by
  simp [State.noteReads]

@[simp] theorem mems_decodeLines (s : State) (a : Nat) (ls : List Nat) : mems (s.decodeLines a ls) = mems s := by
  simp [State.decodeLines]

/-! ### Flags -/

@[simp] theorem mems_raiseVec (s : State) (a fl : Nat) : mems (s.raiseVec a fl) = mems s := by
  simp [State.raiseVec]

@[simp] theorem mems_raiseMor (s : State) (a slot : Nat) (sat inf nan : Bool) : mems (s.raiseMor a slot sat inf nan) = mems s := by
  simp [State.raiseMor]

@[simp] theorem mems_raiseBadTag (s : State) (a : Nat) (bad : Bool) : mems (s.raiseBadTag a bad) = mems s := by
  simp [State.raiseBadTag]

@[simp] theorem mems_raiseTook (s : State) (a slot : Nat) (t : BitVec 3) : mems (s.raiseTook a slot t) = mems s := by
  simp [State.raiseTook]

/-! ### The sequencer -/

@[simp] theorem mems_setLc (s : State) (a k v : Nat) : mems (s.setLc a k v) = mems s := by
  simp [State.setLc]

@[simp] theorem mems_setPred (s : State) (a n : Nat) (b : Bool) : mems (s.setPred a n b) = mems s := by
  simp [State.setPred]

@[simp] theorem mems_seqTrap (s : State) (a src cls code : Nat) : mems (s.seqTrap a src cls code) = mems s := by
  unfold State.seqTrap
  split <;> simp

@[simp] theorem mems_seqStop (s : State) (a : Nat) : mems (s.seqStop a) = mems s := by
  simp [State.seqStop]

@[simp] theorem mems_countHold (s : State) (a kind n : Nat) : mems (s.countHold a kind n) = mems s := by
  unfold State.countHold
  split <;> simp

@[simp] theorem mems_settleHold (s : State) (a : Nat) : mems (s.settleHold a) = mems s := by
  unfold State.settleHold
  split <;> simp

@[simp] theorem mems_seqHold (s : State) (a kind id : Nat) : mems (s.seqHold a kind id) = mems s := by
  simp [State.seqHold]

@[simp] theorem mems_loopEnd (a pc : Nat) (l : List LoopFrame) (s : State) : mems (loopEnd a pc l s).2.2 = mems s := by
  induction l generalizing s with
  | nil => rfl
  | cons f l ih =>
    unfold loopEnd
    dsimp only
    split
    · split
      · exact mems_setLc ..
      · exact (ih _).trans (mems_setLc ..)
    · rfl

@[simp] theorem mems_issued (s : State) (a : Nat) (fl : Machine.Flow) : mems (s.issued a fl) = mems s := by
  unfold State.issued
  split <;> simp

@[simp] theorem mems_issueWith (p : At) (i : SeqInstr) (pre : State → State) (chk : State → Att) (eff : State → State) (flow : Machine.Flow) (s : State) (hpre : ∀ u, mems (pre u) = mems u) (heff : ∀ u, mems (eff u) = mems u) :
    mems (issueWith p i pre chk eff flow s) = mems s := by
  unfold issueWith
  dsimp only
  repeat' split
  all_goals simp [*]

@[simp] theorem mems_seqCmd (p : At) (i : SeqInstr) (eff : State → State) (flow : Machine.Flow) (s : State) (heff : ∀ u, mems (eff u) = mems u) :
    mems (seqCmd p i eff flow s) = mems s := by
  unfold seqCmd
  exact mems_issueWith _ _ _ _ _ _ _ (fun _ => rfl) heff

@[simp] theorem mems_execNop (p : At) (g : Guard) (s : State) : After (fun t => mems t = mems s) (execNop p g s) := by
  simp [execNop]

@[simp] theorem mems_endEffect (a : Nat) (s : State) : mems (endEffect a s) = mems s := by
  simp [endEffect]

@[simp] theorem mems_execSeqEnd (p : At) (g : Guard) (s : State) : After (fun t => mems t = mems s) (execSeqEnd p g s) := by
  simp [execSeqEnd]

@[simp] theorem mems_execBr (p : At) (o : BrOps) (s : State) : After (fun t => mems t = mems s) (execBr p o s) := by
  simp [execBr]

@[simp] theorem mems_loopEffect (a : Nat) (o : LoopOps) (s : State) : mems (loopEffect a o s) = mems s := by
  simp [loopEffect]

@[simp] theorem mems_execLoop (p : At) (o : LoopOps) (s : State) : After (fun t => mems t = mems s) (execLoop p o s) := by
  simp [execLoop]

@[simp] theorem mems_execLset (p : At) (o : LcOps) (s : State) : After (fun t => mems t = mems s) (execLset p o s) := by
  simp [execLset]

@[simp] theorem mems_execLadd (p : At) (o : LcOps) (s : State) : After (fun t => mems t = mems s) (execLadd p o s) := by
  simp [execLadd]

@[simp] theorem mems_execPset (p : At) (o : PsetOps) (s : State) : After (fun t => mems t = mems s) (execPset p o s) := by
  simp [execPset]

@[simp] theorem mems_qtryEffect (a : Nat) (o : QtryOps) (s : State) : mems (qtryEffect a o s) = mems s := by
  simp [qtryEffect]

@[simp] theorem mems_execQtry (p : At) (o : QtryOps) (s : State) : After (fun t => mems t = mems s) (execQtry p o s) := by
  simp [execQtry]

@[simp] theorem mems_selEffect (a : Nat) (o : SelOps) (s : State) : mems (selEffect a o s) = mems s := by
  unfold selEffect
  split <;> simp

@[simp] theorem mems_execSel (p : At) (o : SelOps) (s : State) : After (fun t => mems t = mems s) (execSel p o s) := by
  simp [execSel]

@[simp] theorem mems_tpushEffect (a : Nat) (o : TpushOps) (s : State) : mems (tpushEffect a o s) = mems s := by
  simp [tpushEffect]

@[simp] theorem mems_execTpush (p : At) (o : TpushOps) (s : State) : After (fun t => mems t = mems s) (execTpush p o s) := by
  simp [execTpush]

@[simp] theorem mems_tableAdd (s : State) (a target n : Nat) : mems (s.tableAdd a target n) = mems s := by
  simp [State.tableAdd]

@[simp] theorem mems_sigEffect (a : Nat) (o : SigOps) (s : State) : mems (sigEffect a o s) = mems s := by
  simp [sigEffect]

@[simp] theorem mems_execSig (p : At) (o : SigOps) (s : State) : After (fun t => mems t = mems s) (execSig p o s) := by
  simp [execSig]

@[simp] theorem mems_execWait (p : At) (o : WaitOps) (s : State) : After (fun t => mems t = mems s) (execWait p o s) := by
  simp [execWait]

@[simp] theorem mems_arriveRegister (a : Nat) (o : ArriveOps) (s : State) : mems (arriveRegister a o s) = mems s := by
  simp [arriveRegister]

@[simp] theorem mems_arriveEffect (a : Nat) (o : ArriveOps) (s : State) : mems (arriveEffect a o s) = mems s := by
  simp [arriveEffect]

@[simp] theorem mems_execArrive (p : At) (o : ArriveOps) (s : State) : After (fun t => mems t = mems s) (execArrive p o s) := by
  simp [execArrive]

@[simp] theorem mems_claimRequest (a : Nat) (o : ClaimOps) (s : State) : mems (claimRequest a o s) = mems s := by
  simp [claimRequest]

@[simp] theorem mems_claimEffect (a : Nat) (o : ClaimOps) (s : State) : mems (claimEffect a o s) = mems s := by
  unfold claimEffect
  split <;> simp

@[simp] theorem mems_execClaim (p : At) (o : ClaimOps) (s : State) : After (fun t => mems t = mems s) (execClaim p o s) := by
  simp [execClaim]

@[simp] theorem mems_strBegin (s : State) (a n arg : Nat) : mems (s.strBegin a n arg) = mems s := by
  simp [State.strBegin]

@[simp] theorem mems_pfDone (s : State) (a : Nat) : mems (s.pfDone a) = mems s := by
  simp [State.pfDone]

@[simp] theorem mems_strFinish (s : State) (a n : Nat) : mems (s.strFinish a n) = mems s := by
  unfold State.strFinish
  dsimp only
  repeat' split
  all_goals simp

@[simp] theorem mems_strStart (s : State) (a n arg : Nat) : mems (s.strStart a n arg).2 = mems s := by
  unfold State.strStart
  split <;> simp

@[simp] theorem mems_strtEffect (a : Nat) (o : StrtOps) (s : State) : mems (strtEffect a o s) = mems s := by
  simp [strtEffect]

@[simp] theorem mems_execStrt (p : At) (o : StrtOps) (s : State) : After (fun t => mems t = mems s) (execStrt p o s) := by
  simp [execStrt]

@[simp] theorem mems_tmarkEffect (a : Nat) (o : TmarkOps) (s : State) : mems (tmarkEffect a o s) = mems s := by
  simp [tmarkEffect]

@[simp] theorem mems_execTmark (p : At) (o : TmarkOps) (s : State) : After (fun t => mems t = mems s) (execTmark p o s) := by
  simp [execTmark]

/-! ### The matrix engine -/

@[simp] theorem mems_readSlot (s : State) (a u lo n : Nat) : mems (s.readSlot a u lo n) = mems s := by
  unfold State.readSlot
  split <;> simp

@[simp] theorem mems_mtxSettle (s : State) (a : Nat) : mems (s.mtxSettle a) = mems s := by
  simp [State.mtxSettle]

@[simp] theorem mems_mtxPre (i : SeqInstr) (a : Nat) (s : State) : mems (mtxPre i a s) = mems s := by
  unfold mtxPre
  split <;> simp

@[simp] theorem mems_advance (s : State) (a n : Nat) : mems (s.advance a n) = mems s := by
  simp [State.advance]

@[simp] theorem mems_noteOpd (s : State) (a : Nat) (desc ops : Word) (tr : Bool) (K : Nat) :
    mems (s.noteOpd a desc ops tr K) = mems s := by
  simp [State.noteOpd]

@[simp] theorem mems_pushTile (s : State) (a : Nat) (x : Tile) (n rel budget : Nat) : mems (s.pushTile a x n rel budget) = mems s := by
  simp [State.pushTile]

@[simp] theorem mems_mmaEffect (a : Nat) (o : MmaOps) (s : State) : mems (mmaEffect a o s) = mems s := by
  simp [mmaEffect]

@[simp] theorem mems_mmergeEffect (a : Nat) (o : MmergeOps) (s : State) : mems (mmergeEffect a o s) = mems s := by
  simp [mmergeEffect]

@[simp] theorem mems_msaveEffect (a : Nat) (o : MsaveOps) (s : State) : mems (msaveEffect a o s) = mems s := by
  simp [msaveEffect]

@[simp] theorem mems_mfreeEffect (a : Nat) (o : MfreeOps) (s : State) : mems (mfreeEffect a o s) = mems s := by
  unfold mfreeEffect
  dsimp only
  split <;> simp

@[simp] theorem mems_mtxCmd (p : At) (i : SeqInstr) (eff : State → State) (s : State) (heff : ∀ u, mems (eff u) = mems u) :
    mems (mtxCmd p i eff s) = mems s := by
  unfold mtxCmd
  exact mems_issueWith _ _ _ _ _ _ _ (fun _ => by simp) heff

@[simp] theorem mems_execMma (p : At) (o : MmaOps) (s : State) : After (fun t => mems t = mems s) (execMma p o s) := by
  simp [execMma]

@[simp] theorem mems_execMmerge (p : At) (o : MmergeOps) (s : State) : After (fun t => mems t = mems s) (execMmerge p o s) := by
  simp [execMmerge]

@[simp] theorem mems_execMsave (p : At) (o : MsaveOps) (s : State) : After (fun t => mems t = mems s) (execMsave p o s) := by
  simp [execMsave]

@[simp] theorem mems_execMfree (p : At) (o : MfreeOps) (s : State) : After (fun t => mems t = mems s) (execMfree p o s) := by
  simp [execMfree]

@[simp] theorem mems_logDis (s : State) (a : Nat) (d : Dis) : mems (s.logDis a d).1 = mems s := by
  simp [State.logDis]

@[simp] theorem mems_setOutcome (s : State) (a o : Nat) (logged : Bool) : mems (s.setOutcome a o logged) = mems s := by
  unfold State.setOutcome
  split <;> simp

@[simp] theorem mems_setTile (s : State) (a i : Nat) (x : Tile) : mems (s.setTile a i x) = mems s := by
  simp [State.setTile]

@[simp] theorem mems_undecideTile (s : State) (a i : Nat) (x : Tile) : mems (s.undecideTile a i x) = mems s := by
  simp [State.undecideTile]

@[simp] theorem mems_mtxReplan (s : State) (a v from_ : Nat) : mems (s.mtxReplan a v from_) = mems s := by
  simp [State.mtxReplan]

@[simp] theorem mems_mtxSpend (s : State) (a : Nat) : mems (s.mtxSpend a) = mems s := by
  simp [State.mtxSpend]

@[simp] theorem mems_countRun (s : State) (a : Nat) (x : Tile) : mems (s.countRun a x) = mems s := by
  unfold State.countRun
  dsimp only
  repeat' split
  all_goals simp

@[simp] theorem mems_ranTags (s : State) (a : Nat) (x : Tile) : mems (s.ranTags a x) = mems s := by
  simp [State.ranTags]

@[simp] theorem mems_verdictFirst (a i : Nat) (x : Tile) (u : Upset) (s : State) : mems (verdictFirst a i x u s) = mems s := by
  unfold verdictFirst
  dsimp only
  split <;> simp

@[simp] theorem mems_verdictRerun (a i : Nat) (x : Tile) (s : State) : mems (verdictRerun a i x s) = mems s := by
  unfold verdictRerun
  split <;> simp

@[simp] theorem mems_atSite (p : At) (f : State → State) (s : State) (hf : ∀ u, mems (f u) = mems u) :
    mems (atSite p f s) = mems s := by
  unfold atSite
  split <;> simp [hf]

@[simp] theorem mems_atEngine (p : At) (f : State → State) (s : State) (hf : ∀ u, mems (f u) = mems u) :
    mems (atEngine p f s) = mems s := by
  unfold atEngine
  split <;> simp [hf]

@[simp] theorem mems_execTileVerdict (p : At) (u : Upset) (s : State) : After (fun t => mems t = mems s) (execTileVerdict p u s) := by
  refine mems_atEngine _ _ _ fun u => ?_
  dsimp only
  repeat' split
  all_goals simp

@[simp] theorem mems_execTileReexecution (p : At) (u : Upset) (s : State) :
    After (fun t => mems t = mems s) (execTileReexecution p u s) := by
  refine mems_atEngine _ _ _ fun u => ?_
  dsimp only
  repeat' split
  all_goals simp

@[simp] theorem mems_commitTags (s : State) (a : Nat) (x : Tile) : mems (s.commitTags a x) = mems s := by
  simp [State.commitTags]

@[simp] theorem mems_execTileCommit (p : At) (u : Upset) (s : State) : After (fun t => mems t = mems s) (execTileCommit p u s) := by
  refine mems_atEngine _ _ _ fun u => ?_
  dsimp only
  repeat' split
  all_goals simp

@[simp] theorem mems_mtxCredits (s : State) (a : Nat) (opds : List Nat) : mems (s.mtxCredits a opds) = mems s := by
  exact mems_foldl _ _ _ fun _ _ => rfl

@[simp] theorem mems_dropTile (s : State) (a : Nat) (x : Tile) : mems (s.dropTile a x) = mems s := by
  simp [State.dropTile]

@[simp] theorem mems_refResult (s : State) (a : Nat) (x : Tile) : mems (s.refResult a x) = mems s := by
  simp [State.refResult]

@[simp] theorem mems_releaseTile (s : State) (a : Nat) (x : Tile) : mems (s.releaseTile a x) = mems s := by
  simp [State.releaseTile]

@[simp] theorem mems_commitCheck (a : Nat) (x : Tile) (u : Upset) (s : State) : mems (commitCheck a x u s) = mems s := by
  unfold commitCheck
  split <;> simp

@[simp] theorem mems_execTileRelease (p : At) (u : Upset) (s : State) : After (fun t => mems t = mems s) (execTileRelease p u s) := by
  refine mems_atEngine _ _ _ fun u => ?_
  dsimp only
  repeat' split
  all_goals simp

@[simp] theorem mems_execPhysicalFree (p : At) (s : State) : After (fun t => mems t = mems s) (execPhysicalFree p s) := by
  simp [execPhysicalFree]

@[simp] theorem mems_execSkippedMmaRelease (p : At) (s : State) : After (fun t => mems t = mems s) (execSkippedMmaRelease p s) := by
  refine mems_atEngine _ _ _ fun u => ?_
  dsimp only
  repeat' split
  all_goals simp

/-! ### External memory -/

@[simp] theorem mems_setChan (s : State) (ch v : Nat) : mems (s.setChan ch v) = mems s := by
  simp [State.setChan]

@[simp] theorem mems_countUnserved (s : State) (x : Nat) : mems (s.countUnserved x) = mems s := by
  simp [State.countUnserved]

@[simp] theorem mems_poisonWords (s : State) (n : Nat) : mems (s.poisonWords n).2 = mems s := by
  induction n generalizing s with
  | zero => rfl
  | succ n ih => exact (ih _).trans (mems_fresh s)

@[simp] theorem mems_takeTurn (s : State) (ch : Nat) (o : TurnOwner) : mems (s.takeTurn ch o) = mems s := by
  simp [State.takeTurn]

@[simp] theorem mems_chanGrant (s : State) (ch : Nat) (r : Nat × Nat × Nat) : mems (s.chanGrant ch r) = mems s := by
  simp [State.chanGrant]

@[simp] theorem mems_cross (s : State) (k h : Nat) (r : Nat × Nat × Nat) : mems (s.cross k h r) = mems s := by
  simp [State.cross]

@[simp] theorem mems_countFrame (s : State) (k st : Nat) (o : FrameObs) : mems (s.countFrame k st o) = mems s := by
  simp [State.countFrame]

@[simp] theorem mems_deliver (s : State) (st : Nat) (l : List (Word × Bool)) : mems (s.deliver st l) = mems s := by
  simp [State.deliver]

@[simp] theorem mems_deliverPoison (s : State) (st : Nat) : mems (s.deliverPoison st) = mems s := by
  simp [State.deliverPoison]

@[simp] theorem mems_takeDelivered (s : State) (x n : Nat) : mems (s.takeDelivered x n).2 = mems s := by
  simp [State.takeDelivered]

@[simp] theorem mems_edgeTurn (s : State) (o : TurnOwner) (x : Nat) : mems (s.edgeTurn o x) = mems s := by
  have e : State.edgeTurn = delta% State.edgeTurn := rfl
  rw [e]
  beta_reduce
  generalize s.locate x = r
  match r with
  | .ok ch _ => exact mems_takeTurn ..
  | .unbacked => rfl
  | .retired _ => rfl

@[simp] theorem mems_execPeriodicTraining (ch : ChanNo) (ok : Bool) (s : State) :
    After (fun t => mems t = mems s) (execPeriodicTraining ch ok s) := by
  simp [execPeriodicTraining]

@[simp] theorem mems_execBankRefresh (ch : ChanNo) (bank : BitVec 4) (s : State) :
    After (fun t => mems t = mems s) (execBankRefresh ch bank s) := by
  simp [execBankRefresh]

@[simp] theorem mems_execChannelMark (ch : ChanNo) (s : State) : After (fun t => mems t = mems s) (execChannelMark ch s) := by
  simp [execChannelMark]

@[simp] theorem mems_reformMap (s : State) (k : Nat) : mems (s.reformMap k) = mems s := by
  simp [State.reformMap]

/-! ### Stream programs -/

@[simp] theorem mems_setAreg (s : State) (a n k v : Nat) : mems (s.setAreg a n k v) = mems s := by
  simp [State.setAreg]

@[simp] theorem mems_strTrap (s : State) (a n code : Nat) : mems (s.strTrap a n code) = mems s := by
  unfold State.strTrap
  dsimp only
  repeat' split
  all_goals simp

@[simp] theorem mems_settleCredit (s : State) (a n : Nat) : mems (s.settleCredit a n) = mems s := by
  unfold State.settleCredit
  split <;> simp

@[simp] theorem mems_agIssued (s : State) (a n : Nat) (skip : Option Nat) : mems (s.agIssued a n skip) = mems s := by
  simp [State.agIssued]

@[simp] theorem mems_agMove (s : State) (a n : Nat) : mems (s.agMove a n) = mems s := by
  simp [State.agMove]

@[simp] theorem mems_agCmd (p : PAt) (i : AgInstr) (eff : Nat → Nat → State → State) (skip : Option Nat) (s : State) (heff : ∀ a n u, mems (eff a n u) = mems u) :
    mems (agCmd p i eff skip s) = mems s := by
  unfold agCmd
  dsimp only
  repeat' split
  all_goals simp [*]

@[simp] theorem mems_execAset (p : PAt) (ad : BitVec 3) (imm : BitVec 48) (s : State) :
    After (fun t => mems t = mems s) (execAset p ad imm s) := by
  simp [execAset]

@[simp] theorem mems_execAadd (p : PAt) (ad src : BitVec 3) (imm : BitVec 32) (s : State) :
    After (fun t => mems t = mems s) (execAadd p ad src imm s) := by
  simp [execAadd]

@[simp] theorem mems_execAarg (p : PAt) (ad src : BitVec 3) (sh : BitVec 6) (s : State) :
    After (fun t => mems t = mems s) (execAarg p ad src sh s) := by
  simp [execAarg]

@[simp] theorem mems_execAloop (p : PAt) (last : BitVec 9) (count : BitVec 16) (s : State) :
    After (fun t => mems t = mems s) (execAloop p last count s) := by
  simp [execAloop]

@[simp] theorem mems_takeCredit (s : State) (a n : Nat) : mems (s.takeCredit a n) = mems s := by
  simp [State.takeCredit]

@[simp] theorem mems_copyEffect (o : CopyOps) (a n : Nat) (s : State) : mems (copyEffect o a n s) = mems s := by
  simp [copyEffect]

@[simp] theorem mems_execCopy (p : PAt) (o : CopyOps) (s : State) : After (fun t => mems t = mems s) (execCopy p o s) := by
  simp [execCopy]

@[simp] theorem mems_laneSignal (s : State) (a q cnt add : Nat) : mems (s.laneSignal a q cnt add) = mems s := by
  simp [State.laneSignal]

@[simp] theorem mems_execSignal (p : PAt) (rem : Bool) (cnt : BitVec 5) (add : BitVec 16) (s : State) :
    After (fun t => mems t = mems s) (execSignal p rem cnt add s) := by
  simp [execSignal]

@[simp] theorem mems_execFence (p : PAt) (s : State) : After (fun t => mems t = mems s) (execFence p s) := by
  simp [execFence]

@[simp] theorem mems_execStreamProgramEnd (p : PAt) (s : State) : After (fun t => mems t = mems s) (execStreamProgramEnd p s) := by
  simp [execStreamProgramEnd]

@[simp] theorem mems_putReq (s : State) (a n : Nat) (r : NextReq) (out : Nat) : mems (s.putReq a n r out).2 = mems s := by
  simp [State.putReq]

@[simp] theorem mems_extRequest (s : State) (a n y : Nat) (r : NextReq) : mems (s.extRequest a n y r) = mems s := by
  unfold State.extRequest
  repeat' split
  all_goals simp

@[simp] theorem mems_laneSend (s : State) (a q k : Nat) : mems (s.laneSend a q k) = mems s := by
  simp [State.laneSend]

@[simp] theorem mems_streamRequest (a n : Nat) (s : State) : mems (streamRequest a n s) = mems s := by
  unfold streamRequest
  repeat' split
  all_goals simp

@[simp] theorem mems_execStreamRequest (p : PAt) (s : State) : After (fun t => mems t = mems s) (execStreamRequest p s) := by
  simp [execStreamRequest]

@[simp] theorem mems_leaveCrossing (s : State) (y : Nat) (r : Nat × Nat × Nat) : mems (s.leaveCrossing y r) = mems s := by
  have e : State.leaveCrossing = delta% State.leaveCrossing := rfl
  rw [e]
  beta_reduce
  generalize s.locate y = l
  match l with
  | .ok ch _ =>
    dsimp only
    split
    · simp
    · rfl
  | .unbacked => rfl
  | .retired _ => rfl

@[simp] theorem mems_extReady (s : State) (y : Nat) (r : Nat × Nat × Nat) : mems (s.extReady y r).2 = mems s := by
  unfold State.extReady
  dsimp only
  repeat' split
  all_goals simp

@[simp] theorem mems_outputPoison (s : State) (a x : Nat) (l : List RawWord) : mems (s.outputPoison a x l) = mems s := by
  unfold State.outputPoison
  repeat' split
  all_goals simp

@[simp] theorem mems_keepPad (s : State) (x n : Nat) : mems (s.keepPad x n) = mems s := by
  simp [State.keepPad]

@[simp] theorem mems_answerReq (s : State) (a n : Nat) (r : Req) : mems (s.answerReq a n r) = mems s := by
  simp [State.answerReq]

@[simp] theorem mems_retireCopies (s : State) (a n k : Nat) : mems (s.retireCopies a n k) = mems s := by
  induction k generalizing s with
  | zero => rfl
  | succ k ih =>
    unfold State.retireCopies
    split
    · split
      · simp [ih]
      · rfl
    · rfl

@[simp] theorem mems_finishReq (s : State) (a n : Nat) (q : Req) : mems (s.finishReq a n q) = mems s := by
  simp [State.finishReq]

@[simp] theorem mems_reqReady (s : State) (a n : Nat) (q : Req) : mems (s.reqReady a n q).2 = mems s := by
  unfold State.reqReady
  dsimp only
  repeat' split
  all_goals simp

@[simp] theorem mems_execStreamProgramCompletion (p : PAt) (s : State) :
    After (fun t => mems t = mems s) (execStreamProgramCompletion p s) := by
  simp [execStreamProgramCompletion]

@[simp] theorem mems_recordProg (s : State) (a n : Nat) : mems (s.recordProg a n) = mems s := by
  simp [State.recordProg]

/-! ### The completion of requests -/

@[simp] theorem mems_complete (s : State) (c : Ctx) (op cls code result detail : Nat) :
    mems (s.complete c op cls code result detail) = mems s := by
  simp [State.complete]

@[simp] theorem mems_ok (s : State) (c : Ctx) (op result : Nat) : mems (s.ok c op result) = mems s := by
  simp [State.ok]

@[simp] theorem mems_status (s : State) (c : Ctx) (op code : Nat) : mems (s.status c op code) = mems s := by
  simp [State.status]

/-! ### The vector engine -/

@[simp] theorem mems_vecAdvance (s : State) (a n : Nat) : mems (s.vecAdvance a n) = mems s := by
  simp [State.vecAdvance]

@[simp] theorem mems_vecAlloc (s : State) (a q n : Nat) : mems (s.vecAlloc a q n) = mems s := by
  simp [State.vecAlloc]

@[simp] theorem mems_vecEffect (i : SeqInstr) (a : Nat) (s : State) : mems (vecEffect i a s) = mems s := by
  unfold vecEffect
  dsimp only
  repeat' split
  all_goals simp

@[simp] theorem mems_vecCmd (p : At) (i : SeqInstr) (s : State) : mems (vecCmd p i s) = mems s := by
  simp [vecCmd]

@[simp] theorem mems_execVop (p : At) (o : VopOps) (s : State) : After (fun t => mems t = mems s) (execVop p o s) := by
  simp [execVop]

@[simp] theorem mems_execVrd (p : At) (o : VrdOps) (s : State) : After (fun t => mems t = mems s) (execVrd p o s) := by
  simp [execVrd]

@[simp] theorem mems_execVcvt (p : At) (o : VcvtOps) (s : State) : After (fun t => mems t = mems s) (execVcvt p o s) := by
  simp [execVcvt]

@[simp] theorem mems_execVred (p : At) (o : VredOps) (s : State) : After (fun t => mems t = mems s) (execVred p o s) := by
  simp [execVred]

@[simp] theorem mems_execVld (p : At) (o : VmemOps) (s : State) : After (fun t => mems t = mems s) (execVld p o s) := by
  simp [execVld]

@[simp] theorem mems_execVst (p : At) (o : VmemOps) (s : State) : After (fun t => mems t = mems s) (execVst p o s) := by
  simp [execVst]

@[simp] theorem mems_execVimm (p : At) (o : VimmOps) (s : State) : After (fun t => mems t = mems s) (execVimm p o s) := by
  simp [execVimm]

@[simp] theorem mems_popSrcs (s : State) (a : Nat) (x : VInst) (l : List (Nat × Word)) (seen : List (Nat × List Entry)) :
    mems (s.popSrcs a x l seen).2 = mems s := by
  induction l generalizing s seen with
  | nil => rfl
  | cons y l ih =>
    unfold State.popSrcs
    dsimp only
    split
    · split <;> simp [ih]
    · exact ih _ _

@[simp] theorem mems_vecRow (s : State) (a : Nat) (x : VInst) : mems (s.vecRow a x).2 = mems s := by
  unfold State.vecRow
  dsimp only
  repeat' split
  all_goals simp

@[simp] theorem mems_execVectorRowEntry (p : At) (s : State) : After (fun t => mems t = mems s) (execVectorRowEntry p s) := by
  refine mems_atEngine _ _ _ fun u => ?_
  dsimp only
  repeat' split
  all_goals simp

@[simp] theorem mems_putLine (s : State) (a n : Nat) (x : Line) : mems (s.putLine a n x) = mems s := by
  simp [State.putLine]

@[simp] theorem mems_putScales (s : State) (a : Nat) (d : Word) (r : Nat) (sc : List Nat) (p : Bool) :
    mems (s.putScales a d r sc p) = mems s := by
  unfold State.putScales
  split <;> simp

@[simp] theorem mems_vecCredits (s : State) (a : Nat) (y : VRow) : mems (s.vecCredits a y) = mems s := by
  unfold State.vecCredits
  dsimp only
  split
  · split
    · exact mems_foldl _ _ _ fun _ _ => rfl
    · exact mems_foldl _ _ _ fun _ _ => rfl
    · rfl
  · rfl

@[simp] theorem mems_refRow (s : State) (a : Nat) (y : VRow) : mems (s.refRow a y) = mems s := by
  simp [State.refRow]

@[simp] theorem mems_undecideRow (s : State) (a : Nat) (y : VRow) : mems (s.undecideRow a y) = mems s := by
  simp [State.undecideRow]

/-! ### Steering units -/

@[simp] theorem mems_steerPush (s : State) (a n q : Nat) (e : Entry) (first : Bool) (len : Nat) :
    mems (s.steerPush a n q e first len) = mems s := by
  simp [State.steerPush]

@[simp] theorem mems_steerCmd (p : At) (unit : BitVec 3) (md : Nat) (f : Nat → Nat → State → State) (s : State) (hf : ∀ a n u, mems (f a n u) = mems u) :
    mems (steerCmd p unit md f s) = mems s := by
  unfold steerCmd
  refine mems_atSite _ _ _ fun u => ?_
  dsimp only
  split <;> simp [hf]

@[simp] theorem mems_tokenIntake (a n : Nat) (s : State) : mems (tokenIntake a n s) = mems s := by
  unfold tokenIntake
  dsimp only
  repeat' split
  all_goals simp

@[simp] theorem mems_execQueueTokenIntake (p : At) (unit : BitVec 3) (s : State) :
    After (fun t => mems t = mems s) (execQueueTokenIntake p unit s) := by
  simp [execQueueTokenIntake]

@[simp] theorem mems_dataIntake (a n : Nat) (s : State) : mems (dataIntake a n s) = mems s := by
  unfold dataIntake
  dsimp only
  split
  · rfl
  · split
    · next h => simpa using mems_of_snd h
    · next h => simpa using mems_of_snd h

@[simp] theorem mems_execSteerDataIntake (p : At) (unit : BitVec 3) (s : State) :
    After (fun t => mems t = mems s) (execSteerDataIntake p unit s) := by
  simp [execSteerDataIntake]

@[simp] theorem mems_steerMoved (s : State) (a n left : Nat) : mems (s.steerMoved a n left) = mems s := by
  simp [State.steerMoved]

@[simp] theorem mems_steerFire (a n : Nat) (s : State) : mems (steerFire a n s) = mems s := by
  unfold steerFire
  dsimp only
  split <;> simp

@[simp] theorem mems_execSteerFire (p : At) (unit : BitVec 3) (s : State) :
    After (fun t => mems t = mems s) (execSteerFire p unit s) := by
  simp [execSteerFire]

@[simp] theorem mems_mergeIntake (a n : Nat) (s : State) : mems (mergeIntake a n s) = mems s := by
  unfold mergeIntake
  dsimp only
  split
  · rfl
  · split
    · rfl
    · split
      · simp
      · split
        · next h => simpa using mems_of_snd h
        · next h => simpa using mems_of_snd h

@[simp] theorem mems_execMergeIntake (p : At) (unit : BitVec 3) (s : State) :
    After (fun t => mems t = mems s) (execMergeIntake p unit s) := by
  simp [execMergeIntake]

@[simp] theorem mems_mergeFire (a n : Nat) (s : State) : mems (mergeFire a n s) = mems s := by
  unfold mergeFire
  dsimp only
  repeat' split
  all_goals simp

@[simp] theorem mems_execMergeFire (p : At) (unit : BitVec 3) (s : State) :
    After (fun t => mems t = mems s) (execMergeFire p unit s) := by
  simp [execMergeFire]

/-! ### The traverse -/

@[simp] theorem mems_forward (s : State) (a : Nat) (d : Dir) (f : Flit) : mems (s.forward a d f) = mems s := by
  simp [State.forward]

@[simp] theorem mems_flitArrival (a : Nat) (d : Dir) (f : Flit) (s : State) : mems (flitArrival a d f s) = mems s := by
  unfold flitArrival
  dsimp only
  repeat' split
  all_goals simp

@[simp] theorem mems_execFlitArrival (site : SiteId) (d : Dir) (f : Flit) (s : State) :
    After (fun t => mems t = mems s) (execFlitArrival site d f s) := by
  simp [execFlitArrival]

@[simp] theorem mems_linkNak (a : Nat) (d : Dir) (w : Byte) (s : State) : mems (linkNak a d w s) = mems s := by
  simp [linkNak]

@[simp] theorem mems_execLinkNak (site : SiteId) (d : Dir) (w : Byte) (s : State) :
    After (fun t => mems t = mems s) (execLinkNak site d w s) := by
  simp [execLinkNak]

@[simp] theorem mems_holdLineDrop (a : Nat) (d : Dir) (s : State) : mems (holdLineDrop a d s) = mems s := by
  simp [holdLineDrop]

@[simp] theorem mems_execHoldLineDrop (site : SiteId) (d : Dir) (s : State) :
    After (fun t => mems t = mems s) (execHoldLineDrop site d s) := by
  simp [execHoldLineDrop]

@[simp] theorem mems_linkDead (a : Nat) (d : Dir) (c : LinkCause) (s : State) : mems (linkDead a d c s) = mems s := by
  simp [linkDead]

@[simp] theorem mems_execLinkDead (site : SiteId) (d : Dir) (c : LinkCause) (s : State) :
    After (fun t => mems t = mems s) (execLinkDead site d c s) := by
  simp [execLinkDead]

@[simp] theorem mems_linkMark (a : Nat) (d : Dir) (s : State) : mems (linkMark a d s) = mems s := by
  unfold linkMark
  repeat' split
  all_goals simp

@[simp] theorem mems_execLinkMark (site : SiteId) (d : Dir) (s : State) :
    After (fun t => mems t = mems s) (execLinkMark site d s) := by
  simp [execLinkMark]

@[simp] theorem mems_settleRc (s : State) (a q : Nat) : mems (s.settleRc a q) = mems s := by
  unfold State.settleRc
  split <;> simp

@[simp] theorem mems_rcWait (s : State) (a q : Nat) : mems (s.rcWait a q) = mems s := by
  simp [State.rcWait]

@[simp] theorem mems_joinFlit (s : State) (a q : Nat) (item : QItem) : mems (s.joinFlit a q item) = mems s := by
  simp [State.joinFlit]

@[simp] theorem mems_sendItem (s : State) (a q : Nat) (item : QItem) : mems (s.sendItem a q item) = mems s := by
  simp [State.sendItem]

@[simp] theorem mems_departTo (s : State) (a q : Nat) (item : QItem) (dsts : List Nat) : mems (s.departTo a q item dsts) = mems s := by
  simp [State.departTo]

@[simp] theorem mems_detach (s : State) (a q : Nat) (r : Nat × Nat) : mems (s.detach a q r) = mems s := by
  simp [State.detach]

@[simp] theorem mems_departMcast (a q : Nat) (item : QItem) (s : State) : mems (departMcast a q item s) = mems s := by
  simp [departMcast]

@[simp] theorem mems_ringPlace (a q : Nat) (s : State) : mems (ringPlace a q s).2 = mems s := by
  unfold ringPlace
  dsimp only
  repeat' split
  all_goals simp

@[simp] theorem mems_nextSeq (s : State) (a q : Nat) : mems (s.nextSeq a q) = mems s := by
  simp [State.nextSeq]

@[simp] theorem mems_ringPut (s : State) (a q pos : Nat) (e : Entry) (k : Nat) : mems (s.ringPut a q pos e k) = mems s := by
  simp [State.ringPut]

@[simp] theorem mems_ringPad (a q pad : Nat) (s : State) : mems (ringPad a q pad s) = mems s := by
  unfold ringPad
  split <;> simp

@[simp] theorem mems_ringSend (a q : Nat) (e : Entry) (s : State) : mems (ringSend a q e s) = mems s := by
  unfold ringSend
  split <;> simp

@[simp] theorem mems_departRing (a q : Nat) (e : Entry) (s : State) : mems (departRing a q e s) = mems s := by
  simp [departRing]

@[simp] theorem mems_departRingSig (a q : Nat) (item : QItem) (s : State) : mems (departRingSig a q item s) = mems s := by
  simp [departRingSig]

@[simp] theorem mems_entryDepart (a q : Nat) (s : State) : mems (entryDepart a q s) = mems s := by
  unfold entryDepart
  split <;> simp

@[simp] theorem mems_execEntryDepart (p : At) (q : QueueNo) (s : State) :
    After (fun t => mems t = mems s) (execEntryDepart p q s) := by
  simp [execEntryDepart]

@[simp] theorem mems_tookEseq (s : State) (a q n : Nat) : mems (s.tookEseq a q n) = mems s := by
  simp [State.tookEseq]

@[simp] theorem mems_routeFault (s : State) (a : Nat) : mems (s.routeFault a) = mems s := by
  simp [State.routeFault]

@[simp] theorem mems_tookFlight (s : State) (d sq : Nat) (sig : Bool) : mems (s.tookFlight d sq sig) = mems s := by
  simp [State.tookFlight]

@[simp] theorem mems_receiveEntry (a q : Nat) (h : FlitHdr) (e : Entry) (s : State) : mems (receiveEntry a q h e s) = mems s := by
  simp [receiveEntry]

@[simp] theorem mems_execReceiveEntry (p : At) (q : QueueNo) (h : FlitHdr) (e : Entry) (s : State) :
    After (fun t => mems t = mems s) (execReceiveEntry p q h e s) := by
  simp [execReceiveEntry]

@[simp] theorem mems_lateFlit (s : State) (a q kind cred : Nat) : mems (s.lateFlit a q kind cred) = mems s := by
  simp [State.lateFlit]

@[simp] theorem mems_signalRecord (a q : Nat) (h : FlitHdr) (ctr : BitVec 5) (add : BitVec 16) (s : State) :
    mems (signalRecord a q h ctr add s) = mems s := by
  simp [signalRecord]

@[simp] theorem mems_execSignalRecord (p : At) (q : QueueNo) (h : FlitHdr) (ctr : BitVec 5) (add : BitVec 16) (s : State) :
    After (fun t => mems t = mems s) (execSignalRecord p q h ctr add s) := by
  simp [execSignalRecord]

@[simp] theorem mems_takeCredits (s : State) (b r n : Nat) : ∀ t, s.takeCredits b r n = some t → mems t = mems s := by
  unfold State.takeCredits
  dsimp only
  repeat' split
  all_goals simp

@[simp] theorem mems_remoteCreditReturn (a q conn n : Nat) (s : State) : mems (remoteCreditReturn a q conn n s) = mems s := by
  unfold remoteCreditReturn
  dsimp only
  split
  · rfl
  · split
    · simp
    · split
      · rfl
      · next h => simpa using mems_takeCredits _ _ _ _ _ h

@[simp] theorem mems_execRemoteCreditReturn (p : At) (q : QueueNo) (conn : BitVec 12) (n : BitVec 7) (s : State) :
    After (fun t => mems t = mems s) (execRemoteCreditReturn p q conn n s) := by
  simp [execRemoteCreditReturn]

@[simp] theorem mems_mcastCredit (a q leaf n : Nat) (s : State) : mems (mcastCredit a q leaf n s) = mems s := by
  unfold mcastCredit
  dsimp only
  repeat' split
  all_goals simp

@[simp] theorem mems_execMcastCredit (p : At) (q : QueueNo) (leaf : QueueId) (n : BitVec 7) (s : State) :
    After (fun t => mems t = mems s) (execMcastCredit p q leaf n s) := by
  simp [execMcastCredit]

@[simp] theorem mems_gapMarker (a q : Nat) (s : State) : mems (gapMarker a q s) = mems s := by
  unfold gapMarker
  split <;> simp

@[simp] theorem mems_execGapMarker (p : At) (q : QueueNo) (s : State) : After (fun t => mems t = mems s) (execGapMarker p q s) := by
  simp [execGapMarker]

@[simp] theorem mems_probeLinks (b : Nat) (l : List (Nat × Dir)) (w : Nat) (c : List Nat) (held : List (Nat × Nat × Nat)) (s : State) :
    mems (probeLinks b l w c held s).2 = mems s := by
  induction l generalizing w c held s with
  | nil => rfl
  | cons y l ih =>
    unfold probeLinks
    dsimp only
    split
    · rfl
    · rw [ih]
      simp

@[simp] theorem mems_releaseSlots (s : State) (l : List (Nat × Nat × Nat)) : mems (s.releaseSlots l) = mems s := by
  simp [State.releaseSlots]

@[simp] theorem mems_sendConn (s : State) (kind src from_ dst conn : Nat) : mems (s.sendConn kind src from_ dst conn) = mems s := by
  simp [State.sendConn]

@[simp] theorem mems_takeConn (s : State) (kind a q conn of_ part : Nat) : mems (s.takeConn kind a q conn of_ part).2 = mems s := by
  unfold State.takeConn
  dsimp only
  repeat' split
  all_goals simp

@[simp] theorem mems_connProbe (a q conn : Nat) (s : State) : mems (connProbe a q conn s) = mems s := by
  unfold connProbe
  dsimp only
  repeat' split
  all_goals simp

@[simp] theorem mems_execConnProbe (p : At) (q : QueueNo) (conn : BitVec 12) (s : State) :
    After (fun t => mems t = mems s) (execConnProbe p q conn s) := by
  simp [execConnProbe]

@[simp] theorem mems_connReply (a q conn : Nat) (s : State) : mems (connReply a q conn s) = mems s := by
  unfold connReply
  dsimp only
  repeat' split
  all_goals simp

@[simp] theorem mems_execConnReply (p : At) (q : QueueNo) (conn : BitVec 12) (s : State) :
    After (fun t => mems t = mems s) (execConnReply p q conn s) := by
  simp [execConnReply]

@[simp] theorem mems_unbind (s : State) (b src : Nat) : mems (s.unbind b src) = mems s := by
  unfold State.unbind
  split <;> simp

@[simp] theorem mems_connRefuse (a q conn : Nat) (noPeer : Bool) (s : State) : mems (connRefuse a q conn noPeer s) = mems s := by
  simp [connRefuse]

@[simp] theorem mems_execConnRefuse (p : At) (q : QueueNo) (conn : BitVec 12) (noPeer : Bool) (s : State) :
    After (fun t => mems t = mems s) (execConnRefuse p q conn noPeer s) := by
  simp [execConnRefuse]

@[simp] theorem mems_connCommit (a q conn : Nat) (s : State) : mems (connCommit a q conn s) = mems s := by
  unfold connCommit
  dsimp only
  repeat' split
  all_goals simp

@[simp] theorem mems_execConnCommit (p : At) (q : QueueNo) (conn : BitVec 12) (s : State) :
    After (fun t => mems t = mems s) (execConnCommit p q conn s) := by
  simp [execConnCommit]

@[simp] theorem mems_reopen (s : State) (a q : Nat) : mems (s.reopen a q) = mems s := by
  simp [State.reopen]

@[simp] theorem mems_closeDyn (s : State) (a q : Nat) : mems (s.closeDyn a q) = mems s := by
  unfold State.closeDyn
  dsimp only
  split <;> simp

@[simp] theorem mems_connClose (a q conn : Nat) (s : State) : mems (connClose a q conn s) = mems s := by
  simp [connClose]

@[simp] theorem mems_execConnClose (p : At) (q : QueueNo) (conn : BitVec 12) (s : State) :
    After (fun t => mems t = mems s) (execConnClose p q conn s) := by
  simp [execConnClose]

@[simp] theorem mems_backoffExpiry (a q : Nat) (s : State) : mems (backoffExpiry a q s) = mems s := by
  simp [backoffExpiry]

@[simp] theorem mems_execBackoffExpiry (site : SiteId) (q : QueueNo) (s : State) :
    After (fun t => mems t = mems s) (execBackoffExpiry site q s) := by
  simp [execBackoffExpiry]

@[simp] theorem mems_idleClose (s : State) (a q : Nat) : mems (s.idleClose a q) = mems s := by
  simp [State.idleClose]

@[simp] theorem mems_execIdleClose (site : SiteId) (q : QueueNo) (s : State) :
    After (fun t => mems t = mems s) (execIdleClose site q s) := by
  simp [execIdleClose]

/-! ### Barriers and claims -/

@[simp] theorem mems_injectAdd (a : Nat) (s : State) : mems (injectAdd a s) = mems s := by
  unfold injectAdd
  split <;> simp

@[simp] theorem mems_fillPorts (s : State) : mems s.fillPorts = mems s := by
  have h : ∀ (g : State → CtlMsg → State), (∀ u c, mems (g u c) = mems u) → mems (s.ctl.foldl g s) = mems s :=
    fun g hg => mems_foldl g _ _ hg
  unfold State.fillPorts
  dsimp only
  split
  all_goals
    refine h _ fun u c => ?_
    split
    · split <;> simp
    · rfl

@[simp] theorem mems_injectArrival (a : Nat) (s : State) : mems (injectArrival a s) = mems s := by
  unfold injectArrival
  split <;> simp

@[simp] theorem mems_injectClaim (a : Nat) (s : State) : mems (injectClaim a s) = mems s := by
  unfold injectClaim
  dsimp only
  split <;> simp

@[simp] theorem mems_injectConn (a : Nat) (s : State) : mems (injectConn a s) = mems s := by
  unfold injectConn
  split <;> simp

@[simp] theorem mems_injectCredit (a : Nat) (s : State) : mems (injectCredit a s) = mems s := by
  unfold injectCredit
  split <;> simp

@[simp] theorem mems_controlInject (a : Nat) (s : State) : mems (controlInject a s) = mems s := by
  unfold controlInject
  repeat' split
  all_goals simp

@[simp] theorem mems_execControlInject (p : At) (s : State) : After (fun t => mems t = mems s) (execControlInject p s) := by
  simp [execControlInject]

@[simp] theorem mems_signalAdd (a : Nat) (m : AddMsg) (s : State) : mems (signalAdd a m s) = mems s := by
  simp [signalAdd]

@[simp] theorem mems_execSignalAdd (p : At) (m : AddMsg) (s : State) : After (fun t => mems t = mems s) (execSignalAdd p m s) := by
  simp [execSignalAdd]

@[simp] theorem mems_addAck (a : Nat) (discarded : Bool) (s : State) : mems (addAck a discarded s) = mems s := by
  simp [addAck]

@[simp] theorem mems_execAddAck (p : At) (discarded : Bool) (s : State) :
    After (fun t => mems t = mems s) (execAddAck p discarded s) := by
  simp [execAddAck]

@[simp] theorem mems_fencedOffer (a b : Nat) (s : State) : mems (fencedOffer a b s) = mems s := by
  unfold fencedOffer
  split <;> simp

@[simp] theorem mems_execFencedArrivalOffer (p : At) (bar : BitVec 6) (s : State) :
    After (fun t => mems t = mems s) (execFencedArrivalOffer p bar s) := by
  simp [execFencedArrivalOffer]

@[simp] theorem mems_settleFence (s : State) (a : Nat) : mems (s.settleFence a) = mems s := by
  unfold State.settleFence
  split <;> simp

@[simp] theorem mems_forkRelease (s : State) (part x : Nat) : mems (s.forkRelease part x) = mems s := by
  unfold State.forkRelease
  refine mems_foldl _ _ _ fun u c => mems_foldl_snd _ _ _ fun acc a => ?_
  split
  · simp
  · rfl

@[simp] theorem mems_accept (s : State) (a part b : Nat) : mems (s.accept a part b) = mems s := by
  unfold State.accept
  dsimp only
  split
  · simp
  · split <;> simp -implicitDefEqProofs

@[simp] theorem mems_settlePorts (s : State) : mems s.settlePorts = mems s := by
  unfold State.settlePorts
  split <;> simp

@[simp] theorem mems_execBarrierArrival (s : State) : After (fun t => mems t = mems s) (execBarrierArrival s) := by
  unfold execBarrierArrival
  split <;> simp

@[simp] theorem mems_barrierRelease (a b : Nat) (s : State) : mems (barrierRelease a b s) = mems s := by
  simp [barrierRelease]

@[simp] theorem mems_execBarrierRelease (p : At) (bar : BitVec 6) (s : State) :
    After (fun t => mems t = mems s) (execBarrierRelease p bar s) := by
  simp [execBarrierRelease]

@[simp] theorem mems_modTarn (s : State) (ta : Nat) (f : TarnX → TarnX) : mems (s.modTarn ta f) = mems s := by
  simp [State.modTarn]

@[simp] theorem mems_settleLog (s : State) (ta : Nat) : mems (s.settleLog ta) = mems s := by
  unfold State.settleLog
  split <;> simp

@[simp] theorem mems_holdClaim (s : State) (ta : Nat) (m : ClaimMsg) : mems (s.holdClaim ta m) = mems s := by
  simp [State.holdClaim]

@[simp] theorem mems_dropClaim (s : State) (ta : Nat) (m : ClaimMsg) : mems (s.dropClaim ta m) = mems s := by
  simp [State.dropClaim]

theorem mems_serveClaim {ta : Nat} {m : ClaimMsg} {s t : State} {v : BitVec 32} (h : serveClaim ta m s = some (v, t)) : mems t = mems s := by
  unfold serveClaim at h
  dsimp only at h
  repeat' split at h
  all_goals cases h
  all_goals simp

@[simp] theorem mems_serveRequest (ta : Nat) (m : ClaimMsg) (s : State) : mems (serveRequest ta m s) = mems s := by
  unfold serveRequest
  dsimp only
  repeat' split
  all_goals simp
  next h => simpa using mems_serveClaim h

@[simp] theorem mems_execClaimRequest (p : At) (m : ClaimMsg) (s : State) :
    After (fun t => mems t = mems s) (execClaimRequest p m s) := by
  simp [execClaimRequest]

@[simp] theorem mems_claimReply (a : Nat) (sq : BitVec 16) (v : BitVec 32) (poison : Bool) (s : State) :
    mems (claimReply a sq v poison s) = mems s := by
  unfold claimReply
  dsimp only
  repeat' split
  all_goals simp

@[simp] theorem mems_execClaimReply (p : At) (seq : BitVec 16) (value : BitVec 32) (poison : Bool) (s : State) :
    After (fun t => mems t = mems s) (execClaimReply p seq value poison s) := by
  simp [execClaimReply]

@[simp] theorem mems_claimRetry (s : State) (a : Nat) : mems (s.claimRetry a) = mems s := by
  unfold State.claimRetry
  split <;> simp

@[simp] theorem mems_execClaimRetry (site : SiteId) (s : State) : After (fun t => mems t = mems s) (execClaimRetry site s) := by
  simp [execClaimRetry]

/-! ### The loader -/

@[simp] theorem mems_imageWrite (s : State) (a off : Nat) (w : Word) : mems (s.imageWrite a off w) = mems s := by
  unfold State.imageWrite
  split <;> simp

@[simp] theorem mems_recordRefusal (s : State) (p job : Nat) (x : Refused) : mems (s.recordRefusal p job x) = mems s := by
  simp [State.recordRefusal]

/-! ### Power domains -/

@[simp] theorem mems_setDom (s : State) (kind a v : Nat) : mems (s.setDom kind a v) = mems s := by
  simp [State.setDom]

@[simp] theorem mems_domOff (s : State) (kind a : Nat) : mems (s.domOff kind a) = mems s := by
  simp [State.domOff]

@[simp] theorem mems_routersOff (s : State) (l : List Nat) : mems (s.routersOff l) = mems s := by
  simp [State.routersOff]

@[simp] theorem mems_execDomainPowerUpComplete (d : DomKind) (site : SiteId) (s : State) :
    After (fun t => mems t = mems s) (execDomainPowerUpComplete d site s) := by
  unfold execDomainPowerUpComplete
  dsimp only
  split <;> simp

/-! ### Sections -/

@[simp] theorem mems_rearm (s : State) (a : Nat) : mems (s.rearm a) = mems s := by
  simp [State.rearm]

@[simp] theorem mems_closeAllDyn (s : State) (a : Nat) : mems (s.closeAllDyn a) = mems s := by
  simp [State.closeAllDyn]

@[simp] theorem mems_reopenDyn (s : State) (a : Nat) : mems (s.reopenDyn a) = mems s := by
  simp [State.reopenDyn]

@[simp] theorem mems_releaseRegion (s : State) (e : Nat) : mems (s.releaseRegion e) = mems s := by
  simp [State.releaseRegion]

@[simp] theorem mems_stopPrefetch (s : State) (e : Nat) : mems (s.stopPrefetch e) = mems s := by
  unfold State.stopPrefetch
  split <;> simp

@[simp] theorem mems_completeRun (s : State) (e cls code detail : Nat) : mems (s.completeRun e cls code detail) = mems s := by
  unfold State.completeRun
  split <;> simp

@[simp] theorem mems_endSect (s : State) (e : Nat) : mems (s.endSect e) = mems s := by
  simp [State.endSect]

@[simp] theorem mems_failSect (s : State) (e cls code detail : Nat) : mems (s.failSect e cls code detail) = mems s := by
  simp [State.failSect]

@[simp] theorem mems_settlePend (s : State) (p : Nat) : mems (s.settlePend p) = mems s := by
  simp [State.settlePend]

@[simp] theorem mems_abandonDigest (s : State) (p code : Nat) : mems (s.abandonDigest p code) = mems s := by
  unfold State.abandonDigest
  repeat' split
  all_goals simp

@[simp] theorem mems_unsuspect (s : State) (a : Nat) : mems (s.unsuspect a) = mems s := by
  simp [State.unsuspect]

@[simp] theorem mems_dropReferee (s : State) (a : Nat) : mems (s.dropReferee a) = mems s := by
  simp [State.dropReferee]

@[simp] theorem mems_abandonRefs (s : State) (l : List Nat) : mems (s.abandonRefs l) = mems s := by
  unfold State.abandonRefs
  refine (mems_foldl _ _ _ fun u r => ?_).trans (mems_modHut ..)
  dsimp only
  cases r.referee <;> simp

@[simp] theorem mems_failJob (s : State) (p job cls code detail : Nat) : mems (s.failJob p job cls code detail) = mems s := by
  simp [State.failJob]

@[simp] theorem mems_doneSect (s : State) (e : Nat) : mems (s.doneSect e) = mems s := by
  simp [State.doneSect]

@[simp] theorem mems_writeFrame (s : State) (e : Nat) (x : SectX) (addr : Nat) (data : List Word) :
    mems (s.writeFrame e x addr data) = mems s := by
  simp [State.writeFrame]

@[simp] theorem mems_execFrameTransferStart (p : PartNo) (e : EntryNo) (s : State) :
    After (fun t => mems t = mems s) (execFrameTransferStart p e s) := by
  unfold execFrameTransferStart
  dsimp only
  split <;> simp

@[simp] theorem mems_failFrames (s : State) (e : Nat) : mems (s.failFrames e) = mems s := by
  simp [State.failFrames]

@[simp] theorem mems_armCredits (s : State) (a : Nat) : mems (s.armCredits a) = mems s := by
  simp [State.armCredits]

@[simp] theorem mems_putMask (s : State) (r : RegName) (b : Nat) (l : List Nat) : mems (s.putMask r b l) = mems s := by
  simp [State.putMask]

@[simp] theorem mems_armRecomp (s : State) (g : SectionImage) (a : Nat) (rec : SiteRec) : mems (s.armRecomp g a rec) = mems s := by
  unfold State.armRecomp
  dsimp only
  split <;> simp

@[simp] theorem mems_armValues (s : State) (e : Nat) (x : SectX) : mems (s.armValues e x) = mems s := by
  simp [State.armValues]

@[simp] theorem mems_becomeArmed (s : State) (e : Nat) (x : SectX) : mems (s.becomeArmed e x) = mems s := by
  simp [State.becomeArmed]

@[simp] theorem mems_execQuiescence (p : PartNo) (e : EntryNo) (s : State) :
    After (fun t => mems t = mems s) (execQuiescence p e s) := by
  unfold execQuiescence
  dsimp only
  split <;> simp

@[simp] theorem mems_countSave (s : State) (e : Nat) : mems (s.countSave e) = mems s := by
  unfold State.countSave
  split <;> simp

@[simp] theorem mems_markRunnable (s : State) (e : Nat) : mems (s.markRunnable e) = mems s := by
  simp [State.markRunnable]

@[simp] theorem mems_moveSaved (s : State) (l : List Nat) (a b n : Nat) : mems (s.moveSaved l a b n) = mems s := by
  unfold State.moveSaved
  split
  · simp
  · refine mems_foldl_snd _ _ _ fun acc x => ?_
    dsimp only
    split <;> simp

@[simp] theorem mems_countSaved (s : State) (g : SectionImage) (l : List (Nat × Nat)) : mems (s.countSaved g l) = mems s := by
  simp [State.countSaved]

@[simp] theorem mems_execSaveComplete (p : PartNo) (e : EntryNo) (s : State) :
    After (fun t => mems t = mems s) (execSaveComplete p e s) := by
  unfold execSaveComplete
  dsimp only
  repeat' split
  all_goals simp

@[simp] theorem mems_restoreRegs (s : State) (f : Nat → Nat) (a : Nat) (l : List (RegKey × Word)) :
    mems (s.restoreRegs f a l) = mems s := by
  unfold State.restoreRegs
  refine mems_foldl _ _ _ fun u y => ?_
  dsimp only
  split <;> simp

@[simp] theorem mems_countRestored (s : State) (x : SectX) (c r : Nat) : mems (s.countRestored x c r) = mems s := by
  simp [State.countRestored]

@[simp] theorem mems_reattach (s : State) (a : Nat) : mems (s.reattach a) = mems s := by
  simp [State.reattach]

@[simp] theorem mems_pauseSect (s : State) (e : Nat) : mems (s.pauseSect e) = mems s := by
  simp [State.pauseSect]

@[simp] theorem mems_haltSect (s : State) (e code : Nat) : mems (s.haltSect e code) = mems s := by
  simp [State.haltSect]

@[simp] theorem mems_runSect (s : State) (e : Nat) : mems (s.runSect e) = mems s := by
  simp [State.runSect]

@[simp] theorem mems_resumePaused (s : State) (e : Nat) : mems (s.resumePaused e) = mems s := by
  simp [State.resumePaused]

/-! ### Referees -/

@[simp] theorem mems_spurTo (s : State) (n st : Nat) : mems (s.spurTo n st) = mems s := by
  simp [State.spurTo]

@[simp] theorem mems_confirmFault (s : State) (n cause : Nat) : mems (s.confirmFault n cause) = mems s := by
  unfold State.confirmFault
  dsimp only
  split <;> simp

@[simp] theorem mems_putRef (s : State) (r : RefX) : mems (s.putRef r) = mems s := by
  simp [State.putRef]

@[simp] theorem mems_noteRef (s : State) (r : RefX) (l : List (Fld × Nat)) : mems (s.noteRef r l) = mems s := by
  simp [State.noteRef]

@[simp] theorem mems_openRef (s : State) (a e : Nat) (vector : Bool) : mems (s.openRef a e vector) = mems s := by
  simp [State.openRef]

@[simp] theorem mems_countRefWait (s : State) : mems s.countRefWait = mems s := by
  simp [State.countRefWait]

@[simp] theorem mems_putSaved (s : State) (e : Nat) (v : SavedSite) : mems (s.putSaved e v) = mems s := by
  simp [State.putSaved]

@[simp] theorem mems_unhold (s : State) (a : Nat) : mems (s.unhold a) = mems s := by
  simp [State.unhold]

@[simp] theorem mems_takeTiles (a : Nat) (phys : List SlotP) (mor : Word) (s : State) : mems (takeTiles a phys mor s) = mems s := by
  simp [takeTiles]

@[simp] theorem mems_abandonReferee (s : State) (r : RefX) (a : Nat) : mems (s.abandonReferee r a) = mems s := by
  simp [State.abandonReferee]

@[simp] theorem mems_pauseSuspects (s : State) : mems s.pauseSuspects = mems s := by
  unfold State.pauseSuspects
  refine mems_foldl _ _ _ fun u a => ?_
  split <;> simp

/-! ### The schedule -/

@[simp] theorem mems_takeFails (s : State) : mems s.takeFails = mems s := by
  unfold State.takeFails
  refine (mems_foldl _ _ _ fun u f => ?_).trans (mems_modHut ..)
  cases f.only <;> simp

@[simp] theorem mems_configHalt (s : State) (e a : Nat) (x : SectX) : mems (s.configHalt e a x) = mems s := by
  simp [State.configHalt]

@[simp] theorem mems_rewriteSite (s : State) (e a : Nat) (x : SectX) : mems (s.rewriteSite e a x) = mems s := by
  simp [State.rewriteSite]

@[simp] theorem mems_takeConfigHalts (s : State) : mems s.takeConfigHalts = mems s := by
  unfold State.takeConfigHalts
  refine (mems_foldl _ _ _ fun u a => ?_).trans (mems_modHut ..)
  repeat' split
  all_goals simp

@[simp] theorem mems_judgeStall (s : State) (a : Nat) (v : Option (Nat × Nat)) : mems (s.judgeStall a v) = mems s := by
  unfold State.judgeStall
  split <;> simp

@[simp] theorem mems_haltStalled (s : State) (a : Nat) : mems (s.haltStalled a) = mems s := by
  unfold State.haltStalled
  split <;> simp

@[simp] theorem mems_takeStalls (s : State) (l : List (Nat × Option (Nat × Nat))) : mems (s.takeStalls l) = mems s := by
  simp [State.takeStalls]

@[simp] theorem mems_execStallWatchdog (site : SiteId) (s : State) : After (fun t => mems t = mems s) (execStallWatchdog site s) := by
  simp [execStallWatchdog]

@[simp] theorem mems_withRetired (s : State) (marks : List (Nat × Dir)) : mems (s.withRetired marks) = mems s := by
  unfold State.withRetired
  refine mems_foldl _ _ _ fun u m => ?_
  dsimp only
  split <;> simp

@[simp] theorem mems_abortLoad (s : State) (e : Nat) : mems (s.abortLoad e) = mems s := by
  unfold State.abortLoad
  split <;> simp

@[simp] theorem mems_retireLinks (s : State) : mems s.retireLinks = mems s := by
  simp [State.retireLinks]

@[simp] theorem mems_removePart (s : State) (p : Nat) : mems (s.removePart p) = mems s := by
  simp [State.removePart]

@[simp] theorem mems_activate (s : State) (o : PartOps) : mems (s.activate o) = mems s := by
  simp [State.activate]

@[simp] theorem mems_settleZeroing (s : State) (p k : Nat) : mems (s.settleZeroing p k) = mems s := by
  simp [State.settleZeroing]

@[simp] theorem mems_takeGrant (s : State) (p k base size : Nat) (c : Ctx) : mems (s.takeGrant p k base size c) = mems s := by
  unfold State.takeGrant
  split <;> simp

@[simp] theorem mems_keepParts (s : State) (f : PartReq → Bool) : mems (s.keepParts f) = mems s := by
  simp [State.keepParts]

@[simp] theorem mems_preemptSect (s : State) (e : Nat) : mems (s.preemptSect e) = mems s := by
  unfold State.preemptSect
  split <;> simp

@[simp] theorem mems_preemptWanan (s : State) (p : Nat) (w : WananX) (c : Ctx) : mems (s.preemptWanan p w c) = mems s := by
  simp [State.preemptWanan]

@[simp] theorem mems_takePreempt (s : State) (p job : Nat) (c : Ctx) : mems (s.takePreempt p job c) = mems s := by
  unfold State.takePreempt
  split <;> simp

@[simp] theorem mems_takeWanan (s : State) : mems s.takeWanan = mems s := by
  unfold State.takeWanan
  refine mems_foldl _ _ _ fun u y => ?_
  split <;> simp

@[simp] theorem mems_runIfArmed (s : State) (e : Nat) : mems (s.runIfArmed e) = mems s := by
  unfold State.runIfArmed
  split <;> simp

@[simp] theorem mems_pfBegin (s : State) (e : Nat) (x : SectX) (y : Nat × PfProg) : mems (s.pfBegin e x y) = mems s := by
  simp [State.pfBegin]

/-! ### Digests -/

@[simp] theorem mems_startDigest (s : State) (p job : Nat) (ranges : List (Nat × Nat)) (ctx : Option Ctx) :
    mems (s.startDigest p job ranges ctx) = mems s := by
  simp [State.startDigest]

@[simp] theorem mems_startDue (s : State) (p : Nat) : mems (s.startDue p) = mems s := by
  unfold State.startDue
  split <;> simp

@[simp] theorem mems_digestActions (s : State) : mems s.digestActions = mems s := by
  simp [State.digestActions]

@[simp] theorem mems_execScheduledDigest (p : PartNo) (s : State) : After (fun t => mems t = mems s) (execScheduledDigest p s) := by
  simp [execScheduledDigest]

/-! ### Health -/

@[simp] theorem mems_scrubWord (s : State) (a w : Nat) (o : List ScrubObs) : mems (s.scrubWord a w o) = mems s := by
  unfold State.scrubWord
  dsimp only
  repeat' split
  all_goals simp

@[simp] theorem mems_execScrubFrameRead (frame : BitVec 7) (o : List ScrubObs) (s : State) :
    After (fun t => mems t = mems s) (execScrubFrameRead frame o s) := by
  unfold execScrubFrameRead
  rw [after_next]
  cases s.scrubPlace with
  | none => rfl
  | some p =>
    dsimp only
    repeat' split
    all_goals simp -implicitDefEqProofs

@[simp] theorem mems_applyCorrection (s : State) (q : Nat × Nat × Nat × Nat) : mems (s.applyCorrection q) = mems s := by
  simp [State.applyCorrection]

@[simp] theorem mems_applyCorrections (s : State) : mems s.applyCorrections = mems s := by
  simp [State.applyCorrections]

@[simp] theorem mems_resetScrubber (s : State) : mems s.resetScrubber = mems s := by
  simp [State.resetScrubber]

@[simp] theorem mems_watchScrubber (s : State) : mems s.watchScrubber = mems s := by
  simp [State.watchScrubber]

@[simp] theorem mems_execScrubStall (s : State) : After (fun t => mems t = mems s) (execScrubStall s) := by
  simp [execScrubStall]

@[simp] theorem mems_beginTest (s : State) (n : Nat) : mems (s.beginTest n) = mems s := by
  simp [State.beginTest]

@[simp] theorem mems_startTests (s : State) : mems s.startTests = mems s := by
  simp [State.startTests]

@[simp] theorem mems_dueTest (s : State) (n st : Nat) : mems (s.dueTest n st) = mems s := by
  simp [State.dueTest]

@[simp] theorem mems_execHealthySelftestDue (spur : SpurNo) (s : State) :
    After (fun t => mems t = mems s) (execHealthySelftestDue spur s) := by
  simp [execHealthySelftestDue]

@[simp] theorem mems_execWatchedSelftestDue (spur : SpurNo) (s : State) :
    After (fun t => mems t = mems s) (execWatchedSelftestDue spur s) := by
  simp [execWatchedSelftestDue]

@[simp] theorem mems_testResult (s : State) (n : Nat) (clean : Bool) : mems (s.testResult n clean) = mems s := by
  simp [State.testResult]

@[simp] theorem mems_execSelftestComplete (spur : SpurNo) (signature : Word) (s : State) :
    After (fun t => mems t = mems s) (execSelftestComplete spur signature s) := by
  simp [execSelftestComplete]

@[simp] theorem mems_endRereads (s : State) (c : Nat) : mems (s.endRereads c) = mems s := by
  simp [State.endRereads]

@[simp] theorem mems_retireChannel (s : State) (c : Nat) : mems (s.retireChannel c) = mems s := by
  simp [State.retireChannel]

@[simp] theorem mems_startReform (s : State) (k : Nat) : mems (s.startReform k) = mems s := by
  simp [State.startReform]

@[simp] theorem mems_channelActions (s : State) : mems s.channelActions = mems s := by
  simp [State.channelActions]

@[simp] theorem mems_execHealthRecordAppend (ok : Bool) (s : State) :
    After (fun t => mems t = mems s) (execHealthRecordAppend ok s) := by
  unfold execHealthRecordAppend
  split <;> simp

@[simp] theorem mems_execLaneWindow (lost : BitVec 8) (errors : List (BitVec 32)) (s : State) :
    After (fun t => mems t = mems s) (execLaneWindow lost errors s) := by
  simp [execLaneWindow]

@[simp] theorem mems_retrain (s : State) (trains : List (BitVec 3 × BitVec 2)) : mems (s.retrain trains) = mems s := by
  simp [State.retrain]

@[simp] theorem mems_execRetrainComplete (trains : List (BitVec 3 × BitVec 2)) (s : State) :
    After (fun t => mems t = mems s) (execRetrainComplete trains s) := by
  simp [execRetrainComplete]

@[simp] theorem mems_execRetrainRetry (trains : List (BitVec 3 × BitVec 2)) (s : State) :
    After (fun t => mems t = mems s) (execRetrainRetry trains s) := by
  simp [execRetrainRetry]

/-! ### Register commands -/

@[simp] theorem mems_hostRead (s : State) (r : RegName) (a i : Nat) : mems (s.hostRead r a i).2 = mems s := by
  unfold State.hostRead
  dsimp only
  split <;> simp

@[simp] theorem mems_ownSigs (s : State) (f : Fld) (a i : Nat) : mems (s.ownSigs f a i) = mems s := by
  unfold State.ownSigs
  split <;> simp

@[simp] theorem mems_writeField (s : State) (f : Fld) (a i : Nat) (value mask : Word) :
    mems (s.writeField f a i value mask) = mems s := by
  unfold State.writeField
  repeat' split
  all_goals simp

@[simp] theorem mems_writeFields (s : State) (r : RegName) (a i : Nat) (value mask : Word) :
    mems (s.writeFields r a i value mask) = mems s := by
  simp [State.writeFields]

@[simp] theorem mems_writeDesc (s : State) (r : RegName) (a i : Nat) (value mask : Word) :
    mems (s.writeDesc r a i value mask) = mems s := by
  unfold State.writeDesc
  dsimp only
  split <;> simp

@[simp] theorem mems_writeSteer (s : State) (a i : Nat) (value mask : Word) : mems (s.writeSteer a i value mask) = mems s := by
  simp [State.writeSteer]

@[simp] theorem mems_writeSeed (s : State) (a : Nat) (value mask : Word) : mems (s.writeSeed a value mask) = mems s := by
  simp [State.writeSeed]

@[simp] theorem mems_writePitch (s : State) (value mask : Word) : mems (s.writePitch value mask) = mems s := by
  simp [State.writePitch]

@[simp] theorem mems_domainCmd (s : State) (w : Who) (act code a : Nat) : mems (s.domainCmd w act code a) = mems s := by
  unfold State.domainCmd
  repeat' split
  all_goals simp

@[simp] theorem mems_writeScrub (s : State) (value mask : Word) : mems (s.writeScrub value mask) = mems s := by
  simp [State.writeScrub]

@[simp] theorem mems_hostWrite (s : State) (w : Who) (r : RegName) (a i : Nat) (value mask : Word) :
    mems (s.hostWrite w r a i value mask) = mems s := by
  unfold State.hostWrite
  repeat' split
  all_goals simp

@[simp] theorem mems_writeAt (s : State) (w : Who) (x : Nat) (value mask : Word) : mems (s.writeAt w x value mask).2 = mems s := by
  unfold State.writeAt
  repeat' split
  all_goals simp

@[simp] theorem mems_readAt (s : State) (w : Who) (x : Nat) : mems (s.readAt w x).2.2 = mems s := by
  unfold State.readAt
  dsimp only
  repeat' split
  all_goals simp

@[simp] theorem mems_regRead (s : State) (c : Ctx) (x : Nat) : mems (s.regRead c x) = mems s := by
  simp [State.regRead]

@[simp] theorem mems_regWrite (s : State) (c : Ctx) (x : Nat) (value mask : Word) : mems (s.regWrite c x value mask) = mems s := by
  simp [State.regWrite]

@[simp] theorem mems_writeList (s : State) (w : Who) (l : List (Nat × Nat)) (k : Nat) : mems (s.writeList w l k).1 = mems s := by
  induction l generalizing s k with
  | nil => rfl
  | cons y l ih =>
    unfold State.writeList
    dsimp only
    split
    · rfl
    · split <;> simp [ih]

@[simp] theorem mems_needsV3 (s : State) (c : Ctx) (op : Nat) (f : State → State) (hf : ∀ u, mems (f u) = mems u) :
    mems (s.needsV3 c op f) = mems s := by
  unfold State.needsV3
  split <;> simp [hf]

@[simp] theorem mems_execRegRead (c : Ctx) (a : BitVec 64) (s : State) : After (fun t => mems t = mems s) (execRegRead c a s) := by
  simp [execRegRead]

@[simp] theorem mems_execRegWrite (c : Ctx) (a value mask : BitVec 64) (s : State) :
    After (fun t => mems t = mems s) (execRegWrite c a value mask s) := by
  simp [execRegWrite]

@[simp] theorem mems_execRegisterWrite (w : Who) (a : BitVec 48) (value mask : Word) (s : State) :
    After (fun t => mems t = mems s) (execRegisterWrite w a value mask s) := by
  simp [execRegisterWrite]

@[simp] theorem mems_execColPitchCtrlWrite (w : Who) (value : Word) (s : State) :
    After (fun t => mems t = mems s) (execColPitchCtrlWrite w value s) := by
  simp [execColPitchCtrlWrite]

@[simp] theorem mems_domainReq (s : State) (w : Who) (act code a : Nat) : mems (s.domainReq w act code a) = mems s := by
  simp [State.domainReq]

@[simp] theorem mems_execDomainOn (w : Who) (dom : BitVec 4) (site : SiteId) (s : State) :
    After (fun t => mems t = mems s) (execDomainOn w dom site s) := by
  simp [execDomainOn]

@[simp] theorem mems_execDomainRetain (w : Who) (dom : BitVec 4) (site : SiteId) (s : State) :
    After (fun t => mems t = mems s) (execDomainRetain w dom site s) := by
  simp [execDomainRetain]

@[simp] theorem mems_execDomainOff (w : Who) (dom : BitVec 4) (site : SiteId) (s : State) :
    After (fun t => mems t = mems s) (execDomainOff w dom site s) := by
  simp [execDomainOff]

@[simp] theorem mems_execSrSeedWrite (w : Who) (site : SiteId) (seed : Word) (s : State) :
    After (fun t => mems t = mems s) (execSrSeedWrite w site seed s) := by
  simp [execSrSeedWrite]

@[simp] theorem mems_execSteerConfigWrite (w : Who) (site : SiteId) (n : BitVec 3) (value : Word) (s : State) :
    After (fun t => mems t = mems s) (execSteerConfigWrite w site n value s) := by
  simp [execSteerConfigWrite]

@[simp] theorem mems_execScrubCtrlWrite (w : Who) (value : Word) (s : State) :
    After (fun t => mems t = mems s) (execScrubCtrlWrite w value s) := by
  simp [execScrubCtrlWrite]

@[simp] theorem mems_execBivouacEnterWrite (w : Who) (s : State) : After (fun t => mems t = mems s) (execBivouacEnterWrite w s) := by
  simp [execBivouacEnterWrite]

@[simp] theorem mems_execChkLogRead (w : Who) (site : SiteId) (s : State) :
    After (fun t => mems t = mems s) (execChkLogRead w site s) := by
  simp [execChkLogRead]

@[simp] theorem mems_execMemErrLogRead (w : Who) (s : State) : After (fun t => mems t = mems s) (execMemErrLogRead w s) := by
  simp [execMemErrLogRead]

@[simp] theorem mems_execLoadRefusalRead (w : Who) (p : PartNo) (s : State) :
    After (fun t => mems t = mems s) (execLoadRefusalRead w p s) := by
  simp [execLoadRefusalRead]

@[simp] theorem mems_execPoisonLogRead (w : Who) (p : PartNo) (s : State) :
    After (fun t => mems t = mems s) (execPoisonLogRead w p s) := by
  simp [execPoisonLogRead]

@[simp] theorem mems_execEccLogRead (w : Who) (site : SiteId) (s : State) :
    After (fun t => mems t = mems s) (execEccLogRead w site s) := by
  simp [execEccLogRead]

/-! ### Streams and start-up -/

@[simp] theorem mems_closeQp (s : State) (q reason : Nat) : mems (s.closeQp q reason) = mems s := by
  simp [State.closeQp]

@[simp] theorem mems_putStream (s : State) (k : Nat) (x : StreamX) : mems (s.putStream k x) = mems s := by
  simp [State.putStream]

@[simp] theorem mems_modStream (s : State) (k : Nat) (f : StreamX → StreamX) : mems (s.modStream k f) = mems s := by
  simp [State.modStream]

@[simp] theorem mems_releaseClaim (s : State) : mems s.releaseClaim = mems s := by
  unfold State.releaseClaim
  split <;> simp

@[simp] theorem mems_runEntry (s : State) (c : Ctx) (o : RunOps) (e : Nat) : mems (s.runEntry c o e) = mems s := by
  simp [State.runEntry]

@[simp] theorem mems_loadDone (s : State) (c : Ctx) (cls code detail : Nat) (staged : Option Nat) :
    mems (s.loadDone c cls code detail staged) = mems s := by
  unfold State.loadDone
  split <;> simp

@[simp] theorem mems_endStream (s : State) (k outcome reason : Nat) : mems (s.endStream k outcome reason) = mems s := by
  unfold State.endStream
  dsimp only
  repeat' split
  all_goals simp

@[simp] theorem mems_reject (s : State) (k reason : Nat) : mems (s.reject k reason) = mems s := by
  simp [State.reject]

@[simp] theorem mems_foreign (s : State) (k reason : Nat) : mems (s.foreign k reason) = mems s := by
  unfold State.foreign
  dsimp only
  split <;> simp

@[simp] theorem mems_truncateIf (s : State) (p : Nat → StreamX → Bool) : mems (s.truncateIf p) = mems s := by
  simp [State.truncateIf]

@[simp] theorem mems_needKey (s : State) (k : Nat) : mems (s.needKey k) = mems s := by
  unfold State.needKey
  dsimp only
  split <;> simp

@[simp] theorem mems_consume (s : State) (k e : Nat) : mems (s.consume k e) = mems s := by
  simp [State.consume]

@[simp] theorem mems_takeDatagram (s : State) (k off len : Nat) : mems (s.takeDatagram k off len) = mems s := by
  simp [State.takeDatagram]

@[simp] theorem mems_execDatagram (id : BitVec 32) (offset : BitVec 64) (len : BitVec 16) (s : State) :
    After (fun t => mems t = mems s) (execDatagram id offset len s) := by
  simp [execDatagram]

@[simp] theorem mems_streamBytes (s : State) (q len : Nat) : mems (s.streamBytes q len) = mems s := by
  unfold State.streamBytes
  dsimp only
  split <;> simp

@[simp] theorem mems_acceptHeader (s : State) (k : Nat) (h : StreamHdr) : mems (s.acceptHeader k h) = mems s := by
  unfold State.acceptHeader
  dsimp only
  repeat' split
  all_goals simp -implicitDefEqProofs

@[simp] theorem mems_execStreamHeader (slot : SlotNo) (h : StreamHdr) (multicast : Bool) (s : State) :
    After (fun t => mems t = mems s) (execStreamHeader slot h multicast s) := by
  simp [execStreamHeader]

@[simp] theorem mems_packet (s : State) (k typ : Nat) (h : PktHdr) (data : List Byte) (bad : StreamX → Bool) (f : State → StreamX → State) (hf : ∀ u x, mems (f u x) = mems u) :
    mems (s.packet k typ h data bad f) = mems s := by
  unfold State.packet
  dsimp only
  repeat' split
  all_goals simp [hf]

@[simp] theorem mems_takePacket (s : State) (k : Nat) (x : StreamX) (h : PktHdr) (g : StreamGot → StreamGot) :
    mems (s.takePacket k x h g) = mems s := by
  simp [State.takePacket]

@[simp] theorem mems_execNopPacket (slot : SlotNo) (h : PktHdr) (data : List Byte) (s : State) :
    After (fun t => mems t = mems s) (execNopPacket slot h data s) := by
  simp [execNopPacket]

@[simp] theorem mems_execSync (slot : SlotNo) (h : PktHdr) (tag : BitVec 128) (s : State) :
    After (fun t => mems t = mems s) (execSync slot h tag s) := by
  refine mems_packet _ _ _ _ _ _ _ fun u x => ?_
  dsimp only
  split
  · rfl
  · split <;> simp

@[simp] theorem mems_execFirmware (slot : SlotNo) (h : PktHdr) (data : List Byte) (s : State) :
    After (fun t => mems t = mems s) (execFirmware slot h data s) := by
  simp [execFirmware]

@[simp] theorem mems_execFwsig (slot : SlotNo) (h : PktHdr) (pk sig : List Byte) (s : State) :
    After (fun t => mems t = mems s) (execFwsig slot h pk sig s) := by
  simp [execFwsig]

@[simp] theorem mems_execWreg (slot : SlotNo) (h : PktHdr) (recs : List (Word × Word)) (s : State) :
    After (fun t => mems t = mems s) (execWreg slot h recs s) := by
  simp [execWreg]

@[simp] theorem mems_execStartSeq (slot : SlotNo) (h : PktHdr) (codes : List Byte) (s : State) :
    After (fun t => mems t = mems s) (execStartSeq slot h codes s) := by
  simp [execStartSeq]

@[simp] theorem mems_execImage (slot : SlotNo) (h : PktHdr) (data : List Byte) (s : State) :
    After (fun t => mems t = mems s) (execImage slot h data s) := by
  simp [execImage]

@[simp] theorem mems_execSignature (slot : SlotNo) (h : PktHdr) (pk sig : List Byte) (s : State) :
    After (fun t => mems t = mems s) (execSignature slot h pk sig s) := by
  simp [execSignature]

@[simp] theorem mems_execStreamEndPacket (slot : SlotNo) (h : PktHdr) (s : State) :
    After (fun t => mems t = mems s) (execStreamEndPacket slot h s) := by
  simp [execStreamEndPacket]

@[simp] theorem mems_showStep (s : State) : mems s.showStep = mems s := by
  simp [State.showStep]

@[simp] theorem mems_startUp (s : State) (g : StreamGot) : mems (s.startUp g) = mems s := by
  simp [State.startUp]

@[simp] theorem mems_passStream (s : State) (k : Nat) : mems (s.passStream k) = mems s := by
  unfold State.passStream
  dsimp only
  repeat' split
  all_goals simp

@[simp] theorem mems_execSignatureVerified (slot : SlotNo) (s : State) :
    After (fun t => mems t = mems s) (execSignatureVerified slot s) := by
  unfold execSignatureVerified
  dsimp only
  repeat' split
  all_goals simp

@[simp] theorem mems_execLoadDeadline (slot : SlotNo) (s : State) : After (fun t => mems t = mems s) (execLoadDeadline slot s) := by
  simp [execLoadDeadline]

@[simp] theorem mems_startFail (s : State) (why : Nat) : mems (s.startFail why) = mems s := by
  simp [State.startFail]

@[simp] theorem mems_nextStep (s : State) : mems s.nextStep = mems s := by
  simp [State.nextStep]

@[simp] theorem mems_applyRecord (s : State) (r : HRec) : mems (s.applyRecord r) = mems s := by
  unfold State.applyRecord
  repeat' split
  all_goals simp

@[simp] theorem mems_readRecord (s : State) : mems s.readRecord = mems s := by
  simp [State.readRecord]

@[simp] theorem mems_formGroup (s : State) (k : Nat) : mems (s.formGroup k) = mems s := by
  simp [State.formGroup]

@[simp] theorem mems_stepSelftest (s : State) (bad : List SpurNo) : mems (s.stepSelftest bad) = mems s := by
  simp [State.stepSelftest]

@[simp] theorem mems_stepWrites (s : State) : mems s.stepWrites = mems s := by
  unfold State.stepWrites
  refine (mems_nextStep _).trans (mems_foldl _ _ _ fun u r => ?_)
  split <;> simp

@[simp] theorem mems_stepReset (s : State) : mems s.stepReset = mems s := by
  simp [State.stepReset]

@[simp] theorem mems_startClock (s : State) : mems s.startClock = mems s := by
  simp [State.startClock]

@[simp] theorem mems_execPllLockTimeout (s : State) : After (fun t => mems t = mems s) (execPllLockTimeout s) := by
  simp [execPllLockTimeout]

@[simp] theorem mems_execBootComplete (s : State) : After (fun t => mems t = mems s) (execBootComplete s) := by
  simp [execBootComplete]

/-! ### The board -/

@[simp] theorem mems_modBoard (s : State) (f : BoardX → BoardX) : mems (s.modBoard f) = mems s := by
  simp [State.modBoard]

@[simp] theorem mems_strapRegs (s : State) (straps : Word) : mems (s.strapRegs straps) = mems s := by
  simp [State.strapRegs]

@[simp] theorem mems_execStageInNLow (s : State) : After (fun t => mems t = mems s) (execStageInNLow s) := by
  simp [execStageInNLow]

@[simp] theorem mems_execVbatLoss (s : State) : After (fun t => mems t = mems s) (execVbatLoss s) := by
  simp [execVbatLoss]

@[simp] theorem mems_wakeEvent (s : State) (src : Nat) : mems (s.wakeEvent src) = mems s := by
  unfold State.wakeEvent
  split <;> simp

@[simp] theorem mems_ropeSend (s : State) (d : RopeSide) (type dst src seq : Nat) (payload : List Byte) :
    mems (s.ropeSend d type dst src seq payload) = mems s := by
  simp [State.ropeSend]

@[simp] theorem mems_ropeForward (s : State) (type dst src seq : Nat) (payload : List Byte) :
    mems (s.ropeForward type dst src seq payload) = mems s := by
  simp [State.ropeForward]

@[simp] theorem mems_sendChain (s : State) : mems s.sendChain = mems s := by
  simp [State.sendChain]

@[simp] theorem mems_sendPos (s : State) : mems s.sendPos = mems s := by
  simp [State.sendPos]

@[simp] theorem mems_knowLast (s : State) (n : Nat) : mems (s.knowLast n) = mems s := by
  simp [State.knowLast]

@[simp] theorem mems_execHello (side : RopeSide) (lo hi : Byte) (s : State) :
    After (fun t => mems t = mems s) (execHello side lo hi s) := by
  unfold execHello
  dsimp only
  repeat' split
  all_goals simp

@[simp] theorem mems_execHelloSend (side : RopeSide) (s : State) : After (fun t => mems t = mems s) (execHelloSend side s) := by
  simp [execHelloSend]

@[simp] theorem mems_execRopeLinkDown (side : RopeSide) (s : State) : After (fun t => mems t = mems s) (execRopeLinkDown side s) := by
  simp [execRopeLinkDown]

@[simp] theorem mems_execPos (crcOk : Bool) (n : Byte) (s : State) : After (fun t => mems t = mems s) (execPos crcOk n s) := by
  simp [execPos]

@[simp] theorem mems_execChain (crcOk : Bool) (n : Byte) (s : State) : After (fun t => mems t = mems s) (execChain crcOk n s) := by
  simp [execChain]

@[simp] theorem mems_execRopeWake (crcOk : Bool) (dst : BitVec 4) (s : State) :
    After (fun t => mems t = mems s) (execRopeWake crcOk dst s) := by
  simp [execRopeWake]

@[simp] theorem mems_smbStatus (s : State) : mems s.smbStatus.2 = mems s := by
  simp [State.smbStatus]

@[simp] theorem mems_setIp (s : State) (family plen : Nat) (addr gw : BitVec 128) : mems (s.setIp family plen addr gw).2 = mems s := by
  unfold State.setIp
  repeat' split
  all_goals simp

@[simp] theorem mems_setVbat (s : State) (key : Option (BitVec 256)) : mems (s.setVbat key).2 = mems s := by
  unfold State.setVbat
  split <;> simp

@[simp] theorem mems_progSlot (s : State) (slot : Nat) (hash : BitVec 256) : mems (s.progSlot slot hash).2 = mems s := by
  unfold State.progSlot
  repeat' split
  all_goals simp

@[simp] theorem mems_clearHealth (s : State) (type unit : Nat) : mems (s.clearHealth type unit).2 = mems s := by
  unfold State.clearHealth
  split <;> simp

@[simp] theorem mems_ropeRelay (s : State) (target : Nat) (cmd : List Byte) : mems (s.ropeRelay target cmd).2 = mems s := by
  unfold State.ropeRelay
  dsimp only
  repeat' split
  all_goals simp

@[simp] theorem mems_setLimit (s : State) (w : Nat) : mems (s.setLimit w).2 = mems s := by
  unfold State.setLimit
  split <;> simp

@[simp] theorem mems_smbRun (s : State) (code : Nat) (data : List Byte) : mems (s.smbRun code data).2.2 = mems s := by
  unfold State.smbRun
  dsimp only
  repeat' split
  all_goals simp

@[simp] theorem mems_smbCommand (s : State) (pec : Bool) (code : Nat) (data : List Byte) :
    mems (s.smbCommand pec code data).2.2 = mems s := by
  unfold State.smbCommand
  dsimp only
  repeat' split
  all_goals simp

@[simp] theorem mems_smbus (s : State) (pec : Bool) (code : Nat) (data : List Byte) : mems (s.smbus pec code data) = mems s := by
  unfold State.smbus
  split
  · rfl
  · split
    · next h => simpa using mems_of_snd_snd h
    · next h => simpa using mems_of_snd_snd h

@[simp] theorem mems_execGetStatus (pec : Bool) (s : State) : After (fun t => mems t = mems s) (execGetStatus pec s) := by
  simp [execGetStatus]

@[simp] theorem mems_execGetIdentity (pec : Bool) (s : State) : After (fun t => mems t = mems s) (execGetIdentity pec s) := by
  simp [execGetIdentity]

@[simp] theorem mems_execSetIp (pec : Bool) (family plen : Byte) (addr gw : BitVec 128) (s : State) :
    After (fun t => mems t = mems s) (execSetIp pec family plen addr gw s) := by
  simp [execSetIp]

@[simp] theorem mems_execSetVbatKey (pec : Bool) (key : BitVec 256) (s : State) :
    After (fun t => mems t = mems s) (execSetVbatKey pec key s) := by
  simp [execSetVbatKey]

@[simp] theorem mems_execClearVbatKey (pec : Bool) (s : State) : After (fun t => mems t = mems s) (execClearVbatKey pec s) := by
  simp [execClearVbatKey]

@[simp] theorem mems_execProgKeySlot (pec : Bool) (slot : Byte) (hash : BitVec 256) (s : State) :
    After (fun t => mems t = mems s) (execProgKeySlot pec slot hash s) := by
  simp [execProgKeySlot]

@[simp] theorem mems_execHealthClear (pec : Bool) (type : Byte) (unit : BitVec 16) (s : State) :
    After (fun t => mems t = mems s) (execHealthClear pec type unit s) := by
  simp [execHealthClear]

@[simp] theorem mems_execHealthRead (pec : Bool) (idx : BitVec 32) (s : State) :
    After (fun t => mems t = mems s) (execHealthRead pec idx s) := by
  simp [execHealthRead]

@[simp] theorem mems_execWake (pec : Bool) (s : State) : After (fun t => mems t = mems s) (execWake pec s) := by
  simp [execWake]

@[simp] theorem mems_execBivouacEnter (pec : Bool) (s : State) : After (fun t => mems t = mems s) (execBivouacEnter pec s) := by
  simp [execBivouacEnter]

@[simp] theorem mems_execRopeRelay (pec : Bool) (target : Byte) (cmd : List Byte) (s : State) :
    After (fun t => mems t = mems s) (execRopeRelay pec target cmd s) := by
  simp [execRopeRelay]

@[simp] theorem mems_execSetPowerLimit (pec : Bool) (watts : BitVec 16) (s : State) :
    After (fun t => mems t = mems s) (execSetPowerLimit pec watts s) := by
  simp [execSetPowerLimit]

@[simp] theorem mems_execGetResult (pec : Bool) (s : State) : After (fun t => mems t = mems s) (execGetResult pec s) := by
  simp [execGetResult]

@[simp] theorem mems_execSmbusCommandComplete (readBack : BitVec 256) (s : State) :
    After (fun t => mems t = mems s) (execSmbusCommandComplete readBack s) := by
  unfold execSmbusCommandComplete
  split <;> simp

@[simp] theorem mems_execAlertResponse (s : State) : After (fun t => mems t = mems s) (execAlertResponse s) := by
  simp [execAlertResponse]

@[simp] theorem mems_execRelayReq (crcOk : Bool) (src dst : BitVec 4) (seq : Byte) (cmd : List Byte) (s : State) :
    After (fun t => mems t = mems s) (execRelayReq crcOk src dst seq cmd s) := by
  simp [execRelayReq]

@[simp] theorem mems_execRelayRsp (crcOk : Bool) (src dst : BitVec 4) (seq : Byte) (rsp : List Byte) (s : State) :
    After (fun t => mems t = mems s) (execRelayRsp crcOk src dst seq rsp s) := by
  unfold execRelayRsp
  repeat' split
  all_goals simp

@[simp] theorem mems_execRelayRetry (s : State) : After (fun t => mems t = mems s) (execRelayRetry s) := by
  unfold execRelayRetry
  split <;> simp

@[simp] theorem mems_execBivouacAutoEntry (s : State) : After (fun t => mems t = mems s) (execBivouacAutoEntry s) := by
  simp [execBivouacAutoEntry]

@[simp] theorem mems_retainDomains (s : State) : mems s.retainDomains = mems s := by
  simp [State.retainDomains]

@[simp] theorem mems_judgeEntry (s : State) : mems s.judgeEntry = mems s := by
  simp [State.judgeEntry]

@[simp] theorem mems_execBivouacEntryComplete (s : State) : After (fun t => mems t = mems s) (execBivouacEntryComplete s) := by
  simp [execBivouacEntryComplete]

@[simp] theorem mems_leaveBivouac (s : State) : mems s.leaveBivouac = mems s := by
  simp [State.leaveBivouac]

/-! ### The host interface -/

@[simp] theorem mems_viaGate (s : State) (i : Instr) (n src : Nat) (f : State → State) (hf : ∀ u, mems (f u) = mems u) :
    mems (s.viaGate i n src f) = mems s := by
  unfold State.viaGate
  split
  · exact hf s
  · dsimp only
    split <;> simp

@[simp] theorem mems_sendAnnounce (s : State) : mems s.sendAnnounce = mems s := by
  simp [State.sendAnnounce]

@[simp] theorem mems_execProbe (serial : BitVec 128) (s : State) : After (fun t => mems t = mems s) (execProbe serial s) := by
  simp [execProbe]

@[simp] theorem mems_execAnnounce (s : State) : After (fun t => mems t = mems s) (execAnnounce s) := by
  simp [execAnnounce]

@[simp] theorem mems_openQp (s : State) (n owner gver sver : Nat) (b : QpBlock) : mems (s.openQp n owner gver sver b).1 = mems s := by
  simp [State.openQp]

@[simp] theorem mems_startBase (s : State) (c : ClaimBody) (q : Nat) : mems (s.startBase c q) = mems s := by
  simp [State.startBase]

@[simp] theorem mems_newClaim (s : State) (st sver gver : Nat) (c : ClaimBody) : mems (s.newClaim st sver gver c) = mems s := by
  unfold State.newClaim
  dsimp only
  repeat' split
  all_goals simp

@[simp] theorem mems_hostClaim (s : State) (c : ClaimBody) : mems (s.hostClaim c) = mems s := by
  unfold State.hostClaim
  split <;> simp

@[simp] theorem mems_connect (s : State) (c : ConnectBody) : mems (s.connect c) = mems s := by
  unfold State.connect
  repeat' split
  all_goals simp

@[simp] theorem mems_loseClaim (s : State) : mems s.loseClaim = mems s := by
  simp [State.loseClaim]

@[simp] theorem mems_loseQp (s : State) (q reason : Nat) : mems (s.loseQp q reason) = mems s := by
  simp [State.loseQp]

@[simp] theorem mems_disconnect (s : State) (qpn : Nat) : mems (s.disconnect qpn) = mems s := by
  simp [State.disconnect]

@[simp] theorem mems_freeAdmin (s : State) : mems s.freeAdmin = mems s := by
  unfold State.freeAdmin
  split <;> simp

@[simp] theorem mems_releaseReq (s : State) (nonce : BitVec 64) : mems (s.releaseReq nonce) = mems s := by
  simp [State.releaseReq]

@[simp] theorem mems_execHostClaim (c : ClaimBody) (s : State) : After (fun t => mems t = mems s) (execHostClaim c s) := by
  simp [execHostClaim]

@[simp] theorem mems_execConnect (c : ConnectBody) (s : State) : After (fun t => mems t = mems s) (execConnect c s) := by
  simp [execConnect]

@[simp] theorem mems_execDisconnect (qpn : BitVec 32) (reason : Byte) (s : State) :
    After (fun t => mems t = mems s) (execDisconnect qpn reason s) := by
  simp [execDisconnect]

@[simp] theorem mems_execRelease (nonce : BitVec 64) (s : State) : After (fun t => mems t = mems s) (execRelease nonce s) := by
  simp [execRelease]

@[simp] theorem mems_execAdminReconnectExpiry (s : State) : After (fun t => mems t = mems s) (execAdminReconnectExpiry s) := by
  unfold execAdminReconnectExpiry
  split <;> simp

@[simp] theorem mems_sendNak (s : State) (q kind : Nat) : mems (s.sendNak q kind) = mems s := by
  simp [State.sendNak]

@[simp] theorem mems_accessNak (s : State) (q : Nat) : mems (s.accessNak q) = mems s := by
  simp [State.accessNak]

@[simp] theorem mems_hostPoison (s : State) (q x : Nat) : mems (s.hostPoison q x) = mems s := by
  unfold State.hostPoison
  repeat' split
  all_goals simp

@[simp] theorem mems_execStreamBytes (n : QpNo) (len : BitVec 16) (s : State) :
    After (fun t => mems t = mems s) (execStreamBytes n len s) := by
  simp [execStreamBytes]

@[simp] theorem mems_otherSend (s : State) (q : Nat) (imm : BitVec 32) : mems (s.otherSend q imm) = mems s := by
  simp [State.otherSend]

@[simp] theorem mems_execOtherImmediateSend (n : QpNo) (imm : BitVec 32) (s : State) :
    After (fun t => mems t = mems s) (execOtherImmediateSend n imm s) := by
  simp [execOtherImmediateSend]

@[simp] theorem mems_badOperation (s : State) (q : Nat) : mems (s.badOperation q) = mems s := by
  simp [State.badOperation]

@[simp] theorem mems_execUnsupportedOperation (n : QpNo) (s : State) :
    After (fun t => mems t = mems s) (execUnsupportedOperation n s) := by
  simp [execUnsupportedOperation]

@[simp] theorem mems_ceMarked (s : State) (q : Nat) : mems (s.ceMarked q) = mems s := by
  simp [State.ceMarked]

@[simp] theorem mems_execCeMarkedPacket (n : QpNo) (s : State) : After (fun t => mems t = mems s) (execCeMarkedPacket n s) := by
  simp [execCeMarkedPacket]

@[simp] theorem mems_takeCnp (s : State) (q : Nat) : mems (s.takeCnp q) = mems s := by
  simp [State.takeCnp]

@[simp] theorem mems_execCnp (n : QpNo) (s : State) : After (fun t => mems t = mems s) (execCnp n s) := by
  simp [execCnp]

@[simp] theorem mems_execRateRecovery (n : QpNo) (s : State) : After (fun t => mems t = mems s) (execRateRecovery n s) := by
  simp [execRateRecovery]

@[simp] theorem mems_execAckTimeout (n : QpNo) (s : State) : After (fun t => mems t = mems s) (execAckTimeout n s) := by
  simp [execAckTimeout]

@[simp] theorem mems_execPause (quanta : BitVec 16) (s : State) : After (fun t => mems t = mems s) (execPause quanta s) := by
  simp [execPause]

@[simp] theorem mems_execPfc (prio : BitVec 3) (quanta : BitVec 16) (s : State) :
    After (fun t => mems t = mems s) (execPfc prio quanta s) := by
  simp [execPfc]

@[simp] theorem mems_execArp (s : State) : After (fun t => mems t = mems s) (execArp s) := by
  simp [execArp]

@[simp] theorem mems_execNdp (s : State) : After (fun t => mems t = mems s) (execNdp s) := by
  simp [execNdp]

@[simp] theorem mems_execIcmpEcho (s : State) : After (fun t => mems t = mems s) (execIcmpEcho s) := by
  simp [execIcmpEcho]

@[simp] theorem mems_execIpFragment (s : State) : After (fun t => mems t = mems s) (execIpFragment s) := by
  simp [execIpFragment]

@[simp] theorem mems_execDhcpReply (addr : BitVec 128) (s : State) : After (fun t => mems t = mems s) (execDhcpReply addr s) := by
  simp [execDhcpReply]

@[simp] theorem mems_execCompletionWrite (n : QpNo) (s : State) : After (fun t => mems t = mems s) (execCompletionWrite n s) := by
  unfold execCompletionWrite
  dsimp only
  repeat' split
  all_goals simp

/-! ### Host commands -/

@[simp] theorem mems_asTenant (s : State) (c : Ctx) (op : Nat) (f : State → Nat → State) (hf : ∀ u a, mems (f u a) = mems u) :
    mems (s.asTenant c op f) = mems s := by
  unfold State.asTenant
  split <;> simp [hf]

@[simp] theorem mems_asAdmin (s : State) (c : Ctx) (op : Nat) (f : State → State) (hf : ∀ u, mems (f u) = mems u) :
    mems (s.asAdmin c op f) = mems s := by
  unfold State.asAdmin
  split <;> simp [hf]

@[simp] theorem mems_load (s : State) (c : Ctx) (o : LoadOps) : mems (s.load c o) = mems s := by
  simp [State.load]

@[simp] theorem mems_run (s : State) (c : Ctx) (o : RunOps) : mems (s.run c o) = mems s := by
  unfold State.run
  refine mems_asTenant _ _ _ _ fun u p => ?_
  dsimp only
  repeat' split
  all_goals simp

@[simp] theorem mems_preempt (s : State) (c : Ctx) (job : Nat) : mems (s.preempt c job) = mems s := by
  simp [State.preempt]

@[simp] theorem mems_resume (s : State) (c : Ctx) (entry prio row : Nat) : mems (s.resume c entry prio row) = mems s := by
  unfold State.resume
  refine mems_asTenant _ _ _ _ fun u p => ?_
  dsimp only
  repeat' split
  all_goals simp

@[simp] theorem mems_discard (s : State) (c : Ctx) (entry : Nat) : mems (s.discard c entry) = mems s := by
  simp [State.discard]

@[simp] theorem mems_wananSubmit (s : State) (c : Ctx) (job x len : Nat) : mems (s.wananSubmit c job x len) = mems s := by
  simp [State.wananSubmit]

@[simp] theorem mems_wananEnd (s : State) (p : Nat) (w : WananX) (code : Nat) : mems (s.wananEnd p w code) = mems s := by
  simp [State.wananEnd]

@[simp] theorem mems_execWananCommand (p : PartNo) (w : Option WananCmd) (s : State) :
    After (fun t => mems t = mems s) (execWananCommand p w s) := by
  unfold execWananCommand
  dsimp only
  repeat' split
  all_goals simp

@[simp] theorem mems_tenantCreate (s : State) (c : Ctx) (t : Nat) (expert : Bool) (maxqp : Nat) (token : BitVec 64) :
    mems (s.tenantCreate c t expert maxqp token) = mems s := by
  unfold State.tenantCreate
  refine mems_asAdmin _ _ _ _ fun u => ?_
  have h : ∀ (v : State), mems (acctCounters.foldl (fun (s : State) k =>
      { s with counters := aput s.counters (k.address t) 0, snaps := aput s.snaps (k.address t) 0 }) v) = mems v :=
    fun v => mems_foldl _ _ _ fun _ _ => rfl
  dsimp only
  repeat' split
  all_goals simp [h]

@[simp] theorem mems_tenantRemove (s : State) (c : Ctx) (t : Nat) : mems (s.tenantRemove c t) = mems s := by
  simp [State.tenantRemove]

@[simp] theorem mems_partCreate (s : State) (c : Ctx) (o : PartOps) : mems (s.partCreate c o) = mems s := by
  unfold State.partCreate
  refine mems_asAdmin _ _ _ _ fun u => ?_
  dsimp only
  repeat' split
  all_goals simp

@[simp] theorem mems_partRemove (s : State) (c : Ctx) (p : Nat) : mems (s.partRemove c p) = mems s := by
  simp [State.partRemove]

@[simp] theorem mems_grant (s : State) (c : Ctx) (o : GrantOps) : mems (s.grant c o) = mems s := by
  unfold State.grant
  refine mems_asAdmin _ _ _ _ fun u => ?_
  dsimp only
  repeat' split
  all_goals simp

@[simp] theorem mems_execLoad (c : Ctx) (o : LoadOps) (s : State) : After (fun t => mems t = mems s) (execLoad c o s) := by
  simp [execLoad]

@[simp] theorem mems_execRun (c : Ctx) (o : RunOps) (s : State) : After (fun t => mems t = mems s) (execRun c o s) := by
  simp [execRun]

@[simp] theorem mems_execPreempt (c : Ctx) (job : BitVec 16) (s : State) : After (fun t => mems t = mems s) (execPreempt c job s) := by
  simp [execPreempt]

@[simp] theorem mems_execResume (c : Ctx) (entry prio row : Byte) (s : State) :
    After (fun t => mems t = mems s) (execResume c entry prio row s) := by
  simp [execResume]

@[simp] theorem mems_execDiscard (c : Ctx) (entry : Byte) (s : State) : After (fun t => mems t = mems s) (execDiscard c entry s) := by
  simp [execDiscard]

@[simp] theorem mems_execWananSubmit (c : Ctx) (job : BitVec 16) (stream len : BitVec 64) (s : State) :
    After (fun t => mems t = mems s) (execWananSubmit c job stream len s) := by
  simp [execWananSubmit]

@[simp] theorem mems_execTenantCreate (c : Ctx) (tenant : Byte) (expert : Bool) (maxqp : BitVec 16) (token : BitVec 64) (s : State) :
    After (fun t => mems t = mems s) (execTenantCreate c tenant expert maxqp token s) := by
  simp [execTenantCreate]

@[simp] theorem mems_execTenantRemove (c : Ctx) (tenant : Byte) (s : State) :
    After (fun t => mems t = mems s) (execTenantRemove c tenant s) := by
  simp [execTenantRemove]

@[simp] theorem mems_execPartCreate (c : Ctx) (o : PartOps) (s : State) : After (fun t => mems t = mems s) (execPartCreate c o s) := by
  simp [execPartCreate]

@[simp] theorem mems_execPartRemove (c : Ctx) (part : Byte) (s : State) :
    After (fun t => mems t = mems s) (execPartRemove c part s) := by
  simp [execPartRemove]

@[simp] theorem mems_execGrant (c : Ctx) (o : GrantOps) (s : State) : After (fun t => mems t = mems s) (execGrant c o s) := by
  simp [execGrant]

/-! ### The pitch -/

@[simp] theorem mems_settleSite (s : State) (a : Nat) : mems (s.settleSite a) = mems s := by
  simp [State.settleSite]

@[simp] theorem mems_newPitchSite (s : State) (a : Nat) : mems (s.newPitchSite a) = mems s := by
  simp [State.newPitchSite]

@[simp] theorem mems_countWaits (s : State) (a : Nat) : mems (s.countWaits a) = mems s := by
  simp [State.countWaits]

@[simp] theorem mems_sample (s : State) : mems s.sample = mems s := by
  simp [State.sample]

@[simp] theorem mems_takeLength (s : State) : mems s.takeLength = mems s := by
  unfold State.takeLength
  split <;> simp

@[simp] theorem mems_nextPitch (s : State) : mems s.nextPitch = mems s := by
  unfold State.nextPitch
  dsimp only
  split <;> simp

@[simp] theorem mems_takeSeeds (s : State) : mems s.takeSeeds = mems s := by
  simp [State.takeSeeds]

@[simp] theorem mems_endInactive (s : State) : mems s.endInactive = mems s := by
  simp [State.endInactive]

@[simp] theorem mems_endPitch (s : State) : mems s.endPitch.1 = mems s := by
  simp [State.endPitch]

end Sys2Proof.Machine
end

section
/-! SUPPORT. What writes memory keeps its canonical form (R263, R340). -/

namespace Sys2Proof.Machine

/-- The canonical form of the three maps of memory. -/
def memsOk (m : List (Nat × Byte) × List (Nat × BitVec 2) × List (Nat × BitVec 8)) : Prop :=
  mcanon 0 m.1 = true ∧ mcanon 0 m.2.1 = true ∧ mcanon 0 m.2.2 = true

/-- A fold keeps the canonical form when its steps do. -/
@[simp] theorem memsOk_foldl {β : Type} {g : State → β → State} (l : List β) {s : State}
    (hg : ∀ s x, memsOk (mems s) → memsOk (mems (g s x))) (h : memsOk (mems s)) : memsOk (mems (l.foldl g s)) :=
  foldl_inv (fun s => memsOk (mems s)) g (fun s x => hg s x) l s h

@[simp] theorem memsOk_ite {c : Prop} [Decidable c] {s t : State} (h : memsOk (mems s)) (k : memsOk (mems t)) :
    memsOk (if c then mems s else mems t) := by
  split <;> assumption

@[simp] theorem memsOk_putByte {s : State} (x : Nat) (b : Byte) (h : memsOk (mems s)) : memsOk (mems (s.putByte x b)) := MemOk.putByte h x b
@[simp] theorem memsOk_setPois {s : State} (w : Nat) (p : Bool) (h : memsOk (mems s)) : memsOk (mems (s.setPois w p)) := MemOk.setPois h w p
@[simp] theorem memsOk_putRaw {s : State} (x : Nat) (l : List Byte) (h : memsOk (mems s)) : memsOk (mems (s.putRaw x l)) := MemOk.putRaw h x l
@[simp] theorem memsOk_putBytes {s : State} (x : Nat) (l : List Byte) (p : Bool) (h : memsOk (mems s)) :
    memsOk (mems (s.putBytes x l p)) := MemOk.putBytes h x l p
@[simp] theorem memsOk_putWord {s : State} (x : Nat) (w : Word) (p : Bool) (h : memsOk (mems s)) :
    memsOk (mems (s.putWord x w p)) := MemOk.putWord h x w p

/-- One raw word put keeps the canonical form. -/
theorem memsOk_putRawWord {t : State} (k : Nat) (sy : BitVec 8) (p : BitVec 2) (h : memsOk (mems t)) :
    memsOk (mems { t with synd := mput 0 t.synd k sy, poison := mput 0 t.poison k p }) :=
  ⟨h.1, mcanon_mput _ _ _ _ h.2.1, mcanon_mput _ _ _ _ h.2.2⟩

@[simp] theorem memsOk_putRawWords {s : State} (x : Nat) (l : List RawWord) (h : memsOk (mems s)) : memsOk (mems (s.putRawWords x l)) := by
  induction l generalizing s x with
  | nil => exact h
  | cons w l ih =>
    have hb := memsOk_putRaw x (leBytes w.data.toNat 8) h
    unfold State.putRawWords
    exact ih (x + 8) (memsOk_putRawWord _ _ _ hb)

@[simp] theorem memsOk_zeroRange {s : State} (lo hi : Nat) (h : memsOk (mems s)) : memsOk (mems (s.zeroRange lo hi)) :=
  ⟨mcanon_filter _ _ _ h.1, mcanon_filter _ _ _ h.2.1, mcanon_filter _ _ _ h.2.2⟩

/-- Entries put into a map in canonical form leave it in canonical form. -/
theorem mcanon_foldl_mput {α β : Type} [DecidableEq α] (d : α) (k : β → Nat) (v : β → α) (l : List β) (m : List (Nat × α))
    (h : mcanon d m = true) : mcanon d (l.foldl (fun m y => mput d m (k y) (v y)) m) = true :=
by
  induction l generalizing m with
  | nil => exact h
  | cons y l ih => exact ih _ (mcanon_mput d m _ _ h)

/-- A fold over pairs keeps what its steps keep of the state. -/
theorem foldl_snd_inv {α β : Type} (P : State → Prop) (g : α × State → β → α × State) (h : ∀ (p : α × State) x q, g p x = q → P p.2 → P q.2)
    (l : List β) (p : α × State) (hp : P p.2) : P (l.foldl g p).2 := by
  induction l generalizing p with
  | nil => exact hp
  | cons x l ih => exact ih _ (h p x _ rfl hp)

theorem foldl_fst_inv {α β : Type} (P : State → Prop) (g : State × α → β → State × α) (h : ∀ (p : State × α) x q, g p x = q → P p.1 → P q.1)
    (l : List β) (p : State × α) (hp : P p.1) : P (l.foldl g p).1 := by
  induction l generalizing p with
  | nil => exact hp
  | cons x l ih => exact ih _ (h p x _ rfl hp)

section
variable {s : State}

theorem memsOk_atSite (p : At) {f : State → State} (hf : ∀ u, memsOk (mems u) → memsOk (mems (f u))) (ok : memsOk (mems s)) :
    memsOk (mems (atSite p f s)) := by
  unfold atSite
  split
  · exact hf _ (by simpa using ok)
  · exact ok

theorem memsOk_atEngine (p : At) {f : State → State} (hf : ∀ u, memsOk (mems u) → memsOk (mems (f u))) (ok : memsOk (mems s)) :
    memsOk (mems (atEngine p f s)) := by
  unfold atEngine
  split
  · exact memsOk_atSite p hf ok
  · exact ok

theorem memsOk_packet (s : State) (k typ : Nat) (h : PktHdr) (data : List Byte) (bad : StreamX → Bool) {f : State → StreamX → State}
    (hf : ∀ u x, memsOk (mems u) → memsOk (mems (f u x))) (ok : memsOk (mems s)) :
    memsOk (mems (s.packet k typ h data bad f)) := by
  unfold State.packet
  dsimp only
  repeat' split
  all_goals simp [ok, hf]

theorem memsOk_viaGate (i : Instr) (n src : Nat) {f : State → State} (hf : ∀ u, memsOk (mems u) → memsOk (mems (f u)))
    (ok : memsOk (mems s)) : memsOk (mems (s.viaGate i n src f)) := by
  unfold State.viaGate
  split
  · exact hf s ok
  · dsimp only
    split <;> simp [ok]

theorem memsOk_asTenant (c : Ctx) (op : Nat) {f : State → Nat → State} (hf : ∀ u p, memsOk (mems u) → memsOk (mems (f u p)))
    (ok : memsOk (mems s)) : memsOk (mems (s.asTenant c op f)) := by
  unfold State.asTenant
  split <;> simp [ok, hf]

theorem memsOk_needsV3 (c : Ctx) (op : Nat) {f : State → State} (hf : ∀ u, memsOk (mems u) → memsOk (mems (f u)))
    (ok : memsOk (mems s)) : memsOk (mems (s.needsV3 c op f)) := by
  unfold State.needsV3
  split <;> simp [ok, hf]
end

theorem memsOk_synd {t : State} (k : Nat) (v : BitVec 8) (h : memsOk (mems t)) : memsOk (mems { t with synd := mput 0 t.synd k v }) :=
  ⟨h.1, h.2.1, mcanon_mput _ _ _ _ h.2.2⟩
theorem memsOk_memc {t : State} (m : MemX) (h : memsOk (mems t)) : memsOk (mems { t with memc := m }) := h

theorem memsOk_board {t : State} (b : BoardX) (h : memsOk (mems t)) : memsOk (mems { t with board := b }) := h

/-! ### The matrix engine -/

@[simp] theorem memsOk_execMsaveSlotRead (p : At) (s : State) (ok : memsOk (mems s)) :
    After (fun t => memsOk (mems t)) (execMsaveSlotRead p s) := by
  refine memsOk_atEngine p (fun u hu => ?_) ok
  dsimp only
  repeat' split
  all_goals simp [hu]
  refine memsOk_foldl _ (fun u w hu => ?_) (memsOk_putBytes _ _ _ (by simpa using hu))
  split
  · exact memsOk_foldl _ (fun u k hu => memsOk_setPois _ _ hu) hu
  · exact hu

/-! ### External memory -/

@[simp] theorem memsOk_frameUe (s : State) (st ch : Nat) (o : FrameObs) (patrol : Bool) (ok : memsOk (mems s)) :
    memsOk (mems (s.frameUe st ch o patrol)) := by
  have h : ∀ u (l : List Nat), memsOk (mems u) → memsOk (mems (l.foldl (fun (s : State) w => s.setPois (32 * st + w) true) u)) :=
    fun u l => memsOk_foldl l fun u w hu => memsOk_setPois _ _ hu
  unfold State.frameUe
  dsimp only
  rw [mems_note, mems_count]
  cases patrol
  · exact h _ _ (by simpa using ok)
  · exact h _ _ ok

@[simp] theorem memsOk_readFrame (s : State) (st ch : Nat) (o : FrameObs) (patrol : Bool) (ok : memsOk (mems s)) :
    memsOk (mems (s.readFrame st ch o patrol)) := by
  unfold State.readFrame
  dsimp only
  split <;> simp [ok]

@[simp] theorem memsOk_execFrameRead (a : Addr) (o : FrameObs) (s : State) (ok : memsOk (mems s)) :
    After (fun t => memsOk (mems t)) (execFrameRead a o s) := by
  unfold execFrameRead
  dsimp only
  repeat' split
  all_goals simp [ok]

@[simp] theorem memsOk_writeBackFrame (s : State) (st : Nat) (o : FrameObs) (ok : memsOk (mems s)) :
    memsOk (mems (s.writeBackFrame st o)) := by
  unfold State.writeBackFrame
  exact memsOk_memc _ (memsOk_foldl _ (fun u x hu => memsOk_putWord _ _ _ hu) ok)

@[simp] theorem memsOk_scrubFix (s : State) (k st : Nat) (o : FrameObs) (ok : memsOk (mems s)) :
    memsOk (mems (s.scrubFix k st o)) := by
  simp [State.scrubFix, ok]

@[simp] theorem memsOk_execFrameReread (a : Addr) (o : FrameObs) (s : State) (ok : memsOk (mems s)) :
    After (fun t => memsOk (mems t)) (execFrameReread a o s) := by
  have e : execFrameReread = delta% execFrameReread := rfl
  rw [e]
  beta_reduce
  extract_lets st
  clear_value st
  generalize s.locate (256 * st) = l
  rw [after_next]
  cases s.memc.rereads.find? (fun r => r.addr == 256 * st) with
  | none => exact ok
  | some r =>
    cases l with
    | ok ch off =>
      dsimp only
      repeat' split
      all_goals simp [ok]
    | unbacked => exact ok
    | retired ch => exact ok

@[simp] theorem memsOk_readCells (s : State) (st ch : Nat) (ok : memsOk (mems s)) : memsOk (mems (s.readCells st ch)) := by
  unfold State.readCells
  dsimp only
  split <;> simp [ok]

@[simp] theorem memsOk_extRead (s : State) (x n : Nat) (ok : memsOk (mems s)) : memsOk (mems (s.extRead x n).2) := by
  unfold State.extRead
  dsimp only
  repeat' split
  all_goals simp [ok]

@[simp] theorem memsOk_extWrite (s : State) (x : Nat) (l : List RawWord) (ok : memsOk (mems s)) : memsOk (mems (s.extWrite x l)) := by
  simp [State.extWrite, ok]

@[simp] theorem memsOk_extReads (s : State) (o : TurnOwner) (x n : Nat) (ok : memsOk (mems s)) :
    memsOk (mems (s.extReads o x n).2) := by
  unfold State.extReads
  refine foldl_snd_inv (fun t => memsOk (mems t)) _ (fun acc r q hq h => ?_) _ _ ok
  have hr := memsOk_extRead (acc.2.edgeTurn o r.1) r.1 r.2 (by simpa using h)
  beta_reduce at hq
  generalize (acc.2.edgeTurn o r.1).extRead r.1 r.2 = y at hr hq
  obtain ⟨l, t⟩ := y
  subst hq
  exact hr

@[simp] theorem memsOk_extWrites (s : State) (o : TurnOwner) (x : Nat) (l : List RawWord) (ok : memsOk (mems s)) :
    memsOk (mems (s.extWrites o x l)) := by
  exact memsOk_foldl _ (fun u x hu => memsOk_extWrite _ _ _ (by simpa using hu)) ok

@[simp] theorem memsOk_execFrameWrite (a : Addr) (data : List (Word × Bool)) (s : State) (ok : memsOk (mems s)) :
    After (fun t => memsOk (mems t)) (execFrameWrite a data s) := by
  simp [execFrameWrite, ok]

@[simp] theorem memsOk_execPatrolScrub (ch : ChanNo) (o : FrameObs) (s : State) (ok : memsOk (mems s)) :
    After (fun t => memsOk (mems t)) (execPatrolScrub ch o s) := by
  unfold execPatrolScrub
  dsimp only
  repeat' split
  all_goals simp [ok]

@[simp] theorem memsOk_execGroupReformComplete (k : BitVec 2) (s : State) (ok : memsOk (mems s)) :
    After (fun t => memsOk (mems t)) (execGroupReformComplete k s) := by
  simp [execGroupReformComplete, ok]

/-! ### Stream programs -/

@[simp] theorem memsOk_moveReq (s : State) (a n : Nat) (r : Req) (ok : memsOk (mems s)) : memsOk (mems (s.moveReq a n r)) := by
  unfold State.moveReq
  dsimp only
  repeat' split
  all_goals simp [ok]

@[simp] theorem memsOk_execRemoteRequest (p : PAt) (r : BitVec 5) (s : State) (ok : memsOk (mems s)) :
    After (fun t => memsOk (mems t)) (execRemoteRequest p r s) := by
  unfold execRemoteRequest
  dsimp only
  repeat' split
  all_goals simp [ok]

@[simp] theorem memsOk_execRequestComplete (p : PAt) (r : BitVec 5) (s : State) (ok : memsOk (mems s)) :
    After (fun t => memsOk (mems t)) (execRequestComplete p r s) := by
  unfold execRequestComplete
  dsimp only
  repeat' split
  all_goals simp [ok]

/-! ### The vector engine -/

@[simp] theorem memsOk_putPadWords (s : State) (a off : Nat) (l : List (Nat × Bool)) (ok : memsOk (mems s)) :
    memsOk (mems (s.putPadWords a off l)) := by
  exact memsOk_foldl _ (fun u x hu => memsOk_putWord _ _ _ hu) ok

@[simp] theorem memsOk_writeRow (s : State) (a : Nat) (y : VRow) (ok : memsOk (mems s)) : memsOk (mems (s.writeRow a y)) := by
  unfold State.writeRow
  dsimp only
  repeat' split
  all_goals simp [ok]

@[simp] theorem memsOk_rowPasses (s : State) (a : Nat) (y : VRow) (ok : memsOk (mems s)) : memsOk (mems (s.rowPasses a y)) := by
  simp [State.rowPasses, ok]

@[simp] theorem memsOk_rowMismatch (s : State) (a : Nat) (y : VRow) (ok : memsOk (mems s)) : memsOk (mems (s.rowMismatch a y)) := by
  simp [State.rowMismatch, ok]

@[simp] theorem memsOk_execVectorRowGating (p : At) (u : List LaneUpset) (s : State) (ok : memsOk (mems s)) :
    After (fun t => memsOk (mems t)) (execVectorRowGating p u s) := by
  refine memsOk_atEngine p (fun u hu => ?_) ok
  dsimp only
  repeat' split
  all_goals simp [hu]

/-! ### The traverse -/

@[simp] theorem memsOk_ringRecordWrite (a q : Nat) (s : State) (ok : memsOk (mems s)) : memsOk (mems (ringRecordWrite a q s)) := by
  unfold ringRecordWrite
  dsimp only
  repeat' split
  all_goals simp [ok]

@[simp] theorem memsOk_execRingRecordWrite (p : At) (q : QueueNo) (s : State) (ok : memsOk (mems s)) :
    After (fun t => memsOk (mems t)) (execRingRecordWrite p q s) := by
  exact memsOk_atSite p (fun u hu => memsOk_ringRecordWrite _ _ u hu) ok

/-! ### Power domains -/

@[simp] theorem memsOk_zeroSram (s : State) (kind a : Nat) (ok : memsOk (mems s)) : memsOk (mems (s.zeroSram kind a)) := by
  unfold State.zeroSram
  split <;> simp [ok]

@[simp] theorem memsOk_domOn (s : State) (kind a : Nat) (ok : memsOk (mems s)) : memsOk (mems (s.domOn kind a)) := by
  unfold State.domOn
  dsimp only
  split <;> simp [ok]

@[simp] theorem memsOk_domRetain (s : State) (kind a : Nat) (ok : memsOk (mems s)) : memsOk (mems (s.domRetain kind a)) := by
  simp [State.domRetain, ok]

/-! ### Sections -/

@[simp] theorem memsOk_stageFrame (s : State) (e : Nat) (x : SectX) (i f : Nat) (ok : memsOk (mems s)) :
    memsOk (mems (s.stageFrame e x i f)) := by
  unfold State.stageFrame
  dsimp only
  split <;> simp [ok]

@[simp] theorem memsOk_stageFrames (s : State) (e : Nat) (ok : memsOk (mems s)) : memsOk (mems (s.stageFrames e)) := by
  unfold State.stageFrames
  split
  · exact ok
  · next x _ =>
    dsimp only
    split
    · exact ok
    · rw [mems_modSect]
      exact memsOk_foldl _ (fun u y hu => memsOk_stageFrame u e x y.1 y.2 hu) ok

@[simp] theorem memsOk_beginLoad (s : State) (e : Nat) (restoring : Bool) (ok : memsOk (mems s)) :
    memsOk (mems (s.beginLoad e restoring)) := by
  unfold State.beginLoad
  split
  · exact ok
  · split
    · simpa using ok
    · dsimp only
      rw [mems_modSect, mems_wrs]
      refine memsOk_foldl _ (fun u d hu => memsOk_domOn u d.1 d.2 hu) ?_
      rw [mems_foldl _ _ _ fun _ _ => mems_modSite .., mems_foldl _ _ _ fun _ _ => mems_rearm ..]
      exact ok

theorem memsOk_readStaged (s : State) (e : Nat) (x : SectX) (f : Nat) (ok : memsOk (mems s)) : memsOk (mems (s.readStaged e x f).2) := by
  exact memsOk_extReads _ _ _ _ (memsOk_extReads _ _ _ _ ok)

@[simp] theorem memsOk_execConfigFrameWrite (p : PartNo) (e : EntryNo) (crc1 crc2 : Bool) (s : State) (ok : memsOk (mems s)) :
    After (fun t => memsOk (mems t)) (execConfigFrameWrite p e crc1 crc2 s) := by
  unfold execConfigFrameWrite
  dsimp only
  rw [after_next]
  cases s.sectX? (sectNo p e) with
  | none => exact ok
  | some x =>
    dsimp only
    split
    · exact ok
    · next f l _ =>
      split
      · exact ok
      · have h1 := memsOk_readStaged s (sectNo p e) x f ok
        have h2 := memsOk_readStaged _ (sectNo p e) x f h1
        repeat' split
        all_goals simp [h1, h2]

@[simp] theorem memsOk_restoreMem (s : State) (x : SectX) (home a : Nat) (v : Option SavedSite) (ok : memsOk (mems s)) :
    memsOk (mems (s.restoreMem x home a v)) := by
  unfold State.restoreMem
  dsimp only
  refine memsOk_foldl _ (fun u b hu => memsOk_putRawWords _ _ (memsOk_extReads _ _ _ _ hu)) ?_
  have h : memsOk (mems (if isTarn a then
      (x.img.siteBufs home).foldl (fun s b => s.zeroRange (bufBase x.halves a + b.addr) (bufBase x.halves a + b.addr + b.len)) s
    else s.zeroRange (bufBase x.halves a) (bufBase x.halves a + 0x600000))) := by
    split
    · exact memsOk_foldl _ (fun u b hu => memsOk_zeroRange _ _ hu) ok
    · exact memsOk_zeroRange _ _ ok
  cases v with
  | none => exact h
  | some v =>
    obtain ⟨hm, hp, hs⟩ := h
    exact ⟨mcanon_foldl_mput _ _ _ _ _ hm, mcanon_foldl_mput _ _ _ _ _ hp, mcanon_foldl_mput _ _ _ _ _ hs⟩

@[simp] theorem memsOk_putBack (s : State) (e : Nat) (x : SectX) (ok : memsOk (mems s)) : memsOk (mems (s.putBack e x)) := by
  unfold State.putBack
  dsimp only
  rw [mems_foldl _ _ _ fun _ _ => ?_, mems_foldl _ _ _ fun _ _ => mems_reattach .., mems_countRestored]
  · refine memsOk_foldl _ (fun u v hu => ?_) ok
    rw [mems_modSite, mems_restoreRegs]
    exact memsOk_restoreMem u x v.home _ (some v) hu
  · simp

@[simp] theorem memsOk_armIfReady (s : State) (e : Nat) (ok : memsOk (mems s)) : memsOk (mems (s.armIfReady e)) := by
  unfold State.armIfReady
  repeat' split
  all_goals simp [ok]

@[simp] theorem memsOk_execReconfigComplete (p : PartNo) (e : EntryNo) (s : State) (ok : memsOk (mems s)) :
    After (fun t => memsOk (mems t)) (execReconfigComplete p e s) := by
  unfold execReconfigComplete
  dsimp only
  split <;> simp [ok]

@[simp] theorem memsOk_execRestoreComplete (p : PartNo) (e : EntryNo) (s : State) (ok : memsOk (mems s)) :
    After (fun t => memsOk (mems t)) (execRestoreComplete p e s) := by
  unfold execRestoreComplete
  dsimp only
  split <;> simp [ok]

/-! ### Referees -/

@[simp] theorem memsOk_chooseReferee (s : State) (r : RefX) (ok : memsOk (mems s)) : memsOk (mems (s.chooseReferee r)) := by
  unfold State.chooseReferee
  repeat' split
  all_goals simp [ok]

@[simp] theorem memsOk_installReferee (s : State) (r : RefX) (a : Nat) (v : SavedSite) (ok : memsOk (mems s)) :
    memsOk (mems (s.installReferee r a v)) := by
  unfold State.installReferee
  repeat' split
  all_goals simp [ok]

@[simp] theorem memsOk_runReferee (s : State) (r : RefX) (ok : memsOk (mems s)) : memsOk (mems (s.runReferee r)) := by
  unfold State.runReferee
  repeat' split
  all_goals simp [ok]

@[simp] theorem memsOk_takeRow (a : Nat) (y : VRow) (s : State) (ok : memsOk (mems s)) : memsOk (mems (takeRow a y s)) := by
  simp [takeRow, ok]

@[simp] theorem memsOk_giveVerdict (s : State) (r : RefX) (a : Nat) (ok : memsOk (mems s)) : memsOk (mems (s.giveVerdict r a)) := by
  unfold State.giveVerdict
  split <;> simp [ok]

@[simp] theorem memsOk_settleReferee (s : State) (r : RefX) (ok : memsOk (mems s)) : memsOk (mems (s.settleReferee r)) := by
  unfold State.settleReferee
  repeat' split
  all_goals simp [ok]

/-! ### The schedule -/

@[simp] theorem memsOk_bindAt (s : State) (e : Nat) (ok : memsOk (mems s)) : memsOk (mems (s.bindAt e)) := by
  unfold State.bindAt
  split <;> simp [ok]

@[simp] theorem memsOk_moveTo (s : State) (e r : Nat) (ok : memsOk (mems s)) : memsOk (mems (s.moveTo e r)) := by
  unfold State.moveTo
  split <;> simp [ok]

@[simp] theorem memsOk_relocateAll (s : State) (fenced : List Nat) (marks : List (Nat × Dir)) (ok : memsOk (mems s)) :
    memsOk (mems (s.relocateAll fenced marks)) := by
  unfold State.relocateAll
  split
  · exact ok
  · refine foldl_fst_inv (fun t => memsOk (mems t)) _ (fun acc e q hq h => ?_) _ _ ok
    rw [← hq]
    dsimp only
    repeat' split
    all_goals simp [h]

@[simp] theorem memsOk_fenceOff (s : State) (n : Nat) (ok : memsOk (mems s)) : memsOk (mems (s.fenceOff n)) := by
  simp [State.fenceOff, ok]

@[simp] theorem memsOk_healthActions (s : State) (stalls : List (Nat × Option (Nat × Nat))) (ok : memsOk (mems s)) :
    memsOk (mems (s.healthActions stalls)) := by
  have h1 : ∀ u (l : List RefX), memsOk (mems u) → memsOk (mems (l.foldl (fun (s : State) r => s.settleReferee r) u)) :=
    fun u l => memsOk_foldl l fun u r hu => memsOk_settleReferee u r hu
  have h2 : ∀ u (l : List Nat), memsOk (mems u) → memsOk (mems (l.foldl (fun (s : State) n => s.fenceOff n) u)) :=
    fun u l => memsOk_foldl l fun u n hu => memsOk_fenceOff u n hu
  unfold State.healthActions
  dsimp only
  rw [mems_pauseSuspects, mems_retireLinks]
  refine h2 _ _ (memsOk_relocateAll _ _ _ ?_)
  simp only [mems_modHut, mems_takeStalls, mems_takeConfigHalts]
  rw [mems_foldl _ _ _ fun _ _ => mems_confirmFault ..]
  exact h1 _ _ (by simpa using ok)

@[simp] theorem memsOk_takeParts (s : State) (ok : memsOk (mems s)) : memsOk (mems s.takeParts) := by
  unfold State.takeParts
  dsimp only
  refine memsOk_foldl _ (fun u q hu => ?_) ?_
  · repeat' split
    all_goals simp [hu]
  · rw [mems_keepParts]
    refine memsOk_foldl _ (fun u q hu => ?_) ?_
    · split
      · split
        · simp [hu]
        · rw [mems_modHut]
          exact memsOk_foldl _ (fun u a hu => memsOk_domOn u 1 a hu) hu
      · exact hu
    · rw [mems_keepParts]
      refine memsOk_foldl _ (fun u q hu => ?_) (by simpa using ok)
      split <;> simp [hu]

@[simp] theorem memsOk_takeReferees (s : State) (ok : memsOk (mems s)) : memsOk (mems s.takeReferees) := by
  unfold State.takeReferees
  rw [mems_countRefWait]
  exact memsOk_foldl _ (fun u r hu => memsOk_chooseReferee u r hu)
    (memsOk_foldl _ (fun u r hu => memsOk_runReferee u r hu) ok)

@[simp] theorem memsOk_rearmHalted (s : State) (e : Nat) (x : SectX) (ok : memsOk (mems s)) :
    ∀ t, s.rearmHalted e x = some t → memsOk (mems t) := by
  unfold State.rearmHalted
  split <;> simp [ok]

@[simp] theorem memsOk_takeResume (s : State) (e prio row : Nat) (c : Ctx) (ok : memsOk (mems s)) :
    ∀ t, s.takeResume e prio row c = some t → memsOk (mems t) := by
  intro t ht
  have hj : ∀ u, memsOk (mems (u : State)) → some u = some t → memsOk (mems t) := fun u hu e => Option.some.inj e ▸ hu
  unfold State.takeResume at ht
  split at ht
  · exact hj _ (by simpa using ok) ht
  · next x _ =>
    split at ht
    · cases ht
    · split at ht
      · split at ht <;> exact hj _ (by simpa using ok) ht
      · split at ht <;> exact hj _ (by simpa using ok) ht
      · split at ht <;> exact hj _ (by simpa using ok) ht
      · split at ht
        · exact hj _ (by simpa using ok) ht
        · obtain ⟨u, hu, rfl⟩ := Option.map_eq_some_iff.1 ht
          simpa using memsOk_rearmHalted s e x ok u hu
      · exact hj _ (by simpa using ok) ht

@[simp] theorem memsOk_takeBounds (s : State) (ok : memsOk (mems s)) : memsOk (mems s.takeBounds) := by
  unfold State.takeBounds
  refine memsOk_foldl _ (fun u q hu => ?_) (by simpa using ok)
  split
  · split <;> simp [hu]
  · next e prio row c =>
    cases hr : u.takeResume e prio row c with
    | none => simpa using hu
    | some t => exact memsOk_takeResume u e prio row c hu t hr

@[simp] theorem memsOk_takeDomain (s : State) (q : DomKind × Nat × Nat) (ok : memsOk (mems s)) : memsOk (mems (s.takeDomain q)) := by
  unfold State.takeDomain
  repeat' split
  all_goals simp [ok]

@[simp] theorem memsOk_takeDomains (s : State) (ok : memsOk (mems s)) : memsOk (mems s.takeDomains) := by
  exact memsOk_foldl _ (fun u q hu => memsOk_takeDomain u q hu) ok

@[simp] theorem memsOk_rearmAuto (s : State) (e : Nat) (ok : memsOk (mems s)) : memsOk (mems (s.rearmAuto e)) := by
  unfold State.rearmAuto
  split
  · exact ok
  · next x _ =>
    split
    · exact ok
    · split
      · exact ok
      · next t ht =>
        have := memsOk_rearmHalted s e x ok t ht
        split <;> simp [this]

@[simp] theorem memsOk_readySaved (s : State) (e : Nat) (x : SectX) (ok : memsOk (mems s)) :
    ∀ t, s.readySaved e x = some t → memsOk (mems t) := by
  unfold State.readySaved
  dsimp only
  split <;> simp [ok]

@[simp] theorem memsOk_tryStart (s : State) (failed : List Nat) (e : Nat) (ok : memsOk (mems s)) :
    memsOk (mems (s.tryStart failed e).1) := by
  unfold State.tryStart
  split
  · exact ok
  · next x _ =>
    dsimp only
    split
    · next t ht =>
      have h : memsOk (mems t) := by
        split at ht
        · split at ht
          · exact memsOk_readySaved s e x ok t ht
          · cases ht
            exact ok
        · cases ht
      exact memsOk_beginLoad _ _ _ h
    · split <;> split <;> simp [ok]

@[simp] theorem memsOk_takeStarts (s : State) (ok : memsOk (mems s)) : memsOk (mems s.takeStarts) := by
  refine memsOk_foldl _ (fun u p hu => ?_) ok
  exact foldl_fst_inv (fun t => memsOk (mems t)) _ (fun acc e q hq h => hq ▸ memsOk_tryStart _ _ _ h) _ _ hu

@[simp] theorem memsOk_pfStartAt (s : State) (e a : Nat) (ok : memsOk (mems s)) : memsOk (mems (s.pfStartAt e a)) := by
  unfold State.pfStartAt
  split
  · exact ok
  · next x _ =>
    dsimp only
    split
    · exact ok
    · split
      · rw [mems_modSect, mems_foldl _ _ _ fun _ _ => mems_pfBegin ..]
        exact ok
      · exact memsOk_foldl _ (fun u d hu => memsOk_domOn u d.1 d.2 hu) ok

@[simp] theorem memsOk_pfStart (s : State) (e : Nat) (ok : memsOk (mems s)) : memsOk (mems (s.pfStart e)) := by
  unfold State.pfStart
  split
  · exact ok
  · split
    · exact ok
    · exact memsOk_foldl _ (fun u a hu => memsOk_pfStartAt u e a hu) ok

@[simp] theorem memsOk_sweepDomains (s : State) (ok : memsOk (mems s)) : memsOk (mems s.sweepDomains) := by
  unfold State.sweepDomains
  split
  · exact ok
  · refine memsOk_foldl _ (fun u n hu => memsOk_domOn u _ _ hu) (memsOk_foldl _ (fun u n hu => ?_) ?_)
    · refine memsOk_foldl _ (fun u t hu => ?_) hu
      dsimp only
      split <;> simp [hu]
    · refine memsOk_foldl _ (fun u a hu => ?_) ok
      split <;> simp [hu]

@[simp] theorem memsOk_scheduleActions (s : State) (ok : memsOk (mems s)) : memsOk (mems s.scheduleActions) := by
  unfold State.scheduleActions
  refine memsOk_sweepDomains _ (memsOk_foldl _ (fun u e hu => memsOk_pfStart u e hu) (memsOk_takeStarts _
    (memsOk_foldl _ (fun u e hu => memsOk_rearmAuto u e hu) ?_)))
  rw [mems_foldl _ _ _ fun _ _ => mems_runIfArmed ..]
  refine memsOk_foldl _ (fun u e hu => ?_) (memsOk_takeDomains _ (memsOk_takeBounds _ ?_))
  · split <;> simp [hu]
  · rw [mems_takeWanan]
    exact memsOk_takeReferees _ (memsOk_takeParts _ ok)

/-! ### Digests -/

@[simp] theorem memsOk_leafWords (s : State) (x n : Nat) (ok : memsOk (mems s)) : memsOk (mems (s.leafWords x n).2) := by
  unfold State.leafWords
  split <;> simp [ok]

@[simp] theorem memsOk_execLeafRead (p : PartNo) (i : BitVec 24) (s : State) (ok : memsOk (mems s)) :
    After (fun t => memsOk (mems t)) (execLeafRead p i s) := by
  unfold execLeafRead
  dsimp only
  repeat' split
  all_goals simp [ok]

@[simp] theorem memsOk_writeLeafList (s : State) (p : Nat) (l : List (List Byte)) (ok : memsOk (mems s)) :
    memsOk (mems (s.writeLeafList p l)) := by
  unfold State.writeLeafList
  dsimp only
  split
  · exact ok
  · split
    · exact memsOk_foldl _ (fun u y hu => memsOk_extWrites u .hut _ _ hu) ok
    · simpa using ok

@[simp] theorem memsOk_execDigestComplete (p : PartNo) (s : State) (ok : memsOk (mems s)) :
    After (fun t => memsOk (mems t)) (execDigestComplete p s) := by
  unfold execDigestComplete
  dsimp only
  repeat' split
  all_goals simp [ok]

/-! ### Health -/

@[simp] theorem memsOk_execCorrectedWriteBack (a : Addr) (written : Bool) (s : State) (ok : memsOk (mems s)) :
    After (fun t => memsOk (mems t)) (execCorrectedWriteBack a written s) := by
  unfold execCorrectedWriteBack
  dsimp only
  rw [after_next]
  split
  · exact ok
  · exact memsOk_synd _ _ (memsOk_putRaw _ _ ok)

/-! ### Register commands -/

@[simp] theorem memsOk_listAt (s : State) (x n : Nat) (ok : memsOk (mems s)) : memsOk (mems (s.listAt x n).2) := by
  simp [State.listAt, ok]

@[simp] theorem memsOk_regWriteList (s : State) (c : Ctx) (x n : Nat) (ok : memsOk (mems s)) :
    memsOk (mems (s.regWriteList c x n)) := by
  unfold State.regWriteList
  have h := memsOk_listAt s x n ok
  repeat' split
  · exact ok
  · simpa using ok
  · next hw => simpa [h] using congrArg memsOk (mems_of_fst hw)
  · next hw => simpa [h] using congrArg memsOk (mems_of_fst hw)

@[simp] theorem memsOk_execRegWriteList (c : Ctx) (list : BitVec 64) (count : BitVec 16) (s : State) (ok : memsOk (mems s)) :
    After (fun t => memsOk (mems t)) (execRegWriteList c list count s) := by
  exact memsOk_needsV3 c _ (fun u hu => memsOk_regWriteList u c _ _ hu) ok

/-! ### Streams and start-up -/

@[simp] theorem memsOk_execFrame (slot : SlotNo) (h : PktHdr) (data : List Byte) (s : State) (ok : memsOk (mems s)) :
    After (fun t => memsOk (mems t)) (execFrame slot h data s) := by
  refine memsOk_packet s _ _ _ _ _ (fun u x hu => ?_) ok
  dsimp only
  split
  · simpa using hu
  · rw [mems_takePacket]
    split
    · split
      · exact memsOk_extWrites u .config _ _ hu
      · exact hu
    · exact hu

@[simp] theorem memsOk_stage (s : State) (p e : Nat) (g : SectionImage) (o : LoadOps) (ok : memsOk (mems s)) :
    memsOk (mems (s.stage p e g o)) := by
  simp [State.stage, ok]

@[simp] theorem memsOk_execLoaderCheck (p : PartNo) (img : SectionImage) (s : State) (ok : memsOk (mems s)) :
    After (fun t => memsOk (mems t)) (execLoaderCheck p img s) := by
  unfold execLoaderCheck
  dsimp only
  repeat' split
  all_goals simp [ok]

@[simp] theorem memsOk_stepMemory (s : State) (bad : List ChanNo) (ok : memsOk (mems s)) : memsOk (mems (s.stepMemory bad)) := by
  have h : memsOk (mems ((List.range 4).foldl (fun (s : State) k => s.formGroup k)
      (bad.foldl (fun s c => if s.chanState c.toNat = 3 ∨ c.toNat ≥ 192 then s
        else (s.setChan c.toNat 3).record 3 c.toNat true [3, 0]) s.readRecord))) := by
    rw [mems_foldl _ _ _ fun _ _ => mems_formGroup .., mems_foldl _ _ _ fun _ _ => ?_, mems_readRecord]
    · exact ok
    · split <;> simp
  have hz := memsOk_foldl (List.range 4) (g := fun s k =>
    if s.groupState k = 4 then s else s.zeroRange (k * groupSize) ((k + 1) * groupSize)) (fun u k hu => by
      split
      · exact hu
      · exact memsOk_zeroRange _ _ hu) h
  unfold State.stepMemory
  extract_lets s1 s2 s3 s4
  split
  · rw [mems_startFail]
    exact hz
  · rw [mems_nextStep]
    exact hz

@[simp] theorem memsOk_execStartupStep (o : StepObs) (s : State) (ok : memsOk (mems s)) :
    After (fun t => memsOk (mems t)) (execStartupStep o s) := by
  unfold execStartupStep
  repeat' split
  all_goals simp [ok]

/-! ### The board -/

@[simp] theorem memsOk_hardReset (s : State) (straps : Word) : memsOk (mems (s.hardReset straps)) := by
  unfold State.hardReset
  dsimp only
  rw [mems_strapRegs]
  exact ⟨rfl, rfl, rfl⟩

@[simp] theorem memsOk_execPwrgdRise (s : State) (ok : memsOk (mems s)) : After (fun t => memsOk (mems t)) (execPwrgdRise s) := by
  simp [execPwrgdRise, ok]

@[simp] theorem memsOk_execInputUndervoltage (s : State) :
    After (fun t => memsOk (mems t)) (execInputUndervoltage s) := by
  simp [execInputUndervoltage]

@[simp] theorem memsOk_execPorstNAssert (s : State) :
    After (fun t => memsOk (mems t)) (execPorstNAssert s) := by
  simp [execPorstNAssert]

@[simp] theorem memsOk_execPorstNDeassert (st : Straps) (s : State) (ok : memsOk (mems s)) :
    After (fun t => memsOk (mems t)) (execPorstNDeassert st s) := by
  simp [execPorstNDeassert, ok]

@[simp] theorem memsOk_thermTrip (s : State) : memsOk (mems s.thermTrip) := by
  simp [State.thermTrip]

@[simp] theorem memsOk_execTemperatureSample (tj : BitVec 12) (s : State) (ok : memsOk (mems s)) :
    After (fun t => memsOk (mems t)) (execTemperatureSample tj s) := by
  simp [execTemperatureSample, ok]

@[simp] theorem memsOk_execThermalWindow (maxTj : BitVec 12) (watts : BitVec 16) (s : State) (ok : memsOk (mems s)) :
    After (fun t => memsOk (mems t)) (execThermalWindow maxTj watts s) := by
  unfold execThermalWindow
  split <;> simp [ok]

@[simp] theorem memsOk_beginWake (s : State) (ok : memsOk (mems s)) : memsOk (mems s.beginWake) := by
  unfold State.beginWake
  split
  · exact ok
  · dsimp only
    rw [mems_modBoard]
    exact memsOk_foldl _ (fun u d hu => memsOk_domOn u _ _ hu) ok

/-! ### The host interface -/

@[simp] theorem memsOk_hostPut (s : State) (x : Nat) (data : List Byte) (ok : memsOk (mems s)) : memsOk (mems (s.hostPut x data)) := by
  simp [State.hostPut, ok]

@[simp] theorem memsOk_rdmaWrite (s : State) (q : Nat) (rkey : BitVec 32) (x : Nat) (data : List Byte) (ok : memsOk (mems s)) :
    memsOk (mems (s.rdmaWrite q rkey x data)) := by
  unfold State.rdmaWrite
  split <;> simp [ok]

@[simp] theorem memsOk_rdmaRead (s : State) (q : Nat) (rkey : BitVec 32) (x len : Nat) (ok : memsOk (mems s)) :
    memsOk (mems (s.rdmaRead q rkey x len)) := by
  unfold State.rdmaRead
  dsimp only
  repeat' split
  all_goals simp [ok]

@[simp] theorem memsOk_execRdmaWrite (n : QpNo) (rkey : BitVec 32) (a : BitVec 64) (data : List Byte) (s : State) (ok : memsOk (mems s)) :
    After (fun t => memsOk (mems t)) (execRdmaWrite n rkey a data s) := by
  exact memsOk_viaGate _ _ _ (fun u hu => memsOk_rdmaWrite u _ _ _ _ hu) ok

@[simp] theorem memsOk_execRdmaRead (n : QpNo) (rkey : BitVec 32) (a : BitVec 64) (len : BitVec 32) (s : State) (ok : memsOk (mems s)) :
    After (fun t => memsOk (mems t)) (execRdmaRead n rkey a len s) := by
  exact memsOk_viaGate _ _ _ (fun u hu => memsOk_rdmaRead u _ _ _ _ hu) ok

@[simp] theorem memsOk_takeEntry (s : State) (q i : Nat) (busy : Bool) (ok : memsOk (mems s)) :
    memsOk (mems (s.takeEntry q i busy).1) := by
  unfold State.takeEntry
  dsimp only
  split <;> simp [ok]

theorem memsOk_takeEntries {s : State} {q ci : Nat} {l : List Nat} {y : State × Bool}
    (hy : l.foldl (fun (acc : State × Bool) k => acc.1.takeEntry q ((ci + k) % 2 ^ 32) acc.2) (s, false) = y) (ok : memsOk (mems s)) :
    memsOk (mems y.1) := by
  rw [← hy]
  refine foldl_fst_inv (fun t => memsOk (mems t)) _ (fun acc k p hp h => ?_) _ _ ok
  have hr := memsOk_takeEntry acc.1 q ((ci + k) % 2 ^ 32) acc.2 h
  beta_reduce at hp
  rw [hp] at hr
  exact hr

@[simp] theorem memsOk_doorbell (s : State) (q pi cqci : Nat) (ok : memsOk (mems s)) : memsOk (mems (s.doorbell q pi cqci)) := by
  unfold State.doorbell
  split
  · exact ok
  · change memsOk (mems (ite _ _ _))
    split
    · rw [mems_loseQp]
      exact memsOk_board _ (by simpa using ok)
    · generalize hy : List.foldl _ _ _ = y
      have h := memsOk_takeEntries hy (memsOk_board _ (by simpa using ok))
      obtain ⟨t, busy⟩ := y
      rw [← mems_wr t F.GATE_QP_CI 0 q pi] at h
      exact h

@[simp] theorem memsOk_execDoorbell (n : QpNo) (pi cqci : BitVec 32) (s : State) (ok : memsOk (mems s)) :
    After (fun t => memsOk (mems t)) (execDoorbell n pi cqci s) := by
  exact memsOk_viaGate _ _ _ (fun u hu => memsOk_doorbell u _ _ _ hu) ok

@[simp] theorem memsOk_gateRun (s : State) (i : Instr) (ok : memsOk (mems s)) : memsOk (mems (s.gateRun i)) := by
  unfold State.gateRun
  split <;> simp [ok]

@[simp] theorem memsOk_execWakeComplete (s : State) (ok : memsOk (mems s)) :
    After (fun t => memsOk (mems t)) (execWakeComplete s) := by
  unfold execWakeComplete
  rw [after_next]
  split
  · exact ok
  · exact memsOk_foldl _ (fun u i hu => memsOk_gateRun u i hu) (by simpa using ok)

/-! ### Host commands -/

theorem memsOk_rangeList (s : State) (c : Ctx) (x n : Nat) (ok : memsOk (mems s)) : memsOk (mems (s.rangeList c x n).2) := by
  unfold State.rangeList
  split
  · exact ok
  · exact memsOk_listAt _ _ _ ok

@[simp] theorem memsOk_digestSet (s : State) (c : Ctx) (o : DigestOps) (ok : memsOk (mems s)) : memsOk (mems (s.digestSet c o)) := by
  refine memsOk_needsV3 c _ (fun u hu => memsOk_asTenant c _ (fun u p hu => ?_) hu) ok
  have h := memsOk_rangeList u c o.list.toNat o.count.toNat hu
  split
  · next hr => simpa [mems_of_snd hr] using h
  · next hr =>
    rw [← mems_of_snd hr] at h
    repeat' split
    all_goals simpa using h

@[simp] theorem memsOk_digestNow (s : State) (c : Ctx) (o : DigestOps) (ok : memsOk (mems s)) : memsOk (mems (s.digestNow c o)) := by
  refine memsOk_needsV3 c _ (fun u hu => memsOk_asTenant c _ (fun u p hu => ?_) hu) ok
  have h := memsOk_rangeList u c o.list.toNat o.count.toNat hu
  split
  · next hr => simpa [mems_of_snd hr] using h
  · next hr =>
    rw [← mems_of_snd hr] at h
    repeat' split
    all_goals simpa using h

@[simp] theorem memsOk_execGrantZeroingComplete (p : PartNo) (k : BitVec 2) (s : State) (ok : memsOk (mems s)) :
    After (fun t => memsOk (mems t)) (execGrantZeroingComplete p k s) := by
  unfold execGrantZeroingComplete
  dsimp only
  rw [after_next]
  split
  · rw [mems_settleZeroing, mems_modHut]
    exact memsOk_foldl _ (fun u g hu => memsOk_zeroRange _ _ hu) ok
  · exact ok

@[simp] theorem memsOk_execDigestSet (c : Ctx) (o : DigestOps) (s : State) (ok : memsOk (mems s)) :
    After (fun t => memsOk (mems t)) (execDigestSet c o s) := by
  simp [execDigestSet, ok]

@[simp] theorem memsOk_execDigestNow (c : Ctx) (o : DigestOps) (s : State) (ok : memsOk (mems s)) :
    After (fun t => memsOk (mems t)) (execDigestNow c o s) := by
  simp [execDigestNow, ok]

@[simp] theorem memsOk_hostCmd (s : State) (c : Ctx) (k : HostCmd) (ok : memsOk (mems s)) : memsOk (mems (s.hostCmd c k)) := by
  cases k with
  | regWriteList l n => exact memsOk_needsV3 c _ (fun u hu => memsOk_regWriteList u c _ _ hu) ok
  | _ => simp [State.hostCmd, ok]

@[simp] theorem memsOk_execCommandDispatch (s : State) (ok : memsOk (mems s)) :
    After (fun t => memsOk (mems t)) (execCommandDispatch s) := by
  unfold execCommandDispatch
  split <;> simp [ok]

/-! ### The pitch -/

@[simp] theorem memsOk_boundaryActions (s : State) (stalls : List (Nat × Option (Nat × Nat))) (ok : memsOk (mems s)) :
    memsOk (mems (s.boundaryActions stalls)) := by
  unfold State.boundaryActions
  refine memsOk_beginWake _ ?_
  simp only [mems_judgeEntry, mems_takeLength, mems_startTests, mems_watchScrubber, mems_applyCorrections, mems_digestActions,
    mems_endInactive]
  refine memsOk_scheduleActions _ ?_
  rw [mems_channelActions]
  exact memsOk_healthActions _ _ (by simpa using ok)

@[simp] theorem memsOk_boundary (s : State) (ok : memsOk (mems s)) : memsOk (mems s.boundary) := by
  simp [State.boundary, ok]

@[simp] theorem memsOk_execPitchBoundary (s : State) (ok : memsOk (mems s)) :
    After (fun t => memsOk (mems t)) (execPitchBoundary s) := by
  simp [execPitchBoundary, ok]

@[simp] theorem memsOk_execPitchWrap (s : State) (ok : memsOk (mems s)) : After (fun t => memsOk (mems t)) (execPitchWrap s) := by
  simp [execPitchWrap, ok]

/-! ### The tick -/

@[simp] theorem memsOk_tick (s : State) (ok : memsOk (mems s)) : memsOk (mems (tick s)) := by
  unfold tick
  repeat' split
  all_goals simp [ok]

end Sys2Proof.Machine
end

section
/-! PROOF. Every step keeps memory in canonical form (R263, R340). -/

namespace Sys2Proof.Proofs

open Sys2Proof Sys2Proof.Machine

/-- A command that leaves memory as it is keeps its canonical form. -/
theorem memsOk_of_mems {s : State} {o : Host.Outcome State Fault Refusal} (ok : memsOk (mems s)) (h : After (fun t => mems t = mems s) o) :
    After (fun t => memsOk (mems t)) o := by
  cases o with
  | next t => exact Eq.mpr (congrArg memsOk h) ok
  | fault => trivial
  | refused => trivial

/-- Every command keeps the canonical form: each by the lemma about what it does. -/
theorem memsOk_exec (i : Instr) (s : State) (ok : memsOk (mems s)) : After (fun t => memsOk (mems t)) (exec i s) :=
  have keep : ∀ {o}, After (fun t => mems t = mems s) o → After (fun t => memsOk (mems t)) o := memsOk_of_mems ok
  match i with
  | .pitchBoundary => memsOk_execPitchBoundary s ok
  | .pitchWrap => memsOk_execPitchWrap s ok
  | .stallWatchdog site => keep (mems_execStallWatchdog site s)
  | .healthySelftestDue spur => keep (mems_execHealthySelftestDue spur s)
  | .watchedSelftestDue spur => keep (mems_execWatchedSelftestDue spur s)
  | .selftestComplete spur signature => keep (mems_execSelftestComplete spur signature s)
  | .idleClose site q => keep (mems_execIdleClose site q s)
  | .claimRetry site => keep (mems_execClaimRetry site s)
  | .scrubStall => keep (mems_execScrubStall s)
  | .scheduledDigest p => keep (mems_execScheduledDigest p s)
  | .bivouacAutoEntry => keep (mems_execBivouacAutoEntry s)
  | .nop p g => keep (mems_execNop p g s)
  | .seqEnd p g => keep (mems_execSeqEnd p g s)
  | .br p o => keep (mems_execBr p o s)
  | .loop p o => keep (mems_execLoop p o s)
  | .lset p o => keep (mems_execLset p o s)
  | .ladd p o => keep (mems_execLadd p o s)
  | .pset p o => keep (mems_execPset p o s)
  | .qtry p o => keep (mems_execQtry p o s)
  | .sel p o => keep (mems_execSel p o s)
  | .tpush p o => keep (mems_execTpush p o s)
  | .sig p o => keep (mems_execSig p o s)
  | .wait p o => keep (mems_execWait p o s)
  | .arrive p o => keep (mems_execArrive p o s)
  | .claim p o => keep (mems_execClaim p o s)
  | .strt p o => keep (mems_execStrt p o s)
  | .tmark p o => keep (mems_execTmark p o s)
  | .mma p o => keep (mems_execMma p o s)
  | .mmerge p o => keep (mems_execMmerge p o s)
  | .msave p o => keep (mems_execMsave p o s)
  | .mfree p o => keep (mems_execMfree p o s)
  | .tileVerdict p u => keep (mems_execTileVerdict p u s)
  | .tileReexecution p u => keep (mems_execTileReexecution p u s)
  | .tileCommit p u => keep (mems_execTileCommit p u s)
  | .tileRelease p u => keep (mems_execTileRelease p u s)
  | .msaveSlotRead p => memsOk_execMsaveSlotRead p s ok
  | .physicalFree p => keep (mems_execPhysicalFree p s)
  | .skippedMmaRelease p => keep (mems_execSkippedMmaRelease p s)
  | .vop p o => keep (mems_execVop p o s)
  | .vrd p o => keep (mems_execVrd p o s)
  | .vcvt p o => keep (mems_execVcvt p o s)
  | .vred p o => keep (mems_execVred p o s)
  | .vld p o => keep (mems_execVld p o s)
  | .vst p o => keep (mems_execVst p o s)
  | .vimm p o => keep (mems_execVimm p o s)
  | .vectorRowEntry p => keep (mems_execVectorRowEntry p s)
  | .vectorRowGating p u => memsOk_execVectorRowGating p u s ok
  | .queueTokenIntake p unit => keep (mems_execQueueTokenIntake p unit s)
  | .steerFire p unit => keep (mems_execSteerFire p unit s)
  | .mergeIntake p unit => keep (mems_execMergeIntake p unit s)
  | .mergeFire p unit => keep (mems_execMergeFire p unit s)
  | .aset p ad imm => keep (mems_execAset p ad imm s)
  | .aadd p ad src imm => keep (mems_execAadd p ad src imm s)
  | .aarg p ad src sh => keep (mems_execAarg p ad src sh s)
  | .aloop p last count => keep (mems_execAloop p last count s)
  | .copy p o => keep (mems_execCopy p o s)
  | .signal p rem cnt add => keep (mems_execSignal p rem cnt add s)
  | .fence p => keep (mems_execFence p s)
  | .streamProgramEnd p => keep (mems_execStreamProgramEnd p s)
  | .streamRequest p => keep (mems_execStreamRequest p s)
  | .remoteRequest p r => memsOk_execRemoteRequest p r s ok
  | .requestComplete p r => memsOk_execRequestComplete p r s ok
  | .streamProgramCompletion p => keep (mems_execStreamProgramCompletion p s)
  | .flitArrival site d f => keep (mems_execFlitArrival site d f s)
  | .linkNak site d w => keep (mems_execLinkNak site d w s)
  | .holdLineDrop site d => keep (mems_execHoldLineDrop site d s)
  | .linkDead site d c => keep (mems_execLinkDead site d c s)
  | .linkMark site d => keep (mems_execLinkMark site d s)
  | .entryDepart p q => keep (mems_execEntryDepart p q s)
  | .receiveEntry p q h e => keep (mems_execReceiveEntry p q h e s)
  | .signalRecord p q h ctr add => keep (mems_execSignalRecord p q h ctr add s)
  | .remoteCreditReturn p q conn n => keep (mems_execRemoteCreditReturn p q conn n s)
  | .mcastCredit p q leaf n => keep (mems_execMcastCredit p q leaf n s)
  | .gapMarker p q => keep (mems_execGapMarker p q s)
  | .controlInject p => keep (mems_execControlInject p s)
  | .signalAdd p m => keep (mems_execSignalAdd p m s)
  | .addAck p discarded => keep (mems_execAddAck p discarded s)
  | .fencedArrivalOffer p bar => keep (mems_execFencedArrivalOffer p bar s)
  | .barrierArrival => keep (mems_execBarrierArrival s)
  | .barrierRelease p bar => keep (mems_execBarrierRelease p bar s)
  | .claimRequest p m => keep (mems_execClaimRequest p m s)
  | .claimReply p seq value poison => keep (mems_execClaimReply p seq value poison s)
  | .connProbe p q conn => keep (mems_execConnProbe p q conn s)
  | .connReply p q conn => keep (mems_execConnReply p q conn s)
  | .connRefuse p q conn noPeer => keep (mems_execConnRefuse p q conn noPeer s)
  | .connCommit p q conn => keep (mems_execConnCommit p q conn s)
  | .connClose p q conn => keep (mems_execConnClose p q conn s)
  | .backoffExpiry site q => keep (mems_execBackoffExpiry site q s)
  | .ringRecordWrite p q => memsOk_execRingRecordWrite p q s ok
  | .frameRead a o => memsOk_execFrameRead a o s ok
  | .frameWrite a data => memsOk_execFrameWrite a data s ok
  | .frameReread a o => memsOk_execFrameReread a o s ok
  | .patrolScrub ch o => memsOk_execPatrolScrub ch o s ok
  | .periodicTraining ch ok => keep (mems_execPeriodicTraining ch ok s)
  | .bankRefresh ch bank => keep (mems_execBankRefresh ch bank s)
  | .channelMark ch => keep (mems_execChannelMark ch s)
  | .groupReformComplete k => memsOk_execGroupReformComplete k s ok
  | .domainPowerUpComplete d site => keep (mems_execDomainPowerUpComplete d site s)
  | .frameTransferStart p e => keep (mems_execFrameTransferStart p e s)
  | .configFrameWrite p e crc1 crc2 => memsOk_execConfigFrameWrite p e crc1 crc2 s ok
  | .reconfigComplete p e => memsOk_execReconfigComplete p e s ok
  | .quiescence p e => keep (mems_execQuiescence p e s)
  | .saveComplete p e => keep (mems_execSaveComplete p e s)
  | .restoreComplete p e => memsOk_execRestoreComplete p e s ok
  | .grantZeroingComplete p k => memsOk_execGrantZeroingComplete p k s ok
  | .loaderCheck p img => memsOk_execLoaderCheck p img s ok
  | .correctedWriteBack a written => memsOk_execCorrectedWriteBack a written s ok
  | .scrubFrameRead frame o => keep (mems_execScrubFrameRead frame o s)
  | .leafRead p j => memsOk_execLeafRead p j s ok
  | .digestComplete p => memsOk_execDigestComplete p s ok
  | .healthRecordAppend ok => keep (mems_execHealthRecordAppend ok s)
  | .laneWindow lost errors => keep (mems_execLaneWindow lost errors s)
  | .retrainComplete trains => keep (mems_execRetrainComplete trains s)
  | .retrainRetry trains => keep (mems_execRetrainRetry trains s)
  | .streamHeader slot h multicast => keep (mems_execStreamHeader slot h multicast s)
  | .nopPacket slot h data => keep (mems_execNopPacket slot h data s)
  | .sync slot h tag => keep (mems_execSync slot h tag s)
  | .firmware slot h data => keep (mems_execFirmware slot h data s)
  | .fwsig slot h pk sig => keep (mems_execFwsig slot h pk sig s)
  | .wreg slot h recs => keep (mems_execWreg slot h recs s)
  | .startSeq slot h codes => keep (mems_execStartSeq slot h codes s)
  | .frame slot h data => memsOk_execFrame slot h data s ok
  | .image slot h data => keep (mems_execImage slot h data s)
  | .signature slot h pk sig => keep (mems_execSignature slot h pk sig s)
  | .streamEndPacket slot h => keep (mems_execStreamEndPacket slot h s)
  | .signatureVerified slot => keep (mems_execSignatureVerified slot s)
  | .datagram id offset len => keep (mems_execDatagram id offset len s)
  | .loadDeadline slot => keep (mems_execLoadDeadline slot s)
  | .bootComplete => keep (mems_execBootComplete s)
  | .startupStep o => memsOk_execStartupStep o s ok
  | .pllLockTimeout => keep (mems_execPllLockTimeout s)
  | .pwrgdRise => memsOk_execPwrgdRise s ok
  | .inputUndervoltage => memsOk_execInputUndervoltage s
  | .porstNAssert => memsOk_execPorstNAssert s
  | .porstNDeassert st => memsOk_execPorstNDeassert st s ok
  | .stageInNLow => keep (mems_execStageInNLow s)
  | .vbatLoss => keep (mems_execVbatLoss s)
  | .temperatureSample tj => memsOk_execTemperatureSample tj s ok
  | .thermalWindow maxTj watts => memsOk_execThermalWindow maxTj watts s ok
  | .hello side lo hi => keep (mems_execHello side lo hi s)
  | .helloSend side => keep (mems_execHelloSend side s)
  | .ropeLinkDown side => keep (mems_execRopeLinkDown side s)
  | .pos crcOk n => keep (mems_execPos crcOk n s)
  | .chain crcOk n => keep (mems_execChain crcOk n s)
  | .ropeWake crcOk dst => keep (mems_execRopeWake crcOk dst s)
  | .relayReq crcOk src dst seq cmd => keep (mems_execRelayReq crcOk src dst seq cmd s)
  | .relayRsp crcOk src dst seq rsp => keep (mems_execRelayRsp crcOk src dst seq rsp s)
  | .relayRetry => keep (mems_execRelayRetry s)
  | .getStatus pec => keep (mems_execGetStatus pec s)
  | .getIdentity pec => keep (mems_execGetIdentity pec s)
  | .setIp pec family plen addr gw => keep (mems_execSetIp pec family plen addr gw s)
  | .setVbatKey pec key => keep (mems_execSetVbatKey pec key s)
  | .clearVbatKey pec => keep (mems_execClearVbatKey pec s)
  | .progKeySlot pec slot hash => keep (mems_execProgKeySlot pec slot hash s)
  | .healthClear pec type unit => keep (mems_execHealthClear pec type unit s)
  | .healthRead pec idx => keep (mems_execHealthRead pec idx s)
  | .wake pec => keep (mems_execWake pec s)
  | .bivouacEnter pec => keep (mems_execBivouacEnter pec s)
  | .ropeRelay pec target cmd => keep (mems_execRopeRelay pec target cmd s)
  | .setPowerLimit pec watts => keep (mems_execSetPowerLimit pec watts s)
  | .getResult pec => keep (mems_execGetResult pec s)
  | .smbusCommandComplete readBack => keep (mems_execSmbusCommandComplete readBack s)
  | .alertResponse => keep (mems_execAlertResponse s)
  | .bivouacEntryComplete => keep (mems_execBivouacEntryComplete s)
  | .wakeComplete => memsOk_execWakeComplete s ok
  | .probe serial => keep (mems_execProbe serial s)
  | .announce => keep (mems_execAnnounce s)
  | .hostClaim c => keep (mems_execHostClaim c s)
  | .connect c => keep (mems_execConnect c s)
  | .disconnect qpn reason => keep (mems_execDisconnect qpn reason s)
  | .release nonce => keep (mems_execRelease nonce s)
  | .rdmaWrite n rkey a data => memsOk_execRdmaWrite n rkey a data s ok
  | .rdmaRead n rkey a len => memsOk_execRdmaRead n rkey a len s ok
  | .doorbell n pi cqci => memsOk_execDoorbell n pi cqci s ok
  | .streamBytes n len => keep (mems_execStreamBytes n len s)
  | .unsupportedOperation n => keep (mems_execUnsupportedOperation n s)
  | .ceMarkedPacket n => keep (mems_execCeMarkedPacket n s)
  | .cnp n => keep (mems_execCnp n s)
  | .rateRecovery n => keep (mems_execRateRecovery n s)
  | .ackTimeout n => keep (mems_execAckTimeout n s)
  | .pause quanta => keep (mems_execPause quanta s)
  | .pfc prio quanta => keep (mems_execPfc prio quanta s)
  | .arp => keep (mems_execArp s)
  | .ndp => keep (mems_execNdp s)
  | .icmpEcho => keep (mems_execIcmpEcho s)
  | .ipFragment => keep (mems_execIpFragment s)
  | .commandDispatch => memsOk_execCommandDispatch s ok
  | .completionWrite n => keep (mems_execCompletionWrite n s)
  | .load c o => keep (mems_execLoad c o s)
  | .run c o => keep (mems_execRun c o s)
  | .preempt c job => keep (mems_execPreempt c job s)
  | .resume c entry prio row => keep (mems_execResume c entry prio row s)
  | .discard c entry => keep (mems_execDiscard c entry s)
  | .digestSet c o => memsOk_execDigestSet c o s ok
  | .digestNow c o => memsOk_execDigestNow c o s ok
  | .regRead c a => keep (mems_execRegRead c a s)
  | .regWrite c a value mask => keep (mems_execRegWrite c a value mask s)
  | .regWriteList c list count => memsOk_execRegWriteList c list count s ok
  | .wananSubmit c job stream len => keep (mems_execWananSubmit c job stream len s)
  | .wananCommand p w => keep (mems_execWananCommand p w s)
  | .tenantCreate c tenant expert maxqp token => keep (mems_execTenantCreate c tenant expert maxqp token s)
  | .tenantRemove c tenant => keep (mems_execTenantRemove c tenant s)
  | .partCreate c o => keep (mems_execPartCreate c o s)
  | .partRemove c part => keep (mems_execPartRemove c part s)
  | .grant c o => keep (mems_execGrant c o s)
  | .registerWrite w a value mask => keep (mems_execRegisterWrite w a value mask s)
  | .colPitchCtrlWrite w value => keep (mems_execColPitchCtrlWrite w value s)
  | .domainOn w dom site => keep (mems_execDomainOn w dom site s)
  | .domainRetain w dom site => keep (mems_execDomainRetain w dom site s)
  | .domainOff w dom site => keep (mems_execDomainOff w dom site s)
  | .srSeedWrite w site seed => keep (mems_execSrSeedWrite w site seed s)
  | .steerConfigWrite w site n value => keep (mems_execSteerConfigWrite w site n value s)
  | .scrubCtrlWrite w value => keep (mems_execScrubCtrlWrite w value s)
  | .bivouacEnterWrite w => keep (mems_execBivouacEnterWrite w s)
  | .chkLogRead w site => keep (mems_execChkLogRead w site s)
  | .memErrLogRead w => keep (mems_execMemErrLogRead w s)
  | .loadRefusalRead w p => keep (mems_execLoadRefusalRead w p s)
  | .poisonLogRead w p => keep (mems_execPoisonLogRead w p s)
  | .eccLogRead w site => keep (mems_execEccLogRead w site s)
  | .steerDataIntake p unit => keep (mems_execSteerDataIntake p unit s)
  | .adminReconnectExpiry => keep (mems_execAdminReconnectExpiry s)
  | .dhcpReply addr => keep (mems_execDhcpReply addr s)
  | .otherImmediateSend n imm => keep (mems_execOtherImmediateSend n imm s)

/-- Settles O60: a step runs a command, or passes a cycle, and each keeps the canonical form. -/
theorem stepsKeepMemoryCanonical : Obligations.StepsKeepMemoryCanonical := by
  intro s t hs ht
  have ok : memsOk (mems s) := hs
  unfold step at ht
  split at ht
  · cases ht
    exact memsOk_tick s ok
  · next c cs _ =>
    have h := memsOk_exec c { s with pending := cs } ok
    rw [ht] at h
    exact h

end Sys2Proof.Proofs
end

section
/-! SUPPORT. What a pitch boundary does to the pitch itself, and what leaves it as it is (R28, R31). -/

namespace Sys2Proof.Machine

/-- The pitch of a state: its cycle, the lengths that wait, and the two registers that show it. -/
def pitchView (s : State) : Nat × Option Nat × Option Nat × Option Word × Option Word :=
  (s.cycle, s.lenPend, s.lenNext, aget s.regs ⟨.COL_PITCH_NUM, 0, 0⟩, aget s.regs ⟨.COL_PITCH_CTRL, 0, 0⟩)

@[simp] theorem pitchView_mk (pending cycle cycles time regs counters snaps mem poison synd sites sigAdds sigNext ringDue credNext ctl flight
    col hut memc cfg gate fuses board seedNext domPend lenPend lenNext evs hostSigs padOld arbs free out) :
    pitchView ⟨pending, cycle, cycles, time, regs, counters, snaps, mem, poison, synd, sites, sigAdds, sigNext, ringDue, credNext, ctl,
      flight, col, hut, memc, cfg, gate, fuses, board, seedNext, domPend, lenPend, lenNext, evs, hostSigs, padOld, arbs, free,
      out⟩ = (cycle, lenPend, lenNext, aget regs ⟨.COL_PITCH_NUM, 0, 0⟩, aget regs ⟨.COL_PITCH_CTRL, 0, 0⟩) := rfl

@[simp] theorem pitchView_eta (s : State) :
    (s.cycle, s.lenPend, s.lenNext, aget s.regs ⟨.COL_PITCH_NUM, 0, 0⟩, aget s.regs ⟨.COL_PITCH_CTRL, 0, 0⟩) = pitchView s := rfl

@[simp] theorem pitchView_ite (c : Prop) [Decidable c] (s t : State) :
    pitchView (if c then s else t) = if c then pitchView s else pitchView t := apply_ite ..

@[simp] theorem pitchView_foldl {β : Type} (g : State → β → State) (l : List β) (s : State) (h : ∀ s x, pitchView (g s x) = pitchView s) :
    pitchView (l.foldl g s) = pitchView s := foldl_keep pitchView g h l s

theorem pitchView_foldl_snd {α β : Type} (g : α × State → β → α × State) (l : List β) (p : α × State)
    (h : ∀ (p : α × State) x q, g p x = q → pitchView q.2 = pitchView p.2) : pitchView (l.foldl g p).2 = pitchView p.2 :=
  foldl_snd_inv (fun t => pitchView t = pitchView p.2) g (fun p x q hq hp => (h p x q hq).trans hp) l p rfl

theorem pitchView_foldl_fst {α β : Type} (g : State × α → β → State × α) (l : List β) (p : State × α)
    (h : ∀ (p : State × α) x q, g p x = q → pitchView q.1 = pitchView p.1) : pitchView (l.foldl g p).1 = pitchView p.1 :=
  foldl_fst_inv (fun t => pitchView t = pitchView p.1) g (fun p x q hq hp => (h p x q hq).trans hp) l p rfl

/-- A register that is neither of the pitch's. -/
def offPitch (r : RegName) : Bool := r != .COL_PITCH_NUM && r != .COL_PITCH_CTRL

@[simp] theorem pitchView_setWord {s : State} {r : RegName} (a i : Nat) (w : Word) (h : offPitch r = true) :
    pitchView (s.setWord r a i w) = pitchView s := by
  simp only [offPitch, Bool.and_eq_true, bne_iff_ne] at h
  obtain ⟨h1, h2⟩ := h
  have e1 : aget (s.setWord r a i w).regs ⟨.COL_PITCH_NUM, 0, 0⟩ = aget s.regs ⟨.COL_PITCH_NUM, 0, 0⟩ :=
    aget_aput_ne _ _ (fun e => h1 (congrArg RegKey.reg e).symm)
  have e2 : aget (s.setWord r a i w).regs ⟨.COL_PITCH_CTRL, 0, 0⟩ = aget s.regs ⟨.COL_PITCH_CTRL, 0, 0⟩ :=
    aget_aput_ne _ _ (fun e => h2 (congrArg RegKey.reg e).symm)
  unfold pitchView
  rw [e1, e2]
  rfl

@[simp] theorem pitchView_wr {s : State} {f : Fld} (a i v : Nat) (h : offPitch f.reg = true) : pitchView (s.wr f a i v) = pitchView s :=
  pitchView_setWord a i _ h

@[simp] theorem pitchView_note {s : State} {r : RegName} (a i : Nat) (g : Word → Word) (h : offPitch r = true) :
    pitchView (s.note r a i g) = pitchView s :=
  have e : pitchView (s.note r a i g) = pitchView (s.setWord r a i (g (s.word r a i))) := rfl
  e.trans (pitchView_setWord a i _ h)

@[simp] theorem pitchView_noteFlag {s : State} {f : Fld} (a i : Nat) (h : offPitch f.reg = true) :
    pitchView (s.noteFlag f a i) = pitchView s := pitchView_note a i _ h

@[simp] theorem offPitch_at (f : Fld) (k j : Nat) : offPitch (f.at k j).reg = offPitch f.reg := rfl

@[simp] theorem pitchView_wrs {s : State} {l : List (Fld × Nat)} (a i : Nat) (h : l.all (fun x => offPitch x.1.reg) = true) :
    pitchView (s.wrs a i l) = pitchView s := by
  induction l generalizing s with
  | nil => rfl
  | cons x l ih =>
    simp only [List.all_cons, Bool.and_eq_true] at h
    exact (ih h.2).trans (pitchView_wr a i x.2 h.1)

theorem offPitch_strFld (a : Nat) {f g : Fld} (hf : offPitch f.reg = true) (hg : offPitch g.reg = true) :
    offPitch (strFld a f g).reg = true := by
  unfold strFld
  split <;> assumption

/-- A filter that keeps a key keeps what the map holds there. -/
theorem aget_filter {κ α : Type} [DecidableEq κ] (p : κ × α → Bool) (m : List (κ × α)) (k : κ) (h : ∀ v, p (k, v) = true) :
    aget (m.filter p) k = aget m k := by
  induction m with
  | nil => rfl
  | cons x m ih =>
    obtain ⟨j, v⟩ := x
    rw [List.filter_cons]
    by_cases e : j = k
    · subst e
      rw [if_pos (h v)]
      simp [aget]
    · split
      · simp only [aget, e, if_false]
        exact ih
      · rw [ih]
        simp [aget, e]

theorem pitchView_setCfg (s : State) (c : CfgX) : pitchView { s with cfg := c } = pitchView s := rfl

theorem pitchView_setSynd (s : State) (y p) : pitchView { s with synd := y, poison := p } = pitchView s := rfl

theorem pitchView_foldl_mem {β : Type} (g : State → β → State) (l : List β) (s : State)
    (h : ∀ s, ∀ x ∈ l, pitchView (g s x) = pitchView s) : pitchView (l.foldl g s) = pitchView s := by
  induction l generalizing s with
  | nil => rfl
  | cons x l ih => exact (ih _ fun s y hy => h s y (by simp [hy])).trans (h s x (by simp))

/-! ### State operations -/

@[simp] theorem pitchView_count (s : State) (c : Ctr) (a n : Nat) : pitchView (s.count c a n) = pitchView s := by
  simp +decide [State.count]

@[simp] theorem pitchView_putByte (s : State) (x : Nat) (b : Byte) : pitchView (s.putByte x b) = pitchView s := by
  simp +decide [State.putByte]

@[simp] theorem pitchView_setPois (s : State) (w : Nat) (p : Bool) : pitchView (s.setPois w p) = pitchView s := by
  simp +decide [State.setPois]

@[simp] theorem pitchView_putRaw (s : State) (n : Nat) (l : List Byte) : pitchView (s.putRaw n l) = pitchView s := by
  induction l generalizing s n with
  | nil => rfl
  | cons b l ih => exact (ih (s.putByte n b) (n + 1)).trans (pitchView_putByte ..)

@[simp] theorem pitchView_putWord (s : State) (x : Nat) (w : Word) (p : Bool) : pitchView (s.putWord x w p) = pitchView s := by
  simp +decide [State.putWord]

@[simp] theorem pitchView_setSite (s : State) (a : Nat) (x : Site) : pitchView (s.setSite a x) = pitchView s := by
  simp +decide [State.setSite]

@[simp] theorem pitchView_modSite (s : State) (a : Nat) (f : Site → Site) : pitchView (s.modSite a f) = pitchView s := by
  simp +decide [State.modSite]

@[simp] theorem pitchView_modSeq (s : State) (a : Nat) (f : SeqX → SeqX) : pitchView (s.modSeq a f) = pitchView s := by
  simp +decide [State.modSeq]

@[simp] theorem pitchView_modMtx (s : State) (a : Nat) (f : MtxX → MtxX) : pitchView (s.modMtx a f) = pitchView s := by
  simp +decide [State.modMtx]

@[simp] theorem pitchView_modVec (s : State) (a : Nat) (f : VecX → VecX) : pitchView (s.modVec a f) = pitchView s := by
  simp +decide [State.modVec]

@[simp] theorem pitchView_modQueue (s : State) (a q : Nat) (f : QueueX → QueueX) : pitchView (s.modQueue a q f) = pitchView s := by
  simp +decide [State.modQueue]

@[simp] theorem pitchView_modStr (s : State) (a n : Nat) (f : StrX → StrX) : pitchView (s.modStr a n f) = pitchView s := by
  simp +decide [State.modStr]

@[simp] theorem pitchView_modSync (s : State) (a : Nat) (f : SyncX → SyncX) : pitchView (s.modSync a f) = pitchView s := by
  simp +decide [State.modSync]

@[simp] theorem pitchView_modLink (s : State) (a d : Nat) (f : LinkX → LinkX) : pitchView (s.modLink a d f) = pitchView s := by
  simp +decide [State.modLink]

@[simp] theorem pitchView_modHut (s : State) (f : HutX → HutX) : pitchView (s.modHut f) = pitchView s := by
  simp +decide [State.modHut]

@[simp] theorem pitchView_modSect (s : State) (e : Nat) (f : SectX → SectX) : pitchView (s.modSect e f) = pitchView s := by
  unfold State.modSect
  split <;> simp +decide

@[simp] theorem pitchView_emit (s : State) (o : Output) : pitchView (s.emit o) = pitchView s := by
  simp +decide [State.emit]

@[simp] theorem pitchView_fresh (s : State) : pitchView (s.fresh).2 = pitchView s := by
  simp +decide [State.fresh]

@[simp] theorem pitchView_countRefusals (s : State) (k : ArbKey) (n : Nat) : pitchView (s.countRefusals k n) = pitchView s := by
  unfold State.countRefusals
  split <;> simp +decide

@[simp] theorem pitchView_settleArbs (s : State) : pitchView (s.settleArbs) = pitchView s := by
  simp +decide [State.settleArbs]

/-! ### Queues -/

@[simp] theorem pitchView_connOut (s : State) (a q kind dst conn : Nat) : pitchView (s.connOut a q kind dst conn) = pitchView s := by
  simp +decide [State.connOut]

@[simp] theorem pitchView_openDyn (s : State) (a q : Nat) : pitchView (s.openDyn a q) = pitchView s := by
  simp +decide [State.openDyn]

@[simp] theorem pitchView_qFill (s : State) (a q : Nat) (e : Entry) : pitchView (s.qFill a q e) = pitchView s := by
  simp +decide [State.qFill]

/-! ### Links -/

@[simp] theorem pitchView_setLink (s : State) (a : Nat) (d : Dir) (v : Nat) : pitchView (s.setLink a d v) = pitchView s := by
  exact pitchView_wr _ _ _ rfl

@[simp] theorem pitchView_setSlot (s : State) (a : Nat) (d : Dir) (n v : Nat) : pitchView (s.setSlot a d n v) = pitchView s := by
  exact pitchView_wr _ _ _ rfl

@[simp] theorem pitchView_countFlits (s : State) (a slot n : Nat) : pitchView (s.countFlits a slot n) = pitchView s := by
  simp +decide [State.countFlits]

@[simp] theorem pitchView_launchAt (s : State) (a : Nat) (d : Dir) (t : Nat) (f : Flit) :
    pitchView (s.launchAt a d t f) = pitchView s := by
  simp +decide [State.launchAt]

@[simp] theorem pitchView_drain (s : State) (a : Nat) (d : Dir) : pitchView (s.drain a d) = pitchView s := by
  simp +decide [State.drain]

@[simp] theorem pitchView_drainSite (s : State) (a : Nat) : pitchView (s.drainSite a) = pitchView s := by
  simp +decide [State.drainSite]

/-! ### Events -/

@[simp] theorem pitchView_modQp (s : State) (n : Nat) (f : QpX → QpX) : pitchView (s.modQp n f) = pitchView s := by
  simp +decide [State.modQp]

@[simp] theorem pitchView_modGate (s : State) (f : GateX → GateX) : pitchView (s.modGate f) = pitchView s := by
  simp +decide [State.modGate]

@[simp] theorem pitchView_eventTo (s : State) (n kind : Nat) (body : List Nat) : pitchView (s.eventTo n kind body) = pitchView s := by
  simp +decide [State.eventTo]

@[simp] theorem pitchView_event (s : State) (to_ : Nat → Bool) (kind : Nat) (body : List Nat) :
    pitchView (s.event to_ kind body) = pitchView s := by
  simp +decide [State.event]

@[simp] theorem pitchView_setSect (s : State) (e st cls code : Nat) : pitchView (s.setSect e st cls code) = pitchView s := by
  simp +decide [State.setSect]

@[simp] theorem pitchView_alert (s : State) (k : Nat) : pitchView (s.alert k) = pitchView s := by
  simp +decide [State.alert]

@[simp] theorem pitchView_record (s : State) (type unit : Nat) (state : Bool) (detail : List Nat) :
    pitchView (s.record type unit state detail) = pitchView s := by
  simp +decide [State.record]

@[simp] theorem pitchView_spurRecord (s : State) (n : Nat) : pitchView (s.spurRecord n) = pitchView s := by
  simp +decide [State.spurRecord]

/-! ### Flags -/

@[simp] theorem pitchView_raiseVec (s : State) (a fl : Nat) : pitchView (s.raiseVec a fl) = pitchView s := by
  simp +decide [State.raiseVec]

/-! ### The sequencer -/

@[simp] theorem pitchView_countHold (s : State) (a kind n : Nat) : pitchView (s.countHold a kind n) = pitchView s := by
  unfold State.countHold
  split <;> simp +decide

@[simp] theorem pitchView_settleHold (s : State) (a : Nat) : pitchView (s.settleHold a) = pitchView s := by
  unfold State.settleHold
  split <;> simp +decide

@[simp] theorem pitchView_strBegin (s : State) (a n arg : Nat) : pitchView (s.strBegin a n arg) = pitchView s := by
  unfold State.strBegin
  refine (pitchView_modStr ..).trans ((pitchView_foldl _ _ _ fun u k => pitchView_wr _ _ _ ?_).trans (pitchView_wrs _ _ ?_))
  · exact offPitch_strFld _ rfl rfl
  · simp +decide [offPitch_strFld]

@[simp] theorem pitchView_strStart (s : State) (a n arg : Nat) : pitchView (s.strStart a n arg).2 = pitchView s := by
  unfold State.strStart
  split
  · exact pitchView_strBegin ..
  · exact pitchView_wrs _ _ (by simp +decide [offPitch_strFld])
  · rfl

/-! ### The matrix engine -/

@[simp] theorem pitchView_mtxSettle (s : State) (a : Nat) : pitchView (s.mtxSettle a) = pitchView s := by
  simp +decide [State.mtxSettle]

@[simp] theorem pitchView_mtxCredits (s : State) (a : Nat) (opds : List Nat) : pitchView (s.mtxCredits a opds) = pitchView s := by
  exact pitchView_foldl _ _ _ fun _ _ => rfl

/-! ### External memory -/

@[simp] theorem pitchView_setChan (s : State) (ch v : Nat) : pitchView (s.setChan ch v) = pitchView s := by
  exact pitchView_wr _ _ _ rfl

@[simp] theorem pitchView_countUnserved (s : State) (x : Nat) : pitchView (s.countUnserved x) = pitchView s := by
  simp +decide [State.countUnserved]

@[simp] theorem pitchView_putRawWords (s : State) (x : Nat) (l : List RawWord) : pitchView (s.putRawWords x l) = pitchView s := by
  induction l generalizing s x with
  | nil => rfl
  | cons w l ih =>
    unfold State.putRawWords
    exact (ih _ _).trans ((pitchView_setSynd ..).trans (pitchView_putRaw ..))

@[simp] theorem pitchView_poisonWords (s : State) (n : Nat) : pitchView (s.poisonWords n).2 = pitchView s := by
  induction n generalizing s with
  | zero => rfl
  | succ n ih => exact (ih _).trans (pitchView_fresh s)

@[simp] theorem pitchView_takeTurn (s : State) (ch : Nat) (o : TurnOwner) : pitchView (s.takeTurn ch o) = pitchView s := by
  simp +decide [State.takeTurn]

@[simp] theorem pitchView_countFrame (s : State) (k st : Nat) (o : FrameObs) : pitchView (s.countFrame k st o) = pitchView s := by
  simp +decide [State.countFrame]

@[simp] theorem pitchView_deliver (s : State) (st : Nat) (l : List (Word × Bool)) : pitchView (s.deliver st l) = pitchView s := by
  simp +decide [State.deliver]

@[simp] theorem pitchView_frameUe (s : State) (st ch : Nat) (o : FrameObs) (patrol : Bool) :
    pitchView (s.frameUe st ch o patrol) = pitchView s := by
  simp +decide [State.frameUe]

@[simp] theorem pitchView_readCells (s : State) (st ch : Nat) : pitchView (s.readCells st ch) = pitchView s := by
  simp +decide [State.readCells]

@[simp] theorem pitchView_takeDelivered (s : State) (x n : Nat) : pitchView (s.takeDelivered x n).2 = pitchView s := by
  simp +decide [State.takeDelivered]

@[simp] theorem pitchView_extRead (s : State) (x n : Nat) : pitchView (s.extRead x n).2 = pitchView s := by
  unfold State.extRead
  dsimp only
  repeat' split
  all_goals simp +decide

@[simp] theorem pitchView_extWrite (s : State) (x : Nat) (l : List RawWord) : pitchView (s.extWrite x l) = pitchView s := by
  simp +decide [State.extWrite]

@[simp] theorem pitchView_edgeTurn (s : State) (o : TurnOwner) (x : Nat) : pitchView (s.edgeTurn o x) = pitchView s := by
  have e : State.edgeTurn = delta% State.edgeTurn := rfl
  rw [e]
  beta_reduce
  generalize s.locate x = r
  match r with
  | .ok ch _ => exact pitchView_takeTurn ..
  | .unbacked => rfl
  | .retired _ => rfl

@[simp] theorem pitchView_extReads (s : State) (o : TurnOwner) (x n : Nat) : pitchView (s.extReads o x n).2 = pitchView s := by
  unfold State.extReads
  refine pitchView_foldl_snd _ _ _ fun acc r q hq => ?_
  have hr := pitchView_extRead (acc.2.edgeTurn o r.1) r.1 r.2
  rw [pitchView_edgeTurn] at hr
  beta_reduce at hq
  generalize (acc.2.edgeTurn o r.1).extRead r.1 r.2 = y at hr hq
  obtain ⟨l, t⟩ := y
  subst hq
  exact hr

@[simp] theorem pitchView_extWrites (s : State) (o : TurnOwner) (x : Nat) (l : List RawWord) :
    pitchView (s.extWrites o x l) = pitchView s := by
  simp +decide [State.extWrites]

@[simp] theorem pitchView_zeroRange (s : State) (lo hi : Nat) : pitchView (s.zeroRange lo hi) = pitchView s := by
  simp +decide [State.zeroRange]

@[simp] theorem pitchView_reformMap (s : State) (k : Nat) : pitchView (s.reformMap k) = pitchView s := by
  unfold State.reformMap
  exact (pitchView_wr _ _ _ rfl).trans (pitchView_foldl _ _ _ fun _ _ => pitchView_wr _ _ _ rfl)

/-! ### Stream programs -/

@[simp] theorem pitchView_settleCredit (s : State) (a n : Nat) : pitchView (s.settleCredit a n) = pitchView s := by
  unfold State.settleCredit
  split <;> simp +decide

/-! ### The completion of requests -/

@[simp] theorem pitchView_complete (s : State) (c : Ctx) (op cls code result detail : Nat) :
    pitchView (s.complete c op cls code result detail) = pitchView s := by
  simp +decide [State.complete]

@[simp] theorem pitchView_ok (s : State) (c : Ctx) (op result : Nat) : pitchView (s.ok c op result) = pitchView s := by
  simp +decide [State.ok]

@[simp] theorem pitchView_status (s : State) (c : Ctx) (op code : Nat) : pitchView (s.status c op code) = pitchView s := by
  simp +decide [State.status]

/-! ### The vector engine -/

@[simp] theorem pitchView_putLine (s : State) (a n : Nat) (x : Line) : pitchView (s.putLine a n x) = pitchView s := by
  simp +decide [State.putLine]

@[simp] theorem pitchView_putScales (s : State) (a : Nat) (d : Word) (r : Nat) (sc : List Nat) (p : Bool) :
    pitchView (s.putScales a d r sc p) = pitchView s := by
  unfold State.putScales
  split <;> simp +decide

@[simp] theorem pitchView_putPadWords (s : State) (a off : Nat) (l : List (Nat × Bool)) :
    pitchView (s.putPadWords a off l) = pitchView s := by
  simp +decide [State.putPadWords]

@[simp] theorem pitchView_writeRow (s : State) (a : Nat) (y : VRow) : pitchView (s.writeRow a y) = pitchView s := by
  unfold State.writeRow
  dsimp only
  split <;> simp +decide

@[simp] theorem pitchView_vecCredits (s : State) (a : Nat) (y : VRow) : pitchView (s.vecCredits a y) = pitchView s := by
  unfold State.vecCredits
  dsimp only
  split
  · split
    · exact pitchView_foldl _ _ _ fun _ _ => rfl
    · exact pitchView_foldl _ _ _ fun _ _ => rfl
    · rfl
  · rfl

@[simp] theorem pitchView_refRow (s : State) (a : Nat) (y : VRow) : pitchView (s.refRow a y) = pitchView s := by
  simp +decide [State.refRow]

@[simp] theorem pitchView_rowPasses (s : State) (a : Nat) (y : VRow) : pitchView (s.rowPasses a y) = pitchView s := by
  simp +decide [State.rowPasses]

/-! ### The traverse -/

@[simp] theorem pitchView_settleRc (s : State) (a q : Nat) : pitchView (s.settleRc a q) = pitchView s := by
  unfold State.settleRc
  split <;> simp +decide

@[simp] theorem pitchView_releaseSlots (s : State) (l : List (Nat × Nat × Nat)) : pitchView (s.releaseSlots l) = pitchView s := by
  simp +decide [State.releaseSlots]

@[simp] theorem pitchView_unbind (s : State) (b src : Nat) : pitchView (s.unbind b src) = pitchView s := by
  unfold State.unbind
  split <;> simp +decide

@[simp] theorem pitchView_reopen (s : State) (a q : Nat) : pitchView (s.reopen a q) = pitchView s := by
  simp +decide [State.reopen]

@[simp] theorem pitchView_closeDyn (s : State) (a q : Nat) : pitchView (s.closeDyn a q) = pitchView s := by
  unfold State.closeDyn
  dsimp only
  split <;> simp +decide

@[simp] theorem pitchView_idleClose (s : State) (a q : Nat) : pitchView (s.idleClose a q) = pitchView s := by
  simp +decide [State.idleClose]

/-! ### Barriers and claims -/

@[simp] theorem pitchView_settleFence (s : State) (a : Nat) : pitchView (s.settleFence a) = pitchView s := by
  unfold State.settleFence
  split <;> simp +decide

@[simp] theorem pitchView_settlePorts (s : State) : pitchView (s.settlePorts) = pitchView s := by
  unfold State.settlePorts
  split <;> simp +decide

@[simp] theorem pitchView_modTarn (s : State) (ta : Nat) (f : TarnX → TarnX) : pitchView (s.modTarn ta f) = pitchView s := by
  simp +decide [State.modTarn]

@[simp] theorem pitchView_settleLog (s : State) (ta : Nat) : pitchView (s.settleLog ta) = pitchView s := by
  unfold State.settleLog
  split <;> simp +decide

@[simp] theorem pitchView_claimRetry (s : State) (a : Nat) : pitchView (s.claimRetry a) = pitchView s := by
  unfold State.claimRetry
  split <;> simp +decide

/-! ### Power domains -/

@[simp] theorem pitchView_setDom (s : State) (kind a v : Nat) : pitchView (s.setDom kind a v) = pitchView s := by
  unfold State.setDom
  split
  · exact pitchView_wr _ _ _ rfl
  · split <;> exact pitchView_wr _ _ _ rfl

@[simp] theorem pitchView_zeroSram (s : State) (kind a : Nat) : pitchView (s.zeroSram kind a) = pitchView s := by
  simp +decide [State.zeroSram]

@[simp] theorem pitchView_domOn (s : State) (kind a : Nat) : pitchView (s.domOn kind a) = pitchView s := by
  simp +decide [State.domOn]

@[simp] theorem pitchView_domOff (s : State) (kind a : Nat) : pitchView (s.domOff kind a) = pitchView s := by
  simp +decide [State.domOff]

@[simp] theorem pitchView_domRetain (s : State) (kind a : Nat) : pitchView (s.domRetain kind a) = pitchView s := by
  simp +decide [State.domRetain]

@[simp] theorem pitchView_routersOff (s : State) (l : List Nat) : pitchView (s.routersOff l) = pitchView s := by
  simp +decide [State.routersOff]

/-! ### Sections -/

@[simp] theorem pitchView_rearm (s : State) (a : Nat) : pitchView (s.rearm a) = pitchView s := by
  have h : ∀ (u : State) (l : List Nat),
      pitchView (l.foldl (fun s e => s.modSect e (fun x => { x with pfStarted := x.pfStarted.filter (fun b => b != a) })) u) = pitchView u :=
    fun u l => pitchView_foldl _ _ _ fun _ _ => pitchView_modSect ..
  have h1 : RegName.COL_PITCH_NUM.place.block.isSome = true := rfl
  have h2 : RegName.COL_PITCH_CTRL.place.block.isSome = true := rfl
  unfold State.rearm
  dsimp only
  rw [pitchView_modSite, pitchView_mk, aget_filter _ _ _ (by simp [h1]), aget_filter _ _ _ (by simp [h2]), pitchView_eta]
  split
  · exact h _ _
  · rfl

@[simp] theorem pitchView_closeAllDyn (s : State) (a : Nat) : pitchView (s.closeAllDyn a) = pitchView s := by
  simp +decide [State.closeAllDyn]

@[simp] theorem pitchView_reopenDyn (s : State) (a : Nat) : pitchView (s.reopenDyn a) = pitchView s := by
  simp +decide [State.reopenDyn]

@[simp] theorem pitchView_releaseRegion (s : State) (e : Nat) : pitchView (s.releaseRegion e) = pitchView s := by
  simp +decide [State.releaseRegion]

@[simp] theorem pitchView_stopPrefetch (s : State) (e : Nat) : pitchView (s.stopPrefetch e) = pitchView s := by
  unfold State.stopPrefetch
  split <;> simp +decide

@[simp] theorem pitchView_completeRun (s : State) (e cls code detail : Nat) :
    pitchView (s.completeRun e cls code detail) = pitchView s := by
  unfold State.completeRun
  split <;> simp +decide

@[simp] theorem pitchView_endSect (s : State) (e : Nat) : pitchView (s.endSect e) = pitchView s := by
  simp +decide [State.endSect]

@[simp] theorem pitchView_failSect (s : State) (e cls code detail : Nat) : pitchView (s.failSect e cls code detail) = pitchView s := by
  simp +decide [State.failSect]

@[simp] theorem pitchView_settlePend (s : State) (p : Nat) : pitchView (s.settlePend p) = pitchView s := by
  simp +decide [State.settlePend]

@[simp] theorem pitchView_abandonDigest (s : State) (p code : Nat) : pitchView (s.abandonDigest p code) = pitchView s := by
  unfold State.abandonDigest
  repeat' split
  all_goals simp +decide

@[simp] theorem pitchView_unsuspect (s : State) (a : Nat) : pitchView (s.unsuspect a) = pitchView s := by
  simp +decide [State.unsuspect]

@[simp] theorem pitchView_dropReferee (s : State) (a : Nat) : pitchView (s.dropReferee a) = pitchView s := by
  simp +decide [State.dropReferee]

@[simp] theorem pitchView_abandonRefs (s : State) (l : List Nat) : pitchView (s.abandonRefs l) = pitchView s := by
  unfold State.abandonRefs
  refine (pitchView_foldl _ _ _ fun u r => ?_).trans (pitchView_modHut ..)
  dsimp only
  cases r.referee <;> simp +decide

@[simp] theorem pitchView_failJob (s : State) (p job cls code detail : Nat) :
    pitchView (s.failJob p job cls code detail) = pitchView s := by
  simp +decide [State.failJob]

@[simp] theorem pitchView_doneSect (s : State) (e : Nat) : pitchView (s.doneSect e) = pitchView s := by
  simp +decide [State.doneSect]

@[simp] theorem pitchView_stageFrame (s : State) (e : Nat) (x : SectX) (i f : Nat) :
    pitchView (s.stageFrame e x i f) = pitchView s := by
  unfold State.stageFrame
  dsimp only
  split <;> simp +decide

@[simp] theorem pitchView_stageFrames (s : State) (e : Nat) : pitchView (s.stageFrames e) = pitchView s := by
  unfold State.stageFrames
  split <;> simp +decide

@[simp] theorem pitchView_beginLoad (s : State) (e : Nat) (restoring : Bool) : pitchView (s.beginLoad e restoring) = pitchView s := by
  unfold State.beginLoad
  split <;> simp +decide

@[simp] theorem pitchView_countSave (s : State) (e : Nat) : pitchView (s.countSave e) = pitchView s := by
  unfold State.countSave
  split <;> simp +decide

@[simp] theorem pitchView_markRunnable (s : State) (e : Nat) : pitchView (s.markRunnable e) = pitchView s := by
  simp +decide [State.markRunnable]

@[simp] theorem pitchView_restoreMem (s : State) (x : SectX) (home a : Nat) (v : Option SavedSite) :
    pitchView (s.restoreMem x home a v) = pitchView s := by
  unfold State.restoreMem
  dsimp only
  split <;> simp +decide

@[simp] theorem pitchView_pauseSect (s : State) (e : Nat) : pitchView (s.pauseSect e) = pitchView s := by
  simp +decide [State.pauseSect]

@[simp] theorem pitchView_haltSect (s : State) (e code : Nat) : pitchView (s.haltSect e code) = pitchView s := by
  simp +decide [State.haltSect]

@[simp] theorem pitchView_runSect (s : State) (e : Nat) : pitchView (s.runSect e) = pitchView s := by
  simp +decide [State.runSect]

@[simp] theorem pitchView_resumePaused (s : State) (e : Nat) : pitchView (s.resumePaused e) = pitchView s := by
  simp +decide [State.resumePaused]

/-! ### Referees -/

@[simp] theorem pitchView_spurTo (s : State) (n st : Nat) : pitchView (s.spurTo n st) = pitchView s := by
  simp +decide [State.spurTo]

@[simp] theorem pitchView_confirmFault (s : State) (n cause : Nat) : pitchView (s.confirmFault n cause) = pitchView s := by
  unfold State.confirmFault
  dsimp only
  split <;> simp +decide

@[simp] theorem pitchView_putRef (s : State) (r : RefX) : pitchView (s.putRef r) = pitchView s := by
  simp +decide [State.putRef]

@[simp] theorem pitchView_noteRef (s : State) (r : RefX) (l : List (Fld × Nat)) (hl : l.all (fun x => offPitch x.1.reg) = true) :
    pitchView (s.noteRef r l) = pitchView s := by
  unfold State.noteRef
  simp +decide [hl]

@[simp] theorem pitchView_openRef (s : State) (a e : Nat) (vector : Bool) : pitchView (s.openRef a e vector) = pitchView s := by
  simp +decide [State.openRef]

@[simp] theorem pitchView_chooseReferee (s : State) (r : RefX) : pitchView (s.chooseReferee r) = pitchView s := by
  unfold State.chooseReferee
  dsimp only
  repeat' split
  all_goals simp +decide

@[simp] theorem pitchView_countRefWait (s : State) : pitchView (s.countRefWait) = pitchView s := by
  simp +decide [State.countRefWait]

@[simp] theorem pitchView_installReferee (s : State) (r : RefX) (a : Nat) (v : SavedSite) :
    pitchView (s.installReferee r a v) = pitchView s := by
  unfold State.installReferee
  dsimp only
  repeat' split
  all_goals simp +decide

@[simp] theorem pitchView_runReferee (s : State) (r : RefX) : pitchView (s.runReferee r) = pitchView s := by
  unfold State.runReferee
  split
  · split
    · rfl
    · split
      · simp
      · split
        · exact (pitchView_noteRef _ _ _ (by decide)).trans (by simp)
        · rfl
  · rfl

@[simp] theorem pitchView_putSaved (s : State) (e : Nat) (v : SavedSite) : pitchView (s.putSaved e v) = pitchView s := by
  simp +decide [State.putSaved]

@[simp] theorem pitchView_unhold (s : State) (a : Nat) : pitchView (s.unhold a) = pitchView s := by
  simp +decide [State.unhold]

@[simp] theorem pitchView_takeTiles (a : Nat) (phys : List SlotP) (mor : Word) (s : State) :
    pitchView (takeTiles a phys mor s) = pitchView s := by
  simp +decide [takeTiles]

@[simp] theorem pitchView_takeRow (a : Nat) (y : VRow) (s : State) : pitchView (takeRow a y s) = pitchView s := by
  simp +decide [takeRow]

@[simp] theorem pitchView_giveVerdict (s : State) (r : RefX) (a : Nat) : pitchView (s.giveVerdict r a) = pitchView s := by
  unfold State.giveVerdict
  split <;> simp +decide

@[simp] theorem pitchView_abandonReferee (s : State) (r : RefX) (a : Nat) : pitchView (s.abandonReferee r a) = pitchView s := by
  simp +decide [State.abandonReferee]

@[simp] theorem pitchView_settleReferee (s : State) (r : RefX) : pitchView (s.settleReferee r) = pitchView s := by
  unfold State.settleReferee
  split <;> simp +decide

@[simp] theorem pitchView_pauseSuspects (s : State) : pitchView (s.pauseSuspects) = pitchView s := by
  unfold State.pauseSuspects
  refine pitchView_foldl _ _ _ fun u a => ?_
  split <;> simp +decide

/-! ### The schedule -/

@[simp] theorem pitchView_takeFails (s : State) : pitchView (s.takeFails) = pitchView s := by
  unfold State.takeFails
  refine (pitchView_foldl _ _ _ fun u f => ?_).trans (pitchView_modHut ..)
  cases f.only <;> simp +decide

@[simp] theorem pitchView_configHalt (s : State) (e a : Nat) (x : SectX) : pitchView (s.configHalt e a x) = pitchView s := by
  simp +decide [State.configHalt]

@[simp] theorem pitchView_rewriteSite (s : State) (e a : Nat) (x : SectX) : pitchView (s.rewriteSite e a x) = pitchView s := by
  simp +decide [State.rewriteSite]

@[simp] theorem pitchView_takeConfigHalts (s : State) : pitchView (s.takeConfigHalts) = pitchView s := by
  unfold State.takeConfigHalts
  refine (pitchView_foldl _ _ _ fun u a => ?_).trans (pitchView_modHut ..)
  repeat' split
  all_goals simp +decide

@[simp] theorem pitchView_judgeStall (s : State) (a : Nat) (v : Option (Nat × Nat)) : pitchView (s.judgeStall a v) = pitchView s := by
  unfold State.judgeStall
  split <;> simp +decide

@[simp] theorem pitchView_haltStalled (s : State) (a : Nat) : pitchView (s.haltStalled a) = pitchView s := by
  unfold State.haltStalled
  split <;> simp +decide

@[simp] theorem pitchView_takeStalls (s : State) (l : List (Nat × Option (Nat × Nat))) : pitchView (s.takeStalls l) = pitchView s := by
  simp +decide [State.takeStalls]

@[simp] theorem pitchView_abortLoad (s : State) (e : Nat) : pitchView (s.abortLoad e) = pitchView s := by
  unfold State.abortLoad
  split <;> simp +decide

@[simp] theorem pitchView_bindAt (s : State) (e : Nat) : pitchView (s.bindAt e) = pitchView s := by
  unfold State.bindAt
  split <;> simp +decide

@[simp] theorem pitchView_moveTo (s : State) (e r : Nat) : pitchView (s.moveTo e r) = pitchView s := by
  unfold State.moveTo
  split <;> simp +decide

@[simp] theorem pitchView_relocateAll (s : State) (fenced : List Nat) (marks : List (Nat × Dir)) :
    pitchView (s.relocateAll fenced marks) = pitchView s := by
  unfold State.relocateAll
  split
  · rfl
  · refine pitchView_foldl_fst _ _ _ fun acc e q hq => ?_
    rw [← hq]
    dsimp only
    repeat' split
    all_goals simp

@[simp] theorem pitchView_retireLinks (s : State) : pitchView (s.retireLinks) = pitchView s := by
  simp +decide [State.retireLinks]

@[simp] theorem pitchView_fenceOff (s : State) (n : Nat) : pitchView (s.fenceOff n) = pitchView s := by
  simp +decide [State.fenceOff]

@[simp] theorem pitchView_healthActions (s : State) (stalls : List (Nat × Option (Nat × Nat))) :
    pitchView (s.healthActions stalls) = pitchView s := by
  simp +decide [State.healthActions]

@[simp] theorem pitchView_removePart (s : State) (p : Nat) : pitchView (s.removePart p) = pitchView s := by
  simp +decide [State.removePart]

@[simp] theorem pitchView_activate (s : State) (o : PartOps) : pitchView (s.activate o) = pitchView s := by
  simp +decide [State.activate]

@[simp] theorem pitchView_settleZeroing (s : State) (p k : Nat) : pitchView (s.settleZeroing p k) = pitchView s := by
  simp +decide [State.settleZeroing]

@[simp] theorem pitchView_takeGrant (s : State) (p k base size : Nat) (c : Ctx) :
    pitchView (s.takeGrant p k base size c) = pitchView s := by
  unfold State.takeGrant
  split <;> simp +decide

@[simp] theorem pitchView_keepParts (s : State) (f : PartReq → Bool) : pitchView (s.keepParts f) = pitchView s := by
  simp +decide [State.keepParts]

@[simp] theorem pitchView_takeParts (s : State) : pitchView (s.takeParts) = pitchView s := by
  unfold State.takeParts
  dsimp only
  refine (pitchView_foldl _ _ _ fun u q => ?_).trans ((pitchView_keepParts ..).trans ((pitchView_foldl _ _ _ fun u q => ?_).trans
    ((pitchView_keepParts ..).trans ((pitchView_foldl _ _ _ fun u q => ?_).trans (pitchView_keepParts ..)))))
  · repeat' split
    all_goals simp
  · split
    · split <;> simp
    · rfl
  · split <;> simp

@[simp] theorem pitchView_takeReferees (s : State) : pitchView (s.takeReferees) = pitchView s := by
  simp +decide [State.takeReferees]

@[simp] theorem pitchView_preemptSect (s : State) (e : Nat) : pitchView (s.preemptSect e) = pitchView s := by
  unfold State.preemptSect
  split <;> simp +decide

@[simp] theorem pitchView_preemptWanan (s : State) (p : Nat) (w : WananX) (c : Ctx) :
    pitchView (s.preemptWanan p w c) = pitchView s := by
  simp +decide [State.preemptWanan]

@[simp] theorem pitchView_takePreempt (s : State) (p job : Nat) (c : Ctx) : pitchView (s.takePreempt p job c) = pitchView s := by
  unfold State.takePreempt
  split <;> simp +decide

@[simp] theorem pitchView_rearmHalted (s : State) (e : Nat) (x : SectX) :
    ∀ t, s.rearmHalted e x = some t → pitchView t = pitchView s := by
  unfold State.rearmHalted
  split <;> simp +decide

@[simp] theorem pitchView_takeResume (s : State) (e prio row : Nat) (c : Ctx) :
    ∀ t, s.takeResume e prio row c = some t → pitchView t = pitchView s := by
  intro t ht
  have hj : ∀ u : State, pitchView u = pitchView s → some u = some t → pitchView t = pitchView s := fun u hu e => Option.some.inj e ▸ hu
  unfold State.takeResume at ht
  split at ht
  · exact hj _ (by simp) ht
  · next x _ =>
    split at ht
    · cases ht
    · split at ht
      · split at ht <;> exact hj _ (by simp +decide) ht
      · split at ht <;> exact hj _ (by simp +decide) ht
      · split at ht <;> exact hj _ (by simp +decide) ht
      · split at ht
        · exact hj _ (by simp) ht
        · obtain ⟨u, hu, rfl⟩ := Option.map_eq_some_iff.1 ht
          simpa using pitchView_rearmHalted s e x u hu
      · exact hj _ (by simp) ht

@[simp] theorem pitchView_takeBounds (s : State) : pitchView (s.takeBounds) = pitchView s := by
  unfold State.takeBounds
  refine (pitchView_foldl _ _ _ fun u q => ?_).trans (pitchView_modHut ..)
  split
  · split <;> simp
  · next e prio row c =>
    cases hr : u.takeResume e prio row c with
    | none => simp
    | some t => exact pitchView_takeResume u e prio row c t hr

@[simp] theorem pitchView_takeWanan (s : State) : pitchView (s.takeWanan) = pitchView s := by
  unfold State.takeWanan
  refine pitchView_foldl _ _ _ fun u y => ?_
  split <;> simp +decide

@[simp] theorem pitchView_takeDomain (s : State) (q : DomKind × Nat × Nat) : pitchView (s.takeDomain q) = pitchView s := by
  unfold State.takeDomain
  dsimp only
  repeat' split
  all_goals simp +decide

@[simp] theorem pitchView_takeDomains (s : State) : pitchView (s.takeDomains) = pitchView s := by
  simp +decide [State.takeDomains]

@[simp] theorem pitchView_runIfArmed (s : State) (e : Nat) : pitchView (s.runIfArmed e) = pitchView s := by
  unfold State.runIfArmed
  split <;> simp +decide

@[simp] theorem pitchView_rearmAuto (s : State) (e : Nat) : pitchView (s.rearmAuto e) = pitchView s := by
  unfold State.rearmAuto
  split
  · rfl
  · next x _ =>
    split
    · rfl
    · split
      · rfl
      · next t ht =>
        have := pitchView_rearmHalted s e x t ht
        split <;> simp [this]

@[simp] theorem pitchView_readySaved (s : State) (e : Nat) (x : SectX) :
    ∀ t, s.readySaved e x = some t → pitchView t = pitchView s := by
  unfold State.readySaved
  dsimp only
  split <;> simp +decide

@[simp] theorem pitchView_tryStart (s : State) (failed : List Nat) (e : Nat) : pitchView (s.tryStart failed e).1 = pitchView s := by
  unfold State.tryStart
  split
  · rfl
  · next x _ =>
    dsimp only
    split
    · next t ht =>
      have h : pitchView t = pitchView s := by
        split at ht
        · split at ht
          · exact pitchView_readySaved s e x t ht
          · cases ht
            rfl
        · cases ht
      exact (pitchView_beginLoad ..).trans h
    · split <;> split <;> simp
      all_goals split <;> simp

@[simp] theorem pitchView_takeStarts (s : State) : pitchView (s.takeStarts) = pitchView s := by
  refine pitchView_foldl _ _ _ fun u p => ?_
  exact pitchView_foldl_fst _ _ _ fun acc e q hq => hq ▸ pitchView_tryStart ..

@[simp] theorem pitchView_pfBegin (s : State) (e : Nat) (x : SectX) (y : Nat × PfProg) :
    pitchView (s.pfBegin e x y) = pitchView s := by
  simp +decide [State.pfBegin]

@[simp] theorem pitchView_pfStartAt (s : State) (e a : Nat) : pitchView (s.pfStartAt e a) = pitchView s := by
  unfold State.pfStartAt
  split <;> simp +decide

@[simp] theorem pitchView_pfStart (s : State) (e : Nat) : pitchView (s.pfStart e) = pitchView s := by
  unfold State.pfStart
  split <;> simp +decide

@[simp] theorem pitchView_sweepDomains (s : State) : pitchView (s.sweepDomains) = pitchView s := by
  simp +decide [State.sweepDomains]

@[simp] theorem pitchView_scheduleActions (s : State) : pitchView (s.scheduleActions) = pitchView s := by
  simp +decide [State.scheduleActions]

/-! ### Digests -/

@[simp] theorem pitchView_startDigest (s : State) (p job : Nat) (ranges : List (Nat × Nat)) (ctx : Option Ctx) :
    pitchView (s.startDigest p job ranges ctx) = pitchView s := by
  simp +decide [State.startDigest]

@[simp] theorem pitchView_startDue (s : State) (p : Nat) : pitchView (s.startDue p) = pitchView s := by
  unfold State.startDue
  split <;> simp +decide

@[simp] theorem pitchView_digestActions (s : State) : pitchView (s.digestActions) = pitchView s := by
  simp +decide [State.digestActions]

/-! ### Health -/

@[simp] theorem pitchView_applyCorrection (s : State) (q : Nat × Nat × Nat × Nat) : pitchView (s.applyCorrection q) = pitchView s := by
  simp +decide [State.applyCorrection]

@[simp] theorem pitchView_applyCorrections (s : State) : pitchView (s.applyCorrections) = pitchView s := by
  simp +decide [State.applyCorrections]

@[simp] theorem pitchView_resetScrubber (s : State) : pitchView (s.resetScrubber) = pitchView s := by
  simp +decide [State.resetScrubber]

@[simp] theorem pitchView_watchScrubber (s : State) : pitchView (s.watchScrubber) = pitchView s := by
  simp +decide [State.watchScrubber]

@[simp] theorem pitchView_beginTest (s : State) (n : Nat) : pitchView (s.beginTest n) = pitchView s := by
  simp +decide [State.beginTest]

@[simp] theorem pitchView_startTests (s : State) : pitchView (s.startTests) = pitchView s := by
  simp +decide [State.startTests]

@[simp] theorem pitchView_endRereads (s : State) (c : Nat) : pitchView (s.endRereads c) = pitchView s := by
  simp +decide [State.endRereads]

@[simp] theorem pitchView_retireChannel (s : State) (c : Nat) : pitchView (s.retireChannel c) = pitchView s := by
  simp +decide [State.retireChannel]

@[simp] theorem pitchView_startReform (s : State) (k : Nat) : pitchView (s.startReform k) = pitchView s := by
  simp +decide [State.startReform]

@[simp] theorem pitchView_channelActions (s : State) : pitchView (s.channelActions) = pitchView s := by
  simp +decide [State.channelActions]

/-! ### Streams and start-up -/

@[simp] theorem pitchView_closeQp (s : State) (q reason : Nat) : pitchView (s.closeQp q reason) = pitchView s := by
  simp +decide [State.closeQp]

@[simp] theorem pitchView_putStream (s : State) (k : Nat) (x : StreamX) : pitchView (s.putStream k x) = pitchView s := by
  simp +decide [State.putStream]

@[simp] theorem pitchView_modStream (s : State) (k : Nat) (f : StreamX → StreamX) : pitchView (s.modStream k f) = pitchView s := by
  simp +decide [State.modStream]

@[simp] theorem pitchView_releaseClaim (s : State) : pitchView (s.releaseClaim) = pitchView s := by
  unfold State.releaseClaim
  refine (pitchView_wr _ _ _ rfl).trans ((pitchView_wr _ _ _ rfl).trans ((pitchView_modGate ..).trans ((pitchView_setCfg ..).trans
    ((pitchView_setWord _ _ _ rfl).trans ((pitchView_setWord _ _ _ rfl).trans ((pitchView_setWord _ _ _ rfl).trans ?_))))))
  split <;> simp

@[simp] theorem pitchView_runEntry (s : State) (c : Ctx) (o : RunOps) (e : Nat) : pitchView (s.runEntry c o e) = pitchView s := by
  simp +decide [State.runEntry]

@[simp] theorem pitchView_loadDone (s : State) (c : Ctx) (cls code detail : Nat) (staged : Option Nat) :
    pitchView (s.loadDone c cls code detail staged) = pitchView s := by
  unfold State.loadDone
  split <;> simp +decide

@[simp] theorem pitchView_endStream (s : State) (k outcome reason : Nat) : pitchView (s.endStream k outcome reason) = pitchView s := by
  unfold State.endStream
  dsimp only
  repeat' split
  all_goals simp +decide

@[simp] theorem pitchView_truncateIf (s : State) (p : Nat → StreamX → Bool) : pitchView (s.truncateIf p) = pitchView s := by
  simp +decide [State.truncateIf]

/-! ### The board -/

@[simp] theorem pitchView_modBoard (s : State) (f : BoardX → BoardX) : pitchView (s.modBoard f) = pitchView s := by
  simp +decide [State.modBoard]

@[simp] theorem pitchView_retainDomains (s : State) : pitchView (s.retainDomains) = pitchView s := by
  unfold State.retainDomains
  have h : ∀ r ∈ domainRegs, offPitch r.1 = true := by decide
  exact (pitchView_modHut ..).trans ((pitchView_modBoard ..).trans (pitchView_foldl_mem _ _ _ fun u r hr => pitchView_setWord _ _ _ (h r hr)))

@[simp] theorem pitchView_judgeEntry (s : State) : pitchView (s.judgeEntry) = pitchView s := by
  simp +decide [State.judgeEntry]

@[simp] theorem pitchView_beginWake (s : State) : pitchView (s.beginWake) = pitchView s := by
  simp +decide [State.beginWake]

/-! ### The pitch -/

@[simp] theorem pitchView_settleSite (s : State) (a : Nat) : pitchView (s.settleSite a) = pitchView s := by
  simp +decide [State.settleSite]

@[simp] theorem pitchView_newPitchSite (s : State) (a : Nat) : pitchView (s.newPitchSite a) = pitchView s := by
  simp +decide [State.newPitchSite]

@[simp] theorem pitchView_countWaits (s : State) (a : Nat) : pitchView (s.countWaits a) = pitchView s := by
  simp +decide [State.countWaits]

@[simp] theorem pitchView_takeSeeds (s : State) : pitchView (s.takeSeeds) = pitchView s := by
  simp +decide [State.takeSeeds]

@[simp] theorem pitchView_endInactive (s : State) : pitchView (s.endInactive) = pitchView s := by
  simp +decide [State.endInactive]

end Sys2Proof.Machine
end

section
/-! PROOF. What a pitch boundary does to the pitch (R28, R31, Table 01-6). -/

namespace Sys2Proof.Proofs

open Sys2Proof Sys2Proof.Machine

/-- The registers that show the pitch. -/
def pitchWords (s : State) : Word × Word := (s.word .COL_PITCH_NUM 0 0, s.word .COL_PITCH_CTRL 0 0)

theorem pitchView_eq {s t : State} (h : pitchView t = pitchView s) :
    t.cycle = s.cycle ∧ t.lenPend = s.lenPend ∧ t.lenNext = s.lenNext ∧ pitchWords t = pitchWords s := by
  simp only [pitchView, Prod.mk.injEq] at h
  obtain ⟨hc, hp, hn, h1, h2⟩ := h
  exact ⟨hc, hp, hn, by simp [pitchWords, State.word, h1, h2]⟩

theorem SameButTime.pitch {s t : State} (h : SameButTime s t) :
    t.lenPend = s.lenPend ∧ t.lenNext = s.lenNext ∧ pitchWords t = pitchWords s :=
  ⟨h.lenPend, h.lenNext, by rw [pitchWords, pitchWords, h.word _ _ _ (by decide), h.word _ _ _ (by decide)]⟩

/-- The end of a pitch leaves what waits and what shows the pitch. -/
theorem endPitch_pitch (s : State) :
    s.endPitch.1.lenPend = s.lenPend ∧ s.endPitch.1.lenNext = s.lenNext ∧ pitchWords s.endPitch.1 = pitchWords s := by
  have e : pitchView s.endPitch.1 = pitchView ((s.at_ (s.pitchLen - 1)).pass 1) := by
    unfold State.endPitch
    exact (pitchView_foldl _ _ _ fun _ _ => pitchView_settleSite ..).trans ((pitchView_settlePorts _).trans (pitchView_settleArbs _))
  obtain ⟨-, hp, hn, hw⟩ := pitchView_eq e
  obtain ⟨ap, an, aw⟩ := SameButTime.pitch ((SameButTime.at_ s (s.pitchLen - 1)).trans (.pass _ 1))
  exact ⟨hp.trans ap, hn.trans an, hw.trans aw⟩

/-- The boundary's actions touch the pitch in step 8 alone. -/
theorem boundaryActions_pitch (s : State) (l : List (Nat × Option (Nat × Nat))) :
    ∃ u, pitchView u = pitchView s ∧ pitchView (s.boundaryActions l) = pitchView u.takeLength := by
  refine ⟨((((s.sample.healthActions l).channelActions).scheduleActions.endInactive).digestActions).applyCorrections.watchScrubber.startTests,
    ?_, ?_⟩
  · simp only [pitchView_startTests, pitchView_watchScrubber, pitchView_applyCorrections, pitchView_digestActions, pitchView_endInactive,
      pitchView_scheduleActions, pitchView_channelActions, pitchView_healthActions]
    rfl
  · unfold State.boundaryActions
    exact (pitchView_beginWake _).trans (pitchView_judgeEntry _)

/-- A length that comes into force with this pitch (step 8 of the last). -/
def withLength (s : State) : Option Nat → State
  | some v => ({ s with lenNext := none } : State).wr F.COL_PITCH_NUM_LOG2_LEN 0 0 v
  | none => s

theorem nextPitch_wraps {s : State} (h : s.pitch = 2 ^ 48 - 1) :
    s.nextPitch = withLength ((s.wr F.COL_PITCH_NUM_PITCH 0 0 0).noteFlag F.COL_PITCH_CTRL_WRAPPED 0 0) s.lenNext := by
  unfold State.nextPitch
  simp only [if_pos h, State.noteFlag_lenNext, State.wr_lenNext]
  cases s.lenNext <;> rfl

theorem nextPitch_counts {s : State} (h : s.pitch ≠ 2 ^ 48 - 1) :
    s.nextPitch = withLength (s.wr F.COL_PITCH_NUM_PITCH 0 0 (s.pitch + 1)) s.lenNext := by
  unfold State.nextPitch
  simp only [if_neg h, State.wr_lenNext]
  cases s.lenNext <;> rfl

/-- A length leaves the cycle, what waits for step 8 and the other fields. -/
theorem withLength_keeps (s : State) (l : Option Nat) : (withLength s l).cycle = s.cycle ∧ (withLength s l).lenPend = s.lenPend ∧
    (withLength s l).rd F.COL_PITCH_NUM_PITCH = s.rd F.COL_PITCH_NUM_PITCH ∧
    (withLength s l).rd F.COL_PITCH_CTRL_WRAPPED = s.rd F.COL_PITCH_CTRL_WRAPPED := by
  cases l with
  | none => exact ⟨rfl, rfl, rfl, rfl⟩
  | some v =>
    have e := fun f : Fld => (rfl : ({ s with lenNext := none } : State).rd f = s.rd f)
    exact ⟨rfl, rfl, (State.rd_wr_other _ _ _ _ _ _ (by decide)).trans (e _), (State.rd_wr_other _ _ _ _ _ _ (by decide)).trans (e _)⟩

theorem withLength_length (s : State) (v : Nat) : (withLength s (some v)).rd F.COL_PITCH_NUM_LOG2_LEN = v % 16 :=
  State.rd_wr_self _ _ _ _ _ (by decide)

/-- A flag noted reads 1. -/
theorem rd_noteFlag_self (s : State) (f : Fld) (a i : Nat) (h : f.lo + f.width ≤ 64) : (s.noteFlag f a i).rd f a i = 1 % 2 ^ f.width :=
  s.rd_wr_self f a i 1 h

theorem rd_noteFlag_other (s : State) {f g : Fld} (a i a' i' : Nat) (h : g.reg ≠ f.reg ∨ g.lo + g.width ≤ f.lo ∨ f.lo + f.width ≤ g.lo) :
    (s.noteFlag f a i).rd g a' i' = s.rd g a' i' := s.rd_wr_other a i a' i' 1 h

/-- Step 1 of the new pitch: its number, WRAPPED, and the length in force from it (R28). -/
theorem nextPitch_pitch (s : State) : s.nextPitch.cycle = s.cycle ∧ s.nextPitch.lenPend = s.lenPend ∧
    s.nextPitch.pitch = (s.pitch + 1) % 2 ^ 48 ∧ (s.pitch + 1 = 2 ^ 48 → s.nextPitch.rd F.COL_PITCH_CTRL_WRAPPED = 1) ∧
    ∀ v, s.lenNext = some v → s.nextPitch.rd F.COL_PITCH_NUM_LOG2_LEN = v % 16 := by
  have hlt : s.pitch < 2 ^ 48 := fieldGet_lt ..
  by_cases h : s.pitch = 2 ^ 48 - 1
  · rw [nextPitch_wraps h]
    obtain ⟨hc, hl, hp, hw⟩ := withLength_keeps ((s.wr F.COL_PITCH_NUM_PITCH 0 0 0).noteFlag F.COL_PITCH_CTRL_WRAPPED 0 0) s.lenNext
    refine ⟨hc, hl, hp.trans ?_, fun _ => hw.trans ?_, fun v hv => ?_⟩
    · rw [rd_noteFlag_other _ _ _ _ _ (by decide), State.rd_wr_self _ _ _ _ _ (by decide), h]
      rfl
    · exact rd_noteFlag_self _ _ _ _ (by decide)
    · rw [hv]
      exact withLength_length _ v
  · rw [nextPitch_counts h]
    obtain ⟨hc, hl, hp, -⟩ := withLength_keeps (s.wr F.COL_PITCH_NUM_PITCH 0 0 (s.pitch + 1)) s.lenNext
    refine ⟨hc, hl, hp.trans ?_, fun k => by omega, fun v hv => ?_⟩
    · exact State.rd_wr_self _ _ _ _ _ (by decide)
    · rw [hv]
      exact withLength_length _ v

/-- Step 8: a length that waits comes into force with the next pitch. -/
theorem takeLength_pitch (s : State) : s.takeLength.cycle = s.cycle ∧ s.takeLength.pitch = s.pitch ∧
    s.takeLength.rd F.COL_PITCH_NUM_LOG2_LEN = s.rd F.COL_PITCH_NUM_LOG2_LEN ∧
    s.takeLength.rd F.COL_PITCH_CTRL_WRAPPED = s.rd F.COL_PITCH_CTRL_WRAPPED ∧
    ∀ v, s.lenPend = some v → s.takeLength.lenNext = some v ∧ s.takeLength.lenPend = none ∧
      s.takeLength.rd F.COL_PITCH_CTRL_CHANGE_PEND = 0 := by
  unfold State.takeLength
  cases s.lenPend with
  | none => exact ⟨rfl, rfl, rfl, rfl, fun v hv => by cases hv⟩
  | some w =>
    refine ⟨rfl, State.rd_wr_other _ _ _ _ _ _ (by decide), State.rd_wr_other _ _ _ _ _ _ (by decide),
      State.rd_wr_other _ _ _ _ _ _ (by decide), fun v hv => ?_⟩
    cases hv
    exact ⟨rfl, rfl, State.rd_wr_self _ _ _ _ _ (by decide)⟩

theorem rd_of_pitchWords {s t : State} (h : pitchWords t = pitchWords s) :
    t.pitch = s.pitch ∧ t.rd F.COL_PITCH_NUM_LOG2_LEN = s.rd F.COL_PITCH_NUM_LOG2_LEN ∧
    t.rd F.COL_PITCH_CTRL_WRAPPED = s.rd F.COL_PITCH_CTRL_WRAPPED ∧ t.rd F.COL_PITCH_CTRL_CHANGE_PEND = s.rd F.COL_PITCH_CTRL_CHANGE_PEND := by
  simp only [pitchWords, Prod.mk.injEq] at h
  obtain ⟨h1, h2⟩ := h
  exact ⟨congrArg (fieldGet F.COL_PITCH_NUM_PITCH) h1, congrArg (fieldGet F.COL_PITCH_NUM_LOG2_LEN) h1,
    congrArg (fieldGet F.COL_PITCH_CTRL_WRAPPED) h2, congrArg (fieldGet F.COL_PITCH_CTRL_CHANGE_PEND) h2⟩

/-- A boundary, as far as the pitch goes: a new pitch of the state it ends, then step 8. -/
theorem boundary_pitch (s : State) : ∃ u v, u.cycle = 0 ∧ u.lenPend = s.lenPend ∧ u.lenNext = s.lenNext ∧
    pitchWords u = pitchWords s ∧ pitchView v = pitchView u.nextPitch ∧ pitchView s.boundary = pitchView v.takeLength := by
  obtain ⟨hp, hn, hw⟩ := endPitch_pitch s
  generalize he : s.endPitch = y at hp hn hw
  obtain ⟨t, st⟩ := y
  let u : State := { t with cycle := 0 }
  let w := (u.nextPitch.takeSeeds.sites.map Prod.fst).foldl (fun s a => (s.newPitchSite a).countWaits a) u.nextPitch.takeSeeds
  have hwv : pitchView w = pitchView u.nextPitch :=
    (pitchView_foldl _ _ _ fun _ _ => (pitchView_countWaits ..).trans (pitchView_newPitchSite ..)).trans (pitchView_takeSeeds _)
  obtain ⟨v, hv, hb⟩ := boundaryActions_pitch w st
  refine ⟨u, v, rfl, hp, hn, hw, hv.trans hwv, ?_⟩
  rw [← hb, State.boundary, he]

/-- What a boundary does to the pitch. -/
theorem boundary_acts (s : State) : s.boundary.pitch = (s.pitch + 1) % 2 ^ 48 ∧ s.boundary.cycle = 0 ∧
    (s.pitch + 1 = 2 ^ 48 → s.boundary.rd F.COL_PITCH_CTRL_WRAPPED = 1) ∧
    (∀ v, s.lenNext = some v → s.boundary.rd F.COL_PITCH_NUM_LOG2_LEN = v % 16) ∧
    ∀ v, s.lenPend = some v → s.boundary.lenNext = some v ∧ s.boundary.lenPend = none ∧
      s.boundary.rd F.COL_PITCH_CTRL_CHANGE_PEND = 0 := by
  obtain ⟨u, v, hc, hp, hn, hw, hv, hb⟩ := boundary_pitch s
  obtain ⟨uc, up, upi, uw, ul⟩ := nextPitch_pitch u
  obtain ⟨vc, vp, -, vw⟩ := pitchView_eq hv
  obtain ⟨vpi, vl, vwr, -⟩ := rd_of_pitchWords vw
  obtain ⟨tc, tp, tl, twr, tpend⟩ := takeLength_pitch v
  obtain ⟨bc, bp, bn, bw⟩ := pitchView_eq hb
  obtain ⟨bpi, bl, bwr, bch⟩ := rd_of_pitchWords bw
  obtain ⟨epi, -, -, -⟩ := rd_of_pitchWords hw
  rw [epi] at upi uw
  rw [hn] at ul
  refine ⟨by rw [bpi, tp, vpi, upi], by rw [bc, tc, vc, uc, hc], fun h => by rw [bwr, twr, vwr, uw h],
    fun k hk => by rw [bl, tl, vl, ul k hk], fun k hk => ?_⟩
  obtain ⟨h1, h2, h3⟩ := tpend k ((vp.trans (up.trans hp)).trans hk)
  exact ⟨bn.trans h1, bp.trans h2, bch.trans h3⟩

/-- A key that is not put keeps what it holds. -/
theorem aget_foldl_aput_of_notMem {κ α : Type} [DecidableEq κ] (l m : List (κ × α)) {k : κ} (h : k ∉ l.map Prod.fst) :
    aget (l.foldl (fun m x => aput m x.1 x.2) m) k = aget m k := by
  induction l generalizing m with
  | nil => rfl
  | cons x l ih =>
    rw [List.map_cons, List.mem_cons, not_or] at h
    exact (ih _ h.2).trans (aget_aput_ne m x.2 h.1)

/-- Entries put one after another read back, when no key comes twice. -/
theorem aget_foldl_aput {κ α : Type} [DecidableEq κ] (l m : List (κ × α)) (hl : (l.map Prod.fst).Nodup) (k : κ) (v : α)
    (h : aget l k = some v) : aget (l.foldl (fun m x => aput m x.1 x.2) m) k = some v := by
  induction l generalizing m with
  | nil => cases h
  | cons x l ih =>
    obtain ⟨j, w⟩ := x
    rw [List.map_cons, List.nodup_cons] at hl
    obtain ⟨hj, hl⟩ := hl
    by_cases e : j = k
    · subst e
      have hw : w = v := by simpa [aget] using h
      rw [List.foldl_cons, aget_foldl_aput_of_notMem l _ hj, aget_aput_same, hw]
    · exact ih _ hl (by simpa [aget, e] using h)

/-- Settles O35: the boundary followed through its actions, of which step 1 and step 8 alone touch the pitch. -/
theorem pitchBoundaryActs : Obligations.PitchBoundaryActs := by
  intro s
  refine ⟨fun h => .next (t := s.boundary) ?_ (boundary_acts s), fun h k => .next (t := s.boundary) ?_ (boundary_acts s), fun h hk k v hv => ?_⟩
  · simp [exec, execPitchBoundary, h]
  · have e : s.pitch = 2 ^ 48 - 1 := by omega
    simp [exec, execPitchWrap, h, e]
  · unfold State.sample
    simp only [h, ne_eq, not_true_eq_false, if_false]
    exact aget_foldl_aput _ _ hk k v hv

end Sys2Proof.Proofs
end

section
/-! PROOF. The verdict on a tile, its one re-execution, and what leaves the matrix engine (chapter 03). -/

section
open Sys2Proof Sys2Proof.Machine

theorem SameMem.of_mems {u t : State} (h : mems t = mems u) : SameMem u t := by
  simp only [mems, Prod.mk.injEq] at h
  exact .of_eq h.1 h.2.1

/-- A register not named reads as before. -/
theorem SameRegs.rd {u t : State} {R : RegName → Nat → Nat → Prop} (h : SameRegs u t R) {f : Fld} {a i : Nat} (hn : ¬ R f.reg a i) :
    t.rd f a i = u.rd f a i := by rw [State.rd, h _ _ _ hn, State.rd]

end

namespace Sys2Proof.Proofs

open Sys2Proof Sys2Proof.Machine

/-- An event of a site's engine whose section runs, in a cycle of the pitch. -/
theorem atEngine_on {p : At} {s : State} (f : State → State) (he : s.engineOn p.site.toNat = true) (hr : s.reaches p.t.toNat = true) :
    atEngine p f s = f (s.at_ p.t.toNat) := by simp [atEngine, atSite, he, hr]

@[simp] theorem at_mtx (s : State) (t a : Nat) : (s.at_ t).mtx a = s.mtx a := by simp [State.mtx]

theorem mtx_congr {s t : State} (h : t.sites = s.sites) (a : Nat) : t.mtx a = s.mtx a := by rw [State.mtx, State.site_congr h, State.mtx]

/-- An index that `findIdx?` gives lies in the list. -/
theorem lt_of_getElem?_some {α : Type} {l : List α} {i : Nat} {x : α} (h : l[i]? = some x) : i < l.length :=
  (List.getElem?_eq_some_iff.mp h).1

/-! ### What a run and a disagreement leave alone -/

section
variable (s : State) (a i : Nat) (x y : Tile) (d : Dis)

@[simp] theorem sites_raiseMor (slot : Nat) (b c e : Bool) : (s.raiseMor a slot b c e).sites = s.sites := by
  unfold State.raiseMor; split <;> rfl
@[simp] theorem sites_raiseBadTag (b : Bool) : (s.raiseBadTag a b).sites = s.sites := by unfold State.raiseBadTag; split <;> rfl
@[simp] theorem sites_ranTags : (s.ranTags a x).sites = s.sites := by simp [State.ranTags, State.raiseTook]
@[simp] theorem sites_countRun : (s.countRun a x).sites = s.sites := by unfold State.countRun; dsimp only; split <;> [split; skip] <;> rfl
@[simp] theorem sites_logDis : (s.logDis a d).1.sites = s.sites := by unfold State.logDis; dsimp only; split <;> rfl
@[simp] theorem sites_mtxSpend : (s.mtxSpend a).sites = s.sites := rfl

theorem tiles_setTile : ((s.setTile a i x).mtx a).tiles = (s.mtx a).tiles.set i x := by simp [State.setTile]

theorem tiles_setTile_at (h : (s.mtx a).tiles[i]? = some y) : ((s.setTile a i x).mtx a).tiles[i]? = some x := by
  rw [tiles_setTile]; exact List.getElem?_set_self (lt_of_getElem?_some h)

end

/-- The registers of a site that a run's tags and a disagreement may change. -/
def judgeRegs (a : Nat) : RegName → Nat → Nat → Prop := fun r b i =>
  oneReg .MOR_STATUS a 0 r b i ∨ oneReg .CHK_LOG a 0 r b i ∨ oneReg .CHK_SYND a 0 r b i

section
variable (s : State) (a : Nat) (x : Tile) (d : Dis)

theorem regs_raiseMor (slot : Nat) (b c e : Bool) : SameRegs s (s.raiseMor a slot b c e) (oneReg .MOR_STATUS a 0) := by
  unfold State.raiseMor
  split
  · exact .refl _ _
  · exact .note (.refl _ _) _ ⟨rfl, rfl, rfl⟩

theorem regs_raiseBadTag (b : Bool) : SameRegs s (s.raiseBadTag a b) (oneReg .MOR_STATUS a 0) := by
  unfold State.raiseBadTag
  split
  · exact .note (.refl _ _) _ ⟨rfl, rfl, rfl⟩
  · exact .refl _ _

theorem regs_countRun : (s.countRun a x).regs = s.regs := by unfold State.countRun; dsimp only; split <;> [split; skip] <;> rfl

theorem regs_ranTags : SameRegs s (s.ranTags a x) (oneReg .MOR_STATUS a 0) :=
  SameRegs.trans (regs_raiseMor _ _ _ _ _ _) (regs_raiseBadTag _ _ _)

theorem regs_logDis : SameRegs s (s.logDis a d).1 (judgeRegs a) := by
  have h : SameRegs s (s.count C.CHK_CNT_DISAGREE a) (judgeRegs a) := .of_eq rfl
  unfold State.logDis
  dsimp only
  split
  · exact .wr (.note h _ (.inr (.inl ⟨rfl, rfl, rfl⟩))) _ (.inr (.inr ⟨rfl, rfl, rfl⟩))
  · exact .note h _ (.inr (.inl ⟨rfl, rfl, rfl⟩))

theorem counters_ranTags : (s.ranTags a x).counters = s.counters := by
  unfold State.ranTags State.raiseTook State.raiseMor State.raiseBadTag
  split <;> split <;> rfl

theorem ctr_countRun : (s.countRun a x).ctr C.CHK_CNT_DISAGREE a = s.ctr C.CHK_CNT_DISAGREE a := by
  have h := fun (u : State) n => State.ctr_count_ne u (c := C.MTX_CNT_BUSY) (c' := C.CHK_CNT_DISAGREE) n (Ctr.site_ne a (by decide))
  have k := fun (u : State) n => State.ctr_count_ne u (c := C.MTX_CNT_RECOMP_BUSY) (c' := C.CHK_CNT_DISAGREE) n (Ctr.site_ne a (by decide))
  unfold State.countRun
  dsimp only
  split
  · split
    · exact (k _ _).trans (h _ _)
    · exact h _ _
  · rfl

theorem ctr_logDis : (s.logDis a d).1.ctr C.CHK_CNT_DISAGREE a = (s.ctr C.CHK_CNT_DISAGREE a + 1) % 2 ^ 48 := by
  have e : (s.logDis a d).1.counters = (s.count C.CHK_CNT_DISAGREE a).counters := by
    unfold State.logDis
    dsimp only
    split <;> rfl
  rw [State.ctr, e, ← State.ctr, State.ctr_count_same]

/-- The tile instructions planned again keep their order and what they are. -/
theorem replan_at (v f : Nat) (l : List Tile) (af prev : Nat) (hist : List Nat) (i : Nat) :
    ((replan v f l af prev hist).1[i]?).map Tile.stage = (l[i]?).map Tile.stage := by
  induction l generalizing af prev hist i with
  | nil => rfl
  | cons x l ih =>
    unfold replan
    split <;> cases i <;> first | rfl | exact ih ..

theorem stage_mtxReplan (v f i : Nat) : (((s.mtxReplan a v f).mtx a).tiles[i]?).map Tile.stage = ((s.mtx a).tiles[i]?).map Tile.stage := by
  rw [State.mtxReplan, State.mtx_modMtx_same]
  exact replan_at ..

@[simp] theorem regs_mtxReplan (v f : Nat) : (s.mtxReplan a v f).regs = s.regs := rfl
@[simp] theorem counters_mtxReplan (v f : Nat) : (s.mtxReplan a v f).counters = s.counters := rfl

end

/-! ### The verdict -/

/-- The state in which a run is judged: its cycles counted, its tags taken. -/
def ran (s : State) (a : Nat) (x : Tile) : State := (s.countRun a x).ranTags a x

theorem mtx_ran (s : State) (a : Nat) (x : Tile) (b : Nat) : (ran s a x).mtx b = s.mtx b := mtx_congr (by simp [ran]) b

theorem mems_ran (s : State) (a : Nat) (x : Tile) : mems (ran s a x) = mems s := by simp [ran]

theorem regs_ran (s : State) (a : Nat) (x : Tile) : SameRegs s (ran s a x) (judgeRegs a) :=
  (SameRegs.of_eq (regs_countRun s a x)).trans ((regs_ranTags _ a x).mono fun _ _ _ => .inl)

/-- A run whose checksums and tags agree stands (R105). -/
theorem verdictFirst_agrees {a i : Nat} {x : Tile} {u : Upset} {s : State} (h : x.judgeDelta (applyCells x.rowMask u x.exact) u = none) :
    verdictFirst a i x u s =
      (ran s a x).setTile a i { x with delta := applyCells x.rowMask u x.exact, upset := u, stage := .agreed } := by
  unfold verdictFirst
  have h' : Tile.judgeDelta { x with delta := applyCells x.rowMask u x.exact, upset := u } (applyCells x.rowMask u x.exact) u = none := h
  simp only [h']
  rfl

/-- The first disagreement of a pitch, with no poisoned input, sends the tile to its re-execution (R106). -/
theorem verdictFirst_disputes {a i : Nat} {x : Tile} {u : Upset} {s : State} {d : Dis}
    (h : x.judgeDelta (applyCells x.rowMask u x.exact) u = some d) (hp : tilePoison (s.mtx a) x = false) (hs : s.mtxSpent a = false) :
    ∃ v f y, verdictFirst a i x u s = ((((ran s a x).logDis a d).1.mtxSpend a).setTile a i y).mtxReplan a v f ∧ y.stage = .rerun := by
  have h' : Tile.judgeDelta { x with delta := applyCells x.rowMask u x.exact, upset := u } (applyCells x.rowMask u x.exact) u = some d := h
  have hm : ((ran s a x).logDis a d).1.mtx a = s.mtx a := (mtx_congr (by simp) a).trans (mtx_ran s a x a)
  have hr : ((ran s a x).logDis a d).1.mtxSpent a = false := by
    rw [State.mtxSpent, ((regs_ran s a x).trans (regs_logDis _ a d)).rd (by simp [judgeRegs, oneReg, F.MTX_STATUS_REEXEC_SPENT])]
    exact hs
  have hp' : ∀ y : Tile, y.poisonIn = x.poisonIn → y.first = x.first → y.slot = x.slot → tilePoison (s.mtx a) y = false := by
    intro y h1 h2 h3
    rw [← hp, tilePoison, tilePoison, h1, h2, h3]
  unfold verdictFirst
  simp only [h']
  refine ⟨_, _, _, (if_neg ?_).trans (if_neg ?_), ?_⟩
  · change ¬ tilePoison (((ran s a x).logDis a d).1.mtx a) _ = true
    rw [hm, Bool.not_eq_true]
    exact hp' _ rfl rfl rfl
  · change ¬ ((ran s a x).logDis a d).1.mtxSpent a = true
    rw [hr]
    exact Bool.false_ne_true
  · rfl

/-! ### The re-execution -/

theorem tileVerdictJudges : TileVerdictJudges := by
  intro s p u i x a v he hr hi hx hrun
  have hv : v.mtx a = s.mtx a := at_mtx ..
  have hexec : exec (.tileVerdict p u) s = .next (verdictFirst a i x u v) := by
    change execTileVerdict p u s = _
    rw [execTileVerdict, atEngine_on _ he hr]
    change Host.Outcome.next (match (v.mtx a).tiles.findIdx? (verdictDue v.cycle) with
      | none => v
      | some i => match (v.mtx a).tiles[i]? with
        | none => v
        | some x => if x.stage = TileStage.running then verdictFirst a i x u v else verdictRerun a i x v) = _
    rw [hv, hi]
    simp only [hx, hrun, if_true]
  refine ⟨fun h => .next hexec ?_, fun d h hp hs => .next hexec ?_⟩
  · rw [verdictFirst_agrees h, tiles_setTile_at (y := x) _ _ _ _ (by rw [mtx_ran, hv]; exact hx)]
    exact ⟨rfl, .of_mems (by simp [mems_ran, v])⟩
  · obtain ⟨w, f, y, e, hy⟩ := verdictFirst_disputes h (hv ▸ hp) hs
    rw [e]
    have hm : (((ran v a x).logDis a d).1.mtxSpend a).mtx a = s.mtx a := (mtx_congr (by simp [ran]) a).trans hv
    refine ⟨?_, ?_, ?_, .of_mems (by simp [mems_ran, v])⟩
    · rw [stage_mtxReplan, tiles_setTile_at (y := x) _ _ _ _ (hm ▸ hx)]
      exact congrArg some hy
    · exact State.rd_wr_self _ F.MTX_STATUS_REEXEC_SPENT a 0 1 (by decide)
    · change ((ran v a x).logDis a d).1.ctr C.CHK_CNT_DISAGREE a = _
      rw [ctr_logDis]
      congr 2
      exact (congrArg (fun l => (aget l (C.CHK_CNT_DISAGREE.address a)).getD 0) (counters_ranTags _ a x)).trans (ctr_countRun v a x)

theorem tileRunsAgain : TileRunsAgain := by
  intro s p u i x a v he hr hi hx
  have hv : v.mtx a = s.mtx a := at_mtx ..
  refine .next (t := v.setTile a i { x with
    exact := v.tileAgain a x, delta := applyCells x.rowMask u (v.tileAgain a x), chk := (v.runAgain a x).2, upset := u, stage := .reran }) ?_ ?_
  · change execTileReexecution p u s = _
    rw [execTileReexecution, atEngine_on _ he hr]
    change Host.Outcome.next (match (v.mtx a).tiles.findIdx? (fun x => x.stage == .rerun && decide (x.lastK + 1 - x.run ≤ v.cycle)) with
      | none => v
      | some i => match (v.mtx a).tiles[i]? with
        | none => v
        | some x => v.setTile a i { x with
          exact := v.tileAgain a x, delta := applyCells x.rowMask u (v.tileAgain a x), chk := (v.runAgain a x).2, upset := u, stage := .reran }) = _
    rw [hv, hi]
    simp only [hx]
  · refine ⟨?_, .of_eq rfl rfl rfl, .modSite (.of_eq rfl) _⟩
    rw [tiles_setTile_at (y := x) _ _ _ _ (hv ▸ hx)]
    rfl

/-- Settles O12: the verdict is that of the run as it stands, and the schedule made again keeps the order of the tiles. -/
theorem tilesAreJudged : Obligations.TilesAreJudged := ⟨tileVerdictJudges, tileRunsAgain⟩

end Sys2Proof.Proofs
end

section
/-! PROOF. What commits and leaves the matrix engine: commits, releases, saves, skips and frees (chapter 03). -/

namespace Sys2Proof.Proofs

open Sys2Proof Sys2Proof.Machine

/-! ### Reads of a slot, and its tags -/

section
variable (s : State) (a : Nat)

@[simp] theorem sites_noteEcc (m w : Nat) (sy : Byte) : (s.noteEcc a m w sy).sites = s.sites := by
  unfold State.noteEcc; split <;> rfl

theorem regs_noteEcc (m w : Nat) (sy : Byte) : SameRegs s (s.noteEcc a m w sy) (slotRegs a) := by
  unfold State.noteEcc
  split
  · exact .refl _ _
  · exact .note (.of_eq rfl) _ (.inr ⟨rfl, rfl, rfl⟩)

theorem sites_notedErrors (u : Nat) (l : List (Nat × BitVec 8)) :
    (l.foldl (fun s x => s.noteEcc a 2 (2048 * u + x.1) x.2) s).sites = s.sites :=
  foldl_keep State.sites _ (fun s _ => sites_noteEcc s a _ _ _) l s

theorem regs_notedErrors (u : Nat) (l : List (Nat × BitVec 8)) :
    SameRegs s (l.foldl (fun s x => s.noteEcc a 2 (2048 * u + x.1) x.2) s) (slotRegs a) :=
  foldl_inv (SameRegs s · (slotRegs a)) _ (fun v _ h => h.trans (regs_noteEcc v a _ _ _)) l s (.refl _ _)

theorem tiles_readSlot (u lo n : Nat) : ((s.readSlot a u lo n).mtx a).tiles = (s.mtx a).tiles := by
  unfold State.readSlot
  split
  · next y _ =>
    split
    · rfl
    · have h := mtx_congr (sites_notedErrors s a u (y.errors lo n)) a
      rw [State.mtx_modMtx_same]
      exact (congrArg MtxX.tiles h :)
  · rfl

theorem regs_readSlot (u lo n : Nat) : SameRegs s (s.readSlot a u lo n) (slotRegs a) := by
  unfold State.readSlot
  split
  · split
    · exact .refl _ _
    · exact (regs_notedErrors s a u _).trans (.of_eq rfl)
  · exact .refl _ _

/-- A slot without latent errors is only read. -/
theorem readSlot_clean {u : Nat} (lo n : Nat) (h : ((s.mtx a).physAt u).all (fun z => z.synd.isEmpty) = true) : s.readSlot a u lo n = s := by
  unfold State.readSlot
  split
  · next y hy =>
    rw [hy] at h
    exact if_pos (by simpa using h)
  · rfl

@[simp] theorem sites_commitTags (x : Tile) : (s.commitTags a x).sites = s.sites := by simp [State.commitTags]

theorem regs_commitTags (x : Tile) : SameRegs s (s.commitTags a x) (slotRegs a) :=
  (SameRegs.trans (regs_raiseMor _ _ _ _ _ _) (regs_raiseBadTag _ _ _)).mono fun _ _ _ => .inl

end

/-! ### Commit -/

/-- An undisturbed commit's words, and what the Cairn takes of it (R102). -/
theorem commitOnto_none (x : Tile) (old : List (BitVec 128)) : (x.commitOnto Upset.none old).new = x.commitWords x.delta old ∧
    (x.commitOnto Upset.none old).chk.rhoC = commitRho x.mode x.anchor old x.delta (x.commitOnto Upset.none old).new := by
  simp [Tile.commitOnto, applyCells, Upset.none]

/-- The oldest tile, agreed, is committed once the release before it is over (R87). -/
theorem execTileCommit_commits {s : State} {p : At} {u : Upset} {x : Tile} {l : List Tile} (he : s.engineOn p.site.toNat = true)
    (hr : s.reaches p.t.toNat = true) :
    let a := p.site.toNat
    let v := (s.at_ p.t.toNat).mtxSettle a
    let c := x.commitOnto u (wordsBefore (v.mtx a) x)
    let w := if x.first then v else v.readSlot a x.slot 0 4096
    (v.mtx a).tiles = x :: l → x.kind.pends = true → x.stage = .agreed → max (max (x.lastK + 48) (v.mtx a).relAct) x.freeAt < v.cycle →
    (v.mtx a).spanWaits x = false →
    execTileCommit p u s = .next ((w.setTile a 0 { c with stage := .committed, rel := w.cycle + 31 }).commitTags a c) := by
  intro a v c w hl hk hs ht hw
  rw [execTileCommit, atEngine_on _ he hr]
  change Host.Outcome.next (match (v.mtx a).tiles with
    | [] => v
    | x :: _ => if x.kind.pends && x.stage == TileStage.agreed && decide (max (max (x.lastK + 48) (v.mtx a).relAct) x.freeAt < v.cycle) &&
          !(v.mtx a).spanWaits x then
        let c := x.commitOnto u (wordsBefore (v.mtx a) x)
        let w := if c.first then v else v.readSlot a c.slot 0 4096
        (w.setTile a 0 { c with stage := .committed, rel := w.cycle + 31 }).commitTags a c
      else v) = _
  rw [hl]
  simp only [hk, hs, hw, ht]
  rfl

theorem commits {s : State} {p : At} {x : Tile} {l : List Tile} (he : s.engineOn p.site.toNat = true) (hr : s.reaches p.t.toNat = true) :
    let a := p.site.toNat
    let v := (s.at_ p.t.toNat).mtxSettle a
    (v.mtx a).tiles = x :: l → x.kind.pends = true → x.stage = .agreed → max (max (x.lastK + 48) (v.mtx a).relAct) x.freeAt < v.cycle →
    (v.mtx a).spanWaits x = false →
    Done (.tileCommit p Upset.none) s (fun t => ∃ y, (t.mtx a).tiles = y :: l ∧ y.stage = .committed ∧
        y.new = x.commitWords x.delta (wordsBefore (v.mtx a) x) ∧
        y.chk.rhoC = commitRho x.mode x.anchor (wordsBefore (v.mtx a) x) x.delta y.new ∧
        (x.first = true ∨ ((v.mtx a).physAt x.slot).all (fun z => z.synd.isEmpty) = true → (t.mtx a).phys = (v.mtx a).phys) ∧
        Frame v t (slotRegs a)) := by
  intro a v hl hk hs ht hw
  refine .next (execTileCommit_commits he hr hl hk hs ht hw) ?_
  obtain ⟨hnew, hrho⟩ := commitOnto_none x (wordsBefore (v.mtx a) x)
  generalize x.commitOnto Upset.none (wordsBefore (v.mtx a) x) = c at hnew hrho ⊢
  generalize hu : (if x.first then v else v.readSlot a x.slot 0 4096) = u
  have htiles : (u.mtx a).tiles = x :: l := by
    rw [← hu, ← hl]; split
    · rfl
    · exact tiles_readSlot ..
  have hregs : SameRegs v u (slotRegs a) := by
    rw [← hu]; split
    · exact .refl _ _
    · exact regs_readSlot _ _ _ _ _
  have hmems : mems u = mems v := by rw [← hu]; split <;> simp
  refine ⟨{ c with stage := .committed, rel := u.cycle + 31 }, ?_, rfl, ?_, ?_, fun h => ?_, .of_mems ?_, ?_⟩
  · rw [mtx_congr (sites_commitTags ..), tiles_setTile, htiles]; rfl
  · exact hnew
  · exact hrho
  · rw [mtx_congr (sites_commitTags ..), State.setTile, State.mtx_modMtx_same]
    have : u = v := by
      rw [← hu]; split
      · rfl
      · next hf => exact readSlot_clean v a _ _ (h.resolve_left hf)
    rw [this]
  · simp [State.setTile, hmems]
  · exact hregs.trans ((SameRegs.of_eq rfl).trans (regs_commitTags _ a c))

/-! ### Release -/

/-- The slot that an instruction leaves with FIRST, or a slot found before, stands under its name. -/
theorem physAt_putSlotP (m : MtxX) (x : Tile) (words : List (BitVec 128)) (poison : Bool) (synd : List (Nat × BitVec 8)) :
    (putSlotP m.phys (m.physAfter x words poison synd)).find? (fun y => y.start == x.slot) = some (m.physAfter x words poison synd) := by
  refine List.find?_cons_of_pos ?_
  unfold MtxX.physAfter
  split
  · next y hy =>
    have hy' : m.phys.find? (fun z => z.start == x.slot) = some y := by
      split at hy
      · cases hy
      · exact hy
    exact (List.find?_some hy' :)
  · exact beq_self_eq_true _

theorem words_physAfter (m : MtxX) (x : Tile) (words : List (BitVec 128)) (poison : Bool) (synd : List (Nat × BitVec 8)) :
    (m.physAfter x words poison synd).words = words := by unfold MtxX.physAfter; split <;> rfl

section
variable (s : State) (a : Nat) (x : Tile)

/-- What an instruction that leaves changes beyond the engine: credits of the next cycle. -/
theorem mtxCredits_keeps (l : List Nat) : (s.mtxCredits a l).sites = s.sites ∧ (s.mtxCredits a l).regs = s.regs ∧
    (s.mtxCredits a l).counters = s.counters := by
  unfold State.mtxCredits
  refine ⟨?_, ?_, ?_⟩
  · refine foldl_keep State.sites _ ?_ _ s; intros; rfl
  · refine foldl_keep State.regs _ ?_ _ s; intros; rfl
  · refine foldl_keep State.counters _ ?_ _ s; intros; rfl

theorem mtx_dropTile : (s.dropTile a x).mtx a = { s.mtx a with tiles := (s.mtx a).tiles.drop 1, relAct := s.cycle } := by
  unfold State.dropTile
  rw [mtx_congr (mtxCredits_keeps ..).1, State.mtx_modMtx_same]

theorem regs_dropTile : (s.dropTile a x).regs = s.regs := (mtxCredits_keeps ..).2.1
theorem counters_dropTile : (s.dropTile a x).counters = s.counters := (mtxCredits_keeps ..).2.2

end

/-- The state in which a released tile's words stand, before the tile is dropped. -/
def shown (s : State) (a : Nat) (x : Tile) : State :=
  let u := s.refResult a x
  let poison := x.poisonOut || tilePoison (u.mtx a) x
  u.modMtx a (fun m => { m with phys := putSlotP m.phys (m.physAfter x x.new poison) })

theorem releaseTile_mma (s : State) (a : Nat) (x : Tile) (hk : x.kind = .mma) : s.releaseTile a x =
    (if ((shown s a x).count C.MTX_CNT_TILES a).inRecomp a x.slot then ((shown s a x).count C.MTX_CNT_TILES a).count C.MTX_CNT_RECOMP a
      else (shown s a x).count C.MTX_CNT_TILES a).dropTile a x := by
  unfold State.releaseTile
  simp only [hk, if_true]
  rfl

theorem releases {s : State} {p : At} {x : Tile} {l : List Tile} (he : s.engineOn p.site.toNat = true) (hr : s.reaches p.t.toNat = true) :
    let a := p.site.toNat
    (s.mtx a).tiles = x :: l → x.kind = .mma → x.stage = .committed → x.rel ≤ (s.at_ p.t.toNat).cycle → x.judgeCommit = none →
      Done (.tileRelease p Upset.none) s (fun t => (t.mtx a).tiles = l ∧
        ((t.mtx a).physAt x.slot).map SlotP.words = some x.new ∧
        t.ctr C.MTX_CNT_TILES a = ((s.at_ p.t.toNat).ctr C.MTX_CNT_TILES a + 1) % 2 ^ 48 ∧
        Frame (s.at_ p.t.toNat) t noReg) := by
  intro a hl hk hs ht hj
  generalize hv : s.at_ p.t.toNat = v at ht ⊢
  have hm : v.mtx a = s.mtx a := hv ▸ at_mtx ..
  refine .next (t := v.releaseTile a x) ?_ ?_
  · change execTileRelease p Upset.none s = _
    rw [execTileRelease, atEngine_on _ he hr, hv]
    change Host.Outcome.next (match (v.mtx a).tiles with
      | [] => v
      | x :: _ => if (x.stage == TileStage.committed || x.stage == TileStage.recommitted) && decide (x.rel ≤ v.cycle) then commitCheck a x Upset.none v
        else v) = _
    rw [hm, hl]
    simp only [hs, ht, commitCheck, hj]
    rfl
  · rw [releaseTile_mma v a x hk]
    generalize hw : (if ((shown v a x).count C.MTX_CNT_TILES a).inRecomp a x.slot then ((shown v a x).count C.MTX_CNT_TILES a).count C.MTX_CNT_RECOMP a
      else (shown v a x).count C.MTX_CNT_TILES a) = w
    have hmtx : w.mtx a = (shown v a x).mtx a := by rw [← hw]; split <;> rfl
    have hregs : w.regs = v.regs := by rw [← hw]; split <;> rfl
    have hmems : mems w = mems v := by rw [← hw]; split <;> rfl
    have hctr : w.ctr C.MTX_CNT_TILES a = (v.ctr C.MTX_CNT_TILES a + 1) % 2 ^ 48 := by
      rw [← hw]
      split
      · exact (State.ctr_count_ne _ (c := C.MTX_CNT_RECOMP) (c' := C.MTX_CNT_TILES) _ (Ctr.site_ne a (by decide))).trans
          (State.ctr_count_same ..)
      · rw [State.ctr_count_same]; rfl
    rw [mtx_dropTile, hmtx]
    refine ⟨?_, ?_, ?_, .of_mems (by simp [hmems]), .of_eq (by rw [regs_dropTile, hregs])⟩
    · rw [shown, State.mtx_modMtx_same]
      change (v.mtx a).tiles.drop 1 = l
      rw [hm, hl]; rfl
    · rw [shown, State.mtx_modMtx_same]
      exact (congrArg (Option.map SlotP.words) (physAt_putSlotP ..)).trans (congrArg some (words_physAfter ..))
    · rw [State.ctr, counters_dropTile, ← State.ctr, hctr]

theorem tilesCommitAndRelease : TilesCommitAndRelease :=
  fun _ _ _ _ he hr => ⟨commits he hr, releases he hr⟩

/-! ### Saves, skips and frees -/

/-- The words of memory that hold word `i` of the image of a slot. -/
def imageAt (a : Nat) (x : Tile) (y : SlotP) (i : Nat) : List Nat :=
  wordsOf (padAddr a (64 * opdBase x.descA + 64 + i * imageWord y.mode)) (imageWord y.mode)

/-- The state after the read of the slot to save. -/
def slotRead (s : State) (a : Nat) (x : Tile) (y : SlotP) : State :=
  (s.readSlot a x.slot 0 4096).raiseBadTag a ((y.span 0 4096).any (fun w => badTag y.mode w.1))

/-- The image of a slot written (R82). -/
def imageSaved (s : State) (a : Nat) (x : Tile) (y : SlotP) : State :=
  (slotRead s a x y).putBytes (padAddr a (64 * opdBase x.descA))
    (imageBytes y.mode y.anchor y.count ((y.span 0 4096).map (fun w => readWord y.mode w.1)))

/-- The image of a slot written, with the poison of its words. -/
def saveSlot (s : State) (a : Nat) (x : Tile) (y : SlotP) : State :=
  ((y.span 0 4096).zip (List.range 4096)).foldl
    (fun s w => if w.1.2 then (imageAt a x y w.2).foldl (fun s k => s.setPois k true) s else s) (imageSaved s a x y)

section
variable (s : State) (a : Nat) (x : Tile) (y : SlotP)

/-- What the poison of words leaves as it was. -/
theorem setPoisIf_keeps {γ : Type} (f : State → γ) (h : ∀ s w b, f (State.setPois s w b) = f s) (at_ : Nat → List Nat)
    (l : List ((BitVec 128 × Bool) × Nat)) (u : State) :
    f (l.foldl (fun s w => if w.1.2 then (at_ w.2).foldl (fun s k => s.setPois k true) s else s) u) = f u :=
  foldl_keep f _ (fun s w => by
    split
    · exact foldl_keep f _ (fun s k => h s k true) _ s
    · rfl) l u

/-- What a write of bytes leaves as it was. -/
theorem putRaw_keeps {γ : Type} (f : State → γ) (k : ∀ s n b, f (State.putByte s n b) = f s) (u : State) (n : Nat) (bs : List Byte) :
    f (u.putRaw n bs) = f u := by
  induction bs generalizing u n with
  | nil => rfl
  | cons b bs ih => exact (ih _ _).trans (k u n b)

/-- What a write of bytes and their words' poison leave as it was. -/
theorem putBytes_keeps {γ : Type} (f : State → γ) (h : ∀ s w b, f (State.setPois s w b) = f s) (k : ∀ s n b, f (State.putByte s n b) = f s)
    (u : State) (n : Nat) (bs : List Byte) : f (u.putBytes n bs) = f u := by
  unfold State.putBytes
  exact (foldl_keep f _ (fun s w => h s w _) _ _).trans (putRaw_keeps f k u n bs)

/-- The image changes neither the engine nor the registers beyond those of the read. -/
theorem saveSlot_keeps {γ : Type} (f : State → γ) (h : ∀ s w b, f (State.setPois s w b) = f s) (k : ∀ s n b, f (State.putByte s n b) = f s) :
    f (saveSlot s a x y) = f (slotRead s a x y) :=
  (setPoisIf_keeps f h _ _ _).trans (putBytes_keeps f h k _ _ _)

theorem tiles_saveSlot : ((saveSlot s a x y).mtx a).tiles = (s.mtx a).tiles := by
  rw [mtx_congr (saveSlot_keeps s a x y State.sites (fun _ _ _ => rfl) fun _ _ _ => rfl), slotRead,
    mtx_congr (sites_raiseBadTag ..), tiles_readSlot]

theorem regs_saveSlot : SameRegs s (saveSlot s a x y) (slotRegs a) :=
  (regs_readSlot s a x.slot 0 4096).trans (((regs_raiseBadTag _ a _).mono fun _ _ _ => .inl).trans
    (.of_eq (saveSlot_keeps s a x y State.regs (fun _ _ _ => rfl) fun _ _ _ => rfl)))

theorem mems_slotRead : mems (slotRead s a x y) = mems s := by simp [slotRead]

theorem byte_saveSlot (z : Nat) : (saveSlot s a x y).byte z = (imageSaved s a x y).byte z :=
  setPoisIf_keeps (fun s => s.byte z) (fun s w b => s.byte_setPois w b z) _ _ _

end

theorem execMsaveSlotRead_saves {s : State} {p : At} {x : Tile} {l : List Tile} {y : SlotP} (he : s.engineOn p.site.toNat = true)
    (hr : s.reaches p.t.toNat = true) :
    let a := p.site.toNat
    let v := (s.at_ p.t.toNat).mtxSettle a
    (v.mtx a).tiles = x :: l → x.kind = .msave → max (x.lastK + 16) ((v.mtx a).relAct + 1) + x.run - 1 ≤ v.cycle →
    (v.mtx a).physAt x.slot = some y → execMsaveSlotRead p s = .next ((saveSlot v a x y).dropTile a x) := by
  intro a v hl hk ht hy
  rw [execMsaveSlotRead, atEngine_on _ he hr]
  change Host.Outcome.next (match (v.mtx a).tiles with
    | [] => v
    | x :: _ => if x.kind == TileKind.msave && decide (max (x.lastK + 16) ((v.mtx a).relAct + 1) + x.run - 1 ≤ v.cycle) then
        match (v.mtx a).physAt x.slot with
        | none => v.dropTile a x
        | some y => (saveSlot v a x y).dropTile a x
      else v) = _
  rw [hl]
  simp only [hk, ht, hy]
  rfl

theorem byte_congr {s t : State} (h : mems t = mems s) (z : Nat) : t.byte z = s.byte z := ((SameMem.of_mems h) z).1

theorem saves {s : State} {p : At} {x : Tile} {l : List Tile} (he : s.engineOn p.site.toNat = true) (hr : s.reaches p.t.toNat = true) :
    let a := p.site.toNat
    let v := (s.at_ p.t.toNat).mtxSettle a
    ∀ y, (v.mtx a).tiles = x :: l → x.kind = .msave → max (x.lastK + 16) ((v.mtx a).relAct + 1) + x.run - 1 ≤ v.cycle →
      (v.mtx a).physAt x.slot = some y → mcanon 0 s.mem = true →
      Done (.msaveSlotRead p) s (fun t => (t.mtx a).tiles = l ∧
        (let bs := imageBytes y.mode y.anchor y.count ((y.span 0 4096).map (fun w => readWord y.mode w.1))
         let at0 := padAddr a (64 * opdBase x.descA)
         (∀ i (h : i < bs.length), t.byte (at0 + i) = bs[i]) ∧
         (∀ z, z < at0 ∨ at0 + bs.length ≤ z → t.byte z = s.byte z)) ∧ SameRegs v t (slotRegs a)) := by
  intro a v y hl hk ht hy hc
  refine .next (execMsaveSlotRead_saves he hr hl hk ht hy) ?_
  have hv : mems v = mems s := by simp [v]
  have hb := (mems_slotRead v a x y).trans hv
  have hbytes : ∀ z, ((saveSlot v a x y).dropTile a x).byte z = (imageSaved v a x y).byte z := fun z => by
    rw [byte_congr (mems_dropTile ..), byte_saveSlot]
  have hcw : mcanon 0 (slotRead v a x y).mem = true := by
    have e : (slotRead v a x y).mem = s.mem := congrArg Prod.fst hb
    rw [e]; exact hc
  refine ⟨?_, ⟨fun i hi => ?_, fun z hz => ?_⟩, (regs_saveSlot v a x y).trans (.of_eq (regs_dropTile ..))⟩
  · rw [mtx_dropTile]
    change ((saveSlot v a x y).mtx a).tiles.drop 1 = l
    rw [tiles_saveSlot, hl]; rfl
  · rw [hbytes, imageSaved, State.byte_putBytes_in _ _ _ _ i hi hcw]
  · rw [hbytes, imageSaved, State.byte_putBytes_out _ _ _ _ z hz, byte_congr hb]

theorem skips {s : State} {p : At} {x : Tile} {l : List Tile} (he : s.engineOn p.site.toNat = true) (hr : s.reaches p.t.toNat = true) :
    let a := p.site.toNat
    let v := (s.at_ p.t.toNat).mtxSettle a
    (v.mtx a).tiles = x :: l → x.kind = .skip → max (max x.lastK (v.mtx a).relAct) x.freeAt + 1 ≤ v.cycle →
      x.first = true → (v.mtx a).spanWaits x = false →
      Done (.skippedMmaRelease p) s (fun t => (t.mtx a).tiles = l ∧
        ((t.mtx a).physAt x.slot).map SlotP.words = some zeroWords ∧ Frame v t noReg) := by
  intro a v hl hk ht hf hw
  let u := v.modMtx a (fun m => { m with phys := putSlotP m.phys (m.physAfter x zeroWords false []) })
  refine .next (t := (if u.inRecomp a x.slot then u.count C.MTX_CNT_RECOMP a else u).dropTile a x) ?_ ?_
  · change execSkippedMmaRelease p s = _
    rw [execSkippedMmaRelease, atEngine_on _ he hr]
    change Host.Outcome.next (match (v.mtx a).tiles with
      | [] => v
      | x :: _ => if x.kind == TileKind.skip && decide (max (max x.lastK (v.mtx a).relAct) x.freeAt + 1 ≤ v.cycle) && !(v.mtx a).spanWaits x then
          let old := if x.first then none else (v.mtx a).physAt x.slot
          let poison := (old.map SlotP.poison).getD false
          let synd := (old.map SlotP.synd).getD []
          let s := v.modMtx a (fun m => { m with phys := putSlotP m.phys (m.physAfter x ((old.map SlotP.words).getD zeroWords) poison synd) })
          let s := if s.inRecomp a x.slot then s.count C.MTX_CNT_RECOMP a else s
          s.dropTile a x
        else v) = _
    rw [hl]
    simp only [hk, ht, hf, hw]
    rfl
  · generalize hu : (if u.inRecomp a x.slot then u.count C.MTX_CNT_RECOMP a else u) = w
    have hmtx : w.mtx a = u.mtx a := by rw [← hu]; split <;> rfl
    have hregs : w.regs = v.regs := by rw [← hu]; split <;> rfl
    have hmems : mems w = mems v := by rw [← hu]; split <;> rfl
    rw [mtx_dropTile, hmtx, State.mtx_modMtx_same]
    refine ⟨?_, ?_, .of_mems (by simp [hmems]), .of_eq (by rw [regs_dropTile, hregs])⟩
    · change (v.mtx a).tiles.drop 1 = l
      rw [hl]; rfl
    · exact (congrArg (Option.map SlotP.words) (physAt_putSlotP ..)).trans (congrArg some (words_physAfter ..))

theorem frees {s : State} {p : At} (he : s.engineOn p.site.toNat = true) (hr : s.reaches p.t.toNat = true) :
    let a := p.site.toNat
    let v := (s.at_ p.t.toNat).mtxSettle a
    ∀ f ∈ (v.mtx a).frees, f.2 ≤ v.cycle → (v.mtx a).mfreeIn f.1 = false →
      Done (.physicalFree p) s (fun t => f.1 ∉ (t.mtx a).frees.map Prod.fst ∧ (t.mtx a).physAt f.1 = none ∧ Frame v t noReg) := by
  intro a v f hf ht hm
  let due (m : MtxX) : List Nat := (m.frees.filter (fun f => decide (f.2 ≤ v.cycle) && !m.mfreeIn f.1)).map Prod.fst
  refine .next (t := v.modMtx a (fun m => { m with frees := m.frees.filter (fun f => !(due m).contains f.1)
                                                   phys := m.phys.filter (fun y => !(due m).contains y.start) })) ?_ ?_
  · change execPhysicalFree p s = _
    rw [execPhysicalFree, atEngine_on _ he hr]
  · have hd : f.1 ∈ due (v.mtx a) := List.mem_map_of_mem (List.mem_filter.mpr ⟨hf, by simp [ht, hm]⟩)
    rw [State.mtx_modMtx_same]
    refine ⟨?_, ?_, .of_eq rfl rfl rfl⟩
    · simp only [List.mem_map, List.mem_filter, not_exists, not_and]
      rintro g ⟨-, hg⟩ e
      rw [e] at hg
      simp [hd] at hg
    · unfold MtxX.physAt
      simp only [List.find?_eq_none, List.mem_filter, beq_iff_eq]
      rintro y ⟨-, hy⟩ e
      rw [e] at hy
      simp [hd] at hy

theorem savesSkipsAndFrees : SavesSkipsAndFrees :=
  fun _ _ _ _ he hr => ⟨saves he hr, skips he hr, frees he hr⟩

/-- Settles O13: each leaving of the engine through what it writes of the slot and what it drops. -/
theorem tilesAreReleased : Obligations.TilesAreReleased := ⟨tilesCommitAndRelease, savesSkipsAndFrees⟩

end Sys2Proof.Proofs
end

section
/-! SUPPORT. The parts of a site: what one part reads as after another was changed, or the same part under another name. -/

namespace Sys2Proof.Machine

/-- A part of a site that an update of the site leaves reads as before. -/
theorem part_modSite {γ : Type} (g : Site → γ) (s : State) (a b : Nat) {f : Site → Site} (h : ∀ x, g (f x) = g x) :
    g ((s.modSite a f).site b) = g (s.site b) := by
  by_cases e : b = a
  · subst e; rw [State.site_modSite_same, h]
  · rw [State.site_modSite_ne _ _ e]

section
variable (s : State) (a b : Nat)
@[simp] theorem State.seq_modMtx (f : MtxX → MtxX) : (s.modMtx a f).seq b = s.seq b :=
  part_modSite Site.seq s a b fun _ => rfl
@[simp] theorem State.seq_modVec (f : VecX → VecX) : (s.modVec a f).seq b = s.seq b :=
  part_modSite Site.seq s a b fun _ => rfl
@[simp] theorem State.seq_modSync (f : SyncX → SyncX) : (s.modSync a f).seq b = s.seq b :=
  part_modSite Site.seq s a b fun _ => rfl
@[simp] theorem State.seq_modQueue (n : Nat) (f : QueueX → QueueX) : (s.modQueue a n f).seq b = s.seq b :=
  part_modSite Site.seq s a b fun _ => rfl
@[simp] theorem State.seq_modStr (n : Nat) (f : StrX → StrX) : (s.modStr a n f).seq b = s.seq b :=
  part_modSite Site.seq s a b fun _ => rfl
@[simp] theorem State.seq_modSteer (n : Nat) (f : SteerX → SteerX) : (s.modSteer a n f).seq b = s.seq b :=
  part_modSite Site.seq s a b fun _ => rfl
@[simp] theorem State.seq_modLink (n : Nat) (f : LinkX → LinkX) : (s.modLink a n f).seq b = s.seq b :=
  part_modSite Site.seq s a b fun _ => rfl
@[simp] theorem State.mtx_modSeq (f : SeqX → SeqX) : (s.modSeq a f).mtx b = s.mtx b :=
  part_modSite Site.mtx s a b fun _ => rfl
@[simp] theorem State.mtx_modVec (f : VecX → VecX) : (s.modVec a f).mtx b = s.mtx b :=
  part_modSite Site.mtx s a b fun _ => rfl
@[simp] theorem State.mtx_modSync (f : SyncX → SyncX) : (s.modSync a f).mtx b = s.mtx b :=
  part_modSite Site.mtx s a b fun _ => rfl
@[simp] theorem State.mtx_modQueue (n : Nat) (f : QueueX → QueueX) : (s.modQueue a n f).mtx b = s.mtx b :=
  part_modSite Site.mtx s a b fun _ => rfl
@[simp] theorem State.mtx_modStr (n : Nat) (f : StrX → StrX) : (s.modStr a n f).mtx b = s.mtx b :=
  part_modSite Site.mtx s a b fun _ => rfl
@[simp] theorem State.mtx_modSteer (n : Nat) (f : SteerX → SteerX) : (s.modSteer a n f).mtx b = s.mtx b :=
  part_modSite Site.mtx s a b fun _ => rfl
@[simp] theorem State.mtx_modLink (n : Nat) (f : LinkX → LinkX) : (s.modLink a n f).mtx b = s.mtx b :=
  part_modSite Site.mtx s a b fun _ => rfl
@[simp] theorem State.vec_modSeq (f : SeqX → SeqX) : (s.modSeq a f).vec b = s.vec b :=
  part_modSite Site.vec s a b fun _ => rfl
@[simp] theorem State.vec_modMtx (f : MtxX → MtxX) : (s.modMtx a f).vec b = s.vec b :=
  part_modSite Site.vec s a b fun _ => rfl
@[simp] theorem State.vec_modSync (f : SyncX → SyncX) : (s.modSync a f).vec b = s.vec b :=
  part_modSite Site.vec s a b fun _ => rfl
@[simp] theorem State.vec_modQueue (n : Nat) (f : QueueX → QueueX) : (s.modQueue a n f).vec b = s.vec b :=
  part_modSite Site.vec s a b fun _ => rfl
@[simp] theorem State.vec_modStr (n : Nat) (f : StrX → StrX) : (s.modStr a n f).vec b = s.vec b :=
  part_modSite Site.vec s a b fun _ => rfl
@[simp] theorem State.vec_modSteer (n : Nat) (f : SteerX → SteerX) : (s.modSteer a n f).vec b = s.vec b :=
  part_modSite Site.vec s a b fun _ => rfl
@[simp] theorem State.vec_modLink (n : Nat) (f : LinkX → LinkX) : (s.modLink a n f).vec b = s.vec b :=
  part_modSite Site.vec s a b fun _ => rfl
@[simp] theorem State.sync_modSeq (f : SeqX → SeqX) : (s.modSeq a f).sync b = s.sync b :=
  part_modSite Site.sync s a b fun _ => rfl
@[simp] theorem State.sync_modMtx (f : MtxX → MtxX) : (s.modMtx a f).sync b = s.sync b :=
  part_modSite Site.sync s a b fun _ => rfl
@[simp] theorem State.sync_modVec (f : VecX → VecX) : (s.modVec a f).sync b = s.sync b :=
  part_modSite Site.sync s a b fun _ => rfl
@[simp] theorem State.sync_modQueue (n : Nat) (f : QueueX → QueueX) : (s.modQueue a n f).sync b = s.sync b :=
  part_modSite Site.sync s a b fun _ => rfl
@[simp] theorem State.sync_modStr (n : Nat) (f : StrX → StrX) : (s.modStr a n f).sync b = s.sync b :=
  part_modSite Site.sync s a b fun _ => rfl
@[simp] theorem State.sync_modSteer (n : Nat) (f : SteerX → SteerX) : (s.modSteer a n f).sync b = s.sync b :=
  part_modSite Site.sync s a b fun _ => rfl
@[simp] theorem State.sync_modLink (n : Nat) (f : LinkX → LinkX) : (s.modLink a n f).sync b = s.sync b :=
  part_modSite Site.sync s a b fun _ => rfl
@[simp] theorem State.queue_modSeq (m : Nat) (f : SeqX → SeqX) : (s.modSeq a f).queue b m = s.queue b m :=
  part_modSite (fun x => (aget x.queues m).getD QueueX.reset) s a b fun _ => rfl
@[simp] theorem State.queue_modMtx (m : Nat) (f : MtxX → MtxX) : (s.modMtx a f).queue b m = s.queue b m :=
  part_modSite (fun x => (aget x.queues m).getD QueueX.reset) s a b fun _ => rfl
@[simp] theorem State.queue_modVec (m : Nat) (f : VecX → VecX) : (s.modVec a f).queue b m = s.queue b m :=
  part_modSite (fun x => (aget x.queues m).getD QueueX.reset) s a b fun _ => rfl
@[simp] theorem State.queue_modSync (m : Nat) (f : SyncX → SyncX) : (s.modSync a f).queue b m = s.queue b m :=
  part_modSite (fun x => (aget x.queues m).getD QueueX.reset) s a b fun _ => rfl
@[simp] theorem State.queue_modStr (n : Nat) (m : Nat) (f : StrX → StrX) : (s.modStr a n f).queue b m = s.queue b m :=
  part_modSite (fun x => (aget x.queues m).getD QueueX.reset) s a b fun _ => rfl
@[simp] theorem State.queue_modSteer (n : Nat) (m : Nat) (f : SteerX → SteerX) : (s.modSteer a n f).queue b m = s.queue b m :=
  part_modSite (fun x => (aget x.queues m).getD QueueX.reset) s a b fun _ => rfl
@[simp] theorem State.queue_modLink (n : Nat) (m : Nat) (f : LinkX → LinkX) : (s.modLink a n f).queue b m = s.queue b m :=
  part_modSite (fun x => (aget x.queues m).getD QueueX.reset) s a b fun _ => rfl
@[simp] theorem State.str_modSeq (m : Nat) (f : SeqX → SeqX) : (s.modSeq a f).str b m = s.str b m :=
  part_modSite (fun x => (aget x.strs m).getD StrX.reset) s a b fun _ => rfl
@[simp] theorem State.str_modMtx (m : Nat) (f : MtxX → MtxX) : (s.modMtx a f).str b m = s.str b m :=
  part_modSite (fun x => (aget x.strs m).getD StrX.reset) s a b fun _ => rfl
@[simp] theorem State.str_modVec (m : Nat) (f : VecX → VecX) : (s.modVec a f).str b m = s.str b m :=
  part_modSite (fun x => (aget x.strs m).getD StrX.reset) s a b fun _ => rfl
@[simp] theorem State.str_modSync (m : Nat) (f : SyncX → SyncX) : (s.modSync a f).str b m = s.str b m :=
  part_modSite (fun x => (aget x.strs m).getD StrX.reset) s a b fun _ => rfl
@[simp] theorem State.str_modQueue (n : Nat) (m : Nat) (f : QueueX → QueueX) : (s.modQueue a n f).str b m = s.str b m :=
  part_modSite (fun x => (aget x.strs m).getD StrX.reset) s a b fun _ => rfl
@[simp] theorem State.str_modSteer (n : Nat) (m : Nat) (f : SteerX → SteerX) : (s.modSteer a n f).str b m = s.str b m :=
  part_modSite (fun x => (aget x.strs m).getD StrX.reset) s a b fun _ => rfl
@[simp] theorem State.str_modLink (n : Nat) (m : Nat) (f : LinkX → LinkX) : (s.modLink a n f).str b m = s.str b m :=
  part_modSite (fun x => (aget x.strs m).getD StrX.reset) s a b fun _ => rfl
@[simp] theorem State.steer_modSeq (m : Nat) (f : SeqX → SeqX) : (s.modSeq a f).steer b m = s.steer b m :=
  part_modSite (fun x => (aget x.steers m).getD SteerX.reset) s a b fun _ => rfl
@[simp] theorem State.steer_modMtx (m : Nat) (f : MtxX → MtxX) : (s.modMtx a f).steer b m = s.steer b m :=
  part_modSite (fun x => (aget x.steers m).getD SteerX.reset) s a b fun _ => rfl
@[simp] theorem State.steer_modVec (m : Nat) (f : VecX → VecX) : (s.modVec a f).steer b m = s.steer b m :=
  part_modSite (fun x => (aget x.steers m).getD SteerX.reset) s a b fun _ => rfl
@[simp] theorem State.steer_modSync (m : Nat) (f : SyncX → SyncX) : (s.modSync a f).steer b m = s.steer b m :=
  part_modSite (fun x => (aget x.steers m).getD SteerX.reset) s a b fun _ => rfl
@[simp] theorem State.steer_modQueue (n : Nat) (m : Nat) (f : QueueX → QueueX) : (s.modQueue a n f).steer b m = s.steer b m :=
  part_modSite (fun x => (aget x.steers m).getD SteerX.reset) s a b fun _ => rfl
@[simp] theorem State.steer_modStr (n : Nat) (m : Nat) (f : StrX → StrX) : (s.modStr a n f).steer b m = s.steer b m :=
  part_modSite (fun x => (aget x.steers m).getD SteerX.reset) s a b fun _ => rfl
@[simp] theorem State.steer_modLink (n : Nat) (m : Nat) (f : LinkX → LinkX) : (s.modLink a n f).steer b m = s.steer b m :=
  part_modSite (fun x => (aget x.steers m).getD SteerX.reset) s a b fun _ => rfl
@[simp] theorem State.link_modSeq (m : Nat) (f : SeqX → SeqX) : (s.modSeq a f).link b m = s.link b m :=
  part_modSite (fun x => (aget x.links m).getD LinkX.reset) s a b fun _ => rfl
@[simp] theorem State.link_modMtx (m : Nat) (f : MtxX → MtxX) : (s.modMtx a f).link b m = s.link b m :=
  part_modSite (fun x => (aget x.links m).getD LinkX.reset) s a b fun _ => rfl
@[simp] theorem State.link_modVec (m : Nat) (f : VecX → VecX) : (s.modVec a f).link b m = s.link b m :=
  part_modSite (fun x => (aget x.links m).getD LinkX.reset) s a b fun _ => rfl
@[simp] theorem State.link_modSync (m : Nat) (f : SyncX → SyncX) : (s.modSync a f).link b m = s.link b m :=
  part_modSite (fun x => (aget x.links m).getD LinkX.reset) s a b fun _ => rfl
@[simp] theorem State.link_modQueue (n : Nat) (m : Nat) (f : QueueX → QueueX) : (s.modQueue a n f).link b m = s.link b m :=
  part_modSite (fun x => (aget x.links m).getD LinkX.reset) s a b fun _ => rfl
@[simp] theorem State.link_modStr (n : Nat) (m : Nat) (f : StrX → StrX) : (s.modStr a n f).link b m = s.link b m :=
  part_modSite (fun x => (aget x.links m).getD LinkX.reset) s a b fun _ => rfl
@[simp] theorem State.link_modSteer (n : Nat) (m : Nat) (f : SteerX → SteerX) : (s.modSteer a n f).link b m = s.link b m :=
  part_modSite (fun x => (aget x.links m).getD LinkX.reset) s a b fun _ => rfl
end

/-! ### The same part under another name -/

theorem State.seq_modSeq_ne (s : State) {a b : Nat} (f : SeqX → SeqX) (h : b ≠ a) : (s.modSeq a f).seq b = s.seq b :=
  congrArg Site.seq (s.site_modSite_ne _ h)

theorem State.mtx_modMtx_ne (s : State) {a b : Nat} (f : MtxX → MtxX) (h : b ≠ a) : (s.modMtx a f).mtx b = s.mtx b :=
  congrArg Site.mtx (s.site_modSite_ne _ h)

theorem State.vec_modVec_ne (s : State) {a b : Nat} (f : VecX → VecX) (h : b ≠ a) : (s.modVec a f).vec b = s.vec b :=
  congrArg Site.vec (s.site_modSite_ne _ h)

theorem State.sync_modSync_ne (s : State) {a b : Nat} (f : SyncX → SyncX) (h : b ≠ a) : (s.modSync a f).sync b = s.sync b :=
  congrArg Site.sync (s.site_modSite_ne _ h)

theorem State.queue_modQueue_ne (s : State) {a b n m : Nat} (f : QueueX → QueueX) (h : b ≠ a ∨ m ≠ n) :
    (s.modQueue a n f).queue b m = s.queue b m := by
  unfold State.queue State.modQueue
  by_cases e : b = a
  · subst e; rw [State.site_modSite_same, aget_aput_ne _ _ (h.resolve_left (absurd rfl))]
  · rw [State.site_modSite_ne _ _ e]

theorem State.str_modStr_ne (s : State) {a b n m : Nat} (f : StrX → StrX) (h : b ≠ a ∨ m ≠ n) :
    (s.modStr a n f).str b m = s.str b m := by
  unfold State.str State.modStr
  by_cases e : b = a
  · subst e; rw [State.site_modSite_same, aget_aput_ne _ _ (h.resolve_left (absurd rfl))]
  · rw [State.site_modSite_ne _ _ e]

theorem State.steer_modSteer_ne (s : State) {a b n m : Nat} (f : SteerX → SteerX) (h : b ≠ a ∨ m ≠ n) :
    (s.modSteer a n f).steer b m = s.steer b m := by
  unfold State.steer State.modSteer
  by_cases e : b = a
  · subst e; rw [State.site_modSite_same, aget_aput_ne _ _ (h.resolve_left (absurd rfl))]
  · rw [State.site_modSite_ne _ _ e]

theorem State.link_modLink_ne (s : State) {a b n m : Nat} (f : LinkX → LinkX) (h : b ≠ a ∨ m ≠ n) :
    (s.modLink a n f).link b m = s.link b m := by
  unfold State.link State.modLink
  by_cases e : b = a
  · subst e; rw [State.site_modSite_same, aget_aput_ne _ _ (h.resolve_left (absurd rfl))]
  · rw [State.site_modSite_ne _ _ e]

/-! ### Updates beyond the sites -/

theorem State.seq_congr {s t : State} (h : t.sites = s.sites) (b : Nat) : t.seq b = s.seq b := by
  unfold State.seq; rw [State.site_congr h]
theorem State.mtx_congr {s t : State} (h : t.sites = s.sites) (b : Nat) : t.mtx b = s.mtx b := by
  unfold State.mtx; rw [State.site_congr h]
theorem State.vec_congr {s t : State} (h : t.sites = s.sites) (b : Nat) : t.vec b = s.vec b := by
  unfold State.vec; rw [State.site_congr h]
theorem State.sync_congr {s t : State} (h : t.sites = s.sites) (b : Nat) : t.sync b = s.sync b := by
  unfold State.sync; rw [State.site_congr h]
theorem State.queue_congr {s t : State} (h : t.sites = s.sites) (b m : Nat) : t.queue b m = s.queue b m := by
  unfold State.queue; rw [State.site_congr h]
theorem State.str_congr {s t : State} (h : t.sites = s.sites) (b m : Nat) : t.str b m = s.str b m := by
  unfold State.str; rw [State.site_congr h]
theorem State.steer_congr {s t : State} (h : t.sites = s.sites) (b m : Nat) : t.steer b m = s.steer b m := by
  unfold State.steer; rw [State.site_congr h]
theorem State.link_congr {s t : State} (h : t.sites = s.sites) (b m : Nat) : t.link b m = s.link b m := by
  unfold State.link; rw [State.site_congr h]

end Sys2Proof.Machine
end

section
/-! PROOF. Queues popped and pushed, and what steering units take in and move on (chapter 05). -/

namespace Sys2Proof.Proofs

open Sys2Proof Sys2Proof.Machine

/-! ### Decode events of a span -/

/-- The register of decode events of a site. -/
def eccRegs (a : Nat) : RegName → Nat → Nat → Prop := oneReg .CHK_ECC_LOG a 0

theorem ecc_noteEcc (s : State) (a m w : Nat) (sy : Byte) : SameRegs s (s.noteEcc a m w sy) (eccRegs a) := by
  unfold State.noteEcc
  split
  · exact .refl _ _
  · exact .note (.of_eq rfl) _ ⟨rfl, rfl, rfl⟩

theorem ecc_noteSpan (s : State) (a m base n y : Nat) : SameRegs s (s.noteSpan a m base n y) (eccRegs a) := by
  unfold State.noteSpan
  split
  · exact .refl _ _
  · exact foldl_inv (SameRegs s · (eccRegs a)) _ (fun v _ h => h.trans (ecc_noteEcc v a _ _ _)) _ s (.refl _ _)

@[simp] theorem sites_noteSpan (s : State) (a m base n y : Nat) : (s.noteSpan a m base n y).sites = s.sites := by
  unfold State.noteSpan
  split
  · rfl
  · exact foldl_keep State.sites _ (fun s _ => sites_noteEcc s a _ _ _) _ s

/-! ### Pops -/

section
variable (s : State) (a q : Nat)

@[simp] theorem regs_oweCredit : (s.oweCredit a q).regs = s.regs := by
  unfold State.oweCredit; dsimp only; split <;> [split; skip] <;> rfl

theorem items_oweCredit : ((s.oweCredit a q).queue a q).items = (s.queue a q).items := by
  unfold State.oweCredit
  dsimp only
  split
  · split
    · rw [State.queue_modSync]
    · rw [State.queue_modQueue_same]
  · rfl

theorem steer_oweCredit (b n : Nat) : (s.oweCredit a q).steer b n = s.steer b n := by
  unfold State.oweCredit
  dsimp only
  split
  · split
    · exact State.steer_modSync ..
    · exact State.steer_modQueue ..
  · rfl

/-- The head entry leaves, as a decode delivers it; its word's errors are noted (R211, R342). -/
theorem qPop_head {e : Entry} {l : List Entry} (h : s.qHeads a q = e :: l) :
    (s.qPop a q).1 = some e.decode ∧ ((s.qPop a q).2.queue a q).items = (s.queue a q).items.drop 1 ∧
    (∀ b n, (s.qPop a q).2.steer b n = s.steer b n) ∧ SameRegs s (s.qPop a q).2 (eccRegs a) := by
  unfold State.qPop
  rw [h]
  refine ⟨rfl, ?_, fun b n => ?_, (ecc_noteSpan s a 4 _ 8 _).trans (.of_eq (regs_oweCredit _ a q))⟩
  · rw [items_oweCredit, State.queue_modQueue_same, State.queue_congr (sites_noteSpan ..)]
  · rw [steer_oweCredit, State.steer_modQueue, State.steer_congr (sites_noteSpan ..)]

end

/-! ### Pushes -/

section
variable (s : State) (a q : Nat)

/-- The opening of a connection touches the queue's state register alone. -/
theorem openDyn_keeps : SameRegs s (s.openDyn a q) (oneReg .QUE_STAT a q) ∧ ((s.openDyn a q).queue a q).items = (s.queue a q).items ∧
    (∀ b n, (s.openDyn a q).steer b n = s.steer b n) ∧ (s.openDyn a q).counters = s.counters := by
  unfold State.openDyn
  split
  · dsimp only
    refine ⟨?_, ?_, fun b n => ?_, rfl⟩
    · exact (SameRegs.wr (.wr (.refl _ _) _ ⟨rfl, rfl, rfl⟩) _ ⟨rfl, rfl, rfl⟩).trans (.of_eq rfl)
    · rw [State.connOut, State.queue_modSync, State.queue_modQueue_same]
      rfl
    · rw [State.connOut, State.steer_modSync, State.steer_modQueue]
      rfl
  · exact ⟨.refl _ _, rfl, fun _ _ => rfl, rfl⟩

theorem qPush_keeps (e : Entry) : SameRegs s (s.qPush a q e) (oneReg .QUE_STAT a q) ∧
    ((s.qPush a q e).queue a q).items = List.append (s.queue a q).items [.entry e s.cycles] ∧
    (∀ b n, (s.qPush a q e).steer b n = s.steer b n) ∧ (s.qPush a q e).counters = s.counters := by
  obtain ⟨h1, h2, h3, h4⟩ := openDyn_keeps (s.modQueue a q fun x => { x with
    items := List.append x.items [.entry e s.cycles], allocd := x.allocd + 1, touched := x.touched || true }) a q
  refine ⟨?_, ?_, ?_, ?_⟩
  · exact (SameRegs.of_eq rfl).trans h1
  · refine h2.trans ?_
    rw [State.queue_modQueue_same]
  · exact fun b n => (h3 b n).trans (State.steer_modQueue ..)
  · exact h4

theorem steerPush_keeps (n : Nat) (e : Entry) (first : Bool) (len : Nat) : SameRegs s (s.steerPush a n q e first len) (oneReg .QUE_STAT a q) ∧
    ((s.steerPush a n q e first len).queue a q).items = List.append (s.queue a q).items [.entry e s.cycles] ∧
    (∀ b m, (s.steerPush a n q e first len).steer b m = s.steer b m) ∧ (s.steerPush a n q e first len).counters = s.counters := by
  obtain ⟨h1, h2, h3, h4⟩ := qPush_keeps s a q e
  unfold State.steerPush
  generalize s.qPush a q e = u at h1 h2 h3 h4
  dsimp only
  split
  · refine ⟨h1.trans (.of_eq rfl), ?_, fun b m => ?_, h4⟩
    · rw [State.queue_modQueue_same, State.queue_modQueue_same, ← h2]
    · rw [State.steer_modQueue, State.steer_modQueue, h3]
  · refine ⟨h1.trans (.of_eq rfl), ?_, fun b m => ?_, h4⟩
    · rw [State.queue_modQueue_same, ← h2]
    · rw [State.steer_modQueue, h3]

/-- The head entry leaves the data FIFO, and the token with its last (R170). -/
theorem steerMoved_keeps (n left : Nat) : (s.steerMoved a n left).regs = s.regs ∧ (∀ b m, (s.steerMoved a n left).queue b m = s.queue b m) ∧
    ((s.steerMoved a n left).steer a n).data = (s.steer a n).data.drop 1 ∧
    ((s.steerMoved a n left).steer a n).toks = (if left = 1 then (s.steer a n).toks.drop 1 else (s.steer a n).toks) ∧
    (s.steerMoved a n left).ctr C.SEQ_CNT_STEER a = (s.ctr C.SEQ_CNT_STEER a + 1) % 2 ^ 48 := by
  unfold State.steerMoved
  dsimp only
  refine ⟨rfl, fun b m => ?_, ?_, ?_, State.ctr_count_same ..⟩
  · rw [State.queue_modSteer, State.queue_count]
  · rw [State.steer_modSteer_same]; split <;> rfl
  · rw [State.steer_modSteer_same]; split <;> rfl

end

/-! ### Commands of a unit -/

/-- A unit that may act in the cycle runs its action there (R169). -/
theorem steerCmd_ready {s : State} {p : At} {n : BitVec 3} {md md' : Nat} (f : Nat → Nat → State → State) (h : SteerReady s p n md)
    (hm : md' = 0 ∨ md' = md) : steerCmd p n md' f s = f p.site.toNat n.toNat (s.at_ p.t.toNat) := by
  obtain ⟨hr, hrun, hmode, h12, hstop⟩ := h
  have hon : (s.at_ p.t.toNat).steerOn p.site.toNat n.toNat = true := by
    rw [State.steerOn, hmode]; rcases h12 with rfl | rfl <;> rfl
  have hst : (s.at_ p.t.toNat).steer p.site.toNat n.toNat = s.steer p.site.toNat n.toNat := State.steer_congr (s.at_sites _) ..
  unfold steerCmd atSite
  rw [if_pos hr]
  refine if_pos ?_
  rw [hrun, hon, hmode, hst, hstop]
  rcases hm with rfl | rfl <;> simp

/-! ### Intake -/

theorem at_steer (s : State) (t a n : Nat) : (s.at_ t).steer a n = s.steer a n := State.steer_congr (s.at_sites t) a n
theorem at_queue (s : State) (t a q : Nat) : (s.at_ t).queue a q = s.queue a q := State.queue_congr (s.at_sites t) a q

@[simp] theorem sites_eventTo (s : State) (n k : Nat) (b : List Nat) : (s.eventTo n k b).sites = s.sites := by
  have h : ∀ c : Bool, (if c then s.fresh.2 else s).sites = s.sites := fun c => by cases c <;> rfl
  unfold State.eventTo
  dsimp only
  split
  · exact h _
  · exact h _

@[simp] theorem sites_event (s : State) (f : Nat → Bool) (k : Nat) (b : List Nat) : (s.event f k b).sites = s.sites :=
  foldl_keep State.sites _ (fun s n => sites_eventTo s n k b) _ s

/-- The poison of a site is a matter of the Hut. -/
theorem sites_poisonSite (s : State) (a k addr : Nat) : (s.poisonSite a k addr).sites = s.sites := by
  unfold State.poisonSite
  split
  · exact sites_event _ _ _ _
  · rfl

theorem tokenIntake_token {s : State} {a n : Nat} {e : Entry} {l : List Entry} (h1 : fieldGet F.SEQ_STEER_TSRC (s.word .SEQ_STEER a n) = 1)
    (h2 : (s.steer a n).toks.length < 8) (h3 : (s.steer a n).tokAt ≠ some s.cycles)
    (h4 : s.qHeads a (fieldGet F.SEQ_STEER_TQ (s.word .SEQ_STEER a n)) = e :: l) :
    tokenIntake a n s = if e.decode.poison.getLsbD 0 then (s.modSteer a n (fun u => { u with stopped := true })).poisonSite a 3 0
      else (s.qPop a (fieldGet F.SEQ_STEER_TQ (s.word .SEQ_STEER a n))).2.modSteer a n (fun u =>
        { u with toks := List.append u.toks [(BitVec.ofNat 16 e.decode.bits.toNat, false)], tokAt := some s.cycles }) := by
  unfold tokenIntake
  dsimp only
  rw [if_neg (by simp only [not_or]; exact ⟨by omega, by omega, h3⟩), h4]

theorem dataIntake_entry {s : State} {a n : Nat} {e : Entry} {l : List Entry} (h1 : (s.steer a n).data.length < 16)
    (h2 : (s.steer a n).inAt ≠ some s.cycles) (h3 : s.qHeads a (steerIn (s.word .SEQ_STEER a n) 0) = e :: l) :
    dataIntake a n s = (s.qPop a (steerIn (s.word .SEQ_STEER a n) 0)).2.modSteer a n (fun u =>
      { u with data := List.append u.data [e.decode], inAt := some s.cycles }) := by
  obtain ⟨hp, -⟩ := qPop_head s a _ h3
  unfold dataIntake
  dsimp only
  rw [if_neg (by simp only [not_or]; exact ⟨by omega, h2⟩)]
  generalize s.qPop a (steerIn (s.word .SEQ_STEER a n) 0) = r at hp
  obtain ⟨o, v⟩ := r
  cases hp
  rfl

theorem mergeIntake_entry {s : State} {a n : Nat} {e : Entry} {l : List Entry} {k : BitVec 16} {mk : Bool}
    (h0 : (s.steer a n).toks[(s.steer a n).ipos]? = some (k, mk)) (h1 : (s.steer a n).data.length < 16)
    (h2 : (s.steer a n).inAt ≠ some s.cycles) (h3 : fieldGet F.SEQ_STEER_IEN (s.word .SEQ_STEER a n) / 2 ^ tokSel k % 2 = 1)
    (h4 : s.qHeads a (steerIn (s.word .SEQ_STEER a n) (tokSel k)) = e :: l) :
    ∃ (tk : Nat) (ip : SteerX → Nat), mergeIntake a n s = (s.qPop a (steerIn (s.word .SEQ_STEER a n) (tokSel k))).2.modSteer a n (fun u =>
      { u with data := List.append u.data [e.decode], take := tk, ipos := ip u, inAt := some s.cycles }) := by
  obtain ⟨hp, -⟩ := qPop_head s a _ h4
  unfold mergeIntake
  dsimp only
  rw [h0]
  dsimp only
  rw [if_neg (by simp only [not_or]; exact ⟨by omega, h2⟩), if_neg (by omega)]
  generalize s.qPop a (steerIn (s.word .SEQ_STEER a n) (tokSel k)) = r at hp
  obtain ⟨o, v⟩ := r
  cases hp
  exact ⟨_, _, rfl⟩

/-- An entry taken into a unit from a queue: the unit's part changes by `f`, the queue loses its head. -/
theorem taken {s : State} {a n q : Nat} {e : Entry} {l : List Entry} (f : SteerX → SteerX) (h : s.qHeads a q = e :: l) :
    let t := (s.qPop a q).2.modSteer a n f
    t.steer a n = f (s.steer a n) ∧ (t.queue a q).items = (s.queue a q).items.drop 1 ∧ Frame s t (oneReg .CHK_ECC_LOG a 0) := by
  obtain ⟨-, hi, hs, hr⟩ := qPop_head s a q h
  refine ⟨?_, ?_, .of_mems (by simp), hr.trans (.of_eq rfl)⟩
  · rw [State.steer_modSteer_same, hs]
  · rw [State.queue_modSteer, hi]

theorem steeringUnitsTakeIn : SteeringUnitsTakeIn := by
  intro s p n a u w
  have hx : u.steer a n.toNat = s.steer a n.toNat := at_steer ..
  have hq : ∀ q, u.queue a q = s.queue a q := at_queue s _ a
  refine ⟨fun md e l hr h1 h2 h3 h4 => ?_, fun e l hr h1 h2 h3 => ?_, fun e l k mk hr h0 h1 h2 h3 h4 => ?_⟩
  · rw [← hx] at h2 h3
    have hrun : exec (.queueTokenIntake p n) s = .next (tokenIntake a n.toNat u) :=
      congrArg Host.Outcome.next (steerCmd_ready tokenIntake hr (.inl rfl))
    rw [tokenIntake_token h1 h2 h3 h4] at hrun
    refine ⟨fun hp => .next hrun ?_, fun hp => .next hrun ?_⟩
    · rw [hp]
      obtain ⟨h5, h6, h7⟩ := taken (fun x : SteerX =>
        { x with toks := List.append x.toks [(BitVec.ofNat 16 e.decode.bits.toNat, false)], tokAt := some u.cycles }) h4
      exact ⟨(congrArg SteerX.toks h5).trans (by rw [← hx]), h6.trans (by rw [hq]), h7⟩
    · rw [if_pos hp]
      have hs := (State.steer_congr (sites_poisonSite (u.modSteer a n.toNat (fun x => { x with stopped := true })) a 3 0) a n.toNat).trans
        (State.steer_modSteer_same ..)
      exact ⟨congrArg SteerX.stopped hs, (congrArg SteerX.toks hs).trans (congrArg SteerX.toks hx :)⟩
  · rw [← hx] at h1 h2
    have hrun : exec (.steerDataIntake p n) s = .next (dataIntake a n.toNat u) :=
      congrArg Host.Outcome.next (steerCmd_ready dataIntake hr (.inr rfl))
    rw [dataIntake_entry h1 h2 h3] at hrun
    obtain ⟨h5, h6, h7⟩ := taken (fun x : SteerX => { x with data := List.append x.data [e.decode], inAt := some u.cycles }) h3
    exact .next hrun ⟨(congrArg SteerX.data h5).trans (by rw [← hx]), h6.trans (by rw [hq]), h7⟩
  · rw [← hx] at h0 h1 h2
    obtain ⟨tk, ip, hm⟩ := mergeIntake_entry h0 h1 h2 h3 h4
    have hrun : exec (.mergeIntake p n) s = .next (mergeIntake a n.toNat u) :=
      congrArg Host.Outcome.next (steerCmd_ready mergeIntake hr (.inr rfl))
    rw [hm] at hrun
    obtain ⟨h5, h6, h7⟩ := taken (fun x : SteerX =>
      { x with data := List.append x.data [e.decode], take := tk, ipos := ip x, inAt := some u.cycles }) h4
    exact .next hrun ⟨(congrArg SteerX.data h5).trans (by rw [← hx]), h6.trans (by rw [hq]), h7⟩

/-! ### Firing -/

/-- An entry moved on to an output queue. -/
theorem moved_on (u : State) (a n q left len : Nat) (e : Entry) (first : Bool) :
    let t := (u.steerPush a n q e first len).steerMoved a n left
    (t.steer a n).data = (u.steer a n).data.drop 1 ∧ (t.queue a q).items = List.append (u.queue a q).items [.entry e u.cycles] ∧
    (t.steer a n).toks = (if left = 1 then (u.steer a n).toks.drop 1 else (u.steer a n).toks) ∧
    t.ctr C.SEQ_CNT_STEER a = (u.ctr C.SEQ_CNT_STEER a + 1) % 2 ^ 48 ∧ Frame u t (oneReg .QUE_STAT a q) := by
  obtain ⟨p1, p2, p3, p4⟩ := steerPush_keeps u a q n e first len
  have hm : mems ((u.steerPush a n q e first len).steerMoved a n left) = mems u := by simp
  generalize u.steerPush a n q e first len = v at p1 p2 p3 p4 hm
  obtain ⟨m1, m2, m3, m4, m5⟩ := steerMoved_keeps v a n left
  refine ⟨m3.trans (by rw [p3]), (congrArg QueueX.items (m2 a q)).trans p2, m4.trans (by rw [p3]), m5.trans ?_, .of_mems hm, p1.trans (.of_eq m1)⟩
  rw [State.ctr, p4, State.ctr]

theorem steeringUnitsFire : SteeringUnitsFire := by
  intro s p n k ts e es q a u w x moved hk hd hf hg
  have hx : u.steer a n.toNat = x := at_steer ..
  have hq : u.queue a q = s.queue a q := at_queue ..
  have hmoved : ∀ first, moved ((u.steerPush a n.toNat q e first (tokCount k)).steerMoved a n.toNat (if x.left = 0 then tokCount k else x.left)) := by
    intro first
    obtain ⟨h1, h2, h3, h4, h5⟩ := moved_on u a n.toNat q (if x.left = 0 then tokCount k else x.left) (tokCount k) e first
    rw [hx] at h1 h3
    refine ⟨h1.trans (by rw [hd]; rfl), h2.trans (by rw [hq]), fun hl => ?_, fun hl => ?_, h4, h5⟩
    · rw [h3, if_pos hl, hk]; rfl
    · rw [h3, if_neg hl]
  refine ⟨fun hr ho hqe => .next (t := steerFire a n.toNat u) (congrArg Host.Outcome.next (steerCmd_ready steerFire hr (.inr rfl))) ?_,
    fun hr hqe => .next (t := mergeFire a n.toNat u) (congrArg Host.Outcome.next (steerCmd_ready mergeFire hr (.inr rfl))) ?_⟩
  · have e1 : steerFire a n.toNat u =
        (u.steerPush a n.toNat q e (x.left == 0) (tokCount k)).steerMoved a n.toNat (if x.left = 0 then tokCount k else x.left) := by
      unfold steerFire
      dsimp only
      rw [hx, hk, hd]
      dsimp only
      rw [if_neg hf, if_pos ho, if_pos (hqe ▸ hg), ← hqe]
    rw [e1]
    exact hmoved _
  · have e1 : mergeFire a n.toNat u =
        (u.steerPush a n.toNat q e (x.left == 0) (tokCount k)).steerMoved a n.toNat (if x.left = 0 then tokCount k else x.left) := by
      unfold mergeFire
      dsimp only
      rw [hx, hk, hd]
      dsimp only
      rw [if_neg hf, if_neg Bool.false_ne_true, if_pos (hqe ▸ hg), ← hqe]
    rw [e1]
    exact hmoved _

/-- Settles O16: an intake is a pop into the unit, a firing a push from it. -/
theorem steeringUnitsSteer : Obligations.SteeringUnitsSteer := ⟨steeringUnitsTakeIn, steeringUnitsFire⟩

end Sys2Proof.Proofs
end

section
/-! PROOF. Instructions of stream programs and Tarn threads issue or trap (chapter 06). -/

namespace Sys2Proof.Proofs

open Sys2Proof Sys2Proof.Machine

/-! ### Issue -/

/-- At the head, unhindered, the instruction issues (R185). -/
theorem agCmd_go {s : State} {p : PAt} {i : AgInstr} (eff : Nat → Nat → State → State) (skip : Option Nat) (h : AgAtHead s p i) :
    agCmd p i eff skip s = (((eff p.site.toNat p.prog.toNat (s.at_ p.t.toNat)).agIssued p.site.toNat p.prog.toNat skip).agMove
      p.site.toNat p.prog.toNat) := by
  obtain ⟨hr, ha, hb, hh, hc, ht⟩ := h
  unfold agCmd
  dsimp only
  simp only [hr, ha, hb, hh, hc, Bool.not_true, Bool.false_eq_true, if_false, ne_eq, not_true_eq_false]
  refine if_neg ?_
  cases e : isTarn p.site.toNat with
  | false => exact Bool.false_ne_true
  | true => rw [ht e]; exact Bool.false_ne_true

section
variable (s : State) (a n : Nat) (skip : Option Nat)

theorem settleCredit_keeps : (s.settleCredit a n).regs = s.regs ∧ (s.settleCredit a n).sites = s.sites ∧
    (s.settleCredit a n).sigAdds = s.sigAdds ∧ (s.settleCredit a n).flight = s.flight := by
  unfold State.settleCredit
  split <;> exact ⟨rfl, rfl, rfl, rfl⟩

/-- The program's part after an issue. -/
def afterIssue (now : Nat) (skip : Option Nat) (x : StrX) : StrX :=
  { x with pc := (agLoopEnd x.pc x.frames).1.getD ((skip.getD x.pc) + 1), frames := (agLoopEnd x.pc x.frames).2
           issueAt := some now, creditHeld := none }

theorem agMove_keeps : (s.agMove a n).regs = s.regs ∧ (s.agMove a n).sigAdds = s.sigAdds ∧ (s.agMove a n).flight = s.flight ∧
    OtherSites s (s.agMove a n) a ∧ (∀ b m, (s.agMove a n).str b m = s.str b m) := by
  unfold State.agMove
  dsimp only
  split
  · refine ⟨rfl, rfl, rfl, .modSite (.of_eq rfl) _, fun b m => ?_⟩
    refine part_modSite (fun x => (aget x.strs m).getD StrX.reset) s a b ?_
    intro; rfl
  · exact ⟨rfl, rfl, rfl, .of_eq rfl, fun _ _ => rfl⟩

/-- An issue changes the program's own part, the counts and the Tarn's arbiter alone. -/
theorem agIssued_keeps : ∃ now, let t := (s.agIssued a n skip).agMove a n
    t.regs = s.regs ∧ t.sigAdds = s.sigAdds ∧ t.flight = s.flight ∧ OtherSites s t a ∧ (∀ m, m ≠ n → t.str a m = s.str a m) ∧
    t.str a n = afterIssue now skip (s.str a n) := by
  have hu : ∃ u : State, s.agIssued a n skip = u.modStr a n (afterIssue u.cycles skip) ∧ u.regs = s.regs ∧ u.sites = s.sites ∧
      u.sigAdds = s.sigAdds ∧ u.flight = s.flight := by
    unfold State.agIssued
    split
    · exact ⟨s, rfl, rfl, rfl, rfl, rfl⟩
    · exact ⟨_, rfl, settleCredit_keeps s a n⟩
  obtain ⟨u, e, h1, h2, h3, h4⟩ := hu
  obtain ⟨k1, k2, k3, k4, k5⟩ := agMove_keeps (s.agIssued a n skip) a n
  rw [e] at k1 k2 k3 k4 k5 ⊢
  refine ⟨u.cycles, k1.trans h1, k2.trans h3, k3.trans h4, fun b hb => ?_, fun m hm => ?_, ?_⟩
  · exact (k4 b hb).trans ((State.site_modSite_ne _ _ hb).trans (State.site_congr h2 b))
  · exact (k5 a m).trans ((State.str_modStr_ne u _ (.inr hm)).trans (State.str_congr h2 a m))
  · exact (k5 a n).trans ((State.str_modStr_same ..).trans (congrArg _ (State.str_congr h2 a n)))

theorem agLoopEnd_none {pc : Nat} {l : List AgFrame} (h : ∀ f ∈ l, f.last ≠ pc) : agLoopEnd pc l = (none, l) := by
  cases l with
  | nil => rfl
  | cons f l => exact if_neg (h f (by simp))

/-- No loop ends: the frames stand, and the next address is behind the present one or the loop skipped. -/
theorem afterIssue_plain {x : StrX} (now : Nat) (h : ∀ f ∈ x.frames, f.last ≠ x.pc) :
    (afterIssue now skip x).frames = x.frames ∧ (afterIssue now skip x).pc = skip.getD x.pc + 1 := by
  unfold afterIssue
  rw [agLoopEnd_none h]
  exact ⟨rfl, rfl⟩

end

/-! ### What an instruction leaves, its effect given -/

/-- What an effect does beyond the program's own part: registers of R, nothing of memory, of other sites and programs. -/
structure EffectKeeps (u v : State) (a n : Nat) (R : RegName → Nat → Nat → Prop) : Prop where
  regs : SameRegs u v R
  mem : mems v = mems u
  sites : OtherSites u v a
  strs : ∀ m, m ≠ n → v.str a m = u.str a m

theorem EffectKeeps.refl (u : State) (a n : Nat) (R : RegName → Nat → Nat → Prop) : EffectKeeps u u a n R :=
  ⟨.refl _ _, rfl, .of_eq rfl, fun _ _ => rfl⟩

theorem EffectKeeps.modStr {u v : State} {a n : Nat} {R : RegName → Nat → Nat → Prop} (h : EffectKeeps u v a n R) (f : StrX → StrX) :
    EffectKeeps u (v.modStr a n f) a n R :=
  ⟨h.regs.trans (.of_eq rfl), (by simp [h.mem]), .modSite h.sites _, fun m hm => (State.str_modStr_ne v f (.inr hm)).trans (h.strs m hm)⟩

theorem EffectKeeps.wr {u v : State} {a n : Nat} {R : RegName → Nat → Nat → Prop} (h : EffectKeeps u v a n R) {f : Fld} {b i : Nat}
    (w : Nat) (hr : R f.reg b i) : EffectKeeps u (v.wr f b i w) a n R := ⟨.wr h.regs w hr, (by simp [h.mem]), h.sites, h.strs⟩

/-- A command at the head answers the state after its effect and the issue; what the issue leaves may be read off the effect. -/
theorem issues {s : State} {p : PAt} {c : Instr} {i : AgInstr} {eff : Nat → Nat → State → State} {skip : Option Nat}
    {R : RegName → Nat → Nat → Prop} {Q : State → Prop} (h : AgAtHead s p i) (hc : exec c s = .next (agCmd p i eff skip s)) :
    let a := p.site.toNat
    let n := p.prog.toNat
    let u := s.at_ p.t.toNat
    let v := eff a n u
    EffectKeeps u v a n R →
    (∀ t now, t.regs = v.regs → t.sigAdds = v.sigAdds → t.flight = v.flight → t.str a n = afterIssue now skip (v.str a n) →
      AgIssued u t a n (afterIssue now skip (v.str a n)).pc R → Q t) → Done c s Q := by
  intro a n u v hk hq
  rw [agCmd_go eff skip h] at hc
  obtain ⟨now, h1, h2, h3, h4, h5, h6⟩ := agIssued_keeps v a n skip
  refine .next hc (hq _ now h1 h2 h3 h6 ⟨congrArg StrX.pc h6, ⟨.of_mems ?_, hk.regs.trans (.of_eq h1)⟩, fun b hb => ?_, fun m hm => ?_⟩)
  · exact (mems_agMove ..).trans ((mems_agIssued ..).trans hk.mem)
  · exact (h4 b hb).trans (hk.sites b hb)
  · exact (h5 m hm).trans (hk.strs m hm)

/-! ### Address registers -/

/-- Facts of a Spur's field and of a Tarn's hold of the one that a site has. -/
theorem strFld_of {P : Fld → Prop} (a : Nat) {f g : Fld} (hf : P f) (hg : P g) : P (strFld a f g) := by
  unfold strFld; split <;> assumption

theorem areg_fits (a : Nat) : (strFld a F.STR_AREG_ADDR F.TRN_AREG_ADDR).lo + (strFld a F.STR_AREG_ADDR F.TRN_AREG_ADDR).width ≤ 64 ∧
    (strFld a F.STR_AREG_ADDR F.TRN_AREG_ADDR).width = 48 :=
  strFld_of (P := fun f => f.lo + f.width ≤ 64 ∧ f.width = 48) a (by decide) (by decide)

theorem areg_setAreg_same (s : State) (a n k v : Nat) : (s.setAreg a n k v).areg a n k = v % 2 ^ 48 := by
  rw [State.areg, State.setAreg, State.rd_wr_self _ _ _ _ _ (areg_fits a).1, (areg_fits a).2, Nat.mod_mod]

theorem areg_setAreg_ne (s : State) (a n v : Nat) {k j : Nat} (h : j ≠ k) : (s.setAreg a n k v).areg a n j = s.areg a n j :=
  s.rd_wr_ne _ (fun e => h (by have := e.2.2; omega))

theorem areg_lt (s : State) (a n k : Nat) : s.areg a n k < 2 ^ 48 := by
  have h := fieldGet_lt (strFld a F.STR_AREG_ADDR F.TRN_AREG_ADDR) (s.word (strFld a F.STR_AREG_ADDR F.TRN_AREG_ADDR).reg a (8 * n + k))
  rw [(areg_fits a).2] at h
  exact h

theorem rd_of_regs {s t : State} (h : t.regs = s.regs) (f : Fld) (a i : Nat) : t.rd f a i = s.rd f a i := by
  rw [State.rd, State.word_congr h, State.rd]

theorem areg_congr {s t : State} (h : t.regs = s.regs) (a n k : Nat) : t.areg a n k = s.areg a n k := rd_of_regs h ..

theorem addressInstructionsIssue : AddressInstructionsIssue := by
  intro s p ad src a n u wrote hl
  have hl' : ∀ f ∈ (u.str a n).frames, f.last ≠ (u.str a n).pc := by rw [State.str_congr (s.at_sites _)]; exact hl
  have hset : ∀ (c : Instr) (i : AgInstr) (eff : Nat → Nat → State → State) (v : Nat), AgAtHead s p i →
      exec c s = .next (agCmd p i eff none s) → eff a n u = u.setAreg a n ad.toNat v → Done c s (wrote v) := by
    intro c i eff v h hc he
    have hk : EffectKeeps u (u.setAreg a n ad.toNat v) a n (aregOf a n ad.toNat) := .wr (.refl ..) _ ⟨rfl, rfl, rfl⟩
    refine issues h hc (he ▸ hk) fun t now h1 _ _ h2 h3 => ?_
    have hs : (eff a n u).str a n = s.str a n := he ▸ State.str_congr (s.at_sites p.t.toNat) a n
    have h1' : t.regs = (u.setAreg a n ad.toNat v).regs := he ▸ h1
    obtain ⟨hf, hpc⟩ := afterIssue_plain none now (x := s.str a n) hl
    rw [show eff p.site.toNat p.prog.toNat (s.at_ p.t.toNat) = eff a n u from rfl, hs] at h2 h3
    refine ⟨(areg_congr h1' ..).trans (areg_setAreg_same ..), (congrArg StrX.frames h2).trans hf, hpc ▸ h3⟩
  exact ⟨fun imm h => hset _ _ _ _ h rfl rfl, fun imm h => hset _ _ _ _ h rfl rfl, fun sh h => hset _ _ _ _ h rfl rfl⟩

/-! ### Loops, fences and signals -/

/-- A loop's frame lies behind its ALOOP, or the instruction traps (R187). -/
theorem loop_behind {s : State} {a n : Nat} {e : BitVec 9} {c : BitVec 16} (h : agCheck (.aloop e c) s a n = .go) :
    (s.str a n).pc < e.toNat := by
  by_contra hn
  have : (decide (e.toNat < (s.str a n).pc + 1) || (decide (c.toNat ≥ 1) && decide ((s.str a n).frames.length ≥ 4))) = true := by
    rw [decide_eq_true (by omega)]; rfl
  unfold agCheck at h
  simp only [this] at h
  simp at h

/-- FENCE and SIGNAL wait for the COPYs before them (R191). -/
theorem fence_waits {s : State} {a n : Nat} (h : agCheck .fence s a n = .go) : (s.str a n).copies = [] := by
  by_contra hn
  unfold agCheck at h
  simp [hn] at h
  split at h <;> cases h

theorem signal_waits {s : State} {a n : Nat} {r : Bool} {c : BitVec 5} {v : BitVec 16} (h : agCheck (.signal r c v) s a n = .go) :
    (s.str a n).copies = [] := by
  by_contra hn
  unfold agCheck at h
  simp [hn] at h
  split at h <;> cases h

/-- An effect on the program's own part alone, and the issue. -/
theorem ownEffect_issues {s : State} {p : PAt} {c : Instr} {i : AgInstr} {eff : Nat → Nat → State → State} {skip : Option Nat}
    {Q : State → Prop} (h : AgAtHead s p i) (hc : exec c s = .next (agCmd p i eff skip s)) :
    let a := p.site.toNat
    let n := p.prog.toNat
    let u := s.at_ p.t.toNat
    EffectKeeps u (eff a n u) a n noReg → ∀ x, (eff a n u).str a n = x →
    (∀ t now, t.sigAdds = (eff a n u).sigAdds → t.flight = (eff a n u).flight → t.str a n = afterIssue now skip x →
      AgIssued u t a n (afterIssue now skip x).pc noReg → Q t) → Done c s Q := by
  rintro a n u hk x rfl hq
  exact issues h hc hk fun t now _ h2 h3 h4 h5 => hq t now h2 h3 h4 h5

theorem streamControlIssues : StreamControlIssues := by
  intro s p a n u x
  have hx : u.str a n = x := State.str_congr (s.at_sites _) a n
  refine ⟨fun e c h hl => ⟨fun h0 => ?_, fun h0 => ?_⟩, fun f fs h hf hlast => ⟨fun hm => ?_, fun hm hg => ?_⟩,
    fun hl => ⟨fun h => ?_, fun cnt add h => ?_, fun cnt add h => ?_, fun h => ?_⟩⟩
  · have h0' : c.toNat ≠ 0 := fun e => h0 (BitVec.eq_of_toNat_eq e)
    have hb : x.pc < e.toNat := hx ▸ loop_behind h.2.2.2.2.1
    refine ownEffect_issues (c := .aloop p e c) h rfl ?_ { x with frames := ⟨x.pc + 1, e.toNat, c.toNat, 0⟩ :: x.frames } ?_ ?_
    · rw [if_neg h0']
      exact (EffectKeeps.refl ..).modStr _
    · rw [if_neg h0', State.str_modStr_same, ← hx]
    · intro t now _ _ h1 h2
      have hpl : ∀ g ∈ (⟨x.pc + 1, e.toNat, c.toNat, 0⟩ :: x.frames : List AgFrame), g.last ≠ x.pc := by
        rintro g (_ | ⟨_, hg⟩)
        · exact fun k => by change e.toNat = x.pc at k; omega
        · exact hl g hg
      rw [if_neg h0'] at h1 h2
      obtain ⟨k1, k2⟩ := afterIssue_plain none now (x := { x with frames := ⟨x.pc + 1, e.toNat, c.toNat, 0⟩ :: x.frames }) hpl
      exact ⟨(congrArg StrX.frames h1).trans k1, k2 ▸ h2⟩
  · subst h0
    refine ownEffect_issues (c := .aloop p e 0) h rfl (.refl ..) x hx fun t now _ _ h1 h2 => ?_
    obtain ⟨k1, k2⟩ := afterIssue_plain (some e.toNat) now hl
    exact ⟨(congrArg StrX.frames h1).trans k1, k2 ▸ h2⟩
  · refine ownEffect_issues (c := .fence p) h rfl (.refl ..) x hx fun t now _ _ h1 h2 => ?_
    have k : agLoopEnd x.pc x.frames = (some f.start, { f with cur := f.cur + 1 } :: fs) := by
      rw [hf]; unfold agLoopEnd; rw [if_pos hlast, if_pos hm]
    unfold afterIssue at h1 h2
    rw [k] at h1 h2
    exact ⟨congrArg StrX.frames h1, h2⟩
  · refine ownEffect_issues (c := .fence p) h rfl (.refl ..) x hx fun t now _ _ h1 h2 => ?_
    have k : agLoopEnd x.pc x.frames = (none, fs) := by
      rw [hf]; unfold agLoopEnd; rw [if_pos hlast, if_neg (by omega)]; exact agLoopEnd_none hg
    unfold afterIssue at h1 h2
    rw [k] at h1 h2
    exact ⟨congrArg StrX.frames h1, h2⟩
  · have hc : x.copies = [] := hx ▸ fence_waits h.2.2.2.2.1
    refine ownEffect_issues (c := .fence p) h rfl (.refl ..) x hx fun t now _ _ h1 h2 => ?_
    exact ⟨hc, (congrArg StrX.copies h1).trans hc, (afterIssue_plain none now hl).2 ▸ h2⟩
  · have hc : x.copies = [] := hx ▸ signal_waits h.2.2.2.2.1
    refine ownEffect_issues (c := .signal p false cnt add) h rfl ⟨.of_eq rfl, rfl, .of_eq rfl, fun _ _ => rfl⟩ x hx fun t now h0 _ _ h2 => ?_
    refine ⟨hc, ?_, (afterIssue_plain none now hl).2 ▸ h2⟩
    have e : qid a cnt.toNat = 32 * a + cnt.toNat := by unfold qid; omega
    rw [h0, ← e]
    exact aget_aput_same ..
  · have hc : x.copies = [] := hx ▸ signal_waits h.2.2.2.2.1
    refine ownEffect_issues (c := .signal p true cnt add) h rfl ⟨.of_eq rfl, rfl, .of_eq rfl, fun _ _ => rfl⟩ x hx fun t now _ h0 _ h2 => ?_
    refine ⟨hc, ⟨_, h0, ?_, rfl, ?_⟩, (afterIssue_plain none now hl).2 ▸ h2⟩
    · change qid a (u.dscQn a n) = _
      unfold qid; omega
    · change QItem.sig _ _ = _
      rw [BitVec.ofNat_toNat, BitVec.ofNat_toNat, BitVec.setWidth_eq, BitVec.setWidth_eq]
  · refine ownEffect_issues (c := .streamProgramEnd p) h rfl ((EffectKeeps.refl ..).modStr _) { x with ended := true } ?_ fun t now _ _ h1 h2 => ?_
    · rw [State.str_modStr_same, ← hx]
    · exact ⟨congrArg StrX.ended h1, (afterIssue_plain none now (x := { x with ended := true }) hl).2 ▸ h2⟩

/-- Settles O17: each instruction is its effect, and an issue at which the loops end as its frames say. -/
theorem streamInstructionsIssue : Obligations.StreamInstructionsIssue := ⟨addressInstructionsIssue, streamControlIssues⟩

/-! ### COPY -/

/-- Registers that a COPY's credit changes. -/
theorem takeCredit_regs (u : State) (o : CopyOps) (a n : Nat) (hc : o.c = true) : SameRegs u (u.takeCredit a n) (copyRegs o u a n) := by
  unfold State.takeCredit
  split
  · next h => exact .wr (.refl _ _) _ (.inr (.inr (.inl ⟨hc, h, rfl, rfl, rfl⟩)))
  · next h => exact .wr (.refl _ _) _ (.inr (.inr (.inr ⟨hc, h, rfl, rfl, rfl⟩)))

/-- A credit is no address register. -/
theorem areg_takeCredit (u : State) (a n k : Nat) : (u.takeCredit a n).areg a n k = u.areg a n k := by
  unfold State.takeCredit
  split
  · exact u.rd_wr_ne _ (fun e => strFld_of (P := fun f : Fld => f.reg ≠ .SEQ_SIG) a (by decide) (by decide) e.1)
  · refine u.rd_wr_ne _ (fun e => ?_)
    unfold strFld at e
    split at e <;> exact absurd e.1 (by decide)

/-- An address register advanced by a length where its bit is set (R186). -/
def advanced (w : State) (a n : Nat) (b : Bool) (k len : Nat) : State := if b then w.setAreg a n k (w.areg a n k + len) else w

section
variable (w : State) (a n : Nat) (b : Bool) (k len : Nat)

theorem areg_advanced (j : Nat) : (advanced w a n b k len).areg a n j = (w.areg a n j + (if b && k == j then len else 0)) % 2 ^ 48 := by
  unfold advanced
  cases b with
  | false => exact (Nat.mod_eq_of_lt (areg_lt w a n j)).symm
  | true =>
    by_cases h : k = j
    · subst h
      simp only [if_true, Bool.true_and, beq_self_eq_true]
      exact areg_setAreg_same ..
    · simp only [if_true, Bool.true_and, beq_eq_false_iff_ne.mpr h]
      exact (areg_setAreg_ne _ _ _ _ (Ne.symm h)).trans (Nat.mod_eq_of_lt (areg_lt w a n j)).symm

/-- A field of a register that holds no address. -/
theorem rd_advanced {f : Fld} (c i : Nat) (hf : f.reg ≠ (strFld a F.STR_AREG_ADDR F.TRN_AREG_ADDR).reg) :
    (advanced w a n b k len).rd f c i = w.rd f c i := by
  unfold advanced
  split
  · exact w.rd_wr_ne _ (fun e => hf e.1)
  · rfl

theorem advanced_keeps {u : State} {R : RegName → Nat → Nat → Prop} (h : EffectKeeps u w a n R)
    (hr : b = true → R (strFld a F.STR_AREG_ADDR F.TRN_AREG_ADDR).reg a (8 * n + k)) : EffectKeeps u (advanced w a n b k len) a n R := by
  unfold advanced
  split
  · next hb => exact h.wr _ (hr hb)
  · exact h

theorem str_advanced (m : Nat) : (advanced w a n b k len).str a m = w.str a m := by unfold advanced; split <;> rfl

end

/-- The transfer that a COPY begins (R186). -/
def copyBegun (o : CopyOps) (a n : Nat) (s : State) : CopyX :=
  ⟨s.areg a n o.src.toNat, s.areg a n o.dst.toNat, o.len, (s.str a n).made, [], 0, o.s,
    s.endKind a n (s.areg a n o.src.toNat) o.len == .remote || s.endKind a n (s.areg a n o.dst.toNat) o.len == .remote, s.cycles⟩

/-- The state with the credit taken that a COPY asks for (R190). -/
def credited (o : CopyOps) (a n : Nat) (s : State) : State := if o.c then s.takeCredit a n else s

theorem credited_keeps (o : CopyOps) (a n : Nat) (s : State) : EffectKeeps s (credited o a n s) a n (copyRegs o s a n) ∧
    (∀ m, (credited o a n s).str a m = s.str a m) ∧ (∀ k, (credited o a n s).areg a n k = s.areg a n k) := by
  unfold credited
  split
  · next h =>
    have hs : (s.takeCredit a n).sites = s.sites := by unfold State.takeCredit; split <;> rfl
    exact ⟨⟨takeCredit_regs s o a n h, mems_takeCredit .., .of_eq hs, fun m _ => State.str_congr hs a m⟩,
      fun m => State.str_congr hs a m, areg_takeCredit s a n⟩
  · exact ⟨.refl .., fun _ => rfl, fun _ => rfl⟩

theorem copyEffect_eq (o : CopyOps) (a n : Nat) (s : State) : copyEffect o a n s =
    advanced (advanced ((credited o a n s).modStr a n (fun x => { x with
      copies := List.append x.copies [{ copyBegun o a n s with gen := x.made }], made := x.made + 1 }))
      a n o.is o.src.toNat o.len) a n o.id o.dst.toNat o.len := rfl

/-- A value below the present one of a field fits it. -/
theorem rd_wr_pred (s : State) {f : Fld} (a i : Nat) (h : f.lo + f.width ≤ 64) : (s.wr f a i (s.rd f a i - 1)).rd f a i = s.rd f a i - 1 := by
  have := fieldGet_lt f (s.word f.reg a i)
  rw [State.rd_wr_self _ _ _ _ _ h]
  exact Nat.mod_eq_of_lt (Nat.lt_of_le_of_lt (Nat.sub_le ..) this)

theorem sigFld_fits (c : Nat) : (sigFld c).lo + (sigFld c).width ≤ 64 := by
  have : c % 4 < 4 := Nat.mod_lt _ (by decide)
  change 0 + 16 * (c % 4) + 16 ≤ 64
  omega

theorem sig_takeCredit (u : State) (a n : Nat) (h : u.dscCsrc a n = 3) :
    (u.takeCredit a n).sig a (u.dscCidx a n) = u.sig a (u.dscCidx a n) - 1 := by
  rw [State.takeCredit, if_pos h]
  exact rd_wr_pred u a _ (sigFld_fits _)

theorem strCredits_takeCredit (u : State) (a n : Nat) (h : u.dscCsrc a n ≠ 3) : (u.takeCredit a n).strCredits a n = u.strCredits a n - 1 := by
  rw [State.takeCredit, if_neg h]
  exact rd_wr_pred u a n (strFld_of (P := fun f => f.lo + f.width ≤ 64) a (by decide) (by decide))

theorem sigFld_areg (a c : Nat) : (sigFld c).reg ≠ (strFld a F.STR_AREG_ADDR F.TRN_AREG_ADDR).reg :=
  strFld_of (P := fun f => RegName.SEQ_SIG ≠ f.reg) a (by decide) (by decide)

theorem credits_areg (a : Nat) : (strFld a F.STR_STATE_CREDITS F.TRN_THR_STATE_CREDITS).reg ≠ (strFld a F.STR_AREG_ADDR F.TRN_AREG_ADDR).reg := by
  unfold strFld; split <;> decide

theorem copyIssues : CopyIssues := by
  intro s p o a n u len hl h
  have hx : u.str a n = s.str a n := State.str_congr (s.at_sites _) a n
  obtain ⟨hk, hs, hreg⟩ := credited_keeps o a n u
  have hlen : o.len = len := Nat.mul_comm ..
  generalize hw : (credited o a n u).modStr a n (fun x => { x with
      copies := List.append x.copies [{ copyBegun o a n u with gen := x.made }], made := x.made + 1 }) = w
  have he : copyEffect o a n u = advanced (advanced w a n o.is o.src.toNat o.len) a n o.id o.dst.toNat o.len := by rw [copyEffect_eq, hw]
  have hwr : w.regs = (credited o a n u).regs := by rw [← hw]; rfl
  have hwk : EffectKeeps u w a n (copyRegs o u a n) := by rw [← hw]; exact hk.modStr _
  have hkeeps : EffectKeeps u (copyEffect o a n u) a n (copyRegs o u a n) := by
    rw [he]
    exact advanced_keeps _ _ _ _ _ _ (advanced_keeps _ _ _ _ _ _ hwk fun hb => .inl ⟨hb, rfl, rfl, rfl⟩)
      fun hb => .inr (.inl ⟨hb, rfl, rfl, rfl⟩)
  have hstr : (copyEffect o a n u).str a n = { s.str a n with
      copies := List.append (s.str a n).copies [copyBegun o a n u], made := (s.str a n).made + 1 } := by
    rw [he, str_advanced, str_advanced, ← hw, State.str_modStr_same, hs, hx, copyBegun, hx]
  refine issues (c := .copy p o) h rfl hkeeps fun t now h1 _ _ h2 h3 => ?_
  change t.regs = (copyEffect o a n u).regs at h1
  change t.str a n = afterIssue now none ((copyEffect o a n u).str a n) at h2
  change AgIssued u t a n (afterIssue now none ((copyEffect o a n u).str a n)).pc _ at h3
  rw [hstr] at h2 h3
  have hrd : ∀ f c i, Fld.reg f ≠ (strFld a F.STR_AREG_ADDR F.TRN_AREG_ADDR).reg → t.rd f c i = (credited o a n u).rd f c i := by
    intro f c i hf
    rw [rd_of_regs h1, he, rd_advanced _ _ _ _ _ _ _ _ hf, rd_advanced _ _ _ _ _ _ _ _ hf, rd_of_regs hwr]
  refine ⟨⟨copyBegun o a n u, congrArg StrX.copies h2, rfl, rfl, hlen, rfl, rfl, rfl⟩, fun k _ => ?_, fun hc h3' => ?_, fun hc h3' => ?_, ?_⟩
  · rw [areg_congr h1, he, areg_advanced, areg_advanced, areg_congr hwr, hreg, hlen]
    omega
  · rw [State.sig, hrd _ _ _ (sigFld_areg a _), credited, if_pos hc]
    exact sig_takeCredit u a n h3'
  · rw [State.strCredits, hrd _ _ _ (credits_areg a), credited, if_pos hc]
    exact strCredits_takeCredit u a n h3'
  · exact (afterIssue_plain none now (x := { s.str a n with
      copies := List.append (s.str a n).copies [copyBegun o a n u], made := (s.str a n).made + 1 }) hl).2 ▸ h3

/-! ### Traps -/

/-- A COPY that is not aligned to 64 B traps before anything else is checked (R193). -/
theorem copy_misaligned {u : State} {a n : Nat} {o : CopyOps} (h1 : (u.str a n).invalid = false) (h2 : (o.c && u.dscCsrc a n == 0) = false)
    (h3 : u.areg a n o.src.toNat % 64 ≠ 0 ∨ u.areg a n o.dst.toNat % 64 ≠ 0) : agCheck (.copy o) u a n = .trap 4 := by
  unfold agCheck
  simp only [h1, h2, Bool.false_or, Bool.false_eq_true, if_false]
  exact if_pos h3

/-- A trap writes the program's state register alone. -/
theorem strTrap_keeps (u : State) (a n code : Nat) : (u.strTrap a n code).sites = u.sites ∧
    (u.strTrap a n code).regs = (u.wrs a n [(strFld a F.STR_STATE_STATE F.TRN_THR_STATE_STATE, 3),
      (strFld a F.STR_STATE_LAST_TRAP F.TRN_THR_STATE_LAST_TRAP, code)]).regs := by
  unfold State.strTrap State.failSite
  dsimp only
  split <;> split <;> exact ⟨rfl, rfl⟩

theorem streamTraps : StreamTraps := by
  intro s p o a n u hr ha hb hh hi hc hm ht
  have hx : u.str a n = s.str a n := State.str_congr (s.at_sites _) a n
  have hcheck : agCheck (.copy o) u a n = .trap 4 := copy_misaligned (by rw [hx]; exact hi) hc hm
  have hrun : exec (.copy p o) s = .next ((u.strTrap a n 4).agMove a n) := by
    change Host.Outcome.next (agCmd p (.copy o) (copyEffect o) none s) = _
    unfold agCmd
    dsimp only
    simp only [hr, Bool.not_true, Bool.false_eq_true, if_false, ne_eq]
    change Host.Outcome.next (if (!u.agAlive a n) = true then u else if u.agBad a n = true then _ else match u.agHead a n with
      | none => _
      | some j => if ¬ j = .copy o then u else match agCheck (.copy o) u a n with
        | .hold _ => _
        | .trap code => if (isTarn a && !u.agChosen a n) = true then u else (u.strTrap a n code).agMove a n
        | .go => _) = _
    simp only [ha, hb, hh, hcheck, Bool.not_true, Bool.false_eq_true, if_false, not_true_eq_false]
    refine congrArg _ (if_neg ?_)
    cases e : isTarn a with
    | false => exact Bool.false_ne_true
    | true => rw [ht e]; exact Bool.false_ne_true
  obtain ⟨k1, k2⟩ := strTrap_keeps u a n 4
  obtain ⟨m1, -, -, -, m2⟩ := agMove_keeps (u.strTrap a n 4) a n
  have hregs := m1.trans k2
  refine .next hrun ⟨?_, ?_, (m2 a n).trans ((State.str_congr k1 a n).trans hx), .of_mems (by simp), ?_⟩
  · rw [State.strState, rd_of_regs hregs]
    unfold strFld
    split
    · exact (State.rd_wr_other _ _ _ _ _ _ (by decide)).trans (State.rd_wr_self _ _ _ _ _ (by decide))
    · exact (State.rd_wr_other _ _ _ _ _ _ (by decide)).trans (State.rd_wr_self _ _ _ _ _ (by decide))
  · rw [rd_of_regs hregs]
    unfold strFld
    split
    · exact State.rd_wr_self _ _ _ _ _ (by decide)
    · exact State.rd_wr_self _ _ _ _ _ (by decide)
  · refine (SameRegs.wrs (.refl u _) fun x hx => ?_).trans (.of_eq hregs)
    simp only [List.mem_cons, List.not_mem_nil, or_false] at hx
    obtain rfl | rfl := hx
    · exact ⟨rfl, rfl, rfl⟩
    · exact ⟨by unfold strFld; split <;> rfl, rfl, rfl⟩

/-- Settles O18: the effect of a COPY step by step, and the trap that misalignment meets first. -/
theorem copiesIssueOrTrap : Obligations.CopiesIssueOrTrap := ⟨copyIssues, streamTraps⟩

end Sys2Proof.Proofs
end

section
/-! PROOF. Rows of the vector engine at the gating stage (R136 to R139). -/

namespace Sys2Proof.Proofs

open Sys2Proof Sys2Proof.Machine

/-! ### What the writing of a row leaves -/

section
variable {γ : Type} (f : State → γ) (s : State) (a : Nat) (y : VRow)

/-- What every line, word and entry written leaves as it was, the row's writing leaves. -/
theorem writeRow_keeps (h1 : ∀ (s : State) l x, f (s.putLine a l x) = f s) (h2 : ∀ (s : State) x w p, f (s.putWord x w p) = f s)
    (h3 : ∀ (s : State) q e, f (s.qFill a q e) = f s) : f (s.writeRow a y) = f s := by
  have hpad : ∀ (s : State) off l, f (s.putPadWords a off l) = f s := fun s off l => foldl_keep f _ (fun s _ => h2 s _ _ _) _ s
  have hsc : ∀ (s : State) d r sc p, f (s.putScales a d r sc p) = f s := by
    intro s d r sc p
    unfold State.putScales
    split
    · exact h1 ..
    · rfl
  unfold State.writeRow
  dsimp only
  split
  · exact h1 ..
  · exact h1 ..
  · split
    · rw [h1, h1]
    · exact h1 ..
  · split
    · rw [hpad, hpad]
    · exact hpad ..
  · split
    · exact foldl_keep f _ (fun s e => h3 s _ e) _ s
    · rw [hsc, h1]

theorem vecCredits_keeps (h : ∀ (s : State) l, f { s with credNext := l } = f s) : f (s.vecCredits a y) = f s := by
  unfold State.vecCredits
  dsimp only
  split
  · split
    · exact foldl_keep f _ (fun s _ => h s _) _ s
    · exact foldl_keep f _ (fun s _ => h s _) _ s
    · rfl
  · rfl

end

theorem putWord_keeps {γ : Type} (f : State → γ) (h : ∀ s w b, f (State.setPois s w b) = f s) (k : ∀ s n b, f (State.putByte s n b) = f s)
    (s : State) (x : Nat) (w : Word) (p : Bool) : f (s.putWord x w p) = f s := (h _ _ _).trans (putRaw_keeps f k s x _)

section
variable (s : State) (a : Nat) (y : VRow)

/-- The row written, its referee's note made. -/
def rowWritten : State := (s.refRow a y).writeRow a y

/-- A row written leaves what no line, word or entry holds. -/
theorem rowWritten_keeps {γ : Type} (f : State → γ) (h0 : ∀ s g, f (State.modHut s g) = f s) (h1 : ∀ (s : State) l x, f (s.putLine a l x) = f s)
    (h2 : ∀ s w b, f (State.setPois s w b) = f s) (h3 : ∀ s n b, f (State.putByte s n b) = f s)
    (h4 : ∀ (s : State) q e, f (s.qFill a q e) = f s) : f (rowWritten s a y) = f s :=
  (writeRow_keeps f _ a y h1 (putWord_keeps f h2 h3) h4).trans (h0 _ _)

theorem regs_rowWritten : (rowWritten s a y).regs = s.regs := by
  refine rowWritten_keeps s a y State.regs ?_ ?_ ?_ ?_ ?_ <;> intros <;> rfl

theorem counters_rowWritten : (rowWritten s a y).counters = s.counters := by
  refine rowWritten_keeps s a y State.counters ?_ ?_ ?_ ?_ ?_ <;> intros <;> rfl

theorem pipe_rowWritten : ((rowWritten s a y).vec a).pipe = (s.vec a).pipe := by
  refine rowWritten_keeps s a y (fun s => (s.vec a).pipe) (fun _ _ => rfl) (fun s l x => ?_) (fun _ _ _ => rfl) (fun _ _ _ => rfl) fun s q e => ?_
  · exact (congrArg VecX.pipe (State.vec_modVec_same s a (fun v => { v with cache := aput v.cache l x })) :)
  · exact congrArg VecX.pipe (State.vec_modQueue ..)

/-! ### A row that passes -/

theorem word_raiseVec (fl : Nat) : (s.raiseVec a fl).word .VEC_FLAGS a 0 = s.word .VEC_FLAGS a 0 ||| BitVec.ofNat 64 (fl % 512) := by
  unfold State.raiseVec
  split
  · next h => rw [h]; exact (BitVec.or_zero ..).symm
  · exact State.word_setWord_same ..

theorem regs_raiseVec (fl : Nat) : SameRegs s (s.raiseVec a fl) (oneReg .VEC_FLAGS a 0) := by
  unfold State.raiseVec
  split
  · exact .refl _ _
  · exact .note (.refl _ _) _ ⟨rfl, rfl, rfl⟩

/-- What a note of flags, a count and credits leave. -/
theorem raiseVec_keeps {γ : Type} (f : State → γ) (h : ∀ (s : State) r a i g, f (s.note r a i g) = f s) (fl : Nat) : f (s.raiseVec a fl) = f s := by
  unfold State.raiseVec
  split
  · rfl
  · exact h ..

/-- The row written leaves the pipe, its flags raised and itself counted. -/
def passed : State :=
  (((s.raiseVec a y.flags).count C.VEC_CNT_ROWS a).modVec a (fun v => { v with pipe := v.pipe.drop 1 })).vecCredits a y

theorem rowPasses_eq : s.rowPasses a y = passed (rowWritten s a y) a y := rfl

theorem regs_passed : (passed s a y).regs = (s.raiseVec a y.flags).regs := vecCredits_keeps State.regs _ a y fun _ _ => rfl

theorem vec_passed : (passed s a y).vec a = { s.vec a with pipe := (s.vec a).pipe.drop 1 } := by
  have e : ((s.raiseVec a y.flags).count C.VEC_CNT_ROWS a).vec a = s.vec a := raiseVec_keeps s a (fun s => s.vec a) (fun _ _ _ _ _ => rfl) _
  rw [passed, vecCredits_keeps (fun s => s.vec a) _ a y fun _ _ => rfl, State.vec_modVec_same, e]

theorem ctr_passed : (passed s a y).ctr C.VEC_CNT_ROWS a = (s.ctr C.VEC_CNT_ROWS a + 1) % 2 ^ 48 := by
  rw [passed, vecCredits_keeps (fun s => s.ctr C.VEC_CNT_ROWS a) _ a y fun _ _ => rfl]
  refine (State.ctr_count_same ..).trans ?_
  rw [raiseVec_keeps s a (fun s => s.ctr C.VEC_CNT_ROWS a) fun _ _ _ _ _ => rfl]

theorem mems_passed : mems (passed s a y) = mems s := by simp [passed]

/-- The row leaves the pipe, its flags raised and itself counted (R135). -/
theorem rowPasses_keeps : let t := s.rowPasses a y
    (t.vec a).pipe = (s.vec a).pipe.drop 1 ∧ t.word .VEC_FLAGS a 0 = s.word .VEC_FLAGS a 0 ||| BitVec.ofNat 64 (y.flags % 512) ∧
    t.ctr C.VEC_CNT_ROWS a = (s.ctr C.VEC_CNT_ROWS a + 1) % 2 ^ 48 ∧ SameRegs s t (oneReg .VEC_FLAGS a 0) := by
  have hr := regs_rowWritten s a y
  have hc := counters_rowWritten s a y
  have hp := pipe_rowWritten s a y
  rw [rowPasses_eq]
  generalize rowWritten s a y = w at hr hc hp ⊢
  refine ⟨?_, ?_, ?_, ?_⟩
  · rw [vec_passed, ← hp]
  · rw [State.word_congr (regs_passed ..), word_raiseVec, State.word_congr hr]
  · rw [ctr_passed, State.ctr, hc, State.ctr]
  · exact (SameRegs.of_eq hr).trans ((regs_raiseVec w a y.flags).trans (.of_eq (regs_passed ..)))

end

/-! ### What a row writes -/

/-- A line without stored errors is delivered as it stands (R342). -/
theorem Line.decode_clean (x : Line) (h : x.synd = 0) : x.decode = x := by
  obtain ⟨bits, poison, synd⟩ := x
  cases h
  simp [Line.decode, decodeSpan]

theorem line_putLine (s : State) (a l : Nat) (x : Line) (h : x.synd = 0) : ((s.putLine a l x).vec a).line l = x := by
  have e : (s.putLine a l x).vec a = { s.vec a with cache := aput (s.vec a).cache l x } := State.vec_modVec_same ..
  rw [e, VecX.line, VecX.rawLine, aget_aput_same]
  exact Line.decode_clean x h

/-- A VOP's row goes to its line under the lane mask (R135). -/
theorem rowWritten_vop (s : State) (a : Nat) (y : VRow) {o : VopOps} (hi : y.instr.instr = .vop o) (hq : vIsQueue y.instr.dst = false)
    (hs : y.scales = []) : rowWritten s a y = (s.refRow a y).putLine a (vRowLine y.instr.dst y.row)
      (writeLine (vFmt y.instr.dst) (s.laneMask a o.lmask.toNat) ((s.vec a).line (vRowLine y.instr.dst y.row)) y.elems) := by
  unfold rowWritten State.writeRow
  dsimp only
  rw [hi]
  dsimp only
  rw [hq, hs]
  rfl

/-! ### Words of memory -/

/-- The word that little-endian bytes spell (R15). -/
theorem foldr_leBytes (n v : Nat) (hn : n ≤ 8) :
    (leBytes v n).foldr (fun (b : Byte) (w : Word) => (w <<< 8) ||| b.setWidth 64) 0 = BitVec.ofNat 64 (v % 256 ^ n) := by
  induction n generalizing v with
  | zero => simp [leBytes, Nat.mod_one]
  | succ n ih =>
    rw [leBytes, List.foldr_cons, ih (v / 256) (by omega)]
    have hlt : v / 256 % 256 ^ n < 2 ^ 56 := by
      have h1 := Nat.mod_lt (v / 256) (show 0 < 256 ^ n by positivity)
      have h2 : 256 ^ n ≤ 256 ^ 7 := Nat.pow_le_pow_right (by decide) (by omega)
      have h3 : (256 : Nat) ^ 7 = 2 ^ 56 := by decide
      omega
    have e : v % 256 ^ (n + 1) = 256 * (v / 256 % 256 ^ n) + v % 256 := by
      rw [Nat.pow_succ', Nat.mod_mul]; omega
    rw [e]
    generalize v / 256 % 256 ^ n = q at hlt
    apply BitVec.eq_of_toNat_eq
    have hb : v % 256 < 2 ^ 8 := Nat.mod_lt _ (by decide)
    simp only [BitVec.toNat_or, BitVec.toNat_shiftLeft, BitVec.toNat_ofNat, BitVec.toNat_setWidth, Nat.shiftLeft_eq]
    rw [Nat.mod_eq_of_lt (a := q) (by omega), Nat.mod_eq_of_lt (a := q * 2 ^ 8) (by omega), Nat.mod_eq_of_lt (a := v % 2 ^ 8) (by omega),
      ← Nat.shiftLeft_eq, ← Nat.shiftLeft_add_eq_or_of_lt (by omega), Nat.shiftLeft_eq]
    omega

theorem length_leBytes (v n : Nat) : (leBytes v n).length = n := by
  induction n generalizing v with
  | zero => rfl
  | succ n ih => rw [leBytes, List.length_cons, ih]

/-- The word at an address whose bytes are those of a word. -/
theorem word64_of_bytes (s : State) (x : Nat) (w : Word) (h : ∀ i (hi : i < 8), s.byte (x + i) = (leBytes w.toNat 8)[i]'(by rw [length_leBytes]; exact hi)) :
    s.word64 x = w := by
  have e : s.bytes x 8 = leBytes w.toNat 8 := by
    apply List.ext_getElem
    · simp [State.bytes, length_leBytes]
    · intro i h1 h2
      rw [length_leBytes] at h2
      simpa [State.bytes] using h i h2
  rw [State.word64, e, foldr_leBytes 8 _ (le_refl _)]
  have : w.toNat % 256 ^ 8 = w.toNat := Nat.mod_eq_of_lt (by have := w.isLt; omega)
  rw [this, BitVec.ofNat_toNat, BitVec.setWidth_eq]

theorem byte_putWord_out (s : State) (x : Nat) (w : Word) (p : Bool) (y : Nat) (h : y < x ∨ x + 8 ≤ y) : (s.putWord x w p).byte y = s.byte y := by
  rw [State.putWord, State.byte_setPois, State.byte_putRaw_out _ _ _ _ (by rw [length_leBytes]; exact h)]

theorem word64_putWord (s : State) (x : Nat) (w : Word) (p : Bool) (h : mcanon 0 s.mem = true) : (s.putWord x w p).word64 x = w :=
  word64_of_bytes _ _ _ fun i hi => by
    rw [State.putWord, State.byte_setPois, State.byte_putRaw_in _ _ _ _ (by rw [length_leBytes]; exact hi) h]

theorem word64_congr {s t : State} (x : Nat) (h : ∀ i, i < 8 → t.byte (x + i) = s.byte (x + i)) : t.word64 x = s.word64 x := by
  have e : t.bytes x 8 = s.bytes x 8 := List.map_congr_left fun i hi => h i (List.mem_range.mp hi)
  rw [State.word64, e, State.word64]

theorem mcanon_putWord (s : State) (x : Nat) (w : Word) (p : Bool) (h : mcanon 0 s.mem = true) : mcanon 0 (s.putWord x w p).mem = true := by
  have e : ∀ (l : List Byte) (s : State) (x : Nat), mcanon 0 s.mem = true → mcanon 0 (s.putRaw x l).mem = true := by
    intro l
    induction l with
    | nil => exact fun _ _ h => h
    | cons b l ih => exact fun s x h => ih _ _ (mcanon_mput 0 _ _ _ h)
  exact e _ s x h

/-- The words of a row stand in the scratchpad, and nothing around them changes (R133). -/
theorem putPadWords_words (s : State) (a off : Nat) (l : List (Nat × Bool)) (h : mcanon 0 s.mem = true) :
    let t := s.putPadWords a off l
    let x := padAddr a off
    mcanon 0 t.mem = true ∧ (∀ k (hk : k < l.length), t.word64 (x + 8 * k) = BitVec.ofNat 64 l[k].1) ∧
    (∀ z, z < x ∨ x + 8 * l.length ≤ z → t.byte z = s.byte z) := by
  intro t x
  induction l using List.reverseRecOn with
  | nil => exact ⟨h, fun k hk => absurd hk (Nat.not_lt_zero k), fun _ _ => rfl⟩
  | append_singleton l e ih =>
    obtain ⟨h1, h2, h3⟩ := ih
    have et : t = (s.putPadWords a off l).putWord (x + 8 * l.length) (BitVec.ofNat 64 e.1) e.2 := by
      simp only [t, State.putPadWords]
      rw [List.length_append, List.length_singleton, List.range_succ, List.zip_append (by simp), List.foldl_append]
      rfl
    rw [et]
    refine ⟨mcanon_putWord _ _ _ _ h1, fun k hk => ?_, fun z hz => ?_⟩
    · rw [List.length_append, List.length_singleton] at hk
      by_cases hkl : k < l.length
      · rw [word64_congr (s := s.putPadWords a off l) _ fun i hi => byte_putWord_out _ _ _ _ _ (by omega), h2 k hkl,
          List.getElem_append_left hkl]
      · obtain rfl : k = l.length := by omega
        rw [word64_putWord _ _ _ _ h1, List.getElem_concat_length]
        rfl
    · rw [List.length_append, List.length_singleton] at hz
      rw [byte_putWord_out _ _ _ _ _ (by omega), h3 z (by omega)]

/-- A VST's row goes to its place in the scratchpad (R133). -/
theorem rowWritten_vst (s : State) (a : Nat) (y : VRow) {o : VmemOps} (hi : y.instr.instr = .vst o)
    (hl : y.elems.length = fmtWidth (vFmt y.instr.s1)) :
    rowWritten s a y = (s.refRow a y).putPadWords a (64 * (o.sbase.toNat + y.row * o.spitch.toNat)) y.elems := by
  unfold rowWritten State.writeRow
  dsimp only
  rw [hi]
  dsimp only
  rw [← hl, if_neg (Nat.lt_irrefl _), List.take_length]

/-! ### The gating stage -/

/-- The oldest row at the gating stage, neither held nor early. -/
theorem execVectorRowGating_due {s : State} {p : At} {m : List LaneUpset} {y : VRow} {l : List VRow} :
    let a := p.site.toNat
    let v := s.at_ p.t.toNat
    s.engineOn a = true → s.reaches p.t.toNat = true → (s.vec a).pipe = y :: l → v.vecHeld a = false → y.entered + 5 ≤ v.cycle →
    execVectorRowGating p m s = .next (if !rowChecked y.instr.instr then v.rowPasses a y
      else if m.any y.laneFails then v.rowMismatch a { y with got := y.met m }
      else (if y.replay then v.count C.VEC_CNT_REPLAY a else v).rowPasses a { y with got := y.met m, elems := y.met m }) := by
  intro a v he hr hp hh ht
  have hv : v.vec a = s.vec a := State.vec_congr (s.at_sites _) a
  rw [execVectorRowGating, atEngine_on _ he hr]
  change Host.Outcome.next (match (v.vec a).pipe with
    | [] => v
    | y :: _ => if v.vecHeld a || decide (v.cycle < y.entered + 5) then v
      else if !rowChecked y.instr.instr then v.rowPasses a y
      else if m.any y.laneFails then v.rowMismatch a { y with got := y.met m }
      else (if y.replay then v.count C.VEC_CNT_REPLAY a else v).rowPasses a { y with got := y.met m, elems := y.met m }) = _
  rw [hv, hp]
  dsimp only
  rw [if_neg]
  simp only [hh, Bool.false_or, decide_eq_true_eq]
  omega

/-- What the gating stage asks of a row that passes, with the elements it puts out (R135). -/
theorem passes_gate {s v w : State} {a : Nat} {y z : VRow} {l : List VRow} (hws : w.sites = s.sites) (hwr : w.regs = v.regs)
    (hwm : mems w = mems s) (hwc : w.ctr C.VEC_CNT_ROWS a = v.ctr C.VEC_CNT_ROWS a)
    (hp : (s.vec a).pipe = y :: l) (hz : z = { y with got := z.got, elems := z.elems }) :
    let t := w.rowPasses a z
    (t.vec a).pipe = l ∧ t.word .VEC_FLAGS a 0 = v.word .VEC_FLAGS a 0 ||| BitVec.ofNat 64 (y.flags % 512) ∧
    t.ctr C.VEC_CNT_ROWS a = (v.ctr C.VEC_CNT_ROWS a + 1) % 2 ^ 48 ∧ SameRegs v t (oneReg .VEC_FLAGS a 0) ∧
    (∀ o, y.instr.instr = .vop o → vIsQueue y.instr.dst = false → y.scales = [] →
      (t.vec a).line (vRowLine y.instr.dst y.row) = writeLine (vFmt y.instr.dst) (v.laneMask a o.lmask.toNat)
        ((s.vec a).line (vRowLine y.instr.dst y.row)) z.elems ∧ SameMem s t) ∧
    (∀ o, y.instr.instr = .vst o → z.elems.length = fmtWidth (vFmt y.instr.s1) → mcanon 0 s.mem = true →
      (let x := padAddr a (64 * (o.sbase.toNat + y.row * o.spitch.toNat))
       (∀ k (h : k < z.elems.length), t.word64 (x + 8 * k) = BitVec.ofNat 64 z.elems[k].1) ∧
       (∀ q, q < x ∨ x + 8 * z.elems.length ≤ q → t.byte q = s.byte q))) := by
  have hi : z.instr = y.instr := by rw [hz]
  have hr : z.row = y.row := by rw [hz]
  have hsc : z.scales = y.scales := by rw [hz]
  have hf : z.flags = y.flags := by rw [hz]
  have hvec : w.vec a = s.vec a := State.vec_congr hws a
  have hmask : ∀ n, w.laneMask a n = v.laneMask a n := fun n => by rw [State.laneMask, State.word_congr hwr, State.laneMask]
  obtain ⟨h1, h2, h3, h4⟩ := rowPasses_keeps w a z
  have hbyte : ∀ q, (w.rowPasses a z).byte q = (rowWritten w a z).byte q := fun q => byte_congr (mems_passed ..) q
  refine ⟨?_, ?_, ?_, (SameRegs.of_eq hwr).trans h4, fun o ho hq hs => ⟨?_, ?_⟩, fun o ho hl hc => ⟨fun k hk => ?_, fun q hq => ?_⟩⟩
  · rw [h1, hvec, hp]; rfl
  · rw [h2, hf, State.word_congr hwr]
  · rw [h3, hwc]
  · have e := rowWritten_vop w a z (hi ▸ ho) (hi ▸ hq) (hsc ▸ hs)
    rw [hi, hr, hmask, hvec] at e
    have hv : ∀ k, (((w.rowPasses a z).vec a).line k) = (((rowWritten w a z).vec a).line k) := fun k => by
      rw [rowPasses_eq, vec_passed]; rfl
    rw [hv, e]
    exact line_putLine _ _ _ _ rfl
  · refine .of_mems ((mems_passed (rowWritten w a z) a z).trans ?_)
    rw [rowWritten_vop w a z (hi ▸ ho) (hi ▸ hq) (hsc ▸ hs)]
    exact hwm
  · obtain ⟨-, k2, -⟩ := putPadWords_words (w.refRow a z) a (64 * (o.sbase.toNat + y.row * o.spitch.toNat)) z.elems
      (by have e : w.mem = s.mem := congrArg Prod.fst hwm
          exact (congrArg (mcanon 0) e).trans hc)
    rw [word64_congr _ fun i _ => hbyte _, rowWritten_vst w a z (hi ▸ ho) (hi ▸ hl), hr]
    exact k2 k hk
  · obtain ⟨-, -, k3⟩ := putPadWords_words (w.refRow a z) a (64 * (o.sbase.toNat + y.row * o.spitch.toNat)) z.elems
      (by have e : w.mem = s.mem := congrArg Prod.fst hwm
          exact (congrArg (mcanon 0) e).trans hc)
    rw [hbyte, rowWritten_vst w a z (hi ▸ ho) (hi ▸ hl), hr, k3 q hq]
    exact byte_congr hwm q

/-- The pipe after a replay: everything six cycles later, its head to be judged again (R138). -/
def replayed (now : Nat) (x : VecX) : VecX :=
  { x.delay now 6 with pipe := ((x.delay now 6).pipe.map (fun z => { z with entered := z.entered + 6 })).modifyHead (fun z => { z with replay := true }) }

/-- The first mismatch of a pitch, no operand poisoned, makes the row run again (R138). -/
theorem rowMismatch_replays (v : State) (a : Nat) (y : VRow) (hp : y.poisonIn = false) (hr : y.replay = false)
    (h0 : v.rd F.VEC_STATUS_REPLAY_SPENT a = 0) :
    let t := v.rowMismatch a y
    t.rd F.VEC_STATUS_REPLAY_SPENT a = 1 ∧ t.vec a = replayed v.cycle (v.vec a) ∧ Frame v t (oneReg .VEC_STATUS a 0) := by
  intro t
  have e : t = ((v.wr F.VEC_STATUS_REPLAY_SPENT a 0 1).count C.VEC_CNT_BUSY a ((v.wr F.VEC_STATUS_REPLAY_SPENT a 0 1).vec a).pipe.length).modVec a
      (replayed v.cycle) := by
    simp only [t, State.rowMismatch, hp, hr, h0, Bool.false_eq_true, if_false, Bool.false_or]
    rfl
  rw [e]
  refine ⟨State.rd_wr_self _ F.VEC_STATUS_REPLAY_SPENT a 0 1 (by decide), State.vec_modVec_same .., ?_⟩
  exact (Frame.wr v 1 (f := F.VEC_STATUS_REPLAY_SPENT) ⟨rfl, rfl, rfl⟩).congr rfl rfl rfl

/-- Settles O15: a row that passes, checked or not, and the replay of one that fails. -/
theorem vectorRowsPassTheGate : Obligations.VectorRowsPassTheGate := by
  intro s p m y l a v he hr hp hh ht es
  have hrun := execVectorRowGating_due (m := m) he hr hp hh ht
  have hvm : mems v = mems s := by simp [v]
  refine ⟨fun hok => ?_, fun hbad hchk hpo hre hsp => ?_⟩
  · by_cases hchk : rowChecked y.instr.instr = true
    · have hany : m.any y.laneFails = false := by rw [hchk, Bool.true_and] at hok; exact hok
      have hes : es = y.met m := if_pos hchk
      rw [hchk, hany] at hrun
      refine .next hrun ?_
      rw [hes]
      generalize hw : (if y.replay then v.count C.VEC_CNT_REPLAY a else v) = w
      have h := passes_gate (s := s) (v := v) (w := w) (a := a) (y := y) (z := { y with got := y.met m, elems := y.met m }) (l := l)
        (by rw [← hw]; split <;> exact s.at_sites _) (by rw [← hw]; split <;> rfl) (by rw [← hw]; split <;> exact hvm)
        (by rw [← hw]; split
            · exact State.ctr_count_ne _ (c := C.VEC_CNT_REPLAY) (c' := C.VEC_CNT_ROWS) _ (Ctr.site_ne a (by decide))
            · rfl) hp rfl
      obtain ⟨h1, h2, h3, h4, h5, -⟩ := h
      refine ⟨h1, h2, h3, h4, h5, fun o ho => ?_⟩
      rw [ho] at hchk
      cases hchk
    · rw [Bool.not_eq_true] at hchk
      have hes : es = y.elems := if_neg (by rw [hchk]; exact Bool.false_ne_true)
      rw [hchk] at hrun
      rw [hes]
      exact .next hrun (passes_gate (s := s) (v := v) (w := v) (z := y) (s.at_sites _) rfl hvm rfl hp rfl)
  · rw [hchk, hbad] at hrun
    refine .next (t := v.rowMismatch a { y with got := y.met m }) hrun ?_
    obtain ⟨h1, h2, h3⟩ := rowMismatch_replays v a { y with got := y.met m } hpo hre hsp
    rw [State.vec_congr (s.at_sites _) a] at h2
    have h4 : ((v.rowMismatch a { y with got := y.met m }).vec a).pipe = ({ y with entered := y.entered + 6, replay := true } : VRow) ::
        l.map (fun z => { z with entered := z.entered + 6 }) := by
      rw [h2]
      change ((s.vec a).pipe.map _).modifyHead _ = _
      rw [hp]
      rfl
    refine ⟨h1, ?_, ?_, (congrArg VecX.cache h2 :), h3⟩
    · exact congrArg (fun q => q.head?.map VRow.replay) h4
    · exact (congrArg List.length h4).trans (by simp)

end Sys2Proof.Proofs
end

section
/-! PROOF. Requests of COPYs, their service and completion, and the end of programs (chapter 06). -/

namespace Sys2Proof.Proofs

open Sys2Proof Sys2Proof.Machine

/-! ### What grants and flits leave -/

section
variable {γ : Type} (f : State → γ) (s : State)

/-- What counts and arbiters leave as they were, a grant leaves. -/
theorem take_keeps (hc : ∀ (s : State) c b n, f (s.count c b n) = f s) (ha : ∀ (s : State) l, f { s with arbs := l } = f s)
    (k : ArbKey) (r n : Nat) : f (s.take k r n) = f s := by
  have hr : ∀ (s : State) m, f (s.countRefusals k m) = f s := by
    intro s m
    unfold State.countRefusals
    split
    · exact hc ..
    · rfl
  unfold State.take
  dsimp only
  rw [ha]
  split
  · exact hr ..
  · rfl

theorem refuse_keeps (ha : ∀ (s : State) l, f { s with arbs := l } = f s) (k : ArbKey) (r : Nat) : f (s.refuse k r) = f s := by
  unfold State.refuse
  dsimp only
  split
  · rfl
  · exact ha ..

theorem askAll_keeps (hc : ∀ (s : State) c b n, f (s.count c b n) = f s) (ha : ∀ (s : State) l, f { s with arbs := l } = f s)
    (l : List Ask) : f (s.askAll l).2 = f s := by
  unfold State.askAll
  split
  · exact foldl_keep f _ (fun s (x : Ask) => take_keeps f s hc ha x.key x.who x.n) l s
  · exact foldl_keep f _ (fun s (x : Ask) => refuse_keeps f s ha x.key x.who) _ s

/-- The counters of flits and control messages on links (Table 07-14). -/
def linkCtrs : List Ctr := [C.TRV_CNT_DATA, C.TRV_CNT_SVC, C.TRV_CNT_CTRL, C.TRV_CNT_DEADDROP]

/-- What these counts and a site's links leave as they were, a flit sent leaves. -/
theorem launchAt_keeps {a : Nat} {d : Dir} (hc : ∀ (s : State) c b n, c ∈ linkCtrs → f (s.count c b n) = f s)
    (hl : ∀ (s : State) g, f (s.modLink a d.num g) = f s) (t : Nat) (x : Flit) : f (s.launchAt a d t x) = f s := by
  have hcf : ∀ (s : State) k n, f (s.countFlits a k n) = f s := by
    intro s k n
    unfold State.countFlits
    split
    · exact hc _ _ _ _ (by decide)
    · split
      · exact hc _ _ _ _ (by decide)
      · rfl
  unfold State.launchAt
  dsimp only
  rw [hl]
  split
  · rfl
  · exact hcf ..

theorem drain_keeps {a : Nat} {d : Dir} (hc : ∀ (s : State) c b n, c ∈ linkCtrs → f (s.count c b n) = f s)
    (hl : ∀ (s : State) g, f (s.modLink a d.num g) = f s) : f (s.drain a d) = f s := by
  unfold State.drain
  dsimp only
  split
  · rfl
  · exact (foldl_keep f _ (fun s (x : TimedFlit) => launchAt_keeps f s hc hl _ x.flit) _ _).trans (hl ..)

theorem sendOn_keeps {a : Nat} {d : Dir} (hc : ∀ (s : State) c b n, c ∈ linkCtrs → f (s.count c b n) = f s)
    (hl : ∀ (s : State) g, f (s.modLink a d.num g) = f s) (x : Flit) : f (s.sendOn a d x) = f s := by
  unfold State.sendOn
  split
  · rfl
  · split
    · exact launchAt_keeps f s hc hl _ x
    · exact (hl ..).trans (drain_keeps f s hc hl)

theorem inject_keeps {a : Nat} (hc : ∀ (s : State) c b n, f (s.count c b n) = f s) (hl : ∀ (s : State) k g, f (s.modLink a k g) = f s)
    (q : Nat) (x : Flit) (n : Nat) : f (s.inject a q x n) = f s := by
  unfold State.inject
  exact (hl ..).trans (sendOn_keeps f s (fun s c b n _ => hc s c b n) (fun s g => hl s _ g) _)

theorem laneSend_keeps {a : Nat} (hc : ∀ (s : State) c b n, f (s.count c b n) = f s) (ha : ∀ (s : State) l, f { s with arbs := l } = f s)
    (hl : ∀ (s : State) k g, f (s.modLink a k g) = f s) (hq : ∀ (s : State) k g, f (s.modQueue a k g) = f s) (q k : Nat) :
    f (s.laneSend a q k) = f s := by
  have h : ∀ x : Flit, f ((((s.take (.lanes a q) 1 0).take (.streamLane a q) k 0)).inject a q x 0) = f s := fun x =>
    (inject_keeps f _ hc hl q x 0).trans ((take_keeps f _ hc ha _ _ _).trans (take_keeps f _ hc ha _ _ _))
  unfold State.laneSend
  extract_lets c x s1 hd s2
  have h2 : f s2 = f s := h _
  split
  · exact h2
  · exact (hq ..).trans h2

end

/-! ### A request made -/

/-- The next request of the program's COPY `c`. -/
def requestOf (c : CopyX) : NextReq := ⟨c, c.src + c.next, c.dst + c.next, nextReqLen c⟩

theorem extAt_requestOf (c : CopyX) : ((requestOf c).extAt).isSome = (inExt (c.src + c.next) || inExt (c.dst + c.next)) := by
  unfold NextReq.extAt
  change (if inExt (c.src + c.next) then _ else if inExt (c.dst + c.next) then _ else none : Option Nat).isSome = _
  cases inExt (c.src + c.next)
  · cases inExt (c.dst + c.next) <;> rfl
  · rfl

theorem strActive_at (s : State) (t a n : Nat) : (s.at_ t).strActive a n = s.strActive a n := by
  unfold State.strActive State.isPf
  rw [State.at_running, State.at_rd _ _ (by decide)]

/-- The program asks for the next part of its oldest COPY with bytes left (R189, R192). -/
theorem nextReq_copy {u : State} {a n : Nat} {c : CopyX} (h1 : u.strActive a n = true)
    (h2 : (u.str a n).copies.find? (fun c => decide (c.next < c.len)) = some c) (h3 : (u.str a n).reqAt ≠ some u.cycles)
    (h4 : u.reqLimit a n (inExt (c.src + c.next) || inExt (c.dst + c.next)) = false)
    (h5 : ∀ r ∈ (u.str a n).reqs, ¬ (c.dst + c.next < r.dst + r.len ∧ r.dst < c.dst + c.next + nextReqLen c)) :
    u.nextReq a n = some (requestOf c) := by
  unfold State.nextReq
  dsimp only
  rw [h1, if_neg (by simpa using h3), h2]
  dsimp only
  refine if_neg ?_
  change ¬ (u.reqLimit a n ((requestOf c).extAt.isSome) || _) = true
  rw [extAt_requestOf, h4, Bool.false_or, List.any_eq_true]
  rintro ⟨r, hr, ho⟩
  refine h5 r hr ?_
  simpa [overlaps] using ho

/-- A request has a number that none outstanding has, while fewer than 32 are (R189). -/
theorem freeNumber {l : List Req} (h : l.length < 32) :
    ∀ q ∈ l, q.num ≠ ((List.range 32).find? (fun k => !l.any (fun y => y.num == k))).getD 0 := by
  have hex : ∃ k ∈ List.range 32, (!l.any (fun y => y.num == k)) = true := by
    by_contra hn
    push Not at hn
    have hsub : List.range 32 ⊆ l.map Req.num := by
      intro k hk
      have := hn k hk
      simp only [Bool.not_eq_true, Bool.not_eq_false', List.any_eq_true, beq_iff_eq] at this
      obtain ⟨y, hy, rfl⟩ := this
      exact List.mem_map_of_mem hy
    have := (List.nodup_range (n := 32)).subperm hsub |>.length_le
    simp at this
    omega
  cases e : (List.range 32).find? (fun k => !l.any (fun y => y.num == k)) with
  | none =>
    obtain ⟨k, hk, h1⟩ := hex
    exact absurd h1 (List.find?_eq_none.mp e k hk)
  | some k =>
    intro q hq hqk
    have := List.find?_some e
    simp only [Bool.not_eq_true', List.any_eq_false, beq_iff_eq] at this
    exact this q hq hqk

theorem nextReqLen_bounds (c : CopyX) (h : c.next < c.len) : 0 < nextReqLen c ∧ nextReqLen c ≤ 256 ∧ c.next + nextReqLen c ≤ c.len ∧
    (c.src + c.next) / 256 = (c.src + c.next + nextReqLen c - 1) / 256 ∧ (c.dst + c.next) / 256 = (c.dst + c.next + nextReqLen c - 1) / 256 := by
  unfold nextReqLen
  omega

/-- The program's part with its next request made. -/
theorem str_putReq (v : State) (a n : Nat) (c : CopyX) (out : Nat) : ∃ now, (v.putReq a n (requestOf c) out).2.str a n = { v.str a n with
    reqs := List.append (v.str a n).reqs [⟨(v.putReq a n (requestOf c) out).1, c.gen, c.next, c.src + c.next, c.dst + c.next, nextReqLen c,
      (requestOf c).extAt.isSome, c.remote, false, out, 0⟩]
    copies := (v.str a n).copies.map (fun y => if y.gen = c.gen then { y with next := y.next + nextReqLen c } else y)
    reqAt := now } := ⟨some v.cycles, State.str_modStr_same ..⟩

theorem requestMade {s v t : State} {a n out : Nat} {c : CopyX} (hv : v.str a n = s.str a n)
    (ht : t.str a n = (v.putReq a n (requestOf c) out).2.str a n) (hl : (s.str a n).reqs.length < 32) (hc : c.next < c.len) :
    RequestMade s t a n c := by
  obtain ⟨now, e⟩ := str_putReq v a n c out
  rw [hv] at e
  have h := Eq.trans ht e
  clear e ht
  obtain ⟨h1, h2, h3, h4, h5⟩ := nextReqLen_bounds c hc
  have hn : ∀ q ∈ (s.str a n).reqs, q.num ≠ (v.putReq a n (requestOf c) out).1 := by
    have h := freeNumber hl
    rw [← hv] at h ⊢
    exact h
  refine ⟨⟨_, (congrArg StrX.reqs h :), rfl, rfl, rfl, h1, h2, h3, h4, h5, rfl, rfl, hn⟩, ?_, (congrArg StrX.pc h :)⟩
  rw [(congrArg StrX.copies h :), List.map_map]
  refine List.map_congr_left fun y _ => ?_
  change CopyX.next (if y.gen = c.gen then _ else y) = _
  split <;> rfl

/-- What a request leaves beyond its program. -/
theorem putReq_keeps {u v : State} (a n : Nat) (r : NextReq) (out : Nat) (hr : v.regs = u.regs) (hm : mems v = mems u)
    (hs : OtherSites u v a) : Frame u (v.putReq a n r out).2 noReg ∧ OtherSites u (v.putReq a n r out).2 a :=
  ⟨⟨.of_mems (by simp [hm]), .of_eq hr⟩, .modSite hs _⟩

theorem reqLimit_length {u : State} {a n : Nat} {e : Bool} (h : u.reqLimit a n e = false) : (u.str a n).reqs.length < 32 := by
  unfold State.reqLimit at h
  simp only [Bool.or_eq_false_iff, decide_eq_false_iff_not] at h
  omega

/-- The stream's grants and flits leave registers, other sites and the program's part. -/
theorem laneSend_quiet (u : State) (a q n k : Nat) : (u.laneSend a q k).regs = u.regs ∧ OtherSites u (u.laneSend a q k) a ∧
    (u.laneSend a q k).str a n = u.str a n :=
  ⟨laneSend_keeps State.regs u (fun _ _ _ _ => rfl) (fun _ _ => rfl) (fun _ _ _ => rfl) (fun _ _ _ => rfl) q k,
    fun b hb => laneSend_keeps (fun s => s.site b) u (fun _ _ _ _ => rfl) (fun _ _ => rfl) (fun s _ _ => s.site_modSite_ne _ hb)
      (fun s _ _ => s.site_modSite_ne _ hb) q k,
    laneSend_keeps (fun s => s.str a n) u (fun _ _ _ _ => rfl) (fun _ _ => rfl) (fun _ _ _ => State.str_modLink ..)
      (fun _ _ _ => State.str_modQueue ..) q k⟩

/-- A request with no flit under way goes as its ends ask (R189). -/
theorem streamRequest_next {u : State} {a n : Nat} {c : CopyX} (h1 : ∀ r ∈ (u.str a n).reqs, r.out = 0)
    (h2 : u.nextReq a n = some (requestOf c)) : streamRequest a n u = match (requestOf c).extAt with
      | some y => u.extRequest a n y (requestOf c)
      | none => if !c.remote then (u.putReq a n (requestOf c)).2
        else if u.streamGrant a (u.dscQn a n) n then ((u.laneSend a (u.dscQn a n) n).putReq a n (requestOf c)
          (laneFlits (!siteHolds a (c.dst + c.next) (nextReqLen c)) (nextReqLen c) - 1)).2
        else u := by
  have h0 : (u.str a n).reqs.find? (fun r => decide (0 < r.out)) = none :=
    List.find?_eq_none.mpr fun r hr => by rw [h1 r hr]; decide
  unfold streamRequest
  dsimp only
  rw [h0, h2]
  rfl

/-- The grants of a Tarn's couloir port and of its half of the couloir. -/
def extGranted (u : State) (a n : Nat) : State :=
  (u.take (.couPort a (u.dscClass a n)) n 1).take (.couHalf (halfOf a).1 (halfOf a).2.1) (halfOf a).2.2 1

/-- A request of a couloir port goes through its half into its channel's queue, last (R25, R196, R268). -/
theorem extRequest_goes {u : State} {a n y ch off : Nat} {r : NextReq} (h1 : u.portChoice a = some n)
    (h2 : u.halfChoice (halfOf a).1 (halfOf a).2.1 = some (halfOf a).2.2) (h3 : u.locate y = .ok ch off)
    (h4 : u.reforming (groupOf y) = false) (h5 : chanHalf ch = (halfOf a).2.1) (h6 : u.chanFull ch = false) :
    u.extRequest a n y r = ((extGranted u a n).putReq a n r).2.chanGrant ch (a, n, ((extGranted u a n).putReq a n r).1) := by
  have e1 : ¬ (u.portChoice a ≠ some n ∨ u.halfChoice (halfOf a).1 (halfOf a).2.1 ≠ some (halfOf a).2.2) := by
    rw [not_or]; exact ⟨not_not_intro h1, not_not_intro h2⟩
  unfold State.extRequest extGranted
  generalize halfOf a = kh at e1 h5
  obtain ⟨k, h, i⟩ := kh
  generalize u.locate y = loc at h3
  subst h3
  dsimp only at e1 h5 ⊢
  rw [if_neg e1, h4, if_neg Bool.false_ne_true, if_pos h5, h6, if_neg Bool.false_ne_true]

/-- A request granted stands last in the channel's queue (R269). -/
theorem chanQueue_chanGrant (v : State) (ch : Nat) (r : Nat × Nat × Nat) (h : v.reqLive r = true) :
    ((v.chanGrant ch r).chanQueue ch).getLast? = some r := by
  have hq : ((v.chanGrant ch r).memc.chan ch).queue = List.append (v.chanQueue ch) [r] := by
    unfold State.chanGrant
    simp only [MemX.chan, aget_aput_same, Option.getD_some]
  unfold State.chanQueue
  rw [hq]
  change (List.filter v.reqLive (v.chanQueue ch ++ [r])).getLast? = some r
  rw [List.filter_append, List.filter_cons_of_pos h]
  simp

theorem chanGrant_quiet (v : State) (ch : Nat) (r : Nat × Nat × Nat) : (v.chanGrant ch r).regs = v.regs ∧ (v.chanGrant ch r).sites = v.sites :=
  ⟨rfl, rfl⟩

theorem extGranted_keeps {γ : Type} (f : State → γ) (u : State) (a n : Nat) (hc : ∀ (s : State) c b n, f (s.count c b n) = f s)
    (ha : ∀ (s : State) l, f { s with arbs := l } = f s) : f (extGranted u a n) = f u := by
  unfold extGranted
  rw [take_keeps f _ hc ha, take_keeps f _ hc ha]

theorem streamRequestsGo : StreamRequestsGo := by
  intro s p c a n u x ext hr ha hout hfind hat hlim hover
  have hx : u.str a n = s.str a n := State.str_congr (s.at_sites _) a n
  have hnext : u.nextReq a n = some (requestOf c) :=
    nextReq_copy (by rw [strActive_at]; exact ha) (by rw [hx]; exact hfind) (by rw [hx]; exact hat) hlim (by rw [hx]; exact hover)
  have hc : c.next < c.len := by simpa using List.find?_some hfind
  have hlen : (s.str a n).reqs.length < 32 := by rw [← hx]; exact reqLimit_length hlim
  have hrun : exec (.streamRequest p) s = .next (streamRequest a n u) := congrArg Host.Outcome.next (if_pos hr)
  rw [streamRequest_next (by rw [hx]; exact hout) hnext] at hrun
  have hnone : ext = false → (requestOf c).extAt = none := fun h => by
    rw [← Option.not_isSome_iff_eq_none, extAt_requestOf]
    exact fun e => Bool.false_ne_true (h.symm.trans e)
  refine ⟨fun he hloc => ?_, fun he hrem hg => ?_, fun ch off he h1 h2 h3 h4 h5 => ?_⟩
  · rw [hnone he, hloc] at hrun
    exact .next hrun ⟨requestMade hx rfl hlen hc, putReq_keeps a n _ 0 rfl rfl (.of_eq rfl)⟩
  · rw [hnone he, hrem, hg] at hrun
    obtain ⟨k1, k2, k3⟩ := laneSend_quiet u a (u.dscQn a n) n n
    exact .next hrun ⟨requestMade (k3.trans hx) rfl hlen hc, putReq_keeps a n _ _ k1 (by simp) k2⟩
  · have hsome : (requestOf c).extAt = some (if inExt (c.src + c.next) then c.src + c.next else c.dst + c.next) := by
      unfold NextReq.extAt
      change (if inExt (c.src + c.next) then _ else if inExt (c.dst + c.next) then _ else none) = _
      by_cases e : inExt (c.src + c.next) = true
      · rw [if_pos e, if_pos e]; rfl
      · have e' : inExt (c.dst + c.next) = true := by
          rw [Bool.not_eq_true] at e
          exact (Bool.or_eq_true _ _ ▸ he : _ ∨ _).resolve_left (by rw [e]; exact Bool.false_ne_true)
        rw [if_neg e, if_pos e', if_neg e]; rfl
    rw [hsome] at hrun
    dsimp only at hrun
    rw [extRequest_goes h1 h2 h3.1 h3.2 h4 h5] at hrun
    have k1 := extGranted_keeps State.regs u a n (fun _ _ _ _ => rfl) fun _ _ => rfl
    have k2 := extGranted_keeps State.sites u a n (fun _ _ _ _ => rfl) fun _ _ => rfl
    have k3 : mems (extGranted u a n) = mems u := by simp [extGranted]
    have hstr := (State.str_congr k2 a n).trans hx
    obtain ⟨m1, m2⟩ := putReq_keeps a n (requestOf c) 0 k1 k3 (.of_eq k2)
    obtain ⟨now, hput⟩ := str_putReq (extGranted u a n) a n c 0
    have hreqs := (congrArg StrX.reqs hput :)
    obtain ⟨g1, g2⟩ := chanGrant_quiet (((extGranted u a n).putReq a n (requestOf c)).2) ch (a, n, ((extGranted u a n).putReq a n (requestOf c)).1)
    have hgs := State.str_congr g2 a n
    refine .next hrun ⟨requestMade (out := 0) hstr hgs hlen hc, ⟨m1.1.trans (.of_mems (mems_chanGrant ..)), m1.2.trans (.of_eq g1)⟩,
      fun b hb => (State.site_congr g2 b).trans (m2 b hb), ?_⟩
    rw [hgs]
    refine ⟨_, (congrArg List.getLast? hreqs).trans List.getLast?_concat, chanQueue_chanGrant _ ch _ ?_⟩
    unfold State.reqLive
    rw [hreqs, List.any_eq_true]
    refine ⟨_, List.mem_append_right _ (List.mem_singleton_self _), ?_⟩
    simp only [beq_self_eq_true, Bool.true_and]
    rw [extAt_requestOf]
    exact he

/-! ### The bytes a request moves -/

/-- Bytes below 256 to the power of their number spell a number below it. -/
theorem word_lt (bs : List Byte) (h : bs.length ≤ 8) :
    (bs.foldr (fun (b : Byte) (w : Word) => (w <<< 8) ||| b.setWidth 64) 0).toNat < 256 ^ bs.length ∧
    leBytes (bs.foldr (fun (b : Byte) (w : Word) => (w <<< 8) ||| b.setWidth 64) 0).toNat bs.length = bs := by
  induction bs with
  | nil => exact ⟨by decide, rfl⟩
  | cons b bs ih =>
    rw [List.length_cons] at h
    obtain ⟨h1, h2⟩ := ih (by omega)
    rw [List.foldr_cons]
    generalize bs.foldr (fun (b : Byte) (w : Word) => (w <<< 8) ||| b.setWidth 64) 0 = w at h1 h2
    have h7 : 256 ^ bs.length ≤ 256 ^ 7 := Nat.pow_le_pow_right (by decide) (by omega)
    have h56 : (256 : Nat) ^ 7 = 2 ^ 56 := by decide
    have hb := b.isLt
    have e : ((w <<< 8) ||| b.setWidth 64).toNat = w.toNat * 256 + b.toNat := by
      simp only [BitVec.toNat_or, BitVec.toNat_shiftLeft, BitVec.toNat_setWidth]
      rw [Nat.mod_eq_of_lt (a := b.toNat) (by omega), Nat.shiftLeft_eq, Nat.mod_eq_of_lt (a := w.toNat * 2 ^ 8) (by omega),
        ← Nat.shiftLeft_eq, ← Nat.shiftLeft_add_eq_or_of_lt (by omega), Nat.shiftLeft_eq]
    rw [e, List.length_cons, Nat.pow_succ]
    refine ⟨by omega, ?_⟩
    rw [leBytes, show (w.toNat * 256 + b.toNat) / 256 = w.toNat by omega, h2]
    congr 1
    apply BitVec.eq_of_toNat_eq
    rw [BitVec.toNat_ofNat]
    omega

/-- The bytes of the word at an address. -/
theorem leBytes_word64 (s : State) (x : Nat) : leBytes (s.word64 x).toNat 8 = s.bytes x 8 := by
  have h := (word_lt (s.bytes x 8) (by simp [State.bytes])).2
  have hl : (s.bytes x 8).length = 8 := by simp [State.bytes]
  rw [hl] at h
  exact h

theorem byte_putRaw_getD (s : State) (x : Nat) (l : List Byte) (i : Nat) (hi : i < l.length) (h : mcanon 0 s.mem = true) :
    (s.putRaw x l).byte (x + i) = l.getD i 0 := by rw [State.byte_putRaw_in s x l i hi h, List.getD_eq_getElem _ _ hi]

/-- The check bytes and poison of a word written as it was read. -/
def marked (s : State) (x : Nat) (w : RawWord) : State :=
  { s with synd := mput 0 s.synd (x / 8) w.synd, poison := mput 0 s.poison (x / 8) w.poison }

theorem byte_marked (s : State) (x : Nat) (w : RawWord) (z : Nat) : (marked s x w).byte z = s.byte z := by unfold State.byte marked; rfl

theorem putRawWords_cons (s : State) (x : Nat) (w : RawWord) (l : List RawWord) :
    s.putRawWords x (w :: l) = (marked (s.putRaw x (leBytes w.data.toNat 8)) x w).putRawWords (x + 8) l := by
  conv_lhs => unfold State.putRawWords
  unfold marked
  with_reducible rfl

/-- Words written as they were read: each byte in its place, nothing else. -/
theorem putRawWords_bytes (s : State) (x : Nat) (l : List RawWord) (h : mcanon 0 s.mem = true) :
    (∀ k (hk : k < l.length) j, j < 8 → (s.putRawWords x l).byte (x + 8 * k + j) = (leBytes l[k].data.toNat 8).getD j 0) ∧
    (∀ z, z < x ∨ x + 8 * l.length ≤ z → (s.putRawWords x l).byte z = s.byte z) := by
  induction l generalizing s x with
  | nil => exact ⟨fun k hk => absurd hk (Nat.not_lt_zero k), fun _ _ => rfl⟩
  | cons w l ih =>
    rw [putRawWords_cons]
    have hlen : (leBytes w.data.toNat 8).length = 8 := length_leBytes ..
    have hc : mcanon 0 (s.putRaw x (leBytes w.data.toNat 8)).mem = true := mcanon_putWord s x w.data false h
    obtain ⟨h1, h2⟩ := ih (marked (s.putRaw x (leBytes w.data.toNat 8)) x w) (x + 8) hc
    refine ⟨fun k hk j hj => ?_, fun z hz => ?_⟩
    · cases k with
      | zero =>
        rw [h2 _ (by omega), byte_marked, Nat.mul_zero, Nat.add_zero, byte_putRaw_getD _ _ _ _ (by omega) h, List.getElem_cons_zero]
      | succ k =>
        rw [List.length_cons] at hk
        have e := h1 k (by omega) j hj
        rw [show x + 8 + 8 * k + j = x + 8 * (k + 1) + j by omega] at e
        exact e
    · rw [List.length_cons] at hz
      rw [h2 z (by omega), byte_marked, State.byte_putRaw_out _ _ _ _ (by omega)]

/-- Words read at one place and written at another (R188). -/
theorem putRawWords_rawWords (s v : State) (x y n : Nat) (hm : v.mem = s.mem) (h : mcanon 0 s.mem = true) :
    (∀ i, i < 8 * n → (v.putRawWords y (s.rawWords x n)).byte (y + i) = s.byte (x + i)) ∧
    (∀ z, z < y ∨ y + 8 * n ≤ z → (v.putRawWords y (s.rawWords x n)).byte z = s.byte z) := by
  have hl : (s.rawWords x n).length = n := by simp [State.rawWords]
  have hv : ∀ z, v.byte z = s.byte z := fun z => by rw [State.byte, hm, State.byte]
  obtain ⟨h1, h2⟩ := putRawWords_bytes v y (s.rawWords x n) (hm ▸ h)
  refine ⟨fun i hi => ?_, fun z hz => (h2 z (by omega)).trans (hv z)⟩
  have hk : i / 8 < (s.rawWords x n).length := by omega
  have e := h1 (i / 8) hk (i % 8) (by omega)
  rw [show y + 8 * (i / 8) + i % 8 = y + i by omega] at e
  rw [e]
  have hd : (s.rawWords x n)[i / 8].data = s.word64 (x + 8 * (i / 8)) := by simp [State.rawWords]
  rw [hd, leBytes_word64, List.getD_eq_getElem _ _ (by simp [State.bytes]; omega)]
  simp only [State.bytes, List.getElem_map, List.getElem_range]
  rw [show x + 8 * (i / 8) + i % 8 = x + i by omega]

/-! ### A request served and complete -/

/-- The counts of bytes moved (Tables 06-9, 06-10). -/
def countMoved (s : State) (a n : Nat) (r : Req) : State :=
  let s := if r.ext && isTarn a then s.count C.TRN_CNT_EXT_BYTES a r.len else s
  let s := if isTarn a && s.dscClass a n == 2 then s.count C.TRN_CNT_PF_BYTES a r.len else s
  if !isTarn a && siteHolds a r.dst r.len then s.count C.STR_CNT_BYTES a r.len else s

theorem countMoved_keeps {γ : Type} (f : State → γ) (hc : ∀ (s : State) c b n, f (s.count c b n) = f s) (s : State) (a n : Nat) (r : Req) :
    f (countMoved s a n r) = f s := by
  unfold countMoved
  extract_lets s1 s2
  have h1 : f s1 = f s := by simp only [s1]; split <;> [exact hc ..; rfl]
  have h2 : f s2 = f s1 := by simp only [s2]; split <;> [exact hc ..; rfl]
  split
  · exact (hc ..).trans (h2.trans h1)
  · exact h2.trans h1

/-- The words kept of the scratchpad as this cycle found them. -/
def padKept (s : State) (r : Req) : State := if inPad r.dst then s.keepPad r.dst r.len else s

theorem padKept_keeps {γ : Type} (f : State → γ) (h : ∀ (s : State) l, f { s with padOld := l } = f s) (s : State) (r : Req) :
    f (padKept s r) = f s := by
  unfold padKept
  split
  · exact h ..
  · rfl

/-- Between memories of the chip the words go as they are read (R188). -/
theorem moveReq_onChip (s : State) (a n : Nat) (r : Req) (h1 : inExt r.src = false) (h2 : inExt r.dst = false) :
    s.moveReq a n r = countMoved ((padKept s r).putRawWords r.dst (s.rawWords r.src (r.len / 8))) a n r := by
  unfold State.moveReq
  rw [h1, h2]
  rfl

theorem putRawWords_keeps {γ : Type} (f : State → γ) (h : ∀ (s : State) m p y, f { s with mem := m, poison := p, synd := y } = f s)
    (s : State) (x : Nat) (l : List RawWord) : f (s.putRawWords x l) = f s := by
  induction l generalizing s x with
  | nil => rfl
  | cons w l ih =>
    rw [putRawWords_cons, ih]
    exact (h _ _ _ _).trans (putRaw_keeps f (fun s n b => h s _ _ _) _ _ _)

theorem moveReq_keeps {γ : Type} (f : State → γ) (hc : ∀ (s : State) c b n, f (s.count c b n) = f s)
    (hp : ∀ (s : State) l, f { s with padOld := l } = f s) (hm : ∀ (s : State) m p y, f { s with mem := m, poison := p, synd := y } = f s)
    (s : State) (a n : Nat) (r : Req) (h1 : inExt r.src = false) (h2 : inExt r.dst = false) : f (s.moveReq a n r) = f s := by
  rw [moveReq_onChip s a n r h1 h2, countMoved_keeps f hc, putRawWords_keeps f hm, padKept_keeps f hp]

/-- The bytes stand at the destination as they stood at the source (R188). -/
theorem moveReq_moves (s v : State) (a n : Nat) (q : Req) (hv : v.mem = s.mem) (hc : mcanon 0 s.mem = true) (hl : q.len % 64 = 0)
    (h1 : inExt q.src = false) (h2 : inExt q.dst = false) :
    (∀ i, i < q.len → (v.moveReq a n q).byte (q.dst + i) = s.byte (q.src + i)) ∧
    (∀ z, z < q.dst ∨ q.dst + q.len ≤ z → (v.moveReq a n q).byte z = s.byte z) := by
  have hb : ∀ z, (v.moveReq a n q).byte z = ((padKept v q).putRawWords q.dst (v.rawWords q.src (q.len / 8))).byte z := fun z => by
    rw [moveReq_onChip v a n q h1 h2]
    exact countMoved_keeps (fun s => s.byte z) (fun _ _ _ _ => rfl) _ a n q
  have hvs : ∀ z, v.byte z = s.byte z := fun z => by rw [State.byte, hv, State.byte]
  obtain ⟨k1, k2⟩ := putRawWords_rawWords v (padKept v q) q.src q.dst (q.len / 8)
    (padKept_keeps State.mem (fun _ _ => rfl) v q) (by rw [hv]; exact hc)
  exact ⟨fun i hi => by rw [hb, k1 i (by omega), hvs], fun z hz => by rw [hb, k2 z (by omega), hvs]⟩

/-- The 64 B units that a request writes. -/
def unitsOf (q : Req) : List Nat := (List.range (q.len / 64)).map (· + q.off / 64)

/-- The program without a request, its units recorded. -/
def reqGone (s : State) (a n : Nat) (q : Req) : State :=
  ({ s with memc := s.memc.dropReq (a, n, q.num) } : State).modStr a n (fun x =>
    { x with reqs := x.reqs.filter (fun y => y.num != q.num)
             copies := x.copies.map (fun c => if c.gen = q.copyPos then { c with done := List.append c.done (unitsOf q) } else c) })

/-- The signal of a COPY that is complete (R191). -/
def copySignal (s : State) (a n : Nat) (c : CopyX) : State :=
  if c.signals then
    if s.dscSrem a n = 1 then s.laneSignal a (s.dscQn a n) (s.dscCnt a n) 1 else s.sigAdd (qid a (s.dscCnt a n)) 1
  else s

/-- The COPY with a request's units recorded. -/
def unitsDone (c : CopyX) (q : Req) : CopyX := { c with done := List.append c.done (unitsOf q) }

theorem str_reqGone (s : State) (a n : Nat) (q : Req) {c : CopyX} (h : (s.str a n).copies = [c]) (hg : c.gen = q.copyPos) :
    ((reqGone s a n q).str a n).copies = [unitsDone c q] ∧
    ((reqGone s a n q).str a n).reqs = (s.str a n).reqs.filter (fun y => y.num != q.num) := by
  unfold reqGone
  rw [State.str_modStr_same]
  refine ⟨?_, rfl⟩
  change (s.str a n).copies.map _ = _
  rw [h, List.map_cons, if_pos hg]
  rfl

/-- The end of a request of the program's one COPY: the COPY stays until its last unit is written (R191). -/
theorem finishReq_one (s : State) (a n : Nat) (q : Req) {c : CopyX} (h : (s.str a n).copies = [c]) (hg : c.gen = q.copyPos) :
    s.finishReq a n q = if (unitsDone c q).done.length * 64 = c.len then
        copySignal ((reqGone s a n q).modStr a n (fun x => { x with copies := x.copies.drop 1 })) a n (unitsDone c q)
      else reqGone s a n q := by
  have hc := (str_reqGone s a n q h hg).1
  have e : s.finishReq a n q = (reqGone s a n q).retireCopies a n ((reqGone s a n q).str a n).copies.length := rfl
  rw [e, hc]
  change (reqGone s a n q).retireCopies a n 1 = _
  unfold State.retireCopies
  rw [hc]
  rfl

theorem copySignal_keeps {γ : Type} (f : State → γ) (hs : ∀ (s : State) i k, f (s.sigAdd i k) = f s)
    (hf : ∀ (s : State) l, f { s with flight := l } = f s) (s : State) (a n : Nat) (c : CopyX) : f (copySignal s a n c) = f s := by
  unfold copySignal
  split
  · split
    · exact hf ..
    · exact hs ..
  · rfl

/-- The length of the units written, in bytes. -/
theorem length_unitsDone (c : CopyX) (q : Req) (h : q.len % 64 = 0) : (unitsDone c q).done.length * 64 = 64 * c.done.length + q.len := by
  change (c.done ++ unitsOf q).length * 64 = _
  rw [List.length_append, unitsOf, List.length_map, List.length_range]
  omega

/-- The accesses with which the far end serves a request. -/
def serveAsks (u : State) (a n : Nat) (q : Req) : List Ask :=
  u.agentAsk a n :: (u.reqAsks a n q).filter (fun x => !siteHolds a q.dst q.len || x.key.site? != some a)

/-- The program with a request served, its answer to come. -/
def markServed (a : Nat) (q : Req) (x : StrX) : StrX :=
  { x with reqs := x.reqs.map (fun y =>
      if y.num = q.num then { y with served := true, back := laneFlits (siteHolds a q.dst q.len) q.len } else y) }

/-- The far end serves a request that its arbiters grant; write data go to their place there (R189). -/
theorem remoteRequest_served {s : State} {p : PAt} {r : BitVec 5} {q : Req} {w : State} :
    let a := p.site.toNat
    let n := p.prog.toNat
    let u := s.at_ p.t.toNat
    s.reaches p.t.toNat = true →
    (u.str a n).reqs.find? (fun y => y.num == r.toNat && y.remote && y.out == 0 && (!y.served || decide (0 < y.back))) = some q →
    q.served = false → u.askAll (serveAsks u a n q) = (true, w) →
    exec (.remoteRequest p r) s = .next ((if siteHolds a q.dst q.len then w else w.moveReq a n q).modStr a n (markServed a q)) := by
  intro a n u hr hf hs ha
  change execRemoteRequest p r s = _
  unfold execRemoteRequest
  dsimp only
  rw [hr, if_neg (by decide), hf]
  dsimp only
  unfold serveAsks at ha
  rw [hs, if_neg Bool.false_ne_true, ha]
  rfl

/-- A request whose bytes move here completes once its arbiters grant it (R191). -/
theorem requestComplete_moves {s : State} {p : PAt} {r : BitVec 5} {q : Req} {w : State} :
    let a := p.site.toNat
    let n := p.prog.toNat
    let u := s.at_ p.t.toNat
    s.reaches p.t.toNat = true →
    (u.str a n).reqs.find? (fun y => y.num == r.toNat && (!y.remote || (y.served && y.back == 0))) = some q →
    (q.remote && !siteHolds a q.dst q.len) = false → u.reqReady a n q = (true, w) →
    exec (.requestComplete p r) s = .next ((w.moveReq a n q).finishReq a n q) := by
  intro a n u hr hf hs ha
  change execRequestComplete p r s = _
  unfold execRequestComplete
  dsimp only
  rw [hr, if_neg (by decide), hf]
  dsimp only
  rw [hs, if_neg Bool.false_ne_true, ha]
  rfl

/-- What a completed request leaves of the state it moved its bytes in (R191). -/
theorem finishReq_leaves {v : State} {a n : Nat} {q : Req} {c : CopyX} (hl : q.len % 64 = 0) (h : (v.str a n).copies = [c])
    (hg : c.gen = q.copyPos) : let t := v.finishReq a n q
    t.regs = v.regs ∧ (t.str a n).reqs = (v.str a n).reqs.filter (fun y => y.num != q.num) ∧
    (64 * c.done.length + q.len ≠ c.len → (t.str a n).copies = [unitsDone c q]) ∧
    (64 * c.done.length + q.len = c.len → (t.str a n).copies = [] ∧
      (c.signals = true → v.dscSrem a n ≠ 1 → t.sigAdds = aput v.sigAdds (qid a (v.dscCnt a n))
        ((aget v.sigAdds (qid a (v.dscCnt a n))).getD 0 + 1)) ∧
      (c.signals = false → t.sigAdds = v.sigAdds ∧ t.flight = v.flight)) := by
  intro t
  have e : t = _ := finishReq_one v a n q h hg
  rw [length_unitsDone c q hl] at e
  obtain ⟨k1, k2⟩ := str_reqGone v a n q h hg
  by_cases hd : 64 * c.done.length + q.len = c.len
  · rw [if_pos hd] at e
    have hstr := (copySignal_keeps (fun s => s.str a n) (fun _ _ _ => rfl) (fun _ _ => rfl)
      ((reqGone v a n q).modStr a n (fun x => { x with copies := x.copies.drop 1 })) a n (unitsDone c q)).trans (State.str_modStr_same ..)
    have hregs := copySignal_keeps State.regs (fun _ _ _ => rfl) (fun _ _ => rfl)
      ((reqGone v a n q).modStr a n (fun x => { x with copies := x.copies.drop 1 })) a n (unitsDone c q)
    rw [e]
    refine ⟨hregs, (congrArg StrX.reqs hstr).trans k2, fun hn => absurd hd hn, fun _ => ⟨?_, fun hs h1 => ?_, fun hs => ?_⟩⟩
    · refine (congrArg StrX.copies hstr).trans ?_
      change List.drop 1 ((reqGone v a n q).str a n).copies = []
      rw [k1]; rfl
    · have h1' : ¬ ((reqGone v a n q).modStr a n (fun x => { x with copies := x.copies.drop 1 })).dscSrem a n = 1 := h1
      have hs' : (unitsDone c q).signals = true := hs
      unfold copySignal
      rw [if_pos hs', if_neg h1']
      rfl
    · have hs' : ¬ (unitsDone c q).signals = true := ne_true_of_eq_false hs
      unfold copySignal
      rw [if_neg hs']
      exact ⟨rfl, rfl⟩
  · rw [if_neg hd] at e
    rw [e]
    exact ⟨rfl, k2, fun _ => k1, fun h => absurd h hd⟩

theorem streamRequestsComplete : StreamRequestsComplete := by
  intro s p r q a n u here moved servedReqs hr hcan hlen hsrc hdst
  have hx : u.str a n = s.str a n := State.str_congr (s.at_sites _) a n
  refine ⟨fun hf hs hask => ?_, fun hf hloc hext hready c hcs hg => ?_⟩
  · have hq : ∀ {γ : Type} (f : State → γ), (∀ (s : State) c b n, f (s.count c b n) = f s) → (∀ (s : State) l, f { s with arbs := l } = f s) →
        f (u.askAll (serveAsks u a n q)).2 = f u := fun f hc ha => askAll_keeps f u hc ha _
    have hm : mems (u.askAll (serveAsks u a n q)).2 = mems s := by simp [u]
    have hrun := remoteRequest_served (s := s) (p := p) (r := r) (q := q) (w := (u.askAll (serveAsks u a n q)).2) hr (by rw [hx]; exact hf) hs
      (Prod.ext hask rfl)
    have k1 := hq (fun s => s.str a n) (fun _ _ _ _ => rfl) fun _ _ => rfl
    have k2 := hq State.regs (fun _ _ _ _ => rfl) fun _ _ => rfl
    generalize (u.askAll (serveAsks u a n q)).2 = w at hm hrun k1 k2
    refine ⟨fun hh => ?_, fun hh => ?_⟩
    · rw [if_pos hh] at hrun
      refine .next hrun ⟨?_, .of_mems (by simp [hm, u]), .of_eq k2⟩
      rw [State.str_modStr_same, k1, hx]
      rfl
    · rw [if_neg (ne_true_of_eq_false hh)] at hrun
      have hmv := moveReq_moves s w a n q (congrArg Prod.fst hm) hcan hlen hsrc hdst
      refine .next hrun ⟨hmv, ?_, ?_⟩
      · exact .of_eq ((moveReq_keeps State.regs (fun _ _ _ _ => rfl) (fun _ _ => rfl) (fun _ _ _ _ => rfl) w a n q hsrc hdst).trans k2)
      · rw [State.str_modStr_same,
          moveReq_keeps (fun s => s.str a n) (fun _ _ _ _ => rfl) (fun _ _ => rfl) (fun _ _ _ _ => rfl) w a n q hsrc hdst, k1, hx]
        rfl
  · have hready' : u.reqReady a n q = u.askAll ((u.reqAsks a n q).filter (fun x => !q.remote || x.key.site? == some a)) := by
      unfold State.reqReady
      rw [hext]
      rfl
    have hq : ∀ {γ : Type} (f : State → γ), (∀ (s : State) c b n, f (s.count c b n) = f s) → (∀ (s : State) l, f { s with arbs := l } = f s) →
        f (u.reqReady a n q).2 = f u := fun f hc ha => by rw [hready']; exact askAll_keeps f u hc ha _
    have hm : mems (u.reqReady a n q).2 = mems s := by simp [u]
    have hnot : (q.remote && !siteHolds a q.dst q.len) = false := by
      rcases hloc with h | h
      · rw [h]; rfl
      · change siteHolds a q.dst q.len = true at h
        rw [h]; simp
    have hrun := requestComplete_moves (s := s) (p := p) (r := r) (q := q) (w := (u.reqReady a n q).2) hr (by rw [hx]; exact hf) hnot
      (Prod.ext hready rfl)
    have k1 := hq (fun s => (s.str a n, s.regs, s.sigAdds, s.flight)) (fun _ _ _ _ => rfl) fun _ _ => rfl
    generalize (u.reqReady a n q).2 = w at hm hrun k1
    have k2 := (moveReq_keeps (fun s => (s.str a n, s.regs, s.sigAdds, s.flight)) (fun _ _ _ _ => rfl) (fun _ _ => rfl) (fun _ _ _ _ => rfl)
      w a n q hsrc hdst).trans k1
    have hmv := moveReq_moves s w a n q (congrArg Prod.fst hm) hcan hlen hsrc hdst
    change exec (.requestComplete p r) s = .next ((w.moveReq a n q).finishReq a n q) at hrun
    generalize w.moveReq a n q = v at hmv k2 hrun
    simp only [Prod.mk.injEq] at k2
    obtain ⟨e1, e2, e3, e4⟩ := k2
    rw [hx] at e1
    obtain ⟨f1, f2, f3, f4⟩ := finishReq_leaves (v := v) hlen (by rw [e1]; exact hcs) hg
    have hbyte : ∀ z, (v.finishReq a n q).byte z = v.byte z := fun z => byte_congr (mems_finishReq ..) z
    have hmoved : moved (v.finishReq a n q) := ⟨fun i hi => (hbyte _).trans (hmv.1 i hi), fun z hz => (hbyte z).trans (hmv.2 z hz)⟩
    have hreqs : ((v.finishReq a n q).str a n).reqs = (s.str a n).reqs.filter (fun y => y.num != q.num) := by rw [f2, e1]
    refine ⟨fun hd => .next hrun ⟨hmoved, .of_eq (f1.trans e2), hreqs, f3 hd⟩, fun hd => .next hrun ⟨hmoved, .of_eq (f1.trans e2), hreqs, ?_⟩⟩
    obtain ⟨g1, g2, g3⟩ := f4 hd
    have hrem : v.dscSrem a n = u.dscSrem a n := rd_of_regs e2 ..
    have hcnt : v.dscCnt a n = u.dscCnt a n := rd_of_regs e2 ..
    refine ⟨g1, fun hs h1 => ?_, fun hs => ⟨(g3 hs).1.trans e3, (g3 hs).2.trans e4⟩⟩
    rw [g2 hs (by rw [hrem]; exact h1), hcnt, e3, show qid a (u.dscCnt a n) = 32 * a + u.dscCnt a n by unfold qid; omega]
    exact aget_aput_same ..

end Sys2Proof.Proofs
end

section
/-! PROOF. Programs that complete, and the statement on requests as a whole (R183). -/

namespace Sys2Proof.Proofs
open Sys2Proof Sys2Proof.Machine

/-! ### The end of a program -/

/-- Two fields written one after the other, and a third apart from both. -/
theorem rd_two_wr (u : State) (a n v w : Nat) {f g h : Fld} (hf : f.lo + f.width ≤ 64) (hg : g.lo + g.width ≤ 64)
    (hfg : f.reg ≠ g.reg ∨ f.lo + f.width ≤ g.lo ∨ g.lo + g.width ≤ f.lo) (h1 : h.reg ≠ f.reg) (h2 : h.reg ≠ g.reg) :
    (u.wrs a n [(f, v), (g, w)]).rd f a n = v % 2 ^ f.width ∧ (u.wrs a n [(f, v), (g, w)]).rd g a n = w % 2 ^ g.width ∧
    (u.wrs a n [(f, v), (g, w)]).rd h a n = u.rd h a n := by
  change ((u.wr f a n v).wr g a n w).rd f a n = _ ∧ ((u.wr f a n v).wr g a n w).rd g a n = _ ∧ ((u.wr f a n v).wr g a n w).rd h a n = _
  exact ⟨(State.rd_wr_other _ _ _ _ _ _ hfg).trans (State.rd_wr_self _ _ _ _ _ hf), State.rd_wr_self _ _ _ _ _ hg,
    (State.rd_wr_other _ _ _ _ _ _ (.inl h2)).trans (State.rd_wr_other _ _ _ _ _ _ (.inl h1))⟩

/-- The state register of a program that starts (Table 06-1). -/
theorem startWritten (u : State) (a n arg : Nat) :
    let v := u.wrs a n [(strFld a F.STR_STATE_STATE F.TRN_THR_STATE_STATE, 1), (strFld a F.STR_STATE_ARG F.TRN_THR_STATE_ARG, arg)]
    v.rd (strFld a F.STR_STATE_STATE F.TRN_THR_STATE_STATE) a n = 1 ∧ v.rd (strFld a F.STR_STATE_ARG F.TRN_THR_STATE_ARG) a n = arg % 2 ^ 16 ∧
    v.rd (strFld a F.STR_DESC_START F.TRN_THR_START) a n = u.rd (strFld a F.STR_DESC_START F.TRN_THR_START) a n := by
  unfold strFld
  split
  · exact rd_two_wr u a n 1 arg (by decide) (by decide) (by decide) (by decide) (by decide)
  · exact rd_two_wr u a n 1 arg (by decide) (by decide) (by decide) (by decide) (by decide)

/-- Address registers cleared leave every other register. -/
theorem rd_aregsCleared (u : State) (a n : Nat) {f : Fld} (l : List Nat) (hf : f.reg ≠ (strFld a F.STR_AREG_ADDR F.TRN_AREG_ADDR).reg) :
    (l.foldl (fun s k => s.wr (strFld a F.STR_AREG_ADDR F.TRN_AREG_ADDR) a (8 * n + k) 0) u).rd f a n = u.rd f a n :=
  foldl_keep (fun s => s.rd f a n) _ (fun s _ => State.rd_wr_other s _ _ _ _ _ (.inl hf)) l u

/-- The registers after a program's start. -/
def startRegs (u : State) (a n arg : Nat) : State := (List.range 8).foldl
  (fun s k => s.wr (strFld a F.STR_AREG_ADDR F.TRN_AREG_ADDR) a (8 * n + k) 0)
  (u.wrs a n [(strFld a F.STR_STATE_STATE F.TRN_THR_STATE_STATE, 1), (strFld a F.STR_STATE_ARG F.TRN_THR_STATE_ARG, arg)])

/-- A program's start: its registers, and its part anew (R183). -/
theorem strBegin_eq (u : State) (a n arg : Nat) : ∃ f : StrX → StrX, u.strBegin a n arg = (startRegs u a n arg).modStr a n f ∧
    (∀ x, (f x).pc = (startRegs u a n arg).rd (strFld a F.STR_DESC_START F.TRN_THR_START) a n) ∧ (∀ x, (f x).ended = false) := by
  unfold State.strBegin
  exact ⟨_, rfl, fun _ => rfl, fun _ => rfl⟩

theorem rd_startRegs (u : State) (a n arg : Nat) :
    (startRegs u a n arg).rd (strFld a F.STR_STATE_STATE F.TRN_THR_STATE_STATE) a n = 1 ∧
    (startRegs u a n arg).rd (strFld a F.STR_STATE_ARG F.TRN_THR_STATE_ARG) a n = arg % 2 ^ 16 ∧
    (startRegs u a n arg).rd (strFld a F.STR_DESC_START F.TRN_THR_START) a n = u.rd (strFld a F.STR_DESC_START F.TRN_THR_START) a n := by
  obtain ⟨h1, h2, h3⟩ := startWritten u a n arg
  unfold startRegs
  rw [rd_aregsCleared _ _ _ _ (by unfold strFld; split <;> decide), rd_aregsCleared _ _ _ _ (by unfold strFld; split <;> decide),
    rd_aregsCleared _ _ _ _ (by unfold strFld; split <;> decide)]
  exact ⟨h1, h2, h3⟩

/-- A running program that is done, no prefetch thread, goes IDLE (R183). -/
theorem strFinish_running {u : State} {a n : Nat} (hd : ((u.str a n).ended && (u.str a n).copies.isEmpty && (u.str a n).reqs.isEmpty) = true)
    (h : u.rd (strFld a F.STR_STATE_STATE F.TRN_THR_STATE_STATE) a n = 1) (hpf : u.isPf a n = false) :
    u.strFinish a n = (u.wr (strFld a F.STR_STATE_STATE F.TRN_THR_STATE_STATE) a n 0).modStr a n (fun x => { x with ended := false }) := by
  have hp : ∀ f, ((u.wr (strFld a F.STR_STATE_STATE F.TRN_THR_STATE_STATE) a n 0).modStr a n f).isPf a n = u.isPf a n := by
    intro f
    unfold State.isPf
    rw [State.rd_modStr, State.rd_wr_other _ _ _ _ _ _ (.inl (by unfold strFld; split <;> decide))]
  unfold State.strFinish
  extract_lets f x
  rw [if_pos hd, h]
  exact if_neg (by rw [hp, hpf]; exact Bool.false_ne_true)

/-- A program that is done and has a shadow starts again (R183). -/
theorem strFinish_shadow {u : State} {a n : Nat} (hd : ((u.str a n).ended && (u.str a n).copies.isEmpty && (u.str a n).reqs.isEmpty) = true)
    (h : u.rd (strFld a F.STR_STATE_STATE F.TRN_THR_STATE_STATE) a n = 2) :
    u.strFinish a n = u.strBegin a n (u.rd (strFld a F.STR_STATE_SHADOW F.TRN_THR_STATE_SHADOW) a n) := by
  unfold State.strFinish
  extract_lets f x
  rw [if_pos hd, h]
  rfl

theorem streamProgramsComplete : StreamProgramsComplete := by
  intro s p a n u hr he hc hq
  have hx : u.str a n = s.str a n := State.str_congr (s.at_sites _) a n
  have hrun : exec (.streamProgramCompletion p) s = .next (u.strFinish a n) := congrArg Host.Outcome.next (if_pos hr)
  have hdone : ((u.str a n).ended && (u.str a n).copies.isEmpty && (u.str a n).reqs.isEmpty) = true := by rw [hx, he, hc, hq]; rfl
  have hum : mems u = mems s := by simp [u]
  clear_value u
  refine ⟨fun h1 hpf => ?_, fun h2 => ?_⟩
  · rw [strFinish_running hdone h1 hpf] at hrun
    refine .next hrun ⟨?_, ?_, .of_mems (by simp), (SameRegs.wr (.refl u _) 0 ⟨rfl, rfl, rfl⟩).trans (.of_eq rfl)⟩
    · rw [State.strState, State.rd_modStr, State.rd_wr_self _ _ _ _ _ (by unfold strFld; split <;> decide), Nat.zero_mod]
    · rw [State.str_modStr_same]
  · rw [strFinish_shadow hdone h2] at hrun
    have hlt : u.rd (strFld a F.STR_STATE_SHADOW F.TRN_THR_STATE_SHADOW) a n < 2 ^ 16 := by
      have h := fieldGet_lt (strFld a F.STR_STATE_SHADOW F.TRN_THR_STATE_SHADOW) (u.word (strFld a F.STR_STATE_SHADOW F.TRN_THR_STATE_SHADOW).reg a n)
      rw [strFld_of (P := fun f => f.width = 16) a (f := F.STR_STATE_SHADOW) (g := F.TRN_THR_STATE_SHADOW) rfl rfl] at h
      exact h
    have hm := mems_strBegin u a n (u.rd (strFld a F.STR_STATE_SHADOW F.TRN_THR_STATE_SHADOW) a n)
    generalize u.rd (strFld a F.STR_STATE_SHADOW F.TRN_THR_STATE_SHADOW) a n = arg at hrun hlt hm ⊢
    obtain ⟨f, hb, hpc, hend⟩ := strBegin_eq u a n arg
    obtain ⟨k1, k2, k3⟩ := rd_startRegs u a n arg
    rw [hb] at hrun hm
    refine .next hrun ⟨?_, ?_, ?_, ?_, .of_mems (hm.trans hum)⟩
    · rw [State.strState, State.rd_modStr, k1]
    · rw [State.rd_modStr, k2, Nat.mod_eq_of_lt hlt]
    · rw [State.str_modStr_same, hpc, k3]
    · rw [State.str_modStr_same, hend]

/-- Settles O19: a request made, served or completed step by step, and the end of its program. -/
theorem streamRequestsRun : Obligations.StreamRequestsRun := ⟨streamRequestsGo, streamRequestsComplete, streamProgramsComplete⟩

end Sys2Proof.Proofs
end

section
/-! PROOF. Flits forwarded, and the replay, marking and death of links (chapters 07, 13, 14). -/

namespace Sys2Proof.Machine

theorem Dir.num_ne {d k : Dir} (h : d ≠ k) : d.num ≠ k.num := by
  revert h; cases d <;> cases k <;> decide

/-- A neighbour is another site (R22). -/
theorem neighbour_ne {a b : Nat} {d : Dir} (h : neighbour a d = some b) : b ≠ a := by
  unfold neighbour rowOf colOf at h
  cases d <;> dsimp only at h <;> split at h <;> cases h <;> omega

/-- A counter of a site's page that is none of the links' keeps its value when one of theirs counts. -/
theorem State.ctr_linkCtr (s : State) {i : Nat} (h : i < 4096 ∧ i ∉ [9, 10, 11, 22]) (a : Nat) (c : Ctr) (b n : Nat) (hc : c ∈ Proofs.linkCtrs) :
    (s.count c b n).ctr ⟨none, i⟩ a = s.ctr ⟨none, i⟩ a := by
  refine s.ctr_count_ne n ?_
  simp only [List.mem_cons, List.not_mem_nil, or_false, not_or] at h
  simp only [Proofs.linkCtrs, List.mem_cons, List.not_mem_nil, or_false] at hc
  obtain ⟨h0, h1, h2, h3, h4⟩ := h
  rcases hc with rfl | rfl | rfl | rfl <;> simp only [Ctr.address, C.TRV_CNT_DATA, C.TRV_CNT_SVC, C.TRV_CNT_CTRL, C.TRV_CNT_DEADDROP] <;> omega

section
variable (s : State) (a : Nat) (d : Dir)

theorem State.ctr_drain : (s.drain a d).ctr C.TRV_CNT_RETRY a = s.ctr C.TRV_CNT_RETRY a :=
  Proofs.drain_keeps (fun s => s.ctr C.TRV_CNT_RETRY a) s (fun s c b n hc => s.ctr_linkCtr (by decide) a c b n hc) fun _ _ => rfl

/-- A flit that leaves on a link stands last in its replay buffer (R372). -/
theorem State.link_launchAt (t : Nat) (x : Flit) : ∃ g, ((s.launchAt a d t x).link a d.num).replay.getLast? = some ⟨t, g⟩ ∧
    g.words = x.words ∧ g.hdr = { x.hdr with lseq := BitVec.ofNat 6 (s.link a d.num).lseq } ∧ g.slot = x.slot := by
  have hlast : ∀ (l : List TimedFlit) (y : TimedFlit), ((List.append l [y]).drop ((List.append l [y]).length - 32)).getLast? = some y := by
    intro l y
    have hlen : ¬ (l ++ [y]).length ≤ (l ++ [y]).length - 32 := by simp
    change ((l ++ [y]).drop _).getLast? = _
    rw [List.getLast?_drop]
    change (if (l ++ [y]).length ≤ (l ++ [y]).length - 32 then none else _) = _
    rw [if_neg hlen, List.getLast?_concat]
  unfold State.launchAt
  extract_lets h g g' s1
  rw [State.link_modLink_same]
  dsimp only
  exact ⟨_, hlast _ _, rfl, rfl, rfl⟩

end

end Sys2Proof.Machine

namespace Sys2Proof.Proofs

open Sys2Proof Sys2Proof.Machine

section
variable (s : State) (a : Nat) (d : Dir)

/-- What a flit sent leaves: registers, memory, the other sites and the other links. -/
theorem sendOn_quiet (x : Flit) : (s.sendOn a d x).regs = s.regs ∧ (s.sendOn a d x).cycles = s.cycles ∧ OtherSites s (s.sendOn a d x) a ∧
    ∀ k : Dir, k ≠ d → (s.sendOn a d x).link a k.num = s.link a k.num :=
  ⟨sendOn_keeps (a := a) (d := d) State.regs s (fun _ _ _ _ _ => rfl) (fun _ _ => rfl) x,
    sendOn_keeps (a := a) (d := d) State.cycles s (fun _ _ _ _ _ => rfl) (fun _ _ => rfl) x,
    fun b hb => sendOn_keeps (fun s => s.site b) s (fun _ _ _ _ _ => rfl) (fun s _ => s.site_modSite_ne _ hb) x,
    fun k hk => sendOn_keeps (fun s => s.link a k.num) s (fun _ _ _ _ _ => rfl)
      (fun s g => s.link_modLink_ne g (.inr (Dir.num_ne hk))) x⟩

theorem drain_quiet : (s.drain a d).regs = s.regs ∧ (s.drain a d).cycles = s.cycles ∧ (s.drain a d).hut = s.hut ∧
    OtherSites s (s.drain a d) a :=
  ⟨drain_keeps (a := a) (d := d) State.regs s (fun _ _ _ _ _ => rfl) (fun _ _ => rfl),
    drain_keeps (a := a) (d := d) State.cycles s (fun _ _ _ _ _ => rfl) (fun _ _ => rfl),
    drain_keeps (a := a) (d := d) State.hut s (fun _ _ _ _ _ => rfl) (fun _ _ => rfl),
    fun b hb => drain_keeps (fun s => s.site b) s (fun _ _ _ _ _ => rfl) (fun s _ => s.site_modSite_ne _ hb)⟩

/-- A flit that reaches an output has left, or stands last in its hold line (R373, R374). -/
def Sent (u t : State) (a : Nat) (k : Dir) (x : Flit) : Prop :=
  (u.linkDelay a k = 0 → ∃ g, (t.link a k.num).replay.getLast? = some ⟨u.cycles, g⟩ ∧ g.words = x.words ∧
    g.hdr = { x.hdr with lseq := BitVec.ofNat 6 (u.link a k.num).lseq } ∧ g.slot = x.slot) ∧
  (u.linkDelay a k ≠ 0 → (t.link a k.num).hold.getLast? = some ⟨u.cycles, x⟩)

theorem sent_sendOn (x : Flit) (h : s.linkState a d ≠ 3) : Sent s (s.sendOn a d x) a d x := by
  unfold State.sendOn
  rw [if_neg h]
  refine ⟨fun h0 => ?_, fun h0 => ?_⟩
  · rw [if_pos h0]
    exact s.link_launchAt a d _ x
  · rw [if_neg h0]
    dsimp only
    rw [State.link_modLink_same, (drain_quiet s a d).2.1]
    exact List.getLast?_concat

end

/-- A flit is sent on each of some outputs, and leaves the others as they were. -/
theorem sent_all {u : State} {a : Nat} {x : Flit} : ∀ (l : List Dir) (v : State), l.Nodup → v.regs = u.regs → v.cycles = u.cycles →
    (∀ k ∈ l, v.link a k.num = u.link a k.num) → let t := l.foldl (fun s k => s.sendOn a k x) v
      (∀ k ∈ l, u.linkState a k ≠ 3 → Sent u t a k x) ∧ (∀ k, k ∉ l → t.link a k.num = v.link a k.num) := by
  intro l
  induction l with
  | nil => exact fun v _ _ _ _ => ⟨fun k hk => absurd hk List.not_mem_nil, fun _ _ => rfl⟩
  | cons k l ih =>
    intro v hn hr hc hl
    obtain ⟨hk, hn⟩ := List.nodup_cons.mp hn
    obtain ⟨h1, h2, -, h4⟩ := sendOn_quiet v a k x
    have hne : ∀ j ∈ l, j ≠ k := fun j hj e => hk (e ▸ hj)
    obtain ⟨i1, i2⟩ := ih (v.sendOn a k x) hn (h1.trans hr) (h2.trans hc) fun j hj => (h4 j (hne j hj)).trans (hl j (.tail _ hj))
    refine ⟨fun j hj h3 => ?_, fun j hj => ?_⟩
    · rcases List.mem_cons.mp hj with rfl | hj
      · have hd := rd_of_regs hr
        have h := sent_sendOn v a j x (by unfold State.linkState at h3 ⊢; rwa [hd])
        unfold Sent State.linkDelay at h ⊢
        rw [hd, hc, hl j (.head _)] at h
        rw [List.foldl_cons, i2 j hk]
        exact h
      · exact i1 j hj h3
    · rw [List.mem_cons, not_or] at hj
      exact (i2 j hj.2).trans (h4 j hj.1)

theorem outputsOf_nodup (s : State) (a : Nat) (d : Dir) (n : Nat) : (s.outputsOf a d n).Nodup := by
  unfold State.outputsOf
  dsimp only
  split
  · exact .nil
  · exact .filter _ (by decide)

/-- A data flit is forwarded on the outputs of its slot (R215). -/
theorem forward_forwards (u : State) (a : Nat) (d : Dir) (f : Flit) (h : f.slot.toNat < 14) :
    Forwarded u (u.forward a d f) a d f ∧ Frame u (u.forward a d f) noReg ∧ OtherSites u (u.forward a d f) a := by
  have hm : mems (u.forward a d f) = mems u := by simp
  unfold State.forward at hm ⊢
  rw [if_pos h] at hm ⊢
  obtain ⟨h1, h2⟩ := sent_all (a := a) (x := { f with slot := BitVec.ofNat 4 (leaveSlot d f.slot.toNat) })
    (u.outputsOf a d f.slot.toNat) u (outputsOf_nodup ..) rfl rfl fun _ _ => rfl
  refine ⟨⟨fun k hk h3 => ⟨fun h0 => ?_, (h1 k hk h3).2⟩, h2⟩, ⟨.of_mems hm, .of_eq ?_⟩, fun b hb => ?_⟩
  · obtain ⟨g, e1, e2, e3, e4⟩ := (h1 k hk h3).1 h0
    exact ⟨g, e1, e2, e3, e4 ▸ BitVec.toNat_ofNat ..⟩
  · exact foldl_keep State.regs _ (fun s k => (sendOn_quiet s a k _).1) _ u
  · exact foldl_keep (fun s => s.site b) _ (fun s k => (sendOn_quiet s a k _).2.2.1 b hb) _ u

theorem flitsAreForwarded : FlitsAreForwarded := by
  intro s site d f b a l hb hdead
  have hba : b ≠ a := neighbour_ne hb
  have hex : ∀ t, flitArrival a d f s = t → exec (.flitArrival site d f) s = .next t := fun t h => congrArg Host.Outcome.next h
  unfold flitArrival at hex
  rw [hb] at hex
  dsimp only at hex
  rw [if_neg hdead] at hex
  refine ⟨fun h1 h2 h3 => ?_, fun h1 h2 => ?_⟩
  · rw [if_neg (by rw [h1, h2]; decide)] at hex
    refine ⟨fun hw => ?_, fun w hw hr => ?_, fun w hw hr => ?_⟩
    · exact .next (hex _ (by rw [show (s.link b d.opp.num).waiting = none from hw])) (forward_forwards s a d f h3)
    · obtain ⟨k1, k2, k3⟩ := forward_forwards (s.modLink b d.opp.num fun l => { l with waiting := none, resent := none, fails := 0 }) a d f h3
      refine .next (hex _ (by rw [show (s.link b d.opp.num).waiting = some w from hw]; exact if_pos hr)) ⟨k1, ?_, k2⟩
      have e : ∀ {u t : State}, OtherSites u t a → t.link b d.opp.num = u.link b d.opp.num := fun h => by
        unfold State.link; rw [h b hba]
      rw [e k3, State.link_modLink_same]
    · exact .next (hex _ (by rw [show (s.link b d.opp.num).waiting = some w from hw]; exact if_neg hr)) rfl
  · rw [if_pos (by revert h1; cases f.crcOk <;> cases f.kindOk <;> decide)] at hex
    rw [show (s.link b d.opp.num).waiting = none from h2] at hex
    refine .next (hex _ rfl) ⟨s.ctr_count_same .., ?_, fun k => ?_,
      .of_eq (by simp) (by simp) rfl, .modSite (.of_eq rfl) _⟩
    · exact State.link_modLink_same ..
    · exact State.link_modLink_ne _ _ (.inl hba.symm)

/-! ### Replay, marking and death -/

section
variable (s : State) (a : Nat) (d : Dir)

theorem linkDelay_setDelay (v : Nat) : (s.setDelay a d v).linkDelay a d = v % 32 := by
  unfold State.setDelay State.linkDelay
  exact s.rd_wr_self _ a 0 v (by cases d <;> decide)

theorem linkState_setLink (v : Nat) : (s.setLink a d v).linkState a d = v % 4 := by
  unfold State.setLink State.linkState
  exact s.rd_wr_self _ a 0 v (by cases d <;> decide)

theorem linkState_setLink_ne {b : Nat} (k : Dir) (v : Nat) (h : b ≠ a) : (s.setLink a d v).linkState b k = s.linkState b k := by
  unfold State.setLink State.linkState
  exact s.rd_wr_ne v fun e => h e.2.1

theorem State.sites_setDelay (v : Nat) : (s.setDelay a d v).sites = s.sites := rfl

theorem linkState_modHut (h : HutX → HutX) : (s.modHut h).linkState a d = s.linkState a d := rfl

theorem linkDelay_lt : s.linkDelay a d < 32 := fieldGet_lt ..

theorem linkDelay_drain : (s.drain a d).linkDelay a d = s.linkDelay a d := by
  unfold State.linkDelay
  exact rd_of_regs (drain_quiet s a d).1 ..

theorem localSlot_drain : (s.drain a d).localSlot a (s.drain a d).cycles = s.localSlot a s.cycles := by
  have h := drain_keeps (a := a) (d := d) State.cycle s (fun _ _ _ _ _ => rfl) (fun _ _ => rfl)
  unfold State.localSlot State.pitchStart
  rw [h, (drain_quiet s a d).2.1]

end

/-- A drained hold line leaves memory and the registers. -/
theorem drain_linkStates (s : State) (a : Nat) (d : Dir) : Frame s (s.drain a d) (oneReg .TRV_LINK_STATE a 0) :=
  ⟨.of_mems (by simp), .of_eq (drain_quiet s a d).1⟩

theorem nakReplays {s : State} {site : SiteId} {d : Dir} {w : Byte} (h1 : nakValid w = true) (h2 : s.linkState site.toNat d ≠ 3)
    (h3 : (s.link site.toNat d.num).resent ≠ some (w.toNat / 2 % 64)) : let a := site.toNat
    (s.linkDelay a d + 2 ≤ 16 → Done (.linkNak site d w) s (fun t => (t.link a d.num).resent = some (w.toNat / 2 % 64) ∧
      (t.link a d.num).waiting = some (w.toNat / 2 % 64) ∧ t.linkDelay a d = s.linkDelay a d + 2 ∧
      (t.link a d.num).heldFrom = ((s.drain a d).link a d.num).sentAt (w.toNat / 2 % 64) s.cycles + 32 ∧
      t.ctr C.TRV_CNT_RETRY a = (s.ctr C.TRV_CNT_RETRY a + 1) % 2 ^ 48 ∧ Frame s t (oneReg .TRV_LINK_STATE a 0))) ∧
    (16 < s.linkDelay a d + 2 → Done (.linkNak site d w) s (fun t => (t.link a d.num).resent = (s.link a d.num).resent ∧
      (t.link a d.num).waiting = some (w.toNat / 2 % 64) ∧ Frame s t noReg)) := by
  intro a
  have hex : ∀ t, linkNak a d w s = t → exec (.linkNak site d w) s = .next t := fun t h => congrArg Host.Outcome.next h
  unfold linkNak at hex
  dsimp only at hex
  rw [if_neg (by simp only [h1, Bool.not_true, Bool.false_or, Bool.or_eq_true, beq_iff_eq]; exact not_or.mpr ⟨h2, h3⟩)] at hex
  refine ⟨fun h => ?_, fun h => ?_⟩
  · rw [if_neg (by omega)] at hex
    have hd := linkDelay_drain s a d
    have hc := State.ctr_drain s a d
    have hf := drain_linkStates s a d
    refine .next (hex _ rfl) ?_
    generalize s.drain a d = u at hd hc hf
    rw [State.link_modLink_same]
    refine ⟨rfl, rfl, ?_, rfl, ?_, ?_⟩
    · refine (linkDelay_setDelay ..).trans ?_
      omega
    · refine (State.ctr_count_same u _ a 1).trans ?_
      rw [hc]
    · exact ⟨hf.1.trans (.of_mems (by simp)), .wr hf.2 _ ⟨rfl, rfl, rfl⟩⟩
  · rw [if_pos (by omega)] at hex
    refine .next (hex _ rfl) ?_
    rw [State.link_modLink_same]
    exact ⟨rfl, rfl, .of_eq (by simp) (by simp) rfl⟩

theorem holdLineDrops {s : State} {site : SiteId} {d : Dir} : let a := site.toNat
    let v := (s.drain a d).link a d.num
    let h := s.cycles - 16 * s.linkDelay a d
    0 < s.linkDelay a d → s.localSlot a s.cycles = 0 → v.heldFrom ≤ h → (∀ x ∈ v.hold, x.at_ < h + 16 → x.flit.hdr.kind = 0) →
    Done (.holdLineDrop site d) s (fun t => (t.link a d.num).hold = v.hold.filter (fun x => decide (h + 16 ≤ x.at_)) ∧
      t.linkDelay a d = s.linkDelay a d - 1 ∧ Frame s t (oneReg .TRV_LINK_STATE a 0)) := by
  intro a v h h1 h2 h3 h4
  have hex : ∀ t, holdLineDrop a d s = t → exec (.holdLineDrop site d) s = .next t := fun t h => congrArg Host.Outcome.next h
  have hd := linkDelay_drain s a d
  have hc := (drain_quiet s a d).2.1
  have hf := drain_linkStates s a d
  have hs := localSlot_drain s a d
  unfold holdLineDrop at hex
  dsimp only at hex
  rw [hd, hs, hc] at hex
  rw [if_pos ⟨h1, h2, h3, List.all_eq_true.mpr fun x hx => by
    have := h4 x hx
    simp only [Bool.or_eq_true, decide_eq_true_eq, beq_iff_eq]
    by_cases e : h + 16 ≤ x.at_
    · exact .inl e
    · exact .inr (this (by omega))⟩] at hex
  refine .next (hex _ rfl) ⟨?_, ?_, hf.1.trans (.of_mems (by simp)), .wr hf.2 _ ⟨rfl, rfl, rfl⟩⟩
  · exact (congrArg LinkX.hold ((State.link_congr (State.sites_setDelay ..) a d.num).trans (State.link_modLink_same ..)) :)
  · have := linkDelay_lt s a d
    rw [linkDelay_setDelay]
    omega

theorem linkDies {s : State} {site : SiteId} {d : Dir} {c : LinkCause} : let a := site.toNat
    let u := s.drain a d
    let v := u.link a d.num
    s.linkState a d ≠ 3 → s.deathDue a d c = true → Done (.linkDead site d c) s (fun t => t.linkState a d = 3 ∧
      (t.link a d.num).hold = [] ∧ (t.link a d.num).replay = [] ∧
      (∀ e x, (e, x) ∈ s.hut.sects → 2 ≤ s.sectState e → s.sectState e ≤ 4 →
        (u.usesLink e x a d = true ∨ ∃ y ∈ v.hold, y.flit.hdr.kind ≠ 0 ∧ y.flit.hdr.part.toNat = e / 32) →
        ⟨e / 32, s.jobOf e, 0x20, 5, a, 0, 0, none⟩ ∈ t.hut.fails) ∧ Frame s t (oneReg .TRV_LINK_STATE a 0)) := by
  intro a u v h1 h2
  have hex : ∀ t, linkDead a d c s = t → exec (.linkDead site d c) s = .next t := fun t h => congrArg Host.Outcome.next h
  obtain ⟨hr, -, hh, -⟩ : u.regs = s.regs ∧ _ ∧ u.hut = s.hut ∧ _ := drain_quiet s a d
  have hf : Frame s u (oneReg .TRV_LINK_STATE a 0) := drain_linkStates s a d
  have hst : ∀ e, u.sectState e = s.sectState e := fun e => rd_of_regs hr ..
  have hj : ∀ e, u.jobOf e = s.jobOf e := fun e => rd_of_regs hr ..
  unfold linkDead at hex
  dsimp only at hex
  rw [if_neg (by rw [h2]; simpa using h1)] at hex
  rw [show s.drain a d = u from rfl] at hex
  clear_value u
  have hk : ∀ g h, (((u.setLink a d 3).modLink a d.num g).modHut h |>.record 4 (4 * a + d.num) true [3]).link a d.num = g (u.link a d.num) :=
    fun g h => (State.link_congr rfl a d.num).trans (State.link_modLink_same (u.setLink a d 3) a d.num g)
  refine .next (hex _ rfl) ⟨linkState_setLink u a d 3, ?_, ?_, fun e x hx h3 h4 h5 => ?_, hf.1.trans (.of_mems (by simp)),
    .wr hf.2 3 ⟨rfl, rfl, rfl⟩⟩
  · exact (congrArg LinkX.hold (hk ..) :)
  · exact (congrArg LinkX.replay (hk ..) :)
  · refine List.mem_append_right _ (List.mem_map.mpr ⟨(e, x), List.mem_filter.mpr ⟨hh ▸ hx, ?_⟩, ?_⟩)
    · have h6 : (u.usesLink e x a d || (((List.append (v.replay.filter (fun y => decide (u.cycles ≤ y.at_ + 32))) v.hold).filter
          (fun y => y.flit.hdr.kind != 0)).map (fun y => y.flit.hdr.part.toNat)).contains (e / 32)) = true := by
        rcases h5 with h5 | ⟨y, hy, hk, hp⟩
        · rw [h5]; rfl
        · refine Bool.or_eq_true_iff.mpr (.inr (List.contains_iff_mem.mpr (List.mem_map.mpr ⟨y, List.mem_filter.mpr ⟨?_, ?_⟩, hp⟩)))
          · exact List.mem_append_right _ hy
          · simpa using hk
      refine Bool.and_eq_true_iff.mpr ⟨Bool.and_eq_true_iff.mpr ⟨decide_eq_true ?_, decide_eq_true ?_⟩, h6⟩
      · rw [hst]; exact h3
      · rw [hst]; exact h4
    · exact congrArg (fun j => (⟨e / 32, j, 0x20, 5, a, 0, 0, none⟩ : FailReq)) (hj e)

theorem linksReplayAndEnd : LinksReplayAndEnd := by
  intro s site d a l u v
  refine ⟨fun w h1 h2 h3 => nakReplays h1 h2 h3, holdLineDrops, fun c => linkDies, fun b hb hm h1 h2 => ?_⟩
  have hba : b ≠ a := neighbour_ne hb
  have hex : ∀ t, linkMark a d s = t → exec (.linkMark site d) s = .next t := fun t h => congrArg Host.Outcome.next h
  unfold linkMark at hex
  dsimp only at hex
  rw [show (s.link a d.num).markDue = true from hm, if_neg (by rw [h1]; decide), hb] at hex
  dsimp only at hex
  rw [linkState_modHut, if_pos ((linkState_setLink_ne s a d d.opp 1 hba).trans h2)] at hex
  refine .next (hex _ rfl) ⟨?_, linkState_setLink .., .of_mems (by simp), .wr (.wr (.refl _ _) _ (.inl ⟨rfl, rfl, rfl⟩)) _ (.inr ⟨rfl, rfl, rfl⟩)⟩
  exact (linkState_setLink_ne _ b d.opp d 1 hba.symm).trans (linkState_setLink s a d 1)

/-- Settles O20: forwarding is one fold of sends over distinct outputs, and what the hold line has let go leaves registers and clocks. -/
theorem linksForwardAndReplay : Obligations.LinksForwardAndReplay := ⟨flitsAreForwarded, linksReplayAndEnd⟩

end Sys2Proof.Proofs
end

section
/-! PROOF. Entries, signal records and ring records leave their queues and arrive (R210 to R213, R221, R222, R229, R351). -/

namespace Sys2Proof.Proofs

open Sys2Proof Sys2Proof.Machine

/-! ### What a position that leaves changes -/

section
variable {γ : Type} (f : State → γ) (s : State)

/-- What counts, arbiters and the site's links leave, a position sent leaves. -/
theorem sendItem_keeps {a : Nat} (hc : ∀ (s : State) c b n, f (s.count c b n) = f s) (ha : ∀ (s : State) l, f { s with arbs := l } = f s)
    (hl : ∀ (s : State) k g, f (s.modLink a k g) = f s) (q : Nat) (item : QItem) : f (s.sendItem a q item) = f s := by
  unfold State.sendItem
  split
  · unfold State.joinFlit
    exact hl ..
  · extract_lets x n v w
    have hv : f v = f s := by
      by_cases h : s.role a q = 1
      · exact (congrArg f (if_pos h)).trans (take_keeps f s hc ha _ _ _)
      · exact congrArg f (if_neg h)
    have hw : f w = f v := foldl_keep f _ (fun s k => sendOn_keeps f s (fun s c b n _ => hc s c b n) (fun s g => hl s _ g) _) _ v
    exact (inject_keeps f w hc hl q x 1).trans (hw.trans hv)

/-- What counts and the queue leave, the end of a wait for credit leaves. -/
theorem settleRc_keeps {a q : Nat} (hc : ∀ (s : State) c b n, f (s.count c b n) = f s) (hq : ∀ (s : State) g, f (s.modQueue a q g) = f s) :
    f (s.settleRc a q) = f s := by
  unfold State.settleRc
  split
  · exact (hq ..).trans (hc ..)
  · rfl

end

section
variable (s : State) (a q : Nat)

theorem sendItem_quiet (item : QItem) : (s.sendItem a q item).regs = s.regs ∧ (s.sendItem a q item).flight = s.flight ∧
    (s.sendItem a q item).hut = s.hut ∧ ∀ b n, (s.sendItem a q item).queue b n = s.queue b n :=
  ⟨sendItem_keeps (a := a) State.regs s (fun _ _ _ _ => rfl) (fun _ _ => rfl) (fun _ _ _ => rfl) q item,
    sendItem_keeps (a := a) State.flight s (fun _ _ _ _ => rfl) (fun _ _ => rfl) (fun _ _ _ => rfl) q item,
    sendItem_keeps (a := a) State.hut s (fun _ _ _ _ => rfl) (fun _ _ => rfl) (fun _ _ _ => rfl) q item,
    fun b n => sendItem_keeps (a := a) (fun s => s.queue b n) s (fun _ _ _ _ => rfl) (fun _ _ => rfl) (fun _ _ _ => State.queue_modLink ..) q item⟩

theorem items_settleRc : ((s.settleRc a q).queue a q).items = (s.queue a q).items := by
  unfold State.settleRc
  split
  · rw [State.queue_modQueue_same]; rfl
  · rfl

theorem settleRc_quiet : (s.settleRc a q).regs = s.regs ∧ (s.settleRc a q).flight = s.flight :=
  ⟨settleRc_keeps State.regs s (fun _ _ _ _ => rfl) fun _ _ => rfl, settleRc_keeps State.flight s (fun _ _ _ _ => rfl) fun _ _ => rfl⟩

theorem items_rcWait : ((s.rcWait a q).queue a q).items = (s.queue a q).items := by
  unfold State.rcWait
  dsimp only
  rw [State.queue_modQueue_same]; rfl

/-- The head position leaves with the next sequence number, for each of its receivers. -/
theorem departTo_departs (item : QItem) (dsts : List Nat) : let t := s.departTo a q item dsts
    (t.queue a q).items = (s.queue a q).items.drop 1 ∧ t.rd F.QUE_STAT_SEQ a q = (s.rd F.QUE_STAT_SEQ a q + 1) % 65536 ∧
    t.flight = List.append s.flight (dsts.map fun d => ⟨32 * a + q, d, s.rd F.QUE_STAT_SEQ a q, item⟩) ∧
    SameRegs s t (oneReg .QUE_STAT a q) ∧ (∀ g : Fld, g.reg ≠ .QUE_STAT ∨ g.lo + g.width ≤ 37 ∨ 53 ≤ g.lo → ∀ b i, t.rd g b i = s.rd g b i) := by
  obtain ⟨h1, h2, -, h4⟩ := sendItem_quiet s a q item
  have hid : qid a q = 32 * a + q := by rw [qid, Nat.mul_comm]
  unfold State.departTo
  extract_lets sq v w z
  have hw : w.regs = s.regs := h1
  refine ⟨?_, ?_, ?_, ?_, fun g hg b i => ?_⟩
  · rw [State.queue_modQueue_same]
    exact congrArg (fun x : QueueX => x.items.drop 1) (h4 a q)
  · rw [State.rd_modQueue, State.rd_wr_self _ _ _ _ _ (by decide)]
    exact Nat.mod_mod _ _
  · change List.append v.flight _ = _
    rw [h2, hid]
  · exact (SameRegs.wr (.of_eq hw) _ ⟨rfl, rfl, rfl⟩).trans (.of_eq rfl)
  · rw [State.rd_modQueue, State.rd_wr_other _ _ _ _ _ _ hg]
    exact rd_of_regs hw g b i

end

/-! ### Departures -/

theorem entryDepart_entry {u : State} {a q : Nat} {e : Entry} {w : Nat} {l : List QItem} (hi : (u.queue a q).items = .entry e w :: l)
    (hw : w < u.cycles) (hr : u.running a = true) : entryDepart a q u =
      if u.role a q = 1 ∨ (u.role a q = 3 ∧ u.rd F.QUE_STAT_CSTATE a q = 2) then
        if u.rd F.QUE_STAT_RCRED a q = 0 then u.rcWait a q
        else if !u.laneFree a q then u
        else ((u.settleRc a q).wr F.QUE_STAT_RCRED a q (u.rd F.QUE_STAT_RCRED a q - 1)).departTo a q (.entry e w) [u.rd F.QUE_CFG_PEER a q]
      else if u.role a q = 5 then departRing a q e u
      else if u.role a q = 7 then departMcast a q (.entry e w) u
      else u := by
  unfold entryDepart
  rw [hi]
  dsimp only
  rw [if_neg (by rw [hr]; simpa using hw)]

/-- An entry leaves with one remote credit (R212). -/
theorem credited_departs {u : State} {a q : Nat} {e : Entry} {w : Nat} {l : List QItem} (hi : (u.queue a q).items = .entry e w :: l)
    (peer : Nat) :
    let t := ((u.settleRc a q).wr F.QUE_STAT_RCRED a q (u.rd F.QUE_STAT_RCRED a q - 1)).departTo a q (.entry e w) [peer]
    (t.queue a q).items = l ∧ t.rd F.QUE_STAT_RCRED a q = u.rd F.QUE_STAT_RCRED a q - 1 ∧
    t.rd F.QUE_STAT_SEQ a q = (u.rd F.QUE_STAT_SEQ a q + 1) % 65536 ∧
    t.flight = List.append u.flight [⟨32 * a + q, peer, u.rd F.QUE_STAT_SEQ a q, .entry e w⟩] ∧ Frame u t (oneReg .QUE_STAT a q) := by
  intro t
  have hm : mems t = mems u := by simp [t]
  obtain ⟨k1, k2⟩ := settleRc_quiet u a q
  have k3 := items_settleRc u a q
  have hc : ((u.settleRc a q).wr F.QUE_STAT_RCRED a q (u.rd F.QUE_STAT_RCRED a q - 1)).rd F.QUE_STAT_RCRED a q = u.rd F.QUE_STAT_RCRED a q - 1 := by
    rw [← rd_of_regs k1]
    exact rd_wr_pred _ a q (by decide)
  have hs : ((u.settleRc a q).wr F.QUE_STAT_RCRED a q (u.rd F.QUE_STAT_RCRED a q - 1)).rd F.QUE_STAT_SEQ a q = u.rd F.QUE_STAT_SEQ a q := by
    rw [State.rd_wr_other _ _ _ _ _ _ (by decide)]
    exact rd_of_regs k1 ..
  have hr : SameRegs u ((u.settleRc a q).wr F.QUE_STAT_RCRED a q (u.rd F.QUE_STAT_RCRED a q - 1)) (oneReg .QUE_STAT a q) :=
    .wr (.of_eq k1) _ ⟨rfl, rfl, rfl⟩
  have hi' : (((u.settleRc a q).wr F.QUE_STAT_RCRED a q (u.rd F.QUE_STAT_RCRED a q - 1)).queue a q).items = .entry e w :: l := k3.trans hi
  have hf : ((u.settleRc a q).wr F.QUE_STAT_RCRED a q (u.rd F.QUE_STAT_RCRED a q - 1)).flight = u.flight := k2
  have ht : t = ((u.settleRc a q).wr F.QUE_STAT_RCRED a q (u.rd F.QUE_STAT_RCRED a q - 1)).departTo a q (.entry e w) [peer] := rfl
  clear_value t
  generalize (u.settleRc a q).wr F.QUE_STAT_RCRED a q (u.rd F.QUE_STAT_RCRED a q - 1) = v at ht hc hs hr hi' hf
  subst ht
  obtain ⟨d1, d2, d3, d4, d5⟩ := departTo_departs v a q (.entry e w) [peer]
  refine ⟨?_, ?_, ?_, ?_, .of_mems hm, hr.trans d4⟩
  · rw [d1, hi']; rfl
  · rw [d5 _ (by decide), hc]
  · rw [d2, hs]
  · rw [d3, hs, hf]; rfl

/-! ### Trees -/

section
variable (u : State) (a q : Nat)

/-- The outstanding entries of a leaf one higher. -/
def addOutst (a : Nat) (s : State) (r : Nat × Nat) : State := s.wr F.QUE_MLEAF_OUTST a r.1 (s.outst a r.1 + 1)

theorem outst_addAll : ∀ (l : List (Nat × Nat)) (v : State), (l.map Prod.fst).Nodup → (∀ r ∈ l, v.outst a r.1 < 64) →
    (∀ r ∈ l, (l.foldl (addOutst a) v).outst a r.1 = v.outst a r.1 + 1) ∧
    (∀ i, i ∉ l.map Prod.fst → (l.foldl (addOutst a) v).outst a i = v.outst a i) ∧
    SameRegs v (l.foldl (addOutst a) v) (fun r b i => ∃ x ∈ l, oneReg .QUE_MLEAF a x.1 r b i) := by
  intro l
  induction l with
  | nil => exact fun v _ _ => ⟨fun r hr => absurd hr List.not_mem_nil, fun _ _ => rfl, .refl _ _⟩
  | cons y l ih =>
    intro v hn hl
    rw [List.map_cons, List.nodup_cons] at hn
    have hsame : (addOutst a v y).outst a y.1 = v.outst a y.1 + 1 := by
      have := hl y (.head _)
      unfold addOutst
      rw [State.outst, State.rd_wr_self _ _ _ _ _ (by decide)]
      exact Nat.mod_eq_of_lt (by change _ < 128; omega)
    have hne : ∀ i, i ≠ y.1 → (addOutst a v y).outst a i = v.outst a i := fun i hi => v.rd_wr_ne _ fun e => hi e.2.2
    have hy : ∀ r ∈ l, r.1 ≠ y.1 := fun r hr e => hn.1 (e ▸ List.mem_map_of_mem hr)
    obtain ⟨i1, i2, i3⟩ := ih (addOutst a v y) hn.2 fun r hr => by rw [hne _ (hy r hr)]; exact hl r (.tail _ hr)
    refine ⟨fun r hr => ?_, fun i hi => ?_, ?_⟩
    · rcases List.mem_cons.mp hr with rfl | hr
      · exact (i2 _ hn.1).trans hsame
      · exact (i1 r hr).trans (by rw [hne _ (hy r hr)])
    · rw [List.map_cons, List.mem_cons, not_or] at hi
      exact (i2 i hi.2).trans (hne i hi.1)
    · exact (SameRegs.wr (.refl _ _) _ ⟨y, .head _, rfl, rfl, rfl⟩).trans (i3.mono fun r b i ⟨x, hx, h⟩ => ⟨x, .tail _ hx, h⟩)

/-- A tree's leaves have places of their own in the table. -/
theorem leaves_nodup : ((u.leaves a q).map Prod.fst).Nodup := by
  unfold State.leaves
  dsimp only
  rw [List.map_map]
  exact (List.nodup_range.filter _).map fun i j h => Nat.add_left_cancel (show 16 * _ + i = 16 * _ + j from h)

theorem lagging_none (h : ∀ r ∈ u.leaves a q, u.outst a r.1 < 64) : u.lagging a q = [] := by
  unfold State.lagging
  dsimp only
  split
  · rfl
  · refine List.filter_eq_nil_iff.mpr fun r hr => ?_
    have := h r hr
    simp only [Bool.and_eq_true, decide_eq_true_eq, not_and]
    omega

/-- An entry goes to every attached leaf once each has room (R221). -/
theorem departMcast_room {e : Entry} {w : Nat} (h : ∀ r ∈ u.leaves a q, u.outst a r.1 < 64) (hf : u.laneFree a q = true) :
    departMcast a q (.entry e w) u =
      ((u.leaves a q).foldl (addOutst a) (u.settleRc a q)).departTo a q (.entry e w) ((u.leaves a q).map Prod.snd) := by
  have hany : (u.leaves a q).any (fun r => decide (u.outst a r.1 ≥ 64)) = false :=
    List.any_eq_false.mpr fun r hr => by have := h r hr; simp only [decide_eq_true_eq]; omega
  unfold departMcast
  rw [lagging_none u a q h]
  simp only [QItem.isEntry, List.foldl_nil, if_true, Bool.true_and, hany, hf, Bool.not_true, Bool.false_eq_true, if_false]
  rfl

end

theorem tree_departs {u : State} {a q : Nat} {e : Entry} {w : Nat} {l : List QItem} (hi : (u.queue a q).items = .entry e w :: l)
    (h : ∀ r ∈ u.leaves a q, u.outst a r.1 < 64) (hf : u.laneFree a q = true) : let t := departMcast a q (.entry e w) u
    (t.queue a q).items = l ∧ (∀ r ∈ u.leaves a q, t.outst a r.1 = u.outst a r.1 + 1) ∧
    t.flight = List.append u.flight ((u.leaves a q).map (fun r => ⟨32 * a + q, r.2, u.rd F.QUE_STAT_SEQ a q, .entry e w⟩)) ∧
    Frame u t (fun r b i => oneReg .QUE_STAT a q r b i ∨ (∃ x ∈ u.leaves a q, oneReg .QUE_MLEAF a x.1 r b i)) := by
  intro t
  have hm : mems t = mems u := by simp [t]
  obtain ⟨k1, k2⟩ := settleRc_quiet u a q
  have ho : ∀ i, (u.settleRc a q).outst a i = u.outst a i := fun i => rd_of_regs k1 ..
  obtain ⟨i1, -, i3⟩ := outst_addAll a (u.leaves a q) (u.settleRc a q) (leaves_nodup u a q) fun r hr => by rw [ho]; exact h r hr
  have e1 : ((u.leaves a q).foldl (addOutst a) (u.settleRc a q)).queue a q = (u.settleRc a q).queue a q :=
    foldl_keep (fun s => s.queue a q) (addOutst a) (fun _ _ => rfl) _ _
  have e2 : ((u.leaves a q).foldl (addOutst a) (u.settleRc a q)).flight = u.flight :=
    (foldl_keep State.flight (addOutst a) (fun _ _ => rfl) _ _).trans k2
  have e3 : ((u.leaves a q).foldl (addOutst a) (u.settleRc a q)).rd F.QUE_STAT_SEQ a q = u.rd F.QUE_STAT_SEQ a q :=
    (foldl_keep (fun s => s.rd F.QUE_STAT_SEQ a q) (addOutst a) (fun s _ => s.rd_wr_other _ _ _ _ _ (by decide)) _ _).trans (rd_of_regs k1 ..)
  have ht : t = ((u.leaves a q).foldl (addOutst a) (u.settleRc a q)).departTo a q (.entry e w) ((u.leaves a q).map Prod.snd) :=
    departMcast_room u a q h hf
  clear_value t
  subst ht
  generalize (u.leaves a q).foldl (addOutst a) (u.settleRc a q) = v at i1 i3 e1 e2 e3 hm
  obtain ⟨d1, d2, d3, d4, d5⟩ := departTo_departs v a q (.entry e w) ((u.leaves a q).map Prod.snd)
  refine ⟨?_, fun r hr => ?_, ?_, .of_mems hm, ?_⟩
  · rw [d1, e1, items_settleRc, hi]; rfl
  · rw [State.outst, d5 _ (by decide), ← ho]
    exact i1 r hr
  · rw [d3, e2, e3, List.map_map]; rfl
  · exact (((SameRegs.of_eq k1).trans i3).mono fun _ _ _ h => .inr h).trans (d4.mono fun _ _ _ h => .inl h)

/-! ### Rings -/

/-- A payload record goes to the next record of its message's place (R229). -/
theorem ring_departs {u : State} {a q : Nat} {e : Entry} {w base len k : Nat} {b : Bool} {l : List QItem}
    (hi : (u.queue a q).items = .entry e w :: l) (hf : u.laneFree a q = true) (hp : (u.queue a q).placing = some (base, len, k, b))
    (hk : k + 1 < len) : let t := departRing a q e u
    (t.queue a q).items = l ∧ (t.queue a q).ringOut = List.append (u.queue a q).ringOut [((base + 1 + k) % u.ringLen a q, e, 0)] ∧
    (t.queue a q).placing = some (base, len, k + 1, b || e.poisoned) ∧ Frame u t noReg := by
  intro t
  have hm : mems t = mems u := by simp [t]
  have ht : t = (u.ringPut a q ((base + 1 + k) % u.ringLen a q) e 0).modQueue a q (fun x =>
      { x with items := x.items.drop 1, placing := some (base, len, k + 1, b || e.poisoned) }) := by
    change departRing a q e u = _
    unfold departRing ringSend
    rw [hf, hp]
    dsimp only [Option.isNone_some]
    rw [if_neg (by decide), if_neg (by decide), if_neg (by omega), if_neg (by omega)]
  clear_value t
  subst ht
  obtain ⟨h1, -, -, h4⟩ := sendItem_quiet u a q (.entry e 0)
  rw [State.queue_modQueue_same, State.ringPut, State.queue_modQueue_same, h4 a q]
  exact ⟨congrArg (List.drop 1) hi, rfl, rfl, .of_mems hm, .of_eq h1⟩

theorem entriesDepart : EntriesDepart := by
  intro s p q l a n u peer sq hr hrun
  have hq : u.queue a n = s.queue a n := at_queue ..
  have hex : ∀ t, entryDepart a n u = t → exec (.entryDepart p q) s = .next t := fun t h =>
    congrArg Host.Outcome.next ((if_pos hr).trans h)
  rw [← hq]
  clear_value u
  refine ⟨fun hrole => ⟨fun e w hi hw => ⟨fun hc hf => ?_, fun hc => ?_⟩, fun c k hi hf => ?_⟩, fun e w h7 hi hw hf hl => ?_,
    fun e w base len k b h5 hi hw hf hp hk => ?_⟩
  · rw [entryDepart_entry hi hw hrun, if_pos hrole, if_neg hc, hf, if_neg (by decide)] at hex
    exact .next (hex _ rfl) (credited_departs hi peer)
  · rw [entryDepart_entry hi hw hrun, if_pos hrole, if_pos hc] at hex
    exact .next (hex _ rfl) ⟨(items_rcWait ..).trans hi, rfl, .of_mems (by simp), .of_eq rfl⟩
  · have he : entryDepart a n u = u.departTo a n (.sig c k) [peer] := by
      unfold entryDepart
      rw [hi]
      dsimp only
      rw [hrun, if_neg (by decide), if_pos hrole, if_pos hf]
    obtain ⟨d1, d2, d3, d4, d5⟩ := departTo_departs u a n (.sig c k) [peer]
    refine .next (hex _ he) ⟨?_, d5 _ (by decide) a n, d2, d3, .of_mems (by simp), d4⟩
    rw [d1, hi]; rfl
  · rw [entryDepart_entry hi hw hrun, if_neg (by simp [h7]), if_neg (by simp [h7]), if_pos h7] at hex
    exact .next (hex _ rfl) (tree_departs hi hl hf)
  · rw [entryDepart_entry hi hw hrun, if_neg (by simp [h5]), if_pos h5] at hex
    exact .next (hex _ rfl) (ring_departs hi hf hp hk)

/-! ### Arrivals -/

section
variable (s : State) (a q : Nat)

/-- The next sequence number is expected, in SEQ or behind a leaf's gap. -/
theorem tookEseq_next (n : Nat) : ((s.queue a q).next = none → (s.tookEseq a q n).rd F.QUE_STAT_SEQ a q = (n + 1) % 65536) ∧
    ((s.queue a q).next ≠ none → ((s.tookEseq a q n).queue a q).next = some ((n + 1) % 65536)) := by
  unfold State.tookEseq
  refine ⟨fun h => ?_, fun h => ?_⟩
  · rw [h, if_neg (by decide), State.rd_wr_self _ _ _ _ _ (by decide)]
    exact Nat.mod_mod _ _
  · rw [if_pos (Option.isSome_iff_ne_none.mpr h), State.queue_modQueue_same]

theorem tookEseq_quiet (n : Nat) : ((s.tookEseq a q n).queue a q).items = (s.queue a q).items ∧ (s.tookEseq a q n).sigAdds = s.sigAdds ∧
    SameRegs s (s.tookEseq a q n) (oneReg .QUE_STAT a q) ∧ OtherSites s (s.tookEseq a q n) a := by
  unfold State.tookEseq
  split
  · rw [State.queue_modQueue_same]
    exact ⟨rfl, rfl, .of_eq rfl, .modSite (.of_eq rfl) _⟩
  · exact ⟨rfl, rfl, .wr (.refl _ _) _ ⟨rfl, rfl, rfl⟩, .of_eq rfl⟩

/-- The source checks speak of registers and the queue alone. -/
theorem srcOk_congr {s t : State} {a q : Nat} (hr : t.regs = s.regs) (hq : t.queue a q = s.queue a q) (h : FlitHdr) :
    t.srcOk a q h = s.srcOk a q h := by
  have hd := rd_of_regs hr
  unfold State.srcOk State.farSite State.connOf State.connId State.nextEseq State.role
  rw [hq, hd, hd, hd, hd]

theorem sigAdd_adds (id n : Nat) : aget (s.sigAdd id n).sigAdds id = some ((aget s.sigAdds id).getD 0 + n) := by
  unfold State.sigAdd
  exact aget_aput_same ..

theorem queue_sigAdd (id n b m : Nat) : (s.sigAdd id n).queue b m = s.queue b m := rfl

/-- A position sent late leaves registers, pending adds and queues. -/
theorem lateFlit_quiet (k n : Nat) : (s.lateFlit a q k n).regs = s.regs ∧ (s.lateFlit a q k n).sigAdds = s.sigAdds ∧
    ∀ b m, (s.lateFlit a q k n).queue b m = s.queue b m := by
  unfold State.lateFlit
  exact ⟨sendOn_keeps (a := a) State.regs s (fun _ _ _ _ _ => rfl) (fun _ _ => rfl) _,
    sendOn_keeps (a := a) State.sigAdds s (fun _ _ _ _ _ => rfl) (fun _ _ => rfl) _,
    fun b m => sendOn_keeps (a := a) (fun s => s.queue b m) s (fun _ _ _ _ _ => rfl) (fun _ _ => State.queue_modLink ..) _⟩

/-- A flit that fails the source checks is counted, and the job fails (R351). -/
theorem routeFault_counts : (s.routeFault a).ctr C.TRV_CNT_SRCERR a = (s.ctr C.TRV_CNT_SRCERR a + 1) % 2 ^ 48 ∧
    (∀ x, s.sectOf a = some x → (s.routeFault a).hut.fails = List.append s.hut.fails [⟨x / 32, s.jobOf x, 0x20, 4, a, 0, 0, none⟩]) ∧
    (s.routeFault a).regs = s.regs ∧ (s.routeFault a).sites = s.sites := by
  have hx : (s.count C.TRV_CNT_SRCERR a).sectOf a = s.sectOf a := rfl
  unfold State.routeFault State.failSite
  rw [hx]
  cases s.sectOf a with
  | none => exact ⟨s.ctr_count_same .., fun x h => by simp at h, rfl, rfl⟩
  | some e => exact ⟨s.ctr_count_same .., fun x h => by cases h; rfl, rfl, rfl⟩

end

theorem receiveEntry_eq {u : State} {a q : Nat} (h : FlitHdr) (e : Entry) (hr : u.role a q = 2 ∨ u.role a q = 4)
    (ha : u.arrives a q = true) : receiveEntry a q h e u =
      if h.kind.toNat ≠ 1 ∨ !u.srcOk a q h then (u.tookFlight (qid a q) h.eseq.toNat false).routeFault a
      else ((u.tookFlight (qid a q) h.eseq.toNat false).tookEseq a q h.eseq.toNat).modQueue a q (fun x =>
        { x with items := List.append x.items [.entry e u.cycles], arrived := x.arrived + 1 }) := by
  have hs : (u.tookFlight (qid a q) h.eseq.toNat false).srcOk a q h = u.srcOk a q h := srcOk_congr rfl rfl h
  unfold receiveEntry
  dsimp only
  rw [if_neg (by rw [ha]; rcases hr with hr | hr <;> simp [hr]), hs]
  rfl

/-- A sequence number has been taken at a queue's end: in SEQ, or behind a leaf's gap. -/
def TookSeq (s t : State) (a q n : Nat) : Prop := ((s.queue a q).next = none → t.rd F.QUE_STAT_SEQ a q = (n + 1) % 65536) ∧
  ((s.queue a q).next ≠ none → (t.queue a q).next = some ((n + 1) % 65536))

theorem entryArrives {s u : State} {a q : Nat} (h : FlitHdr) (e : Entry) (hq : u.queue a q = s.queue a q)
    (hr : u.role a q = 2 ∨ u.role a q = 4) (ha : u.arrives a q = true) (hk : h.kind = 1) (hs : u.srcOk a q h = true) :
    let t := receiveEntry a q h e u
    (t.queue a q).items = List.append (s.queue a q).items [.entry e u.cycles] ∧ TookSeq s t a q h.eseq.toNat ∧
    Frame u t (oneReg .QUE_STAT a q) ∧ OtherSites u t a := by
  intro t
  have hm : mems t = mems u := by simp [t]
  have ht : t = _ := receiveEntry_eq h e hr ha
  rw [hk, hs, if_neg (by decide)] at ht
  clear_value t
  subst ht
  rw [TookSeq, ← hq]
  obtain ⟨h1, h2⟩ := tookEseq_next (u.tookFlight (qid a q) h.eseq.toNat false) a q h.eseq.toNat
  obtain ⟨h3, -, h5, h6⟩ := tookEseq_quiet (u.tookFlight (qid a q) h.eseq.toNat false) a q h.eseq.toNat
  generalize (u.tookFlight (qid a q) h.eseq.toNat false).tookEseq a q h.eseq.toNat = v at h1 h2 h3 h5 h6 hm
  rw [State.queue_modQueue_same]
  exact ⟨congrArg (fun l => List.append l _) h3, ⟨h1, h2⟩, ⟨.of_mems hm, h5.trans (.of_eq rfl)⟩, .modSite h6 _⟩

/-- A signal record of the ordered lane takes its number and adds to its counter (R211). -/
theorem signalRecord_ordered {u : State} {a q : Nat} (h : FlitHdr) (c : BitVec 5) (k : BitVec 16) (hr : u.role a q ≠ 0)
    (ha : u.arrives a q = true) (hk : h.kind = 1) (hs : u.srcOk a q h = true) (h6 : u.role a q ≠ 6) : signalRecord a q h c k u =
      (((u.tookFlight (qid a q) h.eseq.toNat true).tookEseq a q h.eseq.toNat).modQueue a q (fun x =>
        { x with arrived := x.arrived + 1 })).sigAdd (qid a c.toNat) k.toNat := by
  have hs' : (u.tookFlight (qid a q) h.eseq.toNat true).srcOk a q h = u.srcOk a q h := srcOk_congr rfl rfl h
  have h6' : (u.role a q == 6) = false := beq_eq_false_iff_ne.mpr h6
  unfold signalRecord
  rw [hk]
  dsimp only
  rw [if_neg (by rw [ha, h6']; simpa using hr)]
  refine (if_neg fun e => e.elim (fun e => e.1 rfl) fun e => ?_).trans (congrArg (fun v => State.sigAdd v _ _) ((if_neg (by decide)).trans (if_neg h6)))
  exact Bool.noConfusion ((hs'.trans hs).symm.trans ((Bool.not_eq_true' _).mp e))

/-- A signal record of a ring arrives behind the records placed before it. -/
theorem signalRecord_ring {u : State} {a q x : Nat} {rest : List (Nat × Entry × Nat)} (h : FlitHdr) (c : BitVec 5) (k : BitVec 16)
    (ha : u.arrives a q = true) (hk : h.kind = 1) (hs : u.srcOk a q h = true) (h6 : u.role a q = 6)
    (ho : (u.queue (u.rd F.QUE_CFG_PEER a q / 32) (u.rd F.QUE_CFG_PEER a q % 32)).ringOut = (x, Entry.zero, 3) :: rest) :
    signalRecord a q h c k u =
      ((u.tookFlight (qid a q) h.eseq.toNat true).modQueue (u.rd F.QUE_CFG_PEER a q / 32) (u.rd F.QUE_CFG_PEER a q % 32) (fun x =>
        { x with written := x.written + 1, ringOut := x.ringOut.drop 1 })).sigAdd (qid a c.toNat) k.toNat := by
  have hs' : (u.tookFlight (qid a q) h.eseq.toNat true).srcOk a q h = u.srcOk a q h := srcOk_congr rfl rfl h
  unfold signalRecord
  rw [hk]
  dsimp only
  rw [if_neg (by simp [ha, h6, ho])]
  refine (if_neg fun e => e.elim (fun e => e.1 rfl) fun e => ?_).trans (congrArg (fun v => State.sigAdd v _ _) ((if_neg (by decide)).trans (if_pos h6)))
  exact Bool.noConfusion ((hs'.trans hs).symm.trans ((Bool.not_eq_true' _).mp e))

/-- A stream program's signal comes on the stream lane (R191). -/
theorem signalRecord_lane {u : State} {a q : Nat} (h : FlitHdr) (c : BitVec 5) (k : BitVec 16) (hr : u.role a q ≠ 0)
    (ha : u.arrives a q = true) (hk : h.kind = 2) (hs : u.srcOk a q h = true) : signalRecord a q h c k u =
      ((u.lateFlit (u.rd F.QUE_CFG_PEER a q / 32) (u.rd F.QUE_CFG_PEER a q % 32) 2 0).tookFlight (qid a q) 65536 true).sigAdd
        (qid a c.toNat) k.toNat := by
  obtain ⟨k1, -, k3⟩ := lateFlit_quiet u (u.rd F.QUE_CFG_PEER a q / 32) (u.rd F.QUE_CFG_PEER a q % 32) 2 0
  have hs' : ((u.lateFlit (u.rd F.QUE_CFG_PEER a q / 32) (u.rd F.QUE_CFG_PEER a q % 32) 2 0).tookFlight (qid a q) 65536 true).srcOk a q h =
    u.srcOk a q h := srcOk_congr k1 (k3 a q) h
  unfold signalRecord
  rw [hk]
  dsimp only
  rw [if_neg (by rw [ha]; simpa using hr)]
  refine (if_neg fun e => e.elim (fun e => Bool.noConfusion e.2) fun e => ?_).trans (congrArg (fun v => State.sigAdd v _ _) (if_pos rfl))
  exact Bool.noConfusion ((hs'.trans hs).symm.trans ((Bool.not_eq_true' _).mp e))

theorem entriesAndRecordsArrive : EntriesAndRecordsArrive := by
  intro s p q h a n u tookSeq hr ha
  have hq : ∀ b m, u.queue b m = s.queue b m := fun b m => at_queue ..
  have hid : ∀ c, qid a c = 32 * a + c := fun c => by rw [qid, Nat.mul_comm]
  have hexE : ∀ e t, receiveEntry a n h e u = t → exec (.receiveEntry p q h e) s = .next t := fun e t h =>
    congrArg Host.Outcome.next ((if_pos hr).trans h)
  have hexS : ∀ c k t, signalRecord a n h c k u = t → exec (.signalRecord p q h c k) s = .next t := fun c k t h =>
    congrArg Host.Outcome.next ((if_pos hr).trans h)
  clear_value u
  refine ⟨fun e hrole => ?_, fun c k hrole hs => ?_⟩
  · have hex := hexE e
    refine ⟨fun hk hs => .next (hex _ rfl) (entryArrives h e (hq a n) hrole ha hk hs), fun hbad => ?_⟩
    have hb : h.kind.toNat ≠ 1 ∨ (!u.srcOk a n h) = true :=
      hbad.imp (fun hk e => hk (BitVec.eq_of_toNat_eq e)) fun hs => (Bool.not_eq_true' _).mpr hs
    rw [receiveEntry_eq h e hrole ha, if_pos hb] at hex
    obtain ⟨h1, h2, h3, h4⟩ := routeFault_counts (u.tookFlight (qid a n) h.eseq.toNat false) a
    refine .next (hex _ rfl) ⟨?_, h1, h2, .of_mems (by simp), .of_eq h3⟩
    rw [State.queue_congr h4, ← hq]
    rfl
  · have hex := hexS c k
    intro added far
    have hadd : ∀ v : State, v.sigAdds = u.sigAdds → added (v.sigAdd (qid a c.toNat) k.toNat) := fun v hv => by
      change aget _ (32 * a + c.toNat) = _
      rw [← hid, sigAdd_adds, hv]
    refine ⟨fun hk h6 => ?_, fun x rest hk h6 ho => ?_, fun hk => ?_⟩
    · have ht := signalRecord_ordered h c k hrole ha hk hs h6
      have hm : mems (signalRecord a n h c k u) = mems u := by simp
      rw [ht] at hm
      obtain ⟨h1, h2⟩ := tookEseq_next (u.tookFlight (qid a n) h.eseq.toNat true) a n h.eseq.toNat
      obtain ⟨h3, h4, h5, -⟩ := tookEseq_quiet (u.tookFlight (qid a n) h.eseq.toNat true) a n h.eseq.toNat
      refine .next (hex _ ht) ?_
      generalize (u.tookFlight (qid a n) h.eseq.toNat true).tookEseq a n h.eseq.toNat = v at h1 h2 h3 h4 h5 hm
      refine ⟨⟨fun hn => h1 ((hq a n ▸ hn :)), fun hn => ?_⟩, hadd (v.modQueue a n _) h4, ?_, .of_mems hm, h5.trans (.of_eq rfl)⟩
      · rw [queue_sigAdd, State.queue_modQueue_same]; exact h2 (hq a n ▸ hn :)
      · rw [queue_sigAdd, State.queue_modQueue_same, ← hq]; exact h3
    · have ht := signalRecord_ring h c k ha hk hs h6 (x := x) (rest := rest) (by rw [hq]; exact ho)
      have hm : mems (signalRecord a n h c k u) = mems u := by simp
      rw [ht] at hm
      refine .next (hex _ ht) ⟨hadd ((u.tookFlight (qid a n) h.eseq.toNat true).modQueue _ _ _) rfl, ?_, .of_mems hm, .of_eq rfl⟩
      rw [queue_sigAdd, State.queue_modQueue_same]
      change ((u.queue (far / 32) (far % 32)).ringOut).drop 1 = rest
      rw [hq, ho]
      rfl
    · have ht := signalRecord_lane h c k hrole ha hk hs
      have hm : mems (signalRecord a n h c k u) = mems u := by simp
      rw [ht] at hm
      obtain ⟨k1, k2, -⟩ := lateFlit_quiet u (u.rd F.QUE_CFG_PEER a n / 32) (u.rd F.QUE_CFG_PEER a n % 32) 2 0
      generalize u.lateFlit (u.rd F.QUE_CFG_PEER a n / 32) (u.rd F.QUE_CFG_PEER a n % 32) 2 0 = v at ht hm k1 k2
      exact .next (hex _ ht) ⟨hadd (v.tookFlight (qid a n) 65536 true) k2, .of_mems hm, .of_eq k1⟩

/-- Settles O21: a departure is one send and one sequence number taken, an arrival the same at the other end. -/
theorem entriesTravel : Obligations.EntriesTravel := ⟨entriesDepart, entriesAndRecordsArrive⟩

end Sys2Proof.Proofs
end

section
/-! PROOF. Credits that return, gap markers and the records of rings (R212, R214, R221, R223, R228, R229). -/

namespace Sys2Proof.Proofs

open Sys2Proof Sys2Proof.Machine

/-! ### Queues through a change of one -/

/-- What a change of one queue's part keeps of every queue, it keeps of each. -/
theorem queue_modQueue_part {γ : Type} (P : QueueX → γ) (s : State) (a q : Nat) (g : QueueX → QueueX) (hg : ∀ x, P (g x) = P x) (b m : Nat) :
    P ((s.modQueue a q g).queue b m) = P (s.queue b m) := by
  by_cases h : b = a ∧ m = q
  · rw [h.1, h.2, State.queue_modQueue_same, hg]
  · rw [State.queue_modQueue_ne]
    omega

theorem settleRc_part {γ : Type} (P : QueueX → γ) (s : State) (a q : Nat) (hg : ∀ x : QueueX, P { x with rcHeld := none } = P x) (b m : Nat) :
    P ((s.settleRc a q).queue b m) = P (s.queue b m) := by
  unfold State.settleRc
  split
  · exact queue_modQueue_part P _ a q _ hg b m
  · rfl

/-! ### Credits of a return flit -/

/-- Credits added to a send queue's, and what the far end has written. -/
def returned (v : State) (a q n k : Nat) : State :=
  ((v.settleRc a q).wr F.QUE_STAT_RCRED a q (v.rd F.QUE_STAT_RCRED a q + n)).modQueue a q (fun x => { x with written := max x.written k })

theorem returned_keeps {u v : State} {a q n k : Nat} (hr : v.regs = u.regs) (hm : mems v = mems u) :
    (returned v a q n k).rd F.QUE_STAT_RCRED a q = (u.rd F.QUE_STAT_RCRED a q + n) % 65536 ∧
    Frame u (returned v a q n k) (oneReg .QUE_STAT a q) := by
  have hmt : mems (returned v a q n k) = mems u := by simp [returned, hm]
  have k1 := (settleRc_quiet v a q).1
  refine ⟨?_, .of_mems hmt, (SameRegs.wr (.of_eq (k1.trans hr)) _ ⟨rfl, rfl, rfl⟩).trans (.of_eq rfl)⟩
  rw [returned, State.rd_modQueue, State.rd_wr_self _ _ _ _ _ (by decide), rd_of_regs hr]
  rfl

theorem returned_part {γ : Type} (P : QueueX → γ) (v : State) (a q n k : Nat) (h1 : ∀ x : QueueX, P { x with rcHeld := none } = P x)
    (h2 : ∀ (x : QueueX) w, P { x with written := w } = P x) (b m : Nat) : P ((returned v a q n k).queue b m) = P (v.queue b m) := by
  rw [returned, queue_modQueue_part P _ a q _ (fun x => h2 x _), State.queue_wr, settleRc_part P v a q h1]

theorem remoteCreditReturn_given {u v : State} {a q conn n : Nat} (hr : u.role a q = 1 ∨ u.role a q = 3) (ha : u.arrives a q = true)
    (hg : u.rd F.QUE_STAT_GEN a q = conn / 32)
    (hv : u.takeCredits (u.rd F.QUE_CFG_PEER a q / 32) (u.rd F.QUE_CFG_PEER a q % 32) n = some v) :
    remoteCreditReturn a q conn n u =
      returned v a q n (v.queue (u.rd F.QUE_CFG_PEER a q / 32) (u.rd F.QUE_CFG_PEER a q % 32)).arrived := by
  unfold remoteCreditReturn
  dsimp only
  rw [if_neg (by rw [ha]; rcases hr with hr | hr <;> simp [hr]), if_neg (by rw [State.stale, hg]; simp), hv]
  rfl

theorem creditsReturn {s u : State} {p : At} {q : QueueNo} {conn : BitVec 12} {k : BitVec 7} (hq : ∀ b m, u.queue b m = s.queue b m)
    (hex : ∀ t, remoteCreditReturn p.site.toNat q.toNat conn.toNat k.toNat u = t → exec (.remoteCreditReturn p q conn k) s = .next t)
    (hr : u.role p.site.toNat q.toNat = 1 ∨ u.role p.site.toNat q.toNat = 3) (ha : u.arrives p.site.toNat q.toNat = true) :
    let a := p.site.toNat
    let n := q.toNat
    let peer := u.rd F.QUE_CFG_PEER a n
    let x := s.queue (peer / 32) (peer % 32)
    let given (t : State) : Prop :=
      t.rd F.QUE_STAT_RCRED a n = (u.rd F.QUE_STAT_RCRED a n + k.toNat) % 65536 ∧ Frame u t (oneReg .QUE_STAT a n)
    (u.rd F.QUE_STAT_GEN a n = conn.toNat / 32 → k ≠ 0 →
      (∀ rest, x.credOut = k.toNat :: rest → Done (.remoteCreditReturn p q conn k) s (fun t =>
        given t ∧ (t.queue (peer / 32) (peer % 32)).credOut = rest)) ∧
      (x.credOut = [] → k.toNat ≤ 64 → k.toNat ≤ x.credRet → Done (.remoteCreditReturn p q conn k) s (fun t =>
        given t ∧ (t.queue (peer / 32) (peer % 32)).credRet = x.credRet - k.toNat))) ∧
    (u.rd F.QUE_STAT_GEN a n ≠ conn.toNat / 32 → Done (.remoteCreditReturn p q conn k) s (fun t =>
      t.ctr C.TRV_CNT_STALE a = (u.ctr C.TRV_CNT_STALE a + 1) % 2 ^ 48 ∧ t.sites = u.sites ∧ Frame u t noReg)) := by
  intro a n peer x given
  refine ⟨fun hg hk => ?_, fun hg => ?_⟩
  · have hk0 : k.toNat ≠ 0 := fun e => hk (BitVec.eq_of_toNat_eq e)
    have hx : x = u.queue (peer / 32) (peer % 32) := (hq ..).symm
    rw [hx]
    refine ⟨fun rest hc => ?_, fun hc h64 hle => ?_⟩
    · have hv : u.takeCredits (peer / 32) (peer % 32) k.toNat =
          some (u.modQueue (peer / 32) (peer % 32) (fun x => { x with credOut := rest })) := by
        unfold State.takeCredits
        dsimp only
        rw [if_neg hk0, hc]
        exact if_pos rfl
      have ht := remoteCreditReturn_given hr ha hg hv
      obtain ⟨g1, g2⟩ := returned_keeps (u := u) (v := u.modQueue (peer / 32) (peer % 32) (fun x => { x with credOut := rest })) (a := a)
        (q := n) (n := k.toNat) (k := ((u.modQueue (peer / 32) (peer % 32) (fun x => { x with credOut := rest })).queue (peer / 32) (peer % 32)).arrived)
        rfl (by simp)
      refine .next (hex _ ht) ⟨⟨g1, g2⟩, ?_⟩
      rw [returned_part QueueX.credOut _ _ _ _ _ (fun _ => rfl) (fun _ _ => rfl), State.queue_modQueue_same]
    · have hv : u.takeCredits (peer / 32) (peer % 32) k.toNat = some
          ((u.modQueue (peer / 32) (peer % 32) (fun x => { x with credRet := x.credRet - k.toNat })).lateFlit (peer / 32) (peer % 32) 5 k.toNat) := by
        unfold State.takeCredits
        dsimp only
        rw [if_neg hk0, hc]
        exact if_pos (Nat.le_min.mpr ⟨h64, hle⟩)
      have ht := remoteCreditReturn_given hr ha hg hv
      obtain ⟨k1, -, k3⟩ := lateFlit_quiet (u.modQueue (peer / 32) (peer % 32) (fun x => { x with credRet := x.credRet - k.toNat }))
        (peer / 32) (peer % 32) 5 k.toNat
      have hm : mems ((u.modQueue (peer / 32) (peer % 32) (fun x => { x with credRet := x.credRet - k.toNat })).lateFlit
        (peer / 32) (peer % 32) 5 k.toNat) = mems u := by simp
      have k4 := k3 (peer / 32) (peer % 32)
      rw [State.queue_modQueue_same] at k4
      generalize (u.modQueue (peer / 32) (peer % 32) (fun x => { x with credRet := x.credRet - k.toNat })).lateFlit
        (peer / 32) (peer % 32) 5 k.toNat = v at ht k1 k4 hm
      obtain ⟨g1, g2⟩ := returned_keeps (a := a) (q := n) (n := k.toNat) (k := (v.queue (peer / 32) (peer % 32)).arrived) k1 hm
      refine .next (hex _ ht) ⟨⟨g1, g2⟩, ?_⟩
      rw [returned_part QueueX.credRet _ _ _ _ _ (fun _ => rfl) (fun _ _ => rfl), k4]
  · have ht : remoteCreditReturn a n conn.toNat k.toNat u = u.count C.TRV_CNT_STALE a := by
      unfold remoteCreditReturn
      dsimp only
      rw [if_neg (by rw [ha]; rcases hr with hr | hr <;> simp [a, n, hr]), if_pos (by rw [State.stale]; simpa using Ne.symm hg)]
    exact .next (hex _ ht) ⟨State.ctr_count_same .., rfl, .of_mems (by simp), .of_eq rfl⟩

/-! ### Credits of a tree's leaf -/

/-- The credit message of a leaf. -/
def isCredit (a q leaf n : Nat) (c : CtlMsg) : Bool := match c with
  | .credit to_ l k _ _ => to_ == qid a q && l == leaf && k == n
  | _ => false

/-- A leaf attached at one place of its tree's table alone is found there. -/
theorem leaf_found {u : State} {a q leaf j : Nat} (hj : (j, leaf) ∈ u.leaves a q)
    (hu : ∀ i, 16 * u.rd F.QUE_PAR_MIDX a q ≤ i → i < 16 * u.rd F.QUE_PAR_MIDX a q + 16 → i ≠ j → u.rd F.QUE_MLEAF_LEAF a i ≠ leaf) :
    ∃ k, j = 16 * u.rd F.QUE_PAR_MIDX a q + k ∧ (List.range 16).find? (fun k => u.rd F.QUE_MLEAF_LEAF a (16 * u.rd F.QUE_PAR_MIDX a q + k) == leaf &&
      (u.rd F.QUE_MLEAF_ATT a (16 * u.rd F.QUE_PAR_MIDX a q + k) == 1 || decide (u.outst a (16 * u.rd F.QUE_PAR_MIDX a q + k) > 0))) = some k := by
  unfold State.leaves at hj
  obtain ⟨k, hk, he⟩ := List.mem_map.mp hj
  obtain ⟨hk, hatt⟩ := List.mem_filter.mp hk
  obtain ⟨rfl, hleaf⟩ := Prod.mk.injEq .. ▸ he
  refine ⟨k, rfl, ?_⟩
  have hp : (u.rd F.QUE_MLEAF_LEAF a (16 * u.rd F.QUE_PAR_MIDX a q + k) == leaf &&
      (u.rd F.QUE_MLEAF_ATT a (16 * u.rd F.QUE_PAR_MIDX a q + k) == 1 || decide (u.outst a (16 * u.rd F.QUE_PAR_MIDX a q + k) > 0))) = true := by
    rw [hatt, hleaf]; simp
  cases e : (List.range 16).find? (fun k => u.rd F.QUE_MLEAF_LEAF a (16 * u.rd F.QUE_PAR_MIDX a q + k) == leaf &&
      (u.rd F.QUE_MLEAF_ATT a (16 * u.rd F.QUE_PAR_MIDX a q + k) == 1 || decide (u.outst a (16 * u.rd F.QUE_PAR_MIDX a q + k) > 0))) with
  | none => exact absurd hp (List.find?_eq_none.mp e k hk)
  | some i =>
    have hi := List.mem_range.mp (List.mem_of_find?_eq_some e)
    have hl : u.rd F.QUE_MLEAF_LEAF a (16 * u.rd F.QUE_PAR_MIDX a q + i) = leaf := by
      have h := List.find?_some e
      simp only [Bool.and_eq_true, beq_iff_eq] at h
      exact h.1
    by_contra hne
    exact hu _ (Nat.le_add_right _ _) (by omega) (fun h => hne (congrArg some (by omega))) hl

/-- A leaf's outstanding entries lowered, and what its tree has written noted. -/
def leafCredited (s : State) (a q leaf n i : Nat) : State :=
  let seen := (s.queue (leaf / 32) (leaf % 32)).arrived
  let s := (s.settleRc a q).wr F.QUE_MLEAF_OUTST a i (s.outst a i - n)
  let s := s.modQueue a q (fun x => { x with leafRep := aput x.leafRep leaf seen })
  s.modQueue a q (fun x => { x with written := max x.written (s.treeWritten a q) })

theorem leafCredited_keeps (s : State) (a q leaf n i : Nat) : (leafCredited s a q leaf n i).outst a i = s.outst a i - n ∧
    (leafCredited s a q leaf n i).ctl = s.ctl ∧ Frame s (leafCredited s a q leaf n i) (oneReg .QUE_MLEAF a i) := by
  have hm : mems (leafCredited s a q leaf n i) = mems s := by simp [leafCredited]
  have k1 := (settleRc_quiet s a q).1
  have k2 : (s.settleRc a q).ctl = s.ctl := settleRc_keeps State.ctl s (fun _ _ _ _ => rfl) fun _ _ => rfl
  have hlt : s.outst a i < 128 := fieldGet_lt ..
  unfold leafCredited at hm ⊢
  refine ⟨?_, k2, .of_mems hm, (SameRegs.wr (.of_eq k1) _ ⟨rfl, rfl, rfl⟩).trans (.of_eq rfl)⟩
  rw [State.outst, State.rd_modQueue, State.rd_modQueue, State.rd_wr_self _ _ _ _ _ (by decide)]
  exact Nat.mod_eq_of_lt (by change _ < 128; omega)

section
variable {u : State} {a q leaf n conn part : Nat} {rest : List CtlMsg} (hc : u.ctl = .credit (32 * a + q) leaf n conn part :: rest)
include hc

/-- The message at the head of those under way is the one taken. -/
theorem credit_head : u.ctl.find? (isCredit a q leaf n) = some (.credit (32 * a + q) leaf n conn part) ∧
    u.tookCtl (isCredit a q leaf n) = { u with ctl := rest } := by
  have hm : isCredit a q leaf n (.credit (32 * a + q) leaf n conn part) = true := by simp [isCredit, qid, Nat.mul_comm]
  unfold State.tookCtl
  rw [hc, dropFirst, if_pos hm]
  exact ⟨List.find?_cons_of_pos hm, rfl⟩

theorem mcastCredit_cross (hp : u.partOf a ≠ some part) :
    mcastCredit a q leaf n u = State.count { u with ctl := rest } C.TRV_CNT_XPART a := by
  obtain ⟨hf, hd⟩ := credit_head hc
  have hx : State.crossPart { u with ctl := rest } a part = true := bne_iff_ne.mpr hp
  unfold mcastCredit
  extract_lets m mine v seen
  rw [show u.ctl.find? mine = _ from hf]
  change (if v.crossPart a part then _ else _) = _
  rw [show v = _ from hd]
  exact if_pos hx

theorem mcastCredit_leaf (hp : u.partOf a = some part) (hg : conn / 32 = u.rd F.QUE_STAT_GEN a q) (h7 : u.role a q = 7) {k : Nat}
    (hk : (List.range 16).find? (fun k => u.rd F.QUE_MLEAF_LEAF a (16 * u.rd F.QUE_PAR_MIDX a q + k) == leaf &&
      (u.rd F.QUE_MLEAF_ATT a (16 * u.rd F.QUE_PAR_MIDX a q + k) == 1 || decide (u.outst a (16 * u.rd F.QUE_PAR_MIDX a q + k) > 0))) = some k) :
    mcastCredit a q leaf n u = leafCredited { u with ctl := rest } a q leaf n (16 * u.rd F.QUE_PAR_MIDX a q + k) := by
  obtain ⟨hf, hd⟩ := credit_head hc
  have hx : State.crossPart { u with ctl := rest } a part = false := bne_eq_false_iff_eq.mpr hp
  have hs : State.stale { u with ctl := rest } a q conn = false := bne_eq_false_iff_eq.mpr hg
  unfold mcastCredit
  extract_lets m mine v seen
  rw [show u.ctl.find? mine = _ from hf]
  dsimp only
  have hv : v = { u with ctl := rest } := hd
  have h7v : v.role a q = 7 := by rw [hv]; exact h7
  have hkv : (List.range 16).find? (fun k => v.rd F.QUE_MLEAF_LEAF a (16 * m + k) == leaf &&
      (v.rd F.QUE_MLEAF_ATT a (16 * m + k) == 1 || decide (v.outst a (16 * m + k) > 0))) = some k := by rw [hv]; exact hk
  rw [if_neg (by rw [hv, hx]; decide), if_neg (by rw [hv, hs]; decide), if_neg (not_not_intro h7v), hkv]
  exact congrArg (fun v => leafCredited v a q leaf n (16 * m + k)) hv

end

/-! ### Gap markers and ring records -/

theorem sigAdd_modQueue_others (v : State) (a q id n : Nat) (g : QueueX → QueueX) : OtherSites v ((v.modQueue a q g).sigAdd id n) a :=
  fun b hb => (State.site_congr (s := v.modQueue a q g) rfl b).trans ((OtherSites.modSite (.of_eq rfl) _ : OtherSites v (v.modQueue a q g) a) b hb)

/-- A marker at the head sets GAP and the sequence number it records (R223). -/
theorem gapMarks {u : State} {a q sq : Nat} (h : (u.queue a q).gap = some (0, sq)) : let t := gapMarker a q u
    t.rd F.QUE_STAT_GAP a q = 1 ∧ t.rd F.QUE_STAT_SEQ a q = sq % 65536 ∧ (t.queue a q).gap = none ∧
    (let c := 32 * a + u.rd F.QUE_PAR_SCNT a q
     aget t.sigAdds c = some ((aget u.sigAdds c).getD 0 + 1)) ∧ Frame u t (oneReg .QUE_STAT a q) ∧ OtherSites u t a := by
  intro t
  have hm : mems t = mems u := by simp [t]
  have hn : ((u.wr F.QUE_STAT_GAP a q 1).wr F.QUE_STAT_SEQ a q sq).rd F.QUE_PAR_SCNT a q = u.rd F.QUE_PAR_SCNT a q := by
    rw [State.rd_wr_other _ _ _ _ _ _ (by decide), State.rd_wr_other _ _ _ _ _ _ (by decide)]
  have ht : t = (((u.wr F.QUE_STAT_GAP a q 1).wr F.QUE_STAT_SEQ a q sq).modQueue a q (fun x => { x with gap := none })).sigAdd
      (qid a (u.rd F.QUE_PAR_SCNT a q)) 1 := by
    change gapMarker a q u = _
    unfold gapMarker
    rw [h, ← hn]
    rfl
  clear_value t
  subst ht
  refine ⟨?_, ?_, ?_, ?_, ⟨.of_mems hm, (SameRegs.wr (.wr (.refl _ _) _ ⟨rfl, rfl, rfl⟩) _ ⟨rfl, rfl, rfl⟩).trans (.of_eq rfl)⟩,
    fun b hb => ?_⟩
  · change ((u.wr F.QUE_STAT_GAP a q 1).wr F.QUE_STAT_SEQ a q sq).rd F.QUE_STAT_GAP a q = 1
    rw [State.rd_wr_other _ _ _ _ _ _ (by decide), State.rd_wr_self _ _ _ _ _ (by decide)]
    rfl
  · change ((u.wr F.QUE_STAT_GAP a q 1).wr F.QUE_STAT_SEQ a q sq).rd F.QUE_STAT_SEQ a q = _
    rw [State.rd_wr_self _ _ _ _ _ (by decide)]
    rfl
  · rw [queue_sigAdd, State.queue_modQueue_same]
  · have hid : qid a (u.rd F.QUE_PAR_SCNT a q) = 32 * a + u.rd F.QUE_PAR_SCNT a q := by rw [qid, Nat.mul_comm]
    rw [← hid]
    exact sigAdd_adds _ _ _
  · exact sigAdd_modQueue_others ((u.wr F.QUE_STAT_GAP a q 1).wr F.QUE_STAT_SEQ a q sq) a q _ 1 _ b hb

/-- The j-th byte that a number spells. -/
theorem leBytes_getD : ∀ (n v j : Nat), j < n → (leBytes v n).getD j 0 = BitVec.ofNat 8 (v / 256 ^ j)
  | 0, _, _, h => absurd h (Nat.not_lt_zero _)
  | n + 1, v, 0, _ => by simp [leBytes]
  | n + 1, v, j + 1, h => by
    have e := leBytes_getD n (v / 256) j (by omega)
    rw [leBytes, List.getD_cons_succ, e, Nat.div_div_eq_div_mul, Nat.pow_succ, Nat.mul_comm 256]

/-- The bytes of a record as they are stored. -/
theorem raw_byte (e : Entry) (k j : Nat) (hk : k < 8) (hj : j < 8) :
    (leBytes ((e.raw)[k]'(by simpa [Entry.raw] using hk)).data.toNat 8).getD j 0 = BitVec.ofNat 8 (e.bits.toNat / 2 ^ (8 * (8 * k + j))) := by
  rw [leBytes_getD 8 _ j hj]
  simp only [Entry.raw, List.getElem_map, List.getElem_range, BitVec.toNat_ofNat, Nat.shiftRight_eq_div_pow]
  refine BitVec.eq_of_toNat_eq ?_
  rw [BitVec.toNat_ofNat, BitVec.toNat_ofNat, show (256 : Nat) ^ j = 2 ^ (8 * j) by rw [Nat.pow_mul],
    show 8 * (8 * k + j) = 64 * k + 8 * j by omega, Nat.pow_add, ← Nat.div_div_eq_div_mul]
  generalize e.bits.toNat / 2 ^ (64 * k) = v
  have h64 : (2 : Nat) ^ 64 = 2 ^ (8 * j) * 2 ^ (64 - 8 * j) := by rw [← Nat.pow_add]; congr 1; omega
  rw [h64, Nat.mod_mul_right_div_self, Nat.mod_mod_of_dvd]
  exact Nat.pow_dvd_pow 2 (by omega)

/-- A ring's record written, the ring's queue informed, and the message of its last record signalled (R229). -/
def recordWritten (u : State) (a q x sa sq : Nat) (e : Entry) (k : Nat) (rest : List (Nat × Entry × Nat)) : State :=
  let s := (u.putRawWords x e.raw).modQueue sa sq (fun y => { y with ringOut := rest, written := if k = 0 then y.written + 1 else y.written })
  if k = 1 then s.sigAdd (qid a (s.rd F.QUE_PAR_SCNT a q)) 1 else s

theorem ringRecordWrite_oldest {u : State} {a q pos k : Nat} {e : Entry} {rest : List (Nat × Entry × Nat)} (h6 : u.role a q = 6)
    (ho : (u.queue (u.rd F.QUE_CFG_PEER a q / 32) (u.rd F.QUE_CFG_PEER a q % 32)).ringOut = (pos, e, k) :: rest) (hk : k ≠ 3)
    (hx : siteHolds a (siteMem a + 64 * (u.rd F.QUE_PAR_RBASE a q + pos)) 64 = true) : ringRecordWrite a q u =
      recordWritten u a q (siteMem a + 64 * (u.rd F.QUE_PAR_RBASE a q + pos)) (u.rd F.QUE_CFG_PEER a q / 32) (u.rd F.QUE_CFG_PEER a q % 32) e k rest := by
  unfold ringRecordWrite recordWritten
  dsimp only
  rw [if_neg (not_not_intro h6), ho]
  split
  · contradiction
  · rename_i heq
    simp only [List.cons.injEq, Prod.mk.injEq] at heq
    exact absurd heq.1.2.2 hk
  · rename_i heq
    simp only [List.cons.injEq, Prod.mk.injEq] at heq
    obtain ⟨⟨rfl, rfl, rfl⟩, rfl⟩ := heq
    rw [if_pos hx]

/-- A record stands in the ring, and the header that completes a message adds to its counter (R229). -/
theorem recordWritten_stands {u : State} {a q x sa sq k : Nat} {e : Entry} {rest : List (Nat × Entry × Nat)} (hc : mcanon 0 u.mem = true) :
    let t := recordWritten u a q x sa sq e k rest
    (∀ i, i < 64 → t.byte (x + i) = BitVec.ofNat 8 (e.bits.toNat / 2 ^ (8 * i))) ∧
    (∀ z, z < x ∨ x + 64 ≤ z → t.byte z = u.byte z) ∧ (t.queue sa sq).ringOut = rest ∧
    (let c := 32 * a + u.rd F.QUE_PAR_SCNT a q
     (k = 1 → aget t.sigAdds c = some ((aget u.sigAdds c).getD 0 + 1)) ∧ (k ≠ 1 → t.sigAdds = u.sigAdds)) ∧ SameRegs u t noReg := by
  intro t
  have hl : (e.raw).length = 8 := by simp [Entry.raw]
  have hid : qid a (u.rd F.QUE_PAR_SCNT a q) = 32 * a + u.rd F.QUE_PAR_SCNT a q := by rw [qid, Nat.mul_comm]
  obtain ⟨h1, h2⟩ := putRawWords_bytes u x e.raw hc
  have kr : (u.putRawWords x e.raw).regs = u.regs := putRawWords_keeps State.regs (fun _ _ _ _ => rfl) ..
  have ks : (u.putRawWords x e.raw).sigAdds = u.sigAdds := putRawWords_keeps State.sigAdds (fun _ _ _ _ => rfl) ..
  have ht : t = recordWritten u a q x sa sq e k rest := rfl
  clear_value t
  unfold recordWritten at ht
  generalize u.putRawWords x e.raw = v at h1 h2 kr ks ht
  dsimp only at ht
  rw [State.rd_modQueue, rd_of_regs kr] at ht
  have hbyte : ∀ z, t.byte z = v.byte z := fun z => by rw [ht]; split <;> rfl
  refine ⟨fun i hi => ?_, fun z hz => (hbyte z).trans (h2 z (by omega)), ?_, ⟨fun hk => ?_, fun hk => ?_⟩, .of_eq ?_⟩
  · have e1 := h1 (i / 8) (by omega) (i % 8) (by omega)
    rw [raw_byte e _ _ (by omega) (by omega), show x + 8 * (i / 8) + i % 8 = x + i by omega, show 8 * (i / 8) + i % 8 = i by omega] at e1
    rw [hbyte, e1]
  · have e2 : t.queue sa sq = (v.modQueue sa sq (fun y => { y with ringOut := rest, written := if k = 0 then y.written + 1 else y.written })).queue sa sq := by
      rw [ht]; split <;> rfl
    rw [e2, State.queue_modQueue_same]
  · rw [ht, if_pos hk, hid, sigAdd_adds, ← ks]
    rfl
  · rw [ht, if_neg hk, ← ks]
    rfl
  · rw [ht]
    split
    · exact kr
    · exact kr

/-- Settles O22: each credit, marker and record is one change of its queue's register or part. -/
theorem creditsGapsAndRings : Obligations.CreditsGapsAndRings := by
  intro s p q a n u hr
  have hq : ∀ b m, u.queue b m = s.queue b m := fun b m => at_queue ..
  have hmem : u.mem = s.mem := by simp [u]
  have hbyte : ∀ z, u.byte z = s.byte z := byte_congr (by simp [u])
  have hexC : ∀ (c : BitVec 12) (k : BitVec 7) t, remoteCreditReturn a n c.toNat k.toNat u = t →
      exec (.remoteCreditReturn p q c k) s = .next t := fun c k t h => congrArg Host.Outcome.next ((if_pos hr).trans h)
  have hexM : ∀ (l : QueueId) (k : BitVec 7) t, mcastCredit a n l.toNat k.toNat u = t → exec (.mcastCredit p q l k) s = .next t :=
    fun l k t h => congrArg Host.Outcome.next ((if_pos hr).trans h)
  have hexG : ∀ t, gapMarker a n u = t → exec (.gapMarker p q) s = .next t := fun t h => congrArg Host.Outcome.next ((if_pos hr).trans h)
  have hexR : ∀ t, ringRecordWrite a n u = t → exec (.ringRecordWrite p q) s = .next t := fun t h =>
    congrArg Host.Outcome.next ((if_pos hr).trans h)
  clear_value u
  refine ⟨fun conn k hrole ha => creditsReturn hq (hexC conn k) hrole ha, fun leaf k j conn part rest h7 hj hu hc => ⟨fun hp hg => ?_, fun hp => ?_⟩,
    fun sq hg => .next (hexG _ rfl) (gapMarks ((congrArg QueueX.gap (hq a n)).trans hg)), ?_⟩
  · obtain ⟨i, rfl, hf⟩ := leaf_found hj hu
    obtain ⟨k1, k2, k3⟩ := leafCredited_keeps { u with ctl := rest } a n leaf.toNat k.toNat (16 * u.rd F.QUE_PAR_MIDX a n + i)
    exact .next (hexM leaf k _ (mcastCredit_leaf hc hp hg h7 hf)) ⟨k1, k2, k3⟩
  · exact .next (hexM leaf k _ (mcastCredit_cross hc hp)) ⟨State.ctr_count_same .., rfl, .of_mems (by simp), .of_eq rfl⟩
  · intro pos e k rest h6 hc src x ho hk hx
    obtain ⟨k1, k2, k3⟩ := recordWritten_stands (u := u) (a := a) (q := n) (x := x) (sa := src / 32) (sq := src % 32) (k := k) (e := e)
      (rest := rest) (hmem ▸ hc)
    exact .next (hexR _ (ringRecordWrite_oldest h6 (by rw [hq]; exact ho) hk hx)) ⟨k1, fun z hz => (k2 z hz).trans (hbyte z), k3⟩

end Sys2Proof.Proofs
end

section
/-! PROOF. Dynamic connections open and end (R214, R218, R224 to R227). -/

namespace Sys2Proof.Proofs

open Sys2Proof Sys2Proof.Machine

/-! ### Slots of links -/

section
variable (s : State) (a : Nat) (d : Dir)

theorem slotSrc_setSlot_same (n v : Nat) (h : n < 16) : (s.setSlot a d n v).slotSrc a d n = v % 16 :=
  s.rd_wr_self _ a d.num v (by change 0 + 4 * n + 4 ≤ 64; omega)

/-- A slot of another site, link or number keeps its source. -/
theorem slotSrc_setSlot_ne {b m n : Nat} {k : Dir} (v : Nat) (h : (b, k, m) ≠ (a, d, n)) : (s.setSlot a d n v).slotSrc b k m = s.slotSrc b k m := by
  unfold State.setSlot State.slotSrc
  by_cases e : b = a ∧ k = d
  · obtain ⟨rfl, rfl⟩ := e
    have hn : m ≠ n := fun e => h (by rw [e])
    exact s.rd_wr_apart v (by change 0 + 4 * m + 4 ≤ 0 + 4 * n ∨ 0 + 4 * n + 4 ≤ 0 + 4 * m; omega)
  · refine s.rd_wr_ne v fun e' => e ⟨e'.2.1, ?_⟩
    by_contra hk
    exact Dir.num_ne hk e'.2.2

theorem rd_setSlot (n v : Nat) {f : Fld} (b i : Nat) (h : f.reg ≠ .TRV_OUT) : (s.setSlot a d n v).rd f b i = s.rd f b i :=
  s.rd_wr_other _ _ _ _ _ (.inl h)

theorem slotSrc_wr {f : Fld} (b i v : Nat) (h : f.reg ≠ .TRV_OUT) (c : Nat) (k : Dir) (m : Nat) :
    (s.wr f b i v).slotSrc c k m = s.slotSrc c k m :=
  s.rd_wr_other _ _ _ _ _ (.inl h.symm)

theorem slotSrc_modSync (b : Nat) (f : SyncX → SyncX) (c : Nat) (k : Dir) (m : Nat) : (s.modSync b f).slotSrc c k m = s.slotSrc c k m := rfl

theorem slotSrc_modQueue (b m : Nat) (f : QueueX → QueueX) (c : Nat) (k : Dir) (n : Nat) :
    (s.modQueue b m f).slotSrc c k n = s.slotSrc c k n := rfl

theorem slotSrc_count (ct : Ctr) (b n : Nat) (c : Nat) (k : Dir) (m : Nat) : (s.count ct b n).slotSrc c k m = s.slotSrc c k m := rfl

/-- A slot that has a source keeps it when slots are given that source. -/
theorem slotSrc_setSlot_const {b m n c : Nat} {k : Dir} (hm : m < 16) (hc : c < 16) (h : s.slotSrc b k m = c) :
    (s.setSlot a d n c).slotSrc b k m = c := by
  by_cases e : (b, k, m) = (a, d, n)
  · cases e
    rw [slotSrc_setSlot_same _ _ _ _ _ hm, Nat.mod_eq_of_lt hc]
  · rw [slotSrc_setSlot_ne _ _ _ _ e, h]

end

/-- The direction that a link's number stands for. -/
theorem dirAt_num (d : Dir) : allDirs.getD d.num .n = d := by cases d <;> rfl

/-- Slots all given one source. -/
theorem slots_const {β : Type} (at_ : β → Nat × Dir × Nat) (c : Nat) (hc : c < 16) : ∀ (l : List β) (s : State),
    (∀ x ∈ l, (at_ x).2.2 < 16 →
      (l.foldl (fun s x => s.setSlot (at_ x).1 (at_ x).2.1 (at_ x).2.2 c) s).slotSrc (at_ x).1 (at_ x).2.1 (at_ x).2.2 = c) ∧
    (∀ b k m, m < 16 → s.slotSrc b k m = c → (l.foldl (fun s x => s.setSlot (at_ x).1 (at_ x).2.1 (at_ x).2.2 c) s).slotSrc b k m = c) := by
  intro l
  induction l with
  | nil => exact fun s => ⟨fun x hx => absurd hx List.not_mem_nil, fun _ _ _ _ h => h⟩
  | cons y l ih =>
    intro s
    obtain ⟨i1, i2⟩ := ih (s.setSlot (at_ y).1 (at_ y).2.1 (at_ y).2.2 c)
    refine ⟨fun x hx hl => ?_, fun b k m hm h => i2 b k m hm (slotSrc_setSlot_const _ _ _ hm hc h)⟩
    rcases List.mem_cons.mp hx with rfl | hx
    · exact i2 _ _ _ hl ((slotSrc_setSlot_same _ _ _ _ _ hl).trans (Nat.mod_eq_of_lt hc))
    · exact i1 x hx hl

/-! ### What probing and releasing leave -/

section
variable {γ : Type} (f : State → γ) (hs : ∀ (s : State) a d n v, f (s.setSlot a d n v) = f s)
include hs

theorem probeLinks_keeps (b : Nat) : ∀ (l : List (Nat × Dir)) (w : Nat) (c : List Nat) (held : List (Nat × Nat × Nat)) (s : State),
    f (probeLinks b l w c held s).2 = f s := by
  intro l
  induction l with
  | nil => exact fun _ _ _ _ => rfl
  | cons x l ih =>
    intro w c held s
    unfold probeLinks
    dsimp only
    split
    · rfl
    · exact (ih _ _ _ _).trans (foldl_keep f _ (fun s n => hs s _ _ _ _) _ s)

theorem releaseSlots_keeps (s : State) (l : List (Nat × Nat × Nat)) : f (s.releaseSlots l) = f s :=
  foldl_keep f _ (fun s _ => hs s _ _ _ _) l s

end

/-- The slots that a probe holds have the code of a held slot (R224). -/
theorem probeLinks_held (b : Nat) : ∀ (l : List (Nat × Dir)) (w : Nat) (c : List Nat) (held : List (Nat × Nat × Nat)) (s : State),
    (∀ x ∈ held, x.2.2 < 16 ∧ s.slotSrc x.1 (allDirs.getD x.2.1 .n) x.2.2 = 6) → ∀ x ∈ (probeLinks b l w c held s).1.held,
      x.2.2 < 16 ∧ (probeLinks b l w c held s).2.slotSrc x.1 (allDirs.getD x.2.1 .n) x.2.2 = 6 := by
  intro l
  induction l with
  | nil => exact fun _ _ _ _ h => h
  | cons y l ih =>
    obtain ⟨a, d⟩ := y
    intro w c held s h
    unfold probeLinks
    dsimp only
    split
    · exact h
    · refine ih _ _ _ _ fun x hx => ?_
      have hlt : ∀ n ∈ (List.filter (fun n => decide ((n + 4 * w) % 16 ≤ 13) && s.inRegion b (a, d) && s.slotFree a d ((n + 4 * w) % 16)) c).map
          (fun n => (n + 4 * w) % 16), n < 16 := fun n hn => by
        obtain ⟨m, -, rfl⟩ := List.mem_map.mp hn
        omega
      rcases List.mem_append.mp hx with hx | hx
      · exact ⟨(h x hx).1, (slots_const (fun n => (a, d, n)) 6 (by decide) _ s).2 _ _ _ (h x hx).1 (h x hx).2⟩
      · obtain ⟨n, hn, rfl⟩ := List.mem_map.mp hx
        dsimp only
        rw [dirAt_num]
        exact ⟨hlt n hn, (slots_const (fun n => (a, d, n)) 6 (by decide) _ s).1 n hn (hlt n hn)⟩

/-- A message taken is no longer under way, and nothing else has changed (R214, R228). -/
theorem takeConn_true {u v : State} {k a n conn of_ part : Nat} (h : u.takeConn k a n conn of_ part = (true, v)) : ∃ l, v = { u with ctl := l } := by
  unfold State.takeConn at h
  dsimp only at h
  split at h
  · cases h
  · split at h
    · cases h
    · cases h
      exact ⟨_, rfl⟩

/-- What counts, arbiters and links leave, a control message leaves. -/
theorem ctlHop_keeps {γ : Type} (f : State → γ) (hc : ∀ (s : State) c b n, c ∈ linkCtrs → f (s.count c b n) = f s)
    (ha : ∀ (s : State) l, f { s with arbs := l } = f s) (hl : ∀ (s : State) b k g, f (s.modLink b k g) = f s) (s : State) (a : Nat) (d : Dir)
    (onward : List CtlWait) (x : Flit) (y k : Nat) : f (s.ctlHop a d onward x y k).2 = f s := by
  unfold State.ctlHop
  extract_lets fifo fifo' y' z ptr s1 s2 s3
  have h2 : f s2 = f s1 := by
    by_cases h : fifo'.any (fun w => w.leaves == z) = true
    · exact congrArg f (if_pos h)
    · exact (congrArg f (if_neg h)).trans (sendOn_keeps f s1 hc (fun s g => hl s _ _ g) x)
  dsimp only
  exact (hl s3 a d.num _).trans ((ha s2 _).trans (h2.trans (hc _ _ _ _ (by decide))))

theorem ctlPass_keeps {γ : Type} (f : State → γ) (hc : ∀ (s : State) c b n, c ∈ linkCtrs → f (s.count c b n) = f s)
    (ha : ∀ (s : State) l, f { s with arbs := l } = f s) (hl : ∀ (s : State) b k g, f (s.modLink b k g) = f s) (x : Flit) :
    ∀ (l : List (Nat × Dir)) (y k : Nat) (s : State), f (s.ctlPass x l y k) = f s := by
  intro l
  induction l with
  | nil => exact fun _ _ _ => rfl
  | cons z l ih =>
    intro y k s
    unfold State.ctlPass
    exact (ih _ _ _).trans (ctlHop_keeps f hc ha hl ..)

/-- A message with a path is under way, last (R217). -/
theorem ctl_sendCtl {s : State} {a b : Nat} {path : List (Nat × Dir)} (h : s.ctlRoute a b = some path) (m : CtlMsg) :
    (s.sendCtl a b m).ctl = List.append s.ctl [m] := by
  unfold State.sendCtl
  rw [h]
  exact congrArg (fun l => List.append l [m])
    (ctlPass_keeps State.ctl (fun _ _ _ _ _ => rfl) (fun _ _ => rfl) (fun _ _ _ _ => rfl) _ path s.cycles 4 s)

theorem sendCtl_keeps {γ : Type} (f : State → γ) (hc : ∀ (s : State) c b n, c ∈ linkCtrs → f (s.count c b n) = f s)
    (ha : ∀ (s : State) l, f { s with arbs := l } = f s) (hl : ∀ (s : State) b k g, f (s.modLink b k g) = f s)
    (hm : ∀ (s : State) l, f { s with ctl := l } = f s) (s : State) (a b : Nat) (m : CtlMsg) : f (s.sendCtl a b m) = f s := by
  unfold State.sendCtl
  split
  · exact (hm ..).trans (ctlPass_keeps f hc ha hl _ _ _ _ s)
  · exact hc _ _ _ _ (by decide)

/-- The path of a message is one of the links' states (R377). -/
theorem ctlRoute_congr {s t : State} (h : ∀ a d, t.linkState a d = s.linkState a d) (a b : Nat) : t.ctlRoute a b = s.ctlRoute a b := by
  unfold State.ctlRoute State.deadPath
  simp only [h]

/-! ### A PROBE arrives -/

/-- A probe has passed the links of its route, and its source holds what it found (R224). -/
def probed (v : State) (a sa sq : Nat) : State :=
  let r := probeLinks sa (routeXY sa a) 0 (List.range 14) [] v
  r.2.modQueue sa sq (fun x => { x with probe := some ⟨r.1.cands, [], r.1.held⟩ })

section
variable (v : State) (a sa sq : Nat)

theorem rd_probed {f : Fld} (b i : Nat) (h : f.reg ≠ .TRV_OUT) : (probed v a sa sq).rd f b i = v.rd f b i :=
  probeLinks_keeps (fun s => s.rd f b i) (fun s _ _ _ _ => rd_setSlot s _ _ _ _ _ _ h) sa _ 0 _ [] v

theorem queue_probeLinks (l : List (Nat × Dir)) (w : Nat) (c : List Nat) (held : List (Nat × Nat × Nat)) (b m : Nat) :
    (probeLinks sa l w c held v).2.queue b m = v.queue b m :=
  probeLinks_keeps (fun s => s.queue b m) (fun _ _ _ _ _ => rfl) sa l w c held v

theorem probe_probed : ((probed v a sa sq).queue sa sq).probe =
    some ⟨(probeLinks sa (routeXY sa a) 0 (List.range 14) [] v).1.cands, [], (probeLinks sa (routeXY sa a) 0 (List.range 14) [] v).1.held⟩ := by
  unfold probed
  dsimp only
  rw [State.queue_modQueue_same]

theorem part_probed {γ : Type} (P : QueueX → γ) (h : ∀ (x : QueueX) y, P { x with probe := y } = P x) (b m : Nat) :
    P ((probed v a sa sq).queue b m) = P (v.queue b m) := by
  unfold probed
  dsimp only
  rw [queue_modQueue_part P _ _ _ _ (fun x => h x _), queue_probeLinks]

theorem held_probed : ∀ x ∈ (probeLinks sa (routeXY sa a) 0 (List.range 14) [] v).1.held,
    (probed v a sa sq).slotSrc x.1 (allDirs.getD x.2.1 .n) x.2.2 = 6 :=
  fun x hx => (probeLinks_held sa (routeXY sa a) 0 (List.range 14) [] v (fun _ h => absurd h List.not_mem_nil) x hx).2

theorem mems_probed : mems (probed v a sa sq) = mems v := by simp [probed]

theorem ctl_probed : (probed v a sa sq).ctl = v.ctl :=
  probeLinks_keeps State.ctl (fun _ _ _ _ _ => rfl) sa _ 0 _ [] v

end

section
variable {u v : State} {a n conn src part : Nat} (hf : u.connFrom kProbe a n conn = (src, part)) (hc : aget (u.sync a).connOut n = none)
include hf hc

theorem connProbe_cross (hp : u.partOf a ≠ some part) : ∃ l, connProbe a n conn u = State.count { u with ctl := l } C.TRV_CNT_XPART a := by
  have ht : ∃ l, u.takeConn kProbe a n conn src part = (false, State.count { u with ctl := l } C.TRV_CNT_XPART a) :=
    ⟨_, if_pos (bne_iff_ne.mpr hp)⟩
  obtain ⟨l, ht⟩ := ht
  refine ⟨l, ?_⟩
  unfold connProbe
  rw [hf]
  dsimp only
  rw [hc, if_neg (by decide), ht]
  rfl

/-- A PROBE that the site takes passes its links, and then fails, is refused or is answered (R224, R225). -/
theorem connProbe_taken (ht : u.takeConn kProbe a n conn src part = (true, v)) (h1 : v.rd F.QUE_STAT_CSTATE (src / 32) (src % 32) = 1) :
    connProbe a n conn u = match (probeLinks (src / 32) (routeXY (src / 32) a) 0 (List.range 14) [] v).1.failed with
      | some b => (probed v a (src / 32) (src % 32)).sendConn kRefuseSlot (qid a n) b src conn
      | none =>
        let other := match ((probed v a (src / 32) (src % 32)).queue a n).bound with
          | some b => b != (src, conn)
          | none => false
        if (probed v a (src / 32) (src % 32)).role a n != 4 || other then (probed v a (src / 32) (src % 32)).connOut a n kRefusePeer src conn
        else
          (((((probed v a (src / 32) (src % 32)).modQueue a n (fun x => { x with bound := some (src, conn) })).wr F.QUE_STAT_GEN a n (conn / 32)).wr
            F.QUE_STAT_CSTATE a n 1)).connOut a n kReply src conn := by
  unfold connProbe
  rw [hf]
  dsimp only
  rw [hc, if_neg (by decide), ht]
  dsimp only
  rw [h1, if_neg (by decide)]
  rfl

end

theorem probesArrive {s : State} {p : At} {q : QueueNo} {conn : BitVec 12} {u : State} {src part : Nat} (hq : ∀ b m, u.queue b m = s.queue b m)
    (hex : ∀ t, connProbe p.site.toNat q.toNat conn.toNat u = t → exec (.connProbe p q conn) s = .next t) : let a := p.site.toNat
    let n := q.toNat
    u.connFrom kProbe a n conn.toNat = (src, part) → aget (u.sync a).connOut n = none →
     (u.partOf a ≠ some part → Done (.connProbe p q conn) s (fun t =>
       t.ctr C.TRV_CNT_XPART a = (u.ctr C.TRV_CNT_XPART a + 1) % 2 ^ 48 ∧ Frame u t noReg)) ∧
     (∀ v, u.takeConn kProbe a n conn.toNat src part = (true, v) → u.rd F.QUE_STAT_CSTATE (src / 32) (src % 32) = 1 →
      let r := (probeLinks (src / 32) (routeXY (src / 32) a) 0 (List.range 14) [] v).1
      (r.failed = none → u.role a n = 4 → ((s.queue a n).bound = none ∨ (s.queue a n).bound = some (src, conn.toNat)) →
       src ≠ 32 * a + n →
       Done (.connProbe p q conn) s (fun t => (t.queue a n).bound = some (src, conn.toNat) ∧
         t.rd F.QUE_STAT_CSTATE a n = 1 ∧ t.rd F.QUE_STAT_GEN a n = conn.toNat / 32 ∧
         (t.queue (src / 32) (src % 32)).probe = some ⟨r.cands, [], r.held⟩ ∧
         aget (t.sync a).connOut n = some ⟨kReply, src, conn.toNat⟩ ∧
         (∀ x ∈ r.held, t.slotSrc x.1 (allDirs.getD x.2.1 .n) x.2.2 = 6) ∧ SameMem u t)) ∧
      (r.failed = none → u.role a n ≠ 4 → Done (.connProbe p q conn) s (fun t =>
         aget (t.sync a).connOut n = some ⟨kRefusePeer, src, conn.toNat⟩ ∧ SameMem u t)) ∧
      (∀ b path, r.failed = some b → u.ctlRoute b (src / 32) = some path → Done (.connProbe p q conn) s (fun t =>
         t.ctl.getLast? = some (.conn kRefuseSlot (32 * a + n) (src / 32) (src % 32) conn.toNat (u.partNo b)) ∧
         (t.queue a n).bound = (s.queue a n).bound ∧ SameMem u t))) := by
  intro a n hf hc
  refine ⟨fun hp => ?_, fun v ht h1 => ?_⟩
  · obtain ⟨l, e⟩ := connProbe_cross hf hc hp
    exact .next (hex _ e) ⟨State.ctr_count_same .., .of_eq rfl rfl, .of_eq rfl⟩
  have hex' : exec (.connProbe p q conn) s = .next (connProbe a n conn.toNat u) := hex _ rfl
  obtain ⟨l, hv⟩ := takeConn_true ht
  have hvr : v.regs = u.regs := by rw [hv]
  have hvq : ∀ b m, v.queue b m = s.queue b m := fun b m => by rw [← hq, hv]; rfl
  have hvm : mems v = mems u := by rw [hv]; rfl
  rw [connProbe_taken hf hc ht ((rd_of_regs hvr ..).trans h1)] at hex'
  have hrd : ∀ {f : Fld} (b i : Nat), f.reg ≠ .TRV_OUT → (probed v a (src / 32) (src % 32)).rd f b i = u.rd f b i := fun b i h =>
    (rd_probed v a _ _ b i h).trans (rd_of_regs hvr ..)
  have hb : ((probed v a (src / 32) (src % 32)).queue a n).bound = (s.queue a n).bound :=
    (part_probed v a _ _ QueueX.bound (fun _ _ => rfl) a n).trans (by rw [hvq])
  have hp := probe_probed v a (src / 32) (src % 32)
  have hh := held_probed v a (src / 32) (src % 32)
  have hm := (mems_probed v a (src / 32) (src % 32)).trans hvm
  have hroute := ctlRoute_congr (s := u) (t := probed v a (src / 32) (src % 32)) fun b d => hrd b 0 (show RegName.TRV_LINK_STATE ≠ .TRV_OUT by decide)
  have hpart : ∀ b, (probed v a (src / 32) (src % 32)).partNo b = u.partNo b := fun b => by
    unfold State.partNo State.partOf State.partHolds
    simp only [hrd _ _ (show F.HUT_PART_ACTIVE.reg ≠ .TRV_OUT by decide), hrd _ _ (show F.HUT_PART_CB0.reg ≠ .TRV_OUT by decide),
      hrd _ _ (show F.HUT_PART_NCB.reg ≠ .TRV_OUT by decide), hrd _ _ (show F.HUT_PART_ROW0.reg ≠ .TRV_OUT by decide),
      hrd _ _ (show F.HUT_PART_NROW.reg ≠ .TRV_OUT by decide)]
  generalize probed v a (src / 32) (src % 32) = w at hex' hrd hb hp hh hm hroute hpart
  have hrole : w.role a n = u.role a n := hrd a n (by decide)
  refine ⟨fun hr h4 hbd hne => ?_, fun hr h4 => ?_, fun b path hr hpath => ?_⟩
  · have hother : (match (w.queue a n).bound with
        | some b => b != (src, conn.toNat)
        | none => false) = false := by
      rw [hb]
      rcases hbd with hbd | hbd <;> simp [hbd]
    rw [hr] at hex'
    dsimp only at hex'
    rw [hother, hrole, h4, if_neg (by decide)] at hex'
    have hmt : mems ((((w.modQueue a n (fun x => { x with bound := some (src, conn.toNat) })).wr F.QUE_STAT_GEN a n (conn.toNat / 32)).wr
      F.QUE_STAT_CSTATE a n 1).connOut a n kReply src conn.toNat) = mems u := by simp [hm]
    have hqne : src / 32 ≠ a ∨ src % 32 ≠ n := by
      have : n < 32 := q.isLt
      omega
    refine .next hex' ⟨?_, ?_, ?_, ?_, ?_, fun x hx => ?_, .of_mems hmt⟩
    · rw [State.connOut, State.queue_modSync, State.queue_wr, State.queue_wr, State.queue_modQueue_same]
    · rw [State.connOut, State.rd_modSync, State.rd_wr_self _ _ _ _ _ (by decide)]
      rfl
    · rw [State.connOut, State.rd_modSync, State.rd_wr_other _ _ _ _ _ _ (by decide), State.rd_wr_self _ _ _ _ _ (by decide)]
      exact Nat.mod_eq_of_lt (by have := conn.isLt; change _ < 128; omega)
    · rw [State.connOut, State.queue_modSync, State.queue_wr, State.queue_wr, State.queue_modQueue_ne _ _ hqne]
      exact hp
    · rw [State.connOut, State.sync_modSync_same]
      exact aget_aput_same ..
    · rw [State.connOut, slotSrc_modSync, slotSrc_wr _ _ _ _ (by decide), slotSrc_wr _ _ _ _ (by decide)]
      exact hh x hx
  · rw [hr] at hex'
    dsimp only at hex'
    rw [hrole, bne_iff_ne.mpr h4, Bool.true_or, if_pos rfl] at hex'
    refine .next hex' ⟨?_, .of_mems (by simp [hm])⟩
    rw [State.connOut, State.sync_modSync_same]
    exact aget_aput_same ..
  · rw [hr] at hex'
    refine .next hex' ⟨?_, ?_, .of_mems (by simp [hm])⟩
    · change (w.sendCtl b (src / 32) (.conn kRefuseSlot (a * 32 + n) (src / 32) (src % 32) conn.toNat (w.partNo b))).ctl.getLast? = _
      rw [ctl_sendCtl ((hroute ..).trans hpath), hpart, Nat.mul_comm]
      exact List.getLast?_concat
    · refine Eq.trans ?_ hb
      exact congrArg QueueX.bound (sendCtl_keeps (fun s => s.queue a n) (fun _ _ _ _ _ => rfl) (fun _ _ => rfl)
        (fun _ _ _ _ => State.queue_modLink ..) (fun _ _ => rfl) w _ _ _)

/-! ### A REPLY and a COMMIT arrive -/

/-- The return circuit's slots are held, and the source is open in both directions (R225). -/
def opened (v : State) (a n src conn : Nat) (pr : ProbeX) : State :=
  let r := probeLinks a (reverseRoute (routeXY a (src / 32))) 0 (List.range 14) pr.held v
  let s := r.2.modQueue a n (fun x => { x with probe := some ⟨pr.fwd, r.1.cands, r.1.held⟩ })
  let s := s.modQueue a n (fun x => { x with slots := some (pr.fwd.headD 0, r.1.cands.headD 0), idle := 0 })
  (s.wr F.QUE_STAT_CSTATE a n 2).connOut a n kCommit (s.rd F.QUE_CFG_PEER a n) conn

theorem connReply_opens {u v : State} {a n conn src part : Nat} {pr : ProbeX} (hf : u.connFrom kReply a n conn = (src, part))
    (ht : u.takeConn kReply a n conn (32 * a + n) part = (true, v)) (h1 : v.rd F.QUE_STAT_CSTATE a n = 1) (hp : (v.queue a n).probe = some pr)
    (hr : (probeLinks a (reverseRoute (routeXY a (src / 32))) 0 (List.range 14) pr.held v).1.failed = none) :
    connReply a n conn u = opened v a n src conn pr := by
  have hid : qid a n = 32 * a + n := by rw [qid, Nat.mul_comm]
  unfold connReply
  rw [hf]
  dsimp only
  rw [hid, ht]
  dsimp only
  rw [h1, if_neg (by decide), hp]
  dsimp only
  rw [hr]
  rfl

theorem opened_keeps (v : State) (a n src conn : Nat) (pr : ProbeX) : let t := opened v a n src conn pr
    t.rd F.QUE_STAT_CSTATE a n = 2 ∧
    (t.queue a n).slots = some (pr.fwd.headD 0, (probeLinks a (reverseRoute (routeXY a (src / 32))) 0 (List.range 14) pr.held v).1.cands.headD 0) ∧
    aget (t.sync a).connOut n = some ⟨kCommit, v.rd F.QUE_CFG_PEER a n, conn⟩ ∧ (t.queue a n).items = (v.queue a n).items ∧ mems t = mems v := by
  have hm : mems (opened v a n src conn pr) = mems v := by simp [opened]
  have hq := queue_probeLinks v a (reverseRoute (routeXY a (src / 32))) 0 (List.range 14) pr.held a n
  have hpeer := probeLinks_keeps (fun s => s.rd F.QUE_CFG_PEER a n) (fun s _ _ _ _ => rd_setSlot s _ _ _ _ a n (by decide)) a
    (reverseRoute (routeXY a (src / 32))) 0 (List.range 14) pr.held v
  unfold opened at hm ⊢
  generalize probeLinks a (reverseRoute (routeXY a (src / 32))) 0 (List.range 14) pr.held v = r at hm hq hpeer
  refine ⟨?_, ?_, ?_, ?_, hm⟩
  · rw [State.connOut, State.rd_modSync, State.rd_wr_self _ _ _ _ _ (by decide)]
    rfl
  · rw [State.connOut, State.queue_modSync, State.queue_wr, State.queue_modQueue_same]
  · rw [State.connOut, State.sync_modSync_same, State.rd_modQueue, State.rd_modQueue, hpeer]
    exact aget_aput_same ..
  · rw [State.connOut, State.queue_modSync, State.queue_wr, State.queue_modQueue_same, State.queue_modQueue_same]
    exact (congrArg QueueX.items hq :)

/-- The links that a circuit's slots are on are those of its route, in their order. -/
theorem circuitSlots_links : ∀ (l : List (Nat × Dir)) (n code : Nat),
    (circuitSlots l n code).map (fun x => (x.1, x.2.1)) = l.map (fun x => (x.1, x.2.num))
  | [], _, _ => rfl
  | x :: l, n, code => by
    unfold circuitSlots
    rw [List.map_cons, List.map_cons, circuitSlots_links]

/-- A circuit's slots are local slots, and their sources are codes of class 2. -/
theorem circuitSlots_bounds : ∀ (l : List (Nat × Dir)) (n code : Nat), n < 16 → code < 16 → ∀ x ∈ circuitSlots l n code, x.2.2.1 < 16 ∧ x.2.2.2 < 16
  | [], _, _, _, _, _, h => absurd h List.not_mem_nil
  | (a, d) :: l, n, code, hn, hc, x, h => by
    unfold circuitSlots at h
    rcases List.mem_cons.mp h with rfl | h
    · exact ⟨hn, hc⟩
    · exact circuitSlots_bounds l _ _ (by split <;> omega) (by cases d <;> decide) x h

/-- Slots on distinct links each have the source they were given. -/
theorem slots_given : ∀ (l : List (Nat × Nat × Nat × Nat)) (s : State), (l.map (fun x => (x.1, allDirs.getD x.2.1 .n))).Nodup →
    (∀ x ∈ l, x.2.2.1 < 16 ∧ x.2.2.2 < 16) → ∀ x ∈ l,
    (l.foldl (fun s x => s.setSlot x.1 (allDirs.getD x.2.1 .n) x.2.2.1 x.2.2.2) s).slotSrc x.1 (allDirs.getD x.2.1 .n) x.2.2.1 = x.2.2.2 := by
  intro l
  induction l with
  | nil => exact fun _ _ _ x hx => absurd hx List.not_mem_nil
  | cons y l ih =>
    intro s hn hb x hx
    rw [List.map_cons, List.nodup_cons] at hn
    rcases List.mem_cons.mp hx with rfl | hx
    · refine (slots_apart l _ _ _ _ hn.1).trans ?_
      rw [slotSrc_setSlot_same _ _ _ _ _ (hb _ (.head _)).1, Nat.mod_eq_of_lt (hb _ (.head _)).2]
    · exact ih _ hn.2 (fun z hz => hb z (.tail _ hz)) x hx
where
  /-- Slots on other links keep their source. -/
  slots_apart (l : List (Nat × Nat × Nat × Nat)) (s : State) (b : Nat) (k : Dir) (m : Nat)
      (h : (b, k) ∉ l.map (fun x => (x.1, allDirs.getD x.2.1 .n))) :
      (l.foldl (fun s x => s.setSlot x.1 (allDirs.getD x.2.1 .n) x.2.2.1 x.2.2.2) s).slotSrc b k m = s.slotSrc b k m := by
    induction l generalizing s with
    | nil => rfl
    | cons y l ih =>
      rw [List.map_cons, List.mem_cons, not_or] at h
      refine (ih _ h.2).trans (slotSrc_setSlot_ne _ _ _ _ fun e => h.1 ?_)
      simp only [Prod.mk.injEq] at e
      rw [e.1, e.2.1]

theorem circuitSlots_dirs (l : List (Nat × Dir)) (n code : Nat) :
    (circuitSlots l n code).map (fun x => (x.1, allDirs.getD x.2.1 .n)) = l := by
  have h := congrArg (List.map fun y : Nat × Nat => (y.1, allDirs.getD y.2 .n)) (circuitSlots_links l n code)
  rw [List.map_map, List.map_map] at h
  refine h.trans ((List.map_congr_left fun x _ => ?_).trans (List.map_id l))
  exact Prod.ext rfl (dirAt_num x.2)

/-- The directions of a route: one along the row, one along the column. -/
theorem routeXY_dirs {a b : Nat} {x : Nat × Dir} (h : x ∈ routeXY a b) :
    (x.2 = .e ∧ colOf a ≤ colOf b) ∨ (x.2 = .w ∧ ¬ colOf a ≤ colOf b) ∨ (x.2 = .s ∧ rowOf a ≤ rowOf b) ∨ (x.2 = .n ∧ ¬ rowOf a ≤ rowOf b) := by
  unfold routeXY at h
  rcases List.mem_append.mp h with h | h
  · split at h <;> rename_i hc <;> obtain ⟨i, -, rfl⟩ := List.mem_map.mp h
    · exact .inl ⟨rfl, hc⟩
    · exact .inr (.inl ⟨rfl, hc⟩)
  · split at h <;> rename_i hc <;> obtain ⟨i, -, rfl⟩ := List.mem_map.mp h
    · exact .inr (.inr (.inl ⟨rfl, hc⟩))
    · exact .inr (.inr (.inr ⟨rfl, hc⟩))

/-- A route goes back over no link that it has taken. -/
theorem reverse_apart {a b : Nat} {x : Nat × Dir} (h : x ∈ routeXY a b) : x ∉ reverseRoute (routeXY a b) := by
  intro hr
  unfold reverseRoute at hr
  obtain ⟨y, hy, e⟩ := List.mem_filterMap.mp hr
  obtain ⟨c, -, rfl⟩ := Option.map_eq_some_iff.mp e
  have h1 := routeXY_dirs h
  have h2 := routeXY_dirs (List.mem_reverse.mp hy)
  dsimp only at h1
  rcases h2 with ⟨e, h2⟩ | ⟨e, h2⟩ | ⟨e, h2⟩ | ⟨e, h2⟩ <;> rw [e] at h1 <;> simp [Dir.opp, h2] at h1

/-- A route takes no link twice (R217). -/
theorem routeXY_nodup (a b : Nat) : (routeXY a b).Nodup := by
  have hinj : ∀ (n : Nat) (g : Nat → Nat × Dir), (∀ i ∈ List.range n, ∀ j ∈ List.range n, g i = g j → i = j) → ((List.range n).map g).Nodup :=
    fun n g h => List.nodup_range.map_on fun i hi j hj e => h i hi j hj e
  unfold routeXY
  dsimp only
  refine List.nodup_append'.mpr ⟨?_, ?_, ?_⟩
  · split <;> refine hinj _ _ fun i hi j hj e => ?_ <;>
      simp only [Prod.mk.injEq, siteAt, and_true] at e <;> rw [List.mem_range] at hi hj <;> omega
  · split <;> refine hinj _ _ fun i hi j hj e => ?_ <;>
      simp only [Prod.mk.injEq, siteAt, and_true] at e <;> rw [List.mem_range] at hi hj <;> omega
  · intro x hx hy
    split at hx <;> split at hy <;> obtain ⟨i, -, rfl⟩ := List.mem_map.mp hx <;> obtain ⟨j, -, e⟩ := List.mem_map.mp hy <;>
      exact Dir.noConfusion (Prod.ext_iff.mp e).2

/-- The chosen circuits are kept, and every other slot held is released (R225). -/
def kept (v : State) (a n sa sq f r : Nat) (pr : ProbeX) : State :=
  let path := routeXY sa a
  let keep := List.append (circuitSlots path f 13) (circuitSlots (reverseRoute path) r 13)
  let s := keep.foldl (fun s x => s.setSlot x.1 (allDirs.getD x.2.1 .n) x.2.2.1 x.2.2.2) (v.releaseSlots pr.held)
  (s.modQueue sa sq (fun x => { x with probe := none })).wr F.QUE_STAT_CSTATE a n 2

theorem connCommit_keeps {u v : State} {a n conn src part f r : Nat} {pr : ProbeX} (hf : u.connFrom kCommit a n conn = (src, part))
    (ht : u.takeConn kCommit a n conn (32 * a + n) part = (true, v)) (hp : (v.queue (src / 32) (src % 32)).probe = some pr)
    (hs : (v.queue (src / 32) (src % 32)).slots = some (f, r)) : connCommit a n conn u = kept v a n (src / 32) (src % 32) f r pr := by
  have hid : qid a n = 32 * a + n := by rw [qid, Nat.mul_comm]
  unfold connCommit
  rw [hf]
  dsimp only
  rw [hid, ht]
  dsimp only
  rw [if_neg (by decide), hp, hs]
  rfl

theorem kept_slots (v : State) (a n sa sq f r : Nat) (pr : ProbeX) (hf : f ≤ 13) : let t := kept v a n sa sq f r pr
    t.rd F.QUE_STAT_CSTATE a n = 2 ∧ (t.queue sa sq).probe = none ∧
    (∀ x ∈ circuitSlots (routeXY sa a) f 13, t.slotSrc x.1 (allDirs.getD x.2.1 .n) x.2.2.1 = x.2.2.2) ∧ mems t = mems v := by
  have hm : mems (kept v a n sa sq f r pr) = mems v := by simp [kept]
  unfold kept at hm ⊢
  refine ⟨?_, ?_, fun x hx => ?_, hm⟩
  · rw [State.rd_wr_self _ _ _ _ _ (by decide)]
    rfl
  · rw [State.queue_wr, State.queue_modQueue_same]
  · have hn := routeXY_nodup sa a
    rw [← circuitSlots_dirs (routeXY sa a) f 13] at hn
    have hx1 : (x.1, allDirs.getD x.2.1 .n) ∈ routeXY sa a := by
      rw [← circuitSlots_dirs (routeXY sa a) f 13]
      exact List.mem_map_of_mem hx
    have h1 := slots_given _ (v.releaseSlots pr.held) hn (circuitSlots_bounds _ f 13 (by omega) (by decide)) x hx
    have h2 := slots_given.slots_apart (circuitSlots (reverseRoute (routeXY sa a)) r 13)
      ((circuitSlots (routeXY sa a) f 13).foldl (fun s x => s.setSlot x.1 (allDirs.getD x.2.1 .n) x.2.2.1 x.2.2.2) (v.releaseSlots pr.held))
      x.1 (allDirs.getD x.2.1 .n) x.2.2.1 (by rw [circuitSlots_dirs]; exact reverse_apart hx1)
    rw [slotSrc_wr _ _ _ _ (by decide), slotSrc_modQueue]
    refine Eq.trans ?_ (h2.trans h1)
    exact congrArg (fun s : State => s.slotSrc x.1 (allDirs.getD x.2.1 .n) x.2.2.1) (List.foldl_append ..)

theorem connectionsOpen : ConnectionsOpen := by
  intro s p q conn a n u hr
  have hq : ∀ b m, u.queue b m = s.queue b m := fun b m => at_queue ..
  have hexP : ∀ t, connProbe a n conn.toNat u = t → exec (.connProbe p q conn) s = .next t := fun t h =>
    congrArg Host.Outcome.next ((if_pos hr).trans h)
  have hexR : ∀ t, connReply a n conn.toNat u = t → exec (.connReply p q conn) s = .next t := fun t h =>
    congrArg Host.Outcome.next ((if_pos hr).trans h)
  have hexC : ∀ t, connCommit a n conn.toNat u = t → exec (.connCommit p q conn) s = .next t := fun t h =>
    congrArg Host.Outcome.next ((if_pos hr).trans h)
  clear_value u
  refine ⟨fun src part => probesArrive hq hexP, fun src part v pr hf ht h1 hp => ?_, fun src part v pr f r hf ht hp hs hf13 hr13 hsrc => ?_⟩
  · intro r hfail
    obtain ⟨l, hv⟩ := takeConn_true ht
    have hvr : v.regs = u.regs := by rw [hv]
    have hvq : v.queue a n = s.queue a n := by rw [← hq, hv]; rfl
    have hvm : mems v = mems u := by rw [hv]; rfl
    obtain ⟨k1, k2, k3, k4, k5⟩ := opened_keeps v a n src conn.toNat pr
    refine .next (hexR _ (connReply_opens hf ht ((rd_of_regs hvr ..).trans h1) (by rw [hvq]; exact hp) hfail)) ⟨k1, k2, ?_, ?_, .of_mems (k5.trans hvm)⟩
    · rw [k3, rd_of_regs hvr]
    · rw [k4, hvq]
  · obtain ⟨l, hv⟩ := takeConn_true ht
    have hvq : ∀ b m, v.queue b m = s.queue b m := fun b m => by rw [← hq, hv]; rfl
    have hvm : mems v = mems u := by rw [hv]; rfl
    obtain ⟨k1, k2, k3, k4⟩ := kept_slots v a n (src / 32) (src % 32) f r pr hf13
    exact .next (hexC _ (connCommit_keeps hf ht (by rw [hvq]; exact hp) (by rw [hvq]; exact hs))) ⟨k1, k2, k3, .of_mems (k4.trans hvm)⟩

/-! ### Refusal, close and idleness -/

/-- What a far end no longer bound leaves. -/
theorem unbind_keeps {γ : Type} (f : State → γ) (hw : ∀ (s : State) b i v, f (s.wr F.QUE_STAT_CSTATE b i v) = f s)
    (hq : ∀ (s : State) b m, f (s.modQueue b m (fun y => { y with bound := none })) = f s) (s : State) (b src : Nat) : f (s.unbind b src) = f s := by
  unfold State.unbind
  split
  · split
    · exact (hq ..).trans (hw ..)
    · rfl
  · rfl

theorem queue_unbind {γ : Type} (P : QueueX → γ) (h : ∀ (x : QueueX) y, P { x with bound := y } = P x) (s : State) (b src c m : Nat) :
    P ((s.unbind b src).queue c m) = P (s.queue c m) :=
  unbind_keeps (fun s => P (s.queue c m)) (fun _ _ _ _ => rfl) (fun s b i => queue_modQueue_part P s b i _ (fun x => h x _) c m) s b src

theorem slotSrc_unbind (s : State) (b src c : Nat) (k : Dir) (m : Nat) : (s.unbind b src).slotSrc c k m = s.slotSrc c k m :=
  unbind_keeps (fun s => s.slotSrc c k m) (fun s b i v => slotSrc_wr s b i v (by decide) c k m) (fun _ _ _ => rfl) s b src

/-- Slots released have no source. -/
theorem slotSrc_released (s : State) (l : List (Nat × Nat × Nat)) {x : Nat × Nat × Nat} (hx : x ∈ l) (h : x.2.2 < 16) :
    (s.releaseSlots l).slotSrc x.1 (allDirs.getD x.2.1 .n) x.2.2 = 0 := by
  unfold State.releaseSlots
  exact (slots_const (fun x : Nat × Nat × Nat => (x.1, allDirs.getD x.2.1 .n, x.2.2)) 0 (by decide) l s).1 x hx h

/-- A refused source releases its holds and backs off (R226). -/
def refused (v : State) (a n : Nat) (held : List (Nat × Nat × Nat)) : State :=
  let s := (v.releaseSlots held).unbind (v.rd F.QUE_CFG_PEER a n) (qid a n)
  let due := s.cycles + max 1 (16 * s.rd F.QUE_PAR_BACKOFF a n)
  ((s.modQueue a n (fun x => { x with probe := none, backoffAt := due })).wr F.QUE_STAT_CSTATE a n 3).count C.QUE_CNT_NOSLOT a

theorem connRefuse_refused {u v : State} {a n conn k : Nat} {b : Bool} {pr : ProbeX} (hk : (if b then kRefusePeer else kRefuseSlot) = k)
    (ht : u.takeConn k a n conn (32 * a + n) (u.connFrom k a n conn).2 = (true, v)) (h1 : v.rd F.QUE_STAT_CSTATE a n = 1)
    (hp : (v.queue a n).probe = some pr) : connRefuse a n conn b u = refused v a n pr.held := by
  have hid : qid a n = 32 * a + n := by rw [qid, Nat.mul_comm]
  have hpeer : (v.releaseSlots pr.held).rd F.QUE_CFG_PEER a n = v.rd F.QUE_CFG_PEER a n :=
    releaseSlots_keeps (fun s => s.rd F.QUE_CFG_PEER a n) (fun s _ _ _ _ => rd_setSlot s _ _ _ _ a n (by decide)) v pr.held
  unfold connRefuse
  rw [hk]
  dsimp only
  rw [hid, ht]
  dsimp only
  rw [h1, if_neg (by decide), hp]
  unfold refused
  rw [hid, ← hpeer]
  rfl

theorem refused_keeps (v : State) (a n : Nat) (held : List (Nat × Nat × Nat)) (hh : ∀ x ∈ held, x.2.2 < 16) : let t := refused v a n held
    t.rd F.QUE_STAT_CSTATE a n = 3 ∧ (t.queue a n).probe = none ∧ (t.queue a n).backoffAt = v.cycles + max 1 (16 * v.rd F.QUE_PAR_BACKOFF a n) ∧
    (∀ x ∈ held, t.slotSrc x.1 (allDirs.getD x.2.1 .n) x.2.2 = 0) ∧ t.ctr C.QUE_CNT_NOSLOT a = (v.ctr C.QUE_CNT_NOSLOT a + 1) % 2 ^ 48 ∧
    mems t = mems v := by
  have hm : mems (refused v a n held) = mems v := by simp [refused]
  have k1 : ((v.releaseSlots held).unbind (v.rd F.QUE_CFG_PEER a n) (qid a n)).cycles = v.cycles :=
    (unbind_keeps State.cycles (fun _ _ _ _ => rfl) (fun _ _ _ => rfl) ..).trans (releaseSlots_keeps State.cycles (fun _ _ _ _ _ => rfl) v held)
  have k2 : ((v.releaseSlots held).unbind (v.rd F.QUE_CFG_PEER a n) (qid a n)).rd F.QUE_PAR_BACKOFF a n = v.rd F.QUE_PAR_BACKOFF a n :=
    (unbind_keeps (fun s => s.rd F.QUE_PAR_BACKOFF a n) (fun s _ _ _ => s.rd_wr_other _ _ _ _ _ (by decide)) (fun _ _ _ => rfl) ..).trans
      (releaseSlots_keeps (fun s => s.rd F.QUE_PAR_BACKOFF a n) (fun s _ _ _ _ => rd_setSlot s _ _ _ _ a n (by decide)) v held)
  have k3 : ((v.releaseSlots held).unbind (v.rd F.QUE_CFG_PEER a n) (qid a n)).ctr C.QUE_CNT_NOSLOT a = v.ctr C.QUE_CNT_NOSLOT a :=
    (unbind_keeps (fun s => s.ctr C.QUE_CNT_NOSLOT a) (fun _ _ _ _ => rfl) (fun _ _ _ => rfl) ..).trans
      (releaseSlots_keeps (fun s => s.ctr C.QUE_CNT_NOSLOT a) (fun _ _ _ _ _ => rfl) v held)
  have k4 : ∀ x ∈ held, ((v.releaseSlots held).unbind (v.rd F.QUE_CFG_PEER a n) (qid a n)).slotSrc x.1 (allDirs.getD x.2.1 .n) x.2.2 = 0 :=
    fun x hx => (slotSrc_unbind ..).trans (slotSrc_released v held hx (hh x hx))
  unfold refused at hm ⊢
  generalize (v.releaseSlots held).unbind (v.rd F.QUE_CFG_PEER a n) (qid a n) = w at hm k1 k2 k3 k4
  dsimp only at hm ⊢
  rw [k1, k2] at hm ⊢
  refine ⟨?_, ?_, ?_, fun x hx => ?_, ?_, hm⟩
  · rw [State.rd_count, State.rd_wr_self _ _ _ _ _ (by decide)]
    rfl
  · rw [State.queue_count, State.queue_wr, State.queue_modQueue_same]
  · rw [State.queue_count, State.queue_wr, State.queue_modQueue_same]
  · rw [slotSrc_count, slotSrc_wr _ _ _ _ (by decide), slotSrc_modQueue]
    exact k4 x hx
  · rw [State.ctr_count_same, State.ctr_wr, ← k3]
    rfl

theorem items_released (v : State) (l : List (Nat × Nat × Nat)) (b src a n : Nat) :
    (((v.releaseSlots l).unbind b src).queue a n).items = (v.queue a n).items :=
  (queue_unbind QueueX.items (fun _ _ => rfl) _ b src a n).trans
    (releaseSlots_keeps (fun s => (s.queue a n).items) (fun _ _ _ _ _ => rfl) v l)

/-- A source's connection closed, with its slots (R227). -/
def closed (v : State) (a n f r : Nat) : State :=
  let path := routeXY a (v.rd F.QUE_CFG_PEER a n / 32)
  let l := (List.append (circuitSlots path f 13) (circuitSlots (reverseRoute path) r 13)).map (fun (y : Nat × Nat × Nat × Nat) => (y.1, y.2.1, y.2.2.1))
  (((v.releaseSlots l).unbind (v.rd F.QUE_CFG_PEER a n) (qid a n)).modQueue a n (fun x => { x with probe := none, slots := none, idle := 0 })).wr
    F.QUE_STAT_CSTATE a n 0

theorem closed_keeps (v : State) (a n f r : Nat) (hf : f ≤ 13) : let t := closed v a n f r
    t.rd F.QUE_STAT_CSTATE a n = 0 ∧ (t.queue a n).slots = none ∧ (t.queue a n).items = (v.queue a n).items ∧
    (∀ x ∈ circuitSlots (routeXY a (v.rd F.QUE_CFG_PEER a n / 32)) f 13, t.slotSrc x.1 (allDirs.getD x.2.1 .n) x.2.2.1 = 0) ∧ mems t = mems v := by
  have hm : mems (closed v a n f r) = mems v := by simp [closed]
  unfold closed at hm ⊢
  dsimp only at hm ⊢
  refine ⟨?_, ?_, ?_, fun x hx => ?_, hm⟩
  · rw [State.rd_wr_self _ _ _ _ _ (by decide)]
    rfl
  · rw [State.queue_wr, State.queue_modQueue_same]
  · generalize List.map _ _ = l
    have hi := items_released v l (v.rd F.QUE_CFG_PEER a n) (qid a n) a n
    generalize (v.releaseSlots l).unbind (v.rd F.QUE_CFG_PEER a n) (qid a n) = w at hi ⊢
    rw [State.queue_wr, State.queue_modQueue_same]
    exact hi
  · rw [slotSrc_wr _ _ _ _ (by decide), slotSrc_modQueue, slotSrc_unbind]
    have h := slotSrc_released v _ (x := (x.1, x.2.1, x.2.2.1))
      (List.mem_map_of_mem (f := fun y : Nat × Nat × Nat × Nat => (y.1, y.2.1, y.2.2.1)) (List.mem_append_left
        (circuitSlots (reverseRoute (routeXY a (v.rd F.QUE_CFG_PEER a n / 32))) r 13) hx))
      (circuitSlots_bounds _ f 13 (by omega) (by decide) x hx).1
    dsimp only at h
    exact h

/-- A CLOSE at the far end frees the connection's slots (R227). -/
theorem connClose_closes {u v : State} {a n conn src part f r : Nat} (hf : u.connFrom kClose a n conn = (src, part))
    (ht : u.takeConn kClose a n conn (32 * a + n) part = (true, v)) (hr : v.role (src / 32) (src % 32) = 3)
    (hc : v.rd F.QUE_STAT_CSTATE (src / 32) (src % 32) = 5) (hi : (v.queue (src / 32) (src % 32)).items = [])
    (hp : (v.queue (src / 32) (src % 32)).probe = none) (hs : (v.queue (src / 32) (src % 32)).slots = some (f, r)) (h13 : f ≤ 13) :
    connClose a n conn u = closed v (src / 32) (src % 32) f r := by
  have hid : qid a n = 32 * a + n := by rw [qid, Nat.mul_comm]
  have he : v.closeDyn (src / 32) (src % 32) = closed v (src / 32) (src % 32) f r := by
    unfold State.closeDyn
    dsimp only
    rw [hp, hs]
    rfl
  unfold connClose
  rw [hf]
  dsimp only
  rw [hid, ht]
  dsimp only
  rw [if_neg (by decide), if_neg (by rw [hr, hc]; decide), State.reopen, he, (closed_keeps v _ _ f r h13).2.2.1, hi]
  rfl

/-- A closed source with positions allocated opens again (R224, R226). -/
theorem openDyn_opens (w : State) (a n : Nat) (hr : w.role a n = 3) (hc : w.rd F.QUE_STAT_CSTATE a n = 0) : let t := w.openDyn a n
    let g := (w.rd F.QUE_STAT_GEN a n + 1) % 128
    t.rd F.QUE_STAT_CSTATE a n = 1 ∧ t.rd F.QUE_STAT_GEN a n = g ∧
    aget (t.sync a).connOut n = some ⟨kProbe, w.rd F.QUE_CFG_PEER a n, 32 * g + n⟩ ∧ Frame w t (oneReg .QUE_STAT a n) := by
  have hm : mems (w.openDyn a n) = mems w := by simp
  have hk := (openDyn_keeps w a n).1
  intro t g
  have ht : t = State.connOut (State.modQueue ((w.wr F.QUE_STAT_GEN a n (w.rd F.QUE_STAT_GEN a n + 1)).wr F.QUE_STAT_CSTATE a n 1) a n
      (fun x => { x with probe := some ⟨[], [], []⟩ })) a n kProbe (w.rd F.QUE_CFG_PEER a n) (g * 32 + n) := by
    change w.openDyn a n = _
    unfold State.openDyn
    rw [hr, hc]
    dsimp only
    rw [if_pos (show (3 == 3 && 0 == 0) = true from rfl), State.connId, State.rd_modQueue, State.rd_modQueue, State.rd_wr_other _ _ _ _ _ _ (by decide),
      State.rd_wr_other _ _ _ _ _ _ (by decide), State.rd_wr_other _ _ _ _ _ _ (by decide), State.rd_wr_self _ _ _ _ _ (by decide)]
    rfl
  refine ⟨?_, ?_, ?_, .of_mems hm, hk⟩
  · rw [ht, State.connOut, State.rd_modSync, State.rd_modQueue, State.rd_wr_self _ _ _ _ _ (by decide)]
    rfl
  · rw [ht, State.connOut, State.rd_modSync, State.rd_modQueue, State.rd_wr_other _ _ _ _ _ _ (by decide), State.rd_wr_self _ _ _ _ _ (by decide)]
    rfl
  · rw [ht, State.connOut, State.sync_modSync_same, Nat.mul_comm g]
    exact aget_aput_same ..

theorem backoffEnds {s : State} {site : SiteId} {q : QueueNo} : let a := site.toNat
    let n := q.toNat
    let w := s.cycle + ((s.queue a n).backoffAt - s.cycles)
    s.role a n = 3 → s.rd F.QUE_STAT_CSTATE a n = 3 → s.reaches w = true →
    ((s.queue a n).items = [] → Done (.backoffExpiry site q) s (fun t => t.rd F.QUE_STAT_CSTATE a n = 0 ∧
      Frame (s.at_ w) t (oneReg .QUE_STAT a n))) ∧
    ((s.queue a n).items ≠ [] → Done (.backoffExpiry site q) s (fun t =>
      let g := ((s.at_ w).rd F.QUE_STAT_GEN a n + 1) % 128
      t.rd F.QUE_STAT_CSTATE a n = 1 ∧ t.rd F.QUE_STAT_GEN a n = g ∧
      aget (t.sync a).connOut n = some ⟨kProbe, s.rd F.QUE_CFG_PEER a n, 32 * g + n⟩ ∧
      Frame (s.at_ w) t (oneReg .QUE_STAT a n))) := by
  intro a n w hr hc hw
  have hex : exec (.backoffExpiry site q) s = .next (((s.at_ w).wr F.QUE_STAT_CSTATE a n 0).reopen a n) :=
    congrArg Host.Outcome.next (if_neg (by
      change ¬ (s.role a n ≠ 3 ∨ s.rd F.QUE_STAT_CSTATE a n ≠ 3 ∨ (!s.reaches w) = true)
      rw [hr, hc, hw]; decide))
  have hi : (((s.at_ w).wr F.QUE_STAT_CSTATE a n 0).queue a n).items = (s.queue a n).items := by rw [State.queue_wr, at_queue]
  have hrole : (s.at_ w).role a n = 3 := (State.at_rd s w (by decide) a n).trans hr
  have hpeer : (s.at_ w).rd F.QUE_CFG_PEER a n = s.rd F.QUE_CFG_PEER a n := State.at_rd s w (by decide) a n
  clear_value w
  generalize s.at_ w = v at hex hi hrole hpeer
  rw [State.reopen, hi] at hex
  have h0 : (v.wr F.QUE_STAT_CSTATE a n 0).rd F.QUE_STAT_CSTATE a n = 0 := v.rd_wr_self _ _ _ _ (by decide)
  have hf : Frame v (v.wr F.QUE_STAT_CSTATE a n 0) (oneReg .QUE_STAT a n) := .wr v 0 ⟨rfl, rfl, rfl⟩
  refine ⟨fun hi => ?_, fun hi => ?_⟩
  · rw [hi] at hex
    exact .next hex ⟨h0, hf⟩
  · rw [if_neg (by simpa using hi)] at hex
    have hr' : (v.wr F.QUE_STAT_CSTATE a n 0).role a n = 3 := (v.rd_wr_other _ _ _ _ _ (by decide)).trans hrole
    obtain ⟨k1, k2, k3, k4, k5⟩ := openDyn_opens (v.wr F.QUE_STAT_CSTATE a n 0) a n hr' h0
    rw [State.rd_wr_other _ _ _ _ _ _ (by decide)] at k2 k3
    rw [State.rd_wr_other _ _ _ _ _ _ (by decide), hpeer] at k3
    exact .next hex ⟨k1, k2, k3, hf.1.trans k4, hf.2.trans k5⟩

theorem connectionsEnd : ConnectionsEnd := by
  intro s p q conn a n u
  refine ⟨fun b v pr hr ht h1 hp hh => ?_, fun src part v f r hr hf ht hrole hc hi hp hs h13 => ?_, backoffEnds, fun h1 h2 h3 => ?_⟩
  · have hq : u.queue a n = s.queue a n := at_queue ..
    have hex : ∀ t, connRefuse a n conn.toNat b u = t → exec (.connRefuse p q conn b) s = .next t := fun t h =>
      congrArg Host.Outcome.next ((if_pos hr).trans h)
    clear_value u
    obtain ⟨l, hv⟩ := takeConn_true ht
    have hvr : v.regs = u.regs := by rw [hv]
    have hvq : v.queue a n = s.queue a n := by rw [← hq, hv]; rfl
    have hvm : mems v = mems u := by rw [hv]; rfl
    have hvc : v.cycles = u.cycles ∧ v.ctr C.QUE_CNT_NOSLOT a = u.ctr C.QUE_CNT_NOSLOT a := by rw [hv]; exact ⟨rfl, rfl⟩
    obtain ⟨k1, k2, k3, k4, k5, k6⟩ := refused_keeps v a n pr.held hh
    refine .next (hex _ (connRefuse_refused rfl ht ((rd_of_regs hvr ..).trans h1) (by rw [hvq]; exact hp))) ⟨k1, k2, ?_, k4, ?_, .of_mems (k6.trans hvm)⟩
    · rw [k3, hvc.1, rd_of_regs hvr]
    · rw [k5, hvc.2]
  · have hq : ∀ b m, u.queue b m = s.queue b m := fun b m => at_queue ..
    have hex : ∀ t, connClose a n conn.toNat u = t → exec (.connClose p q conn) s = .next t := fun t h =>
      congrArg Host.Outcome.next ((if_pos hr).trans h)
    clear_value u
    obtain ⟨l, hv⟩ := takeConn_true ht
    have hrd := rd_of_regs (s := u) (t := v) (by rw [hv])
    have hvq : ∀ b m, v.queue b m = s.queue b m := fun b m => by rw [← hq, hv]; rfl
    have hvm : mems v = mems u := by rw [hv]; rfl
    obtain ⟨k1, k2, -, k4, k5⟩ := closed_keeps v (src / 32) (src % 32) f r h13
    rw [hrd] at k4
    exact .next (hex _ (connClose_closes hf ht ((hrd ..).trans hrole) ((hrd ..).trans hc) (by rw [hvq]; exact hi) (by rw [hvq]; exact hp)
      (by rw [hvq]; exact hs) h13)) ⟨k1, k2, k4, .of_mems (k5.trans hvm)⟩
  · have hex : exec (.idleClose p.site q) s = .next ((s.wr F.QUE_STAT_CSTATE a n 5).connOut a n kClose (s.rd F.QUE_CFG_PEER a n) (s.connId a n)) :=
      congrArg Host.Outcome.next (if_pos ⟨h1, h2, h3⟩)
    refine .next hex ⟨?_, ?_, .of_mems (by simp), (SameRegs.wr (.refl _ _) 5 ⟨rfl, rfl, rfl⟩).trans (.of_eq rfl)⟩
    · rw [State.connOut, State.rd_modSync, State.rd_wr_self _ _ _ _ _ (by decide)]
      rfl
    · rw [State.connOut, State.sync_modSync_same]
      exact aget_aput_same ..

/-- Settles O23: the slots of a route are held, kept or freed link by link, and everything else is one change at an end. -/
theorem dynamicConnections : Obligations.DynamicConnections := ⟨connectionsOpen, connectionsEnd⟩

end Sys2Proof.Proofs
end

section
/-! PROOF. Control messages are injected; adds are applied and acknowledged (R214, R217, R218, R231, R242, R245, R254). -/

namespace Sys2Proof.Proofs

open Sys2Proof Sys2Proof.Machine

/-! ### What partitions and routes depend on -/

/-- The partition of a site is that of the partition registers. -/
theorem partOf_congr {s t : State} (h : ∀ p, t.word .HUT_PART 0 p = s.word .HUT_PART 0 p) (a : Nat) : t.partOf a = s.partOf a := by
  unfold State.partOf State.partHolds State.rd
  simp only [show F.HUT_PART_ACTIVE.reg = .HUT_PART from rfl, show F.HUT_PART_CB0.reg = .HUT_PART from rfl,
    show F.HUT_PART_NCB.reg = .HUT_PART from rfl, show F.HUT_PART_ROW0.reg = .HUT_PART from rfl, show F.HUT_PART_NROW.reg = .HUT_PART from rfl, h]

theorem partNo_congr {s t : State} (h : ∀ p, t.word .HUT_PART 0 p = s.word .HUT_PART 0 p) (a : Nat) : t.partNo a = s.partNo a := by
  rw [State.partNo, partOf_congr h, State.partNo]

/-! ### What a message sent leaves -/

section
variable (s : State) (a b : Nat) (m : CtlMsg)

theorem regs_sendCtl : (s.sendCtl a b m).regs = s.regs :=
  sendCtl_keeps State.regs (fun _ _ _ _ _ => rfl) (fun _ _ => rfl) (fun _ _ _ _ => rfl) (fun _ _ => rfl) s a b m

theorem sync_sendCtl (c : Nat) : (s.sendCtl a b m).sync c = s.sync c :=
  sendCtl_keeps (fun s => s.sync c) (fun _ _ _ _ _ => rfl) (fun _ _ => rfl) (fun _ _ _ _ => State.sync_modLink ..) (fun _ _ => rfl) s a b m

theorem sigAdds_sendCtl : (s.sendCtl a b m).sigAdds = s.sigAdds :=
  sendCtl_keeps State.sigAdds (fun _ _ _ _ _ => rfl) (fun _ _ => rfl) (fun _ _ _ _ => rfl) (fun _ _ => rfl) s a b m

theorem col_sendCtl : (s.sendCtl a b m).col = s.col :=
  sendCtl_keeps State.col (fun _ _ _ _ _ => rfl) (fun _ _ => rfl) (fun _ _ _ _ => rfl) (fun _ _ => rfl) s a b m

theorem ctr_sendCtl {i : Nat} (h : i < 4096 ∧ i ∉ [9, 10, 11, 22]) (c : Nat) : (s.sendCtl a b m).ctr ⟨none, i⟩ c = s.ctr ⟨none, i⟩ c :=
  sendCtl_keeps (fun s => s.ctr ⟨none, i⟩ c) (fun s _ _ _ hc => s.ctr_linkCtr h _ _ _ _ hc) (fun _ _ => rfl) (fun _ _ _ _ => rfl)
    (fun _ _ => rfl) s a b m

end

/-- A message sent is the last one under way. -/
theorem last_sendCtl {s u : State} {a b : Nat} {path : List (Nat × Dir)} (h : u.ctlRoute a b = some path)
    (hr : ∀ x, s.word .TRV_LINK_STATE x 0 = u.word .TRV_LINK_STATE x 0) (m : CtlMsg) : (s.sendCtl a b m).ctl.getLast? = some m := by
  have hs : ∀ x d, s.linkState x d = u.linkState x d := fun x d => congrArg (fieldGet (F.TRV_LINK_STATE_STATE.at 16 d.num)) (hr x)
  rw [ctl_sendCtl ((ctlRoute_congr hs a b).trans h)]
  exact List.getLast?_concat

/-! ### Ports of the Col -/

/-- An arrival offered to its port (R247). -/
def offerArrival (s : State) (c : CtlMsg) : State := match c with
  | .arrival a part b =>
    if (s.col.ports.filter (fun x => x.1 == portOf a)).length < 64 then
      { s.tookCtl (fun d => d == c) with col := { s.col with ports := List.append s.col.ports [(portOf a, a, part, b)] } }
    else s
  | _ => s

theorem fillPorts_eq (s : State) : s.fillPorts = (let v := s.ctl.foldl offerArrival s
    if v.col.ports.isEmpty || v.col.waitAt.isSome then v else { v with col := { v.col with waitAt := some v.cycles } }) := rfl

theorem offerArrival_keeps {γ : Type} (f : State → γ) (hf : ∀ (s : State) l c, f { s with ctl := l, col := c } = f s) (s : State) (c : CtlMsg) :
    f (offerArrival s c) = f s := by
  unfold offerArrival
  split
  · split
    · exact hf s _ _
    · rfl
  · rfl

/-- What the messages under way and the Col's part leave, filled ports leave. -/
theorem fillPorts_keeps {γ : Type} (f : State → γ) (hf : ∀ (s : State) l c, f { s with ctl := l, col := c } = f s) (s : State) : f s.fillPorts = f s := by
  rw [fillPorts_eq]
  have h := foldl_keep f offerArrival (offerArrival_keeps f hf) s.ctl s
  dsimp only
  split
  · exact h
  · exact (hf _ (s.ctl.foldl offerArrival s).ctl _).trans h

/-- The only arrival under way enters its port while that holds fewer than 64 (R247). -/
theorem fillPorts_one {v : State} {l : List CtlMsg} {a part b : Nat} (hc : v.ctl = List.append l [.arrival a part b])
    (hl : ∀ c ∈ l, ∀ x k z, c ≠ .arrival x k z) : let n := (v.col.ports.filter (fun x => x.1 == portOf a)).length
    (n < 64 → v.fillPorts.col.ports = List.append v.col.ports [(portOf a, a, part, b)]) ∧
    (64 ≤ n → v.fillPorts.col.ports = v.col.ports ∧ v.fillPorts.ctl = v.ctl) := by
  have hid : ∀ (l : List CtlMsg) (w : State), (∀ c ∈ l, ∀ x k z, c ≠ .arrival x k z) → l.foldl offerArrival w = w := by
    intro l
    induction l with
    | nil => exact fun _ _ => rfl
    | cons c l ih =>
      intro w h
      have hc : offerArrival w c = w := by
        unfold offerArrival
        split
        · exact absurd rfl (h _ (.head _) _ _ _)
        · rfl
      rw [List.foldl_cons, hc, ih w fun c hc => h c (.tail _ hc)]
  have hfold : v.ctl.foldl offerArrival v = offerArrival v (.arrival a part b) := by
    rw [hc]
    exact (List.foldl_append ..).trans (congrArg (fun w => offerArrival w (.arrival a part b)) (hid l v hl))
  have hports : ∀ w : State, (if w.col.ports.isEmpty || w.col.waitAt.isSome then w else { w with col := { w.col with waitAt := some w.cycles } } : State).col.ports = w.col.ports ∧
      (if w.col.ports.isEmpty || w.col.waitAt.isSome then w else { w with col := { w.col with waitAt := some w.cycles } } : State).ctl = w.ctl := fun w => by
    split <;> exact ⟨rfl, rfl⟩
  intro n
  rw [fillPorts_eq, hfold]
  refine ⟨fun hn => ?_, fun hn => ?_⟩
  · refine (hports _).1.trans ?_
    unfold offerArrival
    exact congrArg (fun s : State => s.col.ports) (if_pos hn)
  · have he : offerArrival v (.arrival a part b) = v := if_neg (by omega)
    rw [he]
    exact hports v

/-! ### The granted holder sends -/

/-- The arbiter's pointer moves past holder k. -/
def granted (u : State) (a k : Nat) : State := u.modSync a (fun y => { y with ptr := (k + 1) % 5 })

/-- What the holder of a number sends. -/
def injected (s : State) (a k : Nat) : State := match k with
  | 0 => injectAdd a s
  | 1 => injectArrival a s
  | 2 => injectClaim a s
  | 3 => injectConn a s
  | _ => injectCredit a s

theorem controlInject_granted {u : State} {a k : Nat} (hk : (u.sync a).grant = some k)
    (ha : ∀ b, u.holderDst a k = some b → u.ctlAdmits a b = true) : controlInject a u = injected (granted u a k) a k := by
  have hn : ¬ (u.holderDst a k).any (fun b => !u.ctlAdmits a b) = true := by
    cases e : u.holderDst a k with
    | none => simp
    | some b => simp [ha b e]
  unfold controlInject
  rw [hk]
  dsimp only
  rw [if_neg hn]
  rfl

theorem sync_wr (s : State) (f : Fld) (b i v a : Nat) : (s.wr f b i v).sync a = s.sync a := rfl

theorem sync_granted (u : State) (a k : Nat) : (granted u a k).sync a = { u.sync a with ptr := (k + 1) % 5 } := State.sync_modSync_same ..

section
variable {u : State} {a : Nat}

/-- A holder's change and a message sent leave memory and registers. -/
theorem sent_frame {v : State} (hr : v.regs = u.regs) (hm : mems v = mems u) (b : Nat) (m : CtlMsg) : Frame u (v.sendCtl a b m) noReg :=
  ⟨.of_mems (by simp [hm]), .of_eq ((regs_sendCtl ..).trans hr)⟩

theorem addInjected {tgt k : Nat} {rest : List (Nat × Nat)} {path : List (Nat × Dir)} (hg : (u.sync a).grant = some 0)
    (ht : (u.sync a).table = (tgt, k) :: rest) (ha : u.ctlAdmits a (tgt / 32) = true) (hp : u.ctlRoute a (tgt / 32) = some path) :
    let t := controlInject a u
    (t.sync a).table = rest ∧ (t.sync a).ptr = 1 ∧
    t.rd F.SEQ_SIG_STATUS_ADD_OUT a = (u.rd F.SEQ_SIG_STATUS_ADD_OUT a + 1) % 2 ^ F.SEQ_SIG_STATUS_ADD_OUT.width ∧
    t.ctl.getLast? = some (.add tgt ⟨BitVec.ofNat 8 a, BitVec.ofNat 4 (u.partNo a), BitVec.ofNat 5 tgt, BitVec.ofNat 16 k⟩) ∧
    Frame u t (oneReg .SEQ_SIG_STATUS a 0) := by
  have h1 : ∀ b, u.holderDst a 0 = some b → u.ctlAdmits a b = true := fun b h => by
    unfold State.holderDst at h
    dsimp only at h
    rw [ht] at h
    cases h
    exact ha
  rw [controlInject_granted hg h1]
  have hinj : injected (granted u a 0) a 0 = (((granted u a 0).modSync a (fun y => { y with table := rest })).wr F.SEQ_SIG_STATUS_ADD_OUT a 0
      (u.rd F.SEQ_SIG_STATUS_ADD_OUT a + 1)).sendCtl a (tgt / 32)
      (.add tgt ⟨BitVec.ofNat 8 a, BitVec.ofNat 4 (u.partNo a), BitVec.ofNat 5 tgt, BitVec.ofNat 16 k⟩) := by
    unfold injected injectAdd
    rw [sync_granted]
    dsimp only
    rw [ht]
    dsimp only
    exact congrArg (fun n => State.sendCtl _ a _ (.add tgt ⟨BitVec.ofNat 8 a, BitVec.ofNat 4 n, BitVec.ofNat 5 tgt, BitVec.ofNat 16 k⟩))
      (partNo_congr (fun p => State.word_wr_other _ _ _ _ _ _ (by decide)) a)
  have hm : mems (injected (granted u a 0) a 0) = mems u := by simp [injected, granted]
  dsimp only
  rw [hinj] at hm ⊢
  refine ⟨?_, ?_, ?_, ?_, .of_mems hm, ?_⟩
  · rw [sync_sendCtl, sync_wr, State.sync_modSync_same]
  · rw [sync_sendCtl, sync_wr, State.sync_modSync_same, sync_granted]
  · rw [rd_of_regs (regs_sendCtl ..), State.rd_wr_self _ _ _ _ _ (by decide)]
  · refine last_sendCtl (u := u) hp (fun x => ?_) _
    exact State.word_wr_other _ _ _ _ _ _ (by decide)
  · exact (SameRegs.wr (.of_eq rfl) _ ⟨rfl, rfl, rfl⟩).trans (.of_eq (regs_sendCtl ..))

theorem arrivalInjected {b : Nat} {rest : List Nat} {path : List (Nat × Dir)} (hg : (u.sync a).grant = some 1)
    (ho : (u.sync a).offered = b :: rest) (ha : u.ctlAdmits a (cornerOf a) = true) (hp : u.ctlRoute a (cornerOf a) = some path)
    (hn : ∀ c ∈ u.ctl, ∀ x k z, c ≠ .arrival x k z) : let t := controlInject a u
    let n := (u.col.ports.filter (fun x => x.1 == portOf a)).length
    (t.sync a).offered = rest ∧ (t.sync a).ptr = 2 ∧
    (n < 64 → t.col.ports = List.append u.col.ports [(portOf a, a, u.partNo a, b)]) ∧
    (64 ≤ n → t.col.ports = u.col.ports ∧ t.ctl.getLast? = some (.arrival a (u.partNo a) b)) ∧ Frame u t noReg := by
  have h1 : ∀ b, u.holderDst a 1 = some b → u.ctlAdmits a b = true := fun b h => by cases h; exact ha
  rw [controlInject_granted hg h1]
  have hinj : injected (granted u a 1) a 1 = (((granted u a 1).modSync a (fun y => { y with offered := rest })).sendCtl a (cornerOf a)
      (.arrival a (u.partNo a) b)).fillPorts := by
    unfold injected injectArrival
    rw [sync_granted]
    dsimp only
    rw [ho]
    rfl
  have hm : mems (injected (granted u a 1) a 1) = mems u := by simp [injected, granted]
  dsimp only
  rw [hinj] at hm ⊢
  have hctl := ctl_sendCtl (s := (granted u a 1).modSync a (fun y => { y with offered := rest })) (a := a) (b := cornerOf a) (path := path)
    hp (.arrival a (u.partNo a) b)
  have hs : (((granted u a 1).modSync a (fun y => { y with offered := rest })).sendCtl a (cornerOf a) (.arrival a (u.partNo a) b)).sync a =
      { u.sync a with ptr := 2, offered := rest } := by rw [sync_sendCtl, State.sync_modSync_same, sync_granted]
  have hcol : (((granted u a 1).modSync a (fun y => { y with offered := rest })).sendCtl a (cornerOf a) (.arrival a (u.partNo a) b)).col = u.col :=
    col_sendCtl ..
  have hregs : (((granted u a 1).modSync a (fun y => { y with offered := rest })).sendCtl a (cornerOf a) (.arrival a (u.partNo a) b)).regs = u.regs :=
    regs_sendCtl ..
  generalize ((granted u a 1).modSync a (fun y => { y with offered := rest })).sendCtl a (cornerOf a) (.arrival a (u.partNo a) b) = v at hm hctl hs hcol hregs
  obtain ⟨k1, k2⟩ := fillPorts_one hctl hn
  rw [hcol] at k1 k2
  have hsync : v.fillPorts.sync a = v.sync a := fillPorts_keeps (fun s => s.sync a) (fun _ _ _ => rfl) v
  refine ⟨?_, ?_, k1, fun h => ⟨(k2 h).1, ?_⟩, .of_mems hm, .of_eq ((fillPorts_keeps State.regs (fun _ _ _ => rfl) v).trans hregs)⟩
  · rw [hsync, hs]
  · rw [hsync, hs]
  · rw [(k2 h).2, hctl]
    exact List.getLast?_concat

theorem claimInjected {c : ClaimWait} {path : List (Nat × Dir)} (hg : (u.sync a).grant = some 2) (hc : (u.seq a).claim = some c)
    (ha : u.ctlAdmits a (siteOfTarn c.tarn) = true) (hp : u.ctlRoute a (siteOfTarn c.tarn) = some path) : let t := controlInject a u
    (t.sync a).claimOut = false ∧ (t.sync a).ptr = 3 ∧ t.ctl.getLast? = some (.claim c.tarn ⟨BitVec.ofNat 8 a, BitVec.ofNat 4 (u.partNo a),
      BitVec.ofNat 6 c.ctr, BitVec.ofNat 16 c.inc, BitVec.ofNat 16 c.seq⟩) ∧ Frame u t noReg := by
  have h1 : ∀ b, u.holderDst a 2 = some b → u.ctlAdmits a b = true := fun b h => by
    unfold State.holderDst at h
    dsimp only at h
    rw [hc] at h
    cases h
    exact ha
  rw [controlInject_granted hg h1]
  have hinj : injected (granted u a 2) a 2 = ((granted u a 2).modSync a (fun y => { y with claimOut := false })).sendCtl a (siteOfTarn c.tarn)
      (.claim c.tarn ⟨BitVec.ofNat 8 a, BitVec.ofNat 4 (u.partNo a), BitVec.ofNat 6 c.ctr, BitVec.ofNat 16 c.inc, BitVec.ofNat 16 c.seq⟩) := by
    unfold injected injectClaim
    dsimp only
    rw [State.seq_modSync, granted, State.seq_modSync, hc]
    rfl
  dsimp only
  rw [hinj]
  refine ⟨?_, ?_, ?_, sent_frame rfl (by simp [granted]) _ _⟩
  · rw [sync_sendCtl, State.sync_modSync_same]
  · rw [sync_sendCtl, State.sync_modSync_same, sync_granted]
  · refine last_sendCtl (u := u) hp (fun x => ?_) _
    rfl

theorem connInjected {n : Nat} {m : ConnMsg} {rest : List (Nat × ConnMsg)} {path : List (Nat × Dir)} (hg : (u.sync a).grant = some 3)
    (ho : (u.sync a).connOut = (n, m) :: rest) (ha : u.ctlAdmits a (m.dst / 32) = true) (hp : u.ctlRoute a (m.dst / 32) = some path) :
    let t := controlInject a u
    (t.sync a).connOut = rest ∧ (t.sync a).ptr = 4 ∧
    t.ctl.getLast? = some (.conn m.kind (32 * a + n) (m.dst / 32) (m.dst % 32) m.conn (u.partNo a)) ∧ Frame u t noReg := by
  have h1 : ∀ b, u.holderDst a 3 = some b → u.ctlAdmits a b = true := fun b h => by
    unfold State.holderDst at h
    dsimp only at h
    rw [ho] at h
    cases h
    exact ha
  have hid : qid a n = 32 * a + n := by rw [qid, Nat.mul_comm]
  rw [controlInject_granted hg h1]
  have hinj : injected (granted u a 3) a 3 = ((granted u a 3).modSync a (fun y => { y with connOut := rest })).sendCtl a (m.dst / 32)
      (.conn m.kind (32 * a + n) (m.dst / 32) (m.dst % 32) m.conn (u.partNo a)) := by
    unfold injected injectConn
    rw [sync_granted]
    dsimp only
    rw [ho, ← hid]
    rfl
  dsimp only
  rw [hinj]
  refine ⟨?_, ?_, ?_, sent_frame rfl (by simp [granted]) _ _⟩
  · rw [sync_sendCtl, State.sync_modSync_same]
  · rw [sync_sendCtl, State.sync_modSync_same, sync_granted]
  · refine last_sendCtl (u := u) hp (fun x => ?_) _
    rfl

theorem creditInjected {n k : Nat} {rest : List (Nat × Nat)} {path : List (Nat × Dir)} (hg : (u.sync a).grant = some 4)
    (ho : (u.sync a).creditOut = (n, k) :: rest) (ha : u.ctlAdmits a (u.rd F.QUE_CFG_PEER a n / 32) = true)
    (hp : u.ctlRoute a (u.rd F.QUE_CFG_PEER a n / 32) = some path) : let t := controlInject a u
    (t.sync a).creditOut = rest ∧ (t.sync a).ptr = 0 ∧
    t.ctl.getLast? = some (.credit (u.rd F.QUE_CFG_PEER a n) (32 * a + n) k (u.connOf a n) (u.partNo a)) ∧ Frame u t noReg := by
  have h1 : ∀ b, u.holderDst a 4 = some b → u.ctlAdmits a b = true := fun b h => by
    unfold State.holderDst at h
    dsimp only at h
    rw [ho] at h
    cases h
    exact ha
  have hid : qid a n = 32 * a + n := by rw [qid, Nat.mul_comm]
  rw [controlInject_granted hg h1]
  have hconn : ((granted u a 4).modSync a (fun y => { y with creditOut := rest })).connOf a n = u.connOf a n := by
    unfold State.connOf
    rw [State.queue_modSync, granted, State.queue_modSync]
    rfl
  have hinj : injected (granted u a 4) a 4 = ((granted u a 4).modSync a (fun y => { y with creditOut := rest })).sendCtl a
      (u.rd F.QUE_CFG_PEER a n / 32) (.credit (u.rd F.QUE_CFG_PEER a n) (32 * a + n) k (u.connOf a n) (u.partNo a)) := by
    unfold injected injectCredit
    rw [sync_granted]
    dsimp only
    rw [ho, ← hid]
    dsimp only
    rw [hconn]
    rfl
  dsimp only
  rw [hinj]
  refine ⟨?_, ?_, ?_, sent_frame rfl (by simp [granted]) _ _⟩
  · rw [sync_sendCtl, State.sync_modSync_same]
  · rw [sync_sendCtl, State.sync_modSync_same, sync_granted]
  · refine last_sendCtl (u := u) hp (fun x => ?_) _
    rfl

end

theorem controlMessagesAreInjected : ControlMessagesAreInjected := by
  intro s p a u y hr
  have hy : u.sync a = s.sync a := State.sync_congr (s.at_sites _) a
  have hc : u.seq a = s.seq a := State.seq_congr (s.at_sites _) a
  have hex : ∀ t, controlInject a u = t → exec (.controlInject p) s = .next t := fun t h => congrArg Host.Outcome.next ((if_pos hr).trans h)
  have hsite : BitVec.ofNat 8 a = p.site := BitVec.eq_of_toNat_eq (by simp [a])
  clear_value u
  change SyncX at y
  have hyu : y = u.sync a := hy.symm
  clear_value y
  subst hyu
  refine ⟨fun k b hg hd ha => ?_, fun tgt k rest path hg ht ha hp => ?_, fun b rest path hg ho ha hp hn => ?_, fun c path hg hcl ha hp => ?_,
    fun n m rest path hg ho ha hp => ?_, fun n k rest path hg ho ha hp => ?_⟩
  · refine .next (hex u ?_) rfl
    unfold controlInject
    rw [hg]
    exact if_pos (by rw [hd]; simp [ha])
  · obtain ⟨k1, k2, k3, k4, k5⟩ := addInjected hg ht ha hp
    exact .next (hex _ rfl) ⟨k1, k2, k3, ⟨_, k4, hsite, rfl, rfl, rfl⟩, k5⟩
  · obtain ⟨k1, k2, k3, k4, k5⟩ := arrivalInjected hg ho ha hp hn
    exact ⟨fun h => .next (hex _ rfl) ⟨k1, k2, k3 h, k5⟩, fun h => .next (hex _ rfl) ⟨k1, (k4 h).1, (k4 h).2, k5⟩⟩
  · obtain ⟨k1, k2, k3, k4⟩ := claimInjected hg (hc ▸ hcl) ha hp
    exact .next (hex _ rfl) ⟨k1, k2, ⟨_, k3, hsite, rfl, rfl, rfl⟩, k4⟩
  · exact .next (hex _ rfl) (connInjected hg ho ha hp)
  · exact .next (hex _ rfl) (creditInjected hg ho ha hp)

/-! ### Adds and their acknowledgements -/

/-- A flag noted reads as one written. -/
theorem rd_noteFlag (s : State) (f g : Fld) (a i b j : Nat) : (s.noteFlag f a i).rd g b j = (s.wr f a i 1).rd g b j := rfl

/-- The acknowledgement at the head of those under way is the one taken. -/
def isAck (a : Nat) (d : Bool) (c : CtlMsg) : Bool := match c with
  | .ack u d' _ => u == a && d' == d
  | _ => false

/-- An acknowledgement of partition k is applied, or discarded where another partition holds the site (R214, R242). -/
def acknowledged (s : State) (a k : Nat) (d : Bool) : State :=
  if s.crossPart a k && s.partOf a != none then s.count C.TRV_CNT_XPART a
  else
    let s := s.wr F.SEQ_SIG_STATUS_ADD_OUT a 0 (s.rd F.SEQ_SIG_STATUS_ADD_OUT a - 1)
    if d then s.noteFlag F.SEQ_SIG_STATUS_SIG_XPART a 0 else s

theorem addAck_head {u : State} {a k : Nat} {d : Bool} {rest : List CtlMsg} (hc : u.ctl = .ack a d k :: rest) :
    addAck a d u = acknowledged { u with ctl := rest } a k d := by
  have hm : isAck a d (.ack a d k) = true := by simp [isAck]
  have hd : u.tookCtl (isAck a d) = { u with ctl := rest } := by
    unfold State.tookCtl
    rw [hc, dropFirst, if_pos hm]
  have hf : u.ctl.find? (isAck a d) = some (.ack a d k) := by rw [hc]; exact List.find?_cons_of_pos hm
  unfold addAck
  extract_lets mine part v w
  have hp : part = k := by
    change (match u.ctl.find? (isAck a d) with
      | some (.ack _ _ p) => p
      | _ => u.partNo a) = k
    rw [hf]
  have hv : v = { u with ctl := rest } := hd
  clear_value part
  subst hp
  exact congrArg (fun v => acknowledged v a part d) hv

theorem addsAreAppliedAndAcknowledged : AddsAreAppliedAndAcknowledged := by
  intro s p m path a u c hr
  have hex : ∀ t, signalAdd a m u = t → exec (.signalAdd p m) s = .next t := fun t h => congrArg Host.Outcome.next ((if_pos hr).trans h)
  have hexA : ∀ d t, addAck a d u = t → exec (.addAck p d) s = .next t := fun d t h => congrArg Host.Outcome.next ((if_pos hr).trans h)
  have hid : qid a m.ctr.toNat = c := by rw [qid, Nat.mul_comm]
  clear_value u
  refine ⟨fun hp => ⟨fun hpart => ?_, fun hpart => ?_⟩, fun d x k rest hc hpart => ⟨fun hx => ?_, fun hx => ?_⟩⟩
  · have hadd : ∃ l, signalAdd a m u = (State.sigAdd { u with ctl := l } c m.add.toNat).sendCtl a m.src.toNat (.ack m.src.toNat false m.part.toNat) := by
      have hx : ∀ l, State.crossPart { u with ctl := l } a m.part.toNat = false := fun l => bne_eq_false_iff_eq.mpr hpart
      rw [← hid]
      exact ⟨_, if_neg (by rw [State.tookCtl, hx]; decide)⟩
    obtain ⟨l, hadd⟩ := hadd
    refine .next (hex _ hadd) ⟨?_, ?_, .of_mems ?_, .of_eq ?_⟩
    · rw [sigAdds_sendCtl, sigAdd_adds]
    · refine last_sendCtl (u := u) hp (fun x => ?_) _
      rfl
    · rw [← hadd]; simp
    · exact regs_sendCtl ..
  · have hadd : ∃ l, signalAdd a m u = (State.count { u with ctl := l } C.TRV_CNT_XPART a).sendCtl a m.src.toNat (.ack m.src.toNat true m.part.toNat) := by
      have hx : ∀ l, State.crossPart { u with ctl := l } a m.part.toNat = true := fun l => bne_iff_ne.mpr hpart
      exact ⟨_, if_pos (by rw [State.tookCtl, hx])⟩
    obtain ⟨l, hadd⟩ := hadd
    refine .next (hex _ hadd) ⟨?_, ?_, ?_, .of_mems ?_, .of_eq ?_⟩
    · rw [sigAdds_sendCtl]
      rfl
    · exact (ctr_sendCtl _ a m.src.toNat _ (by decide) a).trans (State.ctr_count_same ..)
    · refine last_sendCtl (u := u) hp (fun x => ?_) _
      rfl
    · rw [← hadd]; simp
    · exact regs_sendCtl ..
  · subst hx
    have hex' := hexA d _ (addAck_head hc)
    have hx : State.crossPart { u with ctl := rest } a x = false := bne_eq_false_iff_eq.mpr hpart
    rw [acknowledged, hx, Bool.false_and, if_neg Bool.false_ne_true] at hex'
    have h1 : ∀ w : State, (w.wr F.SEQ_SIG_STATUS_ADD_OUT a 0 (w.rd F.SEQ_SIG_STATUS_ADD_OUT a - 1)).rd F.SEQ_SIG_STATUS_ADD_OUT a =
        w.rd F.SEQ_SIG_STATUS_ADD_OUT a - 1 := fun w => rd_wr_pred w a 0 (by decide)
    have h2 : ∀ w : State, (w.wr F.SEQ_SIG_STATUS_ADD_OUT a 0 (w.rd F.SEQ_SIG_STATUS_ADD_OUT a - 1)).rd F.SEQ_SIG_STATUS_SIG_XPART a =
        w.rd F.SEQ_SIG_STATUS_SIG_XPART a := fun w => State.rd_wr_other _ _ _ _ _ _ (by decide)
    have hR : SameRegs u (State.wr { u with ctl := rest } F.SEQ_SIG_STATUS_ADD_OUT a 0 (u.rd F.SEQ_SIG_STATUS_ADD_OUT a - 1))
        (oneReg .SEQ_SIG_STATUS a 0) := .wr (.of_eq rfl) _ ⟨rfl, rfl, rfl⟩
    cases d with
    | false => exact .next hex' ⟨rfl, h1 { u with ctl := rest }, h2 { u with ctl := rest }, .of_eq rfl rfl, hR⟩
    | true =>
      dsimp only at hex'
      rw [if_pos rfl] at hex'
      refine .next hex' ⟨rfl, ?_, ?_, .of_eq rfl rfl, .note hR _ ⟨rfl, rfl, rfl⟩⟩
      · rw [rd_noteFlag, State.rd_wr_other _ _ _ _ _ _ (by decide)]
        exact h1 { u with ctl := rest }
      · rw [rd_noteFlag, State.rd_wr_self _ _ _ _ _ (by decide)]
        rfl
  · have hex' := hexA d _ (addAck_head hc)
    have hx' : State.crossPart { u with ctl := rest } a k = true := bne_iff_ne.mpr (by rw [show State.partOf { u with ctl := rest } a = some x from hpart]; simpa using hx)
    have hp' : State.partOf { u with ctl := rest } a = some x := hpart
    rw [acknowledged, hx', hp', if_pos (by simp)] at hex'
    exact .next hex' ⟨rfl, State.ctr_count_same .., .of_eq rfl rfl, .of_eq rfl⟩

/-- Settles O24: one message of the granted holder on the control plane, and the add and its acknowledgement at either end. -/
theorem addsReachCounters : Obligations.AddsReachCounters := ⟨controlMessagesAreInjected, addsAreAppliedAndAcknowledged⟩

end Sys2Proof.Proofs
end

section
/-! PROOF. Barriers count arrivals and release (R245 to R249). -/

namespace Sys2Proof.Proofs

open Sys2Proof Sys2Proof.Machine

/-! ### The registers that pending adds and credits change as a cycle ends -/

/-- Registers that pending adds, credits and ring records change. -/
def sigRegs : List RegName := [.SEQ_SIG, .SEQ_SIG_STATUS, .STR_STATE, .TRN_THR_STATE, .QUE_STAT]

section
variable {r : RegName} (h : r ∉ sigRegs) (a i : Nat)
include h

theorem word_wr_sig (s : State) {f : Fld} (hf : f.reg ∈ sigRegs) (b j v : Nat) : (s.wr f b j v).word r a i = s.word r a i :=
  s.word_wr_other _ _ _ _ _ fun e => h (e ▸ hf)

theorem word_ringConsume (s : State) (id : Nat) : (s.ringConsume id).word r a i = s.word r a i := by
  unfold State.ringConsume
  dsimp only
  split
  · exact (word_wr_sig h a i _ (List.mem_cons_self ..) ..).trans (word_wr_sig h a i _ (by decide) ..)
  · rfl

theorem word_applyAdd (s : State) (id n : Nat) : (s.applyAdd id n).word r a i = s.word r a i := by
  unfold State.applyAdd
  dsimp only
  split
  · exact word_wr_sig h a i _ (List.mem_cons_self ..) ..
  · refine Eq.trans ?_ (word_wr_sig h a i s (f := sigFld (id % 32)) (List.mem_cons_self ..) (id / 32) (id % 32 / 4) 65535)
    exact (((SameRegs.refl ((s.setSig (id / 32) (id % 32) 65535).count C.SEQ_CNT_SATLOSS (id / 32) (s.sig (id / 32) (id % 32) + n - 65535))
      (fun r _ _ => r ∈ sigRegs)).note (r := .SEQ_SIG_STATUS) _ (show RegName.SEQ_SIG_STATUS ∈ sigRegs by decide)) r a i h)

theorem word_giveCredit (s : State) (b n : Nat) : (s.giveCredit b n).word r a i = s.word r a i := by
  have hm : ∀ f g : Fld, f.reg ∈ sigRegs → g.reg ∈ sigRegs → (strFld b f g).reg ∈ sigRegs := fun f g hf hg => by
    unfold strFld; split <;> assumption
  unfold State.giveCredit
  dsimp only
  split
  · exact word_wr_sig h a i s (hm _ _ (by decide) (by decide)) b n 1
  · exact word_wr_sig h a i s (hm _ _ (by decide) (by decide)) ..

end

/-- The state in which a release that is due leaves, as a cycle ends (R247). -/
def beforeRelease (s : State) : State :=
  let own (id : Nat) : Bool := s.hostSigs.contains id
  let s0 := (s.ringDue.filter (fun id => !own id)).foldl (fun s id => s.ringConsume id) { s with ringDue := [], evs := [], hostSigs := [], padOld := [] }
  let adds := s.sigAdds.filter (fun x => !own x.1)
  let s1 := adds.foldl (fun s x => s.applyAdd x.1 x.2) { s0 with sigAdds := [], sigNext := [] }
  let s1 : State := { s1 with ringDue := (dedup s1.ringCounters).filter (fun id => s1.sig (id / 32) (id % 32) != 0) }
  let s2 := s.sigNext.foldl (fun s x => s.sigAdd x.1 x.2) s1
  s.credNext.foldl (fun s x => s.giveCredit (x.1 / 16) (x.1 % 16)) { s2 with credNext := [] }

theorem endCycle_due {s : State} {b part : Nat} (h : s.col.due = some (b, part)) : ∃ c d t,
    s.endCycle = { (beforeRelease s).emitRelease b part with cycle := c, cycles := d, time := t } := by
  unfold State.endCycle
  rw [h]
  exact ⟨_, _, _, rfl⟩

theorem word_beforeRelease {r : RegName} (h : r ∉ sigRegs) (s : State) (a i : Nat) : (beforeRelease s).word r a i = s.word r a i := by
  unfold beforeRelease
  extract_lets own s0 adds s1 s1' s2
  have e0 : s0.word r a i = s.word r a i := foldl_keep (fun s => s.word r a i) _ (fun s id => word_ringConsume h a i s id) _ _
  have e1 : s1.word r a i = s0.word r a i := foldl_keep (fun s => s.word r a i) _ (fun s (x : Nat × Nat) => word_applyAdd h a i s x.1 x.2) _ _
  have e2 : s2.word r a i = s1.word r a i := foldl_keep (fun s => s.word r a i) (fun s (x : Nat × Nat) => s.sigAdd x.1 x.2) (fun s x => rfl) _ _
  exact (foldl_keep (fun s => s.word r a i) _ (fun s (x : Nat × Nat) => word_giveCredit h a i s _ _) _ _).trans (e2.trans (e1.trans e0))

/-- Registers that the destinations of a release depend on. -/
theorem releaseTo_congr {s t : State} (h : ∀ r a i, r ∉ sigRegs → t.word r a i = s.word r a i) (part b : Nat) : t.releaseTo part b = s.releaseTo part b := by
  have hr : ∀ (f : Fld) a i, f.reg ∉ sigRegs → t.rd f a i = s.rd f a i := fun f a i hf => by
    unfold State.rd
    rw [h _ a i hf]
  have hb : ∀ a, t.barBit .COL_BAR_MEM b a = s.barBit .COL_BAR_MEM b a := fun a => by
    unfold State.barBit
    rw [h _ _ _ (by decide)]
  have hp : ∀ a, t.partHolds part a = s.partHolds part a := fun a => by
    unfold State.partHolds
    rw [hr _ _ _ (by decide), hr _ _ _ (by decide), hr _ _ _ (by decide), hr _ _ _ (by decide), hr _ _ _ (by decide)]
  unfold State.releaseTo
  congr 1
  funext a
  rw [hb, hp, hr _ _ _ (by decide)]

/-- The words of ARRIVED of one barrier are cleared. -/
def noneArrived (s : State) (b : Nat) : State := (List.range 4).foldl (fun s k => s.setWord .COL_BAR_ARR 0 (4 * b + k) 0) s

theorem noneArrived_word (s : State) (b k : Nat) (h : k < 4) : (noneArrived s b).word .COL_BAR_ARR 0 (4 * b + k) = 0 := by
  have hk : k = 0 ∨ k = 1 ∨ k = 2 ∨ k = 3 := by omega
  unfold noneArrived
  simp only [show List.range 4 = [0, 1, 2, 3] from rfl, List.foldl_cons, List.foldl_nil, State.word_setWord]
  rcases hk with rfl | rfl | rfl | rfl <;> simp

theorem noneArrived_other (s : State) (b : Nat) {r : RegName} (h : r ≠ .COL_BAR_ARR) (a i : Nat) : (noneArrived s b).word r a i = s.word r a i :=
  foldl_keep (fun s => s.word r a i) _ (fun _ _ => State.word_setWord_ne _ _ fun e => h e.1) _ _

/-- A release emitted empties its barrier and raises its generation (R247). -/
theorem emitRelease_empties (s : State) (b part : Nat) : let t := s.emitRelease b part
    t.col.due = none ∧ t.rd F.COL_BAR_COUNT 0 b = 0 ∧ t.rd F.COL_BAR_GEN 0 b = (s.rd F.COL_BAR_GEN 0 b + 1) % 2 ^ F.COL_BAR_GEN.width ∧
    (∀ z, z < 256 → t.barBit .COL_BAR_ARR b z = false) ∧ t.ctl = List.append s.ctl [.release b part (s.releaseTo part b)] := by
  intro t
  have hregs : t.regs = (((noneArrived s b).wr F.COL_BAR_COUNT 0 b 0).wr F.COL_BAR_GEN 0 b ((noneArrived s b).rd F.COL_BAR_GEN 0 b + 1)).regs := rfl
  have hrd : ∀ f a i, t.rd f a i = (((noneArrived s b).wr F.COL_BAR_COUNT 0 b 0).wr F.COL_BAR_GEN 0 b ((noneArrived s b).rd F.COL_BAR_GEN 0 b + 1)).rd f a i :=
    fun f a i => rd_of_regs hregs f a i
  have hgen : (noneArrived s b).rd F.COL_BAR_GEN 0 b = s.rd F.COL_BAR_GEN 0 b := by
    unfold State.rd
    rw [noneArrived_other s b (by decide)]
  have hctl : t.ctl = List.append (noneArrived s b).ctl [.release b part (s.releaseTo part b)] := rfl
  have hc : (noneArrived s b).ctl = s.ctl := foldl_keep State.ctl (fun s k => s.setWord .COL_BAR_ARR 0 (4 * b + k) 0) (fun _ _ => rfl) _ _
  refine ⟨rfl, ?_, ?_, fun z hz => ?_, hctl.trans (by rw [hc])⟩
  · rw [hrd, State.rd_wr_other _ _ _ _ _ _ (by decide), State.rd_wr_self _ _ _ _ _ (by decide)]
    rfl
  · rw [hrd, State.rd_wr_self _ _ _ _ _ (by decide), hgen]
  · have hw : t.word .COL_BAR_ARR 0 (4 * b + z / 64) = 0 := by
      refine Eq.trans ?_ (noneArrived_word s b (z / 64) (by omega))
      rw [State.word, hregs, ← State.word]
      rw [State.word_wr_other _ _ _ _ _ _ (by decide), State.word_wr_other _ _ _ _ _ _ (by decide)]
    unfold State.barBit
    rw [hw]
    exact BitVec.getLsbD_zero

/-! ### The arrival that the Col accepts -/

/-- The state in which the Col judges an arrival: its port has moved up. -/
def portTaken (s : State) (k : Nat) : State :=
  let s := s.settlePorts
  let rest := dropFirst (fun (x : Nat × Nat × Nat × Nat) => x.1 == k) s.col.ports
  let now := s.cycles
  let s : State := { s with col := { s.col with ports := rest, ptr := (k + 1) % 4, lastAt := some now, waitAt := none } }
  s.fillPorts

theorem offerArrival_col (s : State) (c : CtlMsg) :
    ((offerArrival s c).col.ptr, (offerArrival s c).col.lastAt, (offerArrival s c).col.due) = (s.col.ptr, s.col.lastAt, s.col.due) := by
  unfold offerArrival
  split
  · split <;> rfl
  · rfl

theorem fillPorts_col (s : State) : (s.fillPorts.col.ptr, s.fillPorts.col.lastAt, s.fillPorts.col.due) = (s.col.ptr, s.col.lastAt, s.col.due) := by
  rw [fillPorts_eq]
  have h := foldl_keep (fun s : State => (s.col.ptr, s.col.lastAt, s.col.due)) offerArrival offerArrival_col s.ctl s
  dsimp only
  split <;> exact h

theorem settlePorts_regs (s : State) : s.settlePorts.regs = s.regs ∧ s.settlePorts.cycles = s.cycles ∧ s.settlePorts.col.due = s.col.due ∧
    s.settlePorts.ctr C.COL_CNT_DISCARD = s.ctr C.COL_CNT_DISCARD ∧ mems s.settlePorts = mems s := by
  unfold State.settlePorts
  split
  · exact ⟨rfl, rfl, rfl, State.ctr_count_ne _ _ (by decide), rfl⟩
  · exact ⟨rfl, rfl, rfl, rfl, rfl⟩

theorem portTaken_quiet (s : State) (k : Nat) : let v := portTaken s k
    v.regs = s.regs ∧ v.cycles = s.cycles ∧ v.col.due = s.col.due ∧ v.col.ptr = (k + 1) % 4 ∧ v.col.lastAt = some s.cycles ∧
    v.ctr C.COL_CNT_DISCARD = s.ctr C.COL_CNT_DISCARD ∧ mems v = mems s := by
  intro v
  obtain ⟨h1, h2, h3, h4, h5⟩ := settlePorts_regs s
  have hf : ∀ {γ : Type} (f : State → γ), (∀ (s : State) l c, f { s with ctl := l, col := c } = f s) → f v = f s.settlePorts := fun f hf =>
    (fillPorts_keeps f hf _).trans (hf s.settlePorts s.settlePorts.ctl _)
  have hc := fillPorts_col ({ s.settlePorts with col := { s.settlePorts.col with
    ports := dropFirst (fun (x : Nat × Nat × Nat × Nat) => x.1 == k) s.settlePorts.col.ports, ptr := (k + 1) % 4, lastAt := some s.settlePorts.cycles, waitAt := none } } : State)
  simp only [Prod.mk.injEq] at hc
  obtain ⟨c1, c2, c3⟩ := hc
  exact ⟨(hf State.regs fun _ _ _ => rfl).trans h1, (hf State.cycles fun _ _ _ => rfl).trans h2, c3.trans h3, c1, c2.trans (congrArg some h2),
    (hf (fun s => s.ctr C.COL_CNT_DISCARD) fun _ _ _ => rfl).trans h4, (hf mems fun _ _ _ => rfl).trans h5⟩

/-- A fold over a pair keeps of its state what each step keeps. -/
theorem foldl_keep_snd {β γ δ : Type} (p : State → γ) (g : δ × State → β → δ × State) (h : ∀ z x, p (g z x).2 = p z.2) (l : List β) (z : δ × State) :
    p (l.foldl g z).2 = p z.2 := by
  induction l generalizing z with
  | nil => rfl
  | cons x l ih => rw [List.foldl_cons, ih, h]

/-- The release's way over the links leaves what link counters, links and arbiters do not hold. -/
theorem forkRelease_keeps {γ : Type} (f : State → γ) (hc : ∀ (s : State) c b n, c ∈ linkCtrs → f (s.count c b n) = f s)
    (ha : ∀ (s : State) l, f { s with arbs := l } = f s) (hl : ∀ (s : State) b k g, f (s.modLink b k g) = f s) (s : State) (part x : Nat) :
    f (s.forkRelease part x) = f s := by
  unfold State.forkRelease
  refine foldl_keep f _ (fun s c => ?_) _ _
  refine foldl_keep_snd f _ (fun z a => ?_) _ (([] : List (Nat × Nat × Nat)), s)
  split
  · exact ctlHop_keeps f hc ha hl _ _ _ _ _ _ _
  · rfl

/-- The arrival's bit stands in its barrier. -/
def stood (s : State) (a b : Nat) : State :=
  let i := 4 * b + a / 64
  s.setWord .COL_BAR_ARR 0 i (s.word .COL_BAR_ARR 0 i ||| (1#64 <<< (a % 64)))

/-- The arrival is counted. -/
def arrived (s : State) (a b : Nat) : State :=
  ((stood s a b).wr F.COL_BAR_COUNT 0 b ((stood s a b).rd F.COL_BAR_COUNT 0 b + 1)).count C.COL_CNT_ARRIVE

/-- A release is due. -/
def withDue (s : State) (b part : Nat) : State := { s with col := { s.col with due := some (b, part) } }

theorem accept_eq (s : State) (a part b : Nat) : s.accept a part b =
    if s.rd F.COL_BAR_OWNER 0 b ≠ part ∨ s.rd F.COL_BAR_ACTIVE 0 b = 0 ∨ !s.barBit .COL_BAR_MEM b a ∨ s.barBit .COL_BAR_ARR b a then s.count C.COL_CNT_DISCARD
    else if (stood s a b).rd F.COL_BAR_COUNT 0 b + 1 = (arrived s a b).rd F.COL_BAR_TARGET 0 b then
      withDue ((arrived s a b).forkRelease part ((arrived s a b).cycles + 1)) b part else arrived s a b := by
  unfold State.accept withDue arrived stood
  with_reducible rfl

theorem rd_stood (s : State) (f : Fld) (a b c i : Nat) (h : f.reg ≠ .COL_BAR_ARR) : (stood s a b).rd f c i = s.rd f c i := by
  have hw : (stood s a b).word f.reg c i = s.word f.reg c i := State.word_setWord_ne _ _ fun e => h e.1
  unfold State.rd
  rw [hw]

theorem rd_arrived (s : State) (a b : Nat) : let t := arrived s a b
    t.rd F.COL_BAR_COUNT 0 b = (s.rd F.COL_BAR_COUNT 0 b + 1) % 2 ^ F.COL_BAR_COUNT.width ∧ t.rd F.COL_BAR_TARGET 0 b = s.rd F.COL_BAR_TARGET 0 b := by
  intro t
  have ht : ∀ f c i, t.rd f c i = ((stood s a b).wr F.COL_BAR_COUNT 0 b ((stood s a b).rd F.COL_BAR_COUNT 0 b + 1)).rd f c i := rd_of_regs rfl
  rw [ht, ht]
  generalize hv : stood s a b = v
  rw [State.rd_wr_self _ _ _ _ _ (by decide), State.rd_wr_other _ _ _ _ _ _ (by decide), ← hv, rd_stood _ _ _ _ _ _ (by decide), rd_stood _ _ _ _ _ _ (by decide)]
  exact ⟨rfl, rfl⟩

/-- An arrival counted stands in its barrier, and no other register changes. -/
theorem arrived_stands (s : State) (a b : Nat) : let t := arrived s a b
    t.barBit .COL_BAR_ARR b a = true ∧ SameRegs s t (fun r c i => oneReg .COL_BAR 0 b r c i ∨ oneReg .COL_BAR_ARR 0 (4 * b + a / 64) r c i) := by
  intro t
  have hr : t.regs = ((stood s a b).wr F.COL_BAR_COUNT 0 b ((stood s a b).rd F.COL_BAR_COUNT 0 b + 1)).regs := rfl
  have hs : SameRegs s (stood s a b) (fun r c i => oneReg .COL_BAR 0 b r c i ∨ oneReg .COL_BAR_ARR 0 (4 * b + a / 64) r c i) :=
    (SameRegs.refl s _).setWord _ (.inr ⟨rfl, rfl, rfl⟩)
  have hw : (stood s a b).word .COL_BAR_ARR 0 (4 * b + a / 64) = s.word .COL_BAR_ARR 0 (4 * b + a / 64) ||| (1#64 <<< (a % 64)) := State.word_setWord_same ..
  generalize stood s a b = v at hr hs hw
  refine ⟨?_, (hs.wr (f := F.COL_BAR_COUNT) _ (.inl ⟨rfl, rfl, rfl⟩)).trans (.of_eq hr)⟩
  have ht : t.word .COL_BAR_ARR 0 (4 * b + a / 64) = v.word .COL_BAR_ARR 0 (4 * b + a / 64) := by
    rw [State.word, hr, ← State.word]
    exact State.word_wr_other _ _ _ _ _ _ (by decide)
  unfold State.barBit
  rw [ht, hw]
  have := Nat.mod_lt a (show 64 > 0 by decide)
  simp [this]

theorem withDue_quiet (s : State) (b part : Nat) : (withDue s b part).regs = s.regs ∧ mems (withDue s b part) = mems s ∧
    (withDue s b part).col = { s.col with due := some (b, part) } := ⟨rfl, rfl, rfl⟩

/-- What an accepted arrival leaves beyond its barrier, and when its release is due. -/
theorem accept_counted (s : State) {a part b : Nat} (ho : s.rd F.COL_BAR_OWNER 0 b = part) (hact : s.rd F.COL_BAR_ACTIVE 0 b ≠ 0)
    (hm : s.barBit .COL_BAR_MEM b a = true) (hn : s.barBit .COL_BAR_ARR b a = false) :
    (s.accept a part b).regs = (arrived s a b).regs ∧ mems (s.accept a part b) = mems s ∧
    (s.accept a part b).col = { s.col with due := if s.rd F.COL_BAR_COUNT 0 b + 1 = s.rd F.COL_BAR_TARGET 0 b then some (b, part) else s.col.due } := by
  have hno : ¬ (s.rd F.COL_BAR_OWNER 0 b ≠ part ∨ s.rd F.COL_BAR_ACTIVE 0 b = 0 ∨ (!s.barBit .COL_BAR_MEM b a) = true ∨ s.barBit .COL_BAR_ARR b a = true) := by
    simp [ho, hm, hn, hact]
  have h1 : (arrived s a b).col = s.col := by simp [arrived, stood]
  have h2 : mems (arrived s a b) = mems s := by simp [arrived, stood]
  rw [accept_eq, if_neg hno, rd_stood _ _ _ _ _ _ (by decide), (rd_arrived s a b).2]
  have hcol := forkRelease_keeps State.col (fun _ _ _ _ _ => rfl) (fun _ _ => rfl) (fun _ _ _ _ => rfl) (arrived s a b) part ((arrived s a b).cycles + 1)
  have hregs := forkRelease_keeps State.regs (fun _ _ _ _ _ => rfl) (fun _ _ => rfl) (fun _ _ _ _ => rfl) (arrived s a b) part ((arrived s a b).cycles + 1)
  have hmems := forkRelease_keeps mems (fun _ _ _ _ _ => rfl) (fun _ _ => rfl) (fun _ _ _ _ => by simp) (arrived s a b) part ((arrived s a b).cycles + 1)
  generalize (arrived s a b).forkRelease part ((arrived s a b).cycles + 1) = w at hcol hregs hmems ⊢
  obtain ⟨k1, k2, k3⟩ := withDue_quiet w b part
  by_cases h : s.rd F.COL_BAR_COUNT 0 b + 1 = s.rd F.COL_BAR_TARGET 0 b
  · rw [if_pos h, if_pos h]
    exact ⟨k1.trans hregs, k2.trans (hmems.trans h2), k3.trans (by rw [hcol, h1])⟩
  · rw [if_neg h, if_neg h]
    exact ⟨rfl, h2, h1⟩

/-! ### Releases at a member -/

/-- The flags' field is the whole word. -/
theorem flags_eq (s : State) (a : Nat) : BitVec.ofNat 64 (s.rd F.SEQ_BARFLAG_FLAGS a) = s.word .SEQ_BARFLAG a 0 := by
  have := (s.word .SEQ_BARFLAG a 0).isLt
  unfold State.rd fieldGet
  apply BitVec.eq_of_toNat_eq
  simp [F.SEQ_BARFLAG_FLAGS, Nat.mod_eq_of_lt this]

theorem word_wr_flags (s : State) (a : Nat) (w : Word) : (s.wr F.SEQ_BARFLAG_FLAGS a 0 w.toNat).word .SEQ_BARFLAG a 0 = w := by
  have h := flags_eq (s.wr F.SEQ_BARFLAG_FLAGS a 0 w.toNat) a
  rw [← h, State.rd_wr_self _ _ _ _ _ (by decide)]
  apply BitVec.eq_of_toNat_eq
  have := w.isLt
  simp [F.SEQ_BARFLAG_FLAGS, Nat.mod_eq_of_lt this]

/-- A release at a site, once it is no longer on its way there: the flag clears and the counter of REL is due one. -/
def releaseActs (v : State) (a b : Nat) : State :=
  let f := BitVec.ofNat 64 (v.rd F.SEQ_BARFLAG_FLAGS a)
  if f.getLsbD b && v.partOf a == some (v.rd F.COL_BAR_OWNER 0 b) then
    (v.wr F.SEQ_BARFLAG_FLAGS a 0 (f &&& ~~~(1#64 <<< b)).toNat).sigAdd (qid a (v.relOf b)) 1
  else v

theorem barrierRelease_eq (a b : Nat) (u : State) : ∃ l, barrierRelease a b u = releaseActs { u with ctl := l } a b := by
  unfold barrierRelease
  extract_lets left empty v
  exact ⟨v.ctl, rfl⟩

/-! ### The obligation -/

section
variable {s : State} {a : Nat}

theorem offered_of_fenceMet {u : State} {b w : Nat} {sent : List (Nat × Nat)} (h : (u.sync a).fenced.find? (fun y => y.1 == b) = some (b, w, sent))
    (hm : u.fenceMet a w sent = true) : let t := fencedOffer a b u
    (t.sync a).offered = List.append (u.sync a).offered [b] ∧ Frame u t noReg ∧ OtherSites u t a := by
  intro t
  have ht : ∃ n l, t = (u.count C.SEQ_CNT_FENCE a n).modSync a (fun y => { y with fenced := l, offered := List.append y.offered [b] }) := by
    refine ⟨u.fenceCycles w (dropFirst (fun (y : Nat × Nat × List (Nat × Nat)) => y.1 == b) (u.sync a).fenced),
      dropFirst (fun (y : Nat × Nat × List (Nat × Nat)) => y.1 == b) (u.sync a).fenced, ?_⟩
    show fencedOffer a b u = _
    unfold fencedOffer
    rw [h]
    exact if_pos hm
  obtain ⟨n, l, ht⟩ := ht
  rw [ht]
  refine ⟨?_, .of_eq, ?_⟩
  · rw [State.sync_modSync_same]
    rfl
  · exact OtherSites.modSite (OtherSites.of_eq rfl) _

theorem notOffered_of_fence {u : State} {b w : Nat} {sent : List (Nat × Nat)} (h : (u.sync a).fenced.find? (fun y => y.1 == b) = some (b, w, sent))
    (hm : u.fenceMet a w sent = false) : fencedOffer a b u = u := by
  unfold fencedOffer
  rw [h]
  exact if_neg (by rw [hm]; decide)

theorem barrierArrival_eq {k x part b : Nat} (h : s.nextArrival = some (k, x, part, b)) :
    exec .barrierArrival s = .next ((portTaken s k).accept x part b) := by
  show Host.Outcome.next _ = _
  rw [h]
  rfl

theorem barrierArrival_none (h : s.nextArrival = none) : exec .barrierArrival s = .next s := by
  show Host.Outcome.next _ = _
  rw [h]

theorem rd_congr {t : State} (h : t.regs = s.regs) (f : Fld) (a i : Nat) : t.rd f a i = s.rd f a i := rd_of_regs h f a i

theorem barBit_congr {t : State} (h : t.regs = s.regs) (r : RegName) (b x : Nat) : t.barBit r b x = s.barBit r b x := by
  unfold State.barBit State.word
  rw [h]

theorem arrivalCounted {k x part b : Nat} (h : s.nextArrival = some (k, x, part, b)) (ho : s.rd F.COL_BAR_OWNER 0 b = part)
    (hact : s.rd F.COL_BAR_ACTIVE 0 b ≠ 0) (hm : s.barBit .COL_BAR_MEM b x = true) (hn : s.barBit .COL_BAR_ARR b x = false) :
    Done .barrierArrival s (fun t =>
      t.rd F.COL_BAR_COUNT 0 b = (s.rd F.COL_BAR_COUNT 0 b + 1) % 2 ^ F.COL_BAR_COUNT.width ∧
      t.barBit .COL_BAR_ARR b x = true ∧ t.col.ptr = (k + 1) % 4 ∧ t.col.lastAt = some s.cycles ∧
      (s.rd F.COL_BAR_COUNT 0 b + 1 = s.rd F.COL_BAR_TARGET 0 b → t.col.due = some (b, part)) ∧
      (s.rd F.COL_BAR_COUNT 0 b + 1 ≠ s.rd F.COL_BAR_TARGET 0 b → t.col.due = s.col.due) ∧
      Frame s t (fun r c i => oneReg .COL_BAR 0 b r c i ∨ oneReg .COL_BAR_ARR 0 (4 * b + x / 64) r c i)) := by
  obtain ⟨hr, -, hdue, hptr, hlast, -, hmem⟩ := portTaken_quiet s k
  have hex := barrierArrival_eq h
  generalize portTaken s k = v at hr hdue hptr hlast hmem hex
  obtain ⟨k1, k2, k3⟩ := accept_counted v (a := x) ((rd_congr hr ..).trans ho) (by rwa [rd_congr hr]) ((barBit_congr hr ..).trans hm) ((barBit_congr hr ..).trans hn)
  obtain ⟨r1, -⟩ := rd_arrived v x b
  obtain ⟨b1, b2⟩ := arrived_stands v x b
  rw [rd_congr hr] at k3 r1
  rw [rd_congr hr] at k3
  refine .next hex ⟨(rd_congr k1 ..).trans r1, (barBit_congr k1 ..).trans b1, ?_, ?_, fun e => ?_, fun e => ?_, .of_mems (k2.trans hmem),
    (SameRegs.of_eq hr).trans (b2.trans (.of_eq k1))⟩
  · rw [k3]; exact hptr
  · rw [k3]; exact hlast
  · rw [k3, if_pos e]
  · rw [k3, if_neg e]; exact hdue

theorem arrivalDiscarded {k x part b : Nat} (h : s.nextArrival = some (k, x, part, b))
    (hd : s.rd F.COL_BAR_OWNER 0 b ≠ part ∨ s.rd F.COL_BAR_ACTIVE 0 b = 0 ∨ s.barBit .COL_BAR_MEM b x = false ∨ s.barBit .COL_BAR_ARR b x = true) :
    Done .barrierArrival s (fun t => t.ctr C.COL_CNT_DISCARD = (s.ctr C.COL_CNT_DISCARD + 1) % 2 ^ 48 ∧ t.col.ptr = (k + 1) % 4 ∧ Frame s t noReg) := by
  obtain ⟨hr, -, -, hptr, -, hctr, hmem⟩ := portTaken_quiet s k
  have hex := barrierArrival_eq h
  generalize portTaken s k = v at hr hctr hptr hmem hex
  rw [accept_eq, if_pos (by rw [rd_congr hr, rd_congr hr, barBit_congr hr, barBit_congr hr]; simpa using hd)] at hex
  refine .next hex ⟨?_, hptr, .of_mems hmem, .of_eq hr⟩
  rw [State.ctr_count_same, hctr]

/-- The release that is due leaves at the end of the cycle (R247). -/
theorem releaseLeaves {b part : Nat} (hp : s.pending = []) (hl : s.board.pllLock = true) (hc : s.cycle + 1 < s.pitchLen) (ht : s.hut.testing = [])
    (hd : s.col.due = some (b, part)) : ∃ t, step s = .next t ∧ t.col.due = none ∧
      t.rd F.COL_BAR_COUNT 0 b = 0 ∧ t.rd F.COL_BAR_GEN 0 b = (s.rd F.COL_BAR_GEN 0 b + 1) % 2 ^ F.COL_BAR_GEN.width ∧
      (∀ z, z < 256 → t.barBit .COL_BAR_ARR b z = false) ∧ t.ctl.getLast? = some (.release b part (s.releaseTo part b)) ∧ SameMem s t := by
  have hstep : step s = .next (s.pass 1) := by simp [step, hp, tick, hl, hc, State.testsAllow, ht]
  have hsame := SameButTime.pass s 1
  have hk : ∀ {γ : Type} (f : State → γ), (∀ (s : State) a, f (s.count C.TRV_CNT_DELAY a 1) = f s) → f (s.countDelay 1) = f s := fun f hf => by
    unfold State.countDelay
    split
    · rfl
    · exact foldl_keep f (fun s a => s.count C.TRV_CNT_DELAY a 1) hf _ _
  obtain ⟨c, d, e, he⟩ := endCycle_due ((congrArg ColX.due (hk State.col fun _ _ => rfl)).trans hd)
  have hw : ∀ r a i, r ∉ sigRegs → (beforeRelease (s.countDelay 1)).word r a i = s.word r a i := fun r a i h =>
    (word_beforeRelease h _ a i).trans (hk (fun s => s.word r a i) fun _ _ => rfl)
  have hpass : s.pass 1 = _ := he
  generalize beforeRelease (s.countDelay 1) = v at hw hpass
  obtain ⟨e1, e2, e3, e4, e5⟩ := emitRelease_empties v b part
  have hgen : v.rd F.COL_BAR_GEN 0 b = s.rd F.COL_BAR_GEN 0 b := by
    unfold State.rd
    rw [hw _ _ _ (by decide)]
  rw [hgen] at e3
  rw [releaseTo_congr hw] at e5
  refine ⟨_, hstep, ?_, ?_, ?_, ?_, ?_, .of_eq hsame.mem hsame.poison⟩ <;> rw [hpass]
  · exact e1
  · exact e2
  · exact e3
  · exact e4
  · show (v.emitRelease b part).ctl.getLast? = _
    rw [e5]
    exact List.getLast?_concat

theorem releasedAt {v : State} {b : Nat} (hf : (v.word .SEQ_BARFLAG a 0).getLsbD b = true) (hp : v.partOf a = some (v.rd F.COL_BAR_OWNER 0 b)) :
    let t := releaseActs v a b
    (t.word .SEQ_BARFLAG a 0).getLsbD b = false ∧ (∀ k, k ≠ b → (t.word .SEQ_BARFLAG a 0).getLsbD k = (v.word .SEQ_BARFLAG a 0).getLsbD k) ∧
    aget t.sigAdds (32 * a + v.relOf b) = some ((aget v.sigAdds (32 * a + v.relOf b)).getD 0 + 1) ∧ Frame v t (oneReg .SEQ_BARFLAG a 0) := by
  intro t
  have hc : ((BitVec.ofNat 64 (v.rd F.SEQ_BARFLAG_FLAGS a)).getLsbD b && v.partOf a == some (v.rd F.COL_BAR_OWNER 0 b)) = true := by
    rw [flags_eq, hf, hp]
    simp
  have ht : t = (v.wr F.SEQ_BARFLAG_FLAGS a 0 (BitVec.ofNat 64 (v.rd F.SEQ_BARFLAG_FLAGS a) &&& ~~~(1#64 <<< b)).toNat).sigAdd (qid a (v.relOf b)) 1 := if_pos hc
  rw [flags_eq] at ht
  have hw : t.word .SEQ_BARFLAG a 0 = v.word .SEQ_BARFLAG a 0 &&& ~~~(1#64 <<< b) := by
    rw [ht]
    exact word_wr_flags v a _
  have hq : qid a (v.relOf b) = 32 * a + v.relOf b := by rw [qid, Nat.mul_comm]
  refine ⟨?_, fun k hk => ?_, ?_, ?_⟩
  · rw [hw]
    simp [BitVec.getLsbD_shiftLeft]
  · have h1 : b ≤ k → ¬ k - b < 1 := by omega
    rw [hw]
    by_cases h : k < 64
    · by_cases h2 : k < b
      · simp [h, h2]
      · simp [h]
        omega
    · rw [BitVec.getLsbD_of_ge _ _ (by omega), BitVec.getLsbD_of_ge _ _ (by omega)]
  · rw [ht, ← hq]
    exact sigAdd_adds _ _ _
  · rw [ht]
    exact (Frame.wr v (f := F.SEQ_BARFLAG_FLAGS) _ ⟨rfl, rfl, rfl⟩).congr rfl rfl rfl

theorem notReleasedAt {v : State} {b : Nat} (hf : (v.word .SEQ_BARFLAG a 0).getLsbD b = false) : releaseActs v a b = v := by
  refine if_neg ?_
  rw [flags_eq, hf]
  simp

end

/-- Settles O25: a fenced arrival, its count at the Col, the release as the cycle ends, and the release at a member. -/
theorem barriersCountAndRelease : Obligations.BarriersCountAndRelease := by
  intro s p bar a u
  refine ⟨fun hr w sent hf => ?_, fun h => ?_, fun k x part b h _ => ⟨?_, ?_⟩, fun b part hp hl hc ht _ hd => ?_, fun hr => ?_⟩
  · have hex : ∀ t, fencedOffer a bar.toNat u = t → exec (.fencedArrivalOffer p bar) s = .next t := fun t h => congrArg Host.Outcome.next ((if_pos hr).trans h)
    have hsy : u.sync a = s.sync a := State.sync_congr (SameButTime.at_ s p.t.toNat).sites a
    clear_value u
    rw [← hsy] at hf ⊢
    exact ⟨fun hm => .next (hex _ rfl) (offered_of_fenceMet hf hm), fun hm => .next (hex _ rfl) (notOffered_of_fence hf hm)⟩
  · exact .next (barrierArrival_none (if_pos h)) rfl
  · exact arrivalCounted h
  · exact arrivalDiscarded h
  · exact releaseLeaves hp hl hc ht hd
  · have hex : ∀ t, barrierRelease a bar.toNat u = t → exec (.barrierRelease p bar) s = .next t := fun t h => congrArg Host.Outcome.next ((if_pos hr).trans h)
    clear_value u
    obtain ⟨l, hl⟩ := barrierRelease_eq a bar.toNat u
    rw [hl] at hex
    have hsame : SameMem u { u with ctl := l } := .of_eq rfl rfl
    refine ⟨fun hf hp => ?_, fun hf => ?_⟩
    · obtain ⟨h1, h2, h3, h4, h5⟩ := releasedAt (v := { u with ctl := l }) hf hp
      exact .next (hex _ rfl) ⟨h1, h2, h3, hsame.trans h4, h5⟩
    · exact .next (hex _ (notReleasedAt (v := { u with ctl := l }) hf)) ⟨rfl, rfl, hsame, .of_eq rfl⟩

end Sys2Proof.Proofs
end

section
/-! PROOF. Claims are served, answered and retried (R162, R253 to R256). -/

namespace Sys2Proof.Proofs

open Sys2Proof Sys2Proof.Machine

/-! ### What the claim service leaves -/

/-- Asking arbiters counts bank waits alone. -/
theorem ctr_askAll (s : State) (l : List Ask) {c : Ctr} {b : Nat} (h : ∀ x, c.address b ≠ C.STR_CNT_BANKWAIT.address x) : (s.askAll l).2.ctr c b = s.ctr c b := by
  have hk : ∀ (s : State) k r n, (s.take k r n).ctr c b = s.ctr c b := fun s k r n => by
    have hr : ∀ m, (s.countRefusals k m).ctr c b = s.ctr c b := fun m => by
      unfold State.countRefusals
      split
      · exact State.ctr_count_ne _ _ (h _)
      · rfl
    unfold State.take
    dsimp only
    split
    · exact hr _
    · rfl
  unfold State.askAll
  split
  · exact foldl_keep (fun s => s.ctr c b) (fun s (x : Ask) => s.take x.key x.who x.n) (fun s x => hk s _ _ _) l s
  · exact foldl_keep (fun s => s.ctr c b) (fun s (x : Ask) => s.refuse x.key x.who) (fun s x => refuse_keeps (fun s => s.ctr c b) s (fun _ _ => rfl) _ _) _ s

theorem siteCtr_ne {i j : Nat} (hi : i < 2048) (hj : j < 2048) (h : i ≠ j) (a b : Nat) : Ctr.address ⟨none, i⟩ a ≠ Ctr.address ⟨none, j⟩ b := by
  simp only [Ctr.address]
  omega

theorem tarn_modTarn (s : State) (ta : Nat) (f : TarnX → TarnX) : ((s.modTarn ta f).site ta).tarn = f (s.site ta).tarn := by
  rw [State.modTarn, State.site_modSite_same]

section
variable {γ : Type} (f : State → γ) (ta : Nat) (hw : ∀ (s : State) n, f (s.count C.TRN_CNT_LOGWAIT ta n) = f s)
  (ht : ∀ (s : State) (l : TarnX → List ClaimMsg) (w : TarnX → Option Nat), f (s.modTarn ta (fun x => { x with waiting := l x, logWait := w x })) = f s)
include hw ht

/-- What waits and their count leave, a request that no longer waits leaves. -/
theorem dropClaim_keeps (s : State) (m : ClaimMsg) : f (s.dropClaim ta m) = f s := by
  have h1 : f (s.settleLog ta) = f s := by
    unfold State.settleLog
    split
    · exact (ht _ TarnX.waiting (fun _ => some s.cycles)).trans (hw ..)
    · rfl
  unfold State.dropClaim
  split
  · exact (ht _ (fun x => x.waiting.erase m) (fun x => if (x.waiting.erase m).isEmpty then none else x.logWait)).trans h1
  · rfl

end

/-- The reply to a request, sent to its site (R253). -/
def replied (s : State) (ta : Nat) (m : ClaimMsg) (v : BitVec 32) : State :=
  let s := (s.modTarn ta (fun x => { x with servedAt := some s.cycles })).count C.TRN_CNT_CLAIM ta
  s.sendCtl ta m.src.toNat (.reply m.src.toNat m.seq.toNat v m.part.toNat)

/-- A request that waits no longer is remembered with its answer. -/
def remembered (s : State) (ta : Nat) (m : ClaimMsg) (v : BitVec 32) : State :=
  (s.dropClaim ta m).modTarn ta (fun x => { x with reqs := aput x.reqs m.src.toNat (m.seq.toNat, v) })

section
variable {s u : State} {ta : Nat} {m : ClaimMsg} {path : List (Nat × Dir)}

theorem replied_answers (hp : u.ctlRoute ta m.src.toNat = some path) (hr : ∀ x, s.word .TRV_LINK_STATE x 0 = u.word .TRV_LINK_STATE x 0) (v : BitVec 32) :
    let t := replied s ta m v
    t.ctl.getLast? = some (.reply m.src.toNat m.seq.toNat v m.part.toNat) ∧ t.ctr C.TRN_CNT_CLAIM ta = (s.ctr C.TRN_CNT_CLAIM ta + 1) % 2 ^ 48 ∧
    (t.site ta).tarn = { (s.site ta).tarn with servedAt := some s.cycles } ∧ t.regs = s.regs ∧ mems t = mems s ∧
    ∀ i, i = 37 ∨ i = 38 → t.ctr ⟨none, i⟩ ta = s.ctr ⟨none, i⟩ ta := by
  intro t
  refine ⟨last_sendCtl (s := (s.modTarn ta (fun x => { x with servedAt := some s.cycles })).count C.TRN_CNT_CLAIM ta) hp hr _, ?_, ?_, ?_, ?_, fun i hi => ?_⟩
  · exact (ctr_sendCtl _ ta m.src.toNat _ (by decide) ta).trans (State.ctr_count_same ..)
  · refine (sendCtl_keeps (fun s => (s.site ta).tarn) (fun _ _ _ _ _ => rfl) (fun _ _ => rfl) (fun s b k g => ?_) (fun _ _ => rfl) _ _ _ _).trans ?_
    · exact part_modSite Site.tarn s b ta fun _ => rfl
    · exact tarn_modTarn s ta fun x => { x with servedAt := some s.cycles }
  · exact regs_sendCtl ..
  · exact (sendCtl_keeps mems (fun _ _ _ _ _ => rfl) (fun _ _ => rfl) (fun _ _ _ _ => by simp) (fun _ _ => rfl) _ _ _ _).trans rfl
  · refine (ctr_sendCtl _ ta m.src.toNat _ (by rcases hi with rfl | rfl <;> decide) ta).trans (State.ctr_count_ne _ _ ?_)
    exact siteCtr_ne (by omega) (by decide) (by omega) ta ta

theorem dropClaim_quiet (s : State) (ta : Nat) (m : ClaimMsg) : let t := s.dropClaim ta m
    t.regs = s.regs ∧ mems t = mems s ∧ t.cycles = s.cycles ∧ (t.site ta).tarn.clog = (s.site ta).tarn.clog ∧ (t.site ta).tarn.reqs = (s.site ta).tarn.reqs ∧
    ∀ i, i = 35 ∨ i = 37 ∨ i = 38 → t.ctr ⟨none, i⟩ ta = s.ctr ⟨none, i⟩ ta := by
  refine ⟨dropClaim_keeps State.regs ta (fun _ _ => rfl) (fun _ _ _ => rfl) s m, dropClaim_keeps mems ta (fun _ _ => rfl) (fun _ _ _ => by simp [State.modTarn]) s m,
    dropClaim_keeps State.cycles ta (fun _ _ => rfl) (fun _ _ _ => rfl) s m,
    dropClaim_keeps (fun s => (s.site ta).tarn.clog) ta (fun _ _ => rfl) (fun s l w => (congrArg TarnX.clog (tarn_modTarn s ta fun x => { x with waiting := l x, logWait := w x }) :)) s m,
    dropClaim_keeps (fun s => (s.site ta).tarn.reqs) ta (fun _ _ => rfl) (fun s l w => (congrArg TarnX.reqs (tarn_modTarn s ta fun x => { x with waiting := l x, logWait := w x }) :)) s m,
    fun i hi => dropClaim_keeps (fun s => s.ctr ⟨none, i⟩ ta) ta (fun s n => State.ctr_count_ne _ _ ?_) (fun _ _ _ => rfl) s m⟩
  exact siteCtr_ne (by omega) (by decide) (by omega) ta ta

theorem remembered_quiet (s : State) (ta : Nat) (m : ClaimMsg) (v : BitVec 32) : let t := remembered s ta m v
    t.regs = s.regs ∧ mems t = mems s ∧ t.cycles = s.cycles ∧ (t.site ta).tarn.clog = (s.site ta).tarn.clog ∧
    (t.site ta).tarn.reqs = aput (s.site ta).tarn.reqs m.src.toNat (m.seq.toNat, v) ∧ ∀ i, i = 35 ∨ i = 37 ∨ i = 38 → t.ctr ⟨none, i⟩ ta = s.ctr ⟨none, i⟩ ta := by
  obtain ⟨h1, h2, h3, h4, h5, h6⟩ := dropClaim_quiet s ta m
  unfold remembered
  generalize s.dropClaim ta m = w at h1 h2 h3 h4 h5 h6
  refine ⟨h1, Eq.trans (by simp [State.modTarn]) h2, h3, ?_, ?_, h6⟩
  · rw [tarn_modTarn]; exact h4
  · rw [tarn_modTarn, ← h5]

/-- What a request answered leaves (R253, R254): the answer under way and remembered, and the request counted. -/
structure Answered (s t : State) (ta : Nat) (m : ClaimMsg) (v : BitVec 32) : Prop where
  sent : t.ctl.getLast? = some (.reply m.src.toNat m.seq.toNat v m.part.toNat)
  counted : t.ctr C.TRN_CNT_CLAIM ta = (s.ctr C.TRN_CNT_CLAIM ta + 1) % 2 ^ 48
  served : (t.site ta).tarn.servedAt = some s.cycles
  known : aget (t.site ta).tarn.reqs m.src.toNat = some (m.seq.toNat, v)
  clog : (t.site ta).tarn.clog = (s.site ta).tarn.clog
  regs : t.regs = s.regs
  mems : mems t = mems s
  ctrs : ∀ i, i = 37 ∨ i = 38 → t.ctr ⟨none, i⟩ ta = s.ctr ⟨none, i⟩ ta

theorem newAnswered (hp : u.ctlRoute ta m.src.toNat = some path) (hr : ∀ x, s.word .TRV_LINK_STATE x 0 = u.word .TRV_LINK_STATE x 0) (v : BitVec 32) :
    Answered s (replied (remembered s ta m v) ta m v) ta m v := by
  obtain ⟨h1, h2, h3, h4, h5, h6⟩ := remembered_quiet s ta m v
  generalize remembered s ta m v = w at h1 h2 h3 h4 h5 h6
  obtain ⟨k1, k2, k3, k4, k5, k6⟩ := replied_answers (s := w) hp (fun x => (by rw [State.word, h1]; exact hr x)) v
  refine ⟨k1, ?_, ?_, ?_, ?_, k4.trans h1, k5.trans h2, fun i hi => (k6 i hi).trans (h6 i (by omega))⟩
  · rw [k2]
    exact congrArg (fun n => (n + 1) % 2 ^ 48) (h6 35 (.inl rfl))
  · rw [k3, ← h3]
  · rw [k3]
    exact (congrArg (fun l => aget l m.src.toNat) h5).trans (aget_aput_same ..)
  · rw [k3, ← h4]

theorem againAnswered (hp : u.ctlRoute ta m.src.toNat = some path) (hr : ∀ x, s.word .TRV_LINK_STATE x 0 = u.word .TRV_LINK_STATE x 0) {v : BitVec 32}
    (hk : aget (s.site ta).tarn.reqs m.src.toNat = some (m.seq.toNat, v)) : Answered s (replied ((s.dropClaim ta m).count C.TRN_CNT_RETRY ta) ta m v) ta m v := by
  obtain ⟨h1, h2, h3, h4, h5, h6⟩ := dropClaim_quiet s ta m
  generalize s.dropClaim ta m = w at h1 h2 h3 h4 h5 h6
  obtain ⟨k1, k2, k3, k4, k5, k6⟩ := replied_answers (s := w.count C.TRN_CNT_RETRY ta) hp
    (fun x => (by rw [State.word]; exact (congrArg (fun r => (aget r _).getD _) h1).trans (hr x))) v
  have hc : ∀ i, i = 35 ∨ i = 37 ∨ i = 38 → (w.count C.TRN_CNT_RETRY ta).ctr ⟨none, i⟩ ta = s.ctr ⟨none, i⟩ ta := fun i hi =>
    (State.ctr_count_ne _ _ (siteCtr_ne (by omega) (by decide) (by omega) ta ta)).trans (h6 i hi)
  refine ⟨k1, ?_, ?_, ?_, ?_, k4.trans h1, k5.trans h2, fun i hi => (k6 i hi).trans (hc i (by omega))⟩
  · rw [k2]
    exact congrArg (fun n => (n + 1) % 2 ^ 48) (hc 35 (.inl rfl))
  · rw [k3, ← h3]
    rfl
  · rw [k3, ← hk, ← h5]
    rfl
  · rw [k3, ← h4]
    rfl

end

/-! ### A request served -/

section
variable {u : State} {ta : Nat} {m : ClaimMsg}

/-- The state in which a granted request is served. -/
def askedPort (u : State) (ta : Nat) : State := (u.askAll [claimAsk ta]).2

theorem askedPort_quiet (u : State) (ta : Nat) : let w := askedPort u ta
    w.regs = u.regs ∧ mems w = mems u ∧ w.cycles = u.cycles ∧ w.sites = u.sites ∧ ∀ i, i = 35 ∨ i = 37 ∨ i = 38 → w.ctr ⟨none, i⟩ ta = u.ctr ⟨none, i⟩ ta :=
  ⟨askAll_keeps State.regs u (fun _ _ _ _ => rfl) (fun _ _ => rfl) _, askAll_keeps mems u (fun _ _ _ _ => rfl) (fun _ _ => rfl) _,
    askAll_keeps State.cycles u (fun _ _ _ _ => rfl) (fun _ _ => rfl) _, askAll_keeps State.sites u (fun _ _ _ _ => rfl) (fun _ _ => rfl) _,
    fun _ hi => ctr_askAll u _ fun x => siteCtr_ne (by omega) (by decide) (by omega) ta x⟩

/-- A control message is the request. -/
def isClaim (ta : Nat) (m : ClaimMsg) (c : CtlMsg) : Bool := match c with
  | .claim t x => t == tarnNo ta && x == m
  | _ => false

/-- What a request that the Tarn may serve now does: the three cases of R253 to R255. -/
theorem serveRequest_cases (ht : isTarn ta = true) (hp : u.partOf ta = some m.part.toNat) (hs : (u.site ta).tarn.servedAt ≠ some u.cycles)
    (ha : (u.askAll [claimAsk ta]).1 = true) : let w := askedPort u ta
    let known := (aget (w.site ta).tarn.reqs m.src.toNat).filter (fun r => r.1 == m.seq.toNat)
    (∀ r, known = some r → serveRequest ta m u = replied (((w.tookCtl (isClaim ta m)).dropClaim ta m).count C.TRN_CNT_RETRY ta) ta m r.2) ∧
    (known = none → serveClaim ta m w = none → serveRequest ta m u = (w.tookCtl (isClaim ta m)).holdClaim ta m) ∧
    (∀ v z, known = none → serveClaim ta m w = some (v, z) → serveRequest ta m u = replied (remembered (z.tookCtl (isClaim ta m)) ta m v) ta m v) := by
  intro w known
  have hx : u.crossPart ta m.part.toNat = false := bne_eq_false_iff_eq.mpr hp
  unfold serveRequest
  extract_lets src took reply
  have htook : ∀ s, took s = s.tookCtl (isClaim ta m) := fun _ => rfl
  have hreply : ∀ s v, reply s v = replied s ta m v := fun _ _ => rfl
  have hw : u.askAll [claimAsk ta] = (true, w) := Prod.ext ha rfl
  rw [ht, hx, if_neg (by decide), if_neg (by decide), if_neg hs, hw]
  dsimp only
  rw [if_neg (by decide)]
  clear_value took reply
  refine ⟨fun r h => ?_, fun h k => ?_, fun v z h k => ?_⟩
  · rw [show ((aget (w.site ta).tarn.reqs src).filter (fun r => r.1 == m.seq.toNat)) = some r from h, ← htook]
    exact hreply _ _
  · rw [show ((aget (w.site ta).tarn.reqs src).filter (fun r => r.1 == m.seq.toNat)) = none from h, k, ← htook]
  · rw [show ((aget (w.site ta).tarn.reqs src).filter (fun r => r.1 == m.seq.toNat)) = none from h, k, ← htook]
    exact hreply _ _

end

/-! ### What each kind of counter answers -/

section
variable {w : State} {ta : Nat} {m : ClaimMsg}

/-- A counter advances modulo 2^32 (R253). -/
def wcAdvanced (s : State) (ta k n : Nat) : State :=
  let s := s.wr F.TRN_WC_VALUE ta k (n % 2 ^ 32)
  if n ≥ 2 ^ 32 then s.noteFlag F.TRN_WC_CFG_WRAP ta k else s

theorem wcAdvanced_quiet (s : State) (ta k n : Nat) : let t := wcAdvanced s ta k n
    t.rd F.TRN_WC_VALUE ta k = n % 2 ^ 32 ∧ SameRegs s t (fun r b i => oneReg .TRN_WC ta k r b i ∨ oneReg .TRN_WC_CFG ta k r b i) ∧
    mems t = mems s ∧ t.sites = s.sites ∧ t.cycles = s.cycles ∧ t.counters = s.counters := by
  have hv : (s.wr F.TRN_WC_VALUE ta k (n % 2 ^ 32)).rd F.TRN_WC_VALUE ta k = n % 2 ^ 32 :=
    (State.rd_wr_self _ _ _ _ _ (by decide)).trans (Nat.mod_mod _ _)
  have hR : SameRegs s (s.wr F.TRN_WC_VALUE ta k (n % 2 ^ 32)) (fun r b i => oneReg .TRN_WC ta k r b i ∨ oneReg .TRN_WC_CFG ta k r b i) :=
    .wr (.refl s _) _ (.inl ⟨rfl, rfl, rfl⟩)
  have hq : mems (s.wr F.TRN_WC_VALUE ta k (n % 2 ^ 32)) = mems s ∧ (s.wr F.TRN_WC_VALUE ta k (n % 2 ^ 32)).sites = s.sites ∧
      (s.wr F.TRN_WC_VALUE ta k (n % 2 ^ 32)).cycles = s.cycles ∧ (s.wr F.TRN_WC_VALUE ta k (n % 2 ^ 32)).counters = s.counters := ⟨rfl, rfl, rfl, rfl⟩
  unfold wcAdvanced
  generalize s.wr F.TRN_WC_VALUE ta k (n % 2 ^ 32) = v at hv hR hq
  obtain ⟨q1, q2, q3, q4⟩ := hq
  by_cases h : n ≥ 2 ^ 32
  · dsimp only
    rw [if_pos h]
    refine ⟨?_, .note hR _ (.inr ⟨rfl, rfl, rfl⟩), q1, q2, q3, q4⟩
    rw [rd_noteFlag, State.rd_wr_other _ _ _ _ _ _ (by decide), hv]
  · dsimp only
    rw [if_neg h]
    exact ⟨hv, hR, q1, q2, q3, q4⟩

/-- The claim log of a Tarn is another. -/
def withLog (s : State) (ta : Nat) (l : List ClogE) : State := s.modSite ta (fun x => { x with tarn := { x.tarn with clog := l } })

theorem tarn_withLog (s : State) (ta : Nat) (l : List ClogE) : ((withLog s ta l).site ta).tarn = { (s.site ta).tarn with clog := l } := by
  unfold withLog
  rw [State.site_modSite_same]

theorem withLog_quiet (s : State) (ta : Nat) (l : List ClogE) : let t := withLog s ta l
    t.regs = s.regs ∧ mems t = mems s ∧ t.cycles = s.cycles ∧ t.counters = s.counters := ⟨rfl, by simp [withLog], rfl, rfl⟩

theorem serveClaim_plain (h : w.rd F.TRN_WC_CFG_MODE ta m.ctr.toNat = 0) : serveClaim ta m w =
    some (BitVec.ofNat 32 (w.rd F.TRN_WC_VALUE ta m.ctr.toNat), wcAdvanced w ta m.ctr.toNat (w.rd F.TRN_WC_VALUE ta m.ctr.toNat + m.inc.toNat)) := by
  unfold serveClaim
  extract_lets k mode v log setLog advance
  rw [show mode = 0 from h]
  rfl

theorem serveClaim_full (h : w.rd F.TRN_WC_CFG_MODE ta m.ctr.toNat = 1) (hl : 512 ≤ (w.site ta).tarn.clog.length) : serveClaim ta m w = none := by
  unfold serveClaim
  extract_lets k mode v log setLog advance
  rw [show mode = 1 from h]
  exact if_pos hl

theorem serveClaim_fresh (h : w.rd F.TRN_WC_CFG_MODE ta m.ctr.toNat = 1) (hl : (w.site ta).tarn.clog.length < 512)
    (hn : lowestReissue m.ctr.toNat (w.site ta).tarn.clog = none) : serveClaim ta m w =
    some (BitVec.ofNat 32 (w.rd F.TRN_WC_VALUE ta m.ctr.toNat), wcAdvanced (withLog w ta (List.append (w.site ta).tarn.clog
      [⟨m.ctr.toNat, w.rd F.TRN_WC_VALUE ta m.ctr.toNat, m.inc.toNat, m.src.toNat, m.seq.toNat, .claimed⟩])) ta m.ctr.toNat
        (w.rd F.TRN_WC_VALUE ta m.ctr.toNat + m.inc.toNat)) := by
  unfold serveClaim
  extract_lets k mode v log setLog advance
  rw [show mode = 1 from h]
  refine (if_neg (by show ¬ (w.site ta).tarn.clog.length ≥ 512; omega)).trans ?_
  rw [show lowestReissue k log = none from hn]
  rfl

theorem serveClaim_reissue (h : w.rd F.TRN_WC_CFG_MODE ta m.ctr.toNat = 1) (hl : (w.site ta).tarn.clog.length < 512) {e : ClogE}
    (hn : lowestReissue m.ctr.toNat (w.site ta).tarn.clog = some e) : ∃ back, serveClaim ta m w = some (BitVec.ofNat 32 e.first,
      (withLog w ta (List.append back [⟨m.ctr.toNat, e.first, e.inc, m.src.toNat, m.seq.toNat, .claimed⟩])).count C.TRN_CNT_REISSUE ta) := by
  unfold serveClaim
  extract_lets k mode v log setLog advance
  rw [show mode = 1 from h]
  refine ⟨(w.site ta).tarn.clog.map (fun x => if x == e then { x with st := .claimed } else x), (if_neg (by show ¬ (w.site ta).tarn.clog.length ≥ 512; omega)).trans ?_⟩
  rw [show lowestReissue k log = some e from hn]
  rfl

theorem mem_of_dropFirst {α : Type} {p : α → Bool} {l : List α} {x : α} (h : x ∈ dropFirst p l) : x ∈ l := by
  induction l with
  | nil => exact h
  | cons y l ih =>
    rw [dropFirst] at h
    split at h
    · exact .tail _ h
    · rcases List.mem_cons.mp h with rfl | h
      · exact .head _
      · exact .tail _ (ih h)

/-- The entry that a commit of the request finds. -/
def claimedBy (w : State) (ta : Nat) (m : ClaimMsg) : Option ClogE :=
  (w.site ta).tarn.clog.find? (fun e => e.ctr == w.rd F.TRN_WC_CFG_PAIR ta m.ctr.toNat && e.req == m.src.toNat && e.st == .claimed)

theorem serveClaim_noCommit (h : w.rd F.TRN_WC_CFG_MODE ta m.ctr.toNat = 2) (hn : claimedBy w ta m = none) :
    serveClaim ta m w = some (0xFFFF#32, w.count C.TRN_CNT_DUPCOMMIT ta) := by
  unfold serveClaim
  extract_lets k mode v log setLog advance pair
  rw [show mode = 2 from h]
  show (match claimedBy w ta m with | none => _ | some e => _) = _
  rw [hn]

/-- The range of an entry that is alone in its range leaves the log once its only claim is committed (R256). -/
theorem committedLog {l : List ClogE} {e : ClogE} (h : ∀ z ∈ l, sameRange e z = true → z = e) :
    let l' := l.map (fun x => if x == e then { x with st := .committed } else x)
    (l'.filter (sameRange e)).all (fun x => x.st == .committed) = true ∧ l'.filter (fun x => !sameRange e x) = l.filter (fun x => !sameRange e x) := by
  intro l'
  have hse : sameRange e { e with st := .committed } = true := by simp [sameRange]
  have hee : sameRange e e = true := by simp [sameRange]
  refine ⟨?_, ?_⟩
  · simp only [List.all_eq_true, List.mem_filter, l', List.mem_map]
    rintro x ⟨⟨z, hz, rfl⟩, hx⟩
    by_cases hze : z = e
    · subst hze; simp
    · rw [if_neg (by simpa using hze)] at hx
      exact absurd (h z hz hx) hze
  · clear h
    simp only [l']
    induction l with
    | nil => rfl
    | cons z l ih =>
      simp only [beq_iff_eq] at ih ⊢
      by_cases hze : z = e
      · subst hze
        simp [hse, hee, ih]
      · simp [hze, ih, List.filter_cons]

theorem serveClaim_commit (h : w.rd F.TRN_WC_CFG_MODE ta m.ctr.toNat = 2) {e : ClogE} (hn : claimedBy w ta m = some e)
    (hu : ∀ z ∈ (w.site ta).tarn.clog, sameRange e z = true → z = e) : serveClaim ta m w =
    some (BitVec.ofNat 32 (e.first % 65536), withLog w ta ((w.site ta).tarn.clog.filter (fun z => !sameRange e z))) := by
  have hst : e.st = .claimed := by
    have := List.find?_some hn
    simp only [Bool.and_eq_true, beq_iff_eq] at this
    exact this.2
  have htw : (((dropFirst (fun x => x == e) (w.site ta).tarn.clog).filter (sameRange e)).any (fun x => x.st == .committed)) = false := by
    rw [List.any_eq_false]
    intro x hx
    obtain ⟨hx, hr⟩ := List.mem_filter.mp hx
    rw [hu x (mem_of_dropFirst hx) hr, hst]
    decide
  obtain ⟨c1, c2⟩ := committedLog hu
  unfold serveClaim
  extract_lets k mode v log setLog advance pair
  rw [show mode = 2 from h]
  show (match claimedBy w ta m with | none => _ | some e => _) = _
  rw [hn]
  dsimp only
  refine (if_neg (by rw [htw]; decide)).trans ?_
  exact congrArg (fun l => some (BitVec.ofNat 32 (e.first % 65536), withLog w ta l)) ((if_pos c1).trans c2)

end

theorem holdClaim_waits (s : State) (ta : Nat) (m : ClaimMsg) : let t := s.holdClaim ta m
    m ∈ (t.site ta).tarn.waiting ∧ (t.site ta).tarn.clog = (s.site ta).tarn.clog ∧ t.regs = s.regs ∧ mems t = mems s := by
  intro t
  have ht : (t.site ta).tarn = { (s.site ta).tarn with
      waiting := if (s.site ta).tarn.waiting.contains m then (s.site ta).tarn.waiting else List.append (s.site ta).tarn.waiting [m],
      logWait := (s.site ta).tarn.logWait.orElse (fun _ => some s.cycles) } := tarn_modTarn ..
  refine ⟨?_, ?_, rfl, by simp [t, State.holdClaim, State.modTarn]⟩
  · rw [ht]
    dsimp only
    split
    · exact List.contains_iff_mem.mp (by assumption)
    · exact List.mem_append_right _ (List.mem_singleton_self m)
  · rw [ht]

theorem claimsAreServed : ClaimsAreServed := by
  intro s p m path ta k u v x R answered hr ht hp hroute
  have hex : ∀ t, serveRequest ta m u = t → exec (.claimRequest p m) s = .next t := fun t h => congrArg Host.Outcome.next ((if_pos hr).trans h)
  have hx : x = (u.site ta).tarn := congrArg Site.tarn (State.at_site s p.t.toNat ta).symm
  have hv : v = u.rd F.TRN_WC_VALUE ta k := rfl
  clear_value u x v
  subst hx hv
  refine ⟨fun hs => .next (hex _ ?_) rfl, fun hs ha => ?_⟩
  · unfold serveRequest
    have hc : u.crossPart ta m.part.toNat = false := bne_eq_false_iff_eq.mpr hp
    extract_lets src took reply
    rw [ht, hc, if_neg (by decide), if_neg (by decide), if_pos hs]
  obtain ⟨w1, w2, w3, w4, w5⟩ := askedPort_quiet u ta
  obtain ⟨c1, c2, c3⟩ := serveRequest_cases ht hp hs ha
  generalize askedPort u ta = w at w1 w2 w3 w4 w5 c1 c2 c3
  have hsite : w.site ta = u.site ta := State.site_congr w4 ta
  have hrd : ∀ f a i, w.rd f a i = u.rd f a i := rd_of_regs w1
  rw [hsite] at c1 c2 c3
  have hlink : ∀ z : State, SameRegs u z R → ∀ b, z.word .TRV_LINK_STATE b 0 = u.word .TRV_LINK_STATE b 0 := fun z h b =>
    h _ _ _ (by rintro (⟨h, -⟩ | ⟨h, -⟩) <;> cases h)
  have hfin : ∀ (z : State) {t : State} {a : BitVec 32} {g : CtlMsg → Bool}, Answered (z.tookCtl g) t ta m a → z.cycles = u.cycles →
      z.ctr C.TRN_CNT_CLAIM ta = u.ctr C.TRN_CNT_CLAIM ta → answered a t := fun z t a g h h1 h2 =>
    ⟨h.sent, h.counted.trans (congrArg (fun n => (n + 1) % 2 ^ 48) h2), h.served.trans (congrArg some h1), h.known⟩
  refine ⟨fun a hk => ?_, fun hk => ?_⟩
  · have h := againAnswered (s := w.tookCtl (isClaim ta m)) hroute (fun x => hlink w (.of_eq w1) x) ((congrArg (fun y : Site => aget y.tarn.reqs m.src.toNat) hsite).trans hk)
    refine .next (hex _ (c1 (m.seq.toNat, a) ?_)) ⟨hfin w h w3 (w5 35 (.inl rfl)), h.clog.trans (congrArg (fun y : Site => y.tarn.clog) hsite),
      .of_mems (h.mems.trans w2), .of_eq (h.regs.trans w1)⟩
    rw [hk]
    simp
  have hans : ∀ (z : State) (a : BitVec 32), serveClaim ta m w = some (a, z) → SameRegs u z R → z.cycles = u.cycles → mems z = mems u →
      z.ctr C.TRN_CNT_CLAIM ta = u.ctr C.TRN_CNT_CLAIM ta → ∃ t, exec (.claimRequest p m) s = .next t ∧ answered a t ∧ (t.site ta).tarn.clog = (z.site ta).tarn.clog ∧
        t.regs = z.regs ∧ SameMem u t ∧ ∀ i, i = 37 ∨ i = 38 → t.ctr ⟨none, i⟩ ta = z.ctr ⟨none, i⟩ ta := fun z a h h1 h2 h3 h4 => by
    have hA := newAnswered (s := z.tookCtl (isClaim ta m)) hroute (fun b => hlink z h1 b) a
    exact ⟨_, hex _ (c3 a z hk h), hfin z hA h2 h4, hA.clog, hA.regs, .of_mems (hA.mems.trans h3), hA.ctrs⟩
  have hctr : ∀ (z y : State) c, z.counters = y.counters → z.ctr c ta = y.ctr c ta := fun z y c h => by rw [State.ctr, h, State.ctr]
  refine ⟨fun hm => ?_, fun hm hl => ⟨fun hn => ?_, fun e hn => ?_⟩, fun hm hl => ?_, fun hm => ?_⟩
  · have hsv := serveClaim_plain (w := w) (ta := ta) (m := m) ((hrd ..).trans hm)
    obtain ⟨q1, q2, q3, q4, q5, q6⟩ := wcAdvanced_quiet w ta k (w.rd F.TRN_WC_VALUE ta k + m.inc.toNat)
    obtain ⟨t, h, ha, hc, hrg, hme, -⟩ := hans _ _ hsv ((SameRegs.of_eq w1).trans q2) (q5.trans w3) (q3.trans w2) ((hctr _ _ _ q6).trans (w5 35 (.inl rfl)))
    rw [hrd] at ha
    refine ⟨t, h, ha, (rd_of_regs hrg ..).trans (q1.trans (by rw [hrd])), hc.trans ?_, hme, (SameRegs.of_eq w1).trans (q2.trans (.of_eq hrg))⟩
    exact congrArg (fun y : Site => y.tarn.clog) ((State.site_congr q4 ta).trans hsite)
  · have hsv := serveClaim_fresh (w := w) (ta := ta) (m := m) ((hrd ..).trans hm) (by rw [hsite]; exact hl) (by rw [hsite]; exact hn)
    rw [hsite] at hsv
    have hlog := tarn_withLog w ta (List.append (u.site ta).tarn.clog [⟨m.ctr.toNat, w.rd F.TRN_WC_VALUE ta m.ctr.toNat, m.inc.toNat, m.src.toNat, m.seq.toNat, .claimed⟩])
    obtain ⟨y1, y2, y3, y4⟩ := withLog_quiet w ta (List.append (u.site ta).tarn.clog [⟨m.ctr.toNat, w.rd F.TRN_WC_VALUE ta m.ctr.toNat, m.inc.toNat, m.src.toNat, m.seq.toNat, .claimed⟩])
    generalize withLog w ta _ = y at hsv hlog y1 y2 y3 y4
    obtain ⟨q1, q2, q3, q4, q5, q6⟩ := wcAdvanced_quiet y ta k (w.rd F.TRN_WC_VALUE ta k + m.inc.toNat)
    obtain ⟨t, h, ha, hc, hrg, hme, -⟩ := hans _ _ hsv ((SameRegs.of_eq (y1.trans w1)).trans q2) (q5.trans (y3.trans w3)) (q3.trans (y2.trans w2))
      ((hctr _ _ _ (q6.trans y4)).trans (w5 35 (.inl rfl)))
    rw [hrd] at ha
    refine ⟨t, h, ha, (rd_of_regs hrg ..).trans (q1.trans (by rw [hrd])), hc.trans ?_, hme, (SameRegs.of_eq (y1.trans w1)).trans (q2.trans (.of_eq hrg))⟩
    refine (congrArg (fun y : Site => y.tarn.clog) (State.site_congr q4 ta)).trans ((congrArg TarnX.clog hlog).trans ?_)
    rw [hrd]
  · obtain ⟨back, hsv⟩ := serveClaim_reissue (w := w) (ta := ta) (m := m) ((hrd ..).trans hm) (by rw [hsite]; exact hl) (by rw [hsite]; exact hn)
    have hlog := tarn_withLog w ta (List.append back [⟨m.ctr.toNat, e.first, e.inc, m.src.toNat, m.seq.toNat, .claimed⟩])
    obtain ⟨y1, y2, y3, y4⟩ := withLog_quiet w ta (List.append back [⟨m.ctr.toNat, e.first, e.inc, m.src.toNat, m.seq.toNat, .claimed⟩])
    generalize withLog w ta _ = y at hsv hlog y1 y2 y3 y4
    obtain ⟨t, h, ha, hc, hrg, hme, hi⟩ := hans _ _ hsv (SameRegs.of_eq (y1.trans w1)) (y3.trans w3) (y2.trans w2)
      ((State.ctr_count_ne _ _ (siteCtr_ne (by decide) (by decide) (by decide) ta ta)).trans ((hctr _ _ _ y4).trans (w5 35 (.inl rfl))))
    refine ⟨t, h, ha, ?_, ?_, hme, .of_eq (hrg.trans (y1.trans w1))⟩
    · rw [hc]
      exact (congrArg (fun x : TarnX => x.clog.getLast?) hlog).trans List.getLast?_concat
    · refine (hi 37 (.inl rfl)).trans ((State.ctr_count_same ..).trans ?_)
      exact congrArg (fun n => (n + 1) % 2 ^ 48) ((hctr _ _ _ y4).trans (w5 37 (.inr (.inl rfl))))
  · obtain ⟨h1, h2, h3, h4⟩ := holdClaim_waits (w.tookCtl (isClaim ta m)) ta m
    refine .next (hex _ (c2 hk (serveClaim_full ((hrd ..).trans hm) (by rw [hsite]; exact hl)))) ⟨h1, h2.trans ?_, .of_mems (h4.trans w2), .of_eq (h3.trans w1)⟩
    exact congrArg (fun y : Site => y.tarn.clog) hsite
  · refine ⟨fun hn => ?_, fun e he hu => ?_⟩
    · have hsv := serveClaim_noCommit (w := w) (ta := ta) (m := m) ((hrd ..).trans hm) (by rw [claimedBy, hsite, hrd]; exact hn)
      obtain ⟨t, h, ha, hc, hrg, hme, hi⟩ := hans _ _ hsv (SameRegs.of_eq w1) w3 w2 ((State.ctr_count_ne _ _ (siteCtr_ne (by decide) (by decide) (by decide) ta ta)).trans (w5 35 (.inl rfl)))
      refine ⟨t, h, ha, hc.trans (congrArg (fun y : Site => y.tarn.clog) hsite), ?_, hme, .of_eq (hrg.trans w1)⟩
      refine (hi 38 (.inr rfl)).trans ((State.ctr_count_same ..).trans ?_)
      exact congrArg (fun n => (n + 1) % 2 ^ 48) (w5 38 (.inr (.inr rfl)))
    · have hsv := serveClaim_commit (w := w) (ta := ta) (m := m) ((hrd ..).trans hm) (by rw [claimedBy, hsite, hrd]; exact he) (by rw [hsite]; exact hu)
      obtain ⟨t, h, ha, hc, hrg, hme, hi⟩ := hans _ _ hsv (SameRegs.of_eq w1) w3 (Eq.trans (by simp [withLog]) w2) (w5 35 (.inl rfl))
      refine ⟨t, h, ha, ?_, hme, .of_eq (hrg.trans w1)⟩
      rw [hc, tarn_withLog, hsite]

/-! ### The claimant -/

theorem regs_eventTo (s : State) (n k : Nat) (b : List Nat) : (s.eventTo n k b).regs = s.regs := by
  have h : ∀ c : Bool, (if c then s.fresh.2 else s).regs = s.regs := fun c => by cases c <;> rfl
  unfold State.eventTo
  dsimp only
  split
  · exact h _
  · exact h _

/-- Poison met at a site of a section stands in its partition's record (R347). -/
theorem poisonSite_recorded {s : State} {a e : Nat} (h : s.sectOf a = some e) (k x : Nat) : let t := s.poisonSite a k x
    t.rd F.HUT_POISON_KIND 0 (e / 32) = k % 8 ∧ t.rd F.HUT_POISON_SITE 0 (e / 32) = a % 256 ∧ SameRegs s t (oneReg .HUT_POISON 0 (e / 32)) := by
  intro t
  have hr : t.regs = (s.logPoison (e / 32) k a x).regs := by
    have ht : t = s.poisonPart (e / 32) (s.jobOf e) k a x := by
      show s.poisonSite a k x = _
      unfold State.poisonSite
      rw [h]
    rw [ht]
    unfold State.poisonPart State.event
    exact foldl_keep State.regs (fun s n => s.eventTo n 3 _) (fun s n => regs_eventTo s n 3 _) _ _
  have hw : (s.logPoison (e / 32) k a x).word .HUT_POISON 0 (e / 32) =
      setFields [(F.HUT_POISON_KIND, k), (F.HUT_POISON_SITE, a), (F.HUT_POISON_ADDR, x)] (s.word .HUT_POISON 0 (e / 32)) := State.word_setWord_same ..
  have hrd : ∀ f : Fld, f.reg = .HUT_POISON → t.rd f 0 (e / 32) =
      fieldGet f (setFields [(F.HUT_POISON_KIND, k), (F.HUT_POISON_SITE, a), (F.HUT_POISON_ADDR, x)] (s.word .HUT_POISON 0 (e / 32))) := fun f hf => by
    rw [rd_of_regs hr, State.rd, hf, hw]
  refine ⟨?_, ?_, (SameRegs.note (.refl s _) _ ⟨rfl, rfl, rfl⟩).trans (.of_eq hr)⟩
  · rw [hrd _ rfl]
    simp only [setFields, List.foldl_cons, List.foldl_nil]
    rw [fieldGet_fieldSet_other _ _ (by decide), fieldGet_fieldSet_other _ _ (by decide), fieldGet_fieldSet_self _ _ _ (by decide)]
    rfl
  · rw [hrd _ rfl]
    simp only [setFields, List.foldl_cons, List.foldl_nil]
    rw [fieldGet_fieldSet_other _ _ (by decide), fieldGet_fieldSet_self _ _ _ (by decide)]
    rfl

/-- A control message is the reply. -/
def isReply (a : Nat) (sq : BitVec 16) (v : BitVec 32) (c : CtlMsg) : Bool := match c with
  | .reply b n w _ => b == a && n == sq.toNat && w == v
  | _ => false

/-- The reply of partition k, taken from those under way, reaches its claim (R162, R214, R332). -/
def replyReaches (s : State) (a : Nat) (sq : BitVec 16) (v : BitVec 32) (poison : Bool) (part : Nat) : State :=
  let saving := ((s.sectOf a).bind s.sectX?).any (fun x => x.phase == .saving)
  if s.crossPart a part then s.count C.TRV_CNT_XPART a
  else if saving then s
  else match (s.seq a).claim with
    | some c =>
      if c.seq = sq.toNat ∧ c.reply = none then
        let s := s.modSeq a (fun q => { q with claim := some { c with reply := some v, poisoned := poison } })
        if poison then s.poisonSite a 3 0 else s
      else s
    | none => s

theorem claimReply_head {u : State} {a part : Nat} {sq : BitVec 16} {v : BitVec 32} {rest : List CtlMsg} (hc : u.ctl = .reply a sq.toNat v part :: rest) (poison : Bool) :
    claimReply a sq v poison u = replyReaches { u with ctl := rest } a sq v poison part := by
  have hm : isReply a sq v (.reply a sq.toNat v part) = true := by simp [isReply]
  have hd : u.tookCtl (isReply a sq v) = { u with ctl := rest } := by
    unfold State.tookCtl
    rw [hc, dropFirst, if_pos hm]
  have hf : u.ctl.find? (isReply a sq v) = some (.reply a sq.toNat v part) := by rw [hc]; exact List.find?_cons_of_pos hm
  unfold claimReply
  extract_lets mine part' w saving
  have hp : part' = part := by
    change (match u.ctl.find? (isReply a sq v) with
      | some (.reply _ _ _ p) => p
      | _ => u.partNo a) = part
    rw [hf]
  have hw : w = { u with ctl := rest } := hd
  clear_value part'
  subst hp
  exact congrArg (fun w => replyReaches w a sq v poison part') hw

section
variable {u : State} {a : Nat} {c : ClaimWait} {sq : BitVec 16} {part : Nat}

/-- A reply waits for its CLAIM. -/
def replyHeld (s : State) (a : Nat) (c : ClaimWait) (v : BitVec 32) (poison : Bool) : State :=
  s.modSeq a (fun q => { q with claim := some { c with reply := some v, poisoned := poison } })

theorem replyHeld_quiet (s : State) (a : Nat) (c : ClaimWait) (v : BitVec 32) (poison : Bool) : let t := replyHeld s a c v poison
    (t.seq a).claim = some { c with reply := some v, poisoned := poison } ∧ (t.seq a).pc = (s.seq a).pc ∧ t.ctl = s.ctl ∧ mems t = mems s ∧ t.regs = s.regs ∧
    OtherSites s t a ∧ t.sectOf a = s.sectOf a :=
  ⟨congrArg SeqX.claim (State.seq_modSeq_same ..), (congrArg SeqX.pc (State.seq_modSeq_same s a fun q => { q with claim := some { c with reply := some v, poisoned := poison } }) :), rfl, by simp [replyHeld], rfl, OtherSites.modSite (.of_eq rfl) _,
    part_modSite Site.sect _ a a fun _ => rfl⟩

/-- The reply of the site's own partition that no save stops answers the claim. -/
theorem replyReaches_answers (hp : u.partOf a = some part) (hs : ((u.sectOf a).bind u.sectX?).any (fun x => x.phase == .saving) = false)
    (hc : (u.seq a).claim = some c) (hq : c.seq = sq.toNat) (hr : c.reply = none) (v : BitVec 32) (poison : Bool) :
    replyReaches u a sq v poison part = 
      if poison then (replyHeld u a c v poison).poisonSite a 3 0 else replyHeld u a c v poison := by
  have hx : u.crossPart a part = false := bne_eq_false_iff_eq.mpr hp
  unfold replyReaches
  extract_lets saving
  rw [hx, show saving = false from hs, if_neg (by decide), if_neg (by decide), hc]
  exact if_pos ⟨hq, hr⟩

theorem replyReaches_saving (hp : u.partOf a = some part) (hs : ((u.sectOf a).bind u.sectX?).any (fun x => x.phase == .saving) = true) (v : BitVec 32) (poison : Bool) :
    replyReaches u a sq v poison part = u := by
  have hx : u.crossPart a part = false := bne_eq_false_iff_eq.mpr hp
  unfold replyReaches
  extract_lets saving
  rw [hx, show saving = true from hs, if_neg (by decide), if_pos rfl]

end

theorem claimsAreAnsweredOrRetried : ClaimsAreAnsweredOrRetried := by
  intro s p c v sq rest a u saving hc hn
  refine ⟨fun hr hq part hp hl => ?_, fun h0 hb => ?_⟩
  · have hex : ∀ b t, claimReply a sq v b u = t → exec (.claimReply p sq v b) s = .next t := fun b t h => congrArg Host.Outcome.next ((if_pos hr).trans h)
    have hcu : (u.seq a).claim = some c := (congrArg SeqX.claim (State.at_seq s p.t.toNat a)).trans hc
    have hpc : (u.seq a).pc = (s.seq a).pc := congrArg SeqX.pc (State.at_seq s p.t.toNat a)
    have hsv : saving = ((u.sectOf a).bind u.sectX?).any (fun x => x.phase == .saving) := rfl
    have hhead := claimReply_head hl
    clear_value u saving
    have hm : SameMem u { u with ctl := rest } := .of_eq rfl rfl
    have hans := fun (h : saving = false) => replyReaches_answers (u := { u with ctl := rest }) (sq := sq) hp (hsv.symm.trans h) hcu hq hn v
    refine ⟨fun h => ?_, fun e h he => ?_, fun h => ?_⟩
    · have ht := hans h false
      rw [if_neg (by decide)] at ht
      obtain ⟨k1, k2, k3, k4, k5, k6, -⟩ := replyHeld_quiet { u with ctl := rest } a c v false
      exact .next (hex false _ ((hhead false).trans ht)) ⟨k1, k2.trans hpc, k3, ⟨.of_mems k4, .of_eq k5⟩, k6⟩
    · have ht := hans h true
      rw [if_pos rfl] at ht
      obtain ⟨k1, -, -, k4, k5, -, k7⟩ := replyHeld_quiet { u with ctl := rest } a c v true
      generalize replyHeld { u with ctl := rest } a c v true = w at ht k1 k4 k5 k7
      obtain ⟨r1, r2, r3⟩ := poisonSite_recorded (k7.trans he) 3 0
      refine .next (hex true _ ((hhead true).trans ht)) ⟨?_, r1, r2.trans (Nat.mod_eq_of_lt p.site.isLt), .of_mems (Eq.trans (by simp) k4), (SameRegs.of_eq k5).trans r3⟩
      exact (congrArg SeqX.claim (State.seq_congr (sites_poisonSite ..) a)).trans k1
    · exact .next (hex false _ ((hhead false).trans (replyReaches_saving (u := { u with ctl := rest }) hp (hsv.symm.trans h) v false))) ⟨hcu, rfl, hm, .of_eq rfl⟩
  · have ht : s.claimRetry a = (s.modSeq a (fun q => { q with claim := some { c with boundaries := 0 } })).modSync a (fun y => { y with claimOut := true }) := by
      unfold State.claimRetry
      rw [hc]
      exact if_pos ⟨h0, hn, hb⟩
    refine .next (congrArg Host.Outcome.next ht) ⟨?_, ?_, ⟨.of_mems (by simp), .of_eq rfl⟩, OtherSites.modSite (OtherSites.modSite (.of_eq rfl) _) _⟩
    · exact congrArg SyncX.claimOut (State.sync_modSync_same ..)
    · rw [State.seq_modSync]
      exact congrArg SeqX.claim (State.seq_modSeq_same ..)

/-- Settles O26: the Tarn's service of a claim by the kind of its counter, and the claimant's reply and retry. -/
theorem workIsClaimed : Obligations.WorkIsClaimed := ⟨claimsAreServed, claimsAreAnsweredOrRetried⟩

end Sys2Proof.Proofs
end

section
/-! PROOF. Frames of external memory: reads, re-reads, writes, patrol scrubbing (R263 to R278). -/

namespace Sys2Proof.Proofs

open Sys2Proof Sys2Proof.Machine

/-! ### What a frame's read depends on and what it leaves -/

/-- What a read of a frame finds. -/
def frameView (s : State) : (List (Nat × Byte) × List (Nat × BitVec 2) × List (Nat × BitVec 8)) × List (Nat × (BitVec 32 × Byte)) := (mems s, s.memc.tags)

section
variable {s t : State} (h : frameView t = frameView s) (st : Nat) (o : FrameObs)
include h

theorem frameView_parts : t.mem = s.mem ∧ t.poison = s.poison ∧ t.synd = s.synd ∧ t.memc.tags = s.memc.tags := by
  unfold frameView mems at h
  simp only [Prod.mk.injEq] at h
  obtain ⟨⟨h1, h2, h3⟩, h4⟩ := h
  exact ⟨h1, h2, h3, h4⟩

theorem tagState_congr : t.tagState st o = s.tagState st o ∧ t.tagWrong st o = s.tagWrong st o := by
  obtain ⟨-, -, -, ht⟩ := frameView_parts h
  have hc : t.tagCell st = s.tagCell st := by rw [State.tagCell, ht, State.tagCell]
  exact ⟨by rw [State.tagState, hc, State.tagState], by rw [State.tagWrong, hc, State.tagWrong]⟩

theorem frameSynd_congr (w : Nat) : t.frameSynd st w o = s.frameSynd st w o := by
  obtain ⟨-, -, hs, -⟩ := frameView_parts h
  simp only [State.frameSynd, hs]

theorem frameFails_congr : t.frameFails st o = s.frameFails st o := by
  obtain ⟨h1, h2⟩ := tagState_congr h st o
  simp only [State.frameFails, h1, h2, frameSynd_congr h st o]

theorem frameWords_congr : t.frameWords st o = s.frameWords st o := by
  obtain ⟨h1, h2⟩ := tagState_congr h st o
  obtain ⟨hm, hp, -, -⟩ := frameView_parts h
  have hw : ∀ x, t.word64 x = s.word64 x := fun x => word64_congr x fun i _ => by rw [State.byte, hm, State.byte]
  have hq : ∀ w, t.pois w = s.pois w := fun w => by rw [State.pois, hp, State.pois]
  simp only [State.frameWords, h1, h2, frameSynd_congr h st o, hw, hq]

theorem frameCorrections_congr : t.frameCorrections st o = s.frameCorrections st o := by
  obtain ⟨h1, -⟩ := tagState_congr h st o
  simp only [State.frameCorrections, h1, frameSynd_congr h st o]

end

/-- Counters of one group's block differ by their index. -/
theorem memCtr_ne {i j : Nat} (h : i ≠ j) (k : Nat) : Ctr.address ⟨some 3, i⟩ k ≠ Ctr.address ⟨some 3, j⟩ k := by
  simp only [Ctr.address]
  omega

/-- A counter of the memory groups' block (Table 09-7). -/
def groupCtr (c : Ctr) : Prop := c.block = some 3 ∧ c.idx < 16

theorem countFrame_keeps {γ : Type} (f : State → γ) (s : State) (k st : Nat) (o : FrameObs)
    (hc : ∀ (s : State) c n, groupCtr c → f (s.count c (16 * k) n) = f s) : f (s.countFrame k st o) = f s := by
  unfold State.countFrame
  extract_lets s1
  have h1 : f s1 = f s := hc _ _ _ ⟨rfl, by decide⟩
  split
  · exact (hc _ _ _ ⟨rfl, by decide⟩).trans h1
  · exact h1

theorem ctr_countFrame {i : Nat} (h : i ≠ 2 ∧ i ≠ 5) (s : State) (k st : Nat) (o : FrameObs) : (s.countFrame k st o).ctr ⟨some 3, i⟩ (16 * k) = s.ctr ⟨some 3, i⟩ (16 * k) := by
  unfold State.countFrame
  extract_lets s1
  have h1 : s1.ctr ⟨some 3, i⟩ (16 * k) = s.ctr ⟨some 3, i⟩ (16 * k) := State.ctr_count_ne _ _ (memCtr_ne h.1 _)
  split
  · exact (State.ctr_count_ne _ _ (memCtr_ne h.2 _)).trans h1
  · exact h1

/-- A frame that does not fail is counted by its corrections alone (R263). -/
theorem countFrame_clean {s : State} {st : Nat} {o : FrameObs} (h : s.frameFails st o = false) (k : Nat) :
    s.countFrame k st o = s.count C.MEM_CNT_CE (16 * k) (s.frameCorrections st o) := by
  have hw : s.tagWrong st o = false := by
    simp only [State.frameFails, Bool.or_eq_false_iff] at h
    exact h.1.2
  refine if_neg fun e => ?_
  have : s.tagWrong st o = true := e.2
  rw [hw] at this
  exact Bool.false_ne_true this

theorem view_countFrame (s : State) (k st : Nat) (o : FrameObs) : frameView (s.countFrame k st o) = frameView s := countFrame_keeps frameView s k st o (fun _ _ _ _ => rfl)

/-! ### First reads -/

section
variable {s : State} {x : Addr} {o : FrameObs} {ch off : Nat}

theorem frameRead_served (hx : inExt x.toNat = true) (hl : s.locate x.toNat = .ok ch off) (hr : s.reforming (groupOf x.toNat) = false) :
    exec (.frameRead x o) s = .next (if s.chanServes ch (x.toNat / 256) then s.readFrame (x.toNat / 256) ch o else s) := by
  refine congrArg Host.Outcome.next ?_
  rw [hx, hl, if_neg (by decide)]
  exact if_neg (by rw [hr]; decide)

theorem readFrame_delivers {st : Nat} (h : s.frameFails st o = false) : let t := s.readFrame st ch o
    Delivered t st (s.frameWords st o) ∧ t.ctr C.MEM_CNT_CE (16 * chanGroup ch) = (s.ctr C.MEM_CNT_CE (16 * chanGroup ch) + s.frameCorrections st o) % 2 ^ 48 ∧
    Frame s t noReg := by
  have hv := view_countFrame s (chanGroup ch) st o
  have ht : s.readFrame st ch o = (s.countFrame (chanGroup ch) st o).deliver st (s.frameWords st o) := by
    unfold State.readFrame
    extract_lets k u
    rw [frameFails_congr hv st o, if_neg (by rw [h]; decide), frameWords_congr hv st o]
    rfl
  rw [ht, countFrame_clean h]
  exact ⟨rfl, State.ctr_count_same .., .of_eq rfl rfl, .of_eq rfl⟩

theorem readFrame_rereads {st : Nat} (h : s.frameFails st o = true) (hn : s.rd F.MEM_RETIRE_CFG_RETRY ≠ 0) : let t := s.readFrame st ch o
    t.memc.rereads = List.append s.memc.rereads [⟨256 * st, s.rd F.MEM_RETIRE_CFG_RETRY, false⟩] ∧ t.memc.delivered = s.memc.delivered ∧ Frame s t noReg := by
  intro t
  have hv := view_countFrame s (chanGroup ch) st o
  have hk : ∀ {γ : Type} (f : State → γ), (∀ (s : State) c b n, f (s.count c b n) = f s) → f (s.countFrame (chanGroup ch) st o) = f s := fun f hf => countFrame_keeps f _ _ _ _ (fun s c n _ => hf s c _ n)
  have hm := hk State.memc fun _ _ _ _ => rfl
  have hr := hk State.regs fun _ _ _ _ => rfl
  have hq := hk mems fun _ _ _ _ => rfl
  have ht : t = (let u := s.countFrame (chanGroup ch) st o
      { u with memc := { u.memc with rereads := List.append u.memc.rereads [⟨256 * st, u.rd F.MEM_RETIRE_CFG_RETRY, false⟩] } } : State) := by
    show s.readFrame st ch o = _
    unfold State.readFrame
    extract_lets k u n
    rw [frameFails_congr hv st o, if_pos h]
    exact if_neg (by show u.rd F.MEM_RETIRE_CFG_RETRY ≠ 0; rwa [rd_of_regs hr])
  generalize s.countFrame (chanGroup ch) st o = u at ht hm hr hq
  rw [ht]
  refine ⟨?_, (congrArg MemX.delivered hm :), .of_mems hq, .of_eq hr⟩
  dsimp only
  rw [hm, rd_of_regs hr]

/-- A request that meets no channel is delivered poisoned and counted (R275). -/
theorem frameRead_unbacked (hx : inExt x.toNat = true) (hl : s.locate x.toNat = .unbacked) : Done (.frameRead x o) s (fun t =>
    (∃ l, Delivered t (x.toNat / 256) l ∧ l.length = 32 ∧ ∀ w ∈ l, w.2 = true) ∧
    t.ctr C.MEM_CNT_UNBACKED (16 * groupOf x.toNat) = (s.ctr C.MEM_CNT_UNBACKED (16 * groupOf x.toNat) + 1) % 2 ^ 48 ∧ Frame s t noReg) := by
  have hg : groupOf (256 * (x.toNat / 256)) = groupOf x.toNat := by
    unfold groupOf groupSize
    omega
  have hst : 256 * (x.toNat / 256) % groupSize / 256 = x.toNat % groupSize / 256 := by
    unfold groupSize
    omega
  have hserve : s.extServe (256 * (x.toNat / 256)) = 1 := by
    have hu : s.locate (256 * (x.toNat / 256)) = .unbacked := by
      unfold State.locate at hl ⊢
      dsimp only at hl ⊢
      rw [hg, hst]
      split at hl
      · rw [if_pos (by assumption)]
      · split at hl <;> cases hl
    unfold State.extServe
    rw [hu]
    split <;> rfl
  have hex : exec (.frameRead x o) s = .next (s.deliverPoison (x.toNat / 256)) := by
    refine congrArg Host.Outcome.next ?_
    rw [hx, hl, if_neg (by decide)]
    rfl
  refine .next hex ?_
  have hcnt : s.countUnserved (256 * (x.toNat / 256)) = s.count C.MEM_CNT_UNBACKED (16 * groupOf x.toNat) := by
    unfold State.countUnserved
    rw [if_pos hserve, hg]
  have hfresh : ∀ n (v : State), (v.poisonWords n).1.length = n ∧ (v.poisonWords n).2 = { v with free := (v.poisonWords n).2.free } := by
    intro n
    induction n with
    | zero => exact fun v => ⟨rfl, rfl⟩
    | succ n ih =>
      intro v
      obtain ⟨h1, h2⟩ := ih v.fresh.2
      exact ⟨congrArg (· + 1) h1, h2⟩
  obtain ⟨f1, f2⟩ := hfresh 32 (s.count C.MEM_CNT_UNBACKED (16 * groupOf x.toNat))
  unfold State.deliverPoison
  rw [hcnt]
  generalize (s.count C.MEM_CNT_UNBACKED (16 * groupOf x.toNat)).poisonWords 32 = y at f1 f2
  obtain ⟨l, v⟩ := y
  dsimp only at f1 f2 ⊢
  refine ⟨⟨_, rfl, by rw [List.length_map, f1], fun w hw => ?_⟩, ?_, ?_, ?_⟩
  · obtain ⟨z, -, rfl⟩ := List.mem_map.mp hw
    rfl
  · rw [f2]
    exact State.ctr_count_same ..
  · rw [f2]
    exact .of_eq rfl rfl
  · rw [f2]
    exact .of_eq rfl

end

/-! ### Re-reads -/

/-- The frame's re-reads leave the queue. -/
def noRereads (s : State) (st : Nat) : State :=
  { s with memc := { s.memc with rereads := s.memc.rereads.filter (fun y => y.addr != 256 * st) } }

/-- A frame that read well on a re-read is counted and handed over, or written back (R272, R273). -/
def rereadDone (s : State) (st k : Nat) (patrol : Bool) (o : FrameObs) : State :=
  let s := s.count C.MEM_CNT_RETRYOK (16 * k)
  if patrol then s.scrubFix k st o else s.deliver st (s.frameWords st o)

/-- A frame waits for another re-read. -/
def rereadAgain (s : State) (r : Reread) : State := { s with memc := { s.memc with rereads := List.append s.memc.rereads [r] } }

/-- A re-read of a frame that waits for one, its corrections counted (R273). -/
def rereadFrom (s : State) (st ch k : Nat) (r : Reread) (o : FrameObs) : State :=
  if s.frameFails st o then
    if r.left ≤ 1 then (noRereads s st).frameUe st ch o r.patrol else rereadAgain (noRereads s st) ⟨256 * st, r.left - 1, r.patrol⟩
  else rereadDone (noRereads s st) st k r.patrol o

/-- A re-read of the frame that waits for one (R273). -/
def rereadRun (s : State) (st ch : Nat) (r : Reread) (o : FrameObs) : State := rereadFrom (s.countFrame (chanGroup ch) st o) st ch (chanGroup ch) r o

/-- The frame is read, and its re-reads leave the queue. -/
def rereadTaken (s : State) (st k : Nat) (o : FrameObs) : State := noRereads (s.countFrame k st o) st

section
variable {s : State} {x : Addr} {o : FrameObs} {r : Reread} {ch off : Nat}

theorem rereadTaken_quiet (s : State) (st k : Nat) (o : FrameObs) : let t := rereadTaken s st k o
    frameView t = frameView s ∧ t.regs = s.regs ∧ t.memc.delivered = s.memc.delivered ∧ t.memc.rereads = s.memc.rereads.filter (fun y => y.addr != 256 * st) ∧
    ∀ i, i ≠ 2 ∧ i ≠ 5 → t.ctr ⟨some 3, i⟩ (16 * k) = s.ctr ⟨some 3, i⟩ (16 * k) := by
  have hk : ∀ {γ : Type} (f : State → γ), (∀ (s : State) c b n, f (s.count c b n) = f s) → f (s.countFrame k st o) = f s := fun f hf => countFrame_keeps f _ _ _ _ (fun s c n _ => hf s c _ n)
  have hm := hk State.memc fun _ _ _ _ => rfl
  have hr := hk State.regs fun _ _ _ _ => rfl
  have hv := hk frameView fun _ _ _ _ => rfl
  have hc := fun i (hi : i ≠ 2 ∧ i ≠ 5) => ctr_countFrame hi s k st o
  unfold rereadTaken noRereads
  generalize s.countFrame k st o = u at hm hr hv hc
  exact ⟨hv, hr, (congrArg MemX.delivered hm :), congrArg (fun m : MemX => m.rereads.filter (fun y => y.addr != 256 * st)) hm, hc⟩

theorem frameReread_eq {st : Nat} (hst : stripeOf x.toNat = st) (hf : s.memc.rereads.find? (fun r => r.addr == 256 * st) = some r)
    (hl : s.locate (256 * st) = .ok ch off) : exec (.frameReread x o) s = .next (rereadRun s st ch r o) := by
  have hex : exec (.frameReread x o) s = execFrameReread x o s := rfl
  rw [hex]
  unfold execFrameReread
  extract_lets st'
  have e : st' = st := hst
  clear_value st'
  subst e
  rw [hf, hl]
  rfl

/-- It reads well, fails for the last time, or waits again. -/
theorem rereadRun_cases (s : State) (st ch : Nat) (r : Reread) (o : FrameObs) : let v := rereadTaken s st (chanGroup ch) o
    (s.frameFails st o = false → rereadRun s st ch r o = rereadDone v st (chanGroup ch) r.patrol o) ∧
    (s.frameFails st o = true → r.left ≤ 1 → rereadRun s st ch r o = v.frameUe st ch o r.patrol) ∧
    (s.frameFails st o = true → 2 ≤ r.left → rereadRun s st ch r o = rereadAgain v ⟨256 * st, r.left - 1, r.patrol⟩) := by
  have hfc : (s.countFrame (chanGroup ch) st o).frameFails st o = s.frameFails st o := frameFails_congr (view_countFrame s (chanGroup ch) st o) st o
  unfold rereadRun rereadTaken
  generalize s.countFrame (chanGroup ch) st o = u at hfc ⊢
  refine ⟨fun h => ?_, fun h h1 => ?_, fun h h1 => ?_⟩
  · exact if_neg (show ¬ u.frameFails st o = true by rw [hfc, h]; decide)
  · exact (if_pos (show u.frameFails st o = true by rw [hfc, h])).trans (if_pos h1)
  · exact (if_pos (show u.frameFails st o = true by rw [hfc, h])).trans (if_neg (show ¬ r.left ≤ 1 by omega))

end

/-! ### Words written back and words poisoned -/

/-- Words written from word n of a stripe on stand there, and nothing else changes. -/
theorem putWords_from (x : Nat) (l : List (Word × Bool)) (n : Nat) (s : State) (hc : mcanon 0 s.mem = true) :
    let t := (l.zip (List.range' n l.length)).foldl (fun s p => s.putWord (x + 8 * p.2) p.1.1 p.1.2) s
    mcanon 0 t.mem = true ∧ (∀ i (h : i < l.length), t.word64 (x + 8 * (n + i)) = l[i].1) ∧
    (∀ z, z < x + 8 * n ∨ x + 8 * (n + l.length) ≤ z → t.byte z = s.byte z) := by
  induction l generalizing n s with
  | nil => exact ⟨hc, fun i h => absurd h (Nat.not_lt_zero i), fun _ _ => rfl⟩
  | cons w l ih =>
    have hstep : ((w :: l).zip (List.range' n (w :: l).length)).foldl (fun s p => s.putWord (x + 8 * p.2) p.1.1 p.1.2) s =
        (l.zip (List.range' (n + 1) l.length)).foldl (fun s p => s.putWord (x + 8 * p.2) p.1.1 p.1.2) (s.putWord (x + 8 * n) w.1 w.2) := by
      rw [List.length_cons, List.range'_succ, List.zip_cons_cons, List.foldl_cons]
    rw [hstep]
    have hw := word64_putWord s (x + 8 * n) w.1 w.2 hc
    have hout : ∀ z, z < x + 8 * n ∨ x + 8 * n + 8 ≤ z → (s.putWord (x + 8 * n) w.1 w.2).byte z = s.byte z := fun z h => byte_putWord_out s _ _ _ z h
    have hc' := mcanon_putWord s (x + 8 * n) w.1 w.2 hc
    generalize s.putWord (x + 8 * n) w.1 w.2 = v at hw hout hc' ⊢
    obtain ⟨h1, h2, h3⟩ := ih (n + 1) v hc'
    refine ⟨h1, fun i h => ?_, fun z hz => ?_⟩
    · cases i with
      | zero =>
        refine (word64_congr _ fun j hj => h3 _ (.inl ?_)).trans hw
        omega
      | succ i =>
        have := h2 i (Nat.lt_of_succ_lt_succ h)
        rwa [Nat.add_assoc, Nat.add_comm 1] at this
    · rw [List.length_cons] at hz
      rw [h3 z (by omega), hout z (by omega)]

theorem length_frameWords (s : State) (st : Nat) (o : FrameObs) : (s.frameWords st o).length = 32 := by simp [State.frameWords]

theorem byte_withMemc (s : State) (m : MemX) (z : Nat) : ({ s with memc := m } : State).byte z = s.byte z := rfl

theorem writeBackFrame_words {s : State} (hc : mcanon 0 s.mem = true) (st : Nat) (o : FrameObs) : let t := s.writeBackFrame st o
    (∀ i, i < 32 → t.word64 (256 * st + 8 * i) = ((s.frameWords st o).getD i (0, false)).1) ∧
    (∀ z, z < 256 * st ∨ 256 * st + 256 ≤ z → t.byte z = s.byte z) := by
  have hl := length_frameWords s st o
  obtain ⟨-, h2, h3⟩ := putWords_from (256 * st) (s.frameWords st o) 0 s hc
  have hr : List.range' 0 (s.frameWords st o).length = List.range 32 := by rw [hl, List.range_eq_range']
  rw [hr] at h2 h3
  intro t
  have hb : ∀ z, t.byte z = (((s.frameWords st o).zip (List.range 32)).foldl (fun s p => s.putWord (256 * st + 8 * p.2) p.1.1 p.1.2) s).byte z := fun z => by
    show (s.writeBackFrame st o).byte z = _
    unfold State.writeBackFrame
    exact byte_withMemc _ _ z
  clear_value t
  generalize s.frameWords st o = l at hl h2 h3 hb ⊢
  refine ⟨fun i hi => ?_, fun z hz => ?_⟩
  · have := h2 i (by omega)
    rw [Nat.zero_add] at this
    rw [List.getD_eq_getElem _ _ (by omega), ← this]
    exact word64_congr _ fun j _ => hb _
  · exact (hb z).trans (h3 z (by omega))

/-- A write-back leaves what no byte, poison bit or tag holds. -/
theorem writeBackFrame_keeps {γ : Type} (f : State → γ) (h : ∀ (s : State) m p y, f { s with mem := m, poison := p, synd := y } = f s)
    (ht : ∀ (s : State) l, f { s with memc := { s.memc with tags := l } } = f s) (s : State) (st : Nat) (o : FrameObs) : f (s.writeBackFrame st o) = f s := by
  unfold State.writeBackFrame
  exact (ht ..).trans (foldl_keep f _ (fun s p => putWord_keeps f (fun s w b => h s _ _ _) (fun s n b => h s _ _ _) _ _ _ _) _ _)

/-- A frame with corrections that patrol scrubbing read goes back and is counted (R272). -/
theorem scrubFix_corrects {s : State} {st : Nat} {o : FrameObs} (h : 0 < s.frameCorrections st o) (k : Nat) :
    s.scrubFix k st o = (s.writeBackFrame st o).count C.MEM_CNT_SCRUBFIX (16 * k) := if_pos h

/-- Words poisoned stay poisoned. -/
theorem pois_setPoisAll (x : Nat) (l : List Nat) (s : State) (hc : mcanon 0 s.poison = true) : let t := l.foldl (fun s w => s.setPois (x + w) true) s
    ∀ w, w ∈ l ∨ s.pois (x + w) = 3 → t.pois (x + w) = 3 := by
  induction l generalizing s with
  | nil => exact fun w h => h.resolve_left List.not_mem_nil
  | cons n l ih =>
    intro t w h
    have hp : (s.setPois (x + n) true).poison = mput 0 s.poison (x + n) 3 := rfl
    have hc' : mcanon 0 (s.setPois (x + n) true).poison = true := by
      rw [hp]
      exact mcanon_mput 0 _ _ _ hc
    refine ih (s.setPois (x + n) true) hc' w ?_
    rw [State.pois, hp]
    by_cases e : w = n
    · subst e
      exact .inr (mget_mput_same 0 _ _ _ hc)
    · rcases h with h | h
      · rcases List.mem_cons.mp h with h | h
        · exact absurd h e
        · exact .inl h
      · exact .inr ((mget_mput_ne 0 _ _ (by omega)).trans h)

/-- A frame lost: delivered with poison, counted, logged, its unreadable words poisoned (R273). -/
theorem frameUe_poisons {s : State} (hc : mcanon 0 s.poison = true) (st ch : Nat) (o : FrameObs) (patrol : Bool) : let t := s.frameUe st ch o patrol
    (patrol = false → t.memc.delivered = some (st, s.frameWords st o)) ∧
    t.ctr C.MEM_CNT_UE (16 * chanGroup ch) = (s.ctr C.MEM_CNT_UE (16 * chanGroup ch) + 1) % 2 ^ 48 ∧
    (∀ w, w < 32 → s.frameSynd st w o ≠ 0 → correctable (s.frameSynd st w o) = false → t.pois (32 * st + w) ≠ 0) ∧
    (∀ z, t.byte z = s.byte z) ∧ SameRegs s t (oneReg .MEM_ERR_LOG 0 0) := by
  unfold State.frameUe
  extract_lets k l all kind frame bad s1 s2 now m3 s3 s4 t
  have h1 : s1.regs = s.regs ∧ s1.mem = s.mem ∧ s1.poison = s.poison ∧ s1.counters = s.counters ∧ (patrol = false → s1.memc.delivered = some (st, l)) := by
    cases patrol
    · exact ⟨rfl, rfl, rfl, rfl, fun _ => rfl⟩
    · exact ⟨rfl, rfl, rfl, rfl, fun h => by cases h⟩
  have hbad : ∀ w, w < 32 → s.frameSynd st w o ≠ 0 → correctable (s.frameSynd st w o) = false → w ∈ bad := fun w hw h0 h1 =>
    List.mem_filter.mpr ⟨List.mem_range.mpr hw, by simpa [h1] using Or.inr h0⟩
  clear_value bad s1
  obtain ⟨r1, m1, p1, c1, d1⟩ := h1
  have hk : ∀ {γ : Type} (f : State → γ), (∀ s w b, f (State.setPois s w b) = f s) → f s2 = f s1 := fun f hf => foldl_keep f _ (fun s w => hf s _ _) _ _
  have r2 := (hk State.regs fun _ _ _ => rfl).trans r1
  have m2 := (hk State.mem fun _ _ _ => rfl).trans m1
  have c2 := (hk State.counters fun _ _ _ => rfl).trans c1
  have d2 := hk State.memc fun _ _ _ => rfl
  have p2 := pois_setPoisAll (32 * st) bad s1 (p1 ▸ hc)
  change ∀ w, _ → s2.pois (32 * st + w) = 3 at p2
  clear_value s2
  refine ⟨fun h => ?_, ?_, fun w hw h0 hcorr => ?_, fun z => ?_, ?_⟩
  · refine Eq.trans ?_ (d1 h)
    rw [← d2]
    rfl
  · refine (State.ctr_count_same s3 C.MEM_CNT_UE (16 * k) 1).trans ?_
    have hctr : s3.ctr C.MEM_CNT_UE (16 * k) = s.ctr C.MEM_CNT_UE (16 * k) := by
      rw [State.ctr, State.ctr, ← c2]
    rw [hctr]
  · have : t.pois (32 * st + w) = 3 := p2 w (.inl (hbad w hw h0 hcorr))
    rw [this]
    decide
  · have : t.mem = s2.mem := rfl
    rw [State.byte, this, m2, State.byte]
  · exact SameRegs.note (.of_eq r2) _ ⟨rfl, rfl, rfl⟩

theorem scrubFix_keeps {γ : Type} (f : State → γ) (h : ∀ (s : State) m p y, f { s with mem := m, poison := p, synd := y } = f s)
    (ht : ∀ (s : State) l, f { s with memc := { s.memc with tags := l } } = f s) {k : Nat}
    (hc : ∀ s : State, f (s.count C.MEM_CNT_SCRUBFIX (16 * k)) = f s) (s : State) (st : Nat) (o : FrameObs) : f (s.scrubFix k st o) = f s := by
  unfold State.scrubFix
  split
  · exact (hc ..).trans (writeBackFrame_keeps f h ht s st o)
  · rfl

theorem framesAreReread {s : State} {x : Addr} {o : FrameObs} {st ch off : Nat} {r : Reread} (hst : stripeOf x.toNat = st)
    (hf : s.memc.rereads.find? (fun r => r.addr == 256 * st) = some r) (hl : s.locate (256 * st) = .ok ch off) :
    (s.frameFails st o = false → Done (.frameReread x o) s (fun t =>
      (r.patrol = false → Delivered t st (s.frameWords st o) ∧ SameMem s t) ∧
      (r.patrol = true → 0 < s.frameCorrections st o →
        t.ctr C.MEM_CNT_SCRUBFIX (16 * chanGroup ch) = (s.ctr C.MEM_CNT_SCRUBFIX (16 * chanGroup ch) + 1) % 2 ^ 48 ∧
        t.memc.delivered = s.memc.delivered) ∧
      t.ctr C.MEM_CNT_RETRYOK (16 * chanGroup ch) = (s.ctr C.MEM_CNT_RETRYOK (16 * chanGroup ch) + 1) % 2 ^ 48 ∧
      (∀ y ∈ t.memc.rereads, y.addr ≠ 256 * st) ∧ SameRegs s t noReg)) ∧
    (s.frameFails st o = true → r.left ≤ 1 → mcanon 0 s.poison = true → Done (.frameReread x o) s (fun t =>
      (r.patrol = false → Delivered t st (s.frameWords st o)) ∧
      t.ctr C.MEM_CNT_UE (16 * chanGroup ch) = (s.ctr C.MEM_CNT_UE (16 * chanGroup ch) + 1) % 2 ^ 48 ∧
      (∀ w, w < 32 → s.frameSynd st w o ≠ 0 → correctable (s.frameSynd st w o) = false → t.pois (32 * st + w) ≠ 0) ∧
      (∀ z, t.byte z = s.byte z) ∧ SameRegs s t (oneReg .MEM_ERR_LOG 0 0))) ∧
    (s.frameFails st o = true → 2 ≤ r.left → Done (.frameReread x o) s (fun t =>
      ⟨256 * st, r.left - 1, r.patrol⟩ ∈ t.memc.rereads ∧ Frame s t noReg)) := by
  have hex := frameReread_eq (o := o) hst hf hl
  obtain ⟨c1, c2, c3⟩ := rereadRun_cases s st ch r o
  obtain ⟨q1, q2, q3, q4, q5⟩ := rereadTaken_quiet s st (chanGroup ch) o
  generalize rereadTaken s st (chanGroup ch) o = v at c1 c2 c3 q1 q2 q3 q4 q5
  have hmems : mems v = mems s := congrArg Prod.fst q1
  have hq4 : ∀ y ∈ v.memc.rereads, y.addr ≠ 256 * st := fun y hy => by
    rw [q4] at hy
    simpa using (List.mem_filter.mp hy).2
  refine ⟨fun h => ?_, fun h h1 hcan => ?_, fun h h1 => ?_⟩
  · rw [c1 h] at hex
    refine .next hex ?_
    clear c1 c2 c3 hex
    generalize hw : v.count C.MEM_CNT_RETRYOK (16 * chanGroup ch) = w
    have hview : frameView w = frameView s := by rw [← hw, ← q1]; rfl
    have hok : w.ctr C.MEM_CNT_RETRYOK (16 * chanGroup ch) = (s.ctr C.MEM_CNT_RETRYOK (16 * chanGroup ch) + 1) % 2 ^ 48 := by
      rw [← hw, State.ctr_count_same]
      exact congrArg (fun n => (n + 1) % 2 ^ 48) (q5 3 (by decide))
    have hfix : w.ctr C.MEM_CNT_SCRUBFIX (16 * chanGroup ch) = s.ctr C.MEM_CNT_SCRUBFIX (16 * chanGroup ch) := by
      rw [← hw]
      exact (State.ctr_count_ne _ _ (memCtr_ne (by decide) _)).trans (q5 7 (by decide))
    have hmemc : w.memc = v.memc := by rw [← hw]; rfl
    have hregs : w.regs = s.regs := by rw [← hw]; exact q2
    have hdone : rereadDone v st (chanGroup ch) r.patrol o = if r.patrol then w.scrubFix (chanGroup ch) st o else w.deliver st (s.frameWords st o) := by
      rw [← frameWords_congr hview, ← hw]
      rfl
    rw [hdone]
    cases hp : r.patrol with
    | false =>
      rw [if_neg (by decide)]
      refine ⟨fun _ => ⟨rfl, .of_mems (congrArg Prod.fst hview)⟩, fun h => (by cases h), hok, ?_, .of_eq hregs⟩
      exact fun y hy => hq4 y (hmemc ▸ hy)
    | true =>
      rw [if_pos rfl]
      refine ⟨fun h => (by cases h), fun _ hcor => ?_, ?_, fun y hy => ?_, .of_eq ?_⟩
      · rw [scrubFix_corrects (by rwa [frameCorrections_congr hview])]
        refine ⟨?_, ?_⟩
        · rw [State.ctr_count_same, writeBackFrame_keeps (fun s => s.ctr C.MEM_CNT_SCRUBFIX (16 * chanGroup ch)) (fun _ _ _ _ => rfl) (fun _ _ => rfl), hfix]
        · refine (writeBackFrame_keeps (fun s => s.memc.delivered) (fun _ _ _ _ => rfl) (fun _ _ => rfl) w st o).trans ?_
          rw [hmemc, q3]
      · exact (scrubFix_keeps (fun s => s.ctr C.MEM_CNT_RETRYOK (16 * chanGroup ch)) (fun _ _ _ _ => rfl) (fun _ _ => rfl)
          (fun _ => State.ctr_count_ne _ _ (memCtr_ne (by decide) _)) w st o).trans hok
      · have hre : (w.scrubFix (chanGroup ch) st o).memc.rereads = w.memc.rereads :=
          scrubFix_keeps (fun s => s.memc.rereads) (fun _ _ _ _ => rfl) (fun _ _ => rfl) (fun _ => rfl) w st o
        rw [hre, hmemc] at hy
        exact hq4 y hy
      · exact (scrubFix_keeps State.regs (fun _ _ _ _ => rfl) (fun _ _ => rfl) (fun _ => rfl) w st o).trans hregs
  · rw [c2 h h1] at hex
    have hpv : mcanon 0 v.poison = true := by rw [(frameView_parts q1).2.1]; exact hcan
    obtain ⟨u1, u2, u3, u4, u5⟩ := frameUe_poisons hpv st ch o r.patrol
    rw [frameWords_congr q1] at u1
    refine .next hex ⟨u1, u2.trans ?_, fun w hw h0 hcorr => u3 w hw ?_ ?_, fun z => (u4 z).trans ?_, (SameRegs.of_eq q2).trans u5⟩
    · exact congrArg (fun n => (n + 1) % 2 ^ 48) (q5 4 (by decide))
    · rwa [frameSynd_congr q1]
    · rwa [frameSynd_congr q1]
    · rw [State.byte, (frameView_parts q1).1, State.byte]
  · rw [c3 h h1] at hex
    exact .next hex ⟨List.mem_append_right _ (List.mem_singleton_self _), .of_mems hmems, .of_eq q2⟩

theorem framesAreRead : FramesAreRead := by
  intro s x o st
  refine ⟨fun ch off hx hl hr => ⟨fun h => ?_, fun h hf => ?_, fun h hf hn => ?_⟩, fun hx hl => ?_, fun ch off r hf hl => framesAreReread rfl hf hl⟩
  · have hex := frameRead_served (o := o) hx hl hr
    rw [h, if_neg (by decide)] at hex
    exact .next hex rfl
  · have hex := frameRead_served (o := o) hx hl hr
    rw [h, if_pos rfl] at hex
    exact .next hex (readFrame_delivers hf)
  · have hex := frameRead_served (o := o) hx hl hr
    rw [h, if_pos rfl] at hex
    exact .next hex (readFrame_rereads hf hn)
  · exact frameRead_unbacked hx hl

/-! ### Writes -/

/-- A word with its poison, as a write carries it. -/
def carried (p : Word × Bool) : RawWord := ⟨p.1, 0, if p.2 then 3 else 0⟩

/-- Poison of words written from an aligned address on (R264). -/
theorem putRawWords_poison (x : Nat) (hx : x % 8 = 0) (l : List RawWord) (s : State) (hc : mcanon 0 s.poison = true) : let t := s.putRawWords x l
    (∀ i (h : i < l.length), t.pois ((x + 8 * i) / 8) = l[i].poison) ∧ (∀ w, w < x / 8 ∨ x / 8 + l.length ≤ w → t.pois w = s.pois w) := by
  induction l generalizing s x with
  | nil => exact ⟨fun i h => absurd h (Nat.not_lt_zero i), fun _ _ => rfl⟩
  | cons w l ih =>
    rw [putRawWords_cons]
    have hq : (marked (s.putRaw x (leBytes w.data.toNat 8)) x w).poison = mput 0 s.poison (x / 8) w.poison :=
      congrArg (fun p => mput 0 p (x / 8) w.poison) (putRaw_keeps State.poison (fun _ _ _ => rfl) s x _)
    generalize marked (s.putRaw x (leBytes w.data.toNat 8)) x w = v at hq ⊢
    obtain ⟨h1, h2⟩ := ih (x + 8) (by omega) v (by rw [hq]; exact mcanon_mput 0 _ _ _ hc)
    have hdiv : (x + 8) / 8 = x / 8 + 1 := by omega
    rw [hdiv] at h2
    refine ⟨fun i h => ?_, fun z hz => ?_⟩
    · cases i with
      | zero =>
        rw [h2 _ (by omega), State.pois, hq, show (x + 8 * 0) / 8 = x / 8 by omega]
        exact mget_mput_same 0 _ _ _ hc
      | succ i =>
        have := h1 i (Nat.lt_of_succ_lt_succ h)
        rwa [show x + 8 + 8 * i = x + 8 * (i + 1) by omega] at this
    · rw [List.length_cons] at hz
      rw [h2 z (by omega), State.pois, hq]
      exact mget_mput_ne 0 _ _ (by omega)

/-- The stripe written is no longer the one delivered, and a whole one has a good tag again (R264). -/
def stripeWritten (s : State) (x : Nat) (l : List RawWord) : State :=
  let st := stripeOf x
  let s : State := { s with memc := { s.memc with delivered := s.memc.delivered.filter (fun d => d.1 != st) } }
  if l.length = 32 then { s with memc := s.memc.goodTag st } else s

theorem stripeWritten_quiet (s : State) (x : Nat) (l : List RawWord) : let t := stripeWritten s x l
    t.mem = s.mem ∧ t.poison = s.poison ∧ t.regs = s.regs := by
  unfold stripeWritten
  dsimp only
  split <;> exact ⟨rfl, rfl, rfl⟩

/-- How a request is served is a matter of the registers (R266). -/
theorem extServe_congr {s t : State} (h : t.regs = s.regs) (x : Nat) : t.extServe x = s.extServe x := by
  have hr : ∀ f a i, t.rd f a i = s.rd f a i := rd_of_regs h
  have h1 : ∀ k, t.liveChans k = s.liveChans k := fun k => hr ..
  have h2 : ∀ k i, t.mapEntry k i = s.mapEntry k i := fun k i => congrArg (· % 64) (hr ..)
  have h3 : ∀ c, t.chanState c = s.chanState c := fun c => hr ..
  have h4 : ∀ k, t.reforming k = s.reforming k := fun k => congrArg (· == 2) (hr ..)
  have hl : t.locate x = s.locate x := by
    unfold State.locate
    dsimp only
    rw [h1, h2, h3]
  unfold State.extServe
  rw [h4, hl]

theorem extWrite_eq (s : State) (x : Nat) (l : List RawWord) : s.extWrite x l =
    (let v := s.count C.MEM_CNT_WRBYTES (16 * groupOf x) (8 * l.length)
    if v.extServe x ≠ 0 then v.countUnserved x
    else (stripeWritten v x l).putRawWords x (l.map (fun w => if w.poison = 0 then w else { w with synd := 0, poison := 3 }))) := by
  unfold State.extWrite stripeWritten
  with_reducible rfl

theorem extWrite_served {s : State} {x : Nat} (hs : s.extServe x = 0) (l : List RawWord) : s.extWrite x l =
    (stripeWritten (s.count C.MEM_CNT_WRBYTES (16 * groupOf x) (8 * l.length)) x l).putRawWords x
      (l.map (fun w => if w.poison = 0 then w else { w with synd := 0, poison := 3 })) := by
  have hs' : (s.count C.MEM_CNT_WRBYTES (16 * groupOf x) (8 * l.length)).extServe x = 0 := (extServe_congr (State.count_regs ..) x).trans hs
  rw [extWrite_eq]
  dsimp only
  rw [if_neg (not_not.mpr hs')]

/-- A write that is served stores its words (R264). -/
theorem extWrite_stores {s : State} {x : Nat} {data : List (Word × Bool)} (hm : mcanon 0 s.mem = true) (hp : mcanon 0 s.poison = true)
    (hx : x % 8 = 0) (hs : s.extServe x = 0) : let t := s.extWrite x (data.map carried)
    (∀ i (h : i < data.length), t.word64 (x + 8 * i) = data[i].1 ∧ t.poisonedAt (x + 8 * i) = data[i].2) ∧
    (∀ z, z < x ∨ x + 8 * data.length ≤ z → t.byte z = s.byte z ∧ t.poisonedAt z = s.poisonedAt z) ∧ SameRegs s t noReg := by
  have hmark : (data.map carried).map (fun w => if w.poison = 0 then w else { w with synd := 0, poison := 3 }) = data.map carried := by
    rw [List.map_map]
    refine List.map_congr_left fun p _ => ?_
    obtain ⟨w, b⟩ := p
    cases b <;> rfl
  have ht := extWrite_served hs (data.map carried)
  rw [hmark] at ht
  rw [ht]
  obtain ⟨q1, q2, q3⟩ := stripeWritten_quiet (s.count C.MEM_CNT_WRBYTES (16 * groupOf x) (8 * (data.map carried).length)) x (data.map carried)
  generalize stripeWritten (s.count C.MEM_CNT_WRBYTES (16 * groupOf x) (8 * (data.map carried).length)) x (data.map carried) = v at q1 q2 q3 ⊢
  obtain ⟨b1, b2⟩ := putRawWords_bytes v x (data.map carried) (by rw [q1]; exact hm)
  obtain ⟨p1, p2⟩ := putRawWords_poison x hx (data.map carried) v (by rw [q2]; exact hp)
  have hr := putRawWords_keeps State.regs (fun _ _ _ _ => rfl) v x (data.map carried)
  have hlen : (data.map carried).length = data.length := List.length_map ..
  rw [hlen] at b2 p2
  refine ⟨fun i h => ⟨?_, ?_⟩, fun z hz => ⟨?_, ?_⟩, .of_eq (hr.trans q3)⟩
  · refine word64_of_bytes _ _ _ fun j hj => ?_
    rw [b1 i (by omega) j hj, List.getElem_map, List.getD_eq_getElem _ _ (by rw [length_leBytes]; exact hj)]
    rfl
  · unfold State.poisonedAt
    rw [p1 i (by omega), List.getElem_map, carried]
    cases data[i].2 <;> rfl
  · rw [b2 z hz, State.byte, q1]
    rfl
  · unfold State.poisonedAt
    rw [p2 (z / 8) (by omega), State.pois, q2]
    rfl

theorem frameWrite_served {s : State} {x : Addr} {data : List (Word × Bool)} (hx : inExt x.toNat = true) (h8 : x.toNat % 8 = 0) (hs : s.extServe x.toNat = 0)
    (hserve : ∀ ch off, s.locate x.toNat = .ok ch off → s.chanServes ch (x.toNat / 256) = true) (hlen : x.toNat % 256 + 8 * data.length ≤ 256) :
    exec (.frameWrite x data) s = .next (s.extWrite x.toNat (data.map carried)) := by
  obtain ⟨ch, off, hl⟩ : ∃ ch off, s.locate x.toNat = .ok ch off := by
    unfold State.extServe at hs
    split at hs
    · cases hs
    · split at hs
      · cases hs
      · cases hs
      · exact ⟨_, _, by assumption⟩
  have hex : exec (.frameWrite x data) s = execFrameWrite x data s := rfl
  rw [hex]
  unfold execFrameWrite
  extract_lets y room serves
  have hserves : serves = true := by
    simp only [serves]
    rw [show s.locate y = .ok ch off from hl]
    exact hserve ch off hl
  have htake : data.take room = data := List.take_of_length_le (by show data.length ≤ (256 - x.toNat % 256) / 8; omega)
  clear_value serves room
  subst hserves
  rw [htake]
  refine congrArg Host.Outcome.next (if_pos ?_)
  show (inExt x.toNat && x.toNat % 8 == 0 && true) = true
  rw [hx, h8]
  rfl

/-- Patrol scrubbing takes its turn, and frame f is the next (R272). -/
def scrubTurn (s : State) (c f : Nat) : State :=
  let now := s.cycles
  let s := s.takeTurn c .scrub
  { s with memc := { s.memc with scrubNext := aput s.memc.scrubNext c f, scrubAt := aput s.memc.scrubAt c now } }

theorem scrubTurn_quiet (s : State) (c f : Nat) : let v := scrubTurn s c f
    frameView v = frameView s ∧ v.regs = s.regs ∧ v.counters = s.counters ∧ v.memc.scrubNext = aput s.memc.scrubNext c f ∧
    v.memc.scrubAt = aput s.memc.scrubAt c s.cycles := ⟨rfl, rfl, rfl, rfl, rfl⟩

theorem patrolScrub_reads {s : State} {ch : ChanNo} {o : FrameObs} {st : Nat} (hd : s.scrubDue ch.toNat = true)
    (hs : s.stripeOfFrame ch.toNat ((aget s.memc.scrubNext ch.toNat).getD 0) = some st) (hf : s.frameFails st o = false) (hc : 0 < s.frameCorrections st o) :
    let v := scrubTurn s ch.toNat (((aget s.memc.scrubNext ch.toNat).getD 0 + 1) % chanStripes)
    exec (.patrolScrub ch o) s = .next (((v.countFrame (chanGroup ch.toNat) st o).writeBackFrame st o).count C.MEM_CNT_SCRUBFIX (16 * chanGroup ch.toNat)) := by
  intro v
  have hv : frameView v = frameView s := (scrubTurn_quiet ..).1
  have hv' := (view_countFrame v (chanGroup ch.toNat) st o).trans hv
  have hread : v.readFrame st ch.toNat o true = v.countFrame (chanGroup ch.toNat) st o := by
    unfold State.readFrame
    extract_lets k u n
    exact (if_neg (by rw [frameFails_congr hv' st o, hf]; decide)).trans (if_pos rfl)
  have hex : exec (.patrolScrub ch o) s = execPatrolScrub ch o s := rfl
  rw [hex]
  unfold execPatrolScrub
  extract_lets c f now s1 m1 s2
  refine congrArg Host.Outcome.next ?_
  rw [show s.scrubDue c = true from hd, if_neg (by decide), show s.stripeOfFrame c f = some st from hs]
  have h2 : s2 = v := rfl
  clear_value s2
  subst h2
  clear_value v
  dsimp only
  rw [frameFails_congr hv, hf, if_neg (by decide), show v.readFrame st c o true = _ from hread]
  exact scrubFix_corrects (by rwa [frameCorrections_congr hv']) _

/-- A write-back leaves the record of patrol scrubbing. -/
theorem writeBackFrame_quiet (w : State) (st : Nat) (o : FrameObs) : let z := w.writeBackFrame st o
    z.regs = w.regs ∧ z.counters = w.counters ∧ z.memc.scrubNext = w.memc.scrubNext ∧ z.memc.scrubAt = w.memc.scrubAt :=
  ⟨writeBackFrame_keeps State.regs (fun _ _ _ _ => rfl) (fun _ _ => rfl) w st o, writeBackFrame_keeps State.counters (fun _ _ _ _ => rfl) (fun _ _ => rfl) w st o,
    writeBackFrame_keeps (fun s => s.memc.scrubNext) (fun _ _ _ _ => rfl) (fun _ _ => rfl) w st o,
    writeBackFrame_keeps (fun s => s.memc.scrubAt) (fun _ _ _ _ => rfl) (fun _ _ => rfl) w st o⟩

theorem byte_count (s : State) (c : Ctr) (a n z : Nat) : (s.count c a n).byte z = s.byte z := rfl

/-- What a frame read, corrected and written back leaves, from a state with what the frame reads. -/
theorem scrubbed {s w : State} (hm : mcanon 0 s.mem = true) (st : Nat) (o : FrameObs) (k : Nat) (hv : frameView w = frameView s) (hr : w.regs = s.regs)
    (hc : w.ctr C.MEM_CNT_SCRUBFIX (16 * k) = s.ctr C.MEM_CNT_SCRUBFIX (16 * k)) : let t := (w.writeBackFrame st o).count C.MEM_CNT_SCRUBFIX (16 * k)
    (∀ i, i < 32 → t.word64 (256 * st + 8 * i) = ((s.frameWords st o).getD i (0, false)).1) ∧
    (∀ z, z < 256 * st ∨ 256 * st + 256 ≤ z → t.byte z = s.byte z) ∧
    t.ctr C.MEM_CNT_SCRUBFIX (16 * k) = (s.ctr C.MEM_CNT_SCRUBFIX (16 * k) + 1) % 2 ^ 48 ∧ t.memc.scrubNext = w.memc.scrubNext ∧
    t.memc.scrubAt = w.memc.scrubAt ∧ SameRegs s t noReg := by
  have hwm : w.mem = s.mem := (frameView_parts hv).1
  obtain ⟨w1, w2⟩ := writeBackFrame_words (s := w) (by rw [hwm]; exact hm) st o
  rw [frameWords_congr hv] at w1
  obtain ⟨k1, k2, k3, k4⟩ := writeBackFrame_quiet w st o
  generalize w.writeBackFrame st o = z at w1 w2 k1 k2 k3 k4 ⊢
  intro t
  have t1 : ∀ y, t.byte y = z.byte y := fun y => byte_count z _ _ _ y
  have t2 : t.ctr C.MEM_CNT_SCRUBFIX (16 * k) = (z.ctr C.MEM_CNT_SCRUBFIX (16 * k) + 1) % 2 ^ 48 := State.ctr_count_same ..
  have t3 : t.memc = z.memc := State.count_memc ..
  have t4 : t.regs = z.regs := State.count_regs ..
  clear_value t
  refine ⟨fun i hi => (word64_congr _ fun j _ => t1 _).trans (w1 i hi), fun y hy => (t1 y).trans ((w2 y hy).trans ?_), ?_, ?_, ?_, .of_eq (t4.trans (k1.trans hr))⟩
  · rw [State.byte, hwm, State.byte]
  · have : z.ctr C.MEM_CNT_SCRUBFIX (16 * k) = w.ctr C.MEM_CNT_SCRUBFIX (16 * k) := by rw [State.ctr, k2, State.ctr]
    rw [t2, this, hc]
  · rw [t3, k3]
  · rw [t3, k4]

theorem framesAreWritten : FramesAreWritten := by
  intro s hm hp
  refine ⟨fun x data hx h8 hs hserve hlen => .next (frameWrite_served hx h8 hs hserve hlen) (extWrite_stores hm hp h8 hs), fun ch o st hd hs hf hc => ?_⟩
  intro k
  have hex := patrolScrub_reads hd hs hf hc
  obtain ⟨hv, q1, q2, q3, q4⟩ := scrubTurn_quiet s ch.toNat (((aget s.memc.scrubNext ch.toNat).getD 0 + 1) % chanStripes)
  generalize scrubTurn s ch.toNat (((aget s.memc.scrubNext ch.toNat).getD 0 + 1) % chanStripes) = v at hv q1 q2 q3 q4 hex
  have h1 := (countFrame_keeps State.regs v k st o (fun _ _ _ _ => rfl)).trans q1
  have h3 := countFrame_keeps State.memc v k st o (fun _ _ _ _ => rfl)
  have hctr : v.ctr C.MEM_CNT_SCRUBFIX (16 * k) = s.ctr C.MEM_CNT_SCRUBFIX (16 * k) := by rw [State.ctr, q2, State.ctr]
  obtain ⟨t1, t2, t3, t4, t5, t6⟩ := scrubbed hm st o k ((view_countFrame v k st o).trans hv) h1 ((ctr_countFrame (i := 7) (by decide) v k st o).trans hctr)
  refine .next hex ⟨t1, t2, t3, ?_, ?_, t6⟩
  · rw [t4, h3, q3]
    exact aget_aput_same ..
  · rw [t5, h3, q4]
    exact aget_aput_same ..

/-- Settles O27: a frame's read by what its words, tag and channel are, and the writes of frames. -/
theorem externalFramesAreReadAndWritten : Obligations.ExternalFramesAreReadAndWritten := ⟨framesAreRead, framesAreWritten⟩

end Sys2Proof.Proofs
end

section
/-! PROOF. Channels and groups of external memory (R271 to R277). -/

namespace Sys2Proof.Proofs

open Sys2Proof Sys2Proof.Machine

section
variable {s : State} {ch : ChanNo}

/-- An attempt of training recorded; one after a failure is counted (R273). -/
theorem training_counts (h : ch.toNat < 192) (ok : Bool) (hs : s.chanState ch.toNat < 2)
    (hn : (aget s.memc.trainFails ch.toNat).getD 0 ≤ s.rd F.MEM_RETIRE_CFG_RETRAIN_MAX) : Done (.periodicTraining ch ok) s (fun t =>
      aget t.memc.trainFails ch.toNat = some (if ok then 0 else (aget s.memc.trainFails ch.toNat).getD 0 + 1) ∧
      t.ctr C.MEM_CNT_RETRAIN (16 * chanGroup ch.toNat) = (if (aget s.memc.trainFails ch.toNat).getD 0 = 0 then
        s.ctr C.MEM_CNT_RETRAIN (16 * chanGroup ch.toNat) else (s.ctr C.MEM_CNT_RETRAIN (16 * chanGroup ch.toNat) + 1) % 2 ^ 48) ∧
      Frame s t noReg) := by
  refine .next (congrArg Host.Outcome.next (if_neg ?_)) ?_
  · simp only [not_or]
    exact ⟨by omega, by omega, by omega⟩
  generalize (aget s.memc.trainFails ch.toNat).getD 0 = n
  by_cases h0 : n = 0
  · subst h0
    rw [if_neg (by decide)]
    exact ⟨aget_aput_same .., rfl, .of_eq rfl rfl, .of_eq rfl⟩
  · rw [if_pos (by omega), if_neg h0]
    exact ⟨aget_aput_same .., State.ctr_count_same .., .of_eq rfl rfl, .of_eq rfl⟩

theorem refresh_quiet (ch : ChanNo) (bank : BitVec 4) (s : State) : Done (.bankRefresh ch bank) s (fun t =>
    t.sites = s.sites ∧ t.counters = s.counters ∧ Frame s t noReg) := by
  refine .next rfl ?_
  dsimp only
  split
  · exact ⟨rfl, rfl, .refl _ _⟩
  · exact ⟨rfl, rfl, .of_eq rfl rfl, .of_eq rfl⟩

/-- The states of channels stand in fields of their own (Table 09-7). -/
theorem chanState_setChan (s : State) {c d v : Nat} (hv : v < 4) : (s.setChan c v).chanState d = if d = c then v else s.chanState d := by
  unfold State.setChan State.chanState
  have hf : ∀ j, j % 32 < 32 := fun j => Nat.mod_lt _ (by decide)
  by_cases h : d = c
  · subst h
    rw [if_pos rfl]
    refine (State.rd_wr_self _ _ _ _ _ ?_).trans (Nat.mod_eq_of_lt hv)
    have := hf d
    simp only [Fld.at, F.MEM_CH_STATE_CH]
    omega
  · rw [if_neg h]
    by_cases hw : d / 32 = c / 32
    · refine State.rd_wr_other _ _ _ _ _ _ (.inr ?_)
      simp only [Fld.at, F.MEM_CH_STATE_CH]
      omega
    · exact s.rd_wr_ne _ fun e => hw e.2.2

theorem mark_marks (h : ch.toNat < 192) (hs : s.chanState ch.toNat = 0) (hd : s.markDue ch.toNat = true) : Done (.channelMark ch) s (fun t =>
    t.chanState ch.toNat = 1 ∧ (∀ d, d < 192 → d ≠ ch.toNat → t.chanState d = s.chanState d) ∧ Frame s t (oneReg .MEM_CH_STATE 0 (ch.toNat / 32))) := by
  refine .next (congrArg Host.Outcome.next (if_pos ⟨h, hs, hd⟩)) ⟨?_, fun d _ hne => ?_, ?_⟩
  · rw [chanState_setChan s (by decide), if_pos rfl]
  · rw [chanState_setChan s (by decide), if_neg hne]
  · exact Frame.wr s (f := F.MEM_CH_STATE_CH.at 2 (ch.toNat % 32)) 1 ⟨rfl, rfl, rfl⟩

/-- What a list reads as where only some addresses are left. -/
theorem mget_filter {α : Type} (d : α) (m : List (Nat × α)) (p : Nat → Bool) (k : Nat) :
    mget d (m.filter (fun x => p x.1)) k = if p k then mget d m k else d := by
  induction m with
  | nil => simp [mget]
  | cons x m ih =>
    obtain ⟨a, v⟩ := x
    by_cases hp : p a = true
    · rw [List.filter_cons_of_pos (by exact hp), mget, mget, ih]
      by_cases hk : a = k
      · subst hk
        rw [if_pos rfl, if_pos hp, if_pos rfl]
      · rw [if_neg hk, if_neg hk]
    · rw [List.filter_cons_of_neg (by exact hp), ih, mget]
      by_cases hk : a = k
      · subst hk
        rw [if_neg hp, if_neg hp]
      · rw [if_neg hk]

/-- A range of whole words zeroed reads zero without poison, and the rest reads as before (R277). -/
theorem zeroRange_reads (s : State) {lo hi : Nat} (hlo : lo % 8 = 0) (hhi : hi % 8 = 0) (z : Nat) : let t := s.zeroRange lo hi
    (lo ≤ z → z < hi → t.byte z = 0 ∧ t.poisonedAt z = false) ∧ (z < lo ∨ hi ≤ z → t.byte z = s.byte z ∧ t.poisonedAt z = s.poisonedAt z) := by
  intro t
  have hb : t.byte z = if (decide (z < lo) || decide (hi ≤ z)) = true then s.byte z else 0 := mget_filter 0 s.mem (fun k => decide (k < lo) || decide (hi ≤ k)) z
  have hp : t.pois (z / 8) = if (decide (8 * (z / 8) < lo) || decide (hi ≤ 8 * (z / 8))) = true then s.pois (z / 8) else 0 :=
    mget_filter 0 s.poison (fun k => decide (8 * k < lo) || decide (hi ≤ 8 * k)) (z / 8)
  unfold State.poisonedAt
  rw [hb, hp]
  refine ⟨fun h1 h2 => ?_, fun h => ?_⟩
  · rw [if_neg (by simp; omega), if_neg (by simp; omega)]
    exact ⟨rfl, rfl⟩
  · rw [if_pos (by simp; omega), if_pos (by simp; omega)]
    exact ⟨rfl, rfl⟩

/-- The re-forming of a group ends with its window zero (R277). -/
theorem reform_completes {k : BitVec 2} (h : s.groupState k.toNat = 2) : let lo := k.toNat * groupSize
    Done (.groupReformComplete k) s (fun t => t.groupState k.toNat = (if s.liveChans k.toNat = 0 then 4 else if s.mapRetired k.toNat then 1 else 3) ∧
      (∀ z, lo ≤ z → z < lo + groupSize → t.byte z = 0 ∧ t.poisonedAt z = false) ∧
      (∀ z, z < lo ∨ lo + groupSize ≤ z → t.byte z = s.byte z ∧ t.poisonedAt z = s.poisonedAt z) ∧ SameRegs s t (oneReg .MEM_GRP_STATUS 0 k.toNat)) := by
  intro lo
  have hhi : (k.toNat + 1) * groupSize = lo + groupSize := Nat.succ_mul ..
  have hg : groupSize % 8 = 0 := by decide
  have hlo : lo % 8 = 0 := by rw [Nat.mul_mod, hg, Nat.mul_zero]
  have hz := fun z => zeroRange_reads s hlo (show (lo + groupSize) % 8 = 0 by omega) z
  have hr : (s.zeroRange lo (lo + groupSize)).regs = s.regs := rfl
  have hex : exec (.groupReformComplete k) s = .next (let v := s.zeroRange lo ((k.toNat + 1) * groupSize)
      v.wr F.MEM_GRP_STATUS_STATE 0 k.toNat (if v.liveChans k.toNat = 0 then 4 else if v.mapRetired k.toNat then 1 else 3)) := congrArg Host.Outcome.next (if_pos h)
  rw [hhi] at hex
  generalize s.zeroRange lo (lo + groupSize) = v at hz hr hex
  have h1 : v.liveChans k.toNat = s.liveChans k.toNat := rd_of_regs hr ..
  have h2 : v.mapRetired k.toNat = s.mapRetired k.toNat := by
    have h3 : ∀ c, v.chanState c = s.chanState c := fun c => rd_of_regs hr ..
    have h4 : ∀ j i, v.mapEntry j i = s.mapEntry j i := fun j i => congrArg (· % 64) (rd_of_regs hr ..)
    unfold State.mapRetired
    simp only [h1, h3, h4]
  dsimp only at hex
  rw [h1, h2] at hex
  refine .next hex ⟨?_, fun z a b => (hz z).1 a b, fun z a => (hz z).2 a, (SameRegs.of_eq hr).trans ((SameRegs.refl _ _).wr (f := F.MEM_GRP_STATUS_STATE) _ ⟨rfl, rfl, rfl⟩)⟩
  refine (State.rd_wr_self _ _ _ _ _ (by decide)).trans (Nat.mod_eq_of_lt ?_)
  split
  · decide
  · split <;> decide

end

/-- Settles O28: training, refresh, marks and the end of re-forming, each by its command. -/
theorem channelsAndGroups : Obligations.ChannelsAndGroups :=
  fun s ch h => ⟨fun ok hs hn => training_counts h ok hs hn, fun bank => refresh_quiet ch bank s, fun hs hd => mark_marks h hs hd, fun _ hk _ _ => reform_completes hk⟩

end Sys2Proof.Proofs
end

section
/-! PROOF. The host's network: congestion, the link and IP layers (R429, R430, R432). -/

namespace Sys2Proof.Proofs

open Sys2Proof Sys2Proof.Machine

/-! ### Queue pairs -/

theorem qp_modQp_same (s : State) (q : Nat) (f : QpX → QpX) : (s.modQp q f).qp q = f (s.qp q) := by
  unfold State.modQp State.qp
  rw [aget_aput_same]
  rfl

theorem qp_modQp_ne {q n : Nat} (h : n ≠ q) (s : State) (f : QpX → QpX) : (s.modQp q f).qp n = s.qp n := by
  unfold State.modQp State.qp
  rw [aget_aput_ne _ _ h]

/-- What a change of one queue pair's connection leaves unchanged. -/
theorem modQp_frame (s : State) (q : Nat) (f : QpX → QpX) : Frame s (s.modQp q f) noReg := .of_eq rfl rfl rfl

/-- A packet at the Gate of a device that is not in Bivouac is acted on (R471). -/
theorem viaGate_awake {s : State} (h : s.rd F.PWR_BIVOUAC_STATE = 0) (i : Instr) (n src : Nat) (f : State → State) :
    s.viaGate i n src f = f s := if_pos h

section
variable {s : State} {n : QpNo}

theorem ceMarked_sends (ho : s.qpOpen n.toNat = true) (h : (s.qp n.toNat).lastCnp = 0 ∨ (s.qp n.toNat).lastCnp - 1 + cnpGap ≤ s.time) :
    s.ceMarked n.toNat = (s.emit (.cnp n.toNat)).modQp n.toNat (fun x => { x with lastCnp := s.time + 1 }) := by
  refine if_pos ?_
  simpa [ho] using h

theorem ceMarked_early (h0 : 0 < (s.qp n.toNat).lastCnp) (h : s.time < (s.qp n.toNat).lastCnp - 1 + cnpGap) :
    s.ceMarked n.toNat = s := by
  refine if_neg ?_
  have : (s.qp n.toNat).lastCnp ≠ 0 := by omega
  simp [this, h]

theorem qpRateControl (hs : s.rd F.PWR_BIVOUAC_STATE = 0) (ho : s.qpOpen n.toNat = true) :
    let q := n.toNat
    let x := s.qp q
    ((x.lastCnp = 0 ∨ x.lastCnp - 1 + 1500000 ≤ s.time) → Done (.ceMarkedPacket n) s (fun t =>
      t.out = List.append s.out [.cnp q] ∧ (t.qp q).lastCnp = s.time + 1 ∧ Frame s t noReg)) ∧
    (0 < x.lastCnp → s.time < x.lastCnp - 1 + 1500000 → Done (.ceMarkedPacket n) s (fun t => t = s)) ∧
    Done (.cnp n) s (fun t => (t.qp q).rate = max 1000000000 (x.rate / 2) ∧ (t.qp q).rateAt = s.time ∧
      t.ctr C.GATE_CNT_CNP = (s.ctr C.GATE_CNT_CNP + 1) % 2 ^ 48 ∧ Frame s t noReg) ∧
    (x.rateAt + cnpGap ≤ s.time → Done (.rateRecovery n) s (fun t =>
      (t.qp q).rate = min s.lineRate (x.rate + s.lineRate / 100) ∧ (t.qp q).rateAt = s.time ∧ Frame s t noReg)) ∧
    (s.time < x.rateAt + cnpGap → Done (.rateRecovery n) s (fun t => t = s)) ∧
    (x.retries < 7 → Done (.ackTimeout n) s (fun t => (t.qp q).retries = x.retries + 1 ∧
      t.out = List.append s.out [.retransmit q] ∧ Frame s t noReg)) ∧
    (7 ≤ x.retries → Done (.ackTimeout n) s (fun t => t.rd F.GATE_QP_STATE 0 q = 2 ∧ Frame s t (oneReg .GATE_QP 0 q))) := by
  intro q x
  refine ⟨fun h => ?_, fun h0 h => ?_, ?_, fun h => ?_, fun h => ?_, fun h => ?_, fun h => ?_⟩
  · refine .next (congrArg Host.Outcome.next ((viaGate_awake hs ..).trans (ceMarked_sends ho h))) ⟨rfl, ?_, .of_eq rfl rfl rfl⟩
    rw [qp_modQp_same]
  · exact .next (congrArg Host.Outcome.next ((viaGate_awake hs ..).trans (ceMarked_early h0 h))) rfl
  · have e : s.takeCnp q = (s.count C.GATE_CNT_CNP).modQp q (fun x => { x with rate := max 1000000000 (x.rate / 2), rateAt := s.time }) :=
      if_pos ho
    refine .next (congrArg Host.Outcome.next ((viaGate_awake hs ..).trans e)) ⟨?_, ?_, s.ctr_count_same .., .of_eq rfl rfl rfl⟩
    · rw [qp_modQp_same]; rfl
    · rw [qp_modQp_same]
  · have e : exec (.rateRecovery n) s = .next (s.modQp q (fun x => { x with rate := min s.lineRate (x.rate + s.lineRate / 100), rateAt := s.time })) :=
      congrArg Host.Outcome.next (if_pos (by simpa [ho] using h))
    refine .next e ⟨?_, ?_, modQp_frame ..⟩ <;> rw [qp_modQp_same]
  · have e : exec (.rateRecovery n) s = .next s := congrArg Host.Outcome.next (if_neg (by simpa [ho] using h))
    exact .next e rfl
  · have e : exec (.ackTimeout n) s = .next ((((s.fresh.2).emit (.retransmit q)).count C.GATE_CNT_RETX 0 (s.fresh.1.toNat % 65536)).modQp q
        (fun x => { x with retries := x.retries + 1 })) :=
      congrArg Host.Outcome.next ((if_neg (by simp [ho])).trans (if_pos h))
    refine .next e ⟨?_, rfl, .of_eq rfl rfl rfl⟩
    rw [qp_modQp_same]
    rfl
  · have e : exec (.ackTimeout n) s = .next (s.wr F.GATE_QP_STATE 0 q 2) :=
      congrArg Host.Outcome.next ((if_neg (by simp [ho])).trans (if_neg (Nat.not_lt.2 h)))
    exact .next e ⟨s.rd_wr_self _ _ _ _ (by decide), .wr s _ ⟨rfl, rfl, rfl⟩⟩

end

theorem pausesAct (s : State) (v : BitVec 16) :
    (s.rd F.GATE_NET_CFG_PAUSE_EN = 1 → Done (.pause v) s (fun t => t.gate.paused = v.toNat ∧ Frame s t noReg)) ∧
    (s.rd F.GATE_NET_CFG_PAUSE_EN = 0 → Done (.pause v) s (fun t => t = s)) ∧
    (∀ prio : BitVec 3,
      (s.rd F.GATE_NET_CFG_PFC_EN = 1 → prio.toNat = s.rd F.GATE_NET_CFG_PCP → Done (.pfc prio v) s (fun t =>
        t.gate.pfcPaused = v.toNat ∧ Frame s t noReg)) ∧
      ((s.rd F.GATE_NET_CFG_PFC_EN = 0 ∨ prio.toNat ≠ s.rd F.GATE_NET_CFG_PCP) → Done (.pfc prio v) s (fun t => t = s))) := by
  refine ⟨fun h => ?_, fun h => ?_, fun prio => ⟨fun h hp => ?_, fun h => ?_⟩⟩
  · exact .next (congrArg Host.Outcome.next (if_pos h)) ⟨rfl, .of_eq rfl rfl rfl⟩
  · exact .next (congrArg Host.Outcome.next (if_neg (by omega))) rfl
  · exact .next (congrArg Host.Outcome.next (if_pos ⟨h, hp⟩)) ⟨rfl, .of_eq rfl rfl rfl⟩
  · exact .next (congrArg Host.Outcome.next (if_neg (by omega))) rfl

theorem ipAnswers {s : State} (hl : s.linkReady = true) (hi : s.gate.ip.isSome = true) :
    Done .arp s (fun t => t.out = List.append s.out [.arpReply] ∧ Frame s t noReg) ∧
    Done .ndp s (fun t => t.out = List.append s.out [.ndpReply] ∧ Frame s t noReg) ∧
    Done .icmpEcho s (fun t => t.out = List.append s.out [.echoReply] ∧ Frame s t noReg) := by
  have h : (s.linkReady && s.gate.ip.isSome) = true := by rw [hl, hi]; rfl
  exact ⟨.next (congrArg Host.Outcome.next (if_pos h)) ⟨rfl, .of_eq rfl rfl rfl⟩,
    .next (congrArg Host.Outcome.next (if_pos h)) ⟨rfl, .of_eq rfl rfl rfl⟩,
    .next (congrArg Host.Outcome.next (if_pos h)) ⟨rfl, .of_eq rfl rfl rfl⟩⟩

/-- Settles O47, from the rules of the queue pair's rate and retries, of PAUSE and PFC, and of the IP layer. -/
theorem congestionAndLinkLayers : Obligations.CongestionAndLinkLayers := by
  intro s n hs q x same
  refine ⟨fun ho => qpRateControl hs ho, pausesAct s, ipAnswers, ?_, fun addr hd => ?_⟩
  · exact .next (t := s.count C.GATE_CNT_RXDROP) rfl ⟨s.ctr_count_same .., .of_eq⟩
  · exact .next (congrArg Host.Outcome.next (if_pos hd)) ⟨rfl, .of_eq rfl rfl rfl⟩

end Sys2Proof.Proofs
end

section
/-! PROOF. An RDMA WRITE of part of a word, and the words that a cycle's pad writes keep (R441). -/

namespace Sys2Proof.Proofs

open Sys2Proof Sys2Proof.Machine

/-- A device that is READY, with one live channel in group 0 and queue pair 0 open for the admin; the words kept of the pads'
writes of this cycle hold an entry for the first word of the admin area. -/
def keptAdminWord : State :=
  let s := ((State.reset.wr F.CFG_DEV_STATE_STATE 0 0 4).wrs 0 0 [(F.GATE_QP_STATE, 1), (F.GATE_QP_OWNER, 16)]).wr F.MEM_GRP_STATUS_LIVE 0 0 1
  { s with padOld := [(0x01000000, (0xFF00#64, 0, 0))] }

/-- The first byte of the admin area is permitted to queue pair 0 and served. -/
theorem keptAdminWord_serves : keptAdminWord.rd F.PWR_BIVOUAC_STATE = 0 ∧ keptAdminWord.qpOpen 0 = true ∧
    keptAdminWord.memPermitted 0 0x08000000 1 = true ∧ (keptAdminWord.qp 0).rkey = 0 ∧
    keptAdminWord.extServe 0x08000000 = 0 := by decide +kernel

/-- A WRITE of the first byte of the admin area: the rest of its word takes the kept word, not the bytes that stand there. -/
theorem keptAdminWord_write : keptAdminWord.byte 0x08000001 = 0 ∧
    ∀ t, exec (.rdmaWrite 0 0 0x08000000 [0x55]) keptAdminWord = .next t → t.byte 0x08000001 = 0xFF := by
  refine ⟨rfl, fun t h => ?_⟩
  have e : (keptAdminWord.rdmaWrite 0 0 0x08000000 [0x55]).byte 0x08000001 = 0xFF := by decide +kernel
  have hx : exec (.rdmaWrite 0 0 0x08000000 [0x55]) keptAdminWord = .next (keptAdminWord.rdmaWrite 0 0 0x08000000 [0x55]) :=
    congrArg Host.Outcome.next (viaGate_awake keptAdminWord_serves.1 ..)
  rw [hx] at h
  injection h with h
  rw [← h, e]

/-- Refutes O45: a WRITE of part of a word takes the word's other bytes as the engines read them, which is from the words kept
of the pads' writes of this cycle; a state that keeps a word of external memory there, other than the one that stands, changes
a byte outside the data. -/
theorem not_rdmaReachesPermittedMemory : ¬ Obligations.RdmaReachesPermittedMemory := by
  intro h
  obtain ⟨hb, ho, hp, hk, hs⟩ := keptAdminWord_serves
  obtain ⟨hz, hw⟩ := keptAdminWord_write
  obtain ⟨t, ht, -, hout, -⟩ := (h keptAdminWord 0 0 0x08000000 hb ho).1 [0x55] hk.symm hp rfl rfl rfl (by
    intro w hw
    obtain rfl : w = 0x01000000 := by simpa [wordsOf] using hw
    exact hs)
  have hne := hout 0x08000001 (.inr (by decide)) (.inr rfl)
  rw [hw t ht, hz] at hne
  exact absurd hne (by decide)

end Sys2Proof.Proofs
end

section
/-! PROOF. Requests of several stripes to external memory: what they read and what they leave (R264, R273). -/

namespace Sys2Proof.Proofs

open Sys2Proof Sys2Proof.Machine

/-! ### The runs of a request within stripes -/

/-- The words of a run. -/
def runWords (r : Nat × Nat) : List Nat := List.range' (r.1 / 8) r.2

/-- The run of a request in its stripe i, if it has one. -/
def runAt (x n i : Nat) : Option (Nat × Nat) :=
  let lo := max x (256 * (x / 256 + i))
  let hi := min (x + 8 * n) (256 * (x / 256 + i + 1))
  if lo < hi then some (lo, (hi - lo) / 8) else none

theorem stripeRuns_eq (x n : Nat) : stripeRuns x n = (List.range ((x % 256 / 8 + n + 31) / 32)).filterMap (runAt x n) := rfl

theorem runs_words {x n : Nat} (h8 : x % 8 = 0) (k : Nat) :
    ((List.range k).filterMap (runAt x n)).flatMap runWords = List.range' (x / 8) (min (x % 256 / 8 + n) (32 * k) - x % 256 / 8) := by
  induction k with
  | zero => simp
  | succ k ih =>
    rw [List.range_succ, List.filterMap_append, List.flatMap_append, ih]
    simp only [List.filterMap_cons, List.filterMap_nil]
    unfold runAt
    dsimp only
    split
    · next h =>
      split at h
      · cases h
      · rw [List.flatMap_nil, List.append_nil]
        congr 1
        omega
    · next r h =>
      split at h
      · next hlt =>
        injection h with h
        rw [List.flatMap_cons, List.flatMap_nil, List.append_nil, ← h]
        unfold runWords
        dsimp only
        have e : max x (256 * (x / 256 + k)) / 8 = x / 8 + (min (x % 256 / 8 + n) (32 * k) - x % 256 / 8) := by omega
        rw [e, List.range'_append_1]
        congr 1
        omega
      · cases h

theorem stripeRuns_words {x : Nat} (n : Nat) (h8 : x % 8 = 0) : (stripeRuns x n).flatMap runWords = List.range' (x / 8) n := by
  rw [stripeRuns_eq, runs_words h8]
  congr 1
  omega

/-- A run lies within the request, and within one stripe. -/
theorem stripeRuns_bounds {x n : Nat} {r : Nat × Nat} (h : r ∈ stripeRuns x n) :
    x ≤ r.1 ∧ r.1 + 8 * r.2 ≤ x + 8 * n ∧ r.1 % 256 + 8 * r.2 ≤ 256 ∧ (x % 8 = 0 → r.1 % 8 = 0 ∧ 0 < r.2) := by
  rw [stripeRuns_eq, List.mem_filterMap] at h
  obtain ⟨i, -, h⟩ := h
  unfold runAt at h
  dsimp only at h
  split at h
  · injection h with h
    subst h
    dsimp only
    omega
  · cases h

/-! ### What a request keeps -/

theorem ite_keeps {α γ : Type} (f : α → γ) {c : Prop} [Decidable c] {a b : α} {z : γ} (ha : f a = z) (hb : f b = z) : f (if c then a else b) = z := by
  split
  · exact ha
  · exact hb

theorem countUnserved_keeps {γ : Type} (f : State → γ) (s : State) (x : Nat) (hc : ∀ (s : State) c n, groupCtr c → f (s.count c (16 * groupOf x) n) = f s) :
    f (s.countUnserved x) = f s := by
  unfold State.countUnserved
  split
  · exact hc _ _ _ ⟨rfl, by decide⟩
  · split
    · exact hc _ _ _ ⟨rfl, by decide⟩
    · rfl

theorem poisonWords_keeps {γ : Type} (f : State → γ) (hf : ∀ (s : State) n, f { s with free := n } = f s) (s : State) (n : Nat) :
    f (s.poisonWords n).2 = f s := by
  induction n generalizing s with
  | zero => rfl
  | succ n ih => exact (ih s.fresh.2).trans (hf ..)

section
variable {γ : Type} (f : State → γ) (hm : ∀ (s : State) m, f { s with memc := m } = f s)
include hm

theorem takeTurn_keeps (s : State) (ch : Nat) (o : TurnOwner) : f (s.takeTurn ch o) = f s := hm ..

theorem edgeTurn_keeps (s : State) (o : TurnOwner) (x : Nat) : f (s.edgeTurn o x) = f s := by
  have e : State.edgeTurn = delta% State.edgeTurn := rfl
  rw [e]
  beta_reduce
  generalize s.locate x = r
  match r with
  | .ok ch _ => exact takeTurn_keeps f hm ..
  | .unbacked => rfl
  | .retired _ => rfl

theorem takeDelivered_keeps (s : State) (x n : Nat) : f (s.takeDelivered x n).2 = f s := hm ..

theorem stripeWritten_keeps (s : State) (x : Nat) (l : List RawWord) : f (stripeWritten s x l) = f s := by
  unfold stripeWritten
  dsimp only
  split
  · exact (hm ..).trans (hm ..)
  · exact hm ..

variable (hs : ∀ (s : State) m p y, f { s with mem := m, poison := p, synd := y } = f s)
include hs
variable (hc : ∀ (s : State) c b n, f (s.count c b n) = f s)
include hc

theorem extWrite_keeps (s : State) (x : Nat) (l : List RawWord) : f (s.extWrite x l) = f s := by
  rw [extWrite_eq]
  dsimp only
  split
  · exact (countUnserved_keeps f _ _ (fun s c n _ => hc s c _ n)).trans (hc ..)
  · exact (putRawWords_keeps f hs ..).trans ((stripeWritten_keeps f hm ..).trans (hc ..))

theorem extWrites_keeps (s : State) (o : TurnOwner) (x : Nat) (l : List RawWord) : f (s.extWrites o x l) = f s :=
  foldl_keep f _ (fun _ _ => (extWrite_keeps f hm hs hc ..).trans (edgeTurn_keeps f hm ..)) _ _

end

/-! ### What a read keeps -/

theorem chanGroup_lt (ch : Nat) : chanGroup ch < 4 := by
  unfold chanGroup
  omega

section
variable {γ : Type} (f : State → γ) {top : Nat} (h4 : 4 ≤ top) (hm : ∀ (s : State) m, f { s with memc := m } = f s)
  (hs : ∀ (s : State) m p y, f { s with mem := m, poison := p, synd := y } = f s)
  (hc : ∀ (s : State) c k n, k ≤ top → groupCtr c → f (s.count c (16 * k) n) = f s)
  (hn : ∀ (s : State) rule, f (s.note .MEM_ERR_LOG 0 0 rule) = f s)
include h4 hm hs hc hn

theorem frameUe_keeps (s : State) (st ch : Nat) (o : FrameObs) (p : Bool) : f (s.frameUe st ch o p) = f s := by
  unfold State.frameUe
  extract_lets k l all kind frame bad s1 s2 now s3 s4
  have e1 : f s1 = f s := by
    unfold s1
    split
    · rfl
    · exact hm ..
  have e2 : f s2 = f s1 := foldl_keep f (fun (s : State) (w : Nat) => s.setPois (32 * st + w) true) (fun (s : State) w => hs s s.mem (mput 0 s.poison (32 * st + w) 3) (mput 0 s.synd (32 * st + w) 0)) _ _
  exact (hn ..).trans ((hc _ _ _ _ ((chanGroup_lt ch).le.trans h4) ⟨rfl, by decide⟩).trans ((hm s2 _).trans (e2.trans e1)))

theorem readCells_keeps (s : State) (st ch : Nat) : f (s.readCells st ch) = f s := by
  have hk : ∀ (s : State) o, f (s.countFrame (chanGroup ch) st o) = f s := fun s o =>
    countFrame_keeps f s _ _ _ (fun s c n h => hc s c _ n ((chanGroup_lt ch).le.trans h4) h)
  unfold State.readCells
  extract_lets o s1
  have e1 : f s1 = f s := hk ..
  split
  · exact (frameUe_keeps f h4 hm hs hc hn ..).trans ((foldl_keep f _ (fun _ _ => hk ..) _ _).trans e1)
  · exact (hm s1 _).trans e1

variable (hf : ∀ (s : State) n, f { s with free := n } = f s)
include hf

theorem extRead_keeps (s : State) {x : Nat} (n : Nat) (hx : groupOf x ≤ top) : f (s.extRead x n).2 = f s := by
  have e : State.extRead = delta% State.extRead := rfl
  rw [e]
  beta_reduce
  extract_lets s1 st
  have e1 : f s1 = f s := hc _ _ _ _ hx ⟨rfl, by decide⟩
  refine ite_keeps (f := fun y : List RawWord × State => f y.2) ((takeDelivered_keeps f hm ..).trans e1) (ite_keeps (f := fun y : List RawWord × State => f y.2) ?_
    (ite_keeps (f := fun y : List RawWord × State => f y.2) e1 ?_))
  · exact (poisonWords_keeps f hf ..).trans ((countUnserved_keeps f _ _ (fun s c n h => hc s c _ n hx h)).trans e1)
  · generalize s1.locate x = r
    match r with
    | .ok ch _ => exact (takeDelivered_keeps f hm ..).trans ((readCells_keeps f h4 hm hs hc hn ..).trans e1)
    | .retired _ => exact (poisonWords_keeps f hf ..).trans e1
    | .unbacked => exact (poisonWords_keeps f hf ..).trans e1

theorem extReads_keeps (s : State) (o : TurnOwner) {x n : Nat} (hx : groupOf (x + 8 * n) ≤ top) : f (s.extReads o x n).2 = f s := by
  unfold State.extReads
  have hruns : ∀ r ∈ stripeRuns x n, groupOf r.1 ≤ top := fun r hr => by
    obtain ⟨-, h, -, -⟩ := stripeRuns_bounds hr
    exact (Nat.div_le_div_right (by omega : r.1 ≤ x + 8 * n)).trans hx
  generalize stripeRuns x n = l at hruns
  have hrun : ∀ acc : List RawWord × State, (∀ r ∈ l, groupOf r.1 ≤ top) → f (l.foldl (fun acc r =>
      let (l, s) := (acc.2.edgeTurn o r.1).extRead r.1 r.2
      (List.append acc.1 l, s)) acc).2 = f acc.2 := by
    clear hruns
    induction l with
    | nil => exact fun _ _ => rfl
    | cons r l ih =>
      intro acc hl
      have hr := (extRead_keeps f h4 hm hs hc hn hf (acc.2.edgeTurn o r.1) r.2 (hl r List.mem_cons_self)).trans (edgeTurn_keeps f hm ..)
      rw [List.foldl_cons, ih _ (fun q hq => hl q (List.mem_cons_of_mem _ hq))]
      generalize (acc.2.edgeTurn o r.1).extRead r.1 r.2 = y at hr
      obtain ⟨l, t⟩ := y
      exact hr
  exact hrun ([], s) hruns

end

/-! ### Reads of clean cells -/

/-- A word as a read of clean cells delivers it. -/
def cellWord (s : State) (w : Nat) : RawWord := ⟨s.word64 (8 * w), mget 0 s.synd w, if s.pois w = 0 then 0 else 3⟩

/-- What a read of clean cells may change: counters and the turns of the channels. -/
def readView (s : State) : (List (Nat × Byte) × List (Nat × BitVec 2) × List (Nat × BitVec 8)) × List (RegKey × Word) × List (Nat × (BitVec 32 × Byte)) × Option (Nat × List (Word × Bool)) :=
  (mems s, s.regs, s.memc.tags, s.memc.delivered)

/-- A word can be read where it stands: its channel serves it, and its frame holds no error. -/
def Clean (s : State) (w : Nat) : Prop := s.extServe (8 * w) = 0 ∧ s.frameClean (w / 32) = true

section
variable {s t : State}

theorem readView_parts (h : readView t = readView s) : mems t = mems s ∧ t.regs = s.regs ∧ t.memc.tags = s.memc.tags ∧ t.memc.delivered = s.memc.delivered := by
  unfold readView at h
  simpa only [Prod.mk.injEq] using h

theorem clean_congr (h : readView t = readView s) (w : Nat) : Clean t w ↔ Clean s w := by
  obtain ⟨hm, hr, ht, -⟩ := readView_parts h
  have hy : t.synd = s.synd := congrArg (·.2.2) hm
  unfold Clean State.frameClean
  rw [extServe_congr hr, hy, ht]

theorem cellWord_congr (h : mems t = mems s) (w : Nat) : cellWord t w = cellWord s w := by
  have hb : t.mem = s.mem := congrArg (·.1) h
  have hp : t.poison = s.poison := congrArg (·.2.1) h
  have hy : t.synd = s.synd := congrArg (·.2.2) h
  unfold cellWord State.pois
  rw [hy, hp, word64_congr (s := s) (t := t) (8 * w) (fun i _ => by simp only [State.byte, hb])]

end

theorem rawWords_congr {s t : State} (h : mems t = mems s) (x n : Nat) : t.rawWords x n = s.rawWords x n := by
  have hb : t.mem = s.mem := congrArg (·.1) h
  have hp : t.poison = s.poison := congrArg (·.2.1) h
  have hy : t.synd = s.synd := congrArg (·.2.2) h
  unfold State.rawWords State.pois
  refine List.map_congr_left fun i _ => ?_
  rw [hy, hp, word64_congr (s := s) (t := t) _ (fun i _ => by simp only [State.byte, hb])]

theorem rawWords_cells (s : State) {x : Nat} (n : Nat) (h8 : x % 8 = 0) :
    (s.rawWords x n).map (fun w => { w with poison := if w.poison = 0 then 0 else 3 }) = (runWords (x, n)).map (cellWord s) := by
  unfold State.rawWords runWords
  rw [List.map_map, List.range'_eq_map_range, List.map_map]
  refine List.map_congr_left fun i _ => ?_
  unfold cellWord
  have e : 8 * (x / 8 + i) = x + 8 * i := by omega
  simp [e]

theorem readView_count (s : State) (c : Ctr) (b n : Nat) : readView (s.count c b n) = readView s := rfl

/-- One request's read of clean cells (R263). -/
theorem extRead_clean {s : State} {x : Nat} (n : Nat) (h8 : x % 8 = 0) (hd : s.memc.delivered = none) (hc : Clean s (x / 8)) :
    s.extRead x n = ((runWords (x, n)).map (cellWord s), s.count C.MEM_CNT_RDBYTES (16 * groupOf x) (8 * n)) := by
  have e8 : 8 * (x / 8) = x := by omega
  have est : x / 8 / 32 = stripeOf x := by unfold stripeOf; omega
  obtain ⟨h1, h2⟩ := hc
  rw [e8] at h1
  rw [est] at h2
  have e : State.extRead = delta% State.extRead := rfl
  rw [e]
  beta_reduce
  extract_lets v st
  have hv : readView v = readView s := readView_count ..
  obtain ⟨vm, vr, vt, vd⟩ := readView_parts hv
  have c1 : (v.memc.delivered.any fun d => d.1 == st) = false := by rw [vd, hd]; rfl
  have c2 : v.extServe x = 0 := (extServe_congr vr x).trans h1
  have c3 : v.frameClean st = true := by
    have hy : v.synd = s.synd := congrArg (·.2.2) vm
    unfold State.frameClean at h2 ⊢
    rw [hy, vt]
    exact h2
  rw [if_neg (by rw [c1]; decide), if_neg (by rw [c2]; decide), if_pos c3, rawWords_congr vm, rawWords_cells s n h8]

/-- What reads of clean cells keep: all but the count of the bytes read and the turns of the channels. -/
def ReadKeeps (s t : State) : Prop := ∀ {γ : Type} (f : State → γ), (∀ (s : State) m, f { s with memc := m } = f s) →
  (∀ (s : State) b n, f (s.count C.MEM_CNT_RDBYTES b n) = f s) → f t = f s

theorem readView_edgeTurn (s : State) (o : TurnOwner) (x : Nat) : readView (s.edgeTurn o x) = readView s := by
  have e : State.edgeTurn = delta% State.edgeTurn := rfl
  rw [e]
  beta_reduce
  generalize s.locate x = r
  match r with
  | .ok ch _ => rfl
  | .unbacked => rfl
  | .retired _ => rfl

/-- What one more run has read, behind what was read before it. -/
def joinRead (l : List RawWord) (y : List RawWord × State) : List RawWord × State := (List.append l y.1, y.2)

/-- One run of a request, after what was read before it. -/
def readRun (o : TurnOwner) (acc : List RawWord × State) (r : Nat × Nat) : List RawWord × State :=
  joinRead acc.1 ((acc.2.edgeTurn o r.1).extRead r.1 r.2)

theorem readRun_of {o : TurnOwner} {acc : List RawWord × State} {r : Nat × Nat} {y : List RawWord × State}
    (h : (acc.2.edgeTurn o r.1).extRead r.1 r.2 = y) : readRun o acc r = joinRead acc.1 y := congrArg (joinRead acc.1) h

theorem extReads_eq (s : State) (o : TurnOwner) (x n : Nat) : s.extReads o x n = (stripeRuns x n).foldl (readRun o) ([], s) := by
  unfold State.extReads
  refine List.foldl_ext _ _ _ fun acc r _ => ?_
  unfold readRun
  generalize (acc.2.edgeTurn o r.1).extRead r.1 r.2 = y
  obtain ⟨l, t⟩ := y
  rfl

/-- A run of clean cells. -/
theorem readRun_clean {o : TurnOwner} {acc : List RawWord × State} {r : Nat × Nat} (h8 : r.1 % 8 = 0) (hp : 0 < r.2)
    (hd : acc.2.memc.delivered = none) (hc : ∀ w ∈ runWords r, Clean acc.2 w) : ∃ v,
    readRun o acc r = (List.append acc.1 ((runWords r).map (cellWord acc.2)), v) ∧ readView v = readView acc.2 ∧ ReadKeeps acc.2 v := by
  have hv := readView_edgeTurn acc.2 o r.1
  have hw : r.1 / 8 ∈ runWords r := by unfold runWords; simp [hp]
  have hcl : Clean (acc.2.edgeTurn o r.1) (r.1 / 8) := (clean_congr hv _).2 (hc _ hw)
  have hread := extRead_clean r.2 h8 ((readView_parts hv).2.2.2.trans hd) hcl
  have hcell : cellWord (acc.2.edgeTurn o r.1) = cellWord acc.2 := funext (cellWord_congr (readView_parts hv).1)
  have hk : ReadKeeps acc.2 (acc.2.edgeTurn o r.1) := fun f hm _ => edgeTurn_keeps f hm ..
  have hrun := readRun_of hread
  rw [hcell] at hrun
  generalize acc.2.edgeTurn o r.1 = u at hv hrun hk
  exact ⟨u.count C.MEM_CNT_RDBYTES (16 * groupOf r.1) (8 * r.2), hrun, (readView_count ..).trans hv, fun f hm hc => (hc ..).trans (hk f hm hc)⟩

theorem readRuns_clean (o : TurnOwner) (l : List (Nat × Nat)) (acc : List RawWord × State) (hd : acc.2.memc.delivered = none)
    (hr : ∀ r ∈ l, r.1 % 8 = 0 ∧ 0 < r.2) (hc : ∀ r ∈ l, ∀ w ∈ runWords r, Clean acc.2 w) :
    (l.foldl (readRun o) acc).1 = List.append acc.1 ((l.flatMap runWords).map (cellWord acc.2)) ∧
    readView (l.foldl (readRun o) acc).2 = readView acc.2 ∧ ReadKeeps acc.2 (l.foldl (readRun o) acc).2 := by
  induction l generalizing acc with
  | nil => exact ⟨(List.append_nil _).symm, rfl, fun _ _ _ => rfl⟩
  | cons r l ih =>
    obtain ⟨h8, hpos⟩ := hr r (List.mem_cons_self ..)
    obtain ⟨v, hv, hview, hk⟩ := readRun_clean (o := o) h8 hpos hd (hc r (List.mem_cons_self ..))
    rw [List.foldl_cons, hv]
    obtain ⟨h1, h2, h3⟩ := ih (List.append acc.1 ((runWords r).map (cellWord acc.2)), v) ((readView_parts hview).2.2.2.trans hd)
      (fun r h => hr r (List.mem_cons_of_mem _ h)) (fun r h w hw => (clean_congr hview w).2 (hc r (List.mem_cons_of_mem _ h) w hw))
    refine ⟨?_, h2.trans hview, fun f hm hc => (h3 f hm hc).trans (hk f hm hc)⟩
    rw [h1, show cellWord v = cellWord acc.2 from funext (cellWord_congr (readView_parts hview).1), List.flatMap_cons, List.map_append]
    exact List.append_assoc ..

/-- A request of clean cells reads the words that stand there (R263). -/
theorem extReads_clean {s : State} {o : TurnOwner} {x n : Nat} (h8 : x % 8 = 0) (hd : s.memc.delivered = none)
    (hc : ∀ w, x / 8 ≤ w → w < x / 8 + n → Clean s w) :
    (s.extReads o x n).1 = (List.range' (x / 8) n).map (cellWord s) ∧
    readView (s.extReads o x n).2 = readView s ∧ ReadKeeps s (s.extReads o x n).2 := by
  have hw : ∀ r ∈ stripeRuns x n, ∀ w ∈ runWords r, Clean s w := fun r hr w hw => by
    have hm : w ∈ List.range' (x / 8) n := stripeRuns_words n h8 ▸ List.mem_flatMap.2 ⟨r, hr, hw⟩
    obtain ⟨h1, h2⟩ := List.mem_range'_1.1 hm
    exact hc w h1 h2
  obtain ⟨h1, h2, h3⟩ := readRuns_clean o (stripeRuns x n) ([], s) hd (fun r hr => (stripeRuns_bounds hr).2.2.2 h8) hw
  rw [stripeRuns_words n h8] at h1
  rw [extReads_eq]
  exact ⟨h1, h2, h3⟩

theorem bytes_add (s : State) (x m n : Nat) : s.bytes x (m + n) = List.append (s.bytes x m) (s.bytes (x + m) n) := by
  unfold State.bytes
  rw [List.range_add, List.map_append, List.map_map]
  congr 1
  exact List.map_congr_left fun i _ => by simp [Nat.add_assoc]

/-- The bytes of the words that stand at an aligned address. -/
theorem bytes_cells (s : State) (a n : Nat) :
    ((List.range' a n).map (cellWord s)).flatMap (fun w => leBytes w.data.toNat 8) = s.bytes (8 * a) (8 * n) := by
  induction n generalizing a with
  | zero => rfl
  | succ n ih =>
    rw [List.range'_succ, List.map_cons, List.flatMap_cons, ih, show 8 * (n + 1) = 8 + 8 * n by omega, bytes_add, ← leBytes_word64,
      show 8 * (a + 1) = 8 * a + 8 by omega]
    rfl

end Sys2Proof.Proofs
end

section
/-! PROOF. Packets of a stream (R398 to R401, R409 to R411, R421). -/

namespace Sys2Proof.Proofs

open Sys2Proof Sys2Proof.Machine

/-! ### Stream slots -/

theorem stream_putStream (s : State) (k : Nat) (x : StreamX) : (s.putStream k x).stream k = x := by
  unfold State.putStream State.stream
  rw [aget_aput_same]
  rfl

theorem stream_putStream_ne {j k : Nat} (h : j ≠ k) (s : State) (x : StreamX) : (s.putStream k x).stream j = s.stream j := by
  unfold State.putStream State.stream
  rw [aget_aput_ne _ _ h]

theorem stream_congr {s t : State} (h : t.cfg.streams = s.cfg.streams) (k : Nat) : t.stream k = s.stream k := by
  unfold State.stream
  rw [h]

/-- The slot after a packet of a block: the packet lies behind it and joins the open block. -/
def behind (x : StreamX) (typ : Nat) (h : PktHdr) (data : List Byte) : StreamX :=
  { x with at_ := x.at_ + 16 + data.length, prev := typ, block := List.append x.block (List.append (h.bytes typ) data) }

section
variable {s : State} {k typ : Nat} {h : PktHdr} {data : List Byte}

/-- A packet that its slot takes, and that nothing else forbids, is acted on. -/
theorem packet_ok (ok : PacketOk s k typ h data) {bad : StreamX → Bool} (hb : bad (s.stream k) = false) (f : State → StreamX → State) :
    s.packet k typ h data bad f = f s (if typ = 1 ∨ typ = 14 ∨ typ = 15 then
      { s.stream k with at_ := (s.stream k).at_ + 16 + data.length, prev := typ } else behind (s.stream k) typ h data) := by
  obtain ⟨hr, hw, he, hp, ho, hl⟩ := ok
  unfold State.packet
  rw [if_neg (by simp [hr, hw]; omega), if_neg (by simp [hp, ho]), if_neg (by simp [hl]), if_neg (by simp [hb]), if_neg (by omega)]
  rfl

theorem packet_block (ok : PacketOk s k typ h data) (ht : ¬ (typ = 1 ∨ typ = 14 ∨ typ = 15)) {bad : StreamX → Bool}
    (hb : bad (s.stream k) = false) (f : State → StreamX → State) :
    s.packet k typ h data bad f = f s (behind (s.stream k) typ h data) := by
  rw [packet_ok ok hb, if_neg ht]

/-- A packet is taken whatever it adds to what the stream has brought. -/
theorem packetTaken (v : State) (hv : v.regs = s.regs) (g : StreamGot) :
    PacketTaken s (v.putStream k { behind (s.stream k) typ h data with got := g }) k typ h data := by
  unfold PacketTaken
  rw [stream_putStream]
  exact ⟨rfl, rfl, rfl, .of_eq hv⟩

theorem takePacket_applies (v : State) {x : StreamX} (ha : v.applies x h = true) (g : StreamGot → StreamGot) :
    v.takePacket k x h g = v.putStream k { x with got := { g x.got with applied := true } } := by
  unfold State.takePacket
  rw [if_pos ha]

theorem takePacket_passes (v : State) {x : StreamX} (ha : v.applies x h = false) (g : StreamGot → StreamGot) :
    v.takePacket k x h g = v.putStream k x := by
  unfold State.takePacket
  rw [if_neg (by simp [ha])]

/-- A packet of a block that applies: the bytes join the block, what it carries joins what the stream has brought. -/
theorem block_applies (ok : PacketOk s k typ h data) (ht : ¬ (typ = 1 ∨ typ = 14 ∨ typ = 15)) (ha : s.applies (s.stream k) h = true)
    {bad : StreamX → Bool} (hb : bad (s.stream k) = false) (g : StreamGot → StreamGot) : ∃ t,
    s.packet k typ h data bad (fun s x => s.takePacket k x h g) = t ∧ PacketTaken s t k typ h data ∧
    (t.stream k).got = { g (s.stream k).got with applied := true } ∧ SameMem s t := by
  refine ⟨_, (packet_block ok ht hb _).trans (takePacket_applies s (x := behind (s.stream k) typ h data) ha g), packetTaken s rfl _, ?_, .of_eq rfl rfl⟩
  rw [stream_putStream]
  rfl

end

/-! ### A stream that is rejected -/

theorem loadDone_keeps {γ : Type} (f : State → γ) (hg : ∀ (s : State) q g, f (s.modQp q g) = f s) (hh : ∀ (s : State) g, f (s.modHut g) = f s)
    (s : State) (c : Ctx) (cls code detail : Nat) : f (s.loadDone c cls code detail none) = f s := by
  have hc : ∀ (s : State) c op cls code res det, f (s.complete c op cls code res det) = f s := fun s c op cls code res det => by
    unfold State.complete
    dsimp only
    split
    · rfl
    · exact hg ..
  unfold State.loadDone
  exact (foldl_keep f (fun s (w : Ctx × RunOps) => s.status w.1 opRun stNotFound) (fun s w => hc ..) _ _).trans ((hh ..).trans (hc ..))

/-- The words of a slot as its stream ends. -/
def endWords (s : State) (k outcome reason : Nat) : State :=
  let x := s.stream k
  let s := s.wrs 0 k [(F.CFG_STREAM_STATE, 3), (F.CFG_STREAM_OUTCOME, outcome), (F.CFG_STREAM_REASON, reason)]
  if x.wait then s else s.wr F.CFG_STREAM_RESUMABLE 0 k (k != 16 && x.hdr.isSome && !x.wait).toNat

theorem endWords_ended (s : State) {k outcome reason : Nat} (ho : outcome < 8) (hr : reason < 32) :
    Ended (endWords s k outcome reason) k outcome reason ∧ SameRegs s (endWords s k outcome reason) (oneReg .CFG_STREAM 0 k) := by
  have hs : SameRegs s (s.wrs 0 k [(F.CFG_STREAM_STATE, 3), (F.CFG_STREAM_OUTCOME, outcome), (F.CFG_STREAM_REASON, reason)]) (oneReg .CFG_STREAM 0 k) :=
    (Frame.wrs s (by simp [oneReg, F.CFG_STREAM_STATE, F.CFG_STREAM_OUTCOME, F.CFG_STREAM_REASON])).2
  have he : Ended (s.wrs 0 k [(F.CFG_STREAM_STATE, 3), (F.CFG_STREAM_OUTCOME, outcome), (F.CFG_STREAM_REASON, reason)]) k outcome reason := by
    unfold Ended
    simp (disch := decide) only [State.wrs, List.foldl, State.rd_wr_self, State.rd_wr_other]
    exact ⟨rfl, Nat.mod_eq_of_lt ho, Nat.mod_eq_of_lt hr⟩
  unfold endWords
  dsimp only
  generalize s.wrs 0 k [(F.CFG_STREAM_STATE, 3), (F.CFG_STREAM_OUTCOME, outcome), (F.CFG_STREAM_REASON, reason)] = v at hs he ⊢
  split
  · exact ⟨he, hs⟩
  · refine ⟨?_, hs.wr _ ⟨rfl, rfl, rfl⟩⟩
    unfold Ended
    simp (disch := decide) only [State.rd_wr_other]
    exact he

/-- A stream's end before its LOAD completes: the words, the count, and what came after the last passed SYNC is dropped (R417). -/
def endCut (s : State) (k outcome reason : Nat) : State :=
  ((endWords s k outcome reason).count C.CFG_CNT_STREAM_FAIL).modStream k (fun x => { x with load := none, got := x.kept, block := [], sig := none })

/-- A stream's end but for the release of the claim. -/
theorem endStream_cut (s : State) (k outcome reason : Nat) : ∃ v, s.endStream k outcome reason = (if k = 16 then v.releaseClaim else v) ∧
    (v = endCut s k outcome reason ∨ ∃ c cls code det, v = (endCut s k outcome reason).loadDone c cls code det none) := by
  unfold State.endStream
  extract_lets x keep s1 s2 s3 s4
  refine ⟨s4, rfl, ?_⟩
  show s4 = s3 ∨ ∃ c cls code det, s4 = s3.loadDone c cls code det none
  unfold s4
  split
  · exact .inr ⟨_, _, _, _, rfl⟩
  · exact .inl rfl

/-- What a stream's end keeps. -/
theorem endStream_keeps {γ : Type} (f : State → γ) {k : Nat} (hw : ∀ (s : State) g n, g.reg = .CFG_STREAM → f (s.wr g 0 k n) = f s)
    (hc : ∀ (s : State) c b n, f (s.count c b n) = f s) (hs : ∀ (s : State) x, f (s.putStream k x) = f s)
    (hg : ∀ (s : State) q g, f (s.modQp q g) = f s) (hh : ∀ (s : State) g, f (s.modHut g) = f s)
    (hr : k = 16 → ∀ s : State, f s.releaseClaim = f s) (s : State) (outcome reason : Nat) : f (s.endStream k outcome reason) = f s := by
  have h1 : f (endWords s k outcome reason) = f s := by
    have hv : f (s.wrs 0 k [(F.CFG_STREAM_STATE, 3), (F.CFG_STREAM_OUTCOME, outcome), (F.CFG_STREAM_REASON, reason)]) = f s :=
      (hw _ _ _ rfl).trans ((hw _ _ _ rfl).trans (hw _ _ _ rfl))
    unfold endWords
    dsimp only
    split
    · exact hv
    · exact (hw _ _ _ rfl).trans hv
  have h2 : f (endCut s k outcome reason) = f s := (hs _ _).trans ((hc _ _ _ _).trans h1)
  obtain ⟨v, hv, h⟩ := endStream_cut s k outcome reason
  have h3 : f v = f s := by
    obtain rfl | ⟨c, cls, code, det, rfl⟩ := h
    · exact h2
    · exact (loadDone_keeps f hg hh ..).trans h2
  rw [hv]
  split
  · next h16 => exact (hr h16 v).trans h3
  · exact h3

/-- A section slot's stream ends: its words say so, and no other register changes. -/
theorem endStream_regs (s : State) {k : Nat} (hk : k ≠ 16) (outcome reason : Nat) :
    (s.endStream k outcome reason).regs = (endWords s k outcome reason).regs := by
  obtain ⟨v, hv, h⟩ := endStream_cut s k outcome reason
  rw [hv, if_neg hk]
  obtain rfl | ⟨c, cls, code, det, rfl⟩ := h
  · rfl
  · exact loadDone_keeps State.regs (fun _ _ _ => rfl) (fun _ _ => rfl) ..

theorem endStream_ended (s : State) {k outcome reason : Nat} (hk : k < 16) (ho : outcome < 8) (hr : reason < 32) :
    Ended (s.endStream k outcome reason) k outcome reason ∧ SameMem s (s.endStream k outcome reason) := by
  refine ⟨?_, .of_mems (by simp)⟩
  have e := rd_of_regs (endStream_regs s (show k ≠ 16 by omega) outcome reason)
  unfold Ended
  rw [e, e, e]
  exact (endWords_ended s ho hr).1

/-! ### Packets of a block -/

section
variable {s : State} {slot : SlotNo} {h : PktHdr}

theorem nopTaken {data : List Byte} (ok : PacketOk s slot.toNat 0 h data) : Done (.nopPacket slot h data) s (fun t =>
    PacketTaken s t slot.toNat 0 h data ∧ (t.stream slot.toNat).got.parts = (s.stream slot.toNat).got.parts ∧ SameMem s t) := by
  refine .next (congrArg Host.Outcome.next (packet_block ok (by decide) rfl _)) ⟨packetTaken s rfl _, ?_, .of_eq rfl rfl⟩
  rw [stream_putStream]
  rfl

theorem imageTaken {data : List Byte} (ok : PacketOk s slot.toNat 9 h data) :
    let x := s.stream slot.toNat
    (s.applies x h = true → Done (.image slot h data) s (fun t => PacketTaken s t slot.toNat 9 h data ∧
      aget (t.stream slot.toNat).got.parts h.arg.toNat = some (List.append ((aget x.got.parts h.arg.toNat).getD []) data) ∧
      (t.stream slot.toNat).got.applied = true ∧ SameMem s t)) ∧
    (s.applies x h = false → Done (.image slot h data) s (fun t => PacketTaken s t slot.toNat 9 h data ∧
      (t.stream slot.toNat).got = x.got ∧ SameMem s t)) := by
  intro x
  refine ⟨fun ha => ?_, fun ha => ?_⟩
  · obtain ⟨t, ht, hp, hg, hm⟩ := block_applies ok (by decide) ha (bad := fun _ => false) rfl (fun g =>
      let again := (aget g.parts h.arg.toNat).isSome && g.lastPart != some h.arg.toNat
      { g with parts := aput g.parts h.arg.toNat (List.append ((aget g.parts h.arg.toNat).getD []) data), lastPart := some h.arg.toNat,
               badParts := g.badParts || again || decide (h.arg.toNat = 1) || decide (h.arg.toNat > 8) })
    refine .next (congrArg Host.Outcome.next ht) ⟨hp, ?_, ?_, hm⟩
    · rw [hg]
      exact aget_aput_same ..
    · rw [hg]
  · refine .next (congrArg Host.Outcome.next ((packet_block ok (by decide) rfl _).trans
      (takePacket_passes s (x := behind x 9 h data) ha _))) ⟨packetTaken s rfl _, ?_, .of_eq rfl rfl⟩
    rw [stream_putStream]
    rfl

theorem wregTaken {recs : List (Word × Word)} :
    let x := s.stream slot.toNat
    let data := recs.flatMap (fun r => List.append (leBytes r.1.toNat 8) (leBytes r.2.toNat 8))
    PacketOk s slot.toNat 4 h data → s.applies x h = true → x.got.wregLen + data.length ≤ 65536 →
      (∀ r ∈ recs, 0x01FF00000000 ≤ r.1.toNat ∧ r.1.toNat ≤ 0x01FFFFFFFFFF ∧ r.1.toNat % 8 = 0) →
      Done (.wreg slot h recs) s (fun t => PacketTaken s t slot.toNat 4 h data ∧
        (t.stream slot.toNat).got.wregs = List.append x.got.wregs recs ∧ SameMem s t) := by
  intro x data ok ha hl hr
  have hbad : recs.any (fun r => decide (r.1.toNat < 0x01FF00000000) || decide (0x01FFFFFFFFFF < r.1.toNat) || r.1.toNat % 8 != 0) = false := by
    rw [List.any_eq_false]
    intro r hm
    obtain ⟨h1, h2, h3⟩ := hr r hm
    simp [h3]
    omega
  obtain ⟨t, ht, hp, hg, hm⟩ := block_applies ok (by decide) ha (bad := fun x =>
      recs.any (fun r => decide (r.1.toNat < 0x01FF00000000) || decide (0x01FFFFFFFFFF < r.1.toNat) || r.1.toNat % 8 != 0) ||
      (s.applies x h && decide (x.got.wregLen + data.length > 65536))) (by simp [hbad]; exact fun _ => hl)
    (fun g => { g with wregLen := g.wregLen + data.length, wregs := List.append g.wregs recs, fwLast := false })
  exact .next (congrArg Host.Outcome.next ht) ⟨hp, by rw [hg], hm⟩

theorem startSeqTaken {codes : List Byte} (ok : PacketOk s slot.toNat 5 h codes) (ha : s.applies (s.stream slot.toNat) h = true)
    (hs : (s.stream slot.toNat).got.sawSeq = false) : Done (.startSeq slot h codes) s (fun t =>
      PacketTaken s t slot.toNat 5 h codes ∧ (t.stream slot.toNat).got.codes = some codes ∧ SameMem s t) := by
  obtain ⟨t, ht, hp, hg, hm⟩ := block_applies ok (by decide) ha (bad := fun x => s.applies x h && x.got.sawSeq) (by simp [hs])
    (fun g => { g with sawSeq := true, codes := some codes, fwLast := false })
  exact .next (congrArg Host.Outcome.next ht) ⟨hp, by rw [hg], hm⟩

/-- Image bytes placed into Hut code memory. -/
def codeAdded (s : State) (data : List Byte) : State := { s with cfg := { s.cfg with firmware := List.append s.cfg.firmware data } }

theorem firmwareTaken {data : List Byte} (ok : PacketOk s slot.toNat 2 h data) (ha : s.applies (s.stream slot.toNat) h = true)
    (hs : (s.stream slot.toNat).got.fwsig = none) (ho : h.arg.toNat = (s.stream slot.toNat).got.fwLen) (hl : h.arg.toNat + data.length ≤ 8388608) :
    Done (.firmware slot h data) s (fun t => PacketTaken s t slot.toNat 2 h data ∧
      t.cfg.firmware = List.append s.cfg.firmware data ∧
      (t.stream slot.toNat).got.fwLen = (s.stream slot.toNat).got.fwLen + data.length ∧ SameMem s t) := by
  have hb : (s.applies (s.stream slot.toNat) h && ((s.stream slot.toNat).got.fwsig.isSome || h.arg.toNat != (s.stream slot.toNat).got.fwLen ||
      decide (h.arg.toNat + data.length > 8388608))) = false := by
    simp [hs, ho]
    omega
  have hp := packet_block ok (by decide) (bad := fun x => s.applies x h && (x.got.fwsig.isSome || h.arg.toNat != x.got.fwLen ||
    decide (h.arg.toNat + data.length > 8388608))) hb (fun v x =>
      (if v.applies x h then codeAdded v data else v).takePacket slot.toNat x h (fun g => { g with fwLen := g.fwLen + data.length, fwLast := true }))
  have ha' : s.applies (behind (s.stream slot.toNat) 2 h data) h = true := ha
  rw [if_pos ha', takePacket_applies (codeAdded s data) (x := behind (s.stream slot.toNat) 2 h data) ha] at hp
  refine .next (congrArg Host.Outcome.next hp) ⟨packetTaken (codeAdded s data) rfl _, rfl, ?_, .of_eq rfl rfl⟩
  rw [stream_putStream]
  rfl

theorem fwsigTaken {pk sg : List Byte} (hk : pk.length = 64) (ok : PacketOk s slot.toNat 3 h (List.append pk sg))
    (ha : s.applies (s.stream slot.toNat) h = true) (hs : (s.stream slot.toNat).got.fwsig = none) (hf : (s.stream slot.toNat).got.fwLast = true) :
    Done (.fwsig slot h pk sg) s (fun t => PacketTaken s t slot.toNat 3 h (List.append pk sg) ∧
      (t.stream slot.toNat).got.fwsig = some (pk, sg) ∧ SameMem s t) := by
  obtain ⟨t, ht, hp, hg, hm⟩ := block_applies ok (by decide) ha (bad := fun x => s.applies x h && (x.got.fwsig.isSome || !x.got.fwLast))
    (by simp [hs, hf]) (fun g => { g with fwsig := some (pk, sg), fwLast := false })
  exact .next (congrArg Host.Outcome.next ((if_neg (by simp [hk])).trans ht)) ⟨hp, by rw [hg], hm⟩

/-- A frame of a stream that a LOAD receives goes to the receipt area, if there is room (R412). -/
def frameReceived (s : State) (x : StreamX) (h : PktHdr) (data : List Byte) : State :=
  match x.load with
  | some (_, o) =>
    if s.applies x h && decide (256 * (x.got.frames.length + 1) ≤ o.receiptLen.toNat) then
      s.extWrites .config (o.receipt.toNat + 256 * x.got.frames.length)
        ((List.range 32).map (fun i => ⟨BitVec.ofNat 64 (leNat ((data.drop (8 * i)).take 8)), 0, 0⟩))
    else s
  | none => s

theorem frameReceived_keeps {γ : Type} (f : State → γ) (hm : ∀ (s : State) m, f { s with memc := m } = f s)
    (hs : ∀ (s : State) m p y, f { s with mem := m, poison := p, synd := y } = f s) (hc : ∀ (s : State) c b n, f (s.count c b n) = f s)
    (s : State) (x : StreamX) (h : PktHdr) (data : List Byte) : f (frameReceived s x h data) = f s := by
  unfold frameReceived
  split
  · split
    · exact extWrites_keeps f hm hs hc ..
    · rfl
  · rfl

theorem frameReceived_none (s : State) {x : StreamX} (hx : x.load = none) (h : PktHdr) (data : List Byte) : frameReceived s x h data = s := by
  unfold frameReceived
  rw [hx]

theorem execFrame_eq (data : List Byte) : execFrame slot h data s = .next (s.packet slot.toNat 8 h data (fun _ => false) (fun s x =>
    if (crc32c (List.append (leBytes (h.arg.toNat % 2 ^ 32) 4) data)).toNat ≠ h.arg.toNat / 2 ^ 32 then s.reject slot.toNat 18
    else (frameReceived s x h data).takePacket slot.toNat x h
      (fun g => { g with frames := List.append g.frames [(h.arg.toNat % 2 ^ 32, data)], lastPart := none }))) := by
  refine congrArg (fun f => Host.Outcome.next (s.packet slot.toNat 8 h data (fun _ => false) f)) (funext fun v => funext fun x => ?_)
  unfold frameReceived
  cases x.load <;> rfl

theorem frameTaken {data : List Byte} (ok : PacketOk s slot.toNat 8 h data) :
    let a := h.arg.toNat % 2 ^ 32
    let x := s.stream slot.toNat
    ((crc32c (List.append (leBytes a 4) data)).toNat = h.arg.toNat / 2 ^ 32 → s.applies x h = true →
      Done (.frame slot h data) s (fun t => PacketTaken s t slot.toNat 8 h data ∧
        (t.stream slot.toNat).got.frames = List.append x.got.frames [(a, data)] ∧ (x.load = none → SameMem s t))) ∧
    ((crc32c (List.append (leBytes a 4) data)).toNat ≠ h.arg.toNat / 2 ^ 32 → slot.toNat < 16 →
      Done (.frame slot h data) s (fun t => Ended t slot.toNat 5 18 ∧ SameMem s t)) := by
  intro a x
  have hex : exec (.frame slot h data) s = execFrame slot h data s := rfl
  refine ⟨fun hcrc ha => ?_, fun hcrc hk => ?_⟩
  · rw [execFrame_eq, packet_block ok (by decide) rfl, if_neg (not_not.2 hcrc)] at hex
    have hr := frameReceived_keeps State.regs (fun _ _ => rfl) (fun _ _ _ _ => rfl) (fun _ _ _ _ => rfl) s (behind x 8 h data) h data
    have hn : x.load = none → frameReceived s (behind x 8 h data) h data = s := fun hx => frameReceived_none s hx h data
    rw [takePacket_applies (frameReceived s (behind x 8 h data) h data) (x := behind x 8 h data)
      (by unfold State.applies at ha ⊢; rw [rd_of_regs hr]; exact ha)] at hex
    generalize frameReceived s (behind x 8 h data) h data = v at hr hn hex
    refine .next hex ⟨packetTaken v hr _, ?_, fun hx => ?_⟩
    · rw [stream_putStream]
      rfl
    · rw [hn hx]
      exact .of_eq rfl rfl
  · rw [execFrame_eq, packet_block ok (by decide) rfl, if_pos hcrc] at hex
    exact .next hex (endStream_ended s hk (by decide) (by decide))

end

/-- Settles O36, packet by packet. -/
theorem streamPacketsAreTaken : Obligations.StreamPacketsAreTaken := by
  intro s slot h k x
  exact ⟨fun _ => nopTaken, fun _ => imageTaken, fun _ => wregTaken, fun _ => startSeqTaken, fun _ => firmwareTaken,
    fun _ _ hk ok => fwsigTaken hk ok, fun _ => frameTaken⟩

end Sys2Proof.Proofs
end

section
/-! PROOF. Streams begin, end their blocks and end (R396, R397, R402 to R405, R408, R414, R416, R417). -/

namespace Sys2Proof.Proofs

open Sys2Proof Sys2Proof.Machine

/-! ### The end of a block and of a stream -/

section
variable {s : State} {slot : SlotNo} {h : PktHdr}

/-- A block received: its count and its end (R402). -/
def blockCounted (s : State) (k : Nat) (at_ : Nat) : State :=
  (s.wr F.CFG_STREAM_BLOCK 0 k ((s.rd F.CFG_STREAM_BLOCK 0 k + 1) % 65536)).wr F.CFG_STREAM_SYNC_OFFSET 0 k at_

theorem blockCounted_shows (s : State) (k at_ : Nat) : (blockCounted s k at_).rd F.CFG_STREAM_BLOCK 0 k = (s.rd F.CFG_STREAM_BLOCK 0 k + 1) % 65536 ∧
    (blockCounted s k at_).rd F.CFG_STREAM_SYNC_OFFSET 0 k = at_ % 2 ^ 48 ∧
    Frame s (blockCounted s k at_) (fun r c i => oneReg .CFG_STREAM 0 k r c i ∨ oneReg .CFG_STREAM_SYNC 0 k r c i) := by
  unfold blockCounted
  generalize s.rd F.CFG_STREAM_BLOCK 0 k + 1 = b
  refine ⟨?_, State.rd_wr_self _ _ _ _ _ (by decide), ⟨.of_eq rfl rfl, ?_⟩⟩
  · rw [State.rd_wr_other _ _ _ _ _ _ (by decide), State.rd_wr_self _ _ _ _ _ (by decide)]
    exact Nat.mod_mod ..
  · exact ((SameRegs.refl s _).wr (f := F.CFG_STREAM_BLOCK) _ (.inl ⟨rfl, rfl, rfl⟩)).wr (f := F.CFG_STREAM_SYNC_OFFSET) _ (.inr ⟨rfl, rfl, rfl⟩)

/-- The tag that a block needs (R404, R405). -/
def blockTag (s : State) (k : Nat) (h : PktHdr) (hd : StreamHdr) : BitVec 128 :=
  Config.gcmTag ((s.stream k).key.getD 0) (List.append (leBytes hd.ivBase.toNat 8) (leBytes (s.rd F.CFG_STREAM_BLOCK 0 k) 4))
    (List.append hd.bytes (h.bytes 1)) (s.stream k).block

/-- What a stream has brought, as a SYNC leaves it. -/
def gotAtSync (g : StreamGot) : StreamGot := { g with fwLast := false, lastPart := none }

/-- The bytes that the signature covers, with one block more (R408). -/
def sentWith (s : State) (k : Nat) (h : PktHdr) (hd : StreamHdr) (tag : BitVec 128) : List Byte :=
  List.flatten [(s.stream k).sent, if hd.flags.getLsbD 0 then Config.gcmCipher ((s.stream k).key.getD 0)
    (List.append (leBytes hd.ivBase.toNat 8) (leBytes (s.rd F.CFG_STREAM_BLOCK 0 k) 4)) (s.stream k).block else (s.stream k).block,
    h.bytes 1, leBytes tag.toNat 16]

/-- The slot after a block that is received. -/
def blockTaken (x : StreamX) (sent : List Byte) : StreamX :=
  { x with at_ := x.at_ + 32, prev := 1, sent := sent, block := [], blockStart := x.at_ + 32, got := gotAtSync x.got, kept := gotAtSync x.got }

theorem sync_eq {tag : BitVec 128} (ok : PacketOk s slot.toNat 1 h (leBytes (BitVec.toNat tag) 16)) {hd : StreamHdr}
    (hx : (s.stream slot.toNat).hdr = some hd) : exec (.sync slot h tag) s = .next (
      if (hd.flags.getLsbD 0 && blockTag s slot.toNat h hd != tag) = true then s.reject slot.toNat 17
      else (blockCounted s slot.toNat ((s.stream slot.toNat).at_ + 32)).putStream slot.toNat
        (blockTaken (s.stream slot.toNat) (sentWith s slot.toNat h hd tag))) := by
  refine congrArg Host.Outcome.next ((packet_ok ok rfl _).trans ?_)
  unfold blockTaken
  rw [if_pos (.inl rfl), length_leBytes]
  dsimp only
  rw [hx]
  rfl

theorem blocksEnd {tag : BitVec 128} {hd : StreamHdr} (ok : PacketOk s slot.toNat 1 h (leBytes (BitVec.toNat tag) 16))
    (hx : (s.stream slot.toNat).hdr = some hd) :
    let k := slot.toNat
    let x := s.stream k
    let b := s.rd F.CFG_STREAM_BLOCK 0 k
    let good := blockTag s k h hd = tag
    ((hd.flags.getLsbD 0 = false ∨ good) → Done (.sync slot h tag) s (fun t =>
      t.rd F.CFG_STREAM_BLOCK 0 k = (b + 1) % 65536 ∧ t.rd F.CFG_STREAM_SYNC_OFFSET 0 k = (x.at_ + 32) % 2 ^ 48 ∧
      (t.stream k).at_ = x.at_ + 32 ∧ (t.stream k).block = [] ∧ (t.stream k).prev = 1 ∧
      (t.stream k).kept = (t.stream k).got ∧
      Frame s t (fun r c i => oneReg .CFG_STREAM 0 k r c i ∨ oneReg .CFG_STREAM_SYNC 0 k r c i))) ∧
    (hd.flags.getLsbD 0 = true → ¬ good → k < 16 → Done (.sync slot h tag) s (fun t => Ended t k 5 17 ∧ SameMem s t)) := by
  intro k x b good
  have hex := sync_eq ok hx
  refine ⟨fun hg => ?_, fun he hg hk => ?_⟩
  · have hno : (hd.flags.getLsbD 0 && blockTag s slot.toNat h hd != tag) = false := by
      obtain e | e := hg
      · rw [e]
        rfl
      · rw [show blockTag s slot.toNat h hd = tag from e]
        simp
    rw [hno, if_neg (by decide)] at hex
    obtain ⟨h1, h2, hm, hr⟩ := blockCounted_shows s k (x.at_ + 32)
    refine .next hex ?_
    rw [stream_putStream]
    exact ⟨(rd_of_regs rfl ..).trans h1, (rd_of_regs rfl ..).trans h2, rfl, rfl, rfl, rfl, hm.trans (.of_eq rfl rfl), hr.trans (.of_eq rfl)⟩
  · have hbad : (hd.flags.getLsbD 0 && blockTag s slot.toNat h hd != tag) = true := by
      rw [he, Bool.true_and, bne_iff_ne]
      exact hg
    rw [hbad, if_pos rfl] at hex
    exact .next hex (endStream_ended s hk (by decide) (by decide))

theorem signatureKept {pk sg : List Byte} (hk : pk.length = 64) (ok : PacketOk s slot.toNat 14 h (List.append pk sg)) :
    Done (.signature slot h pk sg) s (fun t => (t.stream slot.toNat).sig = some (pk, sg) ∧ (t.stream slot.toNat).prev = 14 ∧
      (t.stream slot.toNat).block = (s.stream slot.toNat).block ∧ Frame s t noReg) := by
  refine .next (congrArg Host.Outcome.next ((if_neg (by simp [hk])).trans (packet_ok ok rfl _))) ?_
  rw [if_pos (.inr (.inl rfl)), stream_putStream]
  exact ⟨rfl, rfl, rfl, .of_eq rfl rfl rfl⟩

theorem endPacketTaken (ok : PacketOk s slot.toNat 15 h []) : Done (.streamEndPacket slot h) s (fun t =>
    t.rd F.CFG_STREAM_STATE 0 slot.toNat = 2 ∧ Frame s t (oneReg .CFG_STREAM 0 slot.toNat)) := by
  refine .next (congrArg Host.Outcome.next (packet_ok ok rfl _)) ⟨State.rd_wr_self _ _ _ _ _ (by decide), ?_⟩
  exact ⟨.of_eq rfl rfl, (SameRegs.of_eq rfl).wr (f := F.CFG_STREAM_STATE) _ ⟨rfl, rfl, rfl⟩⟩

/-! ### Verification -/

theorem signatureVerified_eq {hd : StreamHdr} (hst : s.rd F.CFG_STREAM_STATE 0 slot.toNat = 2) (hx : (s.stream slot.toNat).hdr = some hd) :
    exec (.signatureVerified slot) s = .next (if s.sigWhy slot.toNat hd (s.stream slot.toNat) ≠ 0
      then s.reject slot.toNat (s.sigWhy slot.toNat hd (s.stream slot.toNat)) else s.passStream slot.toNat) := by
  refine congrArg Host.Outcome.next ((if_neg (not_not.2 hst)).trans ?_)
  rw [hx]

theorem sigWhy_lt (s : State) (k : Nat) (hd : StreamHdr) (x : StreamX) : s.sigWhy k hd x < 32 := by
  unfold State.sigWhy
  dsimp only
  split <;> (repeat' split) <;> omega

/-- The words of a slot whose stream passed every check (R417). -/
def passWords (s : State) (k oc : Nat) : State :=
  (s.wrs 0 k [(F.CFG_STREAM_STATE, 3), (F.CFG_STREAM_OUTCOME, oc), (F.CFG_STREAM_REASON, 0)]).count C.CFG_CNT_STREAM_OK

theorem passWords_ended (s : State) (k : Nat) {oc : Nat} (h : oc < 8) : Ended (passWords s k oc) k oc 0 := by
  have e : (passWords s k oc).regs = (s.wrs 0 k [(F.CFG_STREAM_STATE, 3), (F.CFG_STREAM_OUTCOME, oc), (F.CFG_STREAM_REASON, 0)]).regs :=
    State.count_regs ..
  unfold Ended
  simp (disch := decide) only [rd_of_regs e, State.wrs, List.foldl, State.rd_wr_self, State.rd_wr_other]
  exact ⟨rfl, Nat.mod_eq_of_lt h, rfl⟩

theorem passStream_applied {s : State} {k : Nat} (ha : (s.stream k).got.applied = true) :
    s.passStream k = if k = 16 then (passWords s k 1).startUp (s.stream k).got else passWords s k 1 := by
  unfold State.passStream
  extract_lets x oc u w
  have hoc : oc = 1 := if_pos ha
  clear_value oc
  subst hoc
  rw [if_pos ha]
  unfold u passWords
  with_reducible rfl

theorem passStream_skipped {s : State} {k : Nat} (ha : (s.stream k).got.applied = false) :
    (s.passStream k).regs = (passWords s k 2).regs := by
  have hn : ¬ (s.stream k).got.applied = true := by rw [ha]; decide
  unfold State.passStream
  extract_lets x oc u w
  have hoc : oc = 2 := if_neg hn
  clear_value oc
  subst hoc
  rw [if_neg hn]
  have hw : w.regs = (passWords s k 2).regs := by
    unfold w u passWords
    exact rfl
  clear_value w
  rw [← hw]
  split
  · exact loadDone_keeps State.regs (fun _ _ _ => rfl) (fun _ _ => rfl) ..
  · with_reducible rfl

theorem passStream_section {k : Nat} (hk : k < 16) : Ended (s.passStream k) k (if (s.stream k).got.applied then 1 else 2) 0 := by
  have e : (s.passStream k).regs = (passWords s k (if (s.stream k).got.applied then 1 else 2)).regs := by
    by_cases ha : (s.stream k).got.applied = true
    · rw [passStream_applied ha, if_neg (by omega), if_pos ha]
    · rw [passStream_skipped (Bool.eq_false_iff.2 ha), if_neg ha]
  have he := passWords_ended s k (oc := if (s.stream k).got.applied then 1 else 2) (by split <;> decide)
  unfold Ended at he ⊢
  rw [rd_of_regs e, rd_of_regs e, rd_of_regs e]
  exact he

/-- The step codes of a stream (R421). -/
def codesOf (g : StreamGot) : List Nat :=
  match g.codes with
  | some l => seqCodes l
  | none => [1, 2, 3, 4, 5, 6, 7]

/-- The codes that CFG_STARTUP shows. -/
def shownCodes (s : State) (l : List Nat) : State := (List.range 15).foldl (fun s i => s.wr (F.CFG_STARTUP_STEP.at 4 i) 0 0 (l.getD i 0 % 16)) s

/-- The device as its start-up begins (R421, R424). -/
def started (s : State) (g : StreamGot) : State :=
  { s with cfg := { s.cfg with stepsLeft := seqRun (codesOf g) [1], startedAt := s.time, wregs := g.wregs } }

theorem startUp_eq (s : State) (g : StreamGot) : s.startUp g = ((started (shownCodes s (codesOf g)) g).wr F.CFG_DEV_STATE_STATE 0 0 3).showStep := by
  unfold State.startUp
  extract_lets codes v w z
  have hc : codes = codesOf g := by
    unfold codes codesOf
    cases g.codes <;> rfl
  unfold z w v shownCodes started
  clear_value codes
  rw [hc]

theorem startUp_starts (s : State) (g : StreamGot) (k : Nat) : let t := s.startUp g
    t.rd F.CFG_STREAM_OUTCOME 0 k = s.rd F.CFG_STREAM_OUTCOME 0 k ∧ t.rd F.CFG_DEV_STATE_STATE = 3 ∧ t.cfg.stepsLeft = seqRun (codesOf g) [1] := by
  intro t
  have ht : t = _ := startUp_eq s g
  rw [ht]
  unfold State.showStep
  refine ⟨?_, ?_, rfl⟩
  · rw [State.rd_wr_other _ _ _ _ _ _ (by decide), State.rd_wr_other _ _ _ _ _ _ (by decide)]
    refine (rd_of_regs (s := shownCodes s (codesOf g)) rfl _ _ _).trans ?_
    exact foldl_keep (fun s => s.rd F.CFG_STREAM_OUTCOME 0 k) _ (fun s i => State.rd_wr_other _ _ _ _ _ _ (.inl (fun e => by cases e))) _ _
  · rw [State.rd_wr_other _ _ _ _ _ _ (by decide), State.rd_wr_self _ _ _ _ _ (by decide)]
    rfl

theorem verificationEnds {hd : StreamHdr} (hst : s.rd F.CFG_STREAM_STATE 0 slot.toNat = 2) (hx : (s.stream slot.toNat).hdr = some hd) :
    let k := slot.toNat
    let x := s.stream k
    (s.sigWhy k hd x ≠ 0 → k < 16 → Done (.signatureVerified slot) s (fun t => Ended t k 5 (s.sigWhy k hd x) ∧ SameMem s t)) ∧
    (s.sigWhy k hd x = 0 → k < 16 → Done (.signatureVerified slot) s (fun t =>
      Ended t k (if x.got.applied then 1 else 2) 0 ∧ SameMem s t)) ∧
    (s.sigWhy k hd x = 0 → k = 16 → x.got.applied = true → Done (.signatureVerified slot) s (fun t =>
      t.rd F.CFG_STREAM_OUTCOME 0 16 = 1 ∧ t.rd F.CFG_DEV_STATE_STATE = 3 ∧ t.cfg.stepsLeft = seqRun (codesOf x.got) [1] ∧ SameMem s t)) := by
  intro k x
  have hex := signatureVerified_eq hst hx
  refine ⟨fun hw hk => ?_, fun hw hk => ?_, fun hw hk ha => ?_⟩
  · rw [if_pos hw] at hex
    exact .next hex (endStream_ended s hk (by decide) (sigWhy_lt ..))
  · rw [if_neg (not_not.2 hw)] at hex
    exact .next hex ⟨passStream_section hk, .of_mems (by simp)⟩
  · rw [if_neg (not_not.2 hw)] at hex
    have hm : SameMem s (s.passStream slot.toNat) := .of_mems (by simp)
    have hp := passStream_applied ha
    rw [if_pos hk] at hp
    obtain ⟨h1, h2, h3⟩ := startUp_starts (passWords s k 1) x.got k
    rw [← show s.passStream slot.toNat = _ from hp] at h1 h2 h3
    refine .next hex ⟨?_, h2, h3, hm⟩
    rw [← hk, h1]
    exact (passWords_ended s k (by decide)).2.1

end

theorem streamBlocksEnd : StreamBlocksEnd := by
  intro s slot h k x
  refine ⟨fun tag hd ok hx => blocksEnd ok hx, fun _ _ hk ok => signatureKept hk ok, endPacketTaken, fun hd hst hx => ?_⟩
  obtain ⟨h1, h2, h3⟩ := verificationEnds hst hx
  refine ⟨h1, h2, fun hw hk ha => ?_⟩
  obtain ⟨t, ht, ho, hs, hl, hm⟩ := h3 hw hk ha
  refine ⟨t, ht, ho, hs, hl.trans ?_, hm⟩
  unfold codesOf
  cases (s.stream slot.toNat).got.codes <;> rfl

/-! ### Headers -/

/-- What a header that makes the stream FOREIGN leaves in the slot's words (R397). -/
def foreignWords (s : State) (k reason : Nat) : State :=
  ((s.setWord .CFG_STREAM 0 k (s.stream k).old.1).setWord .CFG_STREAM_POS 0 k (s.stream k).old.2).wrs 0 k
    [(F.CFG_STREAM_OUTCOME, 3), (F.CFG_STREAM_REASON, reason)]

theorem foreignWords_shows (s : State) (k : Nat) {reason : Nat} (h : reason < 32) : let t := foreignWords s k reason
    t.rd F.CFG_STREAM_OUTCOME 0 k = 3 ∧ t.rd F.CFG_STREAM_REASON 0 k = reason ∧
    t.rd F.CFG_STREAM_STATE 0 k = fieldGet F.CFG_STREAM_STATE (s.stream k).old.1 := by
  intro t
  simp (disch := decide) only [t, foreignWords, State.wrs, List.foldl, State.rd_wr_self, State.rd_wr_other]
  refine ⟨rfl, Nat.mod_eq_of_lt h, ?_⟩
  unfold State.rd
  rw [State.word_setWord_ne _ _ (fun e => absurd e.1 (by decide))]
  exact congrArg _ (State.word_setWord_same ..)

theorem regs_modStream (s : State) (k : Nat) (g : StreamX → StreamX) : (s.modStream k g).regs = s.regs := rfl

theorem foreign_regs (s : State) (k reason : Nat) : (s.foreign k reason).regs = (foreignWords s k reason).regs := by
  unfold State.foreign
  extract_lets x v w
  have hw : w.regs = (foreignWords s k reason).regs := by
    unfold w v foreignWords
    exact (regs_modStream ..).trans (State.count_regs ..)
  rw [← hw]
  clear_value w
  split
  · exact loadDone_keeps State.regs (fun _ _ _ => rfl) (fun _ _ => rfl) ..
  · with_reducible rfl

theorem foreignWhy_lt (s : State) (x : StreamX) (h : StreamHdr) : s.foreignWhy x h < 32 := by
  unfold State.foreignWhy
  dsimp only
  (repeat' split) <;> omega

section
variable {s : State} {slot : SlotNo} {h : StreamHdr}

theorem streamHeader_eq (hr : s.receiving slot.toNat = true) (hw : (s.stream slot.toNat).wait = true) (he : 64 ≤ s.posE slot.toNat) :
    exec (.streamHeader slot h (s.stream slot.toNat).multicast) s = .next (
      if s.foreignWhy (s.stream slot.toNat) h ≠ 0 then s.foreign slot.toNat (s.foreignWhy (s.stream slot.toNat) h)
      else s.acceptHeader slot.toNat h) := by
  refine congrArg Host.Outcome.next (if_neg ?_)
  simp [hr, hw]
  omega

theorem foreignHeader (hr : s.receiving slot.toNat = true) (hw : (s.stream slot.toNat).wait = true) (he : 64 ≤ s.posE slot.toNat)
    (hf : s.foreignWhy (s.stream slot.toNat) h ≠ 0) : Done (.streamHeader slot h (s.stream slot.toNat).multicast) s (fun t =>
      t.rd F.CFG_STREAM_OUTCOME 0 slot.toNat = 3 ∧ t.rd F.CFG_STREAM_REASON 0 slot.toNat = s.foreignWhy (s.stream slot.toNat) h ∧
      t.rd F.CFG_STREAM_STATE 0 slot.toNat = fieldGet F.CFG_STREAM_STATE (s.stream slot.toNat).old.1 ∧ SameMem s t) := by
  have hex := streamHeader_eq (h := h) hr hw he
  rw [if_pos hf] at hex
  have e := rd_of_regs (foreign_regs s slot.toNat (s.foreignWhy (s.stream slot.toNat) h))
  refine .next hex ?_
  rw [e, e, e]
  obtain ⟨h1, h2, h3⟩ := foreignWords_shows s slot.toNat (foreignWhy_lt s (s.stream slot.toNat) h)
  exact ⟨h1, h2, h3, .of_mems (by simp)⟩

/-- The words of a slot that a header starts (R397). -/
def headWords (s : State) (k : Nat) (h : StreamHdr) : State :=
  ((s.wrs 0 k [(F.CFG_STREAM_STREAM_ID, h.id.toNat), (F.CFG_STREAM_RESUMABLE, 0)]).wr F.CFG_STREAM_BLOCK 0 k 0).wr F.CFG_STREAM_SYNC_OFFSET 0 k 0

/-- The slot of a stream that a header starts. -/
def startedStream (x : StreamX) (h : StreamHdr) (key : Option (BitVec 256)) : StreamX :=
  { x with wait := false, hdr := some h, key := key, from_ := 64, at_ := 64, blockStart := 64, block := [],
           sent := h.bytes, prev := 256, sig := none, got := StreamGot.reset, kept := StreamGot.reset }

/-- A slot that a header starts, with the key that its strap selects (R397, R406). -/
def headed (s : State) (k : Nat) (h : StreamHdr) (key : Option (BitVec 256)) : State :=
  (headWords s k h).putStream k (startedStream (s.stream k) h key)

theorem headWords_shows (s : State) (k : Nat) (h : StreamHdr) : let t := headWords s k h
    t.rd F.CFG_STREAM_STREAM_ID 0 k = h.id.toNat ∧ t.rd F.CFG_STREAM_BLOCK 0 k = 0 ∧ t.rd F.CFG_STREAM_SYNC_OFFSET 0 k = 0 ∧
    t.rd F.CFG_DEV_STATE_STATE = s.rd F.CFG_DEV_STATE_STATE ∧
    Frame s t (fun r c i => oneReg .CFG_STREAM 0 k r c i ∨ oneReg .CFG_STREAM_SYNC 0 k r c i) := by
  intro t
  have hv : SameRegs s (s.wrs 0 k [(F.CFG_STREAM_STREAM_ID, h.id.toNat), (F.CFG_STREAM_RESUMABLE, 0)])
      (fun r c i => oneReg .CFG_STREAM 0 k r c i ∨ oneReg .CFG_STREAM_SYNC 0 k r c i) :=
    (Frame.wrs s (by simp [oneReg, F.CFG_STREAM_STREAM_ID, F.CFG_STREAM_RESUMABLE])).2
  have hm : SameMem s t := .of_mems (by simp [t, headWords])
  have hid : (s.wrs 0 k [(F.CFG_STREAM_STREAM_ID, h.id.toNat), (F.CFG_STREAM_RESUMABLE, 0)]).rd F.CFG_STREAM_STREAM_ID 0 k = h.id.toNat := by
    simp (disch := decide) only [State.wrs, List.foldl, State.rd_wr_self, State.rd_wr_other]
    exact Nat.mod_eq_of_lt h.id.isLt
  have hdev : (s.wrs 0 k [(F.CFG_STREAM_STREAM_ID, h.id.toNat), (F.CFG_STREAM_RESUMABLE, 0)]).rd F.CFG_DEV_STATE_STATE = s.rd F.CFG_DEV_STATE_STATE := by
    simp (disch := decide) only [State.wrs, List.foldl, State.rd_wr_other]
  have ht : t = ((s.wrs 0 k [(F.CFG_STREAM_STREAM_ID, h.id.toNat), (F.CFG_STREAM_RESUMABLE, 0)]).wr F.CFG_STREAM_BLOCK 0 k 0).wr
    F.CFG_STREAM_SYNC_OFFSET 0 k 0 := rfl
  clear_value t
  generalize s.wrs 0 k [(F.CFG_STREAM_STREAM_ID, h.id.toNat), (F.CFG_STREAM_RESUMABLE, 0)] = v at hv hid hdev ht
  subst ht
  refine ⟨?_, ?_, ?_, ?_, hm, (hv.wr (f := F.CFG_STREAM_BLOCK) _ (.inl ⟨rfl, rfl, rfl⟩)).wr (f := F.CFG_STREAM_SYNC_OFFSET) _ (.inr ⟨rfl, rfl, rfl⟩)⟩
  · simp (disch := decide) only [State.rd_wr_other]
    exact hid
  · simp (disch := decide) only [State.rd_wr_self, State.rd_wr_other]
    exact Nat.zero_mod _
  · simp (disch := decide) only [State.rd_wr_self]
    exact Nat.zero_mod _
  · simp (disch := decide) only [State.rd_wr_other]
    exact hdev

theorem regs_putStream (s : State) (k : Nat) (x : StreamX) : (s.putStream k x).regs = s.regs := rfl

theorem headed_shows (s : State) (k : Nat) (h : StreamHdr) (key : Option (BitVec 256)) : let t := headed s k h key
    (t.stream k).hdr = some h ∧ (t.stream k).wait = false ∧ (t.stream k).at_ = 64 ∧ t.rd F.CFG_STREAM_STREAM_ID 0 k = h.id.toNat ∧
    t.rd F.CFG_STREAM_BLOCK 0 k = 0 ∧ t.rd F.CFG_STREAM_SYNC_OFFSET 0 k = 0 ∧ t.rd F.CFG_DEV_STATE_STATE = s.rd F.CFG_DEV_STATE_STATE ∧
    Frame s t (fun r c i => oneReg .CFG_STREAM 0 k r c i ∨ oneReg .CFG_STREAM_SYNC 0 k r c i) := by
  intro t
  have ht : t = (headWords s k h).putStream k (startedStream (s.stream k) h key) := rfl
  obtain ⟨h1, h2, h3, h4, hf⟩ := headWords_shows s k h
  clear_value t
  generalize headWords s k h = v at h1 h2 h3 h4 hf ht
  have hx : t.stream k = startedStream (s.stream k) h key := ht ▸ stream_putStream ..
  have hr : t.regs = v.regs := ht ▸ regs_putStream ..
  have hm : SameMem v t := .of_mems (ht ▸ mems_putStream ..)
  have e := rd_of_regs hr
  rw [hx, e, e, e, e]
  exact ⟨rfl, rfl, rfl, h1, h2, h3, h4, hf.1.trans hm, hf.2.trans (.of_eq hr)⟩

theorem acceptHeader_eq (hk : slot.toNat ≠ 16) (hn : s.rd F.CFG_STREAM_RESUMABLE 0 slot.toNat = 0) : ∃ key,
    s.acceptHeader slot.toNat h = if h.kind.toNat > 1 ∨ h.reserved ≠ 0 ∨ h.flags.toNat ≥ 4 then (headed s slot.toNat h key).reject slot.toNat 16
      else if h.kind.toNat ≠ 1 ∨ (slot.toNat ≠ 16 ∧ !(headed s slot.toNat h key).isReady) then (headed s slot.toNat h key).reject slot.toNat 24
      else (headed s slot.toNat h key).needKey slot.toNat := by
  unfold State.acceptHeader
  extract_lets x sy resume kind v w c u z
  have hresume : resume = false := by
    unfold resume
    rw [hn]
    rfl
  have hkind : kind = 1 := if_neg hk
  have hu : u = headWords s slot.toNat h := if_neg hk
  have hz : z = headed s slot.toNat h u.selectedKey := by
    unfold z
    rw [hresume, if_neg (by decide), hu]
    unfold headed startedStream
    with_reducible rfl
  generalize u.selectedKey = key at hz
  clear_value z kind
  subst hkind hz
  exact ⟨key, rfl⟩

theorem acceptHeader_starts (hk : slot.toNat < 16) (hkind : h.kind = 1) (hres : h.reserved = 0) (hfl : h.flags.toNat < 4)
    (henc : h.flags.getLsbD 0 = false) (hn : s.rd F.CFG_STREAM_RESUMABLE 0 slot.toNat = 0) (hrdy : s.isReady = true) : ∃ key,
    s.acceptHeader slot.toNat h = headed s slot.toNat h key := by
  obtain ⟨key, e⟩ := acceptHeader_eq (h := h) (show slot.toNat ≠ 16 by omega) hn
  obtain ⟨hhdr, -, -, -, -, -, hdev, -⟩ := headed_shows s slot.toNat h key
  refine ⟨key, e.trans ?_⟩
  have hrdy' : (headed s slot.toNat h key).isReady = true := by
    unfold State.isReady at hrdy ⊢
    rw [hdev]
    exact hrdy
  generalize headed s slot.toNat h key = v at hhdr hrdy' ⊢
  have hkey : v.needKey slot.toNat = v := by
    unfold State.needKey
    dsimp only
    rw [hhdr]
    exact if_pos (by rw [henc]; simp)
  rw [if_neg (by simp [hkind, hres]; omega), if_neg (by simp [hkind, hrdy']), hkey]

theorem headerStarts (hk : slot.toNat < 16) (hr : s.receiving slot.toNat = true) (hw : (s.stream slot.toNat).wait = true)
    (he : 64 ≤ s.posE slot.toNat) (hf : s.foreignWhy (s.stream slot.toNat) h = 0) (hkind : h.kind = 1) (hres : h.reserved = 0)
    (hfl : h.flags.toNat < 4) (henc : h.flags.getLsbD 0 = false) (hn : s.rd F.CFG_STREAM_RESUMABLE 0 slot.toNat = 0) (hrdy : s.isReady = true) :
    let k := slot.toNat
    Done (.streamHeader slot h (s.stream k).multicast) s (fun t =>
      (t.stream k).hdr = some h ∧ (t.stream k).wait = false ∧ (t.stream k).at_ = 64 ∧
      t.rd F.CFG_STREAM_STREAM_ID 0 k = h.id.toNat ∧ t.rd F.CFG_STREAM_BLOCK 0 k = 0 ∧ t.rd F.CFG_STREAM_SYNC_OFFSET 0 k = 0 ∧
      Frame s t (fun r c i => oneReg .CFG_STREAM 0 k r c i ∨ oneReg .CFG_STREAM_SYNC 0 k r c i)) := by
  intro k
  have hex := streamHeader_eq (h := h) hr hw he
  obtain ⟨key, hkey⟩ := acceptHeader_starts hk hkind hres hfl henc hn hrdy
  rw [if_neg (not_not.2 hf), hkey] at hex
  obtain ⟨h1, h2, h3, h4, h5, h6, -, h7⟩ := headed_shows s k h key
  exact .next hex ⟨h1, h2, h3, h4, h5, h6, h7⟩

end

/-! ### Datagrams -/

/-- What a stream slot shows: its words and the rest of its state. -/
def slotView (k : Nat) (s : State) : Word × Word × StreamX := (s.word .CFG_STREAM 0 k, s.word .CFG_STREAM_POS 0 k, s.stream k)

section
variable {s : State} {k : Nat}

theorem slotView_wr {f : Fld} {a i n : Nat} (h : (f.reg ≠ .CFG_STREAM ∧ f.reg ≠ .CFG_STREAM_POS) ∨ i ≠ k) : slotView k (s.wr f a i n) = slotView k s := by
  have h1 : (s.wr f a i n).word .CFG_STREAM 0 k = s.word .CFG_STREAM 0 k := State.word_setWord_ne _ _ fun e => h.elim (fun h => h.1 e.1.symm) (fun h => h e.2.2.symm)
  have h2 : (s.wr f a i n).word .CFG_STREAM_POS 0 k = s.word .CFG_STREAM_POS 0 k := State.word_setWord_ne _ _ fun e => h.elim (fun h => h.2 e.1.symm) (fun h => h e.2.2.symm)
  unfold slotView
  rw [h1, h2]
  rfl

theorem slotView_setWord {r : RegName} {a i : Nat} {w : Word} (h : (r ≠ .CFG_STREAM ∧ r ≠ .CFG_STREAM_POS) ∨ i ≠ k) :
    slotView k (s.setWord r a i w) = slotView k s := by
  have h1 : (s.setWord r a i w).word .CFG_STREAM 0 k = s.word .CFG_STREAM 0 k := State.word_setWord_ne _ _ fun e => h.elim (fun h => h.1 e.1.symm) (fun h => h e.2.2.symm)
  have h2 : (s.setWord r a i w).word .CFG_STREAM_POS 0 k = s.word .CFG_STREAM_POS 0 k := State.word_setWord_ne _ _ fun e => h.elim (fun h => h.2 e.1.symm) (fun h => h e.2.2.symm)
  unfold slotView
  rw [h1, h2]
  rfl

theorem slotView_congr {t : State} (hr : t.regs = s.regs) (hc : t.cfg.streams = s.cfg.streams) : slotView k t = slotView k s := by
  unfold slotView State.word
  rw [hr, stream_congr hc]

theorem slotView_putStream {j : Nat} (h : j ≠ k) (x : StreamX) : slotView k (s.putStream j x) = slotView k s := by
  unfold slotView
  rw [stream_putStream_ne h.symm]
  rfl

theorem slotView_closeQp (q reason : Nat) : slotView k (s.closeQp q reason) = slotView k s := by
  unfold State.closeQp
  split
  · rfl
  · extract_lets lost t v w
    have hv : slotView k v = slotView k s := (slotView_setWord (.inl (by decide))).trans (by split <;> rfl)
    exact (slotView_congr rfl rfl).trans hv

theorem slotView_releaseClaim (hk : 16 ≠ k) : slotView k s.releaseClaim = slotView k s := by
  unfold State.releaseClaim
  extract_lets u v w x
  have hu : slotView k u = slotView k s := by
    unfold u
    split
    · exact slotView_closeQp ..
    · rfl
  have hv : slotView k v = slotView k s :=
    (slotView_setWord (.inr hk)).trans ((slotView_setWord (.inr hk)).trans ((slotView_setWord (.inr hk)).trans hu))
  have hx : slotView k x = slotView k v := by
    unfold slotView
    refine Prod.ext rfl (Prod.ext rfl ?_)
    show (aget (adel v.cfg.streams 16) k).getD StreamX.reset = _
    rw [aget_adel_ne _ hk.symm]
    rfl
  exact (slotView_wr (.inl (by decide))).trans ((slotView_wr (.inl (by decide))).trans (hx.trans hv))

theorem slotView_count (c : Ctr) (b n : Nat) : slotView k (s.count c b n) = slotView k s := slotView_congr (State.count_regs ..) rfl

theorem slotView_endStream {j : Nat} (h : j ≠ k) (outcome reason : Nat) : slotView k (s.endStream j outcome reason) = slotView k s :=
  endStream_keeps (slotView k) (fun _ _ _ _ => slotView_wr (.inr h)) (fun _ _ _ _ => slotView_count ..) (fun _ _ => slotView_putStream h _)
    (fun _ _ _ => rfl) (fun _ _ => rfl) (fun e _ => slotView_releaseClaim (e ▸ h)) s outcome reason

theorem slotView_needKey {j : Nat} (h : j ≠ k) : slotView k (s.needKey j) = slotView k s := by
  unfold State.needKey
  dsimp only
  split
  · rfl
  · split
    · rfl
    · exact slotView_endStream h ..

theorem slotView_consume {j : Nat} (h : j ≠ k) (e : Nat) : slotView k (s.consume j e) = slotView k s := by
  unfold State.consume
  extract_lets b u v w
  have hv : slotView k v = slotView k s := by
    unfold v
    split
    · exact (slotView_wr (.inr h)).trans ((slotView_wr (.inr h)).trans (slotView_congr rfl rfl))
    · exact slotView_congr rfl rfl
  exact (slotView_needKey h).trans ((slotView_wr (.inr h)).trans ((slotView_count ..).trans hv))

theorem slotView_takeDatagram {j : Nat} (h : j ≠ k) (off len : Nat) : slotView k (s.takeDatagram j off len) = slotView k s := by
  unfold State.takeDatagram
  extract_lets e
  clear_value e
  split
  · exact (slotView_consume h _).trans (slotView_count ..)
  · exact slotView_count ..

theorem slotView_datagrams {l : List Nat} (h : k ∉ l) (off len : Nat) :
    slotView k (l.foldl (fun s k => s.takeDatagram k off len) s) = slotView k s := by
  induction l generalizing s with
  | nil => rfl
  | cons j l ih =>
    rw [List.mem_cons, not_or] at h
    exact (ih h.2).trans (slotView_takeDatagram (Ne.symm h.1) off len)

/-- Of the slots that take a datagram, the one that a slot's state turns on is the slot's own. -/
theorem slotView_own {l : List Nat} (hn : l.Nodup) (h : k ∈ l) (off len : Nat) : ∃ v, slotView k v = slotView k s ∧
    slotView k (l.foldl (fun s k => s.takeDatagram k off len) s) = slotView k (v.takeDatagram k off len) := by
  obtain ⟨l1, l2, rfl⟩ := List.append_of_mem h
  rw [List.nodup_append] at hn
  obtain ⟨-, hn2, hd⟩ := hn
  have h1 : k ∉ l1 := fun e => hd k e k (List.mem_cons_self ..) rfl
  have h2 : k ∉ l2 := (List.nodup_cons.1 hn2).1
  refine ⟨l1.foldl (fun s k => s.takeDatagram k off len) s, slotView_datagrams h1 off len, ?_⟩
  rw [List.foldl_append, List.foldl_cons]
  exact slotView_datagrams h2 off len

theorem slotView_parts {t : State} (h : slotView k t = slotView k s) : t.posE k = s.posE k ∧ t.receiving k = s.receiving k ∧ t.stream k = s.stream k := by
  unfold slotView at h
  simp only [Prod.mk.injEq] at h
  obtain ⟨h1, h2, h3⟩ := h
  exact ⟨congrArg (fieldGet F.CFG_STREAM_POS_OFFSET) h2, congrArg (fun w => fieldGet F.CFG_STREAM_STATE w == 1) h1, h3⟩

/-- A datagram that does not go on at offset E is dropped. -/
theorem takeDatagram_dropped {off len : Nat} (hk : k ≠ 16) (h : s.posE k < off ∨ off + len ≤ s.posE k) :
    slotView k (s.takeDatagram k off len) = slotView k s := by
  have hb : s.baseAgain k = false := by simp [State.baseAgain, hk]
  unfold State.takeDatagram
  rw [hb]
  dsimp only
  rw [if_neg (show ¬ (false = true) by decide), if_neg (by omega)]
  exact slotView_count ..

/-- A datagram that goes on at offset E is consumed to its end. -/
theorem takeDatagram_consumed {off len : Nat} (hk : k ≠ 16) {h : StreamHdr} (hx : (s.stream k).hdr = some h)
    (hkey : h.flags.getLsbD 0 = false ∨ (s.stream k).key.isSome = true) (hr : s.receiving k = true) (h1 : off ≤ s.posE k) (h2 : s.posE k < off + len) :
    (s.takeDatagram k off len).posE k = (off + len) % 2 ^ 48 ∧ (s.takeDatagram k off len).receiving k = true := by
  have hb : s.baseAgain k = false := by simp [State.baseAgain, hk]
  have hneed : ∀ v : State, (v.stream k).hdr = some h → (v.stream k).key = (s.stream k).key → v.needKey k = v := fun v hv hk => by
    unfold State.needKey
    dsimp only
    rw [hv, hk]
    exact if_pos (by rcases hkey with e | e <;> rw [e] <;> simp)
  have e : ∃ v, slotView k v = slotView k s ∧ s.takeDatagram k off len = (v.wr F.CFG_STREAM_POS_OFFSET 0 k (off + len)).needKey k := by
    unfold State.takeDatagram
    rw [hb]
    dsimp only
    rw [if_neg (show ¬ (false = true) by decide), if_pos ⟨h1, h2⟩]
    unfold State.consume
    extract_lets b u v w
    have hb' : u.baseAgain k = false := by simp [State.baseAgain, hk]
    have hv : v = u := if_neg (by rw [hb']; decide)
    have hu : slotView k u = slotView k s :=
      (slotView_congr (s := s.count C.CFG_CNT_DGRAM) (t := u) rfl rfl).trans (slotView_count C.CFG_CNT_DGRAM 0 1)
    rw [← hv] at hu
    exact ⟨v.count C.CFG_CNT_STREAM_BYTES 0 (off + len - v.posE k), (slotView_count ..).trans hu, rfl⟩
  obtain ⟨v, hv, e⟩ := e
  obtain ⟨-, hvr, hvs⟩ := slotView_parts hv
  have hs : (v.wr F.CFG_STREAM_POS_OFFSET 0 k (off + len)).stream k = s.stream k := hvs
  rw [e, hneed _ (by rw [hs, hx]) (by rw [hs])]
  refine ⟨State.rd_wr_self _ _ _ _ _ (by decide), ?_⟩
  unfold State.receiving
  rw [State.rd_wr_other _ _ _ _ _ _ (by decide)]
  exact hvr.trans hr

end

theorem datagram_eq {s : State} (id : BitVec 32) (off : BitVec 64) (len : BitVec 16) : exec (.datagram id off len) s =
    .next (((List.range 17).filter (fun k => s.takesBytes k && (s.stream k).multicast && ((s.stream k).wait || (match (s.stream k).hdr with
      | some h => h.id == id
      | none => true)))).foldl (fun s k => s.takeDatagram k off.toNat len.toNat) s) := rfl

section
variable {s : State} {slot : SlotNo} {id : BitVec 32} {off : BitVec 64} {len : BitVec 16}

theorem datagramsGoOn (hk : slot.toNat < 16) {h : StreamHdr} (hr : s.receiving slot.toNat = true) (ht : s.takesBytes slot.toNat = true)
    (hm : (s.stream slot.toNat).multicast = true) (hw : (s.stream slot.toNat).wait = false) (hx : (s.stream slot.toNat).hdr = some h)
    (hid : h.id = id) (hkey : h.flags.getLsbD 0 = false ∨ (s.stream slot.toNat).key.isSome = true) :
    let k := slot.toNat
    (off.toNat ≤ s.posE k → s.posE k < off.toNat + len.toNat → Done (.datagram id off len) s (fun t =>
      t.posE k = (off.toNat + len.toNat) % 2 ^ 48 ∧ t.receiving k = true ∧ SameMem s t)) ∧
    ((s.posE k < off.toNat ∨ off.toNat + len.toNat ≤ s.posE k) → Done (.datagram id off len) s (fun t =>
      t.posE k = s.posE k ∧ SameMem s t)) := by
  intro k
  have hk16 : k ≠ 16 := by omega
  have hex := datagram_eq (s := s) id off len
  generalize hl : (List.range 17).filter (fun k => s.takesBytes k && (s.stream k).multicast && ((s.stream k).wait || (match (s.stream k).hdr with
      | some h => h.id == id
      | none => true))) = l at hex
  have hn : l.Nodup := hl ▸ List.nodup_range.filter _
  have hmem : k ∈ l := by
    rw [← hl, List.mem_filter]
    exact ⟨List.mem_range.2 (by omega), by simp [k, ht, hm, hw, hx, hid]⟩
  have hsm : SameMem s (l.foldl (fun s k => s.takeDatagram k off.toNat len.toNat) s) := .of_mems (by simp)
  obtain ⟨v, hv, hown⟩ := slotView_own (s := s) hn hmem off.toNat len.toNat
  obtain ⟨hp, hrv, hs⟩ := slotView_parts hv
  refine ⟨fun h1 h2 => ?_, fun h1 => ?_⟩
  · obtain ⟨c1, c2⟩ := takeDatagram_consumed hk16 (s := v) (hs ▸ hx) (hs ▸ hkey) (hrv.trans hr) (hp ▸ h1) (hp ▸ h2)
    obtain ⟨p1, p2, -⟩ := slotView_parts hown
    exact .next hex ⟨p1.trans c1, p2.trans c2, hsm⟩
  · have hd := takeDatagram_dropped (off := off.toNat) (len := len.toNat) hk16 (s := v) (hp ▸ h1)
    exact .next hex ⟨(slotView_parts (hown.trans (hd.trans hv))).1, hsm⟩

theorem datagramDropped (ht : s.takesBytes slot.toNat = false) :
    Done (.datagram id off len) s (fun t => t.posE slot.toNat = s.posE slot.toNat ∧ SameMem s t) := by
  refine .next (datagram_eq ..) ⟨(slotView_parts (slotView_datagrams (fun h => ?_) ..)).1, .of_mems (by simp)⟩
  rw [List.mem_filter, ht] at h
  simp at h

end

theorem streamsBeginAndRunOut : StreamsBeginAndRunOut := by
  intro s slot k x hk
  refine ⟨fun h hr hw he => ⟨foreignHeader hr hw he, headerStarts hk hr hw he⟩, fun id off len h hr ht hm hw hx hid hkey => datagramsGoOn hk hr ht hm hw hx hid hkey,
    fun ht id off len => datagramDropped ht, fun hr hd => ⟨fun he => ?_, fun he => ?_⟩⟩
  · have hex : exec (.loadDeadline slot) s = .next (s.endStream slot.toNat 4 8) :=
      congrArg Host.Outcome.next ((if_neg (by simp [show s.endCame slot.toNat = false from he]; exact hd)).trans (if_pos hr))
    exact .next hex (endStream_ended s hk (by decide) (by decide))
  · exact .next (congrArg Host.Outcome.next (if_pos (.inr ⟨hr, he⟩))) rfl

/-- Settles O37, from the two statements it names. -/
theorem streamsBeginAndEnd : Obligations.StreamsBeginAndEnd := ⟨streamBlocksEnd, streamsBeginAndRunOut⟩

end Sys2Proof.Proofs
end

section
/-! PROOF. Boot and the steps of start-up (R420, R422, R425, R456, Table 15-7). -/

namespace Sys2Proof.Proofs

open Sys2Proof Sys2Proof.Machine

/-! ### Steps done and failed -/

section
variable (s : State)

theorem rd_nextStep {f : Fld} (a i : Nat)
    (h : F.CFG_DEV_STATE_STEP.reg ≠ f.reg ∨ f.lo + f.width ≤ F.CFG_DEV_STATE_STEP.lo ∨ F.CFG_DEV_STATE_STEP.lo + F.CFG_DEV_STATE_STEP.width ≤ f.lo) :
    s.nextStep.rd f a i = s.rd f a i :=
  (State.rd_wr_other _ _ _ _ _ _ (h.imp_left Ne.symm)).trans (rd_of_regs rfl ..)

theorem nextStep_frame : Frame s s.nextStep (oneReg .CFG_DEV_STATE 0 0) :=
  ⟨.of_eq rfl rfl, (SameRegs.of_eq rfl).wr (f := F.CFG_DEV_STATE_STEP) _ ⟨rfl, rfl, rfl⟩⟩

/-- A start-up that fails: FAILED, with why, and no step left (R425). -/
theorem startFail_shows {why : Nat} (h : why < 4) : (s.startFail why).rd F.CFG_DEV_STATE_STATE = 5 ∧ (s.startFail why).rd F.CFG_DEV_STATE_FAIL = why ∧
    (s.startFail why).cfg.stepsLeft = [] ∧ Frame s (s.startFail why) (oneReg .CFG_DEV_STATE 0 0) := by
  unfold State.startFail State.showStep
  dsimp only
  refine ⟨?_, ?_, rfl, .of_eq rfl rfl, ?_⟩
  · simp (disch := decide) only [State.wrs, List.foldl, State.rd_wr_self, State.rd_wr_other]
    rfl
  · simp (disch := decide) only [State.wrs, List.foldl, State.rd_wr_self, State.rd_wr_other]
    exact Nat.mod_eq_of_lt (by have := h; simp [F.CFG_DEV_STATE_FAIL]; omega)
  · exact (((SameRegs.of_eq (u := s) rfl).wr (f := F.CFG_DEV_STATE_STATE) _ ⟨rfl, rfl, rfl⟩).wr (f := F.CFG_DEV_STATE_FAIL) _ ⟨rfl, rfl, rfl⟩).wr
      (f := F.CFG_DEV_STATE_STEP) _ ⟨rfl, rfl, rfl⟩

end

/-! ### The memory's groups -/

/-- A byte reads zero, and its word is not poisoned. -/
def Zeroed (s : State) (y : Nat) : Prop := s.byte y = 0 ∧ s.poisonedAt y = false

/-- A group that is not OFFLINE is left zero (Table 15-7). -/
def zeroGroup (s : State) (k : Nat) : State := if s.groupState k = 4 then s else s.zeroRange (k * groupSize) ((k + 1) * groupSize)

theorem zeroGroup_regs (s : State) (k : Nat) : (zeroGroup s k).regs = s.regs := by
  unfold zeroGroup
  split <;> rfl

theorem zeroGroup_zeroes {s : State} (k y : Nat) (h : Zeroed s y ∨ (groupOf y = k ∧ s.groupState k ≠ 4)) : Zeroed (zeroGroup s k) y := by
  have hg : groupSize % 8 = 0 := by decide
  have hp : 0 < groupSize := by decide
  unfold zeroGroup
  split
  · next h4 => exact h.resolve_right fun e => e.2 h4
  · have hlo : k * groupSize % 8 = 0 := by rw [Nat.mul_mod, hg, Nat.mul_zero, Nat.zero_mod]
    have hhi : (k + 1) * groupSize % 8 = 0 := by rw [Nat.mul_mod, hg, Nat.mul_zero, Nat.zero_mod]
    obtain ⟨hin, hout⟩ := zeroRange_reads s hlo hhi y
    by_cases hy : k * groupSize ≤ y ∧ y < (k + 1) * groupSize
    · exact hin hy.1 hy.2
    · have hyo : y < k * groupSize ∨ (k + 1) * groupSize ≤ y := by omega
      obtain ⟨hb, hpo⟩ := hout hyo
      obtain ⟨h1, h2⟩ | ⟨he, -⟩ := h
      · exact ⟨hb.trans h1, hpo.trans h2⟩
      · unfold groupOf at he
        exact absurd ⟨he ▸ Nat.div_mul_le_self y groupSize, he ▸ Nat.lt_div_mul_add hp |>.trans_eq (Nat.succ_mul ..).symm⟩ hy

theorem groupState_congr {s t : State} (h : t.regs = s.regs) (k : Nat) : t.groupState k = s.groupState k := rd_of_regs h ..

theorem zeroGroups_zero {s : State} (l : List Nat) (y : Nat) (h : Zeroed s y ∨ (groupOf y ∈ l ∧ s.groupState (groupOf y) ≠ 4)) :
    Zeroed (l.foldl zeroGroup s) y := by
  induction l generalizing s with
  | nil => exact h.resolve_right fun e => absurd e.1 (List.not_mem_nil)
  | cons k l ih =>
    refine ih ?_
    obtain h | ⟨hm, h4⟩ := h
    · exact .inl (zeroGroup_zeroes k y (.inl h))
    · obtain rfl | hm := List.mem_cons.1 hm
      · exact .inl (zeroGroup_zeroes _ y (.inr ⟨rfl, h4⟩))
      · exact .inr ⟨hm, by rwa [groupState_congr (zeroGroup_regs s k)]⟩

/-! ### What step MEMORY keeps of the configuration -/

section
variable (s : State)

theorem cfg_applyRecord (r : HRec) : (s.applyRecord r).cfg = s.cfg := by
  unfold State.applyRecord
  dsimp only
  split
  · split <;> rfl
  · rfl
  · split <;> rfl
  · rfl

theorem cfg_readRecord : s.readRecord.cfg = s.cfg := by
  unfold State.readRecord
  extract_lets u v good w
  have hu : u.cfg = s.cfg := by unfold u; split <;> rfl
  exact (foldl_keep State.cfg (fun s r => s.applyRecord r) cfg_applyRecord _ w).trans hu

theorem cfg_formGroup (k : Nat) : (s.formGroup k).cfg = s.cfg := by
  have hr : (s.reformMap k).cfg = s.cfg := by
    unfold State.reformMap
    extract_lets n old keep u
    exact foldl_keep State.cfg (fun (s : State) (p : Nat × Nat) => s.wr (F.MEM_GRP_MAP_ENTRY.at 8 (p.2 % 8)) 0 (6 * k + p.2 / 8) p.1) (fun _ _ => rfl) _ s
  exact hr

end

/-- Step MEMORY once the groups are formed. -/
theorem stepMemory_eq (s : State) (bad : List ChanNo) : ∃ u : State, s.stepMemory bad =
    (let t := (List.range 4).foldl zeroGroup u
     if t.groupState 0 = 4 then t.startFail 2 else t.nextStep) ∧ u.cfg = s.cfg := by
  unfold State.stepMemory
  extract_lets u1 u2 u3 u4
  have h4 : u4 = (List.range 4).foldl zeroGroup u3 := by
    refine List.foldl_ext _ _ _ fun s k _ => ?_
    unfold zeroGroup
    with_reducible rfl
  refine ⟨u3, by rw [h4], ?_⟩
  clear h4 u4
  have h2 : u2.cfg = u1.cfg := by
    refine foldl_keep State.cfg _ (fun s c => ?_) _ _
    split <;> rfl
  exact (foldl_keep State.cfg (fun (s : State) k => s.formGroup k) cfg_formGroup _ u2).trans (h2.trans (cfg_readRecord s))

theorem zeroGroups_keeps (l : List Nat) (s : State) : (l.foldl zeroGroup s).regs = s.regs ∧ (l.foldl zeroGroup s).cfg = s.cfg :=
  ⟨foldl_keep State.regs zeroGroup zeroGroup_regs l s, foldl_keep State.cfg zeroGroup (fun s k => by unfold zeroGroup; split <;> rfl) l s⟩

/-- External memory has four groups. -/
theorem groupOf_mem {y : Nat} (h : inExt y = true) : groupOf y ∈ List.range 4 := by
  rw [List.mem_range]
  unfold inExt extSize at h
  unfold groupOf groupSize
  simp only [decide_eq_true_eq] at h
  omega

theorem stepMemory_zeroes (s : State) (bad : List ChanNo) : let t := s.stepMemory bad
    (t.groupState 0 = 4 → t.rd F.CFG_DEV_STATE_STATE = 5 ∧ t.rd F.CFG_DEV_STATE_FAIL = 2) ∧
    (t.groupState 0 ≠ 4 → t.cfg.stepsLeft = s.cfg.stepsLeft.drop 1) ∧
    (∀ y, inExt y = true → t.groupState (groupOf y) ≠ 4 → t.byte y = 0 ∧ t.poisonedAt y = false) := by
  intro t
  obtain ⟨u, ht, hcfg⟩ := stepMemory_eq s bad
  obtain ⟨hregs, hc⟩ := zeroGroups_keeps (List.range 4) u
  have hz := fun y h => zeroGroups_zero (s := u) (List.range 4) y h
  generalize (List.range 4).foldl zeroGroup u = v at ht hregs hc hz
  dsimp only at ht
  obtain ⟨hs, hf, -, hfm, hfr⟩ := startFail_shows v (why := 2) (by decide)
  obtain ⟨hnm, hnr⟩ := nextStep_frame v
  have hgf : ∀ k, (v.startFail 2).groupState k = v.groupState k := fun k => congrArg (fieldGet F.MEM_GRP_STATUS_STATE) (hfr .MEM_GRP_STATUS 0 k (fun e => by cases e.1))
  have hgn : ∀ k, v.nextStep.groupState k = v.groupState k := fun k => congrArg (fieldGet F.MEM_GRP_STATUS_STATE) (hnr .MEM_GRP_STATUS 0 k (fun e => by cases e.1))
  have hgu : ∀ k, v.groupState k = u.groupState k := fun k => groupState_congr hregs k
  have hx : ∀ y, inExt y = true → groupOf y ∈ List.range 4 := fun y h => groupOf_mem h
  by_cases h4 : v.groupState 0 = 4
  · rw [if_pos h4] at ht
    rw [show t = v.startFail 2 from ht]
    refine ⟨fun _ => ⟨hs, hf⟩, fun h => absurd ((hgf 0).trans h4) h, fun y hy hg => ?_⟩
    obtain ⟨h1, h2⟩ := hz y (.inr ⟨hx y hy, by rw [← hgu, ← hgf]; exact hg⟩)
    exact ⟨(hfm y).1.trans h1, (hfm y).2.trans h2⟩
  · rw [if_neg h4] at ht
    rw [show t = v.nextStep from ht]
    refine ⟨fun h => absurd ((hgn 0).symm.trans h) h4, fun _ => ?_, fun y hy hg => ?_⟩
    · show v.cfg.stepsLeft.drop 1 = _
      rw [hc, hcfg]
    · obtain ⟨h1, h2⟩ := hz y (.inr ⟨hx y hy, by rw [← hgu, ← hgn]; exact hg⟩)
      exact ⟨(hnm y).1.trans h1, (hnm y).2.trans h2⟩

/-! ### The obligation -/

/-- A step of a start-up in progress. -/
theorem startupStep_eq {s : State} (o : StepObs) {c : Nat} {l : List Nat} (h3 : s.rd F.CFG_DEV_STATE_STATE = 3) : s.cfg.stepsLeft = c :: l →
    exec (.startupStep o) s = .next (match c with
      | 0 => s.startFail 3
      | 1 => if o.lock then s.startClock.nextStep else s
      | 2 => if s.board.stageInN then s else s.stepMemory o.badChannels
      | 3 => s.stepReset
      | 4 => s.stepWrites
      | 5 => s.stepSelftest o.badSpurs
      | 6 => ({ s with board := { s.board with stageOutN := false } } : State).nextStep
      | _ => (({ s with board := { s.board with readyN := false } } : State).wr F.CFG_DEV_STATE_STATE 0 0 4).nextStep) := by
  intro hl
  refine congrArg Host.Outcome.next ((if_neg (not_not.2 h3)).trans ?_)
  rewrite [hl]
  rcases c with _ | _ | _ | _ | _ | _ | _ | c <;> rfl

theorem bootCompletes {s : State} (h0 : s.rd F.CFG_DEV_STATE_STATE = 0) (hp : s.board.porstN = true) (hw : s.board.pwrgd = true)
    (hv : s.rd F.ROPE_STATUS_POS_VALID = 1) : Done .bootComplete s (fun t => t.rd F.CFG_DEV_STATE_STATE = 1 ∧
      Frame s t (fun r c i => oneReg .CFG_DEV_STATE 0 0 r c i ∨ oneReg .GATE_LANE_HEALTH 0 0 r c i)) := by
  have hex : ∃ c p, exec .bootComplete s = .next ((s.wrs 0 0 [(F.GATE_LANE_HEALTH_WIDTH, c), (F.GATE_LANE_HEALTH_PAIR, p)]).wr F.CFG_DEV_STATE_STATE 0 0 1) :=
    ⟨_, _, congrArg Host.Outcome.next (if_neg (by simp [h0, hp, hw, hv]))⟩
  obtain ⟨c, p, hex⟩ := hex
  refine .next hex ⟨State.rd_wr_self _ _ _ _ _ (by decide), .of_eq rfl rfl, ?_⟩
  exact (((SameRegs.refl s _).wr (f := F.GATE_LANE_HEALTH_WIDTH) _ (.inr ⟨rfl, rfl, rfl⟩)).wr (f := F.GATE_LANE_HEALTH_PAIR) _ (.inr ⟨rfl, rfl, rfl⟩)).wr
    (f := F.CFG_DEV_STATE_STATE) _ (.inl ⟨rfl, rfl, rfl⟩)

theorem aget_filter_none {κ α : Type} [DecidableEq κ] (p : κ × α → Bool) (m : List (κ × α)) (k : κ) (h : ∀ v, p (k, v) = false) :
    aget (m.filter p) k = none := by
  induction m with
  | nil => rfl
  | cons x m ih =>
    obtain ⟨j, v⟩ := x
    rw [List.filter_cons]
    split
    · next hp =>
      unfold aget
      rw [if_neg (fun e => by rw [e, h v] at hp; cases hp)]
      exact ih
    · exact ih

theorem word_stepReset (s : State) {r : RegName} (a i : Nat) (hb : r.place.block = none) (hl : r ≠ .TRV_LINK_STATE) :
    s.stepReset.word r a i = r.resetWord i := by
  have hr : r ≠ .CFG_DEV_STATE := fun e => by rw [e] at hb; cases hb
  unfold State.stepReset
  rw [(nextStep_frame _).2 r a i (fun e => hr e.1)]
  unfold State.word
  dsimp only
  rw [aget_filter_none]
  · rfl
  · intro v
    simp [hb, hl]

/-- The state with the pin of STAGE_OUT_N low. -/
def stagedOut (s : State) : State := { s with board := { s.board with stageOutN := false } }

/-- The state with the pin of READY_N low. -/
def shownReady (s : State) : State := { s with board := { s.board with readyN := false } }

/-- Settles O38, step by step. -/
theorem startUpSteps : Obligations.StartUpSteps := by
  intro s o l
  refine ⟨bootCompletes, fun h3 => ⟨fun hl ho => ?_, fun hl hp => ?_, fun hl => ?_, fun hl => ?_, fun hl => ?_, fun hl => ?_, fun hl ht => ?_⟩⟩
  · have hex : exec (.startupStep o) s = .next s.startClock.nextStep := (startupStep_eq o h3 hl).trans (congrArg Host.Outcome.next (if_pos ho))
    have hc : s.startClock.regs = s.regs ∧ mems s.startClock = mems s ∧ s.startClock.cfg = s.cfg ∧ s.startClock.board.pllLock = true ∧
        (s.board.pllLock = false → s.startClock.cycle = 0) := by
      unfold State.startClock
      split
      · next h => exact ⟨rfl, rfl, rfl, h, fun e => absurd h (by rw [e]; decide)⟩
      · exact ⟨rfl, rfl, rfl, rfl, fun _ => rfl⟩
    obtain ⟨hr, hm, hcfg, hlock, hcy⟩ := hc
    obtain ⟨fm, fr⟩ := nextStep_frame s.startClock
    refine .next hex ⟨hlock, hcy, ?_, (SameMem.of_mems hm).trans fm, (SameRegs.of_eq hr).trans fr⟩
    show s.startClock.cfg.stepsLeft.drop 1 = l
    rw [hcfg, hl]
    rfl
  · have hex : exec (.startupStep o) s = .next (s.stepMemory o.badChannels) :=
      (startupStep_eq o h3 hl).trans (congrArg Host.Outcome.next (if_neg (by rw [hp]; decide)))
    obtain ⟨h1, h2, hz⟩ := stepMemory_zeroes s o.badChannels
    refine .next hex ⟨h1, fun h => (h2 h).trans ?_, hz⟩
    rw [hl]
    rfl
  · refine .next (startupStep_eq o h3 hl) ⟨?_, fun r a i hb hne => word_stepReset s a i hb hne, .of_eq rfl rfl⟩
    show s.cfg.stepsLeft.drop 1 = l
    rw [hl]
    rfl
  · obtain ⟨fm, fr⟩ := nextStep_frame (stagedOut s)
    refine .next (startupStep_eq o h3 hl) ⟨rfl, ?_, (SameMem.of_eq rfl rfl).trans fm, (SameRegs.of_eq rfl).trans fr⟩
    show s.cfg.stepsLeft.drop 1 = l
    rw [hl]
    rfl
  · have hn := nextStep_frame ((shownReady s).wr F.CFG_DEV_STATE_STATE 0 0 4)
    refine .next (startupStep_eq o h3 hl) ⟨rfl, ?_, (SameMem.of_eq rfl rfl).trans hn.1, ?_⟩
    · exact (rd_nextStep _ _ _ (by decide)).trans (State.rd_wr_self _ _ _ _ _ (by decide))
    · exact ((SameRegs.of_eq (u := s) (t := shownReady s) rfl).wr (f := F.CFG_DEV_STATE_STATE) _ ⟨rfl, rfl, rfl⟩).trans hn.2
  · obtain ⟨h1, h2, -, hf⟩ := startFail_shows s (why := 3) (by decide)
    exact .next (startupStep_eq o h3 hl) ⟨h1, h2, hf⟩
  · have hex : exec .pllLockTimeout s = .next (s.startFail 1) := congrArg Host.Outcome.next (if_pos ⟨h3, by rw [hl]; rfl, ht⟩)
    obtain ⟨h1, h2, h4, hf⟩ := startFail_shows s (why := 1) (by decide)
    exact .next hex ⟨h1, h2, h4, hf⟩

end Sys2Proof.Proofs
end

section
/-! PROOF. CONNECT and DISCONNECT (R436, R437, R440). -/

namespace Sys2Proof.Proofs

open Sys2Proof Sys2Proof.Machine

/-! ### A queue pair opens -/

/-- The words of a queue pair that opens. -/
def openedWords (s : State) (n owner gver mtu : Nat) : State :=
  (s.setWord .GATE_QP 0 n 0).wrs 0 n [(F.GATE_QP_STATE, 1), (F.GATE_QP_OWNER, owner), (F.GATE_QP_GVER, gver), (F.GATE_QP_MTU, mtu)]

theorem openedWords_shows (s : State) (n : Nat) {owner : Nat} (ho : owner < 32) (gver mtu : Nat) : let t := openedWords s n owner gver mtu
    t.rd F.GATE_QP_STATE 0 n = 1 ∧ t.rd F.GATE_QP_OWNER 0 n = owner ∧ t.rd F.GATE_QP_GVER 0 n = gver % 4 ∧ t.rd F.GATE_QP_CI 0 n = 0 ∧
    SameRegs s t (oneReg .GATE_QP 0 n) := by
  intro t
  have hz : (s.setWord .GATE_QP 0 n 0).rd F.GATE_QP_CI 0 n = 0 := by
    unfold State.rd
    rw [show (s.setWord .GATE_QP 0 n 0).word F.GATE_QP_CI.reg 0 n = 0 from State.word_setWord_same ..]
    decide
  refine ⟨?_, ?_, ?_, ?_, ?_⟩
  · simp (disch := decide) only [t, openedWords, State.wrs, List.foldl, State.rd_wr_self, State.rd_wr_other]
    rfl
  · simp (disch := decide) only [t, openedWords, State.wrs, List.foldl, State.rd_wr_self, State.rd_wr_other]
    exact Nat.mod_eq_of_lt ho
  · simp (disch := decide) only [t, openedWords, State.wrs, List.foldl, State.rd_wr_self, State.rd_wr_other]
    rfl
  · simp (disch := decide) only [t, openedWords, State.wrs, List.foldl, State.rd_wr_other]
    exact hz
  · exact (((((SameRegs.refl s _).setWord _ ⟨rfl, rfl, rfl⟩).wr (f := F.GATE_QP_STATE) _ ⟨rfl, rfl, rfl⟩).wr (f := F.GATE_QP_OWNER) _ ⟨rfl, rfl, rfl⟩).wr
      (f := F.GATE_QP_GVER) _ ⟨rfl, rfl, rfl⟩).wr (f := F.GATE_QP_MTU) _ ⟨rfl, rfl, rfl⟩

/-- A connection that opens (R440). -/
def openedConn (s : State) (key : Word) (sver : Nat) (b : QpBlock) : QpX :=
  { hostQpn := b.hostQpn, rkey := BitVec.ofNat 32 (key.toNat / 2 ^ 32), ringAddr := b.ring.toNat, ringLog2 := b.ringLog2.toNat,
    cqLog2 := b.cqLog2.toNat, eqLog2 := b.eqLog2.toNat, ackTo := b.ackTo.toNat, sver := sver, cqci := 0, nextCq := 0, eqUsed := 0,
    lost := false, done := [], staged := [], rate := s.lineRate, retries := 0, lastCnp := 0, rateAt := s.time, stream := none }

/-- The state in which a connection is open. -/
def openedQp (s : State) (n owner gver sver : Nat) (b : QpBlock) : State :=
  (openedWords s.fresh.2 n owner gver b.mtu.toNat).modQp n (fun _ => openedConn s.fresh.2 s.fresh.1 sver b)

theorem openQp_eq (s : State) (n owner gver sver : Nat) (b : QpBlock) :
    s.openQp n owner gver sver b = (openedQp s n owner gver sver b, s.fresh.1.toNat % 2 ^ 24, s.fresh.1.toNat / 2 ^ 32) := by
  unfold State.openQp openedQp openedWords openedConn
  with_reducible rfl

theorem modQp_quiet (s : State) (n : Nat) (f : QpX → QpX) : (s.modQp n f).regs = s.regs ∧ mems (s.modQp n f) = mems s ∧ (s.modQp n f).out = s.out ∧
    (s.modQp n f).gate.adminLostAt = s.gate.adminLostAt := ⟨rfl, rfl, rfl, rfl⟩

theorem openedWords_quiet (s : State) (n owner gver mtu : Nat) : mems (openedWords s n owner gver mtu) = mems s ∧
    (openedWords s n owner gver mtu).out = s.out ∧ (openedWords s n owner gver mtu).gate = s.gate := by
  unfold openedWords
  exact ⟨by simp, rfl, rfl⟩

theorem openedQp_opens (s : State) (n : Nat) {owner : Nat} (ho : owner < 32) (gver sver : Nat) (b : QpBlock) : let t := openedQp s n owner gver sver b
    Opened s t n owner gver ∧ t.out = s.out ∧ SameRegs s t (oneReg .GATE_QP 0 n) := by
  intro t
  have hu : s.fresh.2.regs = s.regs ∧ mems s.fresh.2 = mems s ∧ s.fresh.2.out = s.out := ⟨rfl, rfl, rfl⟩
  obtain ⟨hur, hum, huo⟩ := hu
  have hdone : (openedConn s.fresh.2 s.fresh.1 sver b).done = [] := by
    unfold openedConn
    with_reducible rfl
  have ht : t = (openedWords s.fresh.2 n owner gver b.mtu.toNat).modQp n (fun _ => openedConn s.fresh.2 s.fresh.1 sver b) := rfl
  clear_value t
  generalize openedConn s.fresh.2 s.fresh.1 sver b = x at hdone ht
  generalize s.fresh.2 = u at hur hum huo ht
  obtain ⟨h1, h2, h3, h4, h5⟩ := openedWords_shows u n ho gver b.mtu.toNat
  obtain ⟨q1, q2, -⟩ := openedWords_quiet u n owner gver b.mtu.toNat
  generalize openedWords u n owner gver b.mtu.toNat = v at h1 h2 h3 h4 h5 q1 q2 ht
  obtain ⟨m1, m2, m3, -⟩ := modQp_quiet v n (fun _ => x)
  have hq := qp_modQp_same v n (fun _ => x)
  rw [← ht] at m1 m2 m3 hq
  have e := rd_of_regs m1
  refine ⟨⟨?_, (e ..).trans h2, (e ..).trans h3, (e ..).trans h4, by rw [hq, hdone], .of_mems (m2.trans (q1.trans hum))⟩,
    m3.trans (q2.trans huo), (SameRegs.of_eq hur).trans (h5.trans (.of_eq m1))⟩
  unfold State.qpOpen
  rw [e, h1]
  rfl

/-- A connection open stays so through what leaves registers, queue pairs and memory. -/
theorem Opened.congr {s t u : State} {n owner gver : Nat} (h : Opened s t n owner gver) (hr : u.regs = t.regs) (hq : u.gate.qps = t.gate.qps)
    (hm : mems u = mems t) : Opened s u n owner gver := by
  obtain ⟨h1, h2, h3, h4, h5, h6⟩ := h
  have e := rd_of_regs hr
  refine ⟨?_, (e ..).trans h2, (e ..).trans h3, (e ..).trans h4, ?_, h6.trans (.of_mems hm)⟩
  · unfold State.qpOpen at h1 ⊢
    rw [e]
    exact h1
  · unfold State.qp at h5 ⊢
    rw [hq]
    exact h5

/-! ### CONNECT -/

section
variable {s : State} {c : ConnectBody} {n : Nat}

/-- The protocol and the stream format that a CONNECT agrees on (R437). -/
def gateVer (c : ConnectBody) : Nat := commonVersion c.vers.gateMin.toNat c.vers.gateMax.toNat 2 3
def streamVer (c : ConnectBody) : Nat := commonVersion c.vers.streamMin.toNat c.vers.streamMax.toNat 3 4

theorem connect_tenant (hl : s.linkReady = true) {p : Nat} (ht : c.tenant.toNat < 16) (ha : s.rd F.GATE_TENANT_ACTIVE 0 c.tenant.toNat = 1)
    (hk : aget s.gate.tokens c.tenant.toNat = some c.token) (hg : gateVer c ≠ 0) (hs : streamVer c ≠ 0) (hq : c.qp.ok = true)
    (hp : s.partOfTenant c.tenant.toNat = some p) (hr : s.inGrant p c.qp.ring.toNat c.qp.ringLen = true)
    (hm : s.tenantQps c.tenant.toNat < s.rd F.GATE_TENANT_MAXQP 0 c.tenant.toNat) (hn : s.freeQp = some n) :
    s.connect c = (openedQp s n c.tenant.toNat (gateVer c) (streamVer c) c.qp).emit
      (.connectAck 0 (gateVer c) (streamVer c) (0x100000 + n) (s.fresh.1.toNat % 2 ^ 24) (s.fresh.1.toNat / 2 ^ 32)) := by
  unfold State.connect
  extract_lets t gver sver admin may ringOk no
  have hadm : admin = false := by
    unfold admin t
    simp
    omega
  have hmay : may = true := by
    unfold may
    rw [hadm]
    simp [t, ht, ha, hk]
  have hring : ringOk = true := by
    unfold ringOk
    rw [hadm, if_neg (by decide)]
    unfold t
    rw [hp]
    exact hr
  rw [if_neg (by rw [hl]; decide), if_neg (by rw [hmay]; decide), if_neg (fun e => e.elim hg hs), if_neg (by rw [hq, hring]; decide),
    if_neg (by rw [hadm]; simp; exact hm), hn]
  dsimp only
  rw [openQp_eq, hadm]
  rfl

theorem connect_denied (hl : s.linkReady = true) (ht : c.tenant.toNat < 16) (hk : aget s.gate.tokens c.tenant.toNat ≠ some c.token) :
    s.connect c = (s.count C.GATE_CNT_DENIED).emit (.connectAck 3 0 0 0 0 0) := by
  unfold State.connect
  extract_lets t gver sver admin may ringOk no
  have hadm : admin = false := by
    unfold admin t
    simp
    omega
  have hmay : may = false := by
    unfold may
    rw [hadm]
    simp [t, hk]
  rw [if_neg (by rw [hl]; decide), if_pos (by rw [hmay]; decide)]
  rfl

/-- The state in which the admin's connection is open again (R436). -/
def adminBack (s : State) (n gver sver : Nat) (b : QpBlock) : State :=
  (openedQp s n 16 gver sver b).modGate (fun g => { g with adminQp := some n, adminLostAt := none })

theorem connect_admin (hl : s.linkReady = true) {t0 : Nat} (ht : c.tenant.toNat = 255) (hst : s.rd F.CFG_DEV_STATE_STATE = 4)
    (ha : s.gate.adminQp = none) (hk : s.gate.nonce = some c.token) (h0 : s.gate.adminLostAt = some t0) (hw : s.time ≤ t0 + s.claimWindow)
    (hg : gateVer c ≠ 0) (hs : streamVer c ≠ 0) (hq : c.qp.ok = true) (hr : inAdmin c.qp.ring.toNat c.qp.ringLen = true) (hn : s.freeQp = some n) :
    s.connect c = (adminBack s n (gateVer c) (streamVer c) c.qp).emit
      (.connectAck 0 (gateVer c) (streamVer c) (0x100000 + n) (s.fresh.1.toNat % 2 ^ 24) (s.fresh.1.toNat / 2 ^ 32)) := by
  unfold State.connect
  extract_lets t gver sver admin may ringOk no
  have hadm : admin = true := by
    unfold admin t
    rw [ht]
    rfl
  have hmay : may = true := by
    unfold may
    rw [hadm, if_pos rfl, hst, ha, hk, h0]
    simp [hw]
  have hring : ringOk = true := by
    unfold ringOk
    rw [hadm, if_pos rfl, hr]
  rw [if_neg (by rw [hl]; decide), if_neg (by rw [hmay]; decide), if_neg (fun e => e.elim hg hs), if_neg (by rw [hq, hring]; decide),
    if_neg (by rw [hadm]; simp), hn]
  dsimp only
  rw [openQp_eq, hadm, if_pos rfl]
  rfl

end

/-! ### DISCONNECT -/

theorem foldl_idle {α β : Type} (g : α → β → α) {l : List β} {a : α} (h : ∀ x ∈ l, g a x = a) : l.foldl g a = a := by
  induction l with
  | nil => rfl
  | cons x l ih =>
    rw [List.foldl_cons, h x (List.mem_cons_self ..)]
    exact ih fun y hy => h y (List.mem_cons_of_mem _ hy)

section
variable {s : State} {q : Nat}

theorem truncateIf_none (h : NoStreamOn s q) : s.truncateIf (fun _ x => x.qp == q) = s := by
  refine foldl_idle _ fun k hk => if_neg fun e => ?_
  simp only [Bool.and_eq_true, beq_iff_eq] at e
  exact h k (List.mem_range.1 hk) e.1 e.2

/-- A connection closed: its queue pair is free, and no other register changes. -/
theorem closeQp_closes (h : s.rd F.GATE_QP_STATE 0 q ≠ 0) (reason : Nat) : let t := s.closeQp q reason
    t.rd F.GATE_QP_STATE 0 q = 0 ∧ aget t.gate.qps q = none ∧ t.out = (if reason = 0 then s.out else List.append s.out [.disconnect q reason]) ∧
    (s.isAdmin q = true → t.gate.adminQp = none ∧ t.gate.adminLostAt = some s.time) ∧ Frame s t (oneReg .GATE_QP 0 q) := by
  intro t
  have ht : t = ((((if reason = 0 then s else s.emit (.disconnect q reason)).setWord .GATE_QP 0 q 0).modHut (fun h =>
      { h with mailbox := h.mailbox.filter (fun x => x.1.qp.toNat != q), runWaits := h.runWaits.filter (fun x => x.1.qp.toNat != q) })).modGate (fun g =>
      { g with qps := adel g.qps q, adminQp := if s.isAdmin q then none else g.adminQp, adminLostAt := if s.isAdmin q then some s.time else g.adminLostAt })) :=
    if_neg h
  clear_value t
  have hv : mems (if reason = 0 then s else s.emit (.disconnect q reason)) = mems s ∧ (if reason = 0 then s else s.emit (.disconnect q reason)).regs = s.regs ∧
      (if reason = 0 then s else s.emit (.disconnect q reason)).out = (if reason = 0 then s.out else List.append s.out [.disconnect q reason]) := by
    split <;> exact ⟨rfl, rfl, rfl⟩
  obtain ⟨hm, hr, ho⟩ := hv
  generalize (if reason = 0 then s else s.emit (.disconnect q reason)) = v at hm hr ho ht
  subst ht
  refine ⟨?_, aget_adel_same .., ho, fun ha => ⟨if_pos ha, if_pos ha⟩, .of_mems hm, ?_⟩
  · have e : (v.setWord .GATE_QP 0 q 0).word .GATE_QP 0 q = 0 := State.word_setWord_same ..
    exact (congrArg (fieldGet F.GATE_QP_STATE) e).trans (by decide)
  · exact ((SameRegs.of_eq hr).setWord (r := .GATE_QP) _ ⟨rfl, rfl, rfl⟩).trans (.of_eq rfl)

theorem releaseClaim_frees (s : State) : s.releaseClaim.rd F.CFG_DEV_STATE_STATE = 1 ∧ s.releaseClaim.gate.nonce = none ∧ s.releaseClaim.gate.claimAck = none :=
  ⟨State.rd_wr_self _ _ _ _ _ (by decide), rfl, rfl⟩

theorem loseClaim_frees (s : State) : s.loseClaim.rd F.CFG_DEV_STATE_STATE = 1 ∧ s.loseClaim.gate.nonce = none ∧ s.loseClaim.gate.claimAck = none ∧
    SameMem s s.loseClaim := by
  have hm : SameMem s s.loseClaim := .of_mems (by simp)
  have h : ∃ v : State, s.loseClaim = v.releaseClaim := by
    unfold State.loseClaim
    split
    · obtain ⟨v, hv, -⟩ := endStream_cut s 16 4 9
      exact ⟨v, hv⟩
    · exact ⟨s, rfl⟩
  obtain ⟨v, hv⟩ := h
  rw [hv] at hm ⊢
  obtain ⟨h1, h2, h3⟩ := releaseClaim_frees v
  exact ⟨h1, h2, h3, hm⟩

theorem disconnect_eq {qpn : Nat} (hq : qpn = 0x100000 + q) (hlt : q < 1024) (h : s.rd F.GATE_QP_STATE 0 q ≠ 0) : s.disconnect qpn = s.loseQp q 0 := by
  unfold State.disconnect
  dsimp only
  rw [show qpn - 0x100000 = q by omega]
  exact if_pos ⟨by omega, hlt, h⟩

end

theorem opened_answered {s v : State} {i : Instr} {o : Output} {n owner gver : Nat} (hex : exec i s = .next (v.emit o))
    (hv : Opened s v n owner gver ∧ v.out = s.out ∧ SameRegs s v (oneReg .GATE_QP 0 n)) :
    Done i s (fun t => Opened s t n owner gver ∧ t.out = List.append s.out [o] ∧ SameRegs s t (oneReg .GATE_QP 0 n)) := by
  obtain ⟨ho, hout, hr⟩ := hv
  exact .next hex ⟨Opened.congr ho rfl rfl rfl, congrArg (List.append · [o]) hout, hr.trans (.of_eq rfl)⟩

theorem admin_answered {s v : State} {i : Instr} {o : Output} {n owner gver : Nat}
    (hex : exec i s = .next ((v.modGate (fun g => { g with adminQp := some n, adminLostAt := none })).emit o))
    (hv : Opened s v n owner gver ∧ v.out = s.out ∧ SameRegs s v (oneReg .GATE_QP 0 n)) :
    Done i s (fun t => Opened s t n owner gver ∧ t.gate.adminQp = some n ∧ t.gate.adminLostAt = none ∧ SameRegs s t (oneReg .GATE_QP 0 n)) := by
  obtain ⟨ho, -, hr⟩ := hv
  exact .next hex ⟨Opened.congr ho rfl rfl rfl, rfl, rfl, hr.trans (.of_eq rfl)⟩

/-- Settles O44, clause by clause. -/
theorem connectionsOfHosts : Obligations.ConnectionsOfHosts := by
  intro s c hb hl tn gver sver
  have hex : exec (.connect c) s = .next (s.connect c) := congrArg Host.Outcome.next (viaGate_awake hb ..)
  refine ⟨fun p n ht ha hk hg hs hq hp hr hm hn => ?_, fun ht hk => ?_, fun t0 n ht hst ha hk h0 hw hg hs hq hr hn => ?_, fun qpn r n hq hlt hst => ⟨fun hadm hno => ?_, fun hadm h2 => ?_⟩⟩
  · rw [connect_tenant hl ht ha hk hg hs hq hp hr hm hn] at hex
    obtain ⟨t, ht, h1, h2, h3⟩ := opened_answered hex (openedQp_opens s n (show c.tenant.toNat < 32 by omega) (gateVer c) (streamVer c) c.qp)
    exact ⟨t, ht, h1, ⟨_, _, h2⟩, h3⟩
  · rw [connect_denied hl ht hk] at hex
    exact .next hex ⟨rfl, s.ctr_count_same .., rfl, .of_eq rfl rfl rfl⟩
  · rw [connect_admin hl ht hst ha hk h0 hw hg hs hq hr hn] at hex
    exact admin_answered hex (openedQp_opens s n (show 16 < 32 by decide) (gateVer c) (streamVer c) c.qp)
  · have hd : exec (.disconnect qpn r) s = .next (s.closeQp n 0) := by
      refine congrArg Host.Outcome.next ((viaGate_awake hb ..).trans ((disconnect_eq hq hlt hst).trans ?_))
      unfold State.loseQp
      rw [truncateIf_none hno]
      refine if_neg ?_
      simp only [Bool.and_eq_true, beq_iff_eq, not_and]
      intro ha
      exact hadm.resolve_left (by rw [ha]; decide)
    obtain ⟨c1, c2, c3, c4, c5⟩ := closeQp_closes hst 0
    exact .next hd ⟨c1, c2, c3, c4, c5⟩
  · have hd : exec (.disconnect qpn r) s = .next (s.closeQp n 0).loseClaim := by
      refine congrArg Host.Outcome.next ((viaGate_awake hb ..).trans ((disconnect_eq hq hlt hst).trans ?_))
      unfold State.loseQp
      exact if_pos (by rw [hadm, h2]; rfl)
    obtain ⟨-, -, -, -, cm, -⟩ := closeQp_closes hst 0
    obtain ⟨h1, h3, h4, hm⟩ := loseClaim_frees (s.closeQp n 0)
    exact .next hd ⟨h1, h3, h4, cm.trans hm⟩

end Sys2Proof.Proofs
end

section
/-! PROOF. Doorbells, stream bytes and completions (R444 to R446, R471). -/

namespace Sys2Proof.Proofs

open Sys2Proof Sys2Proof.Machine

/-! ### Completions that wait -/

/-- A completion at an open queue pair waits behind the others and changes nothing else (R446). -/
theorem complete_shows {s : State} {c : Ctx} (h : s.rd F.GATE_QP_STATE 0 c.qp.toNat ≠ 0) (op cls code result detail : Nat) :
    let t := s.complete c op cls code result detail
    (t.qp c.qp.toNat).done = List.append (s.qp c.qp.toNat).done [⟨c.idx.toNat, c.tag, op, cls, code, s.pitch % 2 ^ 32, result, detail, c.notify⟩] ∧
    t.regs = s.regs ∧ mems t = mems s ∧ t.hut = s.hut ∧ t.counters = s.counters := by
  intro t
  have ht : t = s.modQp c.qp.toNat (fun x => { x with done := List.append x.done [⟨c.idx.toNat, c.tag, op, cls, code, s.pitch % 2 ^ 32, result, detail, c.notify⟩] }) :=
    if_neg h
  clear_value t
  subst ht
  exact ⟨congrArg QpX.done (qp_modQp_same ..), rfl, mems_modQp .., rfl, rfl⟩

/-! ### An entry of a command ring -/

/-- The context of the command that an entry spells. -/
def entryCtx (q i : Nat) (l : List Byte) : Ctx := ⟨BitVec.ofNat 10 q, BitVec.ofNat 32 i, leVec 32 ((l.drop 4).take 4), (l.getD 1 0).getLsbD 0⟩

/-- An entry whose bytes have been read, handed to the mailbox or completed with BUSY (R445). -/
def entryTaken (v : State) (q i : Nat) (busy : Bool) (l : List Byte) : State × Bool :=
  if busy || decide (v.hut.mailbox.length ≥ 64) then
    ((v.complete (entryCtx q i l) (leNat (l.take 1)) 3 stBusy).count C.GATE_CNT_BUSY, true)
  else (v.modHut (fun h => { h with mailbox := List.append h.mailbox [(entryCtx q i l, parseEntry l)] }), false)

/-- The address of an entry of a queue pair's command ring. -/
def entryAddr (s : State) (q i : Nat) : Nat := (s.qp q).ringAddr + 64 * (i % 2 ^ (s.qp q).ringLog2)

/-- The words of an entry, and the state that has read them. -/
def entryRead (s : State) (q i : Nat) : List RawWord × State :=
  s.extReads .gate (8 * (entryAddr s q i / 8)) (wordsOf (entryAddr s q i) 64).length

theorem takeEntry_eq (s : State) (q i : Nat) (busy : Bool) : s.takeEntry q i busy =
    entryTaken (entryRead s q i).2 q i busy ((entryRead s q i).1.flatMap (fun w => leBytes w.data.toNat 8)) := by
  have e : State.takeEntry = delta% State.takeEntry := rfl
  rw [e]
  beta_reduce
  extract_lets x at_
  have ha : s.extReads .gate (8 * (at_ / 8)) (wordsOf at_ 64).length = entryRead s q i := rfl
  rw [ha]
  generalize entryRead s q i = y
  obtain ⟨l, t⟩ := y
  rfl

theorem length_wordsOf {x n : Nat} (hn : n ≠ 0) : (wordsOf x n).length = (x + n - 1) / 8 - x / 8 + 1 := by
  unfold wordsOf
  rw [if_neg hn, List.length_map, List.length_range]

theorem mem_wordsOf {x n w : Nat} (hn : n ≠ 0) : w ∈ wordsOf x n ↔ x / 8 ≤ w ∧ w ≤ (x + n - 1) / 8 := by
  unfold wordsOf
  rw [if_neg hn, List.mem_map]
  constructor
  · rintro ⟨i, hi, rfl⟩
    rw [List.mem_range] at hi
    have : x / 8 ≤ (x + n - 1) / 8 := Nat.div_le_div_right (by omega)
    omega
  · rintro ⟨h1, h2⟩
    exact ⟨w - x / 8, List.mem_range.2 (by omega), by omega⟩

/-- An entry whose words stand clean is read as they stand. -/
theorem entryRead_clean {s : State} {q i : Nat} (h8 : entryAddr s q i % 8 = 0) (hd : s.memc.delivered = none)
    (hc : ∀ w ∈ wordsOf (entryAddr s q i) 64, s.extServe (8 * w) = 0 ∧ s.frameClean (w / 32) = true) :
    (entryRead s q i).1.flatMap (fun w => leBytes w.data.toNat 8) = s.bytes (entryAddr s q i) 64 ∧
    readView (entryRead s q i).2 = readView s ∧ ReadKeeps s (entryRead s q i).2 := by
  have hlen : (wordsOf (entryAddr s q i) 64).length = 8 := by
    rw [length_wordsOf (by decide)]
    omega
  have e8 : 8 * (entryAddr s q i / 8) = entryAddr s q i := by omega
  unfold entryRead
  rw [hlen, e8]
  obtain ⟨h1, h2, h3⟩ := extReads_clean (o := .gate) (n := 8) h8 hd (fun w hw1 hw2 => hc w ((mem_wordsOf (by decide)).2 (by omega)))
  rw [h1, bytes_cells, e8]
  exact ⟨rfl, h2, h3⟩

/-! ### Doorbells -/

/-- A connection as a doorbell leaves it. -/
def rungConn (cqci : Nat) (x : QpX) : QpX := { x with cqci := cqci, retries := 0 }

/-- A doorbell counted and noted at its queue pair (R444). -/
def rung (s : State) (q cqci : Nat) : State :=
  let v := (s.count C.GATE_CNT_RXBYTES 0 8).modQp q (rungConn cqci)
  { v with board := { v.board with lastHost := v.time } }

theorem rung_quiet (s : State) (q cqci : Nat) : let v := rung s q cqci
    v.regs = s.regs ∧ mems v = mems s ∧ v.memc = s.memc ∧ v.hut = s.hut ∧ v.out = s.out ∧ v.cfg = s.cfg ∧
    v.qp q = rungConn cqci (s.qp q) ∧ v.ctr C.GATE_CNT_BUSY = s.ctr C.GATE_CNT_BUSY := by
  intro v
  have hc : (s.count C.GATE_CNT_RXBYTES 0 8).ctr C.GATE_CNT_BUSY = s.ctr C.GATE_CNT_BUSY := State.ctr_count_ne _ _ (by decide)
  have hr : (s.count C.GATE_CNT_RXBYTES 0 8).regs = s.regs := State.count_regs ..
  have hm : mems (s.count C.GATE_CNT_RXBYTES 0 8) = mems s := by simp
  have hq : (s.count C.GATE_CNT_RXBYTES 0 8).qp q = s.qp q := rfl
  have hrest : (s.count C.GATE_CNT_RXBYTES 0 8).memc = s.memc ∧ (s.count C.GATE_CNT_RXBYTES 0 8).hut = s.hut ∧
      (s.count C.GATE_CNT_RXBYTES 0 8).out = s.out ∧ (s.count C.GATE_CNT_RXBYTES 0 8).cfg = s.cfg := ⟨rfl, rfl, rfl, rfl⟩
  have hv : v = { (s.count C.GATE_CNT_RXBYTES 0 8).modQp q (rungConn cqci) with
    board := { ((s.count C.GATE_CNT_RXBYTES 0 8).modQp q (rungConn cqci)).board with
      lastHost := ((s.count C.GATE_CNT_RXBYTES 0 8).modQp q (rungConn cqci)).time } } := rfl
  clear_value v
  generalize s.count C.GATE_CNT_RXBYTES 0 8 = u at hc hr hm hq hrest hv
  obtain ⟨h1, h2, h3, h4⟩ := hrest
  subst hv
  refine ⟨hr, hm, h1, h2, h3, h4, ?_, hc⟩
  exact (qp_modQp_same u q (rungConn cqci)).trans (by rw [hq])

/-- How many entries a doorbell brings. -/
def newEntries (s : State) (q pi : Nat) : Nat := (pi + 2 ^ 32 - s.rd F.GATE_QP_CI 0 q) % 2 ^ 32

/-- Entries taken in order, from a state. -/
def entriesTaken (v : State) (q ci n : Nat) : State × Bool :=
  (List.range n).foldl (fun (acc : State × Bool) k => acc.1.takeEntry q ((ci + k) % 2 ^ 32) acc.2) (v, false)

theorem doorbell_eq {s : State} {q : Nat} (ho : s.qpOpen q = true) (pi cqci : Nat) : s.doorbell q pi cqci =
    if newEntries (rung s q cqci) q pi > 2 ^ (s.qp q).ringLog2 then (rung s q cqci).loseQp q 1
    else (entriesTaken (rung s q cqci) q ((rung s q cqci).rd F.GATE_QP_CI 0 q) (newEntries (rung s q cqci) q pi)).1.wr F.GATE_QP_CI 0 q pi := by
  have e : State.doorbell = delta% State.doorbell := rfl
  rw [e]
  beta_reduce
  rw [if_neg (by rw [ho]; decide)]
  extract_lets -merge -lift +onlyGivenNames x v
  generalize hr : ({ v with board := { v.board with lastHost := v.time } } : State) = r
  have hv : r = rung s q cqci := hr.symm
  clear_value v
  extract_lets w ci n
  subst hv
  have hx : x = s.qp q := rfl
  have hn : n = newEntries w q pi := rfl
  have hci : ci = w.rd F.GATE_QP_CI 0 q := rfl
  have hw : w = rung s q cqci := rfl
  clear_value n ci w x
  subst hx hw hn
  rw [← hci]
  have he : ((List.range (newEntries (rung s q cqci) q pi)).foldl
      (fun (acc : State × Bool) k => acc.1.takeEntry q ((ci + k) % 2 ^ 32) acc.2) (rung s q cqci, false)) =
      entriesTaken (rung s q cqci) q ci (newEntries (rung s q cqci) q pi) := by
    unfold entriesTaken
    with_reducible rfl
  rewrite [he]
  generalize entriesTaken (rung s q cqci) q ci (newEntries (rung s q cqci) q pi) = y
  obtain ⟨t, busy⟩ := y
  rfl

theorem entriesTaken_one (v : State) (q : Nat) {ci : Nat} (h : ci < 2 ^ 32) : entriesTaken v q ci 1 = v.takeEntry q ci false := by
  unfold entriesTaken
  rw [show List.range 1 = [0] from rfl, List.foldl_cons, List.foldl_nil, Nat.add_zero, Nat.mod_eq_of_lt h]

section
variable {s : State} {n : QpNo}

theorem rd_ci_lt (s : State) (q : Nat) : s.rd F.GATE_QP_CI 0 q < 2 ^ 32 := fieldGet_lt ..

theorem rung_ci (s : State) (q cqci : Nat) : (rung s q cqci).rd F.GATE_QP_CI 0 q = s.rd F.GATE_QP_CI 0 q := rd_of_regs (rung_quiet s q cqci).1 ..

theorem newEntries_rung (s : State) (q cqci pi : Nat) : newEntries (rung s q cqci) q pi = (pi + 2 ^ 32 - s.rd F.GATE_QP_CI 0 q) % 2 ^ 32 := by
  unfold newEntries
  rw [rung_ci]

/-- A doorbell of one entry takes it. -/
theorem doorbell_one (ho : s.qpOpen n.toNat = true) {pi : Nat} (cqci : Nat) (hpi : pi = (s.rd F.GATE_QP_CI 0 n.toNat + 1) % 2 ^ 32) :
    s.doorbell n.toNat pi cqci = ((rung s n.toNat cqci).takeEntry n.toNat (s.rd F.GATE_QP_CI 0 n.toNat) false).1.wr F.GATE_QP_CI 0 n.toNat pi := by
  have hlt := rd_ci_lt s n.toNat
  have hone : newEntries (rung s n.toNat cqci) n.toNat pi = 1 := by
    rw [newEntries_rung]
    omega
  rw [doorbell_eq ho, hone, if_neg (by have := Nat.two_pow_pos (s.qp n.toNat).ringLog2; omega), rung_ci, entriesTaken_one _ _ hlt]

theorem busy_ne_rdbytes (b : Nat) : C.GATE_CNT_BUSY.address 0 ≠ C.MEM_CNT_RDBYTES.address b := by
  simp only [C.GATE_CNT_BUSY, C.MEM_CNT_RDBYTES, Ctr.address]
  omega

/-- What a doorbell leaves when it has read an entry whose bytes stand clean. -/
theorem entryOf_rung {cqci : Nat} (hx : entryAddr s n.toNat (s.rd F.GATE_QP_CI 0 n.toNat) = x) (h8 : x % 8 = 0) (hd : s.memc.delivered = none)
    (hc : ∀ w ∈ wordsOf x 64, s.extServe (8 * w) = 0 ∧ s.frameClean (w / 32) = true) : ∃ v,
    (rung s n.toNat cqci).takeEntry n.toNat (s.rd F.GATE_QP_CI 0 n.toNat) false = entryTaken v n.toNat (s.rd F.GATE_QP_CI 0 n.toNat) false (s.bytes x 64) ∧
    v.regs = s.regs ∧ mems v = mems s ∧ v.hut = s.hut ∧ v.qp n.toNat = rungConn cqci (s.qp n.toNat) ∧
    v.ctr C.GATE_CNT_BUSY = s.ctr C.GATE_CNT_BUSY := by
  obtain ⟨hr, hm, hmemc, hhut, -, -, hqp, hctr⟩ := rung_quiet s n.toNat cqci
  rw [takeEntry_eq]
  generalize rung s n.toNat cqci = u at *
  have hv : readView u = readView s := by
    unfold readView
    rw [hr, hm, hmemc]
  have ha : entryAddr u n.toNat (s.rd F.GATE_QP_CI 0 n.toNat) = x := by
    rw [← hx]
    unfold entryAddr
    rw [hqp]
    rfl
  obtain ⟨hl, hvw, hk⟩ := entryRead_clean (s := u) (q := n.toNat) (i := s.rd F.GATE_QP_CI 0 n.toNat) (ha ▸ h8) (by rw [hmemc, hd])
    (fun w hw => (clean_congr hv w).2 (hc w (ha ▸ hw)))
  obtain ⟨h1, h2, -, -⟩ := readView_parts hvw
  rw [hl, ha]
  refine ⟨(entryRead u n.toNat (s.rd F.GATE_QP_CI 0 n.toNat)).2, ?_, h2.trans hr, h1.trans hm, (hk (·.hut) (fun _ _ => rfl) (fun _ _ _ => rfl)).trans hhut,
    (hk (·.qp n.toNat) (fun _ _ => rfl) (fun _ _ _ => rfl)).trans hqp,
    (hk (·.ctr C.GATE_CNT_BUSY) (fun _ _ => rfl) (fun _ _ _ => State.ctr_count_ne _ _ (busy_ne_rdbytes _))).trans hctr⟩
  congr 1
  exact List.map_congr_left fun i _ => (SameMem.of_mems hm (x + i)).1

/-- A doorbell is rung at an open queue pair of a device that is awake (R444, R471). -/
theorem execDoorbell_awake (hb : s.rd F.PWR_BIVOUAC_STATE = 0) (pi cq : BitVec 32) :
    exec (.doorbell n pi cq) s = .next (s.doorbell n.toNat pi.toNat cq.toNat) := congrArg Host.Outcome.next (if_pos hb)

theorem entryTaken_room {v : State} {q i : Nat} (hroom : v.hut.mailbox.length < 64) (l : List Byte) : (entryTaken v q i false l).1 =
    v.modHut (fun h => { h with mailbox := List.append h.mailbox [(entryCtx q i l, parseEntry l)] }) := by
  unfold entryTaken
  rw [if_neg (by simp; omega)]

theorem entryTaken_full {v : State} {q i : Nat} (hfull : 64 ≤ v.hut.mailbox.length) (l : List Byte) : (entryTaken v q i false l).1 =
    (v.complete (entryCtx q i l) (leNat (l.take 1)) 3 stBusy).count C.GATE_CNT_BUSY := by
  unfold entryTaken
  rw [if_pos (by simp; omega)]

theorem entryCtx_eq (l : List Byte) : entryCtx n.toNat (s.rd F.GATE_QP_CI 0 n.toNat) l =
    ⟨n, BitVec.ofNat 32 (s.rd F.GATE_QP_CI 0 n.toNat), leVec 32 ((l.drop 4).take 4), (l.getD 1 0).getLsbD 0⟩ := by
  unfold entryCtx
  rw [BitVec.ofNat_toNat, BitVec.setWidth_eq]

section
variable (ho : s.qpOpen n.toNat = true) (hb : s.rd F.PWR_BIVOUAC_STATE = 0) {pi cq : BitVec 32}
  (hpi : pi.toNat = (s.rd F.GATE_QP_CI 0 n.toNat + 1) % 2 ^ 32) {x : Nat} (hx : entryAddr s n.toNat (s.rd F.GATE_QP_CI 0 n.toNat) = x)
  (h8 : x % 8 = 0) (hd : s.memc.delivered = none) (hc : ∀ w ∈ wordsOf x 64, s.extServe (8 * w) = 0 ∧ s.frameClean (w / 32) = true)
include ho hb hpi hx h8 hd hc

theorem doorbellHandsOver (hroom : s.hut.mailbox.length < 64) : let l := s.bytes x 64
    Done (.doorbell n pi cq) s (fun t => t.rd F.GATE_QP_CI 0 n.toNat = pi.toNat ∧ (t.qp n.toNat).cqci = cq.toNat ∧
      t.hut.mailbox = List.append s.hut.mailbox
        [(⟨n, BitVec.ofNat 32 (s.rd F.GATE_QP_CI 0 n.toNat), leVec 32 ((l.drop 4).take 4), (l.getD 1 0).getLsbD 0⟩, parseEntry l)] ∧
      Frame s t (oneReg .GATE_QP 0 n.toNat)) := by
  intro l
  obtain ⟨v, hv, hr, hm, hh, hq, -⟩ := entryOf_rung (cqci := cq.toNat) hx h8 hd hc
  have hex := execDoorbell_awake (n := n) hb pi cq
  rw [doorbell_one ho _ hpi, hv, entryTaken_room (by rw [hh]; exact hroom), entryCtx_eq] at hex
  refine .next hex ⟨?_, ?_, congrArg (fun h : HutX => List.append h.mailbox _) hh, ⟨.of_mems ?_, ?_⟩⟩
  · rw [State.rd_wr_self _ _ _ _ _ (by decide)]
    exact Nat.mod_eq_of_lt pi.isLt
  · exact (congrArg QpX.cqci hq : _)
  · simp [hm]
  · exact (SameRegs.of_eq hr).wr (f := F.GATE_QP_CI) _ ⟨rfl, rfl, rfl⟩

theorem doorbellBusy (hfull : 64 ≤ s.hut.mailbox.length) :
    Done (.doorbell n pi cq) s (fun t => t.rd F.GATE_QP_CI 0 n.toNat = pi.toNat ∧
      t.hut.mailbox = s.hut.mailbox ∧ t.ctr C.GATE_CNT_BUSY = (s.ctr C.GATE_CNT_BUSY + 1) % 2 ^ 48 ∧
      (∃ c : Completion, (t.qp n.toNat).done = List.append (s.qp n.toNat).done [c] ∧ c.cls = 3 ∧ c.code = 1 ∧ c.idx = s.rd F.GATE_QP_CI 0 n.toNat) ∧
      Frame s t (oneReg .GATE_QP 0 n.toNat)) := by
  obtain ⟨v, hv, hr, hm, hh, hq, hctr⟩ := entryOf_rung (cqci := cq.toNat) hx h8 hd hc
  have hex := execDoorbell_awake (n := n) hb pi cq
  rw [doorbell_one ho _ hpi, hv, entryTaken_full (by rw [hh]; exact hfull), entryCtx_eq] at hex
  have hopen : v.rd F.GATE_QP_STATE 0 n.toNat ≠ 0 := by
    have : s.rd F.GATE_QP_STATE 0 n.toNat = 1 := by simpa [State.qpOpen] using ho
    rw [rd_of_regs hr, this]
    decide
  generalize leNat ((s.bytes x 64).take 1) = op at hex
  generalize hi : (⟨n, BitVec.ofNat 32 (s.rd F.GATE_QP_CI 0 n.toNat), leVec 32 (((s.bytes x 64).drop 4).take 4), ((s.bytes x 64).getD 1 0).getLsbD 0⟩ : Ctx) = c at hex
  have hcq : c.qp = n := hi ▸ rfl
  have hci : c.idx.toNat = s.rd F.GATE_QP_CI 0 n.toNat := by
    rw [← hi, BitVec.toNat_ofNat]
    exact Nat.mod_eq_of_lt (rd_ci_lt ..)
  obtain ⟨h1, h2, h3, h4, h5⟩ := complete_shows (s := v) (c := c) (by rw [hcq]; exact hopen) op 3 stBusy 0 0
  generalize v.complete c op 3 stBusy = w at *
  rw [hcq, hq] at h1
  refine .next hex ⟨?_, congrArg HutX.mailbox (h4.trans hh), ?_,
    ⟨⟨c.idx.toNat, c.tag, op, 3, stBusy, v.pitch % 2 ^ 32, 0, 0, c.notify⟩, h1, rfl, rfl, hci⟩, ⟨.of_mems ?_, ?_⟩⟩
  · rw [State.rd_wr_self _ _ _ _ _ (by decide)]
    exact Nat.mod_eq_of_lt pi.isLt
  · refine (State.ctr_count_same w C.GATE_CNT_BUSY 0 1).trans ?_
    rw [← hctr]
    unfold State.ctr
    rw [h5]
  · simp [h3, hm]
  · exact ((SameRegs.of_eq (h2.trans hr)).trans (.of_eq (State.count_regs ..))).wr (f := F.GATE_QP_CI) _ ⟨rfl, rfl, rfl⟩

end

/-- A doorbell past the ring loses the connection. -/
theorem doorbellPastRing (ho : s.qpOpen n.toNat = true) (hb : s.rd F.PWR_BIVOUAC_STATE = 0) {pi cq : BitVec 32}
    (hover : 2 ^ (s.qp n.toNat).ringLog2 < (pi.toNat + 2 ^ 32 - s.rd F.GATE_QP_CI 0 n.toNat) % 2 ^ 32) (hno : NoStreamOn s n.toNat)
    (hadmin : s.isAdmin n.toNat = false ∨ s.rd F.CFG_DEV_STATE_STATE ≠ 2) : Done (.doorbell n pi cq) s (fun t =>
      t.rd F.GATE_QP_STATE 0 n.toNat = 0 ∧ t.out = List.append s.out [.disconnect n.toNat 1] ∧ Frame s t (oneReg .GATE_QP 0 n.toNat)) := by
  have hex := execDoorbell_awake (n := n) hb pi cq
  rw [doorbell_eq ho, if_pos (by rw [newEntries_rung]; exact hover)] at hex
  obtain ⟨hr, hm, -, -, hout, hcfg, -, -⟩ := rung_quiet s n.toNat cq.toNat
  have hadm : (rung s n.toNat cq.toNat).isAdmin n.toNat = s.isAdmin n.toNat := rfl
  generalize rung s n.toNat cq.toNat = u at *
  have hst : s.rd F.GATE_QP_STATE 0 n.toNat = 1 := by simpa [State.qpOpen] using ho
  have hstream : NoStreamOn u n.toNat := fun k hk hrec => by
    rw [stream_congr (congrArg CfgX.streams hcfg)]
    exact hno k hk (by rw [← hrec]; unfold State.receiving; rw [rd_of_regs hr])
  have hl : u.loseQp n.toNat 1 = u.closeQp n.toNat 1 := by
    unfold State.loseQp
    rw [if_neg, truncateIf_none hstream]
    rw [hadm, rd_of_regs hr, Bool.and_eq_true, beq_iff_eq]
    rcases hadmin with e | e
    · simp [e]
    · simp [e]
  rw [hl] at hex
  obtain ⟨h1, -, h3, -, h5, h6⟩ := closeQp_closes (s := u) (q := n.toNat) (by rw [rd_of_regs hr, hst]; decide) 1
  exact .next hex ⟨h1, h3.trans (by rw [hout]; rfl), (SameMem.of_mems hm).trans h5, (SameRegs.of_eq hr).trans h6⟩

/-! ### Stream bytes -/

theorem execStreamBytes_awake (ho : s.qpOpen n.toNat = true) (hb : s.rd F.PWR_BIVOUAC_STATE = 0) (len : BitVec 16) :
    exec (.streamBytes n len) s = .next (s.streamBytes n.toNat len.toNat) :=
  congrArg Host.Outcome.next ((if_pos hb).trans (if_pos ho))

theorem find?_range_unique {m k : Nat} {p : Nat → Bool} (hk : k < m) (h : ∀ j, j < m → (p j = true ↔ j = k)) : (List.range m).find? p = some k := by
  obtain ⟨j, hj⟩ : ∃ j, (List.range m).find? p = some j :=
    Option.isSome_iff_exists.1 (List.find?_isSome.2 ⟨k, List.mem_range.2 hk, (h k hk).2 rfl⟩)
  rw [hj, (h j (List.mem_range.1 (List.mem_of_find?_eq_some hj))).1 (List.find?_some hj)]

/-- A stream whose header needs no key, or that has it, is not rejected for want of one (R405). -/
theorem needKey_keyed {v : State} {k : Nat} (h : ∀ hd, (v.stream k).hdr = some hd → hd.flags.getLsbD 0 = false ∨ (v.stream k).key.isSome = true) :
    v.needKey k = v := by
  unfold State.needKey
  dsimp only
  generalize hx : (v.stream k).hdr = x
  match x, hx with
  | none, _ => rfl
  | some hd, hx => exact if_pos (by rcases h hd hx with e | e <;> rw [e] <;> simp)

/-- Bytes counted as received change no stream. -/
theorem receivedBytes_quiet (s : State) (len : Nat) : let v := s.count C.GATE_CNT_RXBYTES 0 len
    v.regs = s.regs ∧ mems v = mems s ∧ (∀ k, v.stream k = s.stream k) ∧ (∀ k, v.takesBytes k = s.takesBytes k) ∧ (∀ k, v.baseAgain k = s.baseAgain k) :=
  ⟨State.count_regs .., by simp, fun _ => rfl, fun _ => rfl, fun _ => rfl⟩

/-- Bytes that continue a stream move its offset E on (R396, R444). -/
theorem consume_goesOn {v : State} {k : Nat} (hba : v.baseAgain k = false)
    (hkey : ∀ hd, (v.stream k).hdr = some hd → hd.flags.getLsbD 0 = false ∨ (v.stream k).key.isSome = true) (e : Nat) : let t := v.consume k e
    t.posE k = e % 2 ^ 48 ∧ t.ctr C.CFG_CNT_STREAM_BYTES = (v.ctr C.CFG_CNT_STREAM_BYTES + (e - v.posE k)) % 2 ^ 48 ∧ Frame v t (oneReg .CFG_STREAM_POS 0 k) := by
  intro t
  have ht : t = v.consume k e := rfl
  clear_value t
  subst ht
  unfold State.consume
  generalize hu : ({ v with board := { v.board with lastHost := v.time } } : State) = u
  have hub : u.baseAgain k = v.baseAgain k := hu ▸ rfl
  have hus : u.stream k = v.stream k := hu ▸ rfl
  have hup : u.posE k = v.posE k := hu ▸ rfl
  have huc : u.ctr C.CFG_CNT_STREAM_BYTES = v.ctr C.CFG_CNT_STREAM_BYTES := hu ▸ rfl
  have hur : u.regs = v.regs := hu ▸ rfl
  have hum : mems u = mems v := hu ▸ rfl
  dsimp only
  rw [hub, hba, if_neg (by decide), ← hup]
  have hcc := State.ctr_count_same u C.CFG_CNT_STREAM_BYTES 0 (e - u.posE k)
  have hcs : (u.count C.CFG_CNT_STREAM_BYTES 0 (e - u.posE k)).stream k = u.stream k := rfl
  have hcr := State.count_regs u C.CFG_CNT_STREAM_BYTES 0 (e - u.posE k)
  have hcm := mems_count u C.CFG_CNT_STREAM_BYTES 0 (e - u.posE k)
  generalize u.count C.CFG_CNT_STREAM_BYTES 0 (e - u.posE k) = w at *
  have hws : (w.wr F.CFG_STREAM_POS_OFFSET 0 k e).stream k = v.stream k := hcs.trans hus
  rw [needKey_keyed (by rw [hws]; exact hkey)]
  refine ⟨State.rd_wr_self _ _ _ _ _ (by decide), ?_, .of_mems ?_, ?_⟩
  · rw [← huc]
    exact hcc
  · simp [hcm, hum]
  · exact (SameRegs.of_eq (hcr.trans hur)).wr (f := F.CFG_STREAM_POS_OFFSET) _ ⟨rfl, rfl, rfl⟩

theorem streamBytesGoOn (ho : s.qpOpen n.toNat = true) (hb : s.rd F.PWR_BIVOUAC_STATE = 0) (len : BitVec 16) {k : Nat} (hk : k < 17)
    (hu : ∀ j, j < 17 → (s.takesBytes j = true ∧ (s.stream j).multicast = false ∧ (s.stream j).qp = n.toNat ↔ j = k)) (hba : s.baseAgain k = false)
    (hkey : ∀ h, (s.stream k).hdr = some h → h.flags.getLsbD 0 = false ∨ (s.stream k).key.isSome = true) :
    Done (.streamBytes n len) s (fun t => t.posE k = (s.posE k + len.toNat) % 2 ^ 48 ∧
      t.ctr C.CFG_CNT_STREAM_BYTES = (s.ctr C.CFG_CNT_STREAM_BYTES + len.toNat) % 2 ^ 48 ∧ Frame s t (oneReg .CFG_STREAM_POS 0 k)) := by
  have hex := execStreamBytes_awake ho hb len
  obtain ⟨hcr, hcm, hcs, hct, hcb⟩ := receivedBytes_quiet s len.toNat
  have hfind : (List.range 17).find? (fun j => (s.count C.GATE_CNT_RXBYTES 0 len.toNat).takesBytes j &&
      !((s.count C.GATE_CNT_RXBYTES 0 len.toNat).stream j).multicast && ((s.count C.GATE_CNT_RXBYTES 0 len.toNat).stream j).qp == n.toNat) = some k := by
    refine find?_range_unique hk fun j hj => ?_
    simp only [hcs, hct, Bool.and_eq_true, Bool.not_eq_true', beq_iff_eq, and_assoc]
    exact hu j hj
  unfold State.streamBytes at hex
  dsimp only at hex
  rewrite [hfind] at hex
  dsimp only at hex
  rw [hcb, hba, if_neg (by decide)] at hex
  have hc : (s.count C.GATE_CNT_RXBYTES 0 len.toNat).ctr C.CFG_CNT_STREAM_BYTES = s.ctr C.CFG_CNT_STREAM_BYTES := State.ctr_count_ne _ _ (by decide)
  have hp : (s.count C.GATE_CNT_RXBYTES 0 len.toNat).posE k = s.posE k := rd_of_regs hcr ..
  specialize hcs k
  specialize hcb k
  generalize s.count C.GATE_CNT_RXBYTES 0 len.toNat = v at *
  obtain ⟨h1, h2, h3, h4⟩ := consume_goesOn (v := v) (k := k) (by rw [hcb, hba]) (by rw [hcs]; exact hkey) (v.posE k + len.toNat)
  refine .next hex ⟨h1.trans (by rw [hp]), h2.trans ?_, (SameMem.of_mems hcm).trans h3, (SameRegs.of_eq hcr).trans h4⟩
  rw [hc, Nat.add_sub_cancel_left]

theorem streamBytesDrop (ho : s.qpOpen n.toNat = true) (hb : s.rd F.PWR_BIVOUAC_STATE = 0) (len : BitVec 16)
    (hu : ∀ j, j < 17 → ¬ (s.takesBytes j = true ∧ (s.stream j).multicast = false ∧ (s.stream j).qp = n.toNat)) :
    Done (.streamBytes n len) s (fun t => t.ctr C.GATE_CNT_RXDROP = (s.ctr C.GATE_CNT_RXDROP + 1) % 2 ^ 48 ∧ Frame s t noReg) := by
  have hex := execStreamBytes_awake ho hb len
  obtain ⟨hcr, hcm, hcs, hct, hcb⟩ := receivedBytes_quiet s len.toNat
  have hfind : (List.range 17).find? (fun j => (s.count C.GATE_CNT_RXBYTES 0 len.toNat).takesBytes j &&
      !((s.count C.GATE_CNT_RXBYTES 0 len.toNat).stream j).multicast && ((s.count C.GATE_CNT_RXBYTES 0 len.toNat).stream j).qp == n.toNat) = none := by
    refine List.find?_eq_none.2 fun j hj e => hu j (List.mem_range.1 hj) ?_
    simpa only [hcs, hct, Bool.and_eq_true, Bool.not_eq_true', beq_iff_eq, and_assoc] using e
  unfold State.streamBytes at hex
  dsimp only at hex
  rewrite [hfind] at hex
  have hc : (s.count C.GATE_CNT_RXBYTES 0 len.toNat).ctr C.GATE_CNT_RXDROP = s.ctr C.GATE_CNT_RXDROP := State.ctr_count_ne _ _ (by decide)
  generalize s.count C.GATE_CNT_RXBYTES 0 len.toNat = v at *
  refine .next hex ⟨?_, .of_mems (by simp [hcm]), .of_eq ((State.count_regs ..).trans hcr)⟩
  rw [← hc]
  exact State.ctr_count_same v C.GATE_CNT_RXDROP 0 1

/-! ### Completion records -/

/-- A queue pair whose next record, of index `i`, has been written. -/
def pastRecord (i : Nat) (x : QpX) : QpX := { x with done := x.done.filter (fun d => d.idx != i), nextCq := (i + 1) % 2 ^ 32 }

/-- The record of a completion written to the host's ring, and its notification (R446). -/
def completionSent (s : State) (q : Nat) (c : Completion) : State :=
  let x := s.qp q
  let v := ((s.modQp q (pastRecord x.nextCq)).count C.GATE_CNT_TXBYTES 0 32).emit
    (.completion q (x.nextCq % 2 ^ x.cqLog2) (x.nextCq / 2 ^ x.cqLog2 % 2 == 0) c)
  if c.notify then v.emit (.notification q x.nextCq) else v

theorem completionSent_shows (s : State) (q : Nat) (c : Completion) : let t := completionSent s q c
    let x := s.qp q
    t.regs = s.regs ∧ mems t = mems s ∧
    t.out = List.append s.out (.completion q (x.nextCq % 2 ^ x.cqLog2) (x.nextCq / 2 ^ x.cqLog2 % 2 == 0) c ::
      (if c.notify then [.notification q x.nextCq] else [])) ∧ t.qp q = pastRecord x.nextCq x := by
  intro t x
  have ht : t = completionSent s q c := rfl
  clear_value t
  subst ht
  have hq := qp_modQp_same s q (pastRecord x.nextCq)
  have hm := mems_modQp s q (pastRecord x.nextCq)
  have hr : (s.modQp q (pastRecord x.nextCq)).regs = s.regs := rfl
  have ho : (s.modQp q (pastRecord x.nextCq)).out = s.out := rfl
  unfold completionSent
  dsimp only
  generalize s.modQp q (pastRecord x.nextCq) = v at *
  have hcr := State.count_regs v C.GATE_CNT_TXBYTES 0 32
  have hcq : (v.count C.GATE_CNT_TXBYTES 0 32).qp q = v.qp q := rfl
  have hco : (v.count C.GATE_CNT_TXBYTES 0 32).out = v.out := rfl
  have hcm := mems_count v C.GATE_CNT_TXBYTES 0 32
  generalize v.count C.GATE_CNT_TXBYTES 0 32 = w at *
  generalize hw : w.emit (.completion q (x.nextCq % 2 ^ x.cqLog2) (x.nextCq / 2 ^ x.cqLog2 % 2 == 0) c) = u
  have hu : u.regs = w.regs ∧ mems u = mems w ∧ u.out = List.append w.out [.completion q (x.nextCq % 2 ^ x.cqLog2) (x.nextCq / 2 ^ x.cqLog2 % 2 == 0) c] ∧
    u.qp q = w.qp q := hw ▸ ⟨rfl, rfl, rfl, rfl⟩
  obtain ⟨hur, hum, huo, huq⟩ := hu
  rw [hco, ho] at huo
  cases c.notify with
  | false => exact ⟨hur.trans (hcr.trans hr), hum.trans (hcm.trans hm), huo, huq.trans (hcq.trans hq)⟩
  | true =>
    refine ⟨hur.trans (hcr.trans hr), hum.trans (hcm.trans hm), ?_, huq.trans (hcq.trans hq)⟩
    refine (congrArg (fun l => List.append l _) huo).trans ?_
    exact List.append_assoc ..

theorem completionsAreWritten (ho : s.qpOpen n.toNat = true) {c : Completion}
    (hroom : ((s.qp n.toNat).nextCq + 2 ^ 32 - (s.qp n.toNat).cqci) % 2 ^ 32 < 2 ^ (s.qp n.toNat).cqLog2)
    (hf : (s.qp n.toNat).done.find? (fun c => c.idx == (s.qp n.toNat).nextCq) = some c) :
    let x := s.qp n.toNat
    let i := x.nextCq
    Done (.completionWrite n) s (fun t => t.out = List.append s.out (.completion n.toNat (i % 2 ^ x.cqLog2) (i / 2 ^ x.cqLog2 % 2 == 0) c ::
        (if c.notify then [.notification n.toNat i] else [])) ∧
      (t.qp n.toNat).nextCq = (i + 1) % 2 ^ 32 ∧ (∀ d ∈ (t.qp n.toNat).done, d.idx ≠ i) ∧ Frame s t noReg) := by
  intro x i
  have hex : exec (.completionWrite n) s = .next (completionSent s n.toNat c) := by
    refine congrArg Host.Outcome.next ((if_neg (by simp [ho]; exact hroom)).trans ?_)
    rewrite [hf]
    rfl
  obtain ⟨h1, h2, h3, h4⟩ := completionSent_shows s n.toNat c
  refine .next hex ⟨h3, ?_, ?_, ⟨.of_mems h2, .of_eq h1⟩⟩
  · rw [h4]
    rfl
  · rw [h4]
    intro d hd
    simpa using (List.mem_filter.1 hd).2


/-! ### Bivouac -/

/-- A doorbell in Bivouac waits in order and wakes the device. -/
theorem doorbellWakes (hb : s.rd F.PWR_BIVOUAC_STATE = 2) (hw : s.gate.wakeBytes + 8 ≤ wakeSize) (pi cq : BitVec 32) :
    Done (.doorbell n pi cq) s (fun t => t.gate.wakeBuf = List.append s.gate.wakeBuf [.doorbell n pi cq] ∧ t.rd F.PWR_BIVOUAC_STATE = 3 ∧
      t.rd F.PWR_BIVOUAC_WAKE_SRC = 1 ∧ t.hut.mailbox = s.hut.mailbox ∧ Frame s t (oneReg .PWR_BIVOUAC 0 0)) := by
  have hex : exec (.doorbell n pi cq) s = .next ((s.modGate (fun g => { g with wakeBuf := List.append g.wakeBuf [.doorbell n pi cq], wakeBytes := g.wakeBytes + 8 })).wrs 0 0
      [(F.PWR_BIVOUAC_STATE, 3), (F.PWR_BIVOUAC_WAKE_SRC, 1)]) := by
    refine congrArg Host.Outcome.next ((if_neg (by rw [hb]; decide)).trans ?_)
    dsimp only
    rw [if_pos hw]
    unfold State.wakeEvent
    rw [show (s.modGate (fun g => { g with wakeBuf := List.append g.wakeBuf [.doorbell n pi cq], wakeBytes := g.wakeBytes + 8 })).rd F.PWR_BIVOUAC_STATE = 2 from hb]
    rfl
  refine .next hex ⟨rfl, ?_, ?_, rfl, ⟨.of_mems (by simp), ?_⟩⟩
  · simp (disch := decide) only [State.wrs, List.foldl, State.rd_wr_self, State.rd_wr_other]
    decide
  · simp (disch := decide) only [State.wrs, List.foldl, State.rd_wr_self]
    decide
  · exact (SameRegs.of_eq rfl).wrs (by simp [oneReg, F.PWR_BIVOUAC_STATE, F.PWR_BIVOUAC_WAKE_SRC])

end

/-- Settles O46. -/
theorem doorbellsHandCommandsOver : Obligations.DoorbellsHandCommandsOver := by
  unfold Obligations.DoorbellsHandCommandsOver
  intro s n ho q x ci qp
  refine ⟨fun pi cq hb => ?_, fun len hb => ⟨?_, ?_⟩, fun c hroom hf => completionsAreWritten ho hroom hf, fun pi cq hb hw => doorbellWakes hb hw pi cq⟩
  · intro addr l
    refine ⟨fun hpi h8 hd hc => ⟨?_, ?_⟩, fun hover hno hadmin => doorbellPastRing ho hb hover hno hadmin⟩
    · exact fun hroom => doorbellHandsOver ho hb hpi rfl h8 hd hc hroom
    · exact fun hfull => doorbellBusy ho hb hpi rfl h8 hd hc hfull
  · exact fun k hk hu hba hkey => streamBytesGoOn ho hb len hk hu hba hkey
  · exact fun hu => streamBytesDrop ho hb len hu

end Sys2Proof.Proofs
end

section
/-! PROOF. Partitions and grants (R317, R318, R320, R321), and the answers of host commands (R438, R446). -/

namespace Sys2Proof.Proofs

open Sys2Proof Sys2Proof.Machine

/-! ### Answers -/

/-- A state that still answers a command as the state it came from does: its queue pair and the pitch are as they were. -/
def Answers (s v : State) (c : Ctx) : Prop :=
  v.qp c.qp.toNat = s.qp c.qp.toNat ∧ v.rd F.GATE_QP_STATE 0 c.qp.toNat = s.rd F.GATE_QP_STATE 0 c.qp.toNat ∧ v.pitch = s.pitch

section
variable {s v : State} {c : Ctx}

theorem Answers.refl (s : State) (c : Ctx) : Answers s s c := ⟨rfl, rfl, rfl⟩

theorem Answers.of_eq (hg : v.gate = s.gate) (hr : v.regs = s.regs) : Answers s v c :=
  ⟨congrArg (fun g : GateX => (aget g.qps c.qp.toNat).getD QpX.reset) hg, rd_of_regs hr .., rd_of_regs hr ..⟩

theorem Answers.wr (h : Answers s v c) {f : Fld} (h1 : f.reg ≠ .GATE_QP) (h2 : f.reg ≠ .COL_PITCH_NUM) (a i n : Nat) : Answers s (v.wr f a i n) c := by
  obtain ⟨hq, hs, hp⟩ := h
  refine ⟨hq, ?_, ?_⟩
  · rw [← hs]
    exact congrArg (fieldGet F.GATE_QP_STATE) (State.word_wr_other _ _ _ _ _ _ h1.symm)
  · rw [← hp]
    exact congrArg (fieldGet F.COL_PITCH_NUM_PITCH) (State.word_wr_other _ _ _ _ _ _ h2.symm)

/-- A completion at an open queue pair. -/
theorem Answers.completed (h : Answers s v c) (ho : s.rd F.GATE_QP_STATE 0 c.qp.toNat ≠ 0) (op cls code res det : Nat) :
    Completed s (v.complete c op cls code res det) c op cls code res det := by
  obtain ⟨hq, hs, hp⟩ := h
  obtain ⟨h1, -⟩ := complete_shows (s := v) (c := c) (by rw [hs]; exact ho) op cls code res det
  rw [hq, hp] at h1
  exact h1

theorem complete_quiet (v : State) (c : Ctx) (op cls code res det : Nat) : let t := v.complete c op cls code res det
    t.regs = v.regs ∧ mems t = mems v ∧ t.hut = v.hut ∧ t.cfg = v.cfg ∧ t.counters = v.counters := by
  intro t
  have ht : t = v.complete c op cls code res det := rfl
  clear_value t
  subst ht
  unfold State.complete
  dsimp only
  split <;> exact ⟨rfl, rfl, rfl, rfl, rfl⟩

/-- A command refused: its completion, and no register beyond those changed before. -/
theorem commandRefused (ho : s.rd F.GATE_QP_STATE 0 c.qp.toNat ≠ 0) (h : Answers s v c) {R : RegName → Nat → Nat → Prop} (hf : Frame s v R) (op code : Nat) :
    let t := v.status c op code
    Completed s t c op 3 code 0 0 ∧ Frame s t R ∧ t.regs = v.regs ∧ t.hut = v.hut := by
  intro t
  have ht : t = v.complete c op 3 code := rfl
  clear_value t
  subst ht
  obtain ⟨h1, h2, h3, -⟩ := complete_quiet v c op 3 code 0 0
  exact ⟨h.completed ho .., ⟨hf.1.trans (.of_mems h2), hf.2.trans (.of_eq h1)⟩, h1, h3⟩

end

/-! ### Commands of the admin -/

theorem grantRefusal_lt {s : State} {p k b n st code : Nat} (h : s.grantRefusal p k b n = some (st, code)) : st < 4 := by
  unfold State.grantRefusal at h
  split at h
  · cases h; decide
  split at h
  · cases h; decide
  split at h
  · cases h; decide
  · cases h

theorem grantInRange {s : State} {k m : Nat} (hr : s.memReady = true) (hm : m ≤ 16 * s.liveChans k) (hg : s.groupState k ∈ [0, 3]) :
    ¬ ((!s.memReady) = true ∨ m > 16 * s.liveChans k ∨ [1, 2, 4].contains (s.groupState k) = true) := by
  rintro (e | e | e)
  · simp [hr] at e
  · omega
  · simp only [List.mem_cons, List.not_mem_nil, or_false] at hg
    rcases hg with g | g <;> simp [g] at e

/-- A change of the partitions that waits for the boundary, behind the others (R317, R318, R321). -/
def withPart (s : State) (r : PartReq) : State := s.modHut (fun h => { h with parts := List.append h.parts [r] })

@[simp] theorem mems_withPart (s : State) (r : PartReq) : mems (withPart s r) = mems s := mems_modHut ..

/-- A grant in order waits for the boundary, and its register shows whether granules are to be zeroed (R320, R321). -/
theorem grantPending (s : State) (p k b n : Nat) (z : Bool) (c : Ctx) :
    let t := (withPart (s.wr F.HUT_GRANT_STATUS 0 (4 * p + k) 0) (.grant p k b n z c)).settleZeroing p k
    t.rd F.HUT_GRANT_STATUS 0 (4 * p + k) = 0 ∧
    t.rd F.HUT_GRANT_ZEROING 0 (4 * p + k) = (s.hut.parts.any (fun r => r.zeroingOf p k) || z).toNat ∧ t.gate = s.gate ∧
    t.hut.parts = List.append s.hut.parts [.grant p k b n z c] ∧ Frame s t (oneReg .HUT_GRANT 0 (4 * p + k)) := by
  intro t
  have hany : (List.append s.hut.parts [.grant p k b n z c]).any (fun r => r.zeroingOf p k) = (s.hut.parts.any (fun r => r.zeroingOf p k) || z) := by
    rw [List.append_eq, List.any_append]
    simp [PartReq.zeroingOf]
  have ht : t = (withPart (s.wr F.HUT_GRANT_STATUS 0 (4 * p + k) 0) (.grant p k b n z c)).wr
      F.HUT_GRANT_ZEROING 0 (4 * p + k) ((List.append s.hut.parts [.grant p k b n z c]).any (fun r => r.zeroingOf p k)).toNat := rfl
  clear_value t
  rw [hany] at ht
  subst ht
  refine ⟨?_, ?_, rfl, rfl, ⟨.of_mems (by simp), ?_⟩⟩
  · rw [State.rd_wr_other _ _ _ _ _ _ (by decide)]
    exact State.rd_wr_self _ _ _ _ _ (by decide)
  · rw [State.rd_wr_self _ _ _ _ _ (by decide)]
    exact Nat.mod_eq_of_lt (Bool.toNat_lt _)
  · exact ((SameRegs.refl s _).wr (f := F.HUT_GRANT_STATUS) 0 ⟨rfl, rfl, rfl⟩).wr (f := F.HUT_GRANT_ZEROING) _ ⟨rfl, rfl, rfl⟩

theorem partRefusal_lt {s : State} {o : PartOps} {st code : Nat} (h : s.partRefusal o = some (st, code)) : st < 8 := by
  unfold State.partRefusal at h
  dsimp only at h
  split at h
  · cases h; decide
  split at h
  · cases h; decide
  split at h
  · cases h; decide
  · cases h

section
variable {s : State} {c : Ctx} (ho : s.rd F.GATE_QP_STATE 0 c.qp.toNat ≠ 0) (ha : s.isAdmin c.qp.toNat = true)
  (h3 : s.rd F.GATE_QP_GVER 0 c.qp.toNat ≠ 2)

include ha h3 in
theorem asAdmin_runs (op : Nat) (f : State → State) : s.asAdmin c op f = f s := (if_pos ha).trans (if_neg h3)

/-- A command that shows why it is refused in its register, and completes with the reason. -/
theorem shownRefused (ho : s.rd F.GATE_QP_STATE 0 c.qp.toNat ≠ 0) {f : Fld} (h1 : f.reg ≠ .GATE_QP) (h2 : f.reg ≠ .COL_PITCH_NUM)
    {i st : Nat} (hb : f.lo + f.width ≤ 64) (hst : st < 2 ^ f.width) (op code : Nat) : let t := (s.wr f 0 i st).status c op code
    t.rd f 0 i = st ∧ t.hut.parts = s.hut.parts ∧ Completed s t c op 3 code 0 0 ∧ Frame s t (oneReg f.reg 0 i) := by
  intro t
  obtain ⟨hc, hf, hr, hh⟩ := commandRefused ho ((Answers.refl s c).wr h1 h2 0 i st) (Frame.wr (R := oneReg f.reg 0 i) s st ⟨rfl, rfl, rfl⟩) op code
  refine ⟨?_, congrArg HutX.parts hh, hc, hf⟩
  rw [rd_of_regs hr, State.rd_wr_self _ _ _ _ _ hb]
  exact Nat.mod_eq_of_lt hst

include ho ha h3

theorem partitionsAreCreated {o : PartOps} (hp : o.p.toNat ≤ 15) (ht : o.tenant.toNat ≤ 15) (hact : s.rd F.GATE_TENANT_ACTIVE 0 o.tenant.toNat = 1)
    (hno : s.tenantHolds o.tenant.toNat = false) :
    (s.partRefusal o = none → Done (.partCreate c o) s (fun t => t.rd F.HUT_PART_STATUS 0 o.p.toNat = 4 ∧
      t.hut.parts = List.append s.hut.parts [.create o c] ∧ t.gate = s.gate ∧ Frame s t (oneReg .HUT_PART 0 o.p.toNat))) ∧
    (∀ st code, s.partRefusal o = some (st, code) → Done (.partCreate c o) s (fun t => t.rd F.HUT_PART_STATUS 0 o.p.toNat = st ∧
      t.hut.parts = s.hut.parts ∧ Completed s t c 18 3 code 0 0 ∧ Frame s t (oneReg .HUT_PART 0 o.p.toNat))) := by
  have hex : exec (.partCreate c o) s = .next (match s.partRefusal o with
      | some (st, code) => (s.wr F.HUT_PART_STATUS 0 o.p.toNat st).status c opPartCreate code
      | none => withPart (s.wr F.HUT_PART_STATUS 0 o.p.toNat 4) (.create o c)) := by
    refine congrArg Host.Outcome.next ((asAdmin_runs ha h3 ..).trans ((if_neg (by omega)).trans ((if_neg (by omega)).trans ((if_neg (by simp [hno])).trans ?_))))
    generalize s.partRefusal o = r
    match r with
    | none => rfl
    | some (_, _) => rfl
  refine ⟨fun hr => ?_, fun st code hr => ?_⟩
  · rewrite [hr] at hex
    exact .next hex ⟨State.rd_wr_self _ _ _ _ _ (by decide), rfl, rfl, Frame.wr s 4 ⟨rfl, rfl, rfl⟩⟩
  · rewrite [hr] at hex
    exact .next hex (shownRefused ho (by decide) (by decide) (by decide) (partRefusal_lt hr) ..)

theorem partitionsAreRemoved {p : Byte} (hp : p.toNat ≤ 15) (hact : s.rd F.HUT_PART_ACTIVE 0 p.toNat = 1) :
    let busy := ((aget s.hut.wanan p.toNat).map WananX.busy).getD false
    (s.openSects p.toNat = [] → busy = false → Done (.partRemove c p) s (fun t => t.rd F.HUT_PART_STATUS 0 p.toNat = 4 ∧
      t.hut.parts = List.append s.hut.parts [.remove p.toNat c] ∧ Frame s t (oneReg .HUT_PART 0 p.toNat))) ∧
    ((s.openSects p.toNat ≠ [] ∨ busy = true) → Done (.partRemove c p) s (fun t => t.rd F.HUT_PART_STATUS 0 p.toNat = 5 ∧
      t.hut.parts = s.hut.parts ∧ Completed s t c 19 3 23 0 0 ∧ Frame s t (oneReg .HUT_PART 0 p.toNat))) := by
  intro busy
  have hex : exec (.partRemove c p) s = .next (if !(s.openSects p.toNat).isEmpty || busy then (s.wr F.HUT_PART_STATUS 0 p.toNat 5).status c opPartRemove stPartLive
      else withPart (s.wr F.HUT_PART_STATUS 0 p.toNat 4) (.remove p.toNat c)) :=
    congrArg Host.Outcome.next ((asAdmin_runs ha h3 ..).trans (if_neg (by omega)))
  refine ⟨fun hl hb => ?_, fun h => ?_⟩
  · rw [if_neg (by simp [hl, hb])] at hex
    exact .next hex ⟨State.rd_wr_self _ _ _ _ _ (by decide), rfl, Frame.wr s 4 ⟨rfl, rfl, rfl⟩⟩
  · rw [if_pos (by rcases h with e | e <;> simp [e])] at hex
    exact .next hex (shownRefused ho (by decide) (by decide) (by decide) (by decide) ..)

theorem grantsAreMade {o : GrantOps} (hp : o.p.toNat ≤ 15) (hact : s.rd F.HUT_PART_ACTIVE 0 o.p.toNat = 1) (hk : o.group.toNat ≤ 3) :
    (∀ st code, s.grantRefusal o.p.toNat o.group.toNat o.base.toNat o.size.toNat = some (st, code) → Done (.grant c o) s (fun t =>
      t.rd F.HUT_GRANT_STATUS 0 (4 * o.p.toNat + o.group.toNat) = st ∧ t.hut.parts = s.hut.parts ∧
      Completed s t c 20 3 code 0 0 ∧ Frame s t (oneReg .HUT_GRANT 0 (4 * o.p.toNat + o.group.toNat)))) ∧
    (s.grantRefusal o.p.toNat o.group.toNat o.base.toNat o.size.toNat = none →
      let z := (granulesOf o.group.toNat o.base.toNat o.size.toNat).any (fun g => aget s.hut.lastOwner g != some (s.tenantOf o.p.toNat))
      Done (.grant c o) s (fun t => t.rd F.HUT_GRANT_STATUS 0 (4 * o.p.toNat + o.group.toNat) = 0 ∧
        t.rd F.HUT_GRANT_ZEROING 0 (4 * o.p.toNat + o.group.toNat) = (s.hut.parts.any (fun r => r.zeroingOf o.p.toNat o.group.toNat) || z).toNat ∧
        t.gate = s.gate ∧ t.hut.parts = List.append s.hut.parts [.grant o.p.toNat o.group.toNat o.base.toNat o.size.toNat z c] ∧
        Frame s t (oneReg .HUT_GRANT 0 (4 * o.p.toNat + o.group.toNat)))) := by
  have hex : exec (.grant c o) s = .next (match s.grantRefusal o.p.toNat o.group.toNat o.base.toNat o.size.toNat with
      | some (st, code) => (s.wr F.HUT_GRANT_STATUS 0 (4 * o.p.toNat + o.group.toNat) st).status c opGrant code
      | none => (withPart (s.wr F.HUT_GRANT_STATUS 0 (4 * o.p.toNat + o.group.toNat) 0)
          (.grant o.p.toNat o.group.toNat o.base.toNat o.size.toNat ((granulesOf o.group.toNat o.base.toNat o.size.toNat).any
            (fun g => aget s.hut.lastOwner g != some (s.tenantOf o.p.toNat))) c)).settleZeroing o.p.toNat o.group.toNat) := by
    refine congrArg Host.Outcome.next ((asAdmin_runs ha h3 ..).trans ((if_neg (by omega)).trans ((if_neg (by omega)).trans ?_)))
    generalize s.grantRefusal o.p.toNat o.group.toNat o.base.toNat o.size.toNat = r
    match r with
    | none => rfl
    | some (_, _) => rfl
  refine ⟨fun st code hr => ?_, fun hr => ?_⟩
  · rewrite [hr] at hex
    exact .next hex (shownRefused ho (by decide) (by decide) (by decide) (grantRefusal_lt hr) ..)
  · intro z
    rewrite [hr] at hex
    have hz : z = (granulesOf o.group.toNat o.base.toNat o.size.toNat).any (fun g => aget s.hut.lastOwner g != some (s.tenantOf o.p.toNat)) := rfl
    dsimp only at hex
    rw [← hz] at hex
    clear_value z
    exact .next hex (grantPending s _ _ _ _ _ _)

end

/-- Settles O52. -/
theorem partitionsAndGrants : Obligations.PartitionsAndGrants := by
  unfold Obligations.PartitionsAndGrants
  intro s c ho ha h3
  refine ⟨fun o hp ht hact hno => partitionsAreCreated ho ha h3 hp ht hact hno, fun p hp hact => partitionsAreRemoved ho ha h3 hp hact, ?_⟩
  intro o p k b n reg no hp hact hk
  obtain ⟨hno, hyes⟩ := grantsAreMade ho ha h3 hp hact hk
  refine ⟨fun hm => hno 1 17 ?_, fun hm h => hno 2 18 ?_, fun hm hb hg => hno 2 18 ?_, fun hm hr hb hg => ⟨fun hl => hno 3 19 ?_, fun hl => hyes ?_⟩⟩
  · exact if_pos hm
  · refine (if_neg (by rw [hm]; decide)).trans (if_pos ?_)
    rcases h with e | e
    · exact .inl (by simp [e])
    · exact .inr (.inl e)
  · exact (if_neg (by rw [hm]; decide)).trans (if_pos (.inr (.inr (by simpa using hg))))
  · exact (if_neg (by rw [hm]; decide)).trans ((if_neg (grantInRange hr hb hg)).trans (if_pos hl))
  · exact (if_neg (by rw [hm]; decide)).trans ((if_neg (grantInRange hr hb hg)).trans (if_neg (by rw [hl]; decide)))

end Sys2Proof.Proofs
end

section
/-! PROOF. The mailbox and the tenants (R317, R338, R438, R439, R446). -/

namespace Sys2Proof.Proofs

open Sys2Proof Sys2Proof.Machine

/-! ### The mailbox -/

/-- The state in which the first command of the mailbox runs. -/
def dispatched (s : State) (l : List (Ctx × HostCmd)) : State :=
  (s.modHut (fun h => { h with mailbox := l })).modBoard (fun b => { b with lastHost := s.time })

theorem commandDispatch_eq {s : State} {c : Ctx} {k : HostCmd} {l : List (Ctx × HostCmd)} (h : s.hut.mailbox = (c, k) :: l) :
    exec .commandDispatch s = .next ((dispatched s l).hostCmd c k) := by
  have e : exec .commandDispatch s = execCommandDispatch s := rfl
  rw [e]
  unfold execCommandDispatch
  rewrite [h]
  rfl

theorem badCommandAnswered {s : State} {c : Ctx} {l : List (Ctx × HostCmd)} (ho : s.rd F.GATE_QP_STATE 0 c.qp.toNat ≠ 0) {op : Byte}
    (h : s.hut.mailbox = (c, .bad op) :: l) : Done .commandDispatch s (fun t => Completed s t c op.toNat 3 2 0 0 ∧ t.hut.mailbox = l ∧ Frame s t noReg) := by
  obtain ⟨h1, h2, h3, h4⟩ := commandRefused (s := s) (v := dispatched s l) (c := c) ho (.of_eq rfl rfl) (R := noReg) ⟨.of_mems rfl, .of_eq rfl⟩ op.toNat 2
  exact .next (commandDispatch_eq h) ⟨h1, congrArg HutX.mailbox h4, h2⟩

/-- A command that is only refused: its completion, and nothing else. -/
theorem answeredOnly {i : Instr} {s : State} {c : Ctx} {op code : Nat} (ho : s.rd F.GATE_QP_STATE 0 c.qp.toNat ≠ 0) (hex : exec i s = .next (s.status c op code)) :
    Done i s (fun t => Completed s t c op 3 code 0 0 ∧ Frame s t noReg) := by
  obtain ⟨h1, h2, -⟩ := commandRefused ho (Answers.refl s c) (Frame.refl s noReg) op code
  exact .next hex ⟨h1, h2⟩

/-! ### The creation of a tenant -/

theorem complete_tokens (v : State) (c : Ctx) (op cls code res det : Nat) : (v.complete c op cls code res det).gate.tokens = v.gate.tokens := by
  unfold State.complete
  dsimp only
  split <;> rfl

theorem complete_snaps (v : State) (c : Ctx) (op cls code res det : Nat) : (v.complete c op cls code res det).snaps = v.snaps := by
  unfold State.complete
  dsimp only
  split <;> rfl

section
variable {s : State} {c : Ctx}

/-- The accounting counters of a tenant, at 0 with their snapshots (Table 12-3). -/
def accountsCleared (s : State) (i : Nat) (l : List Ctr) : State := l.foldl (fun (s : State) k =>
  { s with counters := aput s.counters (k.address i) 0, snaps := aput s.snaps (k.address i) 0 }) s

theorem accountsCleared_quiet (i : Nat) (l : List Ctr) (s : State) : let t := accountsCleared s i l
    t.regs = s.regs ∧ mems t = mems s ∧ t.gate = s.gate ∧ t.hut = s.hut := by
  induction l generalizing s with
  | nil => exact ⟨rfl, rfl, rfl, rfl⟩
  | cons k l ih => exact ih _

theorem accountsCleared_keeps (i : Nat) (l : List Ctr) {a : Nat} (s : State) (h : aget s.counters a = some 0 ∧ aget s.snaps a = some 0) :
    aget (accountsCleared s i l).counters a = some 0 ∧ aget (accountsCleared s i l).snaps a = some 0 := by
  induction l generalizing s with
  | nil => exact h
  | cons k l ih =>
    refine ih _ ?_
    by_cases e : a = k.address i
    · subst e
      exact ⟨aget_aput_same .., aget_aput_same ..⟩
    · exact ⟨(aget_aput_ne _ _ e).trans h.1, (aget_aput_ne _ _ e).trans h.2⟩

theorem accountsCleared_clears (i : Nat) (l : List Ctr) (s : State) : ∀ k ∈ l, (accountsCleared s i l).ctr k i = 0 ∧
    aget (accountsCleared s i l).snaps (k.address i) = some 0 := by
  induction l generalizing s with
  | nil => nofun
  | cons k l ih =>
    intro j hj
    rcases List.mem_cons.1 hj with rfl | hj
    · obtain ⟨h1, h2⟩ := accountsCleared_keeps i l { s with counters := aput s.counters (j.address i) 0, snaps := aput s.snaps (j.address i) 0 }
        ⟨aget_aput_same .., aget_aput_same ..⟩
      exact ⟨congrArg (fun o : Option Nat => o.getD 0) h1, h2⟩
    · exact ih _ j hj

/-- A tenant's record (R439). -/
def tenantRecord (s : State) (i e maxqp : Nat) : State :=
  s.wrs 0 i [(F.GATE_TENANT_ACTIVE, 1), (F.GATE_TENANT_EXPERT, e), (F.GATE_TENANT_MAXQP, maxqp)]

theorem tenantRecord_shows {i e maxqp : Nat} (he : e < 2) (hm : maxqp < 1024) : let t := tenantRecord s i e maxqp
    t.rd F.GATE_TENANT_ACTIVE 0 i = 1 ∧ t.rd F.GATE_TENANT_EXPERT 0 i = e ∧ t.rd F.GATE_TENANT_MAXQP 0 i = maxqp ∧
    Answers s t c ∧ Frame s t (oneReg .GATE_TENANT 0 i) := by
  unfold tenantRecord
  refine ⟨?_, ?_, ?_, ?_, Frame.wrs s (by simp [oneReg, F.GATE_TENANT_ACTIVE, F.GATE_TENANT_EXPERT, F.GATE_TENANT_MAXQP])⟩
  · simp (disch := decide) only [State.wrs, List.foldl, State.rd_wr_self, State.rd_wr_other]
    decide
  · simp (disch := decide) only [State.wrs, List.foldl, State.rd_wr_self, State.rd_wr_other]
    exact Nat.mod_eq_of_lt he
  · simp (disch := decide) only [State.wrs, List.foldl, State.rd_wr_self]
    exact Nat.mod_eq_of_lt hm
  · simp only [State.wrs, List.foldl]
    exact (((Answers.refl s c).wr (by decide) (by decide) ..).wr (by decide) (by decide) ..).wr (by decide) (by decide) ..

/-- A tenant's token, kept (R436). -/
def tokenKept (v : State) (i : Nat) (token : BitVec 64) : State := v.modGate (fun g => { g with tokens := aput g.tokens i token })

theorem tokenKept_shows (v : State) (i : Nat) (token : BitVec 64) : let t := tokenKept v i token
    aget t.gate.tokens i = some token ∧ t.regs = v.regs ∧ mems t = mems v ∧ t.gate.qps = v.gate.qps :=
  ⟨aget_aput_same .., rfl, rfl, rfl⟩

theorem tenantsAreCreated (ho : s.rd F.GATE_QP_STATE 0 c.qp.toNat ≠ 0) (ha : s.isAdmin c.qp.toNat = true) (h3 : s.rd F.GATE_QP_GVER 0 c.qp.toNat ≠ 2)
    {tn : Byte} (hi : tn.toNat ≤ 15) (h0 : s.rd F.GATE_TENANT_ACTIVE 0 tn.toNat = 0) (ex : Bool) {maxqp : BitVec 16} (hq : s.allQps + maxqp.toNat + 1 ≤ 1024)
    (token : BitVec 64) : Done (.tenantCreate c tn ex maxqp token) s (fun t =>
      t.rd F.GATE_TENANT_ACTIVE 0 tn.toNat = 1 ∧ t.rd F.GATE_TENANT_EXPERT 0 tn.toNat = ex.toNat ∧
      t.rd F.GATE_TENANT_MAXQP 0 tn.toNat = maxqp.toNat ∧ aget t.gate.tokens tn.toNat = some token ∧
      (∀ k ∈ acctCounters, t.ctr k tn.toNat = 0 ∧ aget t.snaps (k.address tn.toNat) = some 0) ∧ Completed s t c 16 0 0 0 0 ∧
      Frame s t (oneReg .GATE_TENANT 0 tn.toNat)) := by
  have hex : exec (.tenantCreate c tn ex maxqp token) s =
      .next ((accountsCleared (tokenKept (tenantRecord s tn.toNat ex.toNat maxqp.toNat) tn.toNat token) tn.toNat acctCounters).ok c opTenantCreate) :=
    congrArg Host.Outcome.next ((asAdmin_runs ha h3 ..).trans ((if_neg (by omega)).trans ((if_neg (by omega)).trans ((if_neg (by omega)).trans rfl))))
  obtain ⟨m1, m2, m3, m4, m5⟩ := tenantRecord_shows (s := s) (c := c) (i := tn.toNat) (Bool.toNat_lt ex) (show maxqp.toNat < 1024 by omega)
  generalize tenantRecord s tn.toNat ex.toNat maxqp.toNat = v at *
  obtain ⟨m6, m7, m8, m9⟩ := tokenKept_shows v tn.toNat token
  generalize tokenKept v tn.toNat token = u at *
  obtain ⟨a1, a2, a3, a4⟩ := accountsCleared_quiet tn.toNat acctCounters u
  have a5 := accountsCleared_clears tn.toNat acctCounters u
  generalize accountsCleared u tn.toNat acctCounters = w at *
  have hr : w.regs = v.regs := a1.trans m7
  have hans : Answers s w c := by
    obtain ⟨h1, h2, h3⟩ := m4
    refine ⟨?_, (rd_of_regs hr ..).trans h2, (rd_of_regs hr ..).trans h3⟩
    rw [← h1]
    unfold State.qp
    rw [a3, m9]
  obtain ⟨k1, k2, -, -, k5⟩ := complete_quiet w c opTenantCreate 0 0 0 0
  have hfin := hans.completed ho opTenantCreate 0 0 0 0
  have hrt := k1.trans hr
  have hgate : aget (w.complete c opTenantCreate 0 0 0 0).gate.tokens tn.toNat = some token := by
    rw [complete_tokens, a3]
    exact m6
  have hsn : (w.complete c opTenantCreate 0 0 0 0).snaps = w.snaps := complete_snaps ..
  refine .next hex ⟨(rd_of_regs hrt ..).trans m1, (rd_of_regs hrt ..).trans m2, (rd_of_regs hrt ..).trans m3, hgate, fun k hk => ?_, hfin, ?_⟩
  · obtain ⟨c1, c2⟩ := a5 k hk
    exact ⟨(congrArg (fun m => (aget m (k.address tn.toNat)).getD 0) k5).trans c1, (congrArg (fun m => aget m (k.address tn.toNat)) hsn).trans c2⟩
  · exact ⟨m5.1.trans (.of_mems (k2.trans (a2.trans m8))), m5.2.trans (.of_eq hrt)⟩

/-! ### The removal of a tenant -/

theorem closeQp_gate {q : Nat} (h : s.rd F.GATE_QP_STATE 0 q ≠ 0) (reason : Nat) : (s.closeQp q reason).gate =
    { s.gate with qps := adel s.gate.qps q, adminQp := if s.isAdmin q then none else s.gate.adminQp,
                  adminLostAt := if s.isAdmin q then some s.time else s.gate.adminLostAt } := by
  unfold State.closeQp
  rw [if_neg h]
  have hg : (if reason = 0 then s else s.emit (.disconnect q reason)).gate = s.gate := by split <;> rfl
  generalize (if reason = 0 then s else s.emit (.disconnect q reason)) = v at hg
  rw [← hg]
  rfl

/-- A tenant's connection closed, while no stream is under way (R437, R439). -/
theorem ownedLost {n : Nat} (hs : ∀ k, k < 17 → s.receiving k = false) (hna : s.isAdmin n = false) : let t := s.loseQp n 2
    t.rd F.GATE_QP_STATE 0 n = 0 ∧ (∀ m, m ≠ n → aget t.gate.qps m = aget s.gate.qps m) ∧ t.gate.tokens = s.gate.tokens ∧
    Frame s t (oneReg .GATE_QP 0 n) := by
  have ht : s.loseQp n 2 = s.closeQp n 2 := by
    unfold State.loseQp
    rw [hna, if_neg (by simp), truncateIf_none (fun k hk e => by rw [hs k hk] at e; cases e)]
  rw [ht]
  by_cases h0 : s.rd F.GATE_QP_STATE 0 n = 0
  · rw [show s.closeQp n 2 = s from if_pos h0]
    exact ⟨h0, fun _ _ => rfl, rfl, Frame.refl ..⟩
  · obtain ⟨h1, -, -, -, h5⟩ := closeQp_closes h0 2
    refine ⟨h1, ?_, ?_, h5⟩
    · intro m hm
      rw [closeQp_gate h0]
      exact aget_adel_ne _ hm
    · rw [closeQp_gate h0]

/-- The connections of a tenant closed, one after another. -/
theorem allLost {i : Nat} (hi : i ≤ 15) : ∀ (l : List Nat) (s : State), l.Nodup → (∀ k, k < 17 → s.receiving k = false) →
    (∀ n ∈ l, s.rd F.GATE_QP_OWNER 0 n = i) → let t := l.foldl (fun s n => s.loseQp n 2) s
    (∀ n ∈ l, t.rd F.GATE_QP_STATE 0 n = 0) ∧ (∀ n, n ∉ l → t.word .GATE_QP 0 n = s.word .GATE_QP 0 n ∧ aget t.gate.qps n = aget s.gate.qps n) ∧
    t.gate.tokens = s.gate.tokens ∧ Frame s t (fun r a _ => r = .GATE_QP ∧ a = 0) := by
  intro l
  induction l with
  | nil => exact fun s _ _ _ => ⟨nofun, fun _ _ => ⟨rfl, rfl⟩, rfl, Frame.refl ..⟩
  | cons n l ih =>
    intro s hn hs ho
    obtain ⟨hnl, hn⟩ := List.nodup_cons.1 hn
    have hna : s.isAdmin n = false := by
      unfold State.isAdmin
      rw [ho n (List.mem_cons_self ..)]
      exact beq_false_of_ne (by omega)
    obtain ⟨h1, h2, h3, hm, hr⟩ := ownedLost hs hna
    have hword : ∀ m, m ≠ n → (s.loseQp n 2).word .GATE_QP 0 m = s.word .GATE_QP 0 m := fun m e => hr _ _ _ (fun h => e h.2.2)
    have hrec : ∀ k, (s.loseQp n 2).receiving k = s.receiving k := fun k =>
      congrArg (fun w => fieldGet F.CFG_STREAM_STATE w == 1) (hr .CFG_STREAM 0 k (fun h => by cases h.1))
    obtain ⟨i1, i2, i3, im, ir⟩ := ih (s.loseQp n 2) hn (fun k hk => (hrec k).trans (hs k hk)) (fun m hml =>
      (congrArg (fieldGet F.GATE_QP_OWNER) (hword m (fun e => hnl (e ▸ hml)))).trans (ho m (List.mem_cons_of_mem _ hml)))
    refine ⟨?_, fun m hml => ?_, i3.trans h3, hm.trans im, (hr.mono fun r a j h => ⟨h.1, h.2.1⟩).trans ir⟩
    · intro m hml
      rcases List.mem_cons.1 hml with rfl | hml
      · exact (congrArg (fieldGet F.GATE_QP_STATE) (i2 m hnl).1).trans h1
      · exact i1 m hml
    · obtain ⟨hne, hnot⟩ := not_or.1 (fun h => hml (List.mem_cons.2 h))
      exact ⟨(i2 m hnot).1.trans (hword m hne), (i2 m hnot).2.trans (h2 m hne)⟩

/-- A tenant without its record and its token (R439). -/
def tenantGone (v : State) (i : Nat) : State := (v.setWord .GATE_TENANT 0 i 0).modGate (fun g => { g with tokens := adel g.tokens i })

theorem tenantGone_shows (v : State) (i : Nat) : let t := tenantGone v i
    t.rd F.GATE_TENANT_ACTIVE 0 i = 0 ∧ aget t.gate.tokens i = none ∧ t.gate.qps = v.gate.qps ∧ SameMem v t ∧
    SameRegs v t (oneReg .GATE_TENANT 0 i) := by
  refine ⟨?_, aget_adel_same .., rfl, .of_mems rfl, ((SameRegs.refl v _).setWord (r := .GATE_TENANT) 0 ⟨rfl, rfl, rfl⟩).trans (.of_eq rfl)⟩
  have e : (v.setWord .GATE_TENANT 0 i 0).word .GATE_TENANT 0 i = 0 := State.word_setWord_same ..
  exact (congrArg (fieldGet F.GATE_TENANT_ACTIVE) e).trans (by decide)

theorem tenantsAreRemoved (ho : s.rd F.GATE_QP_STATE 0 c.qp.toNat ≠ 0) (ha : s.isAdmin c.qp.toNat = true) (h3 : s.rd F.GATE_QP_GVER 0 c.qp.toNat ≠ 2)
    {tn : Byte} (hi : tn.toNat ≤ 15) (h1 : s.rd F.GATE_TENANT_ACTIVE 0 tn.toNat = 1) (hh : s.tenantHolds tn.toNat = false)
    (hs : ∀ k, k < 17 → s.receiving k = false) : Done (.tenantRemove c tn) s (fun t =>
      t.rd F.GATE_TENANT_ACTIVE 0 tn.toNat = 0 ∧ aget t.gate.tokens tn.toNat = none ∧
      (∀ n, n < 1024 → s.rd F.GATE_QP_OWNER 0 n = tn.toNat → t.rd F.GATE_QP_STATE 0 n = 0) ∧
      (∀ n, n < 1024 → s.rd F.GATE_QP_OWNER 0 n ≠ tn.toNat → t.word .GATE_QP 0 n = s.word .GATE_QP 0 n) ∧
      Completed s t c 17 0 0 0 0 ∧ SameMem s t) := by
  generalize hl : (List.range 1024).filter (fun n => s.rd F.GATE_QP_STATE 0 n != 0 && s.ofTenant tn.toNat n) = l
  have hex : exec (.tenantRemove c tn) s = .next ((tenantGone (l.foldl (fun s n => s.loseQp n 2) s) tn.toNat).ok c opTenantRemove) := by
    rw [← hl]
    exact congrArg Host.Outcome.next ((asAdmin_runs ha h3 ..).trans ((if_neg (by omega)).trans ((if_neg (by simp [hh])).trans rfl)))
  have hmem : ∀ n, n ∈ l ↔ n < 1024 ∧ s.rd F.GATE_QP_STATE 0 n ≠ 0 ∧ s.rd F.GATE_QP_OWNER 0 n = tn.toNat := by
    intro n
    rw [← hl]
    simp [State.ofTenant]
  have hq : c.qp.toNat ∉ l := fun h => by
    have e : s.rd F.GATE_QP_OWNER 0 c.qp.toNat = 16 := by simpa [State.isAdmin] using ha
    have := ((hmem _).1 h).2.2
    omega
  obtain ⟨a1, a2, a3, a4, a5⟩ := allLost hi l s (hl ▸ List.nodup_range.filter _) hs (fun n hn => ((hmem n).1 hn).2.2)
  generalize l.foldl (fun s n => s.loseQp n 2) s = v at *
  obtain ⟨g1, g2, g3, g4, g5⟩ := tenantGone_shows v tn.toNat
  generalize tenantGone v tn.toNat = w at *
  have hword : ∀ n, n ∉ l → w.word .GATE_QP 0 n = s.word .GATE_QP 0 n := fun n hn =>
    (g5 .GATE_QP 0 n (fun h => by cases h.1)).trans (a2 n hn).1
  have hans : Answers s w c := by
    refine ⟨?_, congrArg (fieldGet F.GATE_QP_STATE) (hword _ hq), ?_⟩
    · unfold State.qp
      rw [g3, (a2 _ hq).2]
    · exact (congrArg (fieldGet F.COL_PITCH_NUM_PITCH) ((g5 .COL_PITCH_NUM 0 0 (fun h => by cases h.1)).trans (a5 .COL_PITCH_NUM 0 0 (fun h => by cases h.1))) : _)
  obtain ⟨k1, k2, -, -, -⟩ := complete_quiet w c opTenantRemove 0 0 0 0
  have hkt := complete_tokens w c opTenantRemove 0 0 0 0
  have hfin := hans.completed ho opTenantRemove 0 0 0 0
  have hkw : ∀ n, (w.complete c opTenantRemove 0 0 0 0).word .GATE_QP 0 n = w.word .GATE_QP 0 n := fun n => by
    unfold State.word
    rw [k1]
  change exec (.tenantRemove c tn) s = .next (w.complete c opTenantRemove 0 0 0 0) at hex
  generalize w.complete c opTenantRemove 0 0 0 0 = z at *
  refine .next hex ⟨(rd_of_regs k1 ..).trans g1, by rw [hkt]; exact g2, fun n hn e => ?_, fun n hn e => ?_, hfin, (a4.trans g4).trans (.of_mems k2)⟩
  · by_cases h0 : n ∈ l
    · exact (congrArg (fieldGet F.GATE_QP_STATE) ((hkw n).trans (g5 .GATE_QP 0 n (fun h => by cases h.1)))).trans (a1 n h0)
    · refine (congrArg (fieldGet F.GATE_QP_STATE) ((hkw n).trans (hword n h0))).trans ?_
      by_contra hst
      exact h0 ((hmem n).2 ⟨hn, hst, e⟩)
  · exact (hkw n).trans (hword n (fun h => e ((hmem n).1 h).2.2))

end

/-- Settles O51. -/
theorem mailboxAndTenants : Obligations.MailboxAndTenants := by
  unfold Obligations.MailboxAndTenants
  intro s c ho q
  refine ⟨fun k l h => ?_, fun tn ex maxqp token => ?_⟩
  · have hex := commandDispatch_eq h
    refine ⟨?_, ?_, ?_, ?_, ?_, ?_, ?_⟩
    · rintro o rfl
      exact hex
    · rintro o rfl
      exact hex
    · rintro e p r rfl
      exact hex
    · rintro o rfl
      exact hex
    · rintro a v m rfl
      exact hex
    · rintro o rfl
      exact hex
    · rintro op rfl
      exact badCommandAnswered ho h
  · refine ⟨fun ha h3 hi h0 hq => tenantsAreCreated ho ha h3 hi h0 ex hq token, fun ha h3 hi h1 => ⟨?_, fun hh => ?_, fun hh hs => tenantsAreRemoved ho ha h3 hi h1 hh hs⟩,
      fun ha => ⟨?_, ?_⟩, fun ha h3 => ?_⟩
    · exact answeredOnly ho (congrArg Host.Outcome.next ((asAdmin_runs ha h3 ..).trans ((if_neg (by omega)).trans (if_pos h1))))
    · exact answeredOnly ho (congrArg Host.Outcome.next ((asAdmin_runs ha h3 ..).trans ((if_neg (by omega)).trans (if_pos hh))))
    · exact answeredOnly ho (congrArg Host.Outcome.next (if_neg (by rw [ha]; decide)))
    · exact answeredOnly ho (congrArg Host.Outcome.next (if_neg (by rw [ha]; decide)))
    · exact answeredOnly ho (congrArg Host.Outcome.next ((if_pos ha).trans (if_pos h3)))

end Sys2Proof.Proofs
end

section
/-! PROOF. Digest and Wanan commands (R337, R367, R446, R448). -/

namespace Sys2Proof.Proofs

open Sys2Proof Sys2Proof.Machine

/-! ### The list of ranges -/

theorem inGrant_regs {s t : State} (h : t.regs = s.regs) (p x n : Nat) : t.inGrant p x n = s.inGrant p x n := by
  unfold State.inGrant State.rd State.word
  rw [h]

theorem lanesOf_regs {s t : State} (h : t.regs = s.regs) (p k : Nat) : t.lanesOf p k = s.lanesOf p k := by
  unfold State.lanesOf State.partHolds State.rd State.word
  rw [h]

theorem digestRange_regs {s t : State} (h : t.regs = s.regs) (p : Nat) : t.digestRange p = s.digestRange p := by
  funext r
  unfold State.digestRange
  rw [inGrant_regs h, lanesOf_regs h]

theorem digestBuffer_congr {s t : State} (hh : t.hut = s.hut) (hs : t.sites = s.sites) (e : Nat) : t.digestBuffer e = s.digestBuffer e := by
  funext r
  unfold State.digestBuffer State.sectX? State.regionSites
  rw [hh, hs]

theorem live_regs {s t : State} (h : t.regs = s.regs) (e : Nat) : t.live e = s.live e := by
  unfold State.live State.sectState
  rw [rd_of_regs h]

section
variable {s : State} {c : Ctx}

/-- A list of ranges that stands clean is read, and nothing but the counts and the turns of the channels moves (R445). -/
theorem rangeList_clean {x n : Nat} {l : List (Nat × Nat)} (h : (s.rangeList c x n).1 = some l) (hd : s.memc.delivered = none)
    (hc : ∀ k, k < 2 * n → s.extServe (x + 8 * k) = 0 ∧ s.frameClean (stripeOf (x + 8 * k)) = true) :
    ∃ t, s.rangeList c x n = (some l, t) ∧ readView t = readView s ∧ ReadKeeps s t := by
  unfold State.rangeList at h ⊢
  by_cases hb : n = 0 ∨ n > 256 ∨ x % 8 ≠ 0 ∨ !s.memPermitted c.qp.toNat x (16 * n)
  · rw [if_pos hb] at h
    cases h
  · rw [if_neg hb] at h ⊢
    have h8 : x % 8 = 0 := by
      by_contra e
      exact hb (.inr (.inr (.inl e)))
    obtain ⟨-, hv, hk⟩ := extReads_clean (s := s) (o := .gate) (n := 2 * n) h8 hd (fun w h1 h2 => by
      have h := hc (w - x / 8) (by omega)
      rw [show x + 8 * (w - x / 8) = 8 * w by omega, stripeOf, show 8 * w / 256 = w / 32 by omega] at h
      exact h)
    unfold State.listAt at h ⊢
    generalize s.extReads .gate x (2 * n) = y at *
    obtain ⟨r, t⟩ := y
    refine ⟨t, ?_, hv, hk⟩
    injection h with h
    exact congrArg (fun l => (some l, t)) h

theorem asTenant_runs {p : Nat} (hp : s.partOfQp c.qp.toNat = some p) (op : Nat) (f : State → Nat → State) : s.asTenant c op f = f s p := by
  unfold State.asTenant
  rewrite [hp]
  rfl

/-- What reads of clean cells leave as it was (R446). -/
theorem ReadKeeps.answers {t : State} (hv : readView t = readView s) (hk : ReadKeeps s t) : Answers s t c :=
  .of_eq (hk (·.gate) (fun _ _ => rfl) (fun _ _ _ => rfl)) (readView_parts hv).2.1

theorem ReadKeeps.frame {t : State} (hv : readView t = readView s) (R : RegName → Nat → Nat → Prop) : Frame s t R :=
  ⟨.of_mems (readView_parts hv).1, .of_eq (readView_parts hv).2.1⟩

/-- A command answered: its completion, and no register beyond those changed before. -/
theorem commandAnswers {v : State} (ho : s.rd F.GATE_QP_STATE 0 c.qp.toNat ≠ 0) (h : Answers s v c) {R : RegName → Nat → Nat → Prop} (hf : Frame s v R)
    (op cls code res det : Nat) : let t := v.complete c op cls code res det
    Completed s t c op cls code res det ∧ Frame s t R ∧ t.regs = v.regs ∧ t.hut = v.hut := by
  obtain ⟨h1, h2, h3, -⟩ := complete_quiet v c op cls code res det
  exact ⟨h.completed ho .., ⟨hf.1.trans (.of_mems h2), hf.2.trans (.of_eq h1)⟩, h1, h3⟩

/-! ### Digests -/

/-- The registers of a digest that starts (R367). -/
theorem startDigest_shows (s : State) (p job : Nat) (l : List (Nat × Nat)) (c : Option Ctx) : let t := s.startDigest p job l c
    t.rd F.TAL_DIG_STATE 0 p = 1 ∧ t.rd F.TAL_DIG_ORIGIN 0 p = (if c.isSome then 1 else 0) ∧ t.rd F.TAL_DIG_DONE 0 p = 0 ∧
    t.rd F.TAL_DIG_LEAVES 0 p = (leavesOf l).length % 2 ^ 24 ∧ t.rd F.TAL_DIGSTEP_STEP 0 p = s.rd F.HUT_TRAIN_STEP 0 p ∧
    t.hut = { s.hut with digs := aput s.hut.digs p ⟨l, job, [], c.isNone, c⟩ } ∧ t.gate = s.gate ∧
    Frame s t (fun r a i => oneReg .TAL_DIG 0 p r a i ∨ oneReg .TAL_DIGSTEP 0 p r a i) := by
  intro t
  have hlt : s.rd F.HUT_TRAIN_STEP 0 p < 2 ^ 32 := fieldGet_lt ..
  have ho : (if c.isSome then 1 else 0) < 2 := by split <;> decide
  have ht : t = ((((((s.wr F.TAL_DIG_STATE 0 p 1).wr F.TAL_DIG_ORIGIN 0 p (if c.isSome then 1 else 0)).wr F.TAL_DIG_LEAVES 0 p (leavesOf l).length).wr
      F.TAL_DIG_DONE 0 p 0).wr F.TAL_DIGSTEP_STEP 0 p (s.rd F.HUT_TRAIN_STEP 0 p)).modHut (fun h => { h with digs := aput h.digs p ⟨l, job, [], c.isNone, c⟩ })) := by
    unfold t State.startDigest
    dsimp only [State.wrs, List.foldl]
    simp (disch := decide) only [State.rd_wr_other]
  clear_value t
  generalize (if c.isSome then 1 else 0) = o at *
  generalize s.rd F.HUT_TRAIN_STEP 0 p = n at *
  generalize (leavesOf l).length = m at *
  generalize hv : ((((s.wr F.TAL_DIG_STATE 0 p 1).wr F.TAL_DIG_ORIGIN 0 p o).wr F.TAL_DIG_LEAVES 0 p m).wr F.TAL_DIG_DONE 0 p 0).wr F.TAL_DIGSTEP_STEP 0 p n = v at ht
  have h1 : v.rd F.TAL_DIG_STATE 0 p = 1 ∧ v.rd F.TAL_DIG_ORIGIN 0 p = o ∧ v.rd F.TAL_DIG_DONE 0 p = 0 ∧ v.rd F.TAL_DIG_LEAVES 0 p = m % 2 ^ 24 ∧
      v.rd F.TAL_DIGSTEP_STEP 0 p = n := by
    subst hv
    simp (disch := decide) only [State.rd_wr_self, State.rd_wr_other]
    exact ⟨by decide, Nat.mod_eq_of_lt ho, by decide, rfl, Nat.mod_eq_of_lt hlt⟩
  have h2 : SameRegs s v (fun r a i => oneReg .TAL_DIG 0 p r a i ∨ oneReg .TAL_DIGSTEP 0 p r a i) := by
    subst hv
    refine SameRegs.wr (f := F.TAL_DIGSTEP_STEP) (SameRegs.wr (f := F.TAL_DIG_DONE) (SameRegs.wr (f := F.TAL_DIG_LEAVES)
      (SameRegs.wr (f := F.TAL_DIG_ORIGIN) (SameRegs.wr (f := F.TAL_DIG_STATE) (SameRegs.refl s _) 1 ?_) o ?_) m ?_) 0 ?_) n ?_
    · exact .inl ⟨rfl, rfl, rfl⟩
    · exact .inl ⟨rfl, rfl, rfl⟩
    · exact .inl ⟨rfl, rfl, rfl⟩
    · exact .inl ⟨rfl, rfl, rfl⟩
    · exact .inr ⟨rfl, rfl, rfl⟩
  have h3 : mems v = mems s ∧ v.gate = s.gate ∧ v.hut = s.hut := by
    subst hv
    exact ⟨by simp, by simp, by simp⟩
  clear hv
  subst ht
  obtain ⟨k1, k2, k3, k4, k5⟩ := h1
  exact ⟨k1, k2, k3, k4, k5, by rw [State.modHut, h3.2.2], h3.2.1, ⟨.of_mems h3.1, h2⟩⟩

section
variable {p : Nat} {o : DigestOps} {l : List (Nat × Nat)} (hp : s.partOfQp c.qp.toNat = some p)
  (h3 : s.rd F.GATE_QP_GVER 0 c.qp.toNat ≠ 2) (hl : (s.rangeList c o.list.toNat o.count.toNat).1 = some l) (hd : s.memc.delivered = none)
  (hc : ∀ k, k < 2 * o.count.toNat → s.extServe (o.list.toNat + 8 * k) = 0 ∧ s.frameClean (stripeOf (o.list.toNat + 8 * k)) = true)
include hp h3 hl hd hc

/-- A digest command at a list that stands clean: what it does with the ranges. -/
theorem digestSet_eq : ∃ t, exec (.digestSet c o) s = .next (
      if t.rd F.TAL_DIG_STATE 0 p = 1 then t.status c opDigestSet stDigestBusy
      else if !l.all (t.digestRange p) then t.status c opDigestSet stDigestRange
      else (t.modHut (fun h => { h with digSets := aput h.digSets (p * 65536 + o.job.toNat) l })).ok c opDigestSet) ∧
    readView t = readView s ∧ ReadKeeps s t := by
  obtain ⟨t, ht, hv, hk⟩ := rangeList_clean hl hd hc
  refine ⟨t, congrArg Host.Outcome.next ((if_neg h3).trans ((asTenant_runs hp ..).trans ?_)), hv, hk⟩
  rewrite [ht]
  rfl

theorem digestNow_eq : ∃ t, exec (.digestNow c o) s = .next (
      if o.job.toNat > 31 ∨ !t.live (32 * p + o.job.toNat) then t.status c opDigestNow stNotFound
      else if t.rd F.TAL_DIG_STATE 0 p = 1 then t.status c opDigestNow stDigestBusy
      else if !l.all (fun r => t.digestRange p r || t.digestBuffer (32 * p + o.job.toNat) r) then t.status c opDigestNow stDigestRange
      else t.startDigest p (t.jobOf (32 * p + o.job.toNat)) l (some c)) ∧
    readView t = readView s ∧ ReadKeeps s t := by
  obtain ⟨t, ht, hv, hk⟩ := rangeList_clean hl hd hc
  refine ⟨t, congrArg Host.Outcome.next ((if_neg h3).trans ((asTenant_runs hp ..).trans ?_)), hv, hk⟩
  rewrite [ht]
  rfl

theorem digestsAreSet (ho : s.rd F.GATE_QP_STATE 0 c.qp.toNat ≠ 0) :
    (s.rd F.TAL_DIG_STATE 0 p ≠ 1 →
      (l.all (s.digestRange p) = true → Done (.digestSet c o) s (fun t =>
        aget t.hut.digSets (p * 65536 + o.job.toNat) = some l ∧ Completed s t c 6 0 0 0 0 ∧ Frame s t noReg)) ∧
      (l.all (s.digestRange p) = false → Done (.digestSet c o) s (fun t => Completed s t c 6 3 10 0 0 ∧ Frame s t noReg))) ∧
    (s.rd F.TAL_DIG_STATE 0 p = 1 → Done (.digestSet c o) s (fun t => Completed s t c 6 3 22 0 0 ∧ Frame s t noReg)) := by
  obtain ⟨t, hex, hv, hk⟩ := digestSet_eq hp h3 hl hd hc
  have hr := (readView_parts hv).2.1
  rw [rd_of_regs hr, digestRange_regs hr] at hex
  have hans := hk.answers (c := c) hv
  have hfr := ReadKeeps.frame hv noReg
  refine ⟨fun hst => ⟨fun ha => ?_, fun ha => ?_⟩, fun hst => ?_⟩
  · rw [if_neg hst, ha, if_neg (by decide)] at hex
    obtain ⟨h1, h2, -, h4⟩ := commandAnswers (v := t.modHut (fun h => { h with digSets := aput h.digSets (p * 65536 + o.job.toNat) l })) ho hans hfr opDigestSet 0 0 0 0
    exact .next hex ⟨(congrArg (fun h : HutX => aget h.digSets (p * 65536 + o.job.toNat)) h4).trans (aget_aput_same ..), h1, h2⟩
  · rw [if_neg hst, ha, if_pos (by decide)] at hex
    obtain ⟨h1, h2, -⟩ := commandRefused ho hans hfr opDigestSet stDigestRange
    exact .next hex ⟨h1, h2⟩
  · rw [if_pos hst] at hex
    obtain ⟨h1, h2, -⟩ := commandRefused ho hans hfr opDigestSet stDigestBusy
    exact .next hex ⟨h1, h2⟩

theorem digestStarts (hj : o.job.toNat ≤ 31) (hlive : s.live (32 * p + o.job.toNat) = true) (hst : s.rd F.TAL_DIG_STATE 0 p ≠ 1)
    (ha : l.all (fun r => s.digestRange p r || s.digestBuffer (32 * p + o.job.toNat) r) = true) : Done (.digestNow c o) s (fun t =>
      t.rd F.TAL_DIG_STATE 0 p = 1 ∧ t.rd F.TAL_DIG_ORIGIN 0 p = 1 ∧ t.rd F.TAL_DIG_DONE 0 p = 0 ∧
      t.rd F.TAL_DIGSTEP_STEP 0 p = s.rd F.HUT_TRAIN_STEP 0 p ∧
      aget t.hut.digs p = some ⟨l, s.jobOf (32 * p + o.job.toNat), [], false, some c⟩ ∧ t.gate = s.gate ∧
      Frame s t (fun r a i => oneReg .TAL_DIG 0 p r a i ∨ oneReg .TAL_DIGSTEP 0 p r a i)) := by
  obtain ⟨t, hex, hv, hk⟩ := digestNow_eq hp h3 hl hd hc
  have hr := (readView_parts hv).2.1
  have hh : t.hut = s.hut := hk (·.hut) (fun _ _ => rfl) (fun _ _ _ => rfl)
  have hs : t.sites = s.sites := hk (·.sites) (fun _ _ => rfl) (fun _ _ _ => rfl)
  have hg : t.gate = s.gate := hk (·.gate) (fun _ _ => rfl) (fun _ _ _ => rfl)
  have hlv : t.live (32 * p + o.job.toNat) = true := (live_regs hr _).trans hlive
  rw [if_neg (by rintro (e | e); · omega
                 · rw [hlv] at e; cases e),
    rd_of_regs hr, if_neg hst, digestRange_regs hr, digestBuffer_congr hh hs, ha, if_neg (by decide), State.jobOf, rd_of_regs hr] at hex
  obtain ⟨h1, h2, h3, -, h4, h5, h6, h7, h8⟩ := startDigest_shows t p (s.rd F.HUT_SECT_JOB 0 (32 * p + o.job.toNat)) l (some c)
  refine .next hex ⟨h1, h2, h3, h4.trans (rd_of_regs hr ..), by rw [h5]; exact aget_aput_same .., h6.trans hg, (SameMem.of_mems (readView_parts hv).1).trans h7, (SameRegs.of_eq hr).trans h8⟩

theorem digestOfNone (ho : s.rd F.GATE_QP_STATE 0 c.qp.toNat ≠ 0) (h : 31 < o.job.toNat ∨ s.live (32 * p + o.job.toNat) = false) :
    Done (.digestNow c o) s (fun t => Completed s t c 7 3 9 0 0 ∧ Frame s t noReg) := by
  obtain ⟨t, hex, hv, hk⟩ := digestNow_eq hp h3 hl hd hc
  have hlv := live_regs (readView_parts hv).2.1 (32 * p + o.job.toNat)
  rw [if_pos (by rcases h with e | e
                 · exact .inl e
                 · exact .inr (by rw [hlv, e]; rfl))] at hex
  obtain ⟨h1, h2, -⟩ := commandRefused ho (hk.answers hv) (ReadKeeps.frame hv noReg) opDigestNow stNotFound
  exact .next hex ⟨h1, h2⟩

end

/-! ### Wanan jobs -/

theorem wananStarts {p : Nat} (hp : s.partOfQp c.qp.toNat = some p) (ho : s.rd F.GATE_QP_STATE 0 c.qp.toNat ≠ 0) (job : BitVec 16) {x n : BitVec 64}
    (hg : s.inGrant p x.toNat n.toNat = true) :
    (aget s.hut.wanan p = none → Done (.wananSubmit c job x n) s (fun t =>
      aget t.hut.wanan p = some ⟨c, job.toNat, 0, false, none, false⟩ ∧ t.gate = s.gate ∧ Frame s t noReg)) ∧
    (aget s.hut.wanan p ≠ none → Done (.wananSubmit c job x n) s (fun t => Completed s t c 11 3 1 0 0 ∧ Frame s t noReg)) := by
  refine ⟨fun hn => ?_, fun hn => ?_⟩
  · have hex : exec (.wananSubmit c job x n) s = .next (s.modHut (fun h => { h with wanan := aput h.wanan p ⟨c, job.toNat, 0, false, none, false⟩ })) :=
      congrArg Host.Outcome.next ((asTenant_runs hp ..).trans ((if_neg (by rw [hg]; decide)).trans (if_neg (by rw [hn]; decide))))
    exact .next hex ⟨aget_aput_same .., rfl, ⟨.of_mems rfl, .of_eq rfl⟩⟩
  · exact answeredOnly ho (congrArg Host.Outcome.next ((asTenant_runs hp ..).trans ((if_neg (by rw [hg]; decide)).trans
      (if_pos (Option.isSome_iff_ne_none.2 hn)))))

/-- A Wanan job whose last command is done. -/
def followed (y : WananX) : WananX := if y.busy then { y with busy := false, done := y.done + 1 } else y

theorem wananCommand_eq {k : PartNo} {y : WananX} (hy : aget s.hut.wanan k.toNat = some y) (hs : y.stopped = false) (hp : y.preempt = none)
    (w : Option WananCmd) : exec (.wananCommand k w) s = .next (match w with
      | none => s.wananEnd k.toNat (followed y) 0
      | some .unsupported => s.wananEnd k.toNat (followed y) stWananUnsupported
      | some .malformed => s.wananEnd k.toNat (followed y) stWananFormat
      | some _ => s.modHut (fun h => { h with wanan := aput h.wanan k.toNat { followed y with busy := true } })) := by
  have e : exec (.wananCommand k w) s = execWananCommand k w s := rfl
  have h1 : ((followed y).stopped || (followed y).preempt.isSome) = false := by
    unfold followed
    split <;> simp [hs, hp]
  rw [e]
  unfold execWananCommand
  dsimp only
  rewrite [hy]
  dsimp only
  change Host.Outcome.next (if ((followed y).stopped || (followed y).preempt.isSome) = true then _ else _) = _
  rw [h1, if_neg (by decide)]
  rcases w with _ | w
  · rfl
  · cases w <;> rfl

/-- The end of a Wanan job leaves none in its place and completes its command (R448). -/
theorem wananEnds {i : Instr} {p : Nat} {y : WananX} (ho : s.rd F.GATE_QP_STATE 0 y.ctx.qp.toNat ≠ 0) {cls code res det : Nat}
    (hex : exec i s = .next ((s.modHut (fun h => { h with wanan := adel h.wanan p })).complete y.ctx opWanan cls code res det)) :
    Done i s (fun t => aget t.hut.wanan p = none ∧ Completed s t y.ctx 11 cls code res det ∧ Frame s t noReg) := by
  obtain ⟨h1, h2, -, h4⟩ := commandAnswers (v := s.modHut (fun h => { h with wanan := adel h.wanan p })) (R := noReg) ho (.of_eq rfl rfl)
    ⟨.of_mems rfl, .of_eq rfl⟩ opWanan cls code res det
  exact .next hex ⟨(congrArg (fun h : HutX => aget h.wanan p) h4).trans (aget_adel_same ..), h1, h2⟩

/-- A command that a Wanan job can take follows the last. -/
theorem wananGoesOn {i : Instr} {k : Nat} {y : WananX} (hex : exec i s = .next (s.modHut (fun h => { h with wanan := aput h.wanan k { followed y with busy := true } }))) :
    Done i s (fun t => aget t.hut.wanan k = some { y with busy := true, done := y.done + (if y.busy then 1 else 0) } ∧ t.gate = s.gate ∧ Frame s t noReg) := by
  refine .next hex ⟨(aget_aput_same ..).trans ?_, rfl, ⟨.of_mems rfl, .of_eq rfl⟩⟩
  unfold followed
  split <;> rfl

end

/-- Settles O54. -/
theorem digestAndWananCommands : Obligations.DigestAndWananCommands := by
  unfold Obligations.DigestAndWananCommands
  intro s c p ho hp
  refine ⟨fun o l h3 hl hd hc => ?_, fun job x n hg => wananStarts hp ho job hg, fun k y hy hctx hs hpre => ?_⟩
  · intro e said
    obtain ⟨h1, h2⟩ := digestsAreSet hp h3 hl hd hc ho
    exact ⟨h1, h2, fun hj hlive hst ha => digestStarts hp h3 hl hd hc hj hlive hst ha, fun h => digestOfNone hp h3 hl hd hc ho h⟩
  · intro n
    subst hctx
    have hn : (followed y).done = n := by
      unfold followed n
      split <;> rfl
    have hctx : (followed y).ctx = y.ctx := by
      unfold followed
      split <;> rfl
    have hend : ∀ w cls code res det, exec (.wananCommand k w) s =
        .next ((s.modHut (fun h => { h with wanan := adel h.wanan k.toNat })).complete (followed y).ctx opWanan cls code res det) →
        Done (.wananCommand k w) s (fun t => aget t.hut.wanan k.toNat = none ∧ Completed s t y.ctx 11 cls code res det ∧ Frame s t noReg) :=
      fun w cls code res det hex => wananEnds ho (by rwa [hctx] at hex)
    refine ⟨fun w hw => wananGoesOn ?_, hn ▸ hend none 0 0 _ 0 (wananCommand_eq hy hs hpre none),
      hn ▸ hend (some .unsupported) 3 20 _ _ (wananCommand_eq hy hs hpre (some .unsupported)),
      hn ▸ hend (some .malformed) 3 21 _ _ (wananCommand_eq hy hs hpre (some .malformed))⟩
    have hex := wananCommand_eq hy hs hpre (some w)
    cases w with
    | matmul | eltwise | convert | copy | fence => exact hex
    | unsupported | malformed => simp at hw

end Sys2Proof.Proofs
end

section
/-! SUPPORT. What the end of a section keeps (R226, R331, R333, R336). -/

namespace Sys2Proof.Proofs

open Sys2Proof Sys2Proof.Machine

/-- Registers that the end of a section writes, beside the state of the section itself. -/
def endFields (g : Fld) : Prop :=
  g.reg ∈ [.QUE_STAT, .TRV_OUT, .TRN_HALF, .COL_BAR, .TRN_THR_STATE, .TRN_PF_STATUS, .HUT_SPUR_HEALTH, .HUT_REF] ∨
  g = F.HUT_SECT_RUNNABLE ∨ g = F.HUT_SECT_BUSY

/-- A reading of the state that the end of a section does not touch. -/
structure EndKeeps {γ : Type} (f : State → γ) : Prop where
  wr : ∀ (s : State) g a i v, endFields g → f (s.wr g a i v) = f s
  site : ∀ (s : State) a g, f (s.modSite a g) = f s
  hut : ∀ (s : State) g, f (s.modHut g) = f s
  count : ∀ (s : State) c a n, f (s.count c a n) = f s
  qp : ∀ (s : State) n g, f (s.modQp n g) = f s
  out : ∀ (s : State) o, f (s.emit o) = f s
  fresh : ∀ (s : State), f s.fresh.2 = f s
  rearm : ∀ (s : State) a, f (s.rearm a) = f s

section
variable {γ : Type} {f : State → γ} (h : EndKeeps f)
include h

theorem EndKeeps.setSlot (s : State) (a : Nat) (d : Dir) (n v : Nat) : f (s.setSlot a d n v) = f s :=
  h.wr _ _ _ _ _ (.inl (by simp [F.TRV_OUT_SRC, Fld.at]))

theorem EndKeeps.closeDyn (s : State) (a q : Nat) : f (s.closeDyn a q) = f s := by
  unfold State.closeDyn
  dsimp only
  refine (h.wr _ _ _ _ _ (.inl (by decide))).trans ((h.site _ _ _).trans ((unbind_keeps f (fun _ _ _ _ => h.wr _ _ _ _ _ (.inl (by decide)))
    (fun _ _ _ => h.site _ _ _) _ _ _).trans ?_))
  split
  · exact releaseSlots_keeps f h.setSlot ..
  · exact releaseSlots_keeps f h.setSlot ..
  · rfl

theorem EndKeeps.closeAllDyn (s : State) (a : Nat) : f (s.closeAllDyn a) = f s := by
  unfold State.closeAllDyn
  refine foldl_keep f _ (fun s q => ?_) _ s
  split
  · exact h.closeDyn ..
  · rfl

theorem EndKeeps.settleLog (s : State) (a : Nat) : f (s.settleLog a) = f s := by
  unfold State.settleLog
  split
  · exact (h.site _ _ _).trans (h.count _ _ _ _)
  · rfl

theorem EndKeeps.modSect (s : State) (e : Nat) (g : SectX → SectX) : f (s.modSect e g) = f s := by
  unfold State.modSect
  split
  · rfl
  · exact h.hut _ _

theorem EndKeeps.wrs (a i : Nat) (l : List (Fld × Nat)) : ∀ s : State, (∀ x ∈ l, endFields x.1) → f (s.wrs a i l) = f s := by
  induction l with
  | nil => exact fun _ _ => rfl
  | cons x l ih => exact fun s hl => (ih (s.wr x.1 a i x.2) (fun y hy => hl y (List.mem_cons_of_mem _ hy))).trans (h.wr _ _ _ _ _ (hl x (List.mem_cons_self ..)))

theorem EndKeeps.releaseRegion (s : State) (e : Nat) : f (s.releaseRegion e) = f s := by
  unfold State.releaseRegion
  refine (h.hut _ _).trans ((foldl_keep f _ (fun s a => (h.site _ _ _).trans (h.settleLog _ _)) _ _).trans
    ((foldl_keep f _ (fun s b => ?_) _ _).trans ((foldl_keep f _ (fun s a => h.wrs _ _ _ _ ?_) _ _).trans (foldl_keep f _ h.closeAllDyn _ s))))
  · split
    · exact h.wr _ _ _ _ _ (.inl (by decide))
    · rfl
  · intro x hx
    simp only [List.mem_cons, List.not_mem_nil, or_false] at hx
    rcases hx with rfl | rfl <;> exact .inl (by decide)

theorem EndKeeps.endSect (s : State) (e : Nat) : f (s.endSect e) = f s := by
  unfold State.endSect
  refine (h.modSect _ _ _).trans ((h.hut _ _).trans ((h.wrs _ _ _ _ ?_).trans (h.releaseRegion _ _)))
  intro x hx
  simp only [List.mem_cons, List.not_mem_nil, or_false] at hx
  rcases hx with rfl | rfl
  · exact .inr (.inl rfl)
  · exact .inr (.inr rfl)

theorem EndKeeps.complete (s : State) (c : Ctx) (op cls code res det : Nat) : f (s.complete c op cls code res det) = f s := by
  unfold State.complete
  dsimp only
  split
  · rfl
  · exact h.qp _ _ _

theorem EndKeeps.completeRun (s : State) (e cls code det : Nat) : f (s.completeRun e cls code det) = f s := by
  unfold State.completeRun
  split
  · exact (h.modSect _ _ _).trans (h.complete ..)
  · rfl

theorem EndKeeps.eventTo (s : State) (n kind : Nat) (l : List Nat) : f (s.eventTo n kind l) = f s := by
  have hf : ∀ c : Bool, f (if c then s.fresh.2 else s) = f s := fun c => by
    cases c
    · rfl
    · exact h.fresh s
  unfold State.eventTo
  dsimp only
  split
  · exact (h.count _ _ _ _).trans ((h.qp _ _ _).trans (hf _))
  · exact (h.out _ _).trans ((h.count _ _ _ _).trans ((h.qp _ _ _).trans (hf _)))

theorem EndKeeps.event (s : State) (to_ : Nat → Bool) (kind : Nat) (l : List Nat) : f (s.event to_ kind l) = f s :=
  foldl_keep f _ (fun s n => h.eventTo s n kind l) _ s

theorem EndKeeps.stopPrefetch (s : State) (e : Nat) : f (s.stopPrefetch e) = f s := by
  unfold State.stopPrefetch
  split
  · rfl
  · split
    · rfl
    · dsimp only
      refine (h.modSect _ _ _).trans ((foldl_keep f _ (fun s a => h.wr _ _ _ _ _ (.inl (by decide))) _ _).trans (foldl_keep f _ (fun s x => ?_) _ s))
      split
      · exact (h.site _ _ _).trans (h.wr _ _ _ _ _ (.inl (by decide)))
      · rfl

theorem EndKeeps.spurRecord (s : State) (n : Nat) : f (s.spurRecord n) = f s := by
  unfold State.spurRecord State.record
  exact h.hut _ _

theorem EndKeeps.unsuspect (s : State) (a : Nat) : f (s.unsuspect a) = f s := by
  unfold State.unsuspect
  dsimp only
  split
  · refine (h.hut _ _).trans ((h.spurRecord _ _).trans (h.wrs _ _ _ _ ?_))
    intro x hx
    simp only [List.mem_cons, List.not_mem_nil, or_false] at hx
    rcases hx with rfl | rfl
    · exact .inl (show RegName.HUT_SPUR_HEALTH ∈ _ by decide)
    · exact .inl (show RegName.HUT_SPUR_HEALTH ∈ _ by decide)
  · rfl

theorem EndKeeps.dropReferee (s : State) (a : Nat) : f (s.dropReferee a) = f s :=
  (h.unsuspect _ _).trans ((h.site _ _ _).trans (h.rearm s a))

theorem EndKeeps.abandonRefs (s : State) (l : List Nat) : f (s.abandonRefs l) = f s := by
  unfold State.abandonRefs
  refine (foldl_keep f _ (fun s r => ?_) _ _).trans (h.hut _ _)
  have hi : ∀ v : State, f (if v.rd F.HUT_REF_STATE 0 (r.sect / 32) ∈ [1, 2] then v.wr F.HUT_REF_STATE 0 (r.sect / 32) 4 else v) = f v := fun v => by
    split
    · exact h.wr _ F.HUT_REF_STATE _ _ _ (.inl (by decide))
    · rfl
  refine (h.unsuspect _ _).trans ((hi _).trans ?_)
  split
  · exact h.dropReferee ..
  · rfl

end

/-- A register outside the sites keeps its word when a site is rearmed (R331). -/
theorem word_rearm {r : RegName} (hr : r.place.block.isSome = true) (s : State) (a b i : Nat) : (s.rearm a).word r b i = s.word r b i := by
  have e : State.rearm = delta% State.rearm := rfl
  rw [e]
  beta_reduce
  have hp : (if s.pfBusy a then
      (s.pfOwners a).foldl (fun s e => s.modSect e (fun x => { x with pfStarted := x.pfStarted.filter (fun b => b != a) })) s
    else s).regs = s.regs := by
    split
    · refine foldl_keep State.regs _ (fun s e => ?_) _ s
      unfold State.modSect
      split <;> rfl
    · rfl
  generalize (if s.pfBusy a then
      (s.pfOwners a).foldl (fun s e => s.modSect e (fun x => { x with pfStarted := x.pfStarted.filter (fun b => b != a) })) s
    else s) = v at hp
  unfold State.word
  rw [← hp]
  refine congrArg (fun o : Option Word => o.getD (r.resetWord i)) (aget_filter _ _ _ fun w => ?_)
  simp [hr]

/-- A field outside the sites that the end of a section does not write. -/
theorem endKeeps_rd {g : Fld} (hr : g.reg.place.block.isSome = true)
    (hg : ∀ k, endFields k → g.reg ≠ k.reg ∨ g.lo + g.width ≤ k.lo ∨ k.lo + k.width ≤ g.lo) (a i : Nat) : EndKeeps (fun s => s.rd g a i) where
  wr _ k _ _ _ hk := State.rd_wr_other _ _ _ _ _ _ (hg k hk)
  site _ _ _ := rfl
  hut _ _ := rfl
  count _ _ _ _ := rfl
  qp _ _ _ := rfl
  out _ _ := rfl
  fresh _ := rfl
  rearm s b := congrArg (fieldGet g) (word_rearm hr s b a i)

theorem endKeeps_sectState (e : Nat) : EndKeeps (fun s => s.sectState e) := by
  refine endKeeps_rd (g := F.HUT_SECT_STATE) (by decide) (fun k hk => ?_) 0 e
  rcases hk with hk | rfl | rfl
  · exact .inl (fun h => by rw [← h] at hk; revert hk; decide)
  · exact .inr (by decide)
  · exact .inr (by decide)

theorem endKeeps_qpState (q : Nat) : EndKeeps (fun s => s.rd F.GATE_QP_STATE 0 q) := by
  refine endKeeps_rd (g := F.GATE_QP_STATE) (by decide) (fun k hk => .inl (fun h => ?_)) 0 q
  rcases hk with hk | rfl | rfl
  · rw [← h] at hk
    revert hk
    decide
  · revert h
    decide
  · revert h
    decide

/-- A section failed is in that state, and the queue pairs are as they were (R326, R331). -/
theorem failSect_fails (s : State) (e cls code det : Nat) : (s.failSect e cls code det).sectState e = 8 := by
  unfold State.failSect
  refine ((endKeeps_sectState e).endSect _ _).trans (((endKeeps_sectState e).completeRun ..).trans (((endKeeps_sectState e).event ..).trans ?_))
  exact State.rd_wr_self _ F.HUT_SECT_STATE 0 e 8 (by decide)

theorem failSect_qpState (s : State) (e cls code det q : Nat) : (s.failSect e cls code det).rd F.GATE_QP_STATE 0 q = s.rd F.GATE_QP_STATE 0 q := by
  have h := endKeeps_qpState q
  unfold State.failSect
  refine (h.endSect _ _).trans ((h.completeRun ..).trans ((h.event ..).trans ((State.rd_wr_other _ _ _ _ _ _ (by decide)).trans (h.stopPrefetch _ _))))

end Sys2Proof.Proofs
end

section
/-! PROOF. LOAD, RUN, PREEMPT, RESUME and DISCARD (R326, R331, R336, R415, R416, R446). -/

namespace Sys2Proof.Proofs

open Sys2Proof Sys2Proof.Machine

section
variable {s : State} {c : Ctx}

theorem asTenant_denied (hn : s.partOfQp c.qp.toNat = none) (op : Nat) (f : State → Nat → State) : s.asTenant c op f = s.status c op stPartDenied := by
  unfold State.asTenant
  rewrite [hn]
  rfl

/-! ### DISCARD -/

theorem sectionsAreDiscarded {p : Nat} (hp : s.partOfQp c.qp.toNat = some p) (ho : s.rd F.GATE_QP_STATE 0 c.qp.toNat ≠ 0) {e : Byte} (he : e.toNat < 32) :
    (s.sectState (32 * p + e.toNat) ∈ [1, 2, 5, 6] → Done (.discard c e) s (fun t => t.sectState (32 * p + e.toNat) = 8 ∧
      (∃ d ∈ (t.qp c.qp.toNat).done, d.idx = c.idx.toNat ∧ d.opcode = 5 ∧ d.cls = 0 ∧ d.code = 0) ∧ SameMem s t)) ∧
    (s.sectState (32 * p + e.toNat) ∉ [1, 2, 5, 6] → Done (.discard c e) s (fun t => Completed s t c 5 3 9 0 0 ∧ Frame s t noReg)) := by
  generalize hn : 32 * p + e.toNat = n
  refine ⟨fun hin => ?_, fun hout => ?_⟩
  · generalize hl : (s.regionSites n).filter (fun a => isSpur a && s.health a == 1) = l
    have hex : exec (.discard c e) s = .next ((l.foldl (fun s a => s.unsuspect a) ((s.abandonRefs [n]).failSect n 0x20 10)).ok c opDiscard) := by
      subst hn hl
      refine congrArg Host.Outcome.next ((asTenant_runs hp ..).trans (if_neg ?_))
      rintro (h | h)
      · omega
      · rw [Bool.not_eq_true', List.contains_eq_mem, decide_eq_false_iff_not] at h
        exact h hin
    have h1 := failSect_fails (s.abandonRefs [n]) n 0x20 10 0
    have h2 := (failSect_qpState (s.abandonRefs [n]) n 0x20 10 0 c.qp.toNat).trans ((endKeeps_qpState c.qp.toNat).abandonRefs s [n])
    have h3 : mems ((s.abandonRefs [n]).failSect n 0x20 10) = mems s := by simp
    generalize (s.abandonRefs [n]).failSect n 0x20 10 = v at *
    have k1 := (foldl_keep (fun s => s.sectState n) (fun s a => s.unsuspect a) (fun s a => (endKeeps_sectState n).unsuspect s a) l v).trans h1
    have k2 := (foldl_keep (fun s => s.rd F.GATE_QP_STATE 0 c.qp.toNat) (fun s a => s.unsuspect a) (fun s a => (endKeeps_qpState c.qp.toNat).unsuspect s a) l v).trans h2
    have k3 := (foldl_keep mems (fun s a => s.unsuspect a) (fun s a => mems_unsuspect s a) l v).trans h3
    generalize l.foldl (fun s a => s.unsuspect a) v = w at *
    obtain ⟨d1, d2, d3, -⟩ := complete_shows (s := w) (c := c) (by rw [k2]; exact ho) opDiscard 0 0 0 0
    refine .next hex ⟨(rd_of_regs d2 ..).trans k1,
      ⟨⟨c.idx.toNat, c.tag, opDiscard, 0, 0, w.pitch % 2 ^ 32, 0, 0, c.notify⟩, ?_, rfl, rfl, rfl, rfl⟩, .of_mems (d3.trans k3)⟩
    · change _ ∈ ((w.complete c opDiscard 0 0 0 0).qp c.qp.toNat).done
      rw [d1]
      exact List.mem_append_right _ (List.mem_singleton.2 rfl)
  · subst hn
    refine answeredOnly ho (congrArg Host.Outcome.next ((asTenant_runs hp ..).trans (if_pos (.inr ?_))))
    rw [Bool.not_eq_true', List.contains_eq_mem, decide_eq_false_iff_not]
    exact hout

/-! ### PREEMPT and RESUME -/

/-- A request to the next boundary, behind the others (R331, R336). -/
def withBound (s : State) (r : BoundReq) : State := s.modHut (fun h => { h with bounds := List.append h.bounds [r] })

theorem preemptWaits {p : Nat} (hp : s.partOfQp c.qp.toNat = some p) (j : BitVec 16) : Done (.preempt c j) s (fun t =>
    t.hut.bounds = List.append s.hut.bounds [.preempt p j.toNat c] ∧ t.gate = s.gate ∧ Frame s t noReg) := by
  have hex : exec (.preempt c j) s = .next (withBound s (.preempt p j.toNat c)) := congrArg Host.Outcome.next (asTenant_runs hp ..)
  exact .next hex ⟨rfl, rfl, ⟨.of_mems rfl, .of_eq rfl⟩⟩

theorem resumeWaits {p : Nat} (hp : s.partOfQp c.qp.toNat = some p) (ho : s.rd F.GATE_QP_STATE 0 c.qp.toNat ≠ 0) {e pr row : Byte}
    (hpr : pr.toNat ≤ 7) (hrow : row.toNat ≤ 15) :
    (e.toNat < 32 → s.resumable (32 * p + e.toNat) = true → Done (.resume c e pr row) s (fun t =>
      t.hut.bounds = List.append s.hut.bounds [.resume (32 * p + e.toNat) pr.toNat row.toNat c] ∧ t.gate = s.gate ∧ Frame s t noReg)) ∧
    (s.resumable (32 * p + e.toNat) = false → aget s.hut.wanan p = none → Done (.resume c e pr row) s (fun t =>
      Completed s t c 4 3 9 0 0 ∧ Frame s t noReg)) := by
  refine ⟨fun he hr => ?_, fun hr hw => ?_⟩
  · have hex : exec (.resume c e pr row) s = .next (withBound s (.resume (32 * p + e.toNat) pr.toNat row.toNat c)) :=
      congrArg Host.Outcome.next ((asTenant_runs hp ..).trans ((if_neg (by omega)).trans (if_pos ⟨he, hr⟩)))
    exact .next hex ⟨rfl, rfl, ⟨.of_mems rfl, .of_eq rfl⟩⟩
  · refine answeredOnly ho (congrArg Host.Outcome.next ((asTenant_runs hp ..).trans ((if_neg (by omega)).trans ((if_neg (by rw [hr]; simp)).trans ?_))))
    rewrite [hw]
    rfl

/-! ### RUN -/

/-- What RUN writes in a section's register (R326). -/
def runFields (s : State) (e prio after en : Nat) : State :=
  s.wrs 0 e [(F.HUT_SECT_PRIO, prio), (F.HUT_SECT_AFTER, after), (F.HUT_SECT_AFTER_EN, en)]

theorem runFields_shows {e prio after en : Nat} (h1 : prio < 8) (h2 : after < 32) (h3 : en < 2) : let t := runFields s e prio after en
    t.rd F.HUT_SECT_PRIO 0 e = prio ∧ t.rd F.HUT_SECT_AFTER 0 e = after ∧ t.rd F.HUT_SECT_AFTER_EN 0 e = en ∧
    t.gate = s.gate ∧ Frame s t (oneReg .HUT_SECT 0 e) := by
  refine ⟨?_, ?_, ?_, ?_, Frame.wrs s (by simp [oneReg, F.HUT_SECT_PRIO, F.HUT_SECT_AFTER, F.HUT_SECT_AFTER_EN])⟩
  · unfold runFields
    simp (disch := decide) only [State.wrs, List.foldl, State.rd_wr_self, State.rd_wr_other]
    exact Nat.mod_eq_of_lt h1
  · unfold runFields
    simp (disch := decide) only [State.wrs, List.foldl, State.rd_wr_self, State.rd_wr_other]
    exact Nat.mod_eq_of_lt h2
  · unfold runFields
    simp (disch := decide) only [State.wrs, List.foldl, State.rd_wr_self]
    exact Nat.mod_eq_of_lt h3
  · unfold runFields
    simp only [State.wrs, List.foldl, State.wr_gate]

theorem modSect_quiet (v : State) (e : Nat) (g : SectX → SectX) : (v.modSect e g).regs = v.regs ∧ (v.modSect e g).gate = v.gate ∧ mems (v.modSect e g) = mems v := by
  unfold State.modSect
  split <;> exact ⟨rfl, rfl, rfl⟩

theorem markRunnable_shows (v : State) (e : Nat) : let t := v.markRunnable e
    t.regs = (v.wr F.HUT_SECT_RUNNABLE 0 e 1).regs ∧ t.gate = v.gate ∧ mems t = mems v := by
  unfold State.markRunnable
  obtain ⟨h1, h2, h3⟩ := modSect_quiet ((v.wr F.HUT_SECT_RUNNABLE 0 e 1).modHut (fun h => { h with stamp := v.hut.stamp + 1 })) e (fun x => { x with stamp := v.hut.stamp })
  exact ⟨h1, h2, h3.trans (by simp)⟩

theorem sectionsRun {p : Nat} (hp : s.partOfQp c.qp.toNat = some p) (ho : s.rd F.GATE_QP_STATE 0 c.qp.toNat ≠ 0) {o : RunOps}
    (hold : ¬ s.rd F.GATE_QP_GVER 0 c.qp.toNat = 2) (hb : o.byLoad = false) (h1 : o.prio.toNat ≤ 7) (h2 : o.afterEn.toNat ≤ 1) (h3 : o.after.toNat ≤ 31)
    (h4 : o.entry.toNat ≤ 31) : let e := 32 * p + o.entry.toNat
    (s.sectState e = 1 → s.rd F.HUT_SECT_RUNNABLE 0 e = 0 → Done (.run c o) s (fun t => t.rd F.HUT_SECT_RUNNABLE 0 e = 1 ∧
      t.rd F.HUT_SECT_PRIO 0 e = o.prio.toNat ∧ t.rd F.HUT_SECT_AFTER 0 e = o.after.toNat ∧
      t.rd F.HUT_SECT_AFTER_EN 0 e = o.afterEn.toNat ∧ t.gate = s.gate ∧ Frame s t (oneReg .HUT_SECT 0 e))) ∧
    (s.sectState e ≠ 1 → Done (.run c o) s (fun t => Completed s t c 2 3 9 0 0 ∧ Frame s t noReg)) := by
  intro e
  have hrun : exec (.run c o) s = .next (s.runEntry c o e) := by
    refine congrArg Host.Outcome.next ((asTenant_runs hp ..).trans ((if_neg ?_).trans ((if_neg ?_).trans (if_neg (by omega)))))
    · simp only [Bool.and_eq_true, Bool.or_eq_true, decide_eq_true_eq]
      omega
    · simp [hb]
  have hg : (s.rd F.GATE_QP_GVER 0 c.qp.toNat == 2) = false := beq_false_of_ne hold
  refine ⟨fun hst hr => ?_, fun hst => ?_⟩
  · have hex : s.runEntry c o e = ((runFields s e (o.prio.toNat % 8) (o.after.toNat % 32) (o.afterEn.toNat % 2)).modSect e (fun x => { x with runCtx := some c })).markRunnable e := by
      unfold State.runEntry
      dsimp only
      rw [if_neg (by simp [hst, hr]), hg]
      rfl
    rw [hex] at hrun
    obtain ⟨k1, k2, k3, k4, k5⟩ := runFields_shows (s := s) (e := e) (prio := o.prio.toNat % 8) (after := o.after.toNat % 32) (en := o.afterEn.toNat % 2)
      (by omega) (by omega) (by omega)
    rw [Nat.mod_eq_of_lt (show o.prio.toNat < 8 by omega), Nat.mod_eq_of_lt (show o.after.toNat < 32 by omega), Nat.mod_eq_of_lt (show o.afterEn.toNat < 2 by omega)] at *
    generalize runFields s e o.prio.toNat o.after.toNat o.afterEn.toNat = v at *
    obtain ⟨m1, m2, m3⟩ := modSect_quiet v e (fun x => { x with runCtx := some c })
    generalize v.modSect e (fun x => { x with runCtx := some c }) = w at *
    obtain ⟨n1, n2, n3⟩ := markRunnable_shows w e
    generalize w.markRunnable e = z at *
    have hz : ∀ f : Fld, z.rd f 0 e = (w.wr F.HUT_SECT_RUNNABLE 0 e 1).rd f 0 e := fun f => rd_of_regs n1 ..
    refine .next hrun ⟨?_, ?_, ?_, ?_, n2.trans (m2.trans k4), ⟨k5.1.trans (.of_mems (n3.trans m3)), k5.2.trans ?_⟩⟩
    · rw [hz, State.rd_wr_self _ _ _ _ _ (by decide)]
      decide
    · rw [hz, State.rd_wr_other _ _ _ _ _ _ (by decide), rd_of_regs m1, k1]
    · rw [hz, State.rd_wr_other _ _ _ _ _ _ (by decide), rd_of_regs m1, k2]
    · rw [hz, State.rd_wr_other _ _ _ _ _ _ (by decide), rd_of_regs m1, k3]
    · exact ((SameRegs.of_eq m1).wr (f := F.HUT_SECT_RUNNABLE) 1 ⟨rfl, rfl, rfl⟩).trans (.of_eq n1)
  · have hex : s.runEntry c o e = s.status c opRun stNotFound := by
      unfold State.runEntry
      dsimp only
      exact if_pos (by simp [hst])
    rw [hex] at hrun
    exact answeredOnly ho hrun

/-! ### LOAD -/

/-- The slot of a partition, as a LOAD leaves it (R415, R416). -/
def loadSlot (c : Ctx) (o : LoadOps) (end_ no : Nat) (old : Word × Word) (x : StreamX) : StreamX :=
  { x with wait := true, multicast := o.multicast != 0, qp := c.qp.toNat, group := o.group, deadline := end_, load := some (c, o), old := old, loadNo := no }

/-- The registers of a slot that receives from a LOAD on. -/
def loadWords (s : State) (p : Nat) : State :=
  (s.wrs 0 p [(F.CFG_STREAM_STATE, 1), (F.CFG_STREAM_OUTCOME, 0), (F.CFG_STREAM_REASON, 0)]).wr F.CFG_STREAM_POS_OFFSET 0 p 0

theorem loadWords_shows (v : State) (p : Nat) : let t := loadWords v p
    t.receiving p = true ∧ t.posE p = 0 ∧ t.cfg = v.cfg ∧
    Frame v t (fun r a i => oneReg .CFG_STREAM 0 p r a i ∨ oneReg .CFG_STREAM_POS 0 p r a i) := by
  refine ⟨?_, ?_, ?_, ⟨.of_mems (by simp [loadWords]), ?_⟩⟩
  · unfold State.receiving loadWords
    simp (disch := decide) only [State.wrs, List.foldl, State.rd_wr_self, State.rd_wr_other]
    decide
  · unfold State.posE loadWords
    rw [State.rd_wr_self _ _ _ _ _ (by decide)]
    decide
  · unfold loadWords
    simp only [State.wrs, List.foldl, State.wr_cfg]
  · exact ((SameRegs.refl v _).wrs (by simp [oneReg, F.CFG_STREAM_STATE, F.CFG_STREAM_OUTCOME, F.CFG_STREAM_REASON])).wr (f := F.CFG_STREAM_POS_OFFSET) 0 (.inr ⟨rfl, rfl, rfl⟩)

theorem loadsStart {p : Nat} (hp : s.partOfQp c.qp.toNat = some p) {o : LoadOps} (hst : s.rd F.CFG_STREAM_STATE 0 p ∉ [1, 2]) (hl : (s.stream p).load = none)
    (hm : o.multicast = 0 ∨ ¬ s.rd F.GATE_QP_GVER 0 c.qp.toNat = 2) (h8 : o.receipt.toNat % 8 = 0) (hg : s.inGrant p o.receipt.toNat o.receiptLen.toNat = true)
    (hc : o.orgC.toNat ≤ 15) (hr : o.orgR.toNat ≤ 15) : Done (.load c o) s (fun t => t.receiving p = true ∧ t.posE p = 0 ∧ (t.stream p).wait = true ∧
      (t.stream p).load = some (c, o) ∧ (t.stream p).qp = c.qp.toNat ∧ (t.stream p).multicast = (o.multicast != 0) ∧
      (t.stream p).deadline = s.time + 30000000 * (if o.deadline.toNat = 0 then s.rd F.CFG_CLAIM_SECT_MS else o.deadline.toNat) ∧
      Frame s t (fun r a i => oneReg .CFG_STREAM 0 p r a i ∨ oneReg .CFG_STREAM_POS 0 p r a i)) := by
  have hend : s.time + 30000000 * (if o.deadline.toNat = 0 then s.rd F.CFG_CLAIM_SECT_MS else o.deadline.toNat) =
      s.time + (if o.deadline = 0 then s.rd F.CFG_CLAIM_SECT_MS else o.deadline.toNat) * milli := by
    rw [Nat.mul_comm, show milli = 30000000 from rfl]
    by_cases h0 : o.deadline.toNat = 0
    · rw [if_pos h0, if_pos (BitVec.eq_of_toNat_eq h0)]
    · rw [if_neg h0, if_neg (fun e => h0 (congrArg BitVec.toNat e))]
  rw [hend]
  generalize hms : s.time + (if o.deadline = 0 then s.rd F.CFG_CLAIM_SECT_MS else o.deadline.toNat) * milli = end_
  obtain ⟨v, hv, hex⟩ : ∃ v : State, (v.regs = s.regs ∧ mems v = mems s ∧ v.stream p =
        loadSlot c o end_ s.hut.stamp (s.word .CFG_STREAM 0 p, s.word .CFG_STREAM_POS 0 p) (s.stream p)) ∧
      exec (.load c o) s = .next (if o.multicast != 0 then (loadWords v p).modGate (fun g => { g with joined := o.group :: g.joined }) else loadWords v p) := by
    refine ⟨(s.modHut (fun h => { h with stamp := s.hut.stamp + 1 })).modStream p
      (loadSlot c o end_ s.hut.stamp (s.word .CFG_STREAM 0 p, s.word .CFG_STREAM_POS 0 p)), ⟨rfl, rfl, stream_putStream ..⟩, ?_⟩
    refine congrArg Host.Outcome.next ((asTenant_runs hp ..).trans ((if_neg ?_).trans ((if_neg ?_).trans ?_)))
    · rw [Bool.or_eq_true, List.contains_eq_mem, decide_eq_true_eq, hl]
      exact fun h => h.elim hst (by decide)
    · simp only [Bool.or_eq_true, Bool.and_eq_true, decide_eq_true_eq, bne_iff_ne, beq_iff_eq, hg]
      rcases hm with hm | hm
      · simp [hm, h8]
        omega
      · simp [hm, h8]
        omega
    · subst hms
      rfl
  obtain ⟨hr, hmv, hx⟩ := hv
  obtain ⟨k1, k2, k3, k4⟩ := loadWords_shows v p
  have k5 : (loadWords v p).stream p = v.stream p := stream_congr (congrArg CfgX.streams k3) p
  generalize loadWords v p = w at *
  rw [hx] at k5
  have hj : ∀ t : State, t.regs = w.regs → t.cfg = w.cfg → mems t = mems w → t.receiving p = true ∧ t.posE p = 0 ∧ (t.stream p).wait = true ∧
      (t.stream p).load = some (c, o) ∧ (t.stream p).qp = c.qp.toNat ∧ (t.stream p).multicast = (o.multicast != 0) ∧
      (t.stream p).deadline = end_ ∧ Frame s t (fun r a i => oneReg .CFG_STREAM 0 p r a i ∨ oneReg .CFG_STREAM_POS 0 p r a i) := fun t tr tc tm => by
    have ht : t.stream p = w.stream p := stream_congr (congrArg CfgX.streams tc) p
    rw [ht, k5]
    refine ⟨?_, (rd_of_regs tr ..).trans k2, rfl, rfl, rfl, rfl, rfl, ((SameMem.of_mems hmv).trans k4.1).trans (.of_mems tm),
      ((SameRegs.of_eq hr).trans k4.2).trans (.of_eq tr)⟩
    rw [← k1]
    unfold State.receiving
    rw [rd_of_regs tr]
  cases hmul : (o.multicast != 0) with
  | true =>
    rw [hmul, if_pos rfl] at hex
    rw [hmul] at hj
    exact .next hex (hj _ rfl rfl rfl)
  | false =>
    rw [hmul, if_neg (by decide)] at hex
    rw [hmul] at hj
    exact .next hex (hj _ rfl rfl rfl)

theorem loadsBusy {p : Nat} (hp : s.partOfQp c.qp.toNat = some p) (ho : s.rd F.GATE_QP_STATE 0 c.qp.toNat ≠ 0) {o : LoadOps}
    (h : s.rd F.CFG_STREAM_STATE 0 p ∈ [1, 2] ∨ (s.stream p).load ≠ none) : Done (.load c o) s (fun t => Completed s t c 1 3 8 0 0 ∧ Frame s t noReg) := by
  refine answeredOnly ho (congrArg Host.Outcome.next ((asTenant_runs hp ..).trans (if_pos ?_)))
  rw [Bool.or_eq_true, List.contains_eq_mem, decide_eq_true_eq]
  exact h.imp id Option.isSome_iff_ne_none.2

end

/-- Settles O53. -/
theorem sectionCommands : Obligations.SectionCommands := by
  unfold Obligations.SectionCommands
  intro s c ho q old denied
  refine ⟨fun hn o r j e x y => ⟨?_, ?_, ?_, ?_, ?_⟩, fun p hp => ⟨fun o => ⟨?_, fun h => loadsBusy hp ho h⟩, fun o => ?_, preemptWaits hp, ?_, fun e he => sectionsAreDiscarded hp ho he⟩⟩
  · exact answeredOnly ho (congrArg Host.Outcome.next (asTenant_denied hn ..))
  · exact answeredOnly ho (congrArg Host.Outcome.next (asTenant_denied hn ..))
  · exact answeredOnly ho (congrArg Host.Outcome.next (asTenant_denied hn ..))
  · exact answeredOnly ho (congrArg Host.Outcome.next (asTenant_denied hn ..))
  · exact answeredOnly ho (congrArg Host.Outcome.next (asTenant_denied hn ..))
  · exact fun hst hl hm h8 hg hc hr => loadsStart hp hst hl hm h8 hg hc hr
  · exact fun hold hb h1 h2 h3 h4 => sectionsRun hp ho hold hb h1 h2 h3 h4
  · exact fun e pr row hpr hrow => resumeWaits hp ho hpr hrow

end Sys2Proof.Proofs
end

section
/-! SUPPORT. What a host's write does to the fields of a register (R7, R8, R443). -/

namespace Sys2Proof.Proofs

open Sys2Proof Sys2Proof.Machine

/-! ### The fields of a register -/

/-- Whether fields lie in a register's word, each in its own bits. -/
def laidOut (r : RegName) : List Fld → Bool
  | [] => true
  | f :: l => f.reg == r && decide (f.lo + f.width ≤ 64) &&
      l.all (fun g => decide (g.lo + g.width ≤ f.lo) || decide (f.lo + f.width ≤ g.lo)) && laidOut r l

/-- The fields of every register lie in its word, each in its own bits. -/
theorem fields_laidOut (r : RegName) : laidOut r r.fields = true := by
  cases r <;> decide +kernel

theorem apart_symm {f g : Fld} (h : f.apart g) : g.apart f := h.elim .inr .inl

theorem laidOut_cons {r : RegName} {f : Fld} {l : List Fld} (h : laidOut r (f :: l) = true) :
    f.reg = r ∧ f.fits ∧ (∀ g ∈ l, f.apart g) ∧ laidOut r l = true := by
  simp only [laidOut, Bool.and_eq_true, beq_iff_eq, decide_eq_true_eq, List.all_eq_true, Bool.or_eq_true] at h
  obtain ⟨⟨⟨h1, h2⟩, h3⟩, h4⟩ := h
  exact ⟨h1, h2, h3, h4⟩

theorem laidOut_mem {r : RegName} : ∀ {l : List Fld}, laidOut r l = true → ∀ f ∈ l, f.reg = r ∧ f.fits
  | [], _, f, hf => absurd hf List.not_mem_nil
  | _ :: _, h, _, hf => by
    obtain ⟨h1, h2, -, h4⟩ := laidOut_cons h
    rcases List.mem_cons.1 hf with rfl | hf
    · exact ⟨h1, h2⟩
    · exact laidOut_mem h4 _ hf

theorem laidOut_apart {r : RegName} : ∀ {l : List Fld}, laidOut r l = true → ∀ f ∈ l, ∀ g ∈ l, f ≠ g → f.apart g
  | [], _, f, hf, _, _, _ => absurd hf List.not_mem_nil
  | _ :: _, h, f, hf, g, hg, hne => by
    obtain ⟨-, -, h3, h4⟩ := laidOut_cons h
    rcases List.mem_cons.1 hf with hf | hf
    · rcases List.mem_cons.1 hg with hg | hg
      · exact absurd (hf.trans hg.symm) hne
      · exact hf ▸ h3 g hg
    · rcases List.mem_cons.1 hg with hg | hg
      · exact hg ▸ apart_symm (h3 f hf)
      · exact laidOut_apart h4 f hf g hg hne

theorem fields_apart {r : RegName} {f g : Fld} (hf : f ∈ r.fields) (hg : g ∈ r.fields) (h : f ≠ g) : f.apart g :=
  laidOut_apart (fields_laidOut r) f hf g hg h

theorem fields_reg {r : RegName} {f : Fld} (hf : f ∈ r.fields) : f.reg = r := (laidOut_mem (fields_laidOut r) f hf).1

theorem fields_fit {r : RegName} {f : Fld} (hf : f ∈ r.fields) : f.fits := (laidOut_mem (fields_laidOut r) f hf).2

/-- What a write makes of a field depends on that field's bits alone. -/
theorem fieldGet_mixed {f : Fld} {x y : Word} (h : fieldGet f x = fieldGet f y) (k z : Word) : fieldGet f (x &&& k ||| z) = fieldGet f (y &&& k ||| z) := by
  apply Nat.eq_of_testBit_eq
  intro j
  have hj : (fieldGet f x).testBit j = (fieldGet f y).testBit j := by rw [h]
  rw [testBit_fieldGet, testBit_fieldGet] at hj ⊢
  by_cases hw : j < f.width
  · simp only [hw, decide_true, Bool.true_and] at hj
    simp only [BitVec.getLsbD_or, BitVec.getLsbD_and, hj]
  · simp [hw]

theorem fieldGet_kept {f : Fld} {x y : Word} (h : fieldGet f x = fieldGet f y) (k : Word) : fieldGet f (x &&& k) = fieldGet f (y &&& k) := by
  have e := fieldGet_mixed h k 0#64
  rwa [BitVec.or_zero, BitVec.or_zero] at e

theorem fieldGet_added {f : Fld} {x y : Word} (h : fieldGet f x = fieldGet f y) (z : Word) : fieldGet f (x ||| z) = fieldGet f (y ||| z) := by
  have e := fieldGet_mixed h (BitVec.allOnes 64) z
  rwa [BitVec.and_allOnes, BitVec.and_allOnes] at e

/-! ### A field written -/

/-- A register field and a place that a write to field `f` of a register's entry leaves alone. -/
def Beside (f : Fld) (a i : Nat) (g : Fld) (b j : Nat) : Prop := ¬ (g.reg = f.reg ∧ b = a ∧ j = i) ∨ f.apart g

theorem rd_wr_beside {f g : Fld} {a i b j : Nat} (h : Beside f a i g b j) (s : State) (v : Nat) : (s.wr f a i v).rd g b j = s.rd g b j := by
  rcases h with h | h
  · exact s.rd_wr_ne v (fun e => h e)
  · exact s.rd_wr_apart v h

section
variable (s : State) (f : Fld) (a i : Nat) (v m : Word)

theorem ownSigs_quiet (s : State) : let t := s.ownSigs f a i
    t.regs = s.regs ∧ t.evs = s.evs ∧ mems t = mems s ∧ t.gate = s.gate ∧ t.hut = s.hut ∧ t.sites = s.sites := by
  unfold State.ownSigs
  generalize (List.range 4).find? (fun k => sigFld k == f) = o
  match o with
  | some k => exact ⟨rfl, rfl, rfl, rfl, rfl, rfl⟩
  | none => exact ⟨rfl, rfl, rfl, rfl, rfl, rfl⟩

/-- The value that a write under a mask leaves in a field, by its access code (R7, R443). -/
def fieldAfter : Nat :=
  if f.masked m = true then
    match f.acc with
    | .rw => if s.fieldTakes f a i (fieldGet f (s.word f.reg a i &&& ~~~m ||| v &&& m)) = true then fieldGet f (s.word f.reg a i &&& ~~~m ||| v &&& m) else s.rd f a i
    | .w1c => max (fieldGet f (s.word f.reg a i &&& ~~~(v &&& m))) (s.eventBits f a i)
    | .w1s => fieldGet f (s.word f.reg a i ||| v &&& m)
    | _ => s.rd f a i
  else s.rd f a i

theorem eventBits_lt : s.eventBits f a i < 2 ^ f.width := by
  unfold State.eventBits
  split
  · exact fieldGet_lt ..
  · exact Nat.two_pow_pos _

/-- A field written is left as it was, or takes its new value alone. -/
theorem writeField_cases : s.writeField f a i v m = s ∧ fieldAfter s f a i v m = s.rd f a i ∨
    (f.acc ≠ .ro ∧ f.acc ≠ .rc ∧ fieldAfter s f a i v m < 2 ^ f.width ∧
      (s.writeField f a i v m = s.wr f a i (fieldAfter s f a i v m) ∨ s.writeField f a i v m = (s.wr f a i (fieldAfter s f a i v m)).ownSigs f a i)) := by
  unfold State.writeField fieldAfter
  by_cases hm : f.masked m = true
  · rw [if_neg (by simp [hm]), if_pos hm]
    cases hacc : f.acc with
    | rw =>
      dsimp only
      by_cases ht : s.fieldTakes f a i (fieldGet f (s.word f.reg a i &&& ~~~m ||| v &&& m)) = true
      · rw [if_pos ht, if_pos ht]
        exact .inr ⟨by decide, by decide, fieldGet_lt .., .inr rfl⟩
      · rw [if_neg ht, if_neg ht]
        exact .inl ⟨rfl, rfl⟩
    | w1c => exact .inr ⟨by decide, by decide, Nat.max_lt.2 ⟨fieldGet_lt .., eventBits_lt ..⟩, .inl rfl⟩
    | w1s => exact .inr ⟨by decide, by decide, fieldGet_lt .., .inl rfl⟩
    | ro => exact .inl ⟨rfl, rfl⟩
    | wo => exact .inl ⟨rfl, rfl⟩
    | rc => exact .inl ⟨rfl, rfl⟩
  · rw [if_pos (by simp [hm]), if_neg hm]
    exact .inl ⟨rfl, rfl⟩

theorem writeField_self (h : f.fits) : (s.writeField f a i v m).rd f a i = fieldAfter s f a i v m := by
  rcases writeField_cases s f a i v m with ⟨e, e'⟩ | ⟨-, -, hlt, e | e⟩
  · rw [e, e']
  · rw [e, State.rd_wr_self _ _ _ _ _ h, Nat.mod_eq_of_lt hlt]
  · rw [e, rd_of_regs (ownSigs_quiet f a i _).1, State.rd_wr_self _ _ _ _ _ h, Nat.mod_eq_of_lt hlt]

theorem writeField_beside {g : Fld} {b j : Nat} (h : Beside f a i g b j) : (s.writeField f a i v m).rd g b j = s.rd g b j := by
  rcases writeField_cases s f a i v m with ⟨e, -⟩ | ⟨-, -, -, e | e⟩
  · rw [e]
  · rw [e, rd_wr_beside h]
  · rw [e, rd_of_regs (ownSigs_quiet f a i _).1, rd_wr_beside h]

theorem writeField_kept (h : f.acc = .ro ∨ f.acc = .rc) : s.writeField f a i v m = s := by
  rcases writeField_cases s f a i v m with ⟨e, -⟩ | ⟨h1, h2, -⟩
  · exact e
  · exact (h.elim h1 h2).elim

theorem writeField_quiet : let t := s.writeField f a i v m
    t.evs = s.evs ∧ mems t = mems s ∧ t.gate = s.gate ∧ t.hut = s.hut ∧ t.sites = s.sites ∧ SameRegs s t (oneReg f.reg a i) := by
  intro t
  have hw : ∀ n, let t := s.wr f a i n
      t.evs = s.evs ∧ mems t = mems s ∧ t.gate = s.gate ∧ t.hut = s.hut ∧ t.sites = s.sites ∧ SameRegs s t (oneReg f.reg a i) :=
    fun n => ⟨rfl, rfl, rfl, rfl, rfl, (SameRegs.refl s _).wr (f := f) n ⟨rfl, rfl, rfl⟩⟩
  rcases writeField_cases s f a i v m with ⟨e, -⟩ | ⟨-, -, -, e | e⟩
  · have ht : t = s := e
    rw [ht]
    exact ⟨rfl, rfl, rfl, rfl, rfl, SameRegs.refl s _⟩
  · have ht : t = s.wr f a i _ := e
    rw [ht]
    exact hw _
  · have ht : t = (s.wr f a i _).ownSigs f a i := e
    obtain ⟨w1, w2, w3, w4, w5, w6⟩ := hw (fieldAfter s f a i v m)
    obtain ⟨o1, o2, o3, o4, o5, o6⟩ := ownSigs_quiet f a i (s.wr f a i (fieldAfter s f a i v m))
    rw [ht]
    exact ⟨o2.trans w1, o3.trans w2, o4.trans w3, o5.trans w4, o6.trans w5, w6.trans (.of_eq o1)⟩

end

/-- Two states that agree on a field of a register's entry and on every other register. -/
def Agree (f : Fld) (a i : Nat) (s u : State) : Prop :=
  u.evs = s.evs ∧ u.rd f a i = s.rd f a i ∧ ∀ g b j, ¬ (g.reg = f.reg ∧ b = a ∧ j = i) → u.rd g b j = s.rd g b j

section
variable {s u : State} {f : Fld} {a i : Nat} (h : Agree f a i s u)
include h

theorem fieldTakes_agree (n : Nat) : u.fieldTakes f a i n = s.fieldTakes f a i n := by
  obtain ⟨-, hf, hg⟩ := h
  unfold State.fieldTakes
  by_cases h1 : f = F.TRN_PF_CTRL_THREADS
  · subst h1
    have ht : u.rd F.TRN_PF_CTRL_THREADS a = s.rd F.TRN_PF_CTRL_THREADS a := by
      by_cases hi : i = 0
      · subst hi
        exact hf
      · exact hg _ _ _ (fun e => hi e.2.2.symm)
    have hs : ∀ k, u.rd F.TRN_THR_STATE_STATE a k = s.rd F.TRN_THR_STATE_STATE a k := fun k => hg _ _ _ (fun e => absurd e.1 (by decide))
    have hd : u.rd F.TAL_DIG_STATE 0 i = s.rd F.TAL_DIG_STATE 0 i := hg _ _ _ (fun e => absurd e.1 (by decide))
    simp only [ht, hs, hd]
  · by_cases h2 : f = F.TAL_LIST_EN
    · subst h2
      have hd : u.rd F.TAL_DIG_STATE 0 i = s.rd F.TAL_DIG_STATE 0 i := hg _ _ _ (fun e => absurd e.1 (by decide))
      simp only [h1, if_false, hd]
    · simp only [h1, h2, if_false]

theorem fieldAfter_agree (v m : Word) : fieldAfter u f a i v m = fieldAfter s f a i v m := by
  have ht := fieldTakes_agree h
  obtain ⟨he, hf, -⟩ := h
  have hw : fieldGet f (u.word f.reg a i) = fieldGet f (s.word f.reg a i) := hf
  unfold fieldAfter State.eventBits
  rw [fieldGet_mixed hw, fieldGet_kept hw, fieldGet_added hw, ht, hf, he]

end

/-! ### A register written -/

theorem writeFields_rd {r : RegName} {a i : Nat} (v m : Word) : ∀ (l : List Fld) (s : State), laidOut r l = true →
    (∀ f ∈ l, (l.foldl (fun s f => s.writeField f a i v m) s).rd f a i = fieldAfter s f a i v m) ∧
    (∀ g b j, (∀ f ∈ l, Beside f a i g b j) → (l.foldl (fun s f => s.writeField f a i v m) s).rd g b j = s.rd g b j) := by
  intro l
  induction l with
  | nil => exact fun s _ => ⟨fun f hf => absurd hf List.not_mem_nil, fun _ _ _ _ => rfl⟩
  | cons f l ih =>
    intro s h
    obtain ⟨h1, h2, h3, h4⟩ := laidOut_cons h
    obtain ⟨i1, i2⟩ := ih (s.writeField f a i v m) h4
    refine ⟨fun g hg => ?_, fun g b j hb => ?_⟩
    · rcases List.mem_cons.1 hg with rfl | hg
      · rw [List.foldl_cons, i2 g a i (fun k hk => .inr (apart_symm (h3 k hk))), writeField_self _ _ _ _ _ _ h2]
      · rw [List.foldl_cons, i1 g hg]
        refine fieldAfter_agree ⟨(writeField_quiet ..).1, writeField_beside _ _ _ _ _ _ (.inr (h3 g hg)), fun k b j hk => writeField_beside _ _ _ _ _ _ (.inl ?_)⟩ v m
        rwa [h1, ← (laidOut_mem h4 g hg).1]
    · rw [List.foldl_cons, i2 g b j (fun k hk => hb k (List.mem_cons_of_mem _ hk)), writeField_beside _ _ _ _ _ _ (hb f (List.mem_cons_self ..))]

theorem writeFields_quiet {r : RegName} {a i : Nat} (v m : Word) : ∀ (l : List Fld) (s : State), (∀ f ∈ l, f.reg = r) →
    let t := l.foldl (fun s f => s.writeField f a i v m) s
    t.evs = s.evs ∧ mems t = mems s ∧ t.gate = s.gate ∧ t.hut = s.hut ∧ t.sites = s.sites ∧ SameRegs s t (oneReg r a i) := by
  intro l
  induction l with
  | nil => exact fun s _ => ⟨rfl, rfl, rfl, rfl, rfl, SameRegs.refl s _⟩
  | cons f l ih =>
    intro s h
    obtain ⟨a1, a2, a3, a4, a5, a6⟩ := writeField_quiet s f a i v m
    obtain ⟨b1, b2, b3, b4, b5, b6⟩ := ih (s.writeField f a i v m) (fun g hg => h g (List.mem_cons_of_mem _ hg))
    rw [h f (List.mem_cons_self ..)] at a6
    exact ⟨b1.trans a1, b2.trans a2, b3.trans a3, b4.trans a4, b5.trans a5, a6.trans b6⟩

/-- A read-only field anywhere keeps its value when a register is written. -/
theorem writeFields_ro {r : RegName} {a i : Nat} (v m : Word) {g : Fld} (hg : g ∈ g.reg.fields) (hro : g.acc = .ro) (b j : Nat) :
    ∀ (l : List Fld) (s : State), (∀ f ∈ l, f ∈ r.fields) → (l.foldl (fun s f => s.writeField f a i v m) s).rd g b j = s.rd g b j := by
  intro l
  induction l with
  | nil => exact fun _ _ => rfl
  | cons f l ih =>
    intro s h
    rw [List.foldl_cons, ih _ (fun k hk => h k (List.mem_cons_of_mem _ hk))]
    have hf := h f (List.mem_cons_self ..)
    by_cases he : f = g
    · rw [he, writeField_kept _ _ _ _ _ _ (.inl hro)]
    · by_cases hr : g.reg = r
      · exact writeField_beside _ _ _ _ _ _ (.inr (fields_apart hf (hr ▸ hg) he))
      · exact writeField_beside _ _ _ _ _ _ (.inl (fun e => hr (e.1.trans (fields_reg hf))))

end Sys2Proof.Proofs
end

section
/-! PROOF. Register writes by access code and right (R4, R7, R438, R443, R480). -/

namespace Sys2Proof.Proofs

open Sys2Proof Sys2Proof.Machine

/-! ### What a permitted write does -/

section
variable {s : State} {w : Who} {r : RegName} {a i : Nat} {v m : Word}

/-- A register whose fields have the values of a write was written as R7 has it. -/
theorem fieldsWritten {t : State} (h : ∀ f ∈ r.fields, t.rd f a i = fieldAfter s f a i v m) : FieldsWritten s t r a i v m := by
  intro f hf old new
  have hr : f.reg = r := fields_reg hf
  have hold : s.word f.reg a i = old := by rw [hr]
  have hrd := h f hf
  unfold fieldAfter at hrd
  rw [hold] at hrd
  refine ⟨fun hm => ⟨fun hacc ht => ?_, fun hacc ht => ?_, fun hacc => ?_, fun hacc => ?_⟩, fun hno => ?_⟩
  · rw [if_pos hm, hacc] at hrd
    exact hrd.trans (if_pos ht)
  · rw [if_pos hm, hacc] at hrd
    exact hrd.trans (if_neg (by rw [ht]; decide))
  · rw [if_pos hm, hacc] at hrd
    exact hrd
  · rw [if_pos hm, hacc] at hrd
    exact hrd
  · rcases hno with hno | hno | hno
    · rwa [if_neg (by rw [hno]; decide)] at hrd
    · rw [hno] at hrd
      exact hrd.trans (ite_self _)
    · rw [hno] at hrd
      exact hrd.trans (ite_self _)

/-- A register's fields written leave its queue pairs, the pitch and memory as they were. -/
theorem writeFields_shows (s : State) (r : RegName) (a i : Nat) (v m : Word) (c : Ctx) : let t := s.writeFields r a i v m
    FieldsWritten s t r a i v m ∧ Answers s t c ∧ Frame s t (oneReg r a i) := by
  intro t
  obtain ⟨h1, -⟩ := writeFields_rd (a := a) (i := i) v m r.fields s (fields_laidOut r)
  obtain ⟨-, q2, q3, -, -, q6⟩ := writeFields_quiet (r := r) (a := a) (i := i) v m r.fields s (fun f hf => fields_reg hf)
  have hro := fun {g : Fld} (hg : g ∈ g.reg.fields) (hro : g.acc = .ro) b j =>
    writeFields_ro (r := r) (a := a) (i := i) v m hg hro b j r.fields s (fun f hf => hf)
  refine ⟨fieldsWritten h1, ⟨?_, hro (g := F.GATE_QP_STATE) (by decide) rfl _ _, hro (g := F.COL_PITCH_NUM_PITCH) (by decide) rfl _ _⟩, .of_mems q2, q6⟩
  exact congrArg (fun g : GateX => (aget g.qps c.qp.toNat).getD QpX.reset) q3

theorem hostWrite_plain (hl : lockedRunning r = false ∨ s.running a = false) (ho : r ∉ ownWrite) (ha : actsOn r m = true) :
    s.hostWrite w r a i v m = s.writeFields r a i v m := by
  unfold State.hostWrite
  rw [if_neg (by rcases hl with e | e <;> simp [ha, e])]
  split
  · exact absurd (by decide) ho
  · exact absurd (by decide) ho
  · exact absurd (by decide) ho
  · exact absurd (by decide) ho
  · exact absurd (by decide) ho
  · exact absurd (by decide) ho
  · exact absurd (by decide) ho
  · rfl

theorem hostWrite_none (h : actsOn r m = false ∨ (lockedRunning r = true ∧ s.running a = true)) : s.hostWrite w r a i v m = s :=
  if_pos (by rcases h with e | ⟨e, e'⟩ <;> simp [*])

section
variable {x : Nat} (hx : regAt x = .reg r a i)
include hx

theorem writeAt_eq : s.writeAt w x v m = if !s.mayWrite w r a i then (stPartDenied, s)
    else if namesExpert r m && !s.expert w then (stExpertDenied, s) else (0, s.hostWrite w r a i v m) := by
  unfold State.writeAt
  rewrite [hx]
  rfl

theorem writeAt_denied (h : s.mayWrite w r a i = false) : s.writeAt w x v m = (6, s) :=
  (writeAt_eq hx).trans (if_pos (by rw [h]; rfl))

theorem writeAt_expert (h : s.mayWrite w r a i = true) (he : namesExpert r m = true) (hn : s.expert w = false) : s.writeAt w x v m = (5, s) :=
  (writeAt_eq hx).trans ((if_neg (by rw [h]; decide)).trans (if_pos (by rw [he, hn]; rfl)))

theorem writeAt_allowed (h : s.mayWrite w r a i = true) (he : namesExpert r m = false ∨ s.expert w = true) :
    s.writeAt w x v m = (0, s.hostWrite w r a i v m) :=
  (writeAt_eq hx).trans ((if_neg (by rw [h]; decide)).trans (if_neg (by rcases he with e | e <;> simp [e])))

end

end

/-- A write by right to a register whose writes have no meaning of their own. -/
def Plain (s : State) (w : Who) (r : RegName) (a i : Nat) (m : Word) : Prop :=
  s.mayWrite w r a i = true ∧ (namesExpert r m = false ∨ s.expert w = true) ∧ (lockedRunning r = false ∨ s.running a = false) ∧
    r ∉ ownWrite ∧ actsOn r m = true

theorem writeAt_plain {s : State} {w : Who} {r : RegName} {a i x : Nat} {v m : Word} (hx : regAt x = .reg r a i) (h : Plain s w r a i m) :
    s.writeAt w x v m = (0, s.writeFields r a i v m) := by
  obtain ⟨h1, h2, h3, h4, h5⟩ := h
  rw [writeAt_allowed hx h1 h2, hostWrite_plain h3 h4 h5]

/-! ### REG_WRITE and REGISTER_WRITE -/

section
variable {s : State} {c : Ctx} {x v m : BitVec 64}

theorem regWrite_eq (ho : s.rd F.GATE_QP_STATE 0 c.qp.toNat ≠ 0) (hx : regCmdAddr x.toNat = true) {y : Nat × State}
    (hy : s.writeAt (s.who c.qp.toNat) x.toNat v m = y) : exec (.regWrite c x v m) s =
      .next (if y.1 = 0 then y.2.ok c opRegWrite else y.2.status c opRegWrite y.1) := by
  refine congrArg Host.Outcome.next ((if_neg ho).trans ((if_neg (by rw [hx]; decide)).trans ?_))
  rewrite [hy]
  rfl

theorem regWriteAnswers (ho : s.rd F.GATE_QP_STATE 0 c.qp.toNat ≠ 0) (hx : regCmdAddr x.toNat = true) {r : RegName} {a i : Nat}
    (hr : regAt x.toNat = .reg r a i) : let w := s.who c.qp.toNat
    (Plain s w r a i m → Done (.regWrite c x v m) s (fun t => FieldsWritten s t r a i v m ∧ Completed s t c 9 0 0 0 0 ∧ Frame s t (oneReg r a i))) ∧
    (s.mayWrite w r a i = false → Done (.regWrite c x v m) s (fun t => Completed s t c 9 3 6 0 0 ∧ Frame s t noReg)) ∧
    (s.mayWrite w r a i = true → namesExpert r m = true → s.expert w = false → Done (.regWrite c x v m) s (fun t =>
      Completed s t c 9 3 5 0 0 ∧ Frame s t noReg)) ∧
    (s.mayWrite w r a i = true → (namesExpert r m = false ∨ s.expert w = true) →
      (actsOn r m = false ∨ (lockedRunning r = true ∧ s.running a = true)) → Done (.regWrite c x v m) s (fun t =>
        Completed s t c 9 0 0 0 0 ∧ Frame s t noReg)) := by
  intro w
  refine ⟨fun hp => ?_, fun hw => ?_, fun hw he hn => ?_, fun hw he hn => ?_⟩
  · have hex := regWrite_eq ho hx (writeAt_plain (v := v) hr hp)
    obtain ⟨f1, f2, f3⟩ := writeFields_shows s r a i v m c
    obtain ⟨k1, k2, k3, -⟩ := commandAnswers ho f2 f3 opRegWrite 0 0 0 0
    refine .next (hex.trans (congrArg Host.Outcome.next (if_pos rfl))) ⟨?_, k1, k2⟩
    intro f hf
    have hrd : (((s.writeFields r a i v m).complete c opRegWrite 0 0 0 0)).rd f a i = (s.writeFields r a i v m).rd f a i := rd_of_regs k3 ..
    have h := f1 f hf
    rw [← hrd] at h
    exact h
  · exact answeredOnly ho ((regWrite_eq ho hx (writeAt_denied hr hw)).trans (congrArg Host.Outcome.next (if_neg (Nat.succ_ne_zero _))))
  · exact answeredOnly ho ((regWrite_eq ho hx (writeAt_expert hr hw he hn)).trans (congrArg Host.Outcome.next (if_neg (Nat.succ_ne_zero _))))
  · have hex := regWrite_eq (v := v) ho hx (writeAt_allowed hr hw he)
    obtain ⟨k1, k2, -⟩ := commandAnswers ho (Answers.refl s c) (Frame.refl s noReg) opRegWrite 0 0 0 0
    refine .next (hex.trans (congrArg Host.Outcome.next (if_pos rfl))) ?_
    rw [hostWrite_none hn]
    exact ⟨k1, k2⟩

end

theorem registerWrites {s : State} {w : Who} {x : BitVec 48} {v m : Word} {r : RegName} {a i : Nat} (hx : regCmdAddr x.toNat = true)
    (hr : regAt x.toNat = .reg r a i) :
    (Plain s w r a i m → Done (.registerWrite w x v m) s (fun t => FieldsWritten s t r a i v m ∧ Frame s t (oneReg r a i))) ∧
    ((s.mayWrite w r a i = false ∨ (namesExpert r m = true ∧ s.expert w = false)) → Done (.registerWrite w x v m) s (fun t => t = s)) := by
  have hex : exec (.registerWrite w x v m) s = .next (s.writeAt w x.toNat v m).2 := congrArg Host.Outcome.next (if_pos hx)
  refine ⟨fun hp => ?_, fun h => ?_⟩
  · rw [writeAt_plain hr hp] at hex
    obtain ⟨f1, -, f3⟩ := writeFields_shows s r a i v m ⟨0, 0, 0, false⟩
    exact .next hex ⟨f1, f3⟩
  · by_cases hw : s.mayWrite w r a i = true
    · obtain ⟨he, hn⟩ := h.resolve_left (by rw [hw]; decide)
      rw [writeAt_expert hr hw he hn] at hex
      exact .next hex rfl
    · rw [writeAt_denied hr (by simpa using hw)] at hex
      exact .next hex rfl

/-! ### REG_WRITE_LIST -/

theorem FieldsWritten.congr {s u t : State} {r : RegName} {a i : Nat} {v m : Word} (hr : u.regs = s.regs) (he : u.evs = s.evs)
    (h : FieldsWritten u t r a i v m) : FieldsWritten s t r a i v m := by
  intro f hf
  have hag : Agree f a i s u := ⟨he, rd_of_regs hr .., fun _ _ _ _ => rd_of_regs hr ..⟩
  have hw : u.word r a i = s.word r a i := by
    unfold State.word
    rw [hr]
  have hb : u.eventBits f a i = s.eventBits f a i := by
    unfold State.eventBits
    rw [he]
  have hf := h f hf
  simp only [hw, hb, fieldTakes_agree hag, rd_of_regs hr] at hf
  exact hf

theorem Plain.congr {s t : State} (hk : ReadKeeps s t) {w : Who} {r : RegName} {a i : Nat} {m : Word} (h : Plain s w r a i m) : Plain t w r a i m := by
  obtain ⟨h1, h2, h3, h4, h5⟩ := h
  exact ⟨(hk (·.mayWrite w r a i) (fun _ _ => rfl) (fun _ _ _ => rfl)).trans h1, h2.imp id ((hk (·.expert w) (fun _ _ => rfl) (fun _ _ _ => rfl)).trans ·),
    h3.imp id ((hk (·.running a) (fun _ _ => rfl) (fun _ _ _ => rfl)).trans ·), h4, h5⟩

section
variable {s : State} {c : Ctx} {l : BitVec 64} {n : BitVec 16}

/-- A list of records that stands clean: its first record, what follows it, and the state that has read them (R445). -/
theorem listAt_clean (h8 : l.toNat % 8 = 0) (h1 : 1 ≤ n.toNat) (hd : s.memc.delivered = none)
    (hc : ∀ k, k < 2 * n.toNat → s.extServe (l.toNat + 8 * k) = 0 ∧ s.frameClean (stripeOf (l.toNat + 8 * k)) = true) : ∃ t rest,
    s.listAt l.toNat n.toNat = (((s.word64 l.toNat).toNat, (s.word64 (l.toNat + 8)).toNat) :: rest, t) ∧ readView t = readView s ∧ ReadKeeps s t ∧
    (n.toNat = 1 → rest = []) ∧ (2 ≤ n.toNat → ∃ y more, rest = ((s.word64 (l.toNat + 16)).toNat, y) :: more) := by
  obtain ⟨hl, hv, hk⟩ := extReads_clean (s := s) (o := .gate) (n := 2 * n.toNat) h8 hd (fun w h1 h2 => by
    have h := hc (w - l.toNat / 8) (by omega)
    rw [show l.toNat + 8 * (w - l.toNat / 8) = 8 * w by omega, stripeOf, show 8 * w / 256 = w / 32 by omega] at h
    exact h)
  unfold State.listAt
  generalize s.extReads .gate l.toNat (2 * n.toNat) = y at *
  obtain ⟨ws, t⟩ := y
  have hx : 8 * (l.toNat / 8) = l.toNat := by omega
  have hx1 : 8 * (l.toNat / 8 + 1) = l.toNat + 8 := by omega
  have hx2 : 8 * (l.toNat / 8 + 1 + 1) = l.toNat + 16 := by omega
  obtain ⟨k, hk2⟩ : ∃ k, 2 * n.toNat = k + 2 := ⟨2 * n.toNat - 2, by omega⟩
  rw [hk2, List.range'_succ, List.range'_succ] at hl
  subst hl
  refine ⟨t, pairWords ((List.range' (l.toNat / 8 + 1 + 1) k).map (cellWord s)), ?_, hv, hk, fun e => ?_, fun e => ?_⟩
  · simp only [List.map_cons, pairWords, cellWord, hx, hx1]
  · rw [show k = 0 by omega]
    rfl
  · obtain ⟨j, hj⟩ : ∃ j, k = j + 2 := ⟨k - 2, by omega⟩
    rw [hj, List.range'_succ, List.range'_succ]
    simp only [List.map_cons, pairWords, cellWord, hx2]
    exact ⟨_, _, rfl⟩

theorem regWriteList_eq (ho : s.rd F.GATE_QP_STATE 0 c.qp.toNat ≠ 0) (h3 : s.rd F.GATE_QP_GVER 0 c.qp.toNat ≠ 2) (h8 : l.toNat % 8 = 0)
    (h1 : 1 ≤ n.toNat) (h4 : n.toNat ≤ 4096) (hp : s.memPermitted c.qp.toNat l.toNat (16 * n.toNat) = true) {t : State} {rs : List (Nat × Nat)}
    (hl : s.listAt l.toNat n.toNat = (rs, t)) : exec (.regWriteList c l n) s = .next (match t.writeList (s.who c.qp.toNat) rs 0 with
      | (s, none) => s.ok c opRegWriteList
      | (s, some (k, st)) => s.complete c opRegWriteList 3 st k) := by
  have h : ¬ (n.toNat = 0 ∨ n.toNat > 4096 ∨ l.toNat % 8 ≠ 0 ∨ !s.memPermitted c.qp.toNat l.toNat (16 * n.toNat)) := by
    rw [hp]
    simp
    omega
  refine congrArg Host.Outcome.next ((if_neg h3).trans ((if_neg ho).trans ((if_neg h).trans ?_)))
  rewrite [hl]
  generalize t.writeList (s.who c.qp.toNat) rs 0 = y
  match y with
  | (_, none) => rfl
  | (_, some (_, _)) => rfl

theorem writeList_next {w : Who} {x : Nat} {v : Word} {rs : List (Nat × Nat)} {k : Nat} {u : State} (hx : regCmdAddr x = true)
    (hy : s.writeAt w x v (BitVec.allOnes 64) = (0, u)) : s.writeList w ((x, v.toNat) :: rs) k = u.writeList w rs (k + 1) := by
  rw [State.writeList, if_neg (by rw [hx]; decide), BitVec.ofNat_toNat, BitVec.setWidth_eq, hy]
  exact if_pos rfl

theorem writeList_denied {w : Who} {x : Nat} {v : Word} {rs : List (Nat × Nat)} {k st : Nat} {u : State} (hx : regCmdAddr x = true)
    (hy : s.writeAt w x v (BitVec.allOnes 64) = (st, u)) (hst : st ≠ 0) : s.writeList w ((x, v.toNat) :: rs) k = (u, some (k, st)) := by
  rw [State.writeList, if_neg (by rw [hx]; decide), BitVec.ofNat_toNat, BitVec.setWidth_eq, hy]
  exact if_neg hst

theorem writeList_off {w : Who} {x v : Nat} {rs : List (Nat × Nat)} {k : Nat} (hx : regCmdAddr x = false) :
    s.writeList w ((x, v) :: rs) k = (s, some (k, 2)) := by
  rw [State.writeList, if_pos (by rw [hx]; decide)]
  rfl

theorem listsAreWritten (ho : s.rd F.GATE_QP_STATE 0 c.qp.toNat ≠ 0) (h3 : s.rd F.GATE_QP_GVER 0 c.qp.toNat ≠ 2) (h8 : l.toNat % 8 = 0)
    (h1 : 1 ≤ n.toNat) (h4 : n.toNat ≤ 4096) (hp : s.memPermitted c.qp.toNat l.toNat (16 * n.toNat) = true) (hd : s.memc.delivered = none)
    (hc : ∀ k, k < 2 * n.toNat → s.extServe (l.toNat + 8 * k) = 0 ∧ s.frameClean (stripeOf (l.toNat + 8 * k)) = true)
    (hy : regCmdAddr (s.word64 l.toNat).toNat = true) :
    let w := s.who c.qp.toNat
    let v := s.word64 (l.toNat + 8)
    (∀ r a i, n.toNat = 1 → regAt (s.word64 l.toNat).toNat = .reg r a i → Plain s w r a i (BitVec.allOnes 64) → Done (.regWriteList c l n) s (fun t =>
      FieldsWritten s t r a i v (BitVec.allOnes 64) ∧ Completed s t c 10 0 0 0 0 ∧ Frame s t (oneReg r a i))) ∧
    (∀ r a i, regAt (s.word64 l.toNat).toNat = .reg r a i → s.mayWrite w r a i = false → Done (.regWriteList c l n) s (fun t =>
      Completed s t c 10 3 6 0 0 ∧ Frame s t noReg)) ∧
    (∀ r a i, 2 ≤ n.toNat → regAt (s.word64 l.toNat).toNat = .reg r a i → Plain s w r a i (BitVec.allOnes 64) →
      regCmdAddr (s.word64 (l.toNat + 16)).toNat = false → Done (.regWriteList c l n) s (fun t =>
        FieldsWritten s t r a i v (BitVec.allOnes 64) ∧ Completed s t c 10 3 2 1 0 ∧ Frame s t (oneReg r a i))) := by
  intro w v
  obtain ⟨t, rest, hl, hv, hk, hone, htwo⟩ := listAt_clean h8 h1 hd hc
  have hex := regWriteList_eq ho h3 h8 h1 h4 hp hl
  have hr := (readView_parts hv).2.1
  have he : t.evs = s.evs := hk (·.evs) (fun _ _ => rfl) (fun _ _ _ => rfl)
  have hwritten : ∀ r a i, Answers s (t.writeFields r a i v (BitVec.allOnes 64)) c ∧ Frame s (t.writeFields r a i v (BitVec.allOnes 64)) (oneReg r a i) ∧
      FieldsWritten s (t.writeFields r a i v (BitVec.allOnes 64)) r a i v (BitVec.allOnes 64) := fun r a i => by
    obtain ⟨f1, ⟨a1, a2, a3⟩, f3⟩ := writeFields_shows t r a i v (BitVec.allOnes 64) c
    obtain ⟨b1, b2, b3⟩ := hk.answers (c := c) hv
    have hf := ReadKeeps.frame hv (oneReg r a i)
    exact ⟨⟨a1.trans b1, a2.trans b2, a3.trans b3⟩, ⟨hf.1.trans f3.1, hf.2.trans f3.2⟩, FieldsWritten.congr hr he f1⟩
  have hcomp : ∀ {u : State} {r : RegName} {a i : Nat} (cls code res : Nat), FieldsWritten s u r a i v (BitVec.allOnes 64) →
      FieldsWritten s (u.complete c opRegWriteList cls code res 0) r a i v (BitVec.allOnes 64) := fun {u r a i} cls code res hu f hf => by
    have hrd : ∀ f, (u.complete c opRegWriteList cls code res 0).rd f a i = u.rd f a i := fun f => rd_of_regs (complete_quiet u c opRegWriteList cls code res 0).1 ..
    have h := hu f hf
    simp only [← hrd] at h
    exact h
  refine ⟨fun r a i hn hreg hpl => ?_, fun r a i hreg hw => ?_, fun r a i hn hreg hpl hbad => ?_⟩
  · rw [hone hn, writeList_next hy (writeAt_plain hreg (hpl.congr hk))] at hex
    obtain ⟨a1, a2, a3⟩ := hwritten r a i
    obtain ⟨k1, k2, -⟩ := commandAnswers ho a1 a2 opRegWriteList 0 0 0 0
    exact .next hex ⟨hcomp 0 0 0 a3, k1, k2⟩
  · rw [writeList_denied hy (writeAt_denied hreg ((hk (·.mayWrite w r a i) (fun _ _ => rfl) (fun _ _ _ => rfl)).trans hw)) (by decide)] at hex
    obtain ⟨k1, k2, -⟩ := commandAnswers ho (hk.answers (c := c) hv) (ReadKeeps.frame hv noReg) opRegWriteList 3 6 0 0
    exact .next hex ⟨k1, k2⟩
  · obtain ⟨y, more, hrest⟩ := htwo hn
    rw [hrest, writeList_next hy (writeAt_plain hreg (hpl.congr hk)), writeList_off hbad] at hex
    obtain ⟨a1, a2, a3⟩ := hwritten r a i
    obtain ⟨k1, k2, -⟩ := commandAnswers ho a1 a2 opRegWriteList 3 2 1 0
    exact .next hex ⟨hcomp 3 2 1 a3, k1, k2⟩

end

/-- Settles O49. -/
theorem registersAreWritten : Obligations.RegistersAreWritten := by
  unfold Obligations.RegistersAreWritten
  intro s plain
  refine ⟨fun c x v m r a i ho hx hr => regWriteAnswers ho hx hr, fun w x v m r a i hx hr => registerWrites hx hr, fun c l n ho => ?_⟩
  intro w y v
  refine ⟨fun h3 => answeredOnly ho (congrArg Host.Outcome.next (if_pos h3)), fun h3 h8 h1 h4 hp hd hc hy => ?_⟩
  exact listsAreWritten ho h3 h8 h1 h4 hp hd hc hy

end Sys2Proof.Proofs
end

section
/-! PROOF. Register reads and what they clear (R7, R443, R480 to R483). -/

namespace Sys2Proof.Proofs

open Sys2Proof Sys2Proof.Machine

/-! ### Where registers stand -/

/-- The register of a site at an offset of its block, by the kind of the site (Table 18-2). -/
def kindRegAt (tarn : Bool) (off : Nat) : Option (RegName × Nat) :=
  RegName.all.findSome? (fun r =>
    let p := r.place
    let kindOk := p.kind == 0 || (p.kind == 1 && !tarn) || (p.kind == 2 && tarn)
    if p.block.isNone && kindOk && decide (p.offset + 8 * p.first ≤ off) &&
        decide (off < p.offset + 8 * (p.first + p.count)) && off % 8 == 0 then some (r, (off - p.offset) / 8) else none)

theorem siteRegAt_eq (a off : Nat) : siteRegAt a off = kindRegAt (isTarn a) off := rfl

/-- A site's register is found at its address (R479). -/
theorem regAt_site {r : RegName} {a i : Nat} (ha : a < 256) (hb : r.place.block = none) (ho : r.place.offset + 8 * i < 0x2000)
    (hk : kindRegAt (isTarn a) (r.place.offset + 8 * i) = some (r, i)) : regAt (r.address a i) = .reg r a i := by
  have hx : r.address a i = 0x01F000000000 + a * 0x10000 + r.place.offset + 8 * i := by
    unfold RegName.address
    rw [hb]
  generalize hoff : r.place.offset + 8 * i = off at *
  have h1 : r.address a i - 0x01F000000000 = a * 0x10000 + off := by omega
  have h2 : (a * 0x10000 + off) / 0x10000 = a := by omega
  have h3 : (a * 0x10000 + off) % 0x10000 = off := by omega
  unfold regAt
  dsimp only
  rw [if_pos (by omega), h1, h2, h3, if_neg (by omega), siteRegAt_eq, hk]

theorem regAt_spur {r : RegName} {a i : Nat} (ha : isSpur a = true) (hb : r.place.block = none) (ho : r.place.offset + 8 * i < 0x2000)
    (hk : kindRegAt false (r.place.offset + 8 * i) = some (r, i)) : regAt (r.address a i) = .reg r a i := by
  simp only [isSpur, Bool.and_eq_true, decide_eq_true_eq, Bool.not_eq_true'] at ha
  exact regAt_site ha.1 hb ho (by rw [ha.2]; exact hk)

theorem regAt_anySite {r : RegName} {a i : Nat} (ha : a < 256) (hb : r.place.block = none) (ho : r.place.offset + 8 * i < 0x2000)
    (hk : ∀ b, kindRegAt b (r.place.offset + 8 * i) = some (r, i)) : regAt (r.address a i) = .reg r a i := regAt_site ha hb ho (hk _)

theorem regAt_chkLog {a : Nat} (ha : isSpur a = true) : regAt (RegName.CHK_LOG.address a 0) = .reg .CHK_LOG a 0 :=
  regAt_spur ha rfl (by decide) (by decide +kernel)

theorem regAt_eccLog {a : Nat} (ha : a < 256) : regAt (RegName.CHK_ECC_LOG.address a 0) = .reg .CHK_ECC_LOG a 0 :=
  regAt_anySite ha rfl (by decide) (by decide +kernel)

theorem regAt_seed {a : Nat} (ha : isSpur a = true) : regAt (RegName.VEC_SR_SEED.address a 0) = .reg .VEC_SR_SEED a 0 :=
  regAt_spur ha rfl (by decide) (by decide +kernel)

theorem regAt_steer {a : Nat} (ha : a < 256) (n : BitVec 3) : regAt (RegName.SEQ_STEER.address a n.toNat) = .reg .SEQ_STEER a n.toNat := by
  have h : ∀ (n : BitVec 3) b, RegName.SEQ_STEER.place.offset + 8 * n.toNat < 0x2000 ∧
      kindRegAt b (RegName.SEQ_STEER.place.offset + 8 * n.toNat) = some (.SEQ_STEER, n.toNat) := by decide +kernel
  exact regAt_anySite ha rfl (h n true).1 (fun b => (h n b).2)

theorem regAt_errLog : regAt (RegName.MEM_ERR_LOG.address 0 0) = .reg .MEM_ERR_LOG 0 0 := by decide +kernel

theorem regAt_refusal (p : PartNo) : regAt (RegName.HUT_LOAD_REFUSAL.address 0 p.toNat) = .reg .HUT_LOAD_REFUSAL 0 p.toNat := by
  revert p
  decide +kernel

theorem regAt_poison (p : PartNo) : regAt (RegName.HUT_POISON.address 0 p.toNat) = .reg .HUT_POISON 0 p.toNat := by
  revert p
  decide +kernel

/-! ### What a read leaves -/

/-- The fields of a register that a read clears (R7). -/
def cleared (r : RegName) : List Fld := r.fields.filter (fun f => f.acc == .rc)

theorem mem_cleared {r : RegName} {f : Fld} : f ∈ cleared r ↔ f ∈ r.fields ∧ f.acc = .rc := by
  simp [cleared]

/-- Registers with fields that a read clears hold neither the pitch nor a queue pair. -/
theorem cleared_elsewhere : cleared .GATE_QP = [] ∧ cleared .COL_PITCH_NUM = [] := by decide

theorem clearing_elsewhere {r : RegName} (h : cleared r ≠ []) : r ≠ .GATE_QP ∧ r ≠ .COL_PITCH_NUM :=
  ⟨fun e => h (e ▸ cleared_elsewhere.1), fun e => h (e ▸ cleared_elsewhere.2)⟩

/-- A register whose fields have been cleared. -/
def clearedWord (s : State) (r : RegName) (a i : Nat) : State := (cleared r).foldl (fun s f => s.wr f a i 0) s

theorem foldl_wr_zero {r : RegName} {a i : Nat} : ∀ (l : List Fld) (s : State), (∀ f ∈ l, f ∈ r.fields) →
    let t := l.foldl (fun s f => s.wr f a i 0) s
    (∀ f ∈ r.fields, t.rd f a i = if f ∈ l then 0 else s.rd f a i) ∧ Frame s t (oneReg r a i) ∧ t.gate = s.gate := by
  intro l
  induction l with
  | nil => exact fun s _ => ⟨fun _ _ => rfl, Frame.refl .., rfl⟩
  | cons g l ih =>
    intro s h
    have hg := h g (List.mem_cons_self ..)
    obtain ⟨i1, i2, i3⟩ := ih (s.wr g a i 0) (fun f hf => h f (List.mem_cons_of_mem _ hf))
    have hw : Frame s (s.wr g a i 0) (oneReg r a i) := Frame.wr s 0 ⟨fields_reg hg, rfl, rfl⟩
    refine ⟨fun f hf => ?_, ⟨hw.1.trans i2.1, hw.2.trans i2.2⟩, i3⟩
    rw [List.foldl_cons, i1 f hf]
    by_cases hl : f ∈ l
    · rw [if_pos hl, if_pos (List.mem_cons_of_mem _ hl)]
    · rw [if_neg hl]
      by_cases hfg : f = g
      · rw [if_pos (hfg ▸ List.mem_cons_self ..), hfg, State.rd_wr_self _ _ _ _ _ (fields_fit hg), Nat.zero_mod]
      · rw [if_neg (fun e => (List.mem_cons.1 e).elim hfg hl), s.rd_wr_apart 0 (fields_apart hg hf (Ne.symm hfg))]

theorem clearedWord_shows (s : State) (r : RegName) (a i : Nat) : let t := clearedWord s r a i
    (∀ f ∈ r.fields, f.acc = .rc → t.rd f a i = 0) ∧ (∀ f ∈ r.fields, f.acc ≠ .rc → t.rd f a i = s.rd f a i) ∧ Frame s t (oneReg r a i) ∧ t.gate = s.gate := by
  intro t
  obtain ⟨h1, h2, h3⟩ := foldl_wr_zero (a := a) (i := i) (cleared r) s (fun f hf => (mem_cleared.1 hf).1)
  refine ⟨fun f hf hrc => (h1 f hf).trans (if_pos (mem_cleared.2 ⟨hf, hrc⟩)), fun f hf hrc => (h1 f hf).trans (if_neg (fun e => hrc (mem_cleared.1 e).2)), h2, h3⟩

section
variable {s : State} {r : RegName} {a i : Nat}

theorem hostRead_clears (he : aget s.evs ⟨r, a, i⟩ = none) : s.hostRead r a i = (s.look r a i, clearedWord s r a i) := by
  unfold State.hostRead clearedWord cleared
  rewrite [he]
  generalize r.fields.filter (fun f => f.acc == .rc) = l
  cases l <;> rfl

/-- A register that a read clears, after an event of the same cycle: it holds what the event left (R7). -/
def keptEvent (s : State) (r : RegName) (a i : Nat) (after : Word) : State := { s.setWord r a i after with evs := adel s.evs ⟨r, a, i⟩ }

theorem hostRead_event {before after : Word} (he : aget s.evs ⟨r, a, i⟩ = some (before, after)) (hrc : ∃ f ∈ r.fields, f.acc = .rc) :
    s.hostRead r a i = ((s.setWord r a i before).look r a i, keptEvent s r a i after) := by
  obtain ⟨f, hf⟩ := hrc
  have hm : f ∈ r.fields.filter (fun f => f.acc == .rc) := mem_cleared.2 hf
  unfold State.hostRead keptEvent
  rewrite [he]
  generalize r.fields.filter (fun f => f.acc == .rc) = l at hm
  cases l with
  | nil => exact absurd hm List.not_mem_nil
  | cons _ _ => rfl

theorem keptEvent_shows (s : State) (r : RegName) (a i : Nat) (after : Word) : let t := keptEvent s r a i after
    t.word r a i = after ∧ Frame s t (oneReg r a i) ∧ t.gate = s.gate :=
  ⟨State.word_setWord_same .., ⟨.of_mems rfl, ((SameRegs.refl s _).setWord (r := r) after ⟨rfl, rfl, rfl⟩).trans (.of_eq rfl)⟩, rfl⟩

/-- A state that differs in a register without the pitch and without a queue pair answers as before. -/
theorem answers_of_frame {v : State} (c : Ctx) (hg : v.gate = s.gate) (hf : Frame s v (oneReg r a i)) (hr : r ≠ .GATE_QP ∧ r ≠ .COL_PITCH_NUM) :
    Answers s v c := by
  refine ⟨congrArg (fun g : GateX => (aget g.qps c.qp.toNat).getD QpX.reset) hg, ?_, ?_⟩
  · exact congrArg (fieldGet F.GATE_QP_STATE) (hf.2 .GATE_QP 0 c.qp.toNat (fun h => hr.1 h.1.symm))
  · exact congrArg (fieldGet F.COL_PITCH_NUM_PITCH) (hf.2 .COL_PITCH_NUM 0 0 (fun h => hr.2 h.1.symm))

/-- A read that clears fields leaves the answer to its command as it was. -/
theorem clearedWord_answers (s : State) (r : RegName) (a i : Nat) (c : Ctx) : Answers s (clearedWord s r a i) c := by
  obtain ⟨-, -, h3, h4⟩ := clearedWord_shows s r a i
  by_cases hn : cleared r = []
  · have e : clearedWord s r a i = s := by
      unfold clearedWord
      rw [hn]
      rfl
    rw [e]
    exact Answers.refl ..
  · exact answers_of_frame c h4 h3 (clearing_elsewhere hn)

variable {w : Who} {x : Nat}

theorem readAt_denied (h : s.mayReadAt w x = false) : s.readAt w x = (6, 0, s) := if_pos (by rw [h]; rfl)

theorem readAt_reg (hx : regAt x = .reg r a i) (h : s.mayReadAt w x = true) {y : Word × State} (hy : s.hostRead r a i = y) :
    s.readAt w x = (0, y.1, y.2) := by
  unfold State.readAt
  rw [if_neg (by rw [h]; decide)]
  rewrite [hx]
  dsimp only
  rw [hy]

theorem readAt_counter {site : Option Nat} {live : Nat} {snap : Bool} (hx : regAt x = .counter site live snap) (h : s.mayReadAt w x = true) :
    s.readAt w x = (0, BitVec.ofNat 64 ((aget (if snap then s.snaps else s.counters) live).getD 0), s) := by
  unfold State.readAt
  rw [if_neg (by rw [h]; decide)]
  rewrite [hx]
  rfl

theorem mayReadAt_reg (hx : regAt x = .reg r a i) : s.mayReadAt w x = s.mayRead w r a i := by
  unfold State.mayReadAt
  rw [hx]

end

/-! ### REG_READ -/

section
variable {s : State} {c : Ctx} {x : BitVec 64}

theorem regRead_eq (ho : s.rd F.GATE_QP_STATE 0 c.qp.toNat ≠ 0) (hx : regCmdAddr x.toNat = true) {y : Nat × Word × State}
    (hy : s.readAt (s.who c.qp.toNat) x.toNat = y) : exec (.regRead c x) s =
      .next (if y.1 = 0 then y.2.2.ok c opRegRead y.2.1.toNat else y.2.2.status c opRegRead y.1) := by
  refine congrArg Host.Outcome.next ((if_neg ho).trans ((if_neg (by rw [hx]; decide)).trans ?_))
  rewrite [hy]
  rfl

variable (ho : s.rd F.GATE_QP_STATE 0 c.qp.toNat ≠ 0)
include ho

theorem regReadAnswers {r : RegName} {a i : Nat} (hx : regCmdAddr x.toNat = true) (hm : s.mayReadAt (s.who c.qp.toNat) x.toNat = true)
    (hr : regAt x.toNat = .reg r a i) :
    (aget s.evs ⟨r, a, i⟩ = none → Done (.regRead c x) s (fun t => Completed s t c 8 0 0 (s.look r a i).toNat 0 ∧
      (∀ f ∈ r.fields, f.acc = .rc → t.rd f a i = 0) ∧ (∀ f ∈ r.fields, f.acc ≠ .rc → t.rd f a i = s.rd f a i) ∧
      Frame s t (oneReg r a i))) ∧
    (∀ before after, aget s.evs ⟨r, a, i⟩ = some (before, after) → (∃ f ∈ r.fields, f.acc = .rc) →
      Done (.regRead c x) s (fun t => Completed s t c 8 0 0 ((s.setWord r a i before).look r a i).toNat 0 ∧
        t.word r a i = after ∧ Frame s t (oneReg r a i))) := by
  refine ⟨fun he => ?_, fun before after he hrc => ?_⟩
  · have hex := regRead_eq ho hx (readAt_reg hr hm (hostRead_clears he))
    obtain ⟨h1, h2, h3, -⟩ := clearedWord_shows s r a i
    obtain ⟨k1, k2, k3, -⟩ := commandAnswers ho (clearedWord_answers s r a i c) h3 opRegRead 0 0 (s.look r a i).toNat 0
    exact .next (hex.trans (congrArg Host.Outcome.next (if_pos rfl)))
      ⟨k1, fun f hf hrc => (rd_of_regs k3 ..).trans (h1 f hf hrc), fun f hf hrc => (rd_of_regs k3 ..).trans (h2 f hf hrc), k2⟩
  · have hex := regRead_eq ho hx (readAt_reg hr hm (hostRead_event he hrc))
    obtain ⟨h1, h2, h3⟩ := keptEvent_shows s r a i after
    obtain ⟨f, hf⟩ := hrc
    have hans : Answers s (keptEvent s r a i after) c := answers_of_frame c h3 h2 (clearing_elsewhere (List.ne_nil_of_mem (mem_cleared.2 hf)))
    obtain ⟨k1, k2, k3, -⟩ := commandAnswers ho hans h2 opRegRead 0 0 ((s.setWord r a i before).look r a i).toNat 0
    have hw : ((keptEvent s r a i after).complete c opRegRead 0 0 ((s.setWord r a i before).look r a i).toNat 0).word r a i = after := by
      refine Eq.trans ?_ h1
      unfold State.word
      rw [k3]
    exact .next (hex.trans (congrArg Host.Outcome.next (if_pos rfl))) ⟨k1, hw, k2⟩

theorem regReadCounter {site : Option Nat} {live : Nat} {snap : Bool} (hx : regCmdAddr x.toNat = true)
    (hm : s.mayReadAt (s.who c.qp.toNat) x.toNat = true) (hr : regAt x.toNat = .counter site live snap) : Done (.regRead c x) s (fun t =>
      Completed s t c 8 0 0 ((aget (if snap then s.snaps else s.counters) live).getD 0 % 2 ^ 64) 0 ∧ Frame s t noReg) := by
  have hex := regRead_eq ho hx (readAt_counter hr hm)
  obtain ⟨k1, k2, -⟩ := commandAnswers ho (Answers.refl s c) (Frame.refl s noReg) opRegRead 0 0 ((aget (if snap then s.snaps else s.counters) live).getD 0 % 2 ^ 64) 0
  refine .next (hex.trans (congrArg Host.Outcome.next (if_pos rfl))) ?_
  rw [BitVec.toNat_ofNat]
  exact ⟨k1, k2⟩

theorem regReadDenied (hx : regCmdAddr x.toNat = true) (hm : s.mayReadAt (s.who c.qp.toNat) x.toNat = false) : Done (.regRead c x) s (fun t =>
    Completed s t c 8 3 6 0 0 ∧ Frame s t noReg) :=
  answeredOnly ho ((regRead_eq ho hx (readAt_denied hm)).trans (congrArg Host.Outcome.next (if_neg (Nat.succ_ne_zero _))))

theorem regReadOff (hx : regCmdAddr x.toNat = false) : Done (.regRead c x) s (fun t => Completed s t c 8 3 2 0 0 ∧ Frame s t noReg) :=
  answeredOnly ho (congrArg Host.Outcome.next ((if_neg ho).trans (if_pos (by rw [hx]; rfl))))

end

/-! ### Reads of the logs -/

/-- A log read at its address: its kind is cleared, or what an event of the cycle left stays; without the right nothing changes. -/
theorem logRead {s : State} {w : Who} {k : Instr} {f : Fld} {a i x : Nat} (hx : regAt x = .reg f.reg a i) (hk : exec k s = .next (s.readAt w x).2.2)
    (hf : f ∈ f.reg.fields ∧ f.acc = .rc) (hone : ∀ g ∈ f.reg.fields, g ≠ f → g.acc ≠ .rc) :
    (s.mayRead w f.reg a i = true → aget s.evs ⟨f.reg, a, i⟩ = none → Done k s (fun t => t.rd f a i = 0 ∧
      (∀ g ∈ f.reg.fields, g ≠ f → t.rd g a i = s.rd g a i) ∧ Frame s t (oneReg f.reg a i))) ∧
    (∀ before after, s.mayRead w f.reg a i = true → aget s.evs ⟨f.reg, a, i⟩ = some (before, after) → Done k s (fun t =>
      t.word f.reg a i = after ∧ Frame s t (oneReg f.reg a i))) ∧
    (s.mayRead w f.reg a i = false → Done k s (fun t => t = s)) := by
  refine ⟨fun hm he => ?_, fun before after hm he => ?_, fun hm => ?_⟩
  · rw [readAt_reg hx ((mayReadAt_reg hx).trans hm) (hostRead_clears he)] at hk
    obtain ⟨h1, h2, h3, -⟩ := clearedWord_shows s f.reg a i
    exact .next hk ⟨h1 f hf.1 hf.2, fun g hg hne => h2 g hg (hone g hg hne), h3⟩
  · rw [readAt_reg hx ((mayReadAt_reg hx).trans hm) (hostRead_event he ⟨f, hf⟩)] at hk
    obtain ⟨h1, h2, -⟩ := keptEvent_shows s f.reg a i after
    exact .next hk ⟨h1, h2⟩
  · rw [readAt_denied ((mayReadAt_reg hx).trans hm)] at hk
    exact .next hk rfl

/-- Settles O48. -/
theorem registersAreRead : Obligations.RegistersAreRead := by
  unfold Obligations.RegistersAreRead
  intro s
  refine ⟨fun c x ho => ⟨fun r a i hx hm hr => regReadAnswers ho hx hm hr, fun site live snap hx hm hr => regReadCounter ho hx hm hr,
    fun hx hm => regReadDenied ho hx hm, fun hx => regReadOff ho hx⟩, fun w site p => ?_⟩
  intro clears
  refine ⟨fun hs => ?_, ?_, ?_, ?_, ?_⟩
  · exact logRead (f := F.CHK_LOG_KIND) (regAt_chkLog hs) rfl (by decide) (by decide)
  · exact logRead (f := F.MEM_ERR_LOG_KIND) regAt_errLog rfl (by decide) (by decide)
  · exact logRead (f := F.HUT_LOAD_REFUSAL_VALID) (regAt_refusal p) rfl (by decide) (by decide)
  · exact logRead (f := F.HUT_POISON_KIND) (regAt_poison p) rfl (by decide) (by decide)
  · exact logRead (f := F.CHK_ECC_LOG_MEM) (regAt_eccLog site.isLt) rfl (by decide) (by decide)

end Sys2Proof.Proofs
end

section
/-! PROOF. Register writes with a meaning of their own (R27, R39, R59, R172, R362, R469). -/

namespace Sys2Proof.Proofs

open Sys2Proof Sys2Proof.Machine

/-- A write that names every bit gives its own value (R443). -/
theorem mixed_all (w v : Word) : (w &&& ~~~(BitVec.allOnes 64)) ||| (v &&& BitVec.allOnes 64) = v := by
  rw [BitVec.and_allOnes, BitVec.not_allOnes, BitVec.and_zero, BitVec.zero_or]

section
variable {s : State} {w : Who} {k : Instr} {r : RegName} {a i x : Nat} {v m : Word}

/-- A permitted write at a register's address does what a write to that register does. -/
theorem ownWrite_runs (hk : exec k s = .next (s.writeAt w x v m).2) (hx : regAt x = .reg r a i) (hw : s.mayWrite w r a i = true) (he : s.expert w = true) :
    exec k s = .next (s.hostWrite w r a i v m) := by
  rw [writeAt_allowed hx hw (.inr he)] at hk
  exact hk

end

/-! ### The pitch length -/

section
variable {s : State} {v : Word}

/-- A one-bit flag written with 1 and set by no event of the cycle reads 0 (R7). -/
theorem flagCleared {f : Fld} {w : Word} (h1 : f.width = 1) (hv : fieldGet f v = 1) : fieldGet f (w &&& ~~~(v &&& BitVec.allOnes 64)) = 0 := by
  apply Nat.eq_of_testBit_eq
  intro j
  have hj : (fieldGet f v).testBit j = (1 : Nat).testBit j := by rw [hv]
  rw [BitVec.and_allOnes]
  rw [testBit_fieldGet] at hj ⊢
  by_cases hw : j < f.width
  · have h0 : j = 0 := by omega
    subst h0
    simp only [hw, decide_true, Bool.true_and, Nat.add_zero, Nat.testBit_zero] at hj
    simp [BitVec.getLsbD_and, BitVec.getLsbD_not, hj]
  · simp [hw]

theorem pitchWrite_runs (v : Word) : exec (.colPitchCtrlWrite .admin v) s = .next (s.writePitch v (BitVec.allOnes 64)) :=
  ownWrite_runs (k := .colPitchCtrlWrite .admin v) (s := s) rfl (show regAt (RegName.COL_PITCH_CTRL.address 0 0) = .reg .COL_PITCH_CTRL 0 0 by decide +kernel) rfl rfl

/-- The flag of a pitch number's wrap, after a write to its register. -/
def wrapWritten (s : State) (v : Word) : State := s.writeField F.COL_PITCH_CTRL_WRAPPED 0 0 v (BitVec.allOnes 64)

theorem ownSigs_lenPend (s : State) (f : Fld) (a i : Nat) : (s.ownSigs f a i).lenPend = s.lenPend := by
  unfold State.ownSigs
  generalize (List.range 4).find? (fun k => sigFld k == f) = o
  match o with
  | some k => rfl
  | none => rfl

theorem wrapWritten_shows (s : State) (v : Word) : let t := wrapWritten s v
    (fieldGet F.COL_PITCH_CTRL_WRAPPED v = 1 → s.eventBits F.COL_PITCH_CTRL_WRAPPED 0 0 = 0 → t.rd F.COL_PITCH_CTRL_WRAPPED = 0) ∧
    t.anyLive = s.anyLive ∧ t.lenPend = s.lenPend ∧ Frame s t (oneReg .COL_PITCH_CTRL 0 0) := by
  intro t
  have ht : t = wrapWritten s v := rfl
  clear_value t
  subst ht
  obtain ⟨-, q2, -, q4, -, q6⟩ := writeField_quiet s F.COL_PITCH_CTRL_WRAPPED 0 0 v (BitVec.allOnes 64)
  refine ⟨fun hv he => ?_, ?_, ?_, .of_mems q2, q6⟩
  · refine (writeField_self s F.COL_PITCH_CTRL_WRAPPED 0 0 v (BitVec.allOnes 64) (fields_fit (r := .COL_PITCH_CTRL) (by decide))).trans ?_
    have e : fieldAfter s F.COL_PITCH_CTRL_WRAPPED 0 0 v (BitVec.allOnes 64) =
        max (fieldGet F.COL_PITCH_CTRL_WRAPPED (s.word .COL_PITCH_CTRL 0 0 &&& ~~~(v &&& BitVec.allOnes 64))) (s.eventBits F.COL_PITCH_CTRL_WRAPPED 0 0) := if_pos (by decide)
    rw [e, flagCleared rfl hv, he]
    rfl
  · have hl : ∀ e, (wrapWritten s v).live e = s.live e := fun e =>
      congrArg (fun w => [2, 3, 4, 6].contains (fieldGet F.HUT_SECT_STATE w)) (q6 .HUT_SECT 0 e (fun h => by cases h.1))
    unfold State.anyLive
    rw [show (wrapWritten s v).hut = s.hut from q4]
    simp only [hl]
  · have hc := writeField_cases s F.COL_PITCH_CTRL_WRAPPED 0 0 v (BitVec.allOnes 64)
    unfold wrapWritten
    generalize s.writeField F.COL_PITCH_CTRL_WRAPPED 0 0 v (BitVec.allOnes 64) = t at hc ⊢
    generalize fieldAfter s F.COL_PITCH_CTRL_WRAPPED 0 0 v (BitVec.allOnes 64) = n at hc
    rcases hc with ⟨e, -⟩ | ⟨-, -, -, e | e⟩
    · rw [e]
    · rw [e, State.wr_lenPend]
    · rw [e, ownSigs_lenPend, State.wr_lenPend]

/-- A pitch length that waits for the boundary (R27). -/
def lengthWords (u : State) (n : Nat) : State :=
  u.wrs 0 0 [(F.COL_PITCH_CTRL_NEW_LOG2, n), (F.COL_PITCH_CTRL_STATUS, 0), (F.COL_PITCH_CTRL_CHANGE_PEND, 1)]

def lengthWaits (z : State) (n : Nat) : State := { z with lenPend := some n }

theorem lengthWaits_quiet (z : State) (n : Nat) : (lengthWaits z n).regs = z.regs ∧ mems (lengthWaits z n) = mems z ∧ (lengthWaits z n).lenPend = some n :=
  ⟨rfl, rfl, rfl⟩

/-- The register of the pitch length after the flag: its status, and the length that waits (R27). -/
theorem writePitch_eq (s : State) (v : Word) : s.writePitch v (BitVec.allOnes 64) =
    (if (wrapWritten s v).anyLive then (wrapWritten s v).wr F.COL_PITCH_CTRL_STATUS 0 0 1
    else if fieldGet F.COL_PITCH_CTRL_NEW_LOG2 v ≠ 0 ∧ fieldGet F.COL_PITCH_CTRL_NEW_LOG2 v < 10 then (wrapWritten s v).wr F.COL_PITCH_CTRL_STATUS 0 0 2
    else lengthWaits (lengthWords (wrapWritten s v) (fieldGet F.COL_PITCH_CTRL_NEW_LOG2 v)) (fieldGet F.COL_PITCH_CTRL_NEW_LOG2 v)) := by
  unfold State.writePitch
  change (if !F.COL_PITCH_CTRL_NEW_LOG2.masked (BitVec.allOnes 64) then _ else _) = _
  rw [if_neg (by decide)]
  dsimp only
  rw [mixed_all]
  rfl

/-- What every write to the pitch length's register shows. -/
def PitchGives (s t : State) (v : Word) (st : Nat) : Prop :=
  t.rd F.COL_PITCH_CTRL_STATUS = st ∧
  (fieldGet F.COL_PITCH_CTRL_WRAPPED v = 1 → s.eventBits F.COL_PITCH_CTRL_WRAPPED 0 0 = 0 → t.rd F.COL_PITCH_CTRL_WRAPPED = 0) ∧
  Frame s t (oneReg .COL_PITCH_CTRL 0 0)

theorem lengthWords_shows (u : State) {n : Nat} (hn : n < 2 ^ 4) : let z := lengthWords u n
    z.rd F.COL_PITCH_CTRL_STATUS = 0 ∧ z.rd F.COL_PITCH_CTRL_WRAPPED = u.rd F.COL_PITCH_CTRL_WRAPPED ∧ z.rd F.COL_PITCH_CTRL_NEW_LOG2 = n ∧
    z.rd F.COL_PITCH_CTRL_CHANGE_PEND = 1 ∧ Frame u z (oneReg .COL_PITCH_CTRL 0 0) := by
  unfold lengthWords
  refine ⟨?_, ?_, ?_, ?_, Frame.wrs u (by simp [oneReg, F.COL_PITCH_CTRL_NEW_LOG2, F.COL_PITCH_CTRL_STATUS, F.COL_PITCH_CTRL_CHANGE_PEND])⟩
  · simp (disch := decide) only [State.wrs, List.foldl, State.rd_wr_self, State.rd_wr_other]
    decide
  · simp (disch := decide) only [State.wrs, List.foldl, State.rd_wr_other]
  · simp (disch := decide) only [State.wrs, List.foldl, State.rd_wr_self, State.rd_wr_other]
    exact Nat.mod_eq_of_lt hn
  · simp (disch := decide) only [State.wrs, List.foldl, State.rd_wr_self]
    decide

theorem pitchGives {s u : State} {v : Word} {st : Nat} (hst : st < 8)
    (h1 : fieldGet F.COL_PITCH_CTRL_WRAPPED v = 1 → s.eventBits F.COL_PITCH_CTRL_WRAPPED 0 0 = 0 → u.rd F.COL_PITCH_CTRL_WRAPPED = 0)
    (h4 : Frame s u (oneReg .COL_PITCH_CTRL 0 0)) : PitchGives s (u.wr F.COL_PITCH_CTRL_STATUS 0 0 st) v st := by
  refine ⟨?_, fun hv he => ?_, h4.1.trans (.of_mems (by simp)), h4.2.wr (f := F.COL_PITCH_CTRL_STATUS) st ⟨rfl, rfl, rfl⟩⟩
  · rw [State.rd_wr_self _ _ _ _ _ (by decide)]
    exact Nat.mod_eq_of_lt hst
  · rw [State.rd_wr_other _ _ _ _ _ _ (by decide)]
    exact h1 hv he

theorem pitchLengths (s : State) (v : Word) : let n := fieldGet F.COL_PITCH_CTRL_NEW_LOG2 v
    (s.anyLive = false → (n = 0 ∨ 10 ≤ n) → Done (.colPitchCtrlWrite .admin v) s (fun t => PitchGives s t v 0 ∧
      t.rd F.COL_PITCH_CTRL_NEW_LOG2 = n ∧ t.rd F.COL_PITCH_CTRL_CHANGE_PEND = 1 ∧ t.lenPend = some n)) ∧
    (s.anyLive = true → Done (.colPitchCtrlWrite .admin v) s (fun t => PitchGives s t v 1 ∧ t.lenPend = s.lenPend)) ∧
    (s.anyLive = false → 1 ≤ n → n < 10 → Done (.colPitchCtrlWrite .admin v) s (fun t => PitchGives s t v 2 ∧ t.lenPend = s.lenPend)) := by
  intro n
  have hn : n < 2 ^ 4 := fieldGet_lt F.COL_PITCH_CTRL_NEW_LOG2 v
  have hex := pitchWrite_runs (s := s) v
  have hnd : n = fieldGet F.COL_PITCH_CTRL_NEW_LOG2 v := rfl
  rw [writePitch_eq, ← hnd] at hex
  clear_value n
  obtain ⟨h1, h2, h3, h4⟩ := wrapWritten_shows s v
  generalize wrapWritten s v = u at *
  rw [h2] at hex
  refine ⟨fun hl hr => ?_, fun hl => ?_, fun hl ha hb => ?_⟩
  · rw [hl, if_neg (by decide), if_neg (by omega)] at hex
    obtain ⟨z1, z2, z3, z4, z5⟩ := lengthWords_shows u hn
    generalize lengthWords u n = z at *
    obtain ⟨y1, y2, y3⟩ := lengthWaits_quiet z n
    generalize lengthWaits z n = y at *
    have hrd : ∀ f, y.rd f = z.rd f := fun f => rd_of_regs y1 ..
    exact .next hex ⟨⟨(hrd _).trans z1, fun hv he => (hrd _).trans (z2.trans (h1 hv he)), (h4.1.trans z5.1).trans (.of_mems y2),
      (h4.2.trans z5.2).trans (.of_eq y1)⟩, (hrd _).trans z3, (hrd _).trans z4, y3⟩
  · rw [hl, if_pos rfl] at hex
    exact .next hex ⟨pitchGives (by decide) h1 h4, h3⟩
  · rw [hl, if_neg (by decide), if_pos (by omega)] at hex
    exact .next hex ⟨pitchGives (by decide) h1 h4, h3⟩

end

/-! ### Domains -/

/-- Whether a site is in a partition that is not the asker's. -/
def othersSite (s : State) (w : Who) (a : Nat) : Bool := match s.partOf a with
  | some p => !s.ownsPart w p
  | none => false

theorem othersSite_iff {s : State} {w : Who} {a : Nat} : othersSite s w a = false ↔ ∀ p, s.partOf a = some p → s.ownsPart w p = true := by
  unfold othersSite
  cases s.partOf a with
  | none => simp
  | some p => simp

/-- A change of a domain that waits for the boundary (R39). -/
def domainWaits (s : State) (d : DomKind) (a act : Nat) : State :=
  { s.wr F.PWR_DOMAIN_CMD_STATUS 0 0 1 with domPend := List.append s.domPend [(d, a, act)] }

section
variable {s : State} {w : Who} {dom : BitVec 4} {site : SiteId} {d : DomKind} (he : s.expert w = true) (hd : domOfCode dom.toNat site.toNat = some d)

include hd in
theorem domainCmd_eq {act : Nat} (ha : act < 3) : s.domainCmd w act dom.toNat site.toNat =
    if !s.domFree d site.toNat act || othersSite s w site.toNat then s.wr F.PWR_DOMAIN_CMD_STATUS 0 0 2 else domainWaits s d site.toNat act := by
  unfold State.domainCmd
  dsimp only
  rw [if_neg (by omega)]
  rewrite [hd]
  dsimp only
  unfold othersSite domainWaits
  cases s.partOf site.toNat <;> rfl

include he hd in
/-- A domain command of a host with expert access waits, or is refused with DOMAIN_BUSY. -/
theorem domainAnswers {k : Instr} {act : Nat} (ha : act < 3) (hk : exec k s = .next (s.domainReq w act dom.toNat site.toNat)) :
    (s.domFree d site.toNat act = true → othersSite s w site.toNat = false → Done k s (fun t => t.rd F.PWR_DOMAIN_CMD_STATUS = 1 ∧
      t.domPend = List.append s.domPend [(d, site.toNat, act)] ∧ Frame s t (oneReg .PWR_DOMAIN_CMD 0 0))) ∧
    ((s.domFree d site.toNat act = false ∨ othersSite s w site.toNat = true) → Done k s (fun t => t.rd F.PWR_DOMAIN_CMD_STATUS = 2 ∧
      t.domPend = s.domPend ∧ Frame s t (oneReg .PWR_DOMAIN_CMD 0 0))) := by
  rw [show s.domainReq w act dom.toNat site.toNat = s.domainCmd w act dom.toNat site.toNat from if_pos he, domainCmd_eq hd ha] at hk
  refine ⟨fun hf ho => ?_, fun h => ?_⟩
  · rw [if_neg (by simp [hf, ho])] at hk
    exact .next hk ⟨State.rd_wr_self s F.PWR_DOMAIN_CMD_STATUS 0 0 1 (by decide), rfl, Frame.wr s 1 ⟨rfl, rfl, rfl⟩⟩
  · rw [if_pos (by rcases h with e | e <;> simp [e])] at hk
    exact .next hk ⟨State.rd_wr_self s F.PWR_DOMAIN_CMD_STATUS 0 0 2 (by decide), rfl, Frame.wr s 2 ⟨rfl, rfl, rfl⟩⟩

theorem domFree_iff {a act : Nat} : s.domFree d a act = true ↔ s.domUsed d a = false ∧ (act = 0 ∨ d ≠ .router ∨ s.routerNeeded a = false) := by
  unfold State.domFree
  by_cases hr : d = .router <;> by_cases h0 : act = 0 <;> simp [hr, h0]

end

theorem domainCommands (s : State) (w : Who) (dom : BitVec 4) (site : SiteId) {d : DomKind} (he : s.expert w = true)
    (hd : domOfCode dom.toNat site.toNat = some d) :
    let a := site.toNat
    let mine := ∀ p, s.partOf a = some p → s.ownsPart w p = true
    let takes := fun (act : Nat) (t : State) => t.rd F.PWR_DOMAIN_CMD_STATUS = 1 ∧
      t.domPend = List.append s.domPend [(d, a, act)] ∧ Frame s t (oneReg .PWR_DOMAIN_CMD 0 0)
    let busy := fun (t : State) => t.rd F.PWR_DOMAIN_CMD_STATUS = 2 ∧ t.domPend = s.domPend ∧ Frame s t (oneReg .PWR_DOMAIN_CMD 0 0)
    (s.domUsed d a = false → mine → Done (.domainOn w dom site) s (takes 0)) ∧
    (s.domUsed d a = false → mine → (d ≠ .router ∨ s.routerNeeded a = false) →
      Done (.domainRetain w dom site) s (takes 1) ∧ Done (.domainOff w dom site) s (takes 2)) ∧
    ((s.domUsed d a = true ∨ ¬ mine) → Done (.domainOn w dom site) s busy ∧ Done (.domainRetain w dom site) s busy ∧
      Done (.domainOff w dom site) s busy) ∧
    (d = .router → s.routerNeeded a = true → Done (.domainRetain w dom site) s busy ∧ Done (.domainOff w dom site) s busy) := by
  intro a mine takes busy
  obtain ⟨on1, on2⟩ := domainAnswers he hd (k := .domainOn w dom site) (act := 0) (by decide) rfl
  obtain ⟨re1, re2⟩ := domainAnswers he hd (k := .domainRetain w dom site) (act := 1) (by decide) rfl
  obtain ⟨of1, of2⟩ := domainAnswers he hd (k := .domainOff w dom site) (act := 2) (by decide) rfl
  have hused : ∀ {act}, (s.domUsed d a = true ∨ ¬ mine) → s.domFree d a act = false ∨ othersSite s w a = true := by
    intro act h
    rcases h with h | h
    · exact .inl (Bool.eq_false_iff.mpr (fun hf => absurd ((domFree_iff.mp hf).1.symm.trans h) (by decide)))
    · exact .inr (Bool.eq_true_of_not_eq_false (fun ho => h (othersSite_iff.mp ho)))
  have hneed : ∀ {act}, act ≠ 0 → d = .router → s.routerNeeded a = true → s.domFree d a act = false ∨ othersSite s w a = true :=
    fun h0 hr hn => .inl (Bool.eq_false_iff.mpr (fun hf => by
      obtain ⟨-, h | h | h⟩ := domFree_iff.mp hf
      · exact h0 h
      · exact h hr
      · rw [hn] at h; cases h))
  exact ⟨fun hu hm => on1 (domFree_iff.mpr ⟨hu, .inl rfl⟩) (othersSite_iff.mpr hm),
    fun hu hm hr => ⟨re1 (domFree_iff.mpr ⟨hu, .inr hr⟩) (othersSite_iff.mpr hm), of1 (domFree_iff.mpr ⟨hu, .inr hr⟩) (othersSite_iff.mpr hm)⟩,
    fun h => ⟨on2 (hused h), re2 (hused h), of2 (hused h)⟩,
    fun hr hn => ⟨re2 (hneed (by decide) hr hn), of2 (hneed (by decide) hr hn)⟩⟩

/-! ### Seeds -/

theorem seedWaits {s : State} {w : Who} {site : SiteId} (v : Word) (hs : isSpur site.toNat = true) (ho : s.ownsSite w site.toNat = true) :
    Done (.srSeedWrite w site v) s (fun t => aget t.seedNext site.toNat = some v ∧ Frame s t noReg) := by
  have hex : exec (.srSeedWrite w site v) s = .next (s.writeAt w (RegName.VEC_SR_SEED.address site.toNat 0) v (BitVec.allOnes 64)).2 := rfl
  rw [writeAt_allowed (regAt_seed hs) ho (.inl (by decide))] at hex
  have hw : s.hostWrite w .VEC_SR_SEED site.toNat 0 v (BitVec.allOnes 64) = s.writeSeed site.toNat v (BitVec.allOnes 64) := if_neg (by
    rw [show actsOn .VEC_SR_SEED (BitVec.allOnes 64) = true by decide, show lockedRunning .VEC_SR_SEED = false by decide]
    simp)
  rw [hw] at hex
  unfold State.writeSeed at hex
  dsimp only at hex
  rw [mixed_all] at hex
  exact .next hex ⟨aget_aput_same .., ⟨.of_mems rfl, .of_eq rfl⟩⟩

/-! ### The scrubber and ENTER -/

theorem scrubCopies (s : State) (v : Word) : let e := fieldGet F.CFG_SCRUB_CTRL_EN v == 1
    let r := fieldGet F.CFG_SCRUB_CTRL_RATE v
    Done (.scrubCtrlWrite .admin v) s (fun t => t.cfg.scrubEn = [e, e, e] ∧
      t.cfg.scrubRate = (if 1 ≤ r ∧ r ≤ 8 then [r, r, r] else s.cfg.scrubRate) ∧ Frame s t noReg) := by
  intro e r
  have hex : exec (.scrubCtrlWrite .admin v) s = .next (s.writeScrub v (BitVec.allOnes 64)) :=
    ownWrite_runs (k := .scrubCtrlWrite .admin v) (s := s) rfl (show regAt (RegName.CFG_SCRUB_CTRL.address 0 0) = .reg .CFG_SCRUB_CTRL 0 0 by decide +kernel) rfl rfl
  unfold State.writeScrub at hex
  dsimp only at hex
  rw [mixed_all] at hex
  rw [if_pos (show F.CFG_SCRUB_CTRL_EN.masked (BitVec.allOnes 64) = true by decide), show F.CFG_SCRUB_CTRL_RATE.masked (BitVec.allOnes 64) = true by decide,
    Bool.true_and] at hex
  have he : e = (fieldGet F.CFG_SCRUB_CTRL_EN v == 1) := rfl
  have hr : r = fieldGet F.CFG_SCRUB_CTRL_RATE v := rfl
  rw [← he, ← hr] at hex
  clear_value e r
  by_cases h : 1 ≤ r ∧ r ≤ 8
  · rw [if_pos (by simp [h])] at hex
    rw [if_pos h]
    exact .next hex ⟨rfl, rfl, ⟨.of_mems rfl, .of_eq rfl⟩⟩
  · rw [if_neg (by simpa using h)] at hex
    rw [if_neg h]
    exact .next hex ⟨rfl, rfl, ⟨.of_mems rfl, .of_eq rfl⟩⟩

/-- The bit of ENTER (R469). -/
def enterBit : Word := fieldSet F.PWR_BIVOUAC_ENTER 1 0

theorem enterBit_sets (w : Word) : fieldGet F.PWR_BIVOUAC_ENTER (w ||| enterBit &&& enterBit) = 1 := by
  have hb : fieldGet F.PWR_BIVOUAC_ENTER enterBit = 1 := by decide
  apply Nat.eq_of_testBit_eq
  intro j
  have hj := congrArg (Nat.testBit · j) hb
  simp only [testBit_fieldGet] at hj ⊢
  rw [← hj, BitVec.and_self, BitVec.getLsbD_or]
  by_cases hw : j < F.PWR_BIVOUAC_ENTER.width
  · have h0 : j = 0 := Nat.lt_one_iff.mp hw
    subst h0
    rw [show enterBit.getLsbD (F.PWR_BIVOUAC_ENTER.lo + 0) = true by decide, Bool.or_true]
  · simp only [hw, decide_false, Bool.false_and]

theorem regAt_bivouac : regAt (RegName.PWR_BIVOUAC.address 0 0) = .reg .PWR_BIVOUAC 0 0 := by decide +kernel

theorem enterSet (s : State) : Done (.bivouacEnterWrite .admin) s (fun t => t.rd F.PWR_BIVOUAC_ENTER = 1 ∧ Frame s t (oneReg .PWR_BIVOUAC 0 0)) := by
  have hex : exec (.bivouacEnterWrite .admin) s = .next (s.writeAt .admin (RegName.PWR_BIVOUAC.address 0 0) enterBit enterBit).2 := rfl
  have hp : Plain s .admin .PWR_BIVOUAC 0 0 enterBit := ⟨rfl, .inr rfl, .inl (by decide), by decide, by decide⟩
  rw [writeAt_plain regAt_bivouac hp] at hex
  obtain ⟨h1, -, h3⟩ := writeFields_shows s .PWR_BIVOUAC 0 0 enterBit enterBit ⟨0, 0, 0, false⟩
  obtain ⟨hmask, -⟩ := h1 F.PWR_BIVOUAC_ENTER (by decide)
  obtain ⟨-, -, -, hset⟩ := hmask (by decide)
  refine .next hex ⟨(hset rfl).trans (enterBit_sets _), h3⟩

theorem enterDenied (s : State) (tn) : Done (.bivouacEnterWrite (.tenant tn)) s (fun t => t = s) := by
  have hex : exec (.bivouacEnterWrite (.tenant tn)) s = .next (s.writeAt (.tenant tn) (RegName.PWR_BIVOUAC.address 0 0) enterBit enterBit).2 := rfl
  rw [writeAt_denied regAt_bivouac rfl] at hex
  exact .next hex rfl

/-! ### Steering units -/

theorem fieldTakes_steer (s : State) {f : Fld} (hf : f.reg = .SEQ_STEER) (a i n : Nat) : s.fieldTakes f a i n = true := by
  have hne : ∀ {g : Fld}, g.reg ≠ .SEQ_STEER → f ≠ g := fun hg e => hg (e ▸ hf)
  unfold State.fieldTakes
  rw [if_neg (hne (by decide)), if_neg (hne (by decide)), if_neg (hne (by decide)), if_neg (hne (by decide)), if_neg (hne (by decide)),
    if_neg (hne (by decide)), if_neg (hne (by decide)), if_neg (hne (by decide)), if_neg]
  intro h
  have hm := List.contains_iff_mem.mp h
  have hall : ∀ g ∈ [F.HUT_HEALTH_CTRL_WATCH_PERIOD, F.HUT_HEALTH_CTRL_WATCH_CLEAN, F.GATE_LANE_HEALTH_LANE_SER_MAX,
      F.MEM_RETIRE_CFG_UE_WIN_MS, F.MEM_RETIRE_CFG_RETRAIN_MAX, F.CFG_CLAIM_SECT_MS], g.reg ≠ .SEQ_STEER := by decide
  exact hall f hm hf

/-- Another steering unit of the site consumes one of the queues a configuration names (R172). -/
def steerClash (s : State) (a i : Nat) (v : Word) : Prop :=
  ∃ k, k < 8 ∧ k ≠ i ∧ ∃ q ∈ steerTakes (s.word .SEQ_STEER a k), q ∈ steerTakes v

theorem steerClash_iff (s : State) (a i : Nat) (v : Word) :
    (List.range 8).any (fun n => n != i && (steerTakes (s.word .SEQ_STEER a n)).any (fun q => (steerTakes v).contains q)) = true ↔ steerClash s a i v := by
  simp only [List.any_eq_true, List.mem_range, Bool.and_eq_true, bne_iff_ne, List.contains_iff_mem, steerClash]

theorem steerFields_named : ∀ f ∈ RegName.SEQ_STEER.fields, f.masked (BitVec.allOnes 64) = true ∧ f.reg = .SEQ_STEER ∧
    (f.acc = .rw → F.SEQ_STEER_STATUS.lo + F.SEQ_STEER_STATUS.width ≤ f.lo ∨ f.lo + f.width ≤ F.SEQ_STEER_STATUS.lo) := by decide

section
variable {s : State} {w : Who} {site : SiteId} {n : BitVec 3} {v : Word}

theorem steerWrite_runs (ho : s.ownsSite w site.toNat = true) (he : s.expert w = true) :
    exec (.steerConfigWrite w site n v) s = .next (s.writeSteer site.toNat n.toNat v (BitVec.allOnes 64)) :=
  ownWrite_runs (k := .steerConfigWrite w site n v) (s := s) rfl (regAt_steer site.isLt n) ho he

theorem steerKept (x : Nat) (hx : x < 4) : let t := s.wr F.SEQ_STEER_STATUS site.toNat n.toNat x
    t.rd F.SEQ_STEER_STATUS site.toNat n.toNat = x ∧ t.rd F.SEQ_STEER_MODE site.toNat n.toNat = s.rd F.SEQ_STEER_MODE site.toNat n.toNat ∧
    Frame s t (oneReg .SEQ_STEER site.toNat n.toNat) :=
  ⟨(State.rd_wr_self _ _ _ _ _ (by decide)).trans (Nat.mod_eq_of_lt hx), State.rd_wr_other _ _ _ _ _ _ (by decide),
    Frame.wr _ _ ⟨rfl, rfl, rfl⟩⟩

/-- A steering unit of a running section keeps its configuration (R172). -/
theorem steerRunning (ho : s.ownsSite w site.toNat = true) (he : s.expert w = true) (hr : s.running site.toNat = true) :
    Done (.steerConfigWrite w site n v) s (fun t => t.rd F.SEQ_STEER_STATUS site.toNat n.toNat = 2 ∧
      t.rd F.SEQ_STEER_MODE site.toNat n.toNat = s.rd F.SEQ_STEER_MODE site.toNat n.toNat ∧ Frame s t (oneReg .SEQ_STEER site.toNat n.toNat)) :=
  .next ((steerWrite_runs ho he).trans (congrArg Host.Outcome.next (if_pos hr))) (steerKept 2 (by decide))

theorem steerClashes (ho : s.ownsSite w site.toNat = true) (he : s.expert w = true) (hr : s.running site.toNat = false)
    (hc : steerClash s site.toNat n.toNat v) :
    Done (.steerConfigWrite w site n v) s (fun t => t.rd F.SEQ_STEER_STATUS site.toNat n.toNat = 1 ∧
      t.rd F.SEQ_STEER_MODE site.toNat n.toNat = s.rd F.SEQ_STEER_MODE site.toNat n.toNat ∧ Frame s t (oneReg .SEQ_STEER site.toNat n.toNat)) := by
  have hex := steerWrite_runs (n := n) (v := v) ho he
  unfold State.writeSteer at hex
  dsimp only at hex
  rw [mixed_all, if_neg (by rw [hr]; decide), if_pos ((steerClash_iff ..).mpr hc)] at hex
  exact .next hex (steerKept 1 (by decide))

theorem steerConfigured (ho : s.ownsSite w site.toNat = true) (he : s.expert w = true) (hr : s.running site.toNat = false)
    (hc : ¬ steerClash s site.toNat n.toNat v) :
    Done (.steerConfigWrite w site n v) s (fun t => t.rd F.SEQ_STEER_STATUS site.toNat n.toNat = 0 ∧
      (∀ f ∈ RegName.SEQ_STEER.fields, f.acc = .rw → t.rd f site.toNat n.toNat = fieldGet f v) ∧
      Frame s t (oneReg .SEQ_STEER site.toNat n.toNat)) := by
  have hex := steerWrite_runs (n := n) (v := v) ho he
  unfold State.writeSteer at hex
  dsimp only at hex
  rw [mixed_all, if_neg (by rw [hr]; decide), if_neg (fun h => hc ((steerClash_iff ..).mp h))] at hex
  obtain ⟨hw, -, hf⟩ := writeFields_shows s .SEQ_STEER site.toNat n.toNat v (BitVec.allOnes 64) ⟨0, 0, 0, false⟩
  refine .next hex ⟨State.rd_wr_self _ _ _ _ _ (by decide), fun f hm ha => ?_, hf.1.trans (.of_mems (by simp)), hf.2.wr (f := F.SEQ_STEER_STATUS) _ ⟨rfl, rfl, rfl⟩⟩
  obtain ⟨hmask, hreg, hapart⟩ := steerFields_named f hm
  obtain ⟨h1, -⟩ := hw f hm
  obtain ⟨h2, -⟩ := h1 hmask
  rw [State.rd_wr_other _ _ _ _ _ _ (.inr (hapart ha).symm), h2 ha (fieldTakes_steer s hreg ..), mixed_all]

end

/-- Settles O50. -/
theorem writesWithAMeaning : Obligations.WritesWithAMeaning := by
  intro s w site
  refine ⟨?_, ?_, ?_, ?_, ?_, ?_, ?_⟩
  · intro v
    exact pitchLengths s v
  · intro dom d he hd
    exact domainCommands s w dom site he hd
  · exact fun v hsp ho => seedWaits v hsp ho
  · intro n v ho he
    exact ⟨steerRunning ho he, fun hr hc => steerClashes ho he hr hc, fun hr hc => steerConfigured ho he hr hc⟩
  · exact fun v => scrubCopies s v
  · exact enterSet s
  · exact fun tn => enterDenied s tn

end Sys2Proof.Proofs
end

section
/-! PROOF. A wake whose saved domains name one that is OFF now (R35, R472). -/

namespace Sys2Proof.Proofs

open Sys2Proof Sys2Proof.Machine

/-- A device whose wake has begun: the core domains of sites 0 to 31 are kept as ON before entry and are OFF, as reset leaves
them, and the first byte of the scratchpad of Spur 0 holds 0x55. -/
def offAtWake : State :=
  let s := (State.reset.wr F.PWR_BIVOUAC_STATE 0 0 3).putBytes (padBase 0) [0x55]
  s.modBoard (fun b => { b with savedDomains := [(⟨.PWR_CORE_STATE, 0, 0⟩, 0)] })

theorem offAtWake_shows : offAtWake.rd F.PWR_BIVOUAC_STATE = 3 ∧ offAtWake.board.savedDomains ≠ [] ∧ offAtWake.byte (padBase 0) = 0x55 := by
  decide +kernel

/-- The domain that was ON switches ON from OFF, so its scratchpad reads zero (R35). -/
theorem offAtWake_wakes : offAtWake.beginWake.byte (padBase 0) = 0 := by decide +kernel

/-- Refutes O42: a domain kept as ON before entry that is OFF when the wake begins switches ON from OFF, which zeroes its
memories (R35); the statement asks every byte kept, whatever state the domains are in. -/
theorem not_bivouacComesAndGoes : ¬ Obligations.BivouacComesAndGoes := by
  intro h
  obtain ⟨hs, hd, hb⟩ := offAtWake_shows
  obtain ⟨-, -, -, hw, -⟩ := h offAtWake
  obtain ⟨-, hm, -⟩ := hw hs hd
  obtain ⟨hk, -⟩ := hm (padBase 0)
  rw [offAtWake_wakes, hb] at hk
  exact absurd hk (by decide)

end Sys2Proof.Proofs
end

section
/-! PROOF. The Rope: its links, the positions along it and the frames it carries (R461 to R464, R468). -/

namespace Sys2Proof.Proofs

open Sys2Proof Sys2Proof.Machine

/-! ### Frames sent -/

/-- Nothing but what the device sends out changes. -/
structure SendsOnly (s t : State) : Prop where
  regs : t.regs = s.regs
  board : t.board = s.board
  gate : t.gate = s.gate
  fuses : t.fuses = s.fuses
  hut : t.hut = s.hut
  counters : t.counters = s.counters
  mems : mems t = mems s

section
variable {s t : State}

theorem SendsOnly.refl (s : State) : SendsOnly s s := ⟨rfl, rfl, rfl, rfl, rfl, rfl, rfl⟩

theorem SendsOnly.frame (h : SendsOnly s t) {R : RegName → Nat → Nat → Prop} : Frame s t R := ⟨.of_mems h.mems, .of_eq h.regs⟩

theorem SendsOnly.after {u : State} {R : RegName → Nat → Nat → Prop} (h : SendsOnly s t) (hu : Frame u s R) : Frame u t R :=
  ⟨hu.1.trans (.of_mems h.mems), hu.2.trans (.of_eq h.regs)⟩

theorem SendsOnly.rd (h : SendsOnly s t) (f : Fld) (a i : Nat := 0) : t.rd f a i = s.rd f a i := rd_of_regs h.regs f a i

theorem SendsOnly.emit (s : State) (o : Output) : SendsOnly s (s.emit o) := ⟨rfl, rfl, rfl, rfl, rfl, rfl, mems_emit ..⟩

end

theorem ropeSend_only (s : State) (d : RopeSide) (ty dst src seq : Nat) (l : List Byte) : SendsOnly s (s.ropeSend d ty dst src seq l) := by
  unfold State.ropeSend
  split
  · exact .emit ..
  · exact .refl s

theorem ropeSend_up {s : State} {d : RopeSide} (hl : s.rd (linkFld d) = 1) (hg : s.rd F.ROPE_STATUS_LONG = 0) (ty dst src seq : Nat) (l : List Byte) :
    s.ropeSend d ty dst src seq l = s.emit (.rope d ty dst src seq l) := if_pos ⟨hl, hg⟩

theorem ropeForward_only (s : State) (ty dst src seq : Nat) (l : List Byte) : SendsOnly s (s.ropeForward ty dst src seq l) := by
  unfold State.ropeForward
  split <;> exact ropeSend_only ..

theorem ropeForward_toward {s : State} {dst : Nat} (h : dst ≠ 15) (ty src seq : Nat) (l : List Byte) :
    s.ropeForward ty dst src seq l = s.ropeSend (s.toward dst) ty dst src seq l := if_neg h

theorem sendChain_only (s : State) : SendsOnly s s.sendChain := by
  unfold State.sendChain
  split
  · exact ropeSend_only ..
  · exact .refl s

theorem sendPos_only (s : State) : SendsOnly s s.sendPos := by
  unfold State.sendPos
  split
  · exact ropeSend_only ..
  · exact .refl s

/-! ### Links -/

theorem side_setSide (b : BoardX) (d : RopeSide) (x : RopeLinkX) : (b.setSide d x).side d = x := by cases d <;> rfl

theorem linkFld_fits (d : RopeSide) : (linkFld d).lo + (linkFld d).width ≤ 64 ∧ (linkFld d).width = 1 ∧ (linkFld d).reg = .ROPE_STATUS := by
  cases d <;> decide

theorem verFld_fits (d : RopeSide) : (verFld d).lo + (verFld d).width ≤ 64 ∧ (verFld d).width = 2 ∧ (verFld d).reg = .ROPE_STATUS := by
  cases d <;> decide

theorem linkFld_apart (d : RopeSide) : (linkFld d).lo + (linkFld d).width ≤ (verFld d).lo ∨ (verFld d).lo + (verFld d).width ≤ (linkFld d).lo := by
  cases d <;> decide

theorem ropeVersion_lt (lo hi : Nat) : ropeVersion lo hi < 4 := by
  unfold ropeVersion
  split
  · decide
  · split <;> decide

/-- A link's state and version as ROPE_STATUS shows them (R463). -/
def linkShown (s : State) (d : RopeSide) (l v : Nat) : State := s.wrs 0 0 [(linkFld d, l), (verFld d, v)]

theorem linkShown_shows (s : State) (d : RopeSide) {l v : Nat} (hl : l < 2) (hv : v < 4) : let t := linkShown s d l v
    t.rd (linkFld d) = l ∧ t.rd (verFld d) = v ∧ t.board = s.board ∧ Frame s t (oneReg .ROPE_STATUS 0 0) := by
  obtain ⟨h1, h2, h3⟩ := linkFld_fits d
  obtain ⟨h4, h5, h6⟩ := verFld_fits d
  refine ⟨?_, ?_, State.wrs_board .., Frame.wrs s ?_⟩
  · refine (State.rd_wr_other _ _ _ _ _ _ (.inr (linkFld_apart d))).trans ((State.rd_wr_self _ _ _ _ _ h1).trans ?_)
    rw [h2]
    exact Nat.mod_eq_of_lt hl
  · refine (State.rd_wr_self _ _ _ _ _ h4).trans ?_
    rw [h5]
    exact Nat.mod_eq_of_lt hv
  · simp [oneReg, h3, h6]

/-- A side's HELLOs with one more counted (R463). -/
def helloHeard (s : State) (d : RopeSide) (lo hi : Byte) : State :=
  s.modBoard (fun b => b.setSide d ⟨min ((s.board.side d).hellos + 1) 3, lo.toNat, hi.toNat, s.time, (b.side d).sendDue⟩)

theorem helloHeard_shows (s : State) (d : RopeSide) (lo hi : Byte) : let t := helloHeard s d lo hi
    (t.board.side d).hellos = min ((s.board.side d).hellos + 1) 3 ∧ (t.board.side d).heardAt = s.time ∧ ∀ R, Frame s t R := by
  intro t
  have hb : t.board.side d = _ := side_setSide _ _ _
  exact ⟨by rw [hb], by rw [hb], fun R => ⟨.of_mems (mems_modBoard ..), .of_eq rfl⟩⟩

theorem hello_eq (s : State) (d : RopeSide) (lo hi : Byte) (hp : s.board.pwrgd = true) : exec (.hello d lo hi) s = .next (
    if (s.board.side d).hellos + 1 < 3 then helloHeard s d lo hi
    else if ropeVersion lo.toNat hi.toNat = 0 then linkShown (helloHeard s d lo hi) d 0 0
    else if (helloHeard s d lo hi).rd (linkFld d) = 1 then linkShown (helloHeard s d lo hi) d 1 (ropeVersion lo.toNat hi.toNat)
    else match d with
      | .down => (linkShown (helloHeard s d lo hi) d 1 (ropeVersion lo.toNat hi.toNat)).sendPos
      | .up => (linkShown (helloHeard s d lo hi) d 1 (ropeVersion lo.toNat hi.toNat)).sendChain) :=
  congrArg Host.Outcome.next (if_neg (by rw [hp]; decide))

section
variable (s : State) (d : RopeSide) (lo hi n : Byte)

theorem helloCounts (hp : s.board.pwrgd = true) (hn : (s.board.side d).hellos < 2) : Done (.hello d lo hi) s (fun t =>
    (t.board.side d).hellos = (s.board.side d).hellos + 1 ∧ (t.board.side d).heardAt = s.time ∧ Frame s t noReg) := by
  have hex := hello_eq s d lo hi hp
  rw [if_pos (by omega)] at hex
  obtain ⟨h1, h2, h3⟩ := helloHeard_shows s d lo hi
  exact .next hex ⟨h1.trans (by omega), h2, h3 _⟩

/-- The third HELLO and each after it (R463). -/
theorem helloLinks (hp : s.board.pwrgd = true) (hn : 2 ≤ (s.board.side d).hellos) : let v := ropeVersion lo.toNat hi.toNat
    Done (.hello d lo hi) s (fun t => t.rd (linkFld d) = (if v = 0 then 0 else 1) ∧ t.rd (verFld d) = v ∧ Frame s t (oneReg .ROPE_STATUS 0 0)) := by
  intro v
  have hex := hello_eq s d lo hi hp
  have hv : v < 4 := ropeVersion_lt ..
  rw [if_neg (by omega), show ropeVersion lo.toNat hi.toNat = v from rfl] at hex
  clear_value v
  obtain ⟨-, -, h3⟩ := helloHeard_shows s d lo hi
  generalize helloHeard s d lo hi = u at hex h3
  have hfr := h3 (oneReg .ROPE_STATUS 0 0)
  by_cases h0 : v = 0
  · subst h0
    obtain ⟨l1, l2, -, l4⟩ := linkShown_shows u d (l := 0) (v := 0) (by decide) (by decide)
    exact .next (hex.trans (congrArg Host.Outcome.next (if_pos rfl))) ⟨l1, l2, hfr.1.trans l4.1, hfr.2.trans l4.2⟩
  · obtain ⟨l1, l2, -, l4⟩ := linkShown_shows u d (l := 1) (by decide) hv
    have hfr2 : Frame s (linkShown u d 1 v) (oneReg .ROPE_STATUS 0 0) := ⟨hfr.1.trans l4.1, hfr.2.trans l4.2⟩
    rw [if_neg h0] at hex ⊢
    by_cases hw : u.rd (linkFld d) = 1
    · rw [if_pos hw] at hex
      exact .next hex ⟨l1, l2, hfr2⟩
    · rw [if_neg hw] at hex
      cases d with
      | down => exact .next hex ⟨((sendPos_only _).rd _).trans l1, ((sendPos_only _).rd _).trans l2, (sendPos_only _).after hfr2⟩
      | up => exact .next hex ⟨((sendChain_only _).rd _).trans l1, ((sendChain_only _).rd _).trans l2, (sendChain_only _).after hfr2⟩

/-- A side's next HELLO due a millisecond on (R463). -/
def helloDue (s : State) (d : RopeSide) : State := s.modBoard (fun b => b.setSide d { s.board.side d with sendDue := s.time + milli })

theorem helloSends (hp : s.board.pwrgd = true) (hd : (s.board.side d).sendDue ≤ s.time) : Done (.helloSend d) s (fun t =>
    t.out = List.append s.out [.rope d 1 15 s.pos 0 [1, 2]] ∧ (t.board.side d).sendDue = s.time + milli ∧ Frame s t noReg) := by
  have hex : exec (.helloSend d) s = .next ((helloDue s d).emit (.rope d 1 15 s.pos 0 [1, 2])) :=
    congrArg Host.Outcome.next (if_neg (by simp [hp, hd]))
  refine .next hex ⟨rfl, ?_, .of_mems ((mems_emit ..).trans (mems_modBoard ..)), .of_eq rfl⟩
  exact congrArg RopeLinkX.sendDue (side_setSide s.board d _)

theorem helloWaits (hd : s.time < (s.board.side d).sendDue) : Done (.helloSend d) s (fun t => t = s) :=
  .next (congrArg Host.Outcome.next (if_pos (by simp [hd]))) rfl

/-- A side whose peer is silent: its HELLOs count anew (R463). -/
def peerLost (s : State) (d : RopeSide) : State :=
  s.modBoard (fun b => b.setSide d { s.board.side d with hellos := 0, peerLo := 0, peerHi := 0 })

theorem linkFalls (hd : (s.board.side d).heardAt + 3 * milli ≤ s.time) : Done (.ropeLinkDown d) s (fun t =>
    t.rd (linkFld d) = 0 ∧ t.rd (verFld d) = 0 ∧ (t.board.side d).hellos = 0 ∧ Frame s t (oneReg .ROPE_STATUS 0 0)) := by
  have hex : exec (.ropeLinkDown d) s = .next (linkShown (peerLost s d) d 0 0) := congrArg Host.Outcome.next (if_neg (by omega))
  obtain ⟨l1, l2, l3, l4⟩ := linkShown_shows (peerLost s d) d (l := 0) (v := 0) (by decide) (by decide)
  refine .next hex ⟨l1, l2, ?_, (SameMem.of_mems (mems_modBoard ..)).trans l4.1, (SameRegs.of_eq rfl).trans l4.2⟩
  rw [l3]
  exact congrArg RopeLinkX.hellos (side_setSide s.board d _)

/-! ### Positions -/

/-- A frame whose CRC fails is only counted (R461). -/
theorem badFrame {k : Instr} (hk : exec k s = .next (s.count C.ROPE_CNT_CRC)) : Done k s (fun t =>
    t.ctr C.ROPE_CNT_CRC = (s.ctr C.ROPE_CNT_CRC + 1) % 2 ^ 48 ∧ t.out = s.out ∧ Frame s t noReg) :=
  .next hk ⟨State.ctr_count_same .., rfl, .of_mems (mems_count ..), .of_eq rfl⟩

theorem fieldGet_lt8 (s : State) : s.rd F.ROPE_STATUS_LAST < 8 ∧ s.pos < 8 := ⟨fieldGet_lt F.ROPE_STATUS_LAST _, fieldGet_lt F.ROPE_STATUS_POS _⟩

theorem knowLast_shows {m : Nat} (hm : m < 8) : let t := s.knowLast m
    t.rd F.ROPE_STATUS_LAST = max m s.pos ∧ t.rd F.ROPE_STATUS_POS = s.rd F.ROPE_STATUS_POS ∧
    t.rd F.ROPE_STATUS_POS_VALID = s.rd F.ROPE_STATUS_POS_VALID ∧ Frame s t (oneReg .ROPE_STATUS 0 0) := by
  have ho := sendChain_only (s.wr F.ROPE_STATUS_LAST 0 0 (max m s.pos % 8))
  obtain ⟨-, hp⟩ := fieldGet_lt8 s
  have h8 : max m s.pos < 8 := by omega
  refine ⟨(ho.rd _).trans ((State.rd_wr_self _ _ _ _ _ (by decide)).trans ?_), (ho.rd _).trans (State.rd_wr_other _ _ _ _ _ _ (by decide)),
    (ho.rd _).trans (State.rd_wr_other _ _ _ _ _ _ (by decide)), ho.after (Frame.wr s _ ⟨rfl, rfl, rfl⟩)⟩
  rw [Nat.mod_eq_of_lt h8]
  exact Nat.mod_eq_of_lt h8

/-- A position as ROPE_STATUS shows it (R464). -/
def posShown (s : State) (n : Nat) : State := s.wrs 0 0 [(F.ROPE_STATUS_POS, n), (F.ROPE_STATUS_POS_VALID, 1)]

theorem posShown_shows {m : Nat} (hm : m < 8) : let t := posShown s m
    t.rd F.ROPE_STATUS_POS = m ∧ t.rd F.ROPE_STATUS_POS_VALID = 1 ∧ t.rd F.ROPE_STATUS_LAST = s.rd F.ROPE_STATUS_LAST ∧
    Frame s t (oneReg .ROPE_STATUS 0 0) := by
  unfold posShown
  refine ⟨?_, ?_, ?_, Frame.wrs s (by simp [oneReg, F.ROPE_STATUS_POS, F.ROPE_STATUS_POS_VALID])⟩
  · simp (disch := decide) only [State.wrs, List.foldl, State.rd_wr_self, State.rd_wr_other]
    exact Nat.mod_eq_of_lt hm
  · simp (disch := decide) only [State.wrs, List.foldl, State.rd_wr_self]
    decide
  · simp (disch := decide) only [State.wrs, List.foldl, State.rd_wr_other]

variable {s}

theorem pos_eq (hh : s.rd F.ROPE_STATUS_HEAD = 0) (hv : s.rd F.ROPE_STATUS_POS_VALID = 0) : exec (.pos true n) s = .next (
    if n.toNat + 1 > 7 then s.wr F.ROPE_STATUS_LONG 0 0 1
    else ((posShown s (n.toNat + 1)).knowLast ((posShown s (n.toNat + 1)).rd F.ROPE_STATUS_LAST)).sendPos) := by
  have hp : s.hasPos = false := by
    unfold State.hasPos
    rw [hv]
    rfl
  exact congrArg Host.Outcome.next ((if_neg (by decide)).trans (if_neg (by simp [hh, hp])))

theorem positionTaken (hh : s.rd F.ROPE_STATUS_HEAD = 0) (hv : s.rd F.ROPE_STATUS_POS_VALID = 0) (hn : n.toNat < 7) :
    Done (.pos true n) s (fun t => t.rd F.ROPE_STATUS_POS = n.toNat + 1 ∧ t.rd F.ROPE_STATUS_POS_VALID = 1 ∧
      t.rd F.ROPE_STATUS_LAST = max (s.rd F.ROPE_STATUS_LAST) (n.toNat + 1) ∧ Frame s t (oneReg .ROPE_STATUS 0 0)) := by
  have hex := pos_eq n hh hv
  rw [if_neg (by omega)] at hex
  obtain ⟨p1, p2, p3, p4⟩ := posShown_shows s (m := n.toNat + 1) (by omega)
  generalize posShown s (n.toNat + 1) = u at *
  obtain ⟨k1, k2, k3, k4⟩ := knowLast_shows u (fieldGet_lt8 u).1
  generalize u.knowLast (u.rd F.ROPE_STATUS_LAST) = w at *
  have ho := sendPos_only w
  have hl : max (u.rd F.ROPE_STATUS_LAST) u.pos = max (s.rd F.ROPE_STATUS_LAST) (n.toNat + 1) := by
    rw [p3, show u.pos = n.toNat + 1 from p1]
  exact .next hex ⟨(ho.rd _).trans (k2.trans p1), (ho.rd _).trans (k3.trans p2), (ho.rd _).trans (k1.trans hl),
    ho.after ⟨p4.1.trans k4.1, p4.2.trans k4.2⟩⟩

theorem ropeTooLong (hh : s.rd F.ROPE_STATUS_HEAD = 0) (hv : s.rd F.ROPE_STATUS_POS_VALID = 0) (hn : 7 ≤ n.toNat) :
    Done (.pos true n) s (fun t => t.rd F.ROPE_STATUS_LONG = 1 ∧ t.rd F.ROPE_STATUS_POS_VALID = 0 ∧ Frame s t (oneReg .ROPE_STATUS 0 0)) := by
  have hex := pos_eq n hh hv
  rw [if_pos (by omega)] at hex
  exact .next hex ⟨State.rd_wr_self _ _ _ _ _ (by decide), (State.rd_wr_other _ _ _ _ _ _ (by decide)).trans hv, Frame.wr s _ ⟨rfl, rfl, rfl⟩⟩

theorem chainGivesLast (hn : n.toNat ≤ 7) : Done (.chain true n) s (fun t =>
    t.rd F.ROPE_STATUS_LAST = max n.toNat s.pos ∧ Frame s t (oneReg .ROPE_STATUS 0 0)) := by
  have hex : exec (.chain true n) s = .next (s.knowLast n.toNat) := congrArg Host.Outcome.next ((if_neg (by decide)).trans (if_neg (by omega)))
  obtain ⟨k1, -, -, k4⟩ := knowLast_shows s (m := n.toNat) (by omega)
  exact .next hex ⟨k1, k4⟩

end

/-! ### Wakes along the Rope -/

/-- A wake event in Bivouac: the wake begins, with its source (R471). -/
theorem wakeEvent_asleep {s : State} (hs : s.rd F.PWR_BIVOUAC_STATE = 2) {src : Nat} (hr : src < 8) : let t := s.wakeEvent src
    t.rd F.PWR_BIVOUAC_STATE = 3 ∧ t.rd F.PWR_BIVOUAC_WAKE_SRC = src ∧ t.board = s.board ∧ t.gate = s.gate ∧ t.hut = s.hut ∧ t.out = s.out ∧
    Frame s t (oneReg .PWR_BIVOUAC 0 0) := by
  have he : s.wakeEvent src = s.wrs 0 0 [(F.PWR_BIVOUAC_STATE, 3), (F.PWR_BIVOUAC_WAKE_SRC, src)] := by
    unfold State.wakeEvent
    rewrite [hs]
    rfl
  rw [he]
  refine ⟨?_, ?_, State.wrs_board .., State.wrs_gate .., State.wrs_hut .., State.wrs_out .., Frame.wrs s (by simp [oneReg, F.PWR_BIVOUAC_STATE, F.PWR_BIVOUAC_WAKE_SRC])⟩
  · simp (disch := decide) only [State.wrs, List.foldl, State.rd_wr_self, State.rd_wr_other]
    decide
  · simp (disch := decide) only [State.wrs, List.foldl, State.rd_wr_self]
    exact Nat.mod_eq_of_lt hr

theorem wakeEvent_awake {s : State} (hs : s.rd F.PWR_BIVOUAC_STATE = 0) (src : Nat) : s.wakeEvent src = s := by
  unfold State.wakeEvent
  rewrite [hs]
  rfl

section
variable {s : State} {dst : BitVec 4}

/-- A WAKE frame for another device, or for all, sent on (R462). -/
def wakeOnward (s : State) (d : Nat) : State := if d = 15 ∨ d ≠ s.pos then s.ropeForward 4 d 0 0 [] else s

theorem wakeOnward_only (s : State) (d : Nat) : SendsOnly s (wakeOnward s d) := by
  unfold wakeOnward
  split
  · exact ropeForward_only ..
  · exact .refl s

theorem ropeWake_eq (s : State) (dst : BitVec 4) : exec (.ropeWake true dst) s = .next (
    if dst.toNat = 15 ∨ (s.hasPos = true ∧ dst.toNat = s.pos) then (wakeOnward s dst.toNat).wakeEvent 3 else wakeOnward s dst.toNat) := by
  have hu := wakeOnward_only s dst.toNat
  have e1 : (wakeOnward s dst.toNat).hasPos = s.hasPos := congrArg (· == 1) (hu.rd F.ROPE_STATUS_POS_VALID)
  have e2 : (wakeOnward s dst.toNat).pos = s.pos := hu.rd F.ROPE_STATUS_POS
  rw [← e1, ← e2]
  rfl

theorem ropeWakes (hd : dst.toNat = 15 ∨ (s.hasPos = true ∧ dst.toNat = s.pos)) (hs : s.rd F.PWR_BIVOUAC_STATE = 2) :
    Done (.ropeWake true dst) s (fun t => t.rd F.PWR_BIVOUAC_STATE = 3 ∧ t.rd F.PWR_BIVOUAC_WAKE_SRC = 3 ∧ Frame s t (oneReg .PWR_BIVOUAC 0 0)) := by
  have hex := ropeWake_eq s dst
  rw [if_pos hd] at hex
  have hu := wakeOnward_only s dst.toNat
  obtain ⟨w1, w2, -, -, -, -, w7⟩ := wakeEvent_asleep ((hu.rd _).trans hs) (src := 3) (by decide)
  have hf : Frame s (wakeOnward s dst.toNat) (oneReg .PWR_BIVOUAC 0 0) := hu.frame
  exact .next hex ⟨w1, w2, hf.1.trans w7.1, hf.2.trans w7.2⟩

theorem ropeWakePasses (hd : dst.toNat ≠ 15) (hp : dst.toNat ≠ s.pos) : Done (.ropeWake true dst) s (fun t => Frame s t noReg ∧
    (s.rd (linkFld (s.toward dst.toNat)) = 1 → s.rd F.ROPE_STATUS_LONG = 0 →
      t.out = List.append s.out [.rope (s.toward dst.toNat) 4 dst.toNat 0 0 []])) := by
  have hex := ropeWake_eq s dst
  rw [if_neg (by simp [hd, hp])] at hex
  refine .next hex ⟨(wakeOnward_only s dst.toNat).frame, fun hl hg => ?_⟩
  rw [show wakeOnward s dst.toNat = _ from if_pos (.inr hp), ropeForward_toward hd, ropeSend_up hl hg]
  rfl

end

/-- The Rope's links and positions, as R463, R464 and R471 give them. -/
theorem ropeLinksAndPositions : RopeLinksAndPositions := by
  intro s d lo hi n dst
  refine ⟨fun hp => ⟨helloCounts s d lo hi hp, helloLinks s d lo hi hp, helloSends s d hp, helloWaits s d⟩, linkFalls s d, badFrame s rfl, badFrame s rfl,
    badFrame s rfl, fun hh hv => ⟨positionTaken n hh hv, ropeTooLong n hh hv⟩, chainGivesLast n, ropeWakes, ropeWakePasses⟩

end Sys2Proof.Proofs
end

section
/-! PROOF. SMBus commands, and the relays along the Rope (R462, R465 to R469, R471). -/

namespace Sys2Proof.Proofs

open Sys2Proof Sys2Proof.Machine

/-! ### Little-endian bytes -/

theorem leNat_leBytes (n : Nat) : ∀ v, leNat (leBytes v n) = v % 256 ^ n := by
  induction n with
  | zero => exact fun v => (Nat.mod_one v).symm
  | succ n ih =>
    intro v
    change (BitVec.ofNat 8 v).toNat + 256 * leNat (leBytes (v / 256) n) = _
    rw [ih, BitVec.toNat_ofNat, show (256 : Nat) ^ (n + 1) = 256 * 256 ^ n from pow_succ' ..]
    exact (Nat.mod_mul (x := v) (a := 256)).symm

theorem leNat_leBytes_bitVec {w n : Nat} (hw : 2 ^ w = 256 ^ n) (x : BitVec w) : leNat (leBytes x.toNat n) = x.toNat := by
  rw [leNat_leBytes, Nat.mod_eq_of_lt (hw ▸ x.isLt)]

theorem leVec_leBytes {w n : Nat} (hw : 2 ^ w = 256 ^ n) (x : BitVec w) : leVec w (leBytes x.toNat n) = x := by
  unfold leVec
  rw [leNat_leBytes_bitVec hw, BitVec.ofNat_toNat, BitVec.setWidth_eq]

theorem leNat_one (b : Byte) : leNat [b] = b.toNat := Nat.add_zero _

theorem ofNat_toNat_byte (b : Byte) : BitVec.ofNat 8 b.toNat = b := by rw [BitVec.ofNat_toNat, BitVec.setWidth_eq]

theorem take_leBytes (v n : Nat) : (leBytes v n).take n = leBytes v n := List.take_of_length_le (by rw [length_leBytes])

theorem take_leBytes_append (v n : Nat) (l : List Byte) : (leBytes v n ++ l).take n = leBytes v n := by
  rw [List.take_append_of_le_length (by rw [length_leBytes]), take_leBytes]

theorem drop_leBytes_append (v n : Nat) (l : List Byte) : (leBytes v n ++ l).drop n = l := by
  rw [List.drop_append_of_le_length (by rw [length_leBytes]), List.drop_of_length_le (by rw [length_leBytes]), List.nil_append]

/-! ### Commands and their replies (R465, R466) -/

section
variable {s : State} {code : Nat} {data : List Byte}

theorem smbus_answers {pec : Bool} (hp : s.board.pwrgd = true) (hv : s.hasPos = true) {st : Nat} {d : List Byte} {u : State}
    (h : s.smbCommand pec code data = (some st, d, u)) : s.smbus pec code data = u.emit (.smb st d) := by
  unfold State.smbus
  rw [if_neg (by simp [hp, hv]), h]

theorem smbus_waits {pec : Bool} (hp : s.board.pwrgd = true) (hv : s.hasPos = true) {d : List Byte} {u : State}
    (h : s.smbCommand pec code data = (none, d, u)) : s.smbus pec code data = u := by
  unfold State.smbus
  rw [if_neg (by simp [hp, hv]), h]

/-- A wrong PEC is answered SMB_PEC and does nothing (R465). -/
theorem badPec {k : Instr} (hp : s.board.pwrgd = true) (hv : s.hasPos = true) (hk : exec k s = .next (s.smbus false code data)) :
    Done k s (fun t => Replied s t 3 [] noReg) := by
  rw [smbus_answers hp hv (show s.smbCommand false code data = (some smbPec, [], s) from if_pos rfl)] at hk
  exact .next hk ⟨rfl, (SendsOnly.emit s _).frame⟩

theorem smbCommand_eq : s.smbCommand true code data =
    if (((if [1, 2, 8, 15].contains code then s else s.wakeEvent 4).board.smb.pending.isSome || (if [1, 2, 8, 15].contains code then s else s.wakeEvent 4).board.relay.isSome) &&
      !(List.contains [1, 2, 15] code)) = true then (some smbBusy, [], if [1, 2, 8, 15].contains code then s else s.wakeEvent 4)
    else (if [1, 2, 8, 15].contains code then s else s.wakeEvent 4).smbRun code data := rfl

theorem smbCommand_ready (hr : SmbReady s) : s.smbCommand true code data = s.smbRun code data := by
  obtain ⟨-, -, hb, hp, hy⟩ := hr
  rw [smbCommand_eq, wakeEvent_awake hb, ite_self]
  exact if_neg (by simp [hp, hy])

/-- A command of a device awake with none pending answers what it does (R466). -/
theorem readyAnswers {k : Instr} (hr : SmbReady s) (hk : exec k s = .next (s.smbus true code data)) {st : Nat} {d : List Byte} {u : State}
    (h : s.smbRun code data = (some st, d, u)) : exec k s = .next (u.emit (.smb st d)) := by
  rw [hk, smbus_answers hr.1 hr.2.1 ((smbCommand_ready hr).trans h)]

/-- A reply, after what wrote at most the registers R. -/
theorem repliedAfter {u : State} {R : RegName → Nat → Nat → Prop} (st : Nat) (d : List Byte) (ho : u.out = s.out) (hf : Frame s u R) :
    Replied s (u.emit (.smb st d)) st d R :=
  ⟨congrArg (fun o => List.append o [Output.smb st d]) ho, (SendsOnly.emit u _).after hf⟩

theorem readyReplies {k : Instr} (hr : SmbReady s) (hk : exec k s = .next (s.smbus true code data)) {st : Nat} {d : List Byte}
    (h : s.smbRun code data = (some st, d, s)) : Done k s (fun t => t = s.emit (.smb st d) ∧ Replied s t st d noReg) :=
  .next (readyAnswers hr hk h) ⟨rfl, repliedAfter st d rfl (Frame.refl ..)⟩

end

/-! ### Reads -/

/-- The state with its alert causes cleared, after a free value is taken (Table 17-6). -/
def statusRead (s : State) : State := s.smbStatus.2

/-- The 16 bytes of GET_STATUS with an input voltage v. -/
def statusBytes (s : State) (v : Word) : List Byte :=
  List.flatten [[BitVec.ofNat 8 (s.rd F.CFG_DEV_STATE_STATE), BitVec.ofNat 8 s.pos, BitVec.ofNat 8 (s.rd F.PWR_BIVOUAC_STATE),
      BitVec.ofNat 8 (s.rd F.PWR_THERM_LEVEL)], leBytes ((BitVec.ofNat 12 (s.rd F.PWR_THERM_TJ)).signExtend 16).toNat 2,
    leBytes (s.rd F.PWR_THERM_POWER_W) 2, leBytes v.toNat 2, leBytes s.board.alerts 2, leBytes s.pitch 4]

theorem smbStatus_eq (s : State) : s.smbStatus = (statusBytes s (Config.freeValue s.free), statusRead s) := rfl

theorem statusRead_shows (s : State) : (statusRead s).out = s.out ∧ (statusRead s).board.alerts = 0 ∧ Frame s (statusRead s) noReg :=
  ⟨rfl, rfl, .of_mems (mems_modBoard ..), .of_eq rfl⟩

theorem statusBytes_shows (s : State) (v : Word) : (statusBytes s v).length = 16 ∧
    (statusBytes s v).take 4 = [BitVec.ofNat 8 (s.rd F.CFG_DEV_STATE_STATE), BitVec.ofNat 8 s.pos, BitVec.ofNat 8 (s.rd F.PWR_BIVOUAC_STATE),
      BitVec.ofNat 8 (s.rd F.PWR_THERM_LEVEL)] ∧
    leNat (((statusBytes s v).drop 10).take 2) = s.board.alerts % 2 ^ 16 ∧ leNat (((statusBytes s v).drop 12).take 4) = s.pitch % 2 ^ 32 := by
  unfold statusBytes
  refine ⟨rfl, rfl, ?_, ?_⟩
  · exact (leNat_leBytes 2 s.board.alerts)
  · exact (leNat_leBytes 4 s.pitch)

section
variable {s : State} (hr : SmbReady s)
include hr

theorem statusAnswered : Done (.getStatus true) s (fun t => t.board.alerts = 0 ∧ ∃ d, d.length = 16 ∧ Replied s t 0 d noReg ∧
    d.take 4 = [BitVec.ofNat 8 (s.rd F.CFG_DEV_STATE_STATE), BitVec.ofNat 8 s.pos, BitVec.ofNat 8 (s.rd F.PWR_BIVOUAC_STATE),
      BitVec.ofNat 8 (s.rd F.PWR_THERM_LEVEL)] ∧ leNat ((d.drop 10).take 2) = s.board.alerts % 2 ^ 16 ∧
    leNat ((d.drop 12).take 4) = s.pitch % 2 ^ 32) := by
  obtain ⟨b1, b2, b3, b4⟩ := statusBytes_shows s (Config.freeValue s.free)
  obtain ⟨u1, u2, u3⟩ := statusRead_shows s
  have hex : exec (.getStatus true) s = .next ((statusRead s).emit (.smb 0 (statusBytes s (Config.freeValue s.free)))) := readyAnswers hr rfl rfl
  exact .next hex ⟨u2, _, b1, repliedAfter 0 _ u1 u3, b2, b3, b4⟩

theorem identityAnswered : Done (.getIdentity true) s (fun t => ∃ d, d.length = 25 ∧ Replied s t 0 d noReg ∧
    leNat (d.take 16) = s.fuses.serial.toNat ∧ leNat ((d.drop 16).take 6) = s.fuses.mac.toNat) := by
  obtain ⟨t, ht, -, hrep⟩ := readyReplies hr (k := .getIdentity true) rfl rfl
  refine ⟨t, ht, _, ?_, hrep, ?_, ?_⟩
  · simp [length_leBytes]
  · rw [List.flatten_cons, take_leBytes_append]
    exact leNat_leBytes_bitVec (by decide) _
  · rw [List.flatten_cons, drop_leBytes_append, List.flatten_cons, take_leBytes_append]
    exact leNat_leBytes_bitVec (by decide) _

theorem recordAnswered (i : BitVec 32) :
    (∀ r, s.hut.recs[i.toNat]? = some r → Done (.healthRead true i) s (fun t => Replied s t 0 r.bytes noReg)) ∧
    (s.hut.recs.length ≤ i.toNat → Done (.healthRead true i) s (fun t => Replied s t 5 [] noReg)) := by
  have hi : leNat (((leBytes i.toNat 4).drop 0).take 4) = i.toNat := by
    rw [List.drop_zero, take_leBytes]
    exact leNat_leBytes_bitVec (by decide) i
  have hrun : s.smbRun 8 (leBytes i.toNat 4) = (match s.hut.recs[i.toNat]? with
      | some r => (some smbOk, r.bytes, s)
      | none => (some smbRange, [], s)) := by
    conv_rhs => rw [← hi]
    rfl
  refine ⟨fun r h => ?_, fun h => ?_⟩
  · rw [h] at hrun
    exact (readyReplies hr rfl hrun).imp (fun _ => And.imp_right And.right)
  · rw [List.getElem?_eq_none h] at hrun
    exact (readyReplies hr rfl hrun).imp (fun _ => And.imp_right And.right)

theorem resultAnswered (st : Nat) (d : List Byte) (h : s.board.smb.result = some (st, d)) : Done (.getResult true) s (fun t => Replied s t st d noReg) := by
  have hrun : s.smbRun 15 [] = (some st, d, s) := by
    change (match s.board.smb.pending, s.board.smb.result with
      | some _, _ => _
      | none, some (st, d) => _
      | none, none => _) = _
    rewrite [hr.2.2.2.1, h]
    rfl
  exact (readyReplies hr rfl hrun).imp (fun _ => And.imp_right And.right)

theorem wakeAnswered : Done (.wake true) s (fun t => Replied s t 0 [] noReg) :=
  (readyReplies hr (k := .wake true) rfl rfl).imp (fun _ => And.imp_right And.right)

theorem entryRequested :
    (s.isReady = true → Done (.bivouacEnter true) s (fun t => t.rd F.PWR_BIVOUAC_ENTER = 1 ∧ Replied s t 0 [] (oneReg .PWR_BIVOUAC 0 0))) ∧
    (s.isReady = false → Done (.bivouacEnter true) s (fun t => Replied s t 4 [] noReg)) := by
  refine ⟨fun h => ?_, fun h => ?_⟩
  · have hrun : s.smbRun 10 [] = (some smbOk, [], s.wr F.PWR_BIVOUAC_ENTER 0 0 1) := if_pos h
    exact .next (readyAnswers hr rfl hrun) ⟨State.rd_wr_self s F.PWR_BIVOUAC_ENTER 0 0 1 (by decide), repliedAfter 0 [] rfl (Frame.wr s 1 ⟨rfl, rfl, rfl⟩)⟩
  · have hrun : s.smbRun 10 [] = (some smbState, [], s) := if_neg (by rw [h]; decide)
    exact (readyReplies hr rfl hrun).imp (fun _ => And.imp_right And.right)

end

section
variable {s : State}

theorem pendingAnswered (hp : s.board.pwrgd = true) (hv : s.hasPos = true) {p : Nat × List Byte} (h : s.board.smb.pending = some p) :
    Done (.getResult true) s (fun t => Replied s t 1 [] noReg) := by
  have hrun : s.smbRun 15 [] = (some smbPending, [], s) := by
    change (match s.board.smb.pending, s.board.smb.result with
      | some _, _ => _
      | none, some (st, d) => _
      | none, none => _) = _
    rewrite [h]
    rfl
  have hc : s.smbCommand true 15 [] = (some smbPending, [], s) := by
    rw [smbCommand_eq, if_pos (show [1, 2, 8, 15].contains 15 = true by decide), if_neg (by simp)]
    exact hrun
  exact .next (congrArg Host.Outcome.next (smbus_answers hp hv hc)) (repliedAfter 1 [] rfl (Frame.refl ..))

theorem wakesFromBivouac (hp : s.board.pwrgd = true) (hv : s.hasPos = true) (hs : s.rd F.PWR_BIVOUAC_STATE = 2) (hn : s.board.smb.pending = none)
    (hy : s.board.relay = none) : Done (.wake true) s (fun t => t.rd F.PWR_BIVOUAC_STATE = 3 ∧ t.rd F.PWR_BIVOUAC_WAKE_SRC = 4 ∧
      Replied s t 0 [] (oneReg .PWR_BIVOUAC 0 0)) := by
  obtain ⟨w1, w2, w3, -, -, w6, w7⟩ := wakeEvent_asleep hs (src := 4) (by decide)
  have hc : s.smbCommand true 9 [] = (some smbOk, [], s.wakeEvent 4) := by
    rw [smbCommand_eq, if_neg (show ¬ [1, 2, 8, 15].contains 9 = true by decide), if_neg (by simp [w3, hn, hy])]
    rfl
  exact .next (congrArg Host.Outcome.next (smbus_answers hp hv hc)) ⟨w1, w2, repliedAfter 0 [] w6 w7⟩

theorem alertAnswered (hp : s.board.pwrgd = true) (hv : s.hasPos = true) (ha : s.board.alerts ≠ 0) : Done .alertResponse s (fun t =>
    t.out = List.append s.out [.alertAddress (0x20 + 8 * s.rd F.CFG_STRAPS_MGMT_BASE + s.pos)] ∧ Frame s t noReg) :=
  .next (congrArg Host.Outcome.next (if_pos ⟨ha, hv, hp⟩)) ⟨rfl, (SendsOnly.emit s _).frame⟩

end

/-! ### Writes (R466 to R468) -/

/-- What a command does that cannot fail to reply: its status, and the state it leaves. -/
theorem plainAnswers {s : State} (hr : SmbReady s) {k : Instr} {code : Nat} {data : List Byte} (hk : exec k s = .next (s.smbus true code data)) {r : Nat × State}
    (h : s.smbRun code data = (some r.1, [], r.2)) : exec k s = .next (r.2.emit (.smb r.1 [])) := readyAnswers hr hk h

section
variable {s : State} (hr : SmbReady s)
include hr

theorem ipSet_eq (f n : Byte) (x g : BitVec 128) : exec (.setIp true f n x g) s =
    .next ((s.setIp f.toNat n.toNat x g).2.emit (.smb (s.setIp f.toNat n.toNat x g).1 [])) := by
  refine plainAnswers hr (k := .setIp true f n x g) rfl ?_
  have h0 : leNat [f] = f.toNat := leNat_one f
  have h1 : leNat [n] = n.toNat := leNat_one n
  have e : List.flatten [[f, n], leBytes x.toNat 16, leBytes g.toNat 16] = f :: n :: (leBytes x.toNat 16 ++ leBytes g.toNat 16) := by simp
  have h2 : leVec 128 ((leBytes x.toNat 16 ++ leBytes g.toNat 16).take 16) = x := by
    rw [take_leBytes_append]
    exact leVec_leBytes (by decide) x
  have h3 : leVec 128 (((leBytes x.toNat 16 ++ leBytes g.toNat 16).drop 16).take 16) = g := by
    rw [drop_leBytes_append, take_leBytes]
    exact leVec_leBytes (by decide) g
  rw [e]
  generalize leBytes x.toNat 16 ++ leBytes g.toNat 16 = l at *
  subst h2 h3
  rw [← h0, ← h1]
  rfl

theorem ipSet (f n : Byte) (x g : BitVec 128) :
    (((f.toNat = 4 ∧ n.toNat ≤ 32) ∨ (f.toNat = 6 ∧ n.toNat ≤ 128)) → Done (.setIp true f n x g) s (fun t =>
      t.gate.ip = some x ∧ t.gate.ipNet = (f.toNat, n.toNat, g) ∧ t.gate.dhcp = false ∧ Replied s t 0 [] noReg)) ∧
    (f = 0 → Done (.setIp true f n x g) s (fun t => t.gate.ip = none ∧ t.gate.dhcp = true ∧ Replied s t 0 [] noReg)) := by
  have hex := ipSet_eq hr f n x g
  refine ⟨fun h => ?_, fun h => ?_⟩
  · rw [show s.setIp f.toNat n.toNat x g = (smbOk, s.modGate (fun v => { v with ip := some x, ipNet := (f.toNat, n.toNat, g), dhcp := false })) from
      (if_neg (by omega)).trans (if_pos h)] at hex
    exact .next hex ⟨rfl, rfl, rfl, repliedAfter 0 [] rfl ⟨.of_mems (mems_modGate ..), .of_eq rfl⟩⟩
  · rw [show s.setIp f.toNat n.toNat x g = (smbOk, s.modGate (fun v => { v with ip := none, ipNet := (0, 0, 0), dhcp := true })) from
      if_pos (by rw [h]; rfl)] at hex
    exact .next hex ⟨rfl, rfl, repliedAfter 0 [] rfl ⟨.of_mems (mems_modGate ..), .of_eq rfl⟩⟩

theorem vbatSet_eq (k : BitVec 256) : exec (.setVbatKey true k) s = .next ((s.setVbat (some k)).2.emit (.smb (s.setVbat (some k)).1 [])) := by
  refine plainAnswers hr (k := .setVbatKey true k) rfl ?_
  have h : leVec 256 (((leBytes k.toNat 32).drop 0).take 32) = k := by
    rw [List.drop_zero, take_leBytes]
    exact leVec_leBytes (by decide) k
  conv_rhs => rw [← h]
  rfl

omit hr in
theorem vbatChanges {c : Instr} {key : Option (BitVec 256)} (hc : exec c s = .next ((s.setVbat key).2.emit (.smb (s.setVbat key).1 []))) :
    (s.encBusy = false → Done c s (fun t => t.fuses.vbat = key ∧ Replied s t 0 [] noReg)) ∧
    (s.encBusy = true → Done c s (fun t => t.fuses = s.fuses ∧ Replied s t 4 [] noReg)) := by
  refine ⟨fun h => ?_, fun h => ?_⟩
  · rw [show s.setVbat key = (smbOk, { s with fuses := { s.fuses with vbat := key } }) from if_neg (by rw [h]; decide)] at hc
    exact .next hc ⟨rfl, repliedAfter 0 [] rfl ⟨.of_mems rfl, .of_eq rfl⟩⟩
  · rw [show s.setVbat key = (smbState, s) from if_pos h] at hc
    exact .next hc ⟨rfl, repliedAfter 4 [] rfl (Frame.refl ..)⟩

theorem vbatKeys (k : BitVec 256) :
    (s.encBusy = false → Done (.setVbatKey true k) s (fun t => t.fuses.vbat = some k ∧ Replied s t 0 [] noReg) ∧
      Done (.clearVbatKey true) s (fun t => t.fuses.vbat = none ∧ Replied s t 0 [] noReg)) ∧
    (s.encBusy = true → Done (.setVbatKey true k) s (fun t => t.fuses = s.fuses ∧ Replied s t 4 [] noReg) ∧
      Done (.clearVbatKey true) s (fun t => t.fuses = s.fuses ∧ Replied s t 4 [] noReg)) := by
  obtain ⟨a1, a2⟩ := vbatChanges (vbatSet_eq hr k)
  obtain ⟨b1, b2⟩ := vbatChanges (plainAnswers hr (k := .clearVbatKey true) (r := s.setVbat none) rfl rfl)
  exact ⟨fun h => ⟨a1 h, b1 h⟩, fun h => ⟨a2 h, b2 h⟩⟩

theorem keySlot_eq (slot : Byte) (h : BitVec 256) : exec (.progKeySlot true slot h) s =
    .next ((s.progSlot slot.toNat h).2.emit (.smb (s.progSlot slot.toNat h).1 [])) := by
  refine plainAnswers hr (k := .progKeySlot true slot h) rfl ?_
  have h0 : leNat [slot] = slot.toNat := leNat_one slot
  have h1 : leVec 256 ((leBytes h.toNat 32).take 32) = h := by
    rw [take_leBytes]
    exact leVec_leBytes (by decide) h
  generalize leBytes h.toNat 32 = l at *
  subst h1
  rw [← h0]
  rfl

theorem keySlots (slot : Byte) (h : BitVec 256) (hd : s.rd F.CFG_DEV_STATE_STATE ≤ 1) (h1 : 1 ≤ slot.toNat) (h3 : slot.toNat ≤ 3) :
    (s.fuses.slotUsed.getD slot.toNat false = false → Done (.progKeySlot true slot h) s (fun t =>
      t.board.smb.pending = some (6, slot :: leBytes h.toNat 32) ∧ t.fuses = s.fuses ∧ Replied s t 1 [] noReg)) ∧
    (s.fuses.slotUsed.getD slot.toNat false = true → Done (.progKeySlot true slot h) s (fun t =>
      t.fuses = s.fuses ∧ t.board.smb.pending = none ∧ Replied s t 6 [] noReg)) := by
  have hex := keySlot_eq hr slot h
  refine ⟨fun hu => ?_, fun hu => ?_⟩
  · rw [show s.progSlot slot.toNat h = (smbPending, s.modBoard (fun b => { b with smb := ⟨some (6, BitVec.ofNat 8 slot.toNat :: leBytes h.toNat 32), none⟩ })) from
      (if_neg (by simp [hd])).trans ((if_neg (by omega)).trans (if_neg (by rw [hu]; decide))), ofNat_toNat_byte] at hex
    exact .next hex ⟨rfl, rfl, repliedAfter 1 [] rfl ⟨.of_mems (mems_modBoard ..), .of_eq rfl⟩⟩
  · rw [show s.progSlot slot.toNat h = (smbSlotUsed, s) from (if_neg (by simp [hd])).trans ((if_neg (by omega)).trans (if_pos hu))] at hex
    exact .next hex ⟨rfl, hr.2.2.2.1, repliedAfter 6 [] rfl (Frame.refl ..)⟩

theorem healthClear_eq (ty : Byte) (unit : BitVec 16) : exec (.healthClear true ty unit) s =
    .next ((s.clearHealth ty.toNat unit.toNat).2.emit (.smb (s.clearHealth ty.toNat unit.toNat).1 [])) := by
  refine plainAnswers hr (k := .healthClear true ty unit) rfl ?_
  have h0 : leNat [ty] = ty.toNat := leNat_one ty
  have h1 : leNat ((leBytes unit.toNat 2).take 2) = unit.toNat := by
    rw [take_leBytes]
    exact leNat_leBytes_bitVec (by decide) unit
  conv_rhs => rw [← h0, ← h1]
  rfl

theorem healthCleared (ty : Byte) (unit : BitVec 16) :
    let has := ∃ r ∈ s.hut.recs, r.state = true ∧ r.type = ty.toNat ∧ r.type ≠ 8 ∧ r.unit = unit.toNat ∧ r.bad = false
    (has → Done (.healthClear true ty unit) s (fun t => t.hut.recPend = List.append s.hut.recPend
      [⟨8, true, unit.toNat, s.pitch, s.hut.bootCount, [ty.toNat], false⟩] ∧ Replied s t 0 [] noReg)) ∧
    (¬ has → Done (.healthClear true ty unit) s (fun t => t.hut.recPend = s.hut.recPend ∧ Replied s t 8 [] noReg)) := by
  intro has
  have hex := healthClear_eq hr ty unit
  have hi : (s.hut.recs.any (fun r => r.state && r.type == ty.toNat && r.type != 8 && r.unit == unit.toNat && !r.bad)) = true ↔ has := by
    simp only [List.any_eq_true, Bool.and_eq_true, beq_iff_eq, bne_iff_ne, Bool.not_eq_true', and_assoc, has]
  refine ⟨fun h => ?_, fun h => ?_⟩
  · rw [show s.clearHealth ty.toNat unit.toNat = (smbOk, s.record 8 unit.toNat true [ty.toNat]) from if_pos (hi.mpr h)] at hex
    exact .next hex ⟨rfl, repliedAfter 0 [] rfl ⟨.of_mems (mems_modHut ..), .of_eq rfl⟩⟩
  · rw [show s.clearHealth ty.toNat unit.toNat = (smbNoRecord, s) from if_neg (mt hi.mp h)] at hex
    exact .next hex ⟨rfl, repliedAfter 8 [] rfl (Frame.refl ..)⟩

theorem relay_run (target : Byte) (cmd : List Byte) : s.smbCommand true 11 (target :: cmd) =
    ((s.ropeRelay target.toNat cmd).1, [], (s.ropeRelay target.toNat cmd).2) := by
  rw [smbCommand_ready hr, ← leNat_one target]
  rfl

/-- A relay under way, before its frame is sent (R462). -/
def relayBegun (s : State) (target : Nat) (cmd : List Byte) : State :=
  s.modBoard (fun b => { b with relay := some ⟨target, s.board.relaySeq, cmd, 0, s.time⟩, relaySeq := (s.board.relaySeq + 1) % 256 })

omit hr in
theorem relayBegun_shows (s : State) (target : Nat) (cmd : List Byte) : let t := relayBegun s target cmd
    t.board.relay = some ⟨target, s.board.relaySeq, cmd, 0, s.time⟩ ∧ t.board.relaySeq = (s.board.relaySeq + 1) % 256 ∧ t.out = s.out ∧
    t.regs = s.regs ∧ Frame s t noReg := ⟨rfl, rfl, rfl, rfl, .of_mems (mems_modBoard ..), .of_eq rfl⟩

theorem relaySent (target : Byte) (cmd : List Byte) : let d := s.toward target.toNat
    target.toNat ≤ 7 → cmd ≠ [] → cmd.length ≤ 64 →
    (target.toNat ≠ s.pos → target.toNat ≤ max s.pos (s.rd F.ROPE_STATUS_LAST) → s.rd (linkFld d) = 1 → 2 ≤ s.rd (verFld d) →
      s.rd F.ROPE_STATUS_LONG = 0 → Done (.ropeRelay true target cmd) s (fun t =>
        t.board.relay = some ⟨target.toNat, s.board.relaySeq, cmd, 0, s.time⟩ ∧ t.board.relaySeq = (s.board.relaySeq + 1) % 256 ∧
        t.out = List.append s.out [.rope d 5 target.toNat s.pos s.board.relaySeq cmd] ∧ Frame s t noReg)) ∧
    (target.toNat = s.pos → Done (.ropeRelay true target cmd) s (fun t => t.board.relay = none ∧ Replied s t 9 [] noReg)) := by
  intro d h7 hc h64
  have hrun := relay_run hr target cmd
  have hlen : ¬ (target.toNat > 7 ∨ cmd = [] ∨ cmd.length > 64) := by
    rintro (h | h | h)
    · omega
    · exact hc h
    · omega
  refine ⟨fun hp hl hk hv hg => ?_, fun hp => ?_⟩
  · obtain ⟨u1, u2, u3, u4, u5⟩ := relayBegun_shows s target.toNat cmd
    have hrd : ∀ f, (relayBegun s target.toNat cmd).rd f = s.rd f := fun f => rd_of_regs u4 f 0 0
    have e : s.ropeRelay target.toNat cmd = (none, (relayBegun s target.toNat cmd).ropeSend d 5 target.toNat s.pos s.board.relaySeq cmd) := by
      refine (if_neg hlen).trans (if_neg ?_)
      rintro (h | ⟨h, h'⟩ | h | h)
      · exact hp h
      · omega
      · exact absurd (hk.symm.trans h) (by decide)
      · exact absurd h (Nat.not_lt.mpr hv)
    rw [e, ropeSend_up ((hrd _).trans hk) ((hrd _).trans hg)] at hrun
    generalize relayBegun s target.toNat cmd = u at *
    exact .next (congrArg Host.Outcome.next (smbus_waits hr.1 hr.2.1 hrun)) ⟨u1, u2, congrArg (fun o => List.append o _) u3, (SendsOnly.emit u _).after u5⟩
  · have e : s.ropeRelay target.toNat cmd = (some smbRope, s) := (if_neg hlen).trans (if_pos (.inl hp))
    rw [e] at hrun
    exact .next (congrArg Host.Outcome.next (smbus_answers hr.1 hr.2.1 hrun)) ⟨hr.2.2.2.2, repliedAfter 9 [] rfl (Frame.refl ..)⟩

theorem limit_run (w : BitVec 16) : s.smbCommand true 12 (leBytes w.toNat 2) = (some (s.setLimit w.toNat).1, [], (s.setLimit w.toNat).2) := by
  have h : leNat (((leBytes w.toNat 2).drop 0).take 2) = w.toNat := by
    rw [List.drop_zero, take_leBytes]
    exact leNat_leBytes_bitVec (by decide) w
  rw [smbCommand_ready hr]
  conv_rhs => rw [← h]
  rfl

omit hr in
theorem setLimit_shows (w : BitVec 16) : let t := s.wr F.PWR_THERM_LIMIT_W 0 0 w.toNat
    t.rd F.PWR_THERM_LIMIT_W = w.toNat ∧ Frame s t (oneReg .PWR_THERM 0 0) :=
  ⟨(State.rd_wr_self s F.PWR_THERM_LIMIT_W 0 0 _ (by decide)).trans (Nat.mod_eq_of_lt w.isLt), Frame.wr s _ ⟨rfl, rfl, rfl⟩⟩

theorem limitSet (w : BitVec 16) :
    (300 ≤ w.toNat → w.toNat ≤ 1200 → Done (.setPowerLimit true w) s (fun t => t.rd F.PWR_THERM_LIMIT_W = w.toNat ∧
      Replied s t 0 [] (oneReg .PWR_THERM 0 0))) ∧
    ((w.toNat < 300 ∨ 1200 < w.toNat) → Done (.setPowerLimit true w) s (fun t => Replied s t 5 [] noReg)) := by
  have hrun := limit_run hr w
  refine ⟨fun h1 h2 => ?_, fun h => ?_⟩
  · rw [show s.setLimit w.toNat = (smbOk, s.wr F.PWR_THERM_LIMIT_W 0 0 w.toNat) from if_pos ⟨h1, h2⟩] at hrun
    obtain ⟨l1, l2⟩ := setLimit_shows (s := s) w
    exact .next (congrArg Host.Outcome.next (smbus_answers hr.1 hr.2.1 hrun)) ⟨l1, repliedAfter 0 [] rfl l2⟩
  · rw [show s.setLimit w.toNat = (smbRange, s) from if_neg (by omega)] at hrun
    exact .next (congrArg Host.Outcome.next (smbus_answers hr.1 hr.2.1 hrun)) (repliedAfter 5 [] rfl (Frame.refl ..))

end

/-- The SMBus writes, as R466 to R468 give them. -/
theorem smbusWrites : SmbusWrites := fun _ hr =>
  ⟨ipSet hr, vbatKeys hr, keySlots hr, healthCleared hr, relaySent hr, limitSet hr⟩

/-- The SMBus reads, and the PEC of every command, as R465 to R467, R469 and R471 give them. -/
theorem smbusReads : SmbusReads := by
  intro s hp hv
  refine ⟨fun b w i x y k l c hc => ?_, alertAnswered hp hv, fun p => pendingAnswered hp hv, wakesFromBivouac hp hv, fun hr =>
    ⟨statusAnswered hr, identityAnswered hr, recordAnswered hr, resultAnswered hr, wakeAnswered hr, entryRequested hr⟩⟩
  simp only [List.mem_cons, List.not_mem_nil, or_false] at hc
  rcases hc with rfl | rfl | rfl | rfl | rfl | rfl | rfl | rfl | rfl | rfl | rfl | rfl | rfl <;> exact badPec hp hv rfl

/-- Settles O41. -/
theorem smbusCommandsAnswer : Obligations.SmbusCommandsAnswer := ⟨smbusReads, smbusWrites⟩

end Sys2Proof.Proofs
end

section
/-! PROOF. Relays along the Rope and completions of SMBus commands (R462, R466, R468). -/

namespace Sys2Proof.Proofs

open Sys2Proof Sys2Proof.Machine

section
variable {s : State}

/-- A key slot as blown and read back, and the status kept for GET_RESULT (R468). -/
def slotBlown (s : State) (slot : Nat) (rb : BitVec 256) (st : Nat) : State :=
  ({ s with fuses := { s.fuses with slots := s.fuses.slots.set slot rb, slotUsed := s.fuses.slotUsed.set slot true } } : State).modBoard
    (fun b => { b with smb := ⟨none, some (st, [])⟩ })

theorem slotProgrammed (slot : Byte) (h rb : BitVec 256) (hp : s.board.smb.pending = some (6, slot :: leBytes h.toNat 32)) :
    Done (.smbusCommandComplete rb) s (fun t => t.board.smb = ⟨none, some (if h = rb then 0 else 7, [])⟩ ∧
      t.fuses.slots = s.fuses.slots.set slot.toNat rb ∧ t.fuses.slotUsed = s.fuses.slotUsed.set slot.toNat true ∧ Frame s t noReg) := by
  have h0 : leNat ((slot :: leBytes h.toNat 32).take 1) = slot.toNat := leNat_one slot
  have h1 : leVec 256 ((slot :: leBytes h.toNat 32).drop 1) = h := leVec_leBytes (by decide) h
  generalize slot :: leBytes h.toNat 32 = l at *
  rw [← h0]
  subst h1
  have hex : exec (.smbusCommandComplete rb) s = .next (slotBlown s (leNat (l.take 1)) rb (if leVec 256 (l.drop 1) = rb then 0 else 7)) := by
    refine congrArg Host.Outcome.next ?_
    rewrite [hp]
    rfl
  exact .next hex ⟨rfl, rfl, rfl, .of_mems rfl, .of_eq rfl⟩

/-- A relayed command for this device runs as one on its own port, and its status goes back (R468). -/
theorem relayedHere {src dst : BitVec 4} {seq : Byte} {l : List Byte} (hr : SmbReady s) (hd : dst.toNat = s.pos) (hl : l.length ≤ 64) {st : Nat} {d : List Byte}
    {u : State} (h : s.smbCommand true (leNat (l.take 1)) (l.drop 1) = (some st, d, u)) : exec (.relayReq true src dst seq l) s =
    .next (u.ropeSend (u.toward src.toNat) 6 src.toNat u.pos seq.toNat (BitVec.ofNat 8 st :: d)) := by
  refine congrArg Host.Outcome.next ((if_neg (by simpa using hl)).trans ((if_neg (by simp [hr.2.1, hd])).trans ?_))
  rw [h]
  rfl

theorem limitRelayed (src dst : BitVec 4) (seq : Byte) (w : BitVec 16) : let d := s.toward src.toNat
    SmbReady s → dst.toNat = s.pos → s.rd (linkFld d) = 1 → s.rd F.ROPE_STATUS_LONG = 0 → 300 ≤ w.toNat → w.toNat ≤ 1200 →
    Done (.relayReq true src dst seq (12 :: leBytes w.toNat 2)) s (fun t => t.rd F.PWR_THERM_LIMIT_W = w.toNat ∧
      t.out = List.append s.out [.rope d 6 src.toNat s.pos seq.toNat [0]] ∧ Frame s t (oneReg .PWR_THERM 0 0)) := by
  intro d hr hd hk hg h1 h2
  have hrun := limit_run hr w
  rw [show s.setLimit w.toNat = (smbOk, s.wr F.PWR_THERM_LIMIT_W 0 0 w.toNat) from if_pos ⟨h1, h2⟩] at hrun
  have hex := relayedHere (src := src) (seq := seq) (l := 12 :: leBytes w.toNat 2) hr hd (by simp [length_leBytes]) hrun
  obtain ⟨l1, l2⟩ := setLimit_shows (s := s) w
  have hw : ∀ f : Fld, f.reg = .ROPE_STATUS → (s.wr F.PWR_THERM_LIMIT_W 0 0 w.toNat).rd f = s.rd f := fun f hf =>
    State.rd_wr_other _ _ _ _ _ _ (.inl (by rw [hf]; decide))
  have ht : (s.wr F.PWR_THERM_LIMIT_W 0 0 w.toNat).toward src.toNat = d := by
    unfold State.toward State.pos
    rw [hw _ rfl]
    rfl
  rw [ht, ropeSend_up ((hw _ (linkFld_fits d).2.2).trans hk) ((hw _ rfl).trans hg), show (s.wr F.PWR_THERM_LIMIT_W 0 0 w.toNat).pos = s.pos from hw _ rfl] at hex
  exact .next hex ⟨l1, rfl, (SendsOnly.emit _ _).after l2⟩

/-- A relay frame for another device goes on toward it (R462). -/
theorem relayPasses (src dst : BitVec 4) (seq : Byte) (l : List Byte) (hl : l.length ≤ 64) (hd : dst.toNat ≠ s.pos) (h15 : dst.toNat ≠ 15) :
    let d := s.toward dst.toNat
    s.rd (linkFld d) = 1 → s.rd F.ROPE_STATUS_LONG = 0 →
    Done (.relayReq true src dst seq l) s (fun t => t.out = List.append s.out [.rope d 5 dst.toNat src.toNat seq.toNat l] ∧ Frame s t noReg) ∧
    Done (.relayRsp true src dst seq l) s (fun t => t.out = List.append s.out [.rope d 6 dst.toNat src.toNat seq.toNat l] ∧ Frame s t noReg) := by
  intro d hk hg
  have hf : ∀ ty, s.ropeForward ty dst.toNat src.toNat seq.toNat l = s.emit (.rope d ty dst.toNat src.toNat seq.toNat l) := fun ty =>
    (ropeForward_toward h15 ..).trans (ropeSend_up hk hg ..)
  have h1 : exec (.relayReq true src dst seq l) s = .next (s.ropeForward 5 dst.toNat src.toNat seq.toNat l) :=
    congrArg Host.Outcome.next ((if_neg (by simpa using hl)).trans (if_pos (by simp [hd])))
  have h2 : exec (.relayRsp true src dst seq l) s = .next (s.ropeForward 6 dst.toNat src.toNat seq.toNat l) :=
    congrArg Host.Outcome.next ((if_neg (by simpa using hl)).trans (if_pos (by simp [hd])))
  rw [hf] at h1 h2
  exact ⟨.next h1 ⟨rfl, (SendsOnly.emit s _).frame⟩, .next h2 ⟨rfl, (SendsOnly.emit s _).frame⟩⟩

/-- A relay that has ended (R462). -/
def relayEnded (s : State) : State := s.modBoard (fun b => { b with relay := none })

theorem relayEnded_shows (s : State) : (relayEnded s).board.relay = none ∧ (relayEnded s).out = s.out ∧ Frame s (relayEnded s) noReg :=
  ⟨rfl, rfl, .of_mems (mems_modBoard ..), .of_eq rfl⟩

/-- A relay's frame repeated, before it is sent (R462). -/
def relayAgain (s : State) (r : RelayX) : State :=
  (s.count C.ROPE_CNT_RETRY).modBoard (fun b => { b with relay := some { r with repeats := r.repeats + 1, sentAt := s.time } })

theorem relayAgain_shows (s : State) (r : RelayX) : let t := relayAgain s r
    t.board.relay = some { r with repeats := r.repeats + 1, sentAt := s.time } ∧ t.ctr C.ROPE_CNT_RETRY = (s.ctr C.ROPE_CNT_RETRY + 1) % 2 ^ 48 ∧
    Frame s t noReg :=
  ⟨rfl, State.ctr_count_same .., .of_mems ((mems_modBoard ..).trans (mems_count ..)), .of_eq rfl⟩

theorem relayAnswered {src dst : BitVec 4} {seq st : Byte} {l : List Byte} {r : RelayX} (hr : s.board.relay = some r) (hv : s.hasPos = true)
    (hd : dst.toNat = s.pos) (hq : r.seq = seq.toNat) (hl : l.length < 64) :
    Done (.relayRsp true src dst seq (st :: l)) s (fun t => t.board.relay = none ∧ Replied s t st.toNat l noReg) := by
  have hex : exec (.relayRsp true src dst seq (st :: l)) s = .next ((relayEnded s).emit (.smb st.toNat l)) := by
    refine congrArg Host.Outcome.next ((if_neg (by simp; omega)).trans ((if_neg (by simp [hv, hd])).trans ?_))
    rewrite [hr, ← leNat_one st]
    exact if_neg (by simp [hq])
  obtain ⟨e1, e2, e3⟩ := relayEnded_shows s
  exact .next hex ⟨e1, repliedAfter _ _ e2 e3⟩

theorem relayRetry_eq {r : RelayX} (hr : s.board.relay = some r) : exec .relayRetry s = .next (
    if s.time < r.sentAt + milli / 5 then s
    else if r.repeats < 3 then (relayAgain s r).ropeSend ((relayAgain s r).toward r.target) 5 r.target (relayAgain s r).pos r.seq r.cmd
    else (relayEnded s).emit (.smb smbRope [])) := by
  refine congrArg Host.Outcome.next ?_
  rewrite [hr]
  rfl

theorem relayRetried {r : RelayX} (hr : s.board.relay = some r) :
    (s.time < r.sentAt + milli / 5 → Done .relayRetry s (fun t => t = s)) ∧
    (r.sentAt + milli / 5 ≤ s.time → r.repeats < 3 → Done .relayRetry s (fun t =>
      t.board.relay = some { r with repeats := r.repeats + 1, sentAt := s.time } ∧
      t.ctr C.ROPE_CNT_RETRY = (s.ctr C.ROPE_CNT_RETRY + 1) % 2 ^ 48 ∧ Frame s t noReg)) ∧
    (r.sentAt + milli / 5 ≤ s.time → 3 ≤ r.repeats → Done .relayRetry s (fun t => t.board.relay = none ∧ Replied s t 9 [] noReg)) := by
  have hex := relayRetry_eq hr
  refine ⟨fun h => .next (hex.trans (congrArg _ (if_pos h))) rfl, fun h h3 => ?_, fun h h3 => ?_⟩
  · rw [if_neg (by omega), if_pos h3] at hex
    obtain ⟨a1, a2, a3⟩ := relayAgain_shows s r
    generalize relayAgain s r = u at *
    have ho := ropeSend_only u (u.toward r.target) 5 r.target u.pos r.seq r.cmd
    refine .next hex ⟨(congrArg BoardX.relay ho.board).trans a1, ?_, ho.after a3⟩
    unfold State.ctr at a2 ⊢
    rw [ho.counters]
    exact a2
  · rw [if_neg (by omega), if_neg (by omega)] at hex
    obtain ⟨e1, e2, e3⟩ := relayEnded_shows s
    exact .next hex ⟨e1, repliedAfter 9 [] e2 e3⟩

end

/-- Relays and completions, as R462, R466 and R468 give them. -/
theorem relaysAndCompletions : RelaysAndCompletions := fun _ =>
  ⟨slotProgrammed, limitRelayed, relayPasses, fun _ _ _ _ _ _ hr => ⟨relayAnswered hr, relayRetried hr⟩⟩

/-- Settles O40. -/
theorem ropeCarriesFrames : Obligations.RopeCarriesFrames := ⟨ropeLinksAndPositions, relaysAndCompletions⟩

end Sys2Proof.Proofs
end

section
/-! PROOF. Events to the hosts, self-tests, health records and the port's lanes (R33, R379 to R384, R391, R447). -/

namespace Sys2Proof.Proofs

open Sys2Proof Sys2Proof.Machine

/-! ### Events -/

/-- Queue pairs and the Gate's counters apart, what a record of an event leaves as it is (R447). -/
structure EventKeeps (s t : State) : Prop where
  regs : t.regs = s.regs
  hut : t.hut = s.hut
  sites : t.sites = s.sites
  cfg : t.cfg = s.cfg
  board : t.board = s.board
  cycles : t.cycles = s.cycles
  laneDown : t.gate.laneDown = s.gate.laneDown
  ctr : ∀ (c : Ctr) a, c.address a ≠ C.GATE_CNT_EVTLOST.address 0 → c.address a ≠ C.GATE_CNT_TXBYTES.address 0 → t.ctr c a = s.ctr c a
  mems : mems t = mems s

theorem EventKeeps.refl (s : State) : EventKeeps s s := ⟨rfl, rfl, rfl, rfl, rfl, rfl, rfl, fun _ _ _ _ => rfl, rfl⟩

section
variable {s t u : State}

theorem EventKeeps.trans (h : EventKeeps s t) (k : EventKeeps t u) : EventKeeps s u :=
  ⟨k.regs.trans h.regs, k.hut.trans h.hut, k.sites.trans h.sites, k.cfg.trans h.cfg, k.board.trans h.board, k.cycles.trans h.cycles,
    k.laneDown.trans h.laneDown, fun c a h1 h2 => (k.ctr c a h1 h2).trans (h.ctr c a h1 h2), k.mems.trans h.mems⟩

theorem EventKeeps.rd (h : EventKeeps s t) (f : Fld) (a i : Nat := 0) : t.rd f a i = s.rd f a i := rd_of_regs h.regs f a i

theorem EventKeeps.after {R : RegName → Nat → Nat → Prop} (h : EventKeeps s t) (hu : Frame u s R) : Frame u t R :=
  ⟨hu.1.trans (.of_mems h.mems), hu.2.trans (.of_eq h.regs)⟩

end

theorem eventTo_keeps (s : State) (n k : Nat) (b : List Nat) : EventKeeps s (s.eventTo n k b) := by
  obtain ⟨v, hv, he⟩ : ∃ v : State, EventKeeps s v ∧ (s.eventTo n k b =
      (v.modQp n (fun x => { x with lost := true })).count C.GATE_CNT_EVTLOST ∨ s.eventTo n k b =
      ((v.modQp n (fun x => { x with eqUsed := x.eqUsed + 1, lost := false })).count C.GATE_CNT_TXBYTES 0 32).emit
        (.event n k (s.qp n).lost (v.pitch % 2 ^ 32) b)) := by
    refine ⟨if decide ((s.qp n).eqUsed ≥ 2 ^ (s.qp n).eqLog2) then s.fresh.2 else s, ?_, ?_⟩
    · split
      · exact ⟨rfl, rfl, rfl, rfl, rfl, rfl, rfl, fun _ _ _ _ => rfl, rfl⟩
      · exact .refl s
    · exact ite_eq_or_eq ..
  refine hv.trans ?_
  rcases he with he | he
  · rw [he]
    exact ⟨rfl, rfl, rfl, rfl, rfl, rfl, rfl, fun c a h1 _ => State.ctr_count_ne _ _ h1, (mems_count ..).trans (mems_modQp ..)⟩
  · rw [he]
    exact ⟨rfl, rfl, rfl, rfl, rfl, rfl, rfl, fun c a _ h2 => State.ctr_count_ne _ _ h2, (mems_emit ..).trans ((mems_count ..).trans (mems_modQp ..))⟩

theorem event_keeps (s : State) (to_ : Nat → Bool) (k : Nat) (b : List Nat) : EventKeeps s (s.event to_ k b) := by
  unfold State.event
  generalize (s.gate.qps.map Prod.fst).filter (fun n => s.qpOpen n && to_ n) = l
  induction l generalizing s with
  | nil => exact .refl s
  | cons n l ih => exact (eventTo_keeps s n k b).trans (ih _)

/-! ### Self-tests -/

section
variable {s : State} {spur : SpurNo}

/-- A self-test that has begun (R33, R383). -/
theorem beginTest_shows (s : State) (n : Nat) : let t := s.beginTest n
    n ∈ t.hut.testing ∧ (t.seq (siteOfSpur n)).selfTest = true ∧ t.ctr C.HUT_CNT_SELFTEST = (s.ctr C.HUT_CNT_SELFTEST + 1) % 2 ^ 48 ∧
    aget t.hut.lastTest n = some s.pitch ∧ Frame s t noReg := by
  refine ⟨List.mem_cons_self, congrArg SeqX.selfTest (State.seq_modSeq_same ..), State.ctr_count_same .., aget_aput_same .., ?_, .of_eq rfl⟩
  refine .of_mems ?_
  unfold State.beginTest
  simp

theorem dueTestBegins {st : Nat} {k : Instr} (hn : spur.toNat < 192) (hc : s.cycle = 0) (hd : s.testDue spur.toNat = true) (hm : s.mayTest spur.toNat = true)
    (hs : s.rd F.HUT_SPUR_HEALTH_STATE 0 spur.toNat = st) (hk : exec k s = .next (s.dueTest spur.toNat st)) : Done k s (fun t =>
      spur.toNat ∈ t.hut.testing ∧ (t.seq (siteOfSpur spur.toNat)).selfTest = true ∧
      t.ctr C.HUT_CNT_SELFTEST = (s.ctr C.HUT_CNT_SELFTEST + 1) % 2 ^ 48 ∧ aget t.hut.lastTest spur.toNat = some s.pitch ∧ Frame s t noReg) := by
  rw [show s.dueTest spur.toNat st = s.beginTest spur.toNat from if_pos ⟨hn, hc, hs, hd, hm⟩] at hk
  exact .next hk (beginTest_shows s spur.toNat)

/-- A self-test that has ended, before its result is judged (R384). -/
def testEnded (s : State) (n : Nat) : State :=
  (s.modHut (fun h => { h with testing := h.testing.filter (fun x => x != n) })).modSeq (siteOfSpur n) (fun q => { q with selfTest := false })

theorem testEnded_shows (s : State) (n : Nat) : let t := testEnded s n
    n ∉ t.hut.testing ∧ (t.seq (siteOfSpur n)).selfTest = false ∧ t.hut.failedTests = s.hut.failedTests ∧ t.regs = s.regs ∧ Frame s t noReg := by
  refine ⟨?_, congrArg SeqX.selfTest (State.seq_modSeq_same ..), rfl, rfl, .of_mems ((mems_modSeq ..).trans (mems_modHut ..)), .of_eq rfl⟩
  change n ∉ s.hut.testing.filter (fun x => x != n)
  simp

theorem selftest_eq (ht : s.hut.testing.contains spur.toNat = true) (sg : Word) : exec (.selftestComplete spur sg) s =
    .next ((testEnded s spur.toNat).testResult spur.toNat (sg == s.fuses.signature)) :=
  congrArg Host.Outcome.next (if_neg (by rw [ht]; decide))

theorem testFails (ht : s.hut.testing.contains spur.toNat = true) {sg : Word} (hg : sg ≠ s.fuses.signature) :
    Done (.selftestComplete spur sg) s (fun t => spur.toNat ∉ t.hut.testing ∧ (t.seq (siteOfSpur spur.toNat)).selfTest = false ∧
      t.hut.failedTests = List.append s.hut.failedTests [spur.toNat] ∧ Frame s t noReg) := by
  have hex := selftest_eq ht sg
  rw [beq_eq_false_iff_ne.mpr hg] at hex
  obtain ⟨e1, e2, e3, e4, e5⟩ := testEnded_shows s spur.toNat
  generalize testEnded s spur.toNat = u at *
  exact .next hex ⟨e1, e2, congrArg (fun l => List.append l [spur.toNat]) e3, e5.1.trans (.of_mems (mems_modHut ..)), e5.2.trans (.of_eq rfl)⟩

/-- A Spur that becomes Healthy (Table 14-2). -/
theorem spurTo_healthy (u : State) (n : Nat) : let t := u.spurTo n 0
    t.hut.testing = u.hut.testing ∧ t.sites = u.sites ∧ t.rd F.HUT_SPUR_HEALTH_STATE 0 n = 0 ∧ Frame u t (oneReg .HUT_SPUR_HEALTH 0 n) := by
  obtain ⟨w, hw, hs⟩ : ∃ w : State, w = u.wrs 0 n [(F.HUT_SPUR_HEALTH_STATE, 0), (F.HUT_SPUR_HEALTH_PRIOR, 0), (F.HUT_SPUR_HEALTH_WATCH_LEFT, 0),
      (F.HUT_SPUR_HEALTH_PITCH, u.pitch)] ∧ u.spurTo n 0 = w.spurRecord n := ⟨_, rfl, rfl⟩
  have hr : w.rd F.HUT_SPUR_HEALTH_STATE 0 n = 0 := by
    rw [hw]
    simp (disch := decide) only [State.wrs, List.foldl, State.rd_wr_self, State.rd_wr_other]
    decide
  have hf : Frame u w (oneReg .HUT_SPUR_HEALTH 0 n) := by
    rw [hw]
    exact Frame.wrs u (by simp [oneReg, F.HUT_SPUR_HEALTH_STATE, F.HUT_SPUR_HEALTH_PRIOR, F.HUT_SPUR_HEALTH_WATCH_LEFT, F.HUT_SPUR_HEALTH_PITCH])
  have hh : w.hut = u.hut ∧ w.sites = u.sites := by
    rw [hw]
    exact ⟨State.wrs_hut .., State.wrs_sites ..⟩
  rw [hs]
  exact ⟨(show (w.spurRecord n).hut.testing = w.hut.testing from rfl).trans (congrArg HutX.testing hh.1), hh.2, hr, hf.1.trans (.of_mems (mems_modHut ..)), hf.2.trans (.of_eq rfl)⟩

theorem testPasses (ht : s.hut.testing.contains spur.toNat = true) {sg : Word} (hg : sg = s.fuses.signature)
    (hw : s.rd F.HUT_SPUR_HEALTH_STATE 0 spur.toNat = 2) : Done (.selftestComplete spur sg) s (fun t =>
      spur.toNat ∉ t.hut.testing ∧ (t.seq (siteOfSpur spur.toNat)).selfTest = false ∧
      (s.rd F.HUT_SPUR_HEALTH_WATCH_LEFT 0 spur.toNat ≤ 1 → t.rd F.HUT_SPUR_HEALTH_STATE 0 spur.toNat = 0) ∧
      (2 ≤ s.rd F.HUT_SPUR_HEALTH_WATCH_LEFT 0 spur.toNat → t.rd F.HUT_SPUR_HEALTH_STATE 0 spur.toNat = 2 ∧
        t.rd F.HUT_SPUR_HEALTH_WATCH_LEFT 0 spur.toNat = s.rd F.HUT_SPUR_HEALTH_WATCH_LEFT 0 spur.toNat - 1) ∧
      Frame s t (oneReg .HUT_SPUR_HEALTH 0 spur.toNat)) := by
  have hex := selftest_eq ht sg
  rw [beq_iff_eq.mpr hg] at hex
  obtain ⟨e1, e2, -, e4, e5⟩ := testEnded_shows s spur.toNat
  have hrd : ∀ f, (testEnded s spur.toNat).rd f 0 spur.toNat = s.rd f 0 spur.toNat := fun f => rd_of_regs e4 f 0 _
  generalize testEnded s spur.toNat = u at *
  have hr : u.testResult spur.toNat true = if s.rd F.HUT_SPUR_HEALTH_WATCH_LEFT 0 spur.toNat - 1 = 0 then u.spurTo spur.toNat 0
      else u.wr F.HUT_SPUR_HEALTH_WATCH_LEFT 0 spur.toNat (s.rd F.HUT_SPUR_HEALTH_WATCH_LEFT 0 spur.toNat - 1) := by
    rw [← hrd]
    exact (if_neg (by decide)).trans (if_pos ((hrd _).trans hw))
  rw [hr] at hex
  have hlt : s.rd F.HUT_SPUR_HEALTH_WATCH_LEFT 0 spur.toNat < 2 ^ F.HUT_SPUR_HEALTH_WATCH_LEFT.width := fieldGet_lt _ _
  generalize s.rd F.HUT_SPUR_HEALTH_WATCH_LEFT 0 spur.toNat = n at *
  have hfr : Frame s u (oneReg .HUT_SPUR_HEALTH 0 spur.toNat) := ⟨e5.1, e5.2.mono (fun _ _ _ h => h.elim)⟩
  by_cases h1 : n ≤ 1
  · obtain ⟨s1, s2, s3, s4⟩ := spurTo_healthy u spur.toNat
    rw [if_pos (by omega)] at hex
    generalize u.spurTo spur.toNat 0 = w at *
    refine .next hex ⟨by rw [s1]; exact e1, ?_, fun _ => s3, fun h => absurd h (by omega), hfr.1.trans s4.1, hfr.2.trans s4.2⟩
    unfold State.seq State.site at e2 ⊢
    rw [s2]
    exact e2
  · rw [if_neg (by omega)] at hex
    refine .next hex ⟨e1, e2, fun h => absurd h h1, fun _ => ⟨?_, ?_⟩, hfr.1.trans (.of_mems (mems_wr ..)), hfr.2.wr (f := F.HUT_SPUR_HEALTH_WATCH_LEFT) _ ⟨rfl, rfl, rfl⟩⟩
    · exact (State.rd_wr_other _ _ _ _ _ _ (by decide)).trans ((hrd _).trans hw)
    · exact (State.rd_wr_self _ _ _ _ _ (by decide)).trans (Nat.mod_eq_of_lt (by omega))

end

theorem selfTestsRun : SelfTestsRun := by
  intro s spur hn
  exact ⟨fun hc hd hm => ⟨fun hs => dueTestBegins hn hc hd hm hs rfl, fun hs => dueTestBegins hn hc hd hm hs rfl⟩,
    fun ht sg => ⟨testFails ht, testPasses ht⟩⟩

/-! ### Health records -/

section
variable {s : State} {r : HRec} {rest : List HRec}

/-- The oldest record that waits, taken (R391). -/
def recordTaken (s : State) (rest : List HRec) : State := s.modHut (fun h => { h with recPend := rest })

/-- A record stored (R391). -/
def recordStored (s : State) (r : HRec) : State := (s.modHut (fun h => { h with recs := List.append h.recs [r] })).alert 2

theorem recordStored_shows (s : State) (r : HRec) : let t := recordStored s r
    t.hut.recs = List.append s.hut.recs [r] ∧ t.hut.recPend = s.hut.recPend ∧ t.regs = s.regs ∧ mems t = mems s :=
  ⟨rfl, rfl, rfl, (mems_alert ..).trans (mems_modHut ..)⟩

theorem recordAppended (hp : s.hut.recPend = r :: rest) (hs : s.hut.recs.length < storeSize) :
    Done (.healthRecordAppend true) s (fun t => t.hut.recs = List.append s.hut.recs [r] ∧ t.hut.recPend = rest ∧
      t.rd F.HUT_HREC_STATUS_USED = (s.hut.recs.length + 1) % 2 ^ 15 ∧ Frame s t (oneReg .HUT_HREC_STATUS 0 0)) := by
  have hex : exec (.healthRecordAppend true) s = .next ((recordStored (recordTaken s rest) r).wr F.HUT_HREC_STATUS_USED 0 0
      (recordStored (recordTaken s rest) r).hut.recs.length) := by
    refine congrArg Host.Outcome.next ?_
    rewrite [hp]
    refine (if_neg (by decide)).trans ?_
    dsimp only
    rw [if_neg (show ¬ (s.modHut (fun h => { h with recPend := rest })).hut.recs.length ≥ storeSize from by exact Nat.not_le.mpr hs)]
    rfl
  obtain ⟨r1, r2, r3, r4⟩ := recordStored_shows (recordTaken s rest) r
  have hm : mems (recordTaken s rest) = mems s := mems_modHut ..
  have hl : (recordStored (recordTaken s rest) r).hut.recs.length = s.hut.recs.length + 1 := by
    rw [r1]
    exact List.length_append ..
  rw [hl] at hex
  generalize recordStored (recordTaken s rest) r = u at *
  exact .next hex ⟨r1, r2, State.rd_wr_self _ _ _ _ _ (by decide), .of_mems ((mems_wr ..).trans (r4.trans hm)),
    (SameRegs.of_eq r3).wr (f := F.HUT_HREC_STATUS_USED) _ ⟨rfl, rfl, rfl⟩⟩

theorem recordLost (hp : s.hut.recPend = r :: rest) : Done (.healthRecordAppend false) s (fun t =>
    t.hut.recs = s.hut.recs ∧ t.hut.recPend = rest ∧ t.rd F.HUT_HREC_STATUS_WERR = 1 ∧ Frame s t (oneReg .HUT_HREC_STATUS 0 0)) := by
  have hex : exec (.healthRecordAppend false) s = .next ((recordTaken s rest).noteFlag F.HUT_HREC_STATUS_WERR 0 0) := by
    refine congrArg Host.Outcome.next ?_
    rewrite [hp]
    rfl
  exact .next hex ⟨rfl, rfl, rd_noteFlag_self _ _ _ _ (by decide), .of_mems ((mems_noteFlag ..).trans (mems_modHut ..)),
    (SameRegs.of_eq rfl).note (r := .HUT_HREC_STATUS) _ ⟨rfl, rfl, rfl⟩⟩

end

end Sys2Proof.Proofs
end

section
/-! PROOF. The Ethernet lanes: their failure marks and the retraining of the port (R379 to R381). -/

namespace Sys2Proof.Proofs

open Sys2Proof Sys2Proof.Machine

/-! ### Failure marks -/

/-- A power of 2 added where its bit is clear carries nowhere. -/
theorem add_two_pow_div {n l m : Nat} (h : n / 2 ^ l % 2 = 0) (hm : l < m) : (n + 2 ^ l) / 2 ^ m = n / 2 ^ m := by
  obtain ⟨k, rfl⟩ : ∃ k, m = l + 1 + k := ⟨m - (l + 1), by omega⟩
  have hl : (n + 2 ^ l) / 2 ^ l = n / 2 ^ l + 1 := Nat.add_div_right n (Nat.two_pow_pos l)
  rw [pow_add, pow_add, ← Nat.div_div_eq_div_mul, ← Nat.div_div_eq_div_mul, ← Nat.div_div_eq_div_mul, ← Nat.div_div_eq_div_mul, hl]
  congr 1
  omega

/-- It leaves every other bit as it is, and sets its own. -/
theorem add_two_pow_bit {n l : Nat} (h : n / 2 ^ l % 2 = 0) (m : Nat) : (n + 2 ^ l) / 2 ^ m % 2 = if m = l then 1 else n / 2 ^ m % 2 := by
  rcases Nat.lt_trichotomy l m with hm | rfl | hm
  · rw [add_two_pow_div h hm, if_neg (by omega)]
  · rw [if_pos rfl, Nat.add_div_right n (Nat.two_pow_pos l)]
    omega
  · obtain ⟨k, rfl⟩ : ∃ k, l = m + 1 + k := ⟨l - (m + 1), by omega⟩
    rw [if_neg (by omega), show (2 : Nat) ^ (m + 1 + k) = (2 * 2 ^ k) * 2 ^ m by ring, Nat.add_mul_div_right _ _ (Nat.two_pow_pos m)]
    omega

theorem add_two_pow_lt {n l w : Nat} (h : n / 2 ^ l % 2 = 0) (hl : l < w) (hn : n < 2 ^ w) : n + 2 ^ l < 2 ^ w := by
  have e := add_two_pow_div h hl
  rw [Nat.div_eq_of_lt hn] at e
  exact (Nat.div_eq_zero_iff_lt (Nat.two_pow_pos w)).mp e

/-- A lane that fails at the fast rate is marked, unless it is already (R379). -/
def markLane (s : State) (l : Nat) : State :=
  if s.laneMarked false l then s else s.wr F.GATE_LANE_HEALTH_FAIL_HI 0 0 (s.rd F.GATE_LANE_HEALTH_FAIL_HI + 2 ^ l)

theorem laneMarked_iff (s : State) (l : Nat) : s.laneMarked false l = true ↔ s.rd F.GATE_LANE_HEALTH_FAIL_HI / 2 ^ l % 2 = 1 := by
  unfold State.laneMarked
  exact beq_iff_eq

theorem markLane_shows (s : State) {l : Nat} (hl : l < 8) : (markLane s l).laneMarked false l = true ∧
    (∀ m, s.laneMarked false m = true → (markLane s l).laneMarked false m = true) ∧ Frame s (markLane s l) (oneReg .GATE_LANE_HEALTH 0 0) := by
  unfold markLane
  by_cases h : s.laneMarked false l = true
  · rw [if_pos h]
    exact ⟨h, fun m hm => hm, .refl ..⟩
  · rw [if_neg h]
    rw [laneMarked_iff] at h
    have h0 : s.rd F.GATE_LANE_HEALTH_FAIL_HI / 2 ^ l % 2 = 0 := by omega
    have hlt := add_two_pow_lt h0 hl (fieldGet_lt F.GATE_LANE_HEALTH_FAIL_HI (s.word .GATE_LANE_HEALTH 0 0))
    have hr : (s.wr F.GATE_LANE_HEALTH_FAIL_HI 0 0 (s.rd F.GATE_LANE_HEALTH_FAIL_HI + 2 ^ l)).rd F.GATE_LANE_HEALTH_FAIL_HI =
        s.rd F.GATE_LANE_HEALTH_FAIL_HI + 2 ^ l := (State.rd_wr_self _ _ _ _ _ (by decide)).trans (Nat.mod_eq_of_lt hlt)
    refine ⟨?_, fun m hm => ?_, Frame.wr s _ ⟨rfl, rfl, rfl⟩⟩
    · rw [laneMarked_iff, hr, add_two_pow_bit h0, if_pos rfl]
    · rw [laneMarked_iff] at hm ⊢
      rw [hr, add_two_pow_bit h0]
      split
      · rfl
      · exact hm

theorem markLanes_shows : ∀ (l : List Nat) (s : State), (∀ m ∈ l, m < 8) →
    (∀ m ∈ l, (l.foldl markLane s).laneMarked false m = true) ∧ (∀ m, s.laneMarked false m = true → (l.foldl markLane s).laneMarked false m = true) ∧
    Frame s (l.foldl markLane s) (oneReg .GATE_LANE_HEALTH 0 0)
  | [], s, _ => ⟨fun _ h => (List.not_mem_nil h).elim, fun _ h => h, .refl ..⟩
  | x :: l, s, h => by
    obtain ⟨x1, x2, x3⟩ := markLane_shows s (h x List.mem_cons_self)
    obtain ⟨l1, l2, l3⟩ := markLanes_shows l (markLane s x) (fun m hm => h m (List.mem_cons_of_mem _ hm))
    refine ⟨fun m hm => ?_, fun m hm => l2 m (x2 m hm), x3.1.trans l3.1, x3.2.trans l3.2⟩
    rcases List.mem_cons.mp hm with rfl | hm
    · exact l2 m x1
    · exact l1 m hm

/-! ### A window of the lanes -/

theorem lanesOfWidth_lt {c p l : Nat} (hp : p < 4) (hl : l ∈ lanesOfWidth c p) : l < 8 := by
  unfold lanesOfWidth at hl
  split at hl
  · exact List.mem_range.mp hl
  · revert l
    decide
  · revert l
    decide
  · exact List.mem_range.mp hl
  · simp only [List.mem_cons, List.not_mem_nil, or_false] at hl
    omega
  · exact (List.not_mem_nil hl).elim

/-- The windows in succession in which each lane of the port has erred (R379). -/
def laneCounts (s : State) (lost : BitVec 8) (errors : List (BitVec 32)) : List (Nat × Nat) :=
  (lanesOfWidth (s.rd F.GATE_LANE_HEALTH_WIDTH) (s.rd F.GATE_LANE_HEALTH_PAIR)).map (fun l =>
    (l, if (lost.getLsbD l || decide ((errors.getD l 0).toNat > s.rd F.GATE_LANE_HEALTH_LANE_SER_MAX)) then (aget s.gate.laneBad l).getD 0 + 1 else 0))

/-- The lanes that have erred in three windows in succession. -/
def lanesFailed (s : State) (lost : BitVec 8) (errors : List (BitVec 32)) : List Nat :=
  ((laneCounts s lost errors).filter (fun x => decide (x.2 ≥ 3))).map Prod.fst

theorem lanesFailed_lt {s : State} {lost : BitVec 8} {errors : List (BitVec 32)} : ∀ l ∈ lanesFailed s lost errors, l < 8 := by
  intro l hl
  obtain ⟨x, hx, rfl⟩ := List.mem_map.mp hl
  obtain ⟨m, hm, rfl⟩ := List.mem_map.mp (List.mem_of_mem_filter hx)
  exact lanesOfWidth_lt (fieldGet_lt F.GATE_LANE_HEALTH_PAIR (s.word .GATE_LANE_HEALTH 0 0)) hm

theorem mem_lanesFailed {s : State} {lost : BitVec 8} {errors : List (BitVec 32)} {l : Nat}
    (hl : l ∈ lanesOfWidth (s.rd F.GATE_LANE_HEALTH_WIDTH) (s.rd F.GATE_LANE_HEALTH_PAIR)) (hb : lost.getLsbD l = true) (h2 : 2 ≤ (aget s.gate.laneBad l).getD 0) :
    l ∈ lanesFailed s lost errors := by
  refine List.mem_map.mpr ⟨_, List.mem_filter.mpr ⟨List.mem_map_of_mem hl, ?_⟩, rfl⟩
  rw [hb, Bool.true_or, if_pos rfl]
  exact decide_eq_true (by omega)

/-- A window of the lanes that is over (R379). -/
def windowTaken (s : State) : State := s.modGate (fun g => { g with windowAt := some s.time })

/-- The port down, with the lanes that took it down (R379). -/
def portDown (s : State) (failed : List Nat) : State :=
  (s.wrs 0 0 [(F.GATE_LANE_HEALTH_WIDTH, 0), (F.GATE_LANE_HEALTH_PAIR, 0)]).modGate (fun g => { g with laneBad := [], laneDown := failed.map (fun l => (l, 0)) })

theorem portDown_shows (s : State) (failed : List Nat) : let t := portDown s failed
    t.rd F.GATE_LANE_HEALTH_WIDTH = 0 ∧ t.rd F.GATE_LANE_HEALTH_FAIL_HI = s.rd F.GATE_LANE_HEALTH_FAIL_HI ∧ t.gate.laneDown = failed.map (fun l => (l, 0)) ∧
    Frame s t (oneReg .GATE_LANE_HEALTH 0 0) := by
  have hf : Frame s (s.wrs 0 0 [(F.GATE_LANE_HEALTH_WIDTH, 0), (F.GATE_LANE_HEALTH_PAIR, 0)]) (oneReg .GATE_LANE_HEALTH 0 0) :=
    Frame.wrs s (by simp [oneReg, F.GATE_LANE_HEALTH_WIDTH, F.GATE_LANE_HEALTH_PAIR])
  refine ⟨?_, ?_, rfl, hf.1.trans (.of_mems (mems_modGate ..)), hf.2.trans (.of_eq rfl)⟩
  · change (s.wrs 0 0 [(F.GATE_LANE_HEALTH_WIDTH, 0), (F.GATE_LANE_HEALTH_PAIR, 0)]).rd F.GATE_LANE_HEALTH_WIDTH = 0
    simp (disch := decide) only [State.wrs, List.foldl, State.rd_wr_self, State.rd_wr_other]
    decide
  · change (s.wrs 0 0 [(F.GATE_LANE_HEALTH_WIDTH, 0), (F.GATE_LANE_HEALTH_PAIR, 0)]).rd F.GATE_LANE_HEALTH_FAIL_HI = _
    simp (disch := decide) only [State.wrs, List.foldl, State.rd_wr_other]

theorem laneWindow_eq {s : State} (lost : BitVec 8) (errors : List (BitVec 32)) (hw : s.windowOver = true)
    (hs : slowWidth (s.rd F.GATE_LANE_HEALTH_WIDTH) = false) (hf : lanesFailed s lost errors ≠ []) : exec (.laneWindow lost errors) s =
    .next (portDown ((lanesFailed s lost errors).foldl markLane (windowTaken s)) (lanesFailed s lost errors)) := by
  have hex : exec (.laneWindow lost errors) s = .next (if !s.windowOver then s else
      if lanesFailed s lost errors = [] then (windowTaken s).modGate (fun g => { g with laneBad := laneCounts s lost errors })
      else ((((lanesFailed s lost errors).foldl (fun s' l => if s'.laneMarked (slowWidth (s.rd F.GATE_LANE_HEALTH_WIDTH)) l then s'
          else s'.wr (if slowWidth (s.rd F.GATE_LANE_HEALTH_WIDTH) then F.GATE_LANE_HEALTH_FAIL_LO else F.GATE_LANE_HEALTH_FAIL_HI) 0 0
            (s'.rd (if slowWidth (s.rd F.GATE_LANE_HEALTH_WIDTH) then F.GATE_LANE_HEALTH_FAIL_LO else F.GATE_LANE_HEALTH_FAIL_HI) + 2 ^ l)) (windowTaken s)).wrs 0 0
          [(F.GATE_LANE_HEALTH_WIDTH, 0), (F.GATE_LANE_HEALTH_PAIR, 0)]).modGate (fun g =>
        { g with laneBad := [], laneDown := (lanesFailed s lost errors).map (fun l => (l, if slowWidth (s.rd F.GATE_LANE_HEALTH_WIDTH) then 1 else 0)) }))) := rfl
  rw [hs, if_neg (by rw [hw]; decide), if_neg hf] at hex
  exact hex

theorem laneFails {s : State} (lost : BitVec 8) (errors : List (BitVec 32)) {l : Nat} (hw : s.windowOver = true)
    (hs : slowWidth (s.rd F.GATE_LANE_HEALTH_WIDTH) = false) (hl : l ∈ lanesOfWidth (s.rd F.GATE_LANE_HEALTH_WIDTH) (s.rd F.GATE_LANE_HEALTH_PAIR))
    (hb : lost.getLsbD l = true) (h2 : 2 ≤ (aget s.gate.laneBad l).getD 0) : Done (.laneWindow lost errors) s (fun t =>
      t.laneMarked false l = true ∧ t.rd F.GATE_LANE_HEALTH_WIDTH = 0 ∧ (l, 0) ∈ t.gate.laneDown ∧ Frame s t (oneReg .GATE_LANE_HEALTH 0 0)) := by
  have hm := mem_lanesFailed (errors := errors) hl hb h2
  have hex := laneWindow_eq lost errors hw hs (List.ne_nil_of_mem hm)
  obtain ⟨m1, -, m3⟩ := markLanes_shows (lanesFailed s lost errors) (windowTaken s) lanesFailed_lt
  have hmark := m1 l hm
  have h0 : Frame s (windowTaken s) (oneReg .GATE_LANE_HEALTH 0 0) := ⟨.of_mems (mems_modGate ..), .of_eq rfl⟩
  generalize lanesFailed s lost errors = f at *
  generalize f.foldl markLane (windowTaken s) = u at *
  obtain ⟨p1, p2, p3, p4⟩ := portDown_shows u f
  generalize portDown u f = t at *
  refine .next hex ⟨?_, p1, ?_, h0.1.trans (m3.1.trans p4.1), h0.2.trans (m3.2.trans p4.2)⟩
  · rw [laneMarked_iff] at hmark ⊢
    rw [p2]
    exact hmark
  · rw [p3]
    exact List.mem_map_of_mem hm

/-! ### Retraining -/

/-- The port's width and pair as GATE_LANE_HEALTH shows them (R380). -/
def widthShown (s : State) (c p : Nat) : State := s.wrs 0 0 [(F.GATE_LANE_HEALTH_WIDTH, c), (F.GATE_LANE_HEALTH_PAIR, p)]

theorem widthShown_shows (s : State) {c : Nat} (hc : c < 8) (p : Nat) : let t := widthShown s c p
    t.rd F.GATE_LANE_HEALTH_WIDTH = c ∧ t.counters = s.counters ∧ t.hut = s.hut ∧ t.sites = s.sites ∧ Frame s t (oneReg .GATE_LANE_HEALTH 0 0) := by
  unfold widthShown
  refine ⟨?_, State.wrs_counters .., State.wrs_hut .., State.wrs_sites .., Frame.wrs s (by simp [oneReg, F.GATE_LANE_HEALTH_WIDTH, F.GATE_LANE_HEALTH_PAIR])⟩
  simp (disch := decide) only [State.wrs, List.foldl, State.rd_wr_self, State.rd_wr_other]
  exact Nat.mod_eq_of_lt hc

/-- A retraining counted and recorded, and the lanes' windows begun anew (R380, R381). -/
def retrainNoted (v : State) (c l rate : Nat) : State :=
  ((v.count C.GATE_CNT_RETRAIN).record 5 l false [rate, c]).modGate (fun g => { g with laneDown := [], laneBad := [], trainedAt := some v.time })

theorem retrainNoted_shows (v : State) (c l rate : Nat) : let t := retrainNoted v c l rate
    t.regs = v.regs ∧ t.gate.laneDown = [] ∧ t.ctr C.GATE_CNT_RETRAIN = (v.ctr C.GATE_CNT_RETRAIN + 1) % 2 ^ 48 ∧
    t.hut.sects = v.hut.sects ∧ t.sites = v.sites ∧ mems t = mems v := by
  refine ⟨rfl, rfl, State.ctr_count_same .., rfl, rfl, ?_⟩
  unfold retrainNoted
  simp

/-- The port at a width, before its event (R380, R381). -/
def portTrained (s : State) (c p l rate : Nat) : State := retrainNoted (widthShown s c p) c l rate

theorem portTrained_shows (s : State) {c : Nat} (hc : c < 8) (p l rate : Nat) : let t := portTrained s c p l rate
    t.rd F.GATE_LANE_HEALTH_WIDTH = c ∧ t.gate.laneDown = [] ∧ t.ctr C.GATE_CNT_RETRAIN = (s.ctr C.GATE_CNT_RETRAIN + 1) % 2 ^ 48 ∧
    t.hut.sects = s.hut.sects ∧ t.sites = s.sites ∧ Frame s t (oneReg .GATE_LANE_HEALTH 0 0) := by
  obtain ⟨w1, w2, w3, w4, w5⟩ := widthShown_shows s hc p
  unfold portTrained
  have hc : (widthShown s c p).ctr C.GATE_CNT_RETRAIN = s.ctr C.GATE_CNT_RETRAIN := by
    unfold State.ctr
    rw [w2]
  generalize widthShown s c p = v at *
  obtain ⟨n1, n2, n3, n4, n5, n6⟩ := retrainNoted_shows v c l rate
  exact ⟨(rd_of_regs n1 _ _ _).trans w1, n2, by rw [n3, hc], n4.trans (congrArg HutX.sects w3), n5.trans w4,
    w5.1.trans (.of_mems n6), w5.2.trans (.of_eq n1)⟩

theorem pickWidth_lt (s : State) (trains : Nat × Nat → Bool) : (s.pickWidth trains).1 < 8 := by
  unfold State.pickWidth
  generalize h : widthOrder.find? _ = o
  match o with
  | none => exact (by decide : 0 < 8)
  | some (c, p, q) =>
    have hall : ∀ w ∈ widthOrder, w.1 < 8 := by decide
    exact hall _ (List.mem_of_find?_eq_some h)

/-- The width a port takes of those that train (R380). -/
def widthTaken (s : State) (trains : List (BitVec 3 × BitVec 2)) : Nat × Nat :=
  s.pickWidth (fun w => trains.any (fun y => y.1.toNat == w.1 && (w.1 != 5 || y.2.toNat == w.2)))

/-- What a retraining of the port shows (R380, R381). -/
def Retrained (s t : State) (trains : List (BitVec 3 × BitVec 2)) : Prop :=
  t.rd F.GATE_LANE_HEALTH_WIDTH = (widthTaken s trains).1 ∧ t.gate.laneDown = [] ∧
  t.ctr C.GATE_CNT_RETRAIN = (s.ctr C.GATE_CNT_RETRAIN + 1) % 2 ^ 48 ∧ t.hut.sects = s.hut.sects ∧ t.sites = s.sites ∧
  Frame s t (oneReg .GATE_LANE_HEALTH 0 0)

theorem retrain_shows (s : State) (trains : List (BitVec 3 × BitVec 2)) : Retrained s (s.retrain trains) trains := by
  obtain ⟨l, rate, he⟩ : ∃ l rate, s.retrain trains = (portTrained s (widthTaken s trains).1 (widthTaken s trains).2 l rate).event (fun _ => true) 5 [(widthTaken s trains).1] :=
    ⟨(s.gate.laneDown.headD (0, 0)).1, (s.gate.laneDown.headD (0, 0)).2, rfl⟩
  have hw : (widthTaken s trains).1 < 8 := pickWidth_lt ..
  obtain ⟨p1, p2, p3, p4, p5, p6⟩ := portTrained_shows s hw (widthTaken s trains).2 l rate
  rw [he]
  generalize portTrained s (widthTaken s trains).1 (widthTaken s trains).2 l rate = u at *
  have hk := event_keeps u (fun _ => true) 5 [(widthTaken s trains).1]
  exact ⟨(hk.rd _).trans p1, hk.laneDown.trans p2, (hk.ctr _ _ (by decide) (by decide)).trans p3, (congrArg HutX.sects hk.hut).trans p4,
    hk.sites.trans p5, hk.after p6⟩

/-- Health records and lanes, as R379 to R381 and R391 give them. -/
theorem recordsAndLanes : RecordsAndLanes := by
  intro s
  refine ⟨fun r rest hp hs => ⟨recordAppended hp hs, recordLost hp⟩, fun lost errors l hw hs hl hb h2 => laneFails lost errors hw hs hl hb h2, fun trains => ?_⟩
  intro w done
  refine ⟨fun hd => ?_, fun hd h0 hst hr => ?_⟩
  · exact .next (congrArg Host.Outcome.next (if_neg (by simpa using hd))) (retrain_shows s trains)
  · exact .next (congrArg Host.Outcome.next (if_pos ⟨h0, hd, hst, hr⟩)) (retrain_shows s trains)

/-- Settles O33. -/
theorem selfTestsRecordsAndLanes : Obligations.SelfTestsRecordsAndLanes := ⟨selfTestsRun, recordsAndLanes⟩

end Sys2Proof.Proofs
end

section
/-! PROOF. Corrections written back, the scrubber's reads of frames, and the watchdogs (R31, R176, R342, R359 to R362). -/

namespace Sys2Proof.Proofs

open Sys2Proof Sys2Proof.Machine

/-! ### Words written back (R342) -/

theorem correctable_ne_zero {sy : Byte} (h : correctable sy = true) : sy ≠ 0 := by
  rintro rfl
  exact absurd h (by decide)

/-- The word at an address with its correctable error corrected (R342). -/
def writtenBack (s : State) (w : Nat) : State := s.putRaw (8 * w) (leBytes (corrected (mget 0 s.synd w) (s.word64 (8 * w))).toNat 8)

/-- Its syndrome, with no error left. -/
def syndCleared (u : State) (w : Nat) : State := { u with synd := mput 0 u.synd w 0 }

theorem putRaw_regs (l : List Byte) (s : State) (x : Nat) : (s.putRaw x l).regs = s.regs ∧ (s.putRaw x l).poison = s.poison ∧ (s.putRaw x l).synd = s.synd :=
  ⟨putRaw_keeps State.regs (fun _ _ _ => rfl) s x l, putRaw_keeps State.poison (fun _ _ _ => rfl) s x l, putRaw_keeps State.synd (fun _ _ _ => rfl) s x l⟩

theorem correctedBack {s : State} {x : Addr} (hp : (inPad x.toNat || inTarn x.toNat) = true) (hc : correctable (mget 0 s.synd (x.toNat / 8)) = true)
    (hm : mcanon 0 s.mem = true) (hy : mcanon 0 s.synd = true) : Done (.correctedWriteBack x false) s (fun t =>
      t.word64 (8 * (x.toNat / 8)) = corrected (mget 0 s.synd (x.toNat / 8)) (s.word64 (8 * (x.toNat / 8))) ∧
      mget 0 t.synd (x.toNat / 8) = 0 ∧ (∀ z, z / 8 ≠ x.toNat / 8 → t.byte z = s.byte z) ∧ (∀ z, t.poisonedAt z = s.poisonedAt z) ∧
      SameRegs s t noReg) := by
  have hex : exec (.correctedWriteBack x false) s = .next (syndCleared (writtenBack s (x.toNat / 8)) (x.toNat / 8)) := by
    refine congrArg Host.Outcome.next (if_neg ?_)
    rw [hp, hc, decide_eq_false (correctable_ne_zero hc)]
    decide
  generalize x.toNat / 8 = w at *
  have hin : ∀ i (hi : i < 8), (writtenBack s w).byte (8 * w + i) = (leBytes (corrected (mget 0 s.synd w) (s.word64 (8 * w))).toNat 8)[i]'(by rw [length_leBytes]; exact hi) :=
    fun i hi => State.byte_putRaw_in s _ _ i (by rw [length_leBytes]; exact hi) hm
  have hout : ∀ z, z / 8 ≠ w → (writtenBack s w).byte z = s.byte z := fun z hz =>
    State.byte_putRaw_out s _ _ z (by rw [length_leBytes]; omega)
  obtain ⟨h1, h2, h3⟩ := putRaw_regs (leBytes (corrected (mget 0 s.synd w) (s.word64 (8 * w))).toNat 8) s (8 * w)
  have hr : (writtenBack s w).regs = s.regs := h1
  have hpo : (writtenBack s w).poison = s.poison := h2
  have hsy : (writtenBack s w).synd = s.synd := h3
  generalize writtenBack s w = u at *
  refine .next hex ⟨word64_of_bytes _ _ _ hin, mget_mput_same 0 u.synd w 0 (by rw [hsy]; exact hy), hout, fun z => ?_, .of_eq hr⟩
  change u.poisonedAt z = s.poisonedAt z
  unfold State.poisonedAt State.pois
  rw [hpo]

/-! ### Runs of flits -/

section
variable {γ : Type} (f : State → γ) (hc : ∀ (s : State) c a n, c ∈ linkCtrs → f (s.count c a n) = f s)
  (hl : ∀ (s : State) a d g, f (s.modLink a d g) = f s)
include hc hl

theorem launchRun_keeps (s : State) (a : Nat) (d : Dir) (x : Flit) (n : Nat) : f (s.launchRun a d x n) = f s := by
  unfold State.launchRun
  dsimp only
  split
  · rfl
  · refine (foldl_keep f _ (fun s (_ : Nat) => sendOn_keeps f s hc (fun s g => hl s _ _ g) x) _ _).trans ((hl ..).trans ?_)
    unfold State.countFlits
    split
    · exact hc _ _ _ _ (by decide)
    · split
      · exact hc _ _ _ _ (by decide)
      · rfl

variable (ht : ∀ (s : State) k r n, f (s.take k r n) = f s)
include ht

theorem sendSvc_keeps (x : Flit) (n : Nat) (l : List (Nat × Dir)) (s : State) (k : Nat) : f (s.sendSvc x n l k) = f s := by
  induction l generalizing s k with
  | nil => rfl
  | cons y l ih => exact (ih ..).trans ((launchRun_keeps f hc hl ..).trans (ht ..))

theorem svcOut_keeps (s : State) (a n : Nat) : f (s.svcOut a n) = f s := sendSvc_keeps f hc hl ht ..

theorem svcTo_keeps (s : State) (a b n : Nat) : f (s.svcTo a b n) = f s := by
  unfold State.svcTo
  split
  · exact sendSvc_keeps f hc hl ht ..
  · exact hc _ _ _ _ (by decide)

end

/-- What the scrubber reads of a site: its programs and address generators, as stored. -/
def stores (x : Site) : List (Nat × Word) × List (Nat × Byte) × List (Nat × Word) × List (Nat × Byte) := (x.prog, x.progSynd, x.ag, x.agSynd)

theorem stores_modLink (s : State) (b a d : Nat) (g : LinkX → LinkX) : stores ((s.modLink a d g).site b) = stores (s.site b) := by
  unfold State.modLink
  by_cases h : b = a
  · rw [h, State.site_modSite_same]
    rfl
  · rw [State.site_modSite_ne _ _ h]

/-! ### The scrubber's reads (R359 to R361) -/

/-- What the read of one word of a site leaves: the memory and every site, the corrections that wait, and the registers but the
log of the site's corrections. -/
structure WordScrubbed (a : Nat) (s t : State) : Prop where
  sites : t.sites = s.sites
  mems : mems t = mems s
  regs : SameRegs s t (oneReg .CHK_ECC_LOG a 0)
  waits : ∀ q ∈ s.cfg.corrections, q ∈ t.cfg.corrections

theorem WordScrubbed.refl (a : Nat) (s : State) : WordScrubbed a s s := ⟨rfl, rfl, .refl s _, fun _ h => h⟩

theorem WordScrubbed.trans {a : Nat} {s t u : State} (h : WordScrubbed a s t) (k : WordScrubbed a t u) : WordScrubbed a s u :=
  ⟨k.sites.trans h.sites, k.mems.trans h.mems, h.regs.trans k.regs, fun q hq => k.waits q (h.waits q hq)⟩

theorem WordScrubbed.site {a : Nat} {s t : State} (h : WordScrubbed a s t) (b : Nat) : t.site b = s.site b := State.site_congr h.sites b

theorem noteEcc_scrubbed (s : State) (a m w : Nat) (y : Byte) : WordScrubbed a s (s.noteEcc a m w y) := by
  unfold State.noteEcc
  split
  · exact .refl a s
  · exact ⟨rfl, (mems_note ..).trans (mems_count ..), (SameRegs.of_eq rfl).note (r := .CHK_ECC_LOG) _ ⟨rfl, rfl, rfl⟩, fun _ h => h⟩

theorem noteEccs_scrubbed (a m w : Nat) : ∀ (l : List Byte) (s : State), WordScrubbed a s (l.foldl (fun s y => s.noteEcc a m w y) s)
  | [], s => .refl a s
  | y :: l, s => (noteEcc_scrubbed s a m w y).trans (noteEccs_scrubbed a m w l _)

/-- What the verdict on a word does (R360, R361). -/
def verdictTaken (s : State) (a w : Nat) (v : ScrubVerdict) (after : Byte) : State :=
  match v with
  | .clean => s
  | .never => s.count C.CFG_CNT_SCRUB_DISAGREE
  | .ue => (s.count C.CFG_CNT_SCRUB_UE).modHut (fun h => { h with cfgHalts := List.append h.cfgHalts [a] })
  | .agreed sy => { s with cfg := { s.cfg with corrections := List.append s.cfg.corrections [(a, w, sy.toNat, after.toNat)] } }

theorem verdict_scrubbed (s : State) (a w : Nat) (v : ScrubVerdict) (after : Byte) : WordScrubbed a s (verdictTaken s a w v after) :=
  match v with
  | .clean => .refl a s
  | .never => ⟨rfl, mems_count .., .of_eq rfl, fun _ h => h⟩
  | .ue => ⟨rfl, (mems_modHut ..).trans (mems_count ..), .of_eq rfl, fun _ h => h⟩
  | .agreed _ => ⟨rfl, rfl, .of_eq rfl, fun _ h => List.mem_append_left _ h⟩

/-- The verdict on a word that reads as it is stored each time. -/
def storedVerdict (y : Byte) : ScrubVerdict × Nat := if y = 0 then (.clean, 1) else judgeReads y (List.replicate 3 y) 1

theorem scrubWord_eq (s : State) (a w : Nat) : ∃ m x, s.scrubWord a w [] = verdictTaken
    (((List.replicate 4 ((s.site a).cfgSynd w)).take (storedVerdict ((s.site a).cfgSynd w)).2).foldl (fun s y => s.noteEcc a m x y) s) a w
    (storedVerdict ((s.site a).cfgSynd w)).1 0 :=
  ⟨if w < 2560 then 5 else 7, if w < 2048 then w else w - (if w < 2560 then 2048 else 2560), rfl⟩

/-- A correctable error that reads alike twice is agreed (R360). -/
theorem storedVerdict_agreed {y : Byte} (h : correctable y = true) : (storedVerdict y).1 = .agreed y := by
  have h0 := correctable_ne_zero h
  unfold storedVerdict
  rw [if_neg h0, List.replicate_succ, judgeReads]
  dsimp only
  rw [if_neg (by rw [h]; simp), if_pos rfl, if_neg h0]

theorem scrubWord_shows (s : State) (a w : Nat) : WordScrubbed a s (s.scrubWord a w []) ∧
    (correctable ((s.site a).cfgSynd w) = true → (a, w, ((s.site a).cfgSynd w).toNat, 0) ∈ (s.scrubWord a w []).cfg.corrections) := by
  obtain ⟨m, x, he⟩ := scrubWord_eq s a w
  rw [he]
  refine ⟨(noteEccs_scrubbed a m x _ s).trans (verdict_scrubbed ..), fun h => ?_⟩
  rw [storedVerdict_agreed h]
  exact List.mem_append_right _ List.mem_cons_self

/-- The words of a frame read in turn. -/
def frameScrubbed (s : State) (a f : Nat) (l : List Nat) : State := l.foldl (fun s k => s.scrubWord a (32 * f + k) []) s

theorem frameScrubbed_shows (a f : Nat) : ∀ (l : List Nat) (s : State), WordScrubbed a s (frameScrubbed s a f l) ∧
    ∀ k ∈ l, correctable ((s.site a).cfgSynd (32 * f + k)) = true →
      (a, 32 * f + k, ((s.site a).cfgSynd (32 * f + k)).toNat, 0) ∈ (frameScrubbed s a f l).cfg.corrections
  | [], s => ⟨.refl a s, fun _ h => (List.not_mem_nil h).elim⟩
  | k :: l, s => by
    obtain ⟨k1, k2⟩ := scrubWord_shows s a (32 * f + k)
    obtain ⟨l1, l2⟩ := frameScrubbed_shows a f l (s.scrubWord a (32 * f + k) [])
    refine ⟨k1.trans l1, fun j hj hc => ?_⟩
    rcases List.mem_cons.mp hj with rfl | hj
    · exact l1.waits _ (k2 hc)
    · have h := l2 j hj
      rw [k1.site a] at h
      exact h hc

/-- The frame asked for over slot 15 (R359). -/
def scrubAsked (s : State) (a : Nat) (b : Bool) : State := (if b then s.count C.CFG_CNT_SCRUB_PASS else s).svcOut a 256

theorem scrubAsked_keeps {γ : Type} (f : State → γ) (hc : ∀ (s : State) c a n, f (s.count c a n) = f s) (ha : ∀ (s : State) l, f { s with arbs := l } = f s)
    (hl : ∀ (s : State) a d g, f (s.modLink a d g) = f s) (s : State) (a : Nat) (b : Bool) : f (scrubAsked s a b) = f s := by
  unfold scrubAsked
  rw [svcOut_keeps f (fun s c a n _ => hc s c a n) hl (fun s k r n => take_keeps f s hc ha k r n)]
  split
  · exact hc ..
  · rfl

theorem scrubAsked_shows (s : State) (a : Nat) (b : Bool) : let t := scrubAsked s a b
    t.regs = s.regs ∧ t.cfg = s.cfg ∧ mems t = mems s ∧ ∀ c, stores (t.site c) = stores (s.site c) :=
  ⟨scrubAsked_keeps State.regs (fun _ _ _ _ => rfl) (fun _ _ => rfl) (fun _ _ _ _ => rfl) s a b,
    scrubAsked_keeps State.cfg (fun _ _ _ _ => rfl) (fun _ _ => rfl) (fun _ _ _ _ => rfl) s a b,
    scrubAsked_keeps mems (fun _ _ _ _ => mems_count ..) (fun _ _ => rfl) (fun _ _ _ _ => mems_modLink ..) s a b,
    fun c => scrubAsked_keeps (fun t => stores (t.site c)) (fun _ _ _ _ => rfl) (fun _ _ => rfl) (fun s b d g => stores_modLink s c b d g) s a b⟩

theorem cfgSynd_stores {x y : Site} (h : stores x = stores y) (w : Nat) : x.cfgSynd w = y.cfgSynd w := by
  simp only [stores, Prod.mk.injEq] at h
  unfold Site.cfgSynd
  rw [h.2.1, h.2.2.2]

/-- HEARTBEAT after a frame (R359). -/
def heartBeat (s : State) : State := s.wrs 0 0 [(F.CFG_SCRUB_STATUS_HEARTBEAT, (s.rd F.CFG_SCRUB_STATUS_HEARTBEAT + 1) % 2 ^ 32)]

/-- The scrubber's next place (R359). -/
def scrubTo (s : State) (b f : Nat) : State :=
  { s.wr F.CFG_SCRUB_STATUS_SITE 0 0 b with cfg := { (s.wr F.CFG_SCRUB_STATUS_SITE 0 0 b).cfg with scrubFrame := f } }

theorem scrubTo_shows (s : State) (b f : Nat) : let t := scrubTo s b f
    t.rd F.CFG_SCRUB_STATUS_HEARTBEAT = s.rd F.CFG_SCRUB_STATUS_HEARTBEAT ∧ t.sites = s.sites ∧ t.cfg.corrections = s.cfg.corrections ∧
    mems t = mems s ∧ SameRegs s t (oneReg .CFG_SCRUB_STATUS 0 0) :=
  ⟨State.rd_wr_other s _ _ _ _ _ (by decide), rfl, rfl, rfl, (SameRegs.refl s _).wr (f := F.CFG_SCRUB_STATUS_SITE) b ⟨rfl, rfl, rfl⟩⟩

/-- The scrubber's next place after frame f of a site, and the pass counted where it ends (R359). -/
def scrubNext (v : State) (a f : Nat) : State :=
  match (siteFrames a).find? (fun g => decide (f < g)) with
  | some g => scrubTo v a g
  | none => match v.coresOn.find? (fun b => decide (a < b)) with
    | some b => scrubTo v b 0
    | none => scrubTo (v.count C.CFG_CNT_SCRUB_PASS) (v.coresOn.headD 0) 0

theorem scrubNext_to (v : State) (a f : Nat) : ∃ w c g, (w = v ∨ w = v.count C.CFG_CNT_SCRUB_PASS) ∧ scrubNext v a f = scrubTo w c g := by
  unfold scrubNext
  split
  · exact ⟨_, _, _, .inl rfl, rfl⟩
  · split
    · exact ⟨_, _, _, .inl rfl, rfl⟩
    · exact ⟨_, _, _, .inr rfl, rfl⟩

theorem scrubFrame_eq {s : State} {frame : BitVec 7} {a f : Nat} {b : Bool} (hp : s.scrubPlace = some (a, f, b)) (ho : s.scrubOn = true) (hf : frame.toNat = f) :
    ∃ v c g, (v = heartBeat (frameScrubbed (scrubAsked s a b) a f (List.range 32)) ∨
        v = (heartBeat (frameScrubbed (scrubAsked s a b) a f (List.range 32))).count C.CFG_CNT_SCRUB_PASS) ∧
      exec (.scrubFrameRead frame []) s = .next (scrubTo v c g) := by
  have hex : exec (.scrubFrameRead frame []) s = .next (scrubNext (heartBeat (frameScrubbed (scrubAsked s a b) a f (List.range 32))) a f) := by
    refine congrArg Host.Outcome.next ?_
    rewrite [hp]
    refine (if_neg (by rw [ho, hf]; simp)).trans ?_
    extract_lets s1 s2 s3 s4 put
    rw [show heartBeat (frameScrubbed (scrubAsked s a b) a f (List.range 32)) = s4 from rfl]
    clear_value s4
    rfl
  obtain ⟨v, c, g, hv, hn⟩ := scrubNext_to (heartBeat (frameScrubbed (scrubAsked s a b) a f (List.range 32))) a f
  exact ⟨v, c, g, hv, hex.trans (congrArg _ hn)⟩

theorem frameRead (s : State) (frame : BitVec 7) (a f : Nat) (b : Bool) (hp : s.scrubPlace = some (a, f, b)) (ho : s.scrubOn = true) (hf : frame.toNat = f) :
    Done (.scrubFrameRead frame []) s (fun t =>
      t.rd F.CFG_SCRUB_STATUS_HEARTBEAT = (s.rd F.CFG_SCRUB_STATUS_HEARTBEAT + 1) % 2 ^ 32 ∧ SameMem s t ∧
      (∀ b, (t.site b).prog = (s.site b).prog ∧ (t.site b).progSynd = (s.site b).progSynd ∧
        (t.site b).ag = (s.site b).ag ∧ (t.site b).agSynd = (s.site b).agSynd) ∧
      (∀ k, k < 32 → 32 * f + k < 2560 → correctable ((s.site a).cfgSynd (32 * f + k)) = true →
        (a, 32 * f + k, ((s.site a).cfgSynd (32 * f + k)).toNat, 0) ∈ t.cfg.corrections) ∧
      SameRegs s t (fun r c i => oneReg .CFG_SCRUB_STATUS 0 0 r c i ∨ oneReg .CHK_ECC_LOG a 0 r c i)) := by
  obtain ⟨v, c, g, hv, hex⟩ := scrubFrame_eq hp ho hf
  obtain ⟨a1, a2, a3, a4⟩ := scrubAsked_shows s a b
  generalize scrubAsked s a b = u at *
  obtain ⟨w1, w2⟩ := frameScrubbed_shows a f (List.range 32) u
  generalize frameScrubbed u a f (List.range 32) = w at *
  have hh : w.rd F.CFG_SCRUB_STATUS_HEARTBEAT = s.rd F.CFG_SCRUB_STATUS_HEARTBEAT :=
    (w1.regs.rd (fun h => by cases h.1)).trans (rd_of_regs a1 ..)
  have hb : v.rd F.CFG_SCRUB_STATUS_HEARTBEAT = (s.rd F.CFG_SCRUB_STATUS_HEARTBEAT + 1) % 2 ^ 32 ∧ v.sites = w.sites ∧ v.cfg = w.cfg ∧ mems v = mems w ∧
      SameRegs w v (oneReg .CFG_SCRUB_STATUS 0 0) := by
    have hbeat : (heartBeat w).rd F.CFG_SCRUB_STATUS_HEARTBEAT = (s.rd F.CFG_SCRUB_STATUS_HEARTBEAT + 1) % 2 ^ 32 := by
      rw [← hh]
      exact (State.rd_wr_self w F.CFG_SCRUB_STATUS_HEARTBEAT 0 0 _ (by decide)).trans (Nat.mod_mod ..)
    have hr : SameRegs w (heartBeat w) (oneReg .CFG_SCRUB_STATUS 0 0) := (SameRegs.refl w _).wr (f := F.CFG_SCRUB_STATUS_HEARTBEAT) _ ⟨rfl, rfl, rfl⟩
    rcases hv with rfl | rfl
    · exact ⟨hbeat, rfl, rfl, mems_wr .., hr⟩
    · exact ⟨hbeat, rfl, rfl, (mems_count ..).trans (mems_wr ..), hr.trans (.of_eq rfl)⟩
  obtain ⟨b1, b2, b3, b4, b5⟩ := hb
  obtain ⟨t1, t2, t3, t4, t5⟩ := scrubTo_shows v c g
  generalize scrubTo v c g = t at *
  have hsite : ∀ b, stores (t.site b) = stores (s.site b) := fun b => by
    rw [State.site_congr (t2.trans (b2.trans w1.sites)) b, a4]
  refine .next hex ⟨t1.trans b1, .of_mems (t4.trans (b4.trans (w1.mems.trans a3))), fun b => ?_, fun k hk hw hc => ?_, ?_⟩
  · have h := hsite b
    simp only [stores, Prod.mk.injEq] at h
    exact h
  · rw [t3, b3, ← cfgSynd_stores (a4 a)]
    rw [← cfgSynd_stores (a4 a)] at hc
    exact w2 k (List.mem_range.mpr hk) hc
  · exact (((SameRegs.of_eq a1).trans (w1.regs.mono fun _ _ _ h => .inr h)).trans (b5.mono fun _ _ _ h => .inl h)).trans (t5.mono fun _ _ _ h => .inl h)

theorem correctionsAndScrubReads : CorrectionsAndScrubReads := fun s =>
  ⟨fun _ => correctedBack, frameRead s⟩

/-! ### The watch over the scrubber (R362) -/

/-- The scrubber's copies from the fuses, and its pass from the start (R362). -/
def scrubberFresh (s : State) : State :=
  { s with cfg := { s.cfg with scrubEn := [s.fuses.scrubEn, s.fuses.scrubEn, s.fuses.scrubEn],
                               scrubRate := [s.fuses.scrubRate, s.fuses.scrubRate, s.fuses.scrubRate], scrubFrame := 0, beatSame := 0 } }

/-- The reset of the scrubber counted and reported, before its event (R362). -/
def resetNoted (v : State) : State := (((v.wr F.CFG_SCRUB_STATUS_SITE 0 0 0).count C.CFG_CNT_SCRUB_STALL).record 6 0xFFFF false [0]).alert 3

theorem resetNoted_shows (v : State) : let t := resetNoted v
    t.cfg = v.cfg ∧ t.rd F.CFG_SCRUB_STATUS_SITE = 0 ∧ t.ctr C.CFG_CNT_SCRUB_STALL = (v.ctr C.CFG_CNT_SCRUB_STALL + 1) % 2 ^ 48 ∧
    Frame v t (oneReg .CFG_SCRUB_STATUS 0 0) := by
  have hr : (resetNoted v).regs = (v.wr F.CFG_SCRUB_STATUS_SITE 0 0 0).regs := rfl
  refine ⟨rfl, (rd_of_regs hr _ _ _).trans (State.rd_wr_self v _ _ _ _ (by decide)), State.ctr_count_same .., .of_mems ?_,
    ((SameRegs.refl v _).wr (f := F.CFG_SCRUB_STATUS_SITE) 0 ⟨rfl, rfl, rfl⟩).trans (.of_eq hr)⟩
  unfold resetNoted
  simp

theorem scrubberFresh_shows (s : State) : let v := scrubberFresh s
    v.cfg.scrubEn = List.replicate 3 s.fuses.scrubEn ∧ v.cfg.scrubRate = List.replicate 3 s.fuses.scrubRate ∧ v.cfg.scrubFrame = 0 ∧
    v.cfg.beatSame = 0 ∧ v.counters = s.counters ∧ v.regs = s.regs ∧ mems v = mems s := ⟨rfl, rfl, rfl, rfl, rfl, rfl, rfl⟩

theorem scrubberReset (s : State) (hc : s.cycle = 0) (hs : s.scrubStuck = true) : Done .scrubStall s (fun t =>
    t.cfg.scrubEn = List.replicate 3 s.fuses.scrubEn ∧ t.cfg.scrubRate = List.replicate 3 s.fuses.scrubRate ∧
    t.rd F.CFG_SCRUB_STATUS_SITE = 0 ∧ t.cfg.scrubFrame = 0 ∧ t.scrubStuck = false ∧
    t.ctr C.CFG_CNT_SCRUB_STALL = (s.ctr C.CFG_CNT_SCRUB_STALL + 1) % 2 ^ 48 ∧ Frame s t (oneReg .CFG_SCRUB_STATUS 0 0)) := by
  have hex : exec .scrubStall s = .next ((resetNoted (scrubberFresh s)).event (fun _ => true) 4
      [(resetNoted (scrubberFresh s)).ctr C.CFG_CNT_SCRUB_STALL % 2 ^ 32]) := congrArg Host.Outcome.next (if_pos ⟨hc, hs⟩)
  obtain ⟨f1, f2, f3, f4, f5, f6, f7⟩ := scrubberFresh_shows s
  have hctr : (scrubberFresh s).ctr C.CFG_CNT_SCRUB_STALL = s.ctr C.CFG_CNT_SCRUB_STALL := by
    unfold State.ctr
    rw [f5]
  generalize scrubberFresh s = v at *
  obtain ⟨n1, n2, n3, n4⟩ := resetNoted_shows v
  generalize resetNoted v = u at *
  have hk := event_keeps u (fun _ => true) 4 [u.ctr C.CFG_CNT_SCRUB_STALL % 2 ^ 32]
  generalize u.event (fun _ => true) 4 [u.ctr C.CFG_CNT_SCRUB_STALL % 2 ^ 32] = t at *
  have hcfg : t.cfg = v.cfg := hk.cfg.trans n1
  have hf : Frame s u (oneReg .CFG_SCRUB_STATUS 0 0) := ⟨(SameMem.of_mems f7).trans n4.1, (SameRegs.of_eq f6).trans n4.2⟩
  refine .next hex ⟨by rw [hcfg, f1], by rw [hcfg, f2], (hk.rd _).trans n2, by rw [hcfg, f3], ?_,
    (hk.ctr _ _ (by decide) (by decide)).trans (by rw [n3, hctr]), hk.after hf⟩
  unfold State.scrubStuck State.voteErr
  rw [hcfg, f1, f2, f4]
  simp [List.replicate]

/-! ### The stall watchdog (R176) -/

theorem sites_modSect (s : State) (e : Nat) (f : SectX → SectX) : (s.modSect e f).sites = s.sites := by
  unfold State.modSect
  split
  · rfl
  · rfl

/-- What the halt of a running section shows: its state, and nothing else but its own entry (R34). -/
theorem haltSect_shows (s : State) {e : Nat} (c : Nat) (h : s.sectState e = 3) : (s.haltSect e c).sectState e = 6 ∧
    (∀ k, k ≠ e → (s.haltSect e c).sectState k = s.sectState k) ∧ (s.haltSect e c).sites = s.sites ∧ mems (s.haltSect e c) = mems s := by
  obtain ⟨v, hv, he⟩ : ∃ v : State, v = s.wrs 0 e [(F.HUT_SECT_BUSY, 0), (F.HUT_SECT_RUNNABLE, 0)] ∧ s.haltSect e c =
      ((v.wr F.HUT_SECT_STATE 0 e 6).event ((v.wr F.HUT_SECT_STATE 0 e 6).ofTenant ((v.wr F.HUT_SECT_STATE 0 e 6).tenantOf (e / 32))) 1
        [e % 32, 6, (v.wr F.HUT_SECT_STATE 0 e 6).jobOf e, 0x20, c]).modSect e (fun x => { x with phase := .none, since := s.cycles, autoRun := false }) := by
    refine ⟨_, rfl, ?_⟩
    unfold State.haltSect
    rw [if_neg (by rw [h]; decide)]
    rfl
  have hw : Frame s v (oneReg .HUT_SECT 0 e) ∧ v.sites = s.sites ∧ mems v = mems s := by
    rw [hv]
    exact ⟨Frame.wrs s (by simp [oneReg, F.HUT_SECT_BUSY, F.HUT_SECT_RUNNABLE]), State.wrs_sites .., mems_wrs ..⟩
  clear hv
  have hk := event_keeps (v.wr F.HUT_SECT_STATE 0 e 6) ((v.wr F.HUT_SECT_STATE 0 e 6).ofTenant ((v.wr F.HUT_SECT_STATE 0 e 6).tenantOf (e / 32))) 1
    [e % 32, 6, (v.wr F.HUT_SECT_STATE 0 e 6).jobOf e, 0x20, c]
  rw [he]
  generalize (v.wr F.HUT_SECT_STATE 0 e 6).event _ 1 _ = u at *
  have hs : ∀ k, (u.modSect e (fun x => { x with phase := .none, since := s.cycles, autoRun := false })).sectState k = (v.wr F.HUT_SECT_STATE 0 e 6).sectState k :=
    fun k => (rd_of_regs (modSect_quiet ..).1 F.HUT_SECT_STATE 0 k).trans (hk.rd F.HUT_SECT_STATE 0 k)
  refine ⟨(hs e).trans (State.rd_wr_self v _ _ _ _ (by decide)), fun k hne => (hs k).trans ?_, (sites_modSect ..).trans (hk.sites.trans hw.2.1), ?_⟩
  · have hke : ¬ oneReg .HUT_SECT 0 e F.HUT_SECT_STATE.reg 0 k := fun h => hne h.2.2
    exact (((SameRegs.refl v (oneReg .HUT_SECT 0 e)).wr (f := F.HUT_SECT_STATE) 6 ⟨rfl, rfl, rfl⟩).rd hke).trans (hw.1.2.rd hke)
  · exact (mems_modSect ..).trans (hk.mems.trans ((mems_wr ..).trans hw.2.2))

theorem haltSects_shows (c : Nat) : ∀ (l : List Nat) (s : State), l.Nodup → (∀ k ∈ l, s.sectState k = 3) → let t := l.foldl (fun s k => s.haltSect k c) s
    (∀ k ∈ l, t.sectState k = 6) ∧ (∀ k, k ∉ l → t.sectState k = s.sectState k) ∧ t.sites = s.sites ∧ mems t = mems s
  | [], _, _, _ => ⟨fun _ h => (List.not_mem_nil h).elim, fun _ _ => rfl, rfl, rfl⟩
  | e :: l, s, hn, h3 => by
    obtain ⟨e1, e2, e3, e4⟩ := haltSect_shows s c (h3 e List.mem_cons_self)
    obtain ⟨hne, hnl⟩ := List.nodup_cons.mp hn
    obtain ⟨l1, l2, l3, l4⟩ := haltSects_shows c l (s.haltSect e c) hnl (fun k hk =>
      (e2 k (fun h => hne (h ▸ hk))).trans (h3 k (List.mem_cons_of_mem _ hk)))
    refine ⟨fun k hk => ?_, fun k hk => ?_, l3.trans e3, l4.trans e4⟩
    · rcases List.mem_cons.mp hk with rfl | hk
      · exact (l2 k hne).trans e1
      · exact l1 k hk
    · obtain ⟨h1, h2⟩ := not_or.mp (mt List.mem_cons.mpr hk)
      exact (l2 k h2).trans (e2 k h1)

/-- The Running sections of a job. -/
def runningOf (s : State) (p job : Nat) : List Nat := (s.jobSects p job).filter (fun k => s.sectState k == 3)

theorem mem_runningOf {s : State} {p job k : Nat} : k ∈ runningOf s p job ↔ k / 32 = p ∧ s.jobOf k = job ∧ s.sectState k = 3 := by
  unfold runningOf State.jobSects State.openSects
  simp only [List.mem_filter, List.mem_map, List.mem_range, Bool.and_eq_true, decide_eq_true_eq, beq_iff_eq]
  constructor
  · rintro ⟨⟨⟨⟨i, hi, rfl⟩, -⟩, hj⟩, h3⟩
    exact ⟨by omega, hj, h3⟩
  · rintro ⟨hp, hj, h3⟩
    exact ⟨⟨⟨⟨k % 32, Nat.mod_lt _ (by decide), by omega⟩, by omega⟩, hj⟩, h3⟩

theorem runningOf_nodup (s : State) (p job : Nat) : (runningOf s p job).Nodup := by
  unfold runningOf State.jobSects State.openSects
  exact (((List.nodup_range.map (add_left_injective _)).filter _).filter _).filter _

theorem events_keep {α : Type} (to_ : α → State → Nat → Bool) (k : Nat) (b : α → State → List Nat) : ∀ (l : List α) (s : State),
    EventKeeps s (l.foldl (fun s x => s.event (to_ x s) k (b x s)) s)
  | [], s => .refl s
  | x :: l, s => (event_keeps s (to_ x s) k (b x s)).trans (events_keep to_ k b l _)

theorem stalledHalts (s : State) (site : SiteId) (e : Nat) (he : s.sectOf site.toNat = some e) (hr : s.running site.toNat = true)
    (ho : s.stalledOut site.toNat = true) (hc : s.cycle = 0) :
    Done (.stallWatchdog site) s (fun t => t.sectState e = 6 ∧
      (∀ k, k < 512 → k / 32 = e / 32 → s.sectState k = 3 → s.jobOf k = s.jobOf e → t.sectState k = 6) ∧
      (∀ k, k < 512 → k / 32 ≠ e / 32 → t.sectState k = s.sectState k) ∧ t.sites = s.sites ∧ SameMem s t) := by
  obtain ⟨held, hex⟩ : ∃ held : List (Nat × Nat), exec (.stallWatchdog site) s = .next (held.foldl (fun s x => s.event (s.ofTenant (s.tenantOf (e / 32))) 2
      [x.1 % 32, x.2, s.rd F.SEQ_WAIT_ID x.2, s.rd F.SEQ_WAIT_KIND x.2]) ((runningOf s (e / 32) (s.jobOf e)).foldl (fun s k => s.haltSect k 12) s)) := by
    refine ⟨(runningOf s (e / 32) (s.jobOf e)).flatMap (fun k => ((s.regionSites k).filter (fun b => s.rd F.SEQ_WDOG_COUNT b != 0)).map (fun b => (k, b))), ?_⟩
    refine congrArg Host.Outcome.next ((if_pos hc).trans ?_)
    unfold State.haltStalled
    rewrite [he]
    exact if_neg (by rw [hr, ho]; decide)
  have h3 : s.sectState e = 3 := by
    unfold State.running at hr
    rw [he] at hr
    exact beq_iff_eq.mp hr
  obtain ⟨l1, l2, l3, l4⟩ := haltSects_shows 12 _ s (runningOf_nodup s (e / 32) (s.jobOf e)) (fun k hk => (mem_runningOf.mp hk).2.2)
  generalize (runningOf s (e / 32) (s.jobOf e)).foldl (fun s k => s.haltSect k 12) s = u at *
  have hk := events_keep (fun _ s => s.ofTenant (s.tenantOf (e / 32))) 2 (fun (x : Nat × Nat) s => [x.1 % 32, x.2, s.rd F.SEQ_WAIT_ID x.2, s.rd F.SEQ_WAIT_KIND x.2]) held u
  have hs : ∀ k, (held.foldl (fun s x => s.event (s.ofTenant (s.tenantOf (e / 32))) 2
      [x.1 % 32, x.2, s.rd F.SEQ_WAIT_ID x.2, s.rd F.SEQ_WAIT_KIND x.2]) u).sectState k = u.sectState k := fun k => hk.rd F.HUT_SECT_STATE 0 k
  refine .next hex ⟨(hs e).trans (l1 e (mem_runningOf.mpr ⟨rfl, rfl, h3⟩)), fun k _ hp h3 hj => (hs k).trans (l1 k (mem_runningOf.mpr ⟨hp, hj, h3⟩)),
    fun k _ hp => (hs k).trans (l2 k (fun h => hp (mem_runningOf.mp h).1)), hk.sites.trans l3, .of_mems (hk.mems.trans l4)⟩

theorem watchdogsFire : WatchdogsFire := fun s =>
  ⟨scrubberReset s, fun site e he hr ho _ hc => stalledHalts s site e he hr ho hc⟩

/-- Settles O32. -/
theorem errorsAreCorrectedAndWatched : Obligations.ErrorsAreCorrectedAndWatched := ⟨correctionsAndScrubReads, watchdogsFire⟩

end Sys2Proof.Proofs
end

section
/-! PROOF. Digests of the Tally: their start, their leaves and their roots (R31, R32, R310, R364 to R368). -/

namespace Sys2Proof.Proofs

open Sys2Proof Sys2Proof.Machine

/-! ### The start of a scheduled digest -/

/-- DIG_PEND of a partition (R310). -/
theorem settlePend_shows (s : State) (p : Nat) : let t := s.settlePend p
    t.rd F.HUT_TRAIN_DIG_PEND 0 p = (s.hut.digDue.any (fun x => x.1 == p) || ((aget s.hut.digs p).map DigX.scheduled).getD false).toNat ∧
    t.hut = s.hut ∧ (∀ f : Fld, f.reg ≠ .HUT_TRAIN → ∀ a i, t.rd f a i = s.rd f a i) ∧ Frame s t (oneReg .HUT_TRAIN 0 p) := by
  refine ⟨(State.rd_wr_self s F.HUT_TRAIN_DIG_PEND 0 p _ (by decide)).trans (Nat.mod_eq_of_lt ?_), rfl,
    fun f hf a i => State.rd_wr_other s _ _ _ _ _ (.inl hf), Frame.wr s _ ⟨rfl, rfl, rfl⟩⟩
  exact Bool.toNat_lt _

/-- A digest that was due, taken from those that wait (R32). -/
def dueTaken (s : State) (p job : Nat) : State := s.modHut (fun h => { h with digDue := h.digDue.erase (p, job) })

theorem scheduledStarts (s : State) (p : PartNo) (job : Nat) (hc : s.cycle = 0)
    (hf : s.hut.digDue.find? (fun x => x.1 == p.toNat && !s.jobOut p.toNat x.2) = some (p.toNat, job)) (hn : aget s.hut.digs p.toNat = none) :
    let k := p.toNat
    let ranges := (aget s.hut.digSets (k * 65536 + job)).getD []
    Done (.scheduledDigest p) s (fun t => t.rd F.TAL_DIG_STATE 0 k = 1 ∧ t.rd F.TAL_DIG_ORIGIN 0 k = 0 ∧
      t.rd F.TAL_DIG_DONE 0 k = 0 ∧ t.rd F.TAL_DIG_LEAVES 0 k = (leavesOf ranges).length % 2 ^ 24 ∧
      t.rd F.TAL_DIGSTEP_STEP 0 k = s.rd F.HUT_TRAIN_STEP 0 k ∧ aget t.hut.digs k = some ⟨ranges, job, [], true, none⟩ ∧
      t.rd F.HUT_TRAIN_DIG_PEND 0 k = 1 ∧ t.hut.digDue = s.hut.digDue.erase (k, job) ∧
      Frame s t (fun r c i => oneReg .TAL_DIG 0 k r c i ∨ oneReg .TAL_DIGSTEP 0 k r c i ∨ oneReg .HUT_TRAIN 0 k r c i)) := by
  intro k ranges
  have hex : exec (.scheduledDigest p) s = .next (((dueTaken s k job).startDigest k job ranges none).settlePend k) := by
    refine congrArg Host.Outcome.next ((if_pos hc).trans ?_)
    unfold State.startDue
    rewrite [hf]
    refine (if_neg ?_).trans ?_
    · rw [hn]
      decide
    · rfl
  obtain ⟨h1, h2, h3, h4, h5, h6, -, h8⟩ := startDigest_shows (dueTaken s k job) k job ranges none
  have hm : mems (dueTaken s k job) = mems s := mems_modHut ..
  have hdue : (dueTaken s k job).hut.digDue = s.hut.digDue.erase (k, job) := rfl
  generalize (dueTaken s k job).startDigest k job ranges none = u at *
  obtain ⟨p1, p2, p3, p4⟩ := settlePend_shows u k
  have hd : aget u.hut.digs k = some ⟨ranges, job, [], true, none⟩ := by
    rw [h6]
    exact aget_aput_same ..
  rw [hd] at p1
  refine .next hex ⟨(p3 _ (by decide) _ _).trans h1, (p3 _ (by decide) _ _).trans h2, (p3 _ (by decide) _ _).trans h3, (p3 _ (by decide) _ _).trans h4,
    (p3 _ (by decide) _ _).trans h5, by rw [p2]; exact hd, p1.trans ?_, by rw [p2, h6]; exact hdue, ?_, ?_⟩
  · rw [show (Option.map DigX.scheduled (some ⟨ranges, job, [], true, none⟩)).getD false = true from rfl, Bool.or_true]
    rfl
  · exact (SameMem.of_mems hm).trans (h8.1.trans p4.1)
  · exact ((SameRegs.of_eq rfl).trans (h8.2.mono fun _ _ _ h => h.imp_right .inl)).trans (p4.2.mono fun _ _ _ h => .inr (.inr h))

/-! ### Leaves -/

/-- A leaf is at most 64 KiB long (R365). -/
theorem leaf_le {l : List (Nat × Nat)} {y : Nat × Nat} (h : y ∈ leavesOf l) : y.2 ≤ 65536 := by
  unfold leavesOf at h
  obtain ⟨r, -, h⟩ := List.mem_flatMap.mp h
  obtain ⟨i, -, rfl⟩ := List.mem_map.mp h
  exact Nat.min_le_left ..

theorem leaf_groups {x n : Nat} (hx : inExt x = true) (hn : n ≤ 65536) : groupOf (x + 8 * (n / 8)) ≤ 4 := by
  have h : x < extSize := of_decide_eq_true hx
  have hs : extSize = 4 * groupSize := by decide
  have hg : 65536 < groupSize := by decide
  unfold groupOf
  have : x + 8 * (n / 8) < 5 * groupSize := by omega
  exact Nat.le_of_lt_succ (Nat.div_lt_of_lt_mul (by omega))

/-- The counter of leaves is no counter of a site, and none of a memory group (R483). -/
theorem leavesCtr_ne {c : Ctr} {a : Nat} (h : (c.block = none ∧ c.idx < 1536) ∨ (groupCtr c ∧ ∃ k, k ≤ 4 ∧ a = 16 * k)) :
    C.TAL_CNT_LEAVES.address 0 ≠ c.address a := by
  obtain ⟨b, i⟩ := c
  rcases h with ⟨h1, h2⟩ | ⟨⟨h1, h2⟩, k, hk, rfl⟩
  · subst h1
    simp only [Ctr.address, C.TAL_CNT_LEAVES] at h2 ⊢
    omega
  · subst h1
    simp only [Ctr.address, C.TAL_CNT_LEAVES] at h2 ⊢
    omega

theorem ctr_take_leaves (s : State) (k : ArbKey) (r n : Nat) : (s.take k r n).ctr C.TAL_CNT_LEAVES = s.ctr C.TAL_CNT_LEAVES := by
  have hr : ∀ (s : State) m, (s.countRefusals k m).ctr C.TAL_CNT_LEAVES = s.ctr C.TAL_CNT_LEAVES := fun s m => by
    unfold State.countRefusals
    split
    · exact State.ctr_count_ne _ _ (leavesCtr_ne (.inl ⟨rfl, by decide⟩))
    · rfl
  unfold State.take
  dsimp only
  change State.ctr (match aget (s.arb k).waits r with | some t => s.countRefusals k (s.cycles - t) | none => s) _ = _
  split
  · exact hr ..
  · rfl

theorem noteReads_keeps {γ : Type} (f : State → γ) (hc : ∀ (s : State) c a n, (c.block = none ∧ c.idx < 1536) → f (s.count c a n) = f s)
    (hn : ∀ (s : State) a rule, f (s.note .CHK_ECC_LOG a 0 rule) = f s) (s : State) (a m b x n : Nat) : f (s.noteReads a m b x n) = f s := by
  have he : ∀ (s : State) w y, f (s.noteEcc a m w y) = f s := fun s w y => by
    unfold State.noteEcc
    split
    · rfl
    · refine (hn ..).trans (hc _ _ _ _ ?_)
      split <;> exact ⟨rfl, by decide⟩
  unfold State.noteReads
  split
  · rfl
  · exact foldl_keep f _ (fun _ _ => he ..) _ _

section
variable {γ : Type} (f : State → γ) (hm : ∀ (s : State) m, f { s with memc := m } = f s)
  (hs : ∀ (s : State) m p y, f { s with mem := m, poison := p, synd := y } = f s)
  (hg : ∀ (s : State) c k n, k ≤ 4 → groupCtr c → f (s.count c (16 * k) n) = f s)
  (hc : ∀ (s : State) c a n, (c.block = none ∧ c.idx < 1536) → f (s.count c a n) = f s)
  (hn : ∀ (s : State) r a rule, f (s.note r a 0 rule) = f s) (hf : ∀ (s : State) n, f { s with free := n } = f s)
  (hl : ∀ (s : State) a d g, f (s.modLink a d g) = f s) (ht : ∀ (s : State) k r n, f (s.take k r n) = f s)
include hm hs hg hc hn hf hl ht

/-- What the read of a leaf keeps (R366). -/
theorem leafWords_keeps (s : State) (x : Nat) {n : Nat} (h : n ≤ 65536) : f (s.leafWords x n).2 = f s := by
  have hsv : ∀ (s : State) a b n, f (s.svcTo a b n) = f s := fun s a b n => by
    refine svcTo_keeps f (fun s c a n h => hc s c a n ?_) hl ht s a b n
    simp only [linkCtrs, List.mem_cons, List.not_mem_nil, or_false] at h
    rcases h with rfl | rfl | rfl | rfl <;> exact ⟨rfl, by decide⟩
  have hr := noteReads_keeps f hc (fun s a rule => hn s _ a rule)
  unfold State.leafWords
  by_cases hx : inExt x = true
  · rw [if_pos hx]
    exact extReads_keeps f le_rfl hm hs hg (fun s rule => hn s _ 0 rule) hf s _ (leaf_groups hx h)
  · rw [if_neg hx]
    dsimp only
    rw [hr]
    split
    · rfl
    · exact (hsv ..).trans (hsv ..)

end

theorem leafWords_shows (s : State) (x : Nat) {n : Nat} (h : n ≤ 65536) : (s.leafWords x n).2.hut = s.hut ∧
    (s.leafWords x n).2.ctr C.TAL_CNT_LEAVES = s.ctr C.TAL_CNT_LEAVES :=
  ⟨leafWords_keeps State.hut (fun _ _ => rfl) (fun _ _ _ _ => rfl) (fun _ _ _ _ _ _ => rfl) (fun _ _ _ _ _ => rfl) (fun _ _ _ _ => rfl) (fun _ _ => rfl)
      (fun _ _ _ _ => rfl) (fun s k r n => take_keeps State.hut s (fun _ _ _ _ => rfl) (fun _ _ => rfl) k r n) s x h,
    leafWords_keeps (fun s => s.ctr C.TAL_CNT_LEAVES) (fun _ _ => rfl) (fun _ _ _ _ => rfl)
      (fun _ _ k _ hk hg => State.ctr_count_ne _ _ (leavesCtr_ne (.inr ⟨hg, k, hk, rfl⟩))) (fun _ _ _ _ hc => State.ctr_count_ne _ _ (leavesCtr_ne (.inl hc)))
      (fun _ _ _ _ => rfl) (fun _ _ => rfl) (fun _ _ _ _ => rfl) ctr_take_leaves s x h⟩

theorem aget_append_new {κ α : Type} [DecidableEq κ] {k : κ} {v : α} : ∀ {l : List (κ × α)}, aget l k = none → aget (List.append l [(k, v)]) k = some v
  | [], _ => by simp [aget]
  | (j, w) :: l, h => by
    change aget ((j, w) :: List.append l [(k, v)]) k = some v
    rw [aget] at h ⊢
    split at h
    · cases h
    · next hne =>
      rw [if_neg hne]
      exact aget_append_new h

/-- A leaf read and digested (R365, R366). -/
def leafKept (u : State) (k i : Nat) (d : DigX) (g : List Byte) : State :=
  ((u.wr F.TAL_DIG_DONE 0 k (d.leaves.length + 1)).count C.TAL_CNT_LEAVES).modHut
    (fun h => { h with digs := aput h.digs k { d with leaves := List.append d.leaves [(i, g)] } })

theorem leafKept_shows (u : State) (k i : Nat) (d : DigX) (g : List Byte) : let t := leafKept u k i d g
    aget t.hut.digs k = some { d with leaves := List.append d.leaves [(i, g)] } ∧ t.rd F.TAL_DIG_DONE 0 k = (d.leaves.length + 1) % 2 ^ 24 ∧
    t.ctr C.TAL_CNT_LEAVES = (u.ctr C.TAL_CNT_LEAVES + 1) % 2 ^ 48 ∧ Frame u t (oneReg .TAL_DIG 0 k) := by
  have hr : (leafKept u k i d g).regs = (u.wr F.TAL_DIG_DONE 0 k (d.leaves.length + 1)).regs := rfl
  refine ⟨aget_aput_same .., (rd_of_regs hr ..).trans (State.rd_wr_self u _ _ _ _ (by decide)), State.ctr_count_same .., .of_mems ?_,
    ((SameRegs.refl u _).wr (f := F.TAL_DIG_DONE) _ ⟨rfl, rfl, rfl⟩).trans (.of_eq hr)⟩
  unfold leafKept
  simp

/-- A commit point of a part: its record (R348). -/
theorem poisonPart_shows (u : State) (p job kind site addr : Nat) : let t := u.poisonPart p job kind site addr
    t.hut.digs = u.hut.digs ∧ t.rd F.HUT_POISON_KIND 0 p = kind % 8 ∧ mems t = mems u := by
  obtain ⟨v, hv, to_, b, he⟩ : ∃ v : State, (v.hut.digs = u.hut.digs ∧ v.regs = (u.logPoison p kind site addr).regs ∧ mems v = mems u) ∧
      ∃ to_ b, u.poisonPart p job kind site addr = v.event to_ 3 b := by
    refine ⟨(u.logPoison p kind site addr).modHut (fun h => { h with fails := List.append h.fails [⟨p, job, 0x20, 1, site, 0, 0, none⟩] }),
      ⟨rfl, rfl, (mems_modHut ..).trans (mems_logPoison ..)⟩, _, _, rfl⟩
  obtain ⟨v1, v2, v3⟩ := hv
  have hk := event_keeps v to_ 3 b
  rw [he]
  refine ⟨(congrArg HutX.digs hk.hut).trans v1, (hk.rd F.HUT_POISON_KIND 0 p).trans ((rd_of_regs v2 F.HUT_POISON_KIND 0 p).trans ?_), hk.mems.trans v3⟩
  have hw : (u.logPoison p kind site addr).word .HUT_POISON 0 p =
      setFields [(F.HUT_POISON_KIND, kind), (F.HUT_POISON_SITE, site), (F.HUT_POISON_ADDR, addr)] (u.word .HUT_POISON 0 p) := State.word_setWord_same ..
  unfold State.rd
  rw [show F.HUT_POISON_KIND.reg = .HUT_POISON from rfl, hw]
  simp only [setFields, List.foldl_cons, List.foldl_nil]
  rw [fieldGet_fieldSet_other _ _ (by decide), fieldGet_fieldSet_other _ _ (by decide), fieldGet_fieldSet_self _ _ _ (by decide)]
  rfl

/-- A digest abandoned (R348). -/
theorem abandonDigest_shows {v : State} {k c : Nat} {d : DigX} (hd : aget v.hut.digs k = some d) : let t := v.abandonDigest k c
    aget t.hut.digs k = none ∧ t.rd F.TAL_DIG_STATE 0 k = 3 ∧
    (∀ f : Fld, f.reg ≠ .TAL_DIG ∧ f.reg ≠ .HUT_TRAIN → ∀ a i, t.rd f a i = v.rd f a i) ∧ mems t = mems v := by
  obtain ⟨w, hw⟩ : ∃ w, w = ((v.wr F.TAL_DIG_STATE 0 k 3).modHut (fun h => { h with digs := adel h.digs k })).settlePend k := ⟨_, rfl⟩
  have he : v.abandonDigest k c = match d.ctx with
      | some x => w.complete x opDigestNow 0x20 c
      | none => w := by
    rw [hw]
    unfold State.abandonDigest
    rewrite [hd]
    rfl
  obtain ⟨p1, p2, p3, p4⟩ := settlePend_shows ((v.wr F.TAL_DIG_STATE 0 k 3).modHut (fun h => { h with digs := adel h.digs k })) k
  rw [← hw] at p2 p3
  have h1 : aget w.hut.digs k = none := by
    rw [p2]
    exact aget_adel_same ..
  have h2 : w.rd F.TAL_DIG_STATE 0 k = 3 := (p3 _ (by decide) ..).trans (State.rd_wr_self v F.TAL_DIG_STATE 0 k 3 (by decide))
  have h3 : ∀ f : Fld, f.reg ≠ .TAL_DIG ∧ f.reg ≠ .HUT_TRAIN → ∀ a i, w.rd f a i = v.rd f a i := fun f hf a i =>
    (p3 f hf.2 a i).trans (State.rd_wr_other v _ _ _ _ _ (.inl hf.1))
  have h4 : mems w = mems v := by
    rw [hw]
    simp
  clear hw p1 p2 p3 p4
  rw [he]
  match d.ctx with
  | none => exact ⟨h1, h2, h3, h4⟩
  | some x =>
    obtain ⟨c1, c2, c3, -, -⟩ := complete_quiet w x opDigestNow 0x20 c 0 0
    exact ⟨(congrArg (fun h : HutX => aget h.digs k) c3).trans h1, (rd_of_regs c1 ..).trans h2, fun f hf a i => (rd_of_regs c1 ..).trans (h3 f hf a i), c2.trans h4⟩

section
variable {s : State} {p : PartNo} {i : BitVec 24} {d : DigX} (hd : aget s.hut.digs p.toNat = some d) (hi : i.toNat < (leavesOf d.ranges).length)
  (hn : aget d.leaves i.toNat = none)
include hd hi hn

/-- The reading of a leaf, once its words are read (R366). -/
theorem leafRead_eq : let y := (leavesOf d.ranges).getD i.toNat (0, 0)
    let z := s.leafWords y.1 y.2
    exec (.leafRead p i) s = .next (match z.1.findIdx? (fun w => w.poison != 0) with
      | some j => (z.2.poisonPart p.toNat d.job 4 (z.2.laneOf p.toNat (leavesOf d.ranges) i.toNat) (y.1 + 8 * j)).abandonDigest p.toNat
      | none => leafKept z.2 p.toNat i.toNat d (leafDigest i.toNat (z.1.flatMap (fun w => leBytes w.data.toNat 8)))) := by
  intro y z
  have hc : ¬ (decide (i.toNat ≥ (leavesOf d.ranges).length) || (aget d.leaves i.toNat).isSome) = true := by
    rw [hn]
    simpa using hi
  have hy : y = (leavesOf d.ranges).getD i.toNat (0, 0) := rfl
  have hz : z = s.leafWords y.1 y.2 := rfl
  clear_value z
  refine congrArg Host.Outcome.next ?_
  rewrite [hd]
  dsimp only
  rw [← hy]
  clear_value y
  obtain ⟨x, n⟩ := y
  refine (if_neg hc).trans ?_
  rw [← hz]
  obtain ⟨ws, u⟩ := z
  dsimp only
  generalize ws.findIdx? (fun w => w.poison != 0) = o
  match o with
  | some _ => rfl
  | none => rfl

theorem leafJoins : let y := (leavesOf d.ranges).getD i.toNat (0, 0)
    let ws := (s.leafWords y.1 y.2).1
    let u := (s.leafWords y.1 y.2).2
    (∀ w ∈ ws, w.poison = 0) → Done (.leafRead p i) s (fun t =>
      (∃ d', aget t.hut.digs p.toNat = some d' ∧
        aget d'.leaves i.toNat = some (leafDigest i.toNat (ws.flatMap (fun w => leBytes w.data.toNat 8)))) ∧
      t.rd F.TAL_DIG_DONE 0 p.toNat = (d.leaves.length + 1) % 2 ^ 24 ∧
      t.ctr C.TAL_CNT_LEAVES = (s.ctr C.TAL_CNT_LEAVES + 1) % 2 ^ 48 ∧ Frame u t (oneReg .TAL_DIG 0 p.toNat)) := by
  intro y ws u hp
  have hex := leafRead_eq hd hi hn
  dsimp only at hex
  have hy : (leavesOf d.ranges).getD i.toNat (0, 0) ∈ leavesOf d.ranges := by
    rw [List.getD_eq_getElem _ _ hi]
    exact List.getElem_mem hi
  obtain ⟨-, hctr⟩ := leafWords_shows s ((leavesOf d.ranges).getD i.toNat (0, 0)).1 (leaf_le hy)
  change exec _ s = .next (match ws.findIdx? (fun w => w.poison != 0) with | some _ => _ | none => leafKept u _ _ _ _) at hex
  rw [List.findIdx?_eq_none_iff.mpr (fun w hw => by rw [hp w hw]; rfl)] at hex
  have hu : u.ctr C.TAL_CNT_LEAVES = s.ctr C.TAL_CNT_LEAVES := hctr
  obtain ⟨k1, k2, k3, k4⟩ := leafKept_shows u p.toNat i.toNat d (leafDigest i.toNat (ws.flatMap (fun w => leBytes w.data.toNat 8)))
  exact .next hex ⟨⟨_, k1, aget_append_new hn⟩, k2, by rw [k3, hu], k4⟩

theorem leafPoisoned : let y := (leavesOf d.ranges).getD i.toNat (0, 0)
    let ws := (s.leafWords y.1 y.2).1
    let u := (s.leafWords y.1 y.2).2
    (∃ w ∈ ws, w.poison ≠ 0) → Done (.leafRead p i) s (fun t => aget t.hut.digs p.toNat = none ∧ t.rd F.TAL_DIG_STATE 0 p.toNat = 3 ∧
      t.rd F.HUT_POISON_KIND 0 p.toNat = 4 ∧ SameMem u t) := by
  intro y ws u hp
  have hex := leafRead_eq hd hi hn
  dsimp only at hex
  have hy : (leavesOf d.ranges).getD i.toNat (0, 0) ∈ leavesOf d.ranges := by
    rw [List.getD_eq_getElem _ _ hi]
    exact List.getElem_mem hi
  obtain ⟨hhut, -⟩ := leafWords_shows s ((leavesOf d.ranges).getD i.toNat (0, 0)).1 (leaf_le hy)
  obtain ⟨j, hj⟩ : ∃ j, ws.findIdx? (fun w => w.poison != 0) = some j := by
    rw [← Option.isSome_iff_exists, List.findIdx?_isSome, List.any_eq_true]
    obtain ⟨w, hw, hwp⟩ := hp
    exact ⟨w, hw, bne_iff_ne.mpr hwp⟩
  change exec _ s = .next (match ws.findIdx? (fun w => w.poison != 0) with
    | some j => (u.poisonPart p.toNat d.job 4 (u.laneOf p.toNat (leavesOf d.ranges) i.toNat) (y.1 + 8 * j)).abandonDigest p.toNat
    | none => _) at hex
  rw [hj] at hex
  obtain ⟨q1, q2, q3⟩ := poisonPart_shows u p.toNat d.job 4 (u.laneOf p.toNat (leavesOf d.ranges) i.toNat) (y.1 + 8 * j)
  have hdv : aget (u.poisonPart p.toNat d.job 4 (u.laneOf p.toNat (leavesOf d.ranges) i.toNat) (y.1 + 8 * j)).hut.digs p.toNat = some d := by
    rw [q1, show u.hut = s.hut from hhut]
    exact hd
  obtain ⟨a1, a2, a3, a4⟩ := abandonDigest_shows hdv
  exact .next hex ⟨a1, a2, (a3 _ ⟨by decide, by decide⟩ ..).trans q2, .of_mems (a4.trans q3)⟩

end

/-! ### Roots -/

/-- The four words of a root (R365). -/
def rootShown (s : State) (k : Nat) (r : List Byte) : State :=
  (List.range 4).foldl (fun s j => s.wr F.TAL_ROOT_ROOT 0 (4 * k + j) (leNat ((r.drop (8 * j)).take 8))) s

theorem rootShown_shows (s : State) (k : Nat) (r : List Byte) : let t := rootShown s k r
    (∀ j, j < 4 → t.rd F.TAL_ROOT_ROOT 0 (4 * k + j) = leNat ((r.drop (8 * j)).take 8) % 2 ^ 64) ∧ t.hut = s.hut ∧
    (∀ f : Fld, f.reg ≠ .TAL_ROOT → ∀ a i, t.rd f a i = s.rd f a i) ∧ mems t = mems s := by
  have hfold : ∀ n, n ≤ 4 → let t := (List.range n).foldl (fun s j => s.wr F.TAL_ROOT_ROOT 0 (4 * k + j) (leNat ((r.drop (8 * j)).take 8))) s
      (∀ j, j < n → t.rd F.TAL_ROOT_ROOT 0 (4 * k + j) = leNat ((r.drop (8 * j)).take 8) % 2 ^ 64) ∧ t.hut = s.hut ∧
      (∀ f : Fld, f.reg ≠ .TAL_ROOT → ∀ a i, t.rd f a i = s.rd f a i) ∧ mems t = mems s := by
    intro n
    induction n with
    | zero => exact fun _ => ⟨fun j h => absurd h (Nat.not_lt_zero j), rfl, fun _ _ _ _ => rfl, rfl⟩
    | succ n ih =>
      intro hn
      obtain ⟨i1, i2, i3, i4⟩ := ih (by omega)
      rw [List.range_succ, List.foldl_append]
      generalize (List.range n).foldl (fun s j => s.wr F.TAL_ROOT_ROOT 0 (4 * k + j) (leNat ((r.drop (8 * j)).take 8))) s = u at *
      refine ⟨fun j hj => ?_, i2, fun f hf a i => (State.rd_wr_other u _ _ _ _ _ (.inl hf)).trans (i3 f hf a i), (mems_wr ..).trans i4⟩
      by_cases h : j = n
      · subst h
        exact State.rd_wr_self u F.TAL_ROOT_ROOT 0 _ _ (by decide)
      · refine Eq.trans ?_ (i1 j (by omega))
        exact ((SameRegs.refl u (oneReg .TAL_ROOT 0 (4 * k + n))).wr (f := F.TAL_ROOT_ROOT) _ ⟨rfl, rfl, rfl⟩).rd (fun e => h (by have := e.2.2; omega))
  exact hfold 4 (le_refl 4)

/-- A digest that has ended, taken from those under way (R365). -/
def digestTaken (s : State) (k : Nat) : State := s.modHut (fun h => { h with digs := adel h.digs k })

/-- The event of a root (R365). -/
def rootTold (w : State) (k step : Nat) (r : List Byte) : State :=
  w.event (w.ofTenant (w.tenantOf k)) 7 (step :: (r.take 16).map (fun b => b.toNat))

/-- The completion of the command that asked for a digest, if one did (R367). -/
def digestEnded (u : State) : Option Ctx → State
  | some c => u.ok c opDigestNow
  | none => u

theorem rootStands (s : State) (p : PartNo) (d : DigX) (hd : aget s.hut.digs p.toNat = some d) (hl : (leavesOf d.ranges).length ≤ d.leaves.length)
    (he : s.rd F.TAL_LIST_EN 0 p.toNat = 0) : let k := p.toNat
    let root := rootDigest (s.rd F.TAL_DIGSTEP_STEP 0 k) ((List.range (leavesOf d.ranges).length).map (fun i => (aget d.leaves i).getD []))
    Done (.digestComplete p) s (fun t => t.rd F.TAL_DIG_STATE 0 k = 2 ∧ aget t.hut.digs k = none ∧
      (∀ j, j < 4 → t.rd F.TAL_ROOT_ROOT 0 (4 * k + j) = leNat ((root.drop (8 * j)).take 8) % 2 ^ 64) ∧
      t.rd F.HUT_TRAIN_DIG_PEND 0 k = (s.hut.digDue.any (fun x => x.1 == k)).toNat ∧ SameMem s t) := by
  intro k root
  obtain ⟨r1, r2, r3, r4⟩ := rootShown_shows s k root
  have hlist : ((rootShown s k root).wr F.TAL_DIG_STATE 0 k 2).writeLeafList k ((List.range (leavesOf d.ranges).length).map (fun i => (aget d.leaves i).getD [])) =
      (rootShown s k root).wr F.TAL_DIG_STATE 0 k 2 :=
    if_pos ((State.rd_wr_other _ _ _ _ _ _ (by decide)).trans ((r3 _ (by decide) ..).trans he))
  have hex : exec (.digestComplete p) s = .next (digestEnded (rootTold ((digestTaken (((rootShown s k root).wr F.TAL_DIG_STATE 0 k 2).writeLeafList k
      ((List.range (leavesOf d.ranges).length).map (fun i => (aget d.leaves i).getD []))) k).settlePend k) k (s.rd F.TAL_DIGSTEP_STEP 0 k) root) d.ctx) := by
    refine congrArg Host.Outcome.next ?_
    rewrite [hd]
    exact if_neg (Nat.not_lt.mpr hl)
  rw [hlist] at hex
  generalize hv : (rootShown s k root).wr F.TAL_DIG_STATE 0 k 2 = v at *
  have v1 : v.rd F.TAL_DIG_STATE 0 k = 2 := by
    rw [← hv]
    exact State.rd_wr_self _ _ _ _ _ (by decide)
  have v2 : ∀ j, j < 4 → v.rd F.TAL_ROOT_ROOT 0 (4 * k + j) = leNat ((root.drop (8 * j)).take 8) % 2 ^ 64 := fun j hj => by
    rw [← hv]
    exact (State.rd_wr_other _ _ _ _ _ _ (by decide)).trans (r1 j hj)
  have v3 : v.hut = s.hut ∧ mems v = mems s := by
    rw [← hv]
    exact ⟨r2, (mems_wr ..).trans r4⟩
  clear hv
  obtain ⟨p1, p2, p3, p4⟩ := settlePend_shows (digestTaken v k) k
  have hdue : (digestTaken v k).hut.digDue = s.hut.digDue ∧ aget (digestTaken v k).hut.digs k = none :=
    ⟨(show (digestTaken v k).hut.digDue = v.hut.digDue from rfl).trans (congrArg HutX.digDue v3.1), aget_adel_same ..⟩
  have hreg : ∀ f a i, (digestTaken v k).rd f a i = v.rd f a i := fun _ _ _ => rfl
  have hm : mems (digestTaken v k) = mems v := mems_modHut ..
  generalize digestTaken v k = w at *
  have hk : EventKeeps (w.settlePend k) (rootTold (w.settlePend k) k (s.rd F.TAL_DIGSTEP_STEP 0 k) root) := event_keeps ..
  rw [hdue.1, hdue.2] at p1
  generalize rootTold (w.settlePend k) k (s.rd F.TAL_DIGSTEP_STEP 0 k) root = u at *
  have hu : u.rd F.TAL_DIG_STATE 0 k = 2 ∧ aget u.hut.digs k = none ∧
      (∀ j, j < 4 → u.rd F.TAL_ROOT_ROOT 0 (4 * k + j) = leNat ((root.drop (8 * j)).take 8) % 2 ^ 64) ∧
      u.rd F.HUT_TRAIN_DIG_PEND 0 k = (s.hut.digDue.any (fun x => x.1 == k)).toNat ∧ SameMem s u :=
    ⟨(hk.rd _ _ _).trans ((p3 _ (by decide) _ _).trans ((hreg ..).trans v1)), by rw [hk.hut, p2]; exact hdue.2,
      fun j hj => (hk.rd _ _ _).trans ((p3 _ (by decide) _ _).trans ((hreg ..).trans (v2 j hj))),
      (hk.rd _ _ _).trans (p1.trans (by simp)), (SameMem.of_mems (hm.trans v3.2)).trans (p4.1.trans (.of_mems hk.mems))⟩
  match hctx : d.ctx with
  | none =>
    rw [hctx] at hex
    exact .next hex hu
  | some c =>
    rw [hctx] at hex
    obtain ⟨c1, c2, c3, -, -⟩ := complete_quiet u c opDigestNow 0 0 0 0
    have hrd : ∀ f a i, (u.ok c opDigestNow).rd f a i = u.rd f a i := fun f a i => rd_of_regs c1 f a i
    have hhut : (u.ok c opDigestNow).hut = u.hut := c3
    obtain ⟨u1, u2, u3, u4, u5⟩ := hu
    exact .next hex ⟨(hrd ..).trans u1, (congrArg (fun h : HutX => aget h.digs k) hhut).trans u2, fun j hj => (hrd ..).trans (u3 j hj), (hrd ..).trans u4, u5.trans (.of_mems c2)⟩

/-- Settles O34. -/
theorem digestsAreComputed : Obligations.DigestsAreComputed := fun s p =>
  ⟨fun job hc hf hn => scheduledStarts s p job hc hf hn, fun _ _ hd hi hn => ⟨leafJoins hd hi hn, leafPoisoned hd hi hn⟩,
    fun d hd hl he => rootStands s p d hd hl he⟩

end Sys2Proof.Proofs
end

section
/-! PROOF. The loader's check: a section is staged or refused (R284, R295, R297, R324, R412). -/

namespace Sys2Proof.Proofs

open Sys2Proof Sys2Proof.Machine

/-! ### The staged frames -/

theorem byte_of_mems {s t : State} (h : mems t = mems s) (z : Nat) : t.byte z = s.byte z := (SameMem.of_mems h z).1

theorem putRawWords_out (s : State) (x : Nat) (l : List RawWord) {z : Nat} (h : z < x ∨ x + 8 * l.length ≤ z) :
    (s.putRawWords x l).byte z = s.byte z := by
  induction l generalizing s x with
  | nil => rfl
  | cons w l ih =>
    rw [List.length_cons] at h
    rw [putRawWords_cons, ih _ _ (by omega), byte_marked, State.byte_putRaw_out _ _ _ _ (by rw [length_leBytes]; omega)]

/-- A write, served or not, changes no byte outside its words. -/
theorem extWrite_out (s : State) (x : Nat) (l : List RawWord) {z : Nat} (h : z < x ∨ x + 8 * l.length ≤ z) : (s.extWrite x l).byte z = s.byte z := by
  have hc := byte_of_mems (mems_count s C.MEM_CNT_WRBYTES (16 * groupOf x) (8 * l.length)) z
  rw [extWrite_eq]
  generalize s.count C.MEM_CNT_WRBYTES (16 * groupOf x) (8 * l.length) = v at hc ⊢
  dsimp only
  split
  · exact (countUnserved_keeps (fun s => s.byte z) _ _ (fun _ _ _ _ => byte_of_mems (mems_count ..) z)).trans hc
  · rw [putRawWords_out _ _ _ (by rwa [List.length_map])]
    exact (stripeWritten_keeps (fun s => s.byte z) (fun _ _ => rfl) ..).trans hc

/-- The runs of a request change no byte outside its words. -/
theorem extWrites_out (s : State) (o : TurnOwner) (x : Nat) (l : List RawWord) {z : Nat} (h : z < x ∨ x + 8 * l.length ≤ z) :
    (s.extWrites o x l).byte z = s.byte z := by
  unfold State.extWrites
  have hb : ∀ r ∈ stripeRuns x l.length, x ≤ r.1 ∧ r.1 + 8 * r.2 ≤ x + 8 * l.length := fun r hr =>
    ⟨(stripeRuns_bounds hr).1, (stripeRuns_bounds hr).2.1⟩
  generalize stripeRuns x l.length = runs at hb
  induction runs generalizing s with
  | nil => rfl
  | cons r runs ih =>
    obtain ⟨h1, h2⟩ := hb r List.mem_cons_self
    have hl : ((l.drop ((r.1 - x) / 8)).take r.2).length ≤ r.2 := List.length_take_le ..
    rw [List.foldl_cons, ih _ (fun r hr => hb r (List.mem_cons_of_mem _ hr)), extWrite_out _ _ _ (by omega)]
    exact edgeTurn_keeps (fun s => s.byte z) (fun _ _ => rfl) ..

/-- The place of the staged frames and their index. -/
def outsideFrames (x : SectX) (z : Nat) : Prop := z < x.frameBase ∨ x.frameBase + 264 * x.img.frames.length ≤ z

theorem stageFrame_out (s : State) (e : Nat) {x : SectX} {i : Nat} (f : Nat) (hi : i < x.img.frames.length) {z : Nat} (h : outsideFrames x z) :
    (s.stageFrame e x i f).byte z = s.byte z := by
  unfold outsideFrames at h
  unfold State.stageFrame
  dsimp only
  split
  · rfl
  · next rec _ =>
    rw [extWrites_out _ _ _ _ (by unfold SectX.indexAddr; rw [List.length_singleton]; omega),
      extWrites_out _ _ _ _ (by unfold SectX.frameAddr SectionImage.frameData; rw [List.length_map, List.length_map, List.length_range]; omega)]

theorem stageFrame_keeps {γ : Type} (f : State → γ) (hm : ∀ (s : State) m, f { s with memc := m } = f s)
    (hs : ∀ (s : State) m p y, f { s with mem := m, poison := p, synd := y } = f s) (hc : ∀ (s : State) c b n, f (s.count c b n) = f s)
    (s : State) (e : Nat) (x : SectX) (i k : Nat) : f (s.stageFrame e x i k) = f s := by
  unfold State.stageFrame
  dsimp only
  split
  · rfl
  · exact (extWrites_keeps f hm hs hc ..).trans (extWrites_keeps f hm hs hc ..)

/-- The frames of a section, written. -/
def framesWritten (s : State) (e : Nat) (x : SectX) : State :=
  ((List.range x.img.frames.length).zip x.img.frames).foldl (fun s q => s.stageFrame e x q.1 q.2) s

theorem framesWritten_shows (s : State) (e : Nat) (x : SectX) : let t := framesWritten s e x
    t.regs = s.regs ∧ t.hut = s.hut ∧ ∀ z, outsideFrames x z → t.byte z = s.byte z := by
  refine ⟨foldl_keep State.regs _ (fun _ _ => stageFrame_keeps State.regs (fun _ _ => rfl) (fun _ _ _ _ => rfl) (fun _ _ _ _ => rfl) ..) _ _,
    foldl_keep State.hut _ (fun _ _ => stageFrame_keeps State.hut (fun _ _ => rfl) (fun _ _ _ _ => rfl) (fun _ _ _ _ => rfl) ..) _ _, fun z hz => ?_⟩
  unfold framesWritten
  have hi : ∀ q ∈ (List.range x.img.frames.length).zip x.img.frames, q.1 < x.img.frames.length := fun q hq =>
    List.mem_range.mp (List.of_mem_zip (b := q.2) hq).1
  generalize (List.range x.img.frames.length).zip x.img.frames = l at hi
  induction l generalizing s with
  | nil => rfl
  | cons q l ih =>
    rw [List.foldl_cons, ih _ (fun q hq => hi q (List.mem_cons_of_mem _ hq)), stageFrame_out _ _ _ (hi q List.mem_cons_self) hz]

/-! ### A section is staged -/

/-- What a directory entry shows of the section staged in it. -/
def entryShown (e : Nat) (s : State) : Nat × Nat × Nat × Nat × Option (SectionImage × Nat) :=
  (s.sectState e, s.rd F.HUT_SECT_ORG_COL 0 e, s.rd F.HUT_SECT_ORG_ROW 0 e, s.jobOf e, (s.sectX? e).map (fun x => (x.img, x.frameBase)))

theorem entryShown_of {s t : State} (e : Nat) (hr : t.regs = s.regs) (hh : t.hut.sects = s.hut.sects) : entryShown e t = entryShown e s := by
  unfold entryShown State.sectState State.jobOf State.sectX?
  rw [hh]
  simp only [rd_of_regs hr]

theorem entryShown_modSect (s : State) (e : Nat) (f : SectX → SectX) (hf : ∀ x, (f x).img = x.img ∧ (f x).frameBase = x.frameBase) :
    entryShown e (s.modSect e f) = entryShown e s := by
  unfold State.modSect
  split
  · rfl
  · next x hx =>
    have h : ∀ v : State, v.regs = s.regs → aget v.hut.sects e = some (f x) → entryShown e v = entryShown e s := fun v hr hv => by
      unfold entryShown State.sectState State.jobOf State.sectX?
      rw [hv, hx, Option.map_some, Option.map_some, (hf x).1, (hf x).2]
      simp only [rd_of_regs hr]
    exact h _ rfl (aget_aput_same ..)

theorem modSect_sect {s : State} {e : Nat} {x : SectX} (h : s.sectX? e = some x) (f : SectX → SectX) : (s.modSect e f).sectX? e = some (f x) := by
  unfold State.modSect
  unfold State.sectX? at h
  rw [h]
  exact aget_aput_same ..

/-- A section in an entry, before its frames are written. -/
def entryPlaced (s : State) (e : Nat) (x : SectX) (g : SectionImage) (o : LoadOps) : State :=
  ((((s.modHut (fun h => { h with sects := aput h.sects e x })).setWord .HUT_SECT 0 e 0).wrs 0 e
    [(F.HUT_SECT_ORG_COL, o.orgC.toNat), (F.HUT_SECT_ORG_ROW, o.orgR.toNat), (F.HUT_SECT_JOB, g.job)]).setSect e 1)

theorem setSect_shows (s : State) (e st : Nat) : let t := s.setSect e st
    t.hut = s.hut ∧ t.regs = (s.wr F.HUT_SECT_STATE 0 e st).regs ∧ mems t = mems s ∧ t.sites = s.sites := by
  have h := event_keeps (s.wr F.HUT_SECT_STATE 0 e st) ((s.wr F.HUT_SECT_STATE 0 e st).ofTenant ((s.wr F.HUT_SECT_STATE 0 e st).tenantOf (e / 32))) 1
    [e % 32, st, (s.wr F.HUT_SECT_STATE 0 e st).jobOf e, 0, 0]
  exact ⟨h.hut, h.regs, h.mems.trans rfl, h.sites⟩

theorem entryPlaced_shows (s : State) (e : Nat) (x : SectX) (g : SectionImage) (o : LoadOps) : let t := entryPlaced s e x g o
    t.sectX? e = some x ∧ t.sectState e = 1 ∧ t.jobOf e = g.job % 65536 ∧ t.rd F.HUT_SECT_ORG_COL 0 e = o.orgC.toNat % 16 ∧
    t.rd F.HUT_SECT_ORG_ROW 0 e = o.orgR.toNat % 16 ∧ mems t = mems s := by
  unfold entryPlaced
  have hv : aget (s.modHut (fun h => { h with sects := aput h.sects e x })).hut.sects e = some x := aget_aput_same ..
  have hm : mems (s.modHut (fun h => { h with sects := aput h.sects e x })) = mems s := rfl
  generalize s.modHut (fun h => { h with sects := aput h.sects e x }) = v at hv hm
  generalize hw : (v.setWord .HUT_SECT 0 e 0).wrs 0 e [(F.HUT_SECT_ORG_COL, o.orgC.toNat), (F.HUT_SECT_ORG_ROW, o.orgR.toNat), (F.HUT_SECT_JOB, g.job)] = w
  have h1 : w.hut = v.hut ∧ mems w = mems v := hw ▸ ⟨rfl, rfl⟩
  have h2 : w.rd F.HUT_SECT_ORG_COL 0 e = o.orgC.toNat % 16 ∧ w.rd F.HUT_SECT_ORG_ROW 0 e = o.orgR.toNat % 16 ∧
      w.rd F.HUT_SECT_JOB 0 e = g.job % 65536 := by
    rw [← hw]
    simp (disch := decide) only [State.wrs, List.foldl, State.rd_wr_self, State.rd_wr_other]
    exact ⟨rfl, rfl, rfl⟩
  clear hw
  obtain ⟨k1, k2, k3, -⟩ := setSect_shows w e 1
  generalize w.setSect e 1 = t at k1 k2 k3 ⊢
  intro t
  have hr : ∀ f : Fld, t.rd f 0 e = (w.wr F.HUT_SECT_STATE 0 e 1).rd f 0 e := fun f => rd_of_regs k2 f 0 e
  refine ⟨?_, ?_, ?_, ?_, ?_, k3.trans (h1.2.trans hm)⟩
  · unfold State.sectX?
    rw [k1, h1.1]
    exact hv
  · exact (hr _).trans (State.rd_wr_self _ _ _ _ _ (by decide))
  · exact ((hr _).trans (State.rd_wr_other _ _ _ _ _ _ (by decide))).trans h2.2.2
  · exact ((hr _).trans (State.rd_wr_other _ _ _ _ _ _ (by decide))).trans h2.1
  · exact ((hr _).trans (State.rd_wr_other _ _ _ _ _ _ (by decide))).trans h2.2.1

theorem stage_entry (s : State) (k e : Nat) (g : SectionImage) (o : LoadOps) : ∃ x : SectX, x.img = g ∧ x.stagedAt = none ∧
    s.stage k e g o = (entryPlaced s e x g o).stageFrames e := by
  unfold State.stage
  extract_lets c r halves groups places bases x s1 s2
  exact ⟨x, rfl, rfl, rfl⟩

theorem stageFrames_unstaged {s : State} {e : Nat} {x : SectX} (hx : s.sectX? e = some x) (hn : x.stagedAt = none) : ∃ f : SectX → SectX,
    s.stageFrames e = (framesWritten s e x).modSect e f ∧ ∀ y, (f y).img = y.img ∧ (f y).frameBase = y.frameBase := by
  refine ⟨fun y => { y with stagedAt := some (s.rd F.HUT_SECT_ORG_ROW 0 e, x.halves) }, ?_, fun _ => ⟨rfl, rfl⟩⟩
  unfold State.stageFrames
  rw [hx]
  exact if_neg (by rw [hn]; exact nofun)

/-- A staged section: its entry, and the bytes outside the place of its frames. -/
theorem stage_shows (s : State) (k e : Nat) (g : SectionImage) (o : LoadOps) : ∃ base, let t := s.stage k e g o
    entryShown e t = (1, o.orgC.toNat % 16, o.orgR.toNat % 16, g.job % 65536, some (g, base)) ∧
    ∀ z, z < base ∨ base + 264 * g.frames.length ≤ z → t.byte z = s.byte z := by
  obtain ⟨x, hi, hn, ht⟩ := stage_entry s k e g o
  obtain ⟨p1, p2, p3, p4, p5, p6⟩ := entryPlaced_shows s e x g o
  generalize entryPlaced s e x g o = v at *
  obtain ⟨f, hf, hfx⟩ := stageFrames_unstaged p1 hn
  obtain ⟨w1, w2, w3⟩ := framesWritten_shows v e x
  refine ⟨x.frameBase, ?_, fun z hz => ?_⟩
  · rw [ht, hf, entryShown_modSect _ _ _ hfx, entryShown_of e w1 (congrArg HutX.sects w2)]
    unfold entryShown
    rw [p1, p2, p3, p4, p5, Option.map_some, hi]
  · rw [ht, hf, byte_of_mems (modSect_quiet _ e f).2.2 z, w3 z (by unfold outsideFrames; rwa [hi]), byte_of_mems p6 z]

/-! ### The LOAD completes -/

theorem complete_shown (s : State) (e : Nat) (c : Ctx) (op cls code res det : Nat) :
    entryShown e (s.complete c op cls code res det) = entryShown e s ∧ (s.complete c op cls code res det).hut.sects = s.hut.sects := by
  obtain ⟨h1, -, h3, -⟩ := complete_quiet s c op cls code res det
  exact ⟨entryShown_of e h1 (congrArg HutX.sects h3), congrArg HutX.sects h3⟩

/-- A RUN leaves what an entry shows of its section. -/
theorem runEntry_shown (s : State) (c : Ctx) (o : RunOps) (e : Nat) : entryShown e (s.runEntry c o e) = entryShown e s := by
  unfold State.runEntry
  extract_lets old v
  refine ite_keeps _ (complete_shown ..).1 ?_
  have hv : entryShown e v = entryShown e s := by
    unfold entryShown State.sectState State.jobOf
    rw [show v = s.wrs 0 e _ from rfl]
    simp (disch := decide) only [State.wrs, List.foldl, State.rd_wr_other]
    rfl
  clear_value v
  have hw := entryShown_modSect v e (fun x => { x with runCtx := some c }) (fun _ => ⟨rfl, rfl⟩)
  generalize v.modSect e (fun x => { x with runCtx := some c }) = w at hw
  refine Eq.trans ?_ (hw.trans hv)
  unfold State.markRunnable
  dsimp only
  refine (entryShown_modSect _ e (fun x => { x with stamp := w.hut.stamp }) (fun _ => ⟨rfl, rfl⟩)).trans ?_
  have hu : entryShown e (w.wr F.HUT_SECT_RUNNABLE 0 e 1) = entryShown e w := by
    unfold entryShown State.sectState State.jobOf
    simp (disch := decide) only [State.rd_wr_other]
    rfl
  rw [← hu]
  exact entryShown_of e rfl rfl

theorem entryShown_modQp (e : Nat) (s : State) (q : Nat) (f : QpX → QpX) : entryShown e (s.modQp q f) = entryShown e s := entryShown_of e rfl rfl

theorem entryShown_runWaits (e : Nat) (s : State) (f : HutX → List (Ctx × RunOps)) :
    entryShown e (s.modHut (fun h => { h with runWaits := f h })) = entryShown e s := entryShown_of e rfl rfl

/-- A LOAD's completion leaves what the entry shows of its section. -/
theorem loadDone_shown (s : State) (c : Ctx) (cls code det e : Nat) :
    entryShown e (s.loadDone c cls code det (some e)) = entryShown e s := by
  have hrun := foldl_keep (entryShown e) (fun (s : State) (w : Ctx × RunOps) => s.runEntry w.1 w.2 e) (fun v w => runEntry_shown v w.1 w.2 e)
  have hc := (complete_shown s e c opLoad cls code (e % 32) det).1
  unfold State.loadDone
  extract_lets a a' l b
  refine (hrun l b).trans ?_
  rw [show entryShown e b = _ from entryShown_runWaits ..]
  exact (entryShown_modQp ..).trans hc

/-! ### A section is refused -/

theorem rd_note (s : State) (f : Fld) (a i : Nat) (rule : Word → Word) : (s.note f.reg a i rule).rd f a i = fieldGet f (rule (s.word f.reg a i)) :=
  congrArg (fieldGet f) (State.word_setWord_same ..)

theorem recordRefusal_shows (s : State) (k job : Nat) (w : Refused) : let t := s.recordRefusal k job w
    t.rd F.HUT_LOAD_REFUSAL_VALID 0 k = 1 ∧ t.rd F.HUT_LOAD_REFUSAL_CODE 0 k = w.code % 2 ^ F.HUT_LOAD_REFUSAL_CODE.width ∧
    t.hut = s.hut ∧ mems t = mems s := by
  refine ⟨(rd_note s F.HUT_LOAD_REFUSAL_VALID 0 k _).trans ?_, (rd_note s F.HUT_LOAD_REFUSAL_CODE 0 k _).trans ?_, rfl, mems_note ..⟩
  · exact fieldGet_fieldSet_self _ _ _ (by decide)
  · unfold setFields
    simp (disch := decide) only [List.foldl, fieldGet_fieldSet_self, fieldGet_fieldSet_other]

theorem sects_loadDone_none (s : State) (c : Ctx) (cls code det : Nat) : (s.loadDone c cls code det none).hut.sects = s.hut.sects := by
  have hrun := foldl_keep (fun s => s.hut.sects) (fun (s : State) (w : Ctx × RunOps) => s.status w.1 opRun stNotFound)
    (fun v w => (complete_shown v 0 w.1 opRun 3 stNotFound 0 0).2)
  have hc := (complete_shown s 0 c opLoad cls code ((none.getD 0) % 32) det).2
  unfold State.loadDone
  extract_lets a a' l b
  exact (hrun l b).trans hc

/-! ### The check -/

/-- The loader's answer to the image in an entry. -/
def loaderAnswers (v : State) (k : Nat) (g : SectionImage) (c : Ctx) (o : LoadOps) (e : Nat) : Option Refused → State
  | some w => (v.recordRefusal k g.job w).loadDone c 1 w.code ((v.recordRefusal k g.job w).word .HUT_LOAD_REFUSAL 0 k).toNat none
  | none => (v.stage k e g o).loadDone c 0 0 0 (some e)

theorem loaderCheck_answers {s : State} {p : PartNo} {img : SectionImage} {c : Ctx} {o : LoadOps} {e : Nat}
    (hl : (s.stream p.toNat).load = some (c, o)) (h3 : s.rd F.CFG_STREAM_STATE 0 p.toNat = 3) (h1 : s.rd F.CFG_STREAM_OUTCOME 0 p.toNat = 1)
    (hf : s.firstLoad p.toNat = true) (he : (s.modStream p.toNat (fun x => { x with load := none })).freeEntry p.toNat = some e) :
    exec (.loaderCheck p img) s = .next (loaderAnswers (s.modStream p.toNat (fun x => { x with load := none })) p.toNat
      (State.received img (s.stream p.toNat).got) c o e ((s.modStream p.toNat (fun x => { x with load := none })).checkImage p.toNat e
        (State.received img (s.stream p.toNat).got) o.orgC.toNat o.orgR.toNat)) := by
  change execLoaderCheck p img s = _
  unfold execLoaderCheck
  dsimp only
  rw [hl]
  refine congrArg Host.Outcome.next ((if_neg ?_).trans ?_)
  · rw [h3, h1, hf]
    decide
  · rw [he]
    dsimp only
    generalize State.checkImage _ _ _ _ _ _ = r
    cases r <;> rfl

/-- Settles O31: the image that passes is placed in its entry and its frames are written within their own place; the LOAD's
completion leaves what the entry shows. A refusal's record is written over field by field, VALID last. -/
theorem loaderStagesOrRefuses : Obligations.LoaderStagesOrRefuses := by
  unfold Obligations.LoaderStagesOrRefuses
  intro s p img c o e
  extract_lets k g v
  intro hl h3 h1 hf he
  have hex := loaderCheck_answers (img := img) hl h3 h1 hf he
  have hv : v.hut = s.hut ∧ mems v = mems s := ⟨rfl, rfl⟩
  refine ⟨fun hc => ?_, fun w hc => ?_⟩
  · rw [hc] at hex
    obtain ⟨base, hs, hb⟩ := stage_shows v k e g o
    have hd := (loadDone_shown (v.stage k e g o) c 0 0 0 e).trans hs
    have hm := mems_loadDone (v.stage k e g o) c 0 0 0 (some e)
    unfold entryShown at hd
    simp only [Prod.mk.injEq] at hd
    obtain ⟨d1, d2, d3, d4, d5⟩ := hd
    obtain ⟨y, hy, hyg⟩ := Option.map_eq_some_iff.mp d5
    simp only [Prod.mk.injEq] at hyg
    refine .next hex ⟨d1, ⟨y, hy, hyg.1, fun z hz => ?_⟩, d4, d2, d3⟩
    rw [hyg.2] at hz
    exact (byte_of_mems hm z).trans ((hb z hz).trans (byte_of_mems hv.2 z))
  · rw [hc] at hex
    obtain ⟨r1, r2, r3, r4⟩ := recordRefusal_shows v k g.job w
    replace hex : exec (.loaderCheck p img) s = .next ((v.recordRefusal k g.job w).loadDone c 1 w.code
      ((v.recordRefusal k g.job w).word .HUT_LOAD_REFUSAL 0 k).toNat none) := hex
    generalize v.recordRefusal k g.job w = u at *
    have hr := loadDone_keeps State.regs (fun _ _ _ => rfl) (fun _ _ => rfl) u c 1 w.code (u.word .HUT_LOAD_REFUSAL 0 k).toNat
    have hm := mems_loadDone u c 1 w.code (u.word .HUT_LOAD_REFUSAL 0 k).toNat none
    have hh := sects_loadDone_none u c 1 w.code (u.word .HUT_LOAD_REFUSAL 0 k).toNat
    exact .next hex ⟨(rd_of_regs hr ..).trans r1, (rd_of_regs hr ..).trans r2, hh.trans (congrArg HutX.sects (r3.trans hv.1)),
      .of_mems (hm.trans (r4.trans hv.2))⟩

end Sys2Proof.Proofs
end

section
/-! PROOF. The granules of a grant are zeroed for a new tenant (R321). -/

namespace Sys2Proof.Proofs

open Sys2Proof Sys2Proof.Machine

/-- The first byte of a granule of group k. -/
def granuleBase (k g : Nat) : Nat := k * groupSize + (g - 768 * k) * 0x10000000

theorem granuleBase_aligned (k g : Nat) : granuleBase k g % 8 = 0 := by
  unfold granuleBase groupSize
  omega

/-- Granules zeroed one after another. -/
def granulesZeroed (k : Nat) (s : State) (l : List Nat) : State := l.foldl (fun s g => s.zeroRange (granuleBase k g) (granuleBase k g + 0x10000000)) s

theorem granulesZeroed_shows (k : Nat) (l : List Nat) : ∀ s : State, let t := granulesZeroed k s l
    t.regs = s.regs ∧ t.hut = s.hut ∧
    (∀ z, s.byte z = 0 ∧ s.poisonedAt z = false ∨ (∃ g ∈ l, granuleBase k g ≤ z ∧ z < granuleBase k g + 0x10000000) →
      t.byte z = 0 ∧ t.poisonedAt z = false) ∧
    (∀ z, (∀ g ∈ l, z < granuleBase k g ∨ granuleBase k g + 0x10000000 ≤ z) → t.byte z = s.byte z ∧ t.poisonedAt z = s.poisonedAt z) := by
  induction l with
  | nil => exact fun s => ⟨rfl, rfl, fun z h => h.elim id (fun ⟨_, hg, _⟩ => absurd hg List.not_mem_nil), fun _ _ => ⟨rfl, rfl⟩⟩
  | cons g l ih =>
    intro s
    have ha := granuleBase_aligned k g
    have hz := zeroRange_reads s ha (show (granuleBase k g + 0x10000000) % 8 = 0 by omega)
    have hq : (s.zeroRange (granuleBase k g) (granuleBase k g + 0x10000000)).regs = s.regs ∧
      (s.zeroRange (granuleBase k g) (granuleBase k g + 0x10000000)).hut = s.hut := ⟨rfl, rfl⟩
    obtain ⟨h1, h2, h3, h4⟩ := ih (s.zeroRange (granuleBase k g) (granuleBase k g + 0x10000000))
    refine ⟨h1.trans hq.1, h2.trans hq.2, fun z h => h3 z ?_, fun z h => ?_⟩
    · by_cases hi : granuleBase k g ≤ z ∧ z < granuleBase k g + 0x10000000
      · exact .inl ((hz z).1 hi.1 hi.2)
      · obtain ⟨e1, e2⟩ := (hz z).2 (by omega)
        rw [e1, e2]
        refine h.imp id fun ⟨x, hx, hr⟩ => ?_
        obtain rfl | hx := List.mem_cons.mp hx
        · exact absurd hr hi
        · exact ⟨x, hx, hr⟩
    · obtain ⟨e1, e2⟩ := (hz z).2 (h g List.mem_cons_self)
      obtain ⟨f1, f2⟩ := h4 z (fun x hx => h x (List.mem_cons_of_mem _ hx))
      exact ⟨f1.trans e1, f2.trans e2⟩

/-- The granules of a grant that another tenant held last. -/
def foreignGranules (s : State) (p k base size : Nat) : List Nat :=
  (granulesOf k base size).filter (fun g => aget s.hut.lastOwner g != some (s.tenantOf p))

/-- A grant marked as zeroed. -/
def grantZeroed (v : State) (p k : Nat) : State := (v.modHut (fun h => { h with parts := zeroedFirst p k h.parts })).settleZeroing p k

theorem grantZeroed_shows {v : State} {p k base size : Nat} {c : Ctx} (hv : v.hut.parts = [.grant p k base size true c]) : let t := grantZeroed v p k
    t.hut.parts = [.grant p k base size false c] ∧ t.rd F.HUT_GRANT_ZEROING 0 (4 * p + k) = 0 ∧ mems t = mems v ∧
    SameRegs v t (oneReg .HUT_GRANT 0 (4 * p + k)) := by
  have hw : zeroedFirst p k v.hut.parts = [.grant p k base size false c] := by
    rw [hv, zeroedFirst, if_pos (by simp [PartReq.zeroingOf])]
  unfold grantZeroed
  generalize hg : v.modHut (fun h => { h with parts := zeroedFirst p k h.parts }) = w
  have hh : w.hut.parts = [.grant p k base size false c] := by rw [← hg]; exact hw
  have hr : w.regs = v.regs ∧ mems w = mems v := by rw [← hg]; exact ⟨rfl, rfl⟩
  have hany : w.hut.parts.any (fun q => q.zeroingOf p k) = false := by
    rw [hh]
    simp [PartReq.zeroingOf]
  unfold State.settleZeroing
  rw [hany]
  refine ⟨hh, ?_, hr.2, (SameRegs.of_eq hr.1).trans ((SameRegs.refl _ _).wr (f := F.HUT_GRANT_ZEROING) _ ⟨rfl, rfl, rfl⟩)⟩
  exact State.rd_wr_self _ _ _ _ _ (by decide)

theorem grantZeroing_runs {s : State} {p : PartNo} {k : BitVec 2} {base size : Nat} {c : Ctx}
    (h : s.hut.parts = [.grant p.toNat k.toNat base size true c]) : exec (.grantZeroingComplete p k) s =
      .next (grantZeroed (granulesZeroed k.toNat s (foreignGranules s p.toNat k.toNat base size)) p.toNat k.toNat) := by
  change execGrantZeroingComplete p k s = _
  unfold execGrantZeroingComplete
  dsimp only
  rw [h, List.find?_cons_of_pos (by simp [PartReq.zeroingOf])]
  rfl

theorem grantedGranulesAreZero : GrantedGranulesAreZero := by
  unfold GrantedGranulesAreZero
  intro s p k base size c
  extract_lets gs lo
  intro h
  have hex := grantZeroing_runs h
  obtain ⟨h1, h2, h3, h4⟩ := granulesZeroed_shows k.toNat (foreignGranules s p.toNat k.toNat base size) s
  have hf : ∀ g, g ∈ foreignGranules s p.toNat k.toNat base size ↔ g ∈ gs ∧ aget s.hut.lastOwner g ≠ some (s.tenantOf p.toNat) := fun g => by
    unfold foreignGranules
    rw [List.mem_filter, bne_iff_ne]
  generalize granulesZeroed k.toNat s (foreignGranules s p.toNat k.toNat base size) = v at *
  obtain ⟨g1, g2, g3, g4⟩ := grantZeroed_shows (v := v) (p := p.toNat) (k := k.toNat) (h2 ▸ h)
  generalize grantZeroed v p.toNat k.toNat = t at *
  have hb := SameMem.of_mems g3
  refine .next hex ⟨g1, g2, fun g hg ho z hl hr => ?_, fun z hz => ?_, (SameRegs.of_eq h1).trans g4⟩
  · rw [(hb z).1, (hb z).2]
    exact h3 z (.inr ⟨g, (hf g).mpr ⟨hg, ho⟩, hl, hr⟩)
  · rw [(hb z).1, (hb z).2]
    exact h4 z (fun g hg => hz g ((hf g).mp hg).1)

end Sys2Proof.Proofs
end

section
/-! PROOF. A section is quiesced and saved (R227, R332, R333, R335). -/

namespace Sys2Proof.Proofs

open Sys2Proof Sys2Proof.Machine

/-! ### Dynamic connections close -/

/-- What is true of the state whatever connections close. -/
structure CloseKeeps (P : State → Prop) : Prop where
  slot : ∀ (s : State) a d n v, P s → P (s.setSlot a d n v)
  closed : ∀ (s : State) a q, P s → P (s.wr F.QUE_STAT_CSTATE a q 0)
  queue : ∀ (s : State) a q g, P s → P (s.modQueue a q g)

theorem foldl_holds {α : Type} {P : State → Prop} {g : State → α → State} (h : ∀ s x, P s → P (g s x)) (l : List α) (s : State) (hs : P s) : P (l.foldl g s) := by
  induction l generalizing s with
  | nil => exact hs
  | cons x l ih => exact ih _ (h _ _ hs)

section
variable {P : State → Prop} (h : CloseKeeps P)
include h

theorem CloseKeeps.releaseSlots (s : State) (l : List (Nat × Nat × Nat)) (hs : P s) : P (s.releaseSlots l) :=
  foldl_holds (fun s _ hs => h.slot s _ _ _ _ hs) l s hs

theorem CloseKeeps.unbind (s : State) (b src : Nat) (hs : P s) : P (s.unbind b src) := by
  unfold State.unbind
  split
  · split
    · exact h.queue _ _ _ _ (h.closed _ _ _ hs)
    · exact hs
  · exact hs

theorem CloseKeeps.closeDyn (s : State) (a q : Nat) (hs : P s) : P (s.closeDyn a q) := by
  unfold State.closeDyn
  dsimp only
  refine h.closed _ _ _ (h.queue _ _ _ _ (h.unbind _ _ _ ?_))
  split
  · exact h.releaseSlots _ _ hs
  · exact h.releaseSlots _ _ hs
  · exact hs

theorem CloseKeeps.closeAllDyn (s : State) (a : Nat) (hs : P s) : P (s.closeAllDyn a) := by
  unfold State.closeAllDyn
  refine foldl_holds (fun s q hs => ?_) _ s hs
  split
  · exact h.closeDyn _ _ _ hs
  · exact hs

end

theorem closeKeeps_eq {γ : Type} (f : State → γ) (c : γ) (hw : ∀ (s : State) (g : Fld) a i v, g.reg = .QUE_STAT ∨ g.reg = .TRV_OUT → f (s.wr g a i v) = f s)
    (hq : ∀ (s : State) a q g, f (s.modQueue a q g) = f s) : CloseKeeps (fun s => f s = c) where
  slot _ _ _ _ _ h := (hw _ _ _ _ _ (.inr rfl)).trans h
  closed _ _ _ h := (hw _ _ _ _ _ (.inl rfl)).trans h
  queue _ _ _ _ h := (hq ..).trans h

theorem closeKeeps_role (r : Nat → Nat → Nat) : CloseKeeps (fun s => ∀ a q, s.role a q = r a q) where
  slot _ _ _ _ _ h a q := (State.rd_wr_other _ _ _ _ _ _ (.inl (by simp [F.TRV_OUT_SRC, Fld.at, F.QUE_CFG_ROLE]))).trans (h a q)
  closed _ _ _ h a q := (State.rd_wr_other _ _ _ _ _ _ (by decide)).trans (h a q)
  queue _ _ _ _ h := h

/-- A queue that is closed stays closed. -/
theorem closeKeeps_closed (a q : Nat) : CloseKeeps (fun s => s.rd F.QUE_STAT_CSTATE a q = 0) where
  slot _ _ _ _ _ h := (State.rd_wr_other _ _ _ _ _ _ (.inl (by simp [F.TRV_OUT_SRC, Fld.at, F.QUE_STAT_CSTATE]))).trans h
  closed s b i h := by
    by_cases hk : a = b ∧ q = i
    · obtain ⟨rfl, rfl⟩ := hk
      exact State.rd_wr_self _ _ _ _ _ (by decide)
    · exact (s.rd_wr_ne 0 (fun e => hk e.2)).trans h
  queue _ _ _ _ h := h

theorem closeDyn_closes (s : State) (a q : Nat) : (s.closeDyn a q).rd F.QUE_STAT_CSTATE a q = 0 := State.rd_wr_self _ _ _ _ _ (by decide)

/-- Every dynamic connection of a site is closed (R227). -/
theorem closeAllDyn_closes (s : State) (a : Nat) {q : Nat} (hq : q < 32) (hr : s.role a q = 3) : (s.closeAllDyn a).rd F.QUE_STAT_CSTATE a q = 0 := by
  unfold State.closeAllDyn
  have hm := List.mem_range.mpr hq
  generalize List.range 32 = l at hm
  induction l generalizing s with
  | nil => exact absurd hm List.not_mem_nil
  | cons i l ih =>
    rw [List.foldl_cons]
    obtain rfl | hm := List.mem_cons.mp hm
    · have hk := closeKeeps_closed a q
      refine foldl_holds (P := fun s => s.rd F.QUE_STAT_CSTATE a q = 0) (fun s i hs => ?_) _ _ ?_
      · split
        · exact hk.closeDyn _ _ _ hs
        · exact hs
      · split
        · exact closeDyn_closes ..
        · next hn =>
          rw [hr, beq_self_eq_true, Bool.true_and, bne_iff_ne, not_not] at hn
          exact hn
    · refine ih _ ?_ hm
      split
      · exact (closeKeeps_role s.role).closeDyn s a i (fun _ _ => rfl) a q |>.trans hr
      · exact hr

/-! ### Quiescence -/

/-- A site whose programs have recorded their progress and whose connections are closed (R194, R332). -/
def siteQuieted (s : State) (a : Nat) : State :=
  let s := ((List.range 16).filter (fun n => hasProg a n && !s.isPf a n)).foldl (fun s n => s.recordProg a n) s
  let s := s.closeAllDyn a
  s.modSeq a (fun q => { q with claim := q.claim.map (fun c => { c with reply := none }) })

/-- What quieting a site keeps. -/
theorem siteQuieted_holds {P : State → Prop} (h : CloseKeeps P) (hp : ∀ (s : State) a n, P s → P (s.recordProg a n)) (hq : ∀ (s : State) a g, P s → P (s.modSeq a g))
    (s : State) (a : Nat) (hs : P s) : P (siteQuieted s a) := by
  unfold siteQuieted
  exact hq _ _ _ (h.closeAllDyn _ _ (foldl_holds (fun s n hs => hp s a n hs) _ s hs))

theorem recordProg_rd {g : Fld} (h : g.reg ≠ .STR_PROG ∧ g.reg ≠ .TRN_PROG) (s : State) (a n b i : Nat) : (s.recordProg a n).rd g b i = s.rd g b i := by
  refine State.rd_wr_other _ _ _ _ _ _ (.inl ?_)
  unfold strFld
  split
  · exact h.2
  · exact h.1

theorem siteQuieted_role (r : Nat → Nat → Nat) (s : State) (a : Nat) (h : ∀ b q, s.role b q = r b q) : ∀ b q, (siteQuieted s a).role b q = r b q :=
  siteQuieted_holds (P := fun s => ∀ b q, s.role b q = r b q) (closeKeeps_role r) (fun s a n hs b q => (recordProg_rd (by decide) s a n b q).trans (hs b q))
    (fun _ _ _ hs => hs) s a h

theorem siteQuieted_closed (b q : Nat) (s : State) (a : Nat) (h : s.rd F.QUE_STAT_CSTATE b q = 0) : (siteQuieted s a).rd F.QUE_STAT_CSTATE b q = 0 :=
  siteQuieted_holds (closeKeeps_closed b q) (fun s a n hs => (recordProg_rd (by decide) s a n b q).trans hs) (fun _ _ _ hs => hs) s a h

theorem siteQuieted_closes (s : State) (a : Nat) {q : Nat} (hq : q < 32) (hr : s.role a q = 3) : (siteQuieted s a).rd F.QUE_STAT_CSTATE a q = 0 := by
  refine closeAllDyn_closes _ a hq ?_
  exact (foldl_keep (fun s => s.role a q) _ (fun s n => recordProg_rd (g := F.QUE_CFG_ROLE) (by decide) s a n a q) _ s).trans hr

/-- The sites of a region, quieted. -/
theorem sitesQuieted_close (l : List Nat) (s : State) {a q : Nat} (ha : a ∈ l) (hq : q < 32) (hr : s.role a q = 3) :
    (l.foldl siteQuieted s).rd F.QUE_STAT_CSTATE a q = 0 := by
  induction l generalizing s with
  | nil => exact absurd ha List.not_mem_nil
  | cons b l ih =>
    rw [List.foldl_cons]
    obtain rfl | ha := List.mem_cons.mp ha
    · exact foldl_holds (fun s b hs => siteQuieted_closed a q s b hs) l _ (siteQuieted_closes s a hq hr)
    · exact ih _ ha (siteQuieted_role s.role s b (fun _ _ => rfl) a q |>.trans hr)

theorem sitesQuieted_keep (l : List Nat) (s : State) : let t := l.foldl siteQuieted s
    t.hut = s.hut ∧ (∀ e, t.sectState e = s.sectState e) ∧ mems t = mems s := by
  have hp : ∀ (g : Fld) (a i : Nat), g.reg = .HUT_SECT → ∀ s : State, ∀ b, (siteQuieted s b).rd g a i = s.rd g a i := fun g a i hg s b =>
    siteQuieted_holds (P := fun t => t.rd g a i = s.rd g a i)
      (closeKeeps_eq (fun t => t.rd g a i) _ (fun s k a i v hk => State.rd_wr_other _ _ _ _ _ _ (.inl (by rcases hk with hk | hk <;> rw [hg, hk] <;> decide))) (fun _ _ _ _ => rfl))
      (fun s c n hs => (recordProg_rd (by rw [hg]; decide) s c n a i).trans hs) (fun _ _ _ hs => hs) s b rfl
  refine ⟨foldl_keep State.hut _ (fun s a => ?_) l s, fun e => foldl_keep (fun s => s.sectState e) _ (fun s b => hp F.HUT_SECT_STATE 0 e rfl s b) l s,
    mems_foldl _ _ _ (fun s a => ?_)⟩
  · exact siteQuieted_holds (P := fun t => t.hut = s.hut) (closeKeeps_eq State.hut _ (fun _ _ _ _ _ _ => rfl) (fun _ _ _ _ => rfl)) (fun _ _ _ hs => hs) (fun _ _ _ hs => hs) s a rfl
  · unfold siteQuieted
    simp

/-- A section whose place in the directory is rewritten: its entry, and what else the state shows. -/
theorem modSect_shows {s : State} {e : Nat} {x : SectX} (h : s.sectX? e = some x) (g : SectX → SectX) : let t := s.modSect e g
    t.sectX? e = some (g x) ∧ t.regs = s.regs ∧ t.sites = s.sites ∧ mems t = mems s :=
  ⟨modSect_sect h g, (modSect_quiet s e g).1, sites_modSect s e g, (modSect_quiet s e g).2.2⟩

section
variable {s : State} {p : PartNo} {n : EntryNo} {x : SectX} (hx : s.sectX? (sectNo p n) = some x)
include hx

theorem sectionQuiesces (hp : x.phase = .quiescing) (hq : s.quiesced (sectNo p n) = true) : let e := sectNo p n
    Done (.quiescence p n) s (fun t => (t.sectX? e).map SectX.phase = some .saving ∧ t.sectState e = s.sectState e ∧
      (∀ a ∈ s.regionSites e, ∀ q, q < 32 → s.role a q = 3 → t.rd F.QUE_STAT_CSTATE a q = 0) ∧ SameMem s t) := by
  intro e
  have hex : exec (.quiescence p n) s = .next (((s.regionSites e).foldl siteQuieted s).modSect e (fun x => { x with phase := .saving })) := by
    change execQuiescence p n s = _
    unfold execQuiescence
    dsimp only
    rw [hx]
    refine congrArg Host.Outcome.next (if_neg ?_)
    rw [hp, hq]
    decide
  obtain ⟨h1, h2, h3⟩ := sitesQuieted_keep (s.regionSites e) s
  have h4 := fun a ha q hq hr => sitesQuieted_close (s.regionSites e) s (a := a) (q := q) ha hq hr
  generalize (s.regionSites e).foldl siteQuieted s = v at hex h1 h2 h3 h4
  obtain ⟨m1, m2, -, m4⟩ := modSect_shows (s := v) (e := e) (x := x) ((congrArg (fun h => aget (HutX.sects h) e) h1).trans hx) (fun x => { x with phase := .saving })
  exact .next hex ⟨congrArg (Option.map SectX.phase) m1, (rd_of_regs m2 ..).trans (h2 e), fun a ha q hq hr => (rd_of_regs m2 ..).trans (h4 a ha q hq hr),
    .of_mems (m4.trans h3)⟩

end

/-! ### The region's sites -/

/-- The sites of a region, of the list that the sites stand in. -/
def sitesOf (e : Nat) (l : List (Nat × Site)) : List Nat := (l.filter (fun x => x.2.sect == some e)).map Prod.fst

theorem sitesOf_aput (e : Nat) (l : List (Nat × Site)) (a : Nat) {y : Site} (hy : y.sect = ((aget l a).getD Site.reset).sect) :
    sitesOf e (aput l a y) = sitesOf e l := by
  unfold sitesOf
  induction l with
  | nil =>
    have h : y.sect = none := hy
    rw [aput, List.filter_cons_of_neg (by simp [h])]
  | cons z l ih =>
    obtain ⟨b, w⟩ := z
    by_cases hb : b = a
    · subst hb
      have h : y.sect = w.sect := by simpa [aget] using hy
      simp only [aput, if_true, List.filter_cons, h]
      split <;> rfl
    · rw [aget, if_neg hb] at hy
      have h := ih hy
      rw [aput, if_neg hb, List.filter_cons, List.filter_cons]
      split
      · rw [List.map_cons, List.map_cons, h]
      · exact h

theorem regionSites_modSite (e : Nat) (s : State) (a : Nat) (g : Site → Site) (hg : ∀ x, (g x).sect = x.sect) : (s.modSite a g).regionSites e = s.regionSites e :=
  sitesOf_aput e s.sites a (hg _)

/-! ### The bytes of a save are counted -/

theorem moveSaved_keeps {γ : Type} (f : State → γ) (hc : ∀ (s : State) c a n, f (s.count c a n) = f s) (hl : ∀ (s : State) a d g, f (s.modLink a d g) = f s)
    (ht : ∀ (s : State) k r n, f (s.take k r n) = f s) (s : State) (l : List Nat) (a b n : Nat) : f (s.moveSaved l a b n) = f s := by
  unfold State.moveSaved
  split
  · exact hc ..
  · refine foldl_keep_snd f _ (fun z x => ?_) _ _
    refine (sendSvc_keeps f (fun s c a n _ => hc s c a n) hl ht ..).trans ?_
    split
    · exact launchRun_keeps f (fun s c a n _ => hc s c a n) hl ..
    · rfl

theorem countSaved_keeps {γ : Type} (f : State → γ) (hc : ∀ (s : State) c a n, f (s.count c a n) = f s) (hl : ∀ (s : State) a d g, f (s.modLink a d g) = f s)
    (ht : ∀ (s : State) k r n, f (s.take k r n) = f s) (s : State) (g : SectionImage) (l : List (Nat × Nat)) : f (s.countSaved g l) = f s :=
  foldl_keep f _ (fun _ _ => (hc ..).trans (moveSaved_keeps f hc hl ht ..)) _ _

theorem countSave_keeps {γ : Type} (f : State → γ) (hc : ∀ (s : State) c a n, f (s.count c a n) = f s) (s : State) (e : Nat) : f (s.countSave e) = f s := by
  unfold State.countSave
  split
  · exact hc ..
  · rfl

/-- A save's bytes and cycles, counted (R338). -/
def saveCounted (s : State) (e : Nat) (g : SectionImage) (l : List (Nat × Nat)) : State := (s.countSaved g l).countSave e

theorem saveCounted_shows (s : State) (e : Nat) (g : SectionImage) (l : List (Nat × Nat)) : let t := saveCounted s e g l
    t.regs = s.regs ∧ t.hut = s.hut ∧ (∀ k, t.regionSites k = s.regionSites k) ∧ mems t = mems s := by
  have h : ∀ {γ : Type} (f : State → γ), (∀ (s : State) c a n, f (s.count c a n) = f s) → (∀ (s : State) a d g, f (s.modLink a d g) = f s) →
      (∀ (s : State) k r n, f (s.take k r n) = f s) → f (saveCounted s e g l) = f s := fun f hc hl ht =>
    (countSave_keeps f hc ..).trans (countSaved_keeps f hc hl ht ..)
  exact ⟨h State.regs (fun _ _ _ _ => rfl) (fun _ _ _ _ => rfl) (fun s k r n => take_keeps State.regs s (fun _ _ _ _ => rfl) (fun _ _ => rfl) k r n), h State.hut (fun _ _ _ _ => rfl) (fun _ _ _ _ => rfl)
      (fun s k r n => take_keeps State.hut s (fun _ _ _ _ => rfl) (fun _ _ => rfl) k r n),
    fun k => h (fun s => s.regionSites k) (fun _ _ _ _ => rfl) (fun s a d g => regionSites_modSite k s a _ (fun _ => rfl))
      (fun s i r n => take_keeps (fun s => s.regionSites k) s (fun _ _ _ _ => rfl) (fun _ _ => rfl) i r n),
    h mems mems_count mems_modLink mems_take⟩

/-! ### The region is released -/

/-- A reading of the state that a region's release does not touch. -/
structure ReleaseKeeps {γ : Type} (f : State → γ) : Prop where
  wr : ∀ (s : State) (g : Fld) a i v, g.reg ∈ [.QUE_STAT, .TRV_OUT, .TRN_HALF, .COL_BAR] → f (s.wr g a i v) = f s
  site : ∀ (s : State) a g, f (s.modSite a g) = f s
  count : ∀ (s : State) c a n, f (s.count c a n) = f s
  doms : ∀ (s : State) (g : HutX → List (Nat × Nat)), f (s.modHut (fun h => { h with hostDoms := g h })) = f s

section
variable {γ : Type} {f : State → γ} (h : ReleaseKeeps f)
include h

theorem ReleaseKeeps.closes (c : γ) : CloseKeeps (fun s => f s = c) :=
  closeKeeps_eq f c (fun s g a i v hg => h.wr s g a i v (by rcases hg with hg | hg <;> rw [hg] <;> decide)) (fun _ _ _ _ => h.site ..)

theorem ReleaseKeeps.settleLog (s : State) (a : Nat) : f (s.settleLog a) = f s := by
  unfold State.settleLog
  split
  · exact (h.site ..).trans (h.count ..)
  · rfl

theorem ReleaseKeeps.releaseRegion (s : State) (e : Nat) : f (s.releaseRegion e) = f s := by
  unfold State.releaseRegion
  refine (h.doms ..).trans ((foldl_keep f _ (fun s a => (h.site ..).trans (h.settleLog ..)) _ _).trans ((foldl_keep f _ (fun s b => ?_) _ _).trans
    ((foldl_keep f _ (fun s a => (h.wr _ F.TRN_HALF_BOTH a 0 0 (by decide)).trans (h.wr s F.TRN_HALF_LIVE a 0 0 (by decide))) _ _).trans
      (foldl_keep f _ (fun s a => (h.closes (f s)).closeAllDyn s a rfl) _ s))))
  split
  · exact h.wr _ F.COL_BAR_ACTIVE _ _ _ (by decide)
  · rfl

end

theorem releaseKeeps_rd {g : Fld} (h : g.reg = .HUT_SECT) (a i : Nat) : ReleaseKeeps (fun s => s.rd g a i) where
  wr _ k _ _ _ hk := State.rd_wr_other _ _ _ _ _ _ (.inl (fun e => by rw [← e, h] at hk; revert hk; decide))
  site _ _ _ := rfl
  count _ _ _ _ := rfl
  doms _ _ := rfl

theorem releaseKeeps_sects : ReleaseKeeps (fun s => s.hut.sects) where
  wr _ _ _ _ _ _ := rfl
  site _ _ _ := rfl
  count _ _ _ _ := rfl
  doms _ _ := rfl

/-- The site of a region that is released holds no section. -/
def siteReleased (s : State) (a : Nat) : State :=
  (s.settleLog a).modSite a (fun x => { x with sect := none, tarn := { x.tarn with clog := [], waiting := [], logWait := none } })

theorem sectOf_siteReleased_same (s : State) (a : Nat) : (siteReleased s a).sectOf a = none := by
  unfold siteReleased State.sectOf
  rw [State.site_modSite_same]

theorem sectOf_siteReleased (s : State) (b : Nat) {a : Nat} (h : s.sectOf a = none) : (siteReleased s b).sectOf a = none := by
  by_cases hb : a = b
  · subst hb
    exact sectOf_siteReleased_same ..
  · unfold siteReleased State.sectOf
    rw [State.site_modSite_ne _ _ hb]
    unfold State.settleLog
    split
    · unfold State.modTarn
      rw [State.site_modSite_ne _ _ hb]
      exact h
    · exact h

theorem sitesReleased_hold_none (l : List Nat) (s : State) {a : Nat} (h : a ∈ l) : (l.foldl siteReleased s).sectOf a = none := by
  induction l generalizing s with
  | nil => exact absurd h List.not_mem_nil
  | cons b l ih =>
    rw [List.foldl_cons]
    obtain rfl | h := List.mem_cons.mp h
    · exact foldl_holds (fun s b hs => sectOf_siteReleased s b hs) l _ (sectOf_siteReleased_same s a)
    · exact ih _ h

theorem releaseRegion_frees (s : State) (e : Nat) {a : Nat} (h : a ∈ s.regionSites e) : (s.releaseRegion e).sectOf a = none := by
  have hs : ∀ (v : State) (g : HutX → HutX), (v.modHut g).sectOf a = v.sectOf a := fun _ _ => rfl
  unfold State.releaseRegion
  exact (hs ..).trans (sitesReleased_hold_none _ _ h)

/-! ### The section is Saved -/

/-- A section Saved, with what its sites held. -/
def sectSaved (v : State) (e : Nat) (saved : List SavedSite) (bars : List SavedBar) : State :=
  ((v.wr F.HUT_SECT_BUSY 0 e 0).setSect e 5).modSect e (fun x => { x with phase := .none, saved := saved, savedBars := bars, autoRun := false })

theorem sectSaved_shows {v : State} {e : Nat} {x : SectX} (hx : v.sectX? e = some x) (saved : List SavedSite) (bars : List SavedBar) : let t := sectSaved v e saved bars
    t.sectState e = 5 ∧ t.rd F.HUT_SECT_BUSY 0 e = 0 ∧ (t.sectX? e).map SectX.saved = some saved ∧ (∀ k, t.regionSites k = v.regionSites k) ∧ mems t = mems v := by
  unfold sectSaved
  obtain ⟨k1, k2, k3, k4⟩ := setSect_shows (v.wr F.HUT_SECT_BUSY 0 e 0) e 5
  generalize hw : (v.wr F.HUT_SECT_BUSY 0 e 0).setSect e 5 = w at k1 k2 k3 k4
  have hh : w.sectX? e = some x := (congrArg (fun h => aget (HutX.sects h) e) k1).trans hx
  obtain ⟨m1, m2, m3, m4⟩ := modSect_shows hh (fun x => { x with phase := .none, saved := saved, savedBars := bars, autoRun := false })
  refine ⟨(rd_of_regs (m2.trans k2) ..).trans (State.rd_wr_self _ _ _ _ _ (by decide)),
    (rd_of_regs (m2.trans k2) ..).trans ((State.rd_wr_other _ _ _ _ _ _ (by decide)).trans (State.rd_wr_self _ _ _ _ _ (by decide))),
    congrArg (Option.map SectX.saved) m1, fun k => congrArg (sitesOf k) (m3.trans k4), m4.trans (k3.trans rfl)⟩

/-- A saved section's move to another row, and its RUN, if either waited for the save. -/
def savedOn (v : State) (e : Nat) (x : SectX) : State :=
  let s := match x.newRow with
    | some r => v.wr F.HUT_SECT_ORG_ROW 0 e r
    | none => v
  let s := s.modSect e (fun x => { x with halves := [], newRow := none })
  if x.autoRun then s.markRunnable e else s

/-- The barriers that a save holds: their words, and the members that have arrived. -/
def barsSaved (v : State) (g : SectionImage) (c r : Nat) : List SavedBar :=
  g.bars.map (fun b => ⟨b.bar, v.word .COL_BAR 0 b.bar, (g.region c r).filter (v.barBit .COL_BAR_ARR b.bar) |>.map (g.homeOf c r)⟩)

/-- What the directory and the sites show of a saved section. -/
def savedShown (e : Nat) (s : State) : Nat × Nat × Option (List SavedSite) × List (Nat × Site) × (List (Nat × Byte) × List (Nat × BitVec 2) × List (Nat × BitVec 8)) :=
  (s.sectState e, s.rd F.HUT_SECT_BUSY 0 e, (s.sectX? e).map SectX.saved, s.sites, mems s)

theorem savedShown_modSect (s : State) (e : Nat) (g : SectX → SectX) (hg : ∀ x, (g x).saved = x.saved) : savedShown e (s.modSect e g) = savedShown e s := by
  unfold savedShown State.sectState
  rw [sites_modSect, (modSect_quiet s e g).2.2, rd_of_regs (modSect_quiet s e g).1, rd_of_regs (modSect_quiet s e g).1]
  cases hx : s.sectX? e with
  | none =>
    unfold State.modSect
    unfold State.sectX? at hx
    rw [hx]
    dsimp only
    unfold State.sectX?
    rw [hx]
  | some x => rw [modSect_sect hx, Option.map_some, Option.map_some, hg]

theorem savedShown_wr (s : State) (e : Nat) (g : Fld) (v : Nat) (h : g = F.HUT_SECT_ORG_ROW ∨ g = F.HUT_SECT_RUNNABLE) : savedShown e (s.wr g 0 e v) = savedShown e s := by
  have h1 : (s.wr g 0 e v).sectState e = s.sectState e := State.rd_wr_other _ _ _ _ _ _ (by rcases h with rfl | rfl <;> decide)
  have h2 : (s.wr g 0 e v).rd F.HUT_SECT_BUSY 0 e = s.rd F.HUT_SECT_BUSY 0 e := State.rd_wr_other _ _ _ _ _ _ (by rcases h with rfl | rfl <;> decide)
  unfold savedShown
  rw [h1, h2]
  rfl

theorem savedShown_stamp (s : State) (e n : Nat) : savedShown e (s.modHut (fun h => { h with stamp := n })) = savedShown e s := rfl

theorem savedShown_markRunnable (s : State) (e : Nat) : savedShown e (s.markRunnable e) = savedShown e s :=
  (savedShown_modSect _ e (fun x => { x with stamp := s.hut.stamp }) (fun _ => rfl)).trans ((savedShown_stamp ..).trans (savedShown_wr s e _ 1 (.inr rfl)))

theorem savedOn_shown (v : State) (e : Nat) (x : SectX) : savedShown e (savedOn v e x) = savedShown e v := by
  unfold savedOn
  extract_lets w u
  have hw : savedShown e w = savedShown e v := by
    unfold w
    split
    · exact savedShown_wr _ _ _ _ (.inl rfl)
    · rfl
  have hu : savedShown e u = savedShown e v := (savedShown_modSect w e (fun x => { x with halves := [], newRow := none }) (fun _ => rfl)).trans hw
  clear_value u
  split
  · exact (savedShown_markRunnable u e).trans hu
  · exact hu

section
variable {s : State} {p : PartNo} {n : EntryNo} {x : SectX} (hx : s.sectX? (sectNo p n) = some x)
include hx

theorem saveComplete_runs (hp : x.phase = .saving) (hd : s.digReading (sectNo p n) = false) : let e := sectNo p n
    let l := x.img.rect.map (fun h => (h, x.img.moved (s.origin e).1 (s.origin e).2 h))
    exec (.saveComplete p n) s = .next (savedOn ((sectSaved (saveCounted s e x.img l) e
      (x.img.rect.map (fun h => s.saveSite x h (x.img.moved (s.origin e).1 (s.origin e).2 h)))
      (barsSaved (s.countSaved x.img l) x.img (s.origin e).1 (s.origin e).2)).releaseRegion e) e x) := by
  intro e l
  change execSaveComplete p n s = _
  unfold execSaveComplete
  dsimp only
  rw [hx]
  refine congrArg Host.Outcome.next ((if_neg ?_).trans rfl)
  rw [hp, hd]
  decide

theorem saveCompletes (hp : x.phase = .saving) (hd : s.digReading (sectNo p n) = false) : let e := sectNo p n
    Done (.saveComplete p n) s (fun t => t.sectState e = 5 ∧ t.rd F.HUT_SECT_BUSY 0 e = 0 ∧ (∀ a ∈ s.regionSites e, t.sectOf a = none) ∧
      (t.sectX? e).map SectX.saved = some (x.img.rect.map (fun h => s.saveSite x h (x.img.moved (s.origin e).1 (s.origin e).2 h))) ∧ SameMem s t) := by
  intro e
  generalize hsaved : x.img.rect.map (fun h => s.saveSite x h (x.img.moved (s.origin e).1 (s.origin e).2 h)) = saved
  have hex := saveComplete_runs hx hp hd
  dsimp only at hex
  rw [hsaved] at hex
  generalize barsSaved _ _ _ _ = bars at hex
  obtain ⟨c1, c2, c3, c4⟩ := saveCounted_shows s e x.img (x.img.rect.map (fun h => (h, x.img.moved (s.origin e).1 (s.origin e).2 h)))
  generalize saveCounted s e x.img _ = v at hex c1 c2 c3 c4
  obtain ⟨d1, d2, d3, d4, d5⟩ := sectSaved_shows (v := v) (e := e) (x := x) ((congrArg (fun h => aget (HutX.sects h) e) c2).trans hx) saved bars
  generalize sectSaved v e saved bars = w at hex d1 d2 d3 d4 d5
  have r1 : (w.releaseRegion e).sectState e = 5 := ((releaseKeeps_rd (g := F.HUT_SECT_STATE) rfl 0 e).releaseRegion w e).trans d1
  have r2 : (w.releaseRegion e).rd F.HUT_SECT_BUSY 0 e = 0 := ((releaseKeeps_rd (g := F.HUT_SECT_BUSY) rfl 0 e).releaseRegion w e).trans d2
  have r3 : ((w.releaseRegion e).sectX? e).map SectX.saved = some saved :=
    (congrArg (fun l => (aget l e).map SectX.saved) (releaseKeeps_sects.releaseRegion w e)).trans d3
  have r4 : ∀ a ∈ s.regionSites e, (w.releaseRegion e).sectOf a = none := fun a ha => releaseRegion_frees w e (by rw [d4, c3]; exact ha)
  have r5 : mems (w.releaseRegion e) = mems s := (mems_releaseRegion w e).trans (d5.trans c4)
  generalize w.releaseRegion e = u at hex r1 r2 r3 r4 r5
  have hu := savedOn_shown u e x
  generalize savedOn u e x = t at hex hu
  unfold savedShown at hu
  simp only [Prod.mk.injEq] at hu
  obtain ⟨u1, u2, u3, u4, u5⟩ := hu
  refine .next hex ⟨u1.trans r1, u2.trans r2, fun a ha => ?_, u3.trans r3, .of_mems (u5.trans r5)⟩
  refine Eq.trans ?_ (r4 a ha)
  unfold State.sectOf State.site
  rw [u4]

end

theorem sectionsAreSaved : SectionsAreSaved := fun _ _ _ _ hx => ⟨sectionQuiesces hx, saveCompletes hx⟩

/-- Settles O30. -/
theorem sectionsAreSavedAndGrantsZeroed : Obligations.SectionsAreSavedAndGrantsZeroed := ⟨sectionsAreSaved, grantedGranulesAreZero⟩

end Sys2Proof.Proofs
end

section
/-! PROOF. Domains come up and the transfer of a section's frames begins (R35, R328). -/

namespace Sys2Proof.Proofs

open Sys2Proof Sys2Proof.Machine

/-! ### Time keeps which entries hold a section -/

/-- The entries of the directory that hold a section. -/
def sectKeys (s : State) : List Nat := s.hut.sects.map Prod.fst

theorem sectKeys_noteRelease (s : State) (part b : Nat) : sectKeys (s.noteRelease part b) = sectKeys s := by
  unfold sectKeys State.noteRelease State.modHut
  rw [List.map_map]
  refine List.map_congr_left fun x _ => ?_
  dsimp only [Function.comp]
  split <;> rfl

theorem sectKeys_giveCredit (s : State) (a n : Nat) : sectKeys (s.giveCredit a n) = sectKeys s := by
  unfold State.giveCredit
  dsimp only
  split <;> rfl

theorem sectKeys_applyAdd (s : State) (id n : Nat) : sectKeys (s.applyAdd id n) = sectKeys s := by
  unfold State.applyAdd
  dsimp only
  split <;> rfl

theorem sectKeys_ringConsume (s : State) (id : Nat) : sectKeys (s.ringConsume id) = sectKeys s := by
  unfold State.ringConsume
  dsimp only
  split <;> rfl

theorem sectKeys_emitRelease (s : State) (b part : Nat) : sectKeys (s.emitRelease b part) = sectKeys s := by
  have h := foldl_keep sectKeys (fun s k => s.setWord .COL_BAR_ARR 0 (4 * b + k) 0) (fun _ _ => rfl) (List.range 4) s
  exact (sectKeys_noteRelease ..).trans h

theorem sectKeys_beforeRelease (s : State) : sectKeys (beforeRelease s) = sectKeys s := by
  unfold beforeRelease
  extract_lets own s0 adds s1 s1' s2
  have e0 : sectKeys s0 = sectKeys s := foldl_keep sectKeys _ (fun s id => sectKeys_ringConsume s id) _ _
  have e1 : sectKeys s1 = sectKeys s0 := foldl_keep sectKeys _ (fun s (x : Nat × Nat) => sectKeys_applyAdd s x.1 x.2) _ _
  have e2 : sectKeys s2 = sectKeys s1 := foldl_keep sectKeys (fun s (x : Nat × Nat) => s.sigAdd x.1 x.2) (fun s x => rfl) _ _
  exact (foldl_keep sectKeys _ (fun s (x : Nat × Nat) => sectKeys_giveCredit s _ _) _ _).trans (e2.trans (e1.trans e0))

theorem sectKeys_clock (s : State) (c d t : Nat) : sectKeys { s with cycle := c, cycles := d, time := t } = sectKeys s := rfl

theorem endCycle_none {s : State} (h : s.col.due = none) : ∃ c d t, s.endCycle = { beforeRelease s with cycle := c, cycles := d, time := t } := by
  unfold State.endCycle
  rw [h]
  exact ⟨_, _, _, rfl⟩

theorem sectKeys_endCycle (s : State) : sectKeys s.endCycle = sectKeys s := by
  cases h : s.col.due with
  | some x =>
    obtain ⟨c, d, t, he⟩ := endCycle_due h
    rw [he, sectKeys_clock, sectKeys_emitRelease, sectKeys_beforeRelease]
  | none =>
    obtain ⟨c, d, t, he⟩ := endCycle_none h
    rw [he, sectKeys_clock, sectKeys_beforeRelease]

theorem sectKeys_elapse (s : State) (n : Nat) : sectKeys (s.elapse n) = sectKeys s := by
  match n with
  | 0 => rfl
  | 1 => exact sectKeys_endCycle s
  | 2 => exact (sectKeys_endCycle _).trans (sectKeys_endCycle s)
  | n + 3 => exact (sectKeys_endCycle _).trans ((sectKeys_endCycle _).trans (sectKeys_endCycle s))

theorem sectKeys_at (s : State) (t : Nat) : sectKeys (s.at_ t) = sectKeys s := by
  unfold State.at_
  split
  · rfl
  · unfold State.pass
    refine (sectKeys_elapse ..).trans ?_
    unfold State.countDelay
    split
    · rfl
    · exact foldl_keep sectKeys (fun (u : State) a => u.count C.TRV_CNT_DELAY a (t - s.cycle)) (fun _ _ => rfl) _ _

theorem sectX?_isSome (s : State) (e : Nat) : (s.sectX? e).isSome = true ↔ e ∈ sectKeys s := by
  unfold State.sectX? sectKeys
  generalize s.hut.sects = l
  induction l with
  | nil => simp [aget]
  | cons x l ih =>
    obtain ⟨k, y⟩ := x
    rw [aget, List.map_cons, List.mem_cons]
    by_cases h : k = e
    · simp [h]
    · rw [if_neg h, ih]
      simp [Ne.symm h]

/-! ### Domains -/

theorem DomKind.num_lt (d : DomKind) : d.num < 6 := by
  cases d with
  | core => decide
  | router => decide
  | tier n => exact Nat.add_lt_add_left n.isLt 2

theorem at_fits {f : Fld} (hl : f.lo = 0) (hw : f.width = 2) {i : Nat} (h : i < 32) : (f.at 2 i).lo + (f.at 2 i).width ≤ 64 := by
  change f.lo + 2 * i + f.width ≤ 64
  omega

/-- A domain's state as it is set (R35). -/
theorem setDom_shows (s : State) (d : DomKind) (a : Nat) {v : Nat} (hv : v < 4) : let t := s.setDom d.num a v
    t.dom d.num a = v ∧ t.hut = s.hut ∧ t.cycle = s.cycle ∧ Frame s t domRegs := by
  have hw : ∀ (g : Fld) (i : Nat), g.lo + g.width ≤ 64 → g.width = 2 → (s.wr g 0 i v).rd g 0 i = v := fun g i h h2 =>
    (State.rd_wr_self s g 0 i v h).trans (by rw [h2]; exact Nat.mod_eq_of_lt hv)
  have hn := DomKind.num_lt d
  unfold State.setDom State.dom
  split
  · exact ⟨hw _ _ (at_fits rfl rfl (by omega)) rfl, rfl, rfl, Frame.wr s v (.inl rfl)⟩
  · split
    · exact ⟨hw _ _ (at_fits rfl rfl (by omega)) rfl, rfl, rfl, Frame.wr s v (.inr (.inl rfl))⟩
    · exact ⟨hw _ _ (at_fits rfl rfl (by omega)) rfl, rfl, rfl, Frame.wr s v (.inr (.inr rfl))⟩

theorem domainPowersUp (s : State) (d : DomKind) (site : SiteId) (due : Nat)
    (hf : s.hut.switching.find? (fun x => x.1 == site.toNat && x.2.1 == d.num) = some (site.toNat, d.num, due)) : let w := s.cycle + (due - s.cycles)
    s.reaches w = true → Done (.domainPowerUpComplete d site) s (fun t => t.dom d.num site.toNat = 0 ∧
      (∀ x ∈ t.hut.switching, ¬ (x.1 = site.toNat ∧ x.2.1 = d.num)) ∧ w ≤ t.cycle ∧ Frame (s.at_ w) t domRegs) := by
  intro w hr
  have hex : exec (.domainPowerUpComplete d site) s = .next (((s.at_ w).setDom d.num site.toNat 0).modHut (fun h =>
      { h with switching := h.switching.filter (fun x => !(x.1 == site.toNat && x.2.1 == d.num)) })) := by
    change execDomainPowerUpComplete d site s = _
    unfold execDomainPowerUpComplete
    dsimp only
    rw [hf]
    exact congrArg Host.Outcome.next (if_neg (by rw [show s.reaches (s.cycle + (due - s.cycles)) = true from hr]; decide))
  obtain ⟨h1, -, h3, h4⟩ := setDom_shows (s.at_ w) d site.toNat (v := 0) (by decide)
  have hc := State.at_cycle hr
  generalize (s.at_ w).setDom d.num site.toNat 0 = v at hex h1 h3 h4
  refine .next hex ⟨h1, fun x hx ⟨e1, e2⟩ => ?_, (hc.symm.trans h3.symm).le, h4⟩
  have hx := (List.mem_filter.mp hx).2
  simp [e1, e2] at hx

theorem frameTransferStarts (s : State) (p : PartNo) (n : EntryNo) (x : SectX) : let e := sectNo p n
    let w := s.cycle + (x.startAt - s.cycles)
    s.sectX? e = some x → x.phase = .powering → s.reaches w = true → (∀ d ∈ s.domains x (s.regionSites e), s.dom d.1 d.2 = 0) →
    Done (.frameTransferStart p n) s (fun t => (t.sectX? e).map SectX.phase = some .loading ∧ w ≤ t.cycle ∧ t.sites = s.sites ∧ Frame (s.at_ w) t noReg) := by
  intro e w hx hp hr hd
  have hall : (s.domains x (s.regionSites e)).all (fun d => s.dom d.1 d.2 == 0) = true := by simpa using hd
  have hex : exec (.frameTransferStart p n) s = .next ((s.at_ w).modSect e (fun x => { x with phase := .loading })) := by
    change execFrameTransferStart p n s = _
    unfold execFrameTransferStart
    dsimp only
    rw [show s.sectX? (sectNo p n) = some x from hx]
    refine congrArg Host.Outcome.next (if_neg ?_)
    rw [hp, show s.reaches (s.cycle + (x.startAt - s.cycles)) = true from hr, show (s.domains x (s.regionSites (sectNo p n))).all _ = true from hall]
    decide
  have hs := (sectX?_isSome s e).mp (by rw [hx]; rfl)
  rw [← sectKeys_at s w, ← sectX?_isSome] at hs
  obtain ⟨y, hy⟩ := Option.isSome_iff_exists.mp hs
  obtain ⟨m1, m2, m3, m4⟩ := modSect_shows hy (fun x => { x with phase := .loading })
  have hc : ((s.at_ w).modSect e (fun x => { x with phase := .loading })).cycle = (s.at_ w).cycle := by
    unfold State.modSect
    split <;> rfl
  exact .next hex ⟨congrArg (Option.map SectX.phase) m1, ((State.at_cycle hr).symm.trans hc.symm).le, m3.trans (State.at_sites s w), .of_mems m4, .of_eq m2⟩

theorem domainsAndFrameTransferBegin : DomainsAndFrameTransferBegin := fun s => ⟨domainPowersUp s, frameTransferStarts s⟩

end Sys2Proof.Proofs
end

section
/-! PROOF. The configuration controller reads staged frames and writes them into their sites (R322, R328, R410, R412). -/

namespace Sys2Proof.Proofs

open Sys2Proof Sys2Proof.Machine

/-! ### The stores of a frame -/

theorem aget_append {κ α : Type} [DecidableEq κ] (l m : List (κ × α)) (k : κ) : aget (List.append l m) k = (aget l k).or (aget m k) := by
  induction l with
  | nil => rfl
  | cons x l ih =>
    obtain ⟨j, v⟩ := x
    change aget ((j, v) :: List.append l m) k = _
    rw [aget, aget, ih]
    split <;> rfl

/-- The words that a frame lists: none where it is zero. -/
theorem aget_frameWords (b : Nat) (d : Nat → Word) (z n : Nat) :
    aget (((List.range n).map (fun i => (b + i, d i))).filter (fun y => y.2 != 0)) z =
      if b ≤ z ∧ z < b + n ∧ d (z - b) ≠ 0 then some (d (z - b)) else none := by
  induction n with
  | zero => rw [if_neg (by omega)]; rfl
  | succ n ih =>
    rw [List.range_succ, List.map_append, List.filter_append]
    refine (aget_append ..).trans ?_
    rw [ih, List.map_singleton, List.filter_singleton]
    by_cases hz : z = b + n
    · subst hz
      rw [if_neg (by omega), Option.none_or, Nat.add_sub_cancel_left]
      by_cases hd : d n = 0
      · rw [if_neg (fun h => h.2.2 hd), hd]
        rfl
      · rw [if_pos ⟨by omega, by omega, hd⟩, bne_iff_ne.mpr hd]
        exact if_pos rfl
    · have hl : aget (bif d n != 0 then [(b + n, d n)] else []) z = none := by
        cases d n != 0
        · rfl
        · exact if_neg (Ne.symm hz)
      rw [hl, Option.or_none]
      have hb : (b ≤ z ∧ z < b + n ∧ d (z - b) ≠ 0) ↔ (b ≤ z ∧ z < b + (n + 1) ∧ d (z - b) ≠ 0) :=
        ⟨fun ⟨h1, h2, h3⟩ => ⟨h1, by omega, h3⟩, fun ⟨h1, h2, h3⟩ => ⟨h1, by omega, h3⟩⟩
      exact if_congr hb rfl rfl

/-- A store with 32 addresses rewritten (R410). -/
theorem aget_putStore (l : List (Nat × Word)) (k : Nat) (data : List Word) (z : Nat) : aget (putStore l k data) z =
    if z / 32 = k then (let w := data.getD (z % 32) 0; if w = 0 then none else some w) else aget l z := by
  unfold putStore
  rw [aget_append, aget_frameWords (32 * k) (fun i => data.getD i 0) z 32]
  by_cases hk : z / 32 = k
  · rw [aget_filter_none _ _ _ (by simp [hk]), Option.none_or, if_pos hk]
    have hr : 32 * k ≤ z ∧ z < 32 * k + 32 ∧ z - 32 * k = z % 32 := by omega
    obtain ⟨h1, h2, h3⟩ := hr
    rw [h3]
    dsimp only
    by_cases hd : data.getD (z % 32) 0 = 0
    · rw [if_neg (fun h => h.2.2 hd), if_pos hd]
    · rw [if_pos ⟨h1, h2, hd⟩, if_neg hd]
  · rw [aget_filter _ _ _ (by simp [hk]), if_neg (by omega), Option.or_none, if_neg hk]

/-! ### What reading and sending keep -/

section
variable {γ : Type} (f : State → γ) (hm : ∀ (s : State) m, f { s with memc := m } = f s)
  (hs : ∀ (s : State) m p y, f { s with mem := m, poison := p, synd := y } = f s)
  (hc : ∀ (s : State) c k n, f (s.count c k n) = f s)
  (hn : ∀ (s : State) rule, f (s.note .MEM_ERR_LOG 0 0 rule) = f s)
  (hf : ∀ (s : State) n, f { s with free := n } = f s)
include hm hs hc hn hf

theorem readStaged_keeps (s : State) (e : Nat) (x : SectX) (k : Nat) : f (s.readStaged e x k).2 = f s := by
  have hr : ∀ (s : State) o x n, f (s.extReads o x n).2 = f s := fun s o x n =>
    extReads_keeps f (Nat.le_max_left 4 _) hm hs (fun s c k n _ _ => hc ..) hn hf s o (Nat.le_max_right 4 (groupOf (x + 8 * n)))
  unfold State.readStaged
  exact (hr ..).trans (hr ..)

end

/-- What a read of staged frames leaves of the state. -/
theorem readStaged_shows (s : State) (e : Nat) (x : SectX) (k : Nat) : let t := (s.readStaged e x k).2
    t.hut = s.hut ∧ t.sites = s.sites ∧ ∀ (g : Fld) a i, g.reg ≠ .MEM_ERR_LOG → t.rd g a i = s.rd g a i := by
  refine ⟨readStaged_keeps State.hut (fun _ _ => rfl) (fun _ _ _ _ => rfl) (fun _ _ _ _ => rfl) (fun _ _ => rfl) (fun _ _ => rfl) ..,
    readStaged_keeps State.sites (fun _ _ => rfl) (fun _ _ _ _ => rfl) (fun _ _ _ _ => rfl) (fun _ _ => rfl) (fun _ _ => rfl) .., fun g a i hg => ?_⟩
  refine readStaged_keeps (fun s => s.rd g a i) (fun _ _ => rfl) (fun _ _ _ _ => rfl) (fun _ _ _ _ => rfl) (fun s rule => ?_) (fun _ _ => rfl) s e x k
  exact congrArg (fieldGet g) (State.word_setWord_ne _ _ fun h => hg h.1)

theorem svcIn_shows (s : State) (a n : Nat) : let t := s.svcIn a n
    t.regs = s.regs ∧ t.hut = s.hut ∧ mems t = mems s ∧ ∀ b, stores (t.site b) = stores (s.site b) := by
  have h : ∀ {γ : Type} (f : State → γ), (∀ (s : State) c a n, f (s.count c a n) = f s) → (∀ (s : State) a d g, f (s.modLink a d g) = f s) →
      (∀ (s : State) k r n, f (s.take k r n) = f s) → f (s.svcIn a n) = f s := fun f hc hl ht => sendSvc_keeps f (fun s c a n _ => hc s c a n) hl ht ..
  exact ⟨h State.regs (fun _ _ _ _ => rfl) (fun _ _ _ _ => rfl) (fun s k r n => take_keeps State.regs s (fun _ _ _ _ => rfl) (fun _ _ => rfl) k r n),
    h State.hut (fun _ _ _ _ => rfl) (fun _ _ _ _ => rfl) (fun s k r n => take_keeps State.hut s (fun _ _ _ _ => rfl) (fun _ _ => rfl) k r n),
    h mems mems_count mems_modLink mems_take,
    fun b => h (fun s => stores (s.site b)) (fun _ _ _ _ => rfl) (fun s a d g => stores_modLink s b a d g)
      (fun s k r n => take_keeps (fun s => stores (s.site b)) s (fun _ _ _ _ => rfl) (fun _ _ => rfl) k r n)⟩

/-! ### A frame written into its site -/

theorem imageWrite_keeps {γ : Type} (f : State → γ) (hw : ∀ (s : State) g a i v, f (s.wr g a i v) = f s) (s : State) (a off : Nat) (w : Word) :
    f (s.imageWrite a off w) = f s := by
  unfold State.imageWrite
  split
  · rfl
  · exact foldl_keep f _ (fun _ _ => hw ..) _ s

/-- The programs of a site. -/
def programs (s : State) (b : Nat) : List (Nat × Word) × List (Nat × Word) := ((s.site b).prog, (s.site b).ag)

section
variable (w : State) (e : Nat) (x : SectX) (addr : Nat) (data : List Word)

/-- A site whose sequencer's program takes 32 words. -/
def progWritten (a k : Nat) : State :=
  w.modSite a (fun y => { y with prog := putStore y.prog k data, progSynd := y.progSynd.filter (fun z => z.1 / 32 != k) })

/-- A site whose stream programs take 32 words. -/
def agWritten (a k : Nat) : State :=
  w.modSite a (fun y => { y with ag := putStore y.ag k data, agSynd := y.agSynd.filter (fun z => z.1 / 32 != k) })

theorem programs_progWritten (a k b : Nat) : programs (progWritten w data a k) b =
    if b = a then (putStore (w.site a).prog k data, (w.site a).ag) else programs w b := by
  unfold programs progWritten
  split
  · next h => rw [h, State.site_modSite_same]
  · next h => rw [State.site_modSite_ne _ _ h]

theorem programs_agWritten (a k b : Nat) : programs (agWritten w data a k) b =
    if b = a then ((w.site a).prog, putStore (w.site a).ag k data) else programs w b := by
  unfold programs agWritten
  split
  · next h => rw [h, State.site_modSite_same]
  · next h => rw [State.site_modSite_ne _ _ h]

theorem writeFrame_prog (h : addr / 256 % 128 < 64) : w.writeFrame e x addr data = progWritten w data (addr % 256) (addr / 256 % 128) := if_pos h

theorem writeFrame_ag (h : 64 ≤ addr / 256 % 128) (h2 : addr / 256 % 128 < 80) :
    w.writeFrame e x addr data = agWritten w data (addr % 256) (addr / 256 % 128 - 64) := (if_neg (by omega)).trans (if_pos h2)

theorem writeFrame_regs (h : 80 ≤ addr / 256 % 128) {γ : Type} (f : State → γ) (hw : ∀ (s : State) g a i v, f (s.wr g a i v) = f s) :
    f (w.writeFrame e x addr data) = f w := by
  unfold State.writeFrame
  dsimp only
  rw [if_neg (by omega), if_neg (by omega)]
  split
  · exact foldl_keep f _ (fun _ _ => imageWrite_keeps f hw ..) _ w
  · rfl

theorem writeFrame_shows : let t := w.writeFrame e x addr data
    t.hut = w.hut ∧ mems t = mems w ∧ ∀ b, b ≠ addr % 256 → programs t b = programs w b := by
  by_cases h1 : addr / 256 % 128 < 64
  · rw [writeFrame_prog w e x addr data h1]
    exact ⟨rfl, rfl, fun b hb => (programs_progWritten ..).trans (if_neg hb)⟩
  · by_cases h2 : addr / 256 % 128 < 80
    · rw [writeFrame_ag w e x addr data (by omega) h2]
      exact ⟨rfl, rfl, fun b hb => (programs_agWritten ..).trans (if_neg hb)⟩
    · have h := @writeFrame_regs w e x addr data (by omega)
      exact ⟨h State.hut (fun _ _ _ _ _ => rfl), h mems (fun _ _ _ _ _ => rfl), fun b _ => h (programs · b) (fun _ _ _ _ _ => rfl)⟩

end

/-- A frame put into its site, and taken from the frames left. -/
def framePut (u : State) (e : Nat) (x : SectX) (l : List Nat) (y : Nat × List Word) : State :=
  ((u.svcIn (y.1 % 256) 256).writeFrame e x y.1 y.2).modSect e (fun x => { x with framesLeft := l })

theorem frameWritten {s u : State} {e : Nat} {x : SectX} (hx : s.sectX? e = some x) (hh : u.hut = s.hut) (hs : u.sites = s.sites)
    (l : List Nat) (y : Nat × List Word) : FrameWritten s u (framePut u e x l y) e l y := by
  unfold framePut
  obtain ⟨v1, v2, v3, v4⟩ := svcIn_shows u (y.1 % 256) 256
  have vp : ∀ b, programs (u.svcIn (y.1 % 256) 256) b = programs s b := fun b => by
    have h := v4 b
    rw [State.site_congr hs] at h
    unfold stores at h
    simp only [Prod.mk.injEq] at h
    exact Prod.ext h.1 h.2.2.1
  generalize u.svcIn (y.1 % 256) 256 = v at v1 v2 v3 vp ⊢
  obtain ⟨w1, w2, w3⟩ := writeFrame_shows v e x y.1 y.2
  have hp : y.1 / 256 % 128 < 64 → (v.writeFrame e x y.1 y.2).regs = v.regs ∧
      programs (v.writeFrame e x y.1 y.2) (y.1 % 256) = (putStore (v.site (y.1 % 256)).prog (y.1 / 256 % 128) y.2, (v.site (y.1 % 256)).ag) := fun h => by
    rw [writeFrame_prog v e x y.1 y.2 h]
    exact ⟨rfl, (programs_progWritten ..).trans (if_pos rfl)⟩
  have ha : 64 ≤ y.1 / 256 % 128 → y.1 / 256 % 128 < 80 → (v.writeFrame e x y.1 y.2).regs = v.regs ∧
      programs (v.writeFrame e x y.1 y.2) (y.1 % 256) = ((v.site (y.1 % 256)).prog, putStore (v.site (y.1 % 256)).ag (y.1 / 256 % 128 - 64) y.2) := fun h h2 => by
    rw [writeFrame_ag v e x y.1 y.2 h h2]
    exact ⟨rfl, (programs_agWritten ..).trans (if_pos rfl)⟩
  have hr : 80 ≤ y.1 / 256 % 128 → programs (v.writeFrame e x y.1 y.2) (y.1 % 256) = programs v (y.1 % 256) := fun h =>
    writeFrame_regs v e x y.1 y.2 h (programs · (y.1 % 256)) (fun _ _ _ _ _ => rfl)
  generalize v.writeFrame e x y.1 y.2 = w at w1 w2 w3 hp ha hr ⊢
  obtain ⟨m1, m2, m3, m4⟩ := modSect_shows (s := w) (e := e) (x := x) ((congrArg (fun h => aget (HutX.sects h) e) (w1.trans (v2.trans hh))).trans hx)
    (fun x => { x with framesLeft := l })
  generalize w.modSect e (fun x => { x with framesLeft := l }) = t at m1 m2 m3 m4 ⊢
  have tp : ∀ b, programs t b = programs w b := fun b => by
    unfold programs
    rw [State.site_congr m3]
  unfold programs at tp w3 hp ha hr vp
  simp only [Prod.mk.injEq] at tp w3 hp ha hr vp
  obtain ⟨vp, va⟩ := forall_and.mp vp
  obtain ⟨tp, ta⟩ := forall_and.mp tp
  refine ⟨congrArg (Option.map SectX.framesLeft) m1, .of_mems (m4.trans (w2.trans v3)), fun b hb => ?_, fun hk => ?_, fun h1 h2 => ?_, fun hk => ?_⟩
  · rw [tp, ta, (w3 b hb).1, (w3 b hb).2, vp, va]
    exact ⟨rfl, rfl⟩
  · obtain ⟨r, p1, p2⟩ := hp hk
    rw [tp, ta, p1, p2, vp, va]
    exact ⟨fun z => aget_putStore .., rfl, .of_eq (m2.trans (r.trans v1))⟩
  · obtain ⟨r, p1, p2⟩ := ha h1 h2
    rw [tp, ta, p1, p2, vp, va]
    exact ⟨fun z => aget_putStore .., rfl, .of_eq (m2.trans (r.trans v1))⟩
  · rw [tp, ta, (hr hk).1, (hr hk).2, vp, va]
    exact ⟨rfl, rfl⟩

/-! ### The next frame -/

/-- What follows a read: one way when it came through with its CRC, the other when it did not. -/
def readElse {α β : Type} (c : Bool) (o : Option α) (g : α → β) (z : β) : β := match c, o with
  | true, some y => g y
  | _, _ => z

theorem readElse_failed {α β : Type} {c : Bool} {o : Option α} (h : c = false ∨ o = none) (g : α → β) (z : β) : readElse c o g z = z := by
  obtain rfl | rfl := h
  · rfl
  · cases c <;> rfl

section
variable {s : State} {p : PartNo} {n : EntryNo} {x : SectX} {f : Nat} {l : List Nat} (hx : s.sectX? (sectNo p n) = some x) (hp : x.phase = .loading)
  (hl : x.framesLeft = f :: l)
include hx hp hl

/-- The write of a frame as its two reads come out. -/
theorem configFrameWrite_runs (c1 c2 : Bool) : let e := sectNo p n
    let r1 := s.readStaged e x f
    let r2 := r1.2.readStaged e x f
    (∀ y, c1 = true → r1.1 = some y → exec (.configFrameWrite p n c1 c2) s = .next (framePut r1.2 e x l y)) ∧
    (∀ y, (c1 = false ∨ r1.1 = none) → c2 = true → r2.1 = some y → exec (.configFrameWrite p n c1 c2) s = .next (framePut r2.2 e x l y)) ∧
    ((c1 = false ∨ r1.1 = none) → (c2 = false ∨ r2.1 = none) → exec (.configFrameWrite p n c1 c2) s = .next (r2.2.failFrames e)) := by
  intro e r1 r2
  have hex : exec (.configFrameWrite p n c1 c2) s = .next (readElse c1 r1.1 (framePut r1.2 e x l)
      (readElse c2 r2.1 (framePut r2.2 e x l) (r2.2.failFrames e))) := by
    change execConfigFrameWrite p n c1 c2 s = _
    unfold execConfigFrameWrite
    dsimp only
    rw [hx]
    dsimp only
    rw [hl]
    refine congrArg Host.Outcome.next ((if_neg (by rw [hp]; decide)).trans ?_)
    unfold framePut r2 r1 e
    generalize s.readStaged (sectNo p n) x f = z
    obtain ⟨a, u⟩ := z
    dsimp only
    generalize u.readStaged (sectNo p n) x f = z
    obtain ⟨b, v⟩ := z
    have second : ∀ (g : Nat × List Word → State) (w : State), (match c2, b with
        | true, some y => g y
        | _, _ => w) = readElse c2 b g w := fun _ _ => by
      cases c2
      · rfl
      · cases b <;> rfl
    match c1, a with
    | true, some y => rfl
    | true, none => exact second _ _
    | false, _ => exact second _ _
  rw [hex]
  refine ⟨fun y h1 h2 => ?_, fun y h1 h2 h3 => ?_, fun h1 h2 => ?_⟩
  · rw [h1, h2]
    rfl
  · rw [readElse_failed h1, h2, h3]
    rfl
  · rw [readElse_failed h1, readElse_failed h2]

omit hp hl in
/-- A frame that fits on neither read (R328, R34). -/
theorem framesFail {u : State} (hh : u.hut = s.hut) (hr : ∀ (g : Fld) a i, g.reg ≠ .MEM_ERR_LOG → u.rd g a i = s.rd g a i) : let e := sectNo p n
    (s.sectState e = 1 → (u.failFrames e).sectState e = 8 ∧ SameMem u (u.failFrames e)) ∧
    (s.sectState e ≠ 1 → (u.failFrames e).sectState e = s.sectState e ∧
      (u.failFrames e).hut.fails = List.append s.hut.fails [⟨e / 32, s.jobOf e, 0x20, 9, 0, 0, 0, none⟩] ∧
      ((u.failFrames e).sectX? e).map SectX.phase = some .none ∧ Frame u (u.failFrames e) noReg) := by
  intro e
  have h1 : u.sectState e = s.sectState e := hr F.HUT_SECT_STATE 0 e (by decide)
  have h2 : u.jobOf e = s.jobOf e := hr F.HUT_SECT_JOB 0 e (by decide)
  unfold State.failFrames
  rw [h1, h2]
  refine ⟨fun h => ?_, fun h => ?_⟩
  · rw [if_pos h]
    exact ⟨failSect_fails .., .of_mems (mems_failSect ..)⟩
  · rw [if_neg h]
    generalize hv : u.modHut (fun h => { h with fails := List.append h.fails [⟨e / 32, s.jobOf e, 0x20, 9, 0, 0, 0, none⟩] }) = v
    have hf : v.hut.sects = s.hut.sects ∧ v.hut.fails = List.append s.hut.fails [⟨e / 32, s.jobOf e, 0x20, 9, 0, 0, 0, none⟩] ∧ v.regs = u.regs ∧ mems v = mems u := by
      rw [← hv, ← hh]
      exact ⟨rfl, rfl, rfl, rfl⟩
    obtain ⟨f1, f2, f3, f4⟩ := hf
    obtain ⟨m1, m2, -, m4⟩ := modSect_shows (s := v) (e := e) (x := x) ((congrArg (aget · e) f1).trans hx) (fun x => { x with phase := .none })
    have m5 : (v.modSect e (fun x => { x with phase := .none })).hut.fails = v.hut.fails := by
      unfold State.modSect
      split <;> rfl
    exact ⟨(rd_of_regs (m2.trans f3) ..).trans h1, m5.trans f2, congrArg (Option.map SectX.phase) m1, .of_mems (m4.trans f4), .of_eq (m2.trans f3)⟩

end

theorem configFramesAreWritten : ConfigFramesAreWritten := by
  intro s p n x f l
  extract_lets e r1 r2
  intro hx hp hl
  obtain ⟨a1, a2, a3⟩ := readStaged_shows s e x f
  obtain ⟨b1, b2, b3⟩ := readStaged_shows r1.2 e x f
  have c1 := b1.trans a1
  have c2 := b2.trans a2
  have c3 : ∀ (g : Fld) a i, g.reg ≠ .MEM_ERR_LOG → r2.2.rd g a i = s.rd g a i := fun g a i h => (b3 g a i h).trans (a3 g a i h)
  refine ⟨fun k y hy => ?_, fun k y h1 hy => ?_, fun k1 k2 h1 h2 => ?_⟩
  · exact .next ((configFrameWrite_runs hx hp hl true k).1 y rfl hy) (frameWritten hx a1 a2 l y)
  · exact .next ((configFrameWrite_runs hx hp hl k true).2.1 y h1 rfl hy) (frameWritten hx c1 c2 l y)
  · have hex := (configFrameWrite_runs hx hp hl k1 k2).2.2 h1 h2
    obtain ⟨d1, d2⟩ := framesFail hx c1 c3
    exact ⟨fun h => .next hex (d1 h), fun h => .next hex (d2 h)⟩

end Sys2Proof.Proofs
end

section
/-! PROOF. A section becomes Armed, from its frames and, in a restore, from its restored state (R59, R244, R328, R336). -/

namespace Sys2Proof.Proofs

open Sys2Proof Sys2Proof.Machine

/-! ### The values assigned at arming -/

/-- Registers of the sites that arming assigns, beside the seeds. -/
def armRegs : List RegName := [.STR_STATE, .TRN_THR_STATE, .QUE_STAT, .MTX_RECOMP, .TRN_WC, .TRN_WC_CFG]

section
variable {γ : Type} (f : State → γ) (hw : ∀ (s : State) (g : Fld) a i v, g.reg ∈ armRegs → f (s.wr g a i v) = f s)
include hw

theorem wrs_keep (a i : Nat) (l : List (Fld × Nat)) (hl : ∀ x ∈ l, x.1.reg ∈ armRegs) (s : State) : f (s.wrs a i l) = f s := by
  induction l generalizing s with
  | nil => rfl
  | cons x l ih => exact (ih (fun y hy => hl y (List.mem_cons_of_mem _ hy)) _).trans (hw _ _ _ _ _ (hl x List.mem_cons_self))

theorem armCredits_keeps (s : State) (a : Nat) : f (s.armCredits a) = f s := by
  unfold State.armCredits
  refine (foldl_keep f _ (fun s q => ?_) _ _).trans (foldl_keep f _ (fun s n => hw _ _ _ _ _ ?_) _ s)
  · dsimp only
    split
    · exact hw _ F.QUE_STAT_RCRED _ _ _ (by decide)
    · split
      · exact hw _ F.QUE_STAT_RCRED _ _ _ (by decide)
      · rfl
  · unfold strFld
    split <;> decide

theorem armRecomp_keeps (s : State) (g : SectionImage) (a : Nat) (rec : SiteRec) : f (s.armRecomp g a rec) = f s := by
  unfold State.armRecomp
  extract_lets nests units
  clear_value units
  cases units with
  | nil => rfl
  | cons u l =>
    refine wrs_keep f hw _ _ _ (fun x hx => ?_) s
    simp only [List.mem_cons, List.not_mem_nil, or_false] at hx
    rcases hx with rfl | rfl | rfl <;> exact (show RegName.MTX_RECOMP ∈ armRegs by decide)

/-- The work counters of a Tarn as its image gives them (R253, R255). -/
def countersArmed (s : State) (a : Nat) (rec : SiteRec) : State :=
  (List.range 64).foldl (fun s k =>
    let cfg := rec.regWord (0x600 + 8 * k)
    (s.wr F.TRN_WC_VALUE a k (fieldGet F.TRN_WC_VALUE (rec.regWord (0x400 + 8 * k)))).wrs a k
      [(F.TRN_WC_CFG_MODE, fieldGet F.TRN_WC_CFG_MODE cfg), (F.TRN_WC_CFG_PAIR, fieldGet F.TRN_WC_CFG_PAIR cfg)]) s

theorem countersArmed_keeps (s : State) (a : Nat) (rec : SiteRec) : f (countersArmed s a rec) = f s := by
  refine foldl_keep f _ (fun s k => (wrs_keep f hw _ _ _ (fun x hx => ?_) _).trans (hw _ F.TRN_WC_VALUE _ _ _ (by decide))) _ s
  simp only [List.mem_cons, List.not_mem_nil, or_false] at hx
  rcases hx with rfl | rfl <;> exact (show RegName.TRN_WC_CFG ∈ armRegs by decide)

end

/-- A barrier active, with nothing arrived (R244, R258). -/
def barArmed (s : State) (p : Nat) (mv : Nat → Nat) (b : BarRec) : State :=
  let s := (s.setWord .COL_BAR 0 b.bar 0).wrs 0 b.bar [(F.COL_BAR_ACTIVE, 1), (F.COL_BAR_OWNER, p), (F.COL_BAR_REL, b.rel), (F.COL_BAR_TARGET, b.target)]
  (s.putMask .COL_BAR_MEM b.bar (b.members.map mv)).putMask .COL_BAR_ARR b.bar []

/-- The seeds of the Spurs of a region (R59). -/
def seedsArmed (s : State) (l : List Nat) (seed : Word) : State := (l.filter isSpur).foldl (fun s a => s.setWord .VEC_SR_SEED a 0 seed) s

/-- Everything arming assigns in the sites but the seeds. -/
def sitesArmed (s : State) (g : SectionImage) (c r : Nat) : State :=
  let s := (g.region c r).foldl (fun s a => s.armCredits a) s
  let s := g.sites.foldl (fun s rec => s.armRecomp g (g.moved c r rec.site) rec) s
  (g.sites.filter (fun x => isTarn x.site)).foldl (fun s rec => countersArmed s (g.moved c r rec.site) rec) s

theorem armValues_steps (s : State) (e : Nat) (x : SectX) : let o := s.origin e
    s.armValues e x = x.img.bars.foldl (fun s b => barArmed s (e / 32) (x.img.moved o.1 o.2) b)
      (sitesArmed (seedsArmed s (x.img.region o.1 o.2) x.img.seed) x.img o.1 o.2) := rfl

theorem sitesArmed_keeps {γ : Type} (f : State → γ) (hw : ∀ (s : State) (g : Fld) a i v, g.reg ∈ armRegs → f (s.wr g a i v) = f s)
    (s : State) (g : SectionImage) (c r : Nat) : f (sitesArmed s g c r) = f s :=
  (foldl_keep f _ (fun s _ => countersArmed_keeps f hw s _ _) _ _).trans
    ((foldl_keep f _ (fun s _ => armRecomp_keeps f hw s _ _ _) _ _).trans (foldl_keep f _ (fun s _ => armCredits_keeps f hw s _) _ s))

/-- Registers of the Col that arming assigns. -/
def barRegs : List RegName := [.COL_BAR, .COL_BAR_MEM, .COL_BAR_ARR]

theorem putMask_keeps {γ : Type} (f : State → γ) {r : RegName} (hw : ∀ (s : State) i v, f (s.setWord r 0 i v) = f s) (s : State) (b : Nat) (l : List Nat) :
    f (s.putMask r b l) = f s := foldl_keep f _ (fun _ _ => hw ..) _ s

theorem barArmed_keeps {γ : Type} (f : State → γ) (hw : ∀ (s : State) r i v, r ∈ barRegs → f (s.setWord r 0 i v) = f s) (s : State) (p : Nat) (mv : Nat → Nat)
    (b : BarRec) : f (barArmed s p mv b) = f s := by
  have hb : ∀ (s : State) (g : Fld) v, g.reg = .COL_BAR → f (s.wr g 0 b.bar v) = f s := fun s g v hg => hw s g.reg _ _ (by rw [hg]; decide)
  unfold barArmed
  refine (putMask_keeps f (fun s i v => hw s .COL_BAR_ARR i v (by decide)) ..).trans ((putMask_keeps f (fun s i v => hw s .COL_BAR_MEM i v (by decide)) ..).trans ?_)
  exact (hb _ F.COL_BAR_TARGET _ rfl).trans ((hb _ F.COL_BAR_REL _ rfl).trans ((hb _ F.COL_BAR_OWNER _ rfl).trans ((hb _ F.COL_BAR_ACTIVE _ rfl).trans
    (hw s .COL_BAR _ _ (by decide)))))

/-- What arming assigns no value to. -/
theorem armValues_keeps {γ : Type} (f : State → γ) (hw : ∀ (s : State) r a i v, r ∈ .VEC_SR_SEED :: List.append barRegs armRegs → f (s.setWord r a i v) = f s)
    (s : State) (e : Nat) (x : SectX) : f (s.armValues e x) = f s := by
  rw [armValues_steps]
  refine (foldl_keep f _ (fun s b => barArmed_keeps f (fun s r i v hr => hw s r 0 i v ?_) s _ _ b) _ _).trans
    ((sitesArmed_keeps f (fun s g a i v hg => hw s g.reg a i _ ?_) ..).trans (foldl_keep f _ (fun s a => hw s _ a 0 _ List.mem_cons_self) _ s))
  · exact List.mem_cons_of_mem _ (List.mem_append_left _ hr)
  · exact List.mem_cons_of_mem _ (List.mem_append_right _ hg)

/-! ### What the seeds and the barriers hold -/

theorem seedsArmed_seed (l : List Nat) (seed : Word) (s : State) {a : Nat} (ha : a ∈ l) (hs : isSpur a = true) : (seedsArmed s l seed).word .VEC_SR_SEED a 0 = seed := by
  have hm : a ∈ l.filter isSpur := List.mem_filter.mpr ⟨ha, hs⟩
  unfold seedsArmed
  generalize l.filter isSpur = k at hm
  induction k generalizing s with
  | nil => exact absurd hm List.not_mem_nil
  | cons b k ih =>
    rw [List.foldl_cons]
    by_cases hk : a ∈ k
    · exact ih _ hk
    · obtain rfl := (List.mem_cons.mp hm).resolve_right hk
      refine foldl_holds (P := fun s => s.word .VEC_SR_SEED a 0 = seed) (fun s b h => ?_) k _ (State.word_setWord_same ..)
      by_cases hb : a = b
      · subst hb
        exact State.word_setWord_same ..
      · exact (State.word_setWord_ne _ _ fun h => hb h.2.1).trans h

/-- A barrier that is active for a partition, with nothing arrived. -/
def BarActive (s : State) (p : Nat) (b : BarRec) : Prop :=
  s.rd F.COL_BAR_ACTIVE 0 b.bar = 1 ∧ s.rd F.COL_BAR_OWNER 0 b.bar = p % 16 ∧ s.rd F.COL_BAR_COUNT 0 b.bar = 0 ∧
    s.rd F.COL_BAR_TARGET 0 b.bar = b.target % 2 ^ F.COL_BAR_TARGET.width

theorem BarActive.of_word {s t : State} {p : Nat} {b : BarRec} (h : t.word .COL_BAR 0 b.bar = s.word .COL_BAR 0 b.bar) (hs : BarActive s p b) : BarActive t p b := by
  have hr : ∀ g : Fld, g.reg = .COL_BAR → t.rd g 0 b.bar = s.rd g 0 b.bar := fun g hg => by
    unfold State.rd
    rw [hg, h]
  unfold BarActive
  rwa [hr _ rfl, hr _ rfl, hr _ rfl, hr _ rfl]

theorem barArmed_other (s : State) (p : Nat) (mv : Nat → Nat) {b c : BarRec} (h : c.bar ≠ b.bar) : (barArmed s p mv b).word .COL_BAR 0 c.bar = s.word .COL_BAR 0 c.bar := by
  unfold barArmed
  refine (putMask_keeps (fun s => s.word .COL_BAR 0 c.bar) (fun s i v => State.word_setWord_ne _ _ fun h => by cases h.1) ..).trans
    ((putMask_keeps (fun s => s.word .COL_BAR 0 c.bar) (fun s i v => State.word_setWord_ne _ _ fun h => by cases h.1) ..).trans ?_)
  have hw : ∀ (s : State) (g : Fld) v, (s.wr g 0 b.bar v).word .COL_BAR 0 c.bar = s.word .COL_BAR 0 c.bar := fun s g v => s.word_wr_ne v fun e => h e.2.2
  exact (hw ..).trans ((hw ..).trans ((hw ..).trans ((hw ..).trans (State.word_setWord_ne _ _ fun e => h e.2.2))))

theorem barArmed_active (s : State) (p : Nat) (mv : Nat → Nat) (b : BarRec) : BarActive (barArmed s p mv b) p b := by
  unfold barArmed
  dsimp only
  have hm : ∀ (v : State) r l, r ≠ .COL_BAR → (v.putMask r b.bar l).word .COL_BAR 0 b.bar = v.word .COL_BAR 0 b.bar := fun v r l hr =>
    putMask_keeps (fun s => s.word .COL_BAR 0 b.bar) (fun s i v => State.word_setWord_ne _ _ fun h => hr h.1.symm) ..
  refine BarActive.of_word ((hm _ _ _ (by decide)).trans (hm _ _ _ (by decide))) ?_
  have h0 : (s.setWord .COL_BAR 0 b.bar 0).rd F.COL_BAR_COUNT 0 b.bar = 0 :=
    (congrArg (fieldGet F.COL_BAR_COUNT) (State.word_setWord_same ..)).trans (by decide)
  generalize s.setWord .COL_BAR 0 b.bar 0 = v at h0 ⊢
  unfold BarActive
  simp (disch := decide) only [State.wrs, List.foldl, State.rd_wr_self, State.rd_wr_other]
  exact ⟨rfl, rfl, h0, trivial⟩

/-- The barriers of a section, each of its own number, active (R244). -/
theorem barsArmed_active (p : Nat) (mv : Nat → Nat) (l : List BarRec) (hl : (l.map BarRec.bar).Nodup) (s : State) {b : BarRec} (hb : b ∈ l) :
    BarActive (l.foldl (fun s b => barArmed s p mv b) s) p b := by
  induction l generalizing s with
  | nil => exact absurd hb List.not_mem_nil
  | cons c l ih =>
    rw [List.map_cons, List.nodup_cons] at hl
    rw [List.foldl_cons]
    obtain rfl | hb := List.mem_cons.mp hb
    · refine BarActive.of_word ?_ (barArmed_active s p mv b)
      have hne : ∀ c ∈ l, b.bar ≠ c.bar := fun c hc e => hl.1 (e ▸ List.mem_map_of_mem hc)
      generalize barArmed s p mv b = v
      clear ih hl hb
      induction l generalizing v with
      | nil => rfl
      | cons c l ih =>
        rw [List.foldl_cons, ih (fun c hc => hne c (List.mem_cons_of_mem _ hc)), barArmed_other _ _ _ (hne c List.mem_cons_self)]
    · exact ih hl.2 _ hb

/-! ### The section becomes Armed -/

/-- A half of a section's Tarns, live (R200). -/
def halfLive (s : State) (h : Nat × Nat) : State :=
  s.wrs h.1 0 [(F.TRN_HALF_LIVE, 1), (F.TRN_HALF_BOTH, if h.2 = 2 then 1 else 0), (F.TRN_HALF_ACT, if h.2 = 1 then 1 else 0)]

def halvesLive (v : State) (l : List (Nat × Nat)) : State := l.foldl halfLive v

theorem halvesLive_shows (v : State) (l : List (Nat × Nat)) : let t := halvesLive v l
    t.hut = v.hut ∧ t.sites = v.sites ∧ ∀ r a i, r ≠ .TRN_HALF → t.word r a i = v.word r a i := by
  refine ⟨foldl_keep State.hut halfLive (fun _ _ => rfl) l v, foldl_keep State.sites halfLive (fun _ _ => rfl) l v,
    fun r a i hr => foldl_keep (fun s => s.word r a i) halfLive (fun s h => ?_) l v⟩
  have hw : ∀ (s : State) (g : Fld) n, g.reg = .TRN_HALF → (s.wr g h.1 0 n).word r a i = s.word r a i := fun s g n hg => s.word_wr_ne n fun e => hr (e.1.trans hg)
  exact (hw _ F.TRN_HALF_ACT _ rfl).trans ((hw _ F.TRN_HALF_BOTH _ rfl).trans (hw _ F.TRN_HALF_LIVE _ rfl))

/-- The cycles of a restore, counted (R338). -/
def restCounted (w : State) (e : Nat) (x : SectX) : State :=
  if x.restoring then w.count C.HUT_ACCT_RESTCYC (w.tenantOf (e / 32)) (w.cycles - x.since) else w

/-- What the directory keeps of a section that is Armed now. -/
def armedNow (x : SectX) : SectX := { x with phase := .none, everArmed := true, restoring := false, pfStarted := [] }

theorem becomeArmed_shows {v : State} {e : Nat} {y : SectX} (hy : v.sectX? e = some y) (x : SectX) : let t := v.becomeArmed e x
    t.sectState e = 2 ∧ t.rd F.HUT_SECT_BUSY 0 e = 0 ∧ (t.sectX? e).map SectX.phase = some .none ∧ t.sites = v.sites ∧
    ∀ r a i, r ≠ .TRN_HALF → r ≠ .HUT_SECT → t.word r a i = v.word r a i := by
  intro t
  have ht : t = ((((restCounted (halvesLive v x.halves) e x).modSect e armedNow).wr F.HUT_SECT_BUSY 0 e 0).setSect e 2) := rfl
  clear_value t
  obtain ⟨h1, h2, h3⟩ := halvesLive_shows v x.halves
  generalize halvesLive v x.halves = w at h1 h2 h3 ht
  generalize hu : restCounted w e x = u at ht
  have k : u.hut = w.hut ∧ u.sites = w.sites ∧ u.regs = w.regs := by
    rw [← hu]
    unfold restCounted
    split <;> exact ⟨rfl, rfl, rfl⟩
  obtain ⟨k1, k2, k3⟩ := k
  obtain ⟨m1, m2, m3, -⟩ := modSect_shows (s := u) (e := e) (x := y) ((congrArg (fun h => aget (HutX.sects h) e) (k1.trans h1)).trans hy)
    armedNow
  generalize u.modSect e armedNow = z at m1 m2 m3 ht
  obtain ⟨q1, q2, -, q4⟩ := setSect_shows (z.wr F.HUT_SECT_BUSY 0 e 0) e 2
  rw [← ht] at q1 q2 q4
  refine ⟨(rd_of_regs q2 ..).trans (State.rd_wr_self _ _ _ _ _ (by decide)),
    (rd_of_regs q2 ..).trans ((State.rd_wr_other _ _ _ _ _ _ (by decide)).trans (State.rd_wr_self _ _ _ _ _ (by decide))),
    (congrArg (fun h => (aget (HutX.sects h) e).map SectX.phase) q1).trans (congrArg (Option.map SectX.phase) m1), q4.trans (m3.trans (k2.trans h2)),
    fun r a i hr1 hr2 => ?_⟩
  have hw : ∀ {s t : State}, t.regs = s.regs → t.word r a i = s.word r a i := fun h => by
    unfold State.word
    rw [h]
  exact (hw q2).trans ((State.word_wr_ne _ _ fun e => hr2 e.1).trans ((State.word_wr_ne _ _ fun e => hr2 e.1).trans
    ((hw m2).trans ((hw k3).trans (h3 r a i hr1)))))

/-! ### The restored state -/

theorem restoreMem_hut (s : State) (x : SectX) (home a : Nat) (v : Option SavedSite) : (s.restoreMem x home a v).hut = s.hut := by
  have hz : ∀ (s : State) lo hi, (s.zeroRange lo hi).hut = s.hut := fun _ _ _ => rfl
  have hr : ∀ (s : State) o y n, (s.extReads o y n).2.hut = s.hut := fun s o y n =>
    extReads_keeps State.hut (Nat.le_max_left 4 _) (fun _ _ => rfl) (fun _ _ _ _ => rfl) (fun _ _ _ _ _ _ => rfl) (fun _ _ => rfl) (fun _ _ => rfl) s o
      (Nat.le_max_right 4 (groupOf (y + 8 * n)))
  unfold State.restoreMem
  extract_lets base bufs s1 s2
  have h1 : s1.hut = s.hut := by
    unfold s1
    split
    · exact foldl_keep State.hut _ (fun _ _ => hz ..) _ _
    · exact hz ..
  have h2 : s2.hut = s1.hut := by
    unfold s2
    cases v <;> rfl
  exact (foldl_keep State.hut _ (fun s b => (putRawWords_keeps State.hut (fun _ _ _ _ => rfl) _ _ _).trans (hr s .couloir _ _)) _ _).trans (h2.trans h1)

theorem restoreRegs_hut (s : State) (f : Nat → Nat) (a : Nat) (l : List (RegKey × Word)) : (s.restoreRegs f a l).hut = s.hut := by
  unfold State.restoreRegs
  refine foldl_keep State.hut _ (fun s y => ?_) l s
  dsimp only
  split <;> rfl

/-- What the restore of a site brings back of its sequencer and its matrix engine. -/
def engines (a : Nat) (s : State) : Nat × List LoopFrame × MtxX := ((s.seq a).pc, (s.seq a).frames, s.mtx a)

theorem engines_modLink (b : Nat) (s : State) (a d : Nat) (g : LinkX → LinkX) : engines b (s.modLink a d g) = engines b s := by
  unfold engines State.seq State.mtx State.modLink
  by_cases h : b = a
  · rw [h, State.site_modSite_same]
  · rw [State.site_modSite_ne _ _ h]

theorem engines_modQueue (b : Nat) (s : State) (a q : Nat) (g : QueueX → QueueX) : engines b (s.modQueue a q g) = engines b s := by
  unfold engines State.seq State.mtx State.modQueue
  by_cases h : b = a
  · rw [h, State.site_modSite_same]
  · rw [State.site_modSite_ne _ _ h]

/-- One site's restore (R336). -/
def siteRestored (s : State) (x : SectX) (a : Nat) (f : Nat → Nat) (v : SavedSite) : State :=
  ((s.restoreMem x v.home a (some v)).restoreRegs f a v.regs).modSite a (restoredSite f v.site a v.x)

theorem siteRestored_shows (s : State) (x : SectX) (a : Nat) (f : Nat → Nat) (v : SavedSite) : let t := siteRestored s x a f v
    t.hut = s.hut ∧ engines a t = (v.x.seq.pc, v.x.seq.frames, v.x.mtx) := by
  refine ⟨(restoreRegs_hut ..).trans (restoreMem_hut ..), ?_⟩
  unfold engines siteRestored State.seq State.mtx
  rw [State.site_modSite_same]
  rfl

/-- A saved barrier put back. -/
def barRestored (mv : Nat → Nat) (s : State) (b : SavedBar) : State :=
  ((s.setWord .COL_BAR 0 b.bar b.word).wr F.COL_BAR_ACTIVE 0 b.bar 1).putMask .COL_BAR_ARR b.bar (b.arrived.map mv)

theorem barRestored_keeps {γ : Type} (f : State → γ) (hw : ∀ (s : State) r a i w, f (s.setWord r a i w) = f s) (mv : Nat → Nat) (s : State) (b : SavedBar) :
    f (barRestored mv s b) = f s := by
  have h : ∀ (s : State) (g : Fld) i v, f (s.wr g 0 i v) = f s := fun s g i v => hw s g.reg 0 i _
  exact (putMask_keeps f (fun s i v => hw s .COL_BAR_ARR 0 i v) _ _ _).trans ((h ..).trans (hw ..))

/-- A restore's bytes counted, its trees attached and its barriers put back (R223, R282, R336). -/
def restoreSettled (s : State) (x : SectX) (c r : Nat) : State :=
  let s := s.countRestored x c r
  let s := x.saved.foldl (fun s v => s.reattach (x.img.moved c r v.home)) s
  x.savedBars.foldl (barRestored (x.img.moved c r)) s

theorem restoreSettled_keeps {γ : Type} (f : State → γ) (hc : ∀ (s : State) c a n, f (s.count c a n) = f s) (hl : ∀ (s : State) a d g, f (s.modLink a d g) = f s)
    (ht : ∀ (s : State) k r n, f (s.take k r n) = f s) (hq : ∀ (s : State) a q g, f (s.modQueue a q g) = f s)
    (hw : ∀ (s : State) r a i w, f (s.setWord r a i w) = f s) (s : State) (x : SectX) (c r : Nat) : f (restoreSettled s x c r) = f s := by
  have hr : ∀ (s : State) a, f (s.reattach a) = f s := fun s a => by
    unfold State.reattach
    refine foldl_keep f _ (fun s q => foldl_keep f _ (fun s y => ?_) _ s) _ s
    dsimp only
    split
    · exact hq ..
    · rfl
  have hn : ∀ s : State, f (s.countRestored x c r) = f s := fun s =>
    foldl_keep f (fun (s : State) (v : SavedSite) => (s.moveSaved (x.saved.map (fun v => x.img.moved c r v.home)) (saveTarn (x.img.moved c r v.home))
      (x.img.moved c r v.home) (s.saveBytes x.img v.home (x.img.moved c r v.home))).count C.MEM_CNT_RDBYTES (16 * groupOfCol (colOf (x.img.moved c r v.home)))
      (s.saveBytes x.img v.home (x.img.moved c r v.home))) (fun _ _ => (hc ..).trans (moveSaved_keeps f hc hl ht ..)) x.saved s
  unfold restoreSettled
  exact (foldl_keep f _ (barRestored_keeps f hw _) _ _).trans ((foldl_keep f _ (fun s v => hr s _) _ _).trans (hn s))

/-- Where a restore moves the addresses that a saved site holds (R484). -/
def restoreMoves (x : SectX) (c r : Nat) (v : SavedSite) : Nat → Nat :=
  relocAddr x.img (colOf v.site + x.img.homeC - colOf v.home) (rowOf v.site + x.img.homeR - rowOf v.home)
    ((x.saved.filter (fun w => isTarn w.site)).map (fun w =>
      let y := (aget w.regs ⟨.TRN_HALF, w.site, 0⟩).getD 0
      (w.site, if fieldGet F.TRN_HALF_BOTH y = 1 then 2 else fieldGet F.TRN_HALF_ACT y))) c r x.halves

/-- The sites of a save, restored. -/
def sitesRestored (s : State) (x : SectX) (c r : Nat) : State :=
  x.saved.foldl (fun s v => siteRestored s x (x.img.moved c r v.home) (restoreMoves x c r v) v) s

theorem putBack_steps (s : State) (e : Nat) (x : SectX) : let o := s.origin e
    s.putBack e x = restoreSettled (sitesRestored s x o.1 o.2) x o.1 o.2 := rfl

theorem sitesRestored_single (s : State) {x : SectX} {v : SavedSite} (h : x.saved = [v]) (c r : Nat) :
    sitesRestored s x c r = siteRestored s x (x.img.moved c r v.home) (restoreMoves x c r v) v := by
  unfold sitesRestored
  rw [h]
  rfl

theorem putBack_shows {s : State} {e : Nat} {x : SectX} {v : SavedSite} (h : x.saved = [v]) : let t := s.putBack e x
    t.hut = s.hut ∧ engines (x.img.moved (s.origin e).1 (s.origin e).2 v.home) t = (v.x.seq.pc, v.x.seq.frames, v.x.mtx) := by
  rw [putBack_steps, sitesRestored_single s h]
  generalize restoreMoves x (s.origin e).1 (s.origin e).2 v = f
  obtain ⟨h1, h2⟩ := siteRestored_shows s x (x.img.moved (s.origin e).1 (s.origin e).2 v.home) f v
  generalize siteRestored s x (x.img.moved (s.origin e).1 (s.origin e).2 v.home) f v = w at h1 h2
  refine ⟨(restoreSettled_keeps State.hut (fun _ _ _ _ => rfl) (fun _ _ _ _ => rfl) (fun s k r n => take_keeps State.hut s (fun _ _ _ _ => rfl) (fun _ _ => rfl) k r n)
    (fun _ _ _ _ => rfl) (fun _ _ _ _ _ => rfl) ..).trans h1, ?_⟩
  refine (restoreSettled_keeps (engines _) (fun _ _ _ _ => rfl) (engines_modLink _) (fun s k r n => take_keeps (engines _) s (fun _ _ _ _ => rfl) (fun _ _ => rfl) k r n)
    (engines_modQueue _) (fun _ _ _ _ _ => rfl) ..).trans h2

/-! ### Frames and restored state in place -/

theorem armIfReady_waits {v : State} {e : Nat} {x : SectX} (hx : v.sectX? e = some x) (hs : v.sectState e ≠ 2)
    (h : x.framesDone = false ∨ x.restoring = true ∧ x.restored = false) : v.armIfReady e = v := by
  unfold State.armIfReady
  rw [hx]
  dsimp only
  by_cases hd : x.framesDone = false
  · rw [hd]
    rfl
  · obtain ⟨h1, h2⟩ := h.resolve_left hd
    rw [Bool.not_eq_false] at hd
    rw [hd, if_neg (by decide), if_neg hs, h1, h2]
    rfl

theorem armIfReady_arms {v : State} {e : Nat} {x : SectX} (hx : v.sectX? e = some x) (hs : v.sectState e ≠ 2) (hd : x.framesDone = true)
    (h : x.restoring = false ∨ x.restored = true) : v.armIfReady e =
      (if x.restoring then (v.armValues e x).putBack e x else v.armValues e x).becomeArmed e x := by
  unfold State.armIfReady
  rw [hx]
  dsimp only
  rw [hd, if_neg (by decide), if_neg hs, if_neg]
  rintro hn
  rw [Bool.and_eq_true, Bool.not_eq_true'] at hn
  obtain h | h := h
  · rw [h] at hn
    exact absurd hn.1 (by decide)
  · rw [h] at hn
    exact absurd hn.2 (by decide)

section
variable {s : State} {p : PartNo} {n : EntryNo} {x : SectX} (hx : s.sectX? (sectNo p n) = some x) (hp : x.phase = .loading) (hs : s.sectState (sectNo p n) ≠ 2)
include hx hp

theorem reconfigComplete_runs (hl : x.framesLeft = []) (hd : x.framesDone = false) :
    exec (.reconfigComplete p n) s = .next ((s.modSect (sectNo p n) (fun x => { x with framesDone := true })).armIfReady (sectNo p n)) := by
  change execReconfigComplete p n s = _
  unfold execReconfigComplete
  dsimp only
  rw [hx]
  exact congrArg Host.Outcome.next (if_neg (by rw [hp, hl, hd]; decide))

theorem restoreComplete_runs (hr : x.restoring = true) (hd : x.restored = false) :
    exec (.restoreComplete p n) s = .next ((s.modSect (sectNo p n) (fun x => { x with restored := true })).armIfReady (sectNo p n)) := by
  change execRestoreComplete p n s = _
  unfold execRestoreComplete
  dsimp only
  rw [hx]
  exact congrArg Host.Outcome.next (if_neg (by rw [hp, hr, hd]; decide))

include hs

theorem framesDone_waits (hl : x.framesLeft = []) (hd : x.framesDone = false) (hr : x.restoring = true) (hn : x.restored = false) : let e := sectNo p n
    Done (.reconfigComplete p n) s (fun t => t.sectState e = s.sectState e ∧ (t.sectX? e).map SectX.framesDone = some true ∧ Frame s t noReg) := by
  intro e
  have hex := reconfigComplete_runs hx hp hl hd
  obtain ⟨m1, m2, -, m4⟩ := modSect_shows hx (fun x => { x with framesDone := true })
  generalize s.modSect (sectNo p n) (fun x => { x with framesDone := true }) = v at hex m1 m2 m4
  have hv : v.sectState e = s.sectState e := rd_of_regs m2 ..
  rw [armIfReady_waits m1 (by rw [hv]; exact hs) (.inr ⟨hr, hn⟩)] at hex
  exact .next hex ⟨hv, congrArg (Option.map SectX.framesDone) m1, .of_mems m4, .of_eq m2⟩

theorem restored_waits (hr : x.restoring = true) (hn : x.restored = false) (hd : x.framesDone = false) : let e := sectNo p n
    Done (.restoreComplete p n) s (fun t => t.sectState e = s.sectState e ∧ (t.sectX? e).map SectX.restored = some true ∧ Frame s t noReg) := by
  intro e
  have hex := restoreComplete_runs hx hp hr hn
  obtain ⟨m1, m2, -, m4⟩ := modSect_shows hx (fun x => { x with restored := true })
  generalize s.modSect (sectNo p n) (fun x => { x with restored := true }) = v at hex m1 m2 m4
  have hv : v.sectState e = s.sectState e := rd_of_regs m2 ..
  rw [armIfReady_waits m1 (by rw [hv]; exact hs) (.inl hd)] at hex
  exact .next hex ⟨hv, congrArg (Option.map SectX.restored) m1, .of_mems m4, .of_eq m2⟩

theorem framesArm (hl : x.framesLeft = []) (hd : x.framesDone = false) (hr : x.restoring = false) (hb : (x.img.bars.map BarRec.bar).Nodup) :
    let e := sectNo p n
    let o := s.origin e
    Done (.reconfigComplete p n) s (fun t => t.sectState e = 2 ∧ t.rd F.HUT_SECT_BUSY 0 e = 0 ∧ (t.sectX? e).map SectX.phase = some .none ∧
      (∀ a ∈ x.img.region o.1 o.2, isSpur a = true → t.word .VEC_SR_SEED a 0 = x.img.seed) ∧
      (∀ b ∈ x.img.bars, t.rd F.COL_BAR_ACTIVE 0 b.bar = 1 ∧ t.rd F.COL_BAR_OWNER 0 b.bar = (e / 32) % 16 ∧
        t.rd F.COL_BAR_COUNT 0 b.bar = 0 ∧ t.rd F.COL_BAR_TARGET 0 b.bar = b.target % 2 ^ F.COL_BAR_TARGET.width) ∧ SameMem s t) := by
  intro e o
  have hex := reconfigComplete_runs hx hp hl hd
  obtain ⟨m1, m2, -, m4⟩ := modSect_shows hx (fun x => { x with framesDone := true })
  generalize s.modSect (sectNo p n) (fun x => { x with framesDone := true }) = v at hex m1 m2 m4
  have hv : v.sectState e = s.sectState e := rd_of_regs m2 ..
  have ho : v.origin e = o := by
    unfold o State.origin
    rw [rd_of_regs m2, rd_of_regs m2]
  rw [armIfReady_arms m1 (by rw [hv]; exact hs) rfl (.inl hr), if_neg (by rw [show x.restoring = false from hr]; decide)] at hex
  generalize hy : { x with framesDone := true } = y at hex m1
  have hi : y.img = x.img := by rw [← hy]
  have k1 : (v.armValues e y).hut = v.hut := armValues_keeps State.hut (fun _ _ _ _ _ _ => rfl) ..
  have k2 : mems (v.armValues e y) = mems v := mems_armValues ..
  have k3 := armValues_steps v e y
  dsimp only at k3
  rw [ho, hi] at k3
  generalize v.armValues e y = u at hex k1 k2 k3
  obtain ⟨d1, d2, d3, -, d5⟩ := becomeArmed_shows (v := u) (e := e) (y := y) ((congrArg (fun h => aget (HutX.sects h) e) k1).trans m1) y
  have d6 : mems (u.becomeArmed e y) = mems u := mems_becomeArmed ..
  generalize u.becomeArmed e y = t at hex d1 d2 d3 d5 d6
  refine .next hex ⟨d1, d2, d3, fun a ha hspur => ?_, fun b hbm => ?_, .of_mems (d6.trans (k2.trans m4))⟩
  · rw [d5 _ _ _ (by decide) (by decide), k3]
    refine (foldl_keep (fun s => s.word .VEC_SR_SEED a 0) _ (fun s b => barArmed_keeps (fun s => s.word .VEC_SR_SEED a 0) (fun s r i w hr => ?_) s _ _ b) _ _).trans
      ((sitesArmed_keeps (fun s => s.word .VEC_SR_SEED a 0) (fun s g b i w hg => ?_) ..).trans (seedsArmed_seed _ _ v ha hspur))
    · exact State.word_setWord_ne _ _ fun h => by rw [← h.1] at hr; revert hr; decide
    · exact State.word_wr_ne _ _ fun h => by rw [← h.1] at hg; revert hg; decide
  · refine BarActive.of_word (d5 _ _ _ (by decide) (by decide)) ?_
    rw [k3]
    exact barsArmed_active _ _ _ hb _ hbm

theorem restoreArms {v : SavedSite} (hr : x.restoring = true) (hn : x.restored = false) (hd : x.framesDone = true) (hv : x.saved = [v]) :
    let e := sectNo p n
    let o := s.origin e
    Done (.restoreComplete p n) s (fun t => t.sectState e = 2 ∧ t.rd F.HUT_SECT_BUSY 0 e = 0 ∧
      (let a := x.img.moved o.1 o.2 v.home
       (t.seq a).pc = v.x.seq.pc ∧ (t.seq a).frames = v.x.seq.frames ∧ (t.mtx a) = v.x.mtx)) := by
  intro e o
  have hex := restoreComplete_runs hx hp hr hn
  obtain ⟨m1, m2, -, m4⟩ := modSect_shows hx (fun x => { x with restored := true })
  generalize s.modSect (sectNo p n) (fun x => { x with restored := true }) = u at hex m1 m2 m4
  have hu : u.sectState e = s.sectState e := rd_of_regs m2 ..
  have ho : u.origin e = o := by
    unfold o State.origin
    rw [rd_of_regs m2, rd_of_regs m2]
  rw [armIfReady_arms m1 (by rw [hu]; exact hs) hd (.inr rfl), if_pos (show x.restoring = true from hr)] at hex
  generalize hy : { x with restored := true } = y at hex m1
  have hi : y.img = x.img ∧ y.saved = [v] := by
    rw [← hy]
    exact ⟨rfl, hv⟩
  have k1 : (u.armValues e y).hut = u.hut := armValues_keeps State.hut (fun _ _ _ _ _ _ => rfl) ..
  have k2 : (u.armValues e y).origin e = o := by
    rw [← ho]
    unfold State.origin
    refine congrArg₂ Prod.mk ?_ ?_ <;>
    · refine armValues_keeps (fun s => s.rd _ 0 e) (fun s r a i w hr => ?_) u e y
      exact congrArg (fieldGet _) (State.word_setWord_ne _ _ fun h => by rw [← h.1] at hr; revert hr; decide)
  generalize u.armValues e y = w at hex k1 k2
  obtain ⟨q1, q2⟩ := putBack_shows (s := w) (e := e) hi.2
  rw [k2, hi.1] at q2
  generalize w.putBack e y = z at hex q1 q2
  obtain ⟨d1, d2, -, d4, -⟩ := becomeArmed_shows (v := z) (e := e) (y := y) ((congrArg (fun h => aget (HutX.sects h) e) (q1.trans k1)).trans m1) y
  generalize z.becomeArmed e y = t at hex d1 d2 d4
  have ht : engines (x.img.moved o.1 o.2 v.home) t = engines (x.img.moved o.1 o.2 v.home) z := by
    unfold engines State.seq State.mtx
    rw [State.site_congr d4]
  rw [q2] at ht
  unfold engines at ht
  simp only [Prod.mk.injEq] at ht
  exact .next hex ⟨d1, d2, ht⟩

end

theorem sectionsBecomeArmed : SectionsBecomeArmed := fun _ _ _ _ hx hp hs =>
  ⟨framesArm hx hp hs, framesDone_waits hx hp hs, restored_waits hx hp hs, fun _ => restoreArms hx hp hs⟩

/-- Settles O29. -/
theorem sectionsAreLoaded : Obligations.SectionsAreLoaded := ⟨domainsAndFrameTransferBegin, configFramesAreWritten, sectionsBecomeArmed⟩

end Sys2Proof.Proofs
end
